-- ==== Sys2Proof/Word.lean ====
section
/-! DEFINITION. The words of the module and the sparse table every indexed store of the state uses. -/

namespace Sys2Proof

/-- A 32-bit word: stack entries, system registers, program counters (R170, R171). -/
abbrev Word := BitVec 32

/-- A byte of memory (R10, R11). -/
abbrev Byte := BitVec 8

/-- A 64-bit register of a bench control block, a port block or a Foreman block. -/
abbrev Dword := BitVec 64

/-- An indexed store kept as plain data: (index, value) pairs with strictly rising indexes, in which no
pair holds the value an unlisted index reads as. -/
abbrev Tbl (α : Type) := List (Nat × α)

/-- Byte memory by address, in the same form; an unlisted byte reads 0. -/
abbrev Mem := List Host.Cell

end Sys2Proof
end

