-- ==== Sys2Proof/Syntax.lean ====
section
/-! DEFINITION. The commands of the block: one constructor of Instr per row of spec/opcode_table.json, and the operand
types they carry. A row's operands are the model's (the table gives none): the thread that issues, the unit an event
happens at, or what the outside brings (a frame, a measured power, a host write). -/

namespace Sys2Proof

/-- A thread context of a logical core: core id 0 to 511 (R7), context C0 to C7 (R256). -/
structure Thread where
  core : Nat
  ctx : Nat
  deriving DecidableEq, Repr

/-- Who writes a register: a thread (WRSR, WRTSR, or STW through a window), or the Foreman over the control
hierarchy (R239, R242, R233, R93). -/
inductive Writer where
  | thread (t : Thread)
  | foreman
  deriving DecidableEq, Repr

/-- A register: a system register by number as context `t` reaches it (R239, R312), or a register of a block by its
module address from 0xF000_0000_0000 upward (R29). -/
inductive RegAddr where
  | sys (t : Thread) (n : Nat)
  | blk (a : Nat)
  deriving DecidableEq, Repr

/-- A link error that a router input detects in a mesh cycle: at the router of `station`, input port `input`
(R313), single-bit or double-bit (R317). -/
structure LinkErr where
  station : Nat
  input : Nat
  double : Bool
  deriving DecidableEq, Repr

/-- A 64-bit word that becomes bad, single-bit or double-bit (R437, R738): of a memory, by module address; or of a bench's merging
buffer, by place and word. -/
inductive Upset where
  | word (addr : Nat) (double : Bool)
  | entry (bench place word : Nat) (double : Bool)
  deriving DecidableEq, Repr

/-- What the physical world does to the die in one mesh cycle. -/
structure MeshEnv where
  links : List LinkErr
  upsets : List Upset
  deriving DecidableEq, Repr

/-- A frame at a welt port (R498): destination and source address (R495), the 802.1Q tag if it has one, the EtherType, the 32 header
bytes (R499), the payload, the ICRC (R500) and what FEC did (0 nothing, 1 corrected, 2 uncorrectable). -/
structure Frame where
  dst : Nat
  src : Nat
  tag : Option Nat
  etype : Nat
  header : List Byte
  payload : List Byte
  icrc : Word
  fec : Nat
  deriving DecidableEq, Repr

/-- A host TLP to BAR2 or BAR4 (R542, R543, R706). `unc`: the access meets uncorrectable data. -/
structure HostAccess where
  write : Bool
  len : Nat
  bytes : List Byte
  poisoned : Bool
  unc : Bool
  deriving DecidableEq, Repr

/-- A reset scope with its target (R679). -/
inductive Scope where
  | core (c : Nat)
  | bench (b : Nat)
  | part (p : Nat)
  | die
  | module
  deriving DecidableEq, Repr

/-- What a start-up step finds in the world (R645 to R660): a record with no valid copy (step 4), links recalibrated
fully (steps 6, 7), BIST failures by physical place (step 8), link checks (step 10). -/
structure StepReport where
  recordBad : Bool
  retrain : Bool
  badCores : List (Nat × Nat × Nat)
  badStations : List (Nat × Nat)
  badMem : List Nat
  badWelt : List Nat
  moduleBad : Bool
  ucieBad : Bool
  gddrFail : List Nat
  ethFail : List Nat
  pcieLow : Bool
  cxlAttached : Bool
  cxlFail : Bool
  cxlGiB : Nat
  deriving DecidableEq, Repr

/-- A stream that a package declares (R502, R565): its id, send or receive end, planes, peer module and stream, the arrival
tally and window of a receive end, the sending bench's position and connections of a send end. -/
structure StreamDecl where
  id : Nat
  send : Bool
  planes : Nat
  peer : Nat
  pstr : Nat
  tally : Nat
  wbase : Nat
  wlen : Nat
  sbench : Nat
  conn : Nat
  deriving DecidableEq, Repr

/-- The sections of a program package (R565) whose byte layout the spec does not give, as what they declare: positions
are row-major from the rectangle's south-west bench; a core position is bench position × 4 + core. -/
structure Sections where
  /-- pattern entries: bench position, index, entry (R324) -/
  pattern : List (Nat × Nat × Dword)
  /-- compiled connections: bench position, id, entry (R330) -/
  conns : List (Nat × Nat × Dword)
  /-- the porter of its bench, 0 or 1, that owns a compiled connection: bench position, id, porter (R415) -/
  owners : List (Nat × Nat × Nat)
  /-- stockroom connections: bench position, device, entry (R394) -/
  srconns : List (Nat × Nat × Dword)
  /-- code: core position, address, bytes -/
  code : List (Nat × Nat × List Byte)
  /-- decode table entries (R244) -/
  ucdec : List (Nat × Word)
  /-- micro-store entries (R245) -/
  ustore : List (Nat × Word)
  /-- share registers: core position, system register number, value (R281) -/
  shares : List (Nat × Nat × Word)
  /-- initial TFMT values: variant, core position, context, index, value (R566) -/
  tfmt : List (Nat × Nat × Nat × Nat × Word)
  /-- relocation regions (R387) -/
  reloc : List Dword
  /-- live local memory: core position, address, bytes; live bench memory: bench position, bytes -/
  liveLocal : List (Nat × Nat × Nat)
  liveWindow : List (Nat × Nat)
  /-- declared queues: core position, queue, BENCH_Q word (R442) -/
  queues : List (Nat × Nat × Dword)
  /-- declared service paths: bench positions (R344) -/
  services : List (Nat × Nat)
  /-- declared streams (R502) -/
  streams : List StreamDecl
  deriving DecidableEq, Repr

/-- The commands. -/
inductive Instr where
  /-- NOP (R192). Does nothing for one issue slot. -/
  | nop (t : Thread)
  /-- DUP (R192). Copies the top of the operand stack. -/
  | dup (t : Thread)
  /-- DROP (R192). Discards the top of the operand stack. -/
  | drop (t : Thread)
  /-- SWAP (R192). Exchanges the top two operand stack entries. -/
  | swap (t : Thread)
  /-- OVER (R192). Copies the second operand stack entry to the top. -/
  | over (t : Thread)
  /-- ROT (R192). Rotates the third operand stack entry to the top. -/
  | rot (t : Thread)
  /-- NIP (R192). Discards the second operand stack entry. -/
  | nip (t : Thread)
  /-- TUCK (R192). Copies the top entry under the second. -/
  | tuck (t : Thread)
  /-- PICK (R192). Copies entry n (0 to 14) to the top, or raises a stack fault when n exceeds 14. -/
  | pick (t : Thread)
  /-- DEPTH (R178). Pushes the full operand depth, hardware entries plus spilled entries. -/
  | depth (t : Thread)
  /-- TOR (R174). Moves the top operand to the return stack. -/
  | tor (t : Thread)
  /-- FROMR (R174). Moves the top of the return stack to the operand stack. -/
  | fromr (t : Thread)
  /-- RCOPY (R174). Copies the top of the return stack to the operand stack. -/
  | rcopy (t : Thread)
  /-- ADD (R193). Adds two operands modulo 2^32. -/
  | add (t : Thread)
  /-- SUB (R193). Subtracts two operands modulo 2^32. -/
  | sub (t : Thread)
  /-- NEG (R193). Negates the top operand. -/
  | neg (t : Thread)
  /-- AND (R192). Bitwise and of two operands. -/
  | and (t : Thread)
  /-- OR (R192). Bitwise or of two operands. -/
  | or (t : Thread)
  /-- XOR (R192). Bitwise exclusive or of two operands. -/
  | xor (t : Thread)
  /-- NOT (R192). Bitwise complement of the top operand. -/
  | not (t : Thread)
  /-- SHL (R194). Shifts left by bits [4:0] of n. -/
  | shl (t : Thread)
  /-- SHR (R194). Shifts right logically by bits [4:0] of n. -/
  | shr (t : Thread)
  /-- SAR (R194). Shifts right arithmetically by bits [4:0] of n. -/
  | sar (t : Thread)
  /-- ROL (R194). Rotates left by bits [4:0] of n. -/
  | rol (t : Thread)
  /-- EQ (R195). Pushes 1 when the two operands are equal, otherwise 0. -/
  | eq (t : Thread)
  /-- LT (R195). Pushes 1 for a signed less-than, otherwise 0. -/
  | lt (t : Thread)
  /-- LTU (R195). Pushes 1 for an unsigned less-than, otherwise 0. -/
  | ltu (t : Thread)
  /-- ZEQ (R195). Pushes 1 when the operand is zero, otherwise 0. -/
  | zeq (t : Thread)
  /-- SEL (R195). Selects a when f is not zero, otherwise b. -/
  | sel (t : Thread)
  /-- MUL (R208). Starts a signed 64-bit multiply into MHI:MLO. -/
  | mul (t : Thread)
  /-- MULU (R208). Starts an unsigned 64-bit multiply into MHI:MLO. -/
  | mulu (t : Thread)
  /-- MACC (R211). Adds a signed product to MHI:MLO, chaining with earlier multiply-accumulates. -/
  | macc (t : Thread)
  /-- MULTIPLY_RESULT (R209). The multiplier writes MHI:MLO at the end of core cycle t + 2 after the multiply issued. -/
  | multiplyResult (t : Thread)
  /-- RDMLO (R210). Reads MLO; an early read returns the old value and counts in CORE_CNT_EARLYMUL. -/
  | rdmlo (t : Thread)
  /-- RDMHI (R210). Reads MHI, with the same early-read rule as RDMLO. -/
  | rdmhi (t : Thread)
  /-- CLZ (R192). Pushes the count of leading zero bits. -/
  | clz (t : Thread)
  /-- POPC (R192). Pushes the number of bits set. -/
  | popc (t : Thread)
  /-- PAR (R192). Pushes the parity of all 32 bits. -/
  | par (t : Thread)
  /-- BREV (R192). Reverses the bit order of the operand. -/
  | brev (t : Thread)
  /-- CRCB (R200). Performs one reflected CRC step over a byte, using CORE_CRCPOLY. -/
  | crcb (t : Thread)
  /-- CRCW (R200). Performs a reflected CRC step over a word, equal to four byte steps. -/
  | crcw (t : Thread)
  /-- LDW (R197). Loads a word from an aligned address. -/
  | ldw (t : Thread)
  /-- STW (R197). Stores a word to an aligned address. -/
  | stw (t : Thread)
  /-- LDH (R197). Loads a halfword, sign-extended. -/
  | ldh (t : Thread)
  /-- LDHU (R197). Loads a halfword, zero-extended. -/
  | ldhu (t : Thread)
  /-- STH (R197). Stores the low halfword of an operand. -/
  | sth (t : Thread)
  /-- LDB (R192). Loads a byte, sign-extended. -/
  | ldb (t : Thread)
  /-- LDBU (R192). Loads a byte, zero-extended. -/
  | ldbu (t : Thread)
  /-- STB (R192). Stores the low byte of an operand. -/
  | stb (t : Thread)
  /-- TAS (R198). Test-and-set: an indivisible read and write of 1 to a local-memory word. -/
  | tas (t : Thread)
  /-- BR (R196). Branches by a signed offset. -/
  | br (t : Thread)
  /-- BZ (R196). Branches when the flag is zero. -/
  | bz (t : Thread)
  /-- BNZ (R196). Branches when the flag is not zero. -/
  | bnz (t : Thread)
  /-- CALL (R196). Pushes the return address and branches by an offset. -/
  | call (t : Thread)
  /-- CALLX (R196). Pushes the return address and jumps to an absolute address. -/
  | callx (t : Thread)
  /-- RET (R192). Jumps to the address popped from the return stack. -/
  | ret (t : Thread)
  /-- JMP (R192). Jumps to an absolute address. -/
  | jmp (t : Thread)
  /-- LOOP (R214). Opens a hardware loop level with a count and an end address. -/
  | loop (t : Thread)
  /-- LEAVE (R219). Closes the innermost loop level and continues after its end. -/
  | leave (t : Thread)
  /-- RDSR (R239). Reads a system register by number, subject to the level permissions. -/
  | rdsr (t : Thread)
  /-- WRSR (R239). Writes a system register that has no behaviour of its own beyond its fields. -/
  | wrsr (t : Thread)
  /-- LITERAL_RUN (R183). A run of literal prefixes builds a value and pushes it. -/
  | literalRun (t : Thread) (ds : List Nat)
  /-- MMA (R135). Issues a matrix multiply-accumulate of tiles into an accumulator. -/
  | mma (t : Thread) (last : Byte)
  /-- ACCZ (R123). Zeroes the M by N elements of the committed bank and clears their ROWSAT bits. -/
  | accz (t : Thread) (last : Byte)
  /-- ACCRD (R150). Issues a read of the committed accumulator into a tile with conversion. -/
  | accrd (t : Thread) (last : Byte)
  /-- TFREE (R115). Clears the in-use flag of a tile. -/
  | tfree (t : Thread) (last : Byte)
  /-- TLD (R140). Issues a load of 2N-byte rows from local memory into a tile. -/
  | tld (t : Thread) (last : Byte)
  /-- TLDT (R141). Issues a transposing tile load. -/
  | tldt (t : Thread) (last : Byte)
  /-- TLDC (R142). Issues a converting tile load. -/
  | tldc (t : Thread) (last : Byte)
  /-- TLDS (R144). Issues a load of scale rows into a tile. -/
  | tlds (t : Thread) (last : Byte)
  /-- TLDP (R144). Issues a load of patch rows into a tile. -/
  | tldp (t : Thread) (last : Byte)
  /-- TST (R140). Issues a store of tile rows to local memory. -/
  | tst (t : Thread) (last : Byte)
  /-- TSTT (R141). Issues a transposing tile store. -/
  | tstt (t : Thread) (last : Byte)
  /-- TSTC (R142). Issues a converting tile store. -/
  | tstc (t : Thread) (last : Byte)
  /-- TSTS (R144). Issues a store of scale rows. -/
  | tsts (t : Thread) (last : Byte)
  /-- TSTP (R144). Issues a store of patch rows. -/
  | tstp (t : Thread) (last : Byte)
  /-- TCVT (R147). Issues a tile-to-tile format conversion. -/
  | tcvt (t : Thread) (last : Byte)
  /-- QNT (R149). Issues a quantisation of FP16, BF16 or INT8 rows into blocked rows with patches. -/
  | qnt (t : Thread) (last : Byte)
  /-- VADD (R152). Issues a lane-wise vector add. -/
  | vadd (t : Thread) (last : Byte)
  /-- VMUL (R152). Issues a lane-wise vector multiply. -/
  | vmul (t : Thread) (last : Byte)
  /-- VMAX (R152). Issues a lane-wise vector maximum. -/
  | vmax (t : Thread) (last : Byte)
  /-- VMIN (R152). Issues a lane-wise vector minimum. -/
  | vmin (t : Thread) (last : Byte)
  /-- VFMA (R153). Issues an in-place vector fused multiply-add. -/
  | vfma (t : Thread) (last : Byte)
  /-- VRSUM (R154). Issues a row sum reduction by a fixed pairwise tree. -/
  | vrsum (t : Thread) (last : Byte)
  /-- VRMAX (R154). Issues a row maximum reduction. -/
  | vrmax (t : Thread) (last : Byte)
  /-- VRMIN (R154). Issues a row minimum reduction. -/
  | vrmin (t : Thread) (last : Byte)
  /-- VACT (R155). Issues a piecewise cubic activation from the activation table. -/
  | vact (t : Thread) (last : Byte)
  /-- VACTLD (R156). Issues a load of the 2,048-byte activation table. -/
  | vactld (t : Thread) (last : Byte)
  /-- TILE_OP_START (R159). The device starts an issued tile operation once earlier operations have started, its unit accepts and its ports are free. -/
  | tileOpStart (core : Nat)
  /-- TILE_BEAT (R161). A load/store or vector operation advances one beat in a cycle whose ports are free of MMA fetches. -/
  | tileBeat (t : Thread)
  /-- TILE_OP_COMPLETE (R162). A tile operation completes after its tail, pops its operands and releases its thread. -/
  | tileOpComplete (t : Thread)
  /-- MMA_COMPLETE (R137). At s + C + 8 the accumulator banks exchange, flags and counters update, and the thread is released. -/
  | mmaComplete (t : Thread)
  /-- ASYW (R99). Pops a length and requests an assay window of that many core cycles. -/
  | asyw (t : Thread)
  /-- ASSAY_WINDOW_START (R100). A requested assay window begins once any earlier window in the bench and any running load or store have ended. -/
  | assayWindowStart (bench : Nat)
  /-- ASSAY_WINDOW_END (R99). The assay window expires and waiting tile loads and stores may start. -/
  | assayWindowEnd (bench : Nat)
  /-- ASSAY_SAMPLE_DONE (R103). A sample's comparison finishes and updates its layer slot; the next sample that fits may start. -/
  | assaySampleDone (bench : Nat)
  /-- COPEN (R448). Issues a request to open a channel to a receive queue. -/
  | copen (t : Thread)
  /-- COPEN_ANSWER (R449). The answer of the clicker or bench controller reaches the core and COPEN pushes its handle and status. -/
  | copenAnswer (t : Thread)
  /-- CSEND (R454). Issues a send of a staging buffer as one message on a channel. -/
  | csend (t : Thread)
  /-- CSEND_COMMIT (R455). A waiting CSEND commits once ring space and queue places are available. -/
  | csendCommit (t : Thread)
  /-- CSEND_TIMEOUT (R460). A CSEND's timeout expires; sync error records are written and CHTO is set at both cores. -/
  | csendTimeout (t : Thread)
  /-- CPUT (R453). Appends bytes from local memory to a staging buffer. -/
  | cput (t : Thread)
  /-- CRECV (R461). Copies the next message out of a receive queue, skipping a skip marker, and sends a credit. -/
  | crecv (t : Thread)
  /-- CCLOSE (R465). Sets an open channel to CLOSING. -/
  | cclose (t : Thread)
  /-- CABORT (R467). Aborts a channel under the abort-versus-completion rule and pushes the count and outcome. -/
  | cabort (t : Thread)
  /-- CSTAT (R464). Pushes a channel status word and frees the handle on a final state. -/
  | cstat (t : Thread)
  /-- CREDIT_ARRIVAL (R459). A credit reaches the sending bench and sets the known head, or aborts the channel when it carries ERR. -/
  | creditArrival (bench : Nat)
  /-- CHANNEL_DRAIN (R466). A closing channel's last message is written; the channel becomes CLOSED_CLEAN and the path is released. -/
  | channelDrain (core h : Nat)
  /-- CHANNEL_ABORT_DONE (R468). The last delivered message of an aborting channel is written; the channel becomes ABORTED. -/
  | channelAbortDone (core h : Nat)
  /-- RECEIVER_ABORT_NOTICE (R469). The receiving bench controller's abort notice reaches the sending bench and aborts the channel. -/
  | receiverAbortNotice (core h : Nat)
  /-- CLOSE_NOTICE (R466). The receiving bench controller learns over the control hierarchy that a channel has closed or aborted and sets the queue state. -/
  | closeNotice (core q : Nat)
  /-- QUEUE_ARM (R440). A write of ARMED = 1 arms a detached receive queue when BASE and SIZE are valid. -/
  | queueArm (w : Writer) (core q : Nat) (v : Dword)
  /-- QUEUE_DISARM (R441). A write of ARMED = 0 detaches a queue and aborts or releases its channel. -/
  | queueDisarm (w : Writer) (core q : Nat) (v : Dword)
  /-- CLICKER_REQUEST (R339). A path request reaches the clicker's ring stop and is queued, or answered CLICKER_FULL. -/
  | clickerRequest
  /-- CLICKER_SERVE (R337). The clicker takes the next request from its queue, checks it and cuts a path or refuses it. -/
  | clickerServe
  /-- PATH_RELEASE (R342). The clicker clears the source connection entry of a released path. -/
  | pathRelease (src conn : Nat)
  /-- PATH_ROUTERS_FREED (R342). P + 2h + 2 mesh cycles after a release, the path's router entries return to open-free. -/
  | pathRoutersFreed (src conn : Nat)
  /-- SERVICE_PATH_REQUEST (R344). A bench controller asks the clicker for a missing service path while the flit waits. -/
  | servicePathRequest (src dst : Nat)
  /-- MESH_CYCLE (R326). Each mesh cycle, every router sends the flits that its current pattern entry selects and the index advances. -/
  | meshCycle (env : MeshEnv)
  /-- FLIT_ARRIVAL (R334). A valid flit reaches its destination agent and is accepted, or discarded when its kind is not taken. -/
  | flitArrival (bench : Nat)
  /-- MEMORY_REQUEST (R351). A request enters a memory port in its request slot; a read starts or merges into an access, a write is performed. -/
  | memoryRequest (dev : Nat)
  /-- GDDR7_ACCESS_DONE (R353). The data of a GDDR7 read access becomes ready at the port. -/
  | gddr7AccessDone (dev acc : Nat) (err : Bool)
  /-- REPLY_SLOT (R350). At r + 1,024 the port sends the read reply, or a late marker when the data is not ready. -/
  | replySlot (dev : Nat)
  /-- RESERVE_SLOT_DELIVERY (R361). Late data leaves in the first reserve slot toward its consumer bench. -/
  | reserveSlotDelivery (dev : Nat)
  /-- MEMORY_REPLY_ARRIVAL (R363). A read reply or late marker reaches its consumer, which writes, fills, pushes or waits. -/
  | memoryReplyArrival (bench : Nat)
  /-- RING_SIDE_ACCESS (R23). A GDDR7 controller serves a ring-side access in time left unused by the compiled schedule. -/
  | ringSideAccess (err : Bool)
  /-- RING_PACKET_ARRIVAL (R379). A packet on the I/O ring reaches its destination stop. -/
  | ringPacketArrival (stop : Nat)
  /-- CXL_ACCESS_COMPLETE (R390). A CXL access completes at the West I/O die and its response returns over the ring. -/
  | cxlAccessComplete (poison : Bool)
  /-- FILL_COMPLETE (R393). A stockroom fill's data reaches the bench, the line is filled and the waiting load returns. -/
  | fillComplete (bench : Nat)
  /-- GLOBAL_LOAD_RETURN (R363). An uncached global-window load's reply arrives and the value is pushed. -/
  | globalLoadReturn (t : Thread)
  /-- FENCE (R426). Issues a fence that holds the thread until earlier accesses are performed at the scope. -/
  | fence (t : Thread) (syl : Byte)
  /-- FENCE_DONE (R426). Every earlier access of the thread is performed at the fence's scope and the thread continues. -/
  | fenceDone (t : Thread)
  /-- INVALIDATE (R407). A BENCH_RNG_CMD write with GO starts invalidation of the stockroom lines in a range. -/
  | invalidate (w : Writer) (bench : Nat) (v : Dword)
  /-- FLUSH (R406). A BENCH_RNG_CMD write with GO starts sending the merging buffer entries of a range. -/
  | flush (w : Writer) (bench : Nat) (v : Dword)
  /-- CONVERT (R408). A BENCH_RNG_CMD write with GO starts converting stockroom ways to bench memory. -/
  | convert (w : Writer) (bench : Nat) (v : Dword)
  /-- RESTORE (R408). A BENCH_RNG_CMD write with GO starts restoring converted ways to the cache. -/
  | restore (w : Writer) (bench : Nat) (v : Dword)
  /-- RANGE_ABORT (R423). A BENCH_RNG_CMD write with ABORT decides the running range operation against its completion. -/
  | rangeAbort (w : Writer) (bench : Nat)
  /-- RANGE_COMPLETE (R410). A range operation finishes, sets RESULT and optionally adds to a tally. -/
  | rangeComplete (bench : Nat)
  /-- PPOST (R417). Posts a porter descriptor into a slot. -/
  | ppost (t : Thread)
  /-- PSTAT (R418). Pushes a descriptor's count and status and empties a final slot. -/
  | pstat (t : Thread)
  /-- PABORT (R419). Aborts a descriptor under the abort-versus-completion rule. -/
  | pabort (t : Thread)
  /-- DESCRIPTOR_START (R420). A posted compiled descriptor starts in the first eligible slot of its connection. -/
  | descriptorStart (core slot : Nat)
  /-- DESCRIPTOR_ABORTED (R424). The last flit of an aborting descriptor is counted, and it becomes ABORTED. -/
  | descriptorAborted (core slot : Nat)
  /-- TADD (R475). Sends an addition to a tally. -/
  | tadd (t : Thread) (syl : Byte)
  /-- TSUB (R475). Sends a subtraction to a tally. -/
  | tsub (t : Thread) (syl : Byte)
  /-- TREAD (R475). Reads a tally's count and generation. -/
  | tread (t : Thread) (syl : Byte)
  /-- TARRIVE (R476). Arrives at a barrier tally of k parties. -/
  | tarrive (t : Thread) (syl : Byte)
  /-- TWATCH (R479). Registers a watch on a tally condition with a timeout. -/
  | twatch (t : Thread) (syl : Byte)
  /-- TALLY_OP_ARRIVAL (R472). A tally operation reaches its home slice and is performed, deferred or refused, and watches are checked. -/
  | tallyOpArrival (bench : Nat)
  /-- WAKE_ARRIVAL (R482). A wake reaches the watcher's core and TWATCH pushes its result, or it is discarded as late. -/
  | wakeArrival (t : Thread)
  /-- WATCH_TIMEOUT (R483). A watch times out; TWATCH pushes status 1, a cancel is sent, a record is written and TWTO set. -/
  | watchTimeout (t : Thread)
  /-- WATCH_CANCEL_ARRIVAL (R483). A cancel reaches the home slice and removes the watch. -/
  | watchCancelArrival (bench : Nat)
  /-- TALLY_RESULT_ARRIVAL (R473). A tally result or acknowledgement returns and the waiting thread is released. -/
  | tallyResultArrival (t : Thread)
  /-- TALLY_RESULT_LOST (R748). After 2^30 core cycles without a result, the operation completes as not performed with a record of kind 9. -/
  | tallyResultLost (t : Thread)
  /-- GENERATION_DEFER_END (R478). 64 core cycles after a generation advance, deferred operations on the tally are performed. -/
  | generationDeferEnd (tally : Nat)
  /-- FORK (R263). Allocates a pool context with a share class and starts a thread, or pushes a failure code. -/
  | fork (t : Thread)
  /-- JOIN (R267). Waits by spinning for a thread's completion tally. -/
  | join (t : Thread)
  /-- JOIN_WAKE (R267). The awaited thread's completion tally update takes effect and JOIN pushes its status. -/
  | joinWake (t : Thread)
  /-- JOIN_TIMEOUT (R267). 2^EXP core cycles pass and JOIN pushes status 2. -/
  | joinTimeout (t : Thread)
  /-- QUIT (R268). Ends a pool thread, or parks C0. -/
  | quit (t : Thread)
  /-- THREAD_END (R266). After its descriptors are final, the thread's channels are aborted, tiles freed, completion tally updated and the context becomes FREE. -/
  | threadEnd (t : Thread)
  /-- THSUSP (R270). Suspends a pool thread at its next instruction boundary. -/
  | thsusp (t : Thread)
  /-- THRESM (R271). Returns a suspended or halted pool thread to RUN. -/
  | thresm (t : Thread)
  /-- RDTSR (R242). Reads a per-thread register of another context. -/
  | rdtsr (t : Thread)
  /-- WRTSR (R242). Writes a per-thread register of another context. -/
  | wrtsr (t : Thread)
  /-- CORE_TCTL_END_WRITE (R273). Writing END ends a suspended or halted pool thread as QUIT does, with LASTEND 1. -/
  | coreTctlEndWrite (w : Writer) (t : Thread) (v : Word)
  /-- CORE_TPC_WRITE (R272). Rewrites the resume address of a suspended or halted context, refused in other states. -/
  | coreTpcWrite (w : Writer) (t : Thread) (v : Word)
  /-- CORE_IMODE_WRITE (R258). Sets the issue mode and context count, refused while a pool context is not FREE. -/
  | coreImodeWrite (w : Writer) (core : Nat) (v : Word)
  /-- CORE_SHMODE_WRITE (R277). Selects static or dynamic shares, refused while a pool context is not FREE. -/
  | coreShmodeWrite (w : Writer) (core : Nat) (v : Word)
  /-- SHARE_CLASS_WRITE (R281). Writes a share class register, refused while the class is held or when MIN and MAX are invalid. -/
  | shareClassWrite (w : Writer) (core n : Nat) (v : Word)
  /-- STACK_AREA_WRITE (R177). Writes a stack base, pointer or limit register, refused when unaligned or out of range. -/
  | stackAreaWrite (w : Writer) (t : Thread) (n : Nat) (v : Word)
  /-- SAVE_AREA_WRITE (R289). Writes a save area register, refused when not a multiple of 64 or out of range. -/
  | saveAreaWrite (w : Writer) (t : Thread) (n : Nat) (v : Word)
  /-- FAULT_RING_WRITE (R304). Writes CORE_FRBASE or CORE_FRCTL, refused when the ring leaves local memory or SIZE is invalid. -/
  | faultRingWrite (w : Writer) (core n : Nat) (v : Word)
  /-- CORE_TFMT_WRITE (R129). Writes a TFMT register after waiting for the issued tile operations that name it. -/
  | coreTfmtWrite (w : Writer) (t : Thread) (n : Nat) (v : Word)
  /-- CORE_GWIN_WRITE (R231). Writes a global window register after waiting for accesses through it. -/
  | coreGwinWrite (w : Writer) (core n : Nat) (v : Word)
  /-- CORE_CYC_LO_READ (R243). Reads the low cycle count and latches the high half for the thread's next read. -/
  | coreCycLoRead (t : Thread)
  /-- COUNTER_CLEAR (R93). Writing CLR sets a counter's COUNT and SAT to 0. -/
  | counterClear (w : Writer) (a : RegAddr)
  /-- REGISTER_WRITE (R15). A write to a register field that has no behaviour of its own, including W1C clears. -/
  | registerWrite (w : Writer) (a : RegAddr) (v : Dword)
  /-- BENCH_PVSEL_WRITE (R110). Writes NEXT of the variant selection, or sets BADSEL for a variant not carried. -/
  | benchPvselWrite (w : Writer) (bench : Nat) (v : Dword)
  /-- ASSAY_CLEAR (R107). Writing BENCH_ASY_CTRL.CLR clears every slot, the drop counter and the queues. -/
  | assayClear (w : Writer) (bench : Nat)
  /-- SYSC (R285). Takes a system call through vector 0x10. -/
  | sysc (t : Thread) (n : Byte)
  /-- RETX (R294). Returns from an exception by the frame at the save-area pointer, after its checks. -/
  | retx (t : Thread)
  /-- UNHOLD (R298). Ends the current hold window. -/
  | unhold (t : Thread)
  /-- HOLD_EXPIRY (R298). A hold window expires, counts in CORE_CNT_HOLDEXP and pending interrupts become deliverable. -/
  | holdExpiry (t : Thread)
  /-- ISYNC (R182). Discards the thread's fetched syllables and refetches. -/
  | isync (t : Thread)
  /-- LDR (R224). Loads a word and reserves its line, in service mode. -/
  | ldr (t : Thread)
  /-- STC (R224). Stores conditionally on the reservation and pushes success. -/
  | stc (t : Thread)
  /-- UCNN (R248). Issues a customer microcoded instruction through the decode table. -/
  | ucnn (t : Thread) (nn : Nat)
  /-- MICROCODE_START (R251). A queued customer instruction's sequence starts when the micro-sequencer is free. -/
  | microcodeStart (core : Nat)
  /-- MICROCODE_END (R250). A micro-sequence reaches END, or stops on a fault, and the thread's stack is updated. -/
  | microcodeEnd (core : Nat)
  /-- INTERRUPT_ENTRY (R301). An enabled, unheld pending interrupt is taken by C0 at an instruction boundary. -/
  | interruptEntry (core : Nat)
  /-- INJECTION (R306). A Foreman injection is taken at the context's next boundary through F vector 0x13. -/
  | injection (t : Thread) (word : Word)
  /-- FRAME_START (R274). Each bench controller copies the variant and takes every C0 of the partition out of PARK at the entry point. -/
  | frameStart (part : Nat)
  /-- FRAME_END (R275). A frame ends when every context is FREE, PARK or HALT with nothing pending; jobs may end here. -/
  | frameEnd (part : Nat)
  /-- QUIET_PERIOD_END (R323). After all flits, replies and aborted descriptors are settled, the pattern index stops. -/
  | quietPeriodEnd (part : Nat)
  /-- TIME_SLICE_SWITCH (R579). The Foreman saves the outgoing program's state and loads the incoming program's state. -/
  | timeSliceSwitch (part : Nat)
  /-- PREAMBLE (R588). Before a partition's first frame, the governor brings its cores into spinning in groups. -/
  | preamble (part : Nat)
  /-- RAMP_DOWN (R589). After a partition's last job, its cores spin down in groups and their clocks are gated. -/
  | rampDown (part : Nat)
  /-- FRAME_SYNC_EDGE (R695). A FRAME_SYNC rising edge latches the timebase and releases waiting synchronised frames. -/
  | frameSyncEdge
  /-- FRAME_SYNC_MISS (R696). No edge arrives within 2^30 core cycles, so the frame starts without it and the miss is counted. -/
  | frameSyncMiss (part : Nat)
  /-- WELT_PACKET_SEND (R510). A station frames a sprayed packet when its last flit arrives and transmits it. -/
  | weltPacketSend (port : Nat)
  /-- WELT_FRAME_RECEIVE (R513). A received transport frame is checked in order and discarded, NAKed, handed on or accepted. -/
  | weltFrameReceive (port : Nat) (f : Frame)
  /-- PACKET_COUNTED (R516). An accepted packet's lines are written and its LEN is added to the arrival tally. -/
  | packetCounted (stream psn : Nat)
  /-- RX_BUFFER_UNCORRECTABLE (R515). An accepted packet meets uncorrectable data; its bit is cleared and it is not acknowledged. -/
  | rxBufferUncorrectable (stream psn : Nat)
  /-- ACK_TIMER (R517). An ACK is sent after 16 counted packets or 2 µs. -/
  | ackTimer (stream : Nat)
  /-- RETRANSMISSION_TIMEOUT (R519). A held packet's RTO expires and it is retransmitted, or its stream fails at RETRYMAX. -/
  | retransmissionTimeout (stream psn : Nat)
  /-- PORT_DOWN (R525). A welt port goes down and its plane leaves spraying. -/
  | portDown (port : Nat)
  /-- PORT_UP (R659). A welt port trains and passes its check; its plane rejoins spraying. -/
  | portUp (port : Nat)
  /-- MGMT_JOIN (R533). A JOIN message reaches a manager, which answers once the module is registered. -/
  | mgmtJoin
  /-- JOIN_ACK (R533). A JOIN_ACK reaches the joining module. -/
  | joinAck
  /-- HEARTBEAT (R534). A HEARTBEAT message reaches the manager. -/
  | heartbeat
  /-- HEARTBEAT_TIMER (R534). Every 100 ms a module sends HEARTBEAT to its manager. -/
  | heartbeatTimer
  /-- CREW_LOST_TIMER (R534). After 300 ms without a message, the manager marks a module LOST and raises an event. -/
  | crewLostTimer (module : Nat)
  /-- MGMT_COMMAND (R535). A relayed COMMAND is executed as though it arrived on PF0 and a RESPONSE is returned. -/
  | mgmtCommand
  /-- MGMT_RESPONSE (R563). A RESPONSE reaches the manager and completes the CREW_RELAY. -/
  | mgmtResponse
  /-- MGMT_LEAVE (R530). A LEAVE message reaches the manager. -/
  | mgmtLeave
  /-- MAILBOX_HANDOVER (R547). The host writes OWNER = 1 and the Foreman accepts the command, or repeats the last response. -/
  | mailboxHandover (m : Nat) (seq cmd : Nat) (payload : List Byte)
  /-- MAILBOX_HOST_WRITE (R548). A host write to a mailbox owned by the device, or a bad OWNER value, is discarded and counted. -/
  | mailboxHostWrite (m off : Nat) (b : Byte)
  /-- GET_INFO (R555). Returns the module's interface version, state, profile, cap and maps. -/
  | getInfo (m : Nat)
  /-- GET_EVENTS (R582). Removes and returns the oldest events of the function's log. -/
  | getEvents (m : Nat)
  /-- LOAD_PROGRAM (R568). Checks, admits and loads a program package into a partition. -/
  | loadProgram (m : Nat) (pkg : Sections)
  /-- UNLOAD_PROGRAM (R578). Frees a program slot and its regions. -/
  | unloadProgram (m : Nat)
  /-- START_JOB (R575). Repeats admission and makes a program RUNNING. -/
  | startJob (m : Nat)
  /-- STOP_JOB (R577). Stops a job at a frame boundary, or at once with the running frame discarded. -/
  | stopJob (m : Nat)
  /-- QUERY_JOB (R574). Returns the job state and completion record. -/
  | queryJob (m : Nat)
  /-- CREATE_PARTITION (R557). Creates a partition rectangle with its CXL window and flags. -/
  | createPartition (m : Nat)
  /-- DESTROY_PARTITION (R558). Unloads, closes streams, unbinds and resets a partition. -/
  | destroyPartition (m : Nat)
  /-- RESET_SCOPE (R679). Requests a reset of a core, bench, partition, die or module. -/
  | resetScope (m : Nat)
  /-- RESET_POINT (R686). At the reset point traffic of the scope drains or is absorbed, then the units are cleared. -/
  | resetPoint (sc : Scope)
  /-- RESET_END (R684). A reset finishes clearing its scope and held commands are accepted. -/
  | resetEnd (sc : Scope)
  /-- SET_CAP (R594). Sets the host power cap. -/
  | setCap (m : Nat)
  /-- SET_FIXED_POINT (R608). Enters fixed-frequency mode at a point, or leaves it. -/
  | setFixedPoint (m : Nat)
  /-- GET_ENERGY (R625). Returns the module, partition and unattributed energy sums. -/
  | getEnergy (m : Nat)
  /-- SET_TALLY (R488). Writes a tally record, checks its watches and logs the change. -/
  | setTally (m : Nat)
  /-- READ_TALLY (R470). Returns a tally record. -/
  | readTally (m : Nat)
  /-- CONFIG_TRACE (R707). Sets the trace control, buffer base and size. -/
  | configTrace (m : Nat)
  /-- READ_COUNTERS (R709). Reads words of a counter block, or a queue view. -/
  | readCounters (m : Nat)
  /-- WRITE_RECORD (R640). Writes a signed MRAM record, consuming a generation. -/
  | writeRecord (m : Nat)
  /-- READ_RECORD (R644). Returns a record body and its remaining generations. -/
  | readRecord (m : Nat)
  /-- GET_ATTESTATION (R665). Starts or continues an attestation report, returning one fragment. -/
  | getAttestation (m : Nat)
  /-- ATTESTATION_SIGNED (R666). The report signature is complete, so its fragments become available. -/
  | attestationSigned (fn : Nat)
  /-- CREW_JOIN (R533). Joins a manager, registers a managed module, or leaves. -/
  | crewJoin (m : Nat)
  /-- CREW_STATUS (R534). Returns the state of managed modules. -/
  | crewStatus (m : Nat)
  /-- CREW_RELAY (R563). Relays a mailbox command to a managed module, or returns held-back bytes. -/
  | crewRelay (m : Nat)
  /-- OPEN_STREAM_RX (R503). Opens a receive end of a remote-write stream. -/
  | openStreamRx (m : Nat)
  /-- OPEN_STREAM_TX (R504). Opens a send end of a remote-write stream. -/
  | openStreamTx (m : Nat)
  /-- CLOSE_STREAM (R559). Closes a stream entry. -/
  | closeStream (m : Nat)
  /-- SET_TRANSPORT (R560). Sets RTO and RETRYMAX. -/
  | setTransport (m : Nat)
  /-- SET_APERTURE (R541). Sets the base of the function's BAR2 aperture. -/
  | setAperture (m : Nat)
  /-- HOST_MOVE (R562). Moves bytes between host memory and GDDR7 on the host porters. -/
  | hostMove (m : Nat) (host : List Byte)
  /-- FW_STAGE (R635). Verifies a Foreman image and writes it to the slot that is not running. -/
  | fwStage (m : Nat)
  /-- FW_ACTIVATE (R635). Sets the boot selector for the next module reset. -/
  | fwActivate (m : Nat)
  /-- BAR2_ACCESS (R542). A host access through the GDDR7 aperture, served on the ring side or ended with an error. -/
  | bar2Access (fn off : Nat) (acc : HostAccess)
  /-- BAR4_ACCESS (R706). A host read of the trace window, or a write that is discarded. -/
  | bar4Access (off : Nat) (acc : HostAccess)
  /-- FUNCTION_LEVEL_RESET (R552). Returns the function's mailboxes to the host and clears their records. -/
  | functionLevelReset (fn : Nat)
  /-- ERROR_REPORT (R671). An error report reaches the Foreman, is stamped and counted for its unit; class 7 is a bench's report about its
  pattern memory or connection table (R667, R675). -/
  | errorReport (cls unit : Nat) (unc : Bool)
  /-- FAULT_PARTITION_RESET (R677). After a fault stop, the Foreman resets the partition and applies the repair when permitted. -/
  | faultPartitionReset (part : Nat)
  /-- CAP_TICK (R600). Every 1 ms the cap loop compares power and temperature and steps the point at most once. The operands are what
  the input monitor and the sensors gave, in the units of FMN_PWR_IN and FMN_TJ: means of voltage, current and power, and the highest
  junction temperature. -/
  | capTick (vin iin pin tj : Nat)
  /-- LEDGER_SNAPSHOT (R617). Every 1 ms activity counters are copied and cleared, and the ledger charges partitions and jobs. The
  operands are the measured input energy, what the island integrated while the Foreman slept (R626), in nJ, and the mean junction
  temperature. -/
  | ledgerSnapshot (nj sleptNj tmean : Nat)
  /-- OP_STEP_DONE (R597). A one-point change of root frequency and voltage finishes. -/
  | opStepDone
  /-- FAST_LIMIT_TRIP (R604). A fast-limit source asserts and the die begins stepping one point slower. -/
  | fastLimitTrip (src : Nat)
  /-- FAST_LIMIT_STEP (R604). While a source stays asserted, the limit steps down one further point every 10 µs. -/
  | fastLimitStep
  /-- PWR_BRAKE (R720). PWR_BRAKE_N held low for 40 ns asserts the brake source, and its rising edge releases it. -/
  | pwrBrake (low : Bool) (ns : Nat)
  /-- THERMAL_TRIP (R602). A sensor reaching 115 °C turns off conversion, drives THERM_TRIP_N low and sets TRIPPED. -/
  | thermalTrip (tj : Nat)
  /-- UNDERVOLTAGE (R586). An input below 44 V for 10 µs asserts the undervoltage source while it lasts. -/
  | undervoltage (us : Nat)
  /-- INPUT_OPEN (R586). An input outside 40 V to 58 V for 10 µs opens the hot-swap controller and powers the module down. -/
  | inputOpen
  /-- POWER_ON (R627). The bulk rises through 44 V, the always-on island powers up and start-up begins. -/
  | powerOn (slot : Nat)
  /-- STARTUP_STEP_DONE (R627). A start-up step ends and the next begins, up to Ready, degraded Ready or failed. -/
  | startupStepDone (r : StepReport)
  /-- IDLE_W1_ENTRY (R613). After 1 ms with no activity, the module enters W1. -/
  | idleW1Entry
  /-- IDLE_W2_ENTRY (R614). After 100 ms in W1, the module enters W2. -/
  | idleW2Entry
  /-- IDLE_EXIT (R613). A command, BAR2 access or DATA frame returns the module from W1 or W2 to W0. -/
  | idleExit (cause : Nat)
  /-- ENTER_W3 (R615). An FMN_IDLEREQ write of 3 enters W3 when permitted. -/
  | enterW3
  /-- ENTER_W4 (R615). An FMN_IDLEREQ write of 4 enters W4 when permitted. -/
  | enterW4
  /-- IDLE_WAKE (R616). A wake request or PERST_N edge resumes start-up from W3 or W4. -/
  | idleWake
  /-- PERST_N_ASSERT (R683). PERST_N low for 100 µs or longer starts a module reset. -/
  | perstNAssert (ns : Nat)
  /-- PERST_N_DEASSERT (R629). PERST_N rises, letting start-up continue and PCIe training begin. -/
  | perstNDeassert
  /-- REFCLK_LOSS (R725). A reference clock absent for 1 µs sets CLKLOSS and holds the module in reset. -/
  | refclkLoss
  /-- REFCLK_RETURN (R725). A reference clock back within limits for 100 µs causes a module reset. -/
  | refclkReturn
  /-- I3C_WRITE (R727). An I3C write sets the register offset and writes data bytes. -/
  | i3cWrite (off : Nat) (bytes : List Byte)
  /-- I3C_READ (R727). An I3C read returns bytes from the offset and advances it, latching the register whole. -/
  | i3cRead (n : Nat)
  /-- DYNAMIC_ADDRESS_ASSIGN (R726). SETDASA or ENTDAA assigns the I3C target a dynamic address. -/
  | dynamicAddressAssign (addr : Nat)
  /-- FMN_TB_READ (R707). A read of the timebase's low word latches the high word for the same agent's next read. -/
  | fmnTbRead (agent : Nat)
  /-- ISSUE_SAMPLE (R698). At every core cycle that is a multiple of 2^IEXP, a core takes an ISSUE trace record. -/
  | issueSample (core : Nat)
  /-- TRACE_RECORD_OUT (R702). The collector writes a record to the buffer, the lanes or both, wrapping or stopping at the buffer end. -/
  | traceRecordOut
  /-- CREW_RELAY_TIMEOUT (R553). When no RESPONSE arrives within 2 s of a CREW_RELAY, the command completes with RELAY_TIMEOUT. -/
  | crewRelayTimeout (m : Nat)
  /-- BAR2_READ_TIMEOUT (R542). A BAR2 read whose completion the ring side cannot return within 900 µs completes with Completer Abort and is logged as an event. -/
  | bar2ReadTimeout (fn off : Nat)
  /-- FAST_LIMIT_SOURCE_RELEASE (R606). A current, droop or undervoltage source of the fast limit deasserts, so the stepping down stops and the cap loop may later raise the point. -/
  | fastLimitSourceRelease (src : Nat)
  /-- HELD_MODULE_RESET_START (R683). A module reset held after a thermal trip begins once every junction sensor reads below 90 °C. -/
  | heldModuleResetStart (tmax : Nat)
  /-- CORE_SVBASE_WRITE (R288). A write of CORE_SVBASE or CORE_FVBASE whose bits [7:0] are not 0 is refused with a register-value fault; otherwise it moves the vector table. -/
  | coreSvbaseWrite (w : Writer) (core n : Nat) (v : Word)
  /-- CORE_JTO_WRITE (R273). A write of CORE_JTO with EXP outside 10 to 30 is refused with a register-value fault; otherwise it sets the JOIN timeout. -/
  | coreJtoWrite (w : Writer) (t : Thread) (v : Word)
  deriving DecidableEq, Repr

end Sys2Proof
end

