-- ==== Sys2Proof/Config.lean ====
section
/-! DEFINITION. What the spec leaves open, as constants with no body: nothing in Lean can evaluate them, so a claim
about them holds whatever they are. The published standards the spec only names (FIPS 205 signatures, SHA-256, HMAC,
the PUF's key) stand here too. -/

namespace Sys2Proof

/-- FREE VALUE. The verdict of SLH-DSA-SHA2-128s verification (R567, R634, R640) of a signature over a message under a
public key (FIPS 205; the spec does not restate it). -/
opaque Config.sigValid (key msg sig : List Byte) : Bool

/-- FREE VALUE. SHA-256 of a message (R664; FIPS 180, not restated by the spec). -/
opaque Config.sha256 (msg : List Byte) : BitVec 256

/-- FREE VALUE. The first 16 bytes of HMAC-SHA-256 under a key (R530). -/
opaque Config.hmac16 (key msg : List Byte) : BitVec 128

/-- FREE VALUE. A signature byte made with the identity key (R664): byte `i` of the signature over a message. -/
opaque Config.idSign (msg : List Byte) (i : Nat) : Byte

/-- FREE VALUE. The public key derived from the PUF response in start-up number `n` (R662). -/
opaque Config.pufKey (n : Nat) : BitVec 256

/-- FREE VALUE. Byte `i` of a record body written at manufacture and not given by the spec: the serial identifier, the
identity key, CERT, HELPER (R644). -/
opaque Config.factoryByte (rec i : Nat) : Byte

/-- FREE VALUE. Payload and sign bits of the NaN a vector instruction makes where the spec says only 'follow
IEEE 754' (R152, R153): a function of the lane's operand bits. -/
opaque Config.nanBits (a b c : Nat) : Nat

/-- FREE VALUE. The rounding of a ledger term to the 1 nJ unit (R625 names the unit, not the direction): adds one or
not to the term rounded down. -/
opaque Config.roundUp (n : Nat) : Bool

/-- FREE VALUE. A fresh value the spec leaves open at the `n`-th place a run meets one (State.free counts them). -/
opaque Config.freeNat (n : Nat) : Nat

/-- FREE VALUE. LEN of an open-class flit that is no channel message, by its SUB (R318). -/
opaque Config.openUnits (sub : Nat) : Nat

/-- FREE VALUE. Byte `i` of the image-signing public key in the mask ROM (R633). -/
opaque Config.romByte (i : Nat) : Byte

/-- FREE VALUE. The contents of the Foreman image's header field VERSION and other bytes of an image slot (R633). -/
opaque Config.imageByte (slot i : Nat) : Byte

end Sys2Proof
end

