-- ==== Sys2Proof/Machine/Table.lean ====
section
/-! DEFINITION. Reading and writing the sparse tables and byte memory, and the bit and byte-order helpers every other
file uses. Little-endian throughout (R11). -/

namespace Sys2Proof.Machine

/-- The value at index `i`; an unlisted index reads as `d i`. -/
def tblGet {α : Type} (d : Nat → α) : Tbl α → Nat → α
  | [], i => d i
  | (k, v) :: r, i => if k = i then v else tblGet d r i

/-- Write `v` at index `i`, keeping the canonical form: the default value is not listed. -/
def tblSet {α : Type} [DecidableEq α] (d : Nat → α) : Tbl α → Nat → α → Tbl α
  | [], i, v => if v = d i then [] else [(i, v)]
  | (k, w) :: r, i, v =>
    if k < i then (k, w) :: tblSet d r i v
    else if v = d i then ((k, w) :: r).filter (fun p => decide (p.1 ≠ i))
    else (i, v) :: ((k, w) :: r).filter (fun p => decide (p.1 ≠ i))

/-- Apply `f` at index `i`. -/
def tblUpd {α : Type} [DecidableEq α] (d : Nat → α) (t : Tbl α) (i : Nat) (f : α → α) : Tbl α :=
  tblSet d t i (f (tblGet d t i))

/-- The canonical form: indexes rise strictly and no pair holds the default. -/
def tblWf {α : Type} [DecidableEq α] (d : Nat → α) : Tbl α → Bool
  | [] => true
  | (k, v) :: r => (v ≠ d k) && r.all (fun p => decide (k < p.1)) && tblWf d r

/-- A table from a list of entries. -/
def tblOf {α : Type} [DecidableEq α] (d : Nat → α) (l : List (Nat × α)) : Tbl α := l.foldl (fun t p => tblSet d t p.1 p.2) []

/-- The default of a table of words. -/
def zeros (n : Nat) : Nat → BitVec n := fun _ => 0

/-- The default of byte memory: a byte nothing has written reads 0 (DESIGN CHOICE; for the memories of Wetar R632
clears them to 0, for GDDR7 and the CXL device the spec gives no contents). -/
def memDefault : Nat → Byte := fun _ => 0

def memGet (m : Mem) (a : Nat) : Byte := tblGet memDefault m a
def memSet (m : Mem) (a : Nat) (b : Byte) : Mem := tblSet memDefault m a b

/-- The form of byte memory. -/
def memWf (m : Mem) : Bool := tblWf memDefault m

/-- `n` bytes from address `a` upward. -/
def memBytes (m : Mem) (a : Nat) : Nat → List Byte
  | 0 => []
  | n + 1 => memGet m a :: memBytes m (a + 1) n

/-- Store bytes from address `a` upward. -/
def memPut (m : Mem) (a : Nat) : List Byte → Mem
  | [] => m
  | b :: r => memPut (memSet m a b) (a + 1) r

/-- Store the bytes whose mask entry is true. -/
def memPutMask (m : Mem) (a : Nat) : List (Byte × Bool) → Mem
  | [] => m
  | (b, e) :: r => memPutMask (if e then memSet m a b else m) (a + 1) r

/-- Set `n` bytes to 0. -/
def memZero (m : Mem) (a n : Nat) : Mem := m.filter (fun p => decide (p.1 < a ∨ a + n ≤ p.1))

/-- Little-endian value of a byte list. -/
def leNat : List Byte → Nat
  | [] => 0
  | b :: r => b.toNat + 256 * leNat r

/-- The low `n` bytes of a value, little-endian. -/
def leBytes (v : Nat) : Nat → List Byte
  | 0 => []
  | n + 1 => BitVec.ofNat 8 v :: leBytes (v / 256) n

def memNat (m : Mem) (a n : Nat) : Nat := leNat (memBytes m a n)
def memWord (m : Mem) (a : Nat) : Word := BitVec.ofNat 32 (memNat m a 4)
def memPutWord (m : Mem) (a : Nat) (v : Word) : Mem := memPut m a (leBytes v.toNat 4)

/-- Bits [hi:lo] of a value (R10). -/
def bits (v hi lo : Nat) : Nat := v / 2 ^ lo % 2 ^ (hi + 1 - lo)

/-- Bit `i` of a value. -/
def bit (v i : Nat) : Bool := v / 2 ^ i % 2 = 1

/-- `v` with bits [hi:lo] replaced. -/
def setBits (v hi lo x : Nat) : Nat :=
  v - bits v hi lo * 2 ^ lo + x % 2 ^ (hi + 1 - lo) * 2 ^ lo

def b2n (b : Bool) : Nat := if b then 1 else 0

/-- A value below 2^n read as a signed integer. -/
def signed (n v : Nat) : Int := if v % 2 ^ n < 2 ^ (n - 1) then (v % 2 ^ n : Nat) else (v % 2 ^ n : Nat) - (2 ^ n : Nat)

/-- An integer modulo 2^n. -/
def wrap (n : Nat) (i : Int) : Nat := (i % (2 ^ n : Nat)).toNat

/-- Ceiling of a quotient. -/
def ceilDiv (a b : Nat) : Nat := (a + b - 1) / b

/-- The first `n` bytes of a list, filled with 0. -/
def padTo (n : Nat) (l : List Byte) : List Byte := (l ++ List.replicate n 0).take n

/-- The lowest index below `n` that passes `p`. -/
def findBelow (n : Nat) (p : Nat → Bool) : Option Nat := (List.range n).find? p

/-- The counter layout of R93 in one 64-bit register: COUNT in [47:0], SAT in [63]. Adding `n` stops at the maximum
and then sets SAT. -/
def counterAdd (v : Dword) (n : Nat) : Dword :=
  let c := v.toNat % 2 ^ 48 + n
  if c < 2 ^ 48 - 1 then BitVec.ofNat 64 (c + (v.toNat / 2 ^ 63) * 2 ^ 63)
  else if n = 0 then v
  else BitVec.ofNat 64 (2 ^ 48 - 1 + 2 ^ 63)

/-- COUNT of a counter register. -/
def counterCount (v : Dword) : Nat := v.toNat % 2 ^ 48

end Sys2Proof.Machine
end

