-- ==== Sys2Proof/Machine/Types.lean ====
section
/-! DEFINITION. The parts of the state: a thread context, a core, a bench, a port, a partition, and what travels between
them. Registers are held in tables keyed by the spec's own number (system registers) or offset (register blocks). -/

namespace Sys2Proof.Machine

/-! ## A thread context -/

/-- Context states (R257). -/
inductive CtxState where
  | free | run | susp | halt | park | lock
  deriving DecidableEq, Repr

/-- Privilege levels (R283). -/
inductive Level where
  | u | s | f
  deriving DecidableEq, Repr

/-- A multiply in flight (R208, R209, R211): MUL and MULU replace the pair, MACC adds to it. -/
structure MulOp where
  add : Bool
  value : Dword
  issued : Nat
  deriving DecidableEq, Repr

/-- A tally operation on its way to its home slice (R472 to R475). -/
structure TallyOp where
  /-- 0 TADD, 1 TSUB, 2 TREAD, 3 TARRIVE, 4 TWATCH, 5 completion set (FORK), 6 completion clear (thread end), 7 cancel of
  a watch -/
  op : Nat
  tally : Nat
  /-- v, k or the watch value -/
  val : Word
  cond : Nat
  form : Nat
  scope : Nat
  /-- where it came from: core, context, and what kind of agent (0 thread, 1 porter, 2 range engine, 3 welt transport,
  4 receive queue) -/
  core : Nat
  ctx : Nat
  agent : Nat
  serial : Nat
  deriving DecidableEq, Repr

/-- What holds a thread between an instruction's issue and its completion (R131, R744). The operands stay on the
stack; `Ctx.heldPops` and `Ctx.heldLen` complete the instruction. -/
inductive Wait where
  | none
  /-- a tile operation is issued (R131) -/
  | tile
  /-- a customer instruction is issued (R250) -/
  | micro
  /-- JOIN spins for the thread's end: issued and timing out at core cycles (R267) -/
  | join (tid since due : Nat)
  /-- TWATCH spins for its wake (R479, R482) -/
  | watch (serial tally cond : Nat) (v : Word) (due : Nat)
  /-- an acquire-form tally operation, TREAD or TARRIVE waits for its result (R429, R473, R748) -/
  | tally (serial op tally due : Nat)
  /-- COPEN waits for its answer on handle h (R452) -/
  | copen (h : Nat)
  /-- CSEND waits for space or queue places (R457) -/
  | csend (b h due : Nat)
  /-- FENCE waits at a scope (R426) -/
  | fence (scope : Nat)
  /-- a load through a global window waits for its data: address, bytes, sign extension, and the fill that a cached one waits
  for (R189, R396) -/
  | load (addr bytes : Nat) (signExt : Bool) (fill : Option Nat)
  /-- a cached store waits for a merging buffer entry since a core cycle (R398) -/
  | store (addr : Nat) (data : List Byte) (since : Nat)
  /-- a release-form tally operation waits for its fence (R428) -/
  | release (op : TallyOp) (timeout : Nat)
  /-- an open-class flit waits for a place in the queue (R348) -/
  | place
  /-- a TFMT write waits for the operations that name the register (R129) -/
  | tfmt (ctx n : Nat) (v : Word)
  /-- a window write waits for accesses through the window (R231) -/
  | gwin (w : Nat) (v : Word)
  /-- RDTSR of MLO or MHI of another thread waits for its multiplies (R241) -/
  | rdtsr (ctx n : Nat)
  /-- THSUSP waits until the target has stopped (R270) -/
  | thsusp (tid : Nat)
  /-- the thread is ending: LASTEND to record (R268, R273) -/
  | ending (lastEnd : Bool)
  /-- the end is made but for the completion tally's update (R266) -/
  | ended
  deriving DecidableEq, Repr

/-- The fill that a wait is for. -/
def Wait.fillOf : Wait → Option Nat
  | .load _ _ _ k => k
  | _ => .none

/-- One thread context (R170). -/
structure Ctx where
  /-- address of the next syllable (R179) -/
  pc : Word
  st : CtxState
  lvl : Level
  /-- hardware operand stack, top first, at most 16 (R171) -/
  ops : List Word
  /-- hardware return stack, top first, at most 16 (R174) -/
  rets : List Word
  /-- open loop levels, 0 to 4 (R222) -/
  ldepth : Nat
  /-- the per-thread system registers that hold a value, by number (R239, R312): stack areas 0x000-0x005, loops
  0x010-0x01B, MLO, MHI, SRG, TFMT, TXINFO, ASY, CRCPOLY, RGN 0x030-0x03F, XCAUSE, XINFO, TPC, save areas
  0x044-0x049, TCLS, JTO, TXFMT, TXADDR -/
  sr : Tbl Word
  /-- CORE_TCTL.LASTEND (R273) -/
  lastEnd : Bool
  /-- multiplies in flight, oldest first (R209) -/
  muls : List MulOp
  /-- the reserved line of LDR (R224) -/
  resv : Option Nat
  /-- the open hold window: the core cycle at which it expires (R298) -/
  hold : Option Nat
  /-- a hold window of this length that starts at the thread's next issue (R293) -/
  holdLen : Option Nat
  /-- the core cycle from which spin cycles are not yet counted, while the thread spins (R262) -/
  spinFrom : Option Nat
  /-- the injection word posted by the Foreman and not yet taken (R306) -/
  inject : Option Word
  /-- a suspension asked for and not yet made (R270, R744) -/
  suspReq : Bool
  wait : Wait
  heldPops : Nat
  heldLen : Nat
  /-- CYC_HI as latched by the thread's last read of CYC_LO (R243) -/
  cycHi : Word
  /-- the two channel staging buffers (R453) -/
  stage0 : List Byte
  stage1 : List Byte
  /-- sampling MMAs completed since the frame start (R96) -/
  samples : Nat
  deriving DecidableEq, Repr

/-! ## The tile machine -/

/-- A tile register: three sides of bytes, row-major (R114), and its in-use flag (R115). -/
structure Tile where
  inUse : Bool
  data : Mem
  scale : Mem
  patch : Mem
  deriving DecidableEq, Repr

/-- An accumulator: committed and working bank of 32 × 32 words, row-major (R119, R120). -/
structure Acc where
  committed : Tbl Word
  working : Tbl Word
  deriving DecidableEq, Repr

/-- The tile operations (R133). -/
inductive TOp where
  | mma | accz | tfree | accrd | tld | tldt | tldc | tlds | tldp | tst | tstt | tstc | tsts | tstp
  | tcvt | qnt | vadd | vmul | vmax | vmin | vfma | vrsum | vrmax | vrmin | vact | vactld
  deriving DecidableEq, Repr

/-- How far an issued tile operation is: not started, running its beats, or in the tail after its last beat. -/
inductive TPhase where
  | issued | running | tail
  deriving DecidableEq, Repr

/-- A tile operation from issue to completion (R131, R159). Cycles are core cycles. -/
structure TileOp where
  ctx : Nat
  op : TOp
  last : Byte
  pc : Word
  /-- operands, top of stack first (R133) -/
  args : List Word
  /-- the TFMT value it uses (R130, R742) -/
  tfmt : Nat
  phase : TPhase
  /-- the core cycle of issue, start, or the last beat, by phase -/
  at_ : Nat
  /-- beats made -/
  beat : Nat
  /-- rows completely moved (R169) -/
  rows : Nat
  /-- generator state while the operation runs (R74) -/
  srg : Dword
  /-- scale underflows and patch overflows to count at completion (R92) -/
  sclUf : Nat
  patchOvf : Nat
  /-- bytes kept between beats: the row VFMA read first, a row of TLDC or TSTC that takes several beats (R741) -/
  held : List Byte
  /-- the region registers as they stood at its start (R238) -/
  view : Tbl Word
  /-- an MMA's operands as it reads them: the scale and patch sides of ta and tb at its side read, their data as the
  fetches move it (R136, R137) -/
  srcA : Tile
  srcB : Tile
  deriving DecidableEq, Repr

/-! ## A core -/

/-- A customer instruction from issue to END (R248, R251). -/
structure MicroRun where
  ctx : Nat
  entry : Nat
  /-- the operand entries copied at issue, top first -/
  args : List Word
  /-- the core cycle in which the sequence started -/
  started : Option Nat
  /-- the region registers as they stood at its start (R238) -/
  view : Tbl Word
  deriving DecidableEq, Repr

/-- A captured assay sample (R97): row, columns, depth, the thread's assay registers and the increments as FP32. -/
structure Sample where
  row : Nat
  n : Nat
  k : Nat
  aref : Word
  bref : Word
  stride : Word
  layer : Nat
  incs : List Word
  /-- the core cycle of its capture -/
  at_ : Nat
  deriving DecidableEq, Repr

/-- One logical core. -/
structure Core where
  ctxs : Tbl Ctx
  /-- per-core system registers that hold a value, by number (R239, R312): SVC, GWIN, ACCSAT, UCDEC, IMODE, SVBASE,
  FVBASE, HOLDMAX, IPEND, IEN, FRBASE, FRCTL, FRHEAD, FRTAIL, SHMODE, SCLS -/
  sr : Tbl Word
  tiles : Tbl Tile
  accs : Tbl Acc
  /-- the activation table (R155) -/
  act : Mem
  /-- issued tile operations, oldest first -/
  tops : List TileOp
  /-- the first core cycle at which each unit accepts a start (R160) -/
  mmaFree : Nat
  lsFree : Nat
  vecFree : Nat
  /-- the first core cycle in which RD0, RD1 and WR are free of the whole-duration claims of operations whose beats have ended
  (R159, R160) -/
  rd0Free : Nat
  rd1Free : Nat
  wrFree : Nat
  /-- the last core cycle in which an MMA fetch claimed RD0 and RD1 (R161) -/
  fetched : Option Nat
  /-- micro-store (R245) -/
  ustore : Tbl Word
  micro : List MicroRun
  /-- cycles counted by CORE_CYC while the clock ran before `cycFrom`, and the core cycle it runs from (R243) -/
  cycAcc : Nat
  cycFrom : Option Nat
  /-- units held in dynamic share mode: tile, queue, descriptor slot -> context + 1 (R280) -/
  tileOwn : Tbl Nat
  queueOwn : Tbl Nat
  slotOwn : Tbl Nat
  /-- samples captured and not done, oldest first; those the assay unit has started have left its queue (R98) -/
  samplesQ : List Sample
  deriving DecidableEq, Repr

/-! ## Messages, channels, tallies -/

/-- A watch registered at a slice (R479); `wake`: the value of its wake, while the entry holds it for want of a place in the open-class
queue (R348). -/
structure Watch where
  tally : Nat
  cond : Nat
  val : Word
  core : Nat
  ctx : Nat
  serial : Nat
  wake : Option Word
  deriving DecidableEq, Repr

/-- A tally record (R470) with the core cycle of its last generation advance (R478). -/
structure Tally where
  count : Word
  gen : BitVec 24
  ovf : Bool
  unf : Bool
  mis : Bool
  scope : Nat
  lastAdv : Option Nat
  deriving DecidableEq, Repr

/-- A flit of a channel message (R455): the sender's core, context and handle, the receiving core and queue, the message's
number, first and last flags, and its up to 128 bytes of header and payload. -/
structure ChanPart where
  core : Nat
  ctx : Nat
  h : Nat
  dst : Nat
  dq : Nat
  seq : Nat
  first : Bool
  last : Bool
  payload : List Byte
  deriving DecidableEq, Repr

/-- What an open-class flit carries (R318, SUB). -/
inductive OpenMsg where
  | chan (p : ChanPart)
  | tally (op : TallyOp)
  /-- a result or acknowledgement for a waiting thread: its tally, whether the operation was performed, first and second value
  (R473) -/
  | result (core ctx serial tally : Nat) (performed : Bool) (a b : Word)
  | wake (core ctx serial tally : Nat) (st : Nat) (c : Word)
  /-- the new HEAD of a receive queue for the sender's handle (R459); `rx` is the receiving core × 16 + queue -/
  | credit (core h rx : Nat) (head : Word)
  deriving DecidableEq, Repr

/-- What a data flit is for. -/
inductive Use where
  | none
  /-- a porter descriptor: core, slot, and the descriptor's byte that the flit begins with -/
  | porter (core slot off : Nat)
  /-- a stockroom fill of a line, by creation order -/
  | fill (line serial : Nat)
  /-- an uncached load of a context -/
  | uload (core ctx : Nat)
  /-- a write of the bench's merging buffer or an uncached store, by creation order -/
  | item (serial : Nat)
  /-- a remote-write packet: stream, PSN, whether the flit is the packet's last -/
  | welt (stream psn : Nat) (last : Bool)
  deriving DecidableEq, Repr

/-- A flit (R318). `addr` is the module address of the 128-byte pair; `mask` the byte mask of KIND 3. -/
structure Flit where
  kind : Nat
  late : Bool
  err : Bool
  lmask : Nat
  srcb : Nat
  conn : Nat
  rsv : Bool
  addr : Nat
  data : List Byte
  mask : List Bool
  use : Use
  msg : Option OpenMsg
  deriving DecidableEq, Repr

/-- A flit at a router input: station, input port, the mesh cycle in which it passes the crossbar (R315). -/
structure InFlight where
  station : Nat
  input : Nat
  at_ : Nat
  flit : Flit
  deriving DecidableEq, Repr

/-- A flit delivered to an agent: station, port X (5) or B (6), the mesh cycle of arrival. -/
structure Arrival where
  station : Nat
  port : Nat
  due : Nat
  flit : Flit
  deriving DecidableEq, Repr

/-- An entry of the open-class injection queue (R346): a flit, its destination bench; its connection is looked up when
it leaves, or it waits for a service path. A dead flit leaves with VALID 0 (R468). -/
structure OQItem where
  dst : Nat
  conn : Option Nat
  msg : OpenMsg
  dead : Bool
  /-- the mesh cycle from which it is in the queue -/
  due : Nat
  /-- the thread that holds it while the queue is full (R348) -/
  holder : Option Thread
  deriving DecidableEq, Repr

/-- A receive queue (R443). States: 0 DETACHED 1 ATTACHED 2 CLOSED 3 ABORTED 4 BROKEN 5 CLAIMED. -/
structure Queue where
  base : Nat
  size : Nat
  armed : Bool
  state : Nat
  ten : Bool
  tidx : Nat
  score : Nat
  sctx : Nat
  shand : Nat
  head : Word
  tail : Word
  /-- messages placed since attachment: the next SEQ (R444) -/
  seq : Nat
  /-- a state that is taken once the messages present have been read: 0 none, 2, 3 or 4 (R461, R463) -/
  final : Nat
  /-- the COPEN whose claim it holds: core, handle (R449) -/
  claim : Option (Nat × Nat)
  /-- bytes of the message whose flits are arriving (R455, R458) -/
  part : List Byte
  deriving DecidableEq, Repr

/-- A channel handle (R469). -/
structure Chan where
  state : Nat
  ctx : Nat
  dst : Nat
  dq : Nat
  conn : Nat
  nslot : Nat
  size : Nat
  maxu : Nat
  toexp : Nat
  tail : Word
  khead : Word
  /-- messages committed, and those whose LAST flit has left the queue (R468) -/
  sent : Nat
  left : Nat
  /-- messages that have arrived at the receiver, and those written there (R466, R468) -/
  placed : Nat
  written : Nat
  deriving DecidableEq, Repr

/-- A porter descriptor slot (R413, R418). -/
structure Slot where
  src : Nat
  dst : Nat
  len : Nat
  cls : Nat
  conn : Nat
  ten : Bool
  tidx : Nat
  remote : Nat
  /-- 0 EMPTY 1 QUEUED 2 RUNNING 3 ABORTING 4 COMPLETE 5 ABORTED 6 INVALID 7 FAULT -/
  state : Nat
  why : Nat
  ctx : Nat
  /-- order of posting on the bench, and the mesh cycle of PPOST's issue (R420) -/
  order : Nat
  posted : Nat
  /-- bytes sent, bytes delivered or counted -/
  sent : Nat
  counted : Nat
  /-- flits sent and not yet counted -/
  out : Nat
  /-- a fault ends it once the flits sent are counted (R438) -/
  fault : Nat
  deriving DecidableEq, Repr

/-- An entry of the sync error ring (R491) as four words. -/
structure SyncRing where
  head : Nat
  tail : Nat
  ovf : Bool
  en : Bool
  recs : Tbl (BitVec 128)
  deriving DecidableEq, Repr

/-! ## The stockroom -/

/-- A valid stockroom line: set, way, line number (module address / 64), 64 bytes (R391); `bad`: the errors of its eight 64-bit
words, 1 single-bit, 2 double-bit (R437). -/
structure SLine where
  set : Nat
  way : Nat
  line : Nat
  data : List Byte
  bad : Tbl Nat
  /-- the mesh cycle in which its fill request was sent (R407) -/
  born : Nat
  deriving DecidableEq, Repr

/-- A merging buffer entry (R397, R398): creation order, line, bytes, mask; `sent` until its write is performed. -/
structure MBEntry where
  serial : Nat
  line : Nat
  data : List Byte
  mask : List Bool
  writers : List (Nat × Nat)
  /-- the global windows its stores went through: core, window (R231) -/
  wins : List (Nat × Nat)
  /-- the errors of its eight 64-bit words (R437) -/
  bad : Tbl Nat
  /-- 0 unsent, 1 sent on the mesh, 2 sent over the ring, 3 accepted by its target controller -/
  stage : Nat
  deriving DecidableEq, Repr

/-- A fill waiting, in flight or with its data here (R396, R400). -/
structure Fill where
  serial : Nat
  line : Nat
  /-- the way it goes into; 8 when every way is converted -/
  way : Nat
  victim : Option Nat
  sent : Bool
  sentAt : Nat
  /-- invalidated while the request was under way (R407) -/
  drop : Bool
  /-- bytes that the bench has stored to the line since the fill began, and their mask (R399) -/
  laid : List Byte
  laidMask : List Bool
  data : Option (List Byte)
  err : Bool
  /-- the error is a link's (R439) -/
  link : Bool
  deriving DecidableEq, Repr

/-- An uncached access through a window (R401). -/
structure UItem where
  serial : Nat
  line : Nat
  write : Bool
  data : List Byte
  mask : List Bool
  core : Nat
  ctx : Nat
  /-- the global window it goes through (R231) -/
  win : Nat
  /-- 0 to 3 as a merging buffer entry's; 4 its data is here, 5 with a memory's error, 6 with a link's -/
  stage : Nat
  deriving DecidableEq, Repr

/-- A running range operation (R406): the chunks of its range after translation (first line, lines), the merging buffer
entries a FLUSH waits for, control cycles of start and end, and the ways as they stood. -/
structure RngOp where
  op : Nat
  tways : Nat
  chunks : List (Nat × Nat)
  items : List Nat
  started : Nat
  startMesh : Nat
  due : Nat
  ways : Nat
  /-- an abort waits for the way being worked on (R411) -/
  aborting : Bool
  ten : Bool
  tidx : Nat
  deriving DecidableEq, Repr

/-! ## A bench -/

/-- An assay window: requested by a core, its length, and its end once it runs (R99, R100). -/
structure AWin where
  core : Nat
  len : Nat
  endAt : Option Nat
  /-- the core cycle from which the unit can start a sample in it -/
  free : Nat
  deriving DecidableEq, Repr

/-- A tally operation due at the slice: core cycle, order class (R472), and the operation. -/
structure TallyIn where
  due : Nat
  prio : Nat
  op : TallyOp
  deriving DecidableEq, Repr

/-- A message for a thread that the bench delivers itself at a core cycle. -/
structure Inbox where
  due : Nat
  msg : OpenMsg
  deriving DecidableEq, Repr

/-- One bench: station, router, tally slice, porters, stockroom and bench controller. -/
structure Bench where
  /-- plain registers and counters of the control block, by offset -/
  reg : Tbl Dword
  /-- activity counts of the interval, by the offset of their snapshot register (R618) -/
  act : Tbl Nat
  /-- pattern memory (R324) -/
  pattern : Tbl Dword
  /-- connection table as BENCH_CONN words (R330) -/
  conns : Tbl Dword
  /-- the porter that owns a compiled connection, + 1; 0 for none (R415) -/
  connOwn : Tbl Nat
  oq : List OQItem
  tallies : Tbl Tally
  watches : List Watch
  tallyIn : List TallyIn
  /-- operations deferred by the generation limit, in order (R478) -/
  deferred : List TallyOp
  inbox : List Inbox
  queues : Tbl Queue
  chans : Tbl Chan
  slots : Tbl Slot
  sync : Tbl SyncRing
  lines : List SLine
  rr : Tbl Nat
  fills : List Fill
  mb : List MBEntry
  uitems : List UItem
  rng : Option RngOp
  /-- the final status of the last range operation has not been collected (R423) -/
  rngDone : Bool
  awins : List AWin
  /-- service paths asked of the clicker, by destination (R344) -/
  pathAsk : List Nat
  /-- trace queue (R700), and records dropped since the last LOST -/
  trace : List (List Byte)
  traceLost : Nat
  deriving DecidableEq, Repr

/-! ## Memory ports and welt ports -/

/-- A GDDR7 access of a port (R353): id, lines, request slot that started it, whether its data is ready, and an error. -/
structure PAcc where
  id : Nat
  start : Nat
  held : Bool
  ready : Option Nat
  err : Bool
  deriving DecidableEq, Repr

/-- A merge window on a line (R353): line, request slot that opened it, access, and the line's bytes as the access reads them. -/
structure PWin where
  line : Nat
  r0 : Nat
  acc : Nat
  data : List Byte
  deriving DecidableEq, Repr

/-- A read reply a port owes (R350): request slot, the accesses its lines come from, and the reply flit. -/
structure PReply where
  r : Nat
  accs : List Nat
  bench : Nat
  flit : Flit
  /-- the late marker was sent (R359) -/
  late : Bool
  /-- it holds a place in the slip buffer (R362) -/
  slot : Bool
  deriving DecidableEq, Repr

/-- A memory port station. -/
structure Port where
  reg : Tbl Dword
  actBytes : Nat
  accs : List PAcc
  wins : List PWin
  replies : List PReply
  /-- request slots of the compiled accesses in the last 64 mesh cycles (R356) -/
  recent : List Nat
  nextAcc : Nat
  deriving DecidableEq, Repr

/-- A packet held in a transmit buffer (R519): stream, PSN, last flag, bytes, destination, bytes the bench has sent to the
station, whether its last flit has arrived, last transmission, attempts, and its descriptor. -/
structure TxPkt where
  stream : Nat
  psn : Nat
  lastp : Bool
  len : Nat
  daddr : Nat
  data : List Byte
  loaded : Nat
  full : Bool
  sentAt : Option Nat
  /-- RTO and RETRYMAX as they were when its timer started (R560) -/
  rto : Nat
  limit : Nat
  retries : Nat
  parked : Bool
  core : Nat
  slot : Nat
  deriving DecidableEq, Repr

/-- A packet in a receive buffer (R513 to R516). -/
structure RxPkt where
  stream : Nat
  psn : Nat
  daddr : Nat
  data : List Byte
  /-- bytes the station has sent on, and bytes written -/
  sent : Nat
  wrote : Nat
  deriving DecidableEq, Repr

/-- A welt port station. -/
structure Welt where
  reg : Tbl Dword
  tx : List TxPkt
  /-- streams that asked for a place in the transmit buffer and have none yet, in the order in which they asked (R512) -/
  asks : List Nat
  rx : List RxPkt
  /-- bytes of the receive buffer in use -/
  rxUsed : Nat
  /-- frames sent, newest first -/
  out : List Frame
  deriving DecidableEq, Repr

/-- A stream table entry (R505) with its transport state. -/
structure Stream where
  state : Nat
  part : Nat
  /-- the program slot whose data it carries, + 1; 0 for an end opened by a command while none was in place -/
  prog : Nat
  planes : Nat
  peer : Nat
  pstr : Nat
  tally : Nat
  wbase : Nat
  sbench : Nat
  wlen : Nat
  conn : Nat
  next : Nat
  acked : Nat
  bytes : Nat
  retx : Nat
  fwhy : Nat
  /-- send: plane pointer (R510) -/
  plane : Nat
  /-- send: PSNs acknowledged above ACKED; receive: PSNs received, and counted, above ACKBASE (R514, R516) -/
  got : List Nat
  done : List Nat
  /-- receive: packets counted since the last ACK, when the first was, and its plane (R517) -/
  unacked : Nat
  firstAt : Nat
  lastPlane : Nat
  deriving DecidableEq, Repr

/-! ## Partitions and programs -/

/-- A variant record (R566). -/
structure Variant where
  entry : Nat
  frameCyc : Nat
  env : List Nat
  deriving DecidableEq, Repr

/-- The job completion record's counts (R581). -/
structure Job where
  jobid : Nat
  reason : Nat
  variant : Nat
  framesAsked : Nat
  frames : Nat
  energy : Nat
  unattr : Nat
  slips : Nat
  overruns : Nat
  excursions : Nat
  startTb : Nat
  endTb : Nat
  halts : Nat
  lockups : Nat
  conts : Nat
  dirty : Nat
  firstDirty : Nat
  accSat : Nat
  patchOvf : Nat
  asyMax : List Nat
  asyMse : List Nat
  deriving DecidableEq, Repr

/-- A path the clicker cut (R337, R342): ends, connection in the source bench, offsets, hops as (bench, input, output),
kind (0 channel, 1 service for a COPEN, 2 declared or on demand), users of a service path, and the mesh cycle at which
its routers are free after a release. -/
structure CPath where
  src : Nat
  dst : Nat
  conn : Nat
  part : Nat
  offs : List Nat
  hops : List (Nat × Nat × Nat)
  kind : Nat
  users : Nat
  /-- a release was asked for (R342) -/
  release : Bool
  freeAt : Option Nat
  deriving DecidableEq, Repr

/-- What a switch saves of a program beside the thread context images (R39, R311, R345, R490): its benches, of which a restore takes
back what R39 lists; the staging buffers by core and context; the places of its live memory in the save region, as module
address, offset and bytes; and the clicker's cuts. -/
structure Saved where
  benches : List (Nat × Bench)
  stages : List (Nat × Nat × List Byte × List Byte)
  ranges : List (Nat × Nat × Nat)
  paths : List CPath
  deriving DecidableEq, Repr

/-- A program slot (R564, R574): JSTATE, header fields, sections, record, saved state. -/
structure Program where
  js : Nat
  w : Nat
  h : Nat
  imode : Nat
  shmode : Nat
  plog : Nat
  ceil : Nat
  reqfix : Nat
  nvar : Nat
  deadline : Nat
  liveKib : Nat
  variants : List Variant
  sect : Sections
  job : Job
  saved : Option Saved
  /-- its save region: 2 MiB units of GDDR7 (R39) -/
  save : List Nat
  /-- the program starts from its package's initial state (R575, R681) -/
  fresh : Bool
  /-- the mailbox of a pending STOP_JOB, + 1 (R576) -/
  stopBy : Nat
  /-- nanoseconds of the ledger's interval in which the job's frames ran (R623) -/
  ranNs : Nat
  /-- why a pending stop was asked: 0 none, else the REASON (R572, R675) -/
  stopWhy : Nat
  deriving DecidableEq, Repr

/-- Where a partition is in its round of frames. -/
inductive FrameSt where
  /-- no frame: at a boundary -/
  | idle
  /-- a frame of a program runs -/
  | running
  /-- in the quiet period after a frame (R323): the mesh cycle it began -/
  | quiet (since : Nat)
  deriving DecidableEq, Repr

/-- A partition (R371, R557). -/
structure Part where
  live : Bool
  x0 : Nat
  y0 : Nat
  w : Nat
  h : Nat
  lockSig : Bool
  sigReq : Bool
  vf : Nat
  cxlWr : Bool
  cxlBase : Nat
  cxlSize : Nat
  plog : Nat
  idx : Nat
  progs : Tbl Program
  frame : FrameSt
  /-- the program whose state is in the benches, + 1 -/
  cur : Nat
  /-- the program whose turn is next begins after this one (R36) -/
  turn : Nat
  /-- the running frame is to be discarded once its threads have stopped (R739): 0 no, else the REASON with which jobs then end: 3
  the program's, 4 every one of the partition -/
  discard : Nat
  /-- core cycle of the frame's first issue slot, and the mesh cycle of frame start (R275) -/
  first : Option Nat
  begun : Nat
  fn : Nat
  epoch : Nat
  /-- a frame has started since the partition's last reset (R694) -/
  started : Bool
  /-- 0 cold, 1 cores up, 2 ramping down, 3 in the preamble, 4 a ramp-down is due (R588, R589); the timebase at which the ramp ends, and its rate in half W per
  ms (R590) -/
  ramp : Nat
  rampEnd : Nat
  rampRate : Nat
  /-- a synchronised frame waits for an edge since this core cycle (R695, R696) -/
  syncWait : Option Nat
  synced : Bool
  /-- marked at the clicker during a switch (R345) -/
  marked : Bool
  /-- the Foreman must reset it after a fault stop (R677) -/
  faultReset : Bool
  resetting : Bool
  energy : Nat
  /-- the timebase from which the running frame's time is not yet added to its program's -/
  frameAt : Nat
  deriving DecidableEq, Repr

/-! ## The clicker and the ring -/

/-- A request in the clicker's queue (R339): a COPEN's or a bench controller's. -/
inductive CReq where
  | copen (core h : Nat)
  | service (src dst : Nat)
  deriving DecidableEq, Repr

/-- An access of the host, through an aperture or by a host porter, to GDDR7: the move or read it belongs to, the function, write,
module address, bytes, data, whether it meets uncorrectable data, and whether its sender awaits a response. -/
structure HostReq where
  serial : Nat
  fn : Nat
  write : Bool
  addr : Nat
  len : Nat
  data : List Byte
  err : Bool
  back : Bool
  deriving DecidableEq, Repr

/-- A packet on the I/O ring (R376 to R380). -/
inductive RingMsg where
  /-- a path request on its way to the clicker -/
  | request (r : CReq)
  /-- a COPEN's request on its way to the destination bench controller (R449) -/
  | check (core h : Nat)
  /-- an answer to a COPEN with its status -/
  | answer (core h st : Nat)
  /-- a result, acknowledgement or wake sent over the control hierarchy (R344) -/
  | msg (m : OpenMsg)
  /-- a channel has closed or aborted: receiving core, queue, final state, sending core and handle (R466, R468) -/
  | closed (core q st score shand : Nat)
  /-- an abort from the receiving side on its way to the sender (R469); `rx` is the receiving core × 16 + queue -/
  | rabort (core h rx : Nat)
  /-- a sync error record for a core's supervisor, and the interrupt bit it sets -/
  | record (core bitNo : Nat) (r : BitVec 128)
  /-- a ring-side access to GDDR7 or CXL: bench (128: the trace collector), device + 1 or 0 for CXL, write, line, data, mask, whether
  its data is uncorrectable (R438), use -/
  | access (bench dev : Nat) (write : Bool) (line : Nat) (data : List Byte) (mask : List Bool) (err : Bool) (use : Use)
  /-- its response -/
  | response (bench : Nat) (line : Nat) (data : List Byte) (err : Bool) (use : Use)
  /-- an access of the host on its way to a GDDR7 controller, and its response: serial, data, error -/
  | host (r : HostReq)
  | hostBack (serial : Nat) (data : List Byte) (err : Bool)
  /-- a trace record of a bench on its way to the collector (R700) -/
  | trace (bench : Nat) (r : List Byte)
  /-- a port's report of a schedule slip to the Foreman (R365): device, partition, job -/
  | slip (dev part jobid : Nat)
  deriving DecidableEq, Repr

/-- A packet of the ring, one beat: source and destination stop, message; the stop where it is, its direction, and whether it waits
there in the through buffer or in the local queue (R378, R379). -/
structure RingPkt where
  src : Nat
  dst : Nat
  msg : RingMsg
  pos : Nat
  clockwise : Bool
  thru : Bool
  deriving DecidableEq, Repr

/-- The clicker. -/
structure Clicker where
  queue : List CReq
  paths : List CPath
  deriving DecidableEq, Repr

/-! ## The Foreman -/

/-- The last command completed in a mailbox, with its response (R549). -/
structure LastCmd where
  seq : Nat
  cmd : Nat
  status : Nat
  detail : Nat
  payload : List Byte
  deriving DecidableEq, Repr

/-- A mailbox (R546) with its last completed command. -/
structure MBox where
  owner : Nat
  seq : Nat
  cmd : Nat
  len : Nat
  status : Nat
  detail : Nat
  payload : List Byte
  last : Option LastCmd
  /-- place in the order of acceptance; 0 when no command is accepted -/
  order : Nat
  /-- bytes of a relayed response held back: module, status, detail, bytes (R563) -/
  heldBack : Option (Nat × Nat × Nat × List Byte)
  /-- a relay is outstanding: module, SEQ, deadline (R553) -/
  relay : Option (Nat × Nat × Nat)
  /-- the mailboxes 256 and up hold commands that have no mailbox of the host: those relayed to this module, with the module that
  sent it and its SEQ (R535), and those that outlive a Function Level Reset, whose responses are discarded (R552); and the function
  they are executed for -/
  sender : Option (Nat × Nat)
  func : Nat
  deriving DecidableEq, Repr

/-- An event (R583). -/
structure Event where
  tb : Nat
  code : Nat
  part : Nat
  sev : Nat
  detail : List Byte
  /-- for a merged event: count and the offset of COUNT in DETAIL -/
  count : Nat
  deriving DecidableEq, Repr

/-- A function's event log (R582). -/
structure EvLog where
  entries : List Event
  lost : Nat
  deriving DecidableEq, Repr

/-- A function's attestation in progress (R665, R666). -/
structure Attest where
  nonce : List Byte
  frag : Nat
  report : List Byte
  signed_ : Bool
  started : Nat
  deriving DecidableEq, Repr

/-- A module this one manages (R534): number, key, state (0 ABSENT 1 JOINED 2 LOST), last state word, last message. -/
structure Managed where
  mod : Nat
  key : List Byte
  state : Nat
  word : Word
  last : Nat
  deriving DecidableEq, Repr

/-- A management message (R530) as handed to the Foreman: port, source, fields, body, tag. -/
structure MgmtMsg where
  port : Nat
  src : Nat
  psn : Nat
  mtype : Nat
  more : Bool
  seq : Nat
  code : Nat
  body : List Byte
  deriving DecidableEq, Repr

/-- A management message sent and not yet acknowledged (R529): PSN, message, last transmission and its plane, retransmissions. -/
structure SentMsg where
  psn : Nat
  msg : MgmtMsg
  sentAt : Nat
  /-- RTO as it was when its timer started (R560) -/
  rto : Nat
  plane : Nat
  retries : Nat
  deriving DecidableEq, Repr

/-- A management session (R529): the peer; sending, the next PSN, the messages held and those that wait for the window of 16;
receiving, the lowest PSN not yet taken, those taken above it, the messages counted since the last ACK, when the first was,
and the plane of the last; the first part of a message in two parts (R531). -/
structure Session where
  peer : Nat
  next : Nat
  held : List SentMsg
  queue : List MgmtMsg
  ackbase : Nat
  got : List Nat
  unacked : Nat
  firstAt : Nat
  lastPlane : Nat
  first : Option MgmtMsg
  deriving DecidableEq, Repr

/-- A completion sent to the host for a BAR read (R542, R706): function, BAR, offset, Completer Abort, data. -/
structure HostDone where
  fn : Nat
  bar : Nat
  off : Nat
  abort : Bool
  data : List Byte
  deriving DecidableEq, Repr

/-- A BAR2 read under way (R542): its serial, function, offset, length, the timebase when it began, the bytes that are here. -/
structure HostRead where
  serial : Nat
  fn : Nat
  off : Nat
  addr : Nat
  len : Nat
  since : Nat
  got : List Byte
  deriving DecidableEq, Repr

/-- A HOST_MOVE under way (R562): its serial, mailbox, function, direction, host address, module address of the piece that goes next or
is on the ring, bytes still to move, the host's bytes still to write or those read so far, and whether a piece is on the ring. -/
structure HostMove where
  serial : Nat
  mbox : Nat
  fn : Nat
  toHost : Bool
  haddr : Nat
  addr : Nat
  left : Nat
  data : List Byte
  busy : Bool
  deriving DecidableEq, Repr

/-- The Foreman's mailbox side and crew side. -/
structure Fmn where
  mboxes : Tbl MBox
  nextOrder : Nat
  drops : Nat
  logs : Tbl EvLog
  /-- MSI-X vectors raised, newest first: function, vector (R544) -/
  msix : List (Nat × Nat)
  apertures : Tbl Nat
  /-- completions of BAR reads, newest first -/
  hostOut : List HostDone
  /-- bytes that HOST_MOVE has written to host memory, newest move first: host address, bytes -/
  hostMem : List (Nat × List Byte)
  /-- BAR2 reads and HOST_MOVEs under way, oldest first -/
  hostReads : List HostRead
  moves : List HostMove
  attest : Tbl Attest
  manager : Option (Nat × List Byte)
  joined : Bool
  managed : List Managed
  sessions : List Session
  /-- messages received and not yet acted on -/
  mgmtIn : List MgmtMsg
  mgmtSeq : Nat
  lastBeat : Nat
  nextSerial : Nat
  deriving DecidableEq, Repr

/-! ## Power, start-up, board, trace -/

/-- The power manager (R600 to R626). -/
structure Power where
  op : Nat
  fixed : Bool
  fixOp : Nat
  profile : Nat
  hostCap : Nat
  ialarm : Nat
  src : Nat
  vin : Nat
  iin : Nat
  pin : Nat
  tmax : Nat
  tmean : Nat
  tripped : Bool
  reg : Tbl Dword
  lastDown : Option Nat
  lastTick : Option Nat
  lastSnap : Option Nat
  /-- the core cycle of the last snapshot -/
  snapCore : Nat
  /-- a step in progress: the point it goes to (R597) -/
  stepTo : Option Nat
  /-- points still to pass toward a commanded point (R608, R599) -/
  goal : Option Nat
  /-- the fast limit's stepping: timebase of its last step (R604) -/
  lastFast : Option Nat
  wstate : Nat
  idleSince : Nat
  idleRefused : Bool
  moduleNj : Nat
  unattrNj : Nat
  /-- nanoseconds of the ledger's interval at each point, and the timebase since which the point is in force (R621) -/
  opNs : Tbl Nat
  opAt : Nat
  /-- the Foreman has slept in W3 or W4 since the ledger's last tick (R626) -/
  slept : Bool
  deriving DecidableEq, Repr

/-- An MRAM record (R637): generation, changes left, body. -/
structure Rec where
  gen : Nat
  left : Nat
  body : List Byte
  deriving DecidableEq, Repr

/-- A Foreman image slot (R633). -/
structure Image where
  present : Bool
  svn : Nat
  ok : Bool
  bytes : List Byte
  deriving DecidableEq, Repr

/-- Start-up and the maps it builds (R627 to R661). -/
structure Boot where
  step : Nat
  state : Nat
  retrain : Bool
  fail : Nat
  deg : Nat
  recs : Tbl Rec
  images : Tbl Image
  selector : Nat
  running : Nat
  /-- the number of the key derivation whose key the Foreman holds (R662) -/
  keyNo : Nat
  bypass : Tbl Nat
  spare : Tbl Nat
  memOut : Nat
  weltOut : Nat
  badCores : List (Nat × Nat × Nat)
  badStations : List (Nat × Nat)
  cxlOk : Bool
  cxlGiB : Nat
  /-- the settings of the records have been read since the last module reset -/
  loaded : Bool
  site : Nat
  crew : Nat
  member : Nat
  etype : Nat
  vid : Nat
  pcp : Nat
  rto : Nat
  retryMax : Nat
  deriving DecidableEq, Repr

/-- Pins and the I3C target (R715 to R728). -/
structure Board where
  power52 : Bool
  island : Bool
  wetarOn : Bool
  perst : Bool
  perstLowAt : Option Nat
  brakeLow : Bool
  refclk : Bool
  clkLoss : Bool
  slot : Nat
  thermTrip : Bool
  coreLock : Bool
  alert : Bool
  i3cAddr : Option Nat
  i3cOff : Nat
  i3cOut : List Byte
  /-- a module reset is held until the sensors cool (R683) -/
  held : Bool
  /-- the record of a thermal trip, which a module reset keeps (R602, R680) -/
  tripRec : Bool
  lastEdge : Option Nat
  syncTb : Nat
  deriving DecidableEq, Repr

/-- The trace collector (R702 to R707). -/
structure Trace where
  ctl : Dword
  base : Nat
  slog : Nat
  off : Nat
  wraps : Nat
  stopped : Bool
  /-- records accepted, each with the destinations in force at its acceptance (R707) -/
  queue : List (Nat × List Byte)
  /-- bytes of the buffer line that is being gathered (R704) -/
  line : List Byte
  lost : Nat
  lanes : List (List Byte)
  reg : Tbl Dword
  latched : Tbl Nat
  deriving DecidableEq, Repr

/-- A unit's fault history (R671): class, number, events as (timebase, uncorrectable), fenced; its repair: 0 none owed, 1 waiting for
a reset, 2 no generation was left, 3 cannot be hidden (R674). -/
structure Unit_ where
  cls : Nat
  num : Nat
  events : List (Nat × Bool)
  fenced : Bool
  repair : Nat
  deriving DecidableEq, Repr

/-- A reset in progress (R679 to R686): its scope, whether its reset point has passed, the timebase at which it was asked for, and the
mailboxes it answers. -/
structure Reset where
  scope : Scope
  point : Bool
  at_ : Nat
  mbox : List Nat
  deriving DecidableEq, Repr

end Sys2Proof.Machine
end

