-- ==== Sys2Proof/Machine/State.lean ====
section
/-! DEFINITION. The state of the module, the reasons a step can stop, and the state after reset: the module without 52 V,
before POWER_ON (start-up step 1 has not begun), every register at the reset value the spec gives. -/

namespace Sys2Proof.Machine

/-- The state of the whole module, and the queue of waiting commands. -/
structure State where
  /-- mesh cycles passed; the core cycle is now / 2 and the control cycle now / 4 (R20) -/
  now : Nat
  /-- the timebase in ns (R692) -/
  tb : Nat
  /-- the bytes of the 48-bit module address space (R29): GDDR7, the CXL device, local memories, bench windows -/
  mem : Mem
  /-- 8-byte words (by word address) that hold an ECC error: 1 single-bit, 2 double-bit (R437, R738) -/
  bad : Tbl Nat
  cores : Tbl Core
  benches : Tbl Bench
  flits : List InFlight
  arrivals : List Arrival
  ports : Tbl Port
  welts : Tbl Welt
  streams : Tbl Stream
  parts : Tbl Part
  clicker : Clicker
  ring : List RingPkt
  /-- by 2 × stop + (1 clockwise): 1 when the stop last sent from its through buffer while both its buffers held a beat (R379) -/
  ringTurn : Tbl Nat
  /-- accesses that have reached a GDDR7 controller's ring side or the CXL controller, in the order in which they came -/
  ringSide : List RingPkt
  fmn : Fmn
  pwr : Power
  boot : Boot
  trc : Trace
  board : Board
  faults : List Unit_
  resets : List Reset
  /-- the MODEL's own counter of free values taken -/
  free : Nat
  /-- commands waiting, first in first out -/
  pending : List Instr
  deriving DecidableEq, Repr

/-- The faults of the machine: none. No command stops the module; what the spec calls faults are effects on State (an
exception entry, a halted thread, an event, a status). Nobody raises one, so the type says nothing unsafe. -/
inductive Fault where
  deriving DecidableEq, Repr

/-- Why the model gives a command no effect. -/
inductive Refusal where
  /-- raised by the dispatch for a row that has no meaning yet: safe, the model says nothing of such a command -/
  | notModelled (mnemonic : String)
  deriving DecidableEq, Repr

/-! ## Reset values of the parts -/

/-- Per-thread system registers after reset (R178 to R312): CORE_CRCPOLY and CORE_JTO have a value, the rest 0. -/
def ctxSrDefault (n : Nat) : Word :=
  if n = 0x02D then 0x82F63B78#32 else if n = 0x04C then 20#32 else 0#32

/-- Per-core system registers after reset: CORE_IMODE.MODE 2 and CORE_FRCTL.SIZE 2, the rest 0. -/
def coreSrDefault (n : Nat) : Word := if n = 0x120 then 2#32 else if n = 0x128 then 2#32 else 0#32

/-- A context after reset: C0 parked at S level, the others free at U level (R257, the CORE_STATUS table). -/
def Ctx.reset (k : Nat) : Ctx where
  pc := 0
  st := if k = 0 then .park else .free
  lvl := if k = 0 then .s else .u
  ops := []
  rets := []
  ldepth := 0
  sr := []
  lastEnd := false
  muls := []
  resv := none
  hold := none
  holdLen := none
  spinFrom := none
  inject := none
  suspReq := false
  wait := .none
  heldPops := 0
  heldLen := 0
  cycHi := 0
  stage0 := []
  stage1 := []
  samples := 0

def Tile.reset : Tile := { inUse := false, data := [], scale := [], patch := [] }

def Acc.reset : Acc := { committed := [], working := [] }

def Core.reset : Core where
  ctxs := []
  sr := []
  tiles := []
  accs := []
  act := []
  tops := []
  mmaFree := 0
  lsFree := 0
  vecFree := 0
  rd0Free := 0
  rd1Free := 0
  wrFree := 0
  fetched := none
  ustore := []
  micro := []
  cycAcc := 0
  cycFrom := none
  tileOwn := []
  queueOwn := []
  slotOwn := []
  samplesQ := []

/-- A tally record after reset: SCOPE 3 (PARTITION), all else 0 (the BENCH_TALLY table). -/
def Tally.reset : Tally :=
  { count := 0, gen := 0, ovf := false, unf := false, mis := false, scope := 3, lastAdv := none }

def Queue.reset : Queue where
  base := 0
  size := 0
  armed := false
  state := 0
  ten := false
  tidx := 0
  score := 0
  sctx := 0
  shand := 0
  head := 0
  tail := 0
  seq := 0
  final := 0
  claim := none
  part := []

def Chan.reset : Chan where
  state := 0
  ctx := 0
  dst := 0
  dq := 0
  conn := 0
  nslot := 0
  size := 0
  maxu := 0
  toexp := 0
  tail := 0
  khead := 0
  sent := 0
  left := 0
  placed := 0
  written := 0

def Slot.reset : Slot where
  src := 0
  dst := 0
  len := 0
  cls := 0
  conn := 0
  ten := false
  tidx := 0
  remote := 0
  state := 0
  why := 0
  ctx := 0
  order := 0
  posted := 0
  sent := 0
  counted := 0
  out := 0
  fault := 0

/-- A sync error ring after reset: EN 1 (the BENCH_SECTLc table). -/
def SyncRing.reset : SyncRing := { head := 0, tail := 0, ovf := false, en := true, recs := [] }

def Bench.reset : Bench where
  reg := []
  act := []
  pattern := []
  conns := []
  connOwn := []
  oq := []
  tallies := []
  watches := []
  tallyIn := []
  deferred := []
  inbox := []
  queues := []
  chans := []
  slots := []
  sync := []
  lines := []
  rr := []
  fills := []
  mb := []
  uitems := []
  rng := none
  rngDone := false
  awins := []
  pathAsk := []
  trace := []
  traceLost := 0

def Port.reset : Port where
  reg := []
  actBytes := 0
  accs := []
  wins := []
  replies := []
  recent := []
  nextAcc := 0

def Welt.reset : Welt := { reg := [], tx := [], asks := [], rx := [], rxUsed := 0, out := [] }

def Stream.reset : Stream where
  state := 0
  part := 0
  prog := 0
  planes := 0
  peer := 0
  pstr := 0
  tally := 0
  wbase := 0
  sbench := 0
  wlen := 0
  conn := 0
  next := 0
  acked := 0
  bytes := 0
  retx := 0
  fwhy := 0
  plane := 0
  got := []
  done := []
  unacked := 0
  firstAt := 0
  lastPlane := 0

def Sections.empty : Sections where
  pattern := []
  conns := []
  owners := []
  srconns := []
  code := []
  ucdec := []
  ustore := []
  shares := []
  tfmt := []
  reloc := []
  liveLocal := []
  liveWindow := []
  queues := []
  services := []
  streams := []

def Job.reset : Job where
  jobid := 0
  reason := 0
  variant := 0
  framesAsked := 0
  frames := 0
  energy := 0
  unattr := 0
  slips := 0
  overruns := 0
  excursions := 0
  startTb := 0
  endTb := 0
  halts := 0
  lockups := 0
  conts := 0
  dirty := 0
  firstDirty := 0
  accSat := 0
  patchOvf := 0
  asyMax := []
  asyMse := []

def Program.reset : Program where
  js := 0
  w := 0
  h := 0
  imode := 0
  shmode := 0
  plog := 0
  ceil := 0
  reqfix := 0
  nvar := 0
  deadline := 0
  liveKib := 0
  variants := []
  sect := Sections.empty
  job := Job.reset
  saved := none
  save := []
  fresh := true
  stopBy := 0
  ranNs := 0
  stopWhy := 0

def Part.reset : Part where
  live := false
  x0 := 0
  y0 := 0
  w := 0
  h := 0
  lockSig := false
  sigReq := false
  vf := 0
  cxlWr := false
  cxlBase := 0
  cxlSize := 0
  plog := 8
  idx := 0
  progs := []
  frame := .idle
  cur := 0
  turn := 0
  discard := 0
  first := none
  begun := 0
  fn := 0
  epoch := 0
  started := false
  ramp := 0
  rampEnd := 0
  rampRate := 0
  syncWait := none
  synced := false
  marked := false
  faultReset := false
  resetting := false
  energy := 0
  frameAt := 0

def Clicker.reset : Clicker := { queue := [], paths := [] }

def MBox.reset : MBox where
  owner := 0
  seq := 0
  cmd := 0
  len := 0
  status := 0
  detail := 0
  payload := []
  last := none
  order := 0
  heldBack := none
  relay := none
  sender := none
  func := 0

def EvLog.reset : EvLog := { entries := [], lost := 0 }

def Attest.reset : Attest := { nonce := [], frag := 0, report := [], signed_ := false, started := 0 }

def Fmn.reset : Fmn where
  mboxes := []
  nextOrder := 1
  drops := 0
  logs := []
  msix := []
  apertures := []
  hostOut := []
  hostMem := []
  hostReads := []
  moves := []
  attest := []
  manager := none
  joined := false
  managed := []
  sessions := []
  mgmtIn := []
  mgmtSeq := 0
  lastBeat := 0
  nextSerial := 0

/-- The power manager after reset: OPNOW 7, IALARM 156 (the power manager's register table), nothing measured. -/
def Power.reset : Power where
  op := 7
  fixed := false
  fixOp := 0
  profile := 0
  hostCap := 0
  ialarm := 156
  src := 0
  vin := 0
  iin := 0
  pin := 0
  tmax := 0
  tmean := 0
  tripped := false
  reg := []
  lastDown := none
  lastTick := none
  lastSnap := none
  snapCore := 0
  stepTo := none
  goal := none
  lastFast := none
  wstate := 0
  idleSince := 0
  idleRefused := false
  moduleNj := 0
  unattrNj := 0
  opNs := []
  opAt := 0
  slept := false

/-- The records as manufactured (R637, R644): generation 0, every lifetime change left; the repair map bypasses column
16 in every row and excludes core 4 at every station; identity and calibration bodies are free (FREE VALUE); the others
are all zeros (DESIGN CHOICE). -/
def recDefault (r : Nat) : Rec :=
  if r = 0 then { gen := 0, left := 0, body := (List.range 8928).map (Config.factoryByte 0) }
  else if r = 1 then { gen := 0, left := 0, body := (List.range 68).map (Config.factoryByte 1) }
  else if r = 2 then
    { gen := 0, left := 32, body := List.replicate 8 16#8 ++ List.replicate 136 4#8 ++ List.replicate 8 0#8 }
  else if r = 3 then { gen := 0, left := 16, body := List.replicate 8 0#8 }
  else if r = 4 then { gen := 0, left := 64, body := List.replicate 8 0#8 }
  else if r = 5 then { gen := 0, left := 256, body := [] }
  else if r = 6 then { gen := 0, left := 64, body := List.replicate 320 0#8 }
  else { gen := 0, left := 64, body := List.replicate 8 0#8 }

/-- The image slots as manufactured (DESIGN CHOICE): slot A holds an image that passes R634, with SVN 0; slot B is
empty. The image's bytes are free (FREE VALUE). -/
def imageDefault (k : Nat) : Image :=
  if k = 0 then { present := true, svn := 0, ok := true, bytes := (List.range 0x1ED1).map (Config.imageByte 0) }
  else { present := false, svn := 0, ok := false, bytes := [] }

/-- Start-up before power: STEP reads 1 (the FMN_BOOT table). -/
def Boot.reset : Boot where
  step := 1
  state := 0
  retrain := false
  fail := 0
  deg := 0
  recs := []
  images := []
  selector := 0
  running := 0
  keyNo := 0
  bypass := []
  spare := []
  memOut := 0
  weltOut := 0
  badCores := []
  badStations := []
  cxlOk := false
  cxlGiB := 0
  loaded := false
  site := 0
  crew := 0
  member := 0
  etype := 0
  vid := 0
  pcp := 0
  rto := 32
  retryMax := 16

/-- The trace collector after reset: WRAP 1, IEXP 16 in FMN_TRC_CTL, SLOG 20 (the trace block's table). -/
def Trace.reset : Trace where
  ctl := 0x108#64
  base := 0
  slog := 20
  off := 0
  wraps := 0
  stopped := false
  queue := []
  line := []
  lost := 0
  lanes := []
  reg := []
  latched := []

/-- The pins before power: 52 V absent, PERST_N low, the reference clock present (DESIGN CHOICE: what the baseboard
drives is not the module's to say). -/
def Board.reset : Board where
  power52 := false
  island := false
  wetarOn := false
  perst := false
  perstLowAt := none
  brakeLow := false
  refclk := true
  clkLoss := false
  slot := 0
  thermTrip := false
  coreLock := false
  alert := false
  i3cAddr := none
  i3cOff := 0
  i3cOut := []
  held := false
  tripRec := false
  lastEdge := none
  syncTb := 0

/-- The module right after reset: no 52 V, no command waiting. -/
def State.reset : State where
  now := 0
  tb := 0
  mem := []
  bad := []
  cores := []
  benches := []
  flits := []
  arrivals := []
  ports := []
  welts := []
  streams := []
  parts := []
  clicker := Clicker.reset
  ring := []
  ringTurn := []
  ringSide := []
  fmn := Fmn.reset
  pwr := Power.reset
  boot := Boot.reset
  trc := Trace.reset
  board := Board.reset
  faults := []
  resets := []
  free := 0
  pending := []

end Sys2Proof.Machine
end

