-- ==== Sys2Proof/Machine/Ops.lean ====
section
/-! DEFINITION. The named operations over the state that every meaning uses: reading and writing the parts, the clocks,
memory with its error code, the event log, the stacks, completing an instruction, and taking an exception and returning
from one. -/

namespace Sys2Proof.Machine

/-! ## Reaching the parts -/

def coreD : Nat → Core := fun _ => Core.reset
def benchD : Nat → Bench := fun _ => Bench.reset
def portD : Nat → Port := fun _ => Port.reset
def weltD : Nat → Welt := fun _ => Welt.reset
def streamD : Nat → Stream := fun _ => Stream.reset
def partD : Nat → Part := fun _ => Part.reset
def progD : Nat → Program := fun _ => Program.reset
def tileD : Nat → Tile := fun _ => Tile.reset
def accD : Nat → Acc := fun _ => Acc.reset
def tallyD : Nat → Tally := fun _ => Tally.reset
def queueD : Nat → Queue := fun _ => Queue.reset
def chanD : Nat → Chan := fun _ => Chan.reset
def slotD : Nat → Slot := fun _ => Slot.reset
def syncD : Nat → SyncRing := fun _ => SyncRing.reset
def mboxD : Nat → MBox := fun _ => MBox.reset
def logD : Nat → EvLog := fun _ => EvLog.reset
def nats : Nat → Nat := fun _ => 0

def State.core (s : State) (c : Nat) : Core := tblGet coreD s.cores c
def State.updCore (s : State) (c : Nat) (f : Core → Core) : State := { s with cores := tblUpd coreD s.cores c f }
def State.bench (s : State) (b : Nat) : Bench := tblGet benchD s.benches b
def State.updBench (s : State) (b : Nat) (f : Bench → Bench) : State := { s with benches := tblUpd benchD s.benches b f }
def State.port (s : State) (d : Nat) : Port := tblGet portD s.ports d
def State.updPort (s : State) (d : Nat) (f : Port → Port) : State := { s with ports := tblUpd portD s.ports d f }
def State.welt (s : State) (w : Nat) : Welt := tblGet weltD s.welts w
def State.updWelt (s : State) (w : Nat) (f : Welt → Welt) : State := { s with welts := tblUpd weltD s.welts w f }
def State.stream (s : State) (i : Nat) : Stream := tblGet streamD s.streams i
def State.updStream (s : State) (i : Nat) (f : Stream → Stream) : State :=
  { s with streams := tblUpd streamD s.streams i f }
def State.part (s : State) (p : Nat) : Part := tblGet partD s.parts p
def State.updPart (s : State) (p : Nat) (f : Part → Part) : State := { s with parts := tblUpd partD s.parts p f }

def Core.ctx (k : Core) (i : Nat) : Ctx := tblGet Ctx.reset k.ctxs i
def Core.updCtx (k : Core) (i : Nat) (f : Ctx → Ctx) : Core := { k with ctxs := tblUpd Ctx.reset k.ctxs i f }
def State.ctx (s : State) (t : Thread) : Ctx := (s.core t.core).ctx t.ctx
def State.updCtx (s : State) (t : Thread) (f : Ctx → Ctx) : State := s.updCore t.core (fun k => k.updCtx t.ctx f)

/-- A per-thread system register that holds a value (R239, R312). -/
def Ctx.reg (x : Ctx) (n : Nat) : Word := tblGet ctxSrDefault x.sr n
def Ctx.setReg (x : Ctx) (n : Nat) (v : Word) : Ctx := { x with sr := tblSet ctxSrDefault x.sr n v }
/-- A per-core system register that holds a value. -/
def Core.reg (k : Core) (n : Nat) : Word := tblGet coreSrDefault k.sr n
def Core.setReg (k : Core) (n : Nat) (v : Word) : Core := { k with sr := tblSet coreSrDefault k.sr n v }
/-- A register of a bench control block, by offset. -/
def Bench.r (x : Bench) (o : Nat) : Dword := tblGet (zeros 64) x.reg o
def Bench.setR (x : Bench) (o : Nat) (v : Dword) : Bench := { x with reg := tblSet (zeros 64) x.reg o v }
def Port.r (x : Port) (o : Nat) : Dword := tblGet (zeros 64) x.reg o
def Port.setR (x : Port) (o : Nat) (v : Dword) : Port := { x with reg := tblSet (zeros 64) x.reg o v }
def Welt.r (x : Welt) (o : Nat) : Dword := tblGet (zeros 64) x.reg o
def Welt.setR (x : Welt) (o : Nat) (v : Dword) : Welt := { x with reg := tblSet (zeros 64) x.reg o v }

def Core.tile (k : Core) (i : Nat) : Tile := tblGet tileD k.tiles i
def Core.updTile (k : Core) (i : Nat) (f : Tile → Tile) : Core := { k with tiles := tblUpd tileD k.tiles i f }
def Core.acc (k : Core) (i : Nat) : Acc := tblGet accD k.accs i
def Core.updAcc (k : Core) (i : Nat) (f : Acc → Acc) : Core := { k with accs := tblUpd accD k.accs i f }
def Bench.tally (x : Bench) (i : Nat) : Tally := tblGet tallyD x.tallies i
def Bench.updTally (x : Bench) (i : Nat) (f : Tally → Tally) : Bench := { x with tallies := tblUpd tallyD x.tallies i f }
/-- Receive queue q of core c (within the bench), handle h, slot n: index c × 16 + number (R443, R469, R413). -/
def Bench.queue (x : Bench) (i : Nat) : Queue := tblGet queueD x.queues i
def Bench.updQueue (x : Bench) (i : Nat) (f : Queue → Queue) : Bench := { x with queues := tblUpd queueD x.queues i f }
def Bench.chan (x : Bench) (i : Nat) : Chan := tblGet chanD x.chans i
def Bench.updChan (x : Bench) (i : Nat) (f : Chan → Chan) : Bench := { x with chans := tblUpd chanD x.chans i f }
def Bench.slot (x : Bench) (i : Nat) : Slot := tblGet slotD x.slots i
def Bench.updSlot (x : Bench) (i : Nat) (f : Slot → Slot) : Bench := { x with slots := tblUpd slotD x.slots i f }
def Bench.ring (x : Bench) (i : Nat) : SyncRing := tblGet syncD x.sync i
def Bench.updRing (x : Bench) (i : Nat) (f : SyncRing → SyncRing) : Bench := { x with sync := tblUpd syncD x.sync i f }
def Part.prog (p : Part) (i : Nat) : Program := tblGet progD p.progs i
def Part.updProg (p : Part) (i : Nat) (f : Program → Program) : Part := { p with progs := tblUpd progD p.progs i f }
def State.mbox (s : State) (m : Nat) : MBox := tblGet mboxD s.fmn.mboxes m
def State.updMbox (s : State) (m : Nat) (f : MBox → MBox) : State :=
  { s with fmn := { s.fmn with mboxes := tblUpd mboxD s.fmn.mboxes m f } }
def State.recd (s : State) (r : Nat) : Rec := tblGet recDefault s.boot.recs r
def State.image (s : State) (k : Nat) : Image := tblGet imageDefault s.boot.images k

/-! ## Places and clocks -/

/-- Bench of a core (R7), its column and row (R6). -/
def benchOf (c : Nat) : Nat := c / 4
def colOf (b : Nat) : Nat := b % 16
def rowOf (b : Nat) : Nat := b / 16

/-- Core and control clocks: two and four mesh cycles (R20). -/
def coreNow (s : State) : Nat := s.now / 2
def ctlNow (s : State) : Nat := s.now / 4

/-- CORE_CYC of a core: core cycles since its reset while its clock ran (R243). -/
def cyc (s : State) (c : Nat) : Nat :=
  let k := s.core c
  match k.cycFrom with
  | some f => k.cycAcc + (coreNow s - f)
  | none => k.cycAcc

/-- Configured contexts N by CORE_IMODE (R258). -/
def nCtx (s : State) (c : Nat) : Nat :=
  let m := ((s.core c).reg 0x120).toNat % 4
  if m = 0 then 2 else if m = 1 then 4 else 8

/-- The context exists: one of C0 to C(N − 1) of one of the 512 cores. -/
def exists_ (s : State) (t : Thread) : Bool := decide (t.core < 512) && decide (t.ctx < nCtx s t.core)

/-- The rectangle of a partition contains a bench (R371). -/
def Part.holds (p : Part) (b : Nat) : Bool :=
  p.live && decide (p.x0 ≤ colOf b) && decide (colOf b < p.x0 + p.w) && decide (p.y0 ≤ rowOf b) && decide (rowOf b < p.y0 + p.h)

/-- The partition that contains a bench. -/
def partOf (s : State) (b : Nat) : Option Nat := findBelow 8 (fun p => (s.part p).holds b)

/-- The benches of a partition, in bench order. -/
def benchesOf (s : State) (p : Nat) : List Nat := (List.range 128).filter (fun b => (s.part p).holds b)
def coresOf (s : State) (p : Nat) : List Nat := (benchesOf s p).flatMap (fun b => [4 * b, 4 * b + 1, 4 * b + 2, 4 * b + 3])

/-- The lead bench of a partition: its south-west bench. -/
def leadOf (q : Part) : Nat := q.y0 * 16 + q.x0

/-- Apply a change to each of a list of places, in order. -/
def forAll {α : Type} (l : List α) (f : α → State → State) (s : State) : State := l.foldl (fun s a => f a s) s

/-! ## Counters, pending bits, activity counts -/

/-- Add `n` to the counter at offset `o` of bench `b`'s control block (R93). -/
def count (b o n : Nat) (s : State) : State := s.updBench b (fun x => x.setR o (counterAdd (x.r o) n))

/-- Activity counts of the power manager's interval (R618). -/
def act (b o n : Nat) (s : State) : State := s.updBench b (fun x => { x with act := tblUpd nats x.act o (· + n) })

/-- Set a bit of CORE_IPEND (R301). -/
def setPend (c i : Nat) (s : State) : State := s.updCore c (fun k => k.setReg 0x125 (k.reg 0x125 ||| BitVec.ofNat 32 (2 ^ i)))

/-- A free value: the next one the spec leaves open. -/
def takeFree (s : State) : Nat × State := (Config.freeNat s.free, { s with free := s.free + 1 })

/-- One cycle of the 100 MHz reference clock: the timebase advances by 10 ns while the always-on island is powered and the
clock is present (R692, R725). -/
def idleTick (s : State) : State :=
  if s.board.island && s.board.refclk then { s with tb := s.tb + 10 } else s

/-- What keeps the module out of W1 ends at this moment (R613). -/
def touch (s : State) : State := { s with pwr := { s.pwr with idleSince := s.tb } }

/-! ## The event log (R582, R583) -/

/-- Raise an MSI-X vector of a function (R544). -/
def raise (f v : Nat) (s : State) : State := { s with fmn := { s.fmn with msix := (f, v) :: s.fmn.msix } }

/-- The event vector of a function (R544). -/
def eventVector (f : Nat) : Nat := if f = 0 then 128 else 16

def logIn (f : Nat) (e : Event) (s : State) : State :=
  let l := tblGet logD s.fmn.logs f
  let put := fun (l : EvLog) => { s with fmn := { s.fmn with logs := tblSet logD s.fmn.logs f l } }
  if 256 ≤ l.entries.length then put { l with lost := l.lost + 1 }
  else
    let s1 := put { l with entries := l.entries ++ [e] }
    if l.entries = [] then raise f (eventVector f) s1 else s1

/-- The functions that receive an event: PF0, and the VF of its partition, or every VF bound to a partition when it has
none. -/
def listeners (s : State) (p : Nat) : List Nat :=
  let vfs := (List.range 8).filterMap (fun q =>
    if (s.part q).live && decide ((s.part q).vf ≠ 0) && (decide (q = p) || decide (p = 0xFF)) then some (s.part q).vf else none)
  0 :: vfs

/-- Log an event of partition `p` (0xFF: the module) (R583). -/
def logEvent (code p sev : Nat) (detail : List Byte) (s : State) : State :=
  let e : Event := { tb := s.tb, code := code, part := p, sev := sev, detail := padTo 20 detail, count := 1 }
  forAll (listeners s p) (fun f => logIn f e) s

/-- Log an OVERRUN, SLIP or EXCURSION of a job: within 100 ms of an entry of the same code, partition and job, it is
merged into that entry, whose COUNT field (DETAIL bytes 4 to 7) rises (R583). -/
def logMerged (code p : Nat) (jobid : Nat) (rest : List Byte) (s : State) : State :=
  let e : Event :=
    { tb := s.tb, code := code, part := p, sev := 1, detail := padTo 20 (leBytes jobid 4 ++ leBytes 1 4 ++ rest), count := 1 }
  let same := fun (x : Event) =>
    decide (x.code = code) && decide (x.part = p) && decide (x.detail.take 4 = leBytes jobid 4) &&
      decide (s.tb < x.tb + 100000000)
  let bump := fun (x : Event) =>
    { x with count := x.count + 1, detail := x.detail.take 4 ++ leBytes (x.count + 1) 4 ++ x.detail.drop 8 }
  forAll (listeners s p) (fun f s =>
    let l := tblGet logD s.fmn.logs f
    match l.entries.findIdx? same with
    | some i =>
      { s with fmn := { s.fmn with logs := tblSet logD s.fmn.logs f { l with entries := l.entries.modify i bump } } }
    | none => logIn f e s) s

/-- Level codes (R283). -/
def lvlN : Level → Nat
  | .u => 0
  | .s => 1
  | .f => 2

/-! ## Trace records (R697 to R700) -/

/-- Put a record in a bench's trace queue of 64: a drop counts in FMN_CNT_TRCLOST, and the next record accepted is preceded
by a LOST record (R700). -/
def pushRecord (b : Nat) (r lost : List Byte) (s : State) : State :=
  let q := (s.bench b).trace
  let n := (s.bench b).traceLost
  if n = 0 ∧ q.length < 64 then s.updBench b (fun x => { x with trace := q ++ [r] })
  else if n ≠ 0 ∧ q.length < 63 then s.updBench b (fun x => { x with trace := q ++ [lost, r], traceLost := 0 })
  else
    { s.updBench b (fun x => { x with traceLost := n + 1 }) with
      trc := { s.trc with reg := tblUpd (zeros 64) s.trc.reg 0x038 (fun v => counterAdd v 1) } }

/-- A bench takes a trace record, when tracing is on, its partition is traced and its source selected (R699). -/
def trace (b core ctx type sub : Nat) (payload : List Byte) (s : State) : State :=
  let ctl := s.trc.ctl.toNat
  match partOf s b with
  | none => s
  | some p =>
    if bit ctl 0 && bit ctl (24 + p) && (decide (5 < type) || bit ctl (15 + type)) then
      let head := fun (ty su : Nat) => leBytes s.tb 8 ++
        leBytes (ty + su * 2 ^ 4 + b * 2 ^ 8 + core % 4 * 2 ^ 15 + ctx * 2 ^ 17 + p * 2 ^ 20) 4 ++ leBytes (s.part p).fn 4
      pushRecord b (padTo 32 (head type sub ++ payload)) (padTo 32 (head 15 0 ++ leBytes (s.bench b).traceLost 4)) s
    else s

/-- Payload of a FAULT record (R698). -/
def faultPayload (cause lvl : Nat) (pc info : Word) : List Byte :=
  leBytes cause 1 ++ leBytes lvl 1 ++ [0, 0] ++ leBytes pc.toNat 4 ++ leBytes info.toNat 4

/-- Update the job record of the program whose frame is in the benches of partition `p`. -/
def updJob (p : Nat) (f : Job → Job) (s : State) : State :=
  s.updPart p (fun q => if q.cur = 0 then q else q.updProg (q.cur - 1) (fun g => { g with job := f g.job }))

/-- The same, for the partition of a core. -/
def jobOfCore (c : Nat) (f : Job → Job) (s : State) : State :=
  match partOf s (benchOf c) with
  | some p => updJob p f s
  | none => s

/-- The arithmetic counters of core `c` (R92): +0x00 ACCSAT, +0x08 SCLUF, +0x10 PATCHOVF, +0x18 EARLYMUL,
+0x20 HOLDEXP (R300). The job completion record has the increments of the first and the third (R581). -/
def coreCount (c o n : Nat) (s : State) : State :=
  let s1 := count (benchOf c) (0x4000 + c % 4 * 0x40 + o) n s
  if o = 0x00 then jobOfCore c (fun j => { j with accSat := j.accSat + n }) s1
  else if o = 0x10 then jobOfCore c (fun j => { j with patchOvf := j.patchOvf + n }) s1
  else s1

/-! ## Memory -/

/-- Module address of a core's local memory and of a bench memory window (R29). -/
def localBase (c : Nat) : Nat := 0x800000000000 + c * 0x100000
def winBase (b : Nat) : Nat := 0x810000000000 + b * 0x200000

/-- The core whose local memory holds a module address. -/
def coreOfAddr (a : Nat) : Option Nat :=
  if 0x800000000000 ≤ a ∧ a < 0x800020000000 then some ((a - 0x800000000000) / 0x100000) else none

/-- The bench whose window holds a module address. -/
def winOfAddr (a : Nat) : Option Nat :=
  if 0x810000000000 ≤ a ∧ a < 0x810010000000 then some ((a - 0x810000000000) / 0x200000) else none

/-- The bench whose memories hold a module address. -/
def homeBench (a : Nat) : Option Nat :=
  match coreOfAddr a with
  | some c => some (benchOf c)
  | none => winOfAddr a

/-- 64-byte lines that `n` bytes at `a` touch. -/
def lineCount (a n : Nat) : Nat := if n = 0 then 0 else (a + n - 1) / 64 - a / 64 + 1

/-- Count the line accesses of the ledger (R618). -/
def actLines (a n : Nat) (s : State) : State :=
  match homeBench a with
  | some b => act b 0x6830 (lineCount a n) s
  | none => s

/-- 8-byte words of [a, a + n) that hold an error of kind `k` (1 single-bit, 2 double-bit). -/
def badWords (s : State) (a n k : Nat) : List Nat :=
  (s.bad.filter (fun p => decide (p.2 = k) && decide (a < 8 * p.1 + 8) && decide (8 * p.1 < a + n))).map (·.1)

/-- Clear reservations on the lines of local memory that a write touches (R225). -/
def clearResv (c l0 l1 : Nat) (s : State) : State :=
  let hit := fun (x : Ctx) => match x.resv with
    | some l => decide (l0 ≤ l) && decide (l ≤ l1)
    | none => false
  if (List.range 8).any (fun i => hit ((s.core c).ctx i)) then
    forAll (List.range 8) (fun i s =>
      if hit ((s.core c).ctx i) then s.updCtx ⟨c, i⟩ (fun x => { x with resv := none }) else s) s
  else s

/-- The mask entry for address `a` of a masked write at `a0`. -/
def maskAt (l : List (Byte × Bool)) (a0 a : Nat) : Bool :=
  if a < a0 then false else match l[a - a0]? with
    | some p => p.2
    | none => false

/-- A masked write under SECDED (R738): a word written in full loses its error; a partial write corrects a single-bit
error, and cannot merge into a word with a double-bit error, which stays. -/
def eccWrite (s : State) (a : Nat) (l : List (Byte × Bool)) : State :=
  let word := fun w => (List.range 8).map (fun i => maskAt l a (8 * w + i))
  let touched := fun w => (word w).any id
  let full := fun w => (word w).all id
  let partly := s.bad.filter (fun p => touched p.1 && !full p.1)
  let blocked := partly.filter (fun p => decide (p.2 = 2))
  let stay := fun w => blocked.any (fun p => decide (p.1 = w))
  let l' := l.mapIdx (fun i p => (p.1, p.2 && !stay ((a + i) / 8)))
  let s1 := { s with mem := memPutMask s.mem a l', bad := s.bad.filter (fun p => !touched p.1 || stay p.1) }
  match homeBench a with
  | some b => count b 0x6A08 blocked.length (count b 0x6A00 (partly.length - blocked.length) s1)
  | none => s1

/-- Write masked bytes at a module address: the one operation every agent's write ends in. -/
def writeMask (a : Nat) (l : List (Byte × Bool)) (s : State) : State :=
  let s1 := if s.bad = [] then { s with mem := memPutMask s.mem a l } else eccWrite s a l
  let s2 := match coreOfAddr a with
    | some c => clearResv c ((a - localBase c) / 64) ((a + l.length - 1 - localBase c) / 64) s1
    | none => s1
  actLines a l.length s2

/-- Write bytes at a module address. -/
def write (a : Nat) (l : List Byte) (s : State) : State := writeMask a (l.map (fun b => (b, true))) s

/-- What a read of `n` bytes leaves behind: single-bit errors corrected and counted (R437), and the line accesses. -/
def noteRead (a n : Nat) (s : State) : State :=
  let k := badWords s a n 1
  let s1 := if k = [] then s else
    let s1 := { s with bad := s.bad.filter (fun p => !k.contains p.1) }
    match homeBench a with
    | some b => count b 0x6A00 k.length s1
    | none => s1
  actLines a n s1

/-- The first line of [a, a + n) with uncorrectable data. -/
def uncorrectable (s : State) (a n : Nat) : Option Nat := ((badWords s a n 2).head?).map (fun w => 8 * w / 64 * 64)

/-- Record an uncorrectable event at a consumer of core `c` in BENCH_CONT of its bench (R439), and log it. `src`: 0 a
GDDR7 reply, 1 a link, 2 local memory, 3 bench memory, 4 CXL poison. -/
def recordCont (c src addr : Nat) (who : Option Thread) (s : State) : State :=
  let b := benchOf c
  let old := ((s.bench b).r 0x6600).toNat
  let new := if bit old 63 then old ||| 2 ^ 53 else
    addr % 2 ^ 48 + src * 2 ^ 48 + c % 4 * 2 ^ 51 + 2 ^ 63
  let s1 := s.updBench b (fun x => x.setR 0x6600 (BitVec.ofNat 64 new))
  let p := (partOf s b).getD 0xFF
  let s2 := match who with
    | some t => trace b c t.ctx 5 3
        (faultPayload 0x0D (lvlN (s.ctx t).lvl) (s.ctx t).pc (BitVec.ofNat 32 addr)) s1
    | none => trace b c 0 5 3 (faultPayload 0x0D 0 0 (BitVec.ofNat 32 addr)) s1
  logEvent 5 p 2 (leBytes b 4 ++ leBytes new 8) s2

/-- An uncorrectable read from a bench's own memories: counted in BENCH_CNT_MUNC and recorded. -/
def memCont (c addr : Nat) (who : Option Thread) (s : State) : State :=
  let src := if (coreOfAddr addr).isSome then 2 else 3
  let s1 := match homeBench addr with
    | some b => count b 0x6A08 1 s
    | none => s
  recordCont c src addr who s1

/-! ## Levels, states, the status word -/

def lvlOf (n : Nat) : Level := if n = 0 then .u else if n = 1 then .s else .f

/-- Context state codes (R257). -/
def stN : CtxState → Nat
  | .free => 0
  | .run => 1
  | .susp => 2
  | .halt => 3
  | .park => 4
  | .lock => 5

def stOf (n : Nat) : CtxState :=
  if n = 0 then .free else if n = 1 then .run else if n = 2 then .susp else if n = 3 then .halt else if n = 4 then .park else .lock

/-- Core cycles left in the hold window. -/
def holdLeft (s : State) (x : Ctx) : Nat :=
  match x.holdLen with
  | some n => n
  | none => match x.hold with
    | some e => e - coreNow s
    | none => 0

def holdOpen (x : Ctx) : Bool := x.hold.isSome || x.holdLen.isSome

/-- CORE_SVC.SVC. -/
def svc (s : State) (c : Nat) : Bool := ((s.core c).reg 0x101).getLsbD 0

/-- CORE_STATUS of a context; `prev` is the PREVST field (R296). -/
def statusWord (s : State) (t : Thread) (prev : Nat) : Word :=
  let x := s.ctx t
  BitVec.ofNat 32 (lvlN x.lvl + b2n (holdOpen x) * 4 + min (holdLeft s x) 1023 * 8 + b2n (svc s t.core) * 2 ^ 13 + prev * 2 ^ 14)

/-! ## Multiplies in flight -/

/-- MHI:MLO of a context. -/
def pair (x : Ctx) : Dword := x.reg 0x021 ++ x.reg 0x020
def setPair (x : Ctx) (v : Dword) : Ctx :=
  (x.setReg 0x020 (v.extractLsb' 0 32)).setReg 0x021 (v.extractLsb' 32 32)

/-- The pair after one more multiply (R208, R211). -/
def mulStep (v : Dword) (m : MulOp) : Dword := if m.add then v + m.value else m.value

/-- Write the results of the multiplies in flight that `p` selects, oldest first. -/
def settle (p : MulOp → Bool) (x : Ctx) : Ctx :=
  if x.muls = [] then x else
    { setPair x ((x.muls.filter p).foldl mulStep (pair x)) with muls := x.muls.filter (fun m => !p m) }

/-- A multiply issued in core cycle t has written the pair from t + 3 on (R209). -/
def mulDone (u : Nat) (m : MulOp) : Bool := decide (m.issued + 3 ≤ u)

/-- Complete every multiply in flight: what exception entry waits for (R213). -/
def settleAll (x : Ctx) : Ctx := settle (fun _ => true) x

/-! ## The stacks (R171 to R175) -/

def word (n : Nat) : Word := BitVec.ofNat 32 n

/-- The words a fill brings: `n` words from below the pointer downward (R172), top of the fill first. -/
def fillWords (s : State) (c : Nat) (ptr : Nat) : Nat → List Word
  | 0 => []
  | n + 1 => memWord s.mem (localBase c + ptr - 4) :: fillWords s c (ptr - 4) n

/-- Write the entries of `l` (the lowest first) at the pointer upward (R172). -/
def spillWords (c ptr : Nat) (l : List Word) (s : State) : State :=
  match l with
  | [] => s
  | w :: r => spillWords c (ptr + 4) r (write (localBase c + ptr) (leBytes w.toNat 4) s)

/-- Which stack fault the pops and pushes of an instruction meet (R173, R175): `hw` entries in hardware, `pops`
needed, `pushes` made; base, limit, pointer of the area. None: the checks pass. -/
def stackCheck (hw pops pushes base limit ptr : Nat) : Option Bool :=
  let k := pops - hw
  if 0 < k ∧ ptr < base + 4 * k then some false
  else
    let after := hw + k - pops + pushes
    if 16 < after ∧ limit < ptr - 4 * k + 4 * (after - 16) then some true
    else none

/-- The stack fault of an instruction that pops and pushes these many entries of both stacks, as XINFO (R284):
0 operand overflow, 1 operand underflow, 2 return overflow, 3 return underflow. -/
def stackFault (x : Ctx) (pops pushes rpops rpushes : Nat) : Option Nat :=
  match stackCheck x.ops.length pops pushes (x.reg 0).toNat (x.reg 1).toNat (x.reg 2).toNat with
  | some o => some (if o then 0 else 1)
  | none =>
    match stackCheck x.rets.length rpops rpushes (x.reg 3).toNat (x.reg 4).toNat (x.reg 5).toNat with
    | some o => some (if o then 2 else 3)
    | none => none

/-- The top `n` operand entries, filled from the spill area as needed. -/
def operands (s : State) (t : Thread) (n : Nat) : List Word :=
  let x := s.ctx t
  (x.ops ++ fillWords s t.core (x.reg 2).toNat (n - x.ops.length)).take n

def returns (s : State) (t : Thread) (n : Nat) : List Word :=
  let x := s.ctx t
  (x.rets ++ fillWords s t.core (x.reg 5).toNat (n - x.rets.length)).take n

/-- A fill that reads uncorrectable data (R437): the line's module address. -/
def fillBad (s : State) (t : Thread) (pops rpops : Nat) : Option Nat :=
  if s.bad = [] then none
  else
    let x := s.ctx t
    let k := pops - x.ops.length
    let j := rpops - x.rets.length
    match uncorrectable s (localBase t.core + (x.reg 2).toNat - 4 * k) (4 * k) with
    | some a => some a
    | none => uncorrectable s (localBase t.core + (x.reg 5).toNat - 4 * j) (4 * j)

/-- Pop `pops` operand entries and push `push` (top first), with the fills and spills of R172. -/
def pushOps (t : Thread) (pops : Nat) (push : List Word) (s : State) : State :=
  let x := s.ctx t
  let k := pops - x.ops.length
  let ptr := (x.reg 2).toNat - 4 * k
  let rest := x.ops.drop pops
  let all := push ++ rest
  let x1 := fun (x : Ctx) => if k = 0 then x else x.setReg 2 (word ptr)
  if all.length ≤ 16 then s.updCtx t (fun x => { x1 x with ops := all })
  else
    let n := all.length - 16
    spillWords t.core ptr (all.reverse.take n)
      (s.updCtx t (fun x => { (x1 x).setReg 2 (word (ptr + 4 * n)) with ops := all.take 16 }))

/-- The same on the return stack (R174). -/
def pushRets (t : Thread) (pops : Nat) (push : List Word) (s : State) : State :=
  if pops = 0 ∧ push = [] then s else
  let x := s.ctx t
  let k := pops - x.rets.length
  let ptr := (x.reg 5).toNat - 4 * k
  let rest := x.rets.drop pops
  let all := push ++ rest
  let x1 := fun (x : Ctx) => if k = 0 then x else x.setReg 5 (word ptr)
  if all.length ≤ 16 then s.updCtx t (fun x => { x1 x with rets := all })
  else
    let n := all.length - 16
    spillWords t.core ptr (all.reverse.take n)
      (s.updCtx t (fun x => { (x1 x).setReg 5 (word (ptr + 4 * n)) with rets := all.take 16 }))

/-! ## Completing an instruction (R217) -/

/-- The loop step: where the thread continues after an instruction whose last syllable is at `last` and that does not
transfer control. An open level whose LC is 0 (only a register write makes one) is not covered by R217: a free value
says whether it closes. -/
def advance (t : Thread) (len : Nat) (s : State) : State :=
  let x := s.ctx t
  let last := x.pc + word (len - 1)
  let d := x.ldepth - 1
  if x.ldepth ≠ 0 ∧ x.reg (0x014 + d) = last then
    let lc := (x.reg (0x018 + d)).toNat
    if 1 < lc then
      s.updCtx t (fun x => { x.setReg (0x018 + d) (word (lc - 1)) with pc := x.reg (0x010 + d) })
    else if lc = 1 then s.updCtx t (fun x => { x with ldepth := d, pc := last + 1 })
    else if Config.freeNat s.free % 2 = 1 then
      { s.updCtx t (fun x => { x with ldepth := d, pc := last + 1 }) with free := s.free + 1 }
    else
      { s.updCtx t (fun x => { x.setReg (0x018 + d) (word (2 ^ 32 - 1)) with pc := x.reg (0x010 + d) }) with
        free := s.free + 1 }
  else s.updCtx t (fun x => { x with pc := x.pc + word len })

/-- Complete an instruction: pop and push both stacks, then move on, or go to `tgt`. -/
def complete (t : Thread) (len pops : Nat) (push : List Word) (rpops : Nat) (rpush : List Word) (tgt : Option Word)
    (s : State) : State :=
  let s1 := pushRets t rpops rpush (pushOps t pops push s)
  match tgt with
  | some a => s1.updCtx t (fun x => { x with pc := a })
  | none => advance t len s1

/-- The held instruction of a thread is over: its operands are popped and `push` pushed. -/
def popHeld (t : Thread) (push : List Word) (s : State) : State :=
  let x := s.ctx t
  complete t x.heldLen x.heldPops push 0 [] none
    (s.updCtx t (fun x => { x with wait := .none, heldPops := 0, heldLen := 0 }))

/-- Suspend a thread at a boundary (R270, R272). -/
def suspendNow (t : Thread) (s : State) : State :=
  s.updCtx t (fun x => { x.setReg 0x043 x.pc with st := .susp, suspReq := false, spinFrom := none })

/-- At a boundary a thread whose suspension was asked for stops, and the THSUSPs that wait for it complete (R270, R744). -/
def stopCheck : Nat → Thread → State → State
  | 0, _, s => s
  | n + 1, t, s =>
    let x := s.ctx t
    if x.suspReq ∧ x.wait = .none then
      let s1 := if x.st = .run then suspendNow t s else s.updCtx t (fun x => { x with suspReq := false })
      forAll (List.range 8) (fun i s =>
        if ((s.core t.core).ctx i).wait = .thsusp t.ctx then stopCheck n ⟨t.core, i⟩ (popHeld ⟨t.core, i⟩ [] s) else s) s1
    else s

/-- Complete the instruction that holds a thread (R131). -/
def completeHeld (t : Thread) (push : List Word) (s : State) : State := stopCheck 8 t (popHeld t push s)

/-! ## The assay unit's queues (R97 to R101) -/

/-- Core cycles a sample takes (R101). -/
def sampleTime (x : Sample) : Nat := 8 + max ((2 * x.k * (x.n + 1) + 127) / 128) ((x.n * x.k + 63) / 64)

/-- The samples of a core that the unit has started by core cycle `now`, and the others, when it is free from `free` in a window that
ends at `e` (R98, R101): it starts the first that fits as soon as it is free. -/
def splitSamples (e now : Nat) : Nat → List Sample → List Sample × List Sample
  | _, [] => ([], [])
  | free, x :: r =>
    let d := max free x.at_ + sampleTime x
    if d ≤ e ∧ max free x.at_ ≤ now then
      let p := splitSamples e now d r
      (x :: p.1, p.2)
    else
      let p := splitSamples e now free r
      (p.1, x :: p.2)

/-- The samples of a core that are started and not done, and those in its queue (R98). -/
def coreSamples (s : State) (c : Nat) : List Sample × List Sample :=
  let q := (s.core c).samplesQ
  match (s.bench (benchOf c)).awins with
  | w :: _ => match w.endAt with
    | some e => if w.core = c then splitSamples e (coreNow s) w.free q else ([], q)
    | none => ([], q)
  | [] => ([], q)

/-! ## Discarding a tile operation (R163 to R169) -/

/-- Unit of an operation: 0 matrix, 1 vector, 2 load/store, 3 none (CORE_TXINFO.UNIT). -/
def TOp.unit : TOp → Nat
  | .mma => 0
  | .accz => 3
  | .tfree => 3
  | .accrd => 1
  | .tld => 2
  | .tldt => 2
  | .tldc => 2
  | .tlds => 2
  | .tldp => 2
  | .tst => 2
  | .tstt => 2
  | .tstc => 2
  | .tsts => 2
  | .tstp => 2
  | .tcvt => 1
  | .qnt => 1
  | .vadd => 1
  | .vmul => 1
  | .vmax => 1
  | .vmin => 1
  | .vfma => 1
  | .vrsum => 1
  | .vrmax => 1
  | .vrmin => 1
  | .vact => 1
  | .vactld => 2

/-- First syllables (R201). -/
def TOp.code : TOp → Nat
  | .mma => 0x80
  | .accz => 0x81
  | .tfree => 0x83
  | .accrd => 0x82
  | .tld => 0x84
  | .tldt => 0x85
  | .tldc => 0x86
  | .tlds => 0x87
  | .tldp => 0x88
  | .tst => 0x89
  | .tstt => 0x8A
  | .tstc => 0x8B
  | .tsts => 0x8C
  | .tstp => 0x8D
  | .tcvt => 0x8E
  | .qnt => 0x8F
  | .vadd => 0x90
  | .vmul => 0x91
  | .vmax => 0x92
  | .vmin => 0x93
  | .vfma => 0x94
  | .vrsum => 0x95
  | .vrmax => 0x96
  | .vrmin => 0x97
  | .vact => 0x98
  | .vactld => 0x99

/-- Low four bits of operand `i` (0 the top). -/
def TileOp.low (o : TileOp) (i : Nat) : Nat := (o.args.getD i 0).toNat % 16

/-- The operation is in place: its destination tile is also a source (R167). -/
def TileOp.inPlace (o : TileOp) : Bool :=
  match o.op with
  | .vfma => true
  | .tcvt | .qnt | .vrsum | .vrmax | .vrmin | .vact => decide (o.low 0 = o.low 1)
  | .vadd | .vmul | .vmax | .vmin => decide (o.low 0 = o.low 1) || decide (o.low 0 = o.low 2)
  | _ => false

/-- CORE_TXINFO for a discard of `o` with `row` in its 6-bit ROW (R169). -/
def txinfo (o : TileOp) (row : Nat) : Word :=
  let started := decide (o.phase ≠ .issued)
  word (o.op.code + o.last.toNat * 2 ^ 8 + row % 2 ^ 6 * 2 ^ 16 + b2n started * 2 ^ 22 +
    b2n o.inPlace * 2 ^ 23 + o.op.unit * 2 ^ 24 + 2 ^ 26)

/-- ROW of a discarded operation: the rows it has moved, always 0 for MMA. The 64 entries of a VACTLD in its tail do not fit the
field, and its value is then free. -/
def txrow (o : TileOp) (s : State) : Nat × State :=
  if o.op = .mma then (0, s) else if o.rows < 2 ^ 6 then (o.rows, s) else takeFree s

/-- The wide ports an operation claims for its whole duration: RD0, RD1, WR (R133, R159). -/
def TOp.ports : TOp → Bool × Bool × Bool
  | .mma => (false, false, false)
  | .accz => (false, false, false)
  | .tfree => (false, false, false)
  | .accrd => (false, false, true)
  | .tld => (false, false, true)
  | .tldt => (false, false, true)
  | .tldc => (false, false, true)
  | .tlds => (false, false, true)
  | .tldp => (false, false, true)
  | .tst => (false, true, false)
  | .tstt => (false, true, false)
  | .tstc => (false, true, false)
  | .tsts => (false, true, false)
  | .tstp => (false, true, false)
  | .tcvt => (true, false, true)
  | .qnt => (true, false, true)
  | .vadd => (true, true, true)
  | .vmul => (true, true, true)
  | .vmax => (true, true, true)
  | .vmin => (true, true, true)
  | .vfma => (true, true, true)
  | .vrsum => (true, false, true)
  | .vrmax => (true, false, true)
  | .vrmin => (true, false, true)
  | .vact => (true, false, true)
  | .vactld => (false, false, false)

/-- The beats of an operation end in this core cycle: its unit accepts a start, and its ports are free of its claims, in the
next (R159, R160). -/
def endBeats (op : TOp) (now : Nat) (k : Core) : Core :=
  let k := if op.unit = 1 then { k with vecFree := now + 1 } else { k with lsFree := now + 1 }
  { k with
    rd0Free := if op.ports.1 then now + 1 else k.rd0Free
    rd1Free := if op.ports.2.1 then now + 1 else k.rd1Free
    wrFree := if op.ports.2.2 then now + 1 else k.wrFree }

/-- The thread's tile operation. -/
def tileOpOf (s : State) (t : Thread) : Option TileOp := (s.core t.core).tops.find? (fun o => decide (o.ctx = t.ctx))

/-- Discard or withdraw the thread's tile operation: CORE_TXINFO, CORE_TXFMT with ARM, CORE_TXADDR (R169, R742); its unit
accepts a start, and its port claims have ended, in the next cycle (R160). -/
def discardTile (t : Thread) (s : State) : State :=
  match tileOpOf s t with
  | none => s
  | some o =>
    let s1 := s.updCore t.core (fun k =>
      let k := { k with tops := k.tops.filter (fun p => decide (p.ctx ≠ t.ctx)) }
      if o.phase = .running then
        if o.op.unit = 0 then
          if k.tops.any (fun p => decide (p.op = .mma) && decide (o.at_ < p.at_) && decide (p.phase = .running)) then k
          else { k with mmaFree := min k.mmaFree (coreNow s + 1) }
        else endBeats o.op (coreNow s) k
      else k)
    let (row, s2) := txrow o s1
    s2.updCtx t (fun x =>
      { ((x.setReg 0x028 (txinfo o row)).setReg 0x04D (word (o.tfmt % 2 ^ 21 + 2 ^ 21))).setReg 0x04E o.pc with
        wait := .none, heldPops := 0, heldLen := 0 })

/-! ## The core cycles a spinning thread owned (R259, R262) -/

/-- Count the spin cycles of a thread up to now: the cycles it owns by CORE_CYC since the one after its issue. -/
def countSpin (t : Thread) (stop : Bool) (s : State) : State :=
  match (s.ctx t).spinFrom with
  | none => s
  | some f =>
    let n := nCtx s t.core
    let u := cyc s t.core
    let owned := fun (u : Nat) => (u + n - 1 - t.ctx) / n
    let s1 := act (benchOf t.core) 0x6850 (owned u - owned (u - (coreNow s - f))) s
    s1.updCtx t (fun x => { x with spinFrom := if stop then none else some (max f (coreNow s)) })

/-! ## Taking an exception (R285 to R293) -/

/-- The lock wire: CORE_LOCK_N is low while a core of a partition with lock signalling is locked (R309). -/
def lockWire (s : State) : State :=
  let low := (List.range 8).any (fun p => (s.part p).live && (s.part p).lockSig &&
    (coresOf s p).any (fun c => (((s.bench (benchOf c)).r (0x4C00 + c % 4 * 8)).toNat) % 2 == 1))
  { s with board := { s.board with coreLock := low } }

/-- Lockup of the core of `t` (R291, R307, R309): every context stops in LOCK, BENCH_LOCKc records the failed entry. -/
def lockup (t : Thread) (lvl why vec : Nat) (info pc : Word) (s : State) : State :=
  let c := t.core
  let w := 1 + t.ctx * 2 + lvl * 2 ^ 4 + why * 2 ^ 6 + vec * 2 ^ 8 + pc.toNat * 2 ^ 32
  let s1 := s.updCore c (fun k => { k with tops := [], micro := [] })
  let s2 := forAll (List.range 8) (fun i => fun s =>
    (countSpin ⟨c, i⟩ true s).updCtx ⟨c, i⟩ (fun x => { x with st := .lock, wait := .none, heldPops := 0, heldLen := 0, muls := [] })) s1
  let s3 := s2.updBench (benchOf c) (fun x => x.setR (0x4C00 + c % 4 * 8) (BitVec.ofNat 64 w))
  let s4 := jobOfCore c (fun j => { j with lockups := j.lockups + 1 }) s3
  let s5 := trace (benchOf c) c t.ctx 5 4 (faultPayload vec lvl pc info) s4
  lockWire (logEvent 6 ((partOf s (benchOf c)).getD 0xFF) 2 (leBytes c 4 ++ leBytes w 8) s5)

/-- The hardware entries of a stack, the bottom first, filled with 0 to 16 (R290). -/
def hwWords (l : List Word) : List Word := l.reverse ++ List.replicate (16 - l.length) 0

/-- The 64 words of an exception frame (R290). `prev` is PREVST; `mark` is bit 31 of word 0x08. -/
def frameWords (s : State) (t : Thread) (pc : Word) (cause : Nat) (info : Word) (discarded mark : Bool) (prev : Nat) :
    List Word :=
  let x := s.ctx t
  let cy := cyc s t.core
  [statusWord s t prev, pc, word (cause + b2n discarded * 2 ^ 8 + b2n mark * 2 ^ 31), info,
    word (x.ops.length + x.rets.length * 2 ^ 8), x.reg 0, x.reg 2, x.reg 3, x.reg 5, x.reg 0x020, x.reg 0x021, word x.ldepth,
    x.reg 0x010, x.reg 0x011, x.reg 0x012, x.reg 0x013, x.reg 0x014, x.reg 0x015, x.reg 0x016, x.reg 0x017,
    x.reg 0x018, x.reg 0x019, x.reg 0x01A, x.reg 0x01B] ++ hwWords x.ops ++ hwWords x.rets ++
  [x.reg 0x028, word cy, word (cy / 2 ^ 32), x.reg 0x04D, x.reg 0x04E, 0, 0, 0]

/-- Bytes of a list of words, little-endian. -/
def wordsBytes (l : List Word) : List Byte := l.flatMap (fun w => leBytes w.toNat 4)

/-- Base, pointer and limit registers of the save area of a level, and its vector base (R287, R289). -/
def areaRegs (lvl : Nat) : Nat × Nat × Nat × Nat :=
  if lvl = 2 then (0x047, 0x048, 0x049, 0x123) else (0x044, 0x045, 0x046, 0x122)

/-- ENTRY of an exception at level `lvl` (1 or 2) through vector `vec`, with the saved program counter and XINFO given
(R286 to R293). A failed check is a fault during fault entry, and the core goes into lockup. -/
def enter (t : Thread) (lvl vec : Nat) (info pc : Word) (discarded : Bool) (prev : Nat) (s : State) : State :=
  let s0 := s.updCtx t (fun x => { settleAll x with resv := none })
  let x := s0.ctx t
  let (_, ptr, lim, vb) := areaRegs lvl
  let va := ((s0.core t.core).reg vb).toNat + 8 * vec
  if 0x100000 < va + 8 then lockup t lvl 2 vec info pc s
  else
    let handler := memWord s0.mem (localBase t.core + va)
    let w1 := (memWord s0.mem (localBase t.core + va + 4)).toNat
    if bit w1 31 = false ∨ bits w1 30 10 ≠ 0 ∨ 0x100000 ≤ handler.toNat then lockup t lvl 3 vec info pc s
    else if (x.reg lim).toNat < (x.reg ptr).toNat + 256 then lockup t lvl 1 vec info pc s
    else
      let s1 := write (localBase t.core + (x.reg ptr).toNat)
        (wordsBytes (frameWords s0 t pc vec info discarded true prev)) s0
      let s1 := if vec < 0x10 then trace (benchOf t.core) t.core t.ctx 5 2 (faultPayload vec (lvlN x.lvl) pc info) s1 else s1
      let hold := min (bits w1 9 0) (((s0.core t.core).reg 0x124).toNat % 1024)
      s1.updCtx t (fun x =>
        { (((((x.setReg ptr (x.reg ptr + 256)).setReg 0x041 (word (vec + b2n discarded * 2 ^ 8))).setReg 0x042 info).setReg
            0x04D (x.reg 0x04D &&& ~~~(0x200000#32))).setReg 0 (x.reg 2)).setReg 3 (x.reg 5) with
          lvl := lvlOf lvl, pc := handler, ops := [], rets := [], ldepth := 0, st := .run, hold := none,
          holdLen := if hold = 0 then none else some hold, wait := .none, heldPops := 0, heldLen := 0, spinFrom := none })

/-- A pool thread at U or S level halts on a fault: CORE_TPC, CORE_XCAUSE, CORE_XINFO, a fault record, FAULT (R302, R303,
R305). -/
def haltOn (t : Thread) (cause : Nat) (info pc : Word) (discarded : Bool) (s : State) : State :=
  let x := s.ctx t
  let k := s.core t.core
  let s1 := s.updCtx t (fun x =>
    { ((x.setReg 0x043 pc).setReg 0x041 (word (cause + b2n discarded * 2 ^ 8))).setReg 0x042 info with
      st := .halt, wait := .none, heldPops := 0, heldLen := 0, spinFrom := none })
  let s2 := trace (benchOf t.core) t.core t.ctx 5 1 (faultPayload cause (lvlN x.lvl) pc info)
    (jobOfCore t.core (fun j => { j with halts := j.halts + 1 }) s1)
  let ctl := (k.reg 0x128).toNat
  let head := (k.reg 0x129).toNat
  let tail := (k.reg 0x12A).toNat
  let size := bits ctl 3 0
  let fn := match partOf s (benchOf t.core) with
    | some p => (s.part p).fn
    | none => 0
  let rcd := wordsBytes
    [word (cause + t.ctx * 2 ^ 8 + lvlN x.lvl * 2 ^ 11 + b2n discarded * 2 ^ 13), pc, info, x.reg 0x028,
      word (cyc s t.core), word (cyc s t.core / 2 ^ 32), word fn, 0]
  let s3 :=
    if bit ctl 4 = false ∨ (head + 2 ^ 16 - tail) % 2 ^ 16 = 2 ^ size then
      s2.updCore t.core (fun k => k.setReg 0x128 (k.reg 0x128 ||| 0x20#32))
    else
      (write (localBase t.core + (k.reg 0x127).toNat + 32 * (head % 2 ^ size)) rcd s2).updCore t.core
        (fun k => k.setReg 0x129 (word ((head + 1) % 2 ^ 16)))
  setPend t.core 0 s3

/-- A FAULT of a thread, taken at the instruction at `pc` (R285): entry through a vector in C0 at S and in any context at
F, a halt in a pool thread at U or S. -/
def fault (t : Thread) (cause : Nat) (info pc : Word) (discarded : Bool) (s : State) : State :=
  let s0 := if cause = 0x0D then jobOfCore t.core (fun j => { j with conts := j.conts + 1 }) s else s
  let x := s.ctx t
  if x.lvl = .f then enter t 2 cause info pc discarded 0 s0
  else if t.ctx = 0 then enter t 1 cause info pc discarded 0 s0
  else haltOn t cause info pc discarded s0

/-- The fault of a held instruction or of a tile operation: the thread's program counter still names it. -/
def faultHeld (t : Thread) (cause : Nat) (info : Word) (s : State) : State :=
  let s1 := s.updCtx t (fun x => { x with wait := .none, heldPops := 0, heldLen := 0 })
  stopCheck 8 t (fault t cause info (s1.ctx t).pc false s1)

/-! ## Returning from an exception (R294 to R296) -/

/-- A stack-area value that R177 refuses. -/
def areaRefused (v : Nat) : Bool := decide (v % 4 ≠ 0) || decide (0x100000 < v)

/-- RETX: the checks of R294, then the return. `none`: it returned; `some xinfo`: a return-privilege fault is due. -/
def retxCheck (s : State) (t : Thread) : Option Nat :=
  let x := s.ctx t
  let (base, ptr, _, _) := areaRegs (lvlN x.lvl)
  let p := (x.reg ptr).toNat
  if p < (x.reg base).toNat + 256 then some 1
  else
    let f := fun o => (memWord s.mem (localBase t.core + p - 256 + o)).toNat
    let fl := f 0 % 4
    if lvlN x.lvl < fl ∨ (t.ctx = 0 ∧ fl = 0) then some 0
    else if areaRefused (f 0x14) || areaRefused (f 0x18) || areaRefused (f 0x1C) || areaRefused (f 0x20) ||
        decide (16 < f 0x10 % 32) || decide (16 < f 0x10 / 256 % 32) || decide (4 < f 0x2C) then some 2
    else none

/-- The words of a stack in a frame, top first. -/
def frameStack (s : State) (a n : Nat) : List Word := ((List.range n).map (fun i => memWord s.mem (a + 4 * i))).reverse

/-- The return itself: everything the frame at pointer − 256 holds (R295), and at F also the hold window, the service-mode
bit and the state before an injection (R296); a context that returns to SUSP or HALT resumes at the frame's address (R272). -/
def doRetx (t : Thread) (s : State) : State :=
  let x := s.ctx t
  let cur := lvlN x.lvl
  let (_, ptr, _, _) := areaRegs cur
  let a := localBase t.core + (x.reg ptr).toNat - 256
  let f := fun o => memWord s.mem (a + o)
  let st := (f 0).toNat
  let set := fun (x : Ctx) (l : List (Nat × Nat)) => l.foldl (fun x p => x.setReg p.1 (f p.2)) x
  let s1 := s.updCtx t (fun x =>
    { ((set x [(0x000, 0x14), (0x002, 0x18), (0x003, 0x1C), (0x005, 0x20), (0x020, 0x24), (0x021, 0x28), (0x010, 0x30),
          (0x011, 0x34), (0x012, 0x38), (0x013, 0x3C), (0x014, 0x40), (0x015, 0x44), (0x016, 0x48), (0x017, 0x4C),
          (0x018, 0x50), (0x019, 0x54), (0x01A, 0x58), (0x01B, 0x5C), (0x04E, 0xF0)]).setReg 0x04D (f 0xEC &&& 0x3FFFFF#32)).setReg ptr
        (x.reg ptr - 256) with
      lvl := lvlOf (st % 4), pc := f 4,
      ops := frameStack s (a + 0x60) ((f 0x10).toNat % 32), rets := frameStack s (a + 0xA0) ((f 0x10).toNat / 256 % 32),
      ldepth := (f 0x2C).toNat, muls := [], hold := none, holdLen := none })
  if cur = 2 then
    let s2 := s1.updCore t.core (fun k => k.setReg 0x101 (word (bits st 13 13)))
    let back := if (f 8).toNat % 256 = 0x13 then stOf (bits st 16 14) else (s2.ctx t).st
    s2.updCtx t (fun x =>
      { (if back = .susp ∨ back = .halt then x.setReg 0x043 (f 4) else x) with
        hold := if 1 ≤ st % 4 ∧ bit st 2 then some (coreNow s + 8 + bits st 12 3) else none
        st := back })
  else s1

/-! ## Issuing an instruction -/

/-- A deliverable interrupt at C0 of a core (R301): enabled and pending, C0 in RUN or PARK at S, no hold window, and not
between frames of its partition (R274). -/
def deliverable (s : State) (c : Nat) : Bool :=
  let k := s.core c
  let x := k.ctx 0
  decide ((k.reg 0x125 &&& k.reg 0x126) ≠ 0) && (decide (x.st = .run) || decide (x.st = .park)) && decide (x.lvl = .s) &&
    !holdOpen x &&
    match partOf s (benchOf c) with
    | some p => decide ((s.part p).frame = .running)
    | none => true

/-- The thread can issue an instruction: it exists, is in RUN, waits for nothing, and no injection or interrupt is due at
its boundary (R286). -/
def canIssue (s : State) (t : Thread) : Bool :=
  let x := s.ctx t
  exists_ s t && decide (x.st = .run) && decide (x.wait = .none) && x.inject.isNone && !x.suspReq &&
    !(decide (t.ctx = 0) && deliverable s t.core)

/-- The lines of region registers that grant `kind` (bit 0 RD, 1 WR, 2 EX) to a 64-byte line of the 32-bit view (R235,
R236). -/
def regionGrants (x : Ctx) (kind line : Nat) : Bool :=
  (List.range 8).any (fun n =>
    let lo := (x.reg (0x030 + 2 * n)).toNat
    let hi := (x.reg (0x031 + 2 * n)).toNat
    bit lo kind && decide (lo / 64 ≤ line) && decide (line ≤ hi / 64))

/-- At U level, every line that [a, a + n) touches is granted; S and F are not checked (R236, R237). -/
def permitted (x : Ctx) (kind a n : Nat) : Bool :=
  decide (x.lvl ≠ .u) || (List.range (lineCount a n)).all (fun i => regionGrants x kind (a / 64 + i))

/-- The fetch of `len` syllables at the program counter (R180): the address of the first syllable that cannot be fetched. -/
def fetchFault (x : Ctx) (len : Nat) : Option Word :=
  ((List.range len).find? (fun i =>
    let a := (x.pc + word i).toNat
    decide (0x100000 ≤ a) || !permitted x 2 a 1)).map (fun i => x.pc + word i)

/-- An instruction that starts before the innermost LE and ends after it (R220). -/
def straddles (x : Ctx) (len : Nat) : Bool :=
  decide (x.ldepth ≠ 0) &&
    (let le := (x.reg (0x014 + (x.ldepth - 1))).toNat
     decide (x.pc.toNat < le) && decide (le < x.pc.toNat + len - 1))

/-- What the body of an instruction answers. -/
structure Eff where
  s : State
  /-- entries pushed on the operand stack, top first -/
  push : List Word
  rpush : List Word
  /-- where control goes, when the instruction transfers it -/
  tgt : Option Word

/-- How an instruction's body ends. -/
inductive Out where
  /-- it completes -/
  | ok (e : Eff)
  /-- it holds its thread, whose operands stay on the stack (R131) -/
  | held (s : State) (w : Wait)
  /-- it raises a fault with a cause and XINFO; `s` is what is left -/
  | exc (s : State) (cause : Nat) (info : Word)
  /-- it does everything itself -/
  | done (s : State)

/-- An instruction that pushes these entries. -/
def pushes (s : State) (l : List Word) : Out := .ok { s := s, push := l, rpush := [], tgt := none }

/-- First issue after resumption clears CORE_TXFMT.ARM (R742), and a hold window that was to begin with the handler's first
instruction begins (R293). -/
def firstIssue (t : Thread) (s : State) : State :=
  let x := s.ctx t
  if (x.reg 0x04D).getLsbD 21 || x.holdLen.isSome then
    s.updCtx t (fun x =>
      { (if (x.reg 0x04D).getLsbD 21 then x.setReg 0x04D (x.reg 0x04D &&& ~~~(0x200000#32)) else x) with
        hold := match x.holdLen with
          | some n => some (coreNow s + n)
          | none => x.hold
        holdLen := none })
  else s

/-- The XINFO of an illegal-instruction fault: the first two syllables (R284); the second of a one-syllable instruction is
the byte after it. -/
def syllables (s : State) (t : Thread) (op : Nat) (second : Option Byte) : Word :=
  let x := s.ctx t
  let n := match second with
    | some b => b
    | none => if (x.pc + 1).toNat < 0x100000 then memGet s.mem (localBase t.core + (x.pc + 1).toNat) else 0
  word (op + n.toNat * 2 ^ 8)

/-- The stack effect of an instruction: operand entries popped and pushed, return entries popped and pushed. -/
structure Shape where
  pops : Nat
  pushes : Nat
  rpops : Nat
  rpushes : Nat
  deriving DecidableEq, Repr

/-- The syllable at an offset from a thread's program counter. -/
def syllableAt (s : State) (t : Thread) (i : Nat) : Nat := (memGet s.mem (localBase t.core + ((s.ctx t).pc + word i).toNat)).toNat

/-- A first syllable that no table of operations lists (R192, R201, R205). -/
def reservedFirst (n : Nat) : Bool :=
  (decide (0x0D ≤ n) && decide (n ≤ 0x0F)) || decide (n = 0x2B) || (decide (0x9A ≤ n) && decide (n ≤ 0x9F)) ||
    (decide (0xA1 ≤ n) && decide (n ≤ 0xA7)) || (decide (0xA9 ≤ n) && decide (n ≤ 0xAF)) || (decide (0xB5 ≤ n) && decide (n ≤ 0xBF)) ||
    decide (0xEF ≤ n)

/-- What stands at the program counter is a reserved first syllable, or a group's with a sub-operation that is not listed (R202,
R204): no instruction. -/
def reservedCode (s : State) (t : Thread) : Bool :=
  let a := syllableAt s t 0
  reservedFirst a || (decide (a = 0xA0) && decide (6 < syllableAt s t 1)) || (decide (a = 0xA8) && decide (2 < syllableAt s t 1))

/-- ISSUE of an instruction of `len` syllables with first syllable `op` by thread `t`. Where the thread cannot issue,
nothing happens. Checks in order: fetch (R180), reserved syllables at the program counter, which are illegal whatever the command
(R204, R206; log entry 2), an instruction across a loop end (R220), `guard` (illegal or privileged, R204 to R206), the stacks
(R175); then `body` with the operands it pops, top first. -/
def issue (t : Thread) (op : Nat) (second : Option Byte) (len : Nat) (sh : Shape)
    (guard : State → Option (Nat × Word)) (body : State → List Word → List Word → Out) (s : State) : State :=
  if canIssue s t = false then s
  else
    let s := firstIssue t s
    let x := s.ctx t
    match fetchFault x len with
    | some a => fault t 0x07 a x.pc false s
    | none =>
      if reservedCode s t then fault t 0x03 (syllables s t (syllableAt s t 0) none) x.pc false s
      else if straddles x len then fault t 0x03 (syllables s t op second) x.pc false s
      else match guard s with
        | some (cause, info) => fault t cause info x.pc false s
        | none =>
          match stackFault x sh.pops sh.pushes sh.rpops sh.rpushes with
          | some i => fault t 0x01 (word i) x.pc false s
          | none =>
            match fillBad s t sh.pops sh.rpops with
            | some a => fault t 0x0D (word (a - localBase t.core)) x.pc false (memCont t.core a (some t) s)
            | none =>
            match body s (operands s t sh.pops) (returns s t sh.rpops) with
            | .ok e => complete t len sh.pops e.push sh.rpops e.rpush e.tgt e.s
            | .held s1 w =>
              s1.updCtx t (fun x => { x with wait := w, heldPops := sh.pops, heldLen := len })
            | .exc s1 cause info => fault t cause info x.pc false s1
            | .done s1 => s1

end Sys2Proof.Machine
end

