-- ==== Sys2Proof/Machine/Operands.lean ====
section
/-! DEFINITION. The operand forms: literal runs, the last syllable and the format register of a tile instruction, the tally
syllable, and the core's address view with its windows and relocation. -/

namespace Sys2Proof.Machine

/-! ## Literals (R183) -/

/-- The value a run of prefixes builds: the first sign-extended from bit 5, each further one shifted in. -/
def literalValue : List Nat → Word
  | [] => 0
  | d :: r => r.foldl (fun v e => (v <<< 6) ||| word (e % 64)) ((BitVec.ofNat 6 d).signExtend 32)

/-! ## The last syllable (R125, R126) and TFMT (R128) -/

/-- Row and column codes; code 7 is reserved. -/
def shapeCode (c : Nat) : Option Nat :=
  match c with
  | 0 => some 1
  | 1 => some 2
  | 2 => some 4
  | 3 => some 8
  | 4 => some 16
  | 5 => some 24
  | 6 => some 32
  | _ => none

def lastM (b : Byte) : Option Nat := shapeCode (bits b.toNat 7 5)
def lastN (b : Byte) : Option Nat := shapeCode (bits b.toNat 4 2)
def lastFP (b : Byte) : Nat := bits b.toNat 1 0

/-- Fields of a TFMT value. -/
def fmtA (v : Nat) : Nat := bits v 4 0
def fmtB (v : Nat) : Nat := bits v 9 5
def fmtACCT (v : Nat) : Nat := bits v 10 10
def fmtRND (v : Nat) : Nat := bits v 12 11
def fmtSAT (v : Nat) : Bool := bit v 13
def fmtPTH (v : Nat) : Nat := bits v 16 14
def fmtASYK (v : Nat) : Nat := bits v 20 17

/-! ## The tally syllable (R203) -/

def tsScope (b : Byte) : Nat := bits b.toNat 2 0
def tsForm (b : Byte) : Nat := bits b.toNat 4 3
def tsCond (b : Byte) : Nat := bits b.toNat 6 5
def tsReserved (b : Byte) : Bool := bit b.toNat 7
/-- The form acquires; the form releases. -/
def formAcq (f : Nat) : Bool := decide (f % 2 = 1)
def formRel (f : Nat) : Bool := decide (2 ≤ f)

/-! ## The core's address view (R227 to R234) and relocation (R383 to R388) -/

/-- Converted ways of a bench's stockroom (BENCH_SRCONV, R402). -/
def waysOf (s : State) (b : Nat) : Nat := bits ((s.bench b).r 0x6500).toNat 3 0

/-- A GDDR7 device whose port is mapped out (R31). -/
def memMappedOut (s : State) (d : Nat) : Bool := bit s.boot.memOut d

/-- The address-range error of R31 for a physical address outside the register range. -/
def mapped (s : State) (a : Nat) : Bool :=
  if a < 0x010000000000 then !memMappedOut s (a / 2 ^ 36)
  else if a < 0x050000000000 then s.boot.cxlOk && decide (a < 0x010000000000 + s.boot.cxlGiB * 2 ^ 30)
  else if (coreOfAddr a).isSome then true
  else match winOfAddr a with
    | some b => decide ((a - winBase b) < waysOf s b * 0x40000)
    | none => false

/-- Translate a GDDR7 or CXL address as partition code of bench `b` produces it: the region it hits (R383), or the CXL window
(R388); with the physical address, whether reads and writes are permitted. -/
def translate (s : State) (b a : Nat) : Option (Nat × Bool × Bool) :=
  if a < 0x010000000000 then
    let region := fun n => ((s.bench b).r (0x6000 + n * 0x10)).toNat
    match findBelow 16 (fun n =>
      let r := region n
      bit r 56 && decide (bits r 18 0 * 2 ^ 21 ≤ a) && decide (a < (bits r 18 0 + bits r 53 38) * 2 ^ 21)) with
    | none => none
    | some n =>
      let r := region n
      some (bits r 37 19 * 2 ^ 21 + (a - bits r 18 0 * 2 ^ 21), bit r 54, bit r 55)
  else if a < 0x050000000000 then
    let w := ((s.bench b).r 0x6100).toNat
    let lo := 0x010000000000 + bits w 11 0 * 2 ^ 30
    if decide (lo ≤ a) && decide (a < lo + bits w 24 12 * 2 ^ 30) then some (a, true, bit w 25) else none
  else none

/-- The same for a read or a write: with the permissions of the region or the window (R384, R388) and the physical address mapped.
None: the address-range error. -/
def relocate (s : State) (b a : Nat) (wr : Bool) : Option Nat :=
  match translate s b a with
  | some (p, rd, w) => if (if wr then w else rd) && mapped s p then some p else none
  | none => none

/-- Where a 32-bit address of a core leads. -/
inductive Place where
  /-- local memory or the bench memory window, by module address -/
  | near (a : Nat) (window : Bool)
  /-- through a global window, after relocation: module address, uncached -/
  | far (a : Nat) (uc : Bool)
  /-- the register range, through an uncached window -/
  | reg (a : Nat)
  deriving DecidableEq, Repr

/-- The block a register address lies in is open to S level (R233): a bench control block of the core's own partition, the
owning partition's stream entries (R505), the power manager (R610) and the trace block; reads only but for the first. -/
def openToS (s : State) (c a : Nat) (wr : Bool) : Bool :=
  if 0xF00001000000 ≤ a ∧ a < 0xF00001800000 then
    let b := (a - 0xF00001000000) / 0x10000
    match partOf s (benchOf c) with
    | some p => (s.part p).holds b
    | none => decide (b = benchOf c)
  else if 0xF00003100000 ≤ a ∧ a < 0xF00003200000 then
    let st := s.stream ((a - 0xF00003100000) / 0x40)
    !wr && decide (st.state ≠ 0) && decide (partOf s (benchOf c) = some st.part)
  else decide (0xF00004000000 ≤ a ∧ a < 0xF00004001000) || (!wr && decide (0xF00005000000 ≤ a ∧ a < 0xF00005001000))

/-- Resolve an `n`-byte access of thread `t` at `a`: unmapped addresses, disabled windows, refused ranges and U-level
permission give a region fault (none). `wordAccess`: an LDW or STW. -/
def resolve (s : State) (t : Thread) (a n : Nat) (wr wordAccess : Bool) : Option Place :=
  let x := s.ctx t
  let b := benchOf t.core
  if permitted x (if wr then 1 else 0) a n = false then none
  else if a < 0x100000 then some (.near (localBase t.core + a) false)
  else if a < 0x300000 then
    if a - 0x100000 < waysOf s b * 0x40000 then some (.near (winBase b + (a - 0x100000)) true) else none
  else if a < 0x80000000 then none
  else
    let w := (a - 0x80000000) / 0x20000000
    let g := ((s.core t.core).reg (0x104 + w)).toNat
    let m := bits g 26 0 * 2 ^ 21 + (a - 0x80000000 - w * 0x20000000)
    if bit g 28 = false then none
    else if m < 0x050000000000 then
      match relocate s b m wr with
      | some p => some (.far p (bit g 27))
      | none => none
    else if 0xF00000000000 ≤ m ∧ m < 2 ^ 48 then
      if wordAccess && bit g 27 && (decide (x.lvl = .f) || (decide (x.lvl = .s) && openToS s t.core m wr)) then some (.reg m)
      else none
    else none

/-- The alignment rule (R197). -/
def misaligned (a n : Nat) : Bool := decide (a % n ≠ 0)

end Sys2Proof.Machine
end

