-- ==== Sys2Proof/Machine/Flags.lean ====
section
/-! DEFINITION. The truth values instructions push and test (R195; arithmetic sets no flags, R193), and the status words the
state shows: each register that is computed from the state rather than held. -/

namespace Sys2Proof.Machine

/-- A comparison's result: 1 or 0 (R195). -/
def truth (b : Bool) : Word := if b then 1 else 0

/-- CORE_SDEPTH (R178). -/
def sdepth (x : Ctx) : Word := word (x.ops.length + x.rets.length * 2 ^ 8)

/-- Full operand depth OHW + (CORE_OSP − CORE_OSB) / 4 (R178). -/
def fullDepth (x : Ctx) : Word :=
  BitVec.ofInt 32 ((x.ops.length : Int) + (((x.reg 2).toNat : Int) - ((x.reg 0).toNat : Int)) / 4)

/-- CORE_THSTATE: 3 bits a context; contexts that do not exist read FREE (R257, R258). -/
def thstate (s : State) (c : Nat) : Word :=
  word ((List.range 8).foldl (fun v i => v + (if i < nCtx s c then stN ((s.core c).ctx i).st else 0) * 2 ^ (3 * i)) 0)

/-- CORE_TUSE: the in-use flags (R118). -/
def tuse (s : State) (c : Nat) : Word :=
  word ((List.range 16).foldl (fun v i => v + b2n ((s.core c).tile i).inUse * 2 ^ i) 0)

/-- CORE_SHMODE.MODE: 1 dynamic (R277). -/
def dynamic (s : State) (c : Nat) : Bool := ((s.core c).reg 0x12B).getLsbD 0

/-- The class registers A, B, C of the class a context holds (R281); C0 holds class 0 (R277). -/
def classReg (s : State) (c cls k : Nat) : Nat := ((s.core c).reg (0x12C + 3 * cls + k)).toNat
def classOf (s : State) (t : Thread) : Nat := ((s.ctx t).reg 0x04B).toNat % 4

/-- A resource of R276: 0 tile, 1 accumulator, 2 queue, 3 descriptor slot (XINFO of the share fault, R284). -/
def maskOf (s : State) (c cls res : Nat) : Nat :=
  match res with
  | 0 => bits (classReg s c cls 0) 15 0
  | 1 => bits (classReg s c cls 0) 19 16
  | 2 => bits (classReg s c cls 1) 15 0
  | _ => bits (classReg s c cls 1) 31 16
def minOf (s : State) (c cls res : Nat) : Nat :=
  match res with
  | 0 => bits (classReg s c cls 0) 24 20
  | 2 => bits (classReg s c cls 2) 4 0
  | _ => bits (classReg s c cls 2) 14 10
def maxOf (s : State) (c cls res : Nat) : Nat :=
  match res with
  | 0 => bits (classReg s c cls 0) 29 25
  | 2 => bits (classReg s c cls 2) 9 5
  | _ => bits (classReg s c cls 2) 19 15

/-- A context that is not FREE. -/
def live (s : State) (c i : Nat) : Bool := decide (i < nCtx s c) && decide (((s.core c).ctx i).st ≠ .free)

/-- Who holds a unit in dynamic mode: context + 1, or 0 (R280). -/
def ownerOf (k : Core) (res u : Nat) : Nat :=
  match res with
  | 0 => tblGet nats k.tileOwn u
  | 2 => tblGet nats k.queueOwn u
  | _ => tblGet nats k.slotOwn u

/-- Units of a resource that a context holds in dynamic mode. -/
def heldUnits (k : Core) (res i : Nat) : List Nat := (List.range 16).filter (fun u => decide (ownerOf k res u = i + 1))

/-- CORE_TOWN0 and CORE_TOWN1: in static mode a tile is held while a context that is not FREE has it in its TMASK (R282). -/
def townHolder (s : State) (c j : Nat) : Option Nat :=
  if dynamic s c then
    let o := ownerOf (s.core c) 0 j
    if o = 0 then none else some (o - 1)
  else findBelow 8 (fun i => live s c i && bit (maskOf s c (classOf s ⟨c, i⟩) 0) j)
def town (s : State) (c half : Nat) : Word :=
  word ((List.range 8).foldl (fun v j =>
    v + match townHolder s c (8 * half + j) with
      | some i => (i + 8) * 2 ^ (4 * j)
      | none => 0) 0)

/-- Porter status word: STATE and WHY (R418). -/
def porterStatus (x : Slot) : Word := word (x.state + x.why * 16)

/-- A counter's clear: CLR written as 1 sets COUNT and SAT to 0 (R93). -/
def clearBit (v : Dword) : Bool := v.getLsbD 62

/-! ## Shares (R276 to R281) -/

/-- Static mode: the unit is in the thread's mask (R279). -/
def inMask (s : State) (t : Thread) (res u : Nat) : Bool := bit (maskOf s t.core (classOf s t) res) u

/-- What naming a unit does (R279, R280): none where it raises a share fault, else the state with the unit acquired where
the thread names it as a destination. Accumulators follow AMASK in both modes. -/
def nameUnit (t : Thread) (res u : Nat) (dest : Bool) (s : State) : Option State :=
  if dynamic s t.core = false ∨ res = 1 then if inMask s t res u then some s else none
  else
    let k := s.core t.core
    let o := ownerOf k res u
    if o = t.ctx + 1 then some s
    else if o ≠ 0 then none
    else if dest = false then some s
    else
      let held := (heldUnits k res t.ctx).length
      let free := ((List.range 16).filter (fun v => decide (ownerOf k res v = 0))).length
      let owed := ((List.range 8).filter (fun i => live s t.core i && decide (i ≠ t.ctx))).foldl (fun n i =>
        n + (minOf s t.core (classOf s ⟨t.core, i⟩) res - (heldUnits k res i).length)) 0
      if maxOf s t.core (classOf s t) res < held + 1 ∨ free - 1 < owed then none
      else some (s.updCore t.core (fun k =>
        match res with
        | 0 => { k with tileOwn := tblSet nats k.tileOwn u (t.ctx + 1) }
        | 2 => { k with queueOwn := tblSet nats k.queueOwn u (t.ctx + 1) }
        | _ => { k with slotOwn := tblSet nats k.slotOwn u (t.ctx + 1) }))

/-- XINFO of a share fault (R284). -/
def shareInfo (res u : Nat) : Word := word (res + u * 2 ^ 8)

/-- What class FORK may grant (R278): masks disjoint from those of every context that is not FREE, or in dynamic mode the
guaranteed units within the core's. -/
def grantable (s : State) (c cls : Nat) : Bool :=
  let others := (List.range 8).filter (live s c)
  let disjoint := fun (res : Nat) => others.all (fun i => decide ((maskOf s c cls res) &&& (maskOf s c (classOf s ⟨c, i⟩) res) = 0))
  if dynamic s c then
    disjoint 1 && [0, 2, 3].all (fun res =>
      decide (others.foldl (fun n i => n + minOf s c (classOf s ⟨c, i⟩) res) (minOf s c cls res) ≤ 16))
  else [0, 1, 2, 3].all disjoint

end Sys2Proof.Machine
end

