-- ==== Sys2Proof/Machine/Alu.lean ====
section
/-! DEFINITION. The base scalar operations (R192) as functions of their operand entries, top of stack first: threads and the
micro-sequencer (R248) both use them. -/

namespace Sys2Proof.Machine

/-- Operand `i` below the top. -/
def arg (l : List Word) (i : Nat) : Word := l.getD i 0

def fDup (l : List Word) : List Word := [arg l 0, arg l 0]
def fSwap (l : List Word) : List Word := [arg l 1, arg l 0]
def fOver (l : List Word) : List Word := [arg l 1, arg l 0, arg l 1]
/-- ( a b c -- b c a ) -/
def fRot (l : List Word) : List Word := [arg l 2, arg l 0, arg l 1]
def fNip (l : List Word) : List Word := [arg l 0]
/-- ( a b -- b a b ) -/
def fTuck (l : List Word) : List Word := [arg l 0, arg l 1, arg l 0]
def fAdd (l : List Word) : List Word := [arg l 1 + arg l 0]
def fSub (l : List Word) : List Word := [arg l 1 - arg l 0]
def fNeg (l : List Word) : List Word := [-arg l 0]
def fAnd (l : List Word) : List Word := [arg l 1 &&& arg l 0]
def fOr (l : List Word) : List Word := [arg l 1 ||| arg l 0]
def fXor (l : List Word) : List Word := [arg l 1 ^^^ arg l 0]
def fNot (l : List Word) : List Word := [~~~arg l 0]

/-- The count of a shift or rotate: bits [4:0] (R194). -/
def shiftCount (n : Word) : Nat := n.toNat % 32
def fShl (l : List Word) : List Word := [arg l 1 <<< shiftCount (arg l 0)]
def fShr (l : List Word) : List Word := [arg l 1 >>> shiftCount (arg l 0)]
def fSar (l : List Word) : List Word := [(arg l 1).sshiftRight (shiftCount (arg l 0))]
def fRol (l : List Word) : List Word := [(arg l 1).rotateLeft (shiftCount (arg l 0))]
def fEq (l : List Word) : List Word := [truth (arg l 1 == arg l 0)]
def fLt (l : List Word) : List Word := [truth ((arg l 1).slt (arg l 0))]
def fLtu (l : List Word) : List Word := [truth ((arg l 1).ult (arg l 0))]
def fZeq (l : List Word) : List Word := [truth (arg l 0 == 0)]
/-- ( a b f -- r ): a when f ≠ 0, else b. -/
def fSel (l : List Word) : List Word := [if arg l 0 = 0 then arg l 1 else arg l 2]

def mulSigned (l : List Word) : Dword := (arg l 1).signExtend 64 * (arg l 0).signExtend 64
def mulUnsigned (l : List Word) : Dword := (arg l 1).setWidth 64 * (arg l 0).setWidth 64

/-- Leading zero bits; 32 for 0. -/
def clz (a : Word) : Nat := if a = 0 then 32 else 31 - Nat.log2 a.toNat
/-- Bits set. -/
def popcount (a : Word) : Nat := ((List.range 32).filter (fun i => a.getLsbD i)).length
def fClz (l : List Word) : List Word := [word (clz (arg l 0))]
def fPopc (l : List Word) : List Word := [word (popcount (arg l 0))]
def fPar (l : List Word) : List Word := [word (popcount (arg l 0) % 2)]
def fBrev (l : List Word) : List Word := [(arg l 0).reverse]

/-- The shift register of a reflected CRC, `n` bits (R200). -/
def crcBits (poly : Word) : Nat → Word → Word
  | 0, c => c
  | n + 1, c => crcBits poly n (if c.getLsbD 0 then (c >>> 1) ^^^ poly else c >>> 1)

/-- crc_step of R200: `n` is 8 for CRCB and 32 for CRCW. -/
def crcStep (c x : Word) (n : Nat) (poly : Word) : Word := crcBits poly n (c ^^^ word (x.toNat % 2 ^ n))
def fCrcb (poly : Word) (l : List Word) : List Word := [crcStep (arg l 1) (arg l 0) 8 poly]
def fCrcw (poly : Word) (l : List Word) : List Word := [crcStep (arg l 1) (arg l 0) 32 poly]

/-- Base operations that only move or compute on operand entries: entries popped, pushed, and the function. -/
def basePure (poly : Word) (op : Nat) : Option (Nat × Nat × (List Word → List Word)) :=
  match op with
  | 0x00 => some (0, 0, fun _ => [])
  | 0x01 => some (1, 2, fDup)
  | 0x02 => some (1, 0, fun _ => [])
  | 0x03 => some (2, 2, fSwap)
  | 0x04 => some (2, 3, fOver)
  | 0x05 => some (3, 3, fRot)
  | 0x06 => some (2, 1, fNip)
  | 0x07 => some (2, 3, fTuck)
  | 0x10 => some (2, 1, fAdd)
  | 0x11 => some (2, 1, fSub)
  | 0x12 => some (1, 1, fNeg)
  | 0x13 => some (2, 1, fAnd)
  | 0x14 => some (2, 1, fOr)
  | 0x15 => some (2, 1, fXor)
  | 0x16 => some (1, 1, fNot)
  | 0x17 => some (2, 1, fShl)
  | 0x18 => some (2, 1, fShr)
  | 0x19 => some (2, 1, fSar)
  | 0x1A => some (2, 1, fRol)
  | 0x1B => some (2, 1, fEq)
  | 0x1C => some (2, 1, fLt)
  | 0x1D => some (2, 1, fLtu)
  | 0x1E => some (1, 1, fZeq)
  | 0x1F => some (3, 1, fSel)
  | 0x25 => some (1, 1, fClz)
  | 0x26 => some (1, 1, fPopc)
  | 0x27 => some (1, 1, fPar)
  | 0x28 => some (1, 1, fBrev)
  | 0x29 => some (2, 1, fCrcb poly)
  | 0x2A => some (2, 1, fCrcw poly)
  | _ => none

end Sys2Proof.Machine
end

