-- ==== Sys2Proof/Machine/Stack.lean ====
section
/-! DEFINITION. The base scalar operations on the two stacks, literals, the multiplier, branches and loops (R171 to R222):
one meaning per command. -/

namespace Sys2Proof.Machine

/-- What exec answers. -/
abbrev Ans := Host.Outcome State Fault Refusal

/-- An instruction that computes on operand entries alone. -/
def scalar (t : Thread) (op pops npush : Nat) (f : List Word → List Word) (s : State) : State :=
  issue t op none 1 ⟨pops, npush, 0, 0⟩ (fun _ => none) (fun s a _ => pushes s (f a)) s

/-- NOP: ( -- ): nothing (R192). -/
def execNop (t : Thread) (s : State) : Ans := .next (scalar t 0x00 0 0 (fun _ => []) s)

/-- DUP: ( a -- a a ) (R192). -/
def execDup (t : Thread) (s : State) : Ans := .next (scalar t 0x01 1 2 fDup s)

/-- DROP: ( a -- ) (R192). -/
def execDrop (t : Thread) (s : State) : Ans := .next (scalar t 0x02 1 0 (fun _ => []) s)

/-- SWAP: ( a b -- b a ) (R192). -/
def execSwap (t : Thread) (s : State) : Ans := .next (scalar t 0x03 2 2 fSwap s)

/-- OVER: ( a b -- a b a ) (R192). -/
def execOver (t : Thread) (s : State) : Ans := .next (scalar t 0x04 2 3 fOver s)

/-- ROT: ( a b c -- b c a ) (R192). -/
def execRot (t : Thread) (s : State) : Ans := .next (scalar t 0x05 3 3 fRot s)

/-- NIP: ( a b -- b ) (R192). -/
def execNip (t : Thread) (s : State) : Ans := .next (scalar t 0x06 2 1 fNip s)

/-- TUCK: ( a b -- b a b ) (R192). -/
def execTuck (t : Thread) (s : State) : Ans := .next (scalar t 0x07 2 3 fTuck s)

/-- ADD: ( a b -- a+b ), modulo 2^32 (R193). -/
def execAdd (t : Thread) (s : State) : Ans := .next (scalar t 0x10 2 1 fAdd s)

/-- SUB: ( a b -- a−b ) (R193). -/
def execSub (t : Thread) (s : State) : Ans := .next (scalar t 0x11 2 1 fSub s)

/-- NEG: ( a -- −a ) (R193). -/
def execNeg (t : Thread) (s : State) : Ans := .next (scalar t 0x12 1 1 fNeg s)

/-- AND: bitwise and (R192). -/
def execAnd (t : Thread) (s : State) : Ans := .next (scalar t 0x13 2 1 fAnd s)

/-- OR: bitwise or (R192). -/
def execOr (t : Thread) (s : State) : Ans := .next (scalar t 0x14 2 1 fOr s)

/-- XOR: bitwise exclusive or (R192). -/
def execXor (t : Thread) (s : State) : Ans := .next (scalar t 0x15 2 1 fXor s)

/-- NOT: bitwise complement (R192). -/
def execNot (t : Thread) (s : State) : Ans := .next (scalar t 0x16 1 1 fNot s)

/-- SHL: shift left by n[4:0] (R194). -/
def execShl (t : Thread) (s : State) : Ans := .next (scalar t 0x17 2 1 fShl s)

/-- SHR: logical shift right by n[4:0] (R194). -/
def execShr (t : Thread) (s : State) : Ans := .next (scalar t 0x18 2 1 fShr s)

/-- SAR: arithmetic shift right by n[4:0] (R194). -/
def execSar (t : Thread) (s : State) : Ans := .next (scalar t 0x19 2 1 fSar s)

/-- ROL: rotate left by n[4:0] (R194). -/
def execRol (t : Thread) (s : State) : Ans := .next (scalar t 0x1a 2 1 fRol s)

/-- EQ: 1 when a = b (R195). -/
def execEq (t : Thread) (s : State) : Ans := .next (scalar t 0x1b 2 1 fEq s)

/-- LT: 1 when a < b, signed (R195). -/
def execLt (t : Thread) (s : State) : Ans := .next (scalar t 0x1c 2 1 fLt s)

/-- LTU: 1 when a < b, unsigned (R195). -/
def execLtu (t : Thread) (s : State) : Ans := .next (scalar t 0x1d 2 1 fLtu s)

/-- ZEQ: 1 when a = 0 (R195). -/
def execZeq (t : Thread) (s : State) : Ans := .next (scalar t 0x1e 1 1 fZeq s)

/-- SEL: ( a b f -- r ) (R192). -/
def execSel (t : Thread) (s : State) : Ans := .next (scalar t 0x1f 3 1 fSel s)

/-- CLZ: leading zero bits; 32 for 0 (R192). -/
def execClz (t : Thread) (s : State) : Ans := .next (scalar t 0x25 1 1 fClz s)

/-- POPC: number of bits set (R192). -/
def execPopc (t : Thread) (s : State) : Ans := .next (scalar t 0x26 1 1 fPopc s)

/-- PAR: XOR of all 32 bits (R192). -/
def execPar (t : Thread) (s : State) : Ans := .next (scalar t 0x27 1 1 fPar s)

/-- BREV: bit reversal (R192). -/
def execBrev (t : Thread) (s : State) : Ans := .next (scalar t 0x28 1 1 fBrev s)

/-- ( xn … x0 n -- xn … x0 xn ): copy entry n, 0 to 14; a larger n is a stack fault with XINFO 4. The entries it reads count
as popped and pushed again for R175. -/
def pick (t : Thread) (s : State) : State :=
  let n := (arg (operands s t 1) 0).toNat
  let m := if n ≤ 14 then n + 2 else 1
  issue t 0x08 none 1 ⟨m, m, 0, 0⟩ (fun _ => none)
    (fun s a _ => if 14 < n then .exc s 0x01 4 else pushes s (arg a (n + 1) :: a.drop 1)) s

/-- PICK (R192). -/
def execPick (t : Thread) (s : State) : Ans := .next (pick t s)

/-- DEPTH: the full operand depth before the push (R178). -/
def execDepth (t : Thread) (s : State) : Ans :=
  .next (issue t 0x09 none 1 ⟨0, 1, 0, 0⟩ (fun _ => none) (fun s _ _ => pushes s [fullDepth (s.ctx t)]) s)

/-- TOR: move the top to the return stack (R174). -/
def execTor (t : Thread) (s : State) : Ans :=
  .next (issue t 0x0A none 1 ⟨1, 0, 0, 1⟩ (fun _ => none)
    (fun s a _ => .ok { s := s, push := [], rpush := [arg a 0], tgt := none }) s)

/-- FROMR: move the top of the return stack (R174). -/
def execFromr (t : Thread) (s : State) : Ans :=
  .next (issue t 0x0B none 1 ⟨0, 1, 1, 0⟩ (fun _ => none) (fun s _ r => pushes s [arg r 0]) s)

/-- RCOPY: copy the top of the return stack, which it reads (R174). -/
def execRcopy (t : Thread) (s : State) : Ans :=
  .next (issue t 0x0C none 1 ⟨0, 1, 1, 1⟩ (fun _ => none)
    (fun s _ r => .ok { s := s, push := [arg r 0], rpush := [arg r 0], tgt := none }) s)

/-! ## The multiplier (R208 to R213) -/

/-- Put a multiply in flight. -/
def multiply (t : Thread) (op : Nat) (add : Bool) (f : List Word → Dword) (s : State) : State :=
  issue t op none 1 ⟨2, 0, 0, 0⟩ (fun _ => none)
    (fun s a _ => pushes (s.updCtx t (fun x =>
      { x with muls := x.muls ++ [{ add := add, value := f a, issued := coreNow s }] })) []) s

/-- MUL: the signed 64-bit product to MHI:MLO (R208). -/
def execMul (t : Thread) (s : State) : Ans := .next (multiply t 0x20 false mulSigned s)

/-- MULU: the unsigned 64-bit product (R208). -/
def execMulu (t : Thread) (s : State) : Ans := .next (multiply t 0x21 false mulUnsigned s)

/-- MACC: adds the signed product, modulo 2^64 (R208, R211). -/
def execMacc (t : Thread) (s : State) : Ans := .next (multiply t 0x22 true mulSigned s)

/-- Read MLO or MHI: results due are in; a read while a multiply is in flight is early, takes the value held and counts
(R209, R210). -/
def readPair (t : Thread) (n : Nat) (s : State) : State × Word :=
  let s1 := s.updCtx t (settle (mulDone (coreNow s)))
  let x := s1.ctx t
  (if x.muls = [] then s1 else coreCount t.core 0x18 1 s1, x.reg n)

/-- RDMLO (R209, R210). -/
def execRdmlo (t : Thread) (s : State) : Ans :=
  .next (issue t 0x23 none 1 ⟨0, 1, 0, 0⟩ (fun _ => none)
    (fun s _ _ => pushes (readPair t 0x020 s).1 [(readPair t 0x020 s).2]) s)

/-- RDMHI (R209, R210). -/
def execRdmhi (t : Thread) (s : State) : Ans :=
  .next (issue t 0x24 none 1 ⟨0, 1, 0, 0⟩ (fun _ => none)
    (fun s _ _ => pushes (readPair t 0x021 s).1 [(readPair t 0x021 s).2]) s)

/-- CRCB: a CRC step over byte b (R200). -/
def execCrcb (t : Thread) (s : State) : Ans := .next (scalar t 0x29 2 1 (fCrcb ((s.ctx t).reg 0x02D)) s)

/-- CRCW: a CRC step over a word (R200). -/
def execCrcw (t : Thread) (s : State) : Ans := .next (scalar t 0x2A 2 1 (fCrcw ((s.ctx t).reg 0x02D)) s)

/-! ## Literals (R183 to R187) -/

/-- The run that the prefixes make at the thread's program counter: it ends at the innermost loop's end (R184), and a
seventh prefix is the last that is looked at (R185). -/
def runOf (s : State) (t : Thread) (ds : List Nat) : List Nat :=
  let x := s.ctx t
  let le := (x.reg (0x014 + (x.ldepth - 1))).toNat
  if x.ldepth ≠ 0 ∧ x.pc.toNat ≤ le then (ds.take 7).take (le - x.pc.toNat + 1) else ds.take 7

/-- A run of prefixes: one instruction (R186); a seventh prefix is illegal (R185). -/
def literalRun (t : Thread) (ds : List Nat) (s : State) : State :=
  let r := runOf s t ds
  let first := 0x40 + r.headD 0 % 64
  let second := r.tail.head?.map (fun d => BitVec.ofNat 8 (0x40 + d % 64))
  if r = [] then s
  else issue t first second r.length ⟨0, 1, 0, 0⟩
    (fun s => if 6 < r.length then some (0x03, syllables s t first second) else none)
    (fun s _ _ => pushes s [literalValue r]) s

/-- LITERAL_RUN (R183 to R186). -/
def execLiteralRun (t : Thread) (ds : List Nat) (s : State) : Ans := .next (literalRun t ds s)

/-! ## Branches (R196) -/

/-- The address of the syllable after a one-syllable instruction. -/
def after (s : State) (t : Thread) : Word := (s.ctx t).pc + 1

/-- An instruction that transfers control to `tgt`, pushing `rpush` on the return stack. -/
def goes (s : State) (rpush : List Word) (tgt : Word) : Out := .ok { s := s, push := [], rpush := rpush, tgt := some tgt }

/-- BR: branch (R196). -/
def execBr (t : Thread) (s : State) : Ans :=
  .next (issue t 0x35 none 1 ⟨1, 0, 0, 0⟩ (fun _ => none) (fun s a _ => goes s [] (after s t + arg a 0)) s)

/-- BZ: ( f off -- ) branch when f = 0 (R195, R196). -/
def execBz (t : Thread) (s : State) : Ans :=
  .next (issue t 0x36 none 1 ⟨2, 0, 0, 0⟩ (fun _ => none)
    (fun s a _ => if arg a 1 = 0 then goes s [] (after s t + arg a 0) else pushes s []) s)

/-- BNZ: branch when f ≠ 0 (R195, R196). -/
def execBnz (t : Thread) (s : State) : Ans :=
  .next (issue t 0x37 none 1 ⟨2, 0, 0, 0⟩ (fun _ => none)
    (fun s a _ => if arg a 1 ≠ 0 then goes s [] (after s t + arg a 0) else pushes s []) s)

/-- CALL: push the return address; branch (R196). -/
def execCall (t : Thread) (s : State) : Ans :=
  .next (issue t 0x38 none 1 ⟨1, 0, 0, 1⟩ (fun _ => none)
    (fun s a _ => goes s [after s t] (after s t + arg a 0)) s)

/-- CALLX: push the return address; jump to addr (R192). -/
def execCallx (t : Thread) (s : State) : Ans :=
  .next (issue t 0x39 none 1 ⟨1, 0, 0, 1⟩ (fun _ => none) (fun s a _ => goes s [after s t] (arg a 0)) s)

/-- RET: jump to the popped return address (R192). -/
def execRet (t : Thread) (s : State) : Ans :=
  .next (issue t 0x3A none 1 ⟨0, 0, 1, 0⟩ (fun _ => none) (fun s _ r => goes s [] (arg r 0)) s)

/-- JMP: jump to addr (R192). -/
def execJmp (t : Thread) (s : State) : Ans :=
  .next (issue t 0x3B none 1 ⟨1, 0, 0, 0⟩ (fun _ => none) (fun s a _ => goes s [] (arg a 0)) s)

/-! ## Loops (R214 to R222) -/

/-- LOOP: ( n e -- ) opens the next level, or with n = 0 continues after the body (R214, R215, R216). -/
def execLoop (t : Thread) (s : State) : Ans :=
  .next (issue t 0x3C none 1 ⟨2, 0, 0, 0⟩ (fun _ => none)
    (fun s a _ =>
      let x := s.ctx t
      let ls := x.pc + 1
      let le := ls + arg a 0
      if arg a 1 = 0 then goes s [] (le + 1)
      else if 4 ≤ x.ldepth then .exc s 0x02 0
      else pushes (s.updCtx t (fun x =>
        { ((x.setReg (0x010 + x.ldepth) ls).setReg (0x014 + x.ldepth) le).setReg (0x018 + x.ldepth) (arg a 1) with
          ldepth := x.ldepth + 1 })) []) s)

/-- LEAVE: close the innermost level and continue after its end (R219). -/
def execLeave (t : Thread) (s : State) : Ans :=
  .next (issue t 0x3D none 1 ⟨0, 0, 0, 0⟩ (fun _ => none)
    (fun s _ _ =>
      let x := s.ctx t
      if x.ldepth = 0 then .exc s 0x02 1
      else goes (s.updCtx t (fun x => { x with ldepth := x.ldepth - 1 })) [] (x.reg (0x014 + (x.ldepth - 1)) + 1)) s)

/-- ISYNC: the model fetches from memory at every issue, so discarding fetched syllables changes nothing (R182). -/
def execIsync (t : Thread) (s : State) : Ans := .next (scalar t 0xEE 0 0 (fun _ => []) s)

end Sys2Proof.Machine
end

