-- ==== Sys2Proof/Machine/Fabric.lean ====
section
/-! DEFINITION. What the benches send each other: where the port stations lie, the I/O ring's packets, sync error records, the
open-class queue, and sending a tally operation toward its home slice. -/

namespace Sys2Proof.Machine

/-! ## Stations (R6, R21, R22) -/

def memStation (d : Nat) : Nat := [14, 10, 5, 1].getD (d / 4) 0 + 16 * [1, 3, 4, 6].getD (d % 4) 0
def weltStation (w : Nat) : Nat := [12, 3].getD (w / 4) 0 + 16 * [0, 2, 5, 7].getD (w % 4) 0
/-- The memory port, or the welt port, at a station's fifth router port. -/
def memAt (b : Nat) : Option Nat := findBelow 16 (fun d => decide (memStation d = b))
def weltAt (b : Nat) : Option Nat := findBelow 8 (fun w => decide (weltStation w = b))

/-- A partition owns a port whose station lies in its rectangle (R373). -/
def ownsMem (q : Part) (d : Nat) : Bool := q.holds (memStation d)
def ownsWelt (q : Part) (w : Nat) : Bool := q.holds (weltStation w)
/-- The partition that owns memory port d. -/
def memOwner (s : State) (d : Nat) : Option Nat := findBelow 8 (fun p => ownsMem (s.part p) d)

/-- Two benches of one partition. -/
def samePart (s : State) (a b : Nat) : Bool :=
  match partOf s a with
  | some p => (s.part p).holds b
  | none => decide (a = b)

/-- Links on the path that runs first along the row, then along the column (R336). -/
def hops (a b : Nat) : Nat :=
  (colOf a - colOf b) + (colOf b - colOf a) + (rowOf a - rowOf b) + (rowOf b - rowOf a)

/-! ## What a reset absorbs (R679, R686) -/

/-- A core, or everything of a bench, lies in a reset scope. -/
def scopeCore (s : State) : Scope → Nat → Bool
  | .core k, c => decide (k = c)
  | .bench b, c => decide (b = benchOf c)
  | .part p, c => (s.part p).holds (benchOf c)
  | _, _ => true
def scopeBench (s : State) : Scope → Nat → Bool
  | .core _, _ => false
  | .bench d, b => decide (d = b)
  | .part p, b => (s.part p).holds b
  | _, _ => true

/-- From its reset point until a reset ends, traffic that arrives into its scope is absorbed. -/
def absorbsCore (s : State) (c : Nat) : Bool := s.resets.any (fun r => r.point && scopeCore s r.scope c)
def absorbsBench (s : State) (b : Nat) : Bool := s.resets.any (fun r => r.point && scopeBench s r.scope b)
def absorbsAddr (s : State) (a : Nat) : Bool :=
  match coreOfAddr a with
  | some c => absorbsCore s c
  | none => match winOfAddr a with
    | some b => absorbsBench s b
    | none => false

/-- An absorbed item is counted in the bench that holds its destination. -/
def absorb (b : Nat) (s : State) : State := count b 0x6A10 1 s

/-- The module leaves W1 or W2 for W0 (R613). -/
def wake (s : State) : State :=
  if s.pwr.wstate = 1 ∨ s.pwr.wstate = 2 then { s with pwr := { s.pwr with wstate := 0, idleSince := s.tb } } else s

/-! ## The I/O ring (R377) -/

/-- The ring stop of a bench's row. -/
def rowStop (b : Nat) : Nat := if rowOf b < 4 then 2 + rowOf b else 5 + rowOf b

/-- The stop of the ring side of GDDR7 device d; of the CXL controller. -/
def devStop (d : Nat) : Nat := if d < 8 then 0 else 6
def clickerStop : Nat := 1
def cxlStop : Nat := 6

/-- The stops of the host, the trace collector and the Foreman. -/
def hostStop : Nat := 0
def traceStop : Nat := 7
def foremanStop : Nat := 8

/-- Stops from `a` to `b` in clockwise order. -/
def cwHops (a b : Nat) : Nat := (b + 13 - a) % 13

/-- The direction of a packet: that of fewer stops, clockwise when the counts are equal; and the stops it passes (R378). -/
def ringCw (a b : Nat) : Bool := decide (cwHops a b ≤ cwHops b a)
def ringHops (a b : Nat) : Nat := if ringCw a b then cwHops a b else cwHops b a

/-- The next stop in a direction. -/
def ringBeyond (p : Nat) (cw : Bool) : Nat := if cw then (p + 1) % 13 else (p + 12) % 13

/-- Put a packet in the local queue of its source stop. -/
def ringPut (src dst : Nat) (m : RingMsg) (s : State) : State :=
  { s with ring := s.ring ++ [{ src := src, dst := dst, msg := m, pos := src, clockwise := ringCw src dst, thru := false }] }

/-- The first packet that waits at stop `p` for ring `cw`, in its through buffer or its local queue. -/
def ringFirst (s : State) (p : Nat) (cw thru : Bool) : Option RingPkt :=
  s.ring.find? (fun k => decide (k.pos = p) && decide (k.dst ≠ p) && decide (k.clockwise = cw) && decide (k.thru = thru))

/-- Beats in the through buffer of stop `p` on ring `cw`. -/
def thruOcc (s : State) (p : Nat) (cw : Bool) : Nat :=
  (s.ring.filter (fun k => decide (k.pos = p) && decide (k.dst ≠ p) && decide (k.clockwise = cw) && k.thru)).length

/-- The next stop can take the beat: it is the beat's destination, or has a place in its through buffer of 16. -/
def ringRoom (s : State) (p : Nat) (cw : Bool) (k : RingPkt) : Bool :=
  decide (k.dst = ringBeyond p cw) || decide (thruOcc s (ringBeyond p cw) cw < 16)

/-- The beat that stop `p` sends on ring `cw` in a core cycle: when both its buffers hold one, they go in alternation (R379). A beat
that the next stop has no place for stays. -/
def ringPick (s : State) (p : Nat) (cw : Bool) : Option RingPkt :=
  (match ringFirst s p cw true, ringFirst s p cw false with
    | some a, some b => if tblGet nats s.ringTurn (2 * p + b2n cw) = 1 then some b else some a
    | some a, none => some a
    | none, r => r).filter (ringRoom s p cw)

/-- A beat moves one stop; `s0` is the state at the start of the cycle. -/
def ringMove (s0 : State) (p : Nat) (cw : Bool) (s : State) : State :=
  match ringPick s0 p cw with
  | none => s
  | some k =>
    { s with
      ring := s.ring.erase k ++ [{ k with pos := ringBeyond p cw, thru := true }]
      ringTurn := if (ringFirst s0 p cw true).isSome && (ringFirst s0 p cw false).isSome then
          tblSet nats s.ringTurn (2 * p + b2n cw) (b2n k.thru) else s.ringTurn }

/-- A core cycle of the ring pair: every stop sends at most one beat on each ring (R376, R379). -/
def ringCycle (s : State) : State :=
  forAll (List.range 13) (fun p s1 => ringMove s p false (ringMove s p true s1)) s

/-! ## Writes through the ring side of a memory (R353, R355, R380) -/

/-- A write to GDDR7 lines closes their merge windows (R355). -/
def closeWins (a n : Nat) (s : State) : State :=
  if 0x010000000000 ≤ a then s
  else s.updPort (a / 2 ^ 36) (fun x =>
    { x with wins := x.wins.filter (fun w => !(decide (a / 64 ≤ w.line) && decide (w.line ≤ (a + n - 1) / 64))) })

/-- A masked write, and a whole write, that reaches a memory through its ring side. -/
def ringWriteMask (a : Nat) (l : List (Byte × Bool)) (s : State) : State := closeWins a l.length (writeMask a l s)
def ringWrite (a : Nat) (l : List Byte) (s : State) : State := closeWins a l.length (write a l s)

/-! ## Sync error records (R491) -/

/-- Write a record in the ring of core `c`, with the low word of its CORE_CYC, and set the interrupt bit in every case. The
record's low 96 bits come as a number. -/
def syncWrite (c bitNo rcd : Nat) (s : State) : State :=
  let b := benchOf c
  let q := (s.bench b).ring (c % 4)
  let s1 :=
    if q.en = false ∨ (q.head + 2 ^ 16 - q.tail) % 2 ^ 16 = 16 then
      s.updBench b (fun x => x.updRing (c % 4) (fun q => { q with ovf := true }))
    else
      s.updBench b (fun x => x.updRing (c % 4) (fun q =>
        { q with recs := tblSet (zeros 128) q.recs (q.head % 16) (BitVec.ofNat 128 (rcd % 2 ^ 96 + cyc s c % 2 ^ 32 * 2 ^ 96)),
                 head := (q.head + 1) % 2 ^ 16 }))
  setPend c bitNo s1

/-- The fields of a sync error record (R491). -/
def syncRec (kind ctx hq cond tally peer pctx phq value : Nat) : Nat :=
  kind + ctx * 2 ^ 4 + hq * 2 ^ 8 + cond * 2 ^ 12 + tally * 2 ^ 16 + (peer + pctx * 2 ^ 9 + phq * 2 ^ 12) * 2 ^ 32 + value * 2 ^ 64

/-- Report an event taken at bench `b` to the supervisor of core `c`: at once in the same bench, over the control hierarchy
otherwise. -/
def syncErr (b c bitNo rcd : Nat) (s : State) : State :=
  if benchOf c = b then syncWrite c bitNo rcd s
  else ringPut (rowStop b) (rowStop (benchOf c)) (.record c bitNo (BitVec.ofNat 128 rcd)) s

/-! ## Pattern entries (R324) -/

/-- SEL and CLS of output `o` (1 N to 6 B) of an entry. -/
def entrySel (e o : Nat) : Nat := bits e (5 * o - 3) (5 * o - 5)
def entryCls (e o : Nat) : Nat := bits e (5 * o - 1) (5 * o - 2)
def entrySet (e o sel cls : Nat) : Nat := setBits e (5 * o - 1) (5 * o - 5) (sel + cls * 8)

/-- Some output of an entry selects input `i`. -/
def selected (e i : Nat) : Bool := (List.range 6).any (fun k => decide (entrySel e (k + 1) = i))

def entry (s : State) (b i : Nat) : Nat := (tblGet (zeros 64) (s.bench b).pattern i).toNat
def setEntry (b i v : Nat) (s : State) : State :=
  s.updBench b (fun x => { x with pattern := tblSet (zeros 64) x.pattern i (BitVec.ofNat 64 v) })

/-- The pattern period of a bench's partition. -/
def period (s : State) (b : Nat) : Nat :=
  match partOf s b with
  | some p => 2 ^ (s.part p).plog
  | none => 256

/-- The input at which a flit sent on output `o` arrives. -/
def oppositeIn (o : Nat) : Nat := if o = 1 then 3 else if o = 2 then 4 else if o = 3 then 1 else 2

/-- The router beyond output `o` (1 N to 4 W). -/
def neighbour (b o : Nat) : Option Nat :=
  if o = 1 then (if rowOf b < 7 then some (b + 16) else none)
  else if o = 2 then (if colOf b < 15 then some (b + 1) else none)
  else if o = 3 then (if 0 < rowOf b then some (b - 16) else none)
  else if o = 4 then (if 0 < colOf b then some (b - 1) else none)
  else none

/-- The outputs of an entry that select an input. -/
def outputsOf (e i : Nat) : List Nat := ((List.range 6).map (· + 1)).filter (fun o => decide (entrySel e o = i))

/-- Where a flit that leaves station `b` by output `o` at pattern index `i` ends: the station and its port X or B (R315, R326). -/
def pathEnd (s : State) : Nat → Nat → Nat → Nat → Option (Nat × Nat)
  | 0, _, _, _ => none
  | fuel + 1, b, o, i =>
    if o = 5 ∨ o = 6 then some (b, o)
    else match neighbour b o with
      | none => none
      | some d => match outputsOf (entry s d ((i + 2) % period s b)) (oppositeIn o) with
        | [] => none
        | o' :: _ => pathEnd s fuel d o' ((i + 2) % period s b)

/-- The place that a slot leads to from input `inp` of station `b` at index `i`: a path uses no output of a router twice at one index,
which bounds its length. -/
def slotEnd (s : State) (b inp i : Nat) : Option (Nat × Nat) :=
  match outputsOf (entry s b i) inp with
  | [] => none
  | o :: _ => pathEnd s (128 * 6 * 4096) b o i

/-- The place that connection `n` of bench `b` leads to: that of its first slot (R324, R330). -/
def connEnd (s : State) (b n : Nat) : Option (Nat × Nat) :=
  match findBelow (period s b) (fun i => let e := entry s b i; bit e 32 && decide (bits e 38 33 = n)) with
  | some i => slotEnd s b 6 i
  | none => none

/-! ## Connections (R330) and the open-class queue (R346 to R348) -/

def connWord (s : State) (b n : Nat) : Nat := (tblGet (zeros 64) (s.bench b).conns n).toNat
def connValid (w : Nat) : Bool := bit w 0
def connType (w : Nat) : Nat := bits w 2 1
def connDst (w : Nat) : Nat := bits w 9 3
def setConn (b n w : Nat) (s : State) : State :=
  s.updBench b (fun x => { x with conns := tblSet (zeros 64) x.conns n (BitVec.ofNat 64 w) })

/-- A connection entry: valid, type, destination bench, slots, assay. -/
def mkConn (type dst n : Nat) (assay : Bool) : Nat := 1 + type * 2 + dst * 2 ^ 3 + n * 2 ^ 10 + b2n assay * 2 ^ 17

/-- The service path from bench `b` to bench `d`, when one is cut. -/
def servicePath (s : State) (b d : Nat) : Option Nat :=
  findBelow 64 (fun n => let w := connWord s b n; connValid w && decide (connType w = 2) && decide (connDst w = d))

/-- Insert by the cycle from which an item is in the queue, behind those not later. -/
def insertItem (i : OQItem) : List OQItem → List OQItem
  | [] => [i]
  | j :: r => if i.due < j.due then i :: j :: r else j :: insertItem i r

/-- Items in the queue now, at most 64; those beyond are held by the agent that made them (R348). -/
def oqOcc (s : State) (b : Nat) : Nat := min 64 ((s.bench b).oq.filter (fun i => decide (i.due ≤ s.now))).length

/-- Places left, counting every item made. -/
def oqRoom (s : State) (b : Nat) : Nat := 64 - (s.bench b).oq.length

/-- Add an item and keep BENCH_OQ.MAX. -/
def oqPut (b : Nat) (i : OQItem) (s : State) : State :=
  s.updBench b (fun x =>
    let q := insertItem i x.oq
    let m := bits (x.r 0x5008).toNat 14 8
    { x.setR 0x5008 (BitVec.ofNat 64 (max m (min 64 q.length) * 2 ^ 8)) with oq := q })

/-- Send an open-class message from bench `b` to bench `d` on the service path between them, from mesh cycle `due` on. -/
def sendService (b d due : Nat) (m : OpenMsg) (holder : Option Thread) (s : State) : State :=
  oqPut b { dst := d, conn := none, msg := m, dead := false, due := due, holder := holder } s

/-- A credit replaces the HEAD of an unsent one for the same channel (R459). -/
def sendCredit (b d core h rx : Nat) (head : Word) (s : State) : State :=
  let same := fun (i : OQItem) => match i.msg with
    | .credit c g r _ => decide (c = core) && decide (g = h) && decide (r = rx) && !i.dead
    | _ => false
  if (s.bench b).oq.any same then
    s.updBench b (fun x => { x with oq := x.oq.map (fun i => if same i then { i with msg := .credit core h rx head } else i) })
  else sendService b d s.now (.credit core h rx head) none s

/-! ## Deliveries inside a bench -/

def insertTally (i : TallyIn) : List TallyIn → List TallyIn
  | [] => [i]
  | j :: r => if i.due < j.due ∨ (i.due = j.due ∧ i.prio < j.prio) then i :: j :: r else j :: insertTally i r

/-- An operation reaches the slice of bench `b` and takes effect in core cycle `due`; within a cycle in the order of R472. -/
def toSlice (b due prio : Nat) (op : TallyOp) (s : State) : State :=
  s.updBench b (fun x => { x with tallyIn := insertTally { due := due, prio := prio, op := op } x.tallyIn })

/-- A message for a thread of bench `b` reaches its core in core cycle `due`. -/
def toInbox (b due : Nat) (m : OpenMsg) (s : State) : State :=
  s.updBench b (fun x => { x with inbox := x.inbox ++ [{ due := due, msg := m }] })

/-- The order class of an operation at its own bench (R472): cores 1 to 4, porters 5, range engine 6; mesh arrivals 0. -/
def prioOf (op : TallyOp) : Nat :=
  match op.agent with
  | 0 => 1 + op.core % 4
  | 1 => 5
  | 2 => 6
  | _ => 5

/-! ## Tally operations (R473 to R475) -/

/-- The narrowest scope that contains the agent and the tally's home bench (R425, R471). -/
def distance (s : State) (op : TallyOp) : Nat :=
  let home := op.tally / 512
  if op.agent = 3 then 5
  else if benchOf op.core = home then 2
  else if samePart s (benchOf op.core) home then 3
  else 4

/-- The supervisor that hears of an anomaly (R487). -/
def target (s : State) (op : TallyOp) : Nat :=
  if op.agent = 0 ∨ op.agent = 1 then op.core
  else match partOf s (op.tally / 512) with
    | some p => 4 * leadOf (s.part p)
    | none => 4 * (op.tally / 512)

def tallyRec (kind : Nat) (op : TallyOp) (value : Nat) : Nat := syncRec kind (if op.agent = 0 then op.ctx else 0) 0 0 op.tally 0 0 0 value

/-- Does the sender of an operation wait for an answer: TREAD, TARRIVE, and the acquire forms (R475). TWATCH waits for its
wake. -/
def answers (op : TallyOp) : Bool := decide (op.op = 2) || decide (op.op = 3) || (decide (op.op < 2) && formAcq op.form)

/-- The answer of an operation that is not performed (R475, R482). -/
def refusedMsg (op : TallyOp) : Option OpenMsg :=
  if op.op = 4 then some (.wake op.core op.ctx op.serial op.tally 3 0)
  else if answers op then some (.result op.core op.ctx op.serial op.tally false 0 0xFFFFFFFF#32)
  else none

/-- Send an operation made in core cycle `u` by an agent of bench `b` toward its home slice (R473, R474). A cancel whose home lies
outside the partition has no watch to remove, and is no misuse (R485). -/
def sendTally (b u : Nat) (op : TallyOp) (s : State) : State :=
  let home := op.tally / 512
  if samePart s b home = false then
    if op.op = 7 then s
    else
    let s1 := syncErr b (target s op) 4 (tallyRec 5 op op.val.toNat) (count b 0x7508 1 s)
    match refusedMsg op with
    | some m => toInbox b (u + 4) m s1
    | none => s1
  else if home = b then toSlice b (u + 2) (prioOf op) op s
  else sendService b home (2 * (u + 2)) (.tally op) none s

/-- The answer of the slice of bench `home` to the agent that waits: in its own bench 2 core cycles after the effect, else
over the service path back (R473). -/
def answer (home : Nat) (op : TallyOp) (m : OpenMsg) (s : State) : State :=
  if benchOf op.core = home then toInbox home (coreNow s + 2) m s
  else sendService home (benchOf op.core) s.now m none s

/-- A fresh serial for a thread's wait. -/
def freshSerial (s : State) : Nat × State := (s.fmn.nextSerial, { s with fmn := { s.fmn with nextSerial := s.fmn.nextSerial + 1 } })

/-- An addition that an engine makes: receive queues, porters, the range engine, the welt transport. -/
def engineAdd (tally n core agent form scope : Nat) : TallyOp :=
  { op := 0, tally := tally, val := word n, cond := 0, form := form, scope := scope, core := core, ctx := 0, agent := agent,
    serial := 0 }

end Sys2Proof.Machine
end

