-- ==== Sys2Proof/Machine/Stockroom.lean ====
section
/-! DEFINITION. The stockroom, its merging buffer, uncached accesses, fences and the range engine (R391 to R412, R426 to R428).
A line is named by its number, module address / 64. -/

namespace Sys2Proof.Machine

/-! ## Lines and ways -/

def setOf (l : Nat) : Nat := l % 4096

/-- Ways that fills may use: those below the converted ones, and below those a CONVERT or a RESTORE is clearing (R403, R408). -/
def fillWays (s : State) (b : Nat) : Nat :=
  let w := waysOf s b
  match (s.bench b).rng with
  | some r => if r.op = 3 then 8 - max w r.tways else if r.op = 4 then 8 - max w r.ways else 8 - w
  | none => 8 - w

/-- Lines of range chunks that an INVALIDATE has passed after `e` control cycles, one line a cycle. -/
def passed (r : RngOp) (e l : Nat) : Bool :=
  let step := fun (acc : Nat × Bool) (c : Nat × Nat) =>
    (acc.1 + c.2, acc.2 || (decide (c.1 ≤ l) && decide (l < c.1 + c.2) && decide (acc.1 + (l - c.1) < e)))
  (r.chunks.foldl step (0, false)).2

/-- A line of the stockroom that INVALIDATE has removed by now: it was filled by a request sent before GO (R407). -/
def rngGone (s : State) (x : Bench) (l : SLine) : Bool :=
  match x.rng with
  | some r => decide (r.op = 1) && decide (l.born ≤ r.startMesh) && passed r (ctlNow s - r.started) l.line
  | none => false

/-- The valid line in a way of a set. -/
def lineAt (s : State) (x : Bench) (set way : Nat) : Option SLine :=
  x.lines.find? (fun l => decide (l.set = set) && decide (l.way = way) && !rngGone s x l)

/-- The valid line of a bench's stockroom. -/
def findLine (s : State) (b l : Nat) : Option SLine :=
  let x := s.bench b
  x.lines.find? (fun y => decide (y.line = l) && decide (y.way < fillWays s b) && !rngGone s x y)

def dropLine (b l : Nat) (s : State) : State :=
  s.updBench b (fun x => { x with lines := x.lines.filter (fun y => decide (y.line ≠ l)) })

/-- Replace the bytes of a line under a mask. -/
def overlay (data : List Byte) (new : List Byte) (mask : List Bool) : List Byte :=
  data.mapIdx (fun i d => if mask.getD i false then new.getD i 0 else d)

/-- Bytes [o, o + n) of a line. -/
def slice {α : Type} (data : List α) (o n : Nat) : List α := (data.drop o).take n

/-- The mask of `n` bytes at offset `o` of a line, and the line image of these bytes. -/
def maskOfBytes (o n : Nat) : List Bool := (List.range 64).map (fun i => decide (o ≤ i) && decide (i < o + n))
def imageOfBytes (o : Nat) (l : List Byte) : List Byte :=
  (List.range 64).map (fun i => if i < o then 0 else l.getD (i - o) 0)

/-! ## SECDED of a line's eight words (R437, R738) -/

/-- Word `w` of a line has bytes under a mask; all its bytes. -/
def wordTouched (m : List Bool) (w : Nat) : Bool := (slice m (8 * w) 8).any id
def wordFull (m : List Bool) (w : Nat) : Bool := (slice m (8 * w) 8).all id

/-- The words that a masked write covers in part and that hold an error of kind `k`: 1 single-bit, 2 double-bit. -/
def partWords (bad : Tbl Nat) (m : List Bool) (k : Nat) : List Nat :=
  (List.range 8).filter (fun w => wordTouched m w && !wordFull m w && decide (tblGet nats bad w = k))

/-- The words under a mask that hold an error of kind `k`. -/
def badUnder (bad : Tbl Nat) (m : List Bool) (k : Nat) : List Nat :=
  (List.range 8).filter (fun w => wordTouched m w && decide (tblGet nats bad w = k))

/-- The mask of a write without the words it cannot merge into. -/
def mergeMask (bad : Tbl Nat) (m : List Bool) : List Bool := m.mapIdx (fun i k => k && !(partWords bad m 2).contains (i / 8))

/-- The errors that a masked write leaves. -/
def badAfter (bad : Tbl Nat) (m : List Bool) : Tbl Nat :=
  bad.filter (fun p => !wordTouched m p.1 || (partWords bad m 2).contains p.1)

/-- The counts of a masked write: corrected words, and words it could not merge into (R738). -/
def countMerge (b : Nat) (bad : Tbl Nat) (m : List Bool) (s : State) : State :=
  count b 0x6A08 (partWords bad m 2).length (count b 0x6A00 (partWords bad m 1).length s)

/-- Stockroom line accesses of the ledger (R618). -/
def actSr (b : Nat) (s : State) : State := act b 0x6838 1 s

/-! ## Fills (R392, R396, R400) -/

/-- The way a new fill of line `l` goes into: the lowest invalid way that is not converted nor taken by a fill under way, or
the one the set's round-robin pointer names, skipping converted ways, which then advances to the next (R392). -/
def chooseWay (s : State) (b l : Nat) : Nat × Nat :=
  let x := s.bench b
  let n := fillWays s b
  let set := setOf l
  let busy := fun w => (lineAt s x set w).isSome || x.fills.any (fun f => decide (setOf f.line = set) && decide (f.way = w))
  let ptr := tblGet nats x.rr set
  let w := if ptr < n then ptr else 0
  if n = 0 then (8, ptr)
  else match findBelow n (fun w => !busy w) with
    | some w => (w, ptr)
    | none => (w, if w + 1 < n then w + 1 else 0)

/-- Start a fill of a line, when none is under way: counted in BENCH_CNT_SRMISS. -/
def startFill (b l : Nat) (s : State) : State :=
  let x := s.bench b
  if x.fills.any (fun f => decide (f.line = l) && !f.drop) then s
  else
    let (way, ptr) := chooseWay s b l
    let (serial, s) := freshSerial s
    let victim := (lineAt s x (setOf l) way).map (·.line)
    count b 0x6308 1 (s.updBench b (fun x =>
      { x with
        rr := tblSet nats x.rr (setOf l) ptr
        fills := x.fills ++ [
        { serial := serial, line := l, way := way, victim := victim, sent := false, sentAt := 0,
          drop := false, laid := List.replicate 64 0, laidMask := List.replicate 64 false, data := none, err := false, link := false }] }))

/-- The fill that a cached load of line `l` waits for: the one under way that INVALIDATE has not overtaken. -/
def fillOf (s : State) (b l : Nat) : Option Nat :=
  ((s.bench b).fills.find? (fun f => decide (f.line = l) && !f.drop)).map (·.serial)

/-- The bytes of a store enter the fills of their line that are under way, so that what a fill brings shows the bench's own stores
(R399). -/
def overFills (b a : Nat) (l : List Byte) (s : State) : State :=
  let img := imageOfBytes (a % 64) l
  let msk := maskOfBytes (a % 64) l.length
  s.updBench b (fun x => { x with fills := x.fills.map (fun f =>
    if f.line = a / 64 then { f with laid := overlay f.laid img msk, laidMask := f.laidMask.mapIdx (fun i k => k || msk.getD i false) }
    else f) })

/-- The global window that the access of a thread goes through, whose address is its top operand (R227). -/
def viewWindow (s : State) (t : Thread) : Nat := ((operands s t 1).headD 0).toNat / 0x20000000 - 4

/-! ## Loads through a window (R393, R399, R401) -/

/-- A cached load of `n` bytes at `a`: its bytes on a hit; a miss starts a fill. A double-bit error in the word it reads is a
miss, the line being invalidated and filled again (R437); a single-bit error is corrected and counted. -/
def cachedLoad (b a n : Nat) (s : State) : Option (List Byte) × State :=
  let l := a / 64
  match findLine s b l with
  | some y =>
    let w := a % 64 / 8
    if tblGet nats y.bad w = 2 then (none, startFill b l (count b 0x6A08 1 (dropLine b l s)))
    else
      let s1 := if tblGet nats y.bad w = 1 then
        count b 0x6A00 1 (s.updBench b (fun x =>
          { x with lines := x.lines.map (fun z => if z.line = l then { z with bad := z.bad.filter (fun p => decide (p.1 ≠ w)) } else z) }))
        else s
      (some (slice y.data (a % 64) n), actSr b (count b 0x6300 1 s1))
  | none => (none, startFill b l s)

/-- An uncached load waits as an item of the bench (R395, R401). -/
def uncachedLoad (t : Thread) (a : Nat) (s : State) : State :=
  let (serial, s) := freshSerial s
  s.updBench (benchOf t.core) (fun x =>
    { x with uitems := x.uitems ++ [
    { serial := serial, line := a / 64, write := false, data := [], mask := [], core := t.core,
      ctx := t.ctx, win := viewWindow s t, stage := 0 }] })

/-! ## Stores through a window (R397, R398, R401) -/

/-- Merging buffer entries in use: those not yet sent. -/
def mbOcc (x : Bench) : Nat := (x.mb.filter (fun e => decide (e.stage = 0))).length

/-- The bytes of a store enter the stockroom line when it is present, a hit; a word there with a double-bit error that the store
covers in part invalidates the line instead (R738). -/
def storeLine (b a : Nat) (l : List Byte) (s : State) : State :=
  let img := imageOfBytes (a % 64) l
  let msk := maskOfBytes (a % 64) l.length
  match findLine s b (a / 64) with
  | none => s
  | some y =>
    let s1 := countMerge b y.bad msk s
    if partWords y.bad msk 2 ≠ [] then dropLine b (a / 64) s1
    else actSr b (count b 0x6300 1 (s1.updBench b (fun x =>
      { x with lines := x.lines.map (fun z =>
          if z.line = a / 64 then { z with data := overlay z.data img msk, bad := badAfter z.bad msk } else z) })))

/-- A store merges into an entry of the merging buffer, but for the words it cannot merge into (R398, R738). -/
def mergeInto (t : Thread) (win : Nat) (img : List Byte) (msk : List Bool) (e : MBEntry) : MBEntry :=
  let m := mergeMask e.bad msk
  { e with
    data := overlay e.data img m
    mask := e.mask.mapIdx (fun i k => k || m.getD i false)
    writers := if e.writers.contains (t.core, t.ctx) then e.writers else (t.core, t.ctx) :: e.writers
    wins := if e.wins.contains (t.core, win) then e.wins else (t.core, win) :: e.wins
    bad := badAfter e.bad msk }

/-- A cached store: into the line and the merging buffer; none when all 32 entries are in use and none is the line's (R398). -/
def cachedStore (t : Thread) (a : Nat) (l : List Byte) (s : State) : Option State :=
  let b := benchOf t.core
  let x := s.bench b
  let line := a / 64
  let mine := fun (e : MBEntry) => decide (e.line = line) && decide (e.stage = 0)
  let img := imageOfBytes (a % 64) l
  let msk := maskOfBytes (a % 64) l.length
  let win := viewWindow s t
  match x.mb.find? mine with
  | some e =>
    some ((countMerge b e.bad msk (overFills b a l (storeLine b a l s))).updBench b (fun x =>
      { x with mb := x.mb.map (fun e => if mine e then mergeInto t win img msk e else e) }))
  | none =>
    if mbOcc x < 32 then
      let (serial, s) := freshSerial s
      some ((overFills b a l (storeLine b a l s)).updBench b (fun x =>
        { x with mb := x.mb ++
          [{ serial := serial, line := line, data := img, mask := msk, writers := [(t.core, t.ctx)], wins := [(t.core, win)],
             bad := [], stage := 0 }] }))
    else none

/-- An uncached store: invalidates the bench's copy at issue and goes as an item of its own (R401). -/
def uncachedStore (t : Thread) (a : Nat) (l : List Byte) (s : State) : State :=
  let b := benchOf t.core
  let (serial, s) := freshSerial s
  (overFills b a l (dropLine b (a / 64) s)).updBench b (fun x =>
    { x with uitems := x.uitems ++ [
    { serial := serial, line := a / 64, write := true, data := imageOfBytes (a % 64) l,
      mask := maskOfBytes (a % 64) l.length, core := t.core, ctx := t.ctx, win := viewWindow s t, stage := 0 }] })

/-! ## Items on their way (R394, R395, R400) -/

/-- What a bench has to send for memory. -/
inductive Item where
  | fill (f : Fill)
  | entry (e : MBEntry)
  | uncached (u : UItem)
  deriving DecidableEq, Repr

def Item.serial : Item → Nat
  | .fill f => f.serial
  | .entry e => e.serial
  | .uncached u => u.serial

def Item.line : Item → Nat
  | .fill f => f.line
  | .entry e => e.line
  | .uncached u => u.line

/-- A victim line of a waiting fill with an unsent entry in the merging buffer (R400). -/
def isVictim (x : Bench) (l : Nat) : Bool := x.fills.any (fun f => !f.sent && decide (f.victim = some l))

/-- The items ready to go: fills among the first 16 in flight whose victim has no unsent entry, entries, uncached accesses. -/
def readyItems (x : Bench) : List Item :=
  let waiting := fun (f : Fill) => match f.victim with
    | some v => x.mb.any (fun e => decide (e.line = v) && decide (e.stage = 0))
    | none => false
  ((x.fills.take 16).filter (fun f => !f.sent && !waiting f)).map .fill ++
    (x.mb.filter (fun e => decide (e.stage = 0))).map .entry ++
    (x.uitems.filter (fun u => decide (u.stage = 0))).map .uncached

/-- A stockroom connection to the device that holds a line (R394): its connection number. -/
def srConn (s : State) (b l : Nat) : Option Nat :=
  let a := l * 64
  if 0x010000000000 ≤ a then none
  else
    let w := ((s.bench b).r (0x6200 + a / 2 ^ 36 * 8)).toNat
    if bit w 6 then some (bits w 5 0) else none

/-- The oldest of a list of items; a victim's entry goes first (R395, R400). -/
def pickItem (x : Bench) (l : List Item) : Option Item :=
  let urgent := l.find? (fun i => match i with
    | .entry e => isVictim x e.line
    | _ => false)
  match urgent with
  | some i => some i
  | none => l.foldl (fun best i => match best with
    | none => some i
    | some j => if i.serial < j.serial then some i else some j) none

/-- A merging buffer entry is read as it is sent: its single-bit errors are corrected and counted; a double-bit error makes the
write uncorrectable data (R437, R438). -/
def entryErr (e : MBEntry) : Bool := badUnder e.bad e.mask 2 != []
def noteEntry (b : Nat) (e : MBEntry) (s : State) : State :=
  count b 0x6A08 (badUnder e.bad e.mask 2).length (count b 0x6A00 (badUnder e.bad e.mask 1).length s)

/-- Mark an item sent: stage 1 on the mesh, 2 over the ring. -/
def markSent (b stage : Nat) (i : Item) (s : State) : State :=
  let s1 := match i with
    | .entry e => noteEntry b e s
    | _ => s
  s1.updBench b (fun x => match i with
    | .fill f => { x with fills := x.fills.map (fun g => if g.serial = f.serial then { g with sent := true, sentAt := s.now } else g) }
    | .entry e => { x with mb := x.mb.map (fun g => if g.serial = e.serial then { g with stage := stage } else g) }
    | .uncached u => { x with uitems := x.uitems.map (fun g => if g.serial = u.serial then { g with stage := stage } else g) })

/-- The request flit of an item (R395): a one-line read, or a one-line write with byte mask. -/
def itemFlit (b conn : Nat) (i : Item) : Flit :=
  let f : Flit :=
  { kind := 1, late := false, err := false, lmask := 2 ^ (i.line % 2), srcb := b, conn := conn, rsv := false,
    addr := i.line / 2 * 128, data := [], mask := [], use := .none, msg := none }
  match i with
  | .fill g => { f with use := .fill g.line g.serial }
  | .entry e => { f with kind := 3, err := entryErr e, data := e.data, mask := e.mask, use := .item e.serial }
  | .uncached u =>
    if u.write then { f with kind := 3, data := u.data, mask := u.mask, use := .item u.serial }
    else { f with use := .uload u.core u.ctx }

/-- The ring packet of an item (R394): to the ring side of its device, or to the CXL controller. Fills and write-through count in
BENCH_CNT_SRRING. -/
def itemRing (b : Nat) (i : Item) (s : State) : State :=
  let a := i.line * 64
  let cxl := decide (0x010000000000 ≤ a)
  let dst := if cxl then cxlStop else devStop (a / 2 ^ 36)
  let dev := if cxl then 0 else a / 2 ^ 36 + 1
  let send := fun (wr : Bool) (d : List Byte) (m : List Bool) (err : Bool) (u : Use) =>
    ringPut (rowStop b) dst (.access b dev wr i.line d m err u) (markSent b 2 i s)
  match i with
  | .fill f => count b 0x6310 1 (send false [] [] false (.fill f.line f.serial))
  | .entry e => count b 0x6310 1 (send true e.data e.mask (entryErr e) (.item e.serial))
  | .uncached u =>
    if u.write then send true u.data u.mask false (.item u.serial) else send false [] [] false (.uload u.core u.ctx)

/-- The bench controller forwards its oldest ring-bound item. -/
def forwardRing (b : Nat) (s : State) : State :=
  match pickItem (s.bench b) ((readyItems (s.bench b)).filter (fun i => (srConn s b i.line).isNone)) with
  | some i => itemRing b i s
  | none => s

/-- A store that waited for an entry goes on once one is sent (R398), with the cycles it waited in BENCH_CNT_MBFULL. -/
def retryStores (b : Nat) (s : State) : State :=
  forAll ((List.range 4).flatMap (fun i => (List.range 8).map (fun j => (⟨4 * b + i, j⟩ : Thread)))) (fun t s =>
    match (s.ctx t).wait with
    | .store a l since =>
      match cachedStore t a l s with
      | some s1 => completeHeld t [] (count b 0x6318 (coreNow s - since) s1)
      | none => s
    | _ => s) s

/-- A write item has been performed: it leaves the bench. -/
def itemDone (b serial : Nat) (s : State) : State :=
  s.updBench b (fun x =>
    { x with mb := x.mb.filter (fun e => decide (e.serial ≠ serial)), uitems := x.uitems.filter (fun u => decide (u.serial ≠ serial)) })

/-- A write item sent over the ring has been accepted by its target controller. -/
def itemAccepted (b serial : Nat) (s : State) : State :=
  s.updBench b (fun x =>
    { x with mb := x.mb.map (fun e => if e.serial = serial then { e with stage := 3 } else e),
             uitems := x.uitems.map (fun u => if u.serial = serial then { u with stage := 3 } else u) })

/-! ## Fences (R426, R428) -/

/-- A fence of scope `sc` of a thread has nothing to wait for: its stores are performed at the scope. A store to GDDR7 leaves the
bench at its request slot, or is at stage 3 once the ring side of its controller has accepted it. -/
def fenceReady (s : State) (t : Thread) (sc : Nat) : Bool :=
  let x := s.bench (benchOf t.core)
  let cxl := fun (l : Nat) => decide (0x010000000000 ≤ l * 64)
  let holds := fun (l stage : Nat) =>
    if sc ≤ 2 then false
    else if sc = 3 then !cxl l && decide (stage ≠ 3)
    else if sc = 4 then decide (stage ≠ 3)
    else cxl l || decide (stage ≠ 3)
  let me := (t.core, t.ctx)
  !(x.mb.any (fun e => e.writers.contains me && holds e.line e.stage)) &&
    !(x.uitems.any (fun u => u.write && decide (u.core = t.core) && decide (u.ctx = t.ctx) && holds u.line u.stage))

/-! ## The range engine (R405 to R411) -/

/-- BENCH_RNG_CMD's RESULT and BUSY and COUNT fields after an operation ends. -/
def rngResult (b res cnt : Nat) (s : State) : State :=
  s.updBench b (fun x =>
    let v := (x.r 0x6410).toNat
    let v := setBits (setBits (setBits v 9 9 0) 12 10 res) 63 32 cnt
    { x.setR 0x6410 (BitVec.ofNat 64 v) with rng := none, rngDone := true })

/-- The chunks of a range, 2 MiB at a time, translated under R383 and R388, whatever the region permits; none on an address-range
error (R409). -/
def rngChunks (s : State) (b : Nat) : Nat → Nat → Nat → Option (List (Nat × Nat))
  | 0, _, _ => some []
  | fuel + 1, a, n =>
    if n = 0 then some []
    else
      let k := min n (2 ^ 21 - a % 2 ^ 21)
      match (translate s b a).filter (fun p => mapped s p.1) with
      | none => none
      | some (p, _, _) => match rngChunks s b fuel (a + k) (n - k) with
        | none => none
        | some r => some ((p / 64, k / 64) :: r)

/-- GO of BENCH_RNG_CMD (R405, R406): the operation that the register's fields give starts, or is refused while one runs. -/
def rngGo (b : Nat) (s : State) : State :=
  let x := s.bench b
  let v := (x.r 0x6410).toNat
  match x.rng with
  | some _ => s.updBench b (fun x => x.setR 0x6410 (BitVec.ofNat 64 (setBits (x.r 0x6410).toNat 12 10 5)))
  | none =>
    let op := bits v 2 0
    let tw := bits v 6 3
    let base := bits (x.r 0x6400).toNat 47 6 * 64
    let len := bits (x.r 0x6408).toNat 39 6 * 64
    let ways := waysOf s b
    let start := fun (chunks : List (Nat × Nat)) (items : List Nat) (dur : Nat) (s : State) =>
      s.updBench b (fun x =>
        { x.setR 0x6410 (BitVec.ofNat 64 (setBits (setBits (setBits (x.r 0x6410).toNat 9 9 1) 12 10 0) 63 32 0)) with
          rngDone := false
          rng := some
            { op := op, tways := tw, chunks := chunks, items := items, started := ctlNow s, startMesh := s.now,
              due := ctlNow s + dur, ways := ways, aborting := false, ten := bit v 13, tidx := bits v 22 14 } })
    if op = 1 ∨ op = 2 then
      match rngChunks s b (len / 2 ^ 21 + 2) base len with
      | none => rngResult b 4 0 s
      | some ch =>
        let inRange := fun (l : Nat) => ch.any (fun c => decide (c.1 ≤ l) && decide (l < c.1 + c.2))
        if op = 1 then
          let total := ch.foldl (fun n c => n + c.2) 0
          let s1 := s.updBench b (fun x =>
            { x with fills := x.fills.map (fun f => if f.sent && inRange f.line then { f with drop := true } else f) })
          start ch [] (min total (4096 * (8 - ways)) + 4) s1
        else
          start ch ((x.mb.filter (fun e => inRange e.line && decide (e.stage ≠ 3))).map (·.serial)) 4 s
    else if op = 3 then
      if 8 < tw then rngResult b 4 0 s
      else
        let k := tw - ways
        start [] [] (8192 * k + 4) (s.updBench b (fun x =>
          { x with lines := x.lines.filter (fun l => decide (l.way < 8 - max ways tw)),
                   fills := x.fills.map (fun f => if 8 - max ways tw ≤ f.way then { f with drop := true } else f) }))
    else if op = 4 then
      if 8 < tw then rngResult b 4 0 s
      else start [] [] (4096 * (ways - tw) + 4) (s.updBench b (fun x => x.setR 0x6500 (BitVec.ofNat 64 (min ways tw))))
    else rngResult b 4 0 s

/-- Zero the ways from `lo` up to (not including) `hi` of the converted order, counted from way 7 (R404). -/
def zeroWays (b lo hi : Nat) (s : State) : State :=
  let a := winBase b + lo * 0x40000
  { s with mem := memZero s.mem a ((hi - lo) * 0x40000)
           bad := s.bad.filter (fun p => !(decide (a ≤ 8 * p.1) && decide (8 * p.1 < a + (hi - lo) * 0x40000))) }

/-- Lines an INVALIDATE has passed are removed (R407). -/
def rngSweep (b e : Nat) (r : RngOp) (s : State) : State :=
  s.updBench b (fun x => { x with lines := x.lines.filter (fun l => !(decide (l.born ≤ r.startMesh) && passed r e l.line)) })

/-- Ways finished by CONVERT (8,192 control cycles each) or RESTORE (4,096) after `e` control cycles. -/
def waysDone (r : RngOp) (e : Nat) : Nat :=
  if r.op = 3 then min (r.tways - r.ways) (e / 8192) else min (r.ways - r.tways) (e / 4096)

/-- Finish CONVERT or RESTORE with `k` ways done: WAYS matches them (R408, R411). -/
def waysEnd (b k : Nat) (r : RngOp) (s : State) : State :=
  if r.op = 3 then (zeroWays b r.ways (r.ways + k) s).updBench b (fun x => x.setR 0x6500 (BitVec.ofNat 64 (r.ways + k)))
  else zeroWays b (r.ways - k) r.ways (s.updBench b (fun x => x.setR 0x6500 (BitVec.ofNat 64 (r.ways - k))))

/-- Add 1 to the tally of the operation, as a TADD with release form and scope BENCH (R410). -/
def rngAdd (b : Nat) (r : RngOp) (s : State) : State :=
  if r.ten then toSlice b (coreNow s) 6 (engineAdd (b * 512 + r.tidx) 1 (4 * b) 2 2 2) s else s

/-- Lines in the chunks of a range. -/
def rngTotal (r : RngOp) : Nat := r.chunks.foldl (fun n c => n + c.2) 0

/-- The operation has done all its work by now. -/
def rngFinished (s : State) (b : Nat) (r : RngOp) : Bool :=
  decide (r.due ≤ ctlNow s) &&
    !((s.bench b).mb.any (fun e => r.items.contains e.serial && decide (e.stage ≠ 3)))

/-- Completion (R410). -/
def rngComplete (b : Nat) (s : State) : State :=
  match (s.bench b).rng with
  | none => s
  | some r =>
    if rngFinished s b r = false then s
    else if r.aborting then
      let k := waysDone r (r.due - r.started)
      rngResult b 2 k (waysEnd b k r s)
    else if r.op = 1 then rngAdd b r (rngResult b 1 (rngTotal r) (rngSweep b (rngTotal r) r s))
    else if r.op = 2 then rngAdd b r (rngResult b 1 (rngTotal r) s)
    else
      let k := if r.op = 3 then r.tways - r.ways else r.ways - r.tways
      rngAdd b r (rngResult b 1 k (waysEnd b k r s))

/-- The abort of R423, decided in one control cycle: a final status not yet collected stands, an operation that runs is ABORTED with
COUNT, and with none the answer is NOT_PENDING; CONVERT and RESTORE finish the way they are working on first (R411). -/
def rngAbort (b : Nat) (s : State) : State :=
  match (s.bench b).rng with
  | none =>
    if (s.bench b).rngDone then s
    else s.updBench b (fun x => x.setR 0x6410 (BitVec.ofNat 64 (setBits (x.r 0x6410).toNat 12 10 3)))
  | some r =>
    if rngFinished s b r then rngComplete b s
    else
      let e := ctlNow s - r.started
      if r.op = 1 then rngResult b 2 (min e (rngTotal r)) (rngSweep b e r s)
      else if r.op = 2 then
        rngResult b 2 (r.items.filter (fun i => !((s.bench b).mb.any (fun m => decide (m.serial = i) && decide (m.stage ≠ 3))))).length s
      else
        let per := if r.op = 3 then 8192 else 4096
        s.updBench b (fun x => { x with rng := some { r with aborting := true, due := min r.due (r.started + per * (e / per + 1)) } })

/-- A write of BENCH_RNG_CMD: its plain fields are written, then ABORT acts, then GO. -/
def rngWrite (b v : Nat) (s : State) : State :=
  let s0 := s.updBench b (fun x =>
    x.setR 0x6410 (BitVec.ofNat 64 (setBits (setBits (x.r 0x6410).toNat 6 0 (bits v 6 0)) 22 13 (bits v 22 13))))
  let s1 := if bit v 8 then rngAbort b s0 else s0
  if bit v 7 then rngGo b s1 else s1

/-- The writer may write registers of bench `b` (R93, R233, R405): the Foreman, or a thread that can issue, of S or F level code of the
partition. -/
def mayWrite (s : State) (w : Writer) (b : Nat) : Bool :=
  match w with
  | .foreman => true
  | .thread t => canIssue s t && (decide ((s.ctx t).lvl = .f) || (decide ((s.ctx t).lvl = .s) && samePart s (benchOf t.core) b))

/-- A range command: BENCH_RNG_CMD written with GO and this OP. -/
def rngCommand (w : Writer) (b op : Nat) (v : Dword) (s : State) : State :=
  if mayWrite s w b && decide (b < 128) then rngWrite b (setBits (setBits v.toNat 2 0 op) 8 7 1) s else s

/-- INVALIDATE (R406, R407). -/
def execInvalidate (w : Writer) (bench : Nat) (v : Dword) (s : State) : Ans := .next (rngCommand w bench 1 v s)
/-- FLUSH (R406). -/
def execFlush (w : Writer) (bench : Nat) (v : Dword) (s : State) : Ans := .next (rngCommand w bench 2 v s)
/-- CONVERT (R406, R408). -/
def execConvert (w : Writer) (bench : Nat) (v : Dword) (s : State) : Ans := .next (rngCommand w bench 3 v s)
/-- RESTORE (R406, R408). -/
def execRestore (w : Writer) (bench : Nat) (v : Dword) (s : State) : Ans := .next (rngCommand w bench 4 v s)

/-- RANGE_ABORT: BENCH_RNG_CMD written with ABORT (R423). -/
def execRangeAbort (w : Writer) (bench : Nat) (s : State) : Ans :=
  .next (if mayWrite s w bench && decide (bench < 128) then rngAbort bench s else s)

/-- RANGE_COMPLETE: the running operation has done its work (R410). -/
def execRangeComplete (bench : Nat) (s : State) : Ans := .next (rngComplete bench s)

end Sys2Proof.Machine
end

