-- ==== Sys2Proof/Machine/Tally.lean ====
section
/-! DEFINITION. Tallies: the slice's operations, watches, generation deferral, the tally instructions and the answers that
release their threads (R470 to R489, R748), and FENCE. -/

namespace Sys2Proof.Machine

/-! ## The slice (R472 to R481) -/

/-- An operation is refused as a misuse (R471, R476, R477). -/
def misuse (s : State) (op : TallyOp) : Bool :=
  let r := (s.bench (op.tally / 512)).tally (op.tally % 512)
  decide (op.op < 5) &&
    (decide (r.scope < distance s op) ||
      (decide (480 ≤ op.tally % 512) && (decide (op.op < 2) || decide (op.op = 3))) ||
      (decide (op.op = 3) && decide (op.val = 0)))

/-- COUNT after an arrival of k parties (R476). -/
def arriveCount (c k : Nat) : Nat := if c = 0 then k - 1 else c - 1

/-- The operation would advance GEN. -/
def advances (s : State) (op : TallyOp) : Bool :=
  let r := (s.bench (op.tally / 512)).tally (op.tally % 512)
  !misuse s op &&
    (decide (op.op = 6) || (decide (op.op = 3) && decide (arriveCount r.count.toNat op.val.toNat = 0)))

/-- GEN advanced less than 64 core cycles ago (R478). -/
def tooSoon (s : State) (n : Nat) : Bool :=
  match ((s.bench (n / 512)).tally (n % 512)).lastAdv with
  | some u => decide (coreNow s < u + 64)
  | none => false

/-- A watch's condition (R479): 0 COUNT ≥ v, 1 COUNT = v, 2 GEN ≠ v[23:0]. -/
def holds (r : Tally) (cond : Nat) (v : Word) : Bool :=
  match cond with
  | 0 => decide (v.toNat ≤ r.count.toNat)
  | 1 => decide (r.count = v)
  | _ => decide (r.gen.toNat ≠ v.toNat % 2 ^ 24)

/-- The value a wake carries: COUNT, or GEN for COND 2 (R480). -/
def wakeValue (r : Tally) (cond : Nat) : Word := if cond = 2 then r.gen.setWidth 32 else r.count

/-- A TALLY trace record at the slice (R698). -/
def traceTally (sub n core ctx cond : Nat) (v : Word) (s : State) : State :=
  let r := (s.bench (n / 512)).tally (n % 512)
  trace (n / 512) core ctx 3 sub
    (leBytes n 2 ++ leBytes cond 1 ++ [0] ++ leBytes v.toNat 4 ++ leBytes r.count.toNat 4 ++ leBytes r.gen.toNat 4) s

/-- The operation that registered a watch. -/
def watchOp (w : Watch) : TallyOp :=
  { op := 4, tally := w.tally, val := w.val, cond := w.cond, form := 0, scope := 0, core := w.core, ctx := w.ctx, agent := 0, serial := w.serial }

/-- The wakes that the watch entries of slice `home` hold go, each leaving its entry: into its own bench at once, to another while the
open-class queue has a place (R348). -/
def sendWakes (home : Nat) (s : State) : State :=
  forAll ((s.bench home).watches.filter (fun w => w.wake.isSome)) (fun w s =>
    if benchOf w.core = home ∨ 0 < oqRoom s home then
      answer home (watchOp w) (.wake w.core w.ctx w.serial w.tally 0 (w.wake.getD 0))
        (s.updBench home (fun x => { x with watches := x.watches.erase w }))
    else s) s

/-- Check the watches of a tally in registration order: one that holds wakes its thread and is removed (R480), or holds the wake while
the open-class queue is full (R348). -/
def checkWatches (n : Nat) (s : State) : State :=
  let home := n / 512
  let r := (s.bench home).tally (n % 512)
  let fires := fun (w : Watch) => decide (w.tally = n) && w.wake.isNone && holds r w.cond w.val
  let fire := (s.bench home).watches.filter fires
  if fire = [] then s
  else
    let s1 := s.updBench home (fun x =>
      { x with watches := x.watches.map (fun w => if fires w then { w with wake := some (wakeValue r w.cond) } else w) })
    sendWakes home (forAll fire (fun w s => traceTally 2 n w.core w.ctx w.cond w.val s) s1)

def setTally (n : Nat) (f : Tally → Tally) (s : State) : State := s.updBench (n / 512) (fun x => x.updTally (n % 512) f)

/-- Report an anomaly (R487): a counter of the home bench, a record and TEVT at the target supervisor. -/
def anomaly (kind off : Nat) (op : TallyOp) (value : Nat) (s : State) : State :=
  let home := op.tally / 512
  syncErr home (target s op) 4 (tallyRec kind op value) (count home off 1 s)

/-- A release whose scope does not contain the releaser and the home bench (R432). -/
def mismatch (s : State) (op : TallyOp) : Bool := decide (op.op < 5) && formRel op.form && decide (op.scope < distance s op)

/-- The effect of an operation that is not refused (R475, R476, R486). The end of a thread frees its context, if it still is in RUN
(R266, R310). -/
def applyTally (op : TallyOp) (s : State) : State :=
  let n := op.tally
  let r := (s.bench (n / 512)).tally (n % 512)
  let c := r.count.toNat
  let v := op.val.toNat
  let ack := fun (a b : Word) (s : State) =>
    if answers op then answer (n / 512) op (.result op.core op.ctx op.serial op.tally true a b) s else s
  match op.op with
  | 0 =>
    let s1 :=
      if 2 ^ 32 ≤ c + v then
        traceTally 4 n op.core op.ctx 0 op.val
          (anomaly 4 0x7500 op v (setTally n (fun r => { r with count := word (2 ^ 32 - 1), ovf := true }) s))
      else setTally n (fun r => { r with count := word (c + v) }) s
    ack 0 0 (checkWatches n s1)
  | 1 =>
    let s1 :=
      if c < v then
        traceTally 4 n op.core op.ctx 0 op.val
          (anomaly 4 0x7500 op v (setTally n (fun r => { r with count := 0, unf := true }) s))
      else setTally n (fun r => { r with count := word (c - v) }) s
    ack 0 0 (checkWatches n s1)
  | 2 => ack r.count (r.gen.setWidth 32) s
  | 3 =>
    let c1 := arriveCount c v
    let more := decide (v - 1 < c)
    let s1 := setTally n (fun r =>
      { r with
        count := word c1
        gen := if c1 = 0 then r.gen + 1 else r.gen
        lastAdv := if c1 = 0 then some (coreNow s) else r.lastAdv
        mis := r.mis || more }) s
    let s2 := if more then traceTally 5 n op.core op.ctx 0 op.val (anomaly 5 0x7508 op v s1) else s1
    ack (r.gen.setWidth 32) 0 (checkWatches n s2)
  | 4 =>
    if holds r op.cond op.val then
      answer (n / 512) op (.wake op.core op.ctx op.serial op.tally 0 (wakeValue r op.cond)) (traceTally 2 n op.core op.ctx op.cond op.val s)
    else if 128 ≤ (s.bench (n / 512)).watches.length then
      answer (n / 512) op (.wake op.core op.ctx op.serial op.tally 2 0) (count (n / 512) 0x7528 1 s)
    else
      let s1 := s.updBench (n / 512) (fun x =>
        let ws := x.watches ++ [{ tally := n, cond := op.cond, val := op.val, core := op.core, ctx := op.ctx, serial := op.serial, wake := none }]
        { x.setR 0x7540 (BitVec.ofNat 64 (max (bits (x.r 0x7540).toNat 15 8) ws.length * 2 ^ 8)) with watches := ws })
      traceTally 1 n op.core op.ctx op.cond op.val s1
  | 5 => checkWatches n (setTally n (fun r => { r with count := 1 }) s)
  | 6 =>
    let s1 := checkWatches n (setTally n (fun r => { r with count := 0, gen := r.gen + 1, lastAdv := some (coreNow s) }) s)
    s1.updCtx ⟨op.core, op.ctx⟩ (fun x => if x.st = .run ∧ x.wait = .ended then { x with st := .free, wait := .none } else x)
  | _ => s.updBench (n / 512) (fun x =>
      { x with
        watches := x.watches.filter (fun w => !(decide (w.core = op.core) && decide (w.ctx = op.ctx) && decide (w.serial = op.serial)))
        deferred := x.deferred.filter (fun d =>
          !(decide (d.op = 4) && decide (d.core = op.core) && decide (d.ctx = op.ctx) && decide (d.serial = op.serial))) })

/-- A refused operation: MIS, a count, a record, TEVT, and the not-performed answer (R475, R487). -/
def refuseTally (op : TallyOp) (s : State) : State :=
  let s1 := traceTally 5 op.tally op.core op.ctx op.cond op.val
    (anomaly 5 0x7508 op op.val.toNat (setTally op.tally (fun r => { r with mis := true }) s))
  match refusedMsg op with
  | some m => answer (op.tally / 512) op m s1
  | none => s1

/-- Perform an operation at its slice, without the generation limit. -/
def performTally (op : TallyOp) (s : State) : State :=
  let s1 := if mismatch s op then traceTally 6 op.tally op.core op.ctx op.cond op.val (anomaly 6 0x6320 op 0 s) else s
  if misuse s op then refuseTally op s1 else applyTally op s1

/-- An operation takes effect at its slice, or is deferred behind a generation advance (R478). -/
def sliceOp (op : TallyOp) (s : State) : State :=
  let home := op.tally / 512
  let waiting := (s.bench home).deferred.any (fun d => decide (d.tally = op.tally))
  if op.op ≠ 7 ∧ (waiting ∨ (advances s op ∧ tooSoon s op.tally)) then
    count home 0x7530 1 (s.updBench home (fun x => { x with deferred := x.deferred ++ [op] }))
  else performTally op s

/-- An operation that a reset absorbs is not performed, and its sender is told so where it waits (R686). -/
def absorbTally (b : Nat) (op : TallyOp) (s : State) : State :=
  match refusedMsg op with
  | some m => if answers op then answer b op m (absorb b s) else absorb b s
  | none => absorb b s

/-- The first operation due at a slice is taken. -/
def takeTally (b : Nat) (sel : TallyOp → Bool) (s : State) : State :=
  match (s.bench b).tallyIn with
  | i :: r =>
    if i.due ≤ coreNow s ∧ sel i.op then
      let s1 := s.updBench b (fun x => { x with tallyIn := r })
      if absorbsBench s b then absorbTally b i.op s1 else sliceOp i.op s1
    else s
  | [] => s

/-- TALLY_OP_ARRIVAL: the slice performs, defers or refuses the next operation (R472). -/
def execTallyOpArrival (bench : Nat) (s : State) : Ans := .next (takeTally bench (fun _ => true) s)

/-- WATCH_CANCEL_ARRIVAL: a cancel removes its watch (R483). -/
def execWatchCancelArrival (bench : Nat) (s : State) : Ans := .next (takeTally bench (fun op => decide (op.op = 7)) s)

/-- The operations deferred on a tally go in order, until one must wait again (R478). -/
def runDeferred (n : Nat) : Nat → State → State
  | 0, s => s
  | fuel + 1, s =>
    match (s.bench (n / 512)).deferred.find? (fun d => decide (d.tally = n)) with
    | none => s
    | some op =>
      if advances s op ∧ tooSoon s n then s
      else runDeferred n fuel (performTally op (s.updBench (n / 512) (fun x => { x with deferred := x.deferred.erase op })))

/-- GENERATION_DEFER_END: 64 core cycles have passed since the tally's last advance (R478). -/
def execGenerationDeferEnd (tally : Nat) (s : State) : Ans :=
  .next (if tooSoon s tally then s else runDeferred tally (s.bench (tally / 512)).deferred.length s)

/-! ## Waits that are abandoned (R744) -/

/-- JOIN, TWATCH and an uncommitted CSEND are abandoned: nothing popped, a watch cancelled (R483, R485, R744). -/
def abandon (t : Thread) (s : State) : State :=
  let clear := fun (s : State) => s.updCtx t (fun x => { x with wait := .none, heldPops := 0, heldLen := 0 })
  match (s.ctx t).wait with
  | .join _ _ _ => clear (countSpin t true s)
  | .csend _ _ _ => clear s
  | .watch serial n cond v _ =>
    sendTally (benchOf t.core) (coreNow s)
      { op := 7, tally := n, val := v, cond := cond, form := 0, scope := 0, core := t.core, ctx := t.ctx, agent := 0, serial := serial }
      (clear (countSpin t true s))
  | _ => s

/-! ## The tally instructions (R475) -/

/-- A form and scope that the operation permits (R203, R204, R475). -/
def tallySyllableOk (op : Nat) (b : Byte) : Bool :=
  let f := tsForm b
  let sc := tsScope b
  !tsReserved b && (if op = 4 then decide (tsCond b ≠ 3) else decide (tsCond b = 0)) &&
    (if f = 0 then decide (sc = 0) else decide (2 ≤ sc) && decide (sc ≤ 5)) &&
    (if op = 2 ∨ op = 4 then decide (f ≤ 1) else true)

/-- The low 5 bits of a timeout exponent, held to 10 to 30 (R448, R479). -/
def timeoutExp (e : Word) : Nat := max 10 (min 30 (e.toNat % 32))

/-- Send the operation and hold the thread where it waits for an answer (R429, R475, R482). `e`: a TWATCH's timeout. -/
def beginTally (t : Thread) (op : TallyOp) (e : Nat) (s : State) : Out :=
  let b := benchOf t.core
  let s1 := sendTally b (coreNow s) op s
  if op.op = 4 then .held (s1.updCtx t (fun x => { x with spinFrom := some (coreNow s) })) (.watch op.serial op.tally op.cond op.val (coreNow s + 2 ^ e))
  else if answers op then .held s1 (.tally op.serial op.op op.tally (coreNow s + 2 ^ 30))
  else if samePart s b (op.tally / 512) && decide (op.tally / 512 ≠ b) && decide (oqRoom s b = 0) then
    .held (s1.updBench b (fun x => { x with oq := x.oq.map (fun i =>
      if i.msg = .tally op then { i with holder := some t } else i) })) .place
  else pushes s1 []

/-- A tally instruction: `op` 0 TADD, 1 TSUB, 2 TREAD, 3 TARRIVE, 4 TWATCH. -/
def tallyInstr (t : Thread) (op code : Nat) (syl : Byte) (sh : Shape) (s : State) : State :=
  issue t code (some syl) 2 sh
    (fun s => if tallySyllableOk op syl then none else some (0x03, syllables s t code (some syl)))
    (fun s a _ =>
      let (serial, s) := freshSerial s
      let o : TallyOp :=
      { op := op, tally := (arg a 0).toNat % 2 ^ 16, val := if op = 2 then 0 else arg a 1, cond := tsCond syl,
        form := tsForm syl, scope := tsScope syl, core := t.core, ctx := t.ctx, agent := 0, serial := serial }
      let e := timeoutExp (arg a 2)
      if formRel o.form && !fenceReady s t o.scope then .held s (.release o e)
      else beginTally t o e s) s

/-- TADD: ( v n -- ) (R475). -/
def execTadd (t : Thread) (syl : Byte) (s : State) : Ans := .next (tallyInstr t 0 0xB0 syl ⟨2, 0, 0, 0⟩ s)
/-- TSUB: ( v n -- ) (R475). -/
def execTsub (t : Thread) (syl : Byte) (s : State) : Ans := .next (tallyInstr t 1 0xB1 syl ⟨2, 0, 0, 0⟩ s)
/-- TREAD: ( n -- c g ) (R475). -/
def execTread (t : Thread) (syl : Byte) (s : State) : Ans := .next (tallyInstr t 2 0xB2 syl ⟨1, 2, 0, 0⟩ s)
/-- TARRIVE: ( k n -- g ) (R476). -/
def execTarrive (t : Thread) (syl : Byte) (s : State) : Ans := .next (tallyInstr t 3 0xB3 syl ⟨2, 1, 0, 0⟩ s)
/-- TWATCH: ( e v n -- c st ) (R479). -/
def execTwatch (t : Thread) (syl : Byte) (s : State) : Ans := .next (tallyInstr t 4 0xB4 syl ⟨3, 2, 0, 0⟩ s)

/-! ## Answers (R473, R482, R748) -/

/-- A waiting instruction's outcome, once its body has been run outside an issue. -/
def settleOut (t : Thread) (o : Out) : State :=
  match o with
  | .ok e => completeHeld t e.push e.s
  | .held s1 w => s1.updCtx t (fun x => { x with wait := w })
  | .exc s1 cause info => faultHeld t cause info s1
  | .done s1 => s1

def isResult (t : Thread) (m : OpenMsg) : Bool :=
  match m with
  | .result c k _ _ _ _ _ => decide (c = t.core) && decide (k = t.ctx)
  | _ => false

def isWake (t : Thread) (m : OpenMsg) : Bool :=
  match m with
  | .wake c k _ _ _ _ => decide (c = t.core) && decide (k = t.ctx)
  | _ => false

/-- The first message in the bench's inbox that is due and selected. -/
def inboxFind (s : State) (b : Nat) (sel : OpenMsg → Bool) : Option Inbox :=
  (s.bench b).inbox.find? (fun i => decide (i.due ≤ coreNow s) && sel i.msg)

def inboxDrop (b : Nat) (i : Inbox) (s : State) : State := s.updBench b (fun x => { x with inbox := x.inbox.erase i })

/-- What an operation pushes, top first: TREAD c and g, TARRIVE g (R475). -/
def resultPush (op : Nat) (a b : Word) : List Word := if op = 2 then [b, a] else if op = 3 then [a] else []

/-- TALLY_RESULT_ARRIVAL: the result or acknowledgement releases its thread; one that nothing waits for, or that came after the time
limit, is discarded and counted (R473, R748). -/
def execTallyResultArrival (t : Thread) (s : State) : Ans :=
  let b := benchOf t.core
  .next (match inboxFind s b (isResult t) with
    | none => s
    | some i =>
      let s1 := inboxDrop b i s
      match i.msg, (s.ctx t).wait with
      | .result _ _ serial _ performed a v, .tally mine op _ due =>
        if serial = mine ∧ i.due ≤ due then
          completeHeld t (if performed then resultPush op a v
            else resultPush op (if op = 2 then 0 else 0xFFFFFFFF#32) 0xFFFFFFFF#32) s1
        else count b 0x7520 1 s1
      | _, _ => count b 0x7520 1 s1)

/-- TALLY_RESULT_LOST: 2^30 core cycles without a result complete the operation as not performed, with a record of kind 9 and
TEVT (R748). -/
def execTallyResultLost (t : Thread) (s : State) : Ans :=
  .next (match (s.ctx t).wait with
    | .tally mine op n due =>
      let arrived := (s.bench (benchOf t.core)).inbox.any (fun i => decide (i.due ≤ due) && (match i.msg with
        | .result c k sr _ _ _ _ => decide (c = t.core) && decide (k = t.ctx) && decide (sr = mine)
        | _ => false))
      if due ≤ coreNow s ∧ arrived = false then
        completeHeld t (resultPush op (if op = 2 then 0 else 0xFFFFFFFF#32) 0xFFFFFFFF#32)
          (syncWrite t.core 4 (syncRec 9 t.ctx 0 0 n 0 0 0 0) s)
      else s
    | _ => s)

/-- WAKE_ARRIVAL: a wake in time completes TWATCH with its status; a late one is discarded and counted (R482, R483). -/
def execWakeArrival (t : Thread) (s : State) : Ans :=
  let b := benchOf t.core
  .next (match inboxFind s b (isWake t) with
    | none => s
    | some i =>
      let s1 := inboxDrop b i s
      match i.msg, (s.ctx t).wait with
      | .wake _ _ serial _ st c, .watch mine _ _ _ due =>
        if serial = mine ∧ i.due ≤ due then completeHeld t [word st, c] (countSpin t true s1)
        else count b 0x7520 1 s1
      | _, _ => count b 0x7520 1 s1)

/-- WATCH_TIMEOUT: TWATCH pushes status 1, a cancel is sent, a record is written and TWTO set (R482 to R484). -/
def execWatchTimeout (t : Thread) (s : State) : Ans :=
  let b := benchOf t.core
  .next (match (s.ctx t).wait with
    | .watch serial n cond v due =>
      let arrived := (s.bench b).inbox.any (fun i => decide (i.due ≤ due) && (match i.msg with
        | .wake c k sr _ _ _ => decide (c = t.core) && decide (k = t.ctx) && decide (sr = serial)
        | _ => false))
      if due ≤ coreNow s ∧ arrived = false then
        let s1 := completeHeld t [1, 0] (countSpin t true s)
        let s2 := sendTally b (coreNow s)
          { op := 7, tally := n, val := v, cond := cond, form := 0, scope := 0, core := t.core, ctx := t.ctx, agent := 0, serial := serial } s1
        let s3 := syncWrite t.core 3 (syncRec 3 t.ctx 0 cond n 0 0 0 v.toNat) (count b 0x7510 1 s2)
        trace b t.core t.ctx 3 3 (leBytes n 2 ++ leBytes cond 1 ++ [0] ++ leBytes v.toNat 4 ++ leBytes 0 8) s3
      else s
    | _ => s)

/-! ## FENCE (R426, R428) -/

/-- FENCE: the scope code in bits [2:0] of the second syllable, 0 to 5, the rest 0 (R207); it holds the thread until every
earlier access is performed at the scope. -/
def fenceInstr (t : Thread) (syl : Byte) (s : State) : State :=
  issue t 0xE6 (some syl) 2 ⟨0, 0, 0, 0⟩
    (fun s => if 5 < syl.toNat then some (0x03, syllables s t 0xE6 (some syl)) else none)
    (fun s _ _ => if fenceReady s t syl.toNat then pushes s [] else .held s (.fence syl.toNat)) s

def execFence (t : Thread) (syl : Byte) (s : State) : Ans := .next (fenceInstr t syl s)

/-- FENCE_DONE: every earlier access of the thread is performed at the fence's scope: a FENCE completes, a release-form
operation is sent (R426, R428). -/
def execFenceDone (t : Thread) (s : State) : Ans :=
  .next (match (s.ctx t).wait with
    | .fence sc => if fenceReady s t sc then completeHeld t [] s else s
    | .release op e => if fenceReady s t op.scope then settleOut t (beginTally t op e s) else s
    | _ => s)

end Sys2Proof.Machine
end

