-- ==== Sys2Proof/Machine/Channels.lean ====
section
/-! DEFINITION. Channels: the staging buffers, opening, sending, receiving, closing and aborting, and the receive queues
(R440 to R469). Index c % 4 × 16 + n names handle or queue n of core c in its bench. -/

namespace Sys2Proof.Machine

def chanIx (c h : Nat) : Nat := c % 4 * 16 + h
def State.chanOf (s : State) (c h : Nat) : Chan := (s.bench (benchOf c)).chan (chanIx c h)
def State.updChanOf (s : State) (c h : Nat) (f : Chan → Chan) : State := s.updBench (benchOf c) (fun x => x.updChan (chanIx c h) f)
def State.queueOf (s : State) (c q : Nat) : Queue := (s.bench (benchOf c)).queue (chanIx c q)
def State.updQueueOf (s : State) (c q : Nat) (f : Queue → Queue) : State := s.updBench (benchOf c) (fun x => x.updQueue (chanIx c q) f)

/-- Bytes of a ring of size code `k` (the BENCH_Q table). -/
def ringBytes (k : Nat) : Nat := 2 ^ (k + 10)

/-- The space of a message of `l` bytes placed at TAIL (R445, R446). -/
def spaceOf (size tail l : Nat) : Nat :=
  let room := ringBytes size - tail % ringBytes size
  if 8 + l ≤ room then 8 + l else room + 8 + l

/-- A ring entry header: LEN, KIND, SEQ (R444). -/
def ringHeader (len kind seq : Nat) : List Byte := leBytes len 2 ++ leBytes kind 1 ++ [0] ++ leBytes seq 4

/-- Flits of a message (R455). -/
def flitsOf (l : Nat) : Nat := ceilDiv (8 + l) 128

/-! ## Staging and sending (R453 to R460) -/

def stageOf (x : Ctx) (b : Word) : List Byte := if b.getLsbD 0 then x.stage1 else x.stage0
def setStage (x : Ctx) (b : Word) (l : List Byte) : Ctx := if b.getLsbD 0 then { x with stage1 := l } else { x with stage0 := l }

/-- A read of local memory by an instruction of thread `t` (R437): the bytes, or the containment fault. -/
def localRead (t : Thread) (a n : Nat) (s : State) (k : List Byte → State → Out) : Out :=
  match uncorrectable s (localBase t.core + a) n with
  | some l => .exc (memCont t.core l (some t) s) 0x0D (word (l - localBase t.core))
  | none => k (memBytes s.mem (localBase t.core + a) n) (noteRead (localBase t.core + a) n s)

/-- CPUT: ( addr len b -- st ) (R453). -/
def cput (t : Thread) (s : State) : State :=
  issue t 0xA0 (some 0x05) 2 ⟨3, 1, 0, 0⟩ (fun _ => none)
    (fun s a _ =>
      let addr := (arg a 2).toNat / 8 * 8
      let len := (arg a 1).toNat
      let st := stageOf (s.ctx t) (arg a 0)
      if len = 0 then pushes (s.updCtx t (fun x => setStage x (arg a 0) [])) [0]
      else if len % 8 ≠ 0 then pushes s [2]
      else if 256 < st.length + len then pushes s [1]
      else if 0x100000 < addr + len ∨ permitted (s.ctx t) 0 addr len = false then .exc s 0x06 (word addr)
      else localRead t addr len s (fun l s => pushes (s.updCtx t (fun x => setStage x (arg a 0) (st ++ l))) [0])) s

/-- A CHANNEL trace record when CSEND returns (R698). -/
def traceSend (t : Thread) (h st len seq : Nat) (s : State) : State :=
  let x := s.chanOf t.core h
  trace (benchOf t.core) t.core t.ctx 2 st
    (leBytes h 1 ++ leBytes x.dq 1 ++ leBytes x.dst 2 ++ leBytes len 2 ++ [0, 0] ++ leBytes (if st = 0 then seq else 0) 4) s

/-- The handle is one of the thread's that is neither FREE nor OPENING. -/
def ownHandle (s : State) (t : Thread) (h : Nat) : Bool :=
  let x := s.chanOf t.core h
  decide (h < 16) && decide (2 ≤ x.state) && decide (x.ctx = t.ctx)

/-- The message in buffer `b` may be committed on handle `h` now (R455). A channel within the bench enters no queue. -/
def canCommit (s : State) (t : Thread) (b : Word) (h : Nat) : Bool :=
  let x := s.chanOf t.core h
  let l := (stageOf (s.ctx t) b).length
  decide (spaceOf x.size x.tail.toNat l ≤ ringBytes x.size - (x.tail - x.khead).toNat) &&
    (decide (benchOf x.dst = benchOf t.core) || decide (flitsOf l ≤ oqRoom s (benchOf t.core)))

/-- The commitment: TAIL advances by the space and all flits enter the queue, in one core cycle (R455); within a bench the
message goes to the queue two core cycles later. -/
def commit (t : Thread) (b : Word) (h : Nat) (s : State) : State :=
  let x := s.chanOf t.core h
  let l := stageOf (s.ctx t) b
  let n := flitsOf l.length
  let msg := ringHeader l.length 1 (x.sent % 2 ^ 32) ++ l
  let part := fun (i : Nat) => OpenMsg.chan
    { core := t.core, ctx := t.ctx, h := h, dst := x.dst, dq := x.dq, seq := x.sent % 2 ^ 32, first := decide (i = 0),
      last := decide (i + 1 = n), payload := (msg.drop (128 * i)).take 128 }
  let whole := OpenMsg.chan
    { core := t.core, ctx := t.ctx, h := h, dst := x.dst, dq := x.dq, seq := x.sent % 2 ^ 32, first := true, last := true, payload := msg }
  let inside := decide (benchOf x.dst = benchOf t.core)
  let s1 := (s.updChanOf t.core h (fun x =>
    { x with tail := x.tail + word (spaceOf x.size x.tail.toNat l.length), sent := x.sent + 1,
             left := if inside then x.left + 1 else x.left })).updCtx t (fun x => setStage x b [])
  let s2 := if inside then toInbox (benchOf t.core) (coreNow s + 2) whole s1
    else forAll (List.range n) (fun i s =>
      oqPut (benchOf t.core)
        { dst := benchOf x.dst, conn := some x.conn, msg := part i, dead := false, due := s.now, holder := none } s) s1
  traceSend t h 0 l.length (x.sent % 2 ^ 32) s2

/-- CSEND: ( b h -- st ) (R454, R455). -/
def csend (t : Thread) (s : State) : State :=
  issue t 0xA0 (some 0x01) 2 ⟨2, 1, 0, 0⟩ (fun _ => none)
    (fun s a _ =>
      let h := (arg a 0).toNat
      let x := s.chanOf t.core h
      let l := (stageOf (s.ctx t) (arg a 1)).length
      let ret := fun (st : Nat) => pushes (traceSend t h st l 0 s) [word st]
      if ownHandle s t h = false then ret 2
      else if x.state ≠ 2 ∧ x.state ≠ 7 then ret 4
      else if x.state = 7 then ret 5
      else if l = 0 ∨ 8 * x.maxu < l then ret 3
      else if canCommit s t (arg a 1) h then pushes (commit t (arg a 1) h s) [0]
      else .held s (.csend (arg a 1).toNat h (coreNow s + 2 ^ x.toexp))) s

/-- CSEND_COMMIT: a waiting CSEND commits (R455). -/
def csendCommit (t : Thread) (s : State) : State :=
  match (s.ctx t).wait with
  | .csend b h _ =>
    if decide ((s.chanOf t.core h).state = 2) && canCommit s t (word b) h then completeHeld t [0] (commit t (word b) h s) else s
  | _ => s

/-- CSEND_TIMEOUT: records at both supervisors and CHTO (R460). -/
def csendTimeout (t : Thread) (s : State) : State :=
  match (s.ctx t).wait with
  | .csend b h due =>
    if due ≤ coreNow s then
      let x := s.chanOf t.core h
      let bench := benchOf t.core
      let s1 := count bench 0x7518 1 (traceSend t h 1 (stageOf (s.ctx t) (word b)).length 0 s)
      let s2 := syncWrite t.core 2 (syncRec 1 t.ctx h 0 0 x.dst 0 x.dq 0) s1
      completeHeld t [1] (syncErr bench x.dst 2 (syncRec 2 0 x.dq 0 0 t.core t.ctx h 0) s2)
    else s
  | _ => s

/-! ## Aborting (R467 to R469) -/

/-- A flit of the channel of handle `h` of core `c`. -/
def ofChannel (c h : Nat) (m : OpenMsg) : Bool :=
  match m with
  | .chan p => decide (p.core = c) && decide (p.h = h)
  | _ => false

/-- A CSEND that waits on a channel ends with status `st` (R454). -/
def endSends (c h st : Nat) (s : State) : State :=
  forAll (List.range 8) (fun i s =>
    match ((s.core c).ctx i).wait with
    | .csend b g _ =>
      if g = h then
        completeHeld ⟨c, i⟩ [word st] (traceSend ⟨c, i⟩ h st (stageOf ((s.core c).ctx i) (word b)).length 0 s)
      else s
    | _ => s) s

/-- The abort of an OPEN or CLOSING channel at its decision cycle: nothing of it leaves the queue any more (R468). -/
def abortChan (c h : Nat) (s : State) : State :=
  let x := s.chanOf c h
  if x.state = 2 ∨ x.state = 3 then
    endSends c h 4 ((s.updChanOf c h (fun x => { x with state := 5 })).updBench (benchOf c) (fun b =>
      { b with oq := b.oq.map (fun i => if ofChannel c h i.msg then { i with dead := true } else i) }))
  else s

/-- Ask the clicker to release the path of a channel, and the service path back when no other channel uses it (R342); a
channel within the bench only frees its entry (R343). -/
def releasePaths (c h : Nat) (s : State) : State :=
  let x := s.chanOf c h
  let b := benchOf c
  let d := benchOf x.dst
  if b = d then setConn b x.conn 0 s
  else
    let mine := fun (p : CPath) => decide (p.kind = 0) && decide (p.src = b) && decide (p.conn = x.conn) && decide (p.freeAt = none)
    let back := fun (p : CPath) => decide (p.kind = 1) && decide (p.src = d) && decide (p.dst = b) && decide (p.freeAt = none) && !p.release
    { s with clicker := { s.clicker with paths := s.clicker.paths.map (fun p =>
        if mine p then { p with release := true }
        else if back p then { p with users := p.users - 1, release := decide (p.users ≤ 1) } else p) } }

/-- A channel reaches a final state `st` at the sender; the receiving bench is told that it is closed or aborted (R466, R468). -/
def finishChan (c h st : Nat) (s : State) : State :=
  let x := s.chanOf c h
  ringPut (rowStop (benchOf c)) (rowStop (benchOf x.dst)) (.closed x.dst x.dq (if st = 4 then 2 else 3) c h)
    (releasePaths c h (s.updChanOf c h (fun x => { x with state := st })))

/-- CHANNEL_DRAIN (R466). -/
def channelDrain (c h : Nat) (s : State) : State :=
  let x := s.chanOf c h
  if x.state = 3 ∧ x.written = x.sent then finishChan c h 4 s else s

/-- An abort as CABORT makes it: a channel that has drained by the decision cycle is closed, any other is aborted (R423, R467, R469). -/
def abortOrDrain (c h : Nat) (s : State) : State := abortChan c h (channelDrain c h s)

/-- The abort of a channel that an ending thread has open (R268): one that has drained is collected, as CABORT does. -/
def abortOpen (c h : Nat) (s : State) : State :=
  let x := s.chanOf c h
  if x.state = 2 ∨ x.state = 3 then
    let s1 := abortOrDrain c h s
    if (s1.chanOf c h).state = 4 then s1.updChanOf c h (fun _ => Chan.reset) else s1
  else s

/-- CHANNEL_ABORT_DONE: every message that had left is written (R468). -/
def channelAbortDone (c h : Nat) (s : State) : State :=
  let x := s.chanOf c h
  if x.state = 5 ∧ x.placed = x.left then finishChan c h 6 s else s

/-- CABORT: ( h -- m r ) (R467). -/
def cabort (t : Thread) (s : State) : State :=
  issue t 0xA0 (some 0x04) 2 ⟨1, 2, 0, 0⟩ (fun _ => none)
    (fun s a _ =>
      let h := (arg a 0).toNat
      if ownHandle s t h = false ∨ (s.chanOf t.core h).state = 7 then pushes s [0, 0]
      else
        let s1 := channelDrain t.core h s
        let x := s1.chanOf t.core h
        if x.state = 4 then pushes (s1.updChanOf t.core h (fun _ => Chan.reset)) [1, word x.written]
        else pushes (abortChan t.core h s1) [2, word x.left]) s

/-- CCLOSE: ( h -- st ) (R465). -/
def cclose (t : Thread) (s : State) : State :=
  issue t 0xA0 (some 0x03) 2 ⟨1, 1, 0, 0⟩ (fun _ => none)
    (fun s a _ =>
      let h := (arg a 0).toNat
      if ownHandle s t h && decide ((s.chanOf t.core h).state = 2) then
        pushes (s.updChanOf t.core h (fun x => { x with state := 3 })) [0]
      else pushes s [1]) s

/-- The channel status word (R464); FREE and OPENING handles have no ring, and FREE8 is 0. -/
def chanStatus (x : Chan) : Word :=
  if x.state < 2 then word x.state else word (x.state + (ringBytes x.size - (x.tail - x.khead).toNat) / 8 % 2 ^ 14 * 2 ^ 4)

/-- CSTAT: ( h -- w ) (R464). -/
def cstat (t : Thread) (s : State) : State :=
  issue t 0xA0 (some 0x06) 2 ⟨1, 1, 0, 0⟩ (fun _ => none)
    (fun s a _ =>
      let h := (arg a 0).toNat
      let x := s.chanOf t.core h
      if 16 ≤ h ∨ x.ctx ≠ t.ctx then pushes s [0]
      else
        pushes (if x.state = 4 ∨ x.state = 6 ∨ x.state = 7 then s.updChanOf t.core h (fun _ => Chan.reset) else s)
          [chanStatus x]) s

/-! ## Opening (R448 to R452) -/

/-- The destination bench controller's check of a queue for a COPEN, in order: NOT_ARMED, QUEUE_BUSY, BAD_LENGTH (R449). -/
def checkQueue (q : Queue) (maxu : Nat) : Nat :=
  if q.armed = false then 7 else if q.state ≠ 0 then 8 else if ringBytes q.size / 4 < 8 * maxu then 9 else 0

/-- Attach a queue to a channel (R450). -/
def attach (c h : Nat) (s : State) : State :=
  let x := s.chanOf c h
  s.updQueueOf x.dst x.dq (fun q =>
    { q with state := 1, head := 0, tail := 0, seq := 0, final := 0, score := c, sctx := x.ctx, shand := h, claim := none, part := [] })

/-- The channel becomes OPEN on connection `conn` (R450). -/
def openChan (c h conn : Nat) (s : State) : State :=
  let q := s.queueOf (s.chanOf c h).dst (s.chanOf c h).dq
  s.updChanOf c h (fun x =>
    { x with state := 2, conn := conn, size := q.size, tail := 0, khead := 0, sent := 0, left := 0, placed := 0, written := 0 })

/-- The lowest entry of a bench's connection table that is free. An entry whose path's routers are not yet returned stays out
of use, since its slots are still in the pattern (R342). -/
def freeConn (s : State) (b : Nat) : Option Nat :=
  findBelow 64 (fun n => !connValid (connWord s b n) &&
    !s.clicker.paths.any (fun p => decide (p.src = b) && decide (p.conn = n)))

/-- Answer a COPEN: a packet to its bench. -/
def answerOpen (fromStop c h st : Nat) (s : State) : State := ringPut fromStop (rowStop (benchOf c)) (.answer c h st) s

/-- A channel within the bench (R451): the bench controller checks the queue and takes a TYPE 3 entry. -/
def openInside (c h : Nat) (s : State) : State :=
  let b := benchOf c
  let x := s.chanOf c h
  let st := checkQueue (s.queueOf x.dst x.dq) x.maxu
  if st ≠ 0 then answerOpen (rowStop b) c h st s
  else match freeConn s b with
    | none => answerOpen (rowStop b) c h 2 s
    | some n => answerOpen (rowStop b) c h 0 (openChan c h n (setConn b n (mkConn 3 b 0 false) (attach c h s)))

/-- COPEN: ( e maxlen nslot q dst -- h st ) (R448, R449, R451). -/
def copen (t : Thread) (s : State) : State :=
  issue t 0xA0 (some 0x00) 2 ⟨5, 2, 0, 0⟩ (fun _ => none)
    (fun s a _ =>
      let dst := (arg a 0).toNat % 512
      let nslot := (arg a 2).toNat
      let maxlen := (arg a 3).toNat
      let b := benchOf t.core
      let no := fun (st : Nat) => pushes s [word st, 0xFFFFFFFF#32]
      match findBelow 16 (fun h => decide ((s.chanOf t.core h).state = 0)) with
      | none => no 6
      | some h =>
        if maxlen = 0 ∨ maxlen % 8 ≠ 0 ∨ 256 < maxlen then no 9
        else if nslot = 0 ∨ 64 < nslot then no 5
        else if samePart s b (benchOf dst) = false then no 3
        else
          let s1 := s.updChanOf t.core h (fun _ =>
            { Chan.reset with state := 1, ctx := t.ctx, dst := dst, dq := (arg a 1).toNat % 16,
                              nslot := if benchOf dst = b then 0 else nslot, maxu := maxlen / 8, toexp := timeoutExp (arg a 4) })
          .held (if benchOf dst = b then openInside t.core h s1
            else ringPut (rowStop b) (rowStop (benchOf dst)) (.check t.core h) s1) (.copen h)) s

/-- The claim of a COPEN on its queue still stands. -/
def claimed (s : State) (c h : Nat) : Bool :=
  let x := s.chanOf c h
  let q := s.queueOf x.dst x.dq
  decide (x.state = 1) && decide (q.state = 5) && decide (q.claim = some (c, h))

/-- Release a COPEN's claim. -/
def unclaim (c h : Nat) (s : State) : State :=
  if claimed s c h then s.updQueueOf (s.chanOf c h).dst (s.chanOf c h).dq (fun q => { q with state := 0, claim := none })
  else s

/-- The destination bench controller takes a COPEN's check: it claims the queue and sends the request to the clicker, or
answers (R449). -/
def takeCheck (c h : Nat) (s : State) : State :=
  let x := s.chanOf c h
  let stop := rowStop (benchOf x.dst)
  if x.state ≠ 1 then s
  else
    let st := checkQueue (s.queueOf x.dst x.dq) x.maxu
    if st ≠ 0 then answerOpen stop c h st s
    else ringPut stop clickerStop (.request (.copen c h))
      (s.updQueueOf x.dst x.dq (fun q => { q with state := 5, claim := some (c, h) }))

/-- Remove the first ring packet at its destination stop that `sel` picks. -/
def ringTake (sel : RingPkt → Bool) (s : State) : Option (RingPkt × State) :=
  match s.ring.find? (fun p => decide (p.pos = p.dst) && sel p) with
  | some p => some (p, { s with ring := s.ring.erase p })
  | none => none

/-- COPEN_ANSWER: the answer reaches the core; COPEN pushes its handle and status (R449). -/
def copenAnswer (t : Thread) (s : State) : State :=
  match (s.ctx t).wait with
  | .copen h =>
    let mine := fun (p : RingPkt) => match p.msg with
      | .answer c g _ => decide (c = t.core) && decide (g = h)
      | _ => false
    match ringTake mine s with
    | some (p, s1) =>
      match p.msg with
      | .answer _ _ st =>
        if st = 0 then completeHeld t [0, word h] s1
        else completeHeld t [word st, 0xFFFFFFFF#32] (s1.updChanOf t.core h (fun _ => Chan.reset))
      | _ => s
    | none => s
  | _ => s

/-! ## The receiving bench (R445, R458, R463) -/

/-- A message for a queue is one of the channel attached to it. -/
def takes (q : Queue) (p : ChanPart) : Bool :=
  decide (q.state = 1) && decide (q.final = 0) && decide (q.score = p.core) && decide (q.shand = p.h)

/-- The LAST flit of a message whose payload is `l` is written into the ring: placement (R445), TAIL, the tally, BENCH_CNT_CHMSG
(R458). -/
def placeMsg (p : ChanPart) (l : List Byte) (s : State) : State :=
  let b := benchOf p.dst
  let q := s.queueOf p.dst p.dq
  let s0 := s.updChanOf p.core p.h (fun x => { x with placed := x.placed + 1 })
  if takes q p = false then s0
  else
    let size := ringBytes q.size
    let t := q.tail.toNat % size
    let n := l.length
    let ring := localBase p.dst + q.base
    let s0 := s0.updChanOf p.core p.h (fun x => { x with written := x.written + 1 })
    let s1 := if 8 + n ≤ size - t then write (ring + t) (ringHeader n 1 q.seq ++ l) s0
      else write ring (ringHeader n 1 q.seq ++ l) (write (ring + t) (ringHeader 0 2 q.seq) s0)
    let s2 := count b 0x7538 1 (s1.updQueueOf p.dst p.dq (fun q =>
      { q with tail := q.tail + word (spaceOf q.size q.tail.toNat n), seq := (q.seq + 1) % 2 ^ 32, part := [] }))
    if q.ten then toSlice b (coreNow s + 2) 0 (engineAdd (b * 512 + q.tidx) 1 p.dst 4 2 2) s2 else s2

/-- The queue holds no message. -/
def emptyQueue (q : Queue) : Bool := decide (q.head = q.tail)

/-- A damaged channel flit (R463): the queue will be BROKEN, CONT and a record of kind 8 at the receiving core, and the
channel is aborted from the receiving side. -/
def breakQueue (p : ChanPart) (s : State) : State :=
  let b := benchOf p.dst
  let q := s.queueOf p.dst p.dq
  let s0 := s.updChanOf p.core p.h (fun x => if p.last then { x with placed := x.placed + 1 } else x)
  if takes q p = false then s0
  else
    let a := (localBase p.dst + q.base + q.tail.toNat % ringBytes q.size) / 64 * 64
    let s1 := s0.updQueueOf p.dst p.dq (fun q => if emptyQueue q then { q with state := 4, final := 0 } else { q with final := 4 })
    let s2 := syncWrite p.dst 6 (syncRec 8 0 p.dq 0 0 p.core 0 0 0) (recordCont p.dst 1 a none s1)
    ringPut (rowStop b) (rowStop (benchOf p.core)) (.rabort p.core p.h (p.dst * 16 + p.dq)) s2

/-- A channel flit reaches the receiving bench: its bytes are kept until the LAST flit of the message (R458). -/
def chanFlit (p : ChanPart) (err : Bool) (s : State) : State :=
  if err then breakQueue p s
  else
    let msg := if p.first then p.payload else (s.queueOf p.dst p.dq).part ++ p.payload
    if p.last then placeMsg p (msg.drop 8) s
    else if takes (s.queueOf p.dst p.dq) p then s.updQueueOf p.dst p.dq (fun q => { q with part := msg })
    else s

/-- A credit reaches the sending bench (R459); one for a channel that the handle no longer names changes nothing. -/
def creditIn (c h rx : Nat) (head : Word) (err : Bool) (s : State) : State :=
  let x := s.chanOf c h
  if x.dst * 16 + x.dq ≠ rx then s
  else if err then
    if x.state = 2 ∨ x.state = 3 then
      syncWrite c 6 (syncRec 8 x.ctx h 0 0 x.dst 0 0 0) (abortOrDrain c h s)
    else s
  else if 2 ≤ x.state then s.updChanOf c h (fun x => { x with khead := head }) else s

/-- CREDIT_ARRIVAL, of a credit carried inside the bench. -/
def creditInside (b : Nat) (s : State) : Option State :=
  let isCredit := fun (m : OpenMsg) => match m with
    | .credit _ _ _ _ => true
    | _ => false
  match inboxFind s b isCredit with
  | some i => match i.msg with
    | .credit c h rx head => some (creditIn c h rx head false (inboxDrop b i s))
    | _ => none
  | none => none

/-! ## Receiving (R461, R462) -/

/-- CRECV once its thread may use the queue. -/
def receive (t : Thread) (q dst : Nat) (s : State) : Out :=
  let x := s.queueOf t.core q
  let b := benchOf t.core
  let ring := localBase t.core + x.base
  let size := ringBytes x.size
  let leave := fun (st : Nat) => pushes (s.updQueueOf t.core q (fun x => { x with state := 0 })) [word st, 0]
  if x.state = 0 ∨ x.state = 5 ∨ x.armed = false then pushes s [5, 0]
  else if emptyQueue x then
    if x.state = 1 then (if x.final = 4 then leave 4 else pushes s [1, 0])
    else leave x.state
  else
    let at0 := x.head.toNat % size
    match uncorrectable s (ring + at0) 8 with
    | some l => .exc (memCont t.core l (some t) s) 0x0D (word (l - localBase t.core))
    | none =>
      let skip := decide (memNat s.mem (ring + at0 + 2) 1 = 2)
      let head := if skip then x.head + word (size - at0) else x.head
      let a := head.toNat % size
      let len := memNat s.mem (ring + a) 2
      if 0x100000 < dst + len ∨ permitted (s.ctx t) 1 dst len = false then .exc s 0x06 (word dst)
      else match uncorrectable s (ring + a) (8 + len) with
        | some l => .exc (memCont t.core l (some t) s) 0x0D (word (l - localBase t.core))
        | none =>
          let s1 := write (localBase t.core + dst) (memBytes s.mem (ring + a + 8) len) (noteRead (ring + a) (8 + len) s)
          let new := head + word (8 + len)
          let s2 := s1.updQueueOf t.core q (fun x =>
            { x with head := new, state := if new = x.tail ∧ x.final = 4 then 4 else x.state,
                     final := if new = x.tail then 0 else x.final })
          let s3 := if benchOf x.score = b then toInbox b (coreNow s + 2) (.credit x.score x.shand (t.core * 16 + q) new) s2
            else sendCredit b (benchOf x.score) x.score x.shand (t.core * 16 + q) new s2
          pushes s3 [0, word len]

/-- CRECV: ( dst q -- len st ) (R461); it names its queue as a destination (R443). -/
def crecv (t : Thread) (s : State) : State :=
  issue t 0xA0 (some 0x02) 2 ⟨2, 2, 0, 0⟩ (fun _ => none)
    (fun s a _ =>
      let q := (arg a 0).toNat % 16
      match nameUnit t 2 q true s with
      | none => .exc s 0x0B (shareInfo 2 q)
      | some s1 => receive t q ((arg a 1).toNat / 8 * 8) s1) s

/-! ## Queue registers (R440 to R442) -/

/-- Writing ARMED = 0 (R441): a claimed queue is released, and its COPEN will return NOT_ARMED; any other is detached and
the channel into it aborted. -/
def disarm (c q : Nat) (s : State) : State :=
  let x := s.queueOf c q
  let s1 := s.updQueueOf c q (fun x => { x with armed := false, state := 0, final := 0, claim := none })
  if x.state = 1 then ringPut (rowStop (benchOf c)) (rowStop (benchOf x.score)) (.rabort x.score x.shand (c * 16 + q)) s1 else s1

/-- BASE and SIZE give a ring inside local memory, aligned to its size (R440). -/
def ringOk (base size : Nat) : Bool :=
  decide (size ≤ 6) && decide (base % ringBytes size = 0) && decide (base + ringBytes size ≤ 0x100000)

/-- BENCH_Q, word +0x0. -/
def queueWord (x : Queue) : Nat :=
  x.base / 8 * 2 ^ 3 + x.size * 2 ^ 20 + b2n x.armed * 2 ^ 23 + x.state * 2 ^ 24 + b2n x.ten * 2 ^ 27 + x.tidx * 2 ^ 28 +
    x.score * 2 ^ 37 + x.sctx * 2 ^ 46 + x.shand * 2 ^ 49

/-- A write of the bits of `mask` of BENCH_Q of core `c`, queue `q`. -/
def queueWrite (c q v mask : Nat) (s : State) : State :=
  let x := s.queueOf c q
  let n := (queueWord x &&& (2 ^ 64 - 1 - mask)) ||| (v &&& mask)
  if x.state ≠ 0 then (if bit mask 23 && !bit v 23 then disarm c q s else s)
  else
    let base := bits n 19 3 * 8
    let size := bits n 22 20
    s.updQueueOf c q (fun x =>
      { x with
        base := base, size := size, ten := bit n 27, tidx := bits n 36 28
        armed := bit n 23 && ringOk base size
        head := if bit mask 23 && bit v 23 && ringOk base size then 0 else x.head
        tail := if bit mask 23 && bit v 23 && ringOk base size then 0 else x.tail })

/-- CLOSE_NOTICE: the receiving bench controller learns that a channel has closed or aborted (R466, R468). -/
def closeNotice (c q : Nat) (s : State) : State :=
  let mine := fun (p : RingPkt) => match p.msg with
    | .closed d r _ _ _ => decide (d = c) && decide (r = q)
    | _ => false
  match ringTake mine s with
  | some (p, s1) =>
    match p.msg with
    | .closed _ _ st score shand =>
      s1.updQueueOf c q (fun x => if x.state = 1 ∧ x.final = 0 ∧ x.score = score ∧ x.shand = shand then { x with state := st } else x)
    | _ => s
  | none => s

/-- RECEIVER_ABORT_NOTICE (R469): for the channel into the queue that the notice names. -/
def receiverAbort (c h : Nat) (s : State) : State :=
  let mine := fun (p : RingPkt) => match p.msg with
    | .rabort d g _ => decide (d = c) && decide (g = h)
    | _ => false
  match ringTake mine s with
  | some (p, s1) =>
    match p.msg with
    | .rabort _ _ rx => if (s.chanOf c h).dst * 16 + (s.chanOf c h).dq = rx then abortOrDrain c h s1 else s1
    | _ => s
  | none => s

/-! ## The commands -/

/-- COPEN (R448). -/
def execCopen (t : Thread) (s : State) : Ans := .next (copen t s)
/-- COPEN_ANSWER (R449). -/
def execCopenAnswer (t : Thread) (s : State) : Ans := .next (copenAnswer t s)
/-- CSEND (R454). -/
def execCsend (t : Thread) (s : State) : Ans := .next (csend t s)
/-- CSEND_COMMIT (R455). -/
def execCsendCommit (t : Thread) (s : State) : Ans := .next (csendCommit t s)
/-- CSEND_TIMEOUT (R460). -/
def execCsendTimeout (t : Thread) (s : State) : Ans := .next (csendTimeout t s)
/-- CPUT (R453). -/
def execCput (t : Thread) (s : State) : Ans := .next (cput t s)
/-- CRECV (R461). -/
def execCrecv (t : Thread) (s : State) : Ans := .next (crecv t s)
/-- CCLOSE (R465). -/
def execCclose (t : Thread) (s : State) : Ans := .next (cclose t s)
/-- CABORT (R467). -/
def execCabort (t : Thread) (s : State) : Ans := .next (cabort t s)
/-- CSTAT (R464). -/
def execCstat (t : Thread) (s : State) : Ans := .next (cstat t s)
/-- CHANNEL_DRAIN (R466). -/
def execChannelDrain (core h : Nat) (s : State) : Ans := .next (channelDrain core h s)
/-- CHANNEL_ABORT_DONE (R468). -/
def execChannelAbortDone (core h : Nat) (s : State) : Ans := .next (channelAbortDone core h s)
/-- RECEIVER_ABORT_NOTICE (R469). -/
def execReceiverAbortNotice (core h : Nat) (s : State) : Ans := .next (receiverAbort core h s)
/-- CLOSE_NOTICE (R466). -/
def execCloseNotice (core q : Nat) (s : State) : Ans := .next (closeNotice core q s)

/-- QUEUE_ARM: BENCH_Q written with ARMED 1 (R440, R441). -/
def execQueueArm (w : Writer) (core q : Nat) (v : Dword) (s : State) : Ans :=
  .next (if mayWrite s w (benchOf core) && decide (core < 512) && decide (q < 16) then
    queueWrite core q (setBits v.toNat 23 23 1) (2 ^ 64 - 1) s else s)
/-- QUEUE_DISARM: BENCH_Q written with ARMED 0 (R441). -/
def execQueueDisarm (w : Writer) (core q : Nat) (v : Dword) (s : State) : Ans :=
  .next (if mayWrite s w (benchOf core) && decide (core < 512) && decide (q < 16) then
    queueWrite core q (setBits v.toNat 23 23 0) (2 ^ 64 - 1) s else s)

end Sys2Proof.Machine
end

