-- ==== Sys2Proof/Machine/Regs.lean ====
section
/-! DEFINITION. Reading and writing registers: the system registers by number (R239, R312) and the register blocks by address
(R15, R29), as RDSR, WRSR, RDTSR, WRTSR, LDW and STW reach them, and the commands that are one such write. -/

namespace Sys2Proof.Machine

/-! ## Access to system registers -/

/-- What a level may do with a register: 0 none, 1 read, 2 read and write, 3 read with write-1-to-clear. -/
structure SrAccess where
  perThread : Bool
  u : Nat
  s : Nat
  f : Nat
  deriving DecidableEq, Repr

/-- The system register map (R239, R312); none where a number is absent. -/
def srAccess (n : Nat) : Option SrAccess :=
  if n ≤ 0x005 then some ⟨true, 1, 2, 2⟩
  else if n ≤ 0x008 then some ⟨true, 1, 1, 1⟩
  else if n < 0x010 then none
  else if n ≤ 0x01B then some ⟨true, 1, 2, 2⟩
  else if n < 0x020 then none
  else if n ≤ 0x021 then some ⟨true, 1, 1, 1⟩
  else if n ≤ 0x027 then some ⟨true, 2, 2, 2⟩
  else if n = 0x028 then some ⟨true, 1, 3, 3⟩
  else if n ≤ 0x02D then some ⟨true, 2, 2, 2⟩
  else if n < 0x030 then none
  else if n ≤ 0x03F then some ⟨true, 0, 2, 2⟩
  else if n ≤ 0x042 then some ⟨true, 1, 1, 1⟩
  else if n ≤ 0x046 then some ⟨true, 0, 2, 2⟩
  else if n ≤ 0x049 then some ⟨true, 0, 0, 2⟩
  else if n = 0x04A then some ⟨true, 0, 2, 2⟩
  else if n = 0x04B then some ⟨true, 1, 1, 1⟩
  else if n = 0x04C then some ⟨true, 2, 2, 2⟩
  else if n ≤ 0x04E then some ⟨true, 1, 1, 1⟩
  else if n < 0x100 then none
  else if n = 0x100 then some ⟨false, 1, 1, 1⟩
  else if n = 0x101 then some ⟨false, 1, 1, 2⟩
  else if n ≤ 0x103 then some ⟨false, 1, 1, 1⟩
  else if n ≤ 0x107 then some ⟨false, 0, 2, 2⟩
  else if n = 0x108 then some ⟨false, 1, 1, 1⟩
  else if n ≤ 0x10C then some ⟨false, 3, 3, 3⟩
  else if n < 0x120 then none
  else if n = 0x120 then some ⟨false, 1, 1, 2⟩
  else if n = 0x121 then some ⟨false, 1, 1, 1⟩
  else if n = 0x122 then some ⟨false, 0, 2, 2⟩
  else if n = 0x123 then some ⟨false, 0, 0, 2⟩
  else if n = 0x124 then some ⟨false, 0, 1, 2⟩
  else if n = 0x125 then some ⟨false, 0, 3, 3⟩
  else if n ≤ 0x12A then some ⟨false, 0, 2, 2⟩
  else if n ≤ 0x137 then some ⟨false, 1, 2, 2⟩
  else if n ≤ 0x139 then some ⟨false, 1, 1, 1⟩
  else if n < 0x140 then none
  else if n ≤ 0x15F then some ⟨false, 0, 1, 1⟩
  else none

/-- The access code of a level. -/
def SrAccess.at_ (a : SrAccess) : Level → Nat
  | .u => a.u
  | .s => a.s
  | .f => a.f

/-- Read register `n`, of thread `t` where it is per-thread; `by_` is the reading thread, which a read of CORE_CYC_LO latches
for (R243). -/
def srRead (by_ t : Thread) (n : Nat) (s : State) : State × Word :=
  let x := s.ctx t
  let k := s.core t.core
  if n = 0x006 then (s, sdepth x)
  else if n = 0x007 then (s, word t.ctx)
  else if n = 0x008 then (s, word x.ldepth)
  else if n = 0x020 ∨ n = 0x021 then
    if by_ = t then readPair t n s
    else
      let s1 := s.updCtx t (settle (mulDone (coreNow s)))
      (s1, (s1.ctx t).reg n)
  else if n = 0x040 then (s, statusWord s t 0)
  else if n = 0x04A then (s, word (b2n x.lastEnd * 2))
  else if n < 0x100 then (s, x.reg n)
  else if n = 0x100 then (s, word t.core)
  else if n = 0x102 then
    (s.updCtx by_ (fun x => { x with cycHi := word (cyc s t.core / 2 ^ 32) }), word (cyc s t.core))
  else if n = 0x103 then (s, (s.ctx by_).cycHi)
  else if n = 0x108 then (s, tuse s t.core)
  else if n = 0x121 then (s, thstate s t.core)
  else if n = 0x138 then (s, town s t.core 0)
  else if n = 0x139 then (s, town s t.core 1)
  else (s, k.reg n)

/-- How a register write ends. -/
inductive Wr where
  | ok (s : State)
  /-- a register-value fault is due -/
  | refused
  /-- the writer waits -/
  | wait (w : Wait)

/-- Every pool context of a core is FREE. -/
def poolFree (s : State) (c : Nat) : Bool := (List.range 8).all (fun i => decide (i = 0) || !live s c i)

/-- Operations of a context that name TFMT register `n` and are not complete (R129). -/
def tfmtBusy (s : State) (t : Thread) (n : Nat) : Bool :=
  (s.core t.core).tops.any (fun o => decide (o.ctx = t.ctx) && decide (lastFP o.last = n))

/-- Accesses of the core through window `w` that are issued and not complete (R231): the loads and stores that hold threads,
whose address is the top operand, and the stores that have left their threads and are not yet performed. -/
def windowBusy (s : State) (c w : Nat) : Bool :=
  let x := s.bench (benchOf c)
  x.mb.any (fun e => e.wins.contains (c, w)) ||
  x.uitems.any (fun u => u.write && decide (u.core = c) && decide (u.win = w)) ||
  (List.range 8).any (fun i =>
    (match ((s.core c).ctx i).wait with
      | .load _ _ _ _ => true
      | .store _ _ _ => true
      | _ => false) && decide (((operands s ⟨c, i⟩ 1).headD 0).toNat / 0x20000000 = w + 4))

/-- A write to a per-thread register of thread `t` (R177, R128, R169, R272, R273, R289). -/
def srWriteThread (t : Thread) (n : Nat) (v : Word) (s : State) : Wr :=
  let x := s.ctx t
  let put := fun (v : Word) => Wr.ok (s.updCtx t (fun x => x.setReg n v))
  if n ≤ 0x005 then (if areaRefused v.toNat then .refused else put v)
  else if n ≤ 0x023 then put v
  else if n ≤ 0x027 then
    if tfmtBusy s t (n - 0x024) then .wait (.tfmt t.ctx n v) else put (v &&& 0x1FFFFF#32)
  else if n = 0x028 then (if v.getLsbD 26 then put (x.reg n &&& ~~~(0x04000000#32)) else .ok s)
  else if n ≤ 0x02A then put (v &&& 0xFFFFF#32)
  else if n = 0x02C then put (v &&& 0xF#32)
  else if n ≤ 0x02D then put v
  else if n ≤ 0x03F then put (if n % 2 = 0 then v &&& 0xFFFFFFC7#32 else v &&& 0xFFFFFFC0#32)
  else if n = 0x043 then (if x.st = .susp ∨ x.st = .halt then put v else .refused)
  else if n ≤ 0x049 then (if v.toNat % 64 ≠ 0 ∨ 0x100000 < v.toNat then .refused else put v)
  else if n = 0x04A then
    if v.getLsbD 0 = false then .ok s
    else if t.ctx = 0 ∨ x.st = .run then .refused
    else if x.st = .susp ∨ x.st = .halt then .ok (s.updCtx t (fun x => { x with st := .run, wait := .ending true }))
    else .ok s
  else if n = 0x04C then (if v.toNat % 32 < 10 ∨ 30 < v.toNat % 32 then .refused else put (v &&& 0x1F#32))
  else .ok s

/-- The ring that CORE_FRBASE and CORE_FRCTL.SIZE give lies in local memory (R304). -/
def ringFits (base size : Nat) : Bool := decide (2 ≤ size) && decide (size ≤ 10) && decide (base + 32 * 2 ^ size ≤ 0x100000)

/-- MIN and MAX of a class register are in order and at most 16 (R281). -/
def minMax (mn mx : Nat) : Bool := decide (mn ≤ mx) && decide (mx ≤ 16)

/-- A write to a class register (R281). -/
def classWrite (c n : Nat) (v : Word) (s : State) : Wr :=
  let cls := (n - 0x12C) / 3
  let kind := (n - 0x12C) % 3
  let v := if kind = 0 then v &&& 0x3FFFFFFF#32 else if kind = 2 then v &&& 0xFFFFF#32 else v
  let held := (List.range 8).any (fun i => decide (i ≠ 0) && live s c i && (decide (cls = 0) || decide (classOf s ⟨c, i⟩ = cls)))
  let good := if kind = 0 then minMax (bits v.toNat 24 20) (bits v.toNat 29 25)
    else if kind = 2 then minMax (bits v.toNat 4 0) (bits v.toNat 9 5) && minMax (bits v.toNat 14 10) (bits v.toNat 19 15)
    else true
  if held || !good then .refused else .ok (s.updCore c (fun k => k.setReg n v))

/-- A write to a per-core register (R229, R258, R277, R288, R299 to R304, R94). -/
def srWriteCore (c n : Nat) (v : Word) (s : State) : Wr :=
  let k := s.core c
  let put := fun (v : Word) => Wr.ok (s.updCore c (fun k => k.setReg n v))
  if n = 0x101 then put (v &&& 1)
  else if n ≤ 0x107 then (if windowBusy s c (n - 0x104) then .wait (.gwin (n - 0x104) v) else put (v &&& 0x1FFFFFFF#32))
  else if n ≤ 0x10C then put (k.reg n &&& ~~~v)
  else if n = 0x120 then (if v.toNat % 4 = 3 ∨ poolFree s c = false then .refused else put (v &&& 3))
  else if n ≤ 0x123 then (if v.toNat % 256 ≠ 0 then .refused else put v)
  else if n = 0x124 then put (v &&& 0x3FF#32)
  else if n = 0x125 then put (k.reg n &&& ~~~v)
  else if n = 0x126 then put (v &&& 0xFF#32)
  else if n = 0x127 then
    (if ringFits (v &&& 0xFFFE0#32).toNat ((k.reg 0x128).toNat % 16) then put (v &&& 0xFFFE0#32) else .refused)
  else if n = 0x128 then
    (if ringFits (k.reg 0x127).toNat (v.toNat % 16) then put ((v &&& 0x1F#32) ||| (k.reg n &&& ~~~v &&& 0x20#32)) else .refused)
  else if n = 0x129 then .ok s
  else if n = 0x12A then put (v &&& 0xFFFF#32)
  else if n = 0x12B then (if poolFree s c then put (v &&& 1) else .refused)
  else if n ≤ 0x137 then classWrite c n v s
  else .ok s

def srWrite (t : Thread) (n : Nat) (v : Word) (s : State) : Wr :=
  if n < 0x100 then srWriteThread t n v s else srWriteCore t.core n v s

/-! ## RDSR, WRSR, RDTSR, WRTSR (R239 to R242) -/

/-- XINFO of a privilege fault that names a register (R284). -/
def privInfo (op n : Nat) : Word := word (op + n % 2 ^ 12 * 2 ^ 16)

/-- RDSR: ( s -- v ). -/
def rdsr (t : Thread) (s : State) : State :=
  issue t 0x3E none 1 ⟨1, 1, 0, 0⟩ (fun _ => none)
    (fun s a _ =>
      let n := (arg a 0).toNat
      match srAccess n with
      | none => .exc s 0x03 (syllables s t 0x3E none)
      | some p =>
        if p.at_ (s.ctx t).lvl = 0 then .exc s 0x04 (privInfo 0x3E n)
        else pushes (srRead t t n s).1 [(srRead t t n s).2]) s

/-- A write that an instruction makes: fault, wait or completion. -/
def wrOut (n : Nat) (s : State) : Wr → Out
  | .ok s1 => pushes s1 []
  | .refused => .exc s 0x09 (word n)
  | .wait w => .held s w

/-- WRSR: ( v s -- ). -/
def wrsr (t : Thread) (s : State) : State :=
  issue t 0x3F none 1 ⟨2, 0, 0, 0⟩ (fun _ => none)
    (fun s a _ =>
      let n := (arg a 0).toNat
      match srAccess n with
      | none => .exc s 0x03 (syllables s t 0x3F none)
      | some p =>
        if p.at_ (s.ctx t).lvl < 2 then .exc s 0x04 (privInfo 0x3F n)
        else wrOut n s (srWrite t n (arg a 1) s)) s

/-- An S instruction at U level raises a privilege fault (R205). -/
def sOnly (t : Thread) (op : Nat) (s : State) : Option (Nat × Word) := if (s.ctx t).lvl = .u then some (0x04, word op) else none

/-- RDTSR and WRTSR name a per-thread register of a context of the core; at S level not C0's (R242). -/
def tsrOk (s : State) (t : Thread) (tid n : Nat) : Option SrAccess :=
  match srAccess n with
  | some p => if p.perThread ∧ tid < 8 ∧ (tid ≠ 0 ∨ (s.ctx t).lvl = .f) then some p else none
  | none => none

/-- RDTSR: ( tid s -- v ) (R241, R242). -/
def rdtsr (t : Thread) (s : State) : State :=
  issue t 0xEC none 1 ⟨2, 1, 0, 0⟩ (sOnly t 0xEC)
    (fun s a _ =>
      let n := (arg a 0).toNat
      let u : Thread := ⟨t.core, (arg a 1).toNat⟩
      match tsrOk s t u.ctx n with
      | none => .exc s 0x03 (syllables s t 0xEC none)
      | some p =>
        if p.at_ (s.ctx t).lvl = 0 then .exc s 0x04 (privInfo 0xEC n)
        else if (n = 0x020 ∨ n = 0x021) ∧ u ≠ t ∧ (s.ctx u).muls.any (fun m => !mulDone (coreNow s) m) then .held s (.rdtsr u.ctx n)
        else pushes (srRead t u n s).1 [(srRead t u n s).2]) s

/-- WRTSR: ( v tid s -- ) (R242). -/
def wrtsr (t : Thread) (s : State) : State :=
  issue t 0xED none 1 ⟨3, 0, 0, 0⟩ (sOnly t 0xED)
    (fun s a _ =>
      let n := (arg a 0).toNat
      let u : Thread := ⟨t.core, (arg a 1).toNat⟩
      match tsrOk s t u.ctx n with
      | none => .exc s 0x03 (syllables s t 0xED none)
      | some p =>
        if p.at_ (s.ctx t).lvl < 2 then .exc s 0x04 (privInfo 0xED n)
        else wrOut n s (srWrite u n (arg a 2) s)) s

/-- The RDTSRs that waited for the multiplies of `t` go on (R241). -/
def wakeRdtsr (t : Thread) (s : State) : State :=
  if (s.ctx t).muls = [] then
    forAll (List.range 8) (fun i s =>
      match ((s.core t.core).ctx i).wait with
      | .rdtsr u n => if u = t.ctx then completeHeld ⟨t.core, i⟩ [(s.ctx t).reg n] s else s
      | _ => s) s
  else s

/-- MULTIPLY_RESULT: the results due by now are written to MHI:MLO (R209), and the RDTSRs that wait for them go on (R241). -/
def execMultiplyResult (t : Thread) (s : State) : Ans :=
  .next (if exists_ s t then wakeRdtsr t (s.updCtx t (settle (mulDone (coreNow s)))) else s)

/-! ## Register blocks: the bench control block -/

/-- Offsets of the counters of a bench control block (R92, R300, R107, R366, R401, R492, R618, R670). -/
def benchCounter (o : Nat) : Bool :=
  (decide (0x4000 ≤ o) && decide (o < 0x4100) && decide (o % 0x40 ≤ 0x20)) || decide (o = 0x4410) ||
    (decide (0x4500 ≤ o) && decide (o < 0x4900) && (decide (o % 0x40 = 0x08) || decide (o % 0x40 = 0x10))) ||
    (decide (0x5010 ≤ o) && decide (o ≤ 0x5028)) || (decide (0x6300 ≤ o) && decide (o ≤ 0x6320)) ||
    (decide (0x6800 ≤ o) && decide (o ≤ 0x6858)) || (decide (0x6A00 ≤ o) && decide (o ≤ 0x6A10)) ||
    (decide (0x7500 ≤ o) && decide (o ≤ 0x7538))

/-- BENCH_PATCTL (the table of R329). -/
def patctl (s : State) (b : Nat) : Nat :=
  match partOf s b with
  | none => 8
  | some p =>
    let q := s.part p
    let f := match q.frame with
      | .idle => 0
      | .running => 1
      | .quiet _ => 2
    q.plog + f * 2 ^ 4 + p * 2 ^ 8 + 2 ^ 11 + (if f = 0 then q.idx else (s.now - q.begun) % 2 ^ q.plog) * 2 ^ 16

/-- BENCH_CH, words +0x0 and +0x8 (the table of R469). -/
def chanWord (x : Chan) : Nat :=
  x.state + x.ctx * 2 ^ 4 + x.dst * 2 ^ 7 + x.dq * 2 ^ 16 + x.conn * 2 ^ 20 + x.nslot * 2 ^ 26 + x.size * 2 ^ 33 + x.maxu * 2 ^ 36 +
    x.toexp * 2 ^ 42

/-- The register at offset `o` (a multiple of 8) of bench `b`'s control block; an offset no table lists reads 0. -/
def benchRead (s : State) (b o : Nat) : Dword :=
  let x := s.bench b
  let lead := match partOf s b with
    | some p => if leadOf (s.part p) = b then some p else none
    | none => none
  let n : Nat → Dword := BitVec.ofNat 64
  if o = 0x4408 then
    n ((List.range 4).foldl (fun v c => v + (coreSamples s (4 * b + c)).2.length * 2 ^ (2 * c)) 0)
  else if 0x4500 ≤ o ∧ o < 0x4900 ∧ o % 0x40 = 0x18 then
    let cnt := counterCount (x.r (o - 8))
    n (if cnt = 0 then 0 else counterCount (x.r (o - 16)) / cnt)
  else if o = 0x4A00 ∧ lead = none then 0
  else if o = 0x4A08 then
    match lead with
    | some p => n ((s.part p).fn + (s.part p).epoch * 2 ^ 32)
    | none => 0
  else if o = 0x5000 then n (patctl s b)
  else if o = 0x5008 then n (oqOcc s b + bits (x.r o).toNat 14 8 * 2 ^ 8)
  else if 0x5400 ≤ o ∧ o < 0x5600 then tblGet (zeros 64) x.conns ((o - 0x5400) / 8)
  else if o = 0x6328 then n (mbOcc x)
  else if 0x7000 ≤ o ∧ o < 0x7400 then
    let r := tblGet (zeros 128) (x.ring ((o - 0x7000) / 0x100)).recs (o % 0x100 / 16)
    n (r.toNat / 2 ^ (o % 16 * 8))
  else if 0x7400 ≤ o ∧ o < 0x7420 then
    let q := x.ring ((o - 0x7400) / 8)
    n (q.head + q.tail * 2 ^ 16 + b2n q.ovf * 2 ^ 32 + b2n q.en * 2 ^ 33)
  else if o = 0x7540 then n (x.watches.length + bits (x.r o).toNat 15 8 * 2 ^ 8)
  else if 0x7800 ≤ o ∧ o < 0x7C00 then
    let q := x.queue ((o - 0x7800) / 16)
    if o % 16 = 0 then n (queueWord q) else q.tail ++ q.head
  else if 0x7C00 ≤ o ∧ o < 0x8000 then
    let h := x.chan ((o - 0x7C00) / 16)
    if o % 16 = 0 then n (chanWord h) else h.khead ++ h.tail
  else if 0x8000 ≤ o then tblGet (zeros 64) x.pattern ((o - 0x8000) / 8)
  else x.r o

/-- BENCH_PVSEL (R109, R110): NEXT, or BADSEL for a variant the package does not carry. -/
def pvselWrite (b v mask : Nat) (s : State) : State :=
  match partOf s b with
  | none => s
  | some p =>
    let q := s.part p
    if leadOf q ≠ b then s
    else
      let old := ((s.bench b).r 0x4A00).toNat
      let old := if bit mask 16 && bit v 16 then setBits old 16 16 0 else old
      let nvar := if q.cur = 0 then 0 else (q.prog (q.cur - 1)).nvar
      let new := if bit mask 0 = false then old
        else if v % 8 < nvar then setBits old 2 0 (v % 8)
        else setBits old 16 16 1
      s.updBench b (fun x => x.setR 0x4A00 (BitVec.ofNat 64 new))

/-- BENCH_ASY_CTRL.CLR: every slot's statistics, BENCH_ASY_DROP and every core's queue are cleared; ESC, a setting, stays (R107). -/
def assayClear (b : Nat) (s : State) : State :=
  let s1 := s.updBench b (fun x =>
    (List.range 16).foldl (fun x i => ((x.setR (0x4500 + i * 0x40) 0).setR (0x4508 + i * 0x40) 0).setR (0x4510 + i * 0x40) 0)
      (x.setR 0x4410 0))
  forAll (List.range 4) (fun c s1 => s1.updCore (4 * b + c) (fun k => { k with samplesQ := (coreSamples s (4 * b + c)).1 })) s1

/-- The bits of `mask` replaced. -/
def mergeBits (old v mask : Nat) : Dword := BitVec.ofNat 64 ((old &&& (2 ^ 64 - 1 - mask)) ||| (v &&& mask))

/-- A write of the bits of `mask` of the register at offset `o`. -/
def benchWrite (b o v mask : Nat) (s : State) : State :=
  let x := s.bench b
  let old := (x.r o).toNat
  let put := fun (field : Nat) => s.updBench b (fun x => x.setR o (mergeBits old v (mask &&& field)))
  if benchCounter o then (if bit mask 62 && bit v 62 then s.updBench b (fun x => x.setR o 0) else s)
  else if o = 0x4400 then
    let s1 := put 1
    if bit mask 1 && bit v 1 then assayClear b s1 else s1
  else if 0x4500 ≤ o ∧ o < 0x4900 ∧ o % 0x40 = 0x20 then put 0xFF
  else if o = 0x4A00 then pvselWrite b v mask s
  else if o = 0x6400 then put (2 ^ 48 - 1)
  else if o = 0x6408 then put (2 ^ 40 - 1)
  else if o = 0x6410 then (if bit mask 0 then rngWrite b (v % 2 ^ 32) s else s)
  else if o = 0x6600 then
    (if bit mask 63 && bit v 63 then s.updBench b (fun x => x.setR o (BitVec.ofNat 64 (setBits (setBits old 63 63 0) 53 53 0))) else s)
  else if 0x7400 ≤ o ∧ o < 0x7420 then
    s.updBench b (fun x => x.updRing ((o - 0x7400) / 8) (fun q =>
      { q with tail := if bit mask 16 then bits v 31 16 else q.tail
               ovf := q.ovf && !(bit mask 32 && bit v 32)
               en := if bit mask 33 then bit v 33 else q.en }))
  else if 0x7800 ≤ o ∧ o < 0x7C00 ∧ o % 16 = 0 then
    let i := (o - 0x7800) / 16
    queueWrite (4 * b + i / 16) (i % 16) v mask s
  else s

/-! ## The other blocks -/

/-- PORT_STAT (the table of R366). -/
def portStat (s : State) (d : Nat) : Nat :=
  let own := match memOwner s d with
    | some p => 2 + p * 4
    | none => 0
  b2n (memMappedOut s d) + own + ((s.port d).replies.filter (·.slot)).length * 2 ^ 8 + bits ((s.port d).r 0).toNat 22 16 * 2 ^ 16

/-- LINK_STAT (the table of R526); bit 0 of the held word is UP. -/
def linkStat (s : State) (w : Nat) : Nat :=
  let own := match findBelow 8 (fun p => ownsWelt (s.part p) w) with
    | some p => 4 + p * 8
    | none => 0
  ((s.welt w).r 0).toNat % 2 + b2n (bit s.boot.weltOut w) * 2 + own

/-- LINK_XCFG (the table of R526). -/
def xcfg (s : State) : Nat :=
  s.boot.etype + s.boot.vid * 2 ^ 16 + s.boot.pcp * 2 ^ 28 + s.boot.rto * 2 ^ 32 + s.boot.retryMax * 2 ^ 48

/-- A word of LINK_STRn (R505). -/
def streamWord (x : Stream) (o : Nat) : Nat :=
  if o = 0x00 then x.state + x.part * 2 ^ 3 + x.planes * 2 ^ 6 + x.peer * 2 ^ 14 + x.pstr * 2 ^ 28 + x.tally * 2 ^ 42
  else if o = 0x08 then x.wbase + x.sbench * 2 ^ 48
  else if o = 0x10 then x.wlen
  else if o = 0x18 then x.conn
  else if o = 0x20 then x.next % 2 ^ 32 + x.acked % 2 ^ 32 * 2 ^ 32
  else if o = 0x28 then x.bytes
  else if o = 0x30 then x.retx % 2 ^ 32 + x.fwhy * 2 ^ 32
  else 0

/-- The profile cap in W (R591). -/
def profileCap (p : Nat) : Nat := if p = 0 then 750 else if p = 1 then 1050 else 1400

/-- C, the cap in force (R594). -/
def capNow (s : State) : Nat := min (profileCap s.pwr.profile) s.pwr.hostCap

/-- The programs that are loaded, as (partition, slot). -/
def loadedProgs (s : State) : List (Nat × Nat) :=
  (List.range 8).flatMap (fun p => if (s.part p).live then
    ((List.range 16).filter (fun i => decide (((s.part p).prog i).js ≠ 0))).map (fun i => (p, i)) else [])

/-- The point of the lowest clock ceiling among the programs `l` (R28): the slowest of their 3-bit codes; 0 for
none. -/
def lowestCeil (s : State) (l : List (Nat × Nat)) : Nat := l.foldl (fun m p => max m (((s.part p.1).prog p.2).ceil % 8)) 0

/-- The point of the lowest ceiling of the programs admitted and not stopped (R28): loaded, and their last job not ended. -/
def ceilNow (s : State) : Nat := lowestCeil s ((loadedProgs s).filter (fun q => decide (((s.part q.1).prog q.2).js ≠ 4)))

/-- FMN_PWR_STAT (R610). -/
def pwrStat (s : State) : Nat :=
  s.pwr.op + b2n s.pwr.fixed * 2 ^ 3 + s.pwr.fixOp * 2 ^ 4 + s.pwr.profile * 2 ^ 8 + s.pwr.src * 2 ^ 10 + capNow s * 2 ^ 16 +
    ceilNow s * 2 ^ 27 + s.pwr.wstate * 2 ^ 32

/-- A register of the power manager's block (R610). -/
def pwrRead (s : State) (o : Nat) : Dword :=
  if o = 0x000 then BitVec.ofNat 64 (pwrStat s)
  else if o = 0x008 then BitVec.ofNat 64 (s.pwr.vin + s.pwr.iin * 2 ^ 16 + s.pwr.pin * 2 ^ 32)
  else if o = 0x010 then BitVec.ofNat 64 s.pwr.ialarm
  else if o = 0x018 then BitVec.ofNat 64 (s.pwr.tmax + s.pwr.tmean * 2 ^ 8 + b2n s.pwr.tripped * 2 ^ 16)
  else tblGet (zeros 64) s.pwr.reg o

/-- A register of the trace block (R707). -/
def trcRead (s : State) (o : Nat) : Dword :=
  if o = 0x000 then BitVec.ofNat 64 s.tb
  else if o = 0x008 then BitVec.ofNat 64 s.board.syncTb
  else if o = 0x010 then s.trc.ctl
  else if o = 0x018 then BitVec.ofNat 64 (s.trc.base + s.trc.slog * 2 ^ 48)
  else if o = 0x020 then BitVec.ofNat 64 (s.trc.off % 2 ^ 27 + s.trc.wraps % 2 ^ 32 * 2 ^ 32)
  else if o = 0x028 then BitVec.ofNat 64 (b2n s.trc.stopped)
  else tblGet (zeros 64) s.trc.reg o

/-- The blocks of the register range. -/
inductive Blk where
  | bench (b o : Nat)
  | port (d o : Nat)
  | welt (w o : Nat)
  | xcfg
  | stream (i o : Nat)
  | pwr (o : Nat)
  | trc (o : Nat)
  | none
  deriving DecidableEq, Repr

/-- The block and offset of a module address, a multiple of 8. -/
def blockOf (a : Nat) : Blk :=
  if 0xF00001000000 ≤ a ∧ a < 0xF00001800000 then .bench ((a - 0xF00001000000) / 0x10000) (a % 0x10000)
  else if 0xF00002000000 ≤ a ∧ a < 0xF00002010000 then .port ((a - 0xF00002000000) / 0x1000) (a % 0x1000)
  else if 0xF00003000000 ≤ a ∧ a < 0xF00003008000 then .welt ((a - 0xF00003000000) / 0x1000) (a % 0x1000)
  else if a = 0xF00003008000 then .xcfg
  else if 0xF00003100000 ≤ a ∧ a < 0xF00003200000 then .stream ((a - 0xF00003100000) / 0x40) (a % 0x40)
  else if 0xF00004000000 ≤ a ∧ a < 0xF00004001000 then .pwr (a % 0x1000)
  else if 0xF00005000000 ≤ a ∧ a < 0xF00005001000 then .trc (a % 0x1000)
  else .none

/-- Read the 64-bit register at a module address. -/
def blkRead (s : State) (a : Nat) : Dword :=
  match blockOf a with
  | .bench b o => benchRead s b o
  | .port d o => if o = 0 then BitVec.ofNat 64 (portStat s d) else (s.port d).r o
  | .welt w o => if o = 0 then BitVec.ofNat 64 (linkStat s w) else (s.welt w).r o
  | .xcfg => BitVec.ofNat 64 (xcfg s)
  | .stream i o => BitVec.ofNat 64 (streamWord (s.stream i) o)
  | .pwr o => pwrRead s o
  | .trc o => trcRead s o
  | .none => 0

/-- The low word of FMN_TB read by an agent latches the high word for its next read of offset 0x004 (R707). -/
def tbLatch (agent : Nat) (s : State) : State :=
  { s with trc := { s.trc with latched := tblSet nats s.trc.latched agent (s.tb / 2 ^ 32 % 2 ^ 32) } }

/-- A read of the low half of BENCH_RNG_CMD collects the final status of the range operation (R423). -/
def collectRng (a : Nat) (s : State) : State :=
  match blockOf a with
  | .bench b 0x6410 => s.updBench b (fun x => { x with rngDone := false })
  | _ => s

/-- Read a 32-bit half. -/
def blkRead32 (agent a : Nat) (s : State) : State × Word :=
  if a = 0xF00005000000 then (tbLatch agent s, word s.tb)
  else if a = 0xF00005000004 then (s, word (tblGet nats s.trc.latched agent))
  else
    let v := blkRead s (a / 8 * 8)
    (collectRng a s, if a % 8 = 0 then v.extractLsb' 0 32 else v.extractLsb' 32 32)

/-- Write the bits of `mask` of the register at a module address. Fields that only a mailbox command writes, and read-only
fields, do not change (R15). -/
def blkWrite (a v mask : Nat) (s : State) : State :=
  let clr := bit mask 62 && bit v 62
  match blockOf a with
  | .bench b o => benchWrite b o v mask s
  | .port d o =>
    if clr && ((decide (0x008 ≤ o) && decide (o ≤ 0x020)) || decide (o = 0x030)) then s.updPort d (fun x => x.setR o 0) else s
  | .welt w o => if clr && decide (0x008 ≤ o) && decide (o ≤ 0x060) then s.updWelt w (fun x => x.setR o 0) else s
  | .pwr o =>
    if clr && decide (0x020 ≤ o) && decide (o ≤ 0x038) then
      { s with pwr := { s.pwr with reg := tblSet (zeros 64) s.pwr.reg o 0 } } else s
  | .trc o =>
    if clr && decide (0x030 ≤ o) && decide (o ≤ 0x040) then
      { s with trc := { s.trc with reg := tblSet (zeros 64) s.trc.reg o 0 } } else s
  | .xcfg => s
  | .stream _ _ => s
  | .none => s

/-- A thread's STW to the register range (R233): from S level, writes outside bench control blocks have no effect (R610). -/
def blkStore (t : Thread) (a : Nat) (v : Word) (s : State) : State :=
  let inBench := decide (0xF00001000000 ≤ a) && decide (a < 0xF00001800000)
  if inBench || decide ((s.ctx t).lvl = .f) then
    if a % 8 = 0 then blkWrite a v.toNat (2 ^ 32 - 1) s else blkWrite (a - 4) (v.toNat * 2 ^ 32) (2 ^ 64 - 2 ^ 32) s
  else s

/-! ## The commands that are one register write -/

/-- The write of system register `n` of thread `t` by `w`: a thread of the same core, by WRSR or WRTSR, or the Foreman at F
permission, whose write of a read-only register has no effect (R15, R240) and whose write of 1 to CORE_IPEND.FMN posts its message
(R301; DEDUCED, log entry 154). A write that a thread's level does not permit, or that is refused, raises the fault at the thread;
one that must wait changes nothing yet. When the writer is held by exactly this write, it completes it. -/
def writeSr (w : Writer) (t : Thread) (n : Nat) (v : Word) (mine : Wait → Bool) (s : State) : State :=
  match srAccess n with
  | none => s
  | some p =>
    match w with
    | .foreman =>
      if p.f < 2 then s
      else if n = 0x125 then (if v.getLsbD 7 then setPend t.core 7 s else s)
      else match srWrite t n v s with
      | .ok s1 => s1
      | .refused => s
      | .wait _ => s
    | .thread u =>
      if u.core ≠ t.core then s
      else if mine (s.ctx u).wait then
        match srWrite t n v s with
        | .ok s1 => completeHeld u [] s1
        | .refused => s
        | .wait _ => s
      else if canIssue s u = false then s
      else if u ≠ t ∧ p.perThread ∧ (s.ctx u).lvl = .u then fault u 0x04 (word 0xED) (s.ctx u).pc false s
      else if p.perThread ∧ u ≠ t ∧ (tsrOk s u t.ctx n).isNone then fault u 0x03 (syllables s u 0xED none) (s.ctx u).pc false s
      else if p.at_ (s.ctx u).lvl < 2 then fault u 0x04 (privInfo (if u = t then 0x3F else 0xED) n) (s.ctx u).pc false s
      else match srWrite t n v s with
        | .ok s1 => s1
        | .refused => fault u 0x09 (word n) (s.ctx u).pc false s
        | .wait _ => s

def notMine : Wait → Bool := fun _ => false

/-- CORE_TCTL_END_WRITE (R273). -/
def execCoreTctlEndWrite (w : Writer) (t : Thread) (v : Word) (s : State) : Ans := .next (writeSr w t 0x04A v notMine s)
/-- CORE_TPC_WRITE (R272). -/
def execCoreTpcWrite (w : Writer) (t : Thread) (v : Word) (s : State) : Ans := .next (writeSr w t 0x043 v notMine s)
/-- CORE_JTO_WRITE (R273). -/
def execCoreJtoWrite (w : Writer) (t : Thread) (v : Word) (s : State) : Ans := .next (writeSr w t 0x04C v notMine s)
/-- STACK_AREA_WRITE: registers 0x000 to 0x005 (R177). -/
def execStackAreaWrite (w : Writer) (t : Thread) (n : Nat) (v : Word) (s : State) : Ans :=
  .next (if n ≤ 5 then writeSr w t n v notMine s else s)
/-- SAVE_AREA_WRITE: registers 0x044 to 0x049 (R289). -/
def execSaveAreaWrite (w : Writer) (t : Thread) (n : Nat) (v : Word) (s : State) : Ans :=
  .next (if 0x044 ≤ n ∧ n ≤ 0x049 then writeSr w t n v notMine s else s)
/-- CORE_TFMT_WRITE: register TFMTn, after the operations that name it (R129). -/
def execCoreTfmtWrite (w : Writer) (t : Thread) (n : Nat) (v : Word) (s : State) : Ans :=
  .next (if n < 4 then writeSr w t (0x024 + n) v (fun x => decide (x = .tfmt t.ctx (0x024 + n) v)) s else s)
/-- CORE_IMODE_WRITE (R258). -/
def execCoreImodeWrite (w : Writer) (core : Nat) (v : Word) (s : State) : Ans := .next (writeSr w ⟨core, 0⟩ 0x120 v notMine s)
/-- CORE_SHMODE_WRITE (R277). -/
def execCoreShmodeWrite (w : Writer) (core : Nat) (v : Word) (s : State) : Ans := .next (writeSr w ⟨core, 0⟩ 0x12B v notMine s)
/-- SHARE_CLASS_WRITE: registers 0x12C to 0x137 (R281). -/
def execShareClassWrite (w : Writer) (core n : Nat) (v : Word) (s : State) : Ans :=
  .next (if 0x12C ≤ n ∧ n ≤ 0x137 then writeSr w ⟨core, 0⟩ n v notMine s else s)
/-- FAULT_RING_WRITE: CORE_FRBASE or CORE_FRCTL (R304). -/
def execFaultRingWrite (w : Writer) (core n : Nat) (v : Word) (s : State) : Ans :=
  .next (if n = 0x127 ∨ n = 0x128 then writeSr w ⟨core, 0⟩ n v notMine s else s)
/-- CORE_GWIN_WRITE: CORE_GWINn, after the accesses through it (R231). -/
def execCoreGwinWrite (w : Writer) (core n : Nat) (v : Word) (s : State) : Ans :=
  .next (if n < 4 then writeSr w ⟨core, 0⟩ (0x104 + n) v (fun x => decide (x = .gwin n v)) s else s)
/-- CORE_SVBASE_WRITE: CORE_SVBASE or CORE_FVBASE (R288). -/
def execCoreSvbaseWrite (w : Writer) (core n : Nat) (v : Word) (s : State) : Ans :=
  .next (if n = 0x122 ∨ n = 0x123 then writeSr w ⟨core, 0⟩ n v notMine s else s)

/-- May `w` write registers at module address `a` (R93, R233)? -/
def mayWriteBlk (s : State) (w : Writer) (a : Nat) : Bool :=
  match w with
  | .foreman => true
  | .thread t => canIssue s t && (decide ((s.ctx t).lvl = .f) ||
      (match blockOf a with
        | .bench b _ => mayWrite s w b
        | _ => false))

/-- A write of a register by address: every bit of a system register or of a 64-bit register. -/
def writeReg (w : Writer) (a : RegAddr) (v : Dword) (s : State) : State :=
  match a with
  | .sys t n => writeSr w t n (v.extractLsb' 0 32) notMine s
  | .blk a => if a % 8 = 0 ∧ mayWriteBlk s w a then blkWrite a v.toNat (2 ^ 64 - 1) s else s

/-- REGISTER_WRITE (R15). -/
def execRegisterWrite (w : Writer) (a : RegAddr) (v : Dword) (s : State) : Ans := .next (writeReg w a v s)

/-- COUNTER_CLEAR: CLR written to a counter (R93); counters lie in the register blocks. -/
def execCounterClear (w : Writer) (a : RegAddr) (s : State) : Ans :=
  .next (match a with
    | .sys _ _ => s
    | .blk _ => writeReg w a (BitVec.ofNat 64 (2 ^ 62)) s)

/-- BENCH_PVSEL_WRITE (R110). -/
def execBenchPvselWrite (w : Writer) (bench : Nat) (v : Dword) (s : State) : Ans :=
  .next (if mayWrite s w bench && decide (bench < 128) then pvselWrite bench v.toNat (2 ^ 64 - 1) s else s)

/-- ASSAY_CLEAR (R107). -/
def execAssayClear (w : Writer) (bench : Nat) (s : State) : Ans :=
  .next (if mayWrite s w bench && decide (bench < 128) then assayClear bench s else s)

/-- CORE_CYC_LO_READ: the read latches the high word for the thread (R243). -/
def execCoreCycLoRead (t : Thread) (s : State) : Ans := .next (if canIssue s t then (srRead t t 0x102 s).1 else s)

/-- FMN_TB_READ: the read of the low word latches the high word for the agent (R707). -/
def execFmnTbRead (agent : Nat) (s : State) : Ans := .next (tbLatch agent s)

/-- RDSR (R239). -/
def execRdsr (t : Thread) (s : State) : Ans := .next (rdsr t s)
/-- WRSR (R239). -/
def execWrsr (t : Thread) (s : State) : Ans := .next (wrsr t s)
/-- RDTSR (R242). -/
def execRdtsr (t : Thread) (s : State) : Ans := .next (rdtsr t s)
/-- WRTSR (R242). -/
def execWrtsr (t : Thread) (s : State) : Ans := .next (wrtsr t s)

end Sys2Proof.Machine
end

