-- ==== Sys2Proof/Machine/Access.lean ====
section
/-! DEFINITION. The scalar memory instructions, TAS, LDR and STC, and the arrival of the data that cached and uncached loads
wait for (R191 to R198, R223 to R234, R393 to R401, R437). -/

namespace Sys2Proof.Machine

/-- The value an `n`-byte load pushes. -/
def extend (n : Nat) (sgn : Bool) (l : List Byte) : Word :=
  if sgn then BitVec.ofInt 32 (signed (8 * n) (leNat l)) else word (leNat l)

/-- The 32-bit view of the line at an address. -/
def lineView (a : Nat) : Word := word (a / 64 * 64)

/-- A load from local or bench memory by an instruction of thread `t` at view address `a`, module address `m`. -/
def nearLoad (t : Thread) (a m n : Nat) (sgn : Bool) (s : State) : Out :=
  match uncorrectable s m n with
  | some l => .exc (memCont t.core l (some t) s) 0x0D (lineView a)
  | none => pushes (noteRead m n s) [extend n sgn (memBytes s.mem m n)]

/-- The body of a load. -/
def loadBody (t : Thread) (n : Nat) (sgn : Bool) (a : Nat) (s : State) : Out :=
  if misaligned a n then .exc s 0x05 (word a)
  else match resolve s t a n false (decide (n = 4)) with
    | none => .exc s 0x06 (word a)
    | some (.near m _) => nearLoad t a m n sgn s
    | some (.far m true) => .held (uncachedLoad t m s) (.load m n sgn none)
    | some (.far m false) =>
      match cachedLoad (benchOf t.core) m n s with
      | (some l, s1) => pushes s1 [extend n sgn l]
      | (none, s1) => .held s1 (.load m n sgn (fillOf s1 (benchOf t.core) (m / 64)))
    | some (.reg m) => pushes (blkRead32 (t.core * 8 + t.ctx) m s).1 [(blkRead32 (t.core * 8 + t.ctx) m s).2]

/-- A load of `n` bytes: ( addr -- v ). -/
def loadInstr (t : Thread) (op n : Nat) (sgn : Bool) (s : State) : State :=
  issue t op none 1 ⟨1, 1, 0, 0⟩ (fun _ => none) (fun s a _ => loadBody t n sgn (arg a 0).toNat s) s

/-- The body of a store of the low `n` bytes of `v`. -/
def storeBody (t : Thread) (n : Nat) (v : Word) (a : Nat) (s : State) : Out :=
  let l := leBytes v.toNat n
  if misaligned a n then .exc s 0x05 (word a)
  else match resolve s t a n true (decide (n = 4)) with
    | none => .exc s 0x06 (word a)
    | some (.near m _) => pushes (write m l s) []
    | some (.far m true) => pushes (uncachedStore t m l s) []
    | some (.far m false) =>
      match cachedStore t m l s with
      | some s1 => pushes s1 []
      | none => .held s (.store m l (coreNow s))
    | some (.reg m) => pushes (blkStore t m v s) []

/-- A store of `n` bytes: ( v addr -- ). -/
def storeInstr (t : Thread) (op n : Nat) (s : State) : State :=
  issue t op none 1 ⟨2, 0, 0, 0⟩ (fun _ => none) (fun s a _ => storeBody t n (arg a 1) (arg a 0).toNat s) s

/-- LDW (R197). -/
def execLdw (t : Thread) (s : State) : Ans := .next (loadInstr t 0x2C 4 false s)
/-- STW (R197). -/
def execStw (t : Thread) (s : State) : Ans := .next (storeInstr t 0x2D 4 s)
/-- LDH: sign-extended (R192). -/
def execLdh (t : Thread) (s : State) : Ans := .next (loadInstr t 0x2E 2 true s)
/-- LDHU: zero-extended (R192). -/
def execLdhu (t : Thread) (s : State) : Ans := .next (loadInstr t 0x2F 2 false s)
/-- STH: v[15:0] (R192). -/
def execSth (t : Thread) (s : State) : Ans := .next (storeInstr t 0x30 2 s)
/-- LDB: sign-extended (R192). -/
def execLdb (t : Thread) (s : State) : Ans := .next (loadInstr t 0x31 1 true s)
/-- LDBU: zero-extended (R192). -/
def execLdbu (t : Thread) (s : State) : Ans := .next (loadInstr t 0x32 1 false s)
/-- STB: v[7:0] (R192). -/
def execStb (t : Thread) (s : State) : Ans := .next (storeInstr t 0x33 1 s)

/-- The address of a word of local memory that TAS, LDR and STC take: the faults of R197 and R198, with the permissions
`kinds` of R236. -/
def localWord (s : State) (t : Thread) (a : Nat) (kinds : List Nat) : Option (Nat × Word) :=
  if misaligned a 4 then some (0x05, word a)
  else if 0x100000 ≤ a ∨ kinds.any (fun k => !permitted (s.ctx t) k a 4) then some (0x06, word a)
  else none

/-- TAS: ( addr -- old ): the old word, and 1 written, in one access (R198). -/
def tas (t : Thread) (s : State) : State :=
  issue t 0x34 none 1 ⟨1, 1, 0, 0⟩ (fun _ => none)
    (fun s a _ =>
      let addr := (arg a 0).toNat
      match localWord s t addr [0, 1] with
      | some (c, i) => .exc s c i
      | none =>
        match nearLoad t addr (localBase t.core + addr) 4 false s with
        | .ok e => .ok { e with s := write (localBase t.core + addr) [1, 0, 0, 0] e.s }
        | o => o) s

/-- LDR and STC without the service-mode bit are illegal (R206, R223). -/
def serviceOnly (t : Thread) (op : Nat) (s : State) : Option (Nat × Word) :=
  if svc s t.core then none else some (0x03, syllables s t op none)

/-- LDR: ( addr -- v ): load and reserve the line (R224). -/
def ldr (t : Thread) (s : State) : State :=
  issue t 0xE8 none 1 ⟨1, 1, 0, 0⟩ (serviceOnly t 0xE8)
    (fun s a _ =>
      let addr := (arg a 0).toNat
      match localWord s t addr [0] with
      | some (c, i) => .exc s c i
      | none =>
        match nearLoad t addr (localBase t.core + addr) 4 false s with
        | .ok e => .ok { e with s := e.s.updCtx t (fun x => { x with resv := some (addr / 64) }) }
        | o => o) s

/-- STC: ( v addr -- ok ): stores when the reservation covers addr; clears it (R224). -/
def stc (t : Thread) (s : State) : State :=
  issue t 0xE9 none 1 ⟨2, 1, 0, 0⟩ (serviceOnly t 0xE9)
    (fun s a _ =>
      let addr := (arg a 0).toNat
      match localWord s t addr [1] with
      | some (c, i) => .exc s c i
      | none =>
        let ok := decide ((s.ctx t).resv = some (addr / 64))
        let s1 := s.updCtx t (fun x => { x with resv := none })
        pushes (if ok then write (localBase t.core + addr) (leBytes (arg a 1).toNat 4) s1 else s1) [truth ok]) s

def execTas (t : Thread) (s : State) : Ans := .next (tas t s)
def execLdr (t : Thread) (s : State) : Ans := .next (ldr t s)
def execStc (t : Thread) (s : State) : Ans := .next (stc t s)

/-! ## Data that loads wait for -/

/-- A waiting load takes a containment fault (R438): recorded at its bench, with the 32-bit view of its line. `link`: a link damaged
the reply (R439). -/
def loadFault (t : Thread) (line : Nat) (link : Bool) (s : State) : State :=
  let src := if link then 1 else if 0x010000000000 ≤ line * 64 then 4 else 0
  let view := lineView ((operands s t 1).headD 0).toNat
  faultHeld t 0x0D view (recordCont t.core src (line * 64) (some t) s)

/-- The threads of a bench. -/
def threadsOf (b : Nat) : List Thread := (List.range 4).flatMap (fun i => (List.range 8).map (fun j => (⟨4 * b + i, j⟩ : Thread)))

/-- Cached loads that wait for fill `f` get its bytes, or the fault. -/
def wakeLoads (b : Nat) (f : Fill) (data : List Byte) (s : State) : State :=
  forAll (threadsOf b) (fun t s =>
    match (s.ctx t).wait with
    | .load m n sgn (some k) =>
      if k = f.serial then
        if f.err then loadFault t f.line f.link s else completeHeld t [extend n sgn (slice data (m % 64) n)] s
      else s
    | _ => s) s

/-- FILL_COMPLETE: a fill whose data has reached the bench goes into its way, with the bytes the bench has stored since over it (R399),
and the loads that wait for it return (R392, R393). A fill with uncorrectable data fills nothing (R438). -/
def fillComplete (b : Nat) (s : State) : State :=
  match (s.bench b).fills.find? (fun f => f.data.isSome) with
  | none => s
  | some f =>
    let data := overlay (f.data.getD []) f.laid f.laidMask
    let s1 := s.updBench b (fun x => { x with fills := x.fills.filter (fun g => decide (g.serial ≠ f.serial)) })
    if f.err then wakeLoads b f [] s1
    else
      let put := !f.drop && decide (f.way < fillWays s b)
      let s2 := if put then actSr b (s1.updBench b (fun x =>
        { x with lines := { set := setOf f.line, way := f.way, line := f.line, data := data, bad := [], born := f.sentAt } ::
            x.lines.filter (fun l => !(decide (l.set = setOf f.line) && decide (l.way = f.way)) && decide (l.line ≠ f.line)) })) else s1
      wakeLoads b f data s2

def execFillComplete (bench : Nat) (s : State) : Ans := .next (fillComplete bench s)

/-- The reply of a context's uncached load has reached the bench: stage 4, or 5 or 6 with an error. -/
def uncachedReply (s : State) (t : Thread) : Option UItem :=
  (s.bench (benchOf t.core)).uitems.find? (fun u => !u.write && decide (u.core = t.core) && decide (u.ctx = t.ctx) && decide (4 ≤ u.stage))

/-- GLOBAL_LOAD_RETURN: the value of an uncached load is pushed (R363), or its thread takes the containment fault (R438). -/
def globalLoadReturn (t : Thread) (s : State) : State :=
  match uncachedReply s t with
  | none => s
  | some u =>
    let s1 := s.updBench (benchOf t.core) (fun x => { x with uitems := x.uitems.filter (fun v => decide (v.serial ≠ u.serial)) })
    match (s.ctx t).wait with
    | .load m n sgn none =>
      if u.stage = 4 then completeHeld t [extend n sgn (slice u.data (m % 64) n)] s1 else loadFault t u.line (decide (u.stage = 6)) s1
    | _ => s1

def execGlobalLoadReturn (t : Thread) (s : State) : Ans := .next (globalLoadReturn t s)

end Sys2Proof.Machine
end

