-- ==== Sys2Proof/Machine/Arith.lean ====
section
/-! DEFINITION. Number formats and narrow arithmetic: element layouts and values, exact sums and products, rounding,
conversion, the blocked formats, and QNT's block (R40 to R88). Every value is exact until the one rounding its rule names. -/

namespace Sys2Proof.Machine

/-! ## Exact values -/

/-- A value: a NaN, an infinity, or ± m × 2^e (a zero keeps its sign). -/
inductive Num where
  | nan
  | inf (neg : Bool)
  | fin (neg : Bool) (m : Nat) (e : Int)
  deriving DecidableEq, Repr

def Num.zero : Num := .fin false 0 0

/-- An integer as a value. -/
def numInt (i : Int) : Num := .fin (decide (i < 0)) i.natAbs 0

/-- m × 2^e as a multiple of 2^lo, for lo ≤ e. -/
def align (m : Nat) (e lo : Int) : Nat := m * 2 ^ (e - lo).toNat

def signedNat (neg : Bool) (m : Nat) : Int := if neg then -(m : Int) else m

/-- The exact sum, with IEEE 754's infinities and zero signs. -/
def Num.add : Num → Num → Num
  | .nan, _ => .nan
  | _, .nan => .nan
  | .inf a, .inf b => if a = b then .inf a else .nan
  | .inf a, .fin _ _ _ => .inf a
  | .fin _ _ _, .inf b => .inf b
  | .fin n1 m1 e1, .fin n2 m2 e2 =>
    let lo := min e1 e2
    let i := signedNat n1 (align m1 e1 lo) + signedNat n2 (align m2 e2 lo)
    .fin (if i = 0 then n1 && n2 else decide (i < 0)) i.natAbs lo

/-- The exact product. -/
def Num.mul : Num → Num → Num
  | .nan, _ => .nan
  | _, .nan => .nan
  | .inf a, .inf b => .inf (a != b)
  | .inf a, .fin b m _ => if m = 0 then .nan else .inf (a != b)
  | .fin a m _, .inf b => if m = 0 then .nan else .inf (a != b)
  | .fin a m1 e1, .fin b m2 e2 => .fin (a != b) (m1 * m2) (e1 + e2)

def Num.neg : Num → Num
  | .nan => .nan
  | .inf a => .inf (!a)
  | .fin a m e => .fin (!a) m e

/-- Times 2^e. -/
def Num.scale (e : Int) : Num → Num
  | .fin n m f => .fin n m (f + e)
  | x => x

/-- A finite value that is not 0. -/
def Num.nonzero : Num → Bool
  | .fin _ m _ => decide (m ≠ 0)
  | _ => false

def Num.isInf : Num → Bool
  | .inf _ => true
  | _ => false

def Num.isFin : Num → Bool
  | .fin _ _ _ => true
  | _ => false

/-- m1 × 2^e1 ≤ m2 × 2^e2. -/
def leMag (m1 : Nat) (e1 : Int) (m2 : Nat) (e2 : Int) : Bool :=
  let lo := min e1 e2
  decide (align m1 e1 lo ≤ align m2 e2 lo)

/-- a ≤ b for values that are not NaN; −0 equals +0. -/
def Num.le : Num → Num → Bool
  | .nan, _ => false
  | _, .nan => false
  | .inf a, .inf b => a || !b
  | .inf a, .fin _ _ _ => a
  | .fin _ _ _, .inf b => !b
  | .fin n1 m1 e1, .fin n2 m2 e2 =>
    let lo := min e1 e2
    decide (signedNat n1 (align m1 e1 lo) ≤ signedNat n2 (align m2 e2 lo))

/-- The exponent of the leading bit of m × 2^e, m not 0. -/
def topExp (m : Nat) (e : Int) : Int := Nat.log2 m + e

/-! ## Rounding (R64) -/

/-- m × 2^e rounded to a multiple of 2^q: mode 0 RNE, 1 RTZ, 2 SR with the generator's 16 bits `r`. -/
def roundMag (mode r m : Nat) (e q : Int) : Nat :=
  if q ≤ e then align m e q
  else
    let w := 2 ^ (q - e).toNat
    let lo := m / w
    let rem := m % w
    let up :=
      if mode = 0 then decide (w < 2 * rem) || (decide (2 * rem = w) && decide (lo % 2 = 1))
      else if mode = 2 then decide (r < rem * 65536 / w)
      else false
    if up then lo + 1 else lo

/-! ## The formats (R40 to R49) -/

/-- Elements of a 64-byte row, K (R40). -/
def fmtK (f : Nat) : Nat :=
  match f with
  | 0x00 => 64
  | 0x01 => 64
  | 0x02 => 64
  | 0x03 => 64
  | 0x04 => 32
  | 0x05 => 32
  | 0x06 => 128
  | 0x07 => 128
  | 0x08 => 128
  | 0x09 => 128
  | 0x0A => 128
  | 0x0B => 256
  | 0x0C => 256
  | 0x0D => 320
  | 0x0E => 320
  | 0x0F => 512
  | 0x10 => 512
  | _ => 16

/-- Bits of an element; 0 for ternary, five to a byte (R40, R44, R47). -/
def fmtBits (f : Nat) : Nat :=
  if f = 0x0D ∨ f = 0x0E then 0 else 512 / fmtK f

/-- Operand classes (R40): 0 8-bit integer, 1 8-bit float, 2 16-bit float, 3 4-bit integer, 4 4-bit float, 5 4-bit blocked,
6 2-bit integer, 7 2-bit blocked, 8 ternary, 9 blocked ternary, 10 binary, 11 blocked binary, 12 none. -/
def fmtClass (f : Nat) : Nat :=
  match f with
  | 0x00 => 0
  | 0x01 => 0
  | 0x02 => 1
  | 0x03 => 1
  | 0x04 => 2
  | 0x05 => 2
  | 0x06 => 3
  | 0x07 => 3
  | 0x08 => 4
  | 0x09 => 5
  | 0x0A => 5
  | 0x0B => 6
  | 0x0C => 7
  | 0x0D => 8
  | 0x0E => 9
  | 0x0F => 10
  | 0x10 => 11
  | _ => 12

/-- Blocked formats (R50): a row of blocks of 32 with scales. -/
def fmtBlocked (f : Nat) : Bool := decide (f = 0x09) || decide (f = 0x0A) || decide (f = 0x0C) || decide (f = 0x0E) || decide (f = 0x10)

/-- Formats with sub-shifts and patches: B4I, B4F, B2I (R52, R83). -/
def fmtPatched (f : Nat) : Bool := decide (f = 0x09) || decide (f = 0x0A) || decide (f = 0x0C)

/-- F of a blocked format (R69). -/
def fmtF (f : Nat) : Nat := if f = 0x09 then 7 else if f = 0x0A then 6 else 1

/-- Classes that may use an INT32 accumulator (R42). -/
def intClass (c : Nat) : Bool := decide (c = 0) || decide (c = 3) || decide (c = 6) || decide (c = 8) || decide (c = 10)

/-- A floating format's exponent bits, mantissa bits, bias and largest finite magnitude code (R45, R49). -/
def floatOf (f : Nat) : Option (Nat × Nat × Nat × Nat) :=
  match f with
  | 0x02 => some (4, 3, 7, 0x7E)
  | 0x03 => some (5, 2, 15, 0x7B)
  | 0x04 => some (5, 10, 15, 0x7BFF)
  | 0x05 => some (8, 7, 127, 0x7F7F)
  | 0x08 => some (2, 1, 1, 7)
  | 0x0A => some (2, 1, 1, 7)
  | 0x11 => some (8, 23, 127, 0x7F7FFFFF)
  | _ => none

/-- The canonical NaN (R49); 0 for a format without one. -/
def canonNan (f : Nat) : Nat :=
  match f with
  | 0x02 => 0x7F
  | 0x03 => 0x7E
  | 0x04 => 0x7E00
  | 0x05 => 0x7FC0
  | 0x11 => 0x7FC00000
  | _ => 0

/-- The magnitude code of infinity (R49). -/
def infCode (f : Nat) : Option Nat :=
  match f with
  | 0x03 => some 0x7C
  | 0x04 => some 0x7C00
  | 0x05 => some 0x7F80
  | 0x11 => some 0x7F800000
  | _ => none

/-- The value of an element's code (R45 to R49). -/
def codeValue (f c : Nat) : Num :=
  match floatOf f with
  | some (eb, mb, bias, top) =>
    let w := eb + mb
    let neg := bit c w
    let mag := c % 2 ^ w
    if top < mag ∧ canonNan f ≠ 0 then (if infCode f = some mag then .inf neg else .nan)
    else if mag < 2 ^ mb then .fin neg mag (1 - (bias : Int) - mb)
    else .fin neg (mag % 2 ^ mb + 2 ^ mb) ((mag / 2 ^ mb : Nat) - (bias : Int) - mb)
  | none =>
    match f with
    | 0x01 => .fin false (c % 256) 0
    | 0x07 => .fin false (c % 16) 0
    | 0x0D => if c = 2 then numInt (-1) else numInt c
    | 0x0E => if c = 2 then numInt (-1) else numInt c
    | 0x0F => numInt (if c % 2 = 1 then -1 else 1)
    | 0x10 => numInt (if c % 2 = 1 then -1 else 1)
    | _ => numInt (signed (fmtBits f) c)

def byteAt (l : List Byte) (i : Nat) : Nat := (l.getD i 0).toNat

/-- The code of element `i` of a row (R44, R47). -/
def getCode (f : Nat) (row : List Byte) (i : Nat) : Nat :=
  let w := fmtBits f
  if w = 0 then byteAt row (i / 5) / 3 ^ (i % 5) % 3
  else if 8 ≤ w then leNat ((row.drop (w / 8 * i)).take (w / 8))
  else byteAt row (i * w / 8) / 2 ^ (i * w % 8) % 2 ^ w

/-- A ternary byte of 243 to 255 under element `i` (R47). -/
def badTernary (f : Nat) (row : List Byte) (i : Nat) : Bool := decide (fmtBits f = 0) && decide (242 < byteAt row (i / 5))

def setByte (l : List Byte) (i v : Nat) : List Byte := l.set i (BitVec.ofNat 8 v)

/-- Write the code of element `i`; the other digits of an invalid ternary byte are taken as 0 (R737). -/
def putCode (f : Nat) (row : List Byte) (i c : Nat) : List Byte :=
  let w := fmtBits f
  if w = 0 then
    let b := if 242 < byteAt row (i / 5) then 0 else byteAt row (i / 5)
    let p := 3 ^ (i % 5)
    setByte row (i / 5) (b - b / p % 3 * p + c * p)
  else if 8 ≤ w then (List.range (w / 8)).foldl (fun l k => setByte l (w / 8 * i + k) (c / 256 ^ k % 256)) row
  else setByte row (i * w / 8) (setBits (byteAt row (i * w / 8)) (i * w % 8 + w - 1) (i * w % 8) c)

/-! ## Rounding to a format (R64 to R67) -/

/-- ± m × 2^e rounded to floating format `f`: the magnitude code, which may pass the largest finite one. -/
def floatMag (mb bias mode r m : Nat) (e : Int) : Nat :=
  if m = 0 then 0
  else
    let qmin := 1 - (bias : Int) - mb
    let q := max (topExp m e - mb) qmin
    roundMag mode r m e q + (q - qmin).toNat * 2 ^ mb

/-- FP32 by RNE: the code, and whether a finite value overflowed (R56, R60). -/
def roundFp32 (sat : Bool) (x : Num) : Nat × Bool :=
  match x with
  | .nan => (0x7FC00000, false)
  | .inf n => (0x7F800000 + b2n n * 2 ^ 31, false)
  | .fin n m e =>
    let c := floatMag 23 127 0 0 m e
    if 0x7F7FFFFF < c then ((if sat then 0x7F7FFFFF else 0x7F800000) + b2n n * 2 ^ 31, true)
    else (c + b2n n * 2 ^ 31, false)

/-- An integer destination's range (R65). -/
def intRange (f : Nat) : Int × Int :=
  match f with
  | 0x01 => (0, 255)
  | 0x07 => (0, 15)
  | 0x0D => (-1, 1)
  | _ => (-(2 ^ (fmtBits f - 1) : Nat), (2 ^ (fmtBits f - 1) : Nat) - 1)

/-- The code of ternary digit −1, 0 or 1 (R47), or of an integer modulo its width. -/
def intCode (f : Nat) (i : Int) : Nat :=
  if f = 0x0D ∨ f = 0x0E then (if i < 0 then 2 else i.toNat) else wrap (fmtBits f) i

/-- Conversion to an unblocked destination (R64 to R67): none is the format fault of R66. `r`: the generator's bits in SR
mode. -/
def convert (f mode : Nat) (sat : Bool) (r : Nat) (x : Num) : Option Nat :=
  match floatOf f with
  | some (eb, mb, bias, top) =>
    let sgn := fun (n : Bool) => b2n n * 2 ^ (eb + mb)
    match x with
    | .nan => if canonNan f = 0 then none else some (canonNan f)
    | .inf n => (infCode f).map (fun c => c + sgn n)
    | .fin n m e =>
      let c := floatMag mb bias mode r m e
      if c ≤ top then some (c + sgn n)
      else if sat ∨ f = 0x08 ∨ f = 0x0A then some (top + sgn n)
      else match infCode f with
        | some i => some (i + sgn n)
        | none => some (canonNan f)
  | none =>
    match x with
    | .fin n m e =>
      if f = 0x0F ∨ f = 0x10 then some (b2n (n && decide (m ≠ 0)))
      else
        let i := signedNat n (roundMag mode r m e 0)
        let (lo, hi) := intRange f
        if lo ≤ i ∧ i ≤ hi then some (intCode f i)
        else if sat ∨ f = 0x0D then some (intCode f (if i < lo then lo else hi))
        else some (intCode f i)
    | _ => none

/-! ## The stochastic rounding generator (R71 to R75) -/

/-- One step: the 16 bits it returns and the new state (R72). -/
def srStep (st : Dword) : Nat × Dword :=
  let s := if st = 0 then 0x5EED000000000001#64 else st
  let s := s ^^^ (s <<< 13)
  let s := s ^^^ (s >>> 7)
  let s := s ^^^ (s <<< 17)
  (s.toNat / 2 ^ 48, s)

/-- The bits for one element written, and the state after it: a step in SR mode only (R73). -/
def draw (mode : Nat) (st : Dword) : Nat × Dword := if mode = 2 then srStep st else (0, st)

/-! ## Rows of a tile (R50 to R55, R83) -/

/-- Row r of a tile: its data, scale and patch bytes. -/
structure Row where
  data : List Byte
  scale : List Byte
  patch : List Byte
  deriving DecidableEq, Repr

/-- Sub-shift u of element `i` (R52, R54). -/
def subShift (f : Nat) (x : Row) (i : Nat) : Nat :=
  if fmtPatched f then byteAt x.scale (8 + i / 32 / 2) / 2 ^ (4 * (i / 32 % 2) + 2 * (i % 32 / 16)) % 4 else 0

/-- Patch entry `k`: its value p and index (R83). -/
def patchEntry (x : Row) (k : Nat) : Int × Nat := (signed 8 (byteAt x.patch (2 * k + 1)), byteAt x.patch (2 * k))

/-- The value of element `i` of a row (R55, R57); `patches`: with the patch entries that name it (R68, R86). -/
def rowValue (f : Nat) (x : Row) (patches : Bool) (i : Nat) : Num :=
  let v := codeValue f (getCode f x.data i)
  if fmtBlocked f then
    let s : Int := (byteAt x.scale (i / 32) : Int) - 127
    let body := v.scale (s - subShift f x i)
    if patches && fmtPatched f then
      [2 * (i / 32), 2 * (i / 32) + 1].foldl (fun v k =>
        let (p, j) := patchEntry x k
        if p ≠ 0 ∧ j = i then v.add ((numInt p).scale s) else v) body
    else body
  else v

/-- A scale byte of 0xFF in a block used (R51). -/
def scaleBad (f : Nat) (x : Row) (used : List Nat) : Bool := fmtBlocked f && used.any (fun j => decide (byteAt x.scale j = 255))

/-- A non-zero patch entry of a block used whose INDEX lies outside its block (R85). -/
def patchBad (f : Nat) (x : Row) (used : List Nat) : Bool :=
  fmtPatched f && used.any (fun j => [2 * j, 2 * j + 1].any (fun k =>
    let (p, i) := patchEntry x k
    decide (p ≠ 0) && decide (i / 32 ≠ j)))

/-- The blocks that hold these elements, each once. -/
def blocksOf (l : List Nat) : List Nat := (l.map (· / 32)).eraseDups

/-- The format fault that reading elements `l` of a row meets, by XINFO: 4 scale byte, 5 ternary byte, 6 patch entry (R91). Where
several hold, the spec gives no order among them: the first of 4, 5, 6 is reported, before a 7 of the conversion (DESIGN
CHOICE, log entry 49). -/
def readFault (f : Nat) (x : Row) (l : List Nat) : Option Nat :=
  let used := if fmtBlocked f then blocksOf l else []
  if scaleBad f x used then some 4
  else if l.any (badTernary f x.data) then some 5
  else if patchBad f x used then some 6
  else none

/-! ## Converting to a block (R69, R70) -/

/-- The largest magnitude of a list, as (m, e). -/
def maxMag (l : List Num) : Nat × Int :=
  l.foldl (fun (a : Nat × Int) x => match x with
    | .fin _ m e => if leMag m e a.1 a.2 then a else (m, e)
    | _ => a) (0, 0)

/-- The smallest integer s with m × 2^e ≤ F × 2^(s − 127), for m not 0. -/
def smallestS (m : Nat) (e : Int) (fF : Nat) : Int :=
  let t := topExp m e - 3
  match findBelow 6 (fun k => leMag m e fF (t + k)) with
  | some k => t + k + 127
  | none => t + 127

def clampS (s : Int) : Int := max 0 (min 254 s)

/-- Every magnitude of the list is at most F × 2^q. -/
def allWithin (l : List Num) (fF : Nat) (q : Int) : Bool :=
  l.all (fun x => match x with
    | .fin _ m e => leMag m e fF q
    | _ => true)

/-- The largest u, 0 to 3, with every magnitude at most F × 2^(sigma − u); 0 when none is. -/
def largestU (l : List Num) (fF : Nat) (sigma : Int) : Nat := ([3, 2, 1, 0].find? (fun u => allWithin l fF (sigma - (u : Nat)))).getD 0

/-- What converting a block gives: codes, scale byte, sub-shift nibble, patch entries (index, p), excess outliers, scale
underflows, generator. -/
structure Block where
  codes : List Nat
  s : Nat
  nib : Nat
  patches : List (Nat × Int)
  excess : Nat
  under : Nat
  srg : Dword
  deriving DecidableEq, Repr

/-- A block element's code: the value over 2^q rounded on the format's grid and clamped to ±F (R65, R69, R78). -/
def bodyCode (f mode r : Nat) (q : Int) (x : Num) : Nat :=
  let y := x.scale (-q)
  if f = 0x0A then (convert 0x0A mode true r y).getD 0
  else match y with
    | .fin n m e => intCode f (signedNat n (min (roundMag mode r m e 0) (fmtF f)))
    | _ => 0

/-- A block element's code means 0. -/
def codeZero (f c : Nat) : Bool := !(codeValue f c).nonzero

/-- Conversion of a block of 32 finite values by TCVT or a converting load (R69, R70). -/
def convBlock (f mode : Nat) (st : Dword) (l : List Num) : Block :=
  if f = 0x10 then
    let sum := l.foldl (fun v x => v.add (match x with
      | .fin _ m e => .fin false m e
      | y => y)) Num.zero
    let s : Int := match sum with
      | .fin _ 0 _ => 127
      | .fin _ m e =>
        let a := e - 5
        let k := topExp m a
        let up := leMag 1 (2 * k + 1) (m * m) (2 * a)
        max (-127) (min 127 (k + b2n up)) + 127
      | _ => 127
    let st' := l.foldl (fun g _ => (draw mode g).2) st
    { codes := l.map (fun x => (convert 0x10 mode true 0 x).getD 0), s := s.toNat, nib := 0, patches := [], excess := 0, under := 0, srg := st' }
  else
    let (m1, e1) := maxMag l
    let fF := fmtF f
    let s := if m1 = 0 then 127 else clampS (smallestS m1 e1 fF)
    let sigma := s - 127
    let u := fun (h : Nat) => if f = 0x0E ∨ m1 = 0 then 0 else largestU ((l.drop (16 * h)).take 16) fF sigma
    let us := [u 0, u 1]
    let out := l.zipIdx.foldl (fun (a : List Nat × Dword × Nat) (p : Num × Nat) =>
      let (r, g) := draw mode a.2.1
      let c := bodyCode f mode r (sigma - (us.getD (p.2 / 16) 0 : Nat)) p.1
      (a.1 ++ [c], g, a.2.2 + b2n (p.1.nonzero && codeZero f c))) ([], st, 0)
    { codes := out.1, s := s.toNat, nib := us.getD 0 0 + 4 * us.getD 1 0, patches := [], excess := 0, under := out.2.2, srg := out.2.1 }

/-! ## QNT's block (R78 to R84) -/

/-- The patched elements: the two outliers of largest magnitude, ties to the lower index, in ascending index order. -/
def pickPatched (l : List Num) (outliers : List Nat) : List Nat :=
  let mag := fun (i : Nat) => match l.getD i Num.zero with
    | .fin _ m e => (m, e)
    | _ => (0, (0 : Int))
  let best := fun (o : List Nat) => o.foldl (fun (b : Option Nat) i => match b with
    | none => some i
    | some j => if leMag (mag i).1 (mag i).2 (mag j).1 (mag j).2 then some j else some i) none
  match best outliers with
  | none => []
  | some i => match best (outliers.filter (fun k => decide (k ≠ i))) with
    | none => [i]
    | some j => if i < j then [i, j] else [j, i]

/-- QNT of a block of 32 finite values (R78). At t = 0 with S clamped at 254 (a BF16 element above 2^127 into B2I) the
procedure has outliers and patches, which R79 says there are not: the procedure is followed (DEDUCED, log entry 146). -/
def qntBlock (f t mode : Nat) (st : Dword) (l : List Num) : Block :=
  let (m1, e1) := maxMag l
  let fF := fmtF f
  let s := clampS (if m1 = 0 then 127 else smallestS m1 e1 fF - t)
  let sigma := s - 127
  let outliers := (List.range 32).filter (fun i => !allWithin [l.getD i Num.zero] fF sigma)
  let patched := pickPatched l outliers
  let excess := outliers.filter (fun i => !patched.contains i)
  let u := fun (h : Nat) =>
    if excess.any (fun i => decide (i / 16 = h)) then 0
    else largestU (((List.range 32).filter (fun i => decide (i / 16 = h) && !patched.contains i)).map (fun i => l.getD i Num.zero)) fF sigma
  let us := [u 0, u 1]
  let step := fun (a : List Nat × List (Nat × Int) × Nat × Dword) (i : Nat) =>
    let (r, g) := draw mode a.2.2.2
    let x := l.getD i Num.zero
    if patched.contains i then
      let p := match x.scale (-sigma) with
        | .fin n m e => signedNat n (min (roundMag mode r m e 0) 127)
        | _ => 0
      (a.1 ++ [0], a.2.1 ++ [(i, p)], a.2.2.1, g)
    else
      let c := bodyCode f mode r (sigma - (us.getD (i / 16) 0 : Nat)) x
      (a.1 ++ [c], a.2.1, a.2.2.1 + b2n (x.nonzero && codeZero f c), g)
  let out := (List.range 32).foldl step ([], [], 0, st)
  { codes := out.1, s := s.toNat, nib := us.getD 0 0 + 4 * us.getD 1 0, patches := out.2.1, excess := excess.length, under := out.2.2.1, srg := out.2.2.2 }

/-- Write block `j` of a row: its data, its scale byte, for B4I, B4F and B2I its sub-shift nibble, and its patch entries, those not
used as 0; BTR and B1 have no patches and theirs are cleared (R54, R69, R84, R88). -/
def putBlock (f : Nat) (x : Row) (j : Nat) (b : Block) : Row :=
  let data := b.codes.zipIdx.foldl (fun d p => putCode f d (32 * j + p.2) p.1) x.data
  let scale := setByte x.scale j b.s
  let a := 8 + j / 2
  let scale := if fmtPatched f then setByte scale a (setBits (byteAt scale a) (4 * (j % 2) + 3) (4 * (j % 2)) b.nib) else scale
  let entry := fun (k : Nat) (d : List Byte) => match b.patches[k]? with
    | some (i, p) => setByte (setByte d (2 * (2 * j + k)) (32 * j + i)) (2 * (2 * j + k) + 1) (wrap 8 p)
    | none => setByte (setByte d (2 * (2 * j + k)) 0) (2 * (2 * j + k) + 1) 0
  { data := data, scale := scale, patch := entry 1 (entry 0 x.patch) }

/-! ## The multiply-accumulate (R56 to R62) -/

/-- The exact value of group `j` of a pair of rows given as values: the sum of its 32 products (R56 to R59, R61). A zero sum
is +0. -/
def groupValue (a b : List Num) (j : Nat) : Num :=
  (List.range 32).foldl (fun v i => v.add ((a.getD (32 * j + i) .zero).mul (b.getD (32 * j + i) .zero))) Num.zero

/-- An FP32 accumulator element after `g` groups, and whether an addition overflowed (R56, R60, R61). -/
def accFp32 (sat : Bool) (w : Nat) (a b : List Num) (g : Nat) : Nat × Bool :=
  (List.range g).foldl (fun (x : Nat × Bool) j =>
    let (c, o) := roundFp32 sat ((codeValue 0x11 x.1).add (groupValue a b j))
    (c, x.2 || o)) (w, false)

/-- The integer of an exact integer value. -/
def numToInt : Num → Int
  | .fin n m e => signedNat n (m * 2 ^ e.toNat)
  | _ => 0

/-- An INT32 accumulator element after all K products, and whether it overflowed (R62). -/
def accInt32 (sat : Bool) (w : Nat) (a b : List Num) : Nat × Bool :=
  let sum := (a.zip b).foldl (fun v p => v + numToInt p.1 * numToInt p.2) (signed 32 w)
  if -(2 ^ 31 : Int) ≤ sum ∧ sum < 2 ^ 31 then (wrap 32 sum, false)
  else if sat then (if sum < 0 then 0x80000000 else 0x7FFFFFFF, true)
  else (wrap 32 sum, true)

/-! ## Lane arithmetic (R151 to R155) -/

/-- The lane formats: lanes of a row by AFMT. -/
def lanes (f : Nat) (row : List Byte) : List Num := (List.range (fmtK f)).map (fun i => codeValue f (getCode f row i))

/-- A quiet NaN of format `f`, the top bit of its mantissa set, as IEEE 754 delivers; its sign and the rest of its payload the
spec leaves open (R152, R153): from the free value `v`. -/
def someNan (f v : Nat) : Nat :=
  match floatOf f with
  | some (eb, mb, _, _) => (2 ^ eb - 1) * 2 ^ mb + 2 ^ (mb - 1) + v % 2 ^ (mb - 1) + v / 2 ^ mb % 2 * 2 ^ (eb + mb)
  | none => 0

/-- A floating lane result by RNE, overflow by SAT, any NaN a free one (R152). -/
def laneFloat (f : Nat) (sat : Bool) (a b c : Nat) (x : Num) : Nat :=
  match x with
  | .nan => someNan f (Config.nanBits a b c)
  | y => (convert f 0 sat 0 y).getD 0

/-- The greater of two values that are not NaN, −0 below +0; a NaN where either is (R152). -/
def Num.max' (a b : Num) : Num :=
  match a, b with
  | .nan, _ => .nan
  | _, .nan => .nan
  | .fin true 0 e, .fin false 0 _ => .fin false 0 e
  | _, _ => if b.le a then a else b

def Num.min' (a b : Num) : Num := (Num.max' a.neg b.neg).neg

/-- The final rounding of VRSUM and VACT: with SAT, an infinity that no infinite input caused becomes the largest finite value
(R154); a NaN is canonical. -/
def laneFinal (f : Nat) (sat anyInf : Bool) (x : Num) : Nat :=
  match x with
  | .inf n =>
    if sat && !anyInf then
      match floatOf f with
      | some (eb, mb, _, top) => top + b2n n * 2 ^ (eb + mb)
      | none => 0
    else (convert f 0 sat 0 (.inf n)).getD 0
  | y => (convert f 0 sat 0 y).getD 0

/-- FP32 by RNE as a value. -/
def toFp32 (x : Num) : Num := codeValue 0x11 (roundFp32 false x).1

/-- One level of the pairwise tree. -/
def pairSums : List Num → List Num
  | a :: b :: r => toFp32 (a.add b) :: pairSums r
  | l => l

/-- VRSUM's tree over at most 2^n lanes (R154). -/
def treeSum : Nat → List Num → Num
  | 0, l => l.getD 0 .zero
  | n + 1, l => treeSum n (pairSums l)

/-- The activation table's entry for x: the largest index whose BOUND ≤ x, or 0 (R155). -/
def actEntry (tbl : List Byte) (x : Num) : List Num :=
  let word := fun (j k : Nat) => codeValue 0x11 (leNat ((tbl.drop (32 * j + 4 * k)).take 4))
  let j := ((List.range 64).reverse.find? (fun j => (word j 0).le x)).getD 0
  (List.range 5).map (word j)

/-- VACT of one lane (R155). -/
def actLane (f : Nat) (sat : Bool) (tbl : List Byte) (x : Num) : Nat :=
  match x with
  | .nan => canonNan f
  | x =>
    let e := actEntry tbl x
    let c := fun (k : Nat) => e.getD (k + 1) .zero
    let fma := fun (a b : Num) => toFp32 ((a.mul x).add b)
    let y := fma (fma (fma (c 3) (c 2)) (c 1)) (c 0)
    laneFinal f sat (x.isInf || e.any Num.isInf) y

end Sys2Proof.Machine
end

