-- ==== Sys2Proof/Machine/Tiles.lean ====
section
/-! DEFINITION. The tile machine: issue and its checks, start, beats and completion of tile operations, the matrix unit, loads
and stores, conversions and the vector unit (R114 to R169, R737, R740 to R742). -/

namespace Sys2Proof.Machine

/-! ## The operations' table (R133) -/

/-- Operand entries an operation pops. -/
def TOp.pops : TOp → Nat
  | .mma => 3
  | .accz => 1
  | .tfree => 1
  | .accrd => 4
  | .tld => 3
  | .tldt => 3
  | .tldc => 4
  | .tlds => 3
  | .tldp => 3
  | .tst => 3
  | .tstt => 3
  | .tstc => 4
  | .tsts => 3
  | .tstp => 3
  | .tcvt => 4
  | .qnt => 3
  | .vadd => 3
  | .vmul => 3
  | .vmax => 3
  | .vmin => 3
  | .vfma => 4
  | .vrsum => 2
  | .vrmax => 2
  | .vrmin => 2
  | .vact => 2
  | .vactld => 1

/-- Core cycles from the last beat to completion. -/
def TOp.tail : TOp → Nat
  | .mma => 8
  | .accz => 0
  | .tfree => 0
  | .accrd => 4
  | .tld => 6
  | .tldt => 8
  | .tldc => 8
  | .tlds => 6
  | .tldp => 6
  | .tst => 4
  | .tstt => 4
  | .tstc => 4
  | .tsts => 4
  | .tstp => 4
  | .tcvt => 6
  | .qnt => 8
  | .vadd => 4
  | .vmul => 4
  | .vmax => 4
  | .vmin => 4
  | .vfma => 6
  | .vrsum => 6
  | .vrmax => 6
  | .vrmin => 6
  | .vact => 8
  | .vactld => 4

/-- The tiles and accumulators an operation names, in the order of its stack effect: operand (0 the top), resource (0 tile,
1 accumulator), destination. -/
def TOp.names : TOp → List (Nat × Nat × Bool)
  | .mma => [(2, 0, false), (1, 0, false), (0, 1, true)]
  | .accz => [(0, 1, true)]
  | .tfree => [(0, 0, false)]
  | .accrd => [(1, 0, true), (0, 1, false)]
  | .tld => [(0, 0, true)]
  | .tldt => [(0, 0, true)]
  | .tldc => [(0, 0, true)]
  | .tlds => [(0, 0, true)]
  | .tldp => [(0, 0, true)]
  | .tst => [(0, 0, false)]
  | .tstt => [(0, 0, false)]
  | .tstc => [(0, 0, false)]
  | .tsts => [(0, 0, false)]
  | .tstp => [(0, 0, false)]
  | .tcvt => [(1, 0, false), (0, 0, true)]
  | .qnt => [(1, 0, false), (0, 0, true)]
  | .vadd => [(2, 0, false), (1, 0, false), (0, 0, true)]
  | .vmul => [(2, 0, false), (1, 0, false), (0, 0, true)]
  | .vmax => [(2, 0, false), (1, 0, false), (0, 0, true)]
  | .vmin => [(2, 0, false), (1, 0, false), (0, 0, true)]
  | .vfma => [(2, 0, false), (1, 0, false), (0, 0, true)]
  | .vrsum => [(1, 0, false), (0, 0, true)]
  | .vrmax => [(1, 0, false), (0, 0, true)]
  | .vrmin => [(1, 0, false), (0, 0, true)]
  | .vact => [(1, 0, false), (0, 0, true)]
  | .vactld => []

/-- Memory bytes of a tile row of a converting load or store: b (R133). -/
def memRowBytes (a b : Nat) : Nat := if b = 0x0D then ceilDiv (fmtK a) 5 else ceilDiv (fmtK a * fmtBits b) 8

/-- Beats of one row of a converting load or store. -/
def rowBeats (a b : Nat) : Nat := max 1 (ceilDiv (memRowBytes a b) 128)

def TileOp.m (o : TileOp) : Nat := (lastM o.last).getD 0
def TileOp.n (o : TileOp) : Nat := (lastN o.last).getD 0

/-- Beats of an operation (R133). -/
def TileOp.beats (o : TileOp) : Nat :=
  match o.op with
  | .tld | .tst | .tldp | .tstp => ceilDiv o.m 2
  | .tlds | .tsts => ceilDiv o.m 4
  | .tldt | .tstt | .vactld => 16
  | .tldc | .tstc => o.m * rowBeats (fmtA o.tfmt) (fmtB o.tfmt)
  | .vfma => o.m + 1
  | .accz | .tfree => 1
  | _ => o.m

/-! ## Checks at issue (R740) -/

def lane5 (a : Nat) : Bool := [0x11, 0x04, 0x05, 0x00, 0x01].contains a
def lane3 (a : Nat) : Bool := [0x11, 0x04, 0x05].contains a

/-- The instruction accepts its formats (R127, R133, R76). -/
def accepts (op : TOp) (a b : Nat) : Bool :=
  match op with
  | .accrd => !fmtBlocked a
  | .tldc | .tstc => !fmtBlocked b
  | .qnt => [0x00, 0x04, 0x05].contains b && fmtPatched a
  | .vadd | .vmul | .vmax | .vmin | .vrmax | .vrmin => lane5 a
  | .vfma | .vrsum | .vact => lane3 a
  | _ => true

/-- The format fault found at issue, as XINFO, in the order of R740. -/
def formatFault (op : TOp) (last : Byte) (fmt j0 : Nat) : Option Nat :=
  let a := fmtA fmt
  let b := fmtB fmt
  if lastM last = none ∨ lastN last = none then some 9
  else if 0x11 < a ∨ 0x11 < b ∨ fmtRND fmt = 3 ∨ 4 < fmtPTH fmt ∨ 12 < fmtASYK fmt then some 1
  else if accepts op a b = false then some 10
  else if op = .mma ∧ (fmtClass a ≠ fmtClass b ∨ fmtClass a = 12) then some 2
  else if op = .mma ∧ fmtACCT fmt = 0 ∧ intClass (fmtClass a) = false then some 3
  else if op = .qnt ∧ fmtK a / 32 < j0 + fmtK b / 32 then some 8
  else none

/-- Name the units of a list (operand value, resource, destination), in order: the share fault's XINFO or the state with what is
acquired (R132, R280). -/
def nameAll (t : Thread) (args : List Word) : List (Nat × Nat × Bool) → State → Word ⊕ State
  | [], s => .inr s
  | (i, res, dest) :: r, s =>
    let u := (args.getD i 0).toNat % (if res = 1 then 4 else 16)
    match nameUnit t res u dest s with
    | some s1 => nameAll t args r s1
    | none => .inl (shareInfo res u)

/-- The TFMT value an issue uses: CORE_TXFMT's for a restart, else the register its last syllable names (R130, R742). -/
def fmtAt (s : State) (t : Thread) (last : Byte) : Nat :=
  let x := s.ctx t
  let f := (x.reg 0x04D).toNat
  if bit f 21 ∧ x.reg 0x04E = x.pc then f % 2 ^ 21 else (x.reg (0x024 + lastFP last)).toNat

/-- The checks of R740 in order, then `go`. -/
def tileChecks (t : Thread) (op : TOp) (last : Byte) (fmt : Nat) (names : List (Nat × Nat × Bool)) (args : List Word) (s : State)
    (go : State → Out) : Out :=
  match formatFault op last fmt (args.getD 2 0).toNat with
  | some i => .exc s 0x0A (word i)
  | none => match nameAll t args names s with
    | .inl i => .exc s 0x0B i
    | .inr s1 => go s1

/-- Issue of a tile operation: it holds its thread, its operands on the stack, and waits for its unit (R131). -/
def tileIssue (t : Thread) (op : TOp) (last : Byte) (s : State) : State :=
  let fmt := fmtAt s t last
  issue t op.code (some last) 2 ⟨op.pops, 0, 0, 0⟩ (fun _ => none)
    (fun s args _ =>
      tileChecks t op last fmt op.names args s (fun s =>
        let o : TileOp :=
          { ctx := t.ctx, op := op, last := last, pc := (s.ctx t).pc, args := args, tfmt := fmt, phase := .issued, at_ := coreNow s, beat := 0,
            rows := 0, srg := 0, sclUf := 0, patchOvf := 0, held := [], view := [], srcA := Tile.reset, srcB := Tile.reset }
        .held (s.updCore t.core (fun k => { k with tops := k.tops ++ [o] })) .tile)) s

/-- ACCZ's one cycle: M × N elements of the committed bank and the ROWSAT bits of its rows become 0 (R123). -/
def accz (c : Nat) (o : TileOp) (s : State) : State :=
  let ac := (o.args.getD 0 0).toNat % 4
  s.updCore c (fun k =>
    (k.updAcc ac (fun x =>
      { x with committed := x.committed.filter (fun p => !(decide (p.1 / 32 < o.m) && decide (p.1 % 32 < o.n))) })).setReg
      (0x109 + ac) (k.reg (0x109 + ac) &&& ~~~(word (2 ^ o.m - 1))))

/-- TFREE's one cycle: the in-use flag is cleared, and in dynamic mode the tile released (R115, R276). -/
def tfree (c : Nat) (o : TileOp) (s : State) : State :=
  let d := dynamic s c
  s.updCore c (fun k =>
    let k := k.updTile (o.low 0) (fun x => { x with inUse := false })
    if d then { k with tileOwn := tblSet nats k.tileOwn (o.low 0) 0 } else k)

/-! ## Tile rows (R114 to R116) -/

/-- Row r of tile i as it reads. -/
def tileRow (s : State) (c i r : Nat) : Row :=
  let x := (s.core c).tile i
  if x.inUse then { data := memBytes x.data (64 * r) 64, scale := memBytes x.scale (16 * r) 16, patch := memBytes x.patch (32 * r) 32 }
  else { data := List.replicate 64 0, scale := List.replicate 16 0, patch := List.replicate 32 0 }

/-- A tile about to be written: the sides of a tile not in use are first 0 (R116). -/
def touchTile (x : Tile) : Tile := if x.inUse then x else { inUse := true, data := [], scale := [], patch := [] }

/-- Write row r of tile i. -/
def putRow (c i r : Nat) (x : Row) (s : State) : State :=
  s.updCore c (fun k => k.updTile i (fun y =>
    let y := touchTile y
    { y with data := memPut y.data (64 * r) x.data, scale := memPut y.scale (16 * r) x.scale, patch := memPut y.patch (32 * r) x.patch }))

/-! ## Memory rows (R139, R145, R438) -/

/-- The address of memory row r. -/
def rowAddr (addr stride : Word) (r : Nat) : Nat :=
  ((addr &&& 0xFFFFFFF0#32) + (stride &&& 0xFFFFFFF0#32) * word r).toNat

/-- What a beat or a part of it does. -/
inductive Beat where
  | ok (s : State) (o : TileOp)
  | fault (s : State) (o : TileOp) (cause : Nat) (info : Word)

/-- Do parts in order until one faults. -/
def beatAll (f : Nat → State → TileOp → Beat) : List Nat → State → TileOp → Beat
  | [], s, o => .ok s o
  | i :: r, s, o => match f i s o with
    | .ok s1 o1 => beatAll f r s1 o1
    | b => b

/-- The checks of R139 on the bytes [a, a + n), by the region registers as they stood at the start (R238). -/
def rowOk (s : State) (t : Thread) (o : TileOp) (kind a n : Nat) : Bool :=
  decide (a + n ≤ 0x100000) && permitted { s.ctx t with sr := o.view } kind a n

/-- Read a memory row of the pieces (address, bytes), all checked first; `row` is the row's first address. -/
def readRow (t : Thread) (row : Nat) (pieces : List (Nat × Nat)) (s : State) (o : TileOp) (k : List Byte → State → TileOp → Beat) : Beat :=
  let base := localBase t.core
  if pieces.all (fun p => rowOk s t o 0 p.1 p.2) = false then .fault s o 0x06 (word row)
  else match pieces.findSome? (fun p => uncorrectable s (base + p.1) p.2) with
    | some a => .fault (memCont t.core a (some t) s) o 0x0D (word (a - base))
    | none =>
      let s1 := forAll pieces (fun p s => noteRead (base + p.1) p.2 s) s
      k (pieces.flatMap (fun p => memBytes s.mem (base + p.1) p.2)) s1 o

/-! ## Beats of loads and stores (R140 to R144, R741) -/

/-- A row of TLD, TLDS or TLDP: 0 data, 1 scale, 2 patch side. -/
def loadRow (t : Thread) (side r : Nat) (s : State) (o : TileOp) : Beat :=
  let a := rowAddr (o.args.getD 1 0) (o.args.getD 2 0) r
  let n := if side = 0 then 2 * o.n else if side = 1 then 16 else 32
  readRow t a [(a, n)] s o (fun l s o =>
    let x := tileRow s t.core (o.low 0) r
    let x := if side = 0 then { x with data := l ++ x.data.drop n } else if side = 1 then { x with scale := l } else { x with patch := l }
    .ok (putRow t.core (o.low 0) r x s) { o with rows := r + 1 })

/-- A row of TST, TSTS or TSTP. -/
def storeRow (t : Thread) (side r : Nat) (s : State) (o : TileOp) : Beat :=
  let a := rowAddr (o.args.getD 1 0) (o.args.getD 2 0) r
  let n := if side = 0 then 2 * o.n else if side = 1 then 16 else 32
  if rowOk s t o 1 a n = false then .fault s o 0x06 (word a)
  else
    let x := tileRow s t.core (o.low 0) r
    let l := if side = 0 then x.data.take n else if side = 1 then x.scale else x.patch
    .ok (write (localBase t.core + a) l s) { o with rows := r + 1 }

/-- Memory row c of TLDT or TSTT: the pieces it supplies, byte 32b + r for r < M (R141). -/
def transPieces (o : TileOp) (a c : Nat) : List (Nat × Nat) :=
  ((List.range 2).filter (fun b => decide (32 * b + c < 2 * o.n))).map (fun b => (a + 32 * b, o.m))

def transLoad (t : Thread) (c : Nat) (s : State) (o : TileOp) : Beat :=
  let a := rowAddr (o.args.getD 1 0) (o.args.getD 2 0) c
  if 2 * o.n ≤ c then .ok s o
  else readRow t a (transPieces o a c) s o (fun l s o =>
    let put := fun (s : State) (p : Byte × Nat) =>
      let b := p.2 / o.m
      s.updCore t.core (fun k => k.updTile (o.low 0) (fun y =>
        let y := touchTile y
        { y with data := memSet y.data (64 * (p.2 % o.m) + 32 * b + c) p.1 }))
    .ok (l.zipIdx.foldl put s) { o with rows := c + 1 })

def transStore (t : Thread) (c : Nat) (s : State) (o : TileOp) : Beat :=
  let a := rowAddr (o.args.getD 1 0) (o.args.getD 2 0) c
  if 2 * o.n ≤ c then .ok s o
  else if (transPieces o a c).all (fun p => rowOk s t o 1 p.1 p.2) = false then .fault s o 0x06 (word a)
  else
    let bytes := fun (b : Nat) => (List.range o.m).map (fun r => (tileRow s t.core (o.low 0) r).data.getD (32 * b + c) 0)
    .ok ((transPieces o a c).zipIdx.foldl (fun s p => write (localBase t.core + p.1.1) (bytes p.2) s) s) { o with rows := c + 1 }

/-- The e operand (R143). -/
def expOf (w : Word) : Int := signed 8 (w.toNat % 256)

/-- Convert a list of values to the codes of an unblocked format, in order: none on the format fault of R66; also the
generator, and the non-zero elements written as 0. -/
def convertAll (f mode : Nat) (sat : Bool) : List Num → Dword → Option (List Nat × Dword × Nat)
  | [], g => some ([], g, 0)
  | x :: l, g =>
    let (r, g1) := draw mode g
    match convert f mode sat r x with
    | none => none
    | some c => match convertAll f mode sat l g1 with
      | none => none
      | some (cs, g2, u) => some (c :: cs, g2, u + b2n (x.nonzero && codeZero f c))

/-- The piece of a memory row of `n` bytes at `a` that its beat `j` of `per` moves: the row is cut at whole 64-byte lines, two lines a
beat and the rest in the last, so that every line moves in one beat (R145, R741; DESIGN CHOICE, log entry 147). -/
def beatPiece (a n per j : Nat) : Nat × Nat :=
  let lo := if j = 0 then a else min (a + n) (a / 64 * 64 + 128 * j)
  let hi := if j + 1 < per then min (a + n) (a / 64 * 64 + 128 * (j + 1)) else a + n
  (lo, hi - lo)

/-- A beat of TLDC: row `beat / per`, the memory bytes of each beat kept until the row's last, which converts and writes it
(R142, R741). The bytes of the scale row that the blocked format leaves unused become 0 (DESIGN CHOICE, log entry 148). -/
def convLoad (t : Thread) (s : State) (o : TileOp) : Beat :=
  let fa := fmtA o.tfmt
  let fb := fmtB o.tfmt
  let n := memRowBytes fa fb
  let per := rowBeats fa fb
  let r := o.beat / per
  let j := o.beat % per
  let a := rowAddr (o.args.getD 1 0) (o.args.getD 2 0) r
  if j = 0 ∧ rowOk s t o 0 a n = false then .fault s o 0x06 (word a)
  else readRow t a [beatPiece a n per j] s o (fun l s o =>
    let buf := (if j = 0 then [] else o.held) ++ l
    if j + 1 < per then .ok s { o with held := buf }
    else if (List.range n).any (fun i => decide (fmtBits fb = 0) && decide (242 < byteAt buf i)) then .fault s o 0x0A 5
    else
      let vals := (List.range (fmtK fa)).map (fun i => (codeValue fb (getCode fb buf i)).scale (expOf (o.args.getD 3 0)))
      let x := tileRow s t.core (o.low 0) r
      if fmtBlocked fa then
        if vals.all Num.isFin = false then .fault s o 0x0A 7
        else
          let blank : Row := { data := x.data, scale := List.replicate 16 0, patch := List.replicate 32 0 }
          let out := (List.range (fmtK fa / 32)).foldl (fun (p : Row × Dword) j =>
            let b := convBlock fa (fmtRND o.tfmt) p.2 ((vals.drop (32 * j)).take 32)
            (putBlock fa p.1 j b, b.srg)) (blank, o.srg)
          .ok (putRow t.core (o.low 0) r out.1 s) { o with rows := r + 1, srg := out.2, held := [] }
      else match convertAll fa (fmtRND o.tfmt) (fmtSAT o.tfmt) vals o.srg with
        | none => .fault s o 0x0A 7
        | some (cs, g, _) =>
          let d := cs.zipIdx.foldl (fun d p => putCode fa d p.2 p.1) x.data
          .ok (putRow t.core (o.low 0) r { x with data := d } s) { o with rows := r + 1, srg := g, held := [] })

/-- A beat of TSTC: the row is converted in its first beat, and each beat writes its bytes (R142, R741). -/
def convStore (t : Thread) (s : State) (o : TileOp) : Beat :=
  let fa := fmtA o.tfmt
  let fb := fmtB o.tfmt
  let n := memRowBytes fa fb
  let per := rowBeats fa fb
  let r := o.beat / per
  let j := o.beat % per
  let a := rowAddr (o.args.getD 1 0) (o.args.getD 2 0) r
  let x := tileRow s t.core (o.low 0) r
  let put := fun (o : TileOp) =>
    let p := beatPiece a n per j
    Beat.ok (write (localBase t.core + p.1) ((o.held.drop (p.1 - a)).take p.2) s)
      (if j + 1 < per then o else { o with rows := r + 1, held := [] })
  if j ≠ 0 then put o
  else if rowOk s t o 1 a n = false then .fault s o 0x06 (word a)
  else match readFault fa x (List.range (fmtK fa)) with
    | some i => .fault s o 0x0A (word i)
    | none =>
      let vals := (List.range (fmtK fa)).map (fun i => (rowValue fa x true i).scale (expOf (o.args.getD 3 0)))
      match convertAll fb (fmtRND o.tfmt) (fmtSAT o.tfmt) vals o.srg with
      | none => .fault s o 0x0A 7
      | some (cs, g, _) => put { o with srg := g, held := cs.zipIdx.foldl (fun d p => putCode fb d p.2 p.1) (List.replicate n 0) }

/-- Four entries of the activation table (R156). -/
def actLoad (t : Thread) (j : Nat) (s : State) (o : TileOp) : Beat :=
  let a := ((o.args.getD 0 0 &&& 0xFFFFFFC0#32) + word (32 * j)).toNat
  readRow t a [(a, 32)] s o (fun l s o =>
    .ok (s.updCore t.core (fun k => { k with act := memPut k.act (32 * j) l })) { o with rows := j + 1 })

/-! ## Beats of the vector unit (R147 to R155) -/

/-- A row of ACCRD (R150). -/
def accrdRow (t : Thread) (r : Nat) (s : State) (o : TileOp) : Beat :=
  let f := fmtA o.tfmt
  let acc := ((s.core t.core).acc ((o.args.getD 0 0).toNat % 4)).committed
  let c0 := (o.args.getD 3 0).toNat % 32
  let n := min (min o.n (fmtK f)) (32 - c0)
  let vals := (List.range n).map (fun i =>
    let w := tblGet (zeros 32) acc (32 * r + c0 + i)
    (if fmtACCT o.tfmt = 0 then numInt (signed 32 w.toNat) else codeValue 0x11 w.toNat).scale (expOf (o.args.getD 2 0)))
  match convertAll f (fmtRND o.tfmt) (fmtSAT o.tfmt) vals o.srg with
  | none => .fault s o 0x0A 7
  | some (cs, g, _) =>
    let x := tileRow s t.core (o.low 1) r
    .ok (putRow t.core (o.low 1) r { x with data := cs.zipIdx.foldl (fun d p => putCode f d p.2 p.1) x.data } s) { o with rows := r + 1, srg := g }

/-- The element mapping of TCVT: (destination, source) in ascending destination order (R147, R148). -/
def tcvtPairs (fd fs : Nat) (o : Nat) : List (Nat × Nat) :=
  let o1 := 16 * (o % 32)
  let o2 := if fmtBlocked fd then o1 / 32 * 32 else o1
  if fmtK fs ≤ fmtK fd then ((List.range (fmtK fs)).filter (fun i => decide (o2 + i < fmtK fd))).map (fun i => (o2 + i, i))
  else ((List.range (fmtK fd)).filter (fun i => decide (o2 + i < fmtK fs))).map (fun i => (i, o2 + i))

/-- A row of TCVT. -/
def tcvtRow (t : Thread) (r : Nat) (s : State) (o : TileOp) : Beat :=
  let fd := fmtA o.tfmt
  let fs := fmtB o.tfmt
  let src := tileRow s t.core (o.low 1) r
  let dst := tileRow s t.core (o.low 0) r
  let pairs := tcvtPairs fd fs (o.args.getD 3 0).toNat
  let value := fun (i : Nat) => (rowValue fs src true i).scale (expOf (o.args.getD 2 0))
  match readFault fs src (pairs.map (·.2)) with
  | some i => .fault s o 0x0A (word i)
  | none =>
    if pairs = [] then .ok s { o with rows := r + 1 }
    else if fmtBlocked fd then
      if pairs.all (fun p => (value p.2).isFin) = false then .fault s o 0x0A 7
      else
        let at_ := fun (i : Nat) => match pairs.find? (fun p => decide (p.1 = i)) with
          | some p => value p.2
          | none => Num.zero
        let out := (blocksOf (pairs.map (·.1))).foldl (fun (p : Row × Dword × Nat) j =>
          let b := convBlock fd (fmtRND o.tfmt) p.2.1 ((List.range 32).map (fun i => at_ (32 * j + i)))
          (putBlock fd p.1 j b, b.srg, p.2.2 + b.under)) (dst, o.srg, 0)
        .ok (putRow t.core (o.low 0) r out.1 s) { o with rows := r + 1, srg := out.2.1, sclUf := o.sclUf + out.2.2 }
    else match convertAll fd (fmtRND o.tfmt) (fmtSAT o.tfmt) (pairs.map (fun p => value p.2)) o.srg with
      | none => .fault s o 0x0A 7
      | some (cs, g, u) =>
        let d := (pairs.zip cs).foldl (fun d p => putCode fd d p.1.1 p.2) dst.data
        .ok (putRow t.core (o.low 0) r { dst with data := d } s) { o with rows := r + 1, srg := g, sclUf := o.sclUf + u }

/-- A row of QNT (R76 to R88, R149). -/
def qntRow (t : Thread) (r : Nat) (s : State) (o : TileOp) : Beat :=
  let fd := fmtA o.tfmt
  let fs := fmtB o.tfmt
  let vals := lanes fs (tileRow s t.core (o.low 1) r).data
  let j0 := (o.args.getD 2 0).toNat
  if vals.all Num.isFin = false then .fault s o 0x0A 7
  else
    let out := (List.range (fmtK fs / 32)).foldl (fun (p : Row × TileOp) i =>
      let b := qntBlock fd (fmtPTH o.tfmt) (fmtRND o.tfmt) p.2.srg ((vals.drop (32 * i)).take 32)
      (putBlock fd p.1 (j0 + i) b, { p.2 with srg := b.srg, sclUf := p.2.sclUf + b.under, patchOvf := p.2.patchOvf + b.excess }))
      (tileRow s t.core (o.low 0) r, o)
    .ok (putRow t.core (o.low 0) r out.1 s) { out.2 with rows := r + 1 }

/-- Write the lanes of a row of a tile. -/
def putLanes (f : Nat) (c i r : Nat) (codes : List Nat) (s : State) : State :=
  let x := tileRow s c i r
  putRow c i r { x with data := codes.zipIdx.foldl (fun d p => putCode f d p.2 p.1) x.data } s

/-- One lane of VADD, VMUL, VMAX or VMIN (R152). An infinite lane stays infinite under SAT 1 where it is the result (DEDUCED, log
entry 51). -/
def laneOp (op : TOp) (f : Nat) (sat : Bool) (a b : Nat) : Nat :=
  let x := codeValue f a
  let y := codeValue f b
  match op with
  | .vmax => (convert f 0 sat 0 (x.max' y)).getD 0
  | .vmin => (convert f 0 sat 0 (x.min' y)).getD 0
  | .vmul => laneFloat f sat a b 0 (x.mul y)
  | _ => laneFloat f sat a b 0 (x.add y)

/-- A row of VADD, VMUL, VMAX or VMIN. -/
def lanewiseRow (t : Thread) (r : Nat) (s : State) (o : TileOp) : Beat :=
  let f := fmtA o.tfmt
  let a := (tileRow s t.core (o.low 1) r).data
  let b := (tileRow s t.core (o.low 2) r).data
  let out := (List.range (fmtK f)).map (fun i => laneOp o.op f (fmtSAT o.tfmt) (getCode f a i) (getCode f b i))
  .ok (putLanes f t.core (o.low 0) r out s) { o with rows := r + 1 }

/-- A beat of VFMA: the first reads row rb of tb, each later one computes a row (R153). -/
def fmaBeat (t : Thread) (s : State) (o : TileOp) : Beat :=
  let f := fmtA o.tfmt
  if o.beat = 0 then .ok s { o with held := (tileRow s t.core (o.low 2) ((o.args.getD 3 0).toNat % 32)).data }
  else
    let r := o.beat - 1
    let a := (tileRow s t.core (o.low 1) r).data
    let d := (tileRow s t.core (o.low 0) r).data
    let out := (List.range (fmtK f)).map (fun i =>
      let x := getCode f a i
      let y := getCode f o.held i
      let z := getCode f d i
      laneFloat f (fmtSAT o.tfmt) x y z (((codeValue f x).mul (codeValue f y)).add (codeValue f z)))
    .ok (putLanes f t.core (o.low 0) r out s) { o with rows := r + 1 }

/-- A row of VRSUM, VRMAX or VRMIN, reduced to lane r mod L of destination row r / L (R154). -/
def reduceRow (t : Thread) (r : Nat) (s : State) (o : TileOp) : Beat :=
  let f := fmtA o.tfmt
  let l := lanes f (tileRow s t.core (o.low 1) r).data
  let sat := fmtSAT o.tfmt
  let code := match o.op with
    | .vrsum => laneFinal f sat (l.any Num.isInf) (treeSum 6 l)
    | .vrmax => (convert f 0 sat 0 ((l.drop 1).foldl Num.max' (l.getD 0 .zero))).getD 0
    | _ => (convert f 0 sat 0 ((l.drop 1).foldl Num.min' (l.getD 0 .zero))).getD 0
  let n := fmtK f
  let x := tileRow s t.core (o.low 0) (r / n)
  .ok (putRow t.core (o.low 0) (r / n) { x with data := putCode f x.data (r % n) code } s) { o with rows := r + 1 }

/-- A row of VACT (R155). -/
def actRow (t : Thread) (r : Nat) (s : State) (o : TileOp) : Beat :=
  let f := fmtA o.tfmt
  let tbl := memBytes (s.core t.core).act 0 2048
  let out := (lanes f (tileRow s t.core (o.low 1) r).data).map (actLane f (fmtSAT o.tfmt) tbl)
  .ok (putLanes f t.core (o.low 0) r out s) { o with rows := r + 1 }

/-- What beat `o.beat` of an operation does. -/
def beatOf (t : Thread) (s : State) (o : TileOp) : Beat :=
  let rows := fun (k : Nat) => ((List.range k).map (fun i => k * o.beat + i)).filter (fun r => decide (r < o.m))
  match o.op with
  | .tld => beatAll (loadRow t 0) (rows 2) s o
  | .tlds => beatAll (loadRow t 1) (rows 4) s o
  | .tldp => beatAll (loadRow t 2) (rows 2) s o
  | .tst => beatAll (storeRow t 0) (rows 2) s o
  | .tsts => beatAll (storeRow t 1) (rows 4) s o
  | .tstp => beatAll (storeRow t 2) (rows 2) s o
  | .tldt => beatAll (transLoad t) [2 * o.beat, 2 * o.beat + 1] s o
  | .tstt => beatAll (transStore t) [2 * o.beat, 2 * o.beat + 1] s o
  | .tldc => convLoad t s o
  | .tstc => convStore t s o
  | .vactld => beatAll (actLoad t) [4 * o.beat, 4 * o.beat + 1, 4 * o.beat + 2, 4 * o.beat + 3] s o
  | .accrd => accrdRow t o.beat s o
  | .tcvt => tcvtRow t o.beat s o
  | .qnt => qntRow t o.beat s o
  | .vadd => lanewiseRow t o.beat s o
  | .vmul => lanewiseRow t o.beat s o
  | .vmax => lanewiseRow t o.beat s o
  | .vmin => lanewiseRow t o.beat s o
  | .vfma => fmaBeat t s o
  | .vrsum => reduceRow t o.beat s o
  | .vrmax => reduceRow t o.beat s o
  | .vrmin => reduceRow t o.beat s o
  | .vact => actRow t o.beat s o
  | .mma | .accz | .tfree => .ok s o

/-! ## The matrix unit (R135 to R138) -/

/-- Compute length C of a class (R136). -/
def mmaC (cls : Nat) : Nat := if cls = 0 ∨ cls = 1 then 64 else if cls = 2 then 128 else if cls = 8 ∨ cls = 9 then 40 else 32

/-- An MMA that started in cycle `st` fetches through RD0 and RD1 in cycle `u` (R136, R137). -/
def fetchesAt (cls st u : Nat) : Bool :=
  decide (st + 4 ≤ u) && (let j := u - (st + 4)
    if cls = 8 ∨ cls = 9 then (List.range 16).any (fun k => decide (5 * k / 2 = j))
    else decide (j < mmaC cls) && decide (j % (mmaC cls / 16) = 0))

def TileOp.cls (o : TileOp) : Nat := fmtClass (fmtA o.tfmt)

/-- Offset of the activity count of a class (R618). -/
def macOffset (cls : Nat) : Nat :=
  if cls ≤ 1 then 0x6800 else if cls = 2 then 0x6808 else if cls ≤ 5 then 0x6810 else if cls ≤ 9 then 0x6818 else 0x6820

/-- The format fault an MMA's side read finds: scale bytes, then ternary bytes, then patch entries of A (R85, R86, R91, R137). -/
def mmaFault (s : State) (c : Nat) (o : TileOp) : Option Nat :=
  let fa := fmtA o.tfmt
  let fb := fmtB o.tfmt
  let a := (List.range o.m).map (tileRow s c (o.low 1))
  let b := (List.range o.n).map (tileRow s c (o.low 2))
  let blocks := List.range (fmtK fa / 32)
  let elems := List.range (fmtK fa)
  if a.any (fun x => scaleBad fa x blocks) || b.any (fun x => scaleBad fb x blocks) then some 4
  else if a.any (fun x => elems.any (badTernary fa x.data)) || b.any (fun x => elems.any (badTernary fb x.data)) then some 5
  else if a.any (fun x => patchBad fa x blocks) then some 6
  else none

/-- Element (r, c)'s new word, and whether it saturated or overflowed (R56 to R62). -/
def mmaElem (o : TileOp) (a b : List Num) (w : Word) : Word × Bool :=
  let (v, sat) := if fmtACCT o.tfmt = 0 then accInt32 (fmtSAT o.tfmt) w.toNat a b
    else accFp32 (fmtSAT o.tfmt) w.toNat a b (fmtK (fmtA o.tfmt) / 32)
  (word v, sat)

/-- The side read of an MMA (R137): the scale sides of ta and tb and the patch side of ta, with no data yet, and the committed bank
copied to the working bank (R121). -/
def sideRead (c : Nat) (o : TileOp) (s : State) : TileOp × State :=
  let side := fun (i : Nat) (p : Bool) =>
    let x := (s.core c).tile i
    if x.inUse then { x with data := [], patch := if p then x.patch else [] } else Tile.reset
  ({ o with srcA := side (o.low 1) true, srcB := side (o.low 2) false },
    s.updCore c (fun k => k.updAcc ((o.args.getD 0 0).toNat % 4) (fun x => { x with working := x.committed })))

/-- The fetch of cycle j of the compute time moves column slice 4 × `n` of all 32 rows of ta and tb (R136). -/
def fetchSlice (k : Core) (n : Nat) (o : TileOp) : TileOp :=
  let slice := fun (i : Nat) (x : Tile) =>
    let y := k.tile i
    { x with data := (List.range 32).foldl (fun m r =>
        memPut m (64 * r + 4 * n) (if y.inUse then memBytes y.data (64 * r + 4 * n) 4 else List.replicate 4 0)) x.data }
  { o with srcA := slice (o.low 1) o.srcA, srcB := slice (o.low 2) o.srcB }

/-- The column slice that a running MMA of class `cls`, started in cycle `st`, fetches in cycle `u` (R136, R137). -/
def sliceAt (cls st u : Nat) : Nat :=
  let j := u - (st + 4)
  if cls = 8 ∨ cls = 9 then (2 * j + 4) / 5 else j / (mmaC cls / 16)

/-- Core cycle `u` begins at a core: the fetch of a running MMA that falls in it reads its slice and claims RD0 and RD1 (R136,
R161). What the cycle's other commands write is not in it (DESIGN CHOICE, log entry 149). -/
def fetchCycle (u : Nat) (k : Core) : Core :=
  let due := fun (o : TileOp) => decide (o.op = .mma) && decide (o.phase = .running) && fetchesAt o.cls o.at_ u
  if k.tops.any due then
    { k with
      fetched := some u
      tops := k.tops.map (fun o => if due o then fetchSlice k (sliceAt o.cls o.at_ u) o else o) }
  else k

/-- Row r of an operand as the MMA has read it. -/
def readRowOf (x : Tile) (r : Nat) : Row :=
  { data := memBytes x.data (64 * r) 64, scale := memBytes x.scale (16 * r) 16, patch := memBytes x.patch (32 * r) 32 }

/-- The results of an MMA into the working bank: for each row, each column's word and whether it saturated (R121, R135). -/
def mmaRows (s : State) (c : Nat) (o : TileOp) : List (List (Word × Bool)) :=
  let value := fun (f : Nat) (x : Tile) (r : Nat) (p : Bool) => (List.range (fmtK f)).map (rowValue f (readRowOf x r) p)
  let acc := ((s.core c).acc ((o.args.getD 0 0).toNat % 4)).working
  let bs := (List.range o.n).map (fun j => value (fmtB o.tfmt) o.srcB j false)
  (List.range o.m).map (fun r =>
    let a := value (fmtA o.tfmt) o.srcA r true
    bs.zipIdx.map (fun p => mmaElem o a p.1 (tblGet (zeros 32) acc (32 * r + p.2))))

/-- The increment AC_new − AC_old as FP32 (R97). -/
def increment (acct : Nat) (old new : Word) : Word :=
  let v := fun (w : Word) => if acct = 0 then numInt (signed 32 w.toNat) else codeValue 0x11 w.toNat
  word (roundFp32 false ((v new).add (v old).neg)).1

/-- Sampling of a completed MMA (R95 to R98): its sampled rows enter the queue in ascending order while it has room (DESIGN CHOICE,
log entry 150). -/
def sampleMma (t : Thread) (o : TileOp) (old : Tbl Word) (rows : List (List (Word × Bool))) (s : State) : State :=
  let b := benchOf t.core
  let k := fmtASYK o.tfmt
  if bit ((s.bench b).r 0x4400).toNat 0 = false ∨ k = 0 then s
  else
    let x := s.ctx t
    let fn := match partOf s b with
      | some p => (s.part p).fn
      | none => 0
    let take := fun (s : State) (p : List (Word × Bool) × Nat) =>
      if (x.samples * 32 + p.2 + fn) % 2 ^ k ≠ 0 then s
      else if 2 ≤ (coreSamples s t.core).2.length then count b 0x4410 1 s
      else
        let incs := p.1.zipIdx.map (fun q => increment (fmtACCT o.tfmt) (tblGet (zeros 32) old (32 * p.2 + q.2)) q.1.1)
        let sm : Sample :=
          { row := p.2, n := o.n, k := fmtK (fmtA o.tfmt), aref := x.reg 0x029, bref := x.reg 0x02A, stride := x.reg 0x02B,
            layer := (x.reg 0x02C).toNat % 16, incs := incs, at_ := coreNow s }
        s.updCore t.core (fun k => { k with samplesQ := k.samplesQ ++ [sm] })
    (rows.zipIdx.foldl take s).updCtx t (fun x => { x with samples := x.samples + 1 })

/-- An MMA completes: the results are in the working bank and the banks exchange, flags and counters are updated (R121, R137, R60,
R62, R94). -/
def mmaCommit (t : Thread) (o : TileOp) (s : State) : State :=
  let ac := (o.args.getD 0 0).toNat % 4
  let old := ((s.core t.core).acc ac).committed
  let rows := mmaRows s t.core o
  let new := rows.zipIdx.foldl (fun a p => p.1.zipIdx.foldl (fun a q => tblSet (zeros 32) a (32 * p.2 + q.2) q.1.1) a)
    ((s.core t.core).acc ac).working
  let sat := rows.zipIdx.foldl (fun v p => v + b2n (p.1.any (·.2)) * 2 ^ p.2) 0
  let n := rows.foldl (fun v l => v + (l.filter (·.2)).length) 0
  let s1 := s.updCore t.core (fun k =>
    (k.updAcc ac (fun _ => { committed := new, working := old })).setReg (0x109 + ac) (k.reg (0x109 + ac) ||| word sat))
  sampleMma t o old rows (if n = 0 then s1 else coreCount t.core 0x00 n s1)

/-! ## Start, beat, completion (R158 to R162) -/

/-- A running assay window of a core (R99, R146). -/
def inWindow (s : State) (c : Nat) : Bool :=
  (s.bench (benchOf c)).awins.any (fun w => decide (w.core = c) && (match w.endAt with
    | some e => decide (coreNow s < e)
    | none => false))

/-- Two operations claim a common port. -/
def portsMeet (a b : TOp) : Bool :=
  (a.ports.1 && b.ports.1) || (a.ports.2.1 && b.ports.2.1) || (a.ports.2.2 && b.ports.2.2)

/-- The oldest operation not started may start now (R156, R159, R160): `before` are those issued before it. -/
def mayStart (s : State) (c : Nat) (before : List TileOp) (o : TileOp) : Bool :=
  let k := s.core c
  let now := coreNow s
  let running := before.filter (fun p => decide (p.phase = .running) && decide (p.op ≠ .mma))
  decide (o.at_ < now) && (match o.op.unit with
    | 0 => decide (k.mmaFree ≤ now)
    | 3 => true
    | u =>
      decide ((if u = 1 then k.vecFree else k.lsFree) ≤ now) &&
      running.all (fun p => decide (p.op.unit ≠ u) && !portsMeet p.op o.op) &&
      (!o.op.ports.1 || decide (k.rd0Free ≤ now)) && (!o.op.ports.2.1 || decide (k.rd1Free ≤ now)) &&
      (!o.op.ports.2.2 || decide (k.wrFree ≤ now)) &&
      (decide (u = 1) || !inWindow s c)) &&
    (decide (o.op ≠ .vact) || before.all (fun p => decide (p.op ≠ .vactld))) &&
    (decide (o.op ≠ .vactld) || before.all (fun p => decide (p.op ≠ .vact)))

/-- Change the tile operation of a context. -/
def setTileOp (c : Nat) (o : TileOp) (s : State) : State :=
  s.updCore c (fun k => { k with tops := k.tops.map (fun p => if p.ctx = o.ctx then o else p) })

/-- A fault of a tile operation discards it (R163). -/
def tileFault (t : Thread) (o : TileOp) (cause : Nat) (info : Word) (s : State) : State :=
  stopCheck 8 t (fault t cause info o.pc true (discardTile t (setTileOp t.core o s)))

/-- The operation leaves the machine and releases its thread (R131). -/
def tileRelease (t : Thread) (s : State) : State :=
  completeHeld t [] (s.updCore t.core (fun k => { k with tops := k.tops.filter (fun p => decide (p.ctx ≠ t.ctx)) }))

/-- TILE_OP_START. ACCZ and TFREE start, make their one beat and complete in one cycle (R133, R166); an MMA begins its side read. -/
def tileStart (c : Nat) (s : State) : State :=
  let tops := (s.core c).tops
  let before := tops.takeWhile (fun o => decide (o.phase ≠ .issued))
  match tops[before.length]? with
  | none => s
  | some o =>
    if mayStart s c before o = false then s
    else
      let t : Thread := ⟨c, o.ctx⟩
      let x := s.ctx t
      let o1 := { o with phase := .running, at_ := coreNow s, srg := x.reg 0x023 ++ x.reg 0x022, view := x.sr }
      if o.op = .accz then tileRelease t (accz c o s)
      else if o.op = .tfree then tileRelease t (tfree c o s)
      else if o.op ≠ .mma then setTileOp c o1 s
      else
        let (o1, s0) := sideRead c o1 s
        let s1 := setTileOp c o1 s0
        let s2 := act (benchOf c) 0x6828 32 (act (benchOf c) (macOffset o.cls) (o.m * o.n * fmtK (fmtA o.tfmt)) s1)
        let s3 := s2.updCore c (fun k => { k with mmaFree := coreNow s + mmaC o.cls })
        match mmaFault s3 c o1 with
        | some i => tileFault t o1 0x0A (word i) s3
        | none => s3

/-- A fetch of an MMA claims RD0 and RD1 in this cycle (R160, R161). -/
def fetchNow (s : State) (c : Nat) : Bool := decide ((s.core c).fetched = some (coreNow s))

/-- TILE_BEAT: the thread's running operation makes its next beat, at most one a core cycle and none in a cycle whose ports a
fetch claims. -/
def tileBeat (t : Thread) (s : State) : State :=
  match tileOpOf s t with
  | none => s
  | some o =>
    if o.phase ≠ .running ∨ o.op = .mma ∨ coreNow s < o.at_ ∨ ((o.op.ports.1 || o.op.ports.2.1) && fetchNow s t.core) then s
    else match beatOf t s o with
      | .fault s1 o1 cause info => tileFault t o1 cause info s1
      | .ok s1 o1 =>
        let b := o.beat + 1
        let s2 := act (benchOf t.core) 0x6828 (b2n o.op.ports.1 + b2n o.op.ports.2.1 + b2n o.op.ports.2.2) s1
        if b < o.beats then setTileOp t.core { o1 with beat := b, at_ := coreNow s + 1 } s2
        else
          (setTileOp t.core { o1 with beat := b, phase := .tail, at_ := coreNow s } s2).updCore t.core (endBeats o.op (coreNow s))

/-- The generator state of an operation that uses it, in SR mode, and the counters are committed (R73, R74, R92). A seed that another
thread writes into CORE_SRG while such an operation runs is overwritten by it (DESIGN CHOICE, log entry 151). -/
def tileCommit (t : Thread) (o : TileOp) (s : State) : State :=
  let s1 := match o.op with
    | .tldc | .tstc | .tcvt | .qnt | .accrd =>
      if fmtRND o.tfmt = 2 then s.updCtx t (fun x => (x.setReg 0x022 (o.srg.extractLsb' 0 32)).setReg 0x023 (o.srg.extractLsb' 32 32))
      else s
    | _ => s
  let s2 := if o.sclUf = 0 then s1 else coreCount t.core 0x08 o.sclUf s1
  if o.patchOvf = 0 then s2 else coreCount t.core 0x10 o.patchOvf s2

/-- The completion cycle of an operation in its tail has come (R162). -/
def tailDue (s : State) (o : TileOp) : Bool := decide (o.phase = .tail) && decide (o.at_ + o.op.tail ≤ coreNow s)

/-- The completion cycle s + C + 8 of a running MMA has come (R137). -/
def mmaDue (s : State) (o : TileOp) : Bool :=
  decide (o.op = .mma) && decide (o.phase = .running) && decide (o.at_ + mmaC o.cls + 8 ≤ coreNow s)

/-- TILE_OP_COMPLETE. -/
def tileDone (t : Thread) (s : State) : State :=
  match tileOpOf s t with
  | none => s
  | some o => if tailDue s o then tileRelease t (tileCommit t o s) else s

/-- MMA_COMPLETE: at s + C + 8. -/
def mmaDone (t : Thread) (s : State) : State :=
  match tileOpOf s t with
  | none => s
  | some o => if mmaDue s o then tileRelease t (mmaCommit t o s) else s

/-- An operation whose completion cycle has come is complete for whatever arrives in that cycle (R164). -/
def settleTile (t : Thread) (s : State) : State := mmaDone t (tileDone t s)

/-! ## The commands -/

/-- MMA (R135). -/
def execMma (t : Thread) (last : Byte) (s : State) : Ans := .next (tileIssue t .mma last s)
/-- ACCZ (R123). -/
def execAccz (t : Thread) (last : Byte) (s : State) : Ans := .next (tileIssue t .accz last s)
/-- ACCRD (R150). -/
def execAccrd (t : Thread) (last : Byte) (s : State) : Ans := .next (tileIssue t .accrd last s)
/-- TFREE (R115). -/
def execTfree (t : Thread) (last : Byte) (s : State) : Ans := .next (tileIssue t .tfree last s)
/-- TLD (R140). -/
def execTld (t : Thread) (last : Byte) (s : State) : Ans := .next (tileIssue t .tld last s)
/-- TLDT (R141). -/
def execTldt (t : Thread) (last : Byte) (s : State) : Ans := .next (tileIssue t .tldt last s)
/-- TLDC (R142). -/
def execTldc (t : Thread) (last : Byte) (s : State) : Ans := .next (tileIssue t .tldc last s)
/-- TLDS (R144). -/
def execTlds (t : Thread) (last : Byte) (s : State) : Ans := .next (tileIssue t .tlds last s)
/-- TLDP (R144). -/
def execTldp (t : Thread) (last : Byte) (s : State) : Ans := .next (tileIssue t .tldp last s)
/-- TST (R140). -/
def execTst (t : Thread) (last : Byte) (s : State) : Ans := .next (tileIssue t .tst last s)
/-- TSTT (R141). -/
def execTstt (t : Thread) (last : Byte) (s : State) : Ans := .next (tileIssue t .tstt last s)
/-- TSTC (R142). -/
def execTstc (t : Thread) (last : Byte) (s : State) : Ans := .next (tileIssue t .tstc last s)
/-- TSTS (R144). -/
def execTsts (t : Thread) (last : Byte) (s : State) : Ans := .next (tileIssue t .tsts last s)
/-- TSTP (R144). -/
def execTstp (t : Thread) (last : Byte) (s : State) : Ans := .next (tileIssue t .tstp last s)
/-- TCVT (R147). -/
def execTcvt (t : Thread) (last : Byte) (s : State) : Ans := .next (tileIssue t .tcvt last s)
/-- QNT (R149). -/
def execQnt (t : Thread) (last : Byte) (s : State) : Ans := .next (tileIssue t .qnt last s)
/-- VADD (R152). -/
def execVadd (t : Thread) (last : Byte) (s : State) : Ans := .next (tileIssue t .vadd last s)
/-- VMUL (R152). -/
def execVmul (t : Thread) (last : Byte) (s : State) : Ans := .next (tileIssue t .vmul last s)
/-- VMAX (R152). -/
def execVmax (t : Thread) (last : Byte) (s : State) : Ans := .next (tileIssue t .vmax last s)
/-- VMIN (R152). -/
def execVmin (t : Thread) (last : Byte) (s : State) : Ans := .next (tileIssue t .vmin last s)
/-- VFMA (R153). -/
def execVfma (t : Thread) (last : Byte) (s : State) : Ans := .next (tileIssue t .vfma last s)
/-- VRSUM (R154). -/
def execVrsum (t : Thread) (last : Byte) (s : State) : Ans := .next (tileIssue t .vrsum last s)
/-- VRMAX (R154). -/
def execVrmax (t : Thread) (last : Byte) (s : State) : Ans := .next (tileIssue t .vrmax last s)
/-- VRMIN (R154). -/
def execVrmin (t : Thread) (last : Byte) (s : State) : Ans := .next (tileIssue t .vrmin last s)
/-- VACT (R155). -/
def execVact (t : Thread) (last : Byte) (s : State) : Ans := .next (tileIssue t .vact last s)
/-- VACTLD (R156). -/
def execVactld (t : Thread) (last : Byte) (s : State) : Ans := .next (tileIssue t .vactld last s)
/-- TILE_OP_START (R159). -/
def execTileOpStart (core : Nat) (s : State) : Ans := .next (tileStart core s)
/-- TILE_BEAT (R161). -/
def execTileBeat (t : Thread) (s : State) : Ans := .next (tileBeat t s)
/-- TILE_OP_COMPLETE (R162). -/
def execTileOpComplete (t : Thread) (s : State) : Ans := .next (tileDone t s)
/-- MMA_COMPLETE (R137). -/
def execMmaComplete (t : Thread) (s : State) : Ans := .next (mmaDone t s)

end Sys2Proof.Machine
end

