-- ==== Sys2Proof/Machine/Threads.lean ====
section
/-! DEFINITION. Threads and exceptions: FORK, JOIN, the end of a thread, suspension, system calls, returns, hold windows,
interrupts and injection (R256 to R312, R743, R744). -/

namespace Sys2Proof.Machine

/-! ## FORK (R263 to R266) -/

/-- The completion tally of a context (R266). -/
def doneTally (t : Thread) : Nat := benchOf t.core * 512 + 480 + t.core % 4 * 8 + t.ctx

/-- The state a thread started by FORK begins in (R264). -/
def forked (entry a cls : Word) (tfmts : List Word) (x : Ctx) : Ctx :=
  let set := fun (x : Ctx) (l : List (Nat × Word)) => l.foldl (fun x p => x.setReg p.1 p.2) x
  { set x [(0x002, x.reg 0), (0x005, x.reg 3), (0x020, 0), (0x021, 0), (0x024, tfmts.getD 0 0), (0x025, tfmts.getD 1 0),
      (0x026, tfmts.getD 2 0), (0x027, tfmts.getD 3 0), (0x04B, cls)] with
    lvl := .u, pc := entry, ops := [a], rets := [], ldepth := 0, st := .run, wait := .none, heldPops := 0, heldLen := 0,
    muls := [], resv := none, hold := none, holdLen := none, spinFrom := none, suspReq := false, samples := 0 }

/-- Start context `k` and set its completion tally to 1 (R266). -/
def startFork (t : Thread) (k : Nat) (entry a cls : Word) (s : State) : State :=
  let u : Thread := ⟨t.core, k⟩
  let fm := (List.range 4).map (fun i => (s.ctx t).reg (0x024 + i))
  let op : TallyOp :=
    { op := 5, tally := doneTally u, val := 0, cond := 0, form := 0, scope := 0, core := t.core, ctx := k, agent := 0, serial := 0 }
  toSlice (benchOf t.core) (coreNow s + 2) (prioOf op) op (s.updCtx u (forked entry a cls fm))

/-- FORK: ( entry arg class -- r ) (R263). -/
def fork (t : Thread) (s : State) : State :=
  issue t 0xE3 none 1 ⟨3, 1, 0, 0⟩ (fun _ => none)
    (fun s a _ =>
      let cls := (arg a 0).toNat
      if 3 < cls then pushes s [0x80000003#32]
      else match (List.range 8).find? (fun k => decide (k ≠ 0) && decide (k < nCtx s t.core) && decide (((s.core t.core).ctx k).st = .free)) with
        | none => pushes s [0x80000001#32]
        | some k =>
          if grantable s t.core cls = false then pushes s [0x80000002#32]
          else pushes (startFork t k (arg a 2) (arg a 1) (arg a 0) s) [word k]) s

/-! ## JOIN (R267) -/

/-- JOIN: ( tid -- st ). -/
def join (t : Thread) (s : State) : State :=
  issue t 0xE4 none 1 ⟨1, 1, 0, 0⟩ (fun _ => none)
    (fun s a _ =>
      let tid := (arg a 0).toNat
      if tid = 0 ∨ nCtx s t.core ≤ tid ∨ tid = t.ctx then pushes s [3]
      else
        let u : Thread := ⟨t.core, tid⟩
        if ((s.bench (benchOf t.core)).tally (doneTally u % 512)).count = 0 then pushes s [truth (s.ctx u).lastEnd]
        else .held (s.updCtx t (fun x => { x with spinFrom := some (coreNow s + 1) }))
          (.join tid (coreNow s) (coreNow s + 2 ^ ((s.ctx t).reg 0x04C).toNat))) s

/-- The core cycle in which the awaited thread's completion reaches a JOIN issued at `since` (R267). -/
def joinWoken (s : State) (t : Thread) (tid since : Nat) : Option Nat :=
  match ((s.bench (benchOf t.core)).tally (doneTally ⟨t.core, tid⟩ % 512)).lastAdv with
  | some u => if since ≤ u then some (u + 2) else none
  | none => none

/-- JOIN_WAKE: two core cycles after the update takes effect. -/
def joinWake (t : Thread) (s : State) : State :=
  match (s.ctx t).wait with
  | .join tid since _ =>
    match joinWoken s t tid since with
    | some u => if u ≤ coreNow s then completeHeld t [truth (s.ctx ⟨t.core, tid⟩).lastEnd] (countSpin t true s) else s
    | none => s
  | _ => s

/-- JOIN_TIMEOUT: status 2, with no interrupt, when the count is still 1 in the cycle in which the timeout falls due. -/
def joinTimeout (t : Thread) (s : State) : State :=
  match (s.ctx t).wait with
  | .join tid since due =>
    let inTime := match joinWoken s t tid since with
      | some u => decide (u ≤ due + 2)
      | none => false
    if due ≤ coreNow s ∧ inTime = false then completeHeld t [2] (countSpin t true s) else s
  | _ => s

/-! ## The end of a thread (R266, R268, R269, R273) -/

/-- QUIT: C0 parks at the syllable after it (R269); a pool thread begins to end (R268). -/
def quit (t : Thread) (s : State) : State :=
  issue t 0xE5 none 1 ⟨0, 0, 0, 0⟩ (fun _ => none)
    (fun s _ _ =>
      if t.ctx = 0 then goes (s.updCtx t (fun x => { x with st := .park })) [] (after s t)
      else .held s (.ending false)) s

/-- Every porter descriptor the thread posted has a final status. -/
def descriptorsFinal (s : State) (t : Thread) : Bool :=
  (List.range 16).all (fun i =>
    let x := (s.bench (benchOf t.core)).slot (chanIx t.core i)
    !(decide (x.ctx = t.ctx) && decide (1 ≤ x.state) && decide (x.state ≤ 3)))

/-- Tiles that a thread holds. -/
def tilesOf (s : State) (t : Thread) : List Nat :=
  if dynamic s t.core then heldUnits (s.core t.core) 0 t.ctx
  else (List.range 16).filter (fun i => bit (maskOf s t.core (classOf s t) 0) i)

/-- Release every unit a thread holds in dynamic mode: queues are disarmed (R443), uncollected slots discarded (R418). -/
def releaseUnits (t : Thread) (s : State) : State :=
  if dynamic s t.core = false then s
  else
    let k := s.core t.core
    let drop := fun (o : Tbl Nat) => o.filter (fun p => decide (p.2 ≠ t.ctx + 1))
    let s1 := forAll (heldUnits k 2 t.ctx) (fun q s => disarm t.core q s) s
    let s2 := forAll (heldUnits k 3 t.ctx) (fun i s => s.updBench (benchOf t.core) (fun x => x.updSlot (chanIx t.core i) (fun _ => Slot.reset))) s1
    s2.updCore t.core (fun k => { k with tileOwn := drop k.tileOwn, queueOwn := drop k.queueOwn, slotOwn := drop k.slotOwn })

/-- The steps of an ending thread after its descriptors are final (R268): channels aborted, tiles freed, units released, LASTEND,
the completion tally's update on its way, TEND. -/
def endSteps (t : Thread) (lastEnd : Bool) (s : State) : State :=
  let s1 := forAll (List.range 16) (fun h s => if (s.chanOf t.core h).ctx = t.ctx then abortOpen t.core h s else s) s
  let s2 := releaseUnits t (forAll (tilesOf s t) (fun i s => s.updCore t.core (fun k => k.updTile i (fun x => { x with inUse := false }))) s1)
  let s3 := s2.updCtx t (fun x => { x with lastEnd := lastEnd, wait := .ended })
  let op : TallyOp := { op := 6, tally := doneTally t, val := 0, cond := 0, form := 0, scope := 0, core := t.core, ctx := t.ctx, agent := 0, serial := 0 }
  setPend t.core 1 (toSlice (benchOf t.core) (coreNow s + 2) (prioOf op) op s3)

/-- THREAD_END. -/
def threadEnd (t : Thread) (s : State) : State :=
  match (s.ctx t).wait with
  | .ending le => if descriptorsFinal s t then endSteps t le s else s
  | _ => s

/-! ## Suspension (R270 to R272, R744) -/

/-- What a held instruction does when its thread must stop: none where it completes first, else the state with the instruction
given up or withdrawn, and whether a tile operation was discarded (R163, R167, R252, R744). A tile operation whose completion cycle has
come is complete (R164). -/
def yieldHeld (t : Thread) (s : State) : Option (State × Bool) :=
  match (s.ctx t).wait with
  | .none => some (s, false)
  | .tile =>
    match tileOpOf s t with
    | some o =>
      if tailDue s o || mmaDue s o then some (settleTile t s, false)
      else if o.phase ≠ .issued ∧ o.inPlace then none else some (discardTile t s, true)
    | none => some (s, false)
  | .join _ _ _ => some (abandon t s, false)
  | .watch _ _ _ _ _ => some (abandon t s, false)
  | .csend _ _ _ => some (abandon t s, false)
  | _ => none

/-- The thread is ending (R270). -/
def isEnding (x : Ctx) : Bool :=
  match x.wait with
  | .ending _ => true
  | .ended => true
  | _ => false

/-- Ask a thread in RUN to stop: at once where it is at a boundary or gives up what holds it, else at the boundary after the
instruction completes. -/
def askStop (t : Thread) (s : State) : State :=
  let x := s.ctx t
  if x.st ≠ .run ∨ isEnding x then s
  else match yieldHeld t s with
    | some (s1, _) => suspendNow t s1
    | none => s.updCtx t (fun x => { x with suspReq := true })

/-- THSUSP: ( tid -- ): suspend a pool thread; the issuer holds until it has stopped. -/
def thsusp (t : Thread) (s : State) : State :=
  stopCheck 8 t (issue t 0xEA none 1 ⟨1, 0, 0, 0⟩ (sOnly t 0xEA)
    (fun s a _ =>
      let tid := (arg a 0).toNat
      let u : Thread := ⟨t.core, tid⟩
      if tid = 0 ∨ nCtx s t.core ≤ tid then .exc s 0x03 (syllables s t 0xEA none)
      else if u = t then pushes (s.updCtx t (fun x => { x with suspReq := true })) []
      else
        let s1 := askStop u s
        if (s1.ctx u).st = .run ∧ (s1.ctx u).suspReq then .held s1 (.thsusp tid) else pushes s1 []) s)

/-- THRESM: ( tid -- ): a context in SUSP or HALT runs on at CORE_TPC (R271). -/
def thresm (t : Thread) (s : State) : State :=
  issue t 0xEB none 1 ⟨1, 0, 0, 0⟩ (sOnly t 0xEB)
    (fun s a _ =>
      let tid := (arg a 0).toNat
      let u : Thread := ⟨t.core, tid⟩
      if tid = 0 ∨ nCtx s t.core ≤ tid then .exc s 0x03 (syllables s t 0xEB none)
      else if (s.ctx u).st = .susp ∨ (s.ctx u).st = .halt then
        pushes (s.updCtx u (fun x => { x with st := .run, pc := x.reg 0x043 })) []
      else pushes s []) s

/-! ## System calls, returns, hold windows (R285, R294 to R298) -/

/-- SYSC n: entry through vector 0x10 at S, or at F from F, saving the address of the syllable after it (R285, R286). -/
def sysc (t : Thread) (n : Byte) (s : State) : State :=
  issue t 0xE0 (some n) 2 ⟨0, 0, 0, 0⟩ (fun _ => none)
    (fun s _ _ =>
      let x := s.ctx t
      .done (enter t (if x.lvl = .f then 2 else 1) 0x10 (word n.toNat) (x.pc + 2) false 0 s)) s

/-- RETX (R294 to R296). -/
def retx (t : Thread) (s : State) : State :=
  issue t 0xE1 none 1 ⟨0, 0, 0, 0⟩ (sOnly t 0xE1)
    (fun s _ _ =>
      match retxCheck s t with
      | some i => .exc s 0x0C (word i)
      | none => .done (doRetx t s)) s

/-- UNHOLD: ends the hold window (R298). -/
def unhold (t : Thread) (s : State) : State :=
  issue t 0xE2 none 1 ⟨0, 0, 0, 0⟩ (sOnly t 0xE2)
    (fun s _ _ => pushes (s.updCtx t (fun x => { x with hold := none, holdLen := none })) []) s

/-- HOLD_EXPIRY: the window's length has passed; counted in CORE_CNT_HOLDEXP (R298). -/
def holdExpiry (t : Thread) (s : State) : State :=
  match (s.ctx t).hold with
  | some e => if e ≤ coreNow s then coreCount t.core 0x20 1 (s.updCtx t (fun x => { x with hold := none })) else s
  | none => s

/-! ## Interrupts and injection (R286, R301, R306) -/

/-- INTERRUPT_ENTRY: C0 takes an enabled interrupt at a boundary, unless an injection comes first (R286). -/
def interruptEntry (c : Nat) (s : State) : State :=
  let t : Thread := ⟨c, 0⟩
  if deliverable s c ∧ (s.ctx t).inject = none then
    match yieldHeld t s with
    | some (s1, d) => enter t 1 0x11 ((s1.core c).reg 0x125 &&& (s1.core c).reg 0x126) (s1.ctx t).pc d 0 s1
    | none => s
  else s

/-- INJECTION: the Foreman's word is posted; at the context's next boundary it is taken through F vector 0x13, whatever the
context's state but LOCK (R306, R286). -/
def injection (t : Thread) (w : Word) (s : State) : State :=
  let x := s.ctx t
  if exists_ s t = false ∨ x.st = .lock then s
  else
    let w := x.inject.getD w
    match (if isEnding x then none else yieldHeld t s) with
    | none => s.updCtx t (fun x => { x with inject := some w })
    | some (s1, d) =>
      let y := s1.ctx t
      let pc := if y.st = .susp ∨ y.st = .halt then y.reg 0x043 else y.pc
      enter t 2 0x13 w pc d (stN y.st) (s1.updCtx t (fun x => { x with inject := none }))

/-! ## The commands -/

/-- FORK (R263). -/
def execFork (t : Thread) (s : State) : Ans := .next (fork t s)
/-- JOIN (R267). -/
def execJoin (t : Thread) (s : State) : Ans := .next (join t s)
/-- JOIN_WAKE (R267). -/
def execJoinWake (t : Thread) (s : State) : Ans := .next (joinWake t s)
/-- JOIN_TIMEOUT (R267). -/
def execJoinTimeout (t : Thread) (s : State) : Ans := .next (joinTimeout t s)
/-- QUIT (R268, R269). -/
def execQuit (t : Thread) (s : State) : Ans := .next (quit t s)
/-- THREAD_END (R266, R268). -/
def execThreadEnd (t : Thread) (s : State) : Ans := .next (threadEnd t s)
/-- THSUSP (R270). -/
def execThsusp (t : Thread) (s : State) : Ans := .next (thsusp t s)
/-- THRESM (R271). -/
def execThresm (t : Thread) (s : State) : Ans := .next (thresm t s)
/-- SYSC (R285). -/
def execSysc (t : Thread) (n : Byte) (s : State) : Ans := .next (sysc t n s)
/-- RETX (R294). -/
def execRetx (t : Thread) (s : State) : Ans := .next (retx t s)
/-- UNHOLD (R298). -/
def execUnhold (t : Thread) (s : State) : Ans := .next (unhold t s)
/-- HOLD_EXPIRY (R298). -/
def execHoldExpiry (t : Thread) (s : State) : Ans := .next (holdExpiry t s)
/-- INTERRUPT_ENTRY (R301). -/
def execInterruptEntry (core : Nat) (s : State) : Ans := .next (interruptEntry core s)
/-- INJECTION (R306). -/
def execInjection (t : Thread) (word : Word) (s : State) : Ans := .next (injection t word s)

end Sys2Proof.Machine
end

