-- ==== Sys2Proof/Machine/Micro.lean ====
section
/-! DEFINITION. Customer microcode: the decode table, the micro-sequencer and its micro-ops (R244 to R253). A sequence's
accesses are made when it ends. -/

namespace Sys2Proof.Machine

/-- CORE_UCDECnn and its fields (R244). -/
def ucdec (s : State) (c nn : Nat) : Nat := ((s.core c).reg (0x140 + nn)).toNat
def ucIn (d : Nat) : Nat := bits d 13 11
def ucOut (d : Nat) : Nat := bits d 16 14

/-- UCnn: issue (R244, R248, R250). -/
def uc (t : Thread) (nn : Nat) (s : State) : State :=
  let d := ucdec s t.core nn
  let bad := !bit d 18 || decide (4 < ucIn d) || decide (4 < ucOut d)
  issue t (0xC0 + nn) none 1 ⟨ucIn d, ucOut d, 0, 0⟩
    (fun s => if bad then some (0x03, syllables s t (0xC0 + nn) none)
      else if bit d 17 && decide ((s.ctx t).lvl = .u) then some (0x04, word (0xC0 + nn)) else none)
    (fun s a _ =>
      .held (s.updCore t.core (fun k => { k with micro := k.micro ++ [{ ctx := t.ctx, entry := nn, args := a, started := none, view := [] }] }))
        .micro) s

/-- The micro-sequencer in a sequence: micro-stack top first, next index, core cycles used, its own pair and multiplies. -/
structure MicroState where
  s : State
  stk : List Word
  i : Nat
  cyc : Nat
  acc : Dword
  muls : List MulOp

/-- How a sequence ends: its micro-stack, or a fault. -/
inductive MicroEnd where
  | done (m : MicroState)
  | fault (m : MicroState) (cause : Nat) (info : Word)

/-- The pair as read in this cycle, and whether the read is early (R209, R210). -/
def microPair (m : MicroState) : Dword × List MulOp :=
  let ready := m.muls.filter (fun o => decide (o.issued + 3 ≤ m.cyc))
  (ready.foldl mulStep m.acc, m.muls.filter (fun o => !decide (o.issued + 3 ≤ m.cyc)))

/-- One micro-op's effect on the micro-stack, with the region registers `view` of the sequence's start (R238): none where it is a microcode fault, else the new state, or a cause and XINFO. -/
def microOp (t : Thread) (view : Tbl Word) (op : Nat) (imm : Word) (m : MicroState) : Option (MicroState ⊕ (Nat × Word)) :=
  let k := m.stk
  let x := m.s.ctx t
  let seen := { x with sr := view }
  let put := fun (pops : Nat) (l : List Word) (m : MicroState) =>
    if k.length < pops ∨ 16 < k.length - pops + l.length then none else some (Sum.inl { m with stk := l ++ k.drop pops })
  let mul := fun (add : Bool) (v : Dword) => put 2 [] { m with muls := m.muls ++ [{ add := add, value := v, issued := m.cyc }] }
  let half := fun (hi : Bool) =>
    let (v, rest) := microPair m
    put 0 [if hi then v.extractLsb' 32 32 else v.extractLsb' 0 32]
      { m with acc := v, muls := rest, s := if rest = [] then m.s else coreCount t.core 0x18 1 m.s }
  let addr := (arg k 0).toNat
  let base := localBase t.core + addr
  let load := fun (n : Nat) (sgn : Bool) =>
    if k = [] then none
    else if misaligned addr n then some (Sum.inr (0x05, word addr))
    else if 0x100000 < addr + n ∨ permitted seen 0 addr n = false then some (Sum.inr (0x06, word addr))
    else match uncorrectable m.s base n with
      | some _ => some (Sum.inr (0x0D, lineView addr))
      | none => put 1 [extend n sgn (memBytes m.s.mem base n)] { m with s := noteRead base n m.s, cyc := m.cyc + 2 }
  let store := fun (n : Nat) =>
    if k.length < 2 then none
    else if misaligned addr n then some (Sum.inr (0x05, word addr))
    else if 0x100000 < addr + n ∨ permitted seen 1 addr n = false then some (Sum.inr (0x06, word addr))
    else put 2 [] { m with s := write base (leBytes (arg k 1).toNat n) m.s }
  match op with
  | 0x08 =>
    let n := (arg k 0).toNat
    if 14 < n ∨ k.length < n + 2 then none else put 1 [arg k (n + 1)] m
  | 0x09 => put 0 [word k.length] m
  | 0x20 => mul false (mulSigned k)
  | 0x21 => mul false (mulUnsigned k)
  | 0x22 => mul true (mulSigned k)
  | 0x23 => half false
  | 0x24 => half true
  | 0x2C => load 4 false
  | 0x2D => store 4
  | 0x2E => load 2 true
  | 0x2F => load 2 false
  | 0x30 => store 2
  | 0x31 => load 1 true
  | 0x32 => load 1 false
  | 0x33 => store 1
  | 0xF0 => put 0 [imm] m
  | _ => match basePure (x.reg 0x02D) op with
    | some (pops, _, f) => put pops (f k) m
    | none => none

/-- Micro-op `i` of a core's micro-store (R245). -/
def microWord (s : State) (c i : Nat) : Nat := (tblGet (zeros 32) (s.core c).ustore i).toNat

/-- Run a sequence that began at `start` (R246 to R250): at most 64 micro-ops. -/
def microRun (t : Thread) (view : Tbl Word) (start out : Nat) : Nat → MicroState → MicroEnd
  | 0, m => .fault m 0x08 (word m.i)
  | fuel + 1, m =>
    let w := microWord m.s t.core m.i
    let op := bits w 7 0
    let imm := BitVec.ofInt 32 (signed 16 (bits w 23 8))
    let bad := MicroEnd.fault m 0x08 (word m.i)
    let last := bit w 31
    if 2048 ≤ m.i ∨ start + 64 ≤ m.i ∨ bits w 30 24 ≠ 0 then bad
    else if op = 0xF1 ∨ op = 0xF2 then
      if m.stk = [] then bad
      else
        let taken := decide ((arg m.stk 0 = 0) = (op = 0xF1))
        let k := if taken then bits w 13 8 else 0
        let m1 := { m with stk := m.stk.drop 1, cyc := m.cyc + 1 + k, i := m.i + 1 + k }
        if last then (if m1.stk.length < out then bad else .done { m1 with cyc := m.cyc + 1 })
        else if (List.range k).any (fun j => bit (microWord m.s t.core (m.i + 1 + j)) 31) then bad
        else microRun t view start out fuel m1
    else match microOp t view op imm m with
      | none => bad
      | some (.inr (c, i)) => .fault m c i
      | some (.inl m1) =>
        let m2 := { m1 with cyc := m1.cyc + 1, i := m.i + 1 }
        if last then (if m2.stk.length < out then .fault m2 0x08 (word m.i) else .done m2)
        else microRun t view start out fuel m2

/-- The whole run of the sequence at the head of a core's micro-sequencer. -/
def microResult (c : Nat) (r : MicroRun) (s : State) : MicroEnd :=
  let d := ucdec s c r.entry
  microRun ⟨c, r.ctx⟩ r.view (bits d 10 0) (ucOut d) 64
    { s := s, stk := r.args, i := bits d 10 0, cyc := 0, acc := 0, muls := [] }

/-- MICROCODE_START: the oldest customer instruction's sequence starts when no other runs (R251). -/
def microStart (c : Nat) (s : State) : State :=
  match (s.core c).micro with
  | r :: rest =>
    if r.started = none then
      s.updCore c (fun k => { k with micro := { r with started := some (coreNow s), view := (k.ctx r.ctx).sr } :: rest })
    else s
  | [] => s

/-- MICROCODE_END: two core cycles of decode and the micro-ops' cycles after the start (R250), the sequence pushes its results,
or its thread takes the fault (R253). -/
def microEnd (c : Nat) (s : State) : State :=
  match (s.core c).micro with
  | r :: rest =>
    let t : Thread := ⟨c, r.ctx⟩
    match r.started with
    | none => s
    | some u =>
      let pop := fun (s : State) => s.updCore c (fun k => { k with micro := rest })
      match microResult c r s with
      | .done m =>
        if coreNow s < u + 2 + m.cyc then s
        else completeHeld t (m.stk.take (ucOut (ucdec s c r.entry))) (pop m.s)
      | .fault m cause info =>
        if coreNow s < u + 2 + m.cyc then s
        else
          let s1 := pop m.s
          faultHeld t cause info
            (if cause = 0x0D then memCont c (localBase c + info.toNat) (some t) s1 else s1)
  | [] => s

/-- UCNN (R248). -/
def execUcnn (t : Thread) (nn : Nat) (s : State) : Ans := .next (uc t (nn % 32) s)
/-- MICROCODE_START (R251). -/
def execMicrocodeStart (core : Nat) (s : State) : Ans := .next (microStart core s)
/-- MICROCODE_END (R250, R253). -/
def execMicrocodeEnd (core : Nat) (s : State) : Ans := .next (microEnd core s)

end Sys2Proof.Machine
end

