-- ==== Sys2Proof/Machine/Assay.lean ====
section
/-! DEFINITION. The assay unit: its windows and the comparison of samples with their FP16 reference (R95 to R107). -/

namespace Sys2Proof.Machine

/-- ASYW: ( len -- ): a window of the low 16 bits of len is requested; 0 opens none (R99). -/
def asyw (t : Thread) (s : State) : State :=
  issue t 0xE7 none 1 ⟨1, 0, 0, 0⟩ (fun _ => none)
    (fun s a _ =>
      let n := (arg a 0).toNat % 2 ^ 16
      pushes (if n = 0 then s else
        s.updBench (benchOf t.core) (fun x => { x with awins := x.awins ++ [{ core := t.core, len := n, endAt := none, free := 0 }] })) []) s

/-- A tile load or store of a core is running. -/
def lsRunning (s : State) (c : Nat) : Bool := (s.core c).tops.any (fun o => decide (o.op.unit = 2) && decide (o.phase = .running))

/-- ASSAY_WINDOW_START: the oldest window begins when none is served and its core's running load or store has ended (R100, R146). -/
def windowStart (b : Nat) (s : State) : State :=
  match (s.bench b).awins with
  | w :: r =>
    if w.endAt = none ∧ lsRunning s w.core = false then
      s.updBench b (fun x => { x with awins := { w with endAt := some (coreNow s + w.len), free := coreNow s } :: r })
    else s
  | [] => s

/-- The core cycle in which a sample's comparison would finish in a window, when it fits. -/
def sampleDue (w : AWin) (x : Sample) : Option Nat :=
  match w.endAt with
  | some e =>
    let d := max w.free x.at_ + sampleTime x
    if d ≤ e then some d else none
  | none => none

/-- ASSAY_WINDOW_END: the window's time is over and the samples that fitted in it are done. -/
def windowEnd (b : Nat) (s : State) : State :=
  match (s.bench b).awins with
  | w :: r => match w.endAt with
    | some e =>
      if e ≤ coreNow s ∧ (s.core w.core).samplesQ.all (fun x => (sampleDue w x).isNone) then s.updBench b (fun x => { x with awins := r })
      else s
    | none => s
  | [] => s

/-- Local addresses of a sample's reference rows: A row, then the B columns (R102). -/
def refAddrs (x : Sample) : List Nat :=
  (x.aref.toNat % 2 ^ 20 + x.row * (x.stride.toNat % 2 ^ 16)) ::
    (List.range x.n).map (fun j => x.bref.toNat % 2 ^ 20 + j * (x.stride.toNat / 2 ^ 16))

/-- K FP16 values from local memory. -/
def refRow (s : State) (c a k : Nat) : List Num := lanesN 0x04 (memBytes s.mem (localBase c + a) (2 * k)) k
where
  /-- The first `k` values of a byte list. -/
  lanesN (f : Nat) (l : List Byte) (k : Nat) : List Num := (List.range k).map (fun i => codeValue f (getCode f l i))

/-- floor(|e| × 2^−esc), at most 0xFFFF_FFFF; a NaN's value is free (R103). -/
def errorUnits (e : Num) (esc : Int) (s : State) : Nat × State :=
  match e with
  | .fin _ m x => (min (roundMag 1 0 m x esc) 0xFFFFFFFF, s)
  | .inf _ => (0xFFFFFFFF, s)
  | .nan =>
    let (v, s1) := takeFree s
    (v % 2 ^ 32, s1)

/-- A reference row or column holds uncorrectable data, for which the spec gives the unit no action: its error is then free. -/
def refBad (s : State) (c a k : Nat) : Bool := (uncorrectable s (localBase c + a) (2 * k)).isSome

/-- Column `j`'s comparison: MAX, SSE, CNT of the sample's slot (R102, R103). An addition of the reference value that overflows gives
infinity: no TFMT SAT is kept with a sample, and 0 is taken (DESIGN CHOICE, log entry 152). -/
def compareColumn (b c : Nat) (x : Sample) (a : List Num) (s : State) (j : Nat) : State :=
  let bcol := refRow s c ((refAddrs x).getD (j + 1) 0) x.k
  let ref := codeValue 0x11 (accFp32 false 0 a bcol (x.k / 32)).1
  let bad := refBad s c ((refAddrs x).getD 0 0) x.k || refBad s c ((refAddrs x).getD (j + 1) 0) x.k
  let e := if bad then .nan else (codeValue 0x11 (x.incs.getD j 0).toNat).add ref.neg
  let o := 0x4500 + x.layer * 0x40
  let (v, s1) := errorUnits e (signed 8 ((s.bench b).r (o + 0x20)).toNat) s
  let s2 := s1.updBench b (fun y => y.setR o (BitVec.ofNat 64 (max (y.r o).toNat v)))
  count b (o + 0x10) 1 (count b (o + 0x08) (v * v) s2)

/-- ASSAY_SAMPLE_DONE: the first sample of the window's core that fits in it is compared, or dropped when its reference lies outside
local memory (R101 to R106); a dropped sample takes its time of the window too (DESIGN CHOICE, log entry 153). -/
def sampleDone (b : Nat) (s : State) : State :=
  match (s.bench b).awins with
  | w :: r =>
    let q := (s.core w.core).samplesQ
    match q.findIdx? (fun x => (sampleDue w x).isSome) with
    | none => s
    | some i => match q[i]? with
      | none => s
      | some x =>
        let due := (sampleDue w x).getD 0
        if coreNow s < due then s
        else
          let s1 := (s.updCore w.core (fun k => { k with samplesQ := k.samplesQ.eraseIdx i })).updBench b (fun y =>
            { y with awins := { w with free := due } :: r })
          if (refAddrs x).any (fun a => decide (0x100000 < a + 2 * x.k)) then count b 0x4410 1 s1
          else
            let a := refRow s w.core ((refAddrs x).getD 0 0) x.k
            let s2 := forAll (refAddrs x) (fun a s => noteRead (localBase w.core + a) (2 * x.k) s) s1
            (List.range x.n).foldl (compareColumn b w.core x a) s2
  | [] => s

/-! ## The commands -/

/-- ASYW (R99). -/
def execAsyw (t : Thread) (s : State) : Ans := .next (asyw t s)
/-- ASSAY_WINDOW_START (R100). -/
def execAssayWindowStart (bench : Nat) (s : State) : Ans := .next (windowStart bench s)
/-- ASSAY_WINDOW_END (R99). -/
def execAssayWindowEnd (bench : Nat) (s : State) : Ans := .next (windowEnd bench s)
/-- ASSAY_SAMPLE_DONE (R103). -/
def execAssaySampleDone (bench : Nat) (s : State) : Ans := .next (sampleDone bench s)

end Sys2Proof.Machine
end

