-- ==== Sys2Proof/Machine/Porters.lean ====
section
/-! DEFINITION. Porters: descriptors, their checks, PPOST, PSTAT and PABORT, the flits a descriptor sends, and the counting of
what it delivers (R413 to R424, R507 to R512, R745). Slot n of core c has index c % 4 × 16 + n in its bench. -/

namespace Sys2Proof.Machine

def State.slotOf (s : State) (c i : Nat) : Slot := (s.bench (benchOf c)).slot (chanIx c i)
def State.updSlotOf (s : State) (c i : Nat) (f : Slot → Slot) : State := s.updBench (benchOf c) (fun x => x.updSlot (chanIx c i) f)

/-! ## Addresses of a descriptor (R382 to R388, R414) -/

/-- Where an address leads: 0 GDDR7, 1 CXL, 2 a local memory or bench memory window. -/
def tier (a : Nat) : Option Nat :=
  if a < 0x010000000000 then some 0
  else if a < 0x050000000000 then some 1
  else if (homeBench a).isSome then some 2
  else none

/-- The module address behind an address of a descriptor of bench `b`; none on an address-range error. -/
def portMap (s : State) (b a : Nat) (wr : Bool) : Option Nat :=
  match homeBench a with
  | some d => if samePart s b d && mapped s a then some a else none
  | none => relocate s b a wr

/-- The pieces of a range, cut at multiples of 256 KiB. -/
def pieces : Nat → Nat → Nat → List Nat
  | 0, _, _ => []
  | fuel + 1, a, n =>
    let k := 0x40000 - a % 0x40000
    if n = 0 then [] else if n ≤ k then [a] else a :: pieces fuel (a + k) (n - k)

/-- Every part of [a, a + n) is of one tier and maps. -/
def rangeMaps (s : State) (b a n : Nat) (wr : Bool) : Bool :=
  (pieces (n / 0x40000 + 2) a n).all (fun p => decide (tier p = tier a) && (portMap s b p wr).isSome)

/-- Every part of [a, a + n) lies at the GDDR7 device whose port station is bench `st`. -/
def rangeAt (s : State) (b a n : Nat) (wr : Bool) (st : Nat) : Bool :=
  (pieces (n / 0x40000 + 2) a n).all (fun p => match portMap s b p wr with
    | some m => decide (memStation (m / 2 ^ 36) = st)
    | none => false)

/-- Every part of [a, a + n) lies in memories of bench `d`. -/
def rangeIn (a n d : Nat) : Bool :=
  (pieces (n / 0x40000 + 2) a n).all (fun p => decide (homeBench p = some d))

/-- Some part of [a, a + n) lies in memories of bench `d`. -/
def rangeHits (a n d : Nat) : Bool := (pieces (n / 0x40000 + 2) a n).any (fun p => decide (homeBench p = some d))

/-! ## Validity (R413 to R415, R508) -/

/-- The moves of R414 by class: source tier, destination tier; `other`: the destination is of another bench than the source. -/
def movePermitted (cls src dst : Nat) (other : Bool) : Bool :=
  match src, dst with
  | 0, 2 => decide (cls ≤ 1) || decide (cls = 3)
  | 2, 0 => decide (cls ≤ 1)
  | 2, 2 => other && decide (cls = 0)
  | 1, 0 => decide (cls = 1)
  | 1, 2 => decide (cls = 1)
  | 0, 1 => decide (cls = 1)
  | 2, 1 => decide (cls = 1)
  | _, _ => false

/-- SSTR, DSTMOD and DSTSTR of REMOTE (R507). -/
def remoteSend (r : Nat) : Nat := bits r 41 28
def remoteMod (r : Nat) : Nat := bits r 13 0
def remoteStr (r : Nat) : Nat := bits r 27 14

/-- The place that a compiled move needs its connection to lead to: the X port of the device's station, or bench `d` (R415). -/
def placeNeeded (s : State) (b : Nat) (x : Slot) (d : Nat) : Option (Nat × Nat) :=
  let dev := fun (a : Nat) (wr : Bool) => (portMap s b a wr).map (fun m => memStation (m / 2 ^ 36))
  if tier x.src = some 0 then (dev x.src false).map (fun st => (st, 5))
  else if tier x.dst = some 0 then (dev x.dst true).map (fun st => (st, 5))
  else some (d, 6)

/-- Every part of a compiled move uses the one device its connection leads to. -/
def oneDevice (s : State) (b : Nat) (x : Slot) (st : Nat) : Bool :=
  if tier x.src = some 0 then rangeAt s b x.src x.len false st
  else if tier x.dst = some 0 then rangeAt s b x.dst x.len true st
  else true

/-- Connection `n` of bench `b` is valid, of TYPE 0, owned by the porter of core `c`, and leads where move `x` needs it (R415). -/
def connServes (s : State) (c n : Nat) (x : Slot) (d : Nat) : Bool :=
  let b := benchOf c
  let w := connWord s b n
  connValid w && decide (connType w = 0) && decide (tblGet nats (s.bench b).connOwn n = c % 4 / 2 + 1) &&
    decide (connEnd s b n = placeNeeded s b x d) && (match placeNeeded s b x d with
      | some (st, _) => decide (connDst w = st) && oneDevice s b x st
      | none => false)

/-- WHY of an invalid descriptor posted by core `c`, 0 for a valid one. `rsv`: its reserved fields are 0. The order in which
the causes are looked for is the model's: reserved field, length, address range, combination, alignment, connection. -/
def descWhy (s : State) (c : Nat) (x : Slot) (rsv : Bool) : Nat :=
  let b := benchOf c
  let good := decide (x.len % 64 = 0) && decide (0 < x.len)
  if rsv = false then 5
  else if x.cls = 2 then
    let st := s.stream (remoteSend x.remote)
    if x.ten || decide (x.tidx ≠ 0) || decide (x.conn ≠ 0) || decide (x.remote / 2 ^ 42 ≠ 0) then 5
    else if good = false then 3
    else if rangeMaps s b x.src x.len false = false then 1
    else if tier x.src ≠ some 2 then 2
    else if x.src % 64 ≠ 0 ∨ x.dst % 64 ≠ 0 then 3
    else if st.state ≠ 1 ∨ st.sbench ≠ b ∨ st.peer ≠ remoteMod x.remote ∨ st.pstr ≠ remoteStr x.remote then 4
    else 0
  else if x.remote ≠ 0 then 5
  else if good = false then 3
  else if (rangeMaps s b x.src x.len false && rangeMaps s b x.dst x.len true) = false then 1
  else
    let ts := (tier x.src).getD 0
    let td := (tier x.dst).getD 0
    let d := (homeBench x.dst).getD b
    if movePermitted x.cls ts td (!(rangeHits x.src x.len d)) = false then 2
    else if td = 2 ∧ rangeIn x.dst x.len d = false then 2
    else if x.cls = 1 then 0
    else if x.src % 128 ≠ 0 ∨ x.dst % 128 ≠ 0 then 3
    else
      if connServes s c x.conn x d then 0 else 4

/-- A descriptor as its 32 bytes give it (R413), posted by context `k`; whether its reserved fields are 0. -/
def parseDesc (l : List Byte) (k : Nat) : Slot × Bool :=
  let q := fun (o n : Nat) => leNat ((l.drop o).take n)
  let c := q 0x14 4
  ({ Slot.reset with
      src := q 0 6, dst := q 8 6, len := q 0x10 4, cls := bits c 1 0, conn := bits c 7 2, ten := bit c 8, tidx := bits c 17 9,
      remote := q 0x18 8, state := 1, ctx := k },
    decide (q 6 2 = 0) && decide (q 0xE 2 = 0) && decide (bits c 31 18 = 0))

/-! ## Counting (R422 to R424, R438) -/

/-- The bench that counts (R414): the destination bench of a local or window destination, else the posting bench. -/
def countBench (b : Nat) (x : Slot) : Nat := (homeBench x.dst).getD b

/-- A running descriptor whose last byte is counted is COMPLETE; one with a fault, once what it sent is counted, is FAULT
(9: the address-range error met while it ran). An aborting descriptor waits for DESCRIPTOR_ABORTED. -/
def settleDesc (c i : Nat) (s : State) : State :=
  let x := s.slotOf c i
  if x.state = 2 ∧ x.out = 0 then
    if x.fault = 9 then s.updSlotOf c i (fun x => { x with state := 6, why := 1 })
    else if x.fault ≠ 0 then
      jobOfCore c (fun j => { j with conts := j.conts + 1 }) (s.updSlotOf c i (fun x => { x with state := 7, why := x.fault }))
    else if x.sent = x.len then s.updSlotOf c i (fun x => { x with state := 4 })
    else s
  else s

/-- `n` bytes of a descriptor have been delivered: counted, and added to the arrival tally when TEN is 1. -/
def landed (c i n : Nat) (s : State) : State :=
  let x := s.slotOf c i
  let d := countBench (benchOf c) x
  let s1 := act (benchOf c) 0x6848 n (s.updSlotOf c i (fun x => { x with counted := x.counted + n, out := x.out - 1 }))
  settleDesc c i (if x.ten then toSlice d (coreNow s) 5 (engineAdd (d * 512 + x.tidx) n c 1 2 3) s1 else s1)

/-- A descriptor meets uncorrectable data (R438): it sends nothing more, and CONT is set at the posting core; `arrived` when a
flit it had sent is thereby accounted for. `src` is the BENCH_CONT source code. -/
def descFault (c i why src addr : Nat) (arrived : Bool) (s : State) : State :=
  let s1 := s.updSlotOf c i (fun x =>
    { x with fault := if x.fault = 0 then why else x.fault, out := if arrived then x.out - 1 else x.out })
  settleDesc c i (setPend c 6 (recordCont c src addr none s1))

/-- The descriptor can send: it runs, has bytes left, and met no fault. -/
def sending (x : Slot) : Bool := decide (x.state = 2) && decide (x.sent < x.len) && decide (x.fault = 0)

/-! ## The flits of compiled and assay descriptors (R420, R421) -/

/-- The descriptors of a bench on a connection, of the classes that use its slots, as (core, slot). -/
def onConn (s : State) (b n : Nat) : List (Nat × Nat) :=
  ((List.range 64).map (fun k => (4 * b + k / 16, k % 16))).filter (fun p =>
    let x := s.slotOf p.1 p.2
    (decide (x.cls = 0) || decide (x.cls = 3)) && decide (x.conn = n))

/-- The first posted of a list of descriptors that `p` selects. -/
def oldest (s : State) (p : Slot → Bool) (l : List (Nat × Nat)) : Option (Nat × Nat) :=
  (l.filter (fun q => p (s.slotOf q.1 q.2))).foldl (fun best q => match best with
    | none => some q
    | some r => if (s.slotOf q.1 q.2).order < (s.slotOf r.1 r.2).order then some q else some r) none

/-- The descriptor whose flit a slot of connection `n` carries in this mesh cycle: the one that runs and has flits left, or the
next posted, when its 16 mesh cycles have passed (R420); the latter starts. -/
def slotDesc (s : State) (b n : Nat) : Option ((Nat × Nat) × Bool) :=
  let l := onConn s b n
  match oldest s (fun x => decide (x.state = 2) && decide (x.sent < x.len)) l with
  | some q => if (s.slotOf q.1 q.2).fault = 0 then some (q, false) else none
  | none =>
    match oldest s (fun x => decide (x.state = 1)) l with
    | some q => if (s.slotOf q.1 q.2).posted + 16 ≤ s.now then some (q, true) else none
    | none => none

def emptyFlit : Flit :=
  { kind := 0, late := false, err := false, lmask := 0, srcb := 0, conn := 0, rsv := false, addr := 0, data := [], mask := [],
    use := .none, msg := none }

/-- The next flit of a descriptor on its connection: a read request for the next source pair, or a write of the next 128 bytes;
64 bytes when no more remain. -/
def sendFlit (b n c i : Nat) (s : State) : Option Flit × State :=
  let x := s.slotOf c i
  let k := min 128 (x.len - x.sent)
  let f := { emptyFlit with srcb := b, conn := n, lmask := if k = 64 then 1 else 3, use := .porter c i x.sent }
  let gone := fun (s : State) => s.updSlotOf c i (fun x => { x with sent := x.sent + k, out := x.out + 1 })
  match portMap s b (x.src + x.sent) false, portMap s b (x.dst + x.sent) true with
  | some a, some d =>
    if tier x.src = some 0 then (some { f with kind := 1, addr := a }, gone s)
    else
      match uncorrectable s a k with
      | some l => (none, descFault c i 1 (if (coreOfAddr a).isSome then 2 else 3) l false s)
      | none =>
        (some { f with kind := if tier x.dst = some 0 then 2 else 0, addr := d, data := memBytes s.mem a k }, gone (noteRead a k s))
  | _, _ => (none, settleDesc c i (s.updSlotOf c i (fun x => { x with fault := 9 })))

/-! ## The flits of CLASS 2 descriptors (R509 to R512) -/

/-- Planes a stream sprays over: those of its mask whose port is up (R510). -/
def planeUp (s : State) (st : Stream) (w : Nat) : Bool := bit st.planes w && decide (((s.welt w).r 0).toNat % 2 = 1)

/-- The connection of a stream for plane w (R505). -/
def streamConn (st : Stream) (w : Nat) : Nat := bits st.conn (6 * w + 5) (6 * w)

/-- The stream that sends on connection `n` of bench `b`, and the plane, when the connection leads to a welt port station. -/
def streamOn (s : State) (b n : Nat) : Option (Nat × Nat) :=
  match weltAt (connDst (connWord s b n)) with
  | none => none
  | some w =>
    (s.streams.find? (fun p => decide (p.2.state = 1) && decide (p.2.sbench = b) && bit p.2.planes w && decide (streamConn p.2 w = n))).map
      (fun p => (p.1, w))

/-- The CLASS 2 descriptors of a bench on a stream. -/
def onStream (s : State) (b st : Nat) : List (Nat × Nat) :=
  ((List.range 64).map (fun k => (4 * b + k / 16, k % 16))).filter (fun p =>
    let x := s.slotOf p.1 p.2
    decide (x.cls = 2) && decide (remoteSend x.remote = st))

/-- The next plane after `w` of a stream, in the order of R510. -/
def nextPlane (s : State) (st : Stream) (w : Nat) : Option Nat :=
  ((List.range 8).map (fun i => (w + i) % 8)).find? (planeUp s st)

/-- A descriptor from which the next packet of its stream may be taken. -/
def hasPacket (s : State) (x : Slot) : Bool :=
  (decide (x.state = 2) || (decide (x.state = 1) && decide (x.posted + 16 ≤ s.now))) && decide (x.sent < x.len) && decide (x.fault = 0)

/-- Fewer than 4,096 PSNs of a stream are sent and unacknowledged (R511). -/
def windowOpen (st : Stream) : Bool := decide ((st.next + 2 ^ 32 - st.acked) % 2 ^ 32 < 4096)

/-- A stream still wants a place at the station of plane w: its next packet, if it has one, goes there. -/
def wantsPlace (s : State) (w id : Nat) : Bool :=
  let st := s.stream id
  windowOpen st && nextPlane s st st.plane == some w && (oldest s (hasPacket s) (onStream s st.sbench id)).isSome

/-- The 2,048 places of a station leave one for a stream, behind the streams that asked before it (R512). -/
def placeFor (s : State) (w id : Nat) : Bool :=
  let y := s.welt w
  let ahead := (y.asks.takeWhile (fun i => decide (i ≠ id))).filter (fun i => wantsPlace s w i)
  decide (y.tx.length + ahead.length < 2048)

/-- A stream asks for a place at the station of plane w. -/
def askPlace (w id : Nat) (s : State) : State :=
  s.updWelt w (fun y => { y with asks := if y.asks.contains id then y.asks else y.asks ++ [id] })

/-- Assign the next PSN of stream `id` to a packet of its oldest descriptor with bytes left, on the next plane, when the window
and the station's places allow (R509 to R512): the plane, 8 for none but another change. The packet's bytes are read
here, each of its 64-byte lines through the mapping; a line that is no longer mapped ends the descriptor (R410). -/
def assignPacket (b id : Nat) (s : State) : Option (Nat × State) :=
  let st := s.stream id
  match nextPlane s st st.plane, oldest s (hasPacket s) (onStream s b id) with
  | some w, some (c, i) =>
    if windowOpen st = false then none
    else if placeFor s w id = false then some (8, askPlace w id s)
    else
      let x := s.slotOf c i
      let k := min 4096 (x.len - x.sent)
      let lines := (List.range (k / 64)).map (fun j => portMap s b (x.src + x.sent + 64 * j) false)
      if lines.contains none then some (8, settleDesc c i (s.updSlotOf c i (fun x => { x with state := 2, fault := 9 })))
      else
        let places := lines.filterMap (fun a => a)
        match places.findSome? (fun a => (uncorrectable s a 64).map (fun l => (a, l))) with
        | some (a, l) =>
          some (8, descFault c i 1 (if (coreOfAddr a).isSome then 2 else 3) l false (s.updSlotOf c i (fun x => { x with state := 2 })))
        | none =>
          let p : TxPkt :=
          { stream := id, psn := st.next, lastp := decide (x.sent + k = x.len), len := k, daddr := x.dst + x.sent,
            data := places.flatMap (fun a => memBytes s.mem a 64), loaded := 0, full := false, sentAt := none, rto := 0, limit := 0, retries := 0, parked := false, core := c, slot := i }
          let s1 := (places.foldl (fun s a => noteRead a 64 s) s).updSlotOf c i (fun x => { x with state := 2, sent := x.sent + k, out := x.out + 1 })
          let s2 := s1.updStream id (fun t => { t with next := (t.next + 1) % 2 ^ 32, plane := (w + 1) % 8 })
          some (w, s2.updWelt w (fun y => { y with tx := y.tx ++ [p], asks := y.asks.filter (fun i => decide (i ≠ id)) }))
  | _, _ => none

/-- The oldest packet of a stream that the bench has not yet sent whole to plane w's station. -/
def loading (s : State) (w id : Nat) : Option TxPkt :=
  (s.welt w).tx.find? (fun p => decide (p.stream = id) && decide (p.loaded < p.len))

/-- A packet begins in a slot of its own plane, in spraying order (R510): when the bench has no packet under way to plane w and w is
the next plane of the stream, the next packet is assigned. -/
def beginPacket (b id w : Nat) (s : State) : State :=
  if (loading s w id).isSome ∨ nextPlane s (s.stream id) (s.stream id).plane ≠ some w then s
  else match assignPacket b id s with
    | none => s
    | some (_, s1) => s1

/-- The next flit of a stream toward the station of plane w. -/
def weltFlit (b n id w : Nat) (s : State) : Option Flit × State :=
  let s1 := beginPacket b id w s
  match loading s1 w id with
  | none => (none, s1)
  | some p =>
    let k := min 128 (p.len - p.loaded)
    (some { emptyFlit with
        srcb := b, conn := n, lmask := if k = 64 then 1 else 3, addr := p.daddr + p.loaded
        data := (p.data.drop p.loaded).take k, use := .welt id p.psn (decide (p.loaded + k = p.len)) },
      s1.updWelt w (fun y => { y with tx := y.tx.map (fun q =>
        if q.stream = id ∧ q.psn = p.psn then { q with loaded := q.loaded + k } else q) }))

/-- What the porters of bench `b` put in a slot of connection `n` (R332, R333, R420, R421, R510). -/
def porterFlit (b n : Nat) (s : State) : Option Flit × State :=
  match streamOn s b n with
  | some (id, w) => weltFlit b n id w s
  | none =>
    match slotDesc s b n with
    | none => (none, s)
    | some ((c, i), starts) =>
      if (s.slotOf c i).cls = 3 ∧ ((s.bench b).r 0x4400).toNat % 2 = 0 then (none, s)
      else sendFlit b n c i (if starts then s.updSlotOf c i (fun x => { x with state := 2 }) else s)

/-! ## Ring-class moves (R414, R380) -/

/-- Bytes of the next piece of a ring-class move: within one source line and one destination line. -/
def ringPiece (x : Slot) (o : Nat) : Nat := min (x.len - o) (min (64 - (x.src + o) % 64) (64 - (x.dst + o) % 64))

/-- An access of a porter over the ring, to a GDDR7 controller's ring side or the CXL controller. -/
def ringAccess (b a : Nat) (wr : Bool) (l : List Byte) (u : Use) (s : State) : State :=
  let cxl := decide (0x010000000000 ≤ a)
  ringPut (rowStop b) (if cxl then cxlStop else devStop (a / 2 ^ 36))
    (.access b (if cxl then 0 else a / 2 ^ 36 + 1) wr (a / 64) (imageOfBytes (a % 64) l) (maskOfBytes (a % 64) l.length) false u) s

/-- Send the next piece of a running ring-class move: a read of its source line, or of its own memory and a write. -/
def ringNext (c i : Nat) (s : State) : State :=
  let x := s.slotOf c i
  let b := benchOf c
  if sending x = false ∨ x.cls ≠ 1 ∨ x.out ≠ 0 then s
  else
    let k := ringPiece x x.sent
    let u := Use.porter c i x.sent
    let gone := fun (s : State) => s.updSlotOf c i (fun x => { x with sent := x.sent + k, out := 1 })
    match portMap s b (x.src + x.sent) false, portMap s b (x.dst + x.sent) true with
    | some a, some d =>
      if tier x.src ≠ some 2 then ringAccess b a false [] u (gone s)
      else match uncorrectable s a k with
        | some l => descFault c i 1 (if (coreOfAddr a).isSome then 2 else 3) l false s
        | none => ringAccess b d true (memBytes s.mem a k) u (gone (noteRead a k s))
    | _, _ => settleDesc c i (s.updSlotOf c i (fun x => { x with fault := 9 }))

/-- A write of a ring-class move is accepted by its target controller, and counted (R422). -/
def ringLanded (c i o : Nat) (s : State) : State := landed c i (ringPiece (s.slotOf c i) o) s

/-- The response of a ring-class move's access: a read's data goes to its destination; after a write, counted when it was accepted, the
next piece is sent. -/
def ringBack (c i o line : Nat) (data : List Byte) (err read : Bool) (s : State) : State :=
  let x := s.slotOf c i
  let k := ringPiece x o
  let b := benchOf c
  let cxl := decide (0x010000000000 ≤ line * 64)
  if err then descFault c i (if cxl then 2 else 1) (if cxl then 4 else 0) (line * 64) true s
  else if read = false then ringNext c i s
  else
    match portMap s b (x.src + o) false, portMap s b (x.dst + o) true with
    | some a, some d =>
      let l := slice data (a % 64) k
      if tier x.dst = some 2 then ringNext c i (landed c i k (write d l s))
      else ringAccess b d true l (.porter c i o) s
    | _, _ => settleDesc c i (s.updSlotOf c i (fun x => { x with fault := 9, out := x.out - 1 }))

/-! ## The instructions (R417 to R419) -/

/-- A share fault where slot `i` is not the thread's. -/
def withSlot (t : Thread) (i : Nat) (dest : Bool) (s : State) (k : State → Out) : Out :=
  match nameUnit t 3 i dest s with
  | none => .exc s 0x0B (shareInfo 3 i)
  | some s1 => k s1

/-- PPOST: ( daddr s -- st ) (R417). -/
def ppost (t : Thread) (s : State) : State :=
  issue t 0xA8 (some 0x00) 2 ⟨2, 1, 0, 0⟩ (fun _ => none)
    (fun s a _ =>
      let i := (arg a 0).toNat % 16
      let daddr := (arg a 1).toNat / 32 * 32
      withSlot t i true s (fun s1 =>
        if 0x100000 < daddr + 32 ∨ permitted (s.ctx t) 0 daddr 32 = false then .exc s 0x06 (word daddr)
        else if (s.slotOf t.core i).state ≠ 0 then pushes s [1]
        else localRead t daddr 32 s1 (fun l s2 =>
          let (x, rsv) := parseDesc l t.ctx
          let why := descWhy s2 t.core x rsv
          let (n, s3) := freshSerial s2
          pushes (s3.updSlotOf t.core i (fun _ =>
            if why = 0 then { x with order := n, posted := s.now } else { x with order := n, posted := s.now, state := 6, why := why })) [0]))) s

/-- The release of a slot collected by PSTAT: EMPTY again. -/
def emptySlot (c i : Nat) (s : State) : State := s.updSlotOf c i (fun _ => Slot.reset)

/-- PSTAT: ( s -- n w ) (R418). -/
def pstat (t : Thread) (s : State) : State :=
  issue t 0xA8 (some 0x01) 2 ⟨1, 2, 0, 0⟩ (fun _ => none)
    (fun s a _ =>
      let i := (arg a 0).toNat % 16
      withSlot t i false s (fun s =>
        let x := s.slotOf t.core i
        pushes (if 4 ≤ x.state then emptySlot t.core i s else s) [porterStatus x, word x.counted])) s

/-- The abort of a queued or running descriptor (R423, R424): no flit after the decision cycle. With nothing left to count it is
ABORTED at once. -/
def abortDesc (c i : Nat) (s : State) : State :=
  let x := s.slotOf c i
  if x.state = 1 ∨ x.state = 2 then s.updSlotOf c i (fun x => { x with state := if x.out = 0 then 5 else 3 }) else s

/-- PABORT: ( s -- r ) (R419, R423). -/
def pabort (t : Thread) (s : State) : State :=
  issue t 0xA8 (some 0x02) 2 ⟨1, 1, 0, 0⟩ (fun _ => none)
    (fun s a _ =>
      let i := (arg a 0).toNat % 16
      withSlot t i false s (fun s =>
        let st := (s.slotOf t.core i).state
        pushes (abortDesc t.core i s) [if st = 4 then 1 else if 1 ≤ st ∧ st ≤ 3 ∨ st = 5 then 2 else 0])) s

/-! ## Starting and ending -/

/-- The connection whose flit bench `b` injects in this mesh cycle, when its partition's frame runs (R324, R330). -/
def injects (s : State) (b : Nat) : Option Nat :=
  match partOf s b with
  | none => none
  | some p =>
    let q := s.part p
    if q.frame ≠ .running then none
    else
      let e := (tblGet (zeros 64) (s.bench b).pattern ((s.now - q.begun) % 2 ^ q.plog)).toNat
      if bit e 32 then some (bits e 38 33) else none

/-- A reset whose point has come waits for the open-class queue of a bench: its head has a connection or a path to leave on, or may yet get
one (R686). -/
def queueDrains (s : State) (b : Nat) : Bool :=
  s.resets.any (fun r => r.point && (scopeBench s r.scope b || (List.range 4).any (fun i => scopeCore s r.scope (4 * b + i)))) &&
    match (s.bench b).oq with
    | [] => false
    | i :: _ => i.conn.isSome || (servicePath s b i.dst).isSome || (s.bench b).pathAsk.contains i.dst

/-- The slots of the quiet period in which such a queue is emptied (R686). -/
def drainSlot (s : State) (b : Nat) : Option Nat :=
  match partOf s b with
  | none => none
  | some p =>
    let q := s.part p
    let e := (tblGet (zeros 64) (s.bench b).pattern ((s.now - q.begun) % 2 ^ q.plog)).toNat
    if q.frame ≠ .running ∧ q.frame ≠ .idle ∧ queueDrains s b ∧ bit e 32 then some (bits e 38 33) else none

/-- A partition's frame runs at a bench. -/
def inFrame (s : State) (b : Nat) : Bool :=
  match partOf s b with
  | some p => decide ((s.part p).frame = .running)
  | none => false

/-- DESCRIPTOR_START: in a slot of its connection at least 16 mesh cycles after PPOST issued, once its predecessor on the
connection has sent its last flit (R420). A ring-class move has no slots, and starts while a frame runs. -/
def descriptorStart (c i : Nat) (s : State) : State :=
  let x := s.slotOf c i
  let b := benchOf c
  let run := fun (s : State) => s.updSlotOf c i (fun x => { x with state := 2 })
  if x.state ≠ 1 then s
  else if x.cls = 1 then (if inFrame s b then ringNext c i (run s) else s)
  else match injects s b with
    | none => s
    | some n =>
      if x.cls = 2 then
        match streamOn s b n with
        | some (id, _) =>
          let first := oldest s (fun y => (decide (y.state = 1) || decide (y.state = 2)) && decide (y.sent < y.len)) (onStream s b id)
          if remoteSend x.remote = id ∧ first = some (c, i) ∧ x.posted + 16 ≤ s.now then run s else s
        | none => s
      else if slotDesc s b n = some ((c, i), true) then run s else s

/-- DESCRIPTOR_ABORTED: the last flit sent has been counted (R424). -/
def descriptorAborted (c i : Nat) (s : State) : State :=
  let x := s.slotOf c i
  if x.state = 3 ∧ x.out = 0 then s.updSlotOf c i (fun x => { x with state := 5 }) else s

/-- Every queued or running descriptor of a bench is aborted: at a frame end (R745), a discarded frame, a reset. -/
def abortAll (b : Nat) (s : State) : State := forAll (List.range 64) (fun k s => abortDesc (4 * b + k / 16) (k % 16) s) s

/-! ## The commands -/

/-- PPOST (R417). -/
def execPpost (t : Thread) (s : State) : Ans := .next (ppost t s)
/-- PSTAT (R418). -/
def execPstat (t : Thread) (s : State) : Ans := .next (pstat t s)
/-- PABORT (R419). -/
def execPabort (t : Thread) (s : State) : Ans := .next (pabort t s)
/-- DESCRIPTOR_START (R420). -/
def execDescriptorStart (core slot : Nat) (s : State) : Ans :=
  .next (if core < 512 ∧ slot < 16 then descriptorStart core slot s else s)
/-- DESCRIPTOR_ABORTED (R424). -/
def execDescriptorAborted (core slot : Nat) (s : State) : Ans :=
  .next (if core < 512 ∧ slot < 16 then descriptorAborted core slot s else s)

end Sys2Proof.Machine
end

