-- ==== Sys2Proof/Machine/Clicker.lean ====
section
/-! DEFINITION. The clicker: cutting and releasing paths, serving COPENs and the bench controllers' requests for service paths
(R336 to R345, R449, R450). -/

namespace Sys2Proof.Machine

/-! ## Paths (R336) -/

/-- The routers from bench `a` along its row to column `x`, then along the column to bench `d`. -/
def routeBenches (a d : Nat) : List Nat :=
  let row := rowOf a * 16
  let xs := if colOf a ≤ colOf d then (List.range (colOf d - colOf a + 1)).map (fun i => row + colOf a + i)
    else (List.range (colOf a - colOf d + 1)).map (fun i => row + colOf a - i)
  let ys := if rowOf a ≤ rowOf d then (List.range (rowOf d - rowOf a)).map (fun i => row + colOf d + 16 * (i + 1))
    else (List.range (rowOf a - rowOf d)).map (fun i => row + colOf d - 16 * (i + 1))
  xs ++ ys

/-- The output by which a router reaches the next. -/
def linkOut (a d : Nat) : Nat := if d = a + 16 then 1 else if d = a + 1 then 2 else if d + 16 = a then 3 else 4

/-- Hops from a list of routers: (bench, input, output); the first input and the last output are B. -/
def hopsFrom : Nat → List Nat → List (Nat × Nat × Nat)
  | _, [] => []
  | i, [b] => [(b, i, 6)]
  | i, b :: c :: r => (b, i, linkOut b c) :: hopsFrom (oppositeIn (linkOut b c)) (c :: r)

def pathHops (a d : Nat) : List (Nat × Nat × Nat) := hopsFrom 6 (routeBenches a d)

/-- Offset `o` is free along the path: at every hop the output is open and free, and no output selects its input. -/
def offsetFree (s : State) (P : Nat) (hs : List (Nat × Nat × Nat)) (o : Nat) : Bool :=
  (hs.mapIdx (fun j h => (j, h))).all (fun p =>
    let e := entry s p.2.1 ((o + 2 * p.1) % P)
    decide (entryCls e p.2.2.2 = 1) && !selected e p.2.2.1)

/-- The first `n` free offsets; none when there are fewer. -/
def findOffsets (s : State) (P : Nat) (hs : List (Nat × Nat × Nat)) (n : Nat) : Option (List Nat) :=
  let l := ((List.range P).filter (offsetFree s P hs)).take n
  if l.length = n then some l else none

/-- Write a path's entries for its offsets, the destination router first (R338): cut, with the injection at the source, or
returned to open and free. -/
def writePath (P conn : Nat) (hs : List (Nat × Nat × Nat)) (offs : List Nat) (cut : Bool) (s : State) : State :=
  let s1 := forAll (hs.mapIdx (fun j h => (j, h))).reverse (fun p s =>
    forAll offs (fun o s =>
      let i := (o + 2 * p.1) % P
      setEntry p.2.1 i (entrySet (entry s p.2.1 i) p.2.2.2 (if cut then p.2.2.1 else 0) (if cut then 2 else 1)) s) s) s
  match hs.head? with
  | none => s1
  | some h => forAll offs (fun o s =>
      setEntry h.1 o (setBits (setBits (entry s h.1 o) 32 32 (b2n cut)) 38 33 (if cut then conn else 0)) s) s1

/-- Cut a path of `n` slots from bench `a` to bench `d` for connection type `type`, kept as `kind`: the connection, or the
clicker's refusal, 2 NO_CONN or 1 NO_SLOTS (R337, R341). -/
def cutPath (a d n type kind : Nat) (s : State) : Except Nat (Nat × State) :=
  match freeConn s a with
  | none => .error 2
  | some c =>
    let P := period s a
    let hs := pathHops a d
    match findOffsets s P hs n with
    | none => .error 1
    | some offs =>
      let s1 := setConn a c (mkConn type d n false) (writePath P c hs offs true s)
      let p : CPath :=
      { src := a, dst := d, conn := c, part := (partOf s a).getD 0, offs := offs, hops := hs, kind := kind,
        users := if kind = 1 then 1 else 0, release := false, freeAt := none }
      .ok (c, { s1 with clicker := { s1.clicker with paths := s1.clicker.paths ++ [p] } })

/-- One more channel holds the service path back from `d` to `a`, when a COPEN cut it (R342). -/
def holdBack (d a : Nat) (s : State) : State :=
  { s with clicker := { s.clicker with paths := s.clicker.paths.map (fun p =>
      if p.kind = 1 ∧ p.src = d ∧ p.dst = a ∧ p.freeAt = none then { p with users := p.users + 1, release := false } else p) } }

/-- The paths of a channel: forward, and a service path back unless one is there; both or neither (R449). -/
def cutBoth (a d n : Nat) (s : State) : Except Nat (Nat × State) :=
  let back := servicePath s d a
  if (freeConn s a).isNone ∨ (back = none ∧ (freeConn s d).isNone) then .error 2
  else match cutPath a d n 1 0 s with
    | .error e => .error e
    | .ok (c, s1) =>
      if back.isSome then .ok (c, holdBack d a s1)
      else match cutPath d a 1 2 1 s1 with
        | .error e => .error e
        | .ok (_, s2) => .ok (c, s2)

/-! ## The open-class queue's head (R347, R348) -/

/-- A place has become free: items that have come among the first 64 release the threads that hold them, and wakes that the slice
holds follow. -/
def oqPromote (b : Nat) (s : State) : State :=
  sendWakes b <| forAll ((((s.bench b).oq.take 64).filterMap (·.holder))) (fun t s => completeHeld t [] s)
    (s.updBench b (fun x => { x with oq := x.oq.mapIdx (fun i q => if i < 64 then { q with holder := none } else q) }))

/-! ## Service paths (R344) -/

/-- The item waits for a service path from `a` to `d`. -/
def needsPath (d : Nat) (i : OQItem) : Bool := i.conn.isNone && decide (i.dst = d)

/-- A refused service path: an operation on its way home is not sent, an answer goes over the control hierarchy; the issuing
core's supervisor gets a record of kind 7 (R344, R487). -/
def refuseItem (a : Nat) (i : OQItem) (s : State) : State :=
  let told := fun (core ctx tally : Nat) (s : State) =>
    ringPut (rowStop a) (rowStop (benchOf core)) (.msg i.msg) (syncErr a core 4 (syncRec 7 ctx 0 0 tally 0 0 0 0) s)
  match i.msg with
  | .tally op =>
    if op.op = 7 then s
    else
    let s1 := syncErr a (target s op) 4 (tallyRec 7 op 0) s
    match refusedMsg op with
    | some m => toInbox a (coreNow s) m s1
    | none => s1
  | .result core ctx _ tally _ _ _ => told core ctx tally s
  | .wake core ctx _ tally _ _ => told core ctx tally s
  | .credit core _ _ _ => ringPut (rowStop a) (rowStop (benchOf core)) (.msg i.msg) s
  | .chan _ => s

def refuseService (a d : Nat) (s : State) : State :=
  let l := (s.bench a).oq.filter (needsPath d)
  let s1 := s.updBench a (fun x => { x with oq := x.oq.filter (fun i => !needsPath d i) })
  let s2 := forAll l (fun i s =>
    let s := refuseItem a i s
    match i.holder with
    | some t => completeHeld t [] s
    | none => s) s1
  oqPromote a s2

/-- SERVICE_PATH_REQUEST: a flit waits for a path that does not exist and has not been asked for. -/
def servicePathRequest (a d : Nat) (s : State) : State :=
  let x := s.bench a
  if (x.oq.any (fun i => needsPath d i && decide (i.due ≤ s.now))) && (servicePath s a d).isNone && !x.pathAsk.contains d &&
      samePart s a d then
    ringPut (rowStop a) clickerStop (.request (.service a d)) (s.updBench a (fun x => { x with pathAsk := d :: x.pathAsk }))
  else s

/-! ## Requests (R339 to R341, R345) -/

/-- The source bench of a request. -/
def reqBench : CReq → Nat
  | .copen c _ => benchOf c
  | .service a _ => a

/-- The partition of a request is marked: a switch is under way (R345). -/
def reqMarked (s : State) (r : CReq) : Bool :=
  match partOf s (reqBench r) with
  | some p => (s.part p).marked
  | none => false

/-- A COPEN is abandoned: its claim and its handle are released, nothing is pushed, and the thread will issue it again. -/
def dropCopen (c h : Nat) (s : State) : State :=
  let s1 := (unclaim c h s).updChanOf c h (fun _ => Chan.reset)
  forAll (List.range 8) (fun i s =>
    if ((s.core c).ctx i).wait = .copen h then s.updCtx ⟨c, i⟩ (fun x => { x with wait := .none, heldPops := 0, heldLen := 0 }) else s) s1

/-- A request of a marked partition is dropped unserved; a service path is asked for again after the switch. -/
def dropReq (r : CReq) (s : State) : State :=
  match r with
  | .copen c h => dropCopen c h s
  | .service _ _ => s

/-- CLICKER_REQUEST: the next request reaches the clicker's stop (R339). -/
def clickerRequest (s : State) : State :=
  let isReq := fun (p : RingPkt) => match p.msg with
    | .request _ => true
    | _ => false
  match ringTake isReq s with
  | none => s
  | some (p, s1) =>
    match p.msg with
    | .request r =>
      if reqMarked s1 r then dropReq r s1
      else if 256 ≤ s1.clicker.queue.length then
        match r with
        | .copen c h => answerOpen clickerStop c h 4 (unclaim c h s1)
        | .service a d => refuseService a d (s1.updBench a (fun x => { x with pathAsk := x.pathAsk.erase d }))
      else { s1 with clicker := { s1.clicker with queue := s1.clicker.queue ++ [r] } }
    | _ => s

/-- Serve a COPEN (R341, R449, R450). -/
def serveCopen (c h : Nat) (s : State) : State :=
  let x := s.chanOf c h
  let a := benchOf c
  let d := benchOf x.dst
  let no := fun (st : Nat) => answerOpen clickerStop c h st (unclaim c h s)
  if x.state ≠ 1 then s
  else if claimed s c h = false then no 7
  else if x.nslot = 0 ∨ 64 < x.nslot ∨ 512 ≤ x.dst then no 5
  else if samePart s a d = false then no 3
  else match cutBoth a d x.nslot s with
    | .error e => no e
    | .ok (n, s1) => answerOpen clickerStop c h 0 (openChan c h n (attach c h s1))

/-- Serve a bench controller's request for a service path. -/
def serveService (a d : Nat) (s : State) : State :=
  let s0 := s.updBench a (fun x => { x with pathAsk := x.pathAsk.erase d })
  if (servicePath s0 a d).isSome then s0
  else match (if samePart s a d then cutPath a d 1 2 2 s0 else .error 3) with
    | .ok (_, s1) => s1
    | .error _ => refuseService a d s0

/-- CLICKER_SERVE: the clicker takes the next request out of its queue (R337, R339). -/
def clickerServe (s : State) : State :=
  match s.clicker.queue with
  | [] => s
  | r :: rest =>
    let s1 := { s with clicker := { s.clicker with queue := rest } }
    if reqMarked s1 r then dropReq r s1
    else match r with
      | .copen c h => serveCopen c h s1
      | .service a d => serveService a d s1

/-! ## Release (R342) -/

/-- PATH_RELEASE: the source connection entry of a path to be released is cleared, once no flit for it is left in the source
bench's queue. -/
def pathRelease (b n : Nat) (s : State) : State :=
  let mine := fun (p : CPath) => decide (p.src = b) && decide (p.conn = n) && p.release && decide (p.freeAt = none)
  match s.clicker.paths.find? mine with
  | none => s
  | some p =>
    let left := (s.bench b).oq.any (fun i => decide (i.conn = some n) || (decide (p.kind = 1) && needsPath p.dst i))
    if left then s
    else
      let s1 := setConn b n 0 s
      { s1 with clicker := { s1.clicker with paths := s1.clicker.paths.map (fun q =>
          if mine q then { q with freeAt := some (s.now + period s b + 2 * (q.hops.length - 1) + 2) } else q) } }

/-- PATH_ROUTERS_FREED: the router entries return to open and free. -/
def pathRoutersFreed (b n : Nat) (s : State) : State :=
  let mine := fun (p : CPath) => decide (p.src = b) && decide (p.conn = n) && (match p.freeAt with
    | some u => decide (u ≤ s.now)
    | none => false)
  match s.clicker.paths.find? mine with
  | none => s
  | some p =>
    let s1 := writePath (period s b) n p.hops p.offs false s
    { s1 with clicker := { s1.clicker with paths := s1.clicker.paths.filter (fun q => !mine q) } }

/-! ## The commands -/

/-- CLICKER_REQUEST (R339). -/
def execClickerRequest (s : State) : Ans := .next (clickerRequest s)
/-- CLICKER_SERVE (R337). -/
def execClickerServe (s : State) : Ans := .next (clickerServe s)
/-- PATH_RELEASE (R342). -/
def execPathRelease (src conn : Nat) (s : State) : Ans := .next (pathRelease src conn s)
/-- PATH_ROUTERS_FREED (R342). -/
def execPathRoutersFreed (src conn : Nat) (s : State) : Ans := .next (pathRoutersFreed src conn s)
/-- SERVICE_PATH_REQUEST (R344). -/
def execServicePathRequest (src dst : Nat) (s : State) : Ans :=
  .next (if src < 128 ∧ dst < 128 then servicePathRequest src dst s else s)

end Sys2Proof.Machine
end

