-- ==== Sys2Proof/Machine/Wire.lean ====
section
/-! DEFINITION. The transport frame, the management sessions' sending side, and the completion of a mailbox command (R495 to
R500, R528 to R532, R547). -/

namespace Sys2Proof.Machine

/-! ## Transport frames (R498 to R500) -/

/-- The ICRC: CRC32C of header and payload (R500). -/
def icrcOf (l : List Byte) : Word :=
  ~~~(l.foldl (fun c b => crcStep c (b.setWidth 32) 8 0x82F63B78#32) 0xFFFFFFFF#32)

/-- The module number (R528). -/
def moduleNo (s : State) : Nat := s.boot.crew * 64 + s.boot.member

/-- A transport header (R499): TYPE, flags LASTP and RETX, plane, LEN, ends, PSN, and the bytes at 0x10. -/
def header (type : Nat) (lastp retx : Bool) (plane len srcMod srcStr dstMod dstStr psn at10 : Nat) : List Byte :=
  leBytes (1 + type * 2 ^ 4 + b2n lastp * 2 ^ 8 + b2n retx * 2 ^ 9 + plane * 2 ^ 10 + len * 2 ^ 16) 4 ++
    leBytes (srcMod + srcStr * 2 ^ 14) 4 ++ leBytes (dstMod + dstStr * 2 ^ 14) 4 ++ leBytes psn 4 ++ leBytes at10 6 ++
    List.replicate 10 0

/-- The port of plane w is up and not mapped out. -/
def portUp (s : State) (w : Nat) : Bool := decide (((s.welt w).r 0).toNat % 2 = 1)

/-- The MAC address 02-S-w-P-H-L (R495). -/
def macOf (site w p k : Nat) : Nat := 0x020000000000 + site * 2 ^ 32 + w * 2 ^ 24 + p * 2 ^ 16 + k % 2 ^ 14

/-- Transmit a frame on plane w, to the same port of the module that its header names; a port that is down sends nothing (R525). -/
def transmit (w : Nat) (hdr payload : List Byte) (s : State) : State :=
  if portUp s w then
    s.updWelt w (fun y => { y with out :=
      { dst := macOf s.boot.site w 0 (leNat ((hdr.drop 8).take 4)), src := macOf s.boot.site w (leNat ((hdr.drop 12).take 4) % 16) (moduleNo s)
        tag := if s.boot.vid = 0 then none else some (s.boot.pcp * 2 ^ 13 + s.boot.vid)
        etype := s.boot.etype, header := hdr, payload := payload, icrc := icrcOf (hdr ++ payload), fec := 0 } :: y.out })
  else s

def weltCount (w o n : Nat) (s : State) : State := s.updWelt w (fun y => y.setR o (counterAdd (y.r o) n))

/-! ## Management messages (R529 to R531) -/

/-- A management message's bytes before its TAG. -/
def mgmtBytes (m : MgmtMsg) : List Byte :=
  leBytes (m.mtype + b2n m.more * 2 ^ 8 + m.seq * 2 ^ 16) 4 ++ leBytes (m.code + m.body.length * 2 ^ 16) 4 ++ m.body

/-- The TAG of a message under a key (R530). -/
def mgmtTag (key bytes hdr : List Byte) (psn : Nat) : List Byte :=
  leBytes (Config.hmac16 key (bytes ++ hdr ++ leBytes psn 4)).toNat 16

/-- The crew key shared with a peer: the manager's, or a managed module's. -/
def keyFor (s : State) (peer : Nat) : Option (List Byte) :=
  match s.fmn.manager with
  | some (m, k) => if m = peer then some k else (s.fmn.managed.find? (fun x => decide (x.mod = peer))).map (·.key)
  | none => (s.fmn.managed.find? (fun x => decide (x.mod = peer))).map (·.key)

/-- The lowest plane from `w` on, in turn, whose port is up. -/
def upPlane (s : State) (w : Nat) : Option Nat := ((List.range 8).map (fun i => (w + i) % 8)).find? (portUp s)

/-- Send one message of the session with `peer` on plane w. -/
def sendMgmt (peer psn w : Nat) (retx : Bool) (m : MgmtMsg) (s : State) : State :=
  match keyFor s peer with
  | none => s
  | some key =>
    let b := mgmtBytes m
    let hdr := header 3 false retx w (b.length + 16) (moduleNo s) 0 peer 0 psn 0
    transmit w hdr (b ++ mgmtTag key b hdr psn) s

def Session.reset (peer : Nat) : Session :=
  { peer := peer, next := 0, held := [], queue := [], ackbase := 0, got := [], unacked := 0, firstAt := 0, lastPlane := 0, first := none }

def sessionOf (s : State) (peer : Nat) : Session :=
  (s.fmn.sessions.find? (fun x => decide (x.peer = peer))).getD (Session.reset peer)

/-- Replace a session; the sessions stand in the order of their peers. -/
def putSession (x : Session) : List Session → List Session
  | [] => [x]
  | y :: r => if y.peer = x.peer then x :: r else if x.peer < y.peer then x :: y :: r else y :: putSession x r

def updSession (peer : Nat) (f : Session → Session) (s : State) : State :=
  { s with fmn := { s.fmn with sessions := putSession (f (sessionOf s peer)) s.fmn.sessions } }

/-- Send the messages that wait, while fewer than 16 are unacknowledged (R529). -/
def pumpSession (peer : Nat) : Nat → State → State
  | 0, s => s
  | n + 1, s =>
    let x := sessionOf s peer
    match x.queue with
    | [] => s
    | m :: r =>
      let oldest := (x.held.head?.map (·.psn)).getD x.next
      if 16 ≤ (x.next + 2 ^ 32 - oldest) % 2 ^ 32 then s
      else
        let w := (upPlane s 0).getD 0
        let s1 := updSession peer (fun x =>
          { x with next := (x.next + 1) % 2 ^ 32, queue := r,
                   held := x.held ++ [{ psn := x.next, msg := m, sentAt := s.tb, rto := s.boot.rto, plane := w, retries := 0 }] }) s
        pumpSession peer n (sendMgmt peer x.next w false m s1)

/-- Put a message, in one or two parts (R531), into the session with `peer`. -/
def sendMsg (peer mtype seq code : Nat) (body : List Byte) (s : State) : State :=
  let m := fun (more : Bool) (b : List Byte) =>
    ({ port := 0, src := moduleNo s, psn := 0, mtype := mtype, more := more, seq := seq, code := code, body := b } : MgmtMsg)
  let l := if 4072 < body.length then [m true (body.take 4072), m false (body.drop 4072)] else [m false body]
  pumpSession peer 16 (updSession peer (fun x => { x with queue := x.queue ++ l }) s)

/-! ## Mailbox completion (R547, R549, R552) -/

/-- The function that owns a mailbox (R540), or whose command it holds; and its vector (R544). -/
def funcOf (s : State) (m : Nat) : Nat := if m < 128 then 0 else if m < 256 then (m - 128) / 16 + 1 else (s.mbox m).func
def vectorOf (m : Nat) : Nat := if m < 128 then m else (m - 128) % 16

/-- A response as it stands in a mailbox: written over the start of the payload area. -/
def answered (x : MBox) (l : LastCmd) : MBox :=
  { x with owner := 0, seq := l.seq, cmd := l.cmd, len := l.payload.length, status := l.status, detail := l.detail,
           payload := l.payload ++ x.payload.drop l.payload.length, order := 0, last := some l, relay := none }

/-- Complete the command in a mailbox: STATUS, DETAIL and the response payload, OWNER 0, the vector. A command relayed to this module
is answered by a RESPONSE message (R535); the response of one that a Function Level Reset has cut off is discarded (R552). -/
def respond (m status detail : Nat) (payload : List Byte) (s : State) : State :=
  let x := s.mbox m
  if x.order = 0 then s
  else if 256 ≤ m then
    let s1 := s.updMbox m (fun _ => MBox.reset)
    match x.sender with
    | some (peer, seq) => sendMsg peer 5 seq status (leBytes detail 4 ++ payload) s1
    | none => s1
  else
    raise (funcOf s m) (vectorOf m) (s.updMbox m (fun x =>
      answered x { seq := x.seq, cmd := x.cmd, status := status, detail := detail, payload := payload }))

end Sys2Proof.Machine
end

