-- ==== Sys2Proof/Machine/Images.lean ====
section
/-! DEFINITION. The save region of a program in its partition's GDDR7, and the thread context images in it (R39, R117, R120, R124,
R311). -/

namespace Sys2Proof.Machine

/-! ## The save region -/

/-- Write bytes from offset `o` of a save region, which lies in the 2 MiB units `u` of GDDR7; bytes it has no place for are lost.
The first argument bounds the units touched. -/
def saveWrite (u : List Nat) : Nat → Nat → List Byte → State → State
  | 0, _, _, s => s
  | fuel + 1, o, l, s =>
    match l, u[o / 2 ^ 21]? with
    | _ :: _, some b =>
      let k := 2 ^ 21 - o % 2 ^ 21
      saveWrite u fuel (o + k) (l.drop k) (ringWrite (b * 2 ^ 21 + o % 2 ^ 21) (l.take k) s)
    | _, _ => s

/-- `n` bytes from offset `o` of a save region; a byte it has no place for reads 0. -/
def saveRead (u : List Nat) (s : State) (o n : Nat) : List Byte :=
  (List.range n).map (fun i => match u[(o + i) / 2 ^ 21]? with
    | some b => memGet s.mem (b * 2 ^ 21 + (o + i) % 2 ^ 21)
    | none => 0)

/-! ## A context's image (R311) -/

/-- The tiles, and the accumulators, that an image holds: those of the thread's share, the tiles only where they are in use. -/
def imageTiles (s : State) (t : Thread) : List Nat := (tilesOf s t).filter (fun i => ((s.core t.core).tile i).inUse)
def imageAccs (s : State) (t : Thread) : List Nat := (List.range 4).filter (fun i => bit (maskOf s t.core (classOf s t) 1) i)

/-- A set of units as a mask. -/
def unitMask (l : List Nat) : Nat := l.foldl (fun m i => m + 2 ^ i) 0
def maskUnits (m n : Nat) : List Nat := (List.range n).filter (bit m)

/-- The units that a context holds in dynamic mode. -/
def heldMask (s : State) (t : Thread) (res : Nat) : Nat :=
  if dynamic s t.core then unitMask (heldUnits (s.core t.core) res t.ctx) else 0

/-- The registers of an image beyond those of the exception frame: offset, system register number. -/
def imageRegs : List (Nat × Nat) :=
  [(0x100, 0x001), (0x104, 0x004)] ++ (List.range 16).map (fun i => (0x108 + 4 * i, 0x030 + i)) ++
    (List.range 4).map (fun i => (0x148 + 4 * i, 0x024 + i)) ++ [(0x158, 0x022), (0x15C, 0x023)] ++
    (List.range 4).map (fun i => (0x160 + 4 * i, 0x029 + i)) ++ [(0x170, 0x02D)] ++
    (List.range 6).map (fun i => (0x174 + 4 * i, 0x044 + i)) ++ [(0x18C, 0x028), (0x190, 0x04C), (0x194, 0x04B)]

/-- Where the context goes on: CORE_TPC when it is stopped (R272). -/
def resumeAt (x : Ctx) : Word := if x.st = .susp ∨ x.st = .halt then x.reg 0x043 else x.pc

/-- The 128 words that begin an image. -/
def imageWords (s : State) (t : Thread) : List Word :=
  let x := s.ctx t
  frameWords s t (resumeAt x) 0 (x.reg 0x042) false false 0 ++ imageRegs.map (fun p => x.reg p.2) ++
    [word (stN x.st), word (unitMask (imageTiles s t) + unitMask (imageAccs s t) * 2 ^ 16),
      word (heldMask s t 2 + heldMask s t 3 * 2 ^ 16), word (heldMask s t 0), x.reg 0x04D, x.reg 0x04E] ++ List.replicate 20 0

/-- The committed bank of an accumulator; the three sides of a tile. -/
def accBytes (k : Core) (i : Nat) : List Byte := wordsBytes ((List.range 1024).map (tblGet (zeros 32) (k.acc i).committed))
def tileBytes (k : Core) (i : Nat) : List Byte :=
  memBytes (k.tile i).data 0 2048 ++ memBytes (k.tile i).scale 0 512 ++ memBytes (k.tile i).patch 0 1024

/-- The image of a context. -/
def imageBytes (s : State) (t : Thread) : List Byte :=
  wordsBytes (imageWords s t) ++ (imageAccs s t).flatMap (accBytes (s.core t.core)) ++ (imageTiles s t).flatMap (tileBytes (s.core t.core))

/-- The images of the contexts of a partition, in the order of cores and contexts. -/
def partImages (s : State) (p : Nat) : List Byte :=
  (coresOf s p).flatMap (fun c => (List.range (nCtx s c)).flatMap (fun i => imageBytes s ⟨c, i⟩))

/-! ## Its restore -/

/-- A context as an image gives it, read through `rd` (offset, bytes); what the image does not hold stays. -/
def imageCtx (rd : Nat → Nat → List Byte) (now : Nat) (x : Ctx) : Ctx :=
  let f := fun (o : Nat) => word (leNat (rd o 4))
  let stack := fun (o n : Nat) => ((List.range (min n 16)).map (fun i => f (o + 4 * i))).reverse
  let st := (f 0).toNat
  let frame : List (Nat × Nat) :=
    [(0x14, 0x000), (0x18, 0x002), (0x1C, 0x003), (0x20, 0x005), (0x24, 0x020), (0x28, 0x021)] ++
      (List.range 12).map (fun i => (0x30 + 4 * i, 0x010 + i)) ++
      [(0x08, 0x041), (0x0C, 0x042), (0x04, 0x043), (0x1A8, 0x04D), (0x1AC, 0x04E)]
  { (frame ++ imageRegs).foldl (fun x p => x.setReg p.2 (f p.1)) x with
    lvl := lvlOf (st % 4), pc := f 4, st := stOf ((f 0x198).toNat % 8)
    ops := stack 0x60 ((f 0x10).toNat % 32), rets := stack 0xA0 ((f 0x10).toNat / 256 % 32), ldepth := min 4 (f 0x2C).toNat
    hold := if bit st 2 then some (now + bits st 12 3) else none
    holdLen := none, muls := [], resv := none, spinFrom := none, suspReq := false
    wait := .none, heldPops := 0, heldLen := 0 }

/-- The accumulators of an image, and then its tiles, in the core; the other tiles of the share are left with their flags clear. -/
def imageUnits (rd : Nat → Nat → List Byte) (share : List Nat) (k : Core) : Core :=
  let m := leNat (rd 0x19C 4)
  let accs := maskUnits (m / 2 ^ 16) 4
  let tiles := maskUnits m 16
  let word := fun (o : Nat) => BitVec.ofNat 32 (leNat (rd o 4))
  let bank := fun (j : Nat) => tblOf (zeros 32) ((List.range 1024).map (fun i => (i, word (0x200 + 4096 * j + 4 * i))))
  let side := fun (j o n : Nat) => memPut [] 0 (rd (0x200 + 4096 * accs.length + 3584 * j + o) n)
  let k1 := share.foldl (fun k i => k.updTile i (fun x => { x with inUse := false })) k
  let k2 := (accs.mapIdx (fun j i => (j, i))).foldl (fun (k : Core) p => k.updAcc p.2 (fun x => { x with committed := bank p.1 })) k1
  (tiles.mapIdx (fun j i => (j, i))).foldl (fun (k : Core) p =>
    k.updTile p.2 (fun _ => { inUse := true, data := side p.1 0 2048, scale := side p.1 2048 512, patch := side p.1 2560 1024 })) k2

/-- The units an image names as held by context `i` in dynamic mode. -/
def imageHeld (rd : Nat → Nat → List Byte) (i : Nat) (k : Core) : Core :=
  let own := fun (m : Nat) (t : Tbl Nat) => (maskUnits m 16).foldl (fun t u => tblSet nats t u (i + 1)) t
  { k with tileOwn := own (leNat (rd 0x1A4 4)) k.tileOwn, queueOwn := own (leNat (rd 0x1A0 2)) k.queueOwn,
           slotOwn := own (leNat (rd 0x1A2 2)) k.slotOwn }

/-- The core is locked: only a core reset ends that (R310). -/
def lockedCore (k : Core) : Bool := decide ((k.ctx 0).st = .lock)

/-- Restore one context from its image at offset `o` of a save region, but for the context of a locked core; and the offset of the
next image. -/
def restoreImage (u : List Nat) (t : Thread) (r : Nat × State) : Nat × State :=
  let s := r.2
  let rd := fun (o n : Nat) => saveRead u s (r.1 + o) n
  let m := leNat (rd 0x19C 4)
  let next := r.1 + 512 + 4096 * (maskUnits (m / 2 ^ 16) 4).length + 3584 * (maskUnits m 16).length
  let s1 := s.updCore t.core (fun k =>
    imageHeld rd t.ctx (if lockedCore k then k else k.updCtx t.ctx (imageCtx rd (coreNow s))))
  let s2 := s1.updCore t.core (imageUnits rd (tilesOf s1 t))
  (next, if t.ctx = 0 then s2.updCore t.core (fun k => k.setReg 0x101 (word (bits (leNat (rd 0 4)) 13 13))) else s2)

/-- Restore the images of a partition's contexts from a save region. -/
def restoreImages (p : Nat) (u : List Nat) (s : State) : State :=
  let ts := (coresOf s p).flatMap (fun c => (List.range (nCtx s c)).map (fun i => (⟨c, i⟩ : Thread)))
  let clear := fun (k : Core) =>
    { k with tops := [], micro := [], tileOwn := [], queueOwn := [], slotOwn := [] }
  (ts.foldl (fun r t => restoreImage u t r) (0, forAll (coresOf s p) (fun c s => s.updCore c clear) s)).2

end Sys2Proof.Machine
end

