-- ==== Sys2Proof/Machine/Jobs.lean ====
section
/-! DEFINITION. Frames, jobs, time-slicing and the governor's ramps (R36 to R39, R111 to R113, R274, R275, R323, R345, R386 to R390,
R574 to R581, R588 to R590, R675, R694 to R696, R739, R745). -/

namespace Sys2Proof.Machine

/-! ## Positions of a package (R565) -/

/-- The bench at position `i` of a partition, row-major from its south-west bench; the core at core position `i`. -/
def benchAt (q : Part) (i : Nat) : Nat := (q.y0 + i / q.w) * 16 + q.x0 + i % q.w
def coreAt (q : Part) (i : Nat) : Nat := 4 * benchAt q (i / 4) + i % 4

/-! ## The job completion record (R581) -/

def satBytes (v n : Nat) : List Byte := leBytes (min v (2 ^ (8 * n) - 1)) n

/-- The 224 bytes of the record of program `k` of partition `p`. -/
def jobBytes (p k : Nat) (j : Job) : List Byte :=
  leBytes j.jobid 4 ++ leBytes p 1 ++ leBytes k 1 ++ leBytes j.reason 1 ++ leBytes j.variant 1 ++ satBytes j.frames 8 ++
    satBytes (j.energy / 10 ^ 6) 8 ++ satBytes (j.unattr / 10 ^ 6) 8 ++ satBytes j.slips 8 ++ satBytes j.overruns 4 ++
    satBytes j.excursions 4 ++ satBytes j.startTb 8 ++ satBytes j.endTb 8 ++ satBytes j.halts 2 ++ satBytes j.lockups 2 ++
    satBytes j.conts 2 ++ satBytes j.dirty 2 ++ leBytes j.firstDirty 2 ++ List.replicate 6 0 ++ satBytes j.accSat 8 ++
    satBytes j.patchOvf 8 ++
    (List.range 16).flatMap (fun i => satBytes (j.asyMax.getD i 0) 4 ++ satBytes (j.asyMse.getD i 0) 4)

/-! ## Turns (R36, R37) -/

/-- A job of the program is RUNNING or STOPPING. -/
def activeJob (g : Program) : Bool := decide (g.js = 2) || decide (g.js = 3)
def anyActive (q : Part) : Bool := (List.range 16).any (fun i => activeJob (q.prog i))

/-- The program whose turn is next. -/
def nextProg (q : Part) : Option Nat := ((List.range 16).map (fun i => (q.turn + i) % 16)).find? (fun k => activeJob (q.prog k))

/-- The turn begins a round: it comes back to a program at or before the one that began after. -/
def newRound (q : Part) (k : Nat) : Bool := decide (k < q.turn) || decide (q.turn = 0)

/-- The partition may run frames: it exists, is not being reset and owes no reset. -/
def partReady (q : Part) : Bool := q.live && !q.faultReset && !q.resetting

/-! ## Clocks of the cores (R243, R588, R589) -/

def clockOn (c : Nat) (s : State) : State :=
  s.updCore c (fun k => if k.cycFrom.isSome then k else { k with cycFrom := some (coreNow s) })

/-- Count the core cycles with the clock running since the last snapshot (BENCH_ACT_ACTIVE, R618). -/
def countActive (c : Nat) (s : State) : State :=
  match (s.core c).cycFrom with
  | some f => act (benchOf c) 0x6858 (coreNow s - max f s.pwr.snapCore) s
  | none => s

def clockOff (c : Nat) (s : State) : State :=
  (countActive c s).updCore c (fun k => match k.cycFrom with
    | some f => { k with cycAcc := k.cycAcc + (coreNow s - f), cycFrom := none }
    | none => k)

/-! ## Putting a program into its benches (R385, R386, R442, R575, R579) -/

/-- The relocation registers of a bench. -/
def relocOf (x : Bench) : List Dword := (List.range 16).map (fun n => x.r (0x6000 + n * 0x10))

/-- Relocation regions of a program in every bench; the stockrooms are invalidated when they change (R386, R387). -/
def putReloc (p : Nat) (l : List Dword) (s : State) : State :=
  forAll (benchesOf s p) (fun b s => s.updBench b (fun x =>
    let y := (List.range 16).foldl (fun x n => x.setR (0x6000 + n * 0x10) (l.getD n 0)) x
    if relocOf x = relocOf y then y else { y with lines := [] })) s

/-- CORE_IMODE, CORE_SHMODE, the share classes, the decode table and the micro-store of a program, in every core (R254, R258). -/
def putCores (p : Nat) (g : Program) (s : State) : State :=
  let q := s.part p
  let s1 := forAll (coresOf s p) (fun c s => s.updCore c (fun k =>
    let k1 := (List.range 32).foldl (fun k n => k.setReg (0x140 + n) 0) ((k.setReg 0x120 (word g.imode)).setReg 0x12B (word g.shmode))
    let k2 := (List.range 12).foldl (fun k n => k.setReg (0x12C + n) 0) k1
    let k3 := g.sect.ucdec.foldl (fun k e => k.setReg (0x140 + e.1 % 32) e.2) k2
    { k3 with ustore := tblOf (zeros 32) g.sect.ustore })) s
  forAll g.sect.shares (fun e s => s.updCore (coreAt q e.1) (fun k => k.setReg e.2.1 e.2.2)) s1

/-- Stockroom connections of a program in every bench (R394). -/
def putSrconns (p : Nat) (g : Program) (s : State) : State :=
  let q := s.part p
  let s1 := forAll (benchesOf s p) (fun b s => s.updBench b (fun x => (List.range 16).foldl (fun x d => x.setR (0x6200 + d * 8) 0) x)) s
  forAll g.sect.srconns (fun e s => s.updBench (benchAt q e.1) (fun x => x.setR (0x6200 + e.2.1 * 8) e.2.2)) s1

/-- What every program in place has of its package. -/
def putPackage (p k : Nat) (s : State) : State :=
  let g := (s.part p).prog k
  let s1 := putSrconns p g (putCores p g (putReloc p g.sect.reloc s))
  s1.updPart p (fun q => { q with plog := g.plog, cur := k + 1 })

/-- The package's initial state: contexts, tiles, tallies, queues and channels at reset, the pattern, the connection table, the
local memory images, the queues armed, and the service paths cut (R344, R442, R575). A locked core stays locked (R310). -/
def installFresh (p k : Nat) (s : State) : State :=
  let q := s.part p
  let g := q.prog k
  let s1 := putPackage p k s
  let s2 := forAll (benchesOf s p) (fun b s => s.updBench b (fun x =>
    { x.setR 0x4A00 0 with
      pattern := [], conns := [], connOwn := [], oq := [], tallies := [], watches := [], tallyIn := [], deferred := [], inbox := [],
      queues := [], chans := [], pathAsk := [] })) s1
  let s3 := forAll (coresOf s p) (fun c s => s.updCore c (fun k =>
    { k with ctxs := if lockedCore k then k.ctxs else [], accs := [], tops := [], micro := [], tileOwn := [], queueOwn := [], slotOwn := [],
             tiles := k.tiles.map (fun t => (t.1, { t.2 with inUse := false })) })) s2
  let s4 := forAll g.sect.pattern (fun e s => setEntry (benchAt q e.1) e.2.1 e.2.2.toNat s) s3
  let s5 := forAll g.sect.conns (fun e s => setConn (benchAt q e.1) e.2.1 e.2.2.toNat s) s4
  let s5 := forAll g.sect.owners (fun e s => s.updBench (benchAt q e.1) (fun x => { x with connOwn := tblSet nats x.connOwn e.2.1 (e.2.2 % 2 + 1) })) s5
  let s6 := forAll g.sect.code (fun e s => write (localBase (coreAt q e.1) + e.2.1) e.2.2 s) s5
  let s7 := forAll g.sect.queues (fun e s => queueWrite (coreAt q e.1) e.2.1 (setBits e.2.2.toNat 23 23 1) (2 ^ 64 - 1) s) s6
  let s8 := { s7 with clicker := { s7.clicker with paths := s7.clicker.paths.filter (fun c => decide (c.part ≠ p)) } }
  let s9 := forAll g.sect.services (fun e s =>
    match cutPath (benchAt q e.1) (benchAt q e.2) 1 2 2 s with
    | .ok (_, s1) => s1
    | .error _ => s) s8
  s9.updPart p (fun q => q.updProg k (fun g => { g with saved := none, fresh := false }))

/-- The live memory of a program (R39): module addresses and bytes. -/
def liveRanges (q : Part) (g : Program) : List (Nat × Nat) :=
  g.sect.liveLocal.map (fun e => (localBase (coreAt q e.1) + e.2.1, e.2.2)) ++ g.sect.liveWindow.map (fun e => (winBase (benchAt q e.1), e.2))

/-- Places of ranges in the save region, one after the other from offset `o`. -/
def placeRanges : Nat → List (Nat × Nat) → List (Nat × Nat × Nat)
  | _, [] => []
  | o, (a, n) :: r => (a, o, n) :: placeRanges (o + n) r

/-- Save the program in place (R39, R117, R124, R311, R345, R490): the context images and then the live memory are written to its save
region. -/
def saveProg (p k : Nat) (s : State) : State :=
  let q := s.part p
  let g := q.prog k
  let imgs := partImages s p
  let live := liveRanges q g
  let bytes := imgs ++ live.flatMap (fun r => memBytes s.mem r.1 r.2)
  let sv : Saved :=
  { benches := (benchesOf s p).map (fun b => (b, s.bench b))
    stages := (coresOf s p).flatMap (fun c => (List.range (nCtx s c)).map (fun i => (c, i, ((s.core c).ctx i).stage0, ((s.core c).ctx i).stage1)))
    ranges := placeRanges imgs.length live
    paths := s.clicker.paths.filter (fun c => decide (c.part = p)) }
  let s1 := (saveWrite g.save (bytes.length / 2 ^ 21 + 1) 0 bytes s).updPart p (fun q =>
    q.updProg k (fun g => { g with saved := some sv, fresh := false }))
  { s1 with clicker := { s1.clicker with paths := s1.clicker.paths.filter (fun c => decide (c.part ≠ p)) } }

/-- Restore a saved program: the thread context images and the live memory from its save region; staging buffers; pattern,
connections, tally records, queues, channels, open-class queue and variant selection (BENCH_PVSEL, all of it) of its benches; its
cuts. Service paths it was waiting for are asked for again (R345). -/
def restoreProg (p k : Nat) (sv : Saved) (s : State) : State :=
  let u := ((s.part p).prog k).save
  let s1 := restoreImages p u (putPackage p k s)
  let s2 := forAll sv.stages (fun e s => s.updCtx ⟨e.1, e.2.1⟩ (fun x => { x with stage0 := e.2.2.1, stage1 := e.2.2.2 })) s1
  let s3 := forAll sv.benches (fun e s => s.updBench e.1 (fun now =>
    { now.setR 0x4A00 (e.2.r 0x4A00) with
      pattern := e.2.pattern, conns := e.2.conns, connOwn := e.2.connOwn, oq := e.2.oq, tallies := e.2.tallies, watches := e.2.watches,
      tallyIn := e.2.tallyIn, deferred := e.2.deferred, inbox := e.2.inbox, queues := e.2.queues, chans := e.2.chans,
      pathAsk := e.2.pathAsk })) s2
  let s4 := forAll sv.ranges (fun r s => write r.1 (saveRead u s r.2.1 r.2.2) s) s3
  let s5 := { s4 with clicker := { s4.clicker with paths := s4.clicker.paths ++ sv.paths } }
  let s6 := forAll sv.benches (fun e s =>
    forAll e.2.pathAsk (fun d s => ringPut (rowStop e.1) clickerStop (.request (.service e.1 d)) s) s) s5
  s6.updPart p (fun q => q.updProg k (fun g => { g with saved := none }))

/-- Bring program `k` into the benches of partition `p`. -/
def bringIn (p k : Nat) (s : State) : State :=
  match ((s.part p).prog k).saved with
  | some sv => if ((s.part p).prog k).fresh then installFresh p k s else restoreProg p k sv s
  | none => installFresh p k s

/-! ## The end of a job (R489, R576, R580, R583) -/

/-- Tallies of a bench that break R489, as indexes: COUNT not 0, a flag set, or a watch registered. -/
def dirtyTallies (b : Nat) (x : Bench) : List Nat :=
  (List.range 480).filter (fun i =>
    let r := x.tally i
    decide (r.count ≠ 0) || r.ovf || r.unf || r.mis || x.watches.any (fun w => decide (w.tally = b * 512 + i)))

/-- The Foreman's cleaning of a bench's tallies. -/
def cleanTallies (b : Nat) (x : Bench) : Bench :=
  let z := (dirtyTallies b x).foldl (fun (x : Bench) i =>
    x.updTally i (fun r => { r with count := 0, ovf := false, unf := false, mis := false, scope := 3 })) x
  let y := (List.range 32).foldl (fun (x : Bench) i => x.updTally (480 + i) (fun r => { r with count := 0 })) z
  { y with watches := x.watches.filter (fun w => decide (480 ≤ w.tally % 512 ∨ w.tally / 512 ≠ b)) }

/-- The largest value of a statistic over the partition's benches. -/
def maxOver (s : State) (p : Nat) (f : Bench → Nat) : Nat := (benchesOf s p).foldl (fun m b => max m (f (s.bench b))) 0

/-- The last job of a partition has ended: its cores are to be taken out of spinning, also when another job starts before (R588, R589). -/
def spinDown (p : Nat) (s : State) : State :=
  s.updPart p (fun q => if anyActive q = false ∧ (q.ramp = 1 ∨ q.ramp = 3) then { q with ramp := 4, rampEnd := s.tb } else q)

/-- A job ends: the tallies are examined and cleaned, the record is final, JOB_ENDED is logged and a waiting STOP_JOB answered. -/
def jobEnd (p k reason : Nat) (s : State) : State :=
  let q := s.part p
  let g := q.prog k
  let here := decide (q.cur = k + 1)
  let marks := if here then (benchesOf s p).flatMap (fun b => (dirtyTallies b (s.bench b)).map (fun i => b * 512 + i))
    else match g.saved with
      | some sv => sv.benches.flatMap (fun e => (dirtyTallies e.1 e.2).map (fun i => e.1 * 512 + i))
      | none => []
  let s1 := if here then forAll (benchesOf s p) (fun b s => s.updBench b (cleanTallies b)) s
    else s.updPart p (fun q => q.updProg k (fun g =>
      { g with saved := g.saved.map (fun sv => { sv with benches := sv.benches.map (fun e => (e.1, cleanTallies e.1 e.2)) }) }))
  let mse := fun (i : Nat) (x : Bench) =>
    let cnt := counterCount (x.r (0x4510 + i * 0x40))
    if cnt = 0 then 0 else counterCount (x.r (0x4508 + i * 0x40)) / cnt
  let j := { g.job with
    reason := reason, dirty := marks.length, firstDirty := marks.foldl min (marks.headD 0)
    asyMax := (List.range 16).map (fun i => maxOver s p (fun x => (x.r (0x4500 + i * 0x40)).toNat % 2 ^ 32))
    asyMse := (List.range 16).map (fun i => min (2 ^ 32 - 1) (maxOver s p (mse i))) }
  let s2 := spinDown p (s1.updPart p (fun q => q.updProg k (fun g => { g with js := 4, job := j, stopBy := 0, stopWhy := 0 })))
  let s3 := if marks = [] then s2
    else logEvent 13 p 1 (leBytes j.jobid 4 ++ satBytes marks.length 2 ++ leBytes j.firstDirty 2) s2
  let s4 := logEvent 1 p 0 (leBytes j.jobid 4 ++ leBytes k 1 ++ leBytes reason 1) (touch s3)
  if g.stopBy = 0 then s4 else respond (g.stopBy - 1) 0 0 (jobBytes p k j) s4

/-- Every job of a partition ends with one reason. -/
def endAll (p reason : Nat) (s : State) : State :=
  forAll (List.range 16) (fun k s => if activeJob ((s.part p).prog k) then jobEnd p k reason s else s) s

/-- Add the running frame's time since it was last added to its program's (R623). -/
def addFrameTime (p : Nat) (s : State) : State :=
  s.updPart p (fun q =>
    if q.frame = .running then
      { q.updProg (q.cur - 1) (fun g => { g with ranNs := g.ranNs + (s.tb - q.frameAt) }) with frameAt := s.tb }
    else q)

/-! ## Discarding a frame (R577, R739) -/

/-- Whatever holds a thread is given up at the reset point of its core (R686). -/
def dropWait (t : Thread) (s : State) : State :=
  let clear := fun (s : State) => s.updCtx t (fun x => { x with wait := .none, heldPops := 0, heldLen := 0, suspReq := false })
  match (s.ctx t).wait with
  | .none => clear s
  | .tile => clear (discardTile t s)
  | .micro => clear (s.updCore t.core (fun k => { k with micro := k.micro.filter (fun m => decide (m.ctx ≠ t.ctx)) }))
  | .copen h =>
    let s1 := dropCopen t.core h s
    let mine := fun (p : RingPkt) => decide (p.msg = .check t.core h) || decide (p.msg = .request (.copen t.core h)) ||
      (match p.msg with
        | .answer c g _ => decide (c = t.core) && decide (g = h)
        | _ => false)
    let opened := decide ((s.chanOf t.core h).state = 2)
    let s2 := { (if opened then abortChan t.core h s else s1) with
      ring := s.ring.filter (fun p => !mine p)
      clicker := { s.clicker with queue := s.clicker.queue.filter (fun r => decide (r ≠ .copen t.core h)) } }
    clear s2
  | .ending _ => s
  | .ended => s
  | _ => clear (abandon t s)

/-- Apply an operation to every context of a partition's cores. -/
def forCtxs (p : Nat) (f : Thread → State → State) (s : State) : State :=
  forAll (coresOf s p) (fun c s => forAll (List.range (nCtx s c)) (fun i s => f ⟨c, i⟩ s) s) s

/-- A stopped context of a discarded frame (R739): a pool thread in SUSP is ended as the END write ends it, with LASTEND 1; C0 goes
back to PARK with empty stacks and no loop level open. -/
def discardCtx (t : Thread) (s : State) : State :=
  let x := s.ctx t
  if t.ctx = 0 then
    if x.st = .lock then s
    else s.updCtx t (fun x => { x with st := .park, lvl := .s, ops := [], rets := [], ldepth := 0, hold := none, holdLen := none })
  else if x.st = .susp then s.updCtx t (fun x => { x with st := .run, wait := .ending true })
  else s

/-- Every thread of a partition has stopped. -/
def threadsStopped (s : State) (p : Nat) : Bool :=
  (coresOf s p).all (fun c => (List.range 8).all (fun i => decide (((s.core c).ctx i).st ≠ .run)))

/-- The threads of a frame to be discarded have stopped: its contexts are left as R739 gives, the quiet period begins, and the jobs that
the stop ends are over. -/
def finishDiscard (p : Nat) (s : State) : State :=
  let q := s.part p
  if q.discard = 0 ∨ q.frame ≠ .running ∨ threadsStopped s p = false then s
  else
    let s1 := (forCtxs p discardCtx (addFrameTime p s)).updPart p (fun q =>
      { q with frame := .quiet s.now, turn := q.cur % 16, discard := 0 })
    if q.discard = 4 then endAll p 4 s1 else jobEnd p (q.cur - 1) q.discard s1

/-- The running frame of a partition is to be discarded: its descriptors are aborted (R745) and its threads suspended as R270 and R744
give; it goes on until the last has stopped. -/
def discardFrame (p why : Nat) (s : State) : State :=
  if (s.part p).frame ≠ .running then s
  else finishDiscard p ((forCtxs p askStop (forAll (benchesOf s p) abortAll s)).updPart p (fun q => { q with discard := max q.discard why }))

/-! ## Frame start (R111, R274, R322, R694 to R696) -/

/-- The frame number goes on: 0 after a partition reset, else one more (R694). -/
def nextFn (q : Part) : Part :=
  if q.started = false then { q with started := true, fn := 0 }
  else { q with fn := (q.fn + 1) % 2 ^ 32, epoch := if (q.fn + 1) % 2 ^ 32 = 0 then (q.epoch + 1) % 2 ^ 16 else q.epoch }

/-- BENCH_PVSEL.NEXT copied into CUR (R111); a selection the package does not carry is taken as variant 0. -/
def chosen (s : State) (p k : Nat) : Nat :=
  let q := s.part p
  let v := ((s.bench (leadOf q)).r 0x4A00).toNat % 8
  if v < (q.prog k).nvar then v else 0

/-- The initial TFMT values of a context in a variant (R108). -/
def tfmtFor (g : Program) (v pos ctx i : Nat) : Word :=
  match g.sect.tfmt.find? (fun e => decide (e.1 = v) && decide (e.2.1 = pos) && decide (e.2.2.1 = ctx) && decide (e.2.2.2.1 = i)) with
  | some e => e.2.2.2.2
  | none => 0

/-- The state a frame gives a core: TFMT values in every context, and C0 out of PARK at the entry point. -/
def startCore (q : Part) (g : Program) (v pos : Nat) (s : State) : State :=
  let c := coreAt q pos
  let entry := word ((g.variants[v]?.map (·.entry)).getD 0)
  forAll (List.range 8) (fun i s => s.updCtx ⟨c, i⟩ (fun x =>
    let y := (List.range 4).foldl (fun (x : Ctx) n => x.setReg (0x024 + n) (tfmtFor g v pos i n &&& 0x1FFFFF#32)) { x with samples := 0 }
    if i = 0 ∧ x.st = .park then { y with st := .run, lvl := .s, pc := entry, ops := [], rets := [], ldepth := 0 } else y)) s

/-- The first core cycle from now in which C0 of a core, the only ready context, issues: the next that C0 owns in strict barrel mode
(R260); this one in shared issue mode, in which a cycle whose owner is not ready passes to it (R261). -/
def c0Slot (s : State) (c : Nat) : Nat :=
  let n := nCtx s c
  if n = 8 then coreNow s + (n - cyc s c % n) % n else coreNow s

/-- The FRAME record at the lead bench (R698). -/
def traceFrame (p k v : Nat) (s : State) : State :=
  trace (leadOf (s.part p)) 0 0 6 0 (leBytes k 1 ++ leBytes v 1 ++ leBytes (s.part p).epoch 2) s

/-- Start the frame of program `k`, which is in place. -/
def startFrame (p k : Nat) (s : State) : State :=
  let q := s.part p
  let g := q.prog k
  let v := chosen s p k
  let s1 := s.updBench (leadOf q) (fun x => x.setR 0x4A00 (BitVec.ofNat 64 (setBits (x.r 0x4A00).toNat 10 8 v)))
  let s2 := forAll (List.range (4 * q.w * q.h)) (fun i s => startCore q g v i s) s1
  let first := (coresOf s p).foldl (fun m c => min m (c0Slot s c)) (c0Slot s (4 * leadOf q))
  traceFrame p k v (s2.updPart p (fun q =>
    let q := nextFn q
    { (q.updProg k (fun g => { g with job :=
        { g.job with variant := v, startTb := if g.job.frames = 0 ∧ g.job.startTb = 0 then s.tb else g.job.startTb } })) with
      frame := .running, first := some first, begun := s.now, frameAt := s.tb, syncWait := none, synced := false }))

/-- The frame could start but for FRAME_SYNC: the program whose turn it is, in place, its partition at a boundary. -/
def frameDue (s : State) (p : Nat) : Option Nat :=
  let q := s.part p
  match nextProg q with
  | none => none
  | some k => if partReady q && s.board.wetarOn && decide (q.frame = .idle) && decide (q.ramp = 1) && decide (q.cur = k + 1) && !q.marked then some k else none

/-- SYNCMASK of the trace control register names the partition (R695). -/
def synchronised (s : State) (p : Nat) : Bool := bit s.trc.ctl.toNat (16 + 16 + p)

/-- FRAME_START. The first frame of a round of a synchronised partition begins to wait for FRAME_SYNC instead. -/
def frameStart (p : Nat) (s : State) : State :=
  match frameDue s p with
  | none => s
  | some k =>
    let q := s.part p
    if synchronised s p && newRound q k && !q.synced then
      (if q.syncWait.isNone then s.updPart p (fun q => { q with syncWait := some (coreNow s) }) else s)
    else startFrame p k s

/-- A wait for FRAME_SYNC is over: the frame starts. -/
def syncRelease (p : Nat) (s : State) : State :=
  if (s.part p).syncWait.isSome then frameStart p (s.updPart p (fun q => { q with synced := true, syncWait := none })) else s

/-- FRAME_SYNC_EDGE: the timebase is latched, and waiting frames start (R695). An edge less than 10 µs after the last accepted one is
ignored (R720). -/
def frameSyncEdge (s : State) : State :=
  match s.board.lastEdge with
  | some u => if s.tb < u + 10000 then s else latch
  | none => latch
where
  latch := forAll (List.range 8) syncRelease { s with board := { s.board with syncTb := s.tb, lastEdge := some s.tb } }

/-- FRAME_SYNC_MISS: 2^30 core cycles without an edge (R696). -/
def frameSyncMiss (p : Nat) (s : State) : State :=
  match (s.part p).syncWait with
  | some u =>
    if u + 2 ^ 30 ≤ coreNow s then
      syncRelease p { s with trc := { s.trc with reg := tblUpd (zeros 64) s.trc.reg 0x040 (fun v => counterAdd v 1) } }
    else s
  | none => s

/-! ## Frame end (R275, R323, R576) -/

/-- A core has stopped issuing. -/
def coreDone (s : State) (c : Nat) : Bool :=
  let k := s.core c
  (List.range 8).all (fun i =>
    let x := k.ctx i
    (decide (x.st = .free) || decide (x.st = .park) || decide (x.st = .halt)) && x.inject.isNone) &&
    decide ((k.reg 0x125 &&& k.reg 0x126) = 0)

/-- The end reason of the running program at its frame boundary, 0 for none; a FAULT stop yields to FRAMES and to a pending stop. -/
def endReason (g : Program) : Nat :=
  if g.job.framesAsked ≠ 0 ∧ g.job.framesAsked ≤ g.job.frames then 1
  else if g.stopBy ≠ 0 then 2
  else g.stopWhy

/-- FRAME_END: every context of the partition is FREE, PARK or HALT, with nothing pending; the frame's length runs to this control cycle
(R275). A frame to be discarded goes on as R739 gives. -/
def frameEnd (p : Nat) (s : State) : State :=
  let q := s.part p
  if q.discard ≠ 0 then finishDiscard p s
  else if q.frame ≠ .running ∨ (coresOf s p).all (coreDone s) = false then s
  else
    let k := q.cur - 1
    let len := 2 * ctlNow s - q.first.getD (coreNow s)
    let late := decide ((((q.prog k).variants[(q.prog k).job.variant]?).map (·.frameCyc)).getD 0 < len)
    let s1 := (addFrameTime p s).updPart p (fun q =>
      { (q.updProg k (fun g => { g with job :=
          { g.job with frames := g.job.frames + 1, endTb := s.tb, overruns := g.job.overruns + b2n late } })) with
        frame := .quiet s.now, turn := (k + 1) % 16 })
    let s2 := if late then logMerged 2 p (q.prog k).job.jobid (leBytes q.fn 4) s1 else s1
    let s3 := forAll (benchesOf s p) abortAll s2
    let fault := (List.range 16).any (fun i => decide (((s3.part p).prog i).stopWhy = 4))
    let why := endReason ((s3.part p).prog k)
    let s4 := if why ≠ 0 then jobEnd p k why s3 else s3
    if fault then (endAll p 4 s4).updPart p (fun q => { q with faultReset := true }) else s4

/-- The jobs of a partition that a fault stop is to end are STOPPING (R574). -/
def faultJobs (p : Nat) (s : State) : State :=
  s.updPart p (fun q => (List.range 16).foldl (fun q k => if activeJob (q.prog k) then q.updProg k (fun g => { g with js := 3, stopWhy := 4 }) else q) q)

/-- A stop at once of every job of a partition, for an uncorrectable fault (R675 to R677): a frame whose end has come counts as completed,
one still running is discarded, the jobs end with FAULT, and the Foreman owes the partition a reset. -/
def stopNow (p : Nat) (s : State) : State :=
  if (s.part p).live then
    let s1 := frameEnd p s
    (if (s1.part p).frame = .running then discardFrame p 4 (faultJobs p s1) else endAll p 4 s1).updPart p (fun q => { q with faultReset := true })
  else s

/-- A stop at the frame boundary, for a correctable deciding event (R675); at once when no frame runs. -/
def stopAtBoundary (p : Nat) (s : State) : State :=
  if (s.part p).frame = .running ∧ anyActive (s.part p) then
    faultJobs p s
  else stopNow p s

/-- No flit, reply or descriptor of the partition is outstanding (R323). -/
def settled (s : State) (p : Nat) : Bool :=
  let q := s.part p
  !s.flits.any (fun f => q.holds f.station) && !s.arrivals.any (fun f => q.holds f.station) &&
    (List.range 16).all (fun d => !ownsMem q d || decide ((s.port d).replies = [])) &&
    (benchesOf s p).all (fun b => (List.range 64).all (fun i =>
      let x := (s.bench b).slot i
      decide (x.cls = 2) || decide (x.state ≠ 3)))

/-- Every context of a core has stopped for good, a locked one too. -/
def coreStill (s : State) (c : Nat) : Bool :=
  (List.range 8).all (fun i => decide (((s.core c).ctx i).st ≠ .run) && decide (((s.core c).ctx i).st ≠ .susp))

/-- QUIET_PERIOD_END: after 64 mesh cycles, once everything has settled, the pattern index stops. -/
def quietEnd (p : Nat) (s : State) : State :=
  match (s.part p).frame with
  | .quiet since =>
    if decide (since + 64 ≤ s.now) && settled s p && (coresOf s p).all (coreStill s) && (benchesOf s p).all (fun b => !queueDrains s b) then
      s.updPart p (fun q => { q with frame := .idle, idx := (s.now - q.begun) % 2 ^ q.plog })
    else s
  | _ => s

/-! ## Switches (R38, R39, R345, R579) -/

/-- The benches hold no tally operation or message still on its way. -/
def benchStill (x : Bench) : Bool := decide (x.tallyIn = []) && decide (x.deferred = []) && decide (x.inbox = [])

/-- Requests of a partition that the clicker has not begun to serve are dropped. -/
def dropRequests (p : Nat) (s : State) : State :=
  let mine := fun (r : CReq) => (s.part p).holds (reqBench r)
  let msg := fun (k : RingPkt) => match k.msg with
    | .request r => if mine r then some r else none
    | _ => none
  let l := s.clicker.queue.filter mine ++ s.ring.filterMap msg
  forAll l dropReq { s with
    ring := s.ring.filter (fun k => (msg k).isNone)
    clicker := { s.clicker with queue := s.clicker.queue.filter (fun r => !mine r) } }

/-- TIME_SLICE_SWITCH: at a frame boundary, the program whose turn is next comes into the benches. First the partition is marked at
the clicker; then the outgoing program is saved, the incoming one restored, and the mark cleared. -/
def timeSliceSwitch (p : Nat) (s : State) : State :=
  let q := s.part p
  match nextProg q with
  | none => s
  | some k =>
    if partReady q && decide (q.frame = .idle) && decide (q.cur ≠ k + 1) && (benchesOf s p).all (fun b => benchStill (s.bench b)) then
      if q.marked = false then s.updPart p (fun q => { q with marked := true })
      else
        let s1 := dropRequests p s
        let s2 := if q.cur = 0 then s1 else saveProg p (q.cur - 1) s1
        (bringIn p k s2).updPart p (fun q => { q with marked := false })
    else s

/-! ## Ramps (R588 to R590) -/

/-- The largest ENV of a program at the current point. -/
def envNow (s : State) (g : Program) : Nat := g.variants.foldl (fun m v => max m (v.env.getD s.pwr.op 0)) 0

/-- The rates of the ramps under way (half W per ms) leave room for one more. -/
def rampRoom (s : State) (r : Nat) : Bool :=
  decide ((List.range 8).foldl (fun n p =>
    n + if 2 ≤ (s.part p).ramp ∧ s.tb < (s.part p).rampEnd then (s.part p).rampRate else 0) r ≤ 1000)

/-- Begin a ramp for a program's power. -/
def beginRamp (p dir e : Nat) (s : State) : State :=
  s.updPart p (fun q => { q with ramp := dir, rampEnd := s.tb + max 2000000 (2000 * e), rampRate := min e 1000 })

/-- PREAMBLE: the governor begins to bring the cores into spinning, counted in FMN_CNT_GOV, and when its time is over the first frame
may begin. -/
def preamble (p : Nat) (s : State) : State :=
  let q := s.part p
  match nextProg q with
  | none => s
  | some k =>
    let e := envNow s (q.prog k)
    if q.live = false ∨ s.board.wetarOn = false then s
    else if q.ramp = 0 then
      if rampRoom s (min e 1000) then
        let s1 := forAll (coresOf s p) clockOn (beginRamp p 3 e s)
        { s1 with pwr := { s1.pwr with reg := tblUpd (zeros 64) s1.pwr.reg 0x030 (fun v => counterAdd v 1) } }
      else s
    else if q.ramp = 3 ∧ q.rampEnd ≤ s.tb then s.updPart p (fun q => { q with ramp := 1 })
    else s

/-- RAMP_DOWN: after the last job and its last frame the cores spin down, and when that is over their clocks are gated. -/
def rampDown (p : Nat) (s : State) : State :=
  let q := s.part p
  let e := (List.range 16).foldl (fun m k => max m (envNow s (q.prog k))) 0
  if q.ramp = 2 ∧ q.rampEnd ≤ s.tb then (forAll (coresOf s p) clockOff (touch s)).updPart p (fun q => { q with ramp := 0 })
  else if q.live && decide (q.ramp = 4) && decide (q.frame = .idle) && rampRoom s (min e 1000) then beginRamp p 2 e s
  else s

/-! ## The commands -/

/-- FRAME_START (R274). -/
def execFrameStart (part : Nat) (s : State) : Ans := .next (if part < 8 then frameStart part s else s)
/-- FRAME_END (R275). -/
def execFrameEnd (part : Nat) (s : State) : Ans := .next (if part < 8 then frameEnd part s else s)
/-- QUIET_PERIOD_END (R323). -/
def execQuietPeriodEnd (part : Nat) (s : State) : Ans := .next (if part < 8 then quietEnd part s else s)
/-- TIME_SLICE_SWITCH (R579). -/
def execTimeSliceSwitch (part : Nat) (s : State) : Ans := .next (if part < 8 then timeSliceSwitch part s else s)
/-- PREAMBLE (R588). -/
def execPreamble (part : Nat) (s : State) : Ans := .next (if part < 8 then preamble part s else s)
/-- RAMP_DOWN (R589). -/
def execRampDown (part : Nat) (s : State) : Ans := .next (if part < 8 then rampDown part s else s)
/-- FRAME_SYNC_EDGE (R695). -/
def execFrameSyncEdge (s : State) : Ans := .next (if s.board.island then frameSyncEdge s else s)
/-- FRAME_SYNC_MISS (R696). -/
def execFrameSyncMiss (part : Nat) (s : State) : Ans := .next (if part < 8 then frameSyncMiss part s else s)

end Sys2Proof.Machine
end

