-- ==== Sys2Proof/Machine/Ports.lean ====
section
/-! DEFINITION. Memory ports: requests, merge windows, GDDR7 accesses, reply slots, schedule slips and reserve slots (R350 to R366,
R747). -/

namespace Sys2Proof.Machine

/-! ## Parts -/

def portCount (d o n : Nat) (s : State) : State := s.updPort d (fun x => x.setR o (counterAdd (x.r o) n))

/-- Put a flit at the X input of a station's router in this mesh cycle. -/
def atX (b : Nat) (f : Flit) (s : State) : State :=
  { s with flits := s.flits ++ [{ station := b, input := 5, at_ := s.now, flit := f }] }

/-- The lines that a flit names (R318). -/
def flitLines (f : Flit) : List Nat :=
  (if bit f.lmask 0 then [f.addr / 128 * 2] else []) ++ (if bit f.lmask 1 then [f.addr / 128 * 2 + 1] else [])

/-- The module address of a data flit's first byte. -/
def flitAddr (f : Flit) : Nat := f.addr / 128 * 128 + (if f.lmask = 2 then 64 else 0)

/-- The access with a number. -/
def accOf (x : Port) (id : Nat) : Option PAcc := x.accs.find? (fun a => decide (a.id = id))

/-- Every access of a reply has its data at the port; an access no longer kept has. -/
def replyReady (x : Port) (q : PReply) : Bool :=
  q.accs.all (fun id => match accOf x id with
    | some a => a.ready.isSome
    | none => true)

/-- The mesh cycle in which the last data of a reply became ready. -/
def readyAt (x : Port) (q : PReply) : Nat :=
  q.accs.foldl (fun m id => match accOf x id with
    | some a => max m (a.ready.getD 0)
    | none => m) 0

/-- The reply met an uncorrectable error. -/
def replyErr (x : Port) (q : PReply) : Bool :=
  q.flit.err || q.accs.any (fun id => match accOf x id with
    | some a => a.err
    | none => false)

/-- Accesses kept: those under way, and those a reply or an open window names. -/
def pruneAccs (x : Port) : Port :=
  { x with accs := x.accs.filter (fun a =>
      a.ready.isNone || x.replies.any (fun q => q.accs.contains a.id) || x.wins.any (fun w => decide (w.acc = a.id))) }

/-- Flits in the slip buffer. -/
def slipOcc (x : Port) : Nat := (x.replies.filter (·.slot)).length

/-- Late data that waits for a place in the slip buffer. -/
def slipWaits (x : Port) (q : PReply) : Bool := q.late && !q.slot && replyReady x q

/-- The slip buffer is full, or late data waits for it (R362). -/
def slipFull (x : Port) : Bool := decide (64 ≤ slipOcc x) || x.replies.any (slipWaits x)

/-- Late data enters the slip buffer while it has places, the data that was ready first going first (R362); BENCH_STAT.SLIPMAX. -/
def fillSlips : Nat → Port → Port
  | 0, x => x
  | n + 1, x =>
    if 64 ≤ slipOcc x then x
    else
      let first := (x.replies.filter (slipWaits x)).foldl (fun best q => match best with
        | none => some q
        | some p => if readyAt x q < readyAt x p then some q else some p) none
      match first with
      | none => x
      | some q =>
        let y := { x with replies := x.replies.map (fun p => if p = q then { p with slot := true } else p) }
        let w := (y.r 0).toNat
        fillSlips n (y.setR 0 (BitVec.ofNat 64 (setBits w 22 16 (max (bits w 22 16) (slipOcc y)))))

/-- The slip buffer is filled as far as it goes; when it has a place left, the reads held back start (R362). -/
def settleSlips (d : Nat) (s : State) : State :=
  s.updPort d (fun x =>
    let y := pruneAccs (fillSlips 64 x)
    if slipFull y then y else { y with accs := y.accs.map (fun a => { a with held := false }) })

/-! ## Requests (R351 to R356, R747) -/

/-- Count a compiled access of `n` lines with request slot r: PORT_CNT_ACC, PORT_ACT_BYTES, PORT_WINMAX. -/
def countAccess (d r n : Nat) (s : State) : State :=
  portCount d 0x008 1 (s.updPort d (fun x =>
    let l := x.recent.filter (fun t => decide (r < t + 64)) ++ [r]
    { x.setR 0x028 (BitVec.ofNat 64 (min 127 (max (x.r 0x028).toNat l.length))) with recent := l, actBytes := x.actBytes + 64 * n }))

/-- The bench that consumes a reply: the destination's, for a porter's read; else the requester's. -/
def consumer (s : State) (f : Flit) : Nat :=
  match f.use with
  | .porter c i _ => countBench (benchOf c) (s.slotOf c i)
  | _ => f.srcb

/-- Add the reply a read request is owed. -/
def oweReply (d r : Nat) (f : Flit) (accs : List Nat) (data : List Byte) (err : Bool) (s : State) : State :=
  let b := consumer s f
  s.updPort d (fun x =>
    { x with replies := x.replies ++
        [{ r := r, accs := accs, bench := b, flit := { f with kind := 4, err := err, data := data }, late := false, slot := false }] })

/-- A read request (R353). -/
def portRead (d r : Nat) (f : Flit) (s : State) : State :=
  if f.err || memMappedOut s d then oweReply d r f [] [] true s
  else
    let s := s.updPort d (fun x => { x with wins := x.wins.filter (fun w => decide (r < w.r0 + 64)) })
    let x := s.port d
    let lines := flitLines f
    let win := fun (l : Nat) => x.wins.find? (fun w => decide (w.line = l))
    if lines.all (fun l => (win l).isSome) then
      portCount d 0x010 1 (oweReply d r f (lines.filterMap (fun l => (win l).map (·.acc)))
        (lines.flatMap (fun l => ((win l).map (·.data)).getD [])) false s)
    else
      let id := x.nextAcc
      let s1 := s.updPort d (fun x =>
        { x with
          nextAcc := id + 1
          accs := x.accs ++ [{ id := id, start := r, held := slipFull x, ready := none, err := false }]
          wins := x.wins ++ (lines.filter (fun l => (win l).isNone)).map (fun l =>
            { line := l, r0 := r, acc := id, data := memBytes s.mem (l * 64) 64 }) })
      countAccess d r lines.length (oweReply d r f [id] (lines.flatMap (fun l => memBytes s.mem (l * 64) 64)) false s1)

/-- Bytes of an accepted packet of a receive stream have been written. -/
def weltWrote (id psn n : Nat) (s : State) : State :=
  forAll (List.range 8) (fun w s => s.updWelt w (fun y => { y with rx := y.rx.map (fun p =>
    if p.stream = id ∧ p.psn = psn then { p with wrote := p.wrote + n } else p) })) s

/-- A write has passed its request slot: its sender, which knows the slot and the path, counts it whatever the port makes of it
(R422, R426, R438). -/
def writeCounted (f : Flit) (s : State) : State :=
  match f.use with
  | .porter c i _ => landed c i f.data.length s
  | .item serial => itemDone f.srcb serial s
  | .welt id psn _ => weltWrote id psn f.data.length s
  | _ => s

/-- A write request: it takes effect at once and closes the merge windows of its lines (R351, R355). A damaged write, or one to a device
mapped out, writes nothing and stops the partition (R747). -/
def portWrite (d r : Nat) (f : Flit) (s : State) : State :=
  if f.err || memMappedOut s d then
    let s1 := writeCounted f s
    match memOwner s d with
    | some p => stopNow p s1
    | none => s1
  else
    let lines := flitLines f
    let s1 := countAccess d r lines.length (s.updPort d (fun x => { x with wins := x.wins.filter (fun w => !lines.contains w.line) }))
    writeCounted f (if f.kind = 3 then writeMask (flitAddr f) (f.data.zip f.mask) s1 else write (flitAddr f) f.data s1)

/-- Take the first due arrival that `sel` picks. -/
def takeArrival (sel : Arrival → Bool) (s : State) : Option (Arrival × State) :=
  match s.arrivals.find? (fun a => decide (a.due ≤ s.now) && sel a) with
  | some a => some (a, { s with arrivals := s.arrivals.erase a })
  | none => none

/-- MEMORY_REQUEST: the next flit at the port, in its request slot; a kind it does not take is discarded (R746). -/
def memoryRequest (d : Nat) (s : State) : State :=
  match takeArrival (fun a => decide (a.station = memStation d) && decide (a.port = 5)) s with
  | none => s
  | some (a, s1) =>
    if a.flit.kind = 1 then portRead d a.due a.flit s1
    else if a.flit.kind = 2 ∨ a.flit.kind = 3 then portWrite d a.due a.flit s1
    else count (memStation d) 0x5028 1 s1

/-- GDDR7_ACCESS_DONE: an access under way has its data at the port. -/
def accessDone (d id : Nat) (err : Bool) (s : State) : State :=
  match accOf (s.port d) id with
  | some a =>
    if a.ready.isNone && !a.held then
      settleSlips d (s.updPort d (fun x =>
        { x with accs := x.accs.map (fun a => if a.id = id then { a with ready := some s.now, err := err } else a) }))
    else s
  | none => s

/-! ## Replies (R350, R359 to R366) -/

/-- Send a reply's flit with its data, or ERR and none (R366). -/
def sendReply (d : Nat) (q : PReply) (rsv : Bool) (s : State) : State :=
  let x := s.port d
  let err := replyErr x q
  let f := { q.flit with err := err, data := if err then [] else q.flit.data, rsv := rsv }
  let s1 := s.updPort d (fun x => { x with replies := x.replies.erase q })
  settleSlips d (atX (memStation d) f (if err then portCount d 0x020 1 s1 else s1))

/-- The pattern index of a station's router in this mesh cycle. -/
def indexOf (s : State) (b : Nat) : Nat :=
  match partOf s b with
  | some p => (s.now - (s.part p).begun) % period s b
  | none => 0

/-- A schedule slip (R359, R365): the late marker, and the report to the Foreman over the control hierarchy. The marker's flit carries no
data; the model keeps in its place the pattern index of its slot, which the consumer knows from its schedule (R698). -/
def slip (d : Nat) (q : PReply) (s : State) : State :=
  let s1 := portCount d 0x018 1 (s.updPort d (fun x =>
    { x with replies := x.replies.map (fun p => if p = q then { p with late := true } else p) }))
  let s2 := atX (memStation d) { q.flit with late := true, data := leBytes (indexOf s (memStation d)) 2, err := false } s1
  let s3 := match memOwner s d with
    | none => s2
    | some p =>
      let g := (s.part p).prog ((s.part p).cur - 1)
      ringPut (rowStop (memStation d)) foremanStop (.slip d p g.job.jobid) (updJob p (fun j => { j with slips := j.slips + 1 }) s2)
  settleSlips d s3

/-- The X input of a station has its flit of this mesh cycle. -/
def xTaken (s : State) (b : Nat) : Bool :=
  s.flits.any (fun f => decide (f.station = b) && decide (f.input = 5) && decide (f.at_ = s.now))

/-- REPLY_SLOT: the first reply whose slot r + 1,024 has come. -/
def replySlot (d : Nat) (s : State) : State :=
  let x := s.port d
  match x.replies.find? (fun q => !q.late && decide (q.r + 1024 ≤ s.now)) with
  | none => s
  | some q => if xTaken s (memStation d) then s else if replyReady x q then sendReply d q false s else slip d q s

/-- The entry that a station's router uses in this mesh cycle, when its index advances: in a frame or its quiet period (R322,
R323). -/
def liveEntry (s : State) (b : Nat) : Option Nat :=
  match partOf s b with
  | none => none
  | some p => if (s.part p).frame = .idle then none else some (entry s b (indexOf s b))

/-- RESERVE_SLOT_DELIVERY: in a reserve slot toward bench XRB, of the late replies for that bench whose data is in the slip buffer, the
one with the earliest reply slot (R361). -/
def reserveSlot (d : Nat) (s : State) : State :=
  match liveEntry s (memStation d) with
  | none => s
  | some e =>
    if bit e 39 && !xTaken s (memStation d) then
      match (s.port d).replies.find? (fun q => q.late && q.slot && decide (q.bench = bits e 46 40)) with
      | some q => sendReply d q true s
      | none => s
    else s

/-! ## The reply at its consumer (R363, R438) -/

/-- Cores of a bench with a thread that waits for a fill. -/
def lineWaiters (s : State) (b serial : Nat) : List Nat :=
  ((List.range 4).map (fun i => 4 * b + i)).filter (fun c => (List.range 8).any (fun j =>
    decide (((s.core c).ctx j).wait.fillOf = some serial)))

/-- The SLIP record of a late marker (R698), of the core and context that the marker names, the first of the bench for a fill. -/
def traceSlip (b : Nat) (f : Flit) (s : State) : State :=
  let who := match f.use with
    | .porter c _ _ => (c, 0)
    | .uload c k => (c, k)
    | _ => (4 * b, 0)
  trace b who.1 who.2 4 0 (leBytes (f.addr / 2 ^ 36) 1 ++ [0] ++ f.data ++ leBytes (f.addr % 2 ^ 48 / 128 * 128) 8) s

/-- The late marker at its consumer (R363, R365). -/
def lateMarker (b : Nat) (f : Flit) (s : State) : State :=
  let s1 := traceSlip b f (count b 0x5010 1 s)
  match f.use with
  | .porter c _ _ => setPend c 5 s1
  | .uload c _ => setPend c 5 s1
  | .fill _ k => forAll (lineWaiters s1 b k) (fun c s => setPend c 5 s) s1
  | _ => s1

/-- The data of a fill has reached its bench. A reply with ERR that still carries data was damaged on a link (R317, R366). -/
def fillData (b serial : Nat) (data : List Byte) (err : Bool) (s : State) : State :=
  s.updBench b (fun x => { x with fills := x.fills.map (fun f =>
    if f.serial = serial ∧ f.sent ∧ f.data.isNone then
      { f with data := some (if err then [] else data), err := err, link := err && !data.isEmpty } else f) })

/-- The data of an uncached load has reached its bench: stage 4, or 5 with the memory's error, 6 with a link's. -/
def uloadData (c k : Nat) (data : List Byte) (err : Bool) (s : State) : State :=
  s.updBench (benchOf c) (fun x => { x with uitems := x.uitems.map (fun u =>
    if !u.write ∧ u.core = c ∧ u.ctx = k ∧ (u.stage = 1 ∨ u.stage = 2) then
      { u with stage := if err then (if data.isEmpty then 5 else 6) else 4, data := if err then [] else data } else u) })

/-- A read's data for a porter (R363): written at the destination and counted, or absorbed by a reset. -/
def porterReply (f : Flit) (c i o : Nat) (s : State) : State :=
  let x := s.slotOf c i
  if absorbsCore s c then settleDesc c i (absorb (benchOf c) (s.updSlotOf c i (fun x => { x with out := x.out - 1 })))
  else if f.err then descFault c i 1 (if f.data = [] then 0 else 1) (flitAddr f) true s
  else match portMap s (benchOf c) (x.dst + o) true with
    | some d => landed c i f.data.length (write d f.data s)
    | none => settleDesc c i (s.updSlotOf c i (fun x => { x with fault := 9, out := x.out - 1 }))

/-- MEMORY_REPLY_ARRIVAL. -/
def replyArrival (b : Nat) (s : State) : State :=
  match takeArrival (fun a => decide (a.station = b) && decide (a.port = 6) && decide (a.flit.kind = 4)) s with
  | none => s
  | some (a, s1) =>
    let f := a.flit
    if f.late then lateMarker b f s1
    else match f.use with
      | .porter c i o => porterReply f c i o s1
      | .fill _ k => if absorbsBench s1 b then absorb b s1 else fillData b k f.data f.err s1
      | .uload c k => if absorbsCore s1 c then absorb b s1 else uloadData c k f.data f.err s1
      | _ => s1

/-! ## The commands -/

/-- MEMORY_REQUEST (R351). -/
def execMemoryRequest (dev : Nat) (s : State) : Ans := .next (if dev < 16 then memoryRequest dev s else s)
/-- GDDR7_ACCESS_DONE (R353). -/
def execGddr7AccessDone (dev acc : Nat) (err : Bool) (s : State) : Ans := .next (if dev < 16 then accessDone dev acc err s else s)
/-- REPLY_SLOT (R350). -/
def execReplySlot (dev : Nat) (s : State) : Ans := .next (if dev < 16 then replySlot dev s else s)
/-- RESERVE_SLOT_DELIVERY (R361). -/
def execReserveSlotDelivery (dev : Nat) (s : State) : Ans := .next (if dev < 16 then reserveSlot dev s else s)
/-- MEMORY_REPLY_ARRIVAL (R363). -/
def execMemoryReplyArrival (bench : Nat) (s : State) : Ans := .next (if bench < 128 then replyArrival bench s else s)

end Sys2Proof.Machine
end

