-- ==== Sys2Proof/Machine/Mesh.lean ====
section
/-! DEFINITION. The mesh cycle: what the stations inject, what the routers send by their pattern, what the physical world does to
the die; the arrival of flits at benches (R313 to R335, R346 to R348, R376 to R379, R746, R748). -/

namespace Sys2Proof.Machine

/-! ## Injection at a bench (R324, R330, R395, R420, R510) -/

/-- The item of the bench's stockroom that a slot of stockroom connection `n` carries (R395). -/
def srItem (s : State) (b n : Nat) : Option Item :=
  pickItem (s.bench b) ((readyItems (s.bench b)).filter (fun i => decide (srConn s b i.line = some n)))

/-- The head of the open-class queue leaves in a slot of its own connection (R347); a dead flit leaves the slot empty (R468). The
LAST flit of a message counts it as left. -/
def oqFlit (b n : Nat) (s : State) : Option Flit × State :=
  match (s.bench b).oq with
  | [] => (none, s)
  | i :: rest =>
    let own := match i.conn with
      | some c => decide (c = n)
      | none => decide (servicePath s b i.dst = some n)
    if own && decide (i.due ≤ s.now) then
      let s1 := oqPromote b (s.updBench b (fun x => { x with oq := rest }))
      if i.dead then (none, s1)
      else
        let s2 := match i.msg with
          | .chan p => if p.last then s1.updChanOf p.core p.h (fun x => { x with left := x.left + 1 }) else s1
          | _ => s1
        (some { emptyFlit with kind := 5, srcb := b, conn := n, msg := some i.msg }, s2)
    else (none, s)

/-- The flit that bench `b` puts in a slot of connection `n`: none on an assay-class connection while BENCH_ASY_CTRL.EN is 0 (R333). -/
def connFlit (b n : Nat) (s : State) : Option Flit × State :=
  let w := connWord s b n
  if connValid w = false ∨ (bit w 17 ∧ ((s.bench b).r 0x4400).toNat % 2 = 0) then (none, s)
  else if connType w = 0 then
    match srItem s b n with
    | some i => (some (itemFlit b n i), retryStores b (markSent b 1 i s))
    | none => porterFlit b n s
  else if connType w = 3 then (none, s)
  else oqFlit b n s

/-- Put a flit, if there is one, at the B input of a station. -/
def putB (b : Nat) (f : Option Flit) (s : State) : State :=
  match f with
  | some f => { s with flits := s.flits ++ [{ station := b, input := 6, at_ := s.now, flit := f }] }
  | none => s

/-- Put what a slot of connection `n` carries at the B input of a station. -/
def putConn (b n : Nat) (s : State) : State :=
  let (f, s1) := connFlit b n s
  putB b f s1

/-- Injection at the B input of a station: in a frame, and for the open-class queues that a reset waits for. -/
def injectB (b : Nat) (s : State) : State :=
  match injects s b with
  | some n => putConn b n s
  | none => match drainSlot s b with
    | some n => if connType (connWord s b n) = 0 then s else putConn b n s
    | none => s

/-! ## Injection at a welt station (R368) -/

/-- The station and port that take a data write to a module address. -/
def endpoint (a : Nat) : Option (Nat × Nat) :=
  match homeBench a with
  | some b => some (b, 6)
  | none => if a < 0x010000000000 then some (memStation (a / 2 ^ 36), 5) else none

/-- The module address of the next byte of an accepted packet, while the stream's program is in the benches of its partition: a
packet's destination is an address in that partition's view (R508). -/
def rxNext (s : State) (p : RxPkt) : Option Nat :=
  let st := s.stream p.stream
  let q := s.part st.part
  if p.sent < p.data.length ∧ (st.prog = 0 ∨ q.cur = st.prog) then portMap s (leadOf q) (p.daddr + p.sent) true else none

/-- The next flit of an accepted packet, to module address `a`: up to the end of its line pair. -/
def rxFlit (w a : Nat) (p : RxPkt) : Flit :=
  let k := min (128 - a % 128) (p.data.length - p.sent)
  { emptyFlit with
    kind := if (homeBench a).isSome then 0 else 2, srcb := weltStation w
    lmask := if k = 128 then 3 else if a % 128 = 0 then 1 else 2, addr := a
    data := (p.data.drop p.sent).take k, use := .welt p.stream p.psn (decide (p.sent + k = p.data.length)) }

/-- The packet has bytes for the place that a slot's path leads to. -/
def rxFor (s : State) (place : Nat × Nat) (p : RxPkt) : Bool :=
  match rxNext s p with
  | some a => decide (endpoint a = some place)
  | none => false

/-- In a frame, a welt station puts the next lines of the first accepted packet for the place that the slot's path leads to. -/
def injectWelt (w : Nat) (s : State) : State :=
  let b := weltStation w
  if inFrame s b = false ∨ (s.welt w).rx = [] then s
  else match slotEnd s b 5 (indexOf s b) with
    | none => s
    | some place =>
      match (s.welt w).rx.find? (rxFor s place) with
      | none => s
      | some p =>
        let f := rxFlit w ((rxNext s p).getD 0) p
        atX b f (s.updWelt w (fun y => { y with rx := y.rx.map (fun q =>
          if q.stream = p.stream ∧ q.psn = p.psn then { q with sent := q.sent + f.data.length } else q) }))

/-! ## What the world does (R317, R437) -/

/-- A link error at a router input: corrected and counted, or ERR set in the flit and counted. -/
def linkError (e : LinkErr) (s : State) : State :=
  if 128 ≤ e.station ∨ 6 < e.input ∨ e.input = 0 ∨ (liveEntry s e.station).isNone then s
  else if e.double = false then count e.station 0x5018 1 s
  else count e.station 0x5020 1 { s with flits := s.flits.map (fun f =>
    if f.station = e.station ∧ f.input = e.input ∧ f.at_ = s.now then { f with flit := { f.flit with err := true } } else f) }

/-- A word with an error gets another. -/
def worse (double : Bool) (k : Nat) : Nat := max k (if double then 2 else 1)

/-- An upset of a word of the stockroom's ways: the line it holds. -/
def upsetLine (b o : Nat) (double : Bool) (s : State) : State :=
  let way := 7 - o / 0x40000
  let set := o % 0x40000 / 64
  s.updBench b (fun x => { x with lines := x.lines.map (fun l =>
    if l.way = way ∧ l.set = set then { l with bad := tblUpd nats l.bad (o % 64 / 8) (worse double) } else l) })

/-- An upset of word `w` of place `i` of the merging buffer of bench `b`. -/
def upsetEntry (b i w : Nat) (double : Bool) (s : State) : State :=
  s.updBench b (fun x => { x with mb := x.mb.modify i (fun e => { e with bad := tblUpd nats e.bad w (worse double) }) })

/-- An upset of a word of a local memory, of a bench memory, of a stockroom way, or of a merging buffer (R437). -/
def upset (u : Upset) (s : State) : State :=
  match u with
  | .entry b i w double => upsetEntry b i (w % 8) double s
  | .word a double =>
    let put := { s with bad := tblUpd nats s.bad (a / 8) (worse double) }
    match winOfAddr a with
    | some b =>
      let o := a - winBase b
      if o < waysOf s b * 0x40000 then put else upsetLine b o double s
    | none => if (coreOfAddr a).isSome then put else s

/-! ## The routers (R315, R326, R327) -/

/-- What an output sends: to the neighbour's input two mesh cycles later, or to the agent at the station's fifth port or bench. -/
def sendOut (b o : Nat) (f : Flit) (s : State) : State :=
  let s1 := act b 0x6840 1 s
  if o = 5 ∨ o = 6 then { s1 with arrivals := s1.arrivals ++ [{ station := b, port := o, due := s.now + 2, flit := f }] }
  else match neighbour b o with
    | none => s1
    | some d => { s1 with flits := s1.flits ++ [{ station := d, input := oppositeIn o, at_ := s.now + 2, flit := f }] }

/-- A flit at the crossbar: sent on the outputs that select its input, or discarded and counted. -/
def route (f : InFlight) (s : State) : State :=
  let outs := match liveEntry s f.station with
    | none => []
    | some e => outputsOf e f.input
  match outs with
  | [] => count f.station 0x5028 1 s
  | l => forAll l (fun o s => sendOut f.station o f.flit s) s

/-- Every router sends what is at its inputs in this mesh cycle. -/
def routeAll (s : State) : State :=
  forAll (s.flits.filter (fun f => decide (f.at_ ≤ s.now))) route { s with flits := s.flits.filter (fun f => decide (s.now < f.at_)) }

/-- The benches of the partitions that exist. -/
def liveBenches (s : State) : List Nat := (List.range 8).flatMap (fun p => if (s.part p).live then benchesOf s p else [])

/-- A bench hands its oldest trace record to the local queue of its row stop when none of its own waits there (R700). -/
def handTrace (b : Nat) (s : State) : State :=
  let waits := fun (k : RingPkt) => !k.thru && decide (k.pos = rowStop b) && match k.msg with
    | .trace d _ => decide (d = b)
    | _ => false
  match (s.bench b).trace with
  | [] => s
  | r :: rest =>
    if s.ring.any waits then s
    else ringPut (rowStop b) traceStop (.trace b r) (s.updBench b (fun x => { x with trace := rest }))

/-- The bench controllers' part, every control cycle: one ring-bound item each, stores that waited, a trace record; and the discarded
frames whose threads have stopped end (R739). -/
def controlCycle (s : State) : State :=
  if s.now % 4 = 0 then
    forAll (List.range 8) finishDiscard (forAll (s.benches.map (·.1)) handTrace
      (forAll (liveBenches s) (fun b s => retryStores b (forwardRing b s)) s))
  else s

/-- Time advances by a mesh cycle. With a core cycle begin the fetches of the running MMAs (R136), and the beats of the I/O ring
move (R376). -/
def meshTick (s : State) : State :=
  let s1 := { s with now := s.now + 1 }
  if s1.now % 2 = 0 then ringCycle (forAll (s1.cores.map (·.1)) (fun c s => s.updCore c (fetchCycle (coreNow s))) s1) else s1

/-- MESH_CYCLE: Wetar is powered and its clocks run (R612). -/
def meshCycle (env : MeshEnv) (s : State) : State :=
  if s.board.wetarOn = false ∨ s.pwr.wstate ≠ 0 then s
  else
    let s1 := forAll env.upsets upset s
    let s2 := forAll (List.range 16) (fun d s => reserveSlot d (replySlot d s)) s1
    let s3 := forAll (liveBenches s) injectB s2
    let s4 := forAll (List.range 8) injectWelt s3
    meshTick (controlCycle (routeAll (forAll env.links linkError s4)))

/-! ## Flits at a bench (R334, R458, R474, R748) -/

/-- The core that a data write's error is told to: the one whose memory it is, the first of the bench for its bench memory. -/
def dataCore (a : Nat) : Nat := (coreOfAddr a).getD (4 * (homeBench a).getD 0)

/-- A damaged data write (R438): nothing is written or counted, and CONT is set at the destination. -/
def dataErr (f : Flit) (s : State) : State :=
  let c := dataCore (flitAddr f)
  let s1 := setPend c 6 (recordCont c 1 (flitAddr f) none s)
  match f.use with
  | .porter p i _ =>
    settleDesc p i (s1.updSlotOf p i (fun x => { x with fault := if x.fault = 0 then 1 else x.fault, out := x.out - 1 }))
  | .welt id psn _ => forAll (List.range 8) (fun w s => s.updWelt w (fun y =>
      { y with rx := y.rx.filter (fun p => !(decide (p.stream = id) && decide (p.psn = psn)))
               rxUsed := y.rxUsed - ((y.rx.filter (fun p => decide (p.stream = id) && decide (p.psn = psn))).map (·.data.length)).sum })) s1
  | _ => s1

/-- An accepted packet is forgotten, so that its retransmission is new. -/
def forgetPacket (id psn : Nat) (s : State) : State :=
  let mine := fun (p : RxPkt) => decide (p.stream = id) && decide (p.psn = psn)
  forAll (List.range 8) (fun w s => s.updWelt w (fun y =>
    { y with rx := y.rx.filter (fun p => !mine p), rxUsed := y.rxUsed - ((y.rx.filter mine).map (·.data.length)).sum }))
    (s.updStream id (fun t => { t with got := t.got.filter (fun p => decide (p ≠ psn)) }))

/-- A data write that a reset absorbs (R686): nothing is written, and its sender waits for it no longer. -/
def absorbData (f : Flit) (s : State) : State :=
  let s1 := absorb ((homeBench (flitAddr f)).getD 0) s
  match f.use with
  | .porter c i _ => settleDesc c i (s1.updSlotOf c i (fun x => { x with out := x.out - 1 }))
  | .welt id psn _ => forgetPacket id psn s1
  | _ => s1

/-- A data write to a memory of the bench. -/
def dataFlit (f : Flit) (s : State) : State :=
  if absorbsAddr s (flitAddr f) then absorbData f s
  else if f.err then dataErr f s
  else
    let s1 := write (flitAddr f) f.data s
    match f.use with
    | .porter c i _ => landed c i f.data.length s1
    | .welt id psn _ => weltWrote id psn f.data.length s1
    | _ => s1

/-- The core that a message is for. -/
def msgCore : OpenMsg → Nat
  | .chan p => p.dst
  | .tally op => 4 * (op.tally / 512)
  | .result c _ _ _ _ _ _ => c
  | .wake c _ _ _ _ _ => c
  | .credit c _ _ _ => c

/-- SUB of an open-class flit: results go as tally operations and credits as channel messages (DEDUCED, log entry 158). -/
def subOf : OpenMsg → Nat
  | .chan _ => 0
  | .tally _ => 1
  | .result _ _ _ _ _ _ _ => 1
  | .wake _ _ _ _ _ _ => 2
  | .credit _ _ _ _ => 0

/-- FIRST, LAST and LEN of an open-class flit (R455); the length of what is no channel message is free. -/
def openMarks : OpenMsg → Nat
  | .chan p => b2n p.first + b2n p.last * 2 + (p.payload.length + 7) / 8 * 4
  | m => 3 + (Config.openUnits (subOf m)) % 32 * 4

/-- The tag of a flit that carries something (R318). -/
def tagOf (f : Flit) : Dword :=
  BitVec.ofNat 64 (1 + f.kind * 2 + b2n f.late * 2 ^ 4 + b2n f.err * 2 ^ 5 + f.lmask * 2 ^ 6 + f.srcb * 2 ^ 8 + f.conn * 2 ^ 15 +
    b2n f.rsv * 2 ^ 21 + (match f.msg with
      | some m => subOf m * 2 ^ 22 + openMarks m * 2 ^ 24 + msgCore m * 2 ^ 31
      | none => f.addr / 128 % 2 ^ 41 * 2 ^ 22))

/-- An open-class flit at its destination bench. -/
def openFlit (b : Nat) (m : OpenMsg) (err : Bool) (s : State) : State :=
  match m with
  | .chan p => chanFlit p err s
  | .tally op => if err then s else toSlice b (coreNow s + 2) 0 op s
  | m => if err then s else toInbox b (coreNow s) m s

def isCreditMsg : OpenMsg → Bool
  | .credit _ _ _ _ => true
  | _ => false

/-- A flit that another command takes: a read reply, or a credit. -/
def otherFlit (f : Flit) : Bool :=
  decide (f.kind = 4) || (decide (f.kind = 5) && match f.msg with
    | some m => isCreditMsg m
    | none => false)

/-- A flit of the bench's own memory or cores. -/
def takeFlit (b : Nat) (f : Flit) (s : State) : State :=
  if f.kind = 0 then (if homeBench (flitAddr f) = some b then dataFlit f s else count b 0x5028 1 s)
  else if f.kind = 5 then
    match f.msg with
    | some m => if benchOf (msgCore m) = b then openFlit b m f.err s else count b 0x5028 1 s
    | none => count b 0x5028 1 s
  else count b 0x5028 1 s

/-- FLIT_ARRIVAL at a bench: the next data write or message from the mesh, or a channel message from within the bench. -/
def flitArrival (b : Nat) (s : State) : State :=
  match takeArrival (fun a => decide (a.station = b) && decide (a.port = 6) && !otherFlit a.flit) s with
  | some (a, s1) => takeFlit b a.flit s1
  | none =>
    let isChan := fun (m : OpenMsg) => match m with
      | .chan _ => true
      | _ => false
    match inboxFind s b isChan with
    | some i => openFlit b i.msg false (inboxDrop b i s)
    | none => s

/-- CREDIT_ARRIVAL (R459). -/
def creditArrival (b : Nat) (s : State) : State :=
  match takeArrival (fun a => decide (a.station = b) && decide (a.port = 6) && decide (a.flit.kind = 5) && otherFlit a.flit) s with
  | some (a, s1) =>
    match a.flit.msg with
    | some (.credit c h rx head) => if benchOf c = b then creditIn c h rx head a.flit.err s1 else count b 0x5028 1 s1
    | _ => s1
  | none => (creditInside b s).getD s

/-! ## The commands -/

/-- MESH_CYCLE (R326). -/
def execMeshCycle (env : MeshEnv) (s : State) : Ans := .next (meshCycle env s)
/-- FLIT_ARRIVAL (R334). -/
def execFlitArrival (bench : Nat) (s : State) : Ans := .next (if bench < 128 then flitArrival bench s else s)
/-- CREDIT_ARRIVAL (R459). -/
def execCreditArrival (bench : Nat) (s : State) : Ans := .next (if bench < 128 then creditArrival bench s else s)
end Sys2Proof.Machine
end

