-- ==== Sys2Proof/Machine/Links.lean ====
section
/-! DEFINITION. The welt stations: sending and receiving frames of the remote-write streams, acknowledgements, timers, links going
down and up; and the receiving side of the management sessions (R493 to R537). -/

namespace Sys2Proof.Machine

/-! ## Sending (R509 to R512, R519 to R525) -/

/-- The DATA header of a held packet on plane w. -/
def dataHeader (s : State) (w : Nat) (p : TxPkt) (retx : Bool) : List Byte :=
  let st := s.stream p.stream
  header 0 p.lastp retx w p.len (moduleNo s) p.stream st.peer st.pstr p.psn p.daddr

/-- Change a held packet. -/
def updTx (w id psn : Nat) (f : TxPkt → TxPkt) (s : State) : State :=
  s.updWelt w (fun y => { y with tx := y.tx.map (fun p => if p.stream = id ∧ p.psn = psn then f p else p) })

/-- A packet that is not sent after all leaves the transmit buffer. -/
def dropTx (w id psn : Nat) (s : State) : State :=
  (touch s).updWelt w (fun y => { y with tx := y.tx.filter (fun p => !(decide (p.stream = id) && decide (p.psn = psn))) })

def heldTx (s : State) (w id psn : Nat) : Option TxPkt :=
  (s.welt w).tx.find? (fun p => decide (p.stream = id) && decide (p.psn = psn))

/-- Transmit a held packet on its plane; its timer starts. LINK_CNT_TXPKT or LINK_CNT_RETX counts what leaves the port. -/
def sendPacket (w : Nat) (p : TxPkt) (retx : Bool) (s : State) : State :=
  let s1 := updTx w p.stream p.psn (fun q => { q with full := true, sentAt := some s.tb, rto := s.boot.rto, limit := s.boot.retryMax }) s
  let s2 := transmit w (dataHeader s w p retx) p.data s1
  if portUp s w then weltCount w (if retx then 0x010 else 0x008) 1 s2 else s2

/-- A flit reaches a welt station: one of a stream's packets, a damaged one of which ends its descriptor (R438), or a flit it does not
take (R746). Whether a packet was framed. -/
def stationFlit (w : Nat) (f : Flit) (s : State) : Bool × State :=
  match f.use with
  | .welt id psn last =>
    match heldTx s w id psn with
    | none => (false, count (weltStation w) 0x5028 1 s)
    | some p =>
      if f.err then (false, descFault p.core p.slot 1 1 (flitAddr f) true (dropTx w id psn s))
      else if last then (true, sendPacket w p false s)
      else (false, s)
  | _ => (false, count (weltStation w) 0x5028 1 s)

/-- Take the flits that have reached a station, until one completes a packet. -/
def takeFlits (w : Nat) : Nat → State → State
  | 0, s => s
  | n + 1, s =>
    match takeArrival (fun a => decide (a.station = weltStation w) && decide (a.port = 5)) s with
    | none => s
    | some (a, s1) => match stationFlit w a.flit s1 with
      | (true, s2) => s2
      | (false, s2) => takeFlits w n s2

/-- WELT_PACKET_SEND. -/
def packetSend (w : Nat) (s : State) : State := takeFlits w s.arrivals.length s

/-- The porter slots whose descriptor posts to a stream and is not in a final state. -/
def openDescs (s : State) (id : Nat) : List (Nat × Nat) :=
  (onStream s (s.stream id).sbench id).filter (fun q => let x := s.slotOf q.1 q.2; decide (1 ≤ x.state) && decide (x.state ≤ 3))

/-- A stream fails (R522): its held packets are dropped, its descriptors end in FAULT, CONT is set at the posting cores. -/
def failStream (id why : Nat) (s : State) : State :=
  let st := s.stream id
  let s1 := forAll (openDescs s id) (fun q s =>
    jobOfCore q.1 (fun j => { j with conts := j.conts + 1 })
      (setPend q.1 6 (s.updSlotOf q.1 q.2 (fun x => { x with state := 7, why := why, out := 0 })))) s
  let s2 := forAll (List.range 8) (fun w s => s.updWelt w (fun y => { y with tx := y.tx.filter (fun p => decide (p.stream ≠ id)) })) (touch s1)
  logEvent 14 st.part 2 (leBytes id 2 ++ leBytes why 1) (s2.updStream id (fun t => { t with state := 4, fwhy := why }))

/-- PSNs from `b` on, modulo 2^32. -/
def psnFrom (b n : Nat) : Nat := (n + 2 ^ 32 - b % 2 ^ 32) % 2 ^ 32

/-- An ACK with ACKBASE `base` and a bitmap covers a PSN (R501). -/
def covers (base : Nat) (map : List Byte) (psn : Nat) : Bool :=
  let d := psnFrom base psn
  decide (2 ^ 31 ≤ d) || (decide (1 ≤ d) && (map.getD ((d - 1) / 8) 0).getLsbD ((d - 1) % 8))

/-- The lowest PSN of a send stream not yet acknowledged: that of a packet still held, or the next to assign. -/
def ackedNow (s : State) (id : Nat) : Nat :=
  let st := s.stream id
  let l := ((List.range 8).flatMap (fun w => (s.welt w).tx)).filter (fun p => decide (p.stream = id))
  (st.acked + l.foldl (fun m p => min m (psnFrom st.acked p.psn)) (psnFrom st.acked st.next)) % 2 ^ 32

/-- An ACK for a send entry: the packets it covers are released, and their bytes counted for their descriptors (R512, R523). -/
def applyAck (id base : Nat) (map : List Byte) (s : State) : State :=
  let sel := fun (p : TxPkt) => decide (p.stream = id) && p.full && covers base map p.psn
  let done := (List.range 8).flatMap (fun w => (s.welt w).tx.filter sel)
  let s1 := forAll (List.range 8) (fun w s => s.updWelt w (fun y => { y with tx := y.tx.filter (fun p => !sel p) })) (if done = [] then s else touch s)
  let s2 := forAll done (fun p s =>
    landed p.core p.slot p.len (s.updStream id (fun t => { t with bytes := t.bytes + p.len }))) s1
  s2.updStream id (fun t => { t with acked := ackedNow s2 id })

/-- A NAK for a send entry (R521). -/
def applyNak (id psn reason : Nat) (s : State) : State :=
  if reason = 1 ∨ reason = 2 then failStream id 3 s
  else if reason = 3 then failStream id 5 s
  else if reason = 4 then forAll (List.range 8) (fun w s => updTx w id psn (fun p => { p with parked := true }) s) s
  else s

/-! ## Acknowledging (R501, R517) -/

/-- The bitmap of an ACK: the PSNs of a list above ACKBASE. -/
def ackMap (base : Nat) (l : List Nat) : List Byte :=
  leBytes (l.foldl (fun n p => let d := psnFrom base p; if 1 ≤ d ∧ d < 4096 then n ||| 2 ^ (d - 1) else n) 0) 512

/-- Send the ACK of a receive stream on plane w. -/
def sendAck (id w : Nat) (s : State) : State :=
  let st := s.stream id
  transmit w (header 1 false false w 512 (moduleNo s) id st.peer st.pstr st.next 0) (ackMap st.next st.done)
    (s.updStream id (fun t => { t with unacked := 0 }))

/-- Send a NAK for a refused packet. -/
def sendNak (w id mod str psn reason : Nat) (s : State) : State :=
  weltCount w 0x038 1 (transmit w (header 2 false false w 0 (moduleNo s) id mod str psn reason) [] s)

/-- Send the ACK of a management session on plane w. -/
def sessionAck (peer w : Nat) (s : State) : State :=
  let x := sessionOf s peer
  transmit w (header 1 false false w 512 (moduleNo s) 0 peer 0 x.ackbase 0) (ackMap x.ackbase x.got)
    (updSession peer (fun x => { x with unacked := 0 }) s)

/-! ## Receiving (R513 to R516) -/

/-- A field of a received header. -/
def hdrField (f : Frame) (o n : Nat) : Nat := leNat ((f.header.drop o).take n)

/-- The entry's program runs in its partition: its state is in the benches and its job goes on; an end without a program goes with
whatever job runs. -/
def streamRuns (s : State) (st : Stream) : Bool :=
  let q := s.part st.part
  q.live && decide (q.cur ≠ 0) && decide (st.prog = 0 ∨ q.cur = st.prog) && activeJob (q.prog (q.cur - 1))

/-- The destination of a packet lies in a core or bench that is being reset: it is discarded unacknowledged (R686). -/
def weltAbsorbed (s : State) (st : Stream) (a : Nat) : Bool :=
  match portMap s (leadOf (s.part st.part)) a true with
  | some m => absorbsAddr s m
  | none => false

/-- A DATA frame: checks 5 to 12 of R513. -/
def rxData (w : Nat) (f : Frame) (s : State) : State :=
  let mod := hdrField f 4 4 % 2 ^ 14
  let str := hdrField f 4 4 / 2 ^ 14 % 2 ^ 14
  let id := hdrField f 8 4 / 2 ^ 14 % 2 ^ 14
  let psn := hdrField f 0xC 4
  let daddr := hdrField f 0x10 6
  let st := s.stream id
  let len := f.payload.length
  let nak := fun (r : Nat) => sendNak w id mod str psn r s
  let d := psnFrom st.next psn
  if st.state ≠ 2 ∨ st.peer ≠ mod ∨ st.pstr ≠ str then nak 1
  else if (s.part st.part).resetting then nak 3
  else if 2 ^ 31 ≤ d ∨ st.got.contains psn then sendAck id w (weltCount w 0x020 1 (s.updStream id (fun t => { t with retx := t.retx + 1 })))
  else if 4096 ≤ d then weltCount w 0x028 1 s
  else if daddr < st.wbase ∨ st.wbase + st.wlen < daddr + len then nak 2
  else if weltAbsorbed s st daddr then (match portMap s (leadOf (s.part st.part)) daddr true with
    | some a => absorb ((homeBench a).getD 0) s
    | none => s)
  else if streamRuns s st = false then nak 4
  else if 2 ^ 23 < (s.welt w).rxUsed + len then weltCount w 0x030 1 s
  else
    weltCount w 0x018 1 ((s.updStream id (fun t => { t with got := psn :: t.got })).updWelt w (fun y =>
      { y with
        rx := y.rx ++ [{ stream := id, psn := psn, daddr := daddr, data := f.payload, sent := 0, wrote := 0 }]
        rxUsed := y.rxUsed + len }))

/-- The management session with a peer is open. -/
def hasSession (s : State) (peer : Nat) : Bool := s.fmn.sessions.any (fun x => decide (x.peer = peer))

/-- An ACK for a session: the messages it covers are released, and waiting ones sent. A module that has left its manager forgets it
when its LEAVE is acknowledged. -/
def applySessionAck (peer base : Nat) (map : List Byte) (s : State) : State :=
  let gone := (sessionOf s peer).held.filter (fun m => covers base map m.psn)
  let s1 := updSession peer (fun x => { x with held := x.held.filter (fun m => !covers base map m.psn) }) s
  if gone.any (fun m => decide (m.msg.mtype = 6)) then
    { s1 with fmn := { s1.fmn with manager := none, sessions := s1.fmn.sessions.filter (fun x => decide (x.peer ≠ peer)) } }
  else pumpSession peer 16 s1

/-- An ACK or NAK frame (check 4). A frame between stream ids 0 that is no answer to a send stream 0 is a session's. -/
def rxAnswer (ack : Bool) (f : Frame) (s : State) : State :=
  let mod := hdrField f 4 4 % 2 ^ 14
  let str := hdrField f 4 4 / 2 ^ 14 % 2 ^ 14
  let id := hdrField f 8 4 / 2 ^ 14 % 2 ^ 14
  let psn := hdrField f 0xC 4
  let st := s.stream id
  if id = 0 ∧ str = 0 ∧ hasSession s mod ∧ ¬ (st.state = 1 ∧ st.peer = mod ∧ st.pstr = 0) then
    if ack then applySessionAck mod psn f.payload s else s
  else if st.state ≠ 1 then s
  else if ack then applyAck id psn f.payload s
  else applyNak id psn (hdrField f 0x10 1) s

def mgmtBad (w : Nat) (s : State) : State := weltCount w 0x060 1 s

/-- A MGMT frame handed to the Foreman (R530 to R532): its source and TAG are checked, then its PSN in the session's window of 16. -/
def rxMgmt (w : Nat) (f : Frame) (s : State) : State :=
  let src := hdrField f 4 4 % 2 ^ 14
  let psn := hdrField f 0xC 4
  let p := f.payload
  let g := fun (o n : Nat) => leNat ((p.drop o).take n)
  let n := g 6 2
  let m : MgmtMsg :=
  { port := w, src := src, psn := psn, mtype := g 0 1, more := decide (g 1 1 % 2 = 1), seq := g 2 2, code := g 4 2,
    body := (p.drop 8).take n }
  match keyFor s src with
  | none => mgmtBad w s
  | some key =>
    if p.length ≠ n + 24 ∨ p.drop (8 + n) ≠ mgmtTag key (p.take (8 + n)) f.header psn then mgmtBad w s
    else if m.mtype = 0 ∨ 6 < m.mtype ∨ (m.more ∧ m.mtype ≠ 4 ∧ m.mtype ≠ 5) then mgmtBad w s
    else
      let x := sessionOf s src
      let d := psnFrom x.ackbase psn
      if 2 ^ 31 ≤ d ∨ x.got.contains psn then sessionAck src w s
      else if 16 ≤ d then s
      else
        let s1 := updSession src (fun x => { x with got := psn :: x.got }) s
        { s1 with fmn := { s1.fmn with mgmtIn := s1.fmn.mgmtIn ++ [m] } }

/-- Bytes of a frame from destination address to FCS (R493, R498). -/
def frameBytes (f : Frame) : Nat := 14 + (if f.tag.isSome then 4 else 0) + f.header.length + f.payload.length + 4 + 4

/-- WELT_FRAME_RECEIVE: FEC first; a frame with an uncorrectable codeword is lost. The MAC takes no frame over 4,154 bytes (R493), and no
counter tells of one (DESIGN CHOICE, log entry 157). Then the checks of R513 in order. -/
def frameReceive (w : Nat) (f : Frame) (s : State) : State :=
  if portUp s w = false then s
  else if f.fec = 2 then weltCount w 0x058 1 s
  else
    let s := if f.fec = 1 then weltCount w 0x050 1 s else s
    let v := hdrField f 0 1
    let ty := v / 16
    if 4154 < frameBytes f then s
    else if f.etype ≠ s.boot.etype ∨ f.header.length ≠ 32 ∨ v % 16 ≠ 1 ∨ 3 < ty ∨ f.icrc ≠ icrcOf (f.header ++ f.payload) ∨
        hdrField f 2 2 ≠ f.payload.length ∨ 4096 < f.payload.length then weltCount w 0x040 1 s
    else if hdrField f 8 4 % 2 ^ 14 ≠ moduleNo s then weltCount w 0x040 1 s
    else if ty = 3 then rxMgmt w f (weltCount w 0x048 1 s)
    else if ty = 0 then rxData w f (wake s)
    else rxAnswer (decide (ty = 1)) f s

/-- The lowest PSN not counted, and the counted ones above it. -/
def advanceBase : Nat → Nat → List Nat → Nat × List Nat
  | 0, b, l => (b, l)
  | n + 1, b, l => if l.contains b then advanceBase n ((b + 1) % 2 ^ 32) (l.filter (fun p => decide (p ≠ b))) else (b, l)

/-- PACKET_COUNTED: every line of an accepted packet is written; its bytes go to the arrival tally, and ACKBASE advances (R516). -/
def packetCounted (id psn : Nat) (s : State) : State :=
  let mine := fun (p : RxPkt) => decide (p.stream = id) && decide (p.psn = psn) && decide (p.wrote = p.data.length)
  let st := s.stream id
  match (List.range 8).find? (fun w => (s.welt w).rx.any mine) with
  | none => s
  | some w =>
    if st.state ≠ 2 ∨ (st.prog ≠ 0 ∧ (s.part st.part).cur ≠ st.prog) then s
    else
      let len := (((s.welt w).rx.find? mine).map (·.data.length)).getD 0
      let (base, done) := advanceBase 4096 st.next (psn :: st.done)
      let s1 := s.updWelt w (fun y => { y with rx := y.rx.filter (fun p => !mine p), rxUsed := y.rxUsed - len })
      let s2 := s1.updStream id (fun t =>
        { t with
          next := base, done := done, got := t.got.filter (fun p => decide (psnFrom base p < 2 ^ 31)), bytes := t.bytes + len, lastPlane := w
          firstAt := if t.unacked = 0 then s.tb else t.firstAt, unacked := t.unacked + 1 })
      let s3 := toSlice (st.tally / 512) (coreNow s) 5 (engineAdd st.tally len (4 * (st.tally / 512)) 3 2 5) s2
      if 16 ≤ st.unacked + 1 then sendAck id w s3 else s3

/-- RX_BUFFER_UNCORRECTABLE (R515): a packet of which nothing has been injected yet is forgotten, so that nothing of it is
written and its retransmission is new. -/
def rxUncorrectable (id psn : Nat) (s : State) : State :=
  let mine := fun (p : RxPkt) => decide (p.stream = id) && decide (p.psn = psn) && decide (p.sent = 0)
  match (List.range 8).find? (fun w => (s.welt w).rx.any mine) with
  | none => s
  | some w =>
    let len := (((s.welt w).rx.find? mine).map (·.data.length)).getD 0
    (s.updWelt w (fun y => { y with rx := y.rx.filter (fun p => !mine p), rxUsed := y.rxUsed - len })).updStream id (fun t =>
      { t with got := t.got.filter (fun p => decide (p ≠ psn)) })

/-! ## Timers -/

/-- ACK_TIMER: 2 µs after the first packet counted since the last ACK (R517); from 16,384 on, the session with a module. -/
def ackTimer (id : Nat) (s : State) : State :=
  if id < 16384 then
    let st := s.stream id
    if st.state = 2 ∧ 0 < st.unacked ∧ st.firstAt + 2000 ≤ s.tb then sendAck id st.lastPlane s else s
  else
    let x := sessionOf s (id - 16384)
    if 0 < x.unacked ∧ x.firstAt + 2000 ≤ s.tb then sessionAck (id - 16384) x.lastPlane s else s

/-- The timer of a held packet has expired: RTO has passed, and an ACK of its last instant has been applied first (R519, R520). The
packet is retransmitted, or at the retry limit the stream fails (R522). An attempt that PARKED answered is not counted. -/
def packetTimeout (w : Nat) (p : TxPkt) (s : State) : State :=
  match p.sentAt with
  | none => s
  | some t =>
    if s.tb ≤ t + p.rto * 1000 then s
    else if p.parked = false ∧ p.limit ≤ p.retries then failStream p.stream 4 s
    else
      let s1 := updTx w p.stream p.psn (fun q => { q with retries := if q.parked then q.retries else q.retries + 1, parked := false }) s
      (sendPacket w p true s1).updStream p.stream (fun t => { t with retx := t.retx + 1 })

/-- The timer of a management message expires (R529): it goes on the next plane whose port is up. -/
def messageTimeout (peer psn : Nat) (s : State) : State :=
  match (sessionOf s peer).held.find? (fun m => decide (m.psn = psn)) with
  | none => s
  | some m =>
    if s.tb ≤ m.sentAt + m.rto * 1000 then s
    else
      let w := (upPlane s (m.plane + 1)).getD m.plane
      sendMgmt peer psn w true m.msg (updSession peer (fun x => { x with held := x.held.map (fun q =>
        if q.psn = psn then { q with sentAt := s.tb, rto := s.boot.rto, plane := w, retries := q.retries + 1 } else q) }) s)

/-- RETRANSMISSION_TIMEOUT; from 16,384 on, the session with a module. -/
def retransmission (id psn : Nat) (s : State) : State :=
  if id < 16384 then
    match (List.range 8).find? (fun w => (heldTx s w id psn).isSome) with
    | none => s
    | some w => match heldTx s w id psn with
      | some p => packetTimeout w p s
      | none => s
  else messageTimeout (id - 16384) psn s

/-! ## Links (R496, R525, R659, R660) -/

/-- The partition that owns a welt port, 0xFF for none. -/
def weltOwner (s : State) (w : Nat) : Nat := (findBelow 8 (fun p => ownsWelt (s.part p) w)).getD 0xFF

/-- PORT_DOWN. -/
def portDown (w : Nat) (s : State) : State :=
  if portUp s w then
    logEvent 8 (weltOwner s w) 1 [1, BitVec.ofNat 8 w] (s.updWelt w (fun y => y.setR 0 (BitVec.ofNat 64 ((y.r 0).toNat / 2 * 2))))
  else s

/-- The causes of degraded Ready: a port of either kind mapped out; the others stay as start-up found them (R660). -/
def recheck (s : State) : State :=
  let deg := b2n (decide (s.boot.memOut ≠ 0)) + 2 * b2n (decide (s.boot.weltOut ≠ 0)) + s.boot.deg / 4 * 4
  { s with boot := { s.boot with deg := deg, state := if s.boot.state = 1 ∨ s.boot.state = 2 then (if deg = 0 then 1 else 2) else s.boot.state } }

/-- PORT_UP: the port has trained and passed its check. A port that the repair map names stays out. -/
def portTrained (w : Nat) (s : State) : State :=
  if s.board.wetarOn && decide (s.boot.step = 11) && !portUp s w && !bit (leNat (((s.recd 2).body.drop 0x92).take 1)) w then
    let s1 := s.updWelt w (fun y => y.setR 0 (BitVec.ofNat 64 ((y.r 0).toNat / 2 * 2 + 1)))
    logEvent 9 (weltOwner s w) 0 [1, BitVec.ofNat 8 w]
      (recheck { s1 with boot := { s1.boot with weltOut := setBits s1.boot.weltOut w w 0 } })
  else s

/-! ## Management messages at the Foreman (R531, R533 to R535) -/

/-- Mark a managed module. -/
def updManaged (mod : Nat) (f : Managed → Managed) (s : State) : State :=
  { s with fmn := { s.fmn with managed := s.fmn.managed.map (fun m => if m.mod = mod then f m else m) } }

/-- A message of the session with `peer` is counted: acknowledged in time, and its sender known to be there (R534). -/
def countMsg (m : MgmtMsg) (s : State) : State :=
  let x := sessionOf s m.src
  let s1 := updSession m.src (fun x =>
    { x with
      ackbase := (m.psn + 1) % 2 ^ 32, got := x.got.filter (fun p => decide (p ≠ m.psn)), lastPlane := m.port
      firstAt := if x.unacked = 0 then s.tb else x.firstAt, unacked := x.unacked + 1 }) s
  let s2 := if 16 ≤ x.unacked + 1 then sessionAck m.src m.port s1 else s1
  let back := s.fmn.managed.any (fun g => decide (g.mod = m.src) && decide (g.state = 2))
  let s3 := updManaged m.src (fun g => { g with last := s.tb, state := if g.state = 2 then 1 else g.state }) s2
  if back then logEvent 11 0xFF 0 (leBytes m.src 2) s3 else s3

/-- Take the first message of some types that is next in its session. The answer is the message to act on, whole; none for the first
of two parts, or a part that is discarded (R531). -/
def takeMsg (sel : Nat → Bool) (s : State) : Option (Option MgmtMsg × State) :=
  match s.fmn.mgmtIn.find? (fun m => sel m.mtype && decide (m.psn = (sessionOf s m.src).ackbase)) with
  | none => none
  | some m =>
    let first := (sessionOf s m.src).first
    let s1 := countMsg m { s with fmn := { s.fmn with mgmtIn := s.fmn.mgmtIn.erase m } }
    let clear := fun (s : State) => updSession m.src (fun x => { x with first := none }) s
    match first with
    | some a =>
      if m.more ∨ m.mtype ≠ a.mtype ∨ m.seq ≠ a.seq ∨ m.code ≠ a.code ∨ 8144 < a.body.length + m.body.length then
        some (none, mgmtBad m.port (clear s1))
      else some (some { m with body := a.body ++ m.body }, clear s1)
    | none =>
      if m.more then some (none, updSession m.src (fun x => { x with first := some m }) s1) else some (some m, s1)

/-- MGMT_JOIN: a registered module joins; JOIN_ACK answers (R533). -/
def mgmtJoin (s : State) : State :=
  match takeMsg (fun t => decide (t = 1)) s with
  | some (some m, s1) =>
    if s1.fmn.managed.any (fun g => decide (g.mod = m.src)) then
      logEvent 11 0xFF 0 (leBytes m.src 2) (sendMsg m.src 2 m.seq 0 [] (updManaged m.src (fun g => { g with state := 1 }) s1))
    else s1
  | some (none, s1) => s1
  | none => s

/-- JOIN_ACK: the manager has this module among its own. -/
def joinAck (s : State) : State :=
  match takeMsg (fun t => decide (t = 2)) s with
  | some (some m, s1) =>
    match s1.fmn.manager with
    | some (k, _) => if k = m.src then { s1 with fmn := { s1.fmn with joined := true } } else s1
    | none => s1
  | some (none, s1) => s1
  | none => s

/-- HEARTBEAT: the module's state word. -/
def heartbeat (s : State) : State :=
  match takeMsg (fun t => decide (t = 3)) s with
  | some (some m, s1) => updManaged m.src (fun g => { g with word := BitVec.ofNat 32 (leNat (m.body.take 4)) }) s1
  | some (none, s1) => s1
  | none => s

/-- HEARTBEAT_TIMER: every 100 ms to the manager (R534). What the module state word holds is not in the spec: a free value. -/
def heartbeatTimer (s : State) : State :=
  match s.fmn.manager with
  | some (k, _) =>
    if s.fmn.joined && decide (s.fmn.lastBeat + 100000000 ≤ s.tb) then
      let (v, s1) := takeFree s
      sendMsg k 3 0 0 (leBytes v 4) { s1 with fmn := { s1.fmn with lastBeat := s.tb } }
    else s
  | none => s

/-- CREW_LOST_TIMER: a joined module from which no message has been counted for 300 ms (R534). -/
def crewLost (mod : Nat) (s : State) : State :=
  if s.fmn.managed.any (fun g => decide (g.mod = mod) && decide (g.state = 1) && decide (g.last + 300000000 ≤ s.tb)) then
    logEvent 10 0xFF 1 (leBytes mod 2) (updManaged mod (fun g => { g with state := 2 }) s)
  else s

/-- MGMT_LEAVE: the module is no longer among the managed ones' joined. -/
def mgmtLeave (s : State) : State :=
  match takeMsg (fun t => decide (t = 6)) s with
  | some (some m, s1) => updManaged m.src (fun g => { g with state := 0 }) s1
  | some (none, s1) => s1
  | none => s

/-- The codes of the commands (R555). -/
def commandCodes : List Nat :=
  [0x0001, 0x0002, 0x0101, 0x0102, 0x0103, 0x0104, 0x0105, 0x0201, 0x0202, 0x0203, 0x0301, 0x0302, 0x0303, 0x0401, 0x0402,
    0x0403, 0x0404, 0x0501, 0x0502, 0x0503, 0x0601, 0x0602, 0x0603, 0x0701, 0x0702, 0x0703, 0x0704, 0x0801, 0x0802, 0x0A01, 0x0A02]

/-- A command that R535 does not relay. -/
def notRelayed (c : Nat) : Bool := decide (c = 0x0501) || decide (c = 0x0601) || decide (c = 0x0A01) || decide (c = 0x0A02)

/-- The commands that leave the module in its idle state (R613). -/
def keepsIdle (code : Nat) : Bool := [0x0001, 0x0002, 0x0303, 0x0502, 0x0503, 0x0602].contains code

/-- The module is in Ready or degraded Ready. -/
def ready (s : State) : Bool := decide (s.boot.state = 1) || decide (s.boot.state = 2)

/-- The partition to which a VF is bound. -/
def boundPart (s : State) (f : Nat) : Option Nat := findBelow 8 (fun p => (s.part p).live && decide ((s.part p).vf = f))

/-- The answer to an unknown CMD: the checks that come before it hold for every command (R540, R554, R556). -/
def unknownCmd (s : State) (m : Nat) : Nat :=
  if funcOf s m ≠ 0 ∧ boundPart s (funcOf s m) = none then 6 else if ready s = false then 5 else 1

/-- The Foreman accepts the command in a mailbox: it takes its place in the order of acceptance. An unknown code is answered at
once. -/
def accept (m : Nat) (s : State) : State :=
  let n := s.fmn.nextOrder
  let s1 := { s.updMbox m (fun x => { x with order := n }) with fmn := { (s.updMbox m (fun x => { x with order := n })).fmn with nextOrder := n + 1 } }
  let s2 := if keepsIdle (s.mbox m).cmd then s1 else wake s1
  if commandCodes.contains (s.mbox m).cmd then s2 else respond m (unknownCmd s m) 0 [] s2

/-- MGMT_COMMAND: a COMMAND of the manager is accepted as though it had arrived on PF0, in a mailbox of its own (R535). -/
def mgmtCommand (s : State) : State :=
  match takeMsg (fun t => decide (t = 4)) s with
  | some (some m, s1) =>
    if (s1.fmn.manager.map (·.1)) ≠ some m.src then mgmtBad m.port s1
    else if notRelayed m.code then sendMsg m.src 5 m.seq 0x11 (leBytes 0 4) s1
    else match findBelow 256 (fun i => decide ((s1.mbox (256 + i)).order = 0)) with
      | none => sendMsg m.src 5 m.seq 0x15 (leBytes 0 4) s1
      | some i =>
        accept (256 + i) (s1.updMbox (256 + i) (fun _ =>
          { MBox.reset with owner := 1, seq := m.seq, cmd := m.code, len := m.body.length, payload := m.body, sender := some (m.src, m.seq) }))
  | some (none, s1) => s1
  | none => s

/-- MGMT_RESPONSE: the answer to a CREW_RELAY completes it (R563). -/
def mgmtResponse (s : State) : State :=
  match takeMsg (fun t => decide (t = 5)) s with
  | some (some m, s1) =>
    let waits := fun (i : Nat) => match (s1.mbox i).relay with
      | some (mod, seq, _) => decide (mod = m.src) && decide (seq = m.seq) && decide ((s1.mbox i).order ≠ 0)
      | none => false
    match findBelow 512 waits with
    | none => s1
    | some i =>
      let detail := leNat (m.body.take 4)
      let l := m.body.drop 4
      let rest := l.drop 4072
      respond i 0 0 (leBytes m.code 2 ++ leBytes rest.length 2 ++ leBytes detail 4 ++ l.take 4072)
        (s1.updMbox i (fun x => { x with heldBack := if rest = [] then none else some (m.src, m.code, detail, rest) }))
  | some (none, s1) => s1
  | none => s

/-! ## The commands -/

/-- WELT_PACKET_SEND (R510). -/
def execWeltPacketSend (port : Nat) (s : State) : Ans := .next (if port < 8 then packetSend port s else s)
/-- WELT_FRAME_RECEIVE (R513). -/
def execWeltFrameReceive (port : Nat) (f : Frame) (s : State) : Ans := .next (if port < 8 then frameReceive port f s else s)
/-- PACKET_COUNTED (R516). -/
def execPacketCounted (stream psn : Nat) (s : State) : Ans := .next (packetCounted stream psn s)
/-- RX_BUFFER_UNCORRECTABLE (R515). -/
def execRxBufferUncorrectable (stream psn : Nat) (s : State) : Ans := .next (rxUncorrectable stream psn s)
/-- ACK_TIMER (R517). -/
def execAckTimer (stream : Nat) (s : State) : Ans := .next (ackTimer stream s)
/-- RETRANSMISSION_TIMEOUT (R519). -/
def execRetransmissionTimeout (stream psn : Nat) (s : State) : Ans := .next (retransmission stream psn s)
/-- PORT_DOWN (R525). -/
def execPortDown (port : Nat) (s : State) : Ans := .next (if port < 8 then portDown port s else s)
/-- PORT_UP (R659). -/
def execPortUp (port : Nat) (s : State) : Ans := .next (if port < 8 then portTrained port s else s)
/-- MGMT_JOIN (R533). -/
def execMgmtJoin (s : State) : Ans := .next (mgmtJoin s)
/-- JOIN_ACK (R533). -/
def execJoinAck (s : State) : Ans := .next (joinAck s)
/-- HEARTBEAT (R534). -/
def execHeartbeat (s : State) : Ans := .next (heartbeat s)
/-- HEARTBEAT_TIMER (R534). -/
def execHeartbeatTimer (s : State) : Ans := .next (heartbeatTimer s)
/-- CREW_LOST_TIMER (R534). -/
def execCrewLostTimer (module : Nat) (s : State) : Ans := .next (crewLost module s)
/-- MGMT_COMMAND (R535). -/
def execMgmtCommand (s : State) : Ans := .next (mgmtCommand s)
/-- MGMT_RESPONSE (R563). -/
def execMgmtResponse (s : State) : Ans := .next (mgmtResponse s)
/-- MGMT_LEAVE (R530). -/
def execMgmtLeave (s : State) : Ans := .next (mgmtLeave s)

end Sys2Proof.Machine
end

