-- ==== Sys2Proof/Machine/Foreman.lean ====
section
/-! DEFINITION. The host mailboxes: handing a command over, the order in which commands run, the checks common to all of them, and
the commands that report (R538 to R556, R582). -/

namespace Sys2Proof.Machine

/-! ## Handing a command over (R547 to R549) -/

/-- The PCIe link is up: it trains in step 7 (R629), and W3, W4 and a thermal trip take it down (R602, R612). -/
def pcieUp (s : State) : Bool :=
  s.board.island && s.board.perst && decide (8 ≤ s.boot.step) && decide (s.pwr.wstate < 3) && !s.board.thermTrip

/-- A byte of a list, which grows as far as needed. -/
def putByte (l : List Byte) (i : Nat) (b : Byte) : List Byte := (padTo (max l.length (i + 1)) l).set i b

/-- Byte `i` of a number replaced. -/
def setByteOf (v i : Nat) (b : Byte) : Nat := setBits v (8 * i + 7) (8 * i) b.toNat

/-- A host write of one byte of a mailbox that the host owns, beyond OWNER. -/
def hostByte (x : MBox) (off : Nat) (b : Byte) : MBox :=
  if off = 2 ∨ off = 3 then { x with seq := setByteOf x.seq (off - 2) b }
  else if off = 4 ∨ off = 5 then { x with cmd := setByteOf x.cmd (off - 4) b }
  else if off = 6 ∨ off = 7 then { x with len := setByteOf x.len (off - 6) b }
  else if off = 8 ∨ off = 9 then { x with status := setByteOf x.status (off - 8) b }
  else if 12 ≤ off ∧ off < 16 then { x with detail := setByteOf x.detail (off - 12) b }
  else if 16 ≤ off then { x with payload := putByte x.payload (off - 16) b }
  else x

/-- A CREW_RELAY that asks for the bytes held back: CODE 0, no BODY, the same MOD (R563). -/
def asksRest (x : MBox) : Bool :=
  match x.heldBack with
  | some (mod, _, _, _) =>
    decide (x.cmd = 0x0603) && decide (x.len = 4) && decide (leNat (x.payload.take 2) = mod) &&
      decide (leNat ((x.payload.drop 2).take 2) = 0)
  | none => false

/-- OWNER becomes 1: the Foreman accepts the command, or gives the last response again when SEQ and CMD are those of the last command
completed here (R549). Any other command discards the bytes a relay held back (R563). -/
def handOver (m : Nat) (s : State) : State :=
  let x := s.mbox m
  match x.last with
  | some l =>
    if l.seq = x.seq ∧ l.cmd = x.cmd then raise (funcOf s m) (vectorOf m) (s.updMbox m (fun x => answered x l))
    else accept m (s.updMbox m (fun x => { x with owner := 1, heldBack := if asksRest x then x.heldBack else none }))
  | none => accept m (s.updMbox m (fun x => { x with owner := 1, heldBack := if asksRest x then x.heldBack else none }))

def countDrops (n : Nat) (s : State) : State := { s with fmn := { s.fmn with drops := s.fmn.drops + n } }

/-- MAILBOX_HANDOVER: the host writes the payload, SEQ, CMD and LEN, and then OWNER = 1. To a mailbox that the device owns, each of
these bytes is discarded and counted (R548). -/
def mailboxHandover (m seq cmd : Nat) (payload : List Byte) (s : State) : State :=
  if pcieUp s = false ∨ 256 ≤ m then s
  else if (s.mbox m).owner = 1 then countDrops (payload.length + 7) s
  else handOver m (s.updMbox m (fun x =>
    { x with seq := seq % 2 ^ 16, cmd := cmd % 2 ^ 16, len := payload.length, payload := payload ++ x.payload.drop payload.length }))

/-- MAILBOX_HOST_WRITE: one byte (R548). -/
def mailboxHostWrite (m off : Nat) (b : Byte) (s : State) : State :=
  if pcieUp s = false ∨ 256 ≤ m then s
  else if (s.mbox m).owner = 1 then countDrops 1 s
  else if off = 0 then (if b = 1 then handOver m s else countDrops 1 s)
  else s.updMbox m (fun x => hostByte x off b)

/-! ## The order of commands (R551, R684) -/

/-- The request payload of a command: LEN bytes. -/
def request (x : MBox) : List Byte := padTo x.len x.payload

/-- A field of a payload. -/
def fieldOf (l : List Byte) (o n : Nat) : Nat := leNat ((l.drop o).take n)

/-- Commands that run at once. -/
def immediate (x : MBox) : Bool :=
  [0x0001, 0x0002, 0x0105, 0x0402, 0x0404, 0x0303, 0x0602].contains x.cmd

/-- Commands that wait for all before them, and all after them for them. -/
def exclusive (x : MBox) : Bool :=
  [0x0201, 0x0202, 0x0301, 0x0302, 0x0501, 0x0A02].contains x.cmd || (decide (x.cmd = 0x0203) && decide (3 ≤ fieldOf (request x) 0 1))

/-- The partition that a command names, or whose unit it names. -/
def namedPart (s : State) (x : MBox) : Option Nat :=
  let l := request x
  let tgt := fieldOf l 2 2
  if 0x0101 ≤ x.cmd ∧ x.cmd ≤ 0x0202 then some (fieldOf l 0 1)
  else if x.cmd = 0x0203 then
    (if fieldOf l 0 1 = 0 then partOf s (benchOf tgt) else if fieldOf l 0 1 = 1 then partOf s tgt else some tgt)
  else if x.cmd = 0x0401 ∨ x.cmd = 0x0402 then partOf s (fieldOf l 0 2 / 512)
  else if x.cmd = 0x0701 ∨ x.cmd = 0x0702 then some (fieldOf l 2 1)
  else if x.cmd = 0x0703 then some (s.stream (fieldOf l 0 2)).part
  else none

/-- The command has begun and waits for its end: a relay, a reset, a HOST_MOVE, a STOP_JOB. -/
def begun (s : State) (m : Nat) : Bool :=
  (s.mbox m).relay.isSome || s.resets.any (fun r => r.mbox.contains m) || s.fmn.moves.any (fun v => decide (v.mbox = m)) ||
    (List.range 8).any (fun p => (s.part p).progs.any (fun g => decide (g.2.stopBy = m + 1)))

/-- A die reset is under way: commands are accepted when it ends (R684). -/
def dieReset (s : State) : Bool := s.resets.any (fun r => decide (r.scope = .die) || decide (r.scope = .module))

/-- The command in mailbox `m` may begin. -/
def canRun (s : State) (m : Nat) : Bool :=
  let x := s.mbox m
  decide (x.order ≠ 0) && !begun s m && !dieReset s &&
    (immediate x || s.fmn.mboxes.all (fun e =>
      let y := e.2
      decide (y.order = 0) || decide (x.order ≤ y.order) ||
        (!exclusive x && !exclusive y && (immediate y || decide ((namedPart s x).isNone ∨ namedPart s x ≠ namedPart s y)))))

/-! ## The checks common to all commands (R540, R550, R555, R556) -/

/-- A function may name a partition: PF0 any, a VF its own. -/
def mayName (s : State) (f p : Nat) : Bool := decide (f = 0) || decide (boundPart s f = some p)

/-- Run the command with code `code` in mailbox `m`: `forVf` whether a VF may issue it, `early` whether it runs before Ready, its
payload size where that is fixed, and what it does with its payload. -/
def runCmd (m code : Nat) (forVf early : Bool) (size : Option Nat) (body : List Byte → State → State) (s : State) : State :=
  let x := s.mbox m
  let f := funcOf s m
  if x.cmd ≠ code ∨ canRun s m = false then s
  else
    let s := if keepsIdle code then s else wake s
    if f ≠ 0 ∧ boundPart s f = none then respond m 6 0 [] s
    else if f ≠ 0 ∧ forVf = false then respond m 4 0 [] s
    else if early = false ∧ ready s = false then respond m 5 0 [] s
    else if (size.getD x.len) ≠ x.len ∨ 4080 < x.len then respond m 2 0 [] s
    else body (request x) s

/-- The first field that is out of range, in payload order: offset, size, the values allowed. -/
def badField (l : List Byte) (fs : List (Nat × Nat × (Nat → Bool))) : Option Nat :=
  (fs.find? (fun f => !f.2.2 (fieldOf l f.1 f.2.1))).map (·.1)

/-- A reserved field. -/
def zero (v : Nat) : Bool := decide (v = 0)
def below (n v : Nat) : Bool := decide (v < n)

/-- Answer BAD_FIELD for the first bad field, or go on. -/
def checked (m : Nat) (l : List Byte) (fs : List (Nat × Nat × (Nat → Bool))) (go : State → State) (s : State) : State :=
  match badField l fs with
  | some o => respond m 3 o [] s
  | none => go s

/-- The partition a command names: NOT_PERMITTED for another's, NO_PARTITION for none. -/
def withPart (m p : Nat) (go : State → State) (s : State) : State :=
  if mayName s (funcOf s m) p = false then respond m 4 0 [] s
  else if (s.part p).live = false then respond m 6 0 [] s
  else go s

/-! ## Commands that report -/

/-- The bits of a set of numbers below `n`. -/
def bitMap (n : Nat) (p : Nat → Bool) : Nat := (List.range n).foldl (fun v i => if p i then v + 2 ^ i else v) 0

/-- GET_INFO's response. -/
def infoBytes (s : State) : List Byte :=
  leBytes 3 2 ++ leBytes s.boot.state 1 ++ leBytes s.pwr.profile 1 ++ leBytes (capNow s) 2 ++
    leBytes (if s.pwr.fixed then s.pwr.fixOp else 0xFF) 1 ++ leBytes s.pwr.op 1 ++ leBytes (moduleNo s) 2 ++
    leBytes (bitMap 16 (fun d => !memMappedOut s d)) 2 ++ leBytes (bitMap 8 (fun w => !bit s.boot.weltOut w)) 1 ++
    leBytes (bitMap 8 (fun p => (s.part p).live)) 1 ++ [0, 0] ++ leBytes s.tb 8 ++ satBytes s.fmn.drops 4

/-- GET_INFO (R555). -/
def getInfo (m : Nat) (s : State) : State :=
  runCmd m 0x0001 true true (some 0) (fun _ s => respond m 0 0 (infoBytes s) s) s

/-- An event as GET_EVENTS returns it (R583). -/
def eventBytes (e : Event) : List Byte :=
  leBytes e.tb 8 ++ leBytes e.code 2 ++ leBytes e.part 1 ++ leBytes e.sev 1 ++ padTo 20 e.detail

/-- GET_EVENTS (R582). -/
def getEvents (m : Nat) (s : State) : State :=
  runCmd m 0x0002 true true (some 1) (fun l s =>
    checked m l [(0, 1, fun v => decide (1 ≤ v) && decide (v ≤ 127))] (fun s =>
      let f := funcOf s m
      let g := tblGet logD s.fmn.logs f
      let out := g.entries.take (fieldOf l 0 1)
      respond m 0 0 (leBytes out.length 1 ++ [0, 0, 0] ++ satBytes g.lost 4 ++ out.flatMap eventBytes)
        { s with fmn := { s.fmn with logs := tblSet logD s.fmn.logs f { entries := g.entries.drop (fieldOf l 0 1), lost := 0 } } }) s) s

/-! ## Function Level Reset (R552) -/

/-- A command accepted and not completed moves out of its mailbox, so that it runs on and its response goes nowhere. -/
def orphan (m : Nat) (s : State) : State :=
  match findBelow 256 (fun i => decide ((s.mbox (256 + i)).order = 0)) with
  | none => s
  | some i =>
    let x := s.mbox m
    let move := fun (n : Nat) => if n = m then 256 + i else n
    let s1 := s.updMbox (256 + i) (fun _ => { x with last := none, sender := none, func := funcOf s m })
    let s2 := { s1 with
      resets := s1.resets.map (fun r => { r with mbox := r.mbox.map move })
      fmn := { s1.fmn with moves := s1.fmn.moves.map (fun v => { v with mbox := move v.mbox }) } }
    forAll (List.range 8) (fun p s => s.updPart p (fun q =>
      { q with progs := q.progs.map (fun g => (g.1, if g.2.stopBy = m + 1 then { g.2 with stopBy := 256 + i + 1 } else g.2)) })) s2

/-- FUNCTION_LEVEL_RESET. -/
def functionLevelReset (f : Nat) (s : State) : State :=
  if pcieUp s = false ∨ 8 < f then s
  else
    let own := (List.range 256).filter (fun m => decide (funcOf s m = f) && decide (s.mbox m ≠ MBox.reset))
    forAll own (fun m s =>
      (if (s.mbox m).order ≠ 0 then orphan m s else s).updMbox m (fun _ => MBox.reset)) s

/-! ## The commands -/

/-- MAILBOX_HANDOVER (R547). -/
def execMailboxHandover (m : Nat) (seq cmd : Nat) (payload : List Byte) (s : State) : Ans := .next (mailboxHandover m seq cmd payload s)
/-- MAILBOX_HOST_WRITE (R548). -/
def execMailboxHostWrite (m off : Nat) (b : Byte) (s : State) : Ans := .next (mailboxHostWrite m off b s)
/-- GET_INFO (R555). -/
def execGetInfo (m : Nat) (s : State) : Ans := .next (getInfo m s)
/-- GET_EVENTS (R582). -/
def execGetEvents (m : Nat) (s : State) : Ans := .next (getEvents m s)
/-- FUNCTION_LEVEL_RESET (R552). -/
def execFunctionLevelReset (fn : Nat) (s : State) : Ans := .next (functionLevelReset fn s)

end Sys2Proof.Machine
end

