-- ==== Sys2Proof/Machine/Programs.lean ====
section
/-! DEFINITION. Packages and their checks, admission, loading and unloading programs, and the jobs' commands (R329, R502 to R504,
R564 to R578). -/

namespace Sys2Proof.Machine

/-! ## The package in memory (R564 to R567) -/

/-- A section entry: type, offset, length. -/
structure SectEntry where
  type : Nat
  off : Nat
  len : Nat
  rsvd : Nat
  deriving DecidableEq, Repr

/-- A field of the package header at `a`. -/
def hdr (s : State) (a o n : Nat) : Nat := memNat s.mem (a + o) n

def sectEntries (s : State) (a : Nat) : List SectEntry :=
  (List.range 9).map (fun k =>
    { type := hdr s a (0x20 + 24 * k) 2, off := hdr s a (0x28 + 24 * k) 8, len := hdr s a (0x30 + 24 * k) 8, rsvd := hdr s a (0x22 + 24 * k) 6 })

def sectOf (s : State) (a t : Nat) : Option SectEntry := (sectEntries s a).find? (fun e => decide (e.type = t))

/-- A section lies in the package; an unused entry is all zeros. -/
def entryIn (total : Nat) (e : SectEntry) : Bool :=
  if e.type = 0 then decide (e.off = 0) && decide (e.len = 0) && decide (e.rsvd = 0)
  else decide (e.type ≤ 9) && decide (e.rsvd = 0) && decide (e.off + e.len ≤ total)

/-- SIG, when the package is signed, is the last section and holds a key slot and a signature (R567). -/
def sigPlaced (s : State) (a : Nat) : Bool :=
  match sectOf s a 9 with
  | none => decide (hdr s a 4 4 / 2 ^ 16 % 2 = 0)
  | some g => decide (hdr s a 4 4 / 2 ^ 16 % 2 = 1) && decide (g.len = 7872) &&
      (sectEntries s a).all (fun e => decide (e.type = 0 ∨ e.type = 9) || decide (e.off + e.len ≤ g.off))

/-- Check 1 of R568. -/
def headerOk (s : State) (a len : Nat) : Bool :=
  decide (0x100 ≤ len) && decide (hdr s a 0 4 = 0x57504B31) && decide (hdr s a 4 4 % 2 ^ 16 = 1) && decide (hdr s a 4 4 / 2 ^ 17 = 0) &&
    decide (hdr s a 8 8 = len) && decide (bits (hdr s a 0x10 4) 23 19 = 0) && decide (bits (hdr s a 0x10 4) 31 28 = 0) &&
    decide (bits (hdr s a 0x14 4) 7 3 = 0) && decide (bits (hdr s a 0x14 4) 31 20 = 0) && decide (hdr s a 0xF8 8 = 0) &&
    (decide (hdr s a 0x15 1 < 8) || decide (hdr s a 0x15 1 = 0xFF)) &&
    (sectEntries s a).all (entryIn len) &&
    (List.range 9).all (fun t => decide (((sectEntries s a).filter (fun e => decide (e.type = t + 1))).length ≤ 1)) && sigPlaced s a

/-- The signature of a package, or its absence, is acceptable (R567). -/
def signatureOk (s : State) (a : Nat) (sigReq : Bool) : Bool :=
  match sectOf s a 9 with
  | none => !sigReq
  | some g =>
    let k := hdr s a g.off 1
    let body := (s.recd 6).body
    decide (k < 8) && decide (memBytes s.mem (a + g.off + 1) 15 = List.replicate 15 0) &&
      decide (fieldOf body (0x20 + 36 * k) 1 = 1) &&
      Config.sigValid ((body.drop (0x24 + 36 * k)).take 32) (memBytes s.mem a g.off) (memBytes s.mem (a + g.off + 16) 7856)

/-- A variant record (R566) of the VARIANTS section at `v`. -/
def variantAt (s : State) (v : Nat) : Variant :=
  { entry := memNat s.mem v 4, frameCyc := memNat s.mem (v + 8) 8, env := (List.range 8).map (fun k => memNat s.mem (v + 16 + 2 * k) 2) }

/-- The program that a package at `a` describes, before it is loaded. -/
def programAt (s : State) (a : Nat) (pkg : Sections) : Program :=
  let h0 := hdr s a 0x10 4
  let h1 := hdr s a 0x14 4
  let n := bits h1 19 16
  let v := a + ((sectOf s a 5).map (·.off)).getD 0
  { Program.reset with
    js := 1, w := bits h0 7 0, h := bits h0 15 8, imode := bits h0 17 16, shmode := bits h0 18 18, plog := bits h0 27 24
    ceil := bits h1 2 0, reqfix := bits h1 15 8, nvar := n, deadline := hdr s a 0x18 4, liveKib := hdr s a 0x1C 4
    variants := (List.range n).map (fun i => variantAt s (v + 64 * i)), sect := pkg }

/-! ## Check 4: the pattern (R329) -/

/-- Budget A of R356. -/
def budget (op : Nat) : Nat := [26, 29, 32, 35, 40, 45, 53, 64].getD op 64

/-- The bench's position in the rectangle. -/
def posOf (q : Part) (b : Nat) : Nat := (rowOf b - q.y0) * q.w + (colOf b - q.x0)

/-- An entry of the package's pattern. -/
def pkgEntry (q : Part) (pkg : Sections) (b i : Nat) : Nat :=
  match pkg.pattern.find? (fun e => decide (e.1 = posOf q b) && decide (e.2.1 = i)) with
  | some e => e.2.2.toNat
  | none => 0

/-- Output `o` of bench `b` leads nowhere: out of the rectangle, or to no port station. -/
def deadOutput (q : Part) (b o : Nat) : Bool :=
  if o = 6 then false
  else if o = 5 then (memAt b).isNone && (weltAt b).isNone
  else match neighbour b o with
    | some d => !q.holds d
    | none => true

/-- One entry of the pattern. -/
def entryOk (q : Part) (b e : Nat) : Bool :=
  let os := (List.range 6).map (· + 1)
  decide (bits e 31 30 = 0) && decide (e / 2 ^ 47 = 0) &&
    os.all (fun o => decide (entrySel e o ≠ 7) && decide (entrySel e o ≠ o) &&
      (!deadOutput q b o || (decide (entrySel e o = 0) && decide (entryCls e o = 0)))) &&
    os.all (fun o => decide (entrySel e o = 0) || os.all (fun o' => decide (o = o') || decide (entrySel e o ≠ entrySel e o')))

/-- Where the flit that leaves by output `o` at index `i` ends, by the package's pattern. -/
def pkgPath (q : Part) (pkg : Sections) (P : Nat) : Nat → Nat → Nat → Nat → Option (Nat × Nat)
  | 0, _, _, _ => none
  | fuel + 1, b, o, i =>
    if o = 5 ∨ o = 6 then some (b, o)
    else match neighbour b o with
      | none => none
      | some d => match outputsOf (pkgEntry q pkg d ((i + 2) % P)) (oppositeIn o) with
        | [] => none
        | o' :: _ => pkgPath q pkg P fuel d o' ((i + 2) % P)

/-- The entries of a station, as (index, entry). -/
def stationEntries (q : Part) (pkg : Sections) (b : Nat) : List (Nat × Nat) :=
  (pkg.pattern.filter (fun e => decide (e.1 = posOf q b))).map (fun e => (e.2.1, e.2.2.toNat))

/-- The place that a slot of the X input of station `b` leads to, in entry `e` at index `i`; a path uses no output of a router twice at
one index, which bounds its length. -/
def pkgEnd (q : Part) (pkg : Sections) (P b e i : Nat) : Option (Nat × Nat) :=
  match outputsOf e 5 with
  | [] => none
  | o :: _ => pkgPath q pkg P (128 * 6 * 4096) b o i

/-- Every path by which a port returns read replies has a reserve slot: an entry whose XR is 1 and whose X input leads to the bench
that XRB names (R329, R360). -/
def reservesOk (q : Part) (pkg : Sections) (P b : Nat) : Bool :=
  let l := stationEntries q pkg b
  l.all (fun e => bit e.2 39 || match pkgEnd q pkg P b e.2 e.1 with
    | some (d, 6) => l.any (fun r => bit r.2 39 && decide (bits r.2 46 40 = d) && decide (pkgEnd q pkg P b r.2 r.1 = some (d, 6)))
    | _ => true)

/-- In every 64 consecutive entries a port's access count keeps within the budget (R357). -/
def budgetOk (q : Part) (pkg : Sections) (P ceil b : Nat) : Bool :=
  let l := ((stationEntries q pkg b).filter (fun e => decide (entrySel e.2 5 ≠ 0) && decide (entryCls e.2 5 = 0))).map (·.1)
  l.all (fun i => decide ((l.filter (fun j => decide ((j + P - i) % P < 64))).length ≤ budget ceil))

/-- Check 4 of R568. -/
def patternOk (q : Part) (g : Program) : Bool :=
  let P := 2 ^ g.plog
  let n := q.w * q.h
  let ports := (List.range 16).filter (ownsMem q)
  g.sect.pattern.all (fun e => decide (e.1 < n) && decide (e.2.1 < P) && entryOk q (benchAt q e.1) e.2.2.toNat) &&
    g.sect.conns.all (fun e =>
      let w := e.2.2.toNat
      decide (e.1 < n) && decide (e.2.1 < 64) && decide (w / 2 ^ 18 = 0) && decide (connType w = 0) && decide (bits w 16 10 ≤ 64)) &&
    g.sect.srconns.all (fun e => decide (e.1 < n) && decide (e.2.1 < 16) && decide (e.2.2.toNat < 2 ^ 7)) &&
    ports.all (fun d => reservesOk q g.sect P (memStation d) && budgetOk q g.sect P g.ceil (memStation d))

/-! ## Checks 5 to 8 -/

/-- A micro-op that R245 and R246 permit. -/
def microPermitted (w : Nat) : Bool :=
  let op := bits w 7 0
  decide (bits w 30 24 = 0) && (decide (op ≤ 0x09) || (decide (0x10 ≤ op) && decide (op ≤ 0x2A)) ||
    (decide (0x2C ≤ op) && decide (op ≤ 0x33)) || (decide (0xF0 ≤ op) && decide (op ≤ 0xF2)))

/-- A sequence from its START: END within 64 micro-ops, and no skip past it (R246, R247). -/
def sequenceOk (t : Tbl Word) (start : Nat) : Bool :=
  let at_ := fun (i : Nat) => (tblGet (zeros 32) t (start + i)).toNat
  match findBelow 64 (fun i => bit (at_ i) 31) with
  | none => false
  | some n => decide (start + n < 2048) && (List.range (n + 1)).all (fun i =>
      microPermitted (at_ i) && (decide (bits (at_ i) 7 0 ≠ 0xF1 ∧ bits (at_ i) 7 0 ≠ 0xF2) || decide (i = n) ||
        decide (i + bits (at_ i) 13 8 < n)))

/-- Check 5 of R568. -/
def ucodeOk (pkg : Sections) : Bool :=
  let t := tblOf (zeros 32) pkg.ustore
  pkg.ustore.all (fun e => decide (e.1 < 2048) && microPermitted e.2.toNat) &&
    pkg.ucdec.all (fun e => decide (e.1 < 32) && decide (e.2.toNat < 2 ^ 19) &&
      (!bit e.2.toNat 18 || sequenceOk t (bits e.2.toNat 10 0)))

/-- A share class register's value (R281). -/
def shareOk (n v : Nat) : Bool :=
  let pair := fun (mx mn : Nat) => decide (mn ≤ mx) && decide (mx ≤ 16)
  if (n - 0x12C) % 3 = 0 then decide (bits v 31 30 = 0) && pair (bits v 29 25) (bits v 24 20)
  else if (n - 0x12C) % 3 = 2 then decide (bits v 31 20 = 0) && pair (bits v 9 5) (bits v 4 0) && pair (bits v 19 15) (bits v 14 10)
  else true

/-- Check 6 of R568. -/
def sharesOk (q : Part) (pkg : Sections) : Bool :=
  pkg.shares.all (fun e => decide (e.1 < 4 * q.w * q.h) && decide (0x12C ≤ e.2.1) && decide (e.2.1 ≤ 0x137) && shareOk e.2.1 e.2.2.toNat)

/-- VBASE, PBASE and SIZE of a relocation region. -/
def relV (v : Nat) : Nat := bits v 18 0
def relP (v : Nat) : Nat := bits v 37 19
def relN (v : Nat) : Nat := bits v 53 38

/-- Check 7 of R568: the conditions of R385. -/
def relocOk (q : Part) (pkg : Sections) : Bool :=
  let l := (pkg.reloc.map (·.toNat)).filter (fun v => bit v 56)
  decide (pkg.reloc.length ≤ 16) && pkg.reloc.all (fun v => decide (v.toNat < 2 ^ 57)) &&
    l.all (fun v => decide (1 ≤ relN v) && decide (relN v ≤ 32768) && decide (relV v + relN v ≤ 2 ^ 19) &&
      decide (relP v / 2 ^ 15 = (relP v + relN v - 1) / 2 ^ 15) && ownsMem q (relP v / 2 ^ 15)) &&
    (l.mapIdx (fun i v => (i, v))).all (fun a => (l.mapIdx (fun i v => (i, v))).all (fun b =>
      decide (a.1 = b.1) || decide (relV a.2 + relN a.2 ≤ relV b.2) || decide (relV b.2 + relN b.2 ≤ relV a.2)))

/-- The planes a partition owns contain a mask that is not empty (R497). -/
def planesOk (q : Part) (planes : Nat) : Bool :=
  decide (planes ≠ 0) && decide (planes < 256) && (List.range 8).all (fun w => !bit planes w || ownsWelt q w)

/-- Every part of [a, a + n) hits a relocation region of bench `b`. -/
def inRegions (s : State) (b a n : Nat) : Bool :=
  (pieces (n / 0x40000 + 2) a n).all (fun p => decide (p < 0x010000000000) && (translate s b p).isSome)

/-- The checks of a receive end (R503), as the field that fails: 1 planes, 2 tally, 3 window. -/
def rxCheck (s : State) (p planes tally wbase wlen : Nat) : Nat :=
  let q := s.part p
  if planesOk q planes = false then 1
  else if q.holds (tally / 512) = false ∨ ((s.bench (tally / 512)).tally (tally % 512)).scope ≠ 5 then 2
  else if inRegions s (leadOf q) wbase wlen = false then 3
  else 0

/-- The checks of a send end (R504): 1 planes, 2 sending bench, 3 connections, each of which leads to its plane's station. -/
def txCheck (s : State) (p planes sbench conn : Nat) : Nat :=
  let q := s.part p
  if planesOk q planes = false then 1
  else if q.holds sbench = false then 2
  else if (List.range 8).all (fun w => !bit planes w ||
      (let v := connWord s sbench (bits conn (6 * w + 5) (6 * w))
       connValid v && decide (connType v = 0) && decide (connDst v = weltStation w) &&
         decide (connEnd s sbench (bits conn (6 * w + 5) (6 * w)) = some (weltStation w, 5)))) = false then 3
  else 0

/-- The table entry of a stream that a package or a command opens. -/
def streamEntry (p prog : Nat) (d : StreamDecl) (sbench : Nat) : Stream :=
  { Stream.reset with
    state := if d.send then 1 else 2, part := p, prog := prog, planes := d.planes, peer := d.peer, pstr := d.pstr, tally := d.tally
    wbase := d.wbase, wlen := d.wlen, sbench := sbench, conn := d.conn }

/-- A declared stream. -/
def streamOk (s : State) (p : Nat) (d : StreamDecl) : Bool :=
  let q := s.part p
  decide (d.id < 16384) && decide ((s.stream d.id).state = 0) && decide (d.peer < 16384) && decide (d.pstr < 16384) &&
    (if d.send then decide (d.sbench < q.w * q.h) && decide (txCheck s p d.planes (benchAt q d.sbench) d.conn = 0)
     else decide (rxCheck s p d.planes d.tally d.wbase d.wlen = 0))

/-- The benches of a partition as a program's pattern, connections and regions would leave them: what the declarations are checked
against. -/
def trial (p : Nat) (g : Program) (s : State) : State :=
  let q := s.part p
  let s1 := forAll (benchesOf s p) (fun b s => s.updBench b (fun x => { x with pattern := [], conns := [] })) s
  let s2 := forAll g.sect.pattern (fun e s => setEntry (benchAt q e.1) e.2.1 e.2.2.toNat s) s1
  let s3 := forAll g.sect.conns (fun e s => setConn (benchAt q e.1) e.2.1 e.2.2.toNat s) s2
  let s4 := putReloc p g.sect.reloc s3
  { s4.updPart p (fun q => { q with plog := g.plog }) with
    clicker := { s4.clicker with paths := s4.clicker.paths.filter (fun c => decide (c.part ≠ p)) } }

/-- Every declared service path can be cut. -/
def servicesOk (q : Part) : List (Nat × Nat) → State → Bool
  | [], _ => true
  | (a, b) :: r, s =>
    decide (a < q.w * q.h) && decide (b < q.w * q.h) && decide (a ≠ b) &&
      match cutPath (benchAt q a) (benchAt q b) 1 2 2 s with
      | .ok (_, s1) => servicesOk q r s1
      | .error _ => false

/-- Check 8 of R568. -/
def declsOk (p : Nat) (g : Program) (s : State) : Bool :=
  let q := s.part p
  let t := trial p g s
  g.sect.queues.all (fun e => decide (e.1 < 4 * q.w * q.h) && decide (e.2.1 < 16) &&
      ringOk (bits e.2.2.toNat 19 3 * 8) (bits e.2.2.toNat 22 20)) &&
    servicesOk q g.sect.services t && g.sect.streams.all (streamOk t p) &&
    g.sect.streams.all (fun d => decide ((g.sect.streams.filter (fun e => decide (e.id = d.id))).length = 1))

/-- The trace collector's buffer is in force, and a relocation region of a program meets it (R703). -/
def meetsTrace (s : State) (l : List Dword) : Bool :=
  bit s.trc.ctl.toNat 1 && (l.map (·.toNat)).any (fun v => bit v 56 &&
    decide (relP v * 2 ^ 21 < s.trc.base + 2 ^ s.trc.slog) && decide (s.trc.base < (relP v + relN v) * 2 ^ 21))

/-- Check 9 of R568. -/
def sectionsOk (s : State) (a n : Nat) : Bool :=
  (sectOf s a 1).isSome && (sectOf s a 2).isSome &&
    match sectOf s a 5 with
    | none => false
    | some e => decide (64 * n ≤ e.len) && (List.range n).all (fun i =>
        decide (memNat s.mem (a + e.off + 64 * i + 4) 4 = 0) && decide (memNat s.mem (a + e.off + 64 * i + 0x30) 16 = 0))

/-- The first package check that fails, as DETAIL; 0 for none (R568). `some true` first stands for the signature (R567). -/
def packageWhy (s : State) (p a len : Nat) (g : Program) : Option Nat :=
  let q := s.part p
  if headerOk s a len = false then some 1
  else if signatureOk s a q.sigReq = false then none
  else if g.w ≠ q.w ∨ g.h ≠ q.h then some 2
  else if g.imode = 3 ∨ g.plog < 8 ∨ 12 < g.plog ∨ g.nvar = 0 ∨ 8 < g.nvar ∨ (g.reqfix ≠ 0xFF ∧ g.reqfix < g.ceil) then some 3
  else if patternOk q g = false then some 4
  else if ucodeOk g.sect = false then some 5
  else if sharesOk q g.sect = false then some 6
  else if relocOk q g.sect = false ∨ meetsTrace s g.sect.reloc then some 7
  else if declsOk p g s = false then some 8
  else if sectionsOk s a g.nvar = false then some 9
  else some 0

/-! ## Admission (R569 to R572) -/

/-- The guaranteed fixed point of a profile (R591). -/
def guaranteed (profile : Nat) : Nat := if profile = 0 then 5 else if profile = 1 then 3 else 2

/-- REQFIX′. -/
def reqfix' (s : State) (g : Program) : Nat := if g.reqfix = 0xFF then max (guaranteed s.pwr.profile) g.ceil else g.reqfix

/-- The core clock in MHz (R26). -/
def coreMHz (op : Nat) : Nat := [1500, 1375, 1250, 1125, 1000, 875, 750, 625].getD op 625

/-- The admitted programs: (partition, slot, program). -/
def admitted (s : State) : List (Nat × Nat × Program) :=
  (loadedProgs s).map (fun e => (e.1, e.2, (s.part e.1).prog e.2))

def fixedNow (s : State) : Option Nat := if s.pwr.fixed then some s.pwr.fixOp else none

/-- The admission point of a list of programs. -/
def admPoint (s : State) (fixed : Option Nat) (l : List (Nat × Nat × Program)) : Nat :=
  match fixed with
  | some f => f
  | none => l.foldl (fun m e => min m (reqfix' s e.2.2)) 7

/-- The largest ENV of a program at a point, and its longest frame. -/
def envAt (g : Program) (f : Nat) : Nat := g.variants.foldl (fun m v => max m (v.env.getD f 0)) 0
def longest (g : Program) : Nat := g.variants.foldl (fun m v => max m v.frameCyc) 0

def ofPart (p : Nat) (l : List (Nat × Nat × Program)) : List Program := (l.filter (fun e => decide (e.1 = p))).map (·.2.2)
def topEnv (p f : Nat) (l : List (Nat × Nat × Program)) : Nat := (ofPart p l).foldl (fun m g => max m (envAt g f)) 0

/-- The left-hand side of check 3: the allowance and each partition's largest envelope. -/
def powerSum (f : Nat) (l : List (Nat × Nat × Program)) : Nat := (List.range 8).foldl (fun n p => n + topEnv p f l) 350

/-- The left-hand side of check 4 for a partition, in cycles of the core clock at f. -/
def roundCyc (p f : Nat) (l : List (Nat × Nat × Program)) : Nat :=
  (ofPart p l).foldl (fun n g => n + longest g + 200 * coreMHz f) 0
def roundUs (p f : Nat) (l : List (Nat × Nat × Program)) : Nat := ceilDiv (roundCyc p f l) (coreMHz f)

/-- A partition's round fits its smallest deadline. -/
def deadlineOk (p f : Nat) (l : List (Nat × Nat × Program)) : Bool :=
  (ofPart p l).all (fun g => decide (g.deadline = 0) || decide (roundCyc p f l ≤ g.deadline * coreMHz f))

/-- Physical ranges of a program's regions, in units of 2 MiB. -/
def regions (g : Program) : List (Nat × Nat) :=
  ((g.sect.reloc.map (·.toNat)).filter (fun v => bit v 56)).map (fun v => (relP v, relP v + relN v))

/-- Check 6: the regions lie apart from those of the partition's other programs, and with all save regions they fit its devices. -/
def memoryOk (s : State) (p : Nat) (g : Program) (others : List Program) : Bool :=
  let q := s.part p
  let devs := ((List.range 16).filter (fun d => ownsMem q d && !memMappedOut s d)).length
  (regions g).all (fun a => others.all (fun h => (regions h).all (fun b => decide (a.2 ≤ b.1) || decide (b.2 ≤ a.1)))) &&
    decide ((g :: others).foldl (fun n h => n + h.liveKib + (regions h).foldl (fun n r => n + 2048 * (r.2 - r.1)) 0) 0 ≤ devs * 2 ^ 26)

/-- The admission of program `g` in partition `p` beside the others: the DETAIL of the first check that fails, or 0; the point; the
round. -/
def admission (s : State) (p : Nat) (g : Program) (others : List (Nat × Nat × Program)) : Nat × Nat × Nat :=
  let l := others ++ [(p, 16, g)]
  let f := admPoint s (fixedNow s) l
  let q := s.part p
  let why :=
    if l.any (fun e => decide (f < e.2.2.ceil)) then 1
    else if s.pwr.fixed ∧ reqfix' s g < f then 2
    else if capNow s < powerSum f l then 3
    else if deadlineOk p f l = false then 4
    else if 4096 * ((List.range 16).filter (ownsMem q)).length < g.liveKib then 5
    else if memoryOk s p g (ofPart p others) = false then 6
    else 0
  (why, f, roundUs p f l)

/-- An admitted program no longer fits a point and a cap (R572): checks 1 to 4. The programs that set their partition's term are the
ones that break check 3. -/
def unfit (s : State) (fixed : Option Nat) (cap : Nat) (l : List (Nat × Nat × Program)) (e : Nat × Nat × Program) : Bool :=
  let f := admPoint s fixed l
  decide (f < e.2.2.ceil) || (fixed.isSome && decide (reqfix' s e.2.2 < f)) ||
    (decide (cap < powerSum f l) && decide (envAt e.2.2 f = topEnv e.1 f l)) || !deadlineOk e.1 f l

/-- The programs that no longer fit: each is set aside, and the rest looked at again. -/
def unfits (s : State) (fixed : Option Nat) (cap : Nat) : Nat → List (Nat × Nat × Program) → List (Nat × Nat × Program)
  | 0, _ => []
  | n + 1, l => match l.find? (unfit s fixed cap l) with
    | none => []
    | some e => e :: unfits s fixed cap n (l.filter (fun x => decide (x ≠ e)))

/-- The current point changes; the ledger keeps how long each point was in force (R621). -/
def setOp (k : Nat) (s : State) : State :=
  { s with pwr := { s.pwr with
      opNs := tblUpd nats s.pwr.opNs s.pwr.op (· + (s.tb - s.pwr.opAt)), opAt := s.tb, op := k } }

/-- The die moves down to the lowest clock ceiling (R599), through the points between; a step or a move to a point above that ceiling
is given up (R28). -/
def moveDown (s : State) : State :=
  let c := ceilNow s
  if s.pwr.op < c then
    let s1 := setOp c s
    { s1 with pwr := { s1.pwr with stepTo := none, goal := none, lastDown := some s.tb } }
  else
    let below := fun (k : Nat) => decide (c ≤ k)
    { s with pwr := { s.pwr with stepTo := s.pwr.stepTo.filter below, goal := s.pwr.goal.filter below } }

/-- Begin the next step toward a commanded point (R608). It moves to a faster point only while no source of the fast limit is
asserted (R606). -/
def toward (s : State) : State :=
  match s.pwr.goal with
  | none => s
  | some g =>
    if s.pwr.stepTo.isSome then s
    else if s.pwr.op < g then { s with pwr := { s.pwr with stepTo := some (s.pwr.op + 1) } }
    else if g < s.pwr.op ∧ s.pwr.src = 0 then { s with pwr := { s.pwr with stepTo := some (s.pwr.op - 1) } }
    else { s with pwr := { s.pwr with goal := none } }

/-! ## LOAD_PROGRAM and UNLOAD_PROGRAM -/

/-- A range of GDDR7 that exists. -/
def gddrRange (s : State) (a n : Nat) : Bool :=
  decide (a + n ≤ 0x010000000000) && (List.range 16).all (fun d =>
    !memMappedOut s d || decide (a + n ≤ d * 2 ^ 36) || decide ((d + 1) * 2 ^ 36 ≤ a))

/-! ### Save regions (R39, R570, R578, R703) -/

/-- Ranges of 2 MiB units of GDDR7 that no save region of partition `p` may use: devices it does not own or that are mapped out, the
regions of its programs and of `g`, and the trace buffer. -/
def saveTaken (s : State) (p : Nat) (g : Program) : List (Nat × Nat) :=
  let q := s.part p
  ((List.range 16).filter (fun d => !(ownsMem q d && !memMappedOut s d))).map (fun d => (d * 2 ^ 15, (d + 1) * 2 ^ 15)) ++
    (g :: (List.range 16).map q.prog).flatMap regions ++
    (if bit s.trc.ctl.toNat 1 then [(s.trc.base / 2 ^ 21, ceilDiv (s.trc.base + 2 ^ s.trc.slog) (2 ^ 21))] else [])

/-- The first `n` units from `u` up outside the ranges `taken`; fewer when the address space ends. -/
def freeUnits (taken : List (Nat × Nat)) : Nat → Nat → Nat → List Nat
  | 0, _, _ => []
  | fuel + 1, u, n =>
    if n = 0 ∨ 2 ^ 19 ≤ u then []
    else match taken.find? (fun r => decide (r.1 ≤ u) && decide (u < r.2)) with
      | some r => freeUnits taken fuel r.2 n
      | none => u :: freeUnits taken fuel (u + 1) (n - 1)

/-- A place for a save region of `kib` KiB beside those that `used` names; none when it does not fit. -/
def saveRegion (taken : List (Nat × Nat)) (used : List Nat) (kib : Nat) : Option (List Nat) :=
  let n := ceilDiv kib 2048
  let t := taken ++ used.map (fun u => (u, u + 1))
  let l := freeUnits t (n + t.length + 1) 0 n
  if l.length = n then some l else none

/-- The save region of program `k` of a partition moves, with its contents, when a new program's regions meet it. None when it has
nowhere to go. -/
def moveSave (p k : Nat) (taken : List (Nat × Nat)) (s : State) : Option State :=
  let g := (s.part p).prog k
  let hit := fun (u : Nat) => taken.any (fun r => decide (r.1 ≤ u) && decide (u < r.2))
  if g.save.any hit = false then some s
  else
    let used := ((List.range 16).filter (fun i => decide (i ≠ k))).flatMap (fun i => ((s.part p).prog i).save)
    match saveRegion taken used g.liveKib with
    | none => none
    | some l =>
      let n := if g.saved.isSome then g.liveKib * 1024 else 0
      some ((saveWrite l (n / 2 ^ 21 + 1) 0 (saveRead g.save s 0 n) s).updPart p (fun q => q.updProg k (fun g => { g with save := l })))

/-- The save regions of a partition make room for program `g`, which gets its own; none when one does not fit. -/
def placeSave (p : Nat) (g : Program) (s : State) : Option (Program × State) :=
  let taken := saveTaken s p g
  match (List.range 16).foldl (fun (r : Option State) k => r.bind (moveSave p k taken)) (some s) with
  | none => none
  | some s1 =>
    (saveRegion taken ((List.range 16).flatMap (fun i => ((s1.part p).prog i).save)) g.liveKib).map (fun l => ({ g with save := l }, s1))

/-- Put a program in slot `k`: its declared streams are opened, and when no program is in place it comes into the benches. -/
def place (p k : Nat) (g : Program) (s : State) : State :=
  let q := s.part p
  let s1 := s.updPart p (fun q => q.updProg k (fun _ => g))
  let s2 := forAll g.sect.streams (fun d s => s.updStream d.id (fun _ => streamEntry p (k + 1) d (benchAt q d.sbench))) s1
  if q.cur = 0 ∧ q.frame = .idle then installFresh p k s2 else s2

/-- LOAD_PROGRAM. `pkg` is what the package's sections hold. -/
def loadProgram (m : Nat) (pkg : Sections) (s : State) : State :=
  runCmd m 0x0101 true false (some 24) (fun l s =>
    checked m l [(0, 1, below 8), (1, 7, zero)] (fun s =>
      let p := fieldOf l 0 1
      let a := fieldOf l 8 8
      let len := fieldOf l 16 8
      withPart m p (fun s =>
        if gddrRange s a len = false then respond m 0x14 0 [] s
        else
          let q := s.part p
          let g := programAt s a pkg
          match findBelow 16 (fun k => decide ((q.prog k).js = 0)) with
          | none => respond m 9 1 [] s
          | some k => match packageWhy s p a len g with
            | none => respond m 0xB 0 [] s
            | some 0 =>
              let (why, f, us) := admission s p g (admitted s)
              if why ≠ 0 then respond m 0xC why [] s
              else match placeSave p g s with
                | none => respond m 9 3 [] s
                | some (g1, s1) => respond m 0 0 (leBytes k 1 ++ leBytes g.nvar 1 ++ leBytes f 1 ++ [0] ++ satBytes us 4) (moveDown (place p k g1 s1))
            | some d => respond m 0xA d [] s) s) s) s

/-- The paths of the program in place are to be released; the flits it left in its open-class queues go with it (R342). -/
def releaseProg (p : Nat) (s : State) : State :=
  let s1 := forAll (benchesOf s p) (fun b s => s.updBench b (fun x => { x with oq := [], pathAsk := [] })) s
  { s1 with clicker := { s1.clicker with paths := s1.clicker.paths.map (fun c =>
      if c.part = p ∧ c.freeAt = none then { c with users := 0, release := true } else c) } }

/-- Take a program out of its slot, with its save region and relocation regions (R578). -/
def unload (p k : Nat) (s : State) : State :=
  let here := decide ((s.part p).cur = k + 1)
  let s1 := s.updPart p (fun q => { q.updProg k (fun _ => Program.reset) with cur := if here then 0 else q.cur })
  if here then releaseProg p (putReloc p [] s1) else s1

/-- PART and PROG of a job command. -/
def progFields : List (Nat × Nat × (Nat → Bool)) := [(0, 1, below 8), (1, 1, below 16)]

/-- UNLOAD_PROGRAM (R578). -/
def unloadProgram (m : Nat) (s : State) : State :=
  runCmd m 0x0102 true false (some 2) (fun l s =>
    checked m l progFields (fun s =>
      let p := fieldOf l 0 1
      let k := fieldOf l 1 1
      withPart m p (fun s =>
        let g := (s.part p).prog k
        if g.js = 0 then respond m 0xD 0 [] s
        else if activeJob g then respond m 7 0 [] s
        else respond m 0 0 [] (unload p k s)) s) s) s

/-! ## START_JOB, STOP_JOB, QUERY_JOB (R574 to R577) -/

/-- The partition that holds a unit (R674). -/
def unitPart (s : State) (cls num : Nat) : Option Nat :=
  if cls = 0 ∨ cls = 3 then partOf s (num / 4)
  else if cls = 1 ∨ cls = 2 then partOf s num
  else if cls = 4 then memOwner s num
  else if cls = 5 then findBelow 8 (fun p => ownsWelt (s.part p) num)
  else none

/-- A unit of the partition is fenced, or a repair in it waits (R656, R673, R677). -/
def fencedPart (s : State) (p : Nat) : Bool :=
  s.faults.any (fun u => u.fenced && decide (unitPart s u.cls u.num = some p))

/-- START_JOB (R575). -/
def startJob (m : Nat) (s : State) : State :=
  runCmd m 0x0103 true false (some 16) (fun l s =>
    checked m l (progFields ++ [(2, 2, zero)]) (fun s =>
      let p := fieldOf l 0 1
      let k := fieldOf l 1 1
      withPart m p (fun s =>
        let g := (s.part p).prog k
        if g.js = 0 then respond m 0xD 0 [] s
        else if activeJob g ∨ fencedPart s p ∨ partReady (s.part p) = false then respond m 7 0 [] s
        else
          let (why, _, _) := admission s p g ((admitted s).filter (fun e => !(decide (e.1 = p) && decide (e.2.1 = k))))
          if why ≠ 0 then respond m 0xC why [] s
          else respond m 0 0 [] (moveDown (s.updPart p (fun q => q.updProg k (fun g =>
            { g with js := 2, stopBy := 0, stopWhy := 0,
                     job := { Job.reset with jobid := fieldOf l 4 4, framesAsked := fieldOf l 8 8 } }))))) s) s) s

/-- STOP_JOB (R576, R577). -/
def stopJob (m : Nat) (s : State) : State :=
  runCmd m 0x0104 true false (some 3) (fun l s =>
    checked m l (progFields ++ [(2, 1, below 2)]) (fun s =>
      let p := fieldOf l 0 1
      let k := fieldOf l 1 1
      withPart m p (fun s =>
        let g := (s.part p).prog k
        if activeJob g = false then respond m 0xD 0 (jobBytes p k g.job) s
        else
          let s1 := s.updPart p (fun q => q.updProg k (fun g => { g with js := 3, stopBy := m + 1 }))
          if fieldOf l 2 1 = 0 then s1
          else if (s.part p).cur = k + 1 ∧ (s.part p).frame = .running then discardFrame p 3 s1
          else jobEnd p k 3 s1) s) s) s

/-- QUERY_JOB (R574, R581). -/
def queryJob (m : Nat) (s : State) : State :=
  runCmd m 0x0105 true false (some 2) (fun l s =>
    checked m l progFields (fun s =>
      let p := fieldOf l 0 1
      let k := fieldOf l 1 1
      withPart m p (fun s =>
        let g := (s.part p).prog k
        respond m 0 0 (leBytes g.js 1 ++ List.replicate 7 0 ++ jobBytes p k g.job) s) s) s) s

/-! ## The commands -/

/-- LOAD_PROGRAM (R568). -/
def execLoadProgram (m : Nat) (pkg : Sections) (s : State) : Ans := .next (loadProgram m pkg s)
/-- UNLOAD_PROGRAM (R578). -/
def execUnloadProgram (m : Nat) (s : State) : Ans := .next (unloadProgram m s)
/-- START_JOB (R575). -/
def execStartJob (m : Nat) (s : State) : Ans := .next (startJob m s)
/-- STOP_JOB (R577). -/
def execStopJob (m : Nat) (s : State) : Ans := .next (stopJob m s)
/-- QUERY_JOB (R574). -/
def execQueryJob (m : Nat) (s : State) : Ans := .next (queryJob m s)

end Sys2Proof.Machine
end

