-- ==== Sys2Proof/Machine/Cobbler.lean ====
section
/-! DEFINITION. The MRAM records and the cobbler: how the repair map and the failures of a start-up make the logical map, how a unit
is found behind its number, and what repairs it (R637 to R644, R648 to R656, R670, R673, R674). -/

namespace Sys2Proof.Machine

/-! ## Records (R637) -/

/-- Replace a record. -/
def setRec (r : Nat) (x : Rec) (s : State) : State := { s with boot := { s.boot with recs := tblSet recDefault s.boot.recs r x } }

/-- The generation of a record; for REC 5, the counter (R583, R664). -/
def recGen (s : State) (r : Nat) : Nat := (s.recd r).gen

/-- A record changes: a generation is consumed and RECORD_CHANGED logged (R583, R643). `n` changes at once, for the counter. -/
def changeRec (r n : Nat) (body : List Byte) (s : State) : State :=
  let x := s.recd r
  let y : Rec := { gen := x.gen + n, left := x.left - n, body := body }
  logEvent 18 0xFF 0 (leBytes r 1 ++ [0] ++ leBytes y.gen 2 ++ leBytes y.left 2) (setRec r y s)

/-- The byte at offset `o` of the repair map. -/
def mapByte (body : List Byte) (o : Nat) : Nat := fieldOf body o 1
def mapBypass (body : List Byte) (y : Nat) : Nat := mapByte body y
def mapSpare (body : List Byte) (p y : Nat) : Nat := mapByte body (8 + 17 * y + p)

/-! ## The logical map (R649, R653, R654) -/

/-- The cores of a physical station that cannot be used: those that failed, and one that the map excludes for a lasting fault. -/
def lostCores (body : List Byte) (bad : List (Nat × Nat × Nat)) (p y : Nat) : List Nat :=
  (List.range 5).filter (fun k => bad.contains (p, y, k) || (decide (mapSpare body p y = k) && decide (k ≠ 4)))

/-- A physical station is bad: its bench logic failed, or two of its cores. -/
def stationBad (body : List Byte) (bad : List (Nat × Nat × Nat)) (stations : List (Nat × Nat)) (p y : Nat) : Bool :=
  stations.contains (p, y) || decide (2 ≤ (lostCores body bad p y).length)

/-- The bypassed column of row y; none when the row cannot be hidden. -/
def rowBypass (body : List Byte) (bad : List (Nat × Nat × Nat)) (stations : List (Nat × Nat)) (y : Nat) : Option Nat :=
  let b := mapBypass body y
  match (List.range 17).filter (fun p => stationBad body bad stations p y && decide (p ≠ b)) with
  | [] => some b
  | [p] => if b = 16 ∧ stationBad body bad stations 16 y = false then some p else none
  | _ => none

/-- The core excluded at a physical station. -/
def spareCore (body : List Byte) (bad : List (Nat × Nat × Nat)) (p y : Nat) : Nat :=
  match lostCores body bad p y with
  | [k] => k
  | _ => mapSpare body p y

/-- The map of a record's body with some failures added, as a body; none when a row cannot be hidden. -/
def addFailures (body : List Byte) (bad : List (Nat × Nat × Nat)) (stations : List (Nat × Nat)) (memOut weltOut : Nat) : Option (List Byte) :=
  if (List.range 8).all (fun y => (rowBypass body bad stations y).isSome) then
    some ((List.range 8).map (fun y => BitVec.ofNat 8 ((rowBypass body bad stations y).getD 16)) ++
      (List.range 136).map (fun i => BitVec.ofNat 8 (spareCore body bad (i % 17) (i / 17))) ++
      leBytes (fieldOf body 0x90 2 ||| memOut) 2 ++ leBytes (fieldOf body 0x92 1 ||| weltOut) 1 ++ List.replicate 5 0)
  else none

/-- Put a map's rows and stations in force (R649, R653). -/
def putMap (body : List Byte) (s : State) : State :=
  { s with boot := { s.boot with
      bypass := (List.range 8).foldl (fun t y => tblSet (fun _ => 16) t y (mapBypass body y)) s.boot.bypass
      spare := (List.range 136).foldl (fun t i => tblSet (fun _ => 4) t i (mapByte body (8 + i))) s.boot.spare } }

/-- Step 9: the map in force from the repair map and the failures of this start-up; false when a row cannot be hidden. -/
def cobble (s : State) : Bool × State :=
  match addFailures (s.recd 2).body s.boot.badCores s.boot.badStations 0 0 with
  | none => (false, s)
  | some m =>
    let s1 := putMap m s
    (true, { s1 with boot := { s1.boot with
      memOut := s1.boot.memOut ||| fieldOf m 0x90 2, weltOut := s1.boot.weltOut ||| fieldOf m 0x92 1 } })

/-! ## From logical to physical numbers (R649, R653, R670) -/

/-- The physical column of logical station (x, y), and the physical core of a logical core. -/
def physCol (body : List Byte) (b : Nat) : Nat := if colOf b < mapBypass body (rowOf b) then colOf b else colOf b + 1
def physCore (body : List Byte) (c : Nat) : Nat :=
  let b := benchOf c
  let k := mapSpare body (physCol body b) (rowOf b)
  if c % 4 < k then c % 4 else c % 4 + 1

/-- The logical station of a physical one, and the logical core of a physical core: none for the ones left out. -/
def logBench (body : List Byte) (p y : Nat) : Option Nat :=
  let b := mapBypass body y
  if p = b then none else some (y * 16 + if p < b then p else p - 1)
def logCore (body : List Byte) (p y k : Nat) : Option Nat :=
  let e := mapSpare body p y
  match logBench body p y with
  | some b => if k = e then none else some (4 * b + if k < e then k else k - 1)
  | none => none

/-- The map in force, as a body (R670). -/
def mapNow (s : State) : List Byte :=
  (List.range 8).map (fun y => BitVec.ofNat 8 (tblGet (fun _ => 16) s.boot.bypass y)) ++
    (List.range 136).map (fun i => BitVec.ofNat 8 (tblGet (fun _ => 4) s.boot.spare i)) ++
    leBytes s.boot.memOut 2 ++ leBytes s.boot.weltOut 1 ++ List.replicate 5 0

/-! ## Repairs (R669, R673, R674) -/

/-- The bench of a unit that is bypassed with its station. -/
def unitBench (cls num : Nat) : Nat := if cls = 3 then num / 4 else num

/-- The repair map with a unit's repair added to `body`; `none` when it cannot be hidden. -/
def repaired (s : State) (body : List Byte) (cls num : Nat) : Option (List Byte) :=
  let now := mapNow s
  if cls = 0 then addFailures body [(physCol now (benchOf num), rowOf (benchOf num), physCore now num)] [] 0 0
  else if cls ≤ 3 then addFailures body [] [(physCol now (unitBench cls num), rowOf (unitBench cls num))] 0 0
  else if cls = 4 then addFailures body [] [] (2 ^ num) 0
  else if cls = 5 then addFailures body [] [] 0 (2 ^ num)
  else some body

/-- Compute a unit's repair and write it to the repair map; the number says what is owed: 1 a reset, 2 no generation left, 3 not to be
hidden. -/
def writeRepair (cls num : Nat) (s : State) : Nat × State :=
  let x := s.recd 2
  match repaired s x.body cls num with
  | none => (3, s)
  | some m =>
    if m = x.body then (1, s)
    else if x.left = 0 then (2, s)
    else (1, changeRec 2 1 m s)

/-- The logical stations of a row whose physical station two maps give differently. -/
def moved (old new : List Byte) (y : Nat) : List Nat :=
  ((List.range 16).map (fun x => y * 16 + x)).filter (fun b => decide (physCol old b ≠ physCol new b))

/-- A unit's repair may be applied at a reset of partition `p` (R656). -/
def mayRepair (s : State) (p : Nat) (u : Unit_) : Bool :=
  let new := (s.recd 2).body
  if u.cls = 0 ∧ moved (mapNow s) new (rowOf (benchOf u.num)) = [] then true
  else if u.cls ≤ 3 then
    let b := if u.cls = 0 then benchOf u.num else unitBench u.cls u.num
    (moved (mapNow s) new (rowOf b)).all (fun d => decide (partOf s d = some p) || (partOf s d).isNone)
  else decide (u.cls ≤ 5)

/-- The repair map comes into force for the row or the station of a unit, or its port is mapped out. -/
def applyRepair (u : Unit_) (s : State) : State :=
  let new := (s.recd 2).body
  if u.cls ≤ 3 then
    let b := if u.cls = 0 then benchOf u.num else unitBench u.cls u.num
    let y := rowOf b
    let ps := if moved (mapNow s) new y = [] then [physCol new b] else List.range 17
    { s with boot := { s.boot with
        bypass := tblSet (fun _ => 16) s.boot.bypass y (mapBypass new y)
        spare := ps.foldl (fun t p => tblSet (fun _ => 4) t (17 * y + p) (mapSpare new p y)) s.boot.spare } }
  else if u.cls = 4 then
    logEvent 8 ((memOwner s u.num).getD 0xFF) 1 [0, BitVec.ofNat 8 u.num]
      (recheck { s with boot := { s.boot with memOut := setBits s.boot.memOut u.num u.num 1 } })
  else if u.cls = 5 then recheck (portDown u.num { s with boot := { s.boot with weltOut := setBits s.boot.weltOut u.num u.num 1 } })
  else s

/-- The unit behind a number is another one, or repaired: its fence falls and its history starts anew. -/
def clearUnits (sel : Unit_ → Bool) (s : State) : State := { s with faults := s.faults.filter (fun u => !sel u) }

/-- Apply at a reset the repairs that wait for it and that `may` permits. -/
def applyRepairs (may : State → Unit_ → Bool) (s : State) : State :=
  let l := s.faults.filter (fun u => u.fenced && decide (u.repair = 1) && may s u)
  clearUnits (fun u => l.contains u) (forAll l applyRepair s)

end Sys2Proof.Machine
end

