-- ==== Sys2Proof/Machine/Resets.lean ====
section
/-! DEFINITION. The five reset scopes: the reset point, what each scope clears and keeps, and the end of a reset (R679 to R689). -/

namespace Sys2Proof.Machine

/-! ## What a scope clears (R680) -/

/-- Core scope: contexts, stacks, tiles, accumulators, registers, decode table, micro-store, CORE_CYC, the arithmetic counters,
lockup. The activation table and the samples at the assay unit stay. -/
def clearCore (c : Nat) (s : State) : State :=
  let s1 := s.updCore c (fun k =>
    { Core.reset with act := k.act, samplesQ := k.samplesQ, cycFrom := k.cycFrom.map (fun _ => coreNow s) })
  s1.updBench (benchOf c) (fun x =>
    [0x00, 0x08, 0x10, 0x18].foldl (fun x o => x.setR (0x4000 + c % 4 * 0x40 + o) 0) (x.setR (0x4C00 + c % 4 * 8) 0))

/-- Registers of a bench control block that a bench reset keeps: assay, frame, relocation, CXL window, stockroom connections; BENCH_CNT_ABSORB;
and the largest occupancies since partition reset (R347, R492). -/
def keptByBench (o : Nat) : Bool :=
  (decide (0x4400 ≤ o) && decide (o < 0x4B00)) || (decide (0x6000 ≤ o) && decide (o < 0x6300)) || decide (o = 0x6A10) ||
    decide (o = 0x5008) || decide (o = 0x7540)

/-- Those that a partition reset keeps. -/
def keptByPart (o : Nat) : Bool := (decide (0x6000 ≤ o) && decide (o < 0x6200)) || decide (o = 0x6A10)

/-- Clear bytes of the memories, and their errors. -/
def clearMem (a n : Nat) (s : State) : State :=
  { s with mem := memZero s.mem a n, bad := s.bad.filter (fun e => decide (8 * e.1 + 8 ≤ a ∨ a + n ≤ 8 * e.1)) }

/-- What the bench still has to write is written: the merging buffer's entries and the uncached stores (R686). -/
def flushBench (b : Nat) (s : State) : State :=
  let x := s.bench b
  let go := fun (line : Nat) (data : List Byte) (mask : List Bool) (s : State) =>
    if mapped s (line * 64) then ringWriteMask (line * 64) (data.zip mask) s else s
  let s1 := forAll (x.mb.filter (fun e => decide (e.stage = 0))) (fun e s => go e.line e.data e.mask s) s
  forAll (x.uitems.filter (fun u => u.write && decide (u.stage = 0))) (fun u s => go u.line u.data u.mask s) s1

/-- Bench scope. -/
def clearBench (b : Nat) (s : State) : State :=
  let s1 := forAll (List.range 4) (fun i s => clearCore (4 * b + i) s) (flushBench b s)
  (clearMem (winBase b) 0x200000 s1).updBench b (fun x =>
    { Bench.reset with
      reg := x.reg.filter (fun e => keptByBench e.1), act := x.act, pattern := x.pattern, conns := x.conns, connOwn := x.connOwn, pathAsk := x.pathAsk
      trace := x.trace, traceLost := x.traceLost })

/-- The writes on the ring of the benches of a scope are completed at their target, those at a ring side having been made already; their
reads, responses and requests are dropped (R686). -/
def drainRing (sel : Nat → Bool) (s : State) : State :=
  let acc := fun (p : RingPkt) => match p.msg with
    | .access b _ _ _ _ _ _ _ => sel b
    | .response b _ _ _ _ => sel b
    | .check c _ => sel (benchOf c)
    | .answer c _ _ => sel (benchOf c)
    | .rabort c _ _ => sel (benchOf c)
    | .closed c _ _ _ _ => sel (benchOf c)
    | .msg m => sel (benchOf (msgCore m))
    | .request r => sel (reqBench r)
    | .record c _ _ => sel (benchOf c)
    | .host _ | .hostBack _ _ _ | .trace _ _ | .slip _ _ _ => sel 128
  let s1 := forAll (s.ring.filter acc) (fun p s => match p.msg with
    | .access _ _ true line data mask false _ => if mapped s (line * 64) then ringWriteMask (line * 64) (data.zip mask) s else s
    | .host r => if r.write && !r.err && mapped s r.addr then ringWrite r.addr r.data s else s
    | .response b _ _ _ _ => absorb b s
    | _ => s) s
  { s1 with
    ring := s1.ring.filter (fun p => !acc p), ringSide := s1.ringSide.filter (fun p => !acc p)
    clicker := { s1.clicker with queue := s1.clicker.queue.filter (fun r => !sel (reqBench r)) } }

/-- Programs after a reset of their partition or of a part of it: LOADED, to start from the package's initial state (R681). -/
def freshProgs (p : Nat) (s : State) : State :=
  s.updPart p (fun q =>
    (List.range 16).foldl (fun q k => if (q.prog k).js = 0 then q else q.updProg k (fun g => { g with js := 1, saved := none, fresh := true }))
      { q with cur := 0 })

/-- Streams of a partition. -/
def streamsOf (s : State) (p : Nat) : List Nat := (s.streams.filter (fun e => decide (e.2.state ≠ 0) && decide (e.2.part = p))).map (·.1)

/-- Close a stream entry: what its stations hold of it goes. -/
def closeEntry (id : Nat) (s : State) : State :=
  (forAll (List.range 8) (fun w s => s.updWelt w (fun y =>
    { y with tx := y.tx.filter (fun p => decide (p.stream ≠ id)), rx := y.rx.filter (fun p => decide (p.stream ≠ id))
             rxUsed := y.rxUsed - ((y.rx.filter (fun p => decide (p.stream = id))).map (·.data.length)).sum })) (touch s)).updStream id
    (fun _ => Stream.reset)

/-- Partition scope: its benches, local memories, routers, pattern, connections, cuts, ports, streams. Its definition, relocation
regions, CXL window and loaded programs stay. -/
def clearPart (p : Nat) (s : State) : State :=
  let q := s.part p
  let s1 := drainRing (fun b => q.holds b) s
  let s2 := forAll (benchesOf s p) clearBench s1
  let s3 := forAll (coresOf s p) (fun c s => clearMem (localBase c) 0x100000 (s.updCore c (fun k => { k with samplesQ := [] }))) s2
  let s4 := forAll (benchesOf s p) (fun b s => s.updBench b (fun x =>
    { x with reg := x.reg.filter (fun e => keptByPart e.1), pattern := [], conns := [], connOwn := [], pathAsk := [] })) s3
  let s5 := forAll ((List.range 16).filter (ownsMem q)) (fun d s => s.updPort d (fun x => { Port.reset with actBytes := x.actBytes })) s4
  let s6 := forAll (streamsOf s p) closeEntry s5
  let s7 := { s6 with clicker := { s6.clicker with paths := s6.clicker.paths.filter (fun c => decide (c.part ≠ p)) } }
  freshProgs p (s7.updPart p (fun q =>
    { q with
      frame := .idle, discard := 0, idx := 0, turn := 0, first := none, fn := 0, epoch := 0, started := false, syncWait := none
      synced := false, marked := false, faultReset := false, resetting := false }))

/-- The benches with nothing but the relocation and CXL window registers of their partitions, which no narrower scope clears. -/
def windowsOnly (s : State) : Tbl Bench :=
  (forAll (s.benches.map (·.1)) (fun b s => s.updBench b (fun x =>
    { Bench.reset with reg := if (partOf s b).isSome then x.reg.filter (fun e => decide (0x6000 ≤ e.1) && decide (e.1 < 0x6200)) else [] })) s).benches

/-- Die scope: every bench of Wetar, the ring, the clicker, the trace collector; the root PLL relocks, and step 9 of start-up makes the
logical map anew. A row that cannot be hidden fails the module (R682). -/
def clearDie (s : State) : State :=
  let s1 := drainRing (fun _ => true) (forAll (List.range 128) flushBench s)
  let s2 := forAll (s1.streams.map (·.1)) closeEntry s1
  let s3 := forAll (List.range 8) (fun p s => if (s.part p).live then
    freshProgs p (s.updPart p (fun q =>
      { q with
        frame := .idle, discard := 0, idx := 0, turn := 0, first := none, fn := 0, epoch := 0, started := false, syncWait := none
        synced := false, marked := false, faultReset := false, resetting := false, ramp := 0 })) else s) s2
  let s4 := { s3 with
    mem := s3.mem.filter (fun e => decide (e.1 < 0x050000000000)), bad := []
    cores := [], benches := windowsOnly s3, flits := [], arrivals := [], ports := [], ringTurn := [], clicker := Clicker.reset
    trc := { Trace.reset with lanes := s3.trc.lanes }, board := { s3.board with syncTb := 0 } }
  let s5 := applyRepairs (fun _ _ => true) s4
  match cobble s5 with
  | (true, s6) => lockWire s6
  | (false, s6) => { s6 with boot := { s6.boot with state := 3, fail := 3 }, board := { s6.board with alert := true } }

/-- Module scope (R680, R683): everything outside the always-on island. Start-up runs from step 2; while PERST_N is low it waits at the
end of step 1 (R720). The timebase, the fault history, the record of a thermal trip and the MRAM stay. -/
def moduleReset (s : State) : State :=
  { State.reset with
    tb := s.tb, free := s.free, pending := s.pending
    mem := s.mem.filter (fun e => decide (0x010000000000 ≤ e.1) && decide (e.1 < 0x050000000000))
    faults := s.faults.filter (fun u => !(u.fenced && (decide (u.repair = 3) || decide (u.repair = 1))))
    pwr := { Power.reset with src := s.pwr.src &&& 0x14 }
    boot := { Boot.reset with
      recs := s.boot.recs, images := s.boot.images, selector := s.boot.selector, step := if s.board.perst then 2 else 1 }
    board := { s.board with wetarOn := false, thermTrip := false, coreLock := false, alert := false, held := false, syncTb := 0 } }

/-! ## The reset point (R686) -/

/-- The send side of a core: its threads give up what holds them, its channels are aborted as CABORT does, its descriptors as PABORT
does. -/
def pointCore (c : Nat) (s : State) : State :=
  let s1 := forAll (List.range 8) (fun i s => if ((s.core c).ctx i).st = .lock then s else dropWait ⟨c, i⟩ s) s
  let s2 := forAll (List.range 16) (fun h s => abortOrDrain c h s) s1
  forAll (List.range 16) (fun i s => abortDesc c i s) s2

/-- A channel into a receive queue of the scope from a sender outside it: the sender's handle becomes PEER_RESET and its path is
released. -/
def peerReset (c q : Nat) (inside : Nat → Bool) (s : State) : State :=
  let x := s.queueOf c q
  let y := s.chanOf x.score x.shand
  if x.state = 1 ∧ inside x.score = false ∧ (y.state = 2 ∨ y.state = 3) ∧ y.dst = c ∧ y.dq = q then
    endSends x.score x.shand 5 (releasePaths x.score x.shand (s.updChanOf x.score x.shand (fun y => { y with state := 7 })))
  else s

/-- The benches of a scope. -/
def scopeBenches (s : State) (sc : Scope) : List Nat := (List.range 128).filter (scopeBench s sc)

/-- The cores of a scope. -/
def scopeCores (s : State) (sc : Scope) : List Nat :=
  match sc with
  | .core c => if c < 512 then [c] else []
  | sc => (scopeBenches s sc).flatMap (fun b => [4 * b, 4 * b + 1, 4 * b + 2, 4 * b + 3])

/-- The send ends of a partition: descriptors end in FAULT with WHY 5, held packets are dropped, the entry is FREE. -/
def pointStreams (p : Nat) (s : State) : State :=
  forAll (streamsOf s p) (fun id s =>
    if (s.stream id).state = 2 then s
    else closeEntry id (forAll (openDescs s id) (fun q s => s.updSlotOf q.1 q.2 (fun x => { x with state := 7, why := 5, out := 0 })) s)) s

/-- A stopped pattern goes on from its index, for the open-class queues that a reset waits for (R686). -/
def drainAgain (p : Nat) (s : State) : State :=
  if (s.part p).frame = .idle ∧ (benchesOf s p).any (queueDrains s) then
    s.updPart p (fun q => { q with frame := .quiet s.now, begun := s.now - q.idx })
  else s

/-- RESET_POINT: the traffic of the scope is divided. -/
def resetPoint (sc : Scope) (s : State) : State :=
  if s.resets.any (fun r => decide (r.scope = sc) && !r.point) = false then s
  else if sc = .module then moduleReset s
  else
    let inside := scopeCore s sc
    let s1 := { s with resets := s.resets.map (fun r => if r.scope = sc then { r with point := true } else r) }
    let s2 := match sc with
      | .part p => pointStreams p s1
      | .die => forAll (List.range 8) pointStreams s1
      | _ => s1
    let s3 := forAll (scopeCores s sc) pointCore s2
    let s4 := forAll (scopeBenches s sc) (fun b s =>
      forAll (List.range 64) (fun k s => peerReset (4 * b + k / 16) (k % 16) inside s) s) s3
    forAll (List.range 8) drainAgain (forAll (scopeBenches s sc) (fun b s => s.updBench b (fun x => { x with watches := [] })) s4)

/-! ## The end (R684, R685) -/

/-- A flit is of the scope: of its benches, or the reply to a descriptor posted in it. -/
def flitOf (s : State) (sc : Scope) (station : Nat) (f : Flit) : Bool :=
  scopeBench s sc station || scopeBench s sc f.srcb || (match f.use with
    | .porter c _ _ => scopeCore s sc c
    | .uload c _ => scopeCore s sc c
    | _ => false)

/-- The traffic that a scope drains is gone. Partition scope and wider wait for the quiet period; the messages that left channels of
the scope have been written, and its open-class queues are empty. -/
def drained (s : State) (sc : Scope) : Bool :=
  let still := fun (p : Nat) => !(s.part p).live || decide ((s.part p).frame = .idle)
  !s.flits.any (fun f => flitOf s sc f.station f.flit) && !s.arrivals.any (fun a => flitOf s sc a.station a.flit) &&
    (scopeCores s sc).all (fun c => (List.range 16).all (fun h =>
      let x := s.chanOf c h
      decide (x.state ≠ 5) || decide (x.placed = x.left))) &&
    (scopeCores s sc).all (fun c => !queueDrains s (benchOf c)) &&
    (match sc with
      | .part p => still p
      | .die => (List.range 8).all still
      | _ => true)

/-- Aborting channels whose messages are all written reach ABORTED before their handles are cleared. -/
def finishAborts (l : List Nat) (s : State) : State :=
  forAll l (fun c s => forAll (List.range 16) (fun h s => channelAbortDone c h s) s) s

/-- Replies owed to descriptors and fills of the scope are absorbed. -/
def dropReplies (sc : Scope) (s : State) : State :=
  forAll (List.range 16) (fun d s => s.updPort d (fun x => { x with replies := x.replies.filter (fun r => !flitOf s sc r.bench r.flit) })) s

/-- The partition of a core or bench scope. -/
def scopePart (s : State) : Scope → Option Nat
  | .core c => partOf s (benchOf c)
  | .bench b => partOf s b
  | .part p => some p
  | _ => none

/-- Clear a scope. -/
def clearScope (sc : Scope) (s : State) : State :=
  match sc with
  | .core c => lockWire (clearCore c (finishAborts [c] s))
  | .bench b => lockWire (clearBench b (drainRing (fun d => decide (d = b)) (dropReplies sc (finishAborts (scopeCores s sc) s))))
  | .part p => lockWire (clearPart p (dropReplies sc s))
  | .die => clearDie s
  | .module => s

/-- RESET_END: the drains have finished; the scope is cleared, the repairs that waited for this reset come into force, and the commands
that asked for it are answered. A partition that was to be destroyed is gone, and the clocks of its benches are gated (R374). -/
def resetEnd (sc : Scope) (s : State) : State :=
  match s.resets.find? (fun r => decide (r.scope = sc) && r.point) with
  | none => s
  | some r =>
    if drained s sc = false ∨ sc = .module then s
    else
      let gone := r.mbox.any (fun m => decide ((s.mbox m).cmd = 0x0202))
      let s1 := { clearScope sc s with resets := (clearScope sc s).resets.filter (fun x => decide (x ≠ r)) }
      let s2 := match scopePart s sc with
        | some p => freshProgs p s1
        | none => s1
      let s3 := match sc with
        | .part p => if gone then (forAll (coresOf s p) clockOff s2).updPart p (fun q => { Part.reset with energy := q.energy }) else applyRepairs (fun s u => decide (unitPart s u.cls u.num = some p) && mayRepair s p u) s2
        | _ => s2
      forAll r.mbox (fun m s => respond m 0 0 [] s) s3

/-- Begin a reset. -/
def beginReset (sc : Scope) (mbox : List Nat) (s : State) : State :=
  let s1 := { s with resets := s.resets ++ [{ scope := sc, point := false, at_ := s.tb, mbox := mbox }] }
  match sc with
  | .part p => s1.updPart p (fun q => { q with resetting := true })
  | _ => s1

/-- A module reset is asked for: after a thermal trip it is held while a sensor reads 90 °C or more (R602, R683). -/
def askModuleReset (s : State) : State :=
  if s.board.thermTrip ∧ 90 ≤ s.pwr.tmax then { s with board := { s.board with held := true } } else moduleReset s

/-- HELD_MODULE_RESET_START: every sensor reads below 90 °C. -/
def heldStart (tmax : Nat) (s : State) : State :=
  if s.board.held ∧ tmax < 90 then moduleReset s else s

/-! ## The commands -/

/-- RESET_POINT (R686). -/
def execResetPoint (sc : Scope) (s : State) : Ans := .next (resetPoint sc s)
/-- RESET_END (R684). -/
def execResetEnd (sc : Scope) (s : State) : Ans := .next (resetEnd sc s)
/-- HELD_MODULE_RESET_START (R683). -/
def execHeldModuleResetStart (tmax : Nat) (s : State) : Ans := .next (heldStart tmax s)

end Sys2Proof.Machine
end

