-- ==== Sys2Proof/Machine/Commands.lean ====
section
/-! DEFINITION. Mailbox commands on partitions, resets, the cap, tallies, trace, counters and records (R371, R470, R488, R556 to R561,
R572, R594, R608, R625, R637 to R644, R679, R703, R707 to R711). -/

namespace Sys2Proof.Machine

/-! ## Partitions and resets -/

/-- Rectangles of two partitions meet. -/
def overlaps (q : Part) (x0 y0 w h : Nat) : Bool :=
  q.live && decide (x0 < q.x0 + q.w) && decide (q.x0 < x0 + w) && decide (y0 < q.y0 + q.h) && decide (q.y0 < y0 + h)

/-- Why CREATE_PARTITION refuses a partition; 0 for none: overlap, no usable memory port, VF bound. -/
def rectWhy (s : State) (new : Part) : Nat :=
  if (List.range 8).any (fun p => overlaps (s.part p) new.x0 new.y0 new.w new.h) then 1
  else if (List.range 16).all (fun d => !ownsMem new d || memMappedOut s d) then 2
  else if new.vf ≠ 0 ∧ (boundPart s new.vf).isSome then 3
  else 0

/-- The CXL window of a partition in its benches: BENCH_CXLWIN (R388). -/
def putWindow (p : Nat) (q : Part) (s : State) : State :=
  forAll (benchesOf s p) (fun b s => s.updBench b (fun x =>
    x.setR 0x6100 (BitVec.ofNat 64 (q.cxlBase + q.cxlSize * 2 ^ 12 + b2n q.cxlWr * 2 ^ 25)))) s

/-- CREATE_PARTITION (R371 to R373, R385, R557). -/
def createPartition (m : Nat) (s : State) : State :=
  runCmd m 0x0201 false false (some 12) (fun l s =>
    let x0 := fieldOf l 1 1
    let y0 := fieldOf l 2 1
    checked m l
      [(0, 1, below 8), (1, 1, fun v => decide (v < 16) && decide (v % 2 = 0)), (2, 1, fun v => decide (v < 8) && decide (v % 2 = 0)),
        (3, 1, fun v => decide (2 ≤ v) && decide (v % 2 = 0) && decide (x0 + v ≤ 16)),
        (4, 1, fun v => decide (2 ≤ v) && decide (v % 2 = 0) && decide (y0 + v ≤ 8)),
        (5, 1, below 8), (6, 1, below 9), (7, 1, zero), (8, 2, below 4096), (10, 2, below 4097)] (fun s =>
      let p := fieldOf l 0 1
      let fl := fieldOf l 5 1
      let new : Part :=
      { Part.reset with
        live := true, x0 := x0, y0 := y0, w := fieldOf l 3 1, h := fieldOf l 4 1, lockSig := bit fl 0, sigReq := bit fl 1
        cxlWr := bit fl 2, vf := fieldOf l 6 1, cxlBase := fieldOf l 8 2, cxlSize := fieldOf l 10 2, energy := (s.part p).energy }
      if (List.range 8).all (fun p => (s.part p).live) then respond m 8 4 [] s
      else if (s.part p).live then respond m 7 0 [] s
      else if rectWhy s new ≠ 0 then respond m 8 (rectWhy s new) [] s
      else respond m 0 0 [] (putWindow p new (putReloc p [] (s.updPart p (fun _ => new))))) s) s

/-- Join the reset of a scope that is under way, or begin one (R685). -/
def joinReset (sc : Scope) (m : Nat) (s : State) : State :=
  if s.resets.any (fun r => decide (r.scope = sc)) then
    { s with resets := s.resets.map (fun r => if r.scope = sc then { r with mbox := m :: r.mbox } else r) }
  else beginReset sc [m] s

/-- DESTROY_PARTITION (R558): the reset's end answers it. -/
def destroyPartition (m : Nat) (s : State) : State :=
  runCmd m 0x0202 false false (some 1) (fun l s =>
    checked m l [(0, 1, below 8)] (fun s =>
      let p := fieldOf l 0 1
      if (s.part p).live = false then respond m 6 0 [] s
      else if anyActive (s.part p) then respond m 7 0 [] s
      else joinReset (.part p) m (forAll (List.range 16) (fun k s => unload p k s) s)) s) s

/-- A job of the partition of a scope goes on. -/
def busyScope (s : State) (sc : Scope) : Bool :=
  match sc with
  | .module => false
  | .die => (List.range 8).any (fun p => anyActive (s.part p))
  | _ => match scopePart s sc with
    | some p => anyActive (s.part p)
    | none => false

/-- The scope that RESET_SCOPE names. -/
def scopeNamed (k t : Nat) : Scope :=
  if k = 0 then .core t else if k = 1 then .bench t else if k = 2 then .part t else if k = 3 then .die else .module

/-- RESET_SCOPE (R679, R683 to R685). -/
def resetScope (m : Nat) (s : State) : State :=
  runCmd m 0x0203 true false (some 4) (fun l s =>
    let k := fieldOf l 0 1
    checked m l
      [(0, 1, below 5), (1, 1, zero),
        (2, 2, fun v => decide (v < if k = 0 then 512 else if k = 1 then 128 else if k = 2 then 8 else 1))] (fun s =>
      let sc := scopeNamed k (fieldOf l 2 2)
      let f := funcOf s m
      let go := fun (s : State) =>
        if busyScope s sc then respond m 7 0 [] s
        else if sc = .module then beginReset .module [] (respond m 0 0 [] s)
        else joinReset sc m s
      if 3 ≤ k then (if f ≠ 0 then respond m 4 0 [] s else go s)
      else match scopePart s sc with
        | none => respond m 6 0 [] s
        | some p => withPart m p go s) s) s

/-! ## The cap and the fixed point (R572, R594, R595, R608) -/

/-- DETAIL of CAP_CONFLICT. -/
def conflictDetail (e : Nat × Nat × Program) : Nat := e.1 * 256 + e.2.1

/-- The cap changes; the current alarm threshold follows (R595). -/
def putCap (host : Nat) (s : State) : State :=
  let s1 := { s with pwr := { s.pwr with hostCap := host } }
  { s1 with pwr := { s1.pwr with ialarm := 96 * capNow s1 / 460 } }

/-- A job of a program that no longer fits ends at its next frame boundary with reason CAP; one that runs no frame is at one. -/
def capStop (e : Nat × Nat × Program) (s : State) : State :=
  let q := s.part e.1
  if activeJob (q.prog e.2.1) = false then s
  else if q.frame = .running ∧ q.cur = e.2.1 + 1 then s.updPart e.1 (fun q => q.updProg e.2.1 (fun g => { g with js := 3, stopWhy := 5 }))
  else jobEnd e.1 e.2.1 5 s

/-- SET_CAP. -/
def setCap (m : Nat) (s : State) : State :=
  runCmd m 0x0301 false false (some 3) (fun l s =>
    checked m l [(0, 2, fun v => decide (v = 0) || decide (400 ≤ v)), (2, 1, below 2)] (fun s =>
      let w := fieldOf l 0 2
      let top := profileCap s.pwr.profile
      let host := if w = 0 then top else min w top
      let bad := unfits s (fixedNow s) host 128 (admitted s)
      match bad with
      | [] => respond m 0 0 (leBytes host 2) (putCap host s)
      | e :: _ =>
        if fieldOf l 2 1 = 0 then respond m 0xE (conflictDetail e) [] s
        else
          let n := (bad.filter (fun e => activeJob e.2.2)).length
          respond m 0 0 (leBytes host 2) (logEvent 15 0xFF 1 (leBytes host 2 ++ satBytes n 1) (forAll bad capStop (putCap host s)))) s) s

/-- SET_FIXED_POINT. -/
def setFixedPoint (m : Nat) (s : State) : State :=
  runCmd m 0x0302 false false (some 1) (fun l s =>
    checked m l [(0, 1, fun v => decide (v < 8) || decide (v = 0xFF))] (fun s =>
      let op := fieldOf l 0 1
      if op = 0xFF then respond m 0 0 [] { s with pwr := { s.pwr with fixed := false, fixOp := 0, goal := none } }
      else match unfits s (some op) (capNow s) 128 (admitted s) with
        | e :: _ => respond m 0xE (conflictDetail e) [] s
        | [] => respond m 0 0 [] (toward { s with pwr := { s.pwr with fixed := true, fixOp := op, goal := some op } })) s) s

/-- GET_ENERGY (R625); a VF sees its own partition's sum. -/
def getEnergy (m : Nat) (s : State) : State :=
  runCmd m 0x0303 true false (some 0) (fun _ s =>
    let f := funcOf s m
    respond m 0 0 (leBytes s.tb 8 ++ satBytes (s.pwr.moduleNj / 10 ^ 6) 8 ++
      (List.range 8).flatMap (fun p => if mayName s f p then satBytes ((s.part p).energy / 10 ^ 6) 8 else leBytes 0 8) ++
      satBytes (s.pwr.unattrNj / 10 ^ 6) 8) s) s

/-! ## Tallies (R470, R488, R561) -/

/-- The record of tally `n`. -/
def tallyWord (s : State) (n : Nat) : Nat :=
  let r := (s.bench (n / 512)).tally (n % 512)
  r.count.toNat + r.gen.toNat * 2 ^ 32 + b2n r.ovf * 2 ^ 56 + b2n r.unf * 2 ^ 57 + b2n r.mis * 2 ^ 58 + r.scope * 2 ^ 59 +
    b2n ((s.bench (n / 512)).watches.any (fun w => decide (w.tally = n))) * 2 ^ 63

/-- The partition that holds a tally: NOT_PERMITTED or NO_PARTITION otherwise. -/
def withTally (m n : Nat) (go : State → State) (s : State) : State :=
  match partOf s (n / 512) with
  | none => respond m (if funcOf s m = 0 then 6 else 4) 0 [] s
  | some p => withPart m p go s

/-- A record is written whole, a new GEN being an advance (R478), and the slice checks its watches. -/
def writeTally (n v : Nat) (s : State) : State :=
  checkWatches n (setTally n (fun r =>
    { r with count := word (v % 2 ^ 32), gen := BitVec.ofNat 24 (bits v 55 32), ovf := bit v 56, unf := bit v 57, mis := bit v 58,
             scope := bits v 61 59, lastAdv := if r.gen.toNat = bits v 55 32 then r.lastAdv else some (coreNow s) }) s)

/-- SET_TALLY. -/
def setTallyCmd (m : Nat) (s : State) : State :=
  runCmd m 0x0401 true false (some 16) (fun l s =>
    checked m l
      [(2, 6, zero), (8, 8, fun v => decide (2 ≤ bits v 61 59) && decide (bits v 61 59 ≤ 5) && !bit v 62)] (fun s =>
      let n := fieldOf l 0 2
      withTally m n (fun s =>
        let old := tallyWord s n
        let s1 := writeTally n (fieldOf l 8 8) s
        let s2 := traceTally 7 n (4 * (n / 512)) 0 0 0 s1
        respond m 0 0 (leBytes old 8)
          (logEvent 12 ((partOf s (n / 512)).getD 0xFF) 0 (leBytes n 2 ++ [0, 0] ++ leBytes old 8 ++ leBytes (tallyWord s2 n) 8) s2)) s) s) s

/-- READ_TALLY. -/
def readTally (m : Nat) (s : State) : State :=
  runCmd m 0x0402 true false (some 2) (fun l s =>
    withTally m (fieldOf l 0 2) (fun s => respond m 0 0 (leBytes (tallyWord s (fieldOf l 0 2)) 8) s) s) s

/-! ## Trace and counters (R703, R707, R709 to R711) -/

/-- The buffer meets an enabled relocation region or the save region of a loaded program (R703). -/
def meetsRegions (s : State) (a n : Nat) : Bool :=
  let meets := fun (lo hi : Nat) => decide (lo * 2 ^ 21 < a + n) && decide (a < hi * 2 ^ 21)
  (admitted s).any (fun e => (regions e.2.2).any (fun r => meets r.1 r.2) || e.2.2.save.any (fun u => meets u (u + 1)))

/-- CONFIG_TRACE. -/
def configTrace (m : Nat) (s : State) : State :=
  runCmd m 0x0403 false false (some 24) (fun l s =>
    let slog := fieldOf l 16 1
    checked m l
      [(0, 8, fun v => decide (10 ≤ bits v 8 4) && decide (bits v 8 4 ≤ 24) && decide (bits v 15 9 = 0) && decide (bits v 23 21 = 0) &&
          decide (bits v 63 40 = 0)),
        (8, 8, fun v => decide (v % 2 ^ slog = 0)), (16, 1, fun v => decide (20 ≤ v) && decide (v ≤ 27)), (17, 7, zero)] (fun s =>
      let base := fieldOf l 8 8
      if gddrRange s base (2 ^ slog) = false ∨ meetsRegions s base (2 ^ slog) then respond m 0x14 0 [] s
      else
        let t := s.trc
        let new := decide (t.base ≠ base) || decide (t.slog ≠ slog)
        respond m 0 0 (leBytes t.ctl.toNat 8) { s with trc :=
          { t with ctl := BitVec.ofNat 64 (fieldOf l 0 8), base := base, slog := slog, off := if new then 0 else t.off,
                   wraps := if new then 0 else t.wraps, stopped := t.stopped && !new } }) s) s

/-- The word at an offset of a block of READ_COUNTERS. -/
def counterWord (s : State) (kind unit o : Nat) : Nat :=
  (if kind = 0 then benchRead s unit o
   else if kind = 1 then blkRead s (0xF00002000000 + unit * 0x1000 + o)
   else if kind = 2 then blkRead s (0xF00003000000 + unit * 0x1000 + o)
   else if kind = 3 then pwrRead s o
   else trcRead s o).toNat

/-- A queue view (R711). -/
def queueView (s : State) (c q : Nat) : List Byte :=
  let x := s.queueOf c q
  let n := ringBytes x.size
  let base := localBase c + x.base
  leBytes (queueWord x) 8 ++ leBytes (x.head.toNat + x.tail.toNat * 2 ^ 32) 8 ++
    (if x.armed then (List.range 64).map (fun i => memGet s.mem (base + (x.head.toNat + i) % n)) else List.replicate 64 0)

/-- The unit lies in what a VF may read. -/
def mayRead (s : State) (f kind unit : Nat) : Bool :=
  decide (f = 0) || decide (kind = 3) || decide (kind = 4) ||
    (match (if kind = 0 then partOf s unit else if kind = 1 then memOwner s unit
        else if kind = 2 then findBelow 8 (fun p => ownsWelt (s.part p) unit) else partOf s (benchOf unit)) with
      | some p => mayName s f p
      | none => false)

/-- READ_COUNTERS. -/
def readCounters (m : Nat) (s : State) : State :=
  runCmd m 0x0404 true false (some 8) (fun l s =>
    let k := fieldOf l 0 1
    let first := fieldOf l 4 2
    let lo := if k = 0 then 0x4000 else 0
    let hi := if k = 0 then 0x8000 else 0x100
    checked m l
      [(0, 1, below 6), (1, 1, zero),
        (2, 2, fun v => decide (v < [128, 16, 8, 1, 1, 512].getD k 0)),
        (4, 2, fun v => if k = 5 then decide (v < 16) else decide (v % 8 = 0) && decide (lo ≤ v) && decide (v < hi)),
        (6, 2, fun v => if k = 5 then decide (v = 1) else decide (1 ≤ v) && decide (v ≤ 500) && decide (first + 8 * v ≤ hi))] (fun s =>
      let u := fieldOf l 2 2
      if mayRead s (funcOf s m) k u = false then respond m 4 0 [] s
      else
        let body := if k = 5 then queueView s u first
          else (List.range (fieldOf l 6 2)).flatMap (fun i => leBytes (counterWord s k u (first + 8 * i)) 8)
        respond m 0 0 (leBytes s.tb 8 ++ body) s) s) s

/-! ## Records (R638 to R644) -/

/-- A record body keeps its layout (R644). -/
def layoutOk (r : Nat) (b : List Byte) : Bool :=
  let z := fun (o n : Nat) => decide (fieldOf b o n = 0)
  if r = 3 then decide (b.length = 8) && decide (fieldOf b 0 1 ≤ 2) && z 1 7
  else if r = 4 then decide (b.length = 8) && decide (fieldOf b 2 1 < 64) && z 3 5
  else if r = 6 then decide (b.length = 320) && (List.range 8).all (fun k =>
    decide (fieldOf b (0x20 + 36 * k) 1 ≤ 1) && z (0x21 + 36 * k) 3)
  else decide (b.length = 8) && decide (0x0600 ≤ fieldOf b 0 2) && !([0x0800, 0x8100, 0x86DD, 0x8808, 0x88A8].contains (fieldOf b 0 2)) &&
    decide (fieldOf b 2 2 ≤ 4094) && decide (fieldOf b 4 1 ≤ 7) && z 5 3

/-- What a record's signature covers (R640). -/
def signedRec (s : State) (r gen : Nat) (body : List Byte) : List Byte :=
  leBytes r 1 ++ leBytes gen 2 ++ (s.recd 0).body.take 16 ++ body

/-- The owner key of REC 6, or none. -/
def ownerKey (s : State) : Option (List Byte) :=
  let k := (s.recd 6).body.take 32
  if leNat k = 0 then none else some k

/-- The signature that WRITE_RECORD names is acceptable (R640, R641). -/
def recSigned (s : State) (r gen sigAt : Nat) (body : List Byte) : Bool :=
  match ownerKey s with
  | none => decide (r = 6) && decide (sigAt = 0) && decide (leNat (body.take 32) ≠ 0)
  | some k => decide (sigAt ≠ 0) && Config.sigValid k (signedRec s r gen body) (memBytes s.mem sigAt 7856)

/-- WRITE_RECORD. -/
def writeRecord (m : Nat) (s : State) : State :=
  runCmd m 0x0501 false false none (fun l s =>
    if l.length < 20 ∨ l.length ≠ 8 + fieldOf l 4 4 then respond m 2 0 [] s
    else checked m l [(0, 1, below 8), (1, 3, zero)] (fun s =>
      let r := fieldOf l 0 1
      let x := s.recd r
      let gen := fieldOf l 8 2
      let at_ := fieldOf l 12 8
      let body := l.drop 20
      let done := fun (s : State) => respond m 0 0 (leBytes (s.recd r).left 2) s
      if r ≤ 2 ∨ r = 5 then respond m 0x10 0 [] s
      else if x.left = 0 then respond m 0xF 0 [] s
      else if at_ ≠ 0 ∧ gddrRange s at_ 7856 = false then respond m 0x14 0 [] s
      else if gen ≠ x.gen + 1 ∨ fieldOf l 10 2 ≠ 0 ∨ layoutOk r body = false ∨ recSigned s r gen at_ body = false then respond m 0x10 0 [] s
      else if body = x.body then done s
      else done (changeRec r 1 body s)) s) s

/-- READ_RECORD. -/
def readRecord (m : Nat) (s : State) : State :=
  runCmd m 0x0502 false true (some 1) (fun l s =>
    checked m l [(0, 1, below 8)] (fun s =>
      let r := fieldOf l 0 1
      let x := s.recd r
      respond m 0 0 (leBytes x.left 2 ++ [0, 0] ++ (if r = 0 then x.body.take 48 else x.body)) s) s) s

/-! ## The commands -/

/-- CREATE_PARTITION (R557). -/
def execCreatePartition (m : Nat) (s : State) : Ans := .next (createPartition m s)
/-- DESTROY_PARTITION (R558). -/
def execDestroyPartition (m : Nat) (s : State) : Ans := .next (destroyPartition m s)
/-- RESET_SCOPE (R679). -/
def execResetScope (m : Nat) (s : State) : Ans := .next (resetScope m s)
/-- SET_CAP (R594). -/
def execSetCap (m : Nat) (s : State) : Ans := .next (setCap m s)
/-- SET_FIXED_POINT (R608). -/
def execSetFixedPoint (m : Nat) (s : State) : Ans := .next (setFixedPoint m s)
/-- GET_ENERGY (R625). -/
def execGetEnergy (m : Nat) (s : State) : Ans := .next (getEnergy m s)
/-- SET_TALLY (R488). -/
def execSetTally (m : Nat) (s : State) : Ans := .next (setTallyCmd m s)
/-- READ_TALLY (R470). -/
def execReadTally (m : Nat) (s : State) : Ans := .next (readTally m s)
/-- CONFIG_TRACE (R707). -/
def execConfigTrace (m : Nat) (s : State) : Ans := .next (configTrace m s)
/-- READ_COUNTERS (R709). -/
def execReadCounters (m : Nat) (s : State) : Ans := .next (readCounters m s)
/-- WRITE_RECORD (R640). -/
def execWriteRecord (m : Nat) (s : State) : Ans := .next (writeRecord m s)
/-- READ_RECORD (R644). -/
def execReadRecord (m : Nat) (s : State) : Ans := .next (readRecord m s)

end Sys2Proof.Machine
end

