-- ==== Sys2Proof/Machine/HostSide.lean ====
section
/-! DEFINITION. Mailbox commands on streams, crews, the host's memory, Foreman images and attestation, and the host's accesses to BAR2
and BAR4 (R503, R504, R533 to R535, R541 to R543, R553, R559 to R563, R633 to R635, R662 to R666, R706). -/

namespace Sys2Proof.Machine

/-! ## Streams (R503, R504, R559, R560) -/

/-- OPEN_STREAM_RX. -/
def openStreamRx (m : Nat) (s : State) : State :=
  runCmd m 0x0701 true false (some 32) (fun l s =>
    checked m l
      [(0, 2, below 16384), (2, 1, below 8), (4, 2, below 16384), (6, 2, below 16384), (10, 6, zero),
        (16, 8, below (2 ^ 48)), (24, 8, below (2 ^ 40))] (fun s =>
      let id := fieldOf l 0 2
      let p := fieldOf l 2 1
      let d : StreamDecl :=
      { id := id, send := false, planes := fieldOf l 3 1, peer := fieldOf l 4 2, pstr := fieldOf l 6 2, tally := fieldOf l 8 2
        wbase := fieldOf l 16 8, wlen := fieldOf l 24 8, sbench := 0, conn := 0 }
      withPart m p (fun s =>
        let why := rxCheck s p d.planes d.tally d.wbase d.wlen
        if why ≠ 0 then respond m 3 (if why = 1 then 3 else if why = 2 then 8 else 16) [] s
        else if (s.stream id).state ≠ 0 then respond m 9 2 [] s
        else respond m 0 0 [] (s.updStream id (fun _ => streamEntry p (s.part p).cur d 0))) s) s) s

/-- The connections of the planes, as LINK_STR holds them, from CONN's bytes. -/
def packConns (v planes : Nat) : Nat :=
  (List.range 8).foldl (fun n w => if bit planes w then n + bits v (8 * w + 5) (8 * w) * 2 ^ (6 * w) else n) 0

/-- OPEN_STREAM_TX. -/
def openStreamTx (m : Nat) (s : State) : State :=
  runCmd m 0x0702 true false (some 24) (fun l s =>
    let planes := fieldOf l 3 1
    checked m l
      [(0, 2, below 16384), (2, 1, below 8), (4, 2, below 16384), (6, 2, below 16384), (8, 1, below 128), (9, 7, zero),
        (16, 8, fun v => (List.range 8).all (fun w => !bit planes w || decide (bits v (8 * w + 7) (8 * w) < 64)))] (fun s =>
      let id := fieldOf l 0 2
      let p := fieldOf l 2 1
      let b := fieldOf l 8 1
      let d : StreamDecl :=
      { id := id, send := true, planes := planes, peer := fieldOf l 4 2, pstr := fieldOf l 6 2, tally := 0, wbase := 0, wlen := 0
        sbench := b, conn := packConns (fieldOf l 16 8) planes }
      withPart m p (fun s =>
        let why := txCheck s p planes b d.conn
        if why ≠ 0 then respond m 3 (if why = 1 then 3 else if why = 2 then 8 else 16) [] s
        else if (s.stream id).state ≠ 0 then respond m 9 2 [] s
        else respond m 0 0 [] (s.updStream id (fun _ => streamEntry p (s.part p).cur d b))) s) s) s

/-- CLOSE_STREAM. -/
def closeStream (m : Nat) (s : State) : State :=
  runCmd m 0x0703 true false (some 2) (fun l s =>
    let id := fieldOf l 0 2
    checked m l [(0, 2, fun v => decide (v < 16384) && decide ((s.stream id).state ≠ 0))] (fun s =>
      let st := s.stream id
      withPart m st.part (fun s =>
        if st.state = 1 ∧ openDescs s id ≠ [] then respond m 0x13 0 [] s
        else respond m 0 0 (satBytes st.bytes 8 ++ satBytes st.retx 4) (closeEntry id s)) s) s) s

/-- SET_TRANSPORT. -/
def setTransport (m : Nat) (s : State) : State :=
  runCmd m 0x0704 false false (some 4) (fun l s =>
    checked m l
      [(0, 2, fun v => decide (8 ≤ v) && decide (v ≤ 1000)), (2, 1, fun v => decide (1 ≤ v) && decide (v ≤ 31)), (3, 1, zero)] (fun s =>
      respond m 0 0 [] { s with boot := { s.boot with rto := fieldOf l 0 2, retryMax := fieldOf l 2 1 } }) s) s

/-! ## Crews (R533 to R535, R563) -/

/-- A session begins anew with PSN 0. -/
def newSession (peer : Nat) (s : State) : State := updSession peer (fun _ => Session.reset peer) s

/-- Register a managed module, in the order of their numbers. -/
def putManaged (x : Managed) : List Managed → List Managed
  | [] => [x]
  | y :: r => if y.mod = x.mod then x :: r else if x.mod < y.mod then x :: y :: r else y :: putManaged x r

/-- CREW_JOIN. -/
def crewJoin (m : Nat) (s : State) : State :=
  runCmd m 0x0601 false false (some 36) (fun l s =>
    checked m l [(0, 1, below 3), (1, 1, zero), (2, 2, below 16384)] (fun s =>
      let k := fieldOf l 2 2
      let key := (l.drop 4).take 32
      if fieldOf l 0 1 = 0 then
        respond m 0 0 [] (sendMsg k 1 0 0 [] (newSession k
          { s with fmn := { s.fmn with manager := some (k, key), joined := false, lastBeat := s.tb } }))
      else if fieldOf l 0 1 = 1 then
        respond m 0 0 [] (newSession k { s with fmn := { s.fmn with
          managed := putManaged { mod := k, key := key, state := 0, word := 0, last := s.tb } s.fmn.managed } })
      else match s.fmn.manager with
        | some (g, _) => respond m 0 0 [] (sendMsg g 6 0 0 [] { s with fmn := { s.fmn with joined := false } })
        | none => respond m 0 0 [] s) s) s

/-- An entry of CREW_STATUS. -/
def crewEntry (s : State) (g : Managed) : List Byte :=
  leBytes g.mod 2 ++ leBytes g.state 1 ++ [0] ++ leBytes g.word.toNat 4 ++ leBytes (s.tb - g.last) 8

/-- CREW_STATUS. -/
def crewStatus (m : Nat) (s : State) : State :=
  runCmd m 0x0602 false false (some 2) (fun l s =>
    let out := (s.fmn.managed.drop (fieldOf l 0 2)).take 254
    respond m 0 0 (leBytes out.length 2 ++ [0, 0] ++ out.flatMap (crewEntry s)) s) s

/-- CREW_RELAY: the next of the bytes held back, or a COMMAND to the module; MGMT_RESPONSE or CREW_RELAY_TIMEOUT completes it. -/
def crewRelay (m : Nat) (s : State) : State :=
  runCmd m 0x0603 false false none (fun l s =>
    let k := fieldOf l 0 2
    let code := fieldOf l 2 2
    if l.length < 4 then respond m 2 0 [] s
    else if code = 0 then
      match (s.mbox m).heldBack with
      | some (g, st, detail, rest) =>
        if g = k ∧ l.length = 4 then
          let more := rest.drop 4072
          respond m 0 0 (leBytes st 2 ++ leBytes more.length 2 ++ leBytes detail 4 ++ rest.take 4072)
            (s.updMbox m (fun x => { x with heldBack := if more = [] then none else some (g, st, detail, more) }))
        else respond m 3 2 [] s
      | none => respond m 3 2 [] s
    else if notRelayed code ∨ (s.fmn.managed.any (fun g => decide (g.mod = k))) = false then respond m 0x11 0 [] s
    else
      let seq := s.fmn.mgmtSeq
      sendMsg k 4 seq code (l.drop 4) ({ s with fmn := { s.fmn with mgmtSeq := (seq + 1) % 2 ^ 16 } }.updMbox m (fun x =>
        { x with relay := some (k, seq, s.tb + 2000000000) }))) s

/-- CREW_RELAY_TIMEOUT (R553). -/
def relayTimeout (m : Nat) (s : State) : State :=
  match (s.mbox m).relay with
  | some (_, _, due) => if due ≤ s.tb then respond m 0x12 0 [] s else s
  | none => s

/-! ## What the host hears of (R542, R583, R706) -/

/-- A completion to the host. -/
def completeRead (f bar off : Nat) (abort : Bool) (data : List Byte) (s : State) : State :=
  { s with fmn := { s.fmn with hostOut := { fn := f, bar := bar, off := off, abort := abort, data := data } :: s.fmn.hostOut } }

/-- HOST_ACCESS is logged (R583). -/
def hostEvent (f a : Nat) (write : Bool) (cause : Nat) (s : State) : State :=
  logEvent 16 (if f = 0 then 0xFF else (boundPart s f).getD 0xFF) 1 (leBytes a 8 ++ leBytes (b2n write) 1 ++ leBytes cause 1) s

/-! ## The host's memory (R541, R545, R562) -/

/-- A function may reach the devices that hold [a, a + n). -/
def devicesOk (s : State) (f a n : Nat) : Bool :=
  decide (f = 0) || (match boundPart s f with
    | some p => (List.range 16).all (fun d => ownsMem (s.part p) d || decide (a + n ≤ d * 2 ^ 36) || decide ((d + 1) * 2 ^ 36 ≤ a))
    | none => false)

/-- SET_APERTURE. -/
def setAperture (m : Nat) (s : State) : State :=
  runCmd m 0x0801 true false (some 8) (fun l s =>
    let a := fieldOf l 0 8
    let f := funcOf s m
    if mapped s a = false then respond m 0x14 0 [] s
    else if f ≠ 0 ∧ (gddrRange s a 1 = false ∨ devicesOk s f a 1 = false) then respond m 4 0 [] s
    else respond m 0 0 [] { s with fmn := { s.fmn with apertures := tblSet nats s.fmn.apertures f a } }) s

/-- The bytes of a range that one ring packet carries: a beat's, within 256 aligned bytes (R376). -/
def hostPiece (a n : Nat) : Nat := min n (256 - a % 256)

/-- An access of the host goes over the ring to the ring side of its device's controller (R32). -/
def hostAccess (r : HostReq) (s : State) : State := ringPut hostStop (devStop (r.addr / 2 ^ 36)) (.host r) s

/-- The next piece of a move. -/
def moveReq (v : HostMove) : HostReq :=
  let k := hostPiece v.addr v.left
  { serial := v.serial, fn := v.fn, write := !v.toHost, addr := v.addr, len := k, data := if v.toHost then [] else v.data.take k
    err := false, back := true }

/-- Each of the 16 host porters works on one move, in the order in which they were accepted, a piece at a time (R545, R562). -/
def movesGo (s : State) : State :=
  let start := (s.fmn.moves.take 16).filter (fun v => !v.busy)
  forAll start (fun v s => hostAccess (moveReq v) s)
    { s with fmn := { s.fmn with moves := s.fmn.moves.mapIdx (fun i v => if i < 16 then { v with busy := true } else v) } }

/-- A move is over, with a status; the next one in waiting gets its porter. -/
def moveEnds (v : HostMove) (status : Nat) (s : State) : State :=
  let s1 := touch { s with fmn := { s.fmn with moves := s.fmn.moves.filter (fun u => decide (u.serial ≠ v.serial)) } }
  movesGo (respond v.mbox status 0 [] (if v.toHost ∧ status = 0 then
    { s1 with fmn := { s1.fmn with hostMem := (v.haddr, v.data) :: s1.fmn.hostMem } } else s1))

/-- The response to a piece of a move: the move goes on behind it, or ends. One that meets uncorrectable data ends with INTERNAL and
an event (DESIGN CHOICE, log entry 156). -/
def moveBack (v : HostMove) (data : List Byte) (err : Bool) (s : State) : State :=
  let k := hostPiece v.addr v.left
  let u := { v with addr := v.addr + k, left := v.left - k, data := if v.toHost then v.data ++ data else v.data.drop k, busy := false }
  if err then moveEnds v 0x15 (hostEvent v.fn v.addr (!v.toHost) 3 s)
  else if u.left = 0 then moveEnds u 0 s
  else movesGo { s with fmn := { s.fmn with moves := s.fmn.moves.map (fun w => if w.serial = v.serial then u else w) } }

/-- HOST_MOVE; `host` is what host memory holds at HADDR. The mailbox is answered when the last byte has been written. -/
def hostMove (m : Nat) (host : List Byte) (s : State) : State :=
  runCmd m 0x0802 true false (some 24) (fun l s =>
    checked m l [(0, 1, below 2), (1, 3, zero), (4, 4, fun v => decide (v % 64 = 0))] (fun s =>
      let n := fieldOf l 4 4
      let a := fieldOf l 16 8
      if gddrRange s a n = false then respond m 0x14 0 [] s
      else if devicesOk s (funcOf s m) a n = false then respond m 4 0 [] s
      else if n = 0 then respond m 0 0 [] s
      else
        let (serial, s) := freshSerial (touch s)
        let v : HostMove :=
        { serial := serial, mbox := m, fn := funcOf s m, toHost := decide (fieldOf l 0 1 = 1), haddr := fieldOf l 8 8, addr := a, left := n
          data := if fieldOf l 0 1 = 0 then padTo n host else [], busy := false }
        movesGo { s with fmn := { s.fmn with moves := s.fmn.moves ++ [v] } }) s) s

/-! ## Foreman images (R633 to R635) -/

/-- The anti-rollback counter. -/
def rollback (s : State) : Nat := recGen s 5

/-- The image at `a` passes R634: MAGIC, reserved fields, signature, security version. -/
def imageOk (s : State) (a len : Nat) : Bool :=
  let h := fun (o n : Nat) => memNat s.mem (a + o) n
  let n := h 8 8
  decide (0x20 ≤ len) && decide (h 0 4 = 0x57464D31) && decide (h 5 3 = 0) && decide (h 0x14 12 = 0) && decide (1 ≤ n) &&
    decide (n ≤ 25165824) && decide (0x1ED0 + n ≤ len) && decide (rollback s ≤ h 4 1) &&
    Config.sigValid ((List.range 32).map Config.romByte) (memBytes s.mem a 0x20 ++ memBytes s.mem (a + 0x1ED0) n)
      (memBytes s.mem (a + 0x20) 7856)

/-- FW_STAGE. -/
def fwStage (m : Nat) (s : State) : State :=
  runCmd m 0x0A01 false false (some 16) (fun l s =>
    let a := fieldOf l 0 8
    let len := fieldOf l 8 8
    if gddrRange s a len = false then respond m 0x14 0 [] s
    else if imageOk s a len = false then respond m 0xB 0 [] s
    else
      let k := 1 - s.boot.running
      let x : Image :=
      { present := true, svn := memNat s.mem (a + 4) 1, ok := true
        bytes := memBytes s.mem a (0x1ED0 + memNat s.mem (a + 8) 8) }
      respond m 0 0 (leBytes k 1) { s with boot := { s.boot with images := tblSet imageDefault s.boot.images k x } }) s

/-- A slot's image passes R634. -/
def slotOk (s : State) (k : Nat) : Bool :=
  let x := s.image k
  x.present && x.ok && decide (rollback s ≤ x.svn)

/-- FW_ACTIVATE. -/
def fwActivate (m : Nat) (s : State) : State :=
  runCmd m 0x0A02 false false (some 1) (fun l s =>
    checked m l [(0, 1, fun v => decide (v < 2) && slotOk s v)] (fun s =>
      respond m 0 0 [] { s with boot := { s.boot with selector := fieldOf l 0 1 } }) s) s

/-! ## Attestation (R662 to R666) -/

/-- The report's bytes before its signature (R664). -/
def reportBytes (s : State) (nonce : List Byte) : List Byte :=
  let id := (s.recd 0).body
  let im := s.image s.boot.running
  let hash := fun (b : List Byte) => leBytes (Config.sha256 b).toNat 32
  leBytes 0x57415452 4 ++ leBytes 1 2 ++ [0, 0] ++ id.take 48 ++ nonce ++ leBytes s.tb 8 ++ leBytes s.boot.state 1 ++
    leBytes s.pwr.profile 1 ++ leBytes (rollback s) 1 ++ leBytes s.boot.running 1 ++ leBytes im.svn 1 ++ [0, 0, 0] ++ hash im.bytes ++
    (List.range 8).flatMap (fun r => leBytes (recGen s r) 2 ++ leBytes (s.recd r).left 2 ++ leBytes 0 4 ++
      hash (if r = 0 then id.take 48 else (s.recd r).body)) ++
    leBytes (bitMap 16 (fun d => !memMappedOut s d)) 2 ++ leBytes (bitMap 8 (fun w => !bit s.boot.weltOut w)) 1 ++
    leBytes s.boot.deg 1 ++ leBytes 0 4 ++ (id.drop 0x430).take 7856

/-- The derived public key equals IDPK (R663). -/
def identityOk (s : State) : Bool := decide ((Config.pufKey s.boot.keyNo).toNat = leNat (((s.recd 0).body.drop 16).take 32))

/-- A response with fragment `f` of a report. -/
def fragment (l : List Byte) (f : Nat) : List Byte :=
  let b := (l.drop (4072 * f)).take 4072
  leBytes f 1 ++ [4, 0, 0] ++ leBytes b.length 2 ++ [0, 0] ++ b

def attestOf (s : State) (f : Nat) : Attest := tblGet (fun _ => Attest.reset) s.fmn.attest f
def putAttest (f : Nat) (x : Attest) (s : State) : State :=
  { s with fmn := { s.fmn with attest := tblSet (fun _ => Attest.reset) s.fmn.attest f x } }

/-- GET_ATTESTATION. -/
def getAttestation (m : Nat) (s : State) : State :=
  runCmd m 0x0503 true true (some 32) (fun l s =>
    let f := funcOf s m
    let x := attestOf s f
    if identityOk s = false then respond m 0x15 0 [] s
    else if x.nonce ≠ l then
      let r := reportBytes s l
      respond m 0 0 (fragment r 0) (putAttest f { nonce := l, frag := 1, report := r, signed_ := false, started := s.tb } s)
    else if x.signed_ = false ∧ 2 ≤ x.frag then respond m 0 0 (leBytes x.frag 1 ++ [4, 1, 0, 0, 0, 0, 0]) s
    else respond m 0 0 (fragment x.report x.frag) (putAttest f { x with frag := (x.frag + 1) % 4 } s)) s

/-- ATTESTATION_SIGNED: the signature of a function's report is complete. -/
def attestationSigned (f : Nat) (s : State) : State :=
  let x := attestOf s f
  if x.signed_ = false ∧ x.nonce ≠ [] then
    putAttest f { x with signed_ := true, report := x.report ++ (List.range 7856).map (Config.idSign x.report) } s
  else s

/-! ## BAR2 (R541, R542) -/

/-- The module address of a BAR2 offset. -/
def apertureAddr (s : State) (f off : Nat) : Nat := tblGet nats s.fmn.apertures f + off

/-- Why a BAR2 access is refused at once, as HOST_ACCESS reports it: 1 outside the installed GDDR7, 2 outside the function's devices, 5 a
poisoned write; 0 for none. Uncorrectable data (3) shows at the ring side. -/
def bar2Why (s : State) (f a : Nat) (x : HostAccess) : Nat :=
  if gddrRange s a x.len = false then 1
  else if devicesOk s f a x.len = false then 2
  else if x.write ∧ x.poisoned then 5
  else 0

/-- The pieces of a write, each a posted packet of its own; `unc`: the access meets uncorrectable data. -/
def writePieces (f : Nat) (unc : Bool) : Nat → Nat → List Byte → State → State
  | 0, _, _, s => s
  | n + 1, a, l, s =>
    let k := hostPiece a l.length
    if l = [] then s
    else writePieces f unc n (a + k) (l.drop k)
      (hostAccess { serial := 0, fn := f, write := true, addr := a, len := k, data := l.take k, err := unc, back := false } s)

/-- The next piece of a BAR2 read. -/
def readReq (r : HostRead) (unc : Bool) : HostReq :=
  let a := r.addr + r.got.length
  { serial := r.serial, fn := r.fn, write := false, addr := a, len := hostPiece a (r.len - r.got.length), data := [], err := unc, back := true }

def dropRead (serial : Nat) (s : State) : State :=
  { s with fmn := { s.fmn with hostReads := s.fmn.hostReads.filter (fun r => decide (r.serial ≠ serial)) } }

/-- BAR2_ACCESS: served by the ring side of the controllers (R541), the completion of a read following when its data is back. A read
during a die reset finds no answer (R684): BAR2_READ_TIMEOUT ends it. -/
def bar2Access (f off : Nat) (x : HostAccess) (s : State) : State :=
  if pcieUp s = false ∨ 8 < f then s
  else
    let a := apertureAddr s f off
    let why := bar2Why s f a x
    let s := wake s
    if x.write then
      if why = 0 then writePieces f x.unc (x.len + 1) a (padTo x.len x.bytes) s else hostEvent f a true why s
    else if why ≠ 0 then completeRead f 2 off true [] (hostEvent f a false why s)
    else
      let (serial, s) := freshSerial s
      let r : HostRead := { serial := serial, fn := f, off := off, addr := a, len := x.len, since := s.tb, got := [] }
      let s1 := { s with fmn := { s.fmn with hostReads := s.fmn.hostReads ++ [r] } }
      if dieReset s then s1 else hostAccess (readReq r x.unc) s1

/-- The data of a BAR2 read's piece: the next piece, or the completion; Completer Abort when it met an error (R542). -/
def readBack (r : HostRead) (data : List Byte) (err : Bool) (s : State) : State :=
  let u := { r with got := r.got ++ data }
  if err then completeRead r.fn 2 r.off true [] (hostEvent r.fn r.addr false 3 (dropRead r.serial s))
  else if r.len ≤ u.got.length then completeRead r.fn 2 r.off false (u.got.take r.len) (dropRead r.serial s)
  else hostAccess (readReq u false)
    { s with fmn := { s.fmn with hostReads := s.fmn.hostReads.map (fun w => if w.serial = r.serial then u else w) } }

/-- A response from a ring side at the East I/O die. -/
def hostResponse (serial : Nat) (data : List Byte) (err : Bool) (s : State) : State :=
  match s.fmn.moves.find? (fun v => decide (v.serial = serial)) with
  | some v => moveBack v data err s
  | none => match s.fmn.hostReads.find? (fun r => decide (r.serial = serial)) with
    | some r => readBack r data err s
    | none => s

/-- BAR2_READ_TIMEOUT: the oldest read of this function at this offset that has waited 900 µs. -/
def bar2Timeout (f off : Nat) (s : State) : State :=
  match s.fmn.hostReads.find? (fun r => decide (r.fn = f) && decide (r.off = off) && decide (r.since + 900000 ≤ s.tb)) with
  | some r => completeRead f 2 off true [] (hostEvent f r.addr false 4 (dropRead r.serial s))
  | none => s

/-! ## BAR4 (R543, R706) -/

/-- The agent number of the host's reads of the trace block. -/
def hostAgent : Nat := 4096

/-- A byte of BAR4. -/
def bar4Byte (s : State) (o : Nat) : Byte :=
  if o < 2 ^ s.trc.slog then memGet s.mem (s.trc.base + o)
  else if 0x08000000 ≤ o ∧ o < 0x08000100 then BitVec.ofNat 8 ((trcRead s (o % 0x100 / 8 * 8)).toNat / 2 ^ (8 * (o % 8)))
  else 0

/-- BAR4_ACCESS: writes are discarded; a read of the timebase's low word latches the high word for the host's next read. -/
def bar4Access (off : Nat) (x : HostAccess) (s : State) : State :=
  if pcieUp s = false ∨ x.write then s
  else
    let data := if off = 0x08000004 ∧ x.len = 4 then leBytes (tblGet nats s.trc.latched hostAgent) 4
      else (List.range x.len).map (fun i => bar4Byte s (off + i))
    completeRead 0 4 off false data (if off = 0x08000000 ∧ 4 ≤ x.len then tbLatch hostAgent s else s)

/-! ## The commands -/

/-- OPEN_STREAM_RX (R503). -/
def execOpenStreamRx (m : Nat) (s : State) : Ans := .next (openStreamRx m s)
/-- OPEN_STREAM_TX (R504). -/
def execOpenStreamTx (m : Nat) (s : State) : Ans := .next (openStreamTx m s)
/-- CLOSE_STREAM (R559). -/
def execCloseStream (m : Nat) (s : State) : Ans := .next (closeStream m s)
/-- SET_TRANSPORT (R560). -/
def execSetTransport (m : Nat) (s : State) : Ans := .next (setTransport m s)
/-- CREW_JOIN (R533). -/
def execCrewJoin (m : Nat) (s : State) : Ans := .next (crewJoin m s)
/-- CREW_STATUS (R534). -/
def execCrewStatus (m : Nat) (s : State) : Ans := .next (crewStatus m s)
/-- CREW_RELAY (R563). -/
def execCrewRelay (m : Nat) (s : State) : Ans := .next (crewRelay m s)
/-- CREW_RELAY_TIMEOUT (R553). -/
def execCrewRelayTimeout (m : Nat) (s : State) : Ans := .next (relayTimeout m s)
/-- SET_APERTURE (R541). -/
def execSetAperture (m : Nat) (s : State) : Ans := .next (setAperture m s)
/-- HOST_MOVE (R562). -/
def execHostMove (m : Nat) (host : List Byte) (s : State) : Ans := .next (hostMove m host s)
/-- FW_STAGE (R635). -/
def execFwStage (m : Nat) (s : State) : Ans := .next (fwStage m s)
/-- FW_ACTIVATE (R635). -/
def execFwActivate (m : Nat) (s : State) : Ans := .next (fwActivate m s)
/-- GET_ATTESTATION (R665). -/
def execGetAttestation (m : Nat) (s : State) : Ans := .next (getAttestation m s)
/-- ATTESTATION_SIGNED (R666). -/
def execAttestationSigned (fn : Nat) (s : State) : Ans := .next (attestationSigned fn s)
/-- BAR2_ACCESS (R542). -/
def execBar2Access (fn off : Nat) (acc : HostAccess) (s : State) : Ans := .next (bar2Access fn off acc s)
/-- BAR2_READ_TIMEOUT (R542). -/
def execBar2ReadTimeout (fn off : Nat) (s : State) : Ans := .next (bar2Timeout fn off s)
/-- BAR4_ACCESS (R706). -/
def execBar4Access (off : Nat) (acc : HostAccess) (s : State) : Ans := .next (bar4Access off acc s)

end Sys2Proof.Machine
end

