-- ==== Sys2Proof/Machine/Ring.lean ====
section
/-! DEFINITION. What arrives over the I/O ring, and the accesses that the GDDR7 controllers' ring sides and the CXL controller serve
(R23, R32, R376 to R380, R390, R422, R426, R438, R541, R542, R562, R700). -/

namespace Sys2Proof.Machine

/-! ## Responses at a bench and at the host -/

/-- The response of a ring-side or CXL access at its bench. An uncached load's, or a fill's, carries no data when it met an error. -/
def ringResponse (b line : Nat) (data : List Byte) (err : Bool) (u : Use) (s : State) : State :=
  match u with
  | .fill _ k => if absorbsBench s b then absorb b s else fillData b k data err s
  | .uload c k => if absorbsCore s c then absorb b s else uloadData c k data err s
  | .item serial => itemDone b serial s
  | .porter c i o =>
    if absorbsCore s c then settleDesc c i (absorb b (s.updSlotOf c i (fun x => { x with out := x.out - 1 })))
    else ringBack c i o line data err (decide (data ≠ [])) s
  | _ => s

/-! ## The trace collector (R700, R702) -/

/-- DEST of FMN_TRC_CTL. -/
def destNow (s : State) : Nat := bits s.trc.ctl.toNat 2 1

/-- A LOST record of the collector. -/
def lostRecord (s : State) : List Byte := padTo 32 (leBytes s.tb 8 ++ leBytes (15 + 2 ^ 4) 4 ++ leBytes 0 4 ++ leBytes s.trc.lost 4)

/-- The collector takes a record into its queue of 4,096, behind a LOST record where one is owed; a record that finds no place, or a
buffer that has stopped, is dropped and counted. -/
def collect (r : List Byte) (s : State) : State :=
  let d := destNow s
  let need := if s.trc.lost = 0 then [(d, r)] else [(d, lostRecord s), (d, r)]
  if s.trc.queue.length + need.length ≤ 4096 ∧ ¬(s.trc.stopped ∧ bit d 0) then
    { s with trc := { s.trc with queue := s.trc.queue ++ need, lost := 0 } }
  else
    { s with trc := { s.trc with
      lost := s.trc.lost + 1, reg := tblUpd (zeros 64) s.trc.reg 0x038 (fun v => counterAdd v 1) } }

/-! ## Packets at their destination stop -/

/-- A packet that RING_PACKET_ARRIVAL delivers; the others have commands of their own. -/
def plainPacket : RingMsg → Bool
  | .request _ => false
  | .answer _ _ _ => false
  | .closed _ _ _ _ _ => false
  | .rabort _ _ _ => false
  | _ => true

/-- A write that a controller cannot make, its data being uncorrectable or its device mapped out: nothing is written, and the
partition that sent it is stopped as R747 stops one at a memory port (DESIGN CHOICE, log entry 145). -/
def ringRefused (b : Nat) (s : State) : State :=
  match partOf s b with
  | some p => stopNow p s
  | none => s

/-- A controller accepts a write: it takes effect on every access served later, and its sender counts it (R422, R426). -/
def acceptWrite (b dev line : Nat) (data : List Byte) (mask : List Bool) (err : Bool) (u : Use) (s : State) : State :=
  let s1 := match u with
    | .item serial => itemAccepted b serial s
    | .porter c i o => ringLanded c i o s
    | _ => s
  if err || (decide (dev ≠ 0) && memMappedOut s (dev - 1)) then ringRefused b s1 else ringWriteMask (line * 64) (data.zip mask) s1

/-- A write of the host is accepted; one that meets an error is discarded and logged (R542). -/
def acceptHost (r : HostReq) (s : State) : State :=
  if r.err || memMappedOut s (r.addr / 2 ^ 36) then hostEvent r.fn r.addr true 3 s else ringWrite r.addr r.data s

/-- A packet at its destination stop. -/
def deliverPacket (p : RingPkt) (s : State) : State :=
  let atSide := fun (s : State) => { s with ringSide := s.ringSide ++ [p] }
  match p.msg with
  | .access b dev true line data mask err u => atSide (acceptWrite b dev line data mask err u s)
  | .access _ _ false _ _ _ _ _ => atSide s
  | .host r => atSide (if r.write then acceptHost r s else s)
  | .response b line data err u => ringResponse b line data err u s
  | .hostBack k data err => hostResponse k data err s
  | .check c h => takeCheck c h s
  | .msg m => toInbox (benchOf (msgCore m)) (coreNow s) m s
  | .record c i r => syncWrite c i (r.toNat % 2 ^ 96) s
  | .trace _ r => collect r s
  | .slip d q j => logMerged 3 q j (leBytes d 1) s
  | _ => s

/-- RING_PACKET_ARRIVAL. -/
def ringArrival (stop : Nat) (s : State) : State :=
  match ringTake (fun p => decide (p.dst = stop) && plainPacket p.msg) s with
  | some (p, s1) => deliverPacket p s1
  | none => s

/-! ## Accesses at the controllers (R23, R390) -/

/-- Serve an access that waits at a controller: a read takes its data now, a write was made when it was accepted; the response goes back
over the ring. A read that meets an error, or a device mapped out, returns none. The trace collector's writes have no response. -/
def serveAccess (p : RingPkt) (err : Bool) (s : State) : State :=
  let s1 := { s with ringSide := s.ringSide.erase p }
  match p.msg with
  | .access b dev wr line _ _ _ u =>
    let bad := err || (decide (dev ≠ 0) && memMappedOut s (dev - 1))
    let back := fun (l : List Byte) (e : Bool) => ringPut p.dst (rowStop b) (.response b line l e u) s1
    if wr then (if b < 128 then back [] false else s1)
    else if bad then back [] true
    else back (memBytes s.mem (line * 64) 64) false
  | .host r =>
    let bad := err || r.err || memMappedOut s (r.addr / 2 ^ 36)
    if r.back = false then s1
    else if r.write then ringPut p.dst hostStop (.hostBack r.serial [] (r.err || memMappedOut s (r.addr / 2 ^ 36))) s1
    else ringPut p.dst hostStop (.hostBack r.serial (if bad then [] else memBytes s.mem r.addr r.len) bad) s1
  | _ => s

/-- The access waits at the CXL controller; the others wait at GDDR7 controllers. -/
def atCxl (p : RingPkt) : Bool :=
  match p.msg with
  | .access _ dev _ _ _ _ _ _ => decide (dev = 0)
  | _ => false

/-- The access that is served next, at the ring sides of the GDDR7 controllers or at the CXL controller. The 16 controllers serve one
queue in the order of arrival: the spec gives no order between them (DESIGN CHOICE, log entry 155). -/
def waitingAccess (s : State) (cxl : Bool) : Option RingPkt := s.ringSide.find? (fun p => atCxl p == cxl)

def ringSideAccess (err : Bool) (s : State) : State :=
  match waitingAccess s false with
  | some p => serveAccess p err s
  | none => s

def cxlComplete (poison : Bool) (s : State) : State :=
  match waitingAccess s true with
  | some p => serveAccess p poison s
  | none => s

/-! ## The commands -/

/-- RING_PACKET_ARRIVAL (R379). -/
def execRingPacketArrival (stop : Nat) (s : State) : Ans := .next (ringArrival stop s)
/-- RING_SIDE_ACCESS (R23). -/
def execRingSideAccess (err : Bool) (s : State) : Ans := .next (ringSideAccess err s)
/-- CXL_ACCESS_COMPLETE (R390). -/
def execCxlAccessComplete (poison : Bool) (s : State) : Ans := .next (cxlComplete poison s)

end Sys2Proof.Machine
end

