-- ==== Sys2Proof/Machine/Faults.lean ====
section
/-! DEFINITION. The Foreman's counting of hardware errors, lasting faults, and the reset that follows a stop (R667 to R678). -/

namespace Sys2Proof.Machine

/-- A unit's number lies in its class's range (R669). -/
def unitExists (cls num : Nat) : Bool := decide (num < [512, 128, 128, 512, 16, 8, 17].getD cls 0)

def unitAt (s : State) (cls num : Nat) : Unit_ :=
  (s.faults.find? (fun u => decide (u.cls = cls) && decide (u.num = num))).getD { cls := cls, num := num, events := [], fenced := false, repair := 0 }

/-- Put a unit's history back, in the order of class and number. -/
def putUnit (x : Unit_) : List Unit_ → List Unit_
  | [] => [x]
  | y :: r =>
    if y.cls = x.cls ∧ y.num = x.num then x :: r
    else if x.cls < y.cls ∨ (x.cls = y.cls ∧ x.num < y.num) then x :: y :: r else y :: putUnit x r

/-- Events of a kind in the `w` ns that end now. -/
def recent (s : State) (l : List (Nat × Bool)) (unc : Bool) (w : Nat) : Nat :=
  (l.filter (fun e => e.2 == unc && decide (s.tb < e.1 + w))).length

/-- The event just counted makes the unit's fault lasting (R671). -/
def lasting (s : State) (l : List (Nat × Bool)) (unc : Bool) : Bool :=
  if unc then decide (2 ≤ recent s l true (86400 * 10 ^ 9)) else decide (3 ≤ recent s l false (600 * 10 ^ 9))

/-- Stop the partition that holds a unit (R675). -/
def stopPart (p : Option Nat) (atOnce : Bool) (s : State) : State :=
  match p with
  | some p => if atOnce then stopNow p s else stopAtBoundary p s
  | none => s

/-- The steps of R673: the fence, the repair, the event, the stop. -/
def lastingFault (cls num : Nat) (unc : Bool) (s : State) : State :=
  let put := fun (r : Nat) (s : State) =>
    { s with faults := putUnit { unitAt s cls num with fenced := true, repair := r } s.faults }
  let (r, s1) := writeRepair cls num (put 0 s)
  let p := unitPart s cls num
  stopPart p unc (logEvent 7 (p.getD 0xFF) 2 (leBytes cls 1 ++ leBytes num 2) (put r s1))

/-- Count an event of a unit; events of a fenced unit are not counted (R671, R672). -/
def countEvent (cls num : Nat) (unc : Bool) (s : State) : State :=
  let u := unitAt s cls num
  if u.fenced then s
  else
    let l := (s.tb, unc) :: u.events
    let s1 := { s with faults := putUnit { u with events := l } s.faults }
    if lasting s l unc then lastingFault cls num unc s1 else s1

/-- ERROR_REPORT; `table` tells that a bench's report is about its pattern memory or connection table. A double-bit error there, or in a
tally record store, is uncorrectable state: the partition is stopped at once (R667, R675). -/
def errorReport (cls num : Nat) (unc table : Bool) (s : State) : State :=
  if s.board.island = false ∨ 3 ≤ s.pwr.wstate ∨ unitExists cls num = false then s
  else
    let s1 := countEvent cls num unc s
    if unc ∧ (cls = 2 ∨ cls = 1 ∧ table) then stopPart (unitPart s cls num) true s1 else s1

/-- FAULT_PARTITION_RESET: the reset that a fault stop is followed by (R677). -/
def faultReset (p : Nat) (s : State) : State :=
  let q := s.part p
  if q.live && q.faultReset && !q.resetting && !anyActive q then beginReset (.part p) [] s else s

/-! ## The commands -/

/-- ERROR_REPORT (R671). -/
def execErrorReport (cls unit : Nat) (unc : Bool) (s : State) : Ans :=
  .next (if cls = 7 then errorReport 1 unit unc true s else errorReport cls unit unc false s)
/-- FAULT_PARTITION_RESET (R677). -/
def execFaultPartitionReset (part : Nat) (s : State) : Ans := .next (if part < 8 then faultReset part s else s)

end Sys2Proof.Machine
end

