-- ==== Sys2Proof/Machine/Power.lean ====
section
/-! DEFINITION. The power manager: the cap loop, the hardware fast limit, the thermal trip, the input thresholds and the ledger (R584 to
R611, R617 to R626, R720). -/

namespace Sys2Proof.Machine

/-- The Foreman's firmware runs: from step 4 on, awake, with a reference clock. -/
def foremanUp (s : State) : Bool :=
  s.board.island && s.board.refclk && decide (4 ≤ s.boot.step) && decide (s.pwr.wstate < 3)

/-- A timebase value that is a multiple of 1,000,000 ns, at which this tick has not run (R600, R617). -/
def atMs (last : Option Nat) (s : State) : Bool := foremanUp s && decide (s.tb % 1000000 = 0) && decide (last ≠ some s.tb)

def pwrCount (o : Nat) (s : State) : State :=
  { s with pwr := { s.pwr with reg := tblUpd (zeros 64) s.pwr.reg o (fun v => counterAdd v 1) } }

/-! ## Steps (R597, R604, R605) -/

/-- A step down by the fast limit: an upward step under way is abandoned; a downward one has its root at its point already, and the
limit goes on from there. A commanded move goes on only if it leads further down. -/
def downStep (s : State) : State :=
  let s1 := match s.pwr.stepTo with
    | some k => if s.pwr.op < k then setOp k s else s
    | none => s
  let k := min 7 (s1.pwr.op + 1)
  { s1 with pwr := { s1.pwr with
      stepTo := if k = s1.pwr.op then none else some k, lastDown := some s1.tb
      goal := s1.pwr.goal.filter (fun g => decide (k < g)) } }

/-- A fixed-mode excursion: it counts once, and once in each job whose frame is running, and is reported (R607). -/
def excursion (s : State) : State :=
  forAll (List.range 8) (fun p s =>
    let q := s.part p
    if q.live ∧ q.frame = .running then
      logMerged 4 p (q.prog (q.cur - 1)).job.jobid []
        (s.updPart p (fun q => q.updProg (q.cur - 1) (fun g => { g with job := { g.job with excursions := g.job.excursions + 1 } })))
    else s) (pwrCount 0x028 s)

/-- A source of the fast limit is asserted. When none was, it is a trip; a thermal request causes one step in any case (R603, R604,
R607). -/
def assertSource (i : Nat) (s : State) : State :=
  let old := s.pwr.src
  let s1 := { s with pwr := { s.pwr with src := setBits old i i 1 } }
  if s.board.wetarOn = false then s1
  else if old = 0 then
    let s2 := downStep (pwrCount 0x020 s1)
    let s3 := { s2 with pwr := { s2.pwr with lastFast := some s2.tb } }
    if s3.pwr.fixed then excursion s3 else s3
  else if i = 3 then downStep s1
  else s1

/-- A source is released. -/
def releaseSource (i : Nat) (s : State) : State :=
  let src := setBits s.pwr.src i i 0
  { s with pwr := { s.pwr with src := src, lastFast := if src = 0 then none else s.pwr.lastFast } }

/-- The thermal request is asserted for one step only: it goes when no step is under way. -/
def endPulse (s : State) : State := if s.pwr.stepTo.isNone ∧ bit s.pwr.src 3 then releaseSource 3 s else s

/-- FAST_LIMIT_TRIP: the sensor of a source asserts. The brake is asserted only while PWR_BRAKE_N is low, the thermal source only where
the cap loop pulses it. -/
def fastTrip (i : Nat) (s : State) : State :=
  if s.board.island = false ∨ 5 ≤ i then s
  else if i = 2 ∧ s.board.brakeLow = false then s
  else if i = 3 ∧ (s.pwr.fixed = false ∨ s.pwr.tmax < 105) then s
  else if bit s.pwr.src i then s
  else endPulse (assertSource i s)

/-- FAST_LIMIT_STEP: while a source remains asserted, one further point every 10 µs. -/
def fastStep (s : State) : State :=
  match s.pwr.lastFast with
  | some u =>
    if s.board.wetarOn ∧ s.pwr.src &&& 0x17 ≠ 0 ∧ u + 10000 ≤ s.tb then
      let s1 := downStep s
      { s1 with pwr := { s1.pwr with lastFast := some s1.tb } }
    else s
  | none => s

/-- FAST_LIMIT_SOURCE_RELEASE: current, droop or undervoltage deasserts. The brake is released by its pin, a thermal request by its
step. -/
def fastRelease (i : Nat) (s : State) : State := if i = 0 ∨ i = 1 ∨ i = 4 then releaseSource i s else s

/-- OP_STEP_DONE: the die is at the next point. A commanded move goes on to its next. -/
def opStepDone (s : State) : State :=
  match s.pwr.stepTo with
  | some k =>
    let s1 := setOp k s
    toward (endPulse { s1 with pwr := { s1.pwr with stepTo := none } })
  | none => toward s

/-! ## The cap loop (R600) -/

/-- The rail voltage of a point in 10 mV (R596). -/
def railV (op : Nat) : Nat := [88, 84, 80, 76, 72, 68, 65, 62].getD op 62

/-- P × ratio(k, k − 1) ≤ 0.97 × C, with P in 0.1 W. -/
def fitsUp (p k c : Nat) : Bool :=
  decide (100 * p * coreMHz (k - 1) * railV (k - 1) ^ 2 ≤ 970 * c * coreMHz k * railV k ^ 2)

/-- The tick's decision, on power in 0.1 W and temperature. -/
def capStep (p t : Nat) (s : State) : State :=
  let k := s.pwr.op
  let step := fun (k : Nat) (s : State) => { s with pwr := { s.pwr with stepTo := some k } }
  let rested : Bool := match s.pwr.lastDown with
    | some u => decide (u + 10000000 ≤ s.tb)
    | none => true
  if s.pwr.fixed then
    if 105 ≤ t then endPulse (assertSource 3 s)
    else if s.pwr.fixOp < k ∧ s.pwr.src = 0 ∧ t < 100 then step (k - 1) s
    else s
  else if 10 * capNow s < p ∨ 105 ≤ t then
    if k < 7 then step (k + 1) { s with pwr := { s.pwr with lastDown := some s.tb } } else s
  else if ceilNow s < k ∧ s.pwr.src = 0 ∧ t < 100 ∧ rested ∧ fitsUp p k (capNow s) then step (k - 1) s
  else s

/-- CAP_TICK: the input monitor and the sensors are read, and the loop decides while Wetar is powered. -/
def capTick (vin iin pin tj : Nat) (s : State) : State :=
  if atMs s.pwr.lastTick s = false then s
  else
    let s1 := { s with pwr := { s.pwr with vin := vin, iin := iin, pin := pin, tmax := tj, lastTick := some s.tb } }
    if s1.board.wetarOn then capStep pin tj s1 else s1

/-! ## Losing power (R586, R602, R612) -/

/-- Wetar, the I/O dies and the GDDR7 devices lose power: their contents are lost. The CXL device's bytes stay. -/
def wetarOff (s : State) : State :=
  let s1 := forAll (List.range 8) (fun p s =>
    if (s.part p).live then
      s.updPart p (fun q => { q with frame := .idle, discard := 0, cur := 0, ramp := 0, marked := false, syncWait := none, synced := false })
    else s) s
  { s1 with
    mem := s1.mem.filter (fun e => decide (0x010000000000 ≤ e.1) && decide (e.1 < 0x050000000000)), bad := []
    cores := [], benches := [], flits := [], arrivals := [], ports := [], welts := [], streams := [], clicker := Clicker.reset
    ring := [], ringTurn := [], ringSide := [], trc := Trace.reset
    pwr := { s1.pwr with stepTo := none, goal := none, lastFast := none }
    board := { s1.board with wetarOn := false, coreLock := false, syncTb := 0 } }

/-- THERMAL_TRIP: a sensor reaches 115 °C. -/
def thermalTrip (t : Nat) (s : State) : State :=
  if s.board.wetarOn = false ∨ t < 115 then s
  else
    let s1 := wetarOff s
    { s1 with
      pwr := { s1.pwr with tmax := t, tripped := true }
      board := { s1.board with thermTrip := true, tripRec := true } }

/-- UNDERVOLTAGE: the input lies below 44 V for 10 µs. -/
def undervoltage (us : Nat) (s : State) : State :=
  if s.board.island = false ∨ us < 10 ∨ bit s.pwr.src 4 then s else assertSource 4 s

/-- INPUT_OPEN: the hot-swap controller opens, and all but MRAM is lost. What the baseboard drives stays. -/
def inputOpen (s : State) : State :=
  { State.reset with
    free := s.free, pending := s.pending
    boot := { Boot.reset with recs := s.boot.recs, images := s.boot.images, selector := s.boot.selector }
    board := { Board.reset with perst := s.board.perst, perstLowAt := s.board.perstLowAt, brakeLow := s.board.brakeLow, refclk := s.board.refclk } }

/-- PWR_BRAKE: the pin low for 40 ns or longer asserts the brake source; its rising edge releases it (R720). -/
def pwrBrake (low : Bool) (ns : Nat) (s : State) : State :=
  if low then
    if ns < 40 ∨ s.board.brakeLow then s
    else
      let s1 := { s with board := { s.board with brakeLow := true } }
      if s1.board.island then assertSource 2 s1 else s1
  else releaseSource 2 { s with board := { s.board with brakeLow := false } }

/-! ## The ledger (R617 to R626) -/

/-- Offsets of the bench activity registers, in the order of the coefficients of R644. -/
def actOffsets : List Nat :=
  [0x6800, 0x6808, 0x6810, 0x6818, 0x6820, 0x6828, 0x6830, 0x6838, 0x6840, 0x6848, 0x6850, 0x6858]

/-- A bench controller copies its activity counters and clears them. -/
def snapBench (b : Nat) (s : State) : State :=
  s.updBench b (fun x =>
    { actOffsets.foldl (fun x o => x.setR o (counterAdd 0 (tblGet nats x.act o))) x with act := [] })

/-- So does a memory port. -/
def snapPort (d : Nat) (s : State) : State :=
  s.updPort d (fun x => { x.setR 0x030 (counterAdd 0 x.actBytes) with actBytes := 0 })

/-- The snapshot of every unit. -/
def snapshot (s : State) : State :=
  let s1 := forAll (s.cores.map (·.1)) countActive s
  let s2 := forAll (s1.ports.map (·.1)) snapPort (forAll (s1.benches.map (·.1)) snapBench s1)
  forAll (List.range 8) addFrameTime { s2 with pwr := { s2.pwr with snapCore := coreNow s2 } }

/-- Coefficient `i` of the calibration record in fJ, and the leakage of a point in 0.1 W (R644). -/
def coef (s : State) (i : Nat) : Nat := leNat (((s.recd 1).body.drop (4 * i)).take 4)
def leakOf (s : State) (k : Nat) : Nat := leNat (((s.recd 1).body.drop (0x34 + 2 * k)).take 2)

/-- The point in force for the larger part of the interval (R621). -/
def intervalOp (s : State) : Nat :=
  (List.range 8).foldl (fun m k => if tblGet nats s.pwr.opNs m < tblGet nats s.pwr.opNs k then k else m) s.pwr.op

/-- A quotient in the ledger's unit; where it is not whole, the direction of the rounding is free (R625). -/
def rounded (n d : Nat) (s : State) : Nat × State :=
  if n % d = 0 then (n / d, s) else (n / d + b2n (Config.roundUp s.free), { s with free := s.free + 1 })

/-- The largest number below 2^n that passes a test which all smaller ones pass. -/
def largest : Nat → (Nat → Bool) → Nat → Nat
  | 0, _, m => m
  | n + 1, ok, m => if ok (m + 2 ^ n) then largest n ok (m + 2 ^ n) else largest n ok m

/-- n × 2^((t − 85) / 20) / d in the ledger's unit (R620). -/
def leakage (n d t : Nat) (s : State) : Nat × State :=
  let low := fun (m : Nat) => (m * d) ^ 20 * 2 ^ (85 - t)
  let high := n ^ 20 * 2 ^ (t - 85)
  let m := largest 56 (fun m => decide (low m ≤ high)) 0
  if low m = high then (m, s) else (m + b2n (Config.roundUp s.free), { s with free := s.free + 1 })

/-- Activity of a partition in fJ × 6,400 at a point: its benches' counts, and the bytes of its ports (R619, R621). -/
def activity (s : State) (p k : Nat) : Nat :=
  let q := s.part p
  let benches := (benchesOf s p).foldl (fun n b =>
    ((List.range 12).zip actOffsets).foldl (fun n e => n + counterCount ((s.bench b).r e.2) * coef s e.1) n) 0
  let bytes := (List.range 16).foldl (fun n d => if ownsMem q d then n + counterCount ((s.port d).r 0x030) else n) 0
  benches * railV k ^ 2 + bytes * coef s 12 * 6400

/-- The estimate E_p in nJ. -/
def estimate (p k t : Nat) (s : State) : Nat × State :=
  let q := s.part p
  let (a, s1) := rounded (activity s p k) (6400 * 10 ^ 6) s
  let (l, s2) := leakage (leakOf s k * 10 ^ 5 * (q.w * q.h)) 128 t s1
  (a + l, s2)

/-- The estimates of the partitions that exist. -/
def estimates (k t : Nat) (s : State) : List (Nat × Nat) × State :=
  (List.range 8).foldl (fun r p =>
    if (r.2.part p).live then
      let (e, s1) := estimate p k t r.2
      (r.1 ++ [(p, e)], s1)
    else r) ([], s)

/-- Charge a partition and its jobs: `c` its charge, `u` the unattributed energy, `len` the interval in ns (R623, R624). -/
def chargePart (u len p c : Nat) (s : State) : State :=
  let n := (s.part p).w * (s.part p).h
  forAll (List.range 16) (fun i s =>
    let ran := ((s.part p).prog i).ranNs
    if ran = 0 then s
    else
      let (e, s1) := rounded (ran * c) len s
      let (v, s2) := rounded (u * n * ran) (128 * len) s1
      s2.updPart p (fun q => q.updProg i (fun g =>
        { g with ranNs := 0, job := { g.job with energy := g.job.energy + e, unattr := g.job.unattr + v } })))
    (s.updPart p (fun q => { q with energy := q.energy + c }))

/-- LEDGER_SNAPSHOT: the snapshot, the estimates, the charges. -/
def ledgerSnapshot (nj sleptNj tmean : Nat) (s : State) : State :=
  if atMs s.pwr.lastSnap s = false then s
  else
    let len := match s.pwr.lastSnap with
      | some u => s.tb - u
      | none => 1000000
    let s1 := setOp s.pwr.op (snapshot s)
    let k := intervalOp s1
    let (es, s2) := estimates k tmean s1
    let sum := (es.map (·.2)).sum
    let extra := if s.pwr.slept then sleptNj else 0
    let u := (if sum ≤ nj then nj - sum else 0) + extra
    let s3 := forAll es (fun e s =>
      if sum ≤ nj then chargePart u len e.1 e.2 s
      else
        let (c, s1) := rounded (e.2 * nj) sum s
        chargePart u len e.1 c s1) s2
    let s4 := if sum ≤ nj then s3 else pwrCount 0x038 s3
    { s4 with pwr := { s4.pwr with
        tmean := tmean, lastSnap := some s.tb, opNs := [], slept := false
        moduleNj := s4.pwr.moduleNj + nj + extra, unattrNj := s4.pwr.unattrNj + u } }

/-! ## The commands -/

/-- CAP_TICK (R600). -/
def execCapTick (vin iin pin tj : Nat) (s : State) : Ans := .next (capTick vin iin pin tj s)
/-- LEDGER_SNAPSHOT (R617). -/
def execLedgerSnapshot (nj sleptNj tmean : Nat) (s : State) : Ans := .next (ledgerSnapshot nj sleptNj tmean s)
/-- OP_STEP_DONE (R597). -/
def execOpStepDone (s : State) : Ans := .next (opStepDone s)
/-- FAST_LIMIT_TRIP (R604). -/
def execFastLimitTrip (src : Nat) (s : State) : Ans := .next (fastTrip src s)
/-- FAST_LIMIT_STEP (R604). -/
def execFastLimitStep (s : State) : Ans := .next (fastStep s)
/-- FAST_LIMIT_SOURCE_RELEASE (R606). -/
def execFastLimitSourceRelease (src : Nat) (s : State) : Ans := .next (fastRelease src s)
/-- PWR_BRAKE (R720). -/
def execPwrBrake (low : Bool) (ns : Nat) (s : State) : Ans := .next (pwrBrake low ns s)
/-- THERMAL_TRIP (R602). -/
def execThermalTrip (tj : Nat) (s : State) : Ans := .next (thermalTrip tj s)
/-- UNDERVOLTAGE (R586). -/
def execUndervoltage (us : Nat) (s : State) : Ans := .next (undervoltage us s)
/-- INPUT_OPEN (R586). -/
def execInputOpen (s : State) : Ans := .next (inputOpen s)

end Sys2Proof.Machine
end

