-- ==== Sys2Proof/Machine/Startup.lean ====
section
/-! DEFINITION. Start-up, the idle ladder, PERST_N and the reference clock (R586, R612 to R616, R627 to R636, R645 to R661, R683, R720,
R725). -/

namespace Sys2Proof.Machine

/-! ## Power-on (R586, R627 step 1) -/

/-- POWER_ON: the bulk rises through 44 V. The always-on island powers up, the timebase starts at 0, the slot number is sampled. -/
def powerOn (slot : Nat) (s : State) : State :=
  if s.board.island then s
  else
    { s with
      tb := 0
      board := { s.board with power52 := true, island := true, slot := slot % 16, clkLoss := !s.board.refclk } }

/-! ## The steps (R627) -/

/-- Start-up fails: it stays in its step, and MOD_ALERT_N goes low (R630, R661). -/
def startFail (why : Nat) (s : State) : State :=
  { s with boot := { s.boot with state := 3, fail := why }, board := { s.board with alert := true } }

def toStep (n : Nat) (s : State) : State := { s with boot := { s.boot with step := n } }

/-- Step 3: the first image that passes, the selector's slot first (R634). -/
def loadImage (s : State) : State :=
  match [s.boot.selector, 1 - s.boot.selector].find? (slotOk s) with
  | some k => toStep 4 { s with boot := { s.boot with running := k } }
  | none => startFail 1 s

/-- The settings of records 3, 4 and 7 come into force; they stay until the next module reset (R592, R637). -/
def loadSettings (s : State) : State :=
  let role := (s.recd 4).body
  let tr := (s.recd 7).body
  let profile := fieldOf (s.recd 3).body 0 1
  { s with
    boot := { s.boot with
      loaded := true, site := fieldOf role 0 1, crew := fieldOf role 1 1, member := fieldOf role 2 1
      etype := fieldOf tr 0 2, vid := fieldOf tr 2 2, pcp := fieldOf tr 4 1 }
    pwr := { s.pwr with profile := profile, hostCap := profileCap profile, ialarm := 96 * profileCap profile / 460 } }

/-- Step 4: the records, and the identity key from a fresh PUF response (R637, R662, R663). -/
def readRecords (bad : Bool) (s : State) : State :=
  if bad then startFail 6 s
  else
    let s1 := if s.boot.loaded then s else loadSettings s
    let s2 := { s1 with boot := { s1.boot with keyNo := s1.free }, free := s1.free + 1 }
    toStep 5 (if identityOk s2 then s2 else logEvent 17 0xFF 2 (leBytes 1 4) s2)

/-- Bits of a set of ports. -/
def portBits (l : List Nat) : Nat := bitMap 16 (fun d => l.contains d)

/-- Step 8: the failures of BIST; each counts as one uncorrectable event of its unit (R648, R669). -/
def bist (r : StepReport) (s : State) : State :=
  let m := (s.recd 2).body
  let s1 := putMap m { s with boot := { s.boot with
    badCores := r.badCores, badStations := r.badStations, memOut := portBits r.badMem, weltOut := portBits r.badWelt % 2 ^ 8 } }
  let s2 := forAll r.badCores (fun e s => match logCore m e.1 e.2.1 e.2.2 with
    | some c => countEvent 0 c true s
    | none => s) s1
  let s3 := forAll r.badStations (fun e s => match logBench m e.1 e.2 with
    | some b => countEvent 1 b true s
    | none => s) s2
  let s4 := forAll (r.badMem.filter (fun d => decide (d < 16))) (fun d s => countEvent 4 d true s) s3
  let s5 := forAll (r.badWelt.filter (fun w => decide (w < 8))) (fun w s => countEvent 5 w true s) s4
  if r.moduleBad then startFail 4 s5 else toStep 9 s5

/-- Step 9: the logical map; the repairs that waited for a reset are in it (R654). -/
def buildMap (s : State) : State :=
  match cobble s with
  | (true, s1) => toStep 10 (clearUnits (fun u => u.fenced && decide (u.repair = 1)) s1)
  | (false, s1) => startFail 3 s1

/-- Step 11: Ready or degraded Ready. The ports that passed are up, and the anti-rollback counter is raised to the running image's
version (R636, R660). -/
def enterReady (s : State) : State :=
  let svn := (s.image s.boot.running).svn
  let up := (List.range 8).filter (fun w => !bit s.boot.weltOut w)
  let s1 := forAll up (fun w s => s.updWelt w (fun y => y.setR 0 (BitVec.ofNat 64 ((y.r 0).toNat / 2 * 2 + 1)))) (toStep 11 s)
  let s2 := recheck { s1 with boot := { s1.boot with state := 1 } }
  let s3 := { s2 with pwr := { s2.pwr with idleSince := s2.tb } }
  if rollback s3 < svn then changeRec 5 (svn - rollback s3) (s3.recd 5).body s3 else s3

/-- Step 10: the link checks (R657, R658). -/
def checkLinks (r : StepReport) (s : State) : State :=
  if r.ucieBad then startFail 2 s
  else
    let s1 := { s with boot := { s.boot with
      memOut := s.boot.memOut ||| portBits r.gddrFail, weltOut := s.boot.weltOut ||| portBits r.ethFail % 2 ^ 8
      cxlOk := r.cxlAttached && !r.cxlFail, cxlGiB := if r.cxlAttached && !r.cxlFail then min r.cxlGiB 4096 else 0
      deg := 4 * b2n (r.cxlAttached && r.cxlFail) + 8 * b2n r.pcieLow } }
    if s1.boot.memOut % 2 ^ 16 = 2 ^ 16 - 1 then startFail 5 s1 else enterReady s1

/-- A link was fully recalibrated in this step (R647). -/
def noteRetrain (r : StepReport) (s : State) : State := { s with boot := { s.boot with retrain := s.boot.retrain || r.retrain } }

/-- STARTUP_STEP_DONE. While PERST_N is low start-up goes no further than the end of step 1, and the PCIe link does not train (R629,
R720); without a reference clock everything outside the island is held (R725). -/
def startupStep (r : StepReport) (s : State) : State :=
  if s.board.island = false ∨ s.board.refclk = false ∨ 3 ≤ s.pwr.wstate ∨ s.boot.state ≠ 0 ∨ s.board.thermTrip then s
  else match s.boot.step with
    | 1 => if s.board.perst then toStep 2 s else s
    | 2 => toStep 3 s
    | 3 => loadImage s
    | 4 => readRecords r.recordBad s
    | 5 => toStep 6 { s with board := { s.board with wetarOn := true } }
    | 6 => toStep 7 (noteRetrain r s)
    | 7 => if s.board.perst then toStep 8 (noteRetrain r s) else s
    | 8 => bist r s
    | 9 => buildMap s
    | 10 => checkLinks r (noteRetrain r s)
    | _ => s

/-! ## The idle ladder (R612 to R616) -/

/-- Nothing keeps the module out of W1 (R613). -/
def quietNow (s : State) : Bool :=
  (List.range 8).all (fun p => !(s.part p).live || (!anyActive (s.part p) && decide ((s.part p).ramp = 0))) &&
    (List.range 8).all (fun w => decide ((s.welt w).tx = [])) && decide (s.fmn.moves = [])

/-- IDLE_W1_ENTRY: 1 ms of quiet. -/
def enterW1 (s : State) : State :=
  if ready s && s.board.wetarOn && decide (s.pwr.wstate = 0) && quietNow s && decide (s.pwr.idleSince + 1000000 ≤ s.tb) then
    { s with pwr := { s.pwr with wstate := 1, idleSince := s.tb } }
  else s

/-- IDLE_W2_ENTRY: 100 ms in W1. -/
def enterW2 (s : State) : State :=
  if s.pwr.wstate = 1 ∧ s.pwr.idleSince + 100000000 ≤ s.tb then { s with pwr := { s.pwr with wstate := 2 } } else s

/-- IDLE_EXIT: a host command (0), a BAR2 access (1) or a DATA frame (2). -/
def idleExit (cause : Nat) (s : State) : State := if cause < 3 then wake s else s

/-- A request for W3 or W4 is permitted. -/
def mayDoze (s : State) : Bool := foremanUp s && (List.range 8).all (fun p => !(s.part p).live)

/-- A request is refused. -/
def refuseIdle (s : State) : State := { s with pwr := { s.pwr with idleRefused := true } }

/-- W3 or W4 is entered: Wetar, the I/O dies and GDDR7 go off; in W4 the Foreman's memory too, and only the island, the verified
image, MRAM and the timebase stay. What the host was sent stays sent. -/
def doze (k : Nat) (s : State) : State :=
  if mayDoze s = false then refuseIdle s
  else
    let s1 := wetarOff s
    { s1 with
      fmn := if k = 4 then { Fmn.reset with msix := s1.fmn.msix, hostOut := s1.fmn.hostOut, hostMem := s1.fmn.hostMem } else s1.fmn
      pwr := { s1.pwr with wstate := k, slept := true, idleRefused := false } }

/-- A wake from W3 resumes start-up at step 5, one from W4 at step 4 (R616). In any other state there is nothing to wake. -/
def wakeUp (s : State) : State :=
  if s.pwr.wstate = 3 ∨ s.pwr.wstate = 4 then
    { s with
      pwr := { s.pwr with wstate := 0 }
      boot := { s.boot with step := if s.pwr.wstate = 3 then 5 else 4, state := 0, retrain := false, deg := 0 } }
  else s

/-! ## PERST_N (R629, R683, R720) -/

/-- PERST_N_ASSERT, held low for `ns` so far. From 1 µs to 100 µs it counts in W3 and W4 only, where its rising edge wakes the module; from
100 µs on it is a module reset, once. -/
def perstAssert (ns : Nat) (s : State) : State :=
  let low := fun (s : State) => { s with board := { s.board with perst := false } }
  if ns < 1000 then s
  else if ns < 100000 then (if s.board.island ∧ 3 ≤ s.pwr.wstate then low s else s)
  else if s.board.island = false ∨ s.board.perstLowAt.isSome then low s
  else askModuleReset { low s with board := { (low s).board with perstLowAt := some s.tb } }

/-- PERST_N_DEASSERT: the rising edge. -/
def perstDeassert (s : State) : State :=
  if s.board.perst then s
  else
    let s1 := { s with board := { s.board with perst := true, perstLowAt := none } }
    if s1.board.island ∧ 3 ≤ s1.pwr.wstate then wakeUp s1
    else s1

/-! ## The reference clock (R725) -/

/-- REFCLK_LOSS: CLKLOSS is set and everything outside the island is held in reset. What a thermal trip set stays until a module reset. -/
def refclkLoss (s : State) : State :=
  let gone := fun (s : State) => { s with board := { s.board with refclk := false } }
  if s.board.refclk = false ∨ s.board.island = false then gone s
  else
    let m := moduleReset s
    { m with
      pwr := { m.pwr with tripped := s.pwr.tripped, tmax := s.pwr.tmax }
      board := { m.board with refclk := false, clkLoss := true, thermTrip := s.board.thermTrip, held := s.board.held } }

/-- REFCLK_RETURN: a module reset. -/
def refclkReturn (s : State) : State :=
  let back := { s with board := { s.board with refclk := true } }
  if s.board.refclk ∨ s.board.island = false then back else askModuleReset back

/-! ## The commands -/

/-- POWER_ON (R627). -/
def execPowerOn (slot : Nat) (s : State) : Ans := .next (powerOn slot s)
/-- STARTUP_STEP_DONE (R627). -/
def execStartupStepDone (r : StepReport) (s : State) : Ans := .next (startupStep r s)
/-- IDLE_W1_ENTRY (R613). -/
def execIdleW1Entry (s : State) : Ans := .next (enterW1 s)
/-- IDLE_W2_ENTRY (R614). -/
def execIdleW2Entry (s : State) : Ans := .next (enterW2 s)
/-- IDLE_EXIT (R613). -/
def execIdleExit (cause : Nat) (s : State) : Ans := .next (idleExit cause s)
/-- ENTER_W3 (R615). -/
def execEnterW3 (s : State) : Ans := .next (doze 3 s)
/-- ENTER_W4 (R615). -/
def execEnterW4 (s : State) : Ans := .next (doze 4 s)
/-- IDLE_WAKE (R616). -/
def execIdleWake (s : State) : Ans := .next (wakeUp s)
/-- PERST_N_ASSERT (R683). -/
def execPerstNAssert (ns : Nat) (s : State) : Ans := .next (perstAssert ns s)
/-- PERST_N_DEASSERT (R629). -/
def execPerstNDeassert (s : State) : Ans := .next (perstDeassert s)
/-- REFCLK_LOSS (R725). -/
def execRefclkLoss (s : State) : Ans := .next (refclkLoss s)
/-- REFCLK_RETURN (R725). -/
def execRefclkReturn (s : State) : Ans := .next (refclkReturn s)

end Sys2Proof.Machine
end

