-- ==== Sys2Proof/Machine/Board.lean ====
section
/-! DEFINITION. The I3C target that board management reads (R615, R630, R726 to R728). -/

namespace Sys2Proof.Machine

/-! ## The register map (R728) -/

/-- FMN_BOOT (R630). -/
def bootWord (s : State) : Nat :=
  s.boot.step + s.boot.state * 2 ^ 4 + b2n s.boot.retrain * 2 ^ 6 + s.boot.fail * 2 ^ 8 + s.boot.deg % 16 * 2 ^ 16

/-- FMN_IDLEREQ as read (R615): REQ is write-only. -/
def idleByte (s : State) : Nat := b2n s.pwr.idleRefused * 2 ^ 3 + s.pwr.wstate * 2 ^ 4

/-- FMN_TJ over I3C: what Wetar's sensors give reads 0 while Wetar is unpowered. -/
def tjWord (s : State) : Nat :=
  (if s.board.wetarOn then s.pwr.tmax + s.pwr.tmean * 2 ^ 8 else 0) + b2n s.pwr.tripped * 2 ^ 16

/-- UID, which reads 0 until step 4 ends. -/
def uidBytes (s : State) : List Byte := if s.boot.loaded then (s.recd 0).body.take 16 else []

/-- The slot number and CLKLOSS. -/
def slotByte (s : State) : Nat := s.board.slot + b2n s.board.clkLoss * 2 ^ 4

/-- The registers: offset, bytes. -/
def i3cMap (s : State) : List (Nat × List Byte) :=
  [(0x0000, leBytes (bootWord s) 4), (0x0008, leBytes (idleByte s) 1), (0x0010, leBytes (tjWord s) 8),
    (0x0018, leBytes (pwrRead s 0x008).toNat 8), (0x0020, leBytes (pwrRead s 0x000).toNat 8), (0x0028, leBytes s.tb 8),
    (0x0030, uidBytes s), (0x0040, leBytes (slotByte s) 1)]

/-- A byte of the map; unmapped offsets read 0 (R727). -/
def i3cByte (s : State) (o : Nat) : Byte :=
  match (i3cMap s).find? (fun e => decide (e.1 ≤ o) && decide (o < e.1 + e.2.length)) with
  | some e => e.2.getD (o - e.1) 0
  | none => 0

/-! ## Transfers (R727) -/

/-- A write of FMN_IDLEREQ: bit 3 clears REFUSED; then REQ is taken, and a value that is none of 0, 3, 4 and 5 is refused. -/
def idleReq (v : Byte) (s : State) : State :=
  let s1 := if v.getLsbD 3 then { s with pwr := { s.pwr with idleRefused := false } } else s
  match v.toNat % 8 with
  | 0 => s1
  | 3 => doze 3 s1
  | 4 => doze 4 s1
  | 5 => wakeUp { s1 with pwr := { s1.pwr with idleRefused := false } }
  | _ => refuseIdle s1

/-- One data byte of a write transfer. -/
def i3cPut (o : Nat) (v : Byte) (s : State) : State :=
  if o = 0x0008 then idleReq v s
  else if o = 0x0040 ∧ v.getLsbD 4 then { s with board := { s.board with clkLoss := false } }
  else s

/-- I3C_WRITE: the register offset, then data bytes from it upward. -/
def i3cWrite (off : Nat) (l : List Byte) (s : State) : State :=
  if s.board.island = false then s
  else
    forAll ((List.range l.length).zip l) (fun e s => i3cPut (off % 2 ^ 16 + e.1) e.2 s)
      { s with board := { s.board with i3cOff := off % 2 ^ 16 } }

/-- I3C_READ: `n` bytes from the offset, which each advances. All bytes of the transfer are taken at one moment, so every register read
in it is whole. -/
def i3cRead (n : Nat) (s : State) : State :=
  if s.board.island = false then s
  else
    { s with board := { s.board with
      i3cOut := (List.range n).map (fun i => i3cByte s ((s.board.i3cOff + i) % 2 ^ 16)), i3cOff := (s.board.i3cOff + n) % 2 ^ 16 } }

/-- DYNAMIC_ADDRESS_ASSIGN (R726). -/
def assignAddr (a : Nat) (s : State) : State :=
  if s.board.island then { s with board := { s.board with i3cAddr := some a } } else s

/-! ## The commands -/

/-- I3C_WRITE (R727). -/
def execI3cWrite (off : Nat) (bytes : List Byte) (s : State) : Ans := .next (i3cWrite off bytes s)
/-- I3C_READ (R727). -/
def execI3cRead (n : Nat) (s : State) : Ans := .next (i3cRead n s)
/-- DYNAMIC_ADDRESS_ASSIGN (R726). -/
def execDynamicAddressAssign (addr : Nat) (s : State) : Ans := .next (assignAddr addr s)

end Sys2Proof.Machine
end

