-- ==== Sys2Proof/Machine/Tracing.lean ====
section
/-! DEFINITION. The ISSUE samples of the cores, and the trace collector (R698 to R707). -/

namespace Sys2Proof.Machine

/-! ## ISSUE samples (R698) -/

/-- The context that owns a core's issue slot now (R259). -/
def slotOwner (s : State) (c : Nat) : Nat := cyc s c % nCtx s c

/-- The context that issues in a core's cycle: its owner when that is ready; in shared issue mode the cycle of an owner that neither is
ready nor spins passes to the first ready context after it (R260 to R262). -/
def issuer (s : State) (c : Nat) : Option Nat :=
  let o := slotOwner s c
  let ready := fun (i : Nat) => canIssue s ⟨c, i⟩
  if ready o then some o
  else if nCtx s c = 8 ∨ ((s.core c).ctx o).spinFrom.isSome then none
  else ((List.range (nCtx s c)).map (fun i => (o + i) % nCtx s c)).find? ready

/-- The states of a core's contexts, three bits each, C0 lowest. -/
def stateBits (s : State) (c : Nat) : Nat := (List.range 8).foldl (fun v i => v + stN ((s.core c).ctx i).st * 2 ^ (3 * i)) 0

/-- ISSUE_SAMPLE: at a core cycle that is a multiple of 2^IEXP. -/
def issueSample (c : Nat) (s : State) : State :=
  if (s.core c).cycFrom.isNone ∨ cyc s c % 2 ^ bits s.trc.ctl.toNat 8 4 ≠ 0 then s
  else match issuer s c with
    | some i =>
      let pc := ((s.core c).ctx i).pc
      trace (benchOf c) c i 1 0
        (leBytes pc.toNat 4 ++ [if pc.toNat < 0x100000 then memGet s.mem (localBase c + pc.toNat) else 0] ++ leBytes (stateBits s c) 3) s
    | none => trace (benchOf c) c (slotOwner s c) 1 1 (leBytes 0 4 ++ [0] ++ leBytes (stateBits s c) 3) s

/-! ## The collector (R700 to R707) -/

/-- A line of the buffer goes over the ring to the ring side of its device's controller. -/
def bufferLine (a : Nat) (l : List Byte) (s : State) : State :=
  ringPut traceStop (devStop (a / 2 ^ 36)) (.access 128 (a / 2 ^ 36 + 1) true (a / 64) l (List.replicate 64 true) false .none) s

/-- A record for the buffer: lines are written whole, and at the buffer's end the offset wraps or the collector stops (R704). -/
def toBuffer (r : List Byte) (s : State) : State :=
  let l := s.trc.line ++ r
  if l.length < 64 then { s with trc := { s.trc with line := l } }
  else
    let s1 := bufferLine (s.trc.base + s.trc.off) (l.take 64) s
    let off := s1.trc.off + 64
    let full := decide (2 ^ s1.trc.slog ≤ off)
    let wrap := s1.trc.ctl.getLsbD 3
    { s1 with trc := { s1.trc with
      line := [], off := if full && wrap then 0 else off, wraps := if full && wrap then (s1.trc.wraps + 1) % 2 ^ 32 else s1.trc.wraps
      stopped := s1.trc.stopped || (full && !wrap) } }

/-- A record leaves the collector, to the destinations in force when it was accepted; once the buffer has stopped, a record for it is
dropped and reaches neither (R702, R704). -/
def sendRecord (s : State) : State :=
  match s.trc.queue with
  | [] => s
  | (d, r) :: rest =>
    if s.trc.stopped ∧ bit d 0 then
      { s with trc := { s.trc with
        queue := rest, lost := s.trc.lost + 1, reg := tblUpd (zeros 64) s.trc.reg 0x038 (fun v => counterAdd v 1) } }
    else
    let s1 := { s with trc := { s.trc with queue := rest, reg := tblUpd (zeros 64) s.trc.reg 0x030 (fun v => counterAdd v 1) } }
    let s2 := if bit d 1 then { s1 with trc := { s1.trc with lanes := r :: s1.trc.lanes } } else s1
    if bit d 0 then toBuffer r s2 else s2

/-- TRACE_RECORD_OUT: the collector's oldest record leaves. -/
def traceOut (s : State) : State := if s.board.wetarOn = false then s else sendRecord s

/-! ## The commands -/

/-- ISSUE_SAMPLE (R698). -/
def execIssueSample (core : Nat) (s : State) : Ans := .next (if core < 512 then issueSample core s else s)
/-- TRACE_RECORD_OUT (R702). -/
def execTraceRecordOut (s : State) : Ans := .next (traceOut s)

end Sys2Proof.Machine
end

