-- ==== Sys2Proof/Machine/Dispatch.lean ====
section
/-! DEFINITION. The dispatch: one arm per command, each a direct call of the command's meaning. -/

namespace Sys2Proof.Machine

def exec (i : Instr) (s : State) : Host.Outcome State Fault Refusal :=
  match i with
  | .nop t => Sys2Proof.Machine.execNop t s
  | .dup t => Sys2Proof.Machine.execDup t s
  | .drop t => Sys2Proof.Machine.execDrop t s
  | .swap t => Sys2Proof.Machine.execSwap t s
  | .over t => Sys2Proof.Machine.execOver t s
  | .rot t => Sys2Proof.Machine.execRot t s
  | .nip t => Sys2Proof.Machine.execNip t s
  | .tuck t => Sys2Proof.Machine.execTuck t s
  | .pick t => Sys2Proof.Machine.execPick t s
  | .depth t => Sys2Proof.Machine.execDepth t s
  | .tor t => Sys2Proof.Machine.execTor t s
  | .fromr t => Sys2Proof.Machine.execFromr t s
  | .rcopy t => Sys2Proof.Machine.execRcopy t s
  | .add t => Sys2Proof.Machine.execAdd t s
  | .sub t => Sys2Proof.Machine.execSub t s
  | .neg t => Sys2Proof.Machine.execNeg t s
  | .and t => Sys2Proof.Machine.execAnd t s
  | .or t => Sys2Proof.Machine.execOr t s
  | .xor t => Sys2Proof.Machine.execXor t s
  | .not t => Sys2Proof.Machine.execNot t s
  | .shl t => Sys2Proof.Machine.execShl t s
  | .shr t => Sys2Proof.Machine.execShr t s
  | .sar t => Sys2Proof.Machine.execSar t s
  | .rol t => Sys2Proof.Machine.execRol t s
  | .eq t => Sys2Proof.Machine.execEq t s
  | .lt t => Sys2Proof.Machine.execLt t s
  | .ltu t => Sys2Proof.Machine.execLtu t s
  | .zeq t => Sys2Proof.Machine.execZeq t s
  | .sel t => Sys2Proof.Machine.execSel t s
  | .mul t => Sys2Proof.Machine.execMul t s
  | .mulu t => Sys2Proof.Machine.execMulu t s
  | .macc t => Sys2Proof.Machine.execMacc t s
  | .multiplyResult t => Sys2Proof.Machine.execMultiplyResult t s
  | .rdmlo t => Sys2Proof.Machine.execRdmlo t s
  | .rdmhi t => Sys2Proof.Machine.execRdmhi t s
  | .clz t => Sys2Proof.Machine.execClz t s
  | .popc t => Sys2Proof.Machine.execPopc t s
  | .par t => Sys2Proof.Machine.execPar t s
  | .brev t => Sys2Proof.Machine.execBrev t s
  | .crcb t => Sys2Proof.Machine.execCrcb t s
  | .crcw t => Sys2Proof.Machine.execCrcw t s
  | .ldw t => Sys2Proof.Machine.execLdw t s
  | .stw t => Sys2Proof.Machine.execStw t s
  | .ldh t => Sys2Proof.Machine.execLdh t s
  | .ldhu t => Sys2Proof.Machine.execLdhu t s
  | .sth t => Sys2Proof.Machine.execSth t s
  | .ldb t => Sys2Proof.Machine.execLdb t s
  | .ldbu t => Sys2Proof.Machine.execLdbu t s
  | .stb t => Sys2Proof.Machine.execStb t s
  | .tas t => Sys2Proof.Machine.execTas t s
  | .br t => Sys2Proof.Machine.execBr t s
  | .bz t => Sys2Proof.Machine.execBz t s
  | .bnz t => Sys2Proof.Machine.execBnz t s
  | .call t => Sys2Proof.Machine.execCall t s
  | .callx t => Sys2Proof.Machine.execCallx t s
  | .ret t => Sys2Proof.Machine.execRet t s
  | .jmp t => Sys2Proof.Machine.execJmp t s
  | .loop t => Sys2Proof.Machine.execLoop t s
  | .leave t => Sys2Proof.Machine.execLeave t s
  | .rdsr t => Sys2Proof.Machine.execRdsr t s
  | .wrsr t => Sys2Proof.Machine.execWrsr t s
  | .literalRun t ds => Sys2Proof.Machine.execLiteralRun t ds s
  | .mma t last => Sys2Proof.Machine.execMma t last s
  | .accz t last => Sys2Proof.Machine.execAccz t last s
  | .accrd t last => Sys2Proof.Machine.execAccrd t last s
  | .tfree t last => Sys2Proof.Machine.execTfree t last s
  | .tld t last => Sys2Proof.Machine.execTld t last s
  | .tldt t last => Sys2Proof.Machine.execTldt t last s
  | .tldc t last => Sys2Proof.Machine.execTldc t last s
  | .tlds t last => Sys2Proof.Machine.execTlds t last s
  | .tldp t last => Sys2Proof.Machine.execTldp t last s
  | .tst t last => Sys2Proof.Machine.execTst t last s
  | .tstt t last => Sys2Proof.Machine.execTstt t last s
  | .tstc t last => Sys2Proof.Machine.execTstc t last s
  | .tsts t last => Sys2Proof.Machine.execTsts t last s
  | .tstp t last => Sys2Proof.Machine.execTstp t last s
  | .tcvt t last => Sys2Proof.Machine.execTcvt t last s
  | .qnt t last => Sys2Proof.Machine.execQnt t last s
  | .vadd t last => Sys2Proof.Machine.execVadd t last s
  | .vmul t last => Sys2Proof.Machine.execVmul t last s
  | .vmax t last => Sys2Proof.Machine.execVmax t last s
  | .vmin t last => Sys2Proof.Machine.execVmin t last s
  | .vfma t last => Sys2Proof.Machine.execVfma t last s
  | .vrsum t last => Sys2Proof.Machine.execVrsum t last s
  | .vrmax t last => Sys2Proof.Machine.execVrmax t last s
  | .vrmin t last => Sys2Proof.Machine.execVrmin t last s
  | .vact t last => Sys2Proof.Machine.execVact t last s
  | .vactld t last => Sys2Proof.Machine.execVactld t last s
  | .tileOpStart core => Sys2Proof.Machine.execTileOpStart core s
  | .tileBeat t => Sys2Proof.Machine.execTileBeat t s
  | .tileOpComplete t => Sys2Proof.Machine.execTileOpComplete t s
  | .mmaComplete t => Sys2Proof.Machine.execMmaComplete t s
  | .asyw t => Sys2Proof.Machine.execAsyw t s
  | .assayWindowStart bench => Sys2Proof.Machine.execAssayWindowStart bench s
  | .assayWindowEnd bench => Sys2Proof.Machine.execAssayWindowEnd bench s
  | .assaySampleDone bench => Sys2Proof.Machine.execAssaySampleDone bench s
  | .copen t => Sys2Proof.Machine.execCopen t s
  | .copenAnswer t => Sys2Proof.Machine.execCopenAnswer t s
  | .csend t => Sys2Proof.Machine.execCsend t s
  | .csendCommit t => Sys2Proof.Machine.execCsendCommit t s
  | .csendTimeout t => Sys2Proof.Machine.execCsendTimeout t s
  | .cput t => Sys2Proof.Machine.execCput t s
  | .crecv t => Sys2Proof.Machine.execCrecv t s
  | .cclose t => Sys2Proof.Machine.execCclose t s
  | .cabort t => Sys2Proof.Machine.execCabort t s
  | .cstat t => Sys2Proof.Machine.execCstat t s
  | .creditArrival bench => Sys2Proof.Machine.execCreditArrival bench s
  | .channelDrain core h => Sys2Proof.Machine.execChannelDrain core h s
  | .channelAbortDone core h => Sys2Proof.Machine.execChannelAbortDone core h s
  | .receiverAbortNotice core h => Sys2Proof.Machine.execReceiverAbortNotice core h s
  | .closeNotice core q => Sys2Proof.Machine.execCloseNotice core q s
  | .queueArm w core q v => Sys2Proof.Machine.execQueueArm w core q v s
  | .queueDisarm w core q v => Sys2Proof.Machine.execQueueDisarm w core q v s
  | .clickerRequest => Sys2Proof.Machine.execClickerRequest s
  | .clickerServe => Sys2Proof.Machine.execClickerServe s
  | .pathRelease src conn => Sys2Proof.Machine.execPathRelease src conn s
  | .pathRoutersFreed src conn => Sys2Proof.Machine.execPathRoutersFreed src conn s
  | .servicePathRequest src dst => Sys2Proof.Machine.execServicePathRequest src dst s
  | .meshCycle env => Sys2Proof.Machine.execMeshCycle env s
  | .flitArrival bench => Sys2Proof.Machine.execFlitArrival bench s
  | .memoryRequest dev => Sys2Proof.Machine.execMemoryRequest dev s
  | .gddr7AccessDone dev acc err => Sys2Proof.Machine.execGddr7AccessDone dev acc err s
  | .replySlot dev => Sys2Proof.Machine.execReplySlot dev s
  | .reserveSlotDelivery dev => Sys2Proof.Machine.execReserveSlotDelivery dev s
  | .memoryReplyArrival bench => Sys2Proof.Machine.execMemoryReplyArrival bench s
  | .ringSideAccess err => Sys2Proof.Machine.execRingSideAccess err s
  | .ringPacketArrival stop => Sys2Proof.Machine.execRingPacketArrival stop s
  | .cxlAccessComplete poison => Sys2Proof.Machine.execCxlAccessComplete poison s
  | .fillComplete bench => Sys2Proof.Machine.execFillComplete bench s
  | .globalLoadReturn t => Sys2Proof.Machine.execGlobalLoadReturn t s
  | .fence t syl => Sys2Proof.Machine.execFence t syl s
  | .fenceDone t => Sys2Proof.Machine.execFenceDone t s
  | .invalidate w bench v => Sys2Proof.Machine.execInvalidate w bench v s
  | .flush w bench v => Sys2Proof.Machine.execFlush w bench v s
  | .convert w bench v => Sys2Proof.Machine.execConvert w bench v s
  | .restore w bench v => Sys2Proof.Machine.execRestore w bench v s
  | .rangeAbort w bench => Sys2Proof.Machine.execRangeAbort w bench s
  | .rangeComplete bench => Sys2Proof.Machine.execRangeComplete bench s
  | .ppost t => Sys2Proof.Machine.execPpost t s
  | .pstat t => Sys2Proof.Machine.execPstat t s
  | .pabort t => Sys2Proof.Machine.execPabort t s
  | .descriptorStart core slot => Sys2Proof.Machine.execDescriptorStart core slot s
  | .descriptorAborted core slot => Sys2Proof.Machine.execDescriptorAborted core slot s
  | .tadd t syl => Sys2Proof.Machine.execTadd t syl s
  | .tsub t syl => Sys2Proof.Machine.execTsub t syl s
  | .tread t syl => Sys2Proof.Machine.execTread t syl s
  | .tarrive t syl => Sys2Proof.Machine.execTarrive t syl s
  | .twatch t syl => Sys2Proof.Machine.execTwatch t syl s
  | .tallyOpArrival bench => Sys2Proof.Machine.execTallyOpArrival bench s
  | .wakeArrival t => Sys2Proof.Machine.execWakeArrival t s
  | .watchTimeout t => Sys2Proof.Machine.execWatchTimeout t s
  | .watchCancelArrival bench => Sys2Proof.Machine.execWatchCancelArrival bench s
  | .tallyResultArrival t => Sys2Proof.Machine.execTallyResultArrival t s
  | .tallyResultLost t => Sys2Proof.Machine.execTallyResultLost t s
  | .generationDeferEnd tally => Sys2Proof.Machine.execGenerationDeferEnd tally s
  | .fork t => Sys2Proof.Machine.execFork t s
  | .join t => Sys2Proof.Machine.execJoin t s
  | .joinWake t => Sys2Proof.Machine.execJoinWake t s
  | .joinTimeout t => Sys2Proof.Machine.execJoinTimeout t s
  | .quit t => Sys2Proof.Machine.execQuit t s
  | .threadEnd t => Sys2Proof.Machine.execThreadEnd t s
  | .thsusp t => Sys2Proof.Machine.execThsusp t s
  | .thresm t => Sys2Proof.Machine.execThresm t s
  | .rdtsr t => Sys2Proof.Machine.execRdtsr t s
  | .wrtsr t => Sys2Proof.Machine.execWrtsr t s
  | .coreTctlEndWrite w t v => Sys2Proof.Machine.execCoreTctlEndWrite w t v s
  | .coreTpcWrite w t v => Sys2Proof.Machine.execCoreTpcWrite w t v s
  | .coreImodeWrite w core v => Sys2Proof.Machine.execCoreImodeWrite w core v s
  | .coreShmodeWrite w core v => Sys2Proof.Machine.execCoreShmodeWrite w core v s
  | .shareClassWrite w core n v => Sys2Proof.Machine.execShareClassWrite w core n v s
  | .stackAreaWrite w t n v => Sys2Proof.Machine.execStackAreaWrite w t n v s
  | .saveAreaWrite w t n v => Sys2Proof.Machine.execSaveAreaWrite w t n v s
  | .faultRingWrite w core n v => Sys2Proof.Machine.execFaultRingWrite w core n v s
  | .coreTfmtWrite w t n v => Sys2Proof.Machine.execCoreTfmtWrite w t n v s
  | .coreGwinWrite w core n v => Sys2Proof.Machine.execCoreGwinWrite w core n v s
  | .coreCycLoRead t => Sys2Proof.Machine.execCoreCycLoRead t s
  | .counterClear w a => Sys2Proof.Machine.execCounterClear w a s
  | .registerWrite w a v => Sys2Proof.Machine.execRegisterWrite w a v s
  | .benchPvselWrite w bench v => Sys2Proof.Machine.execBenchPvselWrite w bench v s
  | .assayClear w bench => Sys2Proof.Machine.execAssayClear w bench s
  | .sysc t n => Sys2Proof.Machine.execSysc t n s
  | .retx t => Sys2Proof.Machine.execRetx t s
  | .unhold t => Sys2Proof.Machine.execUnhold t s
  | .holdExpiry t => Sys2Proof.Machine.execHoldExpiry t s
  | .isync t => Sys2Proof.Machine.execIsync t s
  | .ldr t => Sys2Proof.Machine.execLdr t s
  | .stc t => Sys2Proof.Machine.execStc t s
  | .ucnn t nn => Sys2Proof.Machine.execUcnn t nn s
  | .microcodeStart core => Sys2Proof.Machine.execMicrocodeStart core s
  | .microcodeEnd core => Sys2Proof.Machine.execMicrocodeEnd core s
  | .interruptEntry core => Sys2Proof.Machine.execInterruptEntry core s
  | .injection t word => Sys2Proof.Machine.execInjection t word s
  | .frameStart part => Sys2Proof.Machine.execFrameStart part s
  | .frameEnd part => Sys2Proof.Machine.execFrameEnd part s
  | .quietPeriodEnd part => Sys2Proof.Machine.execQuietPeriodEnd part s
  | .timeSliceSwitch part => Sys2Proof.Machine.execTimeSliceSwitch part s
  | .preamble part => Sys2Proof.Machine.execPreamble part s
  | .rampDown part => Sys2Proof.Machine.execRampDown part s
  | .frameSyncEdge => Sys2Proof.Machine.execFrameSyncEdge s
  | .frameSyncMiss part => Sys2Proof.Machine.execFrameSyncMiss part s
  | .weltPacketSend port => Sys2Proof.Machine.execWeltPacketSend port s
  | .weltFrameReceive port f => Sys2Proof.Machine.execWeltFrameReceive port f s
  | .packetCounted stream psn => Sys2Proof.Machine.execPacketCounted stream psn s
  | .rxBufferUncorrectable stream psn => Sys2Proof.Machine.execRxBufferUncorrectable stream psn s
  | .ackTimer stream => Sys2Proof.Machine.execAckTimer stream s
  | .retransmissionTimeout stream psn => Sys2Proof.Machine.execRetransmissionTimeout stream psn s
  | .portDown port => Sys2Proof.Machine.execPortDown port s
  | .portUp port => Sys2Proof.Machine.execPortUp port s
  | .mgmtJoin => Sys2Proof.Machine.execMgmtJoin s
  | .joinAck => Sys2Proof.Machine.execJoinAck s
  | .heartbeat => Sys2Proof.Machine.execHeartbeat s
  | .heartbeatTimer => Sys2Proof.Machine.execHeartbeatTimer s
  | .crewLostTimer module => Sys2Proof.Machine.execCrewLostTimer module s
  | .mgmtCommand => Sys2Proof.Machine.execMgmtCommand s
  | .mgmtResponse => Sys2Proof.Machine.execMgmtResponse s
  | .mgmtLeave => Sys2Proof.Machine.execMgmtLeave s
  | .mailboxHandover m seq cmd payload => Sys2Proof.Machine.execMailboxHandover m seq cmd payload s
  | .mailboxHostWrite m off b => Sys2Proof.Machine.execMailboxHostWrite m off b s
  | .getInfo m => Sys2Proof.Machine.execGetInfo m s
  | .getEvents m => Sys2Proof.Machine.execGetEvents m s
  | .loadProgram m pkg => Sys2Proof.Machine.execLoadProgram m pkg s
  | .unloadProgram m => Sys2Proof.Machine.execUnloadProgram m s
  | .startJob m => Sys2Proof.Machine.execStartJob m s
  | .stopJob m => Sys2Proof.Machine.execStopJob m s
  | .queryJob m => Sys2Proof.Machine.execQueryJob m s
  | .createPartition m => Sys2Proof.Machine.execCreatePartition m s
  | .destroyPartition m => Sys2Proof.Machine.execDestroyPartition m s
  | .resetScope m => Sys2Proof.Machine.execResetScope m s
  | .resetPoint sc => Sys2Proof.Machine.execResetPoint sc s
  | .resetEnd sc => Sys2Proof.Machine.execResetEnd sc s
  | .setCap m => Sys2Proof.Machine.execSetCap m s
  | .setFixedPoint m => Sys2Proof.Machine.execSetFixedPoint m s
  | .getEnergy m => Sys2Proof.Machine.execGetEnergy m s
  | .setTally m => Sys2Proof.Machine.execSetTally m s
  | .readTally m => Sys2Proof.Machine.execReadTally m s
  | .configTrace m => Sys2Proof.Machine.execConfigTrace m s
  | .readCounters m => Sys2Proof.Machine.execReadCounters m s
  | .writeRecord m => Sys2Proof.Machine.execWriteRecord m s
  | .readRecord m => Sys2Proof.Machine.execReadRecord m s
  | .getAttestation m => Sys2Proof.Machine.execGetAttestation m s
  | .attestationSigned fn => Sys2Proof.Machine.execAttestationSigned fn s
  | .crewJoin m => Sys2Proof.Machine.execCrewJoin m s
  | .crewStatus m => Sys2Proof.Machine.execCrewStatus m s
  | .crewRelay m => Sys2Proof.Machine.execCrewRelay m s
  | .openStreamRx m => Sys2Proof.Machine.execOpenStreamRx m s
  | .openStreamTx m => Sys2Proof.Machine.execOpenStreamTx m s
  | .closeStream m => Sys2Proof.Machine.execCloseStream m s
  | .setTransport m => Sys2Proof.Machine.execSetTransport m s
  | .setAperture m => Sys2Proof.Machine.execSetAperture m s
  | .hostMove m host => Sys2Proof.Machine.execHostMove m host s
  | .fwStage m => Sys2Proof.Machine.execFwStage m s
  | .fwActivate m => Sys2Proof.Machine.execFwActivate m s
  | .bar2Access fn off acc => Sys2Proof.Machine.execBar2Access fn off acc s
  | .bar4Access off acc => Sys2Proof.Machine.execBar4Access off acc s
  | .functionLevelReset fn => Sys2Proof.Machine.execFunctionLevelReset fn s
  | .errorReport cls unit unc => Sys2Proof.Machine.execErrorReport cls unit unc s
  | .faultPartitionReset part => Sys2Proof.Machine.execFaultPartitionReset part s
  | .capTick vin iin pin tj => Sys2Proof.Machine.execCapTick vin iin pin tj s
  | .ledgerSnapshot nj sleptNj tmean => Sys2Proof.Machine.execLedgerSnapshot nj sleptNj tmean s
  | .opStepDone => Sys2Proof.Machine.execOpStepDone s
  | .fastLimitTrip src => Sys2Proof.Machine.execFastLimitTrip src s
  | .fastLimitStep => Sys2Proof.Machine.execFastLimitStep s
  | .pwrBrake low ns => Sys2Proof.Machine.execPwrBrake low ns s
  | .thermalTrip tj => Sys2Proof.Machine.execThermalTrip tj s
  | .undervoltage us => Sys2Proof.Machine.execUndervoltage us s
  | .inputOpen => Sys2Proof.Machine.execInputOpen s
  | .powerOn slot => Sys2Proof.Machine.execPowerOn slot s
  | .startupStepDone r => Sys2Proof.Machine.execStartupStepDone r s
  | .idleW1Entry => Sys2Proof.Machine.execIdleW1Entry s
  | .idleW2Entry => Sys2Proof.Machine.execIdleW2Entry s
  | .idleExit cause => Sys2Proof.Machine.execIdleExit cause s
  | .enterW3 => Sys2Proof.Machine.execEnterW3 s
  | .enterW4 => Sys2Proof.Machine.execEnterW4 s
  | .idleWake => Sys2Proof.Machine.execIdleWake s
  | .perstNAssert ns => Sys2Proof.Machine.execPerstNAssert ns s
  | .perstNDeassert => Sys2Proof.Machine.execPerstNDeassert s
  | .refclkLoss => Sys2Proof.Machine.execRefclkLoss s
  | .refclkReturn => Sys2Proof.Machine.execRefclkReturn s
  | .i3cWrite off bytes => Sys2Proof.Machine.execI3cWrite off bytes s
  | .i3cRead n => Sys2Proof.Machine.execI3cRead n s
  | .dynamicAddressAssign addr => Sys2Proof.Machine.execDynamicAddressAssign addr s
  | .fmnTbRead agent => Sys2Proof.Machine.execFmnTbRead agent s
  | .issueSample core => Sys2Proof.Machine.execIssueSample core s
  | .traceRecordOut => Sys2Proof.Machine.execTraceRecordOut s
  | .crewRelayTimeout m => Sys2Proof.Machine.execCrewRelayTimeout m s
  | .bar2ReadTimeout fn off => Sys2Proof.Machine.execBar2ReadTimeout fn off s
  | .fastLimitSourceRelease src => Sys2Proof.Machine.execFastLimitSourceRelease src s
  | .heldModuleResetStart tmax => Sys2Proof.Machine.execHeldModuleResetStart tmax s
  | .coreSvbaseWrite w core n v => Sys2Proof.Machine.execCoreSvbaseWrite w core n v s
  | .coreJtoWrite w t v => Sys2Proof.Machine.execCoreJtoWrite w t v s

end Sys2Proof.Machine
end

