-- ==== Sys2Proof/Safety.lean ====
section
/-! DEFINITION. The terms statements use: the parts of State a command may change, the conditions under which a thread issues
an instruction that meets no fault, and what every state the module can be in satisfies. -/

namespace Sys2Proof.Machine

/-- The parts of State, by the name of their field. -/
inductive Field where
  | now
  | tb
  | mem
  | bad
  | cores
  | benches
  | flits
  | arrivals
  | ports
  | welts
  | streams
  | parts
  | clicker
  | ring
  | ringTurn
  | ringSide
  | fmn
  | pwr
  | boot
  | trc
  | board
  | faults
  | resets
  | free
  | pending
  deriving DecidableEq, Repr

/-- The part holds in `t` what it holds in `s`. -/
def same (f : Field) (s t : State) : Prop :=
  match f with
  | .now => t.now = s.now
  | .tb => t.tb = s.tb
  | .mem => t.mem = s.mem
  | .bad => t.bad = s.bad
  | .cores => t.cores = s.cores
  | .benches => t.benches = s.benches
  | .flits => t.flits = s.flits
  | .arrivals => t.arrivals = s.arrivals
  | .ports => t.ports = s.ports
  | .welts => t.welts = s.welts
  | .streams => t.streams = s.streams
  | .parts => t.parts = s.parts
  | .clicker => t.clicker = s.clicker
  | .ring => t.ring = s.ring
  | .ringTurn => t.ringTurn = s.ringTurn
  | .ringSide => t.ringSide = s.ringSide
  | .fmn => t.fmn = s.fmn
  | .pwr => t.pwr = s.pwr
  | .boot => t.boot = s.boot
  | .trc => t.trc = s.trc
  | .board => t.board = s.board
  | .faults => t.faults = s.faults
  | .resets => t.resets = s.resets
  | .free => t.free = s.free
  | .pending => t.pending = s.pending

/-- The parts of State each command may change. -/
def touches : Instr → List Field
  | .nop _ | .dup _ | .drop _ | .swap _ | .over _ | .rot _ | .nip _ | .tuck _ | .pick _ | .depth _ | .tor _ | .fromr _
    | .rcopy _ | .add _ | .sub _ | .neg _ | .and _ | .or _ | .xor _ | .not _ | .shl _ | .shr _ | .sar _ | .rol _
    | .eq _ | .lt _ | .ltu _ | .zeq _ | .sel _ | .mul _ | .mulu _ | .macc _ | .rdmlo _ | .rdmhi _ | .clz _ | .popc _
    | .par _ | .brev _ | .crcb _ | .crcw _ | .ldw _ | .ldh _ | .ldhu _ | .ldb _ | .ldbu _ | .tas _ | .br _ | .bz _
    | .bnz _ | .call _ | .callx _ | .ret _ | .jmp _ | .loop _ | .leave _ | .rdsr _ | .wrsr _ | .literalRun _ _
    | .mma _ _ | .accz _ _ | .accrd _ _ | .tfree _ _ | .tld _ _ | .tldt _ _ | .tldc _ _ | .tlds _ _ | .tldp _ _
    | .tst _ _ | .tstt _ _ | .tstc _ _ | .tsts _ _ | .tstp _ _ | .tcvt _ _ | .qnt _ _ | .vadd _ _ | .vmul _ _
    | .vmax _ _ | .vmin _ _ | .vfma _ _ | .vrsum _ _ | .vrmax _ _ | .vrmin _ _ | .vact _ _ | .vactld _ _
    | .tileOpStart _ | .tileBeat _ | .asyw _ | .csend _ | .cput _ | .crecv _ | .cclose _ | .cstat _ | .fillComplete _
    | .globalLoadReturn _ | .fence _ _ | .ppost _ | .pstat _ | .pabort _ | .fork _ | .join _ | .quit _ | .thresm _
    | .rdtsr _ | .wrtsr _ | .coreTctlEndWrite _ _ _ | .coreTpcWrite _ _ _ | .coreImodeWrite _ _ _
    | .coreShmodeWrite _ _ _ | .shareClassWrite _ _ _ _ | .stackAreaWrite _ _ _ _ | .saveAreaWrite _ _ _ _
    | .faultRingWrite _ _ _ _ | .coreTfmtWrite _ _ _ _ | .coreGwinWrite _ _ _ _ | .sysc _ _ | .retx _ | .unhold _
    | .isync _ | .ldr _ | .stc _ | .ucnn _ _ | .microcodeEnd _ | .coreSvbaseWrite _ _ _ _ | .coreJtoWrite _ _ _ =>
    [.mem, .bad, .cores, .benches, .parts, .fmn, .trc, .board, .free]
  | .mgmtCommand | .mailboxHandover _ _ _ _ | .mailboxHostWrite _ _ _ | .getInfo _ | .getEvents _ | .queryJob _
    | .setFixedPoint _ | .getEnergy _ | .readTally _ | .readCounters _ | .readRecord _ | .getAttestation _
    | .crewJoin _ | .crewStatus _ | .crewRelay _ | .setAperture _ =>
    [.welts, .fmn, .pwr]
  | .copen _ | .fenceDone _ | .tadd _ _ | .tsub _ _ | .tread _ _ | .tarrive _ _ | .twatch _ _ | .thsusp _
    | .interruptEntry _ | .injection _ _ =>
    [.mem, .bad, .cores, .benches, .parts, .ring, .fmn, .trc, .board, .free]
  | .portDown _ | .mgmtJoin | .joinAck | .heartbeat | .mgmtResponse | .mgmtLeave | .crewRelayTimeout _ =>
    [.welts, .fmn]
  | .multiplyResult _ | .wakeArrival _ | .tallyResultArrival _ | .tallyResultLost _ | .joinWake _ | .joinTimeout _ =>
    [.mem, .bad, .cores, .benches, .free]
  | .invalidate _ _ _ | .flush _ _ _ | .convert _ _ _ | .restore _ _ _ | .rangeAbort _ _ | .rangeComplete _ =>
    [.mem, .bad, .benches]
  | .opStepDone | .fastLimitStep | .idleW1Entry | .idleW2Entry | .idleExit _ | .fastLimitSourceRelease _ =>
    [.pwr]
  | .stw _ | .sth _ | .stb _ | .counterClear _ _ | .registerWrite _ _ _ =>
    [.mem, .bad, .cores, .benches, .ports, .welts, .parts, .ring, .fmn, .pwr, .trc, .board, .free]
  | .assayWindowStart _ | .assayWindowEnd _ | .descriptorAborted _ _ | .benchPvselWrite _ _ _ =>
    [.benches]
  | .closeNotice _ _ | .queueArm _ _ _ _ | .queueDisarm _ _ _ _ | .servicePathRequest _ _ =>
    [.benches, .ring]
  | .writeRecord _ | .setTransport _ | .fwStage _ | .fwActivate _ =>
    [.welts, .fmn, .pwr, .boot]
  | .perstNAssert _ | .refclkLoss | .refclkReturn | .heldModuleResetStart _ =>
    [.now, .mem, .bad, .cores, .benches, .flits, .arrivals, .ports, .welts, .streams, .parts, .clicker, .ring, .ringTurn, .ringSide, .fmn, .pwr, .boot, .trc, .board, .faults, .resets]
  | .tallyOpArrival _ | .watchCancelArrival _ | .generationDeferEnd _ =>
    [.cores, .benches, .ring, .trc]
  | .crewLostTimer _ | .attestationSigned _ | .bar2ReadTimeout _ _ =>
    [.fmn]
  | .openStreamRx _ | .openStreamTx _ | .closeStream _ =>
    [.welts, .streams, .fmn, .pwr]
  | .capTick _ _ _ _ | .fastLimitTrip _ | .undervoltage _ =>
    [.parts, .fmn, .pwr]
  | .tileOpComplete _ | .mmaComplete _ =>
    [.mem, .bad, .cores, .benches, .parts, .free]
  | .csendTimeout _ | .watchTimeout _ =>
    [.mem, .bad, .cores, .benches, .ring, .trc, .free]
  | .channelDrain _ _ | .channelAbortDone _ _ =>
    [.benches, .clicker, .ring]
  | .receiverAbortNotice _ _ | .threadEnd _ =>
    [.mem, .bad, .cores, .benches, .clicker, .ring, .trc, .free]
  | .clickerRequest | .clickerServe =>
    [.mem, .bad, .cores, .benches, .clicker, .ring, .free]
  | .pathRelease _ _ | .pathRoutersFreed _ _ =>
    [.benches, .clicker]
  | .ringSideAccess _ | .cxlAccessComplete _ =>
    [.ring, .ringSide]
  | .coreCycLoRead _ | .holdExpiry _ =>
    [.cores, .benches, .parts]
  | .frameStart _ | .frameSyncMiss _ =>
    [.cores, .benches, .parts, .trc]
  | .weltFrameReceive _ _ | .retransmissionTimeout _ _ =>
    [.cores, .benches, .welts, .streams, .parts, .fmn, .pwr]
  | .createPartition _ | .setCap _ =>
    [.benches, .welts, .parts, .fmn, .pwr]
  | .enterW3 | .enterW4 =>
    [.mem, .bad, .cores, .benches, .flits, .arrivals, .ports, .welts, .streams, .parts, .clicker, .ring, .ringTurn, .ringSide, .fmn, .pwr, .trc, .board]
  | .i3cRead _ | .dynamicAddressAssign _ =>
    [.board]
  | .assaySampleDone _ =>
    [.bad, .cores, .benches, .free]
  | .copenAnswer _ =>
    [.mem, .bad, .cores, .benches, .ring, .free]
  | .csendCommit _ =>
    [.mem, .bad, .cores, .benches, .trc, .free]
  | .cabort _ =>
    [.mem, .bad, .cores, .benches, .parts, .clicker, .ring, .fmn, .trc, .board, .free]
  | .creditArrival _ =>
    [.mem, .bad, .cores, .benches, .arrivals, .clicker, .ring, .trc, .free]
  | .meshCycle _ =>
    [.now, .mem, .bad, .cores, .benches, .flits, .arrivals, .ports, .welts, .streams, .parts, .ring, .ringTurn, .fmn, .pwr, .trc, .free]
  | .flitArrival _ =>
    [.mem, .bad, .cores, .benches, .arrivals, .welts, .streams, .parts, .ring, .fmn, .trc]
  | .memoryRequest _ =>
    [.mem, .bad, .cores, .benches, .arrivals, .ports, .welts, .parts, .ring, .fmn, .pwr, .free]
  | .gddr7AccessDone _ _ _ =>
    [.ports]
  | .replySlot _ =>
    [.flits, .ports, .parts, .ring]
  | .reserveSlotDelivery _ =>
    [.flits, .ports]
  | .memoryReplyArrival _ =>
    [.mem, .bad, .cores, .benches, .arrivals, .parts, .fmn, .trc]
  | .ringPacketArrival _ =>
    [.mem, .bad, .cores, .benches, .ports, .welts, .parts, .ring, .ringSide, .fmn, .pwr, .trc, .free]
  | .descriptorStart _ _ =>
    [.bad, .cores, .benches, .parts, .ring, .fmn, .trc]
  | .assayClear _ _ =>
    [.cores, .benches]
  | .microcodeStart _ =>
    [.cores]
  | .frameEnd _ =>
    [.cores, .benches, .welts, .parts, .fmn, .pwr]
  | .quietPeriodEnd _ =>
    [.parts]
  | .timeSliceSwitch _ =>
    [.mem, .bad, .cores, .benches, .ports, .parts, .clicker, .ring]
  | .preamble _ =>
    [.cores, .parts, .pwr]
  | .rampDown _ =>
    [.cores, .benches, .parts, .pwr]
  | .frameSyncEdge =>
    [.cores, .benches, .parts, .trc, .board]
  | .weltPacketSend _ =>
    [.cores, .benches, .arrivals, .welts, .parts, .fmn, .pwr, .trc]
  | .packetCounted _ _ =>
    [.benches, .welts, .streams]
  | .rxBufferUncorrectable _ _ =>
    [.welts, .streams]
  | .ackTimer _ =>
    [.welts, .streams, .fmn]
  | .portUp _ =>
    [.welts, .fmn, .boot]
  | .heartbeatTimer =>
    [.welts, .fmn, .free]
  | .loadProgram _ _ =>
    [.mem, .bad, .cores, .benches, .ports, .welts, .streams, .parts, .clicker, .ring, .fmn, .pwr]
  | .unloadProgram _ =>
    [.benches, .welts, .parts, .clicker, .fmn, .pwr]
  | .startJob _ =>
    [.welts, .parts, .fmn, .pwr]
  | .stopJob _ =>
    [.mem, .bad, .cores, .benches, .welts, .parts, .ring, .fmn, .pwr, .free]
  | .destroyPartition _ =>
    [.benches, .welts, .parts, .clicker, .fmn, .pwr, .resets]
  | .resetScope _ =>
    [.welts, .parts, .fmn, .pwr, .resets]
  | .resetPoint _ =>
    [.now, .mem, .bad, .cores, .benches, .flits, .arrivals, .ports, .welts, .streams, .parts, .clicker, .ring, .ringTurn, .ringSide, .fmn, .pwr, .boot, .trc, .board, .faults, .resets, .free]
  | .resetEnd _ =>
    [.mem, .bad, .cores, .benches, .flits, .arrivals, .ports, .welts, .streams, .parts, .clicker, .ring, .ringTurn, .ringSide, .fmn, .pwr, .boot, .trc, .board, .faults, .resets]
  | .setTally _ =>
    [.benches, .welts, .fmn, .pwr, .trc]
  | .configTrace _ =>
    [.welts, .fmn, .pwr, .trc]
  | .hostMove _ _ =>
    [.welts, .ring, .fmn, .pwr]
  | .bar2Access _ _ _ =>
    [.ring, .fmn, .pwr]
  | .bar4Access _ _ =>
    [.fmn, .trc]
  | .functionLevelReset _ =>
    [.parts, .fmn, .resets]
  | .errorReport _ _ _ =>
    [.mem, .bad, .cores, .benches, .welts, .parts, .ring, .fmn, .pwr, .boot, .faults, .free]
  | .faultPartitionReset _ =>
    [.parts, .resets]
  | .ledgerSnapshot _ _ _ =>
    [.benches, .ports, .parts, .pwr, .free]
  | .pwrBrake _ _ =>
    [.parts, .fmn, .pwr, .board]
  | .thermalTrip _ =>
    [.mem, .bad, .cores, .benches, .flits, .arrivals, .ports, .welts, .streams, .parts, .clicker, .ring, .ringTurn, .ringSide, .pwr, .trc, .board]
  | .inputOpen =>
    [.now, .tb, .mem, .bad, .cores, .benches, .flits, .arrivals, .ports, .welts, .streams, .parts, .clicker, .ring, .ringTurn, .ringSide, .fmn, .pwr, .boot, .trc, .board, .faults, .resets]
  | .powerOn _ =>
    [.tb, .board]
  | .startupStepDone _ =>
    [.mem, .bad, .cores, .benches, .welts, .parts, .ring, .fmn, .pwr, .boot, .board, .faults, .free]
  | .idleWake =>
    [.pwr, .boot]
  | .perstNDeassert =>
    [.pwr, .boot, .board]
  | .i3cWrite _ _ =>
    [.mem, .bad, .cores, .benches, .flits, .arrivals, .ports, .welts, .streams, .parts, .clicker, .ring, .ringTurn, .ringSide, .fmn, .pwr, .boot, .trc, .board]
  | .fmnTbRead _ =>
    [.trc]
  | .issueSample _ =>
    [.benches, .trc]
  | .traceRecordOut =>
    [.ring, .trc]

/-- Byte memory is in its canonical form: addresses rise strictly and no listed byte is 0. -/
def Memory.wf (m : Mem) : Bool := memWf m

/-- The power manager's operating point and the points it moves to are among OP0 to OP7 (R596), its idle state among W0 to W4
(R612). -/
def Power.Ok (p : Power) : Prop :=
  p.op ≤ 7 ∧ (∀ k, p.stepTo = some k → k ≤ 7) ∧ (∀ k, p.goal = some k → k ≤ 7) ∧ p.wstate ≤ 4

/-- The start-up step is one of the eleven of R627, and STATE one of its codes. -/
def Boot.Ok (b : Boot) : Prop := 1 ≤ b.step ∧ b.step ≤ 11 ∧ b.state ≤ 3

/-- What every command keeps, in every state that has it. -/
structure StateInv (s : State) : Prop where
  mem : Memory.wf s.mem = true
  pwr : s.pwr.Ok
  boot : s.boot.Ok

/-! ## Terms of the statements -/

/-- Thread `t` issues an instruction of `len` syllables with stack effect `sh` and meets none of the faults of issue: it can
issue (R257, R286), its syllables can be fetched (R180) and are no reserved code (R204, R206), it does not cross a loop end
(R220), the stacks take it (R173, R175), and no fill reads an uncorrectable word (R437). -/
def Runs (t : Thread) (len : Nat) (sh : Shape) (s : State) : Prop :=
  canIssue s t = true ∧ fetchFault ((firstIssue t s).ctx t) len = none ∧ reservedCode (firstIssue t s) t = false ∧
    straddles ((firstIssue t s).ctx t) len = false ∧
    stackFault ((firstIssue t s).ctx t) sh.pops sh.pushes sh.rpops sh.rpushes = none ∧
    fillBad (firstIssue t s) t sh.pops sh.rpops = none

/-- Thread `t` completes an instruction of one syllable: it pops `pops` operand entries, pushes `push` (top first) and goes
on after it. -/
def pushed (t : Thread) (pops : Nat) (push : List Word) (s : State) : Ans :=
  .next (complete t 1 pops push 0 [] none (firstIssue t s))

/-- Thread `t` completes an instruction of one syllable that uses both stacks and goes to `tgt`, if one is given. -/
def goesOn (t : Thread) (pops : Nat) (push : List Word) (rpops : Nat) (rpush : List Word) (tgt : Option Word) (s : State) : Ans :=
  .next (complete t 1 pops push rpops rpush tgt (firstIssue t s))

/-- One bit of a reflected CRC (R200). -/
def crcBit (poly c : Word) : Word := if c.getLsbD 0 then (c >>> 1) ^^^ poly else c >>> 1

/-- Writer `w` may write system register `n` of thread `t` now: the Foreman, or a thread of the same core that can issue,
reaches the register (R242) and has write permission at its level (R239, R240). -/
def MayWriteSr (w : Writer) (t : Thread) (n : Nat) (s : State) : Prop :=
  match w with
  | .foreman => True
  | .thread u => u.core = t.core ∧ canIssue s u = true ∧ (n < 0x100 → u ≠ t → (s.ctx u).lvl ≠ .u ∧ (tsrOk s u t.ctx n).isSome = true) ∧
      ∃ p, srAccess n = some p ∧ 2 ≤ p.at_ (s.ctx u).lvl

/-- What a refused register write does (R177, R272): a register-value fault at the writing thread, nothing for the Foreman. -/
def refusedWrite (w : Writer) (n : Nat) (s : State) : Ans :=
  match w with
  | .foreman => .next s
  | .thread u => .next (fault u 0x09 (word n) (s.ctx u).pc false s)

/-- The instructions that only move and compute on the two stacks and the program counter: thread, length and stack effect. -/
def stackOnly (s : State) : Instr → Option (Thread × Nat × Shape)
  | .nop t => some (t, 1, ⟨0, 0, 0, 0⟩)
  | .isync t => some (t, 1, ⟨0, 0, 0, 0⟩)
  | .dup t => some (t, 1, ⟨1, 2, 0, 0⟩)
  | .drop t => some (t, 1, ⟨1, 0, 0, 0⟩)
  | .swap t => some (t, 1, ⟨2, 2, 0, 0⟩)
  | .over t => some (t, 1, ⟨2, 3, 0, 0⟩)
  | .rot t => some (t, 1, ⟨3, 3, 0, 0⟩)
  | .nip t => some (t, 1, ⟨2, 1, 0, 0⟩)
  | .tuck t => some (t, 1, ⟨2, 3, 0, 0⟩)
  | .depth t => some (t, 1, ⟨0, 1, 0, 0⟩)
  | .tor t => some (t, 1, ⟨1, 0, 0, 1⟩)
  | .fromr t => some (t, 1, ⟨0, 1, 1, 0⟩)
  | .rcopy t => some (t, 1, ⟨0, 1, 1, 1⟩)
  | .add t => some (t, 1, ⟨2, 1, 0, 0⟩)
  | .sub t => some (t, 1, ⟨2, 1, 0, 0⟩)
  | .neg t => some (t, 1, ⟨1, 1, 0, 0⟩)
  | .and t => some (t, 1, ⟨2, 1, 0, 0⟩)
  | .or t => some (t, 1, ⟨2, 1, 0, 0⟩)
  | .xor t => some (t, 1, ⟨2, 1, 0, 0⟩)
  | .not t => some (t, 1, ⟨1, 1, 0, 0⟩)
  | .shl t => some (t, 1, ⟨2, 1, 0, 0⟩)
  | .shr t => some (t, 1, ⟨2, 1, 0, 0⟩)
  | .sar t => some (t, 1, ⟨2, 1, 0, 0⟩)
  | .rol t => some (t, 1, ⟨2, 1, 0, 0⟩)
  | .eq t => some (t, 1, ⟨2, 1, 0, 0⟩)
  | .lt t => some (t, 1, ⟨2, 1, 0, 0⟩)
  | .ltu t => some (t, 1, ⟨2, 1, 0, 0⟩)
  | .zeq t => some (t, 1, ⟨1, 1, 0, 0⟩)
  | .sel t => some (t, 1, ⟨3, 1, 0, 0⟩)
  | .clz t => some (t, 1, ⟨1, 1, 0, 0⟩)
  | .popc t => some (t, 1, ⟨1, 1, 0, 0⟩)
  | .par t => some (t, 1, ⟨1, 1, 0, 0⟩)
  | .brev t => some (t, 1, ⟨1, 1, 0, 0⟩)
  | .crcb t => some (t, 1, ⟨2, 1, 0, 0⟩)
  | .crcw t => some (t, 1, ⟨2, 1, 0, 0⟩)
  | .br t => some (t, 1, ⟨1, 0, 0, 0⟩)
  | .bz t => some (t, 1, ⟨2, 0, 0, 0⟩)
  | .bnz t => some (t, 1, ⟨2, 0, 0, 0⟩)
  | .call t => some (t, 1, ⟨1, 0, 0, 1⟩)
  | .callx t => some (t, 1, ⟨1, 0, 0, 1⟩)
  | .ret t => some (t, 1, ⟨0, 0, 1, 0⟩)
  | .jmp t => some (t, 1, ⟨1, 0, 0, 0⟩)
  | .literalRun t ds => if (runOf s t ds).length = 0 ∨ 6 < (runOf s t ds).length then none else
      some (t, (runOf s t ds).length, ⟨0, 1, 0, 0⟩)
  | _ => none

/-- A byte that the spills of an instruction with stack effect `sh` may write (R172, R174): at the pointers of the thread's two
spill areas, one word for each entry beyond the sixteen in hardware. -/
def spillByte (s : State) (t : Thread) (sh : Shape) (a : Nat) : Prop :=
  let x := s.ctx t
  let lo := localBase t.core + (x.reg 2).toNat
  let rlo := localBase t.core + (x.reg 5).toNat
  (lo ≤ a ∧ a < lo + 4 * (x.ops.length + sh.pushes - sh.pops - 16)) ∨
    (rlo ≤ a ∧ a < rlo + 4 * (x.rets.length + sh.rpushes - sh.rpops - 16))

/-- From `s` to `u`, thread `t` changed nothing of the cores but its own program counter, stacks, stack and loop registers, hold
window and CORE_TXFMT; and, by a spill, reservations of its core (R225). -/
structure CoresKept (t : Thread) (s u : State) : Prop where
  cores : ∀ c, c ≠ t.core → u.core c = s.core c
  core : u.core t.core = { s.core t.core with ctxs := (u.core t.core).ctxs }
  ctxs : ∀ i, i ≠ t.ctx → { u.ctx ⟨t.core, i⟩ with resv := (s.ctx ⟨t.core, i⟩).resv } = s.ctx ⟨t.core, i⟩
  own : { u.ctx t with
      pc := (s.ctx t).pc, ops := (s.ctx t).ops, rets := (s.ctx t).rets, ldepth := (s.ctx t).ldepth, sr := (s.ctx t).sr,
      resv := (s.ctx t).resv, hold := (s.ctx t).hold, holdLen := (s.ctx t).holdLen } = s.ctx t
  regs : ∀ n, n ≠ 0x002 → n ≠ 0x005 → n ≠ 0x04D → n ≠ 0x018 + ((s.ctx t).ldepth - 1) → (u.ctx t).reg n = (s.ctx t).reg n

/-- The first flit that has arrived (R326) of those that `p` holds of, and the machine without it. -/
def nextArrival (s : State) (p : Arrival → Prop) (a : Arrival) (u : State) : Prop :=
  ∃ l r, s.arrivals = l ++ a :: r ∧ (∀ x, x ∈ l → ¬ (x.due ≤ s.now ∧ p x)) ∧ a.due ≤ s.now ∧ p a ∧
    u = { s with arrivals := l ++ r }

/-- The first packet on the I/O ring (R379) at its destination stop of those that `p` holds of, and the machine without it. -/
def nextPacket (s : State) (p : RingPkt → Prop) (k : RingPkt) (u : State) : Prop :=
  ∃ l r, s.ring = l ++ k :: r ∧ (∀ x, x ∈ l → ¬ (x.pos = x.dst ∧ p x)) ∧ k.pos = k.dst ∧ p k ∧ u = { s with ring := l ++ r }

/-- From `s` to `u` one packet with the message `m` has entered the I/O ring at stop `src`, for stop `dst`. -/
def sentPacket (s u : State) (src dst : Nat) (m : RingMsg) : Prop :=
  ∃ k, u.ring = s.ring ++ [k] ∧ k.src = src ∧ k.dst = dst ∧ k.msg = m ∧ k.pos = src ∧ k.thru = false

/-- The first whole message of type `ty` that is next in its session (R529, R531). -/
def nextMessage (s : State) (ty : Nat) (m : MgmtMsg) : Prop :=
  let next := fun (x : MgmtMsg) => x.mtype = ty ∧ x.psn = (sessionOf s x.src).ackbase
  ∃ l r, s.fmn.mgmtIn = l ++ m :: r ∧ (∀ x, x ∈ l → ¬ next x) ∧ next m ∧ m.more = false ∧ (sessionOf s m.src).first = none

/-- A frame addressed to this module that passes the first three checks of R513, of transport type `ty`. -/
def soundFrame (s : State) (f : Frame) (ty : Nat) : Prop :=
  f.fec = 0 ∧ f.etype = s.boot.etype ∧ f.header.length = 32 ∧ hdrField f 0 1 = 1 + 16 * ty ∧ ty ≤ 3 ∧
    f.icrc = icrcOf (f.header ++ f.payload) ∧ hdrField f 2 2 = f.payload.length ∧ hdrField f 8 4 % 2 ^ 14 = moduleNo s ∧
    f.payload.length ≤ 4096 ∧ frameBytes f ≤ 4154

/-- The command `code` with the payload `l` waits in mailbox `m` of PF0 and may begin, in Ready (R551, R556). -/
def MayRun (s : State) (m code : Nat) (l : List Byte) : Prop :=
  m < 128 ∧ (s.mbox m).cmd = code ∧ canRun s m = true ∧ ready s = true ∧ request (s.mbox m) = l ∧ l.length ≤ 4080

/-- In `u` mailbox `m` is the host's again and holds a response (R547). -/
def Answered (u : State) (m status detail : Nat) (payload : List Byte) : Prop :=
  let x := u.mbox m
  x.owner = 0 ∧ x.order = 0 ∧ x.status = status ∧ x.detail = detail ∧ x.len = payload.length ∧ x.payload.take payload.length = payload

end Sys2Proof.Machine
end

