-- ==== Sys2Proof/Certificates/Slice0/Obligations.lean ====
section
/-! DEFINITION. What the model is claimed to do, from the numbered rules of the spec. A statement of several parts is the
conjunction of the claims that stand before it in Sys2Proof.Claims; an instruction's claims hold when it can issue and meets no
fault of issue (`Runs`), and a separate claim says which fault the others meet. -/

namespace Sys2Proof.Claims

open Sys2Proof Sys2Proof.Machine

/-- ADD, SUB and NEG are modulo 2^32 (R193); AND, OR, XOR and NOT are bitwise (R192). -/
def ArithmeticAndLogicResults : Prop :=
  ∀ (s : State) (t : Thread) (a b : Word),
    (Runs t 1 ⟨2, 1, 0, 0⟩ s → operands (firstIssue t s) t 2 = [b, a] →
      exec (.add t) s = pushed t 2 [BitVec.ofNat 32 (a.toNat + b.toNat)] s ∧
      exec (.sub t) s = pushed t 2 [BitVec.ofInt 32 ((a.toNat : Int) - (b.toNat : Int))] s ∧
      exec (.and t) s = pushed t 2 [a &&& b] s ∧
      exec (.or t) s = pushed t 2 [a ||| b] s ∧
      exec (.xor t) s = pushed t 2 [a ^^^ b] s) ∧
    (Runs t 1 ⟨1, 1, 0, 0⟩ s → operands (firstIssue t s) t 1 = [a] →
      exec (.neg t) s = pushed t 1 [BitVec.ofInt 32 (-(a.toNat : Int))] s ∧
      exec (.not t) s = pushed t 1 [~~~a] s)

/-- CLZ, POPC, PAR and BREV (R192), bit by bit. -/
def BitCountsAndReversal : Prop :=
  ∀ (s : State) (t : Thread) (a : Word), Runs t 1 ⟨1, 1, 0, 0⟩ s → operands (firstIssue t s) t 1 = [a] →
    (∃ n : Nat, exec (.clz t) s = pushed t 1 [BitVec.ofNat 32 n] s ∧ n ≤ 32 ∧
      (∀ i, 32 - n ≤ i → i < 32 → a.getLsbD i = false) ∧ (n < 32 → a.getLsbD (31 - n) = true)) ∧
    exec (.popc t) s = pushed t 1 [BitVec.ofNat 32 ((List.range 32).countP (fun i => a.getLsbD i))] s ∧
    exec (.par t) s = pushed t 1 [if (List.range 32).foldl (fun p i => p ^^ a.getLsbD i) false then 1 else 0] s ∧
    (∃ y, exec (.brev t) s = pushed t 1 [y] s ∧ ∀ i, i < 32 → y.getLsbD i = a.getLsbD (31 - i))

/-- The stack operations of R192 and ISYNC, by their stack effects. -/
def StackOperationEffects : Prop :=
  ∀ (s : State) (t : Thread) (a b c : Word),
    (Runs t 1 ⟨0, 0, 0, 0⟩ s → exec (.nop t) s = pushed t 0 [] s ∧ exec (.isync t) s = pushed t 0 [] s) ∧
    (Runs t 1 ⟨1, 2, 0, 0⟩ s → operands (firstIssue t s) t 1 = [a] → exec (.dup t) s = pushed t 1 [a, a] s) ∧
    (Runs t 1 ⟨1, 0, 0, 0⟩ s → exec (.drop t) s = pushed t 1 [] s) ∧
    (Runs t 1 ⟨2, 2, 0, 0⟩ s → operands (firstIssue t s) t 2 = [b, a] → exec (.swap t) s = pushed t 2 [a, b] s) ∧
    (Runs t 1 ⟨2, 3, 0, 0⟩ s → operands (firstIssue t s) t 2 = [b, a] →
      exec (.over t) s = pushed t 2 [a, b, a] s ∧ exec (.tuck t) s = pushed t 2 [b, a, b] s) ∧
    (Runs t 1 ⟨3, 3, 0, 0⟩ s → operands (firstIssue t s) t 3 = [c, b, a] → exec (.rot t) s = pushed t 3 [a, c, b] s) ∧
    (Runs t 1 ⟨2, 1, 0, 0⟩ s → operands (firstIssue t s) t 2 = [b, a] → exec (.nip t) s = pushed t 2 [b] s)

/-- PICK copies entry n for every n from 0 to 14; DEPTH pushes the full depth before the push; TOR, FROMR and RCOPY move the
top between the stacks (R174, R178, R192). -/
def DeepStackOperations : Prop :=
  ∀ (s : State) (t : Thread) (a n : Word) (l : List Word),
    (Runs t 1 ⟨n.toNat + 2, n.toNat + 2, 0, 0⟩ s → n.toNat ≤ 14 → operands s t 1 = [n] →
      operands (firstIssue t s) t (n.toNat + 2) = n :: l → l.length = n.toNat + 1 →
      exec (.pick t) s = pushed t (n.toNat + 2) (l.getD n.toNat 0 :: l) s) ∧
    (Runs t 1 ⟨0, 1, 0, 0⟩ s →
      exec (.depth t) s = pushed t 0
        [BitVec.ofInt 32 (((s.ctx t).ops.length : Int) +
          ((((s.ctx t).reg 0x002).toNat : Int) - (((s.ctx t).reg 0x000).toNat : Int)) / 4)] s) ∧
    (Runs t 1 ⟨1, 0, 0, 1⟩ s → operands (firstIssue t s) t 1 = [a] → exec (.tor t) s = goesOn t 1 [] 0 [a] none s) ∧
    (Runs t 1 ⟨0, 1, 1, 0⟩ s → returns (firstIssue t s) t 1 = [a] → exec (.fromr t) s = goesOn t 0 [a] 1 [] none s) ∧
    (Runs t 1 ⟨0, 1, 1, 1⟩ s → returns (firstIssue t s) t 1 = [a] → exec (.rcopy t) s = goesOn t 0 [a] 1 [a] none s)

/-- A run of one to six prefixes builds its value and pushes it (R183): the first prefix sign-extended from bit 5, each
further one shifted in; the thread goes on after the run. -/
def LiteralRunPushesItsValue : Prop :=
  ∀ (s : State) (t : Thread) (ds : List Nat) (d : Nat) (r : List Nat), runOf s t ds = d :: r → d < 64 → (∀ e, e ∈ r → e < 64) →
    r.length ≤ 5 → Runs t (r.length + 1) ⟨0, 1, 0, 0⟩ s →
    exec (.literalRun t ds) s = .next (complete t (r.length + 1) 0
      [r.foldl (fun v e => BitVec.ofNat 32 (v.toNat * 64 + e)) (BitVec.ofInt 32 (if d < 32 then (d : Int) else d - 64))]
      0 [] none (firstIssue t s))

/-- LOOP opens the next level with LS, LE and LC, or with n = 0 goes past the body; with four levels open it raises a loop
fault (R214, R215, R216). LEAVE closes the innermost level and goes past its end, or raises a loop fault with no level open
(R219). -/
def LoopAndLeave : Prop :=
  ∀ (s : State) (t : Thread) (n e : Word),
    let x := s.ctx t
    let ls := x.pc + 1
    (Runs t 1 ⟨2, 0, 0, 0⟩ s → operands (firstIssue t s) t 2 = [e, n] →
      (n = 0 → exec (.loop t) s = goesOn t 2 [] 0 [] (some (ls + e + 1)) s) ∧
      (n ≠ 0 → x.ldepth < 4 → exec (.loop t) s = .next (complete t 1 2 [] 0 [] none ((firstIssue t s).updCtx t (fun y =>
        { ((y.setReg (0x010 + x.ldepth) ls).setReg (0x014 + x.ldepth) (ls + e)).setReg (0x018 + x.ldepth) n with
          ldepth := x.ldepth + 1 })))) ∧
      (n ≠ 0 → 4 ≤ x.ldepth → exec (.loop t) s = .next (fault t 0x02 0 x.pc false (firstIssue t s)))) ∧
    (Runs t 1 ⟨0, 0, 0, 0⟩ s →
      (x.ldepth ≠ 0 → exec (.leave t) s = .next (complete t 1 0 [] 0 [] (some (x.reg (0x014 + (x.ldepth - 1)) + 1))
        ((firstIssue t s).updCtx t (fun y => { y with ldepth := x.ldepth - 1 })))) ∧
      (x.ldepth = 0 → exec (.leave t) s = .next (fault t 0x02 1 x.pc false (firstIssue t s))))

/-- The step after an instruction: at the innermost level's LE the loop step, elsewhere the next syllable; a transfer of
control leaves LC and the level alone (R217, R218). -/
def LoopStepAtTheLoopEnd : Prop :=
  ∀ (s : State) (t : Thread) (len pops : Nat) (push : List Word) (rpops : Nat) (rpush : List Word) (a : Word),
    let x := s.ctx t
    let d := x.ldepth - 1
    let u := (match complete t len pops push rpops rpush none s with | v => v.ctx t)
    let w := (match complete t len pops push rpops rpush (some a) s with | v => v.ctx t)
    (x.ldepth ≠ 0 → x.reg (0x014 + d) = x.pc + BitVec.ofNat 32 (len - 1) →
      (1 < (x.reg (0x018 + d)).toNat →
        u.pc = x.reg (0x010 + d) ∧ u.ldepth = x.ldepth ∧ (u.reg (0x018 + d)).toNat = (x.reg (0x018 + d)).toNat - 1) ∧
      ((x.reg (0x018 + d)).toNat = 1 → u.pc = x.reg (0x014 + d) + 1 ∧ u.ldepth = x.ldepth - 1)) ∧
    ((x.ldepth = 0 ∨ x.reg (0x014 + d) ≠ x.pc + BitVec.ofNat 32 (len - 1)) →
      u.pc = x.pc + BitVec.ofNat 32 len ∧ u.ldepth = x.ldepth ∧ u.reg (0x018 + d) = x.reg (0x018 + d)) ∧
    (w.pc = a ∧ w.ldepth = x.ldepth ∧ w.reg (0x018 + d) = x.reg (0x018 + d))

/-- What an instruction leaves of the operand stack, spilled entries included, whatever is held in hardware and whatever is
spilled or filled (R171, R172): the entries below those it pops, under those it pushes; and the same of the return stack
(R174). -/
def SpillsAndFillsKeepTheStacks : Prop :=
  ∀ (s : State) (t : Thread) (pops n : Nat) (push : List Word), s.bad = [] →
    (((s.ctx t).reg 0x002).toNat + 4 * ((s.ctx t).ops.length + push.length) < 2 ^ 32 →
      4 * (pops + n) ≤ ((s.ctx t).reg 0x002).toNat + 4 * (s.ctx t).ops.length →
      operands (pushOps t pops push s) t n = (push ++ (operands s t (pops + n)).drop pops).take n) ∧
    (((s.ctx t).reg 0x005).toNat + 4 * ((s.ctx t).rets.length + push.length) < 2 ^ 32 →
      4 * (pops + n) ≤ ((s.ctx t).reg 0x005).toNat + 4 * (s.ctx t).rets.length →
      returns (pushRets t pops push s) t n = (push ++ (returns s t (pops + n)).drop pops).take n)

/-- An instruction that the stacks do not take raises its stack fault at the instruction, before any effect of its own
(R173, R175). A reserved syllable at the program counter raises an illegal-instruction fault before that (R204, R206). -/
def StackFaultsComeFirst : Prop :=
  ∀ (s : State) (i : Instr) (t : Thread) (len f : Nat) (sh : Shape), stackOnly s i = some (t, len, sh) →
    canIssue s t = true → fetchFault ((firstIssue t s).ctx t) len = none →
    (reservedCode (firstIssue t s) t = true → exec i s = .next (fault t 0x03
      (syllables (firstIssue t s) t (syllableAt (firstIssue t s) t 0) none) (s.ctx t).pc false (firstIssue t s))) ∧
    (reservedCode (firstIssue t s) t = false → straddles ((firstIssue t s).ctx t) len = false →
      stackFault ((firstIssue t s).ctx t) sh.pops sh.pushes sh.rpops sh.rpushes = some f →
      exec i s = .next (fault t 0x01 (BitVec.ofNat 32 f) (s.ctx t).pc false (firstIssue t s)))

/-- Loads from local memory and the bench memory window: the bytes at the address the view gives (R227), zero- or
sign-extended (R192). -/
def NearLoadsExtend : Prop :=
  ∀ (s : State) (t : Thread) (a : Word) (m : Nat) (win : Bool), Runs t 1 ⟨1, 1, 0, 0⟩ s →
    operands (firstIssue t s) t 1 = [a] →
    let s1 := firstIssue t s
    let gives := fun (n : Nat) (v : Word) => Host.Outcome.next (complete t 1 1 [v] 0 [] none (noteRead m n s1))
    (a.toNat % 4 = 0 → resolve s1 t a.toNat 4 false true = some (.near m win) → uncorrectable s1 m 4 = none →
      exec (.ldw t) s = gives 4 (memWord s1.mem m)) ∧
    (a.toNat % 2 = 0 → resolve s1 t a.toNat 2 false false = some (.near m win) → uncorrectable s1 m 2 = none →
      exec (.ldh t) s = gives 2 ((BitVec.ofNat 16 (memNat s1.mem m 2)).signExtend 32) ∧
      exec (.ldhu t) s = gives 2 ((BitVec.ofNat 16 (memNat s1.mem m 2)).setWidth 32)) ∧
    (resolve s1 t a.toNat 1 false false = some (.near m win) → uncorrectable s1 m 1 = none →
      exec (.ldb t) s = gives 1 ((memGet s1.mem m).signExtend 32) ∧
      exec (.ldbu t) s = gives 1 ((memGet s1.mem m).setWidth 32))

/-- Stores to local memory and the bench memory window write the low bytes of v at the address the view gives, lowest first;
every byte of memory outside the stored ones, and outside a spill (none while a stack holds at most 16 entries in hardware),
reads as before. -/
def NearStoresAndTheirFrame : Prop :=
  ∀ (s : State) (t : Thread) (a v : Word) (m n : Nat) (win : Bool) (i : Instr),
    (i, n) ∈ [(Instr.stw t, 4), (Instr.sth t, 2), (Instr.stb t, 1)] → Runs t 1 ⟨2, 0, 0, 0⟩ s →
    operands (firstIssue t s) t 2 = [a, v] → a.toNat % n = 0 →
    resolve (firstIssue t s) t a.toNat n true (decide (n = 4)) = some (.near m win) →
    ∃ u, exec i s = .next u ∧ u = complete t 1 2 [] 0 [] none (write m (leBytes v.toNat n) (firstIssue t s)) ∧
      CoresKept t s u ∧
      (s.bad = [] → (s.ctx t).ops.length ≤ 16 → ∀ k, k < n → memGet u.mem (m + k) = BitVec.ofNat 8 (v.toNat / 256 ^ k)) ∧
      (∀ b, b < m ∨ m + n ≤ b → ¬ spillByte s t ⟨2, 0, 0, 0⟩ b → memGet u.mem b = memGet s.mem b) ∧
      (∀ f, f ∉ [Field.mem, .bad, .cores, .benches, .free] → same f s u)

/-- The alignment rule (R197): any other address raises an alignment fault, with the address in XINFO. -/
def MisalignedAddressesFault : Prop :=
  ∀ (s : State) (t : Thread) (a v : Word),
    let faults := Host.Outcome.next (fault t 0x05 a (s.ctx t).pc false (firstIssue t s))
    (Runs t 1 ⟨1, 1, 0, 0⟩ s → operands (firstIssue t s) t 1 = [a] →
      (a.toNat % 4 ≠ 0 → exec (.ldw t) s = faults ∧ exec (.tas t) s = faults) ∧
      (a.toNat % 2 ≠ 0 → exec (.ldh t) s = faults ∧ exec (.ldhu t) s = faults)) ∧
    (Runs t 1 ⟨2, 0, 0, 0⟩ s → operands (firstIssue t s) t 2 = [a, v] →
      (a.toNat % 4 ≠ 0 → exec (.stw t) s = faults) ∧ (a.toNat % 2 ≠ 0 → exec (.sth t) s = faults))

/-- TAS pushes the old word and writes 1 (R198). LDR loads the word and sets the reservation on its line; STC stores and
pushes 1 when the reservation covers the address, else pushes 0 and stores nothing, and clears the reservation either way
(R224). -/
def TestAndSetLoadReserveStoreConditional : Prop :=
  ∀ (s : State) (t : Thread) (a v : Word), a.toNat % 4 = 0 → a.toNat < 0x100000 →
    let s1 := firstIssue t s
    let m := localBase t.core + a.toNat
    (s1.ctx t).lvl ≠ .u →
    (Runs t 1 ⟨1, 1, 0, 0⟩ s → operands s1 t 1 = [a] → uncorrectable s1 m 4 = none →
      exec (.tas t) s = .next (complete t 1 1 [memWord s1.mem m] 0 [] none (write m [1, 0, 0, 0] (noteRead m 4 s1))) ∧
      (svc s1 t.core = true → exec (.ldr t) s = .next (complete t 1 1 [memWord s1.mem m] 0 [] none
        ((noteRead m 4 s1).updCtx t (fun x => { x with resv := some (a.toNat / 64) }))))) ∧
    (Runs t 1 ⟨2, 1, 0, 0⟩ s → operands s1 t 2 = [a, v] → svc s1 t.core = true →
      let s2 := s1.updCtx t (fun x => { x with resv := none })
      ((s1.ctx t).resv = some (a.toNat / 64) →
        exec (.stc t) s = .next (complete t 1 2 [1] 0 [] none (write m (leBytes v.toNat 4) s2))) ∧
      ((s1.ctx t).resv ≠ some (a.toNat / 64) → exec (.stc t) s = .next (complete t 1 2 [0] 0 [] none s2)))

/-- Loads and stores through a global window (R229 to R231, R363, R392 to R398): a line in the stockroom is read at once, a
missing one holds the thread while it is fetched; an uncached load holds the thread, an uncached store is posted; a cached
store enters the merging buffer, and waits while all 32 of its entries are taken. -/
def WindowAccesses : Prop :=
  ∀ (s : State) (t : Thread) (a v : Word) (m : Nat), a.toNat % 4 = 0 → m % 4 = 0 →
    let s1 := firstIssue t s
    let b := benchOf t.core
    (Runs t 1 ⟨1, 1, 0, 0⟩ s → operands s1 t 1 = [a] →
      (resolve s1 t a.toNat 4 false true = some (.far m false) → ∀ y, findLine s1 b (m / 64) = some y →
        tblGet (fun _ => 0) y.bad (m % 64 / 8) = 0 →
        exec (.ldw t) s = .next (complete t 1 1 [BitVec.ofNat 32 (leNat (slice y.data (m % 64) 4))] 0 [] none
          (actSr b (count b 0x6300 1 s1)))) ∧
      (resolve s1 t a.toNat 4 false true = some (.far m false) → findLine s1 b (m / 64) = none →
        ∃ u k, exec (.ldw t) s = .next u ∧ (u.ctx t).wait = .load m 4 false k ∧ (u.ctx t).pc = (s.ctx t).pc ∧
          (u.ctx t).ops = (s.ctx t).ops ∧ ∃ f, f ∈ (u.bench b).fills ∧ f.line = m / 64 ∧ f.drop = false) ∧
      (resolve s1 t a.toNat 4 false true = some (.far m true) →
        ∃ u, exec (.ldw t) s = .next u ∧ (u.ctx t).wait = .load m 4 false none ∧
          ∃ y, y ∈ (u.bench b).uitems ∧ y.line = m / 64 ∧ y.write = false ∧ y.core = t.core ∧ y.ctx = t.ctx)) ∧
    (Runs t 1 ⟨2, 0, 0, 0⟩ s → operands s1 t 2 = [a, v] →
      (resolve s1 t a.toNat 4 true true = some (.far m true) →
        exec (.stw t) s = .next (complete t 1 2 [] 0 [] none (uncachedStore t m (leBytes v.toNat 4) s1)) ∧
        ∃ y, y ∈ ((uncachedStore t m (leBytes v.toNat 4) s1).bench b).uitems ∧ y.line = m / 64 ∧ y.write = true ∧
          slice y.data (m % 64) 4 = leBytes v.toNat 4) ∧
      (resolve s1 t a.toNat 4 true true = some (.far m false) →
        (∀ e, e ∈ (s1.bench b).mb → e.line = m / 64 → e.stage ≠ 0) →
        let taken := ((s1.bench b).mb.filter (fun e => decide (e.stage = 0))).length
        (taken < 32 → ∃ u e, exec (.stw t) s = .next (complete t 1 2 [] 0 [] none u) ∧ e ∈ (u.bench b).mb ∧ e.line = m / 64 ∧
          e.stage = 0 ∧ slice e.data (m % 64) 4 = leBytes v.toNat 4) ∧
        (32 ≤ taken → exec (.stw t) s = .next (s1.updCtx t (fun x =>
          { x with wait := .store m (leBytes v.toNat 4) (s.now / 2), heldPops := 2, heldLen := 1 })))))

/-- The core's address view at S and F levels (R227 to R229, R233): local memory, the converted part of the bench window,
nothing between them and the global windows; a disabled window, and a window onto local or bench memory, give nothing. -/
def CoreAddressView : Prop :=
  ∀ (s : State) (t : Thread) (a n : Nat) (wr wa : Bool), (s.ctx t).lvl ≠ .u →
    (a < 0x100000 → resolve s t a n wr wa = some (.near (0x800000000000 + t.core * 0x100000 + a) false)) ∧
    (0x100000 ≤ a → a < 0x300000 → a - 0x100000 < waysOf s (benchOf t.core) * 0x40000 →
      resolve s t a n wr wa = some (.near (0x810000000000 + benchOf t.core * 0x200000 + (a - 0x100000)) true)) ∧
    (0x100000 ≤ a → a < 0x300000 → waysOf s (benchOf t.core) * 0x40000 ≤ a - 0x100000 → resolve s t a n wr wa = none) ∧
    (0x300000 ≤ a → a < 0x80000000 → resolve s t a n wr wa = none) ∧
    (∀ w, w < 4 → 0x80000000 + w * 0x20000000 ≤ a → a < 0x80000000 + (w + 1) * 0x20000000 →
      let g := (s.core t.core).reg (0x104 + w)
      let m := (g.toNat % 2 ^ 27) * 2 ^ 21 + (a - 0x80000000 - w * 0x20000000)
      (g.getLsbD 28 = false → resolve s t a n wr wa = none) ∧
      (0x800000000000 ≤ m → m < 0x810010000000 → resolve s t a n wr wa = none) ∧
      (g.getLsbD 28 = true → m < 0x50000000000 → ∀ p, relocate s (benchOf t.core) m wr = some p →
        resolve s t a n wr wa = some (.far p (g.getLsbD 27))))

/-- RDSR and RDTSR (R239 to R242): a register that holds a value is read as it stands, status registers as computed; a
number absent from the map is illegal, a register closed to the level a privilege fault. -/
def SystemRegisterReads : Prop :=
  ∀ (s : State) (t : Thread) (n tid : Word) (p : SrAccess),
    let s1 := firstIssue t s
    let x := s1.ctx t
    (Runs t 1 ⟨1, 1, 0, 0⟩ s → operands s1 t 1 = [n] →
      (srAccess n.toNat = none → exec (.rdsr t) s = .next (fault t 0x03 (syllables s1 t 0x3E none) x.pc false s1)) ∧
      (srAccess n.toNat = some p → p.at_ x.lvl = 0 →
        exec (.rdsr t) s = .next (fault t 0x04 (BitVec.ofNat 32 (0x3E + n.toNat * 2 ^ 16)) x.pc false s1)) ∧
      (srAccess n.toNat = some p → p.at_ x.lvl ≠ 0 →
        exec (.rdsr t) s = .next (complete t 1 1 [(srRead t t n.toNat s1).2] 0 [] none (srRead t t n.toNat s1).1) ∧
        (n = 0x02D → exec (.rdsr t) s = pushed t 1 [x.reg 0x02D] s) ∧
        (n = 0x008 → exec (.rdsr t) s = pushed t 1 [BitVec.ofNat 32 x.ldepth] s) ∧
        (n = 0x100 → exec (.rdsr t) s = pushed t 1 [BitVec.ofNat 32 t.core] s))) ∧
    (Runs t 1 ⟨2, 1, 0, 0⟩ s → x.lvl ≠ .u → operands s1 t 2 = [n, tid] → n.toNat ≠ 0x020 → n.toNat ≠ 0x021 →
      tsrOk s1 t tid.toNat n.toNat = some p → p.at_ x.lvl ≠ 0 →
      exec (.rdtsr t) s = .next (complete t 1 2 [(srRead t ⟨t.core, tid.toNat⟩ n.toNat s1).2] 0 [] none s1))

/-- Two reads that latch: CORE_CYC_LO latches bits [63:32] of the count for the thread (R243), the low word of the timebase
its high word for the agent (R707). -/
def LatchingReads : Prop :=
  ∀ (s : State) (t : Thread) (g : Nat),
    (canIssue s t = true → ∃ u, exec (.coreCycLoRead t) s = .next u ∧
      (u.ctx t).cycHi = BitVec.ofNat 32 (cyc s t.core / 2 ^ 32) ∧ (srRead t t 0x103 u).2 = BitVec.ofNat 32 (cyc s t.core / 2 ^ 32)) ∧
    (∃ u, exec (.fmnTbRead g) s = .next u ∧
      (blkRead32 g 0xF00005000004 u).2 = BitVec.ofNat 32 (s.tb / 2 ^ 32 % 2 ^ 32) ∧
      ∀ h, h ≠ g → (blkRead32 h 0xF00005000004 u).2 = (blkRead32 h 0xF00005000004 s).2)

/-- WRSR and WRTSR (R239 to R242): an accepted write takes effect and the operands are gone; a refused one raises a
register-value fault; without write permission a privilege fault. -/
def SystemRegisterWrites : Prop :=
  ∀ (s : State) (t : Thread) (v n tid : Word) (p : SrAccess),
    let s1 := firstIssue t s
    let x := s1.ctx t
    (Runs t 1 ⟨2, 0, 0, 0⟩ s → operands s1 t 2 = [n, v] →
      (srAccess n.toNat = none → exec (.wrsr t) s = .next (fault t 0x03 (syllables s1 t 0x3F none) x.pc false s1)) ∧
      (srAccess n.toNat = some p → p.at_ x.lvl < 2 →
        exec (.wrsr t) s = .next (fault t 0x04 (BitVec.ofNat 32 (0x3F + n.toNat * 2 ^ 16)) x.pc false s1)) ∧
      (srAccess n.toNat = some p → 2 ≤ p.at_ x.lvl → ∀ u, srWrite t n.toNat v s1 = .ok u →
        exec (.wrsr t) s = .next (complete t 1 2 [] 0 [] none u)) ∧
      (srAccess n.toNat = some p → 2 ≤ p.at_ x.lvl → srWrite t n.toNat v s1 = .refused →
        exec (.wrsr t) s = .next (fault t 0x09 (BitVec.ofNat 32 n.toNat) x.pc false s1)) ∧
      (n = 0x02D → exec (.wrsr t) s = .next (complete t 1 2 [] 0 [] none (s1.updCtx t (fun x => x.setReg 0x02D v))))) ∧
    (Runs t 1 ⟨3, 0, 0, 0⟩ s → x.lvl ≠ .u → operands s1 t 3 = [n, tid, v] → tsrOk s1 t tid.toNat n.toNat = some p →
      2 ≤ p.at_ x.lvl →
      (∀ u, srWrite ⟨t.core, tid.toNat⟩ n.toNat v s1 = .ok u → exec (.wrtsr t) s = .next (complete t 1 3 [] 0 [] none u)) ∧
      (n = 0x02D → exec (.wrtsr t) s =
        .next (complete t 1 3 [] 0 [] none (s1.updCtx ⟨t.core, tid.toNat⟩ (fun x => x.setReg 0x02D v)))))

/-- Every register and block that a statement below names (R239, R242): which numbers a write of each kind accepts. A write
of a stack-area register is refused when the value is not a multiple of 4 or lies above 0x0010_0000 (R177); of a save-area
register when it is not a multiple of 64 or lies above it (R289); of CORE_JTO when EXP is outside 10 to 30 (R273); of
CORE_SVBASE or CORE_FVBASE when bits [7:0] are not 0 (R288). -/
def RegisterValueRules : Prop :=
  ∀ (s : State) (w : Writer) (t : Thread) (n c : Nat) (v : Word),
    (n ≤ 5 → MayWriteSr w t n s →
      exec (.stackAreaWrite w t n v) s =
        if v.toNat % 4 ≠ 0 ∨ 0x100000 < v.toNat then refusedWrite w n s else .next (s.updCtx t (fun x => x.setReg n v))) ∧
    (0x044 ≤ n → n ≤ 0x049 → MayWriteSr w t n s →
      exec (.saveAreaWrite w t n v) s =
        if v.toNat % 64 ≠ 0 ∨ 0x100000 < v.toNat then refusedWrite w n s else .next (s.updCtx t (fun x => x.setReg n v))) ∧
    (MayWriteSr w t 0x04C s →
      exec (.coreJtoWrite w t v) s =
        if v.toNat % 32 < 10 ∨ 30 < v.toNat % 32 then refusedWrite w 0x04C s
        else .next (s.updCtx t (fun x => x.setReg 0x04C (v &&& 0x1F)))) ∧
    (n = 0x122 ∨ n = 0x123 → MayWriteSr w ⟨c, 0⟩ n s →
      exec (.coreSvbaseWrite w c n v) s =
        if v.toNat % 256 ≠ 0 then refusedWrite w n s else .next (s.updCore c (fun k => k.setReg n v)))

/-- CORE_TPC takes a value only in SUSP or HALT (R272). Writing 1 to CORE_TCTL.END of a pool context in SUSP or HALT starts
its end with LASTEND to become 1; in RUN, and for C0 in every state, it raises a register-value fault (R273). -/
def ResumeAddressAndThreadEndWrites : Prop :=
  ∀ (s : State) (w : Writer) (t : Thread) (v : Word),
    (MayWriteSr w t 0x043 s →
      exec (.coreTpcWrite w t v) s =
        if (s.ctx t).st = .susp ∨ (s.ctx t).st = .halt then .next (s.updCtx t (fun x => x.setReg 0x043 v))
        else refusedWrite w 0x043 s) ∧
    (MayWriteSr w t 0x04A s → v.getLsbD 0 = true →
      (t.ctx ≠ 0 → (s.ctx t).st = .susp ∨ (s.ctx t).st = .halt →
        exec (.coreTctlEndWrite w t v) s = .next (s.updCtx t (fun x => { x with st := .run, wait := .ending true }))) ∧
      (t.ctx = 0 ∨ (s.ctx t).st = .run → exec (.coreTctlEndWrite w t v) s = refusedWrite w 0x04A s) ∧
      (t.ctx ≠ 0 → (s.ctx t).st = .free → exec (.coreTctlEndWrite w t v) s = .next s))

/-- Registers of the core that a write may refuse: CORE_IMODE and CORE_SHMODE while a pool context is not FREE (R258, R277),
a share class that a pool context holds or with a MIN above its MAX (R281), a fault ring outside local memory (R304). -/
def CoreModeAndShareWrites : Prop :=
  ∀ (s : State) (w : Writer) (c : Nat) (v : Word),
    (MayWriteSr w ⟨c, 0⟩ 0x120 s →
      exec (.coreImodeWrite w c v) s =
        if v.toNat % 4 = 3 ∨ poolFree s c = false then refusedWrite w 0x120 s
        else .next (s.updCore c (fun k => k.setReg 0x120 (v &&& 3)))) ∧
    (MayWriteSr w ⟨c, 0⟩ 0x12B s →
      exec (.coreShmodeWrite w c v) s =
        if poolFree s c = false then refusedWrite w 0x12B s else .next (s.updCore c (fun k => k.setReg 0x12B (v &&& 1)))) ∧
    (∀ cls, cls < 4 → MayWriteSr w ⟨c, 0⟩ (0x12C + 3 * cls) s →
      let tmin := bits v.toNat 24 20
      let tmax := bits v.toNat 29 25
      let held := ∃ i, 1 ≤ i ∧ i < 8 ∧ live s c i = true ∧ (cls = 0 ∨ classOf s ⟨c, i⟩ = cls)
      (held ∨ tmax < tmin ∨ 16 < tmax → exec (.shareClassWrite w c (0x12C + 3 * cls) v) s = refusedWrite w (0x12C + 3 * cls) s) ∧
      (¬ held → tmin ≤ tmax → tmax ≤ 16 → exec (.shareClassWrite w c (0x12C + 3 * cls) v) s =
        .next (s.updCore c (fun k => k.setReg (0x12C + 3 * cls) (v &&& 0x3FFFFFFF))))) ∧
    (MayWriteSr w ⟨c, 0⟩ 0x127 s →
      let size := ((s.core c).reg 0x128).toNat % 16
      exec (.faultRingWrite w c 0x127 v) s =
        if 2 ≤ size ∧ size ≤ 10 ∧ (v &&& 0xFFFE0).toNat + 32 * 2 ^ size ≤ 0x100000 then
          .next (s.updCore c (fun k => k.setReg 0x127 (v &&& 0xFFFE0)))
        else refusedWrite w 0x127 s) ∧
    (MayWriteSr w ⟨c, 0⟩ 0x128 s → ((s.core c).reg 0x128).getLsbD 5 = false →
      exec (.faultRingWrite w c 0x128 v) s =
        if 2 ≤ v.toNat % 16 ∧ v.toNat % 16 ≤ 10 ∧ ((s.core c).reg 0x127).toNat + 32 * 2 ^ (v.toNat % 16) ≤ 0x100000 then
          .next (s.updCore c (fun k => k.setReg 0x128 (v &&& 0x1F)))
        else refusedWrite w 0x128 s)

/-- A TFMT write waits for the operations of its context that name the register (R129), a window write for the accesses
through the window (R231): with none it takes effect; a thread that such a write has held completes it then. -/
def FormatAndWindowWritesWait : Prop :=
  ∀ (s : State) (w : Writer) (t u : Thread) (c n : Nat) (v : Word), n < 4 →
    (MayWriteSr w t (0x024 + n) s → (∀ a, w = .thread a → (s.ctx a).wait = .none) → tfmtBusy s t n = false →
      exec (.coreTfmtWrite w t n v) s = .next (s.updCtx t (fun x => x.setReg (0x024 + n) (v &&& 0x1FFFFF)))) ∧
    (MayWriteSr w ⟨c, 0⟩ (0x104 + n) s → (∀ a, w = .thread a → (s.ctx a).wait = .none) → windowBusy s c n = false →
      exec (.coreGwinWrite w c n v) s = .next (s.updCore c (fun k => k.setReg (0x104 + n) (v &&& 0x1FFFFFFF)))) ∧
    (MayWriteSr w t (0x024 + n) s → (∀ a, w = .thread a → (s.ctx a).wait = .none) → tfmtBusy s t n = true →
      exec (.coreTfmtWrite w t n v) s = .next s) ∧
    (u.core = t.core → (s.ctx u).wait = .tfmt t.ctx (0x024 + n) v → tfmtBusy s t n = false →
      exec (.coreTfmtWrite (.thread u) t n v) s =
        .next (completeHeld u [] (s.updCtx t (fun x => x.setReg (0x024 + n) (v &&& 0x1FFFFF)))))

/-- Writes of registers in blocks (R15, R93, R107, R110, R443, R444): a counter is cleared by CLR alone; BENCH_PVSEL at the
lead bench takes a carried variant into NEXT and flags any other; CLR of BENCH_ASY_CTRL empties the statistics and the
queues; arming a queue in IDLE lays its ring, disarming one in IDLE clears ARMED; a general write replaces a register's
fields. -/
def BlockRegisterWrites : Prop :=
  ∀ (s : State) (w : Writer) (b c q p o : Nat) (v : Dword),
    (b < 128 → o % 8 = 0 → o < 0x10000 → benchCounter o = true → mayWriteBlk s w (0xF00001000000 + b * 0x10000 + o) = true →
      exec (.counterClear w (.blk (0xF00001000000 + b * 0x10000 + o))) s = .next (s.updBench b (fun x => x.setR o 0)) ∧
      (v.getLsbD 62 = false → exec (.registerWrite w (.blk (0xF00001000000 + b * 0x10000 + o)) v) s = .next s)) ∧
    (b < 128 → mayWriteBlk s w (0xF00001000000 + b * 0x10000 + 0x6400) = true →
      exec (.registerWrite w (.blk (0xF00001000000 + b * 0x10000 + 0x6400)) v) s =
        .next (s.updBench b (fun x => x.setR 0x6400
          (BitVec.ofNat 64 (((x.r 0x6400).toNat &&& 0xFFFF000000000000) ||| (v.toNat &&& 0xFFFFFFFFFFFF)))))) ∧
    (b < 128 → mayWrite s w b = true → partOf s b = some p → leadOf (s.part p) = b → (s.part p).cur ≠ 0 →
      ∃ u, exec (.benchPvselWrite w b v) s = .next u ∧
        (v.getLsbD 16 = false → v.toNat % 8 < ((s.part p).prog ((s.part p).cur - 1)).nvar →
          ((u.bench b).r 0x4A00).toNat = setBits ((s.bench b).r 0x4A00).toNat 2 0 (v.toNat % 8)) ∧
        (v.getLsbD 16 = false → ((s.part p).prog ((s.part p).cur - 1)).nvar ≤ v.toNat % 8 →
          ((u.bench b).r 0x4A00).toNat = setBits ((s.bench b).r 0x4A00).toNat 16 16 1)) ∧
    (b < 128 → mayWrite s w b = true →
      ∃ u, exec (.assayClear w b) s = .next u ∧ (∀ i, i < 4 → (u.core (4 * b + i)).samplesQ = []) ∧ (u.bench b).r 0x4410 = 0 ∧
        ∀ i, i < 16 → (u.bench b).r (0x4500 + i * 0x40) = 0 ∧ (u.bench b).r (0x4508 + i * 0x40) = 0 ∧
          (u.bench b).r (0x4510 + i * 0x40) = 0) ∧
    (c < 512 → q < 16 → mayWrite s w (benchOf c) = true → (s.queueOf c q).state = 0 →
      ringOk (bits v.toNat 19 3 * 8) (bits v.toNat 22 20) = true →
      (∃ u, exec (.queueArm w c q v) s = .next u ∧ (u.queueOf c q).armed = true ∧ (u.queueOf c q).head = 0 ∧
        (u.queueOf c q).tail = 0 ∧ (u.queueOf c q).base = bits v.toNat 19 3 * 8 ∧ (u.queueOf c q).size = bits v.toNat 22 20) ∧
      (∃ u, exec (.queueDisarm w c q v) s = .next u ∧ (u.queueOf c q).armed = false))

/-- SYSC n enters through vector 0x10 at S level, or at F from F, saving the address after its two syllables (R285); XINFO
holds n. UNHOLD ends the hold window, and expiry ends it and counts (R298). -/
def SystemCallAndHoldWindow : Prop :=
  ∀ (s : State) (t : Thread) (n : Byte),
    let s1 := firstIssue t s
    (Runs t 2 ⟨0, 0, 0, 0⟩ s →
      exec (.sysc t n) s = .next (enter t (if (s1.ctx t).lvl = .f then 2 else 1) 0x10 (n.setWidth 32) ((s.ctx t).pc + 2) false 0 s1)) ∧
    (Runs t 1 ⟨0, 0, 0, 0⟩ s → (s1.ctx t).lvl ≠ .u →
      exec (.unhold t) s = .next (complete t 1 0 [] 0 [] none (s1.updCtx t (fun x => { x with hold := none, holdLen := none })))) ∧
    (Runs t 1 ⟨0, 0, 0, 0⟩ s → (s1.ctx t).lvl = .u →
      exec (.unhold t) s = .next (fault t 0x04 0xE2 (s.ctx t).pc false s1)) ∧
    (∀ e, (s.ctx t).hold = some e →
      (e ≤ s.now / 2 → exec (.holdExpiry t) s = .next (coreCount t.core 0x20 1 (s.updCtx t (fun x => { x with hold := none })))) ∧
      (s.now / 2 < e → exec (.holdExpiry t) s = .next s))

/-- RETX (R294, R295): from a frame that passes the checks the thread takes level, program counter, stacks, stack registers,
MHI:MLO and loop registers, and its level's pointer falls by 256; a frame that fails one raises a return-privilege fault. -/
def ReturnFromException : Prop :=
  ∀ (s : State) (t : Thread), Runs t 1 ⟨0, 0, 0, 0⟩ s →
    let s1 := firstIssue t s
    let x := s1.ctx t
    let ptr := if x.lvl = .f then 0x048 else 0x045
    let base := if x.lvl = .f then 0x047 else 0x044
    let a := localBase t.core + (x.reg ptr).toNat - 256
    let f := fun (o : Nat) => (memWord s1.mem (a + o)).toNat
    let areaOk := fun (v : Nat) => v % 4 = 0 ∧ v ≤ 0x100000
    (x.lvl ≠ .u → (x.reg base).toNat + 256 ≤ (x.reg ptr).toNat → f 0 % 4 ≤ (if x.lvl = .f then 2 else 1) →
      (t.ctx = 0 → f 0 % 4 ≠ 0) → areaOk (f 0x14) → areaOk (f 0x18) → areaOk (f 0x1C) → areaOk (f 0x20) → f 0x10 % 32 ≤ 16 →
      f 0x10 / 256 % 32 ≤ 16 → f 0x2C ≤ 4 → ∃ u, exec (.retx t) s = .next u ∧
      (u.ctx t).pc = memWord s1.mem (a + 4) ∧ (u.ctx t).lvl = lvlOf (f 0 % 4) ∧
      (u.ctx t).reg ptr = x.reg ptr - 256 ∧ (u.ctx t).reg 0 = memWord s1.mem (a + 0x14) ∧
      (u.ctx t).reg 2 = memWord s1.mem (a + 0x18) ∧ (u.ctx t).reg 3 = memWord s1.mem (a + 0x1C) ∧
      (u.ctx t).reg 5 = memWord s1.mem (a + 0x20) ∧ (u.ctx t).reg 0x020 = memWord s1.mem (a + 0x24) ∧
      (u.ctx t).reg 0x021 = memWord s1.mem (a + 0x28) ∧ (u.ctx t).ldepth = f 0x2C ∧
      (∀ k, k < 12 → (u.ctx t).reg (0x010 + k) = memWord s1.mem (a + 0x30 + 4 * k)) ∧
      (u.ctx t).ops.length = f 0x10 % 32 ∧ (u.ctx t).rets.length = f 0x10 / 256 % 32 ∧ u.mem = s.mem) ∧
    (x.lvl ≠ .u → (x.reg ptr).toNat < (x.reg base).toNat + 256 →
      exec (.retx t) s = .next (fault t 0x0C 1 (s.ctx t).pc false s1)) ∧
    (x.lvl = .u → exec (.retx t) s = .next (fault t 0x04 0xE1 (s.ctx t).pc false s1))

/-- Exception entry (R286 to R293): with a valid vector and room in the save area it saves 256 bytes at the level's pointer,
raises the pointer by 256, goes to the handler with empty hardware stacks at that level, and records cause and XINFO; the
operand and return areas begin at their pointers. -/
def ExceptionEntry : Prop :=
  ∀ (s : State) (t : Thread) (lvl vec : Nat) (info pc : Word) (d : Bool) (prev : Nat), lvl = 1 ∨ lvl = 2 → vec < 0x14 →
    let ptr := if lvl = 2 then 0x048 else 0x045
    let lim := if lvl = 2 then 0x049 else 0x046
    let va := ((s.core t.core).reg (if lvl = 2 then 0x123 else 0x122)).toNat + 8 * vec
    let w1 := (memWord s.mem (localBase t.core + va + 4)).toNat
    let x := s.ctx t
    let p := (x.reg ptr).toNat
    va + 8 ≤ 0x100000 → bit w1 31 = true → bits w1 30 10 = 0 → (memWord s.mem (localBase t.core + va)).toNat < 0x100000 →
      p + 256 ≤ (x.reg lim).toNat → x.muls = [] →
      let u := enter t lvl vec info pc d prev s
      let y := u.ctx t
      y.pc = memWord s.mem (localBase t.core + va) ∧ y.lvl = lvlOf lvl ∧ y.st = .run ∧ y.ops = [] ∧ y.rets = [] ∧ y.ldepth = 0 ∧
      y.wait = .none ∧ y.resv = none ∧ y.reg 0x041 = BitVec.ofNat 32 (vec + (if d then 256 else 0)) ∧ y.reg 0x042 = info ∧
      y.reg ptr = x.reg ptr + 256 ∧ y.reg 0 = x.reg 2 ∧ y.reg 3 = x.reg 5 ∧
      ((x.reg lim).toNat ≤ 0x100000 → ∀ c, c ≠ t.core → u.core c = s.core c) ∧
      (s.bad = [] →
        memWord u.mem (localBase t.core + p + 4) = pc ∧ memWord u.mem (localBase t.core + p + 12) = info ∧
        memWord u.mem (localBase t.core + p + 0x14) = x.reg 0 ∧ memWord u.mem (localBase t.core + p + 0x18) = x.reg 2 ∧
        memWord u.mem (localBase t.core + p + 0x24) = x.reg 0x020 ∧ memWord u.mem (localBase t.core + p + 0x28) = x.reg 0x021 ∧
        ∀ a, a < localBase t.core + p ∨ localBase t.core + p + 256 ≤ a → memGet u.mem a = memGet s.mem a)

/-- A fault of a pool thread at U or S level halts it: CORE_TPC at the instruction, cause and XINFO recorded, FAULT set in
CORE_IPEND, in every case (R302, R303); a fault of C0, and of any thread at F level, is an entry through the cause's vector
(R285), counted as a containment fault of the job for cause 0x0D. -/
def FaultsHaltPoolThreads : Prop :=
  ∀ (s : State) (t : Thread) (cause : Nat) (info pc : Word) (d : Bool),
    ((s.ctx t).lvl ≠ .f → t.ctx ≠ 0 →
      let u := fault t cause info pc d s
      (u.ctx t).st = .halt ∧ (u.ctx t).reg 0x043 = pc ∧ (u.ctx t).reg 0x042 = info ∧
      (u.ctx t).reg 0x041 = BitVec.ofNat 32 (cause + (if d then 256 else 0)) ∧ ((u.core t.core).reg 0x125).getLsbD 0 = true ∧
      (u.ctx t).ops = (s.ctx t).ops ∧ (u.ctx t).rets = (s.ctx t).rets ∧
      (((s.core t.core).reg 0x127).toNat + 32 * 2 ^ (((s.core t.core).reg 0x128).toNat % 16) ≤ 0x100000 →
        ∀ c, c ≠ t.core → u.core c = s.core c)) ∧
    (let s0 := if cause = 0x0D then jobOfCore t.core (fun j => { j with conts := j.conts + 1 }) s else s
     ((s.ctx t).lvl ≠ .f → t.ctx = 0 → fault t cause info pc d s = enter t 1 cause info pc d 0 s0) ∧
     ((s.ctx t).lvl = .f → fault t cause info pc d s = enter t 2 cause info pc d 0 s0))

/-- A failed check during entry locks the core up: its eight contexts enter LOCK and BENCH_LOCKc records the context, level,
reason, vector and program counter (R291, R307, R309). -/
def FailedEntryLocksTheCore : Prop :=
  ∀ (s : State) (t : Thread) (lvl vec : Nat) (info pc : Word) (d : Bool) (prev : Nat), lvl = 1 ∨ lvl = 2 → vec < 0x14 → t.ctx < 8 →
    let ptr := if lvl = 2 then 0x048 else 0x045
    let lim := if lvl = 2 then 0x049 else 0x046
    let va := ((s.core t.core).reg (if lvl = 2 then 0x123 else 0x122)).toNat + 8 * vec
    let w1 := (memWord s.mem (localBase t.core + va + 4)).toNat
    let h := (memWord s.mem (localBase t.core + va)).toNat
    let locked := fun (why : Nat) (u : State) =>
      (∀ i, i < 8 → (u.ctx ⟨t.core, i⟩).st = .lock ∧ (u.ctx ⟨t.core, i⟩).ops = (s.ctx ⟨t.core, i⟩).ops) ∧ u.mem = s.mem ∧
      (u.bench (benchOf t.core)).r (0x4C00 + t.core % 4 * 8) =
        BitVec.ofNat 64 (1 + t.ctx * 2 + lvl * 16 + why * 64 + vec * 256 + pc.toNat * 2 ^ 32)
    let u := enter t lvl vec info pc d prev s
    (0x100000 < va + 8 → locked 2 u) ∧
    (va + 8 ≤ 0x100000 → bit w1 31 = false ∨ bits w1 30 10 ≠ 0 ∨ 0x100000 ≤ h → locked 3 u) ∧
    (va + 8 ≤ 0x100000 → bit w1 31 = true → bits w1 30 10 = 0 → h < 0x100000 →
      ((s.ctx t).reg lim).toNat < ((s.ctx t).reg ptr).toNat + 256 → locked 1 u)

/-- C0 takes an enabled pending interrupt at its boundary through S vector 0x11, with the pending and enabled bits in XINFO
(R301); an injection enters any context but one in LOCK through F vector 0x13, with its state in PREVST (R306); while a hold
window is open no interrupt is delivered (R297). -/
def InterruptsAndInjections : Prop :=
  ∀ (s : State) (c : Nat) (t : Thread) (w : Word),
    let x := s.ctx ⟨c, 0⟩
    (deliverable s c = true → x.inject = none → x.wait = .none →
      exec (.interruptEntry c) s =
        .next (enter ⟨c, 0⟩ 1 0x11 ((s.core c).reg 0x125 &&& (s.core c).reg 0x126) x.pc false 0 s)) ∧
    (x.hold.isSome = true ∨ ((s.core c).reg 0x125 &&& (s.core c).reg 0x126) = 0 ∨ x.lvl ≠ .s →
      exec (.interruptEntry c) s = .next s) ∧
    (exists_ s t = true → (s.ctx t).st ≠ .lock → (s.ctx t).inject = none → (s.ctx t).wait = .none →
      exec (.injection t w) s = .next (enter t 2 0x13 w
        (if (s.ctx t).st = .susp ∨ (s.ctx t).st = .halt then (s.ctx t).reg 0x043 else (s.ctx t).pc) false (stN (s.ctx t).st)
        (s.updCtx t (fun x => { x with inject := none })))) ∧
    ((s.ctx t).st = .lock → exec (.injection t w) s = .next s)

/-- Customer instructions: UCnn with a valid entry queues its sequence with the operands copied and holds its thread (R244,
R248); the sequencer starts the oldest when none runs (R251), with the region registers as they stand (R238); two cycles of
decode and the sequence's cycles later the results are pushed (R250), or the fault is taken at UCnn (R253); so for a
sequence of one micro-op, a literal or ADD. -/
def CustomerInstructions : Prop :=
  ∀ (s : State) (t : Thread) (nn : Nat) (c : Nat) (r : MicroRun) (rest : List MicroRun), nn < 32 →
    let s1 := firstIssue t s
    let d := ucdec s t.core nn
    (Runs t 1 ⟨ucIn d, ucOut d, 0, 0⟩ s →
      (bit d 18 = true → ucIn d ≤ 4 → ucOut d ≤ 4 → bit d 17 = false ∨ (s1.ctx t).lvl ≠ .u →
        ∃ u, exec (.ucnn t nn) s = .next u ∧ (u.ctx t).wait = .micro ∧ (u.ctx t).ops = (s.ctx t).ops ∧
          (u.core t.core).micro = (s1.core t.core).micro ++
            [{ ctx := t.ctx, entry := nn, args := operands s1 t (ucIn d), started := none, view := [] }]) ∧
      (bit d 18 = false → exec (.ucnn t nn) s = .next (fault t 0x03 (syllables s1 t (0xC0 + nn) none) (s.ctx t).pc false s1))) ∧
    ((s.core c).micro = r :: rest →
      let e := ucdec s c r.entry
      let ends := fun (push : List Word) => Host.Outcome.next (completeHeld ⟨c, r.ctx⟩ push (s.updCore c (fun k => { k with micro := rest })))
      (r.started = none → exec (.microcodeStart c) s = .next (s.updCore c (fun k =>
        { k with micro := { r with started := some (s.now / 2), view := (k.ctx r.ctx).sr } :: rest }))) ∧
      (∀ st v, r.started = some st → st + 3 ≤ s.now / 2 → bits e 10 0 < 2048 → ucOut e = 1 → v < 2 ^ 16 → r.args = [] →
        microWord s c (bits e 10 0) = 2 ^ 31 + v * 256 + 0xF0 →
        exec (.microcodeEnd c) s = ends [BitVec.signExtend 32 (BitVec.ofNat 16 v)]) ∧
      (∀ st a b, r.started = some st → st + 3 ≤ s.now / 2 → bits e 10 0 < 2048 → ucOut e = 1 → r.args = [b, a] →
        microWord s c (bits e 10 0) = 2 ^ 31 + 0x10 → exec (.microcodeEnd c) s = ends [a + b]) ∧
      (∀ st m, r.started = some st → microResult c r s = .done m → st + 2 + m.cyc ≤ s.now / 2 →
        exec (.microcodeEnd c) s = .next (completeHeld ⟨c, r.ctx⟩ (m.stk.take (ucOut e))
          (m.s.updCore c (fun k => { k with micro := rest })))) ∧
      (∀ st m cause info, r.started = some st → microResult c r s = .fault m cause info → cause ≠ 0x0D →
        st + 2 + m.cyc ≤ s.now / 2 →
        exec (.microcodeEnd c) s = .next (faultHeld ⟨c, r.ctx⟩ cause info (m.s.updCore c (fun k => { k with micro := rest })))))

/-- FORK (R263 to R266): the statuses in the order of the rules; a granted FORK starts the lowest FREE pool context at
entry, level U, with arg alone on its stack, MHI:MLO 0, no loop open and the forker's formats, and sends the operation that
sets its completion tally to 1. In static mode a class whose units no live context holds is granted. -/
def ForkStartsTheLowestFreeContext : Prop :=
  ∀ (s : State) (t : Thread) (entry a cls : Word) (k : Nat), Runs t 1 ⟨3, 1, 0, 0⟩ s →
    operands (firstIssue t s) t 3 = [cls, a, entry] →
    let s1 := firstIssue t s
    let isFree := fun k => (s1.ctx ⟨t.core, k⟩).st = .free
    (3 < cls.toNat → exec (.fork t) s = pushed t 3 [0x80000003] s) ∧
    (cls.toNat ≤ 3 → (∀ k, 1 ≤ k → k < nCtx s1 t.core → ¬ isFree k) → exec (.fork t) s = pushed t 3 [0x80000001] s) ∧
    (cls.toNat ≤ 3 → 1 ≤ k → k < nCtx s1 t.core → isFree k → (∀ j, 1 ≤ j → j < k → ¬ isFree j) →
      (grantable s1 t.core cls.toNat = false → exec (.fork t) s = pushed t 3 [0x80000002] s) ∧
      (grantable s1 t.core cls.toNat = true → ∃ u, exec (.fork t) s = .next (complete t 1 3 [BitVec.ofNat 32 k] 0 [] none u) ∧
        (let y := u.ctx ⟨t.core, k⟩
         y.st = .run ∧ y.pc = entry ∧ y.lvl = .u ∧ y.ops = [a] ∧ y.rets = [] ∧ y.ldepth = 0 ∧ y.reg 0x020 = 0 ∧ y.reg 0x021 = 0 ∧
         y.reg 0x04B = cls ∧ y.reg 2 = y.reg 0 ∧ y.reg 5 = y.reg 3 ∧ y.reg 0x02D = (s1.ctx ⟨t.core, k⟩).reg 0x02D ∧
         ∀ i, i < 4 → y.reg (0x024 + i) = (s1.ctx t).reg (0x024 + i)) ∧
        ∃ i, i ∈ (u.bench (benchOf t.core)).tallyIn ∧ i.op.op = 5 ∧ i.op.tally = benchOf t.core * 512 + 480 + t.core % 4 * 8 + k ∧
          i.due = s.now / 2 + 2)) ∧
    (dynamic s1 t.core = false → (∀ i, i < 8 → live s1 t.core i = true → ∀ res, res < 4 →
        maskOf s1 t.core cls.toNat res &&& maskOf s1 t.core (classOf s1 ⟨t.core, i⟩) res = 0) →
      grantable s1 t.core cls.toNat = true)

/-- JOIN pushes 3 for a tid that names no other pool context, the last end's status when the completion tally is 0, and
otherwise spins; the wake pushes the ended thread's status, the timeout 2 (R267). -/
def JoinStatuses : Prop :=
  ∀ (s : State) (t : Thread) (tid : Word) (k since due e : Nat),
    let s1 := firstIssue t s
    let n := tid.toNat
    let count := ((s1.bench (benchOf t.core)).tally (480 + t.core % 4 * 8 + n)).count
    (Runs t 1 ⟨1, 1, 0, 0⟩ s → operands s1 t 1 = [tid] →
      (n = 0 ∨ nCtx s1 t.core ≤ n ∨ n = t.ctx → exec (.join t) s = pushed t 1 [3] s) ∧
      (1 ≤ n → n < nCtx s1 t.core → n ≠ t.ctx → count = 0 →
        exec (.join t) s = pushed t 1 [if (s1.ctx ⟨t.core, n⟩).lastEnd then 1 else 0] s) ∧
      (1 ≤ n → n < nCtx s1 t.core → n ≠ t.ctx → count ≠ 0 → ∃ u, exec (.join t) s = .next u ∧
        (u.ctx t).wait = .join n (s.now / 2) (s.now / 2 + 2 ^ ((s.ctx t).reg 0x04C).toNat) ∧ (u.ctx t).ops = (s.ctx t).ops)) ∧
    ((s.ctx t).wait = .join k since due →
      let last := ((s.bench (benchOf t.core)).tally (480 + t.core % 4 * 8 + k)).lastAdv
      (k < 8 → last = some e → since ≤ e → e + 2 ≤ s.now / 2 →
        exec (.joinWake t) s = .next (completeHeld t [if (s.ctx ⟨t.core, k⟩).lastEnd then 1 else 0] (countSpin t true s))) ∧
      (k < 8 → last = none ∨ (last = some e ∧ (e < since ∨ due < e)) → due ≤ s.now / 2 →
        exec (.joinTimeout t) s = .next (completeHeld t [2] (countSpin t true s))))

/-- The end of a thread (R268, R269, R273): QUIT parks C0 at the next syllable and makes a pool thread end; once its
descriptors are final the end clears its tiles, sets LASTEND, sends its completion tally's update and sets TEND. -/
def ThreadEnds : Prop :=
  ∀ (s : State) (t : Thread) (le : Bool),
    let s1 := firstIssue t s
    (Runs t 1 ⟨0, 0, 0, 0⟩ s →
      (t.ctx = 0 → ∃ u, exec (.quit t) s = .next u ∧ (u.ctx t).st = .park ∧ (u.ctx t).pc = (s.ctx t).pc + 1) ∧
      (t.ctx ≠ 0 → exec (.quit t) s = .next (s1.updCtx t (fun x => { x with wait := .ending false, heldPops := 0, heldLen := 1 })))) ∧
    ((s.ctx t).wait = .ending le →
      let final := fun (i : Nat) => (s.slotOf t.core i).ctx ≠ t.ctx ∨ (s.slotOf t.core i).state = 0 ∨ 4 ≤ (s.slotOf t.core i).state
      ((∀ i, i < 16 → final i) → ∃ u, exec (.threadEnd t) s = .next u ∧ (u.ctx t).wait = .ended ∧ (u.ctx t).lastEnd = le ∧
        ((u.core t.core).reg 0x125).getLsbD 1 = true ∧ (∀ i, i ∈ tilesOf s t → ((u.core t.core).tile i).inUse = false) ∧
        ∃ i, i ∈ (u.bench (benchOf t.core)).tallyIn ∧ i.op.op = 6 ∧
          i.op.tally = benchOf t.core * 512 + 480 + t.core % 4 * 8 + t.ctx ∧ i.due = s.now / 2 + 2) ∧
      (∀ i, i < 16 → ¬ final i → exec (.threadEnd t) s = .next s))

/-- THSUSP stops a pool thread at its boundary with CORE_TPC at the next instruction (R270); THRESM lets one in SUSP or HALT
run on at CORE_TPC (R271); a tid outside 1 to N − 1 is illegal for both. -/
def SuspendAndResume : Prop :=
  ∀ (s : State) (t : Thread) (tid : Word), Runs t 1 ⟨1, 0, 0, 0⟩ s → operands (firstIssue t s) t 1 = [tid] →
    let s1 := firstIssue t s
    let v : Thread := ⟨t.core, tid.toNat⟩
    (s1.ctx t).lvl ≠ .u → (s1.ctx t).suspReq = false →
    (tid.toNat = 0 ∨ nCtx s1 t.core ≤ tid.toNat →
      exec (.thresm t) s = .next (fault t 0x03 (syllables s1 t 0xEB none) (s.ctx t).pc false s1)) ∧
    (1 ≤ tid.toNat → tid.toNat < nCtx s1 t.core → tid.toNat = t.ctx →
      ∃ u, exec (.thsusp t) s = .next u ∧ (u.ctx t).st = .susp ∧ (u.ctx t).reg 0x043 = (u.ctx t).pc) ∧
    (1 ≤ tid.toNat → tid.toNat < nCtx s1 t.core → tid.toNat ≠ t.ctx →
      ((s1.ctx v).st = .run → (s1.ctx v).wait = .none →
        ∃ u, exec (.thsusp t) s = .next u ∧ (u.ctx v).st = .susp ∧ (u.ctx v).reg 0x043 = (s1.ctx v).pc) ∧
      ((s1.ctx v).st = .susp ∨ (s1.ctx v).st = .halt →
        exec (.thresm t) s = .next (complete t 1 1 [] 0 [] none (s1.updCtx v (fun x => { x with st := .run, pc := x.reg 0x043 })))) ∧
      ((s1.ctx v).st ≠ .susp → (s1.ctx v).st ≠ .halt → exec (.thresm t) s = pushed t 1 [] s))

/-- A held instruction's completion: its operands are popped, its results pushed, and the thread goes on after it, when no
suspension waits (R131, R250). -/
def HeldInstructionsComplete : Prop :=
  ∀ (s : State) (t : Thread) (push : List Word), (s.ctx t).suspReq = false →
    completeHeld t push s = complete t (s.ctx t).heldLen (s.ctx t).heldPops push 0 [] none
      (s.updCtx t (fun x => { x with wait := .none, heldPops := 0, heldLen := 0 }))

/-- Issue of the tile operations of R201 and R133, each with the operands it pops: the checks of R740, then the operation
waits for its unit and holds its thread with its operands on the stack (R131); a format fault, then a share fault, come
before. -/
def TileOperationsIssue : Prop :=
  ∀ (s s2 : State) (t : Thread) (last : Byte) (i : Instr) (op : TOp) (n f : Nat) (w : Word),
    (i, op, n) ∈ [(Instr.mma t last, TOp.mma, 3), (.accz t last, .accz, 1), (.tfree t last, .tfree, 1), (.accrd t last, .accrd, 4), (.tld t last, .tld, 3), (.tldt t last, .tldt, 3),
      (.tldc t last, .tldc, 4), (.tlds t last, .tlds, 3), (.tldp t last, .tldp, 3), (.tst t last, .tst, 3), (.tstt t last, .tstt, 3),
      (.tstc t last, .tstc, 4), (.tsts t last, .tsts, 3), (.tstp t last, .tstp, 3), (.tcvt t last, .tcvt, 4), (.qnt t last, .qnt, 3),
      (.vadd t last, .vadd, 3), (.vmul t last, .vmul, 3), (.vmax t last, .vmax, 3), (.vmin t last, .vmin, 3),
      (.vfma t last, .vfma, 4), (.vrsum t last, .vrsum, 2), (.vrmax t last, .vrmax, 2), (.vrmin t last, .vrmin, 2),
      (.vact t last, .vact, 2), (.vactld t last, .vactld, 1)] →
    Runs t 2 ⟨n, 0, 0, 0⟩ s →
    let s1 := firstIssue t s
    let args := operands s1 t n
    let fmt := fmtAt s t last
    let bad := formatFault op last fmt (args.getD 2 0).toNat
    (bad = none → nameAll t args op.names s1 = .inr s2 → ∃ u, exec i s = .next u ∧ (u.ctx t).wait = .tile ∧
      (u.ctx t).pc = (s2.ctx t).pc ∧ (u.ctx t).ops = (s2.ctx t).ops ∧
      (u.core t.core).tops = (s2.core t.core).tops ++ [
        { ctx := t.ctx, op := op, last := last, pc := (s2.ctx t).pc, args := args, tfmt := fmt, phase := .issued,
          at_ := s2.now / 2, beat := 0, rows := 0, srg := 0, sclUf := 0, patchOvf := 0, held := [], view := [],
          srcA := Tile.reset, srcB := Tile.reset }]) ∧
    (bad = some f → exec i s = .next (fault t 0x0A (BitVec.ofNat 32 f) (s.ctx t).pc false s1)) ∧
    (bad = none → nameAll t args op.names s1 = .inl w → exec i s = .next (fault t 0x0B w (s.ctx t).pc false s1))

/-- Started, ACCZ zeroes the M by N elements of the committed bank and clears their rows' ROWSAT bits, and leaves every
other element (R123); TFREE clears the tile's in-use flag and in dynamic mode releases it (R115, R276); both complete in
their one cycle, leave the device and release their thread (R133, R162). -/
def AccumulatorZeroAndTileFree : Prop :=
  ∀ (s : State) (c : Nat) (before : List TileOp) (o : TileOp) (rest : List TileOp), (s.core c).tops = before ++ o :: rest →
    (∀ p, p ∈ before → p.phase ≠ .issued) → o.phase = .issued → mayStart s c before o = true →
    let t : Thread := ⟨c, o.ctx⟩
    let done := fun (u : State) => (u.ctx t).wait = .none ∧ (u.core c).tops = (before ++ rest).filter (fun p => decide (p.ctx ≠ o.ctx))
    (o.op = .accz →
      let ac := (o.args.getD 0 0).toNat % 4
      ∃ u, exec (.tileOpStart c) s = .next u ∧ done u ∧
        (∀ r j, r < 32 → j < 32 → tblGet (zeros 32) ((u.core c).acc ac).committed (32 * r + j) =
          if r < o.m ∧ j < o.n then 0 else tblGet (zeros 32) ((s.core c).acc ac).committed (32 * r + j)) ∧
        (∀ r, r < 32 → ((u.core c).reg (0x109 + ac)).getLsbD r = (decide (o.m ≤ r) && ((s.core c).reg (0x109 + ac)).getLsbD r)) ∧
        ∀ k, k ≠ ac → (u.core c).acc k = (s.core c).acc k) ∧
    (o.op = .tfree → ∃ u, exec (.tileOpStart c) s = .next u ∧ done u ∧ ((u.core c).tile (o.low 0)).inUse = false ∧
      (∀ k, k ≠ o.low 0 → (u.core c).tile k = (s.core c).tile k) ∧ (dynamic s c = true → ownerOf (u.core c) 0 (o.low 0) = 0))

/-- The device starts the oldest operation not started once its unit and ports are free (R159, R160): it runs from this
cycle with the generator and the regions as they stand (R74, R238); an MMA copies the committed bank to the working one
(R121). With no operation before it, no assay window and every unit and port free, an operation issued in an earlier cycle
starts. -/
def TileOperationStarts : Prop :=
  ∀ (s : State) (c : Nat) (before : List TileOp) (o : TileOp) (rest : List TileOp), (s.core c).tops = before ++ o :: rest →
    (∀ p, p ∈ before → p.phase ≠ .issued) → o.phase = .issued →
    (mayStart s c before o = true → o.op ≠ .mma → o.op ≠ .accz → o.op ≠ .tfree →
      exec (.tileOpStart c) s = .next (setTileOp c { o with
        phase := .running, at_ := s.now / 2, srg := (s.ctx ⟨c, o.ctx⟩).reg 0x023 ++ (s.ctx ⟨c, o.ctx⟩).reg 0x022,
        view := (s.ctx ⟨c, o.ctx⟩).sr } s)) ∧
    (mayStart s c before o = true → o.op = .mma → mmaFault s c o = none → (∀ p, p ∈ before ++ rest → p.ctx ≠ o.ctx) →
      ∃ u, exec (.tileOpStart c) s = .next u ∧ (u.core c).mmaFree = s.now / 2 + mmaC o.cls ∧
        (let ac := (o.args.getD 0 0).toNat % 4
         (u.core c).acc ac = { committed := ((s.core c).acc ac).committed, working := ((s.core c).acc ac).committed }) ∧
        ∃ p, p ∈ (u.core c).tops ∧ p.ctx = o.ctx ∧ p.phase = .running ∧ p.at_ = s.now / 2) ∧
    (before = [] → (s.bench (benchOf c)).awins = [] → o.at_ < s.now / 2 → (s.core c).mmaFree ≤ s.now / 2 →
      (s.core c).lsFree ≤ s.now / 2 → (s.core c).vecFree ≤ s.now / 2 → (s.core c).rd0Free ≤ s.now / 2 →
      (s.core c).rd1Free ≤ s.now / 2 → (s.core c).wrFree ≤ s.now / 2 → mayStart s c before o = true) ∧
    (mayStart s c before o = false → exec (.tileOpStart c) s = .next s)

/-- A beat of TLD brings rows 2b and 2b + 1 of M from local memory into the tile (R140), and a beat of TST writes its rows;
after the last beat the tail begins; no beat is made in a cycle whose ports a fetch of a running MMA claims (R161). -/
def TileBeatsMoveRows : Prop :=
  ∀ (s : State) (t : Thread) (o : TileOp) (r : Nat), tileOpOf s t = some o → o.phase = .running → o.at_ ≤ s.now / 2 →
    let a := rowAddr (o.args.getD 1 0) (o.args.getD 2 0)
    let base := localBase t.core
    s.bad = [] → 2 * o.beat ≤ r → r < 2 * o.beat + 2 → r < o.m →
    (o.op = .tld → (∀ k, k < 2 → rowOk s t o 0 (a (2 * o.beat + k)) (2 * o.n) = true) → ∃ u, exec (.tileBeat t) s = .next u ∧
      (tileRow u t.core (o.low 0) r).data = memBytes s.mem (base + a r) (2 * o.n) ++ (tileRow s t.core (o.low 0) r).data.drop (2 * o.n) ∧
      ∃ p, tileOpOf u t = some p ∧ p.beat = o.beat + 1 ∧ p.phase = (if o.beat + 1 < o.beats then .running else .tail)) ∧
    (o.op = .tst → (∀ k, k < 2 → rowOk s t o 1 (a (2 * o.beat + k)) (2 * o.n) = true) → fetchNow s t.core = false →
      r + 1 = o.m ∨ r = 2 * o.beat + 1 → ∃ u, exec (.tileBeat t) s = .next u ∧
      memBytes u.mem (base + a r) (2 * o.n) = (tileRow s t.core (o.low 0) r).data.take (2 * o.n) ∧
      ∃ p, tileOpOf u t = some p ∧ p.beat = o.beat + 1) ∧
    (o.op = .tst → fetchNow s t.core = true → exec (.tileBeat t) s = .next s)

/-- A tile operation completes at the end of its tail: it leaves the machine, its thread's instruction completes (R131,
R162), and a converting one in SR mode leaves the generator's state in CORE_SRG (R74); before that nothing happens. -/
def TileOperationCompletes : Prop :=
  ∀ (s : State) (t : Thread) (o : TileOp), tileOpOf s t = some o → o.phase = .tail →
    (o.at_ + o.op.tail ≤ s.now / 2 → (s.ctx t).suspReq = false → ∃ u, exec (.tileOpComplete t) s = .next u ∧
      (u.ctx t).wait = .none ∧ tileOpOf u t = none ∧
      (o.op = .tldc ∨ o.op = .tstc ∨ o.op = .tcvt ∨ o.op = .qnt ∨ o.op = .accrd → fmtRND o.tfmt = 2 →
        (u.ctx t).reg 0x022 = o.srg.extractLsb' 0 32 ∧ (u.ctx t).reg 0x023 = o.srg.extractLsb' 32 32) ∧
      ((s.ctx t).ldepth = 0 → (u.ctx t).pc = (s.ctx t).pc + BitVec.ofNat 32 (s.ctx t).heldLen)) ∧
    (s.now / 2 < o.at_ + o.op.tail → exec (.tileOpComplete t) s = .next s)

/-- An MMA completes at s + C + 8 (R137): the committed bank holds, at row r and column j of M by N, the new value of each
element of A times B transposed, as its fetches have read them (R136), plus the old value (R135), every other element stays,
the old bank becomes the working one (R121), and the thread is released. -/
def MatrixMultiplyCompletes : Prop :=
  ∀ (s : State) (t : Thread) (o : TileOp), tileOpOf s t = some o → o.op = .mma → o.phase = .running →
    let ac := (o.args.getD 0 0).toNat % 4
    let old := ((s.core t.core).acc ac).committed
    let w := ((s.core t.core).acc ac).working
    let value := fun (f : Nat) (x : Tile) (r : Nat) (p : Bool) => (List.range (fmtK f)).map (rowValue f (readRowOf x r) p)
    (o.at_ + mmaC o.cls + 8 ≤ s.now / 2 → ∃ u, exec (.mmaComplete t) s = .next u ∧
      (∀ r j, r < o.m → j < o.n → tblGet (zeros 32) ((u.core t.core).acc ac).committed (32 * r + j) =
        (mmaElem o (value (fmtA o.tfmt) o.srcA r true) (value (fmtB o.tfmt) o.srcB j false) (tblGet (zeros 32) w (32 * r + j))).1) ∧
      (∀ r j, j < 32 → o.m ≤ r ∨ o.n ≤ j →
        tblGet (zeros 32) ((u.core t.core).acc ac).committed (32 * r + j) = tblGet (zeros 32) w (32 * r + j)) ∧
      ((u.core t.core).acc ac).working = old ∧ (u.ctx t).wait = .none ∧ tileOpOf u t = none) ∧
    (s.now / 2 < o.at_ + mmaC o.cls + 8 → exec (.mmaComplete t) s = .next s) ∧
    (∀ n r i, n < 16 → r < 32 → i < 4 →
      let read := fun (k : Nat) =>
        let x := (s.core t.core).tile (o.low k)
        if x.inUse then memGet x.data (64 * r + 4 * n + i) else 0
      memGet (fetchSlice (s.core t.core) n o).srcA.data (64 * r + 4 * n + i) = read 1 ∧
      memGet (fetchSlice (s.core t.core) n o).srcB.data (64 * r + 4 * n + i) = read 2)

/-- The assay unit's windows (R99, R100): ASYW requests a window of the low 16 bits of its operand, a length of 0 none; the
oldest starts when none is served and no tile load or store of its core runs; it ends when its length has passed and no
sample that fits in it waits. -/
def AssayWindows : Prop :=
  ∀ (s : State) (t : Thread) (a : Word) (b : Nat) (w : AWin) (r : List AWin),
    let s1 := firstIssue t s
    let bt := benchOf t.core
    (Runs t 1 ⟨1, 0, 0, 0⟩ s → operands s1 t 1 = [a] →
      (a.toNat % 65536 = 0 → exec (.asyw t) s = pushed t 1 [] s) ∧
      (a.toNat % 65536 ≠ 0 → exec (.asyw t) s = .next (complete t 1 1 [] 0 [] none (s1.updBench bt (fun x =>
        { x with awins := x.awins ++ [{ core := t.core, len := a.toNat % 65536, endAt := none, free := 0 }] }))))) ∧
    ((s.bench b).awins = w :: r →
      (w.endAt = none → (∀ o, o ∈ (s.core w.core).tops → o.op.unit = 2 → o.phase ≠ .running) →
        exec (.assayWindowStart b) s = .next (s.updBench b (fun x =>
          { x with awins := { w with endAt := some (s.now / 2 + w.len), free := s.now / 2 } :: r }))) ∧
      (∀ e, w.endAt = some e → e ≤ s.now / 2 → (∀ x, x ∈ (s.core w.core).samplesQ → e < max w.free x.at_ + sampleTime x) →
        exec (.assayWindowEnd b) s = .next (s.updBench b (fun x => { x with awins := r }))) ∧
      (∀ e, w.endAt = some e → s.now / 2 < e → exec (.assayWindowEnd b) s = .next s))

/-- A sample that fits in the window and whose time has come leaves its queue (R101); when its reference lies outside local
memory it is dropped and counted, otherwise the count of its layer slot rises by one for each column (R102 to R104), and the
greatest error of the slot takes in that of a column. -/
def AssaySamplesAreCompared : Prop :=
  ∀ (s : State) (b : Nat) (w : AWin) (r : List AWin) (x : Sample) (q : List Sample) (d : Nat), (s.bench b).awins = w :: r →
    (s.core w.core).samplesQ = x :: q → sampleDue w x = some d → d ≤ s.now / 2 → x.layer < 16 →
    counterCount ((s.bench b).r (0x4510 + x.layer * 0x40)) + x.n < 2 ^ 48 →
    ∃ u, exec (.assaySampleDone b) s = .next u ∧ (u.core w.core).samplesQ = q ∧
      ((∃ a, a ∈ refAddrs x ∧ 0x100000 < a + 2 * x.k) →
        (u.bench b).r 0x4410 = counterAdd ((s.bench b).r 0x4410) 1 ∧
        (u.bench b).r (0x4510 + x.layer * 0x40) = (s.bench b).r (0x4510 + x.layer * 0x40)) ∧
      ((∀ a, a ∈ refAddrs x → a + 2 * x.k ≤ 0x100000) →
        counterCount ((u.bench b).r (0x4510 + x.layer * 0x40)) = counterCount ((s.bench b).r (0x4510 + x.layer * 0x40)) + x.n ∧
        ∀ ra rb sg m ex, refAddrs x = [ra, rb] → x.n = 1 → s.bad = [] →
          (codeValue 0x11 (x.incs.getD 0 0).toNat).add
            (codeValue 0x11 (accFp32 false 0 (refRow s w.core ra x.k) (refRow s w.core rb x.k) (x.k / 32)).1).neg = .fin sg m ex →
          (u.bench b).r (0x4500 + x.layer * 0x40) = BitVec.ofNat 64 (max ((s.bench b).r (0x4500 + x.layer * 0x40)).toNat
            (min (roundMag 1 0 m ex (signed 8 ((s.bench b).r (0x4520 + x.layer * 0x40)).toNat)) 0xFFFFFFFF)))

/-- COPEN (R448, R449, R451): the statuses found at the core, in their order, push no handle; a sound request claims the
lowest FREE handle, asks the destination's bench controller over the hierarchy, and waits; the answer pushes the handle and
0, or a status and frees the handle. -/
def ChannelOpening : Prop :=
  ∀ (s : State) (t : Thread) (e maxlen nslot q dst : Word) (h st : Nat) (p : RingPkt),
    let s1 := firstIssue t s
    let b := benchOf t.core
    (Runs t 2 ⟨5, 2, 0, 0⟩ s → operands s1 t 5 = [dst, q, nslot, maxlen, e] →
      ((∀ k, k < 16 → (s1.chanOf t.core k).state ≠ 0) →
        exec (.copen t) s = .next (complete t 2 5 [6, 0xFFFFFFFF] 0 [] none s1)) ∧
      (h < 16 → (s1.chanOf t.core h).state = 0 → (∀ k, k < h → (s1.chanOf t.core k).state ≠ 0) →
        (maxlen.toNat = 0 ∨ maxlen.toNat % 8 ≠ 0 ∨ 256 < maxlen.toNat →
          exec (.copen t) s = .next (complete t 2 5 [9, 0xFFFFFFFF] 0 [] none s1)) ∧
        (maxlen.toNat ≠ 0 → maxlen.toNat % 8 = 0 → maxlen.toNat ≤ 256 →
          (nslot.toNat = 0 ∨ 64 < nslot.toNat → exec (.copen t) s = .next (complete t 2 5 [5, 0xFFFFFFFF] 0 [] none s1)) ∧
          (nslot.toNat ≠ 0 → nslot.toNat ≤ 64 →
            (samePart s1 b (benchOf (dst.toNat % 512)) = false →
              exec (.copen t) s = .next (complete t 2 5 [3, 0xFFFFFFFF] 0 [] none s1)) ∧
            (samePart s1 b (benchOf (dst.toNat % 512)) = true → benchOf (dst.toNat % 512) = b →
              ∃ u, exec (.copen t) s = .next u ∧ (u.ctx t).wait = .copen h ∧ (u.chanOf t.core h).nslot = 0 ∧
                ((s.queueOf (dst.toNat % 512) (q.toNat % 16)).armed = false →
                  sentPacket s1 u (rowStop b) (rowStop b) (.answer t.core h 7))) ∧
            (samePart s1 b (benchOf (dst.toNat % 512)) = true → benchOf (dst.toNat % 512) ≠ b →
              ∃ u, exec (.copen t) s = .next u ∧ (u.ctx t).wait = .copen h ∧ (u.chanOf t.core h).state = 1 ∧
                (u.chanOf t.core h).ctx = t.ctx ∧ (u.chanOf t.core h).dst = dst.toNat % 512 ∧
                (u.chanOf t.core h).dq = q.toNat % 16 ∧ (u.chanOf t.core h).maxu = maxlen.toNat / 8 ∧
                (u.chanOf t.core h).toexp = max 10 (min 30 (e.toNat % 32)) ∧
                sentPacket s1 u (rowStop b) (rowStop (benchOf (dst.toNat % 512))) (.check t.core h)))))) ∧
    ((s.ctx t).wait = .copen h → p ∈ s.ring → p.pos = p.dst → p.msg = .answer t.core h st →
      (∀ r, r ∈ s.ring → (∃ k, r.msg = .answer t.core h k) → r = p) →
      (st = 0 → exec (.copenAnswer t) s =
        .next (completeHeld t [0, BitVec.ofNat 32 h] { s with ring := s.ring.erase p })) ∧
      (st ≠ 0 → exec (.copenAnswer t) s = .next (completeHeld t [BitVec.ofNat 32 st, 0xFFFFFFFF]
        ({ s with ring := s.ring.erase p }.updChanOf t.core h (fun _ => Chan.reset)))))

/-- CPUT appends bytes of local memory to a staging buffer, or clears it with length 0, with its statuses (R453). CSEND with
the space and places it needs commits its message at once, else it waits; its statuses come in their order (R454 to R457).
-/
def ChannelSending : Prop :=
  ∀ (s : State) (t : Thread) (addr len b h : Word) (due : Nat),
    let s1 := firstIssue t s
    let buf := fun (x : Ctx) => if b.getLsbD 0 then x.stage1 else x.stage0
    let a := addr.toNat / 8 * 8
    let x := s1.chanOf t.core h.toNat
    let l := (buf (s1.ctx t)).length
    (Runs t 2 ⟨3, 1, 0, 0⟩ s → operands s1 t 3 = [b, len, addr] →
      (len = 0 → exec (.cput t) s = .next (complete t 2 3 [0] 0 [] none (s1.updCtx t (fun x => setStage x b [])))) ∧
      (len ≠ 0 → len.toNat % 8 ≠ 0 → exec (.cput t) s = .next (complete t 2 3 [2] 0 [] none s1)) ∧
      (len ≠ 0 → len.toNat % 8 = 0 → 256 < l + len.toNat → exec (.cput t) s = .next (complete t 2 3 [1] 0 [] none s1)) ∧
      (len ≠ 0 → len.toNat % 8 = 0 → l + len.toNat ≤ 256 → a + len.toNat ≤ 0x100000 →
        permitted (s1.ctx t) 0 a len.toNat = true → uncorrectable s1 (localBase t.core + a) len.toNat = none →
        ∃ u, exec (.cput t) s = .next (complete t 2 3 [0] 0 [] none u) ∧
          buf (u.ctx t) = buf (s1.ctx t) ++ memBytes s1.mem (localBase t.core + a) len.toNat)) ∧
    (Runs t 2 ⟨2, 1, 0, 0⟩ s → operands s1 t 2 = [h, b] →
      (ownHandle s1 t h.toNat = false →
        exec (.csend t) s = .next (complete t 2 2 [2] 0 [] none (traceSend t h.toNat 2 l 0 s1))) ∧
      (ownHandle s1 t h.toNat = true → x.state ≠ 2 → x.state ≠ 7 →
        exec (.csend t) s = .next (complete t 2 2 [4] 0 [] none (traceSend t h.toNat 4 l 0 s1))) ∧
      (ownHandle s1 t h.toNat = true → x.state = 7 →
        exec (.csend t) s = .next (complete t 2 2 [5] 0 [] none (traceSend t h.toNat 5 l 0 s1))) ∧
      (ownHandle s1 t h.toNat = true → x.state = 2 →
        (l = 0 ∨ 8 * x.maxu < l → exec (.csend t) s = .next (complete t 2 2 [3] 0 [] none (traceSend t h.toNat 3 l 0 s1))) ∧
        (l ≠ 0 → l ≤ 8 * x.maxu → canCommit s1 t b h.toNat = true →
          exec (.csend t) s = .next (complete t 2 2 [0] 0 [] none (commit t b h.toNat s1))) ∧
        (l ≠ 0 → l ≤ 8 * x.maxu → canCommit s1 t b h.toNat = false →
          ∃ u, exec (.csend t) s = .next u ∧ (u.ctx t).wait = .csend b.toNat h.toNat (s.now / 2 + 2 ^ x.toexp)))) ∧
    ((s.ctx t).wait = .csend b.toNat h.toNat due →
      ((s.chanOf t.core h.toNat).state = 2 → canCommit s t b h.toNat = true →
        exec (.csendCommit t) s = .next (completeHeld t [0] (commit t b h.toNat s))) ∧
      (s.now / 2 < due → exec (.csendTimeout t) s = .next s) ∧
      (due ≤ s.now / 2 → (s.ctx t).suspReq = false → ∃ u v, exec (.csendTimeout t) s = .next u ∧
        u = completeHeld t [1] v ∧ ((u.core t.core).reg 0x125).getLsbD 2 = true ∧ (u.ctx t).wait = .none))

/-- A commitment advances TAIL by the message's space and counts it (R445, R455), empties the buffer, and sends every flit
of the message at once: to the inside of the bench, or to the open-class queue. -/
def CommittedMessages : Prop :=
  ∀ (s : State) (t : Thread) (b : Word) (h : Nat),
    let x := s.chanOf t.core h
    let msg := if b.getLsbD 0 then (s.ctx t).stage1 else (s.ctx t).stage0
    let room := 2 ^ (x.size + 10) - x.tail.toNat % 2 ^ (x.size + 10)
    let u := commit t b h s
    (u.chanOf t.core h).tail = x.tail + BitVec.ofNat 32 (if 8 + msg.length ≤ room then 8 + msg.length else room + 8 + msg.length) ∧
    (u.chanOf t.core h).sent = x.sent + 1 ∧
    (if b.getLsbD 0 then (u.ctx t).stage1 else (u.ctx t).stage0) = [] ∧
    (benchOf x.dst ≠ benchOf t.core →
      (u.bench (benchOf t.core)).oq.length = (s.bench (benchOf t.core)).oq.length + ceilDiv (8 + msg.length) 128) ∧
    (benchOf x.dst = benchOf t.core → ∃ i, (u.bench (benchOf t.core)).inbox = (s.bench (benchOf t.core)).inbox ++ [i] ∧
      i.due = s.now / 2 + 2)

/-- A message's last flit is written into its ring: the header with LEN, kind 1 and SEQ, then the payload, at TAIL, or after
a skip header at the ring's start; TAIL advances by the space, and the sender sees it placed (R445, R446, R458). A message
of a channel that the queue is not attached to is not written. -/
def MessagePlacement : Prop :=
  ∀ (s : State) (p : ChanPart) (l : List Byte), s.bad = [] → l.length ≤ 256 →
    let q := s.queueOf p.dst p.dq
    let size := 2 ^ (q.size + 10)
    let at0 := q.tail.toNat % size
    let ring := localBase p.dst + q.base
    let n := l.length
    let u := placeMsg p l s
    let head := fun (len kind : Nat) => leBytes len 2 ++ [BitVec.ofNat 8 kind, 0] ++ leBytes q.seq 4
    (takes q p = true →
      (8 + n ≤ size - at0 → memBytes u.mem (ring + at0) (8 + n) = head n 1 ++ l ∧
        (u.queueOf p.dst p.dq).tail = q.tail + BitVec.ofNat 32 (8 + n)) ∧
      (size - at0 < 8 + n → memBytes u.mem ring (8 + n) = head n 1 ++ l ∧ memBytes u.mem (ring + at0) 8 = head 0 2 ∧
        (u.queueOf p.dst p.dq).tail = q.tail + BitVec.ofNat 32 (size - at0 + 8 + n)) ∧
      (u.queueOf p.dst p.dq).seq = (q.seq + 1) % 2 ^ 32 ∧
      (u.chanOf p.core p.h).written = (s.chanOf p.core p.h).written + 1) ∧
    (takes q p = false → u.mem = s.mem ∧ u.queueOf p.dst p.dq = q) ∧
    (u.chanOf p.core p.h).placed = (s.chanOf p.core p.h).placed + 1

/-- CRECV (R461): 5 on a queue with nothing attached, 1 on an empty one; the oldest message's payload is copied to the
destination and its length pushed with 0, HEAD passes the message, and the sender is credited (R459). A queue of the
thread's share, in dynamic mode one that it holds, may be named (R443). -/
def ChannelReceiving : Prop :=
  ∀ (s s2 : State) (t : Thread) (dst q : Word), Runs t 2 ⟨2, 2, 0, 0⟩ s → operands (firstIssue t s) t 2 = [q, dst] →
    let s1 := firstIssue t s
    let k := q.toNat % 16
    let b := benchOf t.core
    (dynamic s1 t.core = false → bit (maskOf s1 t.core (classOf s1 t) 2) k = true → nameUnit t 2 k true s1 = some s1) ∧
    (dynamic s1 t.core = true → ownerOf (s1.core t.core) 2 k = t.ctx + 1 → nameUnit t 2 k true s1 = some s1) ∧
    (nameUnit t 2 k true s1 = none → exec (.crecv t) s = .next (fault t 0x0B (shareInfo 2 k) (s.ctx t).pc false s1)) ∧
    (nameUnit t 2 k true s1 = some s2 →
      let x := s2.queueOf t.core k
      let d := dst.toNat / 8 * 8
      let size := 2 ^ (x.size + 10)
      let ring := localBase t.core + x.base
      let at0 := x.head.toNat % size
      let skip := decide (memNat s2.mem (ring + at0 + 2) 1 = 2)
      let head := if skip then x.head + BitVec.ofNat 32 (size - at0) else x.head
      let a := ring + head.toNat % size
      let len := memNat s2.mem a 2
      let new := head + BitVec.ofNat 32 (8 + len)
      (x.state = 0 ∨ x.state = 5 ∨ x.armed = false → exec (.crecv t) s = .next (complete t 2 2 [5, 0] 0 [] none s2)) ∧
      (x.armed = true → x.head = x.tail →
        (x.state = 1 → x.final ≠ 4 → exec (.crecv t) s = .next (complete t 2 2 [1, 0] 0 [] none s2)) ∧
        (x.state = 1 → x.final = 4 → exec (.crecv t) s = .next (complete t 2 2 [4, 0] 0 [] none
          (s2.updQueueOf t.core k (fun x => { x with state := 0 })))) ∧
        (x.state = 2 ∨ x.state = 3 ∨ x.state = 4 → exec (.crecv t) s = .next (complete t 2 2 [BitVec.ofNat 32 x.state, 0] 0 [] none
          (s2.updQueueOf t.core k (fun x => { x with state := 0 }))))) ∧
      (x.state ≠ 0 → x.state ≠ 5 → x.armed = true → x.head ≠ x.tail → s.bad = [] → permitted (s2.ctx t) 1 d len = true →
        d + len ≤ 0x100000 → ∃ u, exec (.crecv t) s = .next (complete t 2 2 [0, BitVec.ofNat 32 len] 0 [] none u) ∧
          memBytes u.mem (localBase t.core + d) len = memBytes s2.mem (a + 8) len ∧
          (u.queueOf t.core k).head = new ∧ (u.queueOf t.core k).tail = x.tail ∧
          (benchOf x.score = b → (u.bench b).inbox = (s.bench b).inbox ++
            [{ due := s.now / 2 + 2, msg := .credit x.score x.shand (t.core * 16 + k) new }]) ∧
          (benchOf x.score ≠ b → ∃ i, i ∈ (u.bench b).oq ∧ i.msg = .credit x.score x.shand (t.core * 16 + k) new ∧ i.dead = false)))

/-- CCLOSE, CABORT and CSTAT (R464, R465, R467): closing an OPEN handle of the thread; the abort's messages placed or left,
a channel that has drained reporting CLOSED_CLEAN; the status word, whose read of a final state frees the handle. -/
def ChannelCloseAbortStatus : Prop :=
  ∀ (s : State) (t : Thread) (h : Word),
    let s1 := firstIssue t s
    let x := s1.chanOf t.core h.toNat
    let aborts := exec (.cabort t) s = .next (complete t 2 1 [2, BitVec.ofNat 32 x.left] 0 [] none (abortChan t.core h.toNat s1)) ∧
      ((abortChan t.core h.toNat s1).chanOf t.core h.toNat).state = 5
    (Runs t 2 ⟨1, 1, 0, 0⟩ s → operands s1 t 1 = [h] →
      (ownHandle s1 t h.toNat = true → x.state = 2 →
        exec (.cclose t) s = .next (complete t 2 1 [0] 0 [] none (s1.updChanOf t.core h.toNat (fun x => { x with state := 3 })))) ∧
      (ownHandle s1 t h.toNat = false ∨ x.state ≠ 2 → exec (.cclose t) s = .next (complete t 2 1 [1] 0 [] none s1)) ∧
      (16 ≤ h.toNat ∨ x.ctx ≠ t.ctx → exec (.cstat t) s = .next (complete t 2 1 [0] 0 [] none s1)) ∧
      (h.toNat < 16 → x.ctx = t.ctx →
        (x.state < 2 → exec (.cstat t) s = .next (complete t 2 1 [BitVec.ofNat 32 x.state] 0 [] none s1)) ∧
        (x.state = 2 ∨ x.state = 3 ∨ x.state = 5 → exec (.cstat t) s = .next (complete t 2 1
          [BitVec.ofNat 32 (x.state + (2 ^ (x.size + 10) - (x.tail - x.khead).toNat) / 8 % 2 ^ 14 * 2 ^ 4)] 0 [] none s1)) ∧
        (x.state = 4 ∨ x.state = 6 ∨ x.state = 7 → ∃ w, exec (.cstat t) s = .next (complete t 2 1 [w] 0 [] none
          (s1.updChanOf t.core h.toNat (fun _ => Chan.reset))) ∧ w.toNat % 16 = x.state))) ∧
    (Runs t 2 ⟨1, 2, 0, 0⟩ s → operands s1 t 1 = [h] →
      (ownHandle s1 t h.toNat = false ∨ x.state = 7 → exec (.cabort t) s = .next (complete t 2 1 [0, 0] 0 [] none s1)) ∧
      (ownHandle s1 t h.toNat = true → x.state = 2 → aborts) ∧
      (ownHandle s1 t h.toNat = true → x.state = 3 → x.written ≠ x.sent → aborts) ∧
      (ownHandle s1 t h.toNat = true → x.state = 3 → x.written = x.sent →
        exec (.cabort t) s = .next (complete t 2 1 [1, BitVec.ofNat 32 x.written] 0 [] none
          ((channelDrain t.core h.toNat s1).updChanOf t.core h.toNat (fun _ => Chan.reset)))))

/-- The ends of a channel (R459, R466, R468, R469): it is CLOSED when every message sent is written, ABORTED when every one
that left is; the receiver's queue learns the state by a notice; a receiver's abort notice aborts the channel into that
queue; a credit carries the queue's HEAD. -/
def ChannelEndsAndCredits : Prop :=
  ∀ (s : State) (c h : Nat), c < 512 → h < 16 →
    let x := s.chanOf c h
    let tells := fun (u : State) (st : Nat) => sentPacket s u (rowStop (benchOf c)) (rowStop (benchOf x.dst)) (.closed x.dst x.dq st c h)
    (x.state = 3 → x.written = x.sent → ∃ u, exec (.channelDrain c h) s = .next u ∧ (u.chanOf c h).state = 4 ∧ tells u 2) ∧
    (x.state = 3 → x.written ≠ x.sent → exec (.channelDrain c h) s = .next s) ∧
    (x.state = 5 → x.placed = x.left → ∃ u, exec (.channelAbortDone c h) s = .next u ∧ (u.chanOf c h).state = 6 ∧ tells u 3) ∧
    (∀ p, s.ring = [p] → p.pos = p.dst → p.msg = .rabort c h (x.dst * 16 + x.dq) → x.state = 2 →
      ∃ u, exec (.receiverAbortNotice c h) s = .next u ∧ (u.chanOf c h).state = 5 ∧ u.ring = []) ∧
    (∀ p st sc sh, s.ring = [p] → p.pos = p.dst → p.msg = .closed c h st sc sh → (s.queueOf c h).state = 1 →
      (s.queueOf c h).final = 0 → (s.queueOf c h).score = sc → (s.queueOf c h).shand = sh →
      ∃ u, exec (.closeNotice c h) s = .next u ∧ (u.queueOf c h).state = st ∧ u.ring = []) ∧
    (∀ i head, s.arrivals = [] → (s.bench (benchOf c)).inbox = [i] → i.due ≤ s.now / 2 →
      i.msg = .credit c h (x.dst * 16 + x.dq) head → 2 ≤ x.state →
      ∃ u, exec (.creditArrival (benchOf c)) s = .next u ∧ (u.chanOf c h).khead = head ∧ (u.bench (benchOf c)).inbox = [])

/-- The tally instructions (R203, R204, R473 to R475): a form and scope that the operation does not permit are illegal; a
plain TADD or TSUB of the issuing bench goes to the slice two core cycles later and the thread goes on; TREAD and TARRIVE
hold it for their result, TWATCH for its wake. -/
def TallyInstructions : Prop :=
  ∀ (s : State) (t : Thread) (v n e : Word) (syl : Byte),
    let s1 := { firstIssue t s with fmn := { s.fmn with nextSerial := s.fmn.nextSerial + 1 } }
    let b := benchOf t.core
    let mk := fun (op : Nat) (v : Word) => ({ op := op, tally := n.toNat % 65536, val := v, cond := tsCond syl, form := tsForm syl,
                                              scope := tsScope syl, core := t.core, ctx := t.ctx, agent := 0,
                                              serial := s.fmn.nextSerial } : TallyOp)
    let sent := fun (op : Nat) (v : Word) => toSlice b (s.now / 2 + 2) (1 + t.core % 4) (mk op v) s1
    (n.toNat % 65536 / 512 = b →
      (Runs t 2 ⟨2, 0, 0, 0⟩ s → operands (firstIssue t s) t 2 = [n, v] → syl = 0 →
        exec (.tadd t syl) s = .next (complete t 2 2 [] 0 [] none (sent 0 v)) ∧
        exec (.tsub t syl) s = .next (complete t 2 2 [] 0 [] none (sent 1 v))) ∧
      (Runs t 2 ⟨1, 2, 0, 0⟩ s → operands (firstIssue t s) t 1 = [n] → tallySyllableOk 2 syl = true →
        ∃ u, exec (.tread t syl) s = .next u ∧ u.benches = (sent 2 0).benches ∧
          (u.ctx t).wait = .tally s.fmn.nextSerial 2 (n.toNat % 65536) (s.now / 2 + 2 ^ 30)) ∧
      (Runs t 2 ⟨2, 1, 0, 0⟩ s → operands (firstIssue t s) t 2 = [n, v] → syl = 0 →
        ∃ u, exec (.tarrive t syl) s = .next u ∧ u.benches = (sent 3 v).benches ∧
          (u.ctx t).wait = .tally s.fmn.nextSerial 3 (n.toNat % 65536) (s.now / 2 + 2 ^ 30)) ∧
      (Runs t 2 ⟨3, 2, 0, 0⟩ s → operands (firstIssue t s) t 3 = [n, v, e] → tallySyllableOk 4 syl = true →
        ∃ u, exec (.twatch t syl) s = .next u ∧ u.benches = (sent 4 v).benches ∧
          (u.ctx t).wait = .watch s.fmn.nextSerial (n.toNat % 65536) (tsCond syl) v
            (s.now / 2 + 2 ^ (max 10 (min 30 (e.toNat % 32)))))) ∧
    (Runs t 2 ⟨2, 0, 0, 0⟩ s → tallySyllableOk 0 syl = false →
      exec (.tadd t syl) s =
        .next (fault t 0x03 (syllables (firstIssue t s) t 0xB0 (some syl)) (s.ctx t).pc false (firstIssue t s)))

/-- The slice performs the operation due at its head (R472): additions and subtractions saturate with OVF and UNF (R475), a
read answers COUNT and GEN to a thread of the bench two core cycles later (R473), and an operation whose tally's generation
is held back is deferred (R478). -/
def TallySliceOperations : Prop :=
  ∀ (s : State) (b : Nat) (i : TallyIn) (r : List TallyIn), (s.bench b).tallyIn = i :: r → i.due ≤ s.now / 2 →
    i.op.tally / 512 = b → absorbsBench s b = false →
    let k := i.op.tally % 512
    let y := (s.bench b).tally k
    let v := i.op.val.toNat
    misuse s i.op = false → (s.bench b).deferred = [] →
    (i.op.op = 0 → ∃ u, exec (.tallyOpArrival b) s = .next u ∧ (u.bench b).tallyIn = r ∧
      (y.count.toNat + v < 2 ^ 32 → ((u.bench b).tally k).count.toNat = y.count.toNat + v ∧ ((u.bench b).tally k).ovf = y.ovf) ∧
      (2 ^ 32 ≤ y.count.toNat + v → ((u.bench b).tally k).count = 0xFFFFFFFF ∧ ((u.bench b).tally k).ovf = true)) ∧
    (i.op.op = 1 → ∃ u, exec (.tallyOpArrival b) s = .next u ∧ (u.bench b).tallyIn = r ∧
      (v ≤ y.count.toNat → ((u.bench b).tally k).count.toNat = y.count.toNat - v) ∧
      (y.count.toNat < v → ((u.bench b).tally k).count = 0 ∧ ((u.bench b).tally k).unf = true)) ∧
    (i.op.op = 3 → tooSoon s i.op.tally = false → ∃ u, exec (.tallyOpArrival b) s = .next u ∧ (u.bench b).tallyIn = r ∧
      ((u.bench b).tally k).count.toNat = (if y.count.toNat = 0 then v - 1 else y.count.toNat - 1) ∧
      ((u.bench b).tally k).gen = (if (if y.count.toNat = 0 then v - 1 else y.count.toNat - 1) = 0 then y.gen + 1 else y.gen)) ∧
    (advances s i.op = true → tooSoon s i.op.tally = true → ∃ u, exec (.tallyOpArrival b) s = .next u ∧
      (u.bench b).deferred = [i.op] ∧ (u.bench b).tally k = y) ∧
    (i.op.op = 2 → benchOf i.op.core = b → ∃ u, exec (.tallyOpArrival b) s = .next u ∧ (u.bench b).tallyIn = r ∧
      (u.bench b).tally k = y ∧ (u.bench b).inbox = (s.bench b).inbox ++
        [⟨s.now / 2 + 2, .result i.op.core i.op.ctx i.op.serial i.op.tally true y.count (y.gen.setWidth 32)⟩])

/-- A watch is registered, or wakes its thread at once where its condition holds (R479, R480); a cancel removes it (R483);
the operations deferred behind a generation go on once 64 core cycles have passed (R478). -/
def WatchesAndDeferral : Prop :=
  ∀ (s : State) (b n : Nat) (i : TallyIn) (op : TallyOp),
    ((s.bench b).tallyIn = [i] → i.due ≤ s.now / 2 → absorbsBench s b = false → i.op.op = 7 → i.op.tally / 512 = b →
      ∃ u, exec (.watchCancelArrival b) s = .next u ∧ (u.bench b).tallyIn = [] ∧
        ∀ w, w ∈ (u.bench b).watches ↔
          w ∈ (s.bench b).watches ∧ ¬ (w.core = i.op.core ∧ w.ctx = i.op.ctx ∧ w.serial = i.op.serial)) ∧
    ((s.bench b).tallyIn = [i] → i.due ≤ s.now / 2 → absorbsBench s b = false → i.op.op = 4 → i.op.tally / 512 = b →
      misuse s i.op = false → (s.bench b).deferred = [] → formRel i.op.form = false →
      holds ((s.bench b).tally (i.op.tally % 512)) i.op.cond i.op.val = false → (s.bench b).watches.length < 128 →
      ∃ u, exec (.tallyOpArrival b) s = .next u ∧ (u.bench b).watches = (s.bench b).watches ++
        [⟨i.op.tally, i.op.cond, i.op.val, i.op.core, i.op.ctx, i.op.serial, none⟩]) ∧
    ((s.bench b).tallyIn = [i] → i.due ≤ s.now / 2 → absorbsBench s b = false → i.op.op = 4 → i.op.tally / 512 = b →
      misuse s i.op = false → (s.bench b).deferred = [] → formRel i.op.form = false → benchOf i.op.core = b → i.op.cond = 0 →
      i.op.val.toNat ≤ ((s.bench b).tally (i.op.tally % 512)).count.toNat →
      ∃ u, exec (.tallyOpArrival b) s = .next u ∧ (u.bench b).watches = (s.bench b).watches ∧ (u.bench b).inbox =
        (s.bench b).inbox ++ [⟨s.now / 2 + 2, .wake i.op.core i.op.ctx i.op.serial i.op.tally 0
          ((s.bench b).tally (i.op.tally % 512)).count⟩]) ∧
    ((s.bench (n / 512)).deferred = [op] → op.tally = n → tooSoon s n = false → op.op = 0 → misuse s op = false →
      ((s.bench (n / 512)).tally (n % 512)).count.toNat + op.val.toNat < 2 ^ 32 →
      ∃ u, exec (.generationDeferEnd n) s = .next u ∧ (u.bench (n / 512)).deferred = [] ∧
        ((u.bench (n / 512)).tally (n % 512)).count.toNat =
          ((s.bench (n / 512)).tally (n % 512)).count.toNat + op.val.toNat) ∧
    (tooSoon s n = true → exec (.generationDeferEnd n) s = .next s)

/-- The answers that release a thread (R473, R475, R482, R484, R748): a result pushes its values, or the not-performed ones;
a wake in time pushes its value and status; a timeout pushes status 1 and sets TWTO; a lost result is not performed, with
TEVT. -/
def TallyAnswersReleaseThreads : Prop :=
  ∀ (s : State) (t : Thread) (i : Inbox) (serial op n m due cond st : Nat) (a g v c : Word) (ok : Bool),
    let b := benchOf t.core
    let s1 := s.updBench b (fun x => { x with inbox := [] })
    ((s.bench b).inbox = [i] → i.due ≤ s.now / 2 → i.msg = .result t.core t.ctx serial m ok a g →
      ((s.ctx t).wait = .tally serial op n due → i.due ≤ due →
        exec (.tallyResultArrival t) s = .next (completeHeld t
          (if op = 2 then (if ok then [g, a] else [0xFFFFFFFF, 0])
           else if op = 3 then (if ok then [a] else [0xFFFFFFFF]) else []) s1)) ∧
      ((s.ctx t).wait = .none → exec (.tallyResultArrival t) s = .next (count b 0x7520 1 s1))) ∧
    ((s.bench b).inbox = [i] → i.due ≤ s.now / 2 → i.msg = .wake t.core t.ctx serial m st c →
      ((s.ctx t).wait = .watch serial n cond v due → i.due ≤ due →
        exec (.wakeArrival t) s = .next (completeHeld t [BitVec.ofNat 32 st, c] (countSpin t true s1))) ∧
      ((s.ctx t).wait = .none → exec (.wakeArrival t) s = .next (count b 0x7520 1 s1))) ∧
    ((s.ctx t).wait = .watch serial n cond v due → due ≤ s.now / 2 → (s.bench b).inbox = [] → (s.ctx t).suspReq = false →
      ∃ u, exec (.watchTimeout t) s = .next u ∧ u.ctx t = (completeHeld t [1, 0] (countSpin t true s)).ctx t ∧
        (u.ctx t).wait = .none ∧ ((u.core t.core).reg 0x125).getLsbD 3 = true) ∧
    ((s.ctx t).wait = .tally serial op n due → due ≤ s.now / 2 → (s.bench b).inbox = [] →
      exec (.tallyResultLost t) s = .next (completeHeld t
        (if op = 2 then [0xFFFFFFFF, 0] else if op = 3 then [0xFFFFFFFF] else [])
        (syncWrite t.core 4 (syncRec 9 t.ctx 0 0 n 0 0 0 0) s)))

/-- PPOST checks and posts the descriptor of 32 bytes at its address, or leaves a slot that is not EMPTY (R417, R508); PSTAT
pushes a slot's status and bytes and empties a slot that has ended (R418); PABORT aborts (R419, R423); in static share mode
the slots of the thread's share may be named, in dynamic mode those it holds, and another is a share fault (R286). -/
def PorterInstructions : Prop :=
  ∀ (s s2 : State) (t : Thread) (i daddr : Word),
    let s1 := firstIssue t s
    let k := i.toNat % 16
    let a := daddr.toNat / 32 * 32
    let d := parseDesc (memBytes s2.mem (localBase t.core + a) 32) t.ctx
    let s3 := noteRead (localBase t.core + a) 32 s2
    let x := s1.slotOf t.core k
    (∀ dest, dynamic s1 t.core = false → bit (maskOf s1 t.core (classOf s1 t) 3) k = true → nameUnit t 3 k dest s1 = some s1) ∧
    (∀ dest, dynamic s1 t.core = true → ownerOf (s1.core t.core) 3 k = t.ctx + 1 → nameUnit t 3 k dest s1 = some s1) ∧
    (Runs t 2 ⟨2, 1, 0, 0⟩ s → operands s1 t 2 = [i, daddr] →
      (nameUnit t 3 k true s1 = none → exec (.ppost t) s = .next (fault t 0x0B (shareInfo 3 k) (s.ctx t).pc false s1)) ∧
      (nameUnit t 3 k true s1 = some s2 → a + 32 ≤ 0x100000 → permitted (s2.ctx t) 0 a 32 = true →
        ((s2.slotOf t.core k).state ≠ 0 → exec (.ppost t) s = .next (complete t 2 2 [1] 0 [] none s2)) ∧
        ((s2.slotOf t.core k).state = 0 → uncorrectable s2 (localBase t.core + a) 32 = none →
          ∃ u, exec (.ppost t) s = .next (complete t 2 2 [0] 0 [] none u) ∧
            (u.slotOf t.core k).src = d.1.src ∧ (u.slotOf t.core k).dst = d.1.dst ∧ (u.slotOf t.core k).len = d.1.len ∧
            (u.slotOf t.core k).posted = s.now ∧ (u.slotOf t.core k).ctx = t.ctx ∧
            (u.slotOf t.core k).why = descWhy s3 t.core d.1 d.2 ∧
            (u.slotOf t.core k).state = (if descWhy s3 t.core d.1 d.2 = 0 then 1 else 6)))) ∧
    (Runs t 2 ⟨1, 2, 0, 0⟩ s → operands s1 t 1 = [i] → nameUnit t 3 k false s1 = some s1 →
      (4 ≤ x.state → exec (.pstat t) s = .next (complete t 2 1 [porterStatus x, word x.counted] 0 [] none
        (s1.updSlotOf t.core k (fun _ => Slot.reset)))) ∧
      (x.state < 4 → exec (.pstat t) s = .next (complete t 2 1 [porterStatus x, word x.counted] 0 [] none s1))) ∧
    (Runs t 2 ⟨1, 1, 0, 0⟩ s → operands s1 t 1 = [i] → nameUnit t 3 k false s1 = some s1 →
      (x.state = 4 → exec (.pabort t) s = .next (complete t 2 1 [1] 0 [] none s1)) ∧
      (x.state = 1 ∨ x.state = 2 → exec (.pabort t) s = .next (complete t 2 1 [2] 0 [] none
        (s1.updSlotOf t.core k (fun x => { x with state := if x.out = 0 then 5 else 3 })))) ∧
      (x.state = 3 ∨ x.state = 5 → exec (.pabort t) s = .next (complete t 2 1 [2] 0 [] none s1)) ∧
      (x.state = 0 ∨ 6 ≤ x.state → exec (.pabort t) s = .next (complete t 2 1 [0] 0 [] none s1)))

/-- A descriptor starts in a slot of its connection, not before 16 mesh cycles after PPOST and when no other of its bench is
queued or running on the connection (R420), a ring-class move while a frame runs, a CLASS 2 descriptor in a slot of its
stream; an aborting descriptor ends once all that it sent is counted (R424); the bytes that land are counted, and the last
ends it (R363, R422). -/
def DescriptorsRun : Prop :=
  ∀ (s : State) (c i n id w : Nat), c < 512 → i < 16 →
    let x := s.slotOf c i
    let alone := ∀ c' i', benchOf c' = benchOf c → i' < 16 → (c', i') ≠ (c, i) →
      (s.slotOf c' i').state ≠ 1 ∧ (s.slotOf c' i').state ≠ 2
    let run := s.updSlotOf c i (fun x => { x with state := 2 })
    (x.state = 1 → x.cls = 0 ∨ x.cls = 3 → injects s (benchOf c) = some n →
      (x.conn = n → x.posted + 16 ≤ s.now → alone → exec (.descriptorStart c i) s = .next run) ∧
      (x.conn ≠ n ∨ s.now < x.posted + 16 → exec (.descriptorStart c i) s = .next s)) ∧
    (x.state = 1 → x.cls = 2 → injects s (benchOf c) = some n → streamOn s (benchOf c) n = some (id, w) →
      remoteSend x.remote = id → x.posted + 16 ≤ s.now → x.sent < x.len → alone →
      exec (.descriptorStart c i) s = .next run) ∧
    (x.state = 1 → x.cls = 1 → inFrame s (benchOf c) = true → x.sent < x.len → x.fault = 0 → x.out = 0 → tier x.src ≠ some 2 →
      (portMap s (benchOf c) (x.src + x.sent) false).isSome → (portMap s (benchOf c) (x.dst + x.sent) true).isSome →
      ∃ u k, exec (.descriptorStart c i) s = .next u ∧ (u.slotOf c i).state = 2 ∧ (u.slotOf c i).out = 1 ∧
        u.ring = s.ring ++ [k] ∧ k.src = rowStop (benchOf c)) ∧
    (x.state = 3 → x.out = 0 → exec (.descriptorAborted c i) s = .next (s.updSlotOf c i (fun x => { x with state := 5 }))) ∧
    (x.state ≠ 3 ∨ x.out ≠ 0 → exec (.descriptorAborted c i) s = .next s) ∧
    (x.state = 2 → x.fault = 0 → x.ten = false → x.out = 1 → x.counted + n = x.len → x.sent = x.len →
      ((landed c i n s).slotOf c i).counted = x.len ∧ ((landed c i n s).slotOf c i).state = 4)

/-- The clicker (R337 to R341, R344): a request reaches its queue of 256, and is dropped while its partition is marked; a
full queue refuses; a service path is cut of one slot per period, on the first connection not in use, all of whose offsets
were free at every hop; a COPEN whose paths can be cut opens its channel and attaches its queue, and it is answered OK, or
with the refusal. -/
def ClickerServesRequests : Prop :=
  ∀ (s s1 s2 : State) (p : RingPkt) (r : CReq) (rest : List CReq) (a d c h n m e : Nat) (offs : List Nat),
    let x := s.chanOf c h
    let got := { s with clicker := { s.clicker with queue := rest } }
    (nextPacket s (fun p => ∃ r, p.msg = .request r) p s1 → p.msg = .request r →
      (reqMarked s r = false → s.clicker.queue.length < 256 → exec .clickerRequest s =
        .next { s1 with clicker := { s.clicker with queue := s.clicker.queue ++ [r] } }) ∧
      (reqMarked s r = false → 256 ≤ s.clicker.queue.length → r = .copen c h →
        exec .clickerRequest s = .next (answerOpen clickerStop c h 4 (unclaim c h s1))) ∧
      (reqMarked s r = true → r = .service a d → exec .clickerRequest s = .next s1)) ∧
    (s.clicker.queue = .service a d :: rest → reqMarked s (.service a d) = false → servicePath s a d = none →
      d < 128 → samePart s a d = true → freeConn s a = some c → findOffsets s (period s a) (pathHops a d) 1 = some offs →
      (∀ o, o ∈ offs → offsetFree s (period s a) (pathHops a d) o = true) ∧
      connValid (connWord s a c) = false ∧
      ∃ u, exec .clickerServe s = .next u ∧ u.clicker.queue = rest ∧ connWord u a c = mkConn 2 d 1 false ∧
        (∀ b i, entry u b i = entry (writePath (period s a) c (pathHops a d) offs true s) b i) ∧
        (u.bench a).pathAsk = (s.bench a).pathAsk.erase d ∧
        u.clicker.paths = s.clicker.paths ++ [⟨a, d, c, (partOf s a).getD 0, offs, pathHops a d, 2, 0, false, none⟩]) ∧
    (s.clicker.queue = .copen c h :: rest → reqMarked s (.copen c h) = false → x.state = 1 → claimed s c h = true →
      x.nslot ≠ 0 → x.nslot ≤ 64 → x.dst < 512 → samePart s (benchOf c) (benchOf x.dst) = true →
      (servicePath s (benchOf x.dst) (benchOf c) = some m → freeConn s (benchOf c) = some n →
        findOffsets s (period s (benchOf c)) (pathHops (benchOf c) (benchOf x.dst)) x.nslot = some offs →
        ∃ u, exec .clickerServe s = .next u ∧ (u.chanOf c h).state = 2 ∧ (u.chanOf c h).conn = n ∧
          (u.queueOf x.dst x.dq).state = 1 ∧ connWord u (benchOf c) n = mkConn 1 (benchOf x.dst) x.nslot false ∧
          sentPacket s u clickerStop (rowStop (benchOf c)) (.answer c h 0)) ∧
      (cutBoth (benchOf c) (benchOf x.dst) x.nslot got = .ok (n, s2) →
        exec .clickerServe s = .next (answerOpen clickerStop c h 0 (openChan c h n (attach c h s2)))) ∧
      (cutBoth (benchOf c) (benchOf x.dst) x.nslot got = .error e →
        exec .clickerServe s = .next (answerOpen clickerStop c h e (unclaim c h got)))) ∧
    (s.clicker.queue = [] → exec .clickerServe s = .next s)

/-- A service path is asked for when a flit waits for it (R344); a released path gives up its connection, and after a period
and the hops its router entries (R342). -/
def PathsAreAskedForAndReleased : Prop :=
  ∀ (s : State) (a d n : Nat) (p : CPath) (q : OQItem) (i : Nat) (l r : List CPath),
    (a < 128 → d < 128 → q ∈ (s.bench a).oq → q.conn = none → q.dst = d → q.due ≤ s.now → servicePath s a d = none →
      samePart s a d = true →
      (d ∉ (s.bench a).pathAsk → ∃ u, exec (.servicePathRequest a d) s = .next u ∧ (u.bench a).pathAsk = d :: (s.bench a).pathAsk ∧
        sentPacket s u (rowStop a) clickerStop (.request (.service a d))) ∧
      (d ∈ (s.bench a).pathAsk → exec (.servicePathRequest a d) s = .next s)) ∧
    (s.clicker.paths = l ++ p :: r → (∀ x, x ∈ l ++ r → ¬ (x.src = a ∧ x.conn = n)) → p.src = a → p.conn = n →
      (p.release = true → p.freeAt = none → p.kind = 0 → (∀ q, q ∈ (s.bench a).oq → q.conn ≠ some n) →
        ∃ u, exec (.pathRelease a n) s = .next u ∧ connWord u a n = 0 ∧
          u.clicker.paths = l ++ { p with freeAt := some (s.now + period s a + 2 * (p.hops.length - 1) + 2) } :: r) ∧
      (p.release = false → exec (.pathRelease a n) s = .next s) ∧
      (p.freeAt = some i →
        (i ≤ s.now → exec (.pathRoutersFreed a n) s = .next
          { writePath (period s a) n p.hops p.offs false s with clicker := { s.clicker with paths := l ++ r } }) ∧
        (s.now < i → exec (.pathRoutersFreed a n) s = .next s)))

/-- A mesh cycle passes only while Wetar is powered and its clocks run (R612). Every flit at a crossbar then leaves its
input: by each output that its router's pattern entry selects it for, reaching the next router two mesh cycles later, or the
station's fifth port or bench (R315, R326); one that no output selects is discarded and counted (R327); the others stay. -/
def MeshCyclePasses : Prop :=
  ∀ (s : State) (env : MeshEnv) (f : InFlight) (e o d : Nat),
    let at_ := fun (d o : Nat) => (⟨d, oppositeIn o, s.now + 2, f.flit⟩ : InFlight)
    let out := (⟨f.station, o, s.now + 2, f.flit⟩ : Arrival)
    (s.board.wetarOn = true → s.pwr.wstate = 0 →
      ∃ u, exec (.meshCycle env) s = .next u ∧ u.now = s.now + 1 ∧ (∀ g ∈ u.flits, s.now < g.at_) ∧
        (f ∈ s.flits → s.now < f.at_ → f ∈ u.flits) ∧
        (env.links = [] → env.upsets = [] → f ∈ s.flits → f.at_ ≤ s.now → liveEntry s f.station = some e →
          o ∈ outputsOf e f.input →
          (neighbour f.station o = some d → at_ d o ∈ u.flits) ∧ (o = 5 ∨ o = 6 → out ∈ u.arrivals))) ∧
    (s.board.wetarOn = false ∨ s.pwr.wstate ≠ 0 → exec (.meshCycle env) s = .next s) ∧
    (liveEntry s f.station = some e →
      (outputsOf e f.input = [o] → neighbour f.station o = some d →
        (route f s).flits = s.flits ++ [at_ d o] ∧ (route f s).arrivals = s.arrivals) ∧
      (outputsOf e f.input = [o] → o = 5 ∨ o = 6 →
        (route f s).arrivals = s.arrivals ++ [out] ∧ (route f s).flits = s.flits) ∧
      (outputsOf e f.input = [] → route f s = count f.station 0x5028 1 s))

/-- What arrives at a bench (R334, R438, R748): a data write is written in its memory and counted for its porter; a damaged
one writes nothing and sets CONT at its core; a channel flit enters its ring, a tally operation goes to the slice; a flit of
another bench is discarded and counted. -/
def FlitsArriveAtBenches : Prop :=
  ∀ (s s1 : State) (a : Arrival) (b c i o : Nat) (op : TallyOp) (p : ChanPart), b < 128 →
    nextArrival s (fun x => x.station = b ∧ x.port = 6 ∧ otherFlit x.flit = false) a s1 →
    let m := flitAddr a.flit
    (a.flit.kind = 0 → homeBench m = some b → absorbsAddr s m = false →
      (a.flit.err = false → a.flit.use = .none → exec (.flitArrival b) s = .next (write m a.flit.data s1)) ∧
      (a.flit.err = false → a.flit.use = .porter c i o →
        exec (.flitArrival b) s = .next (landed c i a.flit.data.length (write m a.flit.data s1))) ∧
      (a.flit.err = true → a.flit.use = .none →
        ∃ u, exec (.flitArrival b) s = .next u ∧ u.mem = s.mem ∧ ((u.core (dataCore m)).reg 0x125).getLsbD 6 = true)) ∧
    (a.flit.kind = 0 → homeBench m ≠ some b → exec (.flitArrival b) s = .next (count b 0x5028 1 s1)) ∧
    (a.flit.kind = 5 → a.flit.err = false → a.flit.msg = some (.tally op) → op.tally / 512 = b →
      exec (.flitArrival b) s = .next (toSlice b (s.now / 2 + 2) 0 op s1)) ∧
    (a.flit.kind = 5 → a.flit.msg = some (.chan p) → benchOf p.dst = b →
      exec (.flitArrival b) s = .next (chanFlit p a.flit.err s1)) ∧
    (a.flit.kind = 5 → a.flit.msg = some (.tally op) → op.tally / 512 ≠ b → exec (.flitArrival b) s = .next (count b 0x5028 1 s1))

/-- A memory port (R351 to R356, R746): a read owes its reply, made of the data of its request slot, in slot r + 1,024; a
write is written at once and counted for its sender; the port discards a kind that it does not take. -/
def MemoryPortServesRequests : Prop :=
  ∀ (s s1 : State) (a : Arrival) (k c i o : Nat), k < 16 →
    nextArrival s (fun x => x.station = memStation k ∧ x.port = 5) a s1 → memMappedOut s k = false →
    let m := flitAddr a.flit
    let lines := flitLines a.flit
    (a.flit.kind = 1 → a.flit.err = false → (s.port k).wins = [] → lines ≠ [] →
      ∃ u q, exec (.memoryRequest k) s = .next u ∧ u.mem = s.mem ∧ (u.port k).replies = (s.port k).replies ++ [q] ∧
        q.r = a.due ∧ q.late = false ∧ q.flit.kind = 4 ∧ q.flit.data = lines.flatMap (fun l => memBytes s.mem (l * 64) 64) ∧
        (u.port k).wins.length = lines.length) ∧
    (a.flit.kind = 2 → a.flit.err = false → a.flit.use = .porter c i o →
      ∃ u, exec (.memoryRequest k) s = .next (landed c i a.flit.data.length u) ∧ u.mem = (write m a.flit.data s).mem ∧
        (u.port k).wins = (s.port k).wins.filter (fun w => !lines.contains w.line)) ∧
    (a.flit.kind = 0 ∨ a.flit.kind = 5 → exec (.memoryRequest k) s = .next (count (memStation k) 0x5028 1 s1))

/-- The reply schedule (R350, R359 to R366): in its slot a ready reply leaves with its data; one that is not ready slips:
its late marker goes, which carries no data but the pattern index that the model keeps there (log entry 161), and the slip
is counted; once it is in the slip buffer it leaves in a reserve slot for its bench. -/
def RepliesAndScheduleSlips : Prop :=
  ∀ (s : State) (k e id : Nat) (q : PReply) (x : PAcc) (er : Bool), k < 16 →
    let b := memStation k
    (accOf (s.port k) id = some x → x.ready = none → x.held = false → q ∈ (s.port k).replies → id ∈ q.accs →
      ∃ u y, exec (.gddr7AccessDone k id er) s = .next u ∧ accOf (u.port k) id = some y ∧ y.ready = some s.now ∧ y.err = er) ∧
    ((s.port k).replies.find? (fun q => !q.late && decide (q.r + 1024 ≤ s.now)) = some q → xTaken s b = false →
      (replyReady (s.port k) q = true → replyErr (s.port k) q = false →
        ∃ u, exec (.replySlot k) s = .next u ∧ u.flits = s.flits ++ [⟨b, 5, s.now, { q.flit with err := false, rsv := false }⟩]) ∧
      (replyReady (s.port k) q = true → replyErr (s.port k) q = true →
        ∃ u, exec (.replySlot k) s = .next u ∧
          u.flits = s.flits ++ [⟨b, 5, s.now, { q.flit with err := true, data := [], rsv := false }⟩]) ∧
      (replyReady (s.port k) q = false →
        ∃ u, exec (.replySlot k) s = .next u ∧
          u.flits = s.flits ++ [⟨b, 5, s.now, { q.flit with late := true, data := leBytes (indexOf s b) 2, err := false }⟩] ∧
          ((u.port k).r 0x018) = counterAdd ((s.port k).r 0x018) 1)) ∧
    ((∀ q, q ∈ (s.port k).replies → q.late = true ∨ s.now < q.r + 1024) → exec (.replySlot k) s = .next s) ∧
    (liveEntry s b = some e → bit e 39 = true → xTaken s b = false →
      ((s.port k).replies.find? (fun q => q.late && q.slot && decide (q.bench = bits e 46 40)) = some q →
        replyErr (s.port k) q = false → ∃ u, exec (.reserveSlotDelivery k) s = .next u ∧
          u.flits = s.flits ++ [⟨b, 5, s.now, { q.flit with err := false, rsv := true }⟩]) ∧
      ((∀ q ∈ (s.port k).replies, q.late = false ∨ q.slot = false ∨ q.bench ≠ bits e 46 40) →
        exec (.reserveSlotDelivery k) s = .next s))

/-- A reply at its bench (R363, R365): a porter's data is written and counted; a fill's and an uncached load's data is kept
for them; a late marker is counted and sets SLIP at the core. -/
def MemoryRepliesArrive : Prop :=
  ∀ (s s1 : State) (a : Arrival) (b c i o l d m n : Nat) (sgn : Bool) (t : Thread) (f : Fill), b < 128 →
    nextArrival s (fun x => x.station = b ∧ x.port = 6 ∧ x.flit.kind = 4) a s1 →
    (a.flit.late = false → a.flit.err = false →
      (a.flit.use = .porter c i o → absorbsCore s c = false → portMap s (benchOf c) ((s.slotOf c i).dst + o) true = some d →
        exec (.memoryReplyArrival b) s = .next (landed c i a.flit.data.length (write d a.flit.data s1))) ∧
      (a.flit.use = .fill l n → absorbsBench s b = false → (s.bench b).fills = [f] → f.serial = n → f.sent = true → f.data = none →
        ∃ u, exec (.memoryReplyArrival b) s = .next u ∧
          (u.bench b).fills = [{ f with data := some a.flit.data, err := false, link := false }]) ∧
      (a.flit.use = .uload c i → absorbsCore s c = false →
        exec (.memoryReplyArrival b) s = .next (uloadData c i a.flit.data false s1))) ∧
    (a.flit.late = true → a.flit.use = .uload c i ∨ a.flit.use = .porter c i o →
      ∃ u, exec (.memoryReplyArrival b) s = .next u ∧ ((u.core c).reg 0x125).getLsbD 5 = true ∧
        (u.bench b).r 0x5010 = counterAdd ((s.bench b).r 0x5010) 1) ∧
    (a.flit.late = true → a.flit.use = .fill l n → t ∈ threadsOf b → (s.ctx t).wait = .load m o sgn (some n) →
      ∃ u, exec (.memoryReplyArrival b) s = .next u ∧ ((u.core t.core).reg 0x125).getLsbD 5 = true)

/-- A frame begins (R274, R322, R694 to R696): when the program whose turn is next is in place at a boundary of a partition
whose cores spin, its number goes on and C0 of every parked core runs at the entry point of its variant; a synchronised
round waits for FRAME_SYNC, whose edge, 10 us or more after the last (R720), latches the timebase and releases it, as 2^30
core cycles without one do. -/
def FramesStart : Prop :=
  ∀ (s : State) (p k n : Nat), p < 8 →
    let q := s.part p
    let waits := synchronised s p = true ∧ newRound q k = true ∧ q.synced = false
    (nextProg q = some k → partReady q = true → s.board.wetarOn = true → q.frame = .idle → q.ramp = 1 → q.cur = k + 1 →
      q.marked = false →
      (¬ waits →
        ∃ u, exec (.frameStart p) s = .next u ∧ (u.part p).frame = .running ∧ (u.part p).begun = s.now ∧
          (u.part p).fn = (if q.started then (q.fn + 1) % 2 ^ 32 else 0) ∧ (u.part p).started = true ∧
          ∀ i, i < 4 * q.w * q.h → ((s.core (coreAt q i)).ctx 0).st = .park →
            ((u.core (coreAt q i)).ctx 0).st = .run ∧ ((u.core (coreAt q i)).ctx 0).ops = [] ∧
              ((u.core (coreAt q i)).ctx 0).pc =
                BitVec.ofNat 32 (((((q.prog k).variants)[chosen s p k]?).map (·.entry)).getD 0)) ∧
      (waits → q.syncWait = none →
        exec (.frameStart p) s = .next (s.updPart p (fun q => { q with syncWait := some (s.now / 2) })))) ∧
    (nextProg q = none ∨ partReady q = false ∨ q.frame ≠ .idle ∨ q.ramp ≠ 1 → exec (.frameStart p) s = .next s) ∧
    (s.board.island = true → (∀ e, s.board.lastEdge = some e → e + 10000 ≤ s.tb) →
      ∃ u, exec .frameSyncEdge s = .next u ∧ u.board.syncTb = s.tb ∧ u.board.lastEdge = some s.tb ∧ (u.part p).syncWait = none) ∧
    (∀ e, s.board.lastEdge = some e → s.tb < e + 10000 → exec .frameSyncEdge s = .next s) ∧
    (q.syncWait = some n →
      (n + 2 ^ 30 ≤ s.now / 2 → ∃ u, exec (.frameSyncMiss p) s = .next u ∧ (u.part p).syncWait = none ∧
        tblGet (zeros 64) u.trc.reg 0x040 = counterAdd (tblGet (zeros 64) s.trc.reg 0x040) 1) ∧
      (s.now / 2 < n + 2 ^ 30 → exec (.frameSyncMiss p) s = .next s))

/-- A frame ends once every context of the partition is FREE, PARK or HALT with nothing pending, and counts in its job
(R275, R576); one to be discarded ends once every thread has stopped, and its job with the reason of the stop (R577, R739).
Then the quiet period of 64 mesh cycles passes, at the end of which the pattern index stops (R323). -/
def FramesEnd : Prop :=
  ∀ (s : State) (p n : Nat), p < 8 →
    let q := s.part p
    let done := fun (c : Nat) => (∀ i, i < 8 → let x := (s.core c).ctx i
      (x.st = .free ∨ x.st = .park ∨ x.st = .halt) ∧ x.inject = none) ∧ (s.core c).reg 0x125 &&& (s.core c).reg 0x126 = 0
    (q.frame = .running → q.discard = 0 → (∀ c, c ∈ coresOf s p → done c) →
      ∃ u, exec (.frameEnd p) s = .next u ∧ (u.part p).frame = .quiet s.now ∧ (u.part p).turn = (q.cur - 1 + 1) % 16 ∧
        ((u.part p).prog (q.cur - 1)).job.frames = (q.prog (q.cur - 1)).job.frames + 1) ∧
    (q.discard = 0 → ∀ c, c ∈ coresOf s p → ¬ done c → exec (.frameEnd p) s = .next s) ∧
    (q.frame = .running → q.discard = 3 → (∀ c, c ∈ coresOf s p → ∀ i, i < 8 → ((s.core c).ctx i).st ≠ .run) →
      ∃ u, exec (.frameEnd p) s = .next u ∧ (u.part p).frame = .quiet s.now ∧ (u.part p).discard = 0 ∧
        ((u.part p).prog (q.cur - 1)).js = 4 ∧ ((u.part p).prog (q.cur - 1)).job.reason = 3) ∧
    (q.frame = .quiet n → settled s p = true → (∀ c, c ∈ coresOf s p → coreStill s c = true) →
      (∀ b, b ∈ benchesOf s p → queueDrains s b = false) →
      (n + 64 ≤ s.now → exec (.quietPeriodEnd p) s =
        .next (s.updPart p (fun q => { q with frame := .idle, idx := (s.now - q.begun) % 2 ^ q.plog }))) ∧
      (s.now < n + 64 → exec (.quietPeriodEnd p) s = .next s))

/-- Sending on the welt (R510, R512, R519 to R525): a packet whose last flit reaches its station leaves on an open port and
its timer starts; a timer that has run for more than RTO sends it again, or fails the stream at the retry limit (R520); a
damaged flit drops it; a foreign flit is discarded and counted. -/
def WeltPacketsAreSent : Prop :=
  ∀ (s s1 : State) (w id psn d : Nat) (last : Bool) (a : Arrival) (p : TxPkt), w < 8 →
    (nextArrival s (fun x => x.station = weltStation w ∧ x.port = 5) a s1 →
      (a.flit.use = .welt id psn true → a.flit.err = false → heldTx s w id psn = some p →
        (portUp s w = true → ∃ u, exec (.weltPacketSend w) s = .next u ∧ (u.welt w).out.length = (s.welt w).out.length + 1 ∧
          (u.welt w).r 0x008 = counterAdd ((s.welt w).r 0x008) 1 ∧
          heldTx u w id psn = some { p with full := true, sentAt := some s.tb, rto := s.boot.rto, limit := s.boot.retryMax }) ∧
        (portUp s w = false → ∃ u, exec (.weltPacketSend w) s = .next u ∧ (u.welt w).out = (s.welt w).out)) ∧
      (a.flit.use = .welt id psn last → a.flit.err = true → heldTx s w id psn = some p → s.arrivals = [a] →
        ∃ u, exec (.weltPacketSend w) s = .next u ∧ heldTx u w id psn = none ∧ (u.welt w).out = (s.welt w).out) ∧
      (a.flit.use = .none ∨ (a.flit.use = .welt id psn last ∧ heldTx s w id psn = none) → s.arrivals = [a] →
        exec (.weltPacketSend w) s = .next (count (weltStation w) 0x5028 1 s1))) ∧
    (id < 16384 → heldTx s w id psn = some p → (∀ v, v < w → heldTx s v id psn = none) → p.sentAt = some d →
      (s.tb ≤ d + p.rto * 1000 → exec (.retransmissionTimeout id psn) s = .next s) ∧
      (d + p.rto * 1000 < s.tb → p.parked = false → p.limit ≤ p.retries →
        ∃ u, exec (.retransmissionTimeout id psn) s = .next u ∧ (u.stream id).state = 4 ∧ (u.stream id).fwhy = 4) ∧
      (d + p.rto * 1000 < s.tb → p.parked = true ∨ p.retries < p.limit →
        ∃ u, exec (.retransmissionTimeout id psn) s = .next u ∧ (u.stream id).retx = (s.stream id).retx + 1 ∧
          (portUp s w = true → (u.welt w).out.length = (s.welt w).out.length + 1) ∧
          heldTx u w id psn = some { p with
            full := true, sentAt := some s.tb, rto := s.boot.rto, limit := s.boot.retryMax, parked := false, retries := if p.parked then p.retries else p.retries + 1 }))

/-- Ports (R525, R659, R660): a port that goes down stays down until it has trained again; what the repair map names stays
out. -/
def PortsGoDownAndUp : Prop :=
  ∀ (s : State) (w : Nat), w < 8 →
    (portUp s w = true → ∃ u, exec (.portDown w) s = .next u ∧ portUp u w = false ∧ ∀ v, v ≠ w → portUp u v = portUp s v) ∧
    (portUp s w = false → exec (.portDown w) s = .next s) ∧
    (s.board.wetarOn = true → s.boot.step = 11 → portUp s w = false →
      (bit (leNat (((s.recd 2).body.drop 0x92).take 1)) w = false →
        ∃ u, exec (.portUp w) s = .next u ∧ portUp u w = true ∧ bit u.boot.weltOut w = false) ∧
      (bit (leNat (((s.recd 2).body.drop 0x92).take 1)) w = true → exec (.portUp w) s = .next s))

/-- A frame that arrives (R493, R513 to R517, R521): what is too long is dropped (log entry 157), what is damaged or not for
this module is counted and dropped; a DATA packet of its stream, in the window and in time, enters the receive buffer; a
repeated one is acknowledged again; one of no stream gets a NAK. -/
def WeltFramesAreChecked : Prop :=
  ∀ (s : State) (w : Nat) (f : Frame), w < 8 → portUp s w = true →
    let id := hdrField f 8 4 / 2 ^ 14 % 2 ^ 14
    let psn := hdrField f 0xC 4
    let a := hdrField f 0x10 6
    let st := s.stream id
    (f.fec = 2 → exec (.weltFrameReceive w f) s = .next (weltCount w 0x058 1 s)) ∧
    (f.fec = 0 → 4154 < frameBytes f → exec (.weltFrameReceive w f) s = .next s) ∧
    (f.fec = 0 → frameBytes f ≤ 4154 → f.etype ≠ s.boot.etype ∨ f.icrc ≠ icrcOf (f.header ++ f.payload) ∨ hdrField f 2 2 ≠ f.payload.length ∨
      4096 < f.payload.length ∨ hdrField f 8 4 % 2 ^ 14 ≠ moduleNo s → exec (.weltFrameReceive w f) s = .next (weltCount w 0x040 1 s)) ∧
    (soundFrame s f 0 →
      (st.state ≠ 2 → ∃ u, exec (.weltFrameReceive w f) s = .next u ∧ (u.welt w).rx = (s.welt w).rx ∧
        (u.welt w).r 0x038 = counterAdd ((s.welt w).r 0x038) 1) ∧
      (st.state = 2 → st.peer = hdrField f 4 4 % 2 ^ 14 → st.pstr = hdrField f 4 4 / 2 ^ 14 % 2 ^ 14 →
        (s.part st.part).resetting = false →
        (2 ^ 31 ≤ psnFrom st.next psn ∨ psn ∈ st.got → ∃ u, exec (.weltFrameReceive w f) s = .next u ∧
          (u.welt w).rx = (s.welt w).rx ∧ (u.welt w).r 0x020 = counterAdd ((s.welt w).r 0x020) 1) ∧
        (psn ∉ st.got → 4096 ≤ psnFrom st.next psn → psnFrom st.next psn < 2 ^ 31 →
          ∃ u, exec (.weltFrameReceive w f) s = .next u ∧ (u.welt w).rx = (s.welt w).rx ∧
            (u.welt w).r 0x028 = counterAdd ((s.welt w).r 0x028) 1) ∧
        (psn ∉ st.got → psnFrom st.next psn < 4096 → st.wbase ≤ a → a + f.payload.length ≤ st.wbase + st.wlen →
          weltAbsorbed s st a = false → streamRuns s st = true → (s.welt w).rxUsed + f.payload.length ≤ 2 ^ 23 →
          ∃ u, exec (.weltFrameReceive w f) s = .next u ∧ (u.welt w).rx = (s.welt w).rx ++ [⟨id, psn, a, f.payload, 0, 0⟩] ∧
            (u.stream id).got = psn :: st.got ∧ (u.welt w).r 0x018 = counterAdd ((s.welt w).r 0x018) 1)))

/-- The receive buffer (R515 to R517): a packet all of whose bytes are written is counted, its bytes go to the arrival
tally, and it leaves; an uncorrectable one, of which nothing has been injected, is forgotten; the ACK timer runs 2 us from
the first packet counted. -/
def PacketsAreCounted : Prop :=
  ∀ (s : State) (w id psn : Nat) (p : RxPkt) (l r : List RxPkt), w < 8 →
    let st := s.stream id
    ((s.welt w).rx = l ++ p :: r → p.stream = id → p.psn = psn → (∀ x, x ∈ l ++ r → ¬ (x.stream = id ∧ x.psn = psn)) →
      (∀ v, v < 8 → v ≠ w → ∀ x, x ∈ (s.welt v).rx → ¬ (x.stream = id ∧ x.psn = psn)) →
      (p.wrote = p.data.length → st.state = 2 → st.prog = 0 ∨ (s.part st.part).cur = st.prog →
        ∃ u, exec (.packetCounted id psn) s = .next u ∧ (u.welt w).rx = l ++ r ∧ (u.stream id).bytes = st.bytes + p.data.length ∧
          (u.bench (st.tally / 512)).tallyIn.length = (s.bench (st.tally / 512)).tallyIn.length + 1) ∧
      (p.wrote < p.data.length → exec (.packetCounted id psn) s = .next s) ∧
      (p.sent = 0 → ∃ u, exec (.rxBufferUncorrectable id psn) s = .next u ∧ (u.welt w).rx = l ++ r ∧ psn ∉ (u.stream id).got)) ∧
    (id < 16384 → st.state = 2 → 0 < st.unacked →
      (st.firstAt + 2000 ≤ s.tb → exec (.ackTimer id) s = .next (sendAck id st.lastPlane s) ∧
        ((sendAck id st.lastPlane s).stream id).unacked = 0) ∧
      (s.tb < st.firstAt + 2000 → exec (.ackTimer id) s = .next s))

/-- A mailbox (R547 to R549): a handover fills the request area and hands it over, byte writes do so bytewise; the same SEQ
and CMD as the last completed command give its response again; bytes to a mailbox of the device are discarded and counted.
-/
def MailboxesAreHandedOver : Prop :=
  ∀ (s : State) (m seq cmd off : Nat) (payload : List Byte) (b : Byte) (l : LastCmd), pcieUp s = true → m < 256 →
    let x := s.mbox m
    (x.owner = 1 →
      exec (.mailboxHandover m seq cmd payload) s = .next (countDrops (payload.length + 7) s) ∧
      exec (.mailboxHostWrite m off b) s = .next (countDrops 1 s)) ∧
    (x.owner = 0 → seq < 2 ^ 16 → cmd < 2 ^ 16 →
      (x.last = none → cmd ∈ commandCodes → ∃ u, exec (.mailboxHandover m seq cmd payload) s = .next u ∧
        (u.mbox m).owner = 1 ∧ (u.mbox m).seq = seq ∧ (u.mbox m).cmd = cmd ∧ (u.mbox m).len = payload.length ∧
        (u.mbox m).payload.take payload.length = payload ∧ (u.mbox m).order = s.fmn.nextOrder ∧
        u.fmn.nextOrder = s.fmn.nextOrder + 1) ∧
      (x.last = none → cmd ∉ commandCodes → s.fmn.nextOrder ≠ 0 →
        ∃ u, exec (.mailboxHandover m seq cmd payload) s = .next u ∧ Answered u m (unknownCmd s m) 0 []) ∧
      (x.last = some l → l.seq = seq → l.cmd = cmd →
        ∃ u, exec (.mailboxHandover m seq cmd payload) s = .next u ∧ Answered u m l.status l.detail l.payload ∧
          u.fmn.nextOrder = s.fmn.nextOrder)) ∧
    (x.owner = 0 → 2 ≤ off → ∃ u, exec (.mailboxHostWrite m off b) s = .next u ∧ u.mbox m = hostByte x off b) ∧
    (x.owner = 0 → x.last = none → x.cmd ∈ commandCodes →
      ∃ u, exec (.mailboxHostWrite m 0 1) s = .next u ∧ (u.mbox m).owner = 1 ∧ (u.mbox m).order = s.fmn.nextOrder)

/-- The checks common to all commands, on START_JOB and SET_CAP (R540, R550, R556): not its turn, a VF without a partition,
a command that a VF may not give, one that waits for Ready, a wrong length, a field out of range. -/
def CommandsAreCheckedFirst : Prop :=
  ∀ (s : State) (m : Nat) (l : List Byte), m < 256 → let x := s.mbox m
    (canRun s m = false → exec (.setCap m) s = .next s ∧ exec (.startJob m) s = .next s) ∧
    (x.cmd ≠ 0x0301 → exec (.setCap m) s = .next s) ∧
    (canRun s m = true →
      (x.cmd = 0x0103 → 128 ≤ m → boundPart s (funcOf s m) = none →
        ∃ u, exec (.startJob m) s = .next u ∧ Answered u m 6 0 []) ∧
      (x.cmd = 0x0301 → 128 ≤ m → (boundPart s (funcOf s m)).isSome → ∃ u, exec (.setCap m) s = .next u ∧ Answered u m 4 0 []) ∧
      (x.cmd = 0x0301 → m < 128 → ready s = false → ∃ u, exec (.setCap m) s = .next u ∧ Answered u m 5 0 []) ∧
      (x.cmd = 0x0301 → m < 128 → ready s = true → x.len ≠ 3 → ∃ u, exec (.setCap m) s = .next u ∧ Answered u m 2 0 [])) ∧
    (MayRun s m 0x0103 l → l.length = 16 →
      (8 ≤ fieldOf l 0 1 → ∃ u, exec (.startJob m) s = .next u ∧ Answered u m 3 0 []) ∧
      (fieldOf l 0 1 < 8 → 16 ≤ fieldOf l 1 1 → ∃ u, exec (.startJob m) s = .next u ∧ Answered u m 3 1 []) ∧
      (fieldOf l 0 1 < 8 → fieldOf l 1 1 < 16 → fieldOf l 2 2 = 0 → (s.part (fieldOf l 0 1)).live = false →
        ∃ u, exec (.startJob m) s = .next u ∧ Answered u m 6 0 []))

/-- Partitions and resets (R557, R558, R677, R679 to R686): a partition comes into being on free benches; its destruction
and a reset of a scope without a running job begin a reset, which passes its point, clears its scope once drained, and
answers. -/
def PartitionsAndResets : Prop :=
  ∀ (s : State) (m p t : Nat) (l : List Byte) (sc : Scope) (r : Reset),
    let x0 := fieldOf l 1 1
    let y0 := fieldOf l 2 1
    let w := fieldOf l 3 1
    let h := fieldOf l 4 1
    let new : Part := { Part.reset with
      live := true, x0 := x0, y0 := y0, w := w, h := h, lockSig := bit (fieldOf l 5 1) 0, sigReq := bit (fieldOf l 5 1) 1
      cxlWr := bit (fieldOf l 5 1) 2, vf := fieldOf l 6 1, cxlBase := fieldOf l 8 2, cxlSize := fieldOf l 10 2, energy := (s.part p).energy }
    (MayRun s m 0x0201 l → l.length = 12 → fieldOf l 0 1 = p → p < 8 → x0 % 2 = 0 → y0 % 2 = 0 → w % 2 = 0 → h % 2 = 0 → 2 ≤ w →
      2 ≤ h → x0 + w ≤ 16 → y0 + h ≤ 8 → fieldOf l 5 1 < 8 → fieldOf l 6 1 < 9 → fieldOf l 7 1 = 0 → fieldOf l 8 2 < 4096 →
      fieldOf l 10 2 < 4097 → (s.part p).live = false →
      (rectWhy s new = 0 → ∃ u, exec (.createPartition m) s = .next u ∧ Answered u m 0 0 [] ∧ u.part p = new) ∧
      (rectWhy s new ≠ 0 → ∃ u, exec (.createPartition m) s = .next u ∧ Answered u m 8 (rectWhy s new) [])) ∧
    (MayRun s m 0x0202 l → l.length = 1 → fieldOf l 0 1 = p → p < 8 → (s.part p).live = true →
      (anyActive (s.part p) = true → ∃ u, exec (.destroyPartition m) s = .next u ∧ Answered u m 7 0 []) ∧
      (anyActive (s.part p) = false → ∃ u, exec (.destroyPartition m) s = .next u ∧ (u.mbox m).owner = (s.mbox m).owner ∧
        ∃ r, r ∈ u.resets ∧ r.scope = .part p ∧ m ∈ r.mbox)) ∧
    (MayRun s m 0x0203 l → l.length = 4 → fieldOf l 0 1 = 0 → fieldOf l 1 1 = 0 → fieldOf l 2 2 = t → t < 512 →
      partOf s (t / 4) = some p → (s.part p).live = true →
      (anyActive (s.part p) = true → ∃ u, exec (.resetScope m) s = .next u ∧ Answered u m 7 0 []) ∧
      (anyActive (s.part p) = false → ∃ u, exec (.resetScope m) s = .next u ∧ ∃ r, r ∈ u.resets ∧ r.scope = .core t ∧ m ∈ r.mbox)) ∧
    (p < 8 → (s.part p).live = true → (s.part p).faultReset = true → (s.part p).resetting = false → anyActive (s.part p) = false →
      ∃ u, exec (.faultPartitionReset p) s = .next u ∧ u.resets = s.resets ++ [⟨.part p, false, s.tb, []⟩] ∧
        (u.part p).resetting = true) ∧
    (sc ≠ .module → s.resets = [r] → r.scope = sc → r.point = false →
      ∃ u, exec (.resetPoint sc) s = .next u ∧ u.resets = [{ r with point := true }] ∧
        ∀ b, b < 128 → scopeBench s sc b = true → (u.bench b).watches = []) ∧
    (sc = .core t → t < 512 → s.resets = [r] → r.scope = sc → r.point = true → r.mbox = [] → drained s sc = true →
      ∃ u, exec (.resetEnd sc) s = .next u ∧ u.resets = [] ∧ (∀ i, (u.core t).ctx i = (Core.reset).ctx i) ∧
        (u.core t).act = (s.core t).act ∧
        ((∀ h, h < 16 → (s.chanOf t h).state ≠ 5) → ∀ c, c ≠ t → u.core c = s.core c)) ∧
    (r.point = true → r.scope = sc → s.resets = [r] → drained s sc = false → exec (.resetEnd sc) s = .next s)

/-- A module reset (R602, R680, R683, R720): PERST_N low for 100 us and the reference clock's return bring it, a held one
starts once the sensors read below 90 degrees; it keeps the timebase, the records, and the rest of the island. -/
def ModuleResets : Prop :=
  ∀ (s : State) (ns t : Nat),
    let after := fun (u : State) => u.tb = s.tb ∧ u.boot.recs = s.boot.recs ∧ u.board.wetarOn = false ∧ u.cores = [] ∧ u.benches = [] ∧
      u.parts = State.reset.parts ∧ u.board.thermTrip = false ∧ u.board.tripRec = s.board.tripRec
    (s.board.island = true → s.board.perstLowAt = none → ¬ (s.board.thermTrip = true ∧ 90 ≤ s.pwr.tmax) → 100000 ≤ ns →
      ∃ u, exec (.perstNAssert ns) s = .next u ∧ after u ∧ u.boot.step = 1 ∧ u.board.perst = false) ∧
    (s.board.island = true → s.board.perstLowAt = none → s.board.thermTrip = true → 90 ≤ s.pwr.tmax → 100000 ≤ ns →
      ∃ u, exec (.perstNAssert ns) s = .next u ∧ u.board.held = true ∧ u.board.wetarOn = s.board.wetarOn) ∧
    (ns < 1000 → exec (.perstNAssert ns) s = .next s) ∧
    (s.board.held = true →
      (t < 90 → ∃ u, exec (.heldModuleResetStart t) s = .next u ∧ after u ∧ u.board.held = false) ∧
      (90 ≤ t → exec (.heldModuleResetStart t) s = .next s)) ∧
    (s.board.island = true → s.board.refclk = false → s.board.thermTrip = false →
      ∃ u, exec .refclkReturn s = .next u ∧ after u ∧ u.board.refclk = true) ∧
    (s.board.island = true → s.board.refclk = true →
      ∃ u, exec .refclkLoss s = .next u ∧ u.board.refclk = false ∧ u.board.clkLoss = true ∧ u.cores = [] ∧ u.tb = s.tb) ∧
    (s.board.perst = false → s.pwr.wstate = 0 →
      exec .perstNDeassert s = .next { s with board := { s.board with perst := true, perstLowAt := none } })

/-- Streams and transport (R503, R504, R559, R560): a FREE stream whose declaration passes the checks opens; one that is not
FREE, or a declaration that fails them, is refused; closing answers the bytes and retransmissions, and is refused while
descriptors post. -/
def StreamsOpenAndClose : Prop :=
  ∀ (s : State) (m : Nat) (l : List Byte),
    let id := fieldOf l 0 2
    let p := fieldOf l 2 1
    let planes := fieldOf l 3 1
    let st := s.stream id
    let conn := packConns (fieldOf l 16 8) planes
    (p < 8 → (s.part p).live = true → id < 16384 → fieldOf l 4 2 < 16384 → fieldOf l 6 2 < 16384 →
      (MayRun s m 0x0701 l → l.length = 32 → fieldOf l 10 6 = 0 → fieldOf l 16 8 < 2 ^ 48 → fieldOf l 24 8 < 2 ^ 40 →
        (rxCheck (wake s) p planes (fieldOf l 8 2) (fieldOf l 16 8) (fieldOf l 24 8) = 0 →
          (st.state = 0 → ∃ u, exec (.openStreamRx m) s = .next u ∧ Answered u m 0 0 [] ∧ (u.stream id).state = 2 ∧
            (u.stream id).peer = fieldOf l 4 2 ∧ (u.stream id).pstr = fieldOf l 6 2 ∧ (u.stream id).tally = fieldOf l 8 2 ∧
            (u.stream id).wbase = fieldOf l 16 8 ∧ (u.stream id).wlen = fieldOf l 24 8 ∧ (u.stream id).part = p) ∧
          (st.state ≠ 0 → ∃ u, exec (.openStreamRx m) s = .next u ∧ Answered u m 9 2 [])) ∧
        (rxCheck (wake s) p planes (fieldOf l 8 2) (fieldOf l 16 8) (fieldOf l 24 8) = 1 →
          ∃ u, exec (.openStreamRx m) s = .next u ∧ Answered u m 3 3 [])) ∧
      (MayRun s m 0x0702 l → l.length = 24 → fieldOf l 8 1 < 128 → fieldOf l 9 7 = 0 →
        (∀ w, w < 8 → bit planes w = true → bits (fieldOf l 16 8) (8 * w + 7) (8 * w) < 64) →
        txCheck (wake s) p planes (fieldOf l 8 1) conn = 0 → st.state = 0 →
        ∃ u, exec (.openStreamTx m) s = .next u ∧ Answered u m 0 0 [] ∧ (u.stream id).state = 1 ∧ (u.stream id).part = p ∧
          (u.stream id).sbench = fieldOf l 8 1 ∧ (u.stream id).conn = conn ∧ (u.stream id).next = 0)) ∧
    (MayRun s m 0x0703 l → l.length = 2 → id < 16384 →
      (st.state = 0 → ∃ u, exec (.closeStream m) s = .next u ∧ Answered u m 3 0 []) ∧
      (st.state ≠ 0 → (s.part st.part).live = true →
        (st.state = 1 → openDescs s id ≠ [] → ∃ u, exec (.closeStream m) s = .next u ∧ Answered u m 0x13 0 []) ∧
        (st.state ≠ 1 ∨ openDescs s id = [] → ∃ u, exec (.closeStream m) s = .next u ∧
          Answered u m 0 0 (satBytes st.bytes 8 ++ satBytes st.retx 4) ∧ (u.stream id).state = 0))) ∧
    (MayRun s m 0x0704 l → l.length = 4 → 8 ≤ fieldOf l 0 2 → fieldOf l 0 2 ≤ 1000 → 1 ≤ fieldOf l 2 1 → fieldOf l 2 1 ≤ 31 →
      fieldOf l 3 1 = 0 → ∃ u, exec (.setTransport m) s = .next u ∧ Answered u m 0 0 [] ∧ u.boot.rto = fieldOf l 0 2 ∧
        u.boot.retryMax = fieldOf l 2 1)

/-- The host's memory and Foreman images (R32, R541, R545, R562, R633 to R635): the aperture moves to a mapped base;
HOST_MOVE gives a host porter the move, whose pieces go over the I/O ring to the device's controller, and its mailbox is
answered when the last piece is back; a sound image is staged in the slot that does not run, and its slot can be made the
next to start. -/
def HostMovesAndImages : Prop :=
  ∀ (s s1 : State) (m : Nat) (host data : List Byte) (l : List Byte) (k : RingPkt) (v : HostMove),
    let a := fieldOf l 0 8
    let n := fieldOf l 4 4
    let d := fieldOf l 16 8
    (MayRun s m 0x0801 l → l.length = 8 →
      (mapped s a = true → ∃ u, exec (.setAperture m) s = .next u ∧ Answered u m 0 0 [] ∧ tblGet (fun _ => 0) u.fmn.apertures 0 = a) ∧
      (mapped s a = false → ∃ u, exec (.setAperture m) s = .next u ∧ Answered u m 0x14 0 [])) ∧
    (MayRun s m 0x0802 l → l.length = 24 → fieldOf l 0 1 < 2 → fieldOf l 1 3 = 0 → n % 64 = 0 →
      (gddrRange s d n = true → n = 0 → ∃ u, exec (.hostMove m host) s = .next u ∧ Answered u m 0 0 []) ∧
      (gddrRange s d n = true → 0 < n → ∃ u w, exec (.hostMove m host) s = .next u ∧ u.mbox m = s.mbox m ∧ u.mem = s.mem ∧
        w ∈ u.fmn.moves ∧ w.serial = s.fmn.nextSerial ∧ w.mbox = m ∧ w.toHost = decide (fieldOf l 0 1 = 1) ∧ w.haddr = fieldOf l 8 8 ∧
        w.addr = d ∧ w.left = n ∧ (fieldOf l 0 1 = 0 → w.data = (host ++ List.replicate n 0).take n) ∧
        ((∀ y ∈ s.fmn.moves, y.busy = true) → s.fmn.moves.length < 16 →
          sentPacket s u hostStop (devStop (d / 2 ^ 36)) (.host (moveReq w)))) ∧
      (gddrRange s d n = false → ∃ u, exec (.hostMove m host) s = .next u ∧ Answered u m 0x14 0 [])) ∧
    (nextPacket s (fun p => p.dst = hostStop ∧ plainPacket p.msg = true) k s1 → k.msg = .hostBack v.serial data false →
      s.fmn.moves.find? (fun y => decide (y.serial = v.serial)) = some v → v.left ≤ hostPiece v.addr v.left →
      v.mbox < 128 → (s.mbox v.mbox).order ≠ 0 → ∃ u, exec (.ringPacketArrival hostStop) s = .next u ∧ Answered u v.mbox 0 0 [] ∧
        u.mem = s.mem ∧ (v.toHost = true → u.fmn.hostMem = (v.haddr, v.data ++ data) :: s.fmn.hostMem)) ∧
    (MayRun s m 0x0A01 l → l.length = 16 → gddrRange s a (fieldOf l 8 8) = true →
      (imageOk (wake s) a (fieldOf l 8 8) = true → ∃ u, exec (.fwStage m) s = .next u ∧
        Answered u m 0 0 (leBytes (1 - s.boot.running) 1) ∧ (u.image (1 - s.boot.running)).present = true ∧
        u.image s.boot.running = s.image s.boot.running) ∧
      (imageOk (wake s) a (fieldOf l 8 8) = false → ∃ u, exec (.fwStage m) s = .next u ∧ Answered u m 0xB 0 [] ∧
        u.boot.images = s.boot.images)) ∧
    (MayRun s m 0x0A02 l → l.length = 1 → fieldOf l 0 1 < 2 →
      (slotOk s (fieldOf l 0 1) = true → ∃ u, exec (.fwActivate m) s = .next u ∧ Answered u m 0 0 [] ∧
        u.boot.selector = fieldOf l 0 1) ∧
      (slotOk s (fieldOf l 0 1) = false → ∃ u, exec (.fwActivate m) s = .next u ∧ Answered u m 3 0 [] ∧
        u.boot.selector = s.boot.selector))

/-- Attestation and crews (R533, R553, R563, R664 to R666): a new nonce makes a report, whose later fragments wait for the
signature; a relay goes to a registered module and times out after 2 s. -/
def AttestationAndCrewCommands : Prop :=
  ∀ (s : State) (m f k n due : Nat) (l : List Byte),
    let x := attestOf s 0
    (MayRun s m 0x0503 l → l.length = 32 →
      (identityOk s = false → ∃ u, exec (.getAttestation m) s = .next u ∧ Answered u m 0x15 0 []) ∧
      (identityOk s = true → x.nonce ≠ l → ∃ u, exec (.getAttestation m) s = .next u ∧
        Answered u m 0 0 (fragment (reportBytes s l) 0) ∧ (attestOf u 0).nonce = l ∧ (attestOf u 0).signed_ = false) ∧
      (identityOk s = true → x.nonce = l → x.signed_ = true → ∃ u, exec (.getAttestation m) s = .next u ∧
        Answered u m 0 0 (fragment x.report x.frag) ∧ (attestOf u 0).frag = (x.frag + 1) % 4)) ∧
    ((attestOf s f).signed_ = false → (attestOf s f).nonce ≠ [] → ∃ u, exec (.attestationSigned f) s = .next u ∧
      (attestOf u f).signed_ = true ∧ (attestOf u f).report.length = (attestOf s f).report.length + 7856) ∧
    (MayRun s m 0x0601 l → l.length = 36 → fieldOf l 1 1 = 0 → fieldOf l 2 2 = k → k < 16384 →
      (fieldOf l 0 1 = 0 → ∃ u, exec (.crewJoin m) s = .next u ∧ Answered u m 0 0 [] ∧
        u.fmn.manager = some (k, (l.drop 4).take 32) ∧ u.fmn.joined = false) ∧
      (fieldOf l 0 1 = 1 → ∃ u, exec (.crewJoin m) s = .next u ∧ Answered u m 0 0 [] ∧
        ⟨k, (l.drop 4).take 32, 0, 0, s.tb⟩ ∈ u.fmn.managed)) ∧
    (MayRun s m 0x0603 l → 4 ≤ l.length → fieldOf l 2 2 ≠ 0 →
      (notRelayed (fieldOf l 2 2) = true → ∃ u, exec (.crewRelay m) s = .next u ∧ Answered u m 0x11 0 []) ∧
      (notRelayed (fieldOf l 2 2) = false → (∃ g, g ∈ s.fmn.managed ∧ g.mod = fieldOf l 0 2) →
        ∃ u, exec (.crewRelay m) s = .next u ∧ (u.mbox m).relay = some (fieldOf l 0 2, s.fmn.mgmtSeq, s.tb + 2000000000) ∧
          u.fmn.mgmtSeq = (s.fmn.mgmtSeq + 1) % 2 ^ 16)) ∧
    (m < 128 → (s.mbox m).relay = some (k, n, due) → (s.mbox m).order ≠ 0 →
      (due ≤ s.tb → ∃ u, exec (.crewRelayTimeout m) s = .next u ∧ Answered u m 0x12 0 []) ∧
      (s.tb < due → exec (.crewRelayTimeout m) s = .next s))

/-- The host's windows (R32, R541 to R543, R552, R706): a BAR2 access goes over the I/O ring through the aperture, a write
as posted pieces, a read completing when its data is back, with Completer Abort where it was refused, met an error or found
no answer in 900 us; BAR4 shows the trace buffer; a Function Level Reset empties the function's mailboxes. -/
def HostWindows : Prop :=
  ∀ (s s1 : State) (f off m : Nat) (x : HostAccess) (r : HostRead) (q : HostReq) (k : RingPkt) (data : List Byte) (before after : List HostRead),
    let a := apertureAddr s f off
    let got := fun (u : State) (fn bar off : Nat) (abort : Bool) (d : List Byte) =>
      u.fmn.hostOut = ⟨fn, bar, off, abort, d⟩ :: s.fmn.hostOut
    let bytesOf := fun (p : RingPkt) => match p.msg with
      | .host y => (List.range y.len).map (fun i => (y.addr + i, y.data.getD i 0))
      | _ => []
    (pcieUp s = true → f ≤ 8 →
      (bar2Why s f a x = 0 → x.write = true → ∃ u l, exec (.bar2Access f off x) s = .next u ∧ u.mem = s.mem ∧ u.ring = s.ring ++ l ∧
        l.flatMap bytesOf = (List.range x.len).map (fun i => (a + i, x.bytes.getD i 0)) ∧
        ∀ p ∈ l, ∃ y, p.msg = .host y ∧ y.write = true ∧ y.fn = f ∧ y.err = x.unc ∧ 1 ≤ y.len ∧ y.addr % 256 + y.len ≤ 256 ∧
          p.src = hostStop ∧ p.dst = devStop (y.addr / 2 ^ 36)) ∧
      (bar2Why s f a x = 0 → x.write = false → ∃ u, exec (.bar2Access f off x) s = .next u ∧ u.mem = s.mem ∧
        u.fmn.hostReads = s.fmn.hostReads ++ [⟨s.fmn.nextSerial, f, off, a, x.len, s.tb, []⟩] ∧
        (dieReset s = true → u.ring = s.ring) ∧
        (dieReset s = false → sentPacket s u hostStop (devStop (a / 2 ^ 36))
          (.host ⟨s.fmn.nextSerial, f, false, a, hostPiece a x.len, [], x.unc, true⟩))) ∧
      (bar2Why s f a x ≠ 0 → ∃ u, exec (.bar2Access f off x) s = .next u ∧ u.mem = s.mem ∧ u.ring = s.ring ∧
        (x.write = false → got u f 2 off true []))) ∧
    (nextPacket s (fun p => p.dst = off ∧ plainPacket p.msg = true) k s1 → k.msg = .host q → q.write = true → q.err = false →
      memMappedOut s (q.addr / 2 ^ 36) = false → (∀ e ∈ s.bad, e.2 ≠ 2) → ∃ u, exec (.ringPacketArrival off) s = .next u ∧ u.ringSide = s.ringSide ++ [k] ∧
        memBytes u.mem q.addr q.data.length = q.data) ∧
    (nextPacket s (fun p => p.dst = hostStop ∧ plainPacket p.msg = true) k s1 →
      s.fmn.moves.find? (fun y => decide (y.serial = r.serial)) = none →
      s.fmn.hostReads.find? (fun y => decide (y.serial = r.serial)) = some r →
      (k.msg = .hostBack r.serial data false → r.len ≤ r.got.length + data.length → ∃ u, exec (.ringPacketArrival hostStop) s = .next u ∧
        got u r.fn 2 r.off false ((r.got ++ data).take r.len)) ∧
      (k.msg = .hostBack r.serial data true → ∃ u, exec (.ringPacketArrival hostStop) s = .next u ∧ got u r.fn 2 r.off true [])) ∧
    (s.fmn.hostReads = before ++ r :: after →
      (∀ y ∈ before, ¬(y.fn = r.fn ∧ y.off = r.off ∧ y.since + 900000 ≤ s.tb)) → r.since + 900000 ≤ s.tb →
      ∃ u, exec (.bar2ReadTimeout r.fn r.off) s = .next u ∧ got u r.fn 2 r.off true [] ∧ r ∉ u.fmn.hostReads) ∧
    ((∀ y ∈ s.fmn.hostReads, ¬(y.fn = f ∧ y.off = off ∧ y.since + 900000 ≤ s.tb)) → exec (.bar2ReadTimeout f off) s = .next s) ∧
    (pcieUp s = true → x.write = false → off + x.len ≤ 2 ^ s.trc.slog → s.trc.slog ≤ 27 → ∃ u, exec (.bar4Access off x) s = .next u ∧
      got u 0 4 off false (memBytes s.mem (s.trc.base + off) x.len)) ∧
    (x.write = true → exec (.bar4Access off x) s = .next s) ∧
    (pcieUp s = true → m < 256 → funcOf s m = f → f ≤ 8 → ∃ u, exec (.functionLevelReset f) s = .next u ∧ u.mbox m = MBox.reset)

/-- The cap loop and steps of the operating point (R597, R600): at its tick the loop reads the monitors and steps slower
above the cap or at 105 degrees, faster when rested, cool and below the ceiling; the step ends at the next point. -/
def CapLoopSteps : Prop :=
  ∀ (s : State) (vin iin pin tj k : Nat),
    (atMs s.pwr.lastTick s = false → exec (.capTick vin iin pin tj) s = .next s) ∧
    (atMs s.pwr.lastTick s = true → s.board.wetarOn = true → s.pwr.fixed = false →
      (10 * capNow s < pin ∨ 105 ≤ tj → s.pwr.op < 7 → ∃ u, exec (.capTick vin iin pin tj) s = .next u ∧
        u.pwr.stepTo = some (s.pwr.op + 1) ∧ u.pwr.lastDown = some s.tb ∧ u.pwr.pin = pin ∧ u.pwr.tmax = tj) ∧
      (pin ≤ 10 * capNow s → tj < 100 → ceilNow s < s.pwr.op → s.pwr.src = 0 → s.pwr.lastDown = none →
        fitsUp pin s.pwr.op (capNow s) = true → ∃ u, exec (.capTick vin iin pin tj) s = .next u ∧
          u.pwr.stepTo = some (s.pwr.op - 1)) ∧
      (pin ≤ 10 * capNow s → 100 ≤ tj → tj < 105 → ∃ u, exec (.capTick vin iin pin tj) s = .next u ∧ u.pwr.op = s.pwr.op ∧
        u.pwr.stepTo = s.pwr.stepTo)) ∧
    (s.pwr.stepTo = some k → s.pwr.goal = none → bit s.pwr.src 3 = false →
      ∃ u, exec .opStepDone s = .next u ∧ u.pwr.op = k ∧ u.pwr.stepTo = none) ∧
    (s.pwr.stepTo = none → s.pwr.goal = none → exec .opStepDone s = .next s)

/-- The hardware fast limit (R586, R603 to R607, R720): the first source asserted is a trip and one step slower at once,
counted; while a source stays, one point every 10 us; the sources release by themselves, the brake by its pin. -/
def FastLimitSlowsTheDie : Prop :=
  ∀ (s : State) (i n us : Nat),
    let tripped := fun (u : State) => bit u.pwr.src i = true ∧ u.pwr.stepTo = some (s.pwr.op + 1) ∧ u.pwr.lastFast = some s.tb ∧
      tblGet (zeros 64) u.pwr.reg 0x020 = counterAdd (tblGet (zeros 64) s.pwr.reg 0x020) 1
    (s.board.island = true → s.board.wetarOn = true → s.pwr.src = 0 → s.pwr.fixed = false → s.pwr.stepTo = none → s.pwr.op < 7 →
      (i = 0 ∨ i = 1 → ∃ u, exec (.fastLimitTrip i) s = .next u ∧ tripped u) ∧
      (i = 4 → 10 ≤ us → ∃ u, exec (.undervoltage us) s = .next u ∧ tripped u) ∧
      (i = 2 → 40 ≤ n → s.board.brakeLow = false → ∃ u, exec (.pwrBrake true n) s = .next u ∧ tripped u ∧ u.board.brakeLow = true)) ∧
    (us < 10 → exec (.undervoltage us) s = .next s) ∧
    (n < 40 → exec (.pwrBrake true n) s = .next s) ∧
    (s.pwr.lastFast = some n → s.board.wetarOn = true → s.pwr.src &&& 0x17 ≠ 0 → s.pwr.stepTo = none → s.pwr.op < 7 →
      (n + 10000 ≤ s.tb → ∃ u, exec .fastLimitStep s = .next u ∧ u.pwr.stepTo = some (s.pwr.op + 1) ∧ u.pwr.lastFast = some s.tb) ∧
      (s.tb < n + 10000 → exec .fastLimitStep s = .next s)) ∧
    (i = 0 ∨ i = 1 ∨ i = 4 → ∃ u, exec (.fastLimitSourceRelease i) s = .next u ∧ bit u.pwr.src i = false ∧
      ∀ j, j ≠ i → bit u.pwr.src j = bit s.pwr.src j) ∧
    (∃ u, exec (.pwrBrake false n) s = .next u ∧ u.board.brakeLow = false ∧ bit u.pwr.src 2 = false)

/-- Losing power (R586, R602): at 115 degrees Wetar, the I/O dies and GDDR7 lose power and the trip is recorded; an open
input loses all but MRAM. -/
def PowerIsLost : Prop :=
  ∀ (s : State) (t : Nat),
    (s.board.wetarOn = true → 115 ≤ t → ∃ u, exec (.thermalTrip t) s = .next u ∧ u.board.wetarOn = false ∧
      u.board.thermTrip = true ∧ u.board.tripRec = true ∧ u.pwr.tripped = true ∧ u.cores = [] ∧ u.benches = [] ∧
      (∀ a, memGet u.mem a ≠ 0 → 0x010000000000 ≤ a ∧ a < 0x050000000000) ∧ u.boot.recs = s.boot.recs ∧ u.fmn = s.fmn) ∧
    (t < 115 → exec (.thermalTrip t) s = .next s) ∧
    (∃ u, exec .inputOpen s = .next u ∧ u.board.island = false ∧ u.cores = [] ∧ u.mem = [] ∧ u.tb = State.reset.tb ∧
      u.boot.recs = s.boot.recs ∧ u.boot.images = s.boot.images ∧ u.boot.selector = s.boot.selector)

/-- The ledger (R617 to R625): at its millisecond the activity is copied and cleared, and the module's energy grows by what
the monitor measured; what the partitions' estimates leave is unattributed. -/
def LedgerCharges : Prop :=
  ∀ (s : State) (nj slept tmean b o : Nat),
    (atMs s.pwr.lastSnap s = false → exec (.ledgerSnapshot nj slept tmean) s = .next s) ∧
    (atMs s.pwr.lastSnap s = true → s.pwr.slept = false →
      ∃ u, exec (.ledgerSnapshot nj slept tmean) s = .next u ∧ u.pwr.moduleNj = s.pwr.moduleNj + nj ∧ u.pwr.lastSnap = some s.tb ∧
        s.pwr.unattrNj ≤ u.pwr.unattrNj ∧ u.pwr.unattrNj ≤ s.pwr.unattrNj + nj ∧
        (s.cores = [] → (s.benches.map (·.1)).Nodup → b ∈ s.benches.map (·.1) → o ∈ actOffsets →
          (u.bench b).r o = counterAdd 0 (tblGet (fun _ => 0) (s.bench b).act o) ∧ (u.bench b).act = [])) ∧
    (atMs s.pwr.lastSnap s = true → s.pwr.slept = true → ∃ u, exec (.ledgerSnapshot nj slept tmean) s = .next u ∧
      u.pwr.moduleNj = s.pwr.moduleNj + nj + slept ∧ u.pwr.slept = false)

/-- Start-up (R586, R627 to R636, R654 to R661, R720): the steps follow one another; start-up waits for PERST_N at the ends
of steps 1 and 7; no sound image, a bad record, a row that cannot be hidden, or no GDDR7 device fail it; step 10 ends in
Ready or degraded Ready. -/
def StartUpSteps : Prop :=
  ∀ (s : State) (r : StepReport) (n : Nat),
    (s.board.island = false → ∃ u, exec (.powerOn n) s = .next u ∧ u.board.island = true ∧ u.tb = 0 ∧ u.board.slot = n % 16 ∧
      u.boot = s.boot) ∧
    (s.board.island = true → exec (.powerOn n) s = .next s) ∧
    (s.board.island = true → s.board.refclk = true → s.pwr.wstate < 3 → s.boot.state = 0 → s.board.thermTrip = false →
      (s.boot.step = 1 ∨ s.boot.step = 7 → s.board.perst = false → exec (.startupStepDone r) s = .next s) ∧
      (s.boot.step = 1 → s.board.perst = true → exec (.startupStepDone r) s = .next { s with boot := { s.boot with step := 2 } }) ∧
      (s.boot.step = 2 → exec (.startupStepDone r) s = .next { s with boot := { s.boot with step := 3 } }) ∧
      (s.boot.step = 3 →
        (slotOk s s.boot.selector = true → exec (.startupStepDone r) s =
          .next { s with boot := { s.boot with step := 4, running := s.boot.selector } }) ∧
        (slotOk s s.boot.selector = false → slotOk s (1 - s.boot.selector) = true → exec (.startupStepDone r) s =
          .next { s with boot := { s.boot with step := 4, running := 1 - s.boot.selector } }) ∧
        (slotOk s s.boot.selector = false → slotOk s (1 - s.boot.selector) = false →
          exec (.startupStepDone r) s = .next (startFail 1 s))) ∧
      (s.boot.step = 4 →
        (r.recordBad = true → exec (.startupStepDone r) s = .next (startFail 6 s)) ∧
        (r.recordBad = false → ∃ u, exec (.startupStepDone r) s = .next u ∧ u.boot.step = 5 ∧ u.boot.loaded = true)) ∧
      (s.boot.step = 5 → ∃ u, exec (.startupStepDone r) s = .next u ∧ u.boot.step = 6 ∧ u.board.wetarOn = true) ∧
      (s.boot.step = 6 → ∃ u, exec (.startupStepDone r) s = .next u ∧ u.boot.step = 7) ∧
      (s.boot.step = 7 → s.board.perst = true → ∃ u, exec (.startupStepDone r) s = .next u ∧ u.boot.step = 8) ∧
      (s.boot.step = 8 →
        ∃ u, exec (.startupStepDone r) s = .next u ∧ (if r.moduleBad then u.boot.state = 3 ∧ u.boot.fail = 4 else u.boot.step = 9)) ∧
      (s.boot.step = 9 → ∃ u, exec (.startupStepDone r) s = .next u ∧
        (if (cobble s).1 then u.boot.step = 10 else u.boot.state = 3 ∧ u.boot.fail = 3 ∧ u.board.alert = true)) ∧
      (s.boot.step = 10 →
        (r.ucieBad = true → exec (.startupStepDone r) s = .next (startFail 2
          { s with boot := { s.boot with retrain := s.boot.retrain || r.retrain } })) ∧
        (r.ucieBad = false → (s.boot.memOut ||| portBits r.gddrFail) % 2 ^ 16 ≠ 2 ^ 16 - 1 →
          ∃ u, exec (.startupStepDone r) s = .next u ∧ u.boot.step = 11 ∧ (u.boot.state = 1 ∨ u.boot.state = 2) ∧
            (u.boot.state = 1 ↔ u.boot.deg = 0)) ∧
        (r.ucieBad = false → (s.boot.memOut ||| portBits r.gddrFail) % 2 ^ 16 = 2 ^ 16 - 1 →
          ∃ u, exec (.startupStepDone r) s = .next u ∧ u.boot.state = 3 ∧ u.boot.fail = 5)))

/-- The idle ladder (R612 to R616, R720): W1 after 1 ms of quiet, W2 after 100 ms more, an exit at a host command, a BAR2
access or a DATA frame; W3 and W4 only without a partition, and a wake or the rising edge of PERST_N resumes start-up at
step 5 or 4. -/
def IdleLadder : Prop :=
  ∀ (s : State) (c : Nat),
    (ready s = true → s.board.wetarOn = true → s.pwr.wstate = 0 → quietNow s = true →
      (s.pwr.idleSince + 1000000 ≤ s.tb → exec .idleW1Entry s = .next { s with pwr := { s.pwr with wstate := 1, idleSince := s.tb } }) ∧
      (s.tb < s.pwr.idleSince + 1000000 → exec .idleW1Entry s = .next s)) ∧
    (s.pwr.wstate = 1 →
      (s.pwr.idleSince + 100000000 ≤ s.tb → exec .idleW2Entry s = .next { s with pwr := { s.pwr with wstate := 2 } }) ∧
      (s.tb < s.pwr.idleSince + 100000000 → exec .idleW2Entry s = .next s)) ∧
    (s.pwr.wstate = 1 ∨ s.pwr.wstate = 2 → c < 3 →
      exec (.idleExit c) s = .next { s with pwr := { s.pwr with wstate := 0, idleSince := s.tb } }) ∧
    (mayDoze s = true →
      (∃ u, exec .enterW3 s = .next u ∧ u.pwr.wstate = 3 ∧ u.board.wetarOn = false ∧ u.cores = [] ∧ u.fmn = s.fmn ∧
        u.boot.recs = s.boot.recs) ∧
      (∃ u, exec .enterW4 s = .next u ∧ u.pwr.wstate = 4 ∧ u.board.wetarOn = false ∧ u.cores = [] ∧ u.fmn.mboxes = [] ∧
        u.boot.recs = s.boot.recs ∧ u.tb = s.tb)) ∧
    (mayDoze s = false → exec .enterW3 s = .next { s with pwr := { s.pwr with idleRefused := true } } ∧
      exec .enterW4 s = .next { s with pwr := { s.pwr with idleRefused := true } }) ∧
    (s.pwr.wstate = 3 ∨ s.pwr.wstate = 4 →
      (∃ u, exec .idleWake s = .next u ∧ u.pwr.wstate = 0 ∧ u.boot.state = 0 ∧ u.boot.step = 8 - s.pwr.wstate) ∧
      (s.board.island = true → s.board.perst = false →
        ∃ u, exec .perstNDeassert s = .next u ∧ u.board.perst = true ∧ u.pwr.wstate = 0 ∧ u.boot.step = 8 - s.pwr.wstate)) ∧
    (s.pwr.wstate < 3 → exec .idleWake s = .next s)

/-- The I3C target (R615, R726 to R728): a read takes the bytes from the offset on and moves it, unmapped offsets reading 0;
a write sets the offset, and to FMN_IDLEREQ asks for W3, W4 or a wake, other codes being refused; CLKLOSS is cleared by
writing 1. -/
def I3cTarget : Prop :=
  ∀ (s : State) (off n : Nat) (v : Byte), s.board.island = true →
    (∃ u, exec (.i3cRead n) s = .next u ∧ u.board.i3cOff = (s.board.i3cOff + n) % 2 ^ 16 ∧ u.board.i3cOut.length = n ∧
      ∀ i, i < n → u.board.i3cOut[i]? = some (i3cByte s ((s.board.i3cOff + i) % 2 ^ 16))) ∧
    (0x41 ≤ n → i3cByte s n = 0) ∧
    (∃ u, exec (.i3cWrite off []) s = .next u ∧ u.board.i3cOff = off % 2 ^ 16) ∧
    (mayDoze s = true → ∃ u, exec (.i3cWrite 0x0008 [3]) s = .next u ∧ u.pwr.wstate = 3) ∧
    (v.toNat % 8 = 1 ∨ v.toNat % 8 = 2 ∨ v.toNat % 8 = 6 ∨ v.toNat % 8 = 7 →
      ∃ u, exec (.i3cWrite 0x0008 [v]) s = .next u ∧ u.pwr.idleRefused = true) ∧
    (exec (.i3cWrite 0x0040 [0x10]) s =
      .next { s with board := { s.board with i3cOff := 0x0040, clkLoss := false } }) ∧
    (exec (.dynamicAddressAssign n) s = .next { s with board := { s.board with i3cAddr := some n } })

/-- The trace collector (R376, R698 to R704): the oldest record leaves for its lanes and fills lines of the buffer, which go
over the I/O ring to the device's controller, until the buffer wraps or stops; an ISSUE sample is taken only while the
core's clock runs, at a multiple of 2^IEXP cycles, of the context that issues in that cycle. -/
def TraceLeavesTheCollector : Prop :=
  ∀ (s : State) (c d j : Nat) (r : List Byte) (rest : List (Nat × List Byte)),
    let a := s.trc.base + s.trc.off
    let o := slotOwner s c
    let full : Prop := 2 ^ s.trc.slog ≤ s.trc.off + 64
    let ready := fun (k : Nat) => canIssue s ⟨c, k⟩
    let none_ := trace (benchOf c) c o 1 1 (leBytes 0 4 ++ [0] ++ leBytes (stateBits s c) 3) s
    let sample := fun (k : Nat) => trace (benchOf c) c k 1 0 (leBytes (s.ctx ⟨c, k⟩).pc.toNat 4 ++
      [memGet s.mem (localBase c + (s.ctx ⟨c, k⟩).pc.toNat)] ++ leBytes (stateBits s c) 3) s
    (s.board.wetarOn = true → s.trc.queue = (d, r) :: rest →
      (s.trc.stopped = false ∨ bit d 0 = false →
        ∃ u, exec .traceRecordOut s = .next u ∧ u.trc.queue = rest ∧ u.mem = s.mem ∧
          tblGet (zeros 64) u.trc.reg 0x030 = counterAdd (tblGet (zeros 64) s.trc.reg 0x030) 1 ∧
          u.trc.lanes = (if bit d 1 then r :: s.trc.lanes else s.trc.lanes) ∧
          (bit d 0 = false → u.ring = s.ring ∧ u.trc.line = s.trc.line) ∧
          (bit d 0 = true → s.trc.line.length + r.length < 64 → u.ring = s.ring ∧ u.trc.line = s.trc.line ++ r) ∧
          (bit d 0 = true → s.trc.line.length = 32 → r.length = 32 → u.trc.line = [] ∧
            sentPacket s u traceStop (devStop (a / 2 ^ 36)) (.access 128 (a / 2 ^ 36 + 1) true (a / 64) (s.trc.line ++ r)
              (List.replicate 64 true) false .none) ∧
            (¬ full → u.trc.off = s.trc.off + 64 ∧ u.trc.stopped = false) ∧
            (full → s.trc.ctl.getLsbD 3 = true → u.trc.off = 0 ∧ u.trc.wraps = (s.trc.wraps + 1) % 2 ^ 32) ∧
            (full → s.trc.ctl.getLsbD 3 = false → u.trc.stopped = true))) ∧
      (s.trc.stopped = true → bit d 0 = true → ∃ u, exec .traceRecordOut s = .next u ∧ u.trc.queue = rest ∧
        u.trc.lanes = s.trc.lanes ∧ u.ring = s.ring ∧ u.trc.lost = s.trc.lost + 1)) ∧
    (s.board.wetarOn = false → exec .traceRecordOut s = .next s) ∧
    (c < 512 →
      ((s.core c).cycFrom = none → exec (.issueSample c) s = .next s) ∧
      ((s.core c).cycFrom.isSome → cyc s c % 2 ^ bits s.trc.ctl.toNat 8 4 ≠ 0 → exec (.issueSample c) s = .next s) ∧
      ((s.core c).cycFrom.isSome → cyc s c % 2 ^ bits s.trc.ctl.toNat 8 4 = 0 →
        (ready o = true → (s.ctx ⟨c, o⟩).pc.toNat < 0x100000 → exec (.issueSample c) s = .next (sample o)) ∧
        (ready o = false → nCtx s c = 8 ∨ (s.ctx ⟨c, o⟩).spinFrom.isSome → exec (.issueSample c) s = .next none_) ∧
        ((∀ k, k < nCtx s c → ready k = false) → exec (.issueSample c) s = .next none_) ∧
        (ready o = false → nCtx s c ≠ 8 → (s.ctx ⟨c, o⟩).spinFrom = none → j < nCtx s c → ready ((o + j) % nCtx s c) = true →
          (∀ k, k < j → ready ((o + k) % nCtx s c) = false) → (s.ctx ⟨c, (o + j) % nCtx s c⟩).pc.toNat < 0x100000 →
          exec (.issueSample c) s = .next (sample ((o + j) % nCtx s c)))))

end Sys2Proof.Claims

open Sys2Proof Sys2Proof.Machine

/-- A step takes the command at the front of the queue and is `exec` of it on the state with the rest of the queue. -/
def Obligations.StepRunsTheFrontCommand : Prop :=
  ∀ (s : State) (c : Instr) (rest : List Instr), s.pending = c :: rest → step s = exec c { s with pending := rest }

/-- With no command waiting a step is one cycle of the 100 MHz reference clock (R692): 10 ns of the timebase while the
island has power and the clock runs. That a step on an empty queue stands for this is the model's choice (DESIGN CHOICE, log
entry 3). -/
def Obligations.AnEmptyQueueTicks : Prop :=
  ∀ (s : State), s.pending = [] →
    (s.board.island = true → s.board.refclk = true → step s = .next { s with tb := s.tb + 10 }) ∧
    (s.board.island = false ∨ s.board.refclk = false → step s = .next s)

/-- What the reset columns give: C0 PARK at S level, the other contexts FREE; CORE_IMODE 2, CORE_FRCTL.SIZE 2, CORE_CRCPOLY
0x82F63B78, CORE_JTO 20; OPNOW 7; STEP 1; WRAP 1 and IEXP 16; SCOPE PARTITION in every tally record; sync error rings
enabled. -/
def Obligations.ResetColumns : Prop :=
  ∀ (c i n : Nat), 0 < i →
    let k := State.reset.core c
    ((k.ctx 0).st = .park ∧ (k.ctx 0).lvl = .s ∧ (k.ctx i).st = .free ∧ (k.ctx i).lvl = .u ∧ (k.ctx i).ops = []) ∧
    (k.reg 0x120 = 2 ∧ k.reg 0x128 = 2 ∧ (n ≠ 0x120 → n ≠ 0x128 → k.reg n = 0)) ∧
    ((k.ctx i).reg 0x02D = 0x82F63B78 ∧ (k.ctx i).reg 0x04C = 20 ∧ (n ≠ 0x02D → n ≠ 0x04C → (k.ctx i).reg n = 0)) ∧
    (State.reset.pwr.op = 7 ∧ State.reset.pwr.ialarm = 156 ∧ State.reset.boot.step = 1 ∧ State.reset.trc.ctl = 0x108) ∧
    (State.reset.bench c).r n = 0 ∧ ((State.reset.bench c).tally n).scope = 3 ∧ ((State.reset.bench c).tally n).count = 0 ∧
    State.reset.pending = []

/-- The state after reset has the invariant. -/
def Obligations.ResetMeetsStateInv : Prop :=
  StateInv State.reset

/-- Every step keeps the canonical form of memory, the operating point among OP0 to OP7, the idle state among W0 to W4, and
the start-up step among the eleven of R627. -/
def Obligations.StepKeepsStateInv : Prop :=
  ∀ (s t : State), StateInv s → step s = .next t → StateInv t

/-- Every command completes, and leaves each part of State that `touches` does not list as it was: the queue of waiting
commands always, memory and the cores' contexts for commands that have nothing to do with them. -/
def Obligations.CommandsKeepWhatTheyDoNotTouch : Prop :=
  ∀ (c : Instr) (s : State), ∃ t, exec c s = .next t ∧ (∀ f, f ∉ touches c → same f s t) ∧ t.pending = s.pending

/-- Arithmetic, logic and bit counts push what the rules give. -/
def Obligations.ArithmeticAndLogic : Prop :=
  Sys2Proof.Claims.ArithmeticAndLogicResults ∧ Sys2Proof.Claims.BitCountsAndReversal

/-- The four shifts take their count from bits [4:0] of n alone (R194): every bit of the result, SHR filling with 0, SAR
with the sign, ROL with the bits that leave at the top. -/
def Obligations.ShiftCountIsFiveBits : Prop :=
  ∀ (s : State) (t : Thread) (a n : Word), Runs t 1 ⟨2, 1, 0, 0⟩ s → operands (firstIssue t s) t 2 = [n, a] →
    (∃ y, exec (.shl t) s = pushed t 2 [y] s ∧
      ∀ i, i < 32 → y.getLsbD i = (decide (n.toNat % 32 ≤ i) && a.getLsbD (i - n.toNat % 32))) ∧
    (∃ y, exec (.shr t) s = pushed t 2 [y] s ∧
      ∀ i, i < 32 → y.getLsbD i = (decide (i + n.toNat % 32 < 32) && a.getLsbD (i + n.toNat % 32))) ∧
    (∃ y, exec (.sar t) s = pushed t 2 [y] s ∧
      ∀ i, i < 32 → y.getLsbD i = a.getLsbD (min (i + n.toNat % 32) 31)) ∧
    (∃ y, exec (.rol t) s = pushed t 2 [y] s ∧
      ∀ i, i < 32 → y.getLsbD ((i + n.toNat % 32) % 32) = a.getLsbD i)

/-- Comparisons push 1 or 0; BZ, BNZ and SEL test the whole word against 0 (R195). -/
def Obligations.ComparisonsAndWordTests : Prop :=
  ∀ (s : State) (t : Thread) (a b f off : Word),
    (Runs t 1 ⟨2, 1, 0, 0⟩ s → operands (firstIssue t s) t 2 = [b, a] →
      exec (.eq t) s = pushed t 2 [if a = b then 1 else 0] s ∧
      exec (.lt t) s = pushed t 2 [if a.toInt < b.toInt then 1 else 0] s ∧
      exec (.ltu t) s = pushed t 2 [if a.toNat < b.toNat then 1 else 0] s) ∧
    (Runs t 1 ⟨1, 1, 0, 0⟩ s → operands (firstIssue t s) t 1 = [a] →
      exec (.zeq t) s = pushed t 1 [if a = 0 then 1 else 0] s) ∧
    (Runs t 1 ⟨3, 1, 0, 0⟩ s → operands (firstIssue t s) t 3 = [f, b, a] →
      exec (.sel t) s = pushed t 3 [if f ≠ 0 then a else b] s) ∧
    (Runs t 1 ⟨2, 0, 0, 0⟩ s → operands (firstIssue t s) t 2 = [off, f] →
      exec (.bz t) s = goesOn t 2 [] 0 [] (if f = 0 then some ((s.ctx t).pc + 1 + off) else none) s ∧
      exec (.bnz t) s = goesOn t 2 [] 0 [] (if f = 0 then none else some ((s.ctx t).pc + 1 + off)) s)

/-- CRCB steps the CRC over the low byte with the polynomial in CORE_CRCPOLY, and CRCW equals four CRCB steps over the
word's bytes, low byte first; neither inverts anything (R200). -/
def Obligations.CrcStepsUseThePolynomial : Prop :=
  ∀ (s : State) (t : Thread) (c w : Word), Runs t 1 ⟨2, 1, 0, 0⟩ s → operands (firstIssue t s) t 2 = [w, c] →
    let bit := crcBit ((s.ctx t).reg 0x02D)
    let byte := fun (c : Word) (k : Nat) => Nat.repeat bit 8 (c ^^^ ((w >>> (8 * k)) &&& 0xFF))
    exec (.crcb t) s = pushed t 2 [byte c 0] s ∧
    exec (.crcw t) s = pushed t 2 [byte (byte (byte (byte c 0) 1) 2) 3] s

/-- Branch targets and pushed return addresses (R196), and the absolute jumps (R192). -/
def Obligations.BranchTargets : Prop :=
  ∀ (s : State) (t : Thread) (f off : Word),
    (Runs t 1 ⟨1, 0, 0, 0⟩ s → operands (firstIssue t s) t 1 = [off] →
      exec (.br t) s = goesOn t 1 [] 0 [] (some (BitVec.ofInt 32 (((s.ctx t).pc.toNat : Int) + 1 + off.toInt))) s ∧
      exec (.jmp t) s = goesOn t 1 [] 0 [] (some off) s) ∧
    (Runs t 1 ⟨2, 0, 0, 0⟩ s → operands (firstIssue t s) t 2 = [off, f] →
      (f = 0 → exec (.bz t) s =
        goesOn t 2 [] 0 [] (some (BitVec.ofInt 32 (((s.ctx t).pc.toNat : Int) + 1 + off.toInt))) s) ∧
      (f ≠ 0 → exec (.bnz t) s =
        goesOn t 2 [] 0 [] (some (BitVec.ofInt 32 (((s.ctx t).pc.toNat : Int) + 1 + off.toInt))) s)) ∧
    (Runs t 1 ⟨1, 0, 0, 1⟩ s → operands (firstIssue t s) t 1 = [off] →
      exec (.call t) s = goesOn t 1 [] 0 [(s.ctx t).pc + 1]
        (some (BitVec.ofInt 32 (((s.ctx t).pc.toNat : Int) + 1 + off.toInt))) s ∧
      exec (.callx t) s = goesOn t 1 [] 0 [(s.ctx t).pc + 1] (some off) s) ∧
    (Runs t 1 ⟨0, 0, 1, 0⟩ s → returns (firstIssue t s) t 1 = [off] →
      exec (.ret t) s = goesOn t 0 [] 1 [] (some off) s)

/-- The stack operations, PICK, DEPTH, the moves between stacks, and literal runs. -/
def Obligations.StackOperations : Prop :=
  Sys2Proof.Claims.StackOperationEffects ∧ Sys2Proof.Claims.DeepStackOperations ∧ Sys2Proof.Claims.LiteralRunPushesItsValue

/-- LOOP opens a level, the loop step repeats or closes it, LEAVE closes it. -/
def Obligations.HardwareLoops : Prop :=
  Sys2Proof.Claims.LoopAndLeave ∧ Sys2Proof.Claims.LoopStepAtTheLoopEnd

/-- Spills and fills keep both stacks, and a stack fault comes before any effect. -/
def Obligations.StacksAcrossSpills : Prop :=
  Sys2Proof.Claims.SpillsAndFillsKeepTheStacks ∧ Sys2Proof.Claims.StackFaultsComeFirst

/-- What the stack, arithmetic, literal and branch instructions leave unchanged: every other core and context, every
register but their own stack pointers, the innermost LC and CORE_TXFMT.ARM, every byte of memory outside the spill areas'
next words, and every other part of the module. -/
def Obligations.StackInstructionsFrame : Prop :=
  ∀ (s : State) (i : Instr) (t : Thread) (len : Nat) (sh : Shape), stackOnly s i = some (t, len, sh) → Runs t len sh s →
    ∃ u, exec i s = .next u ∧ CoresKept t s u ∧
      (∀ a, ¬ spillByte s t sh a → memGet u.mem a = memGet s.mem a) ∧
      (∀ f, f ∉ [Field.mem, .bad, .cores, .benches, .free] → same f s u) ∧
      ((s.ctx t).ops.length + sh.pushes ≤ 16 → (s.ctx t).rets.length + sh.rpushes ≤ 16 →
        u.mem = s.mem ∧ u.bad = s.bad ∧ u.benches = s.benches)

/-- MUL and MULU put the full signed or unsigned product in flight, MACC the signed product to add (R208); a read takes what
the results due have left, and one made while a multiply is in flight counts as early (R209, R210); MULTIPLY_RESULT writes
the results due, oldest first. -/
def Obligations.MultiplierPipeline : Prop :=
  ∀ (s : State) (t : Thread) (a b : Word),
    let s1 := firstIssue t s
    let fly := fun (add : Bool) (v : Dword) => Host.Outcome.next (complete t 1 2 [] 0 [] none (s1.updCtx t (fun x =>
      { x with muls := x.muls ++ [{ add := add, value := v, issued := s.now / 2 }] })))
    (Runs t 1 ⟨2, 0, 0, 0⟩ s → operands s1 t 2 = [b, a] →
      exec (.mul t) s = fly false (BitVec.ofInt 64 (a.toInt * b.toInt)) ∧
      exec (.mulu t) s = fly false (BitVec.ofNat 64 (a.toNat * b.toNat)) ∧
      exec (.macc t) s = fly true (BitVec.ofInt 64 (a.toInt * b.toInt))) ∧
    (Runs t 1 ⟨0, 1, 0, 0⟩ s →
      let due := fun (m : MulOp) => decide (m.issued + 3 ≤ s.now / 2)
      let v := ((s.ctx t).muls.filter due).foldl (fun v m => if m.add then v + m.value else m.value) (pair (s.ctx t))
      let s2 := s1.updCtx t (settle due)
      let s3 := if (s.ctx t).muls.all due then s2 else coreCount t.core 0x18 1 s2
      exec (.rdmlo t) s = .next (complete t 1 0 [v.extractLsb' 0 32] 0 [] none s3) ∧
      exec (.rdmhi t) s = .next (complete t 1 0 [v.extractLsb' 32 32] 0 [] none s3)) ∧
    (exists_ s t = true → (∃ m, m ∈ (s.ctx t).muls ∧ m.issued + 3 ≤ s.now / 2) →
      (∀ i, ∀ u n, (s.ctx ⟨t.core, i⟩).wait ≠ .rdtsr u n) →
      let due := fun (m : MulOp) => decide (m.issued + 3 ≤ s.now / 2)
      exec (.multiplyResult t) s = .next (s.updCtx t (fun x =>
        { setPair x ((x.muls.filter due).foldl (fun v m => if m.add then v + m.value else m.value) (pair x)) with
          muls := x.muls.filter (fun m => !due m) })))

/-- Loads and stores of local and bench memory: bytes, extension, alignment and frame. -/
def Obligations.NearAccesses : Prop :=
  Sys2Proof.Claims.NearLoadsExtend ∧ Sys2Proof.Claims.NearStoresAndTheirFrame ∧ Sys2Proof.Claims.MisalignedAddressesFault

/-- TAS, LDR, STC, accesses through global windows, and the core's address view. -/
def Obligations.AtomicAndWindowAccesses : Prop :=
  Sys2Proof.Claims.TestAndSetLoadReserveStoreConditional ∧ Sys2Proof.Claims.WindowAccesses ∧ Sys2Proof.Claims.CoreAddressView

/-- Reads of system registers, and the reads that latch. -/
def Obligations.RegisterReads : Prop :=
  Sys2Proof.Claims.SystemRegisterReads ∧ Sys2Proof.Claims.LatchingReads

/-- Writes of system registers: acceptance, refusal, value rules, thread ends. -/
def Obligations.RegisterWrites : Prop :=
  Sys2Proof.Claims.SystemRegisterWrites ∧ Sys2Proof.Claims.RegisterValueRules ∧ Sys2Proof.Claims.ResumeAddressAndThreadEndWrites

/-- Writes of core mode, shares, formats, windows and block registers. -/
def Obligations.CoreAndBlockRegisterWrites : Prop :=
  Sys2Proof.Claims.CoreModeAndShareWrites ∧ Sys2Proof.Claims.FormatAndWindowWritesWait ∧ Sys2Proof.Claims.BlockRegisterWrites

/-- SYSC enters, the hold window ends, and RETX restores the frame. -/
def Obligations.SystemCallAndReturn : Prop :=
  Sys2Proof.Claims.SystemCallAndHoldWindow ∧ Sys2Proof.Claims.ReturnFromException

/-- Exception entry, faults of pool threads and of C0, and lockup. -/
def Obligations.ExceptionEntries : Prop :=
  Sys2Proof.Claims.ExceptionEntry ∧ Sys2Proof.Claims.FaultsHaltPoolThreads ∧ Sys2Proof.Claims.FailedEntryLocksTheCore

/-- Interrupts, injections, and the customer instructions. -/
def Obligations.InterruptsAndCustomerInstructions : Prop :=
  Sys2Proof.Claims.InterruptsAndInjections ∧ Sys2Proof.Claims.CustomerInstructions

/-- FORK, JOIN, QUIT and the end of a thread, THSUSP and THRESM. -/
def Obligations.ThreadsOfACore : Prop :=
  Sys2Proof.Claims.ForkStartsTheLowestFreeContext ∧ Sys2Proof.Claims.JoinStatuses ∧ Sys2Proof.Claims.ThreadEnds ∧ Sys2Proof.Claims.SuspendAndResume

/-- Tile operations issue and hold their thread; what ACCZ and TFREE do when they run. -/
def Obligations.TileInstructionsIssue : Prop :=
  Sys2Proof.Claims.HeldInstructionsComplete ∧ Sys2Proof.Claims.TileOperationsIssue ∧ Sys2Proof.Claims.AccumulatorZeroAndTileFree

/-- Tile operations start in order of issue and move their rows beat by beat. -/
def Obligations.TileOperationsRun : Prop :=
  Sys2Proof.Claims.TileOperationStarts ∧ Sys2Proof.Claims.TileBeatsMoveRows

/-- Tile operations and MMA complete: results, banks, and the released thread. -/
def Obligations.TileOperationsComplete : Prop :=
  Sys2Proof.Claims.TileOperationCompletes ∧ Sys2Proof.Claims.MatrixMultiplyCompletes

/-- The assay unit's windows and its compared samples. -/
def Obligations.AssayUnit : Prop :=
  Sys2Proof.Claims.AssayWindows ∧ Sys2Proof.Claims.AssaySamplesAreCompared

/-- COPEN and its answer, CPUT, CSEND and its waits. -/
def Obligations.ChannelsOpenAndSend : Prop :=
  Sys2Proof.Claims.ChannelOpening ∧ Sys2Proof.Claims.ChannelSending

/-- A message is committed, placed in its ring, and received. -/
def Obligations.MessagesPassThroughChannels : Prop :=
  Sys2Proof.Claims.CommittedMessages ∧ Sys2Proof.Claims.MessagePlacement ∧ Sys2Proof.Claims.ChannelReceiving

/-- Channels close, abort and drain, and credits return. -/
def Obligations.ChannelsEnd : Prop :=
  Sys2Proof.Claims.ChannelCloseAbortStatus ∧ Sys2Proof.Claims.ChannelEndsAndCredits

/-- Tally instructions go to their slice, which performs them. -/
def Obligations.TallyOperations : Prop :=
  Sys2Proof.Claims.TallyInstructions ∧ Sys2Proof.Claims.TallySliceOperations

/-- Watches, deferred operations, and the answers that release threads. -/
def Obligations.WatchesAndAnswers : Prop :=
  Sys2Proof.Claims.WatchesAndDeferral ∧ Sys2Proof.Claims.TallyAnswersReleaseThreads

/-- FENCE (R426). It completes at once at THREAD, CORE and BENCH scope, and at every scope when no entry of the merging
buffer and no uncached store is the thread's; at PARTITION scope and above it holds the thread while one of its stores to
GDDR7 has not passed its request slot, at SYSTEM scope while one to the CXL range is outstanding, and FENCE_DONE completes
it under the same conditions. A scope code above 5 is illegal (R207). A release-form operation is sent to its slice once its
fence would complete (R428). -/
def Obligations.FencesWaitForEarlierAccesses : Prop :=
  ∀ (s : State) (t : Thread) (syl : Byte) (sc : Nat) (op : TallyOp) (e : Nat) (m : MBEntry) (u : UItem),
    let s1 := firstIssue t s
    let b := s.bench (benchOf t.core)
    let mine := fun (m : MBEntry) => (t.core, t.ctx) ∈ m.writers
    let held := fun (u : UItem) => u.write = true ∧ u.core = t.core ∧ u.ctx = t.ctx
    let done := (∀ m ∈ b.mb, ¬ mine m) ∧ ∀ u ∈ b.uitems, ¬ held u
    let waits := fun (sc : Nat) =>
      (m ∈ b.mb ∧ mine m ∧ ((3 ≤ sc ∧ m.line * 64 < 0x010000000000 ∧ m.stage ≠ 3) ∨ (4 ≤ sc ∧ m.stage ≠ 3) ∨
        (5 ≤ sc ∧ 0x010000000000 ≤ m.line * 64))) ∨
      (u ∈ b.uitems ∧ held u ∧ ((3 ≤ sc ∧ u.line * 64 < 0x010000000000 ∧ u.stage ≠ 3) ∨ (4 ≤ sc ∧ u.stage ≠ 3) ∨
        (5 ≤ sc ∧ 0x010000000000 ≤ u.line * 64)))
    (Runs t 2 ⟨0, 0, 0, 0⟩ s →
      (5 < syl.toNat → exec (.fence t syl) s = .next (fault t 0x03 (syllables s1 t 0xE6 (some syl)) (s.ctx t).pc false s1)) ∧
      (syl.toNat ≤ 2 → exec (.fence t syl) s = .next (complete t 2 0 [] 0 [] none s1)) ∧
      (syl.toNat ≤ 5 → done → exec (.fence t syl) s = .next (complete t 2 0 [] 0 [] none s1)) ∧
      (syl.toNat ≤ 5 → waits syl.toNat → exec (.fence t syl) s = .next (s1.updCtx t (fun x =>
        { x with wait := .fence syl.toNat, heldPops := 0, heldLen := 2 })))) ∧
    ((s.ctx t).wait = .fence sc →
      (sc ≤ 2 ∨ done → exec (.fenceDone t) s = .next (completeHeld t [] s)) ∧
      (waits sc → exec (.fenceDone t) s = .next s)) ∧
    ((s.ctx t).wait = .release op e →
      (op.op < 2 → op.form = 2 → op.tally / 512 = benchOf t.core → op.scope ≤ 2 ∨ done →
        exec (.fenceDone t) s = .next (completeHeld t [] (toSlice (benchOf t.core) (s.now / 2 + 2) (prioOf op) op s))) ∧
      (waits op.scope → exec (.fenceDone t) s = .next s))

/-- The range engine (R405 to R411, R423). A command of a writer that may write the bench starts its operation when none
runs: INVALIDATE and FLUSH over a range whose every address a region maps, or an empty one, CONVERT and RESTORE to at most 8
ways, RESTORE lowering WAYS at its start; a range with an unmapped first line is INVALID, and a second command REFUSED. An
abort ends INVALIDATE and FLUSH at once with the lines or entries done, lets the others finish their way, and answers
NOT_PENDING when nothing runs; the end sets RESULT, COUNT and WAYS, and CONVERT's ways read zero. -/
def Obligations.RangeOperations : Prop :=
  ∀ (s : State) (w : Writer) (b : Nat) (v : Dword) (r : RngOp),
    let x := s.bench b
    let tw := bits v.toNat 6 3
    let base := bits (x.r 0x6400).toNat 47 6 * 64
    let len := bits (x.r 0x6408).toNat 39 6 * 64
    let maps := fun (a : Nat) => ∃ p, translate s b a = some p ∧ mapped s p.1 = true
    let result := fun (u : State) => bits ((u.bench b).r 0x6410).toNat 12 10
    let amount := fun (u : State) => bits ((u.bench b).r 0x6410).toNat 63 32
    let runs := fun (u : State) (op : Nat) (q : RngOp) => (u.bench b).rng = some q ∧ q.op = op ∧ q.started = ctlNow s ∧
      q.aborting = false ∧ bits ((u.bench b).r 0x6410).toNat 9 9 = 1
    mayWrite s w b = true → b < 128 →
    (x.rng = none →
      ((∀ a, base ≤ a → a < base + len → maps a) →
        (∃ u q, exec (.invalidate w b v) s = .next u ∧ runs u 1 q ∧
          rngChunks s b (len / 2 ^ 21 + 2) base len = some q.chunks) ∧
        (∃ u q, exec (.flush w b v) s = .next u ∧ runs u 2 q ∧ rngChunks s b (len / 2 ^ 21 + 2) base len = some q.chunks ∧
          ∀ e ∈ x.mb, e.stage ≠ 3 → (∃ c ∈ q.chunks, c.1 ≤ e.line ∧ e.line < c.1 + c.2) → e.serial ∈ q.items)) ∧
      (0 < len → ¬ maps base →
        (∃ u, exec (.invalidate w b v) s = .next u ∧ (u.bench b).rng = none ∧ result u = 4) ∧
        (∃ u, exec (.flush w b v) s = .next u ∧ (u.bench b).rng = none ∧ result u = 4)) ∧
      (tw ≤ 8 →
        (∃ u q, exec (.convert w b v) s = .next u ∧ runs u 3 q ∧ q.tways = tw ∧ q.ways = waysOf s b ∧
          q.due = ctlNow s + (8192 * (tw - waysOf s b) + 4) ∧ waysOf u b = waysOf s b ∧
          ∀ l, l ∈ (u.bench b).lines ↔ l ∈ x.lines ∧ l.way < 8 - max (waysOf s b) tw) ∧
        (∃ u q, exec (.restore w b v) s = .next u ∧ runs u 4 q ∧ q.tways = tw ∧ q.ways = waysOf s b ∧
          q.due = ctlNow s + (4096 * (waysOf s b - tw) + 4) ∧ waysOf u b = min (waysOf s b) tw)) ∧
      (8 < tw → ∃ u, exec (.convert w b v) s = .next u ∧ (u.bench b).rng = none ∧ result u = 4) ∧
      (x.rngDone = false → ∃ u, exec (.rangeAbort w b) s = .next u ∧ (u.bench b).rng = none ∧ result u = 3) ∧
      (x.rngDone = true → exec (.rangeAbort w b) s = .next s) ∧ exec (.rangeComplete b) s = .next s) ∧
    (x.rng = some r →
      (∃ u, exec (.flush w b v) s = .next u ∧ (u.bench b).rng = some r ∧ result u = 5) ∧
      (ctlNow s < r.due →
        exec (.rangeComplete b) s = .next s ∧
        (r.op = 1 → ∃ u, exec (.rangeAbort w b) s = .next u ∧ (u.bench b).rng = none ∧ result u = 2 ∧
          amount u = min (ctlNow s - r.started) (rngTotal r) % 2 ^ 32) ∧
        (r.op = 2 → (∀ e ∈ x.mb, e.serial ∈ r.items → e.stage ≠ 3) → (∀ i ∈ r.items, ∃ e ∈ x.mb, e.serial = i) →
          ∃ u, exec (.rangeAbort w b) s = .next u ∧ (u.bench b).rng = none ∧ result u = 2 ∧ amount u = 0) ∧
        (r.op = 3 ∨ r.op = 4 → ∃ u q, exec (.rangeAbort w b) s = .next u ∧ (u.bench b).rng = some q ∧ q.aborting = true ∧
          q.due ≤ r.due ∧ q.tways = r.tways ∧ q.ways = r.ways)) ∧
      (r.due ≤ ctlNow s → (∀ e ∈ x.mb, e.serial ∈ r.items → e.stage = 3) →
        (r.aborting = false → r.op = 1 ∨ r.op = 2 → ∃ u, exec (.rangeComplete b) s = .next u ∧ (u.bench b).rng = none ∧
          result u = 1 ∧ amount u = rngTotal r % 2 ^ 32) ∧
        (r.aborting = false → r.op = 3 → r.ways ≤ r.tways → r.tways ≤ 8 →
          ∃ u, exec (.rangeComplete b) s = .next u ∧ (u.bench b).rng = none ∧ result u = 1 ∧ amount u = r.tways - r.ways ∧
            waysOf u b = r.tways ∧ u.mem = memZero s.mem (winBase b + r.ways * 0x40000) ((r.tways - r.ways) * 0x40000)) ∧
        (r.aborting = false → r.op = 4 → r.tways ≤ r.ways → r.ways ≤ 8 →
          ∃ u, exec (.rangeComplete b) s = .next u ∧ (u.bench b).rng = none ∧ result u = 1 ∧ amount u = r.ways - r.tways ∧
            waysOf u b = r.tways) ∧
        (r.aborting = true → ∃ u, exec (.rangeComplete b) s = .next u ∧ (u.bench b).rng = none ∧ result u = 2)))

/-- A fill enters its way under the bytes that the bench has stored to its line since, and the load that waits for it
returns (R392, R393, R399), or faults where its data is uncorrectable (R438); an uncached load returns with its own bytes
(R363, R401). -/
def Obligations.WaitingLoadsReturn : Prop :=
  ∀ (s : State) (b m n : Nat) (sgn : Bool) (t : Thread) (f : Fill) (fs : List Fill) (d : List Byte) (i : UItem) (is : List UItem),
    let x := s.bench b
    let data := overlay d f.laid f.laidMask
    let s1 := s.updBench b (fun x => { x with fills := x.fills.filter (fun g => decide (g.serial ≠ f.serial)) })
    let y : SLine := { set := setOf f.line, way := f.way, line := f.line, data := data, bad := [], born := f.sentAt }
    let kept := fun (l : SLine) => !(decide (l.set = setOf f.line) && decide (l.way = f.way)) && decide (l.line ≠ f.line)
    let s2 := actSr b (s1.updBench b (fun x => { x with lines := y :: x.lines.filter kept }))
    let waits := fun (t : Thread) => ∃ m n sgn, (s.ctx t).wait = .load m n sgn (some f.serial)
    let c := benchOf t.core
    (x.fills = f :: fs → f.data = some d →
      (f.err = false → f.drop = false → x.rng = none → f.way + waysOf s b < 8 →
        ((∀ t ∈ threadsOf b, ¬ waits t) → exec (.fillComplete b) s = .next s2) ∧
        (t ∈ threadsOf b → (s.ctx t).wait = .load m n sgn (some f.serial) → (∀ t' ∈ threadsOf b, t' ≠ t → ¬ waits t') →
          exec (.fillComplete b) s = .next (completeHeld t [extend n sgn (slice data (m % 64) n)] s2))) ∧
      (f.err = true → t ∈ threadsOf b → waits t → (∀ t' ∈ threadsOf b, t' ≠ t → ¬ waits t') →
        exec (.fillComplete b) s = .next (loadFault t f.line f.link s1))) ∧
    (x.fills = [] → exec (.fillComplete b) s = .next s) ∧
    ((s.bench c).uitems = i :: is → i.write = false → i.core = t.core → i.ctx = t.ctx → (s.ctx t).wait = .load m n sgn none →
      let s3 := s.updBench c (fun x => { x with uitems := x.uitems.filter (fun v => decide (v.serial ≠ i.serial)) })
      (i.stage = 4 →
        exec (.globalLoadReturn t) s = .next (completeHeld t [extend n sgn (slice i.data (m % 64) n)] s3)) ∧
      (i.stage = 5 → exec (.globalLoadReturn t) s = .next (loadFault t i.line false s3))) ∧
    ((s.bench c).uitems = [] → exec (.globalLoadReturn t) s = .next s)

/-- PPOST, PSTAT, PABORT, and how descriptors start, count and end. -/
def Obligations.PortersAndDescriptors : Prop :=
  Sys2Proof.Claims.PorterInstructions ∧ Sys2Proof.Claims.DescriptorsRun

/-- The clicker cuts paths whose slots are free, and paths are asked for and released. -/
def Obligations.ClickerAndPaths : Prop :=
  Sys2Proof.Claims.ClickerServesRequests ∧ Sys2Proof.Claims.PathsAreAskedForAndReleased

/-- Mesh cycles, routing by the pattern, and what flits do at a bench. -/
def Obligations.MeshCyclesAndFlits : Prop :=
  Sys2Proof.Claims.MeshCyclePasses ∧ Sys2Proof.Claims.FlitsArriveAtBenches

/-- Memory ports: requests, replies in their slots, schedule slips, and their arrival. -/
def Obligations.MemoryPorts : Prop :=
  Sys2Proof.Claims.MemoryPortServesRequests ∧ Sys2Proof.Claims.RepliesAndScheduleSlips ∧ Sys2Proof.Claims.MemoryRepliesArrive

/-- The I/O ring (R377 to R381, R390, R426): a packet is delivered at its stop; a write takes effect when its controller
accepts it, which a waiting item then knows; a waiting read takes its line or its error when it is served, and both are
answered over the ring. -/
def Obligations.RingAccesses : Prop :=
  ∀ (s s1 : State) (p : RingPkt) (stop b dev line : Nat) (wr bad : Bool) (data : List Byte) (mask : List Bool) (u : Use) (m : OpenMsg)
    (rest : List RingPkt) (serial c i : Nat) (r : BitVec 128),
    let served := fun (v : State) (l : List Byte) (e : Bool) =>
      v.ringSide = rest ∧ v.mem = s.mem ∧ sentPacket s v p.dst (rowStop b) (.response b line l e u)
    (nextPacket s (fun p => p.dst = stop ∧ plainPacket p.msg = true) p s1 →
      (p.msg = .msg m → exec (.ringPacketArrival stop) s = .next (toInbox (benchOf (msgCore m)) (s.now / 2) m s1)) ∧
      (p.msg = .record c i r → exec (.ringPacketArrival stop) s = .next (syncWrite c i (r.toNat % 2 ^ 96) s1)) ∧
      (p.msg = .access b dev false line data mask bad u →
        exec (.ringPacketArrival stop) s = .next { s1 with ringSide := s.ringSide ++ [p] }) ∧
      (p.msg = .access b dev true line data mask false u → dev = 0 ∨ memMappedOut s (dev - 1) = false →
        ∃ v, exec (.ringPacketArrival stop) s = .next v ∧ v.ringSide = s.ringSide ++ [p] ∧
          v.mem = (writeMask (line * 64) (data.zip mask) s).mem ∧
          (u = .item serial → ∀ e ∈ (v.bench b).mb, e.serial = serial → e.stage = 3)) ∧
      (p.msg = .response b line data false (.item serial) →
        exec (.ringPacketArrival stop) s = .next (itemDone b serial s1))) ∧
    (s.ringSide = p :: rest → p.msg = .access b dev wr line data mask bad u → b < 128 →
      (dev ≠ 0 → memMappedOut s (dev - 1) = false →
        (wr = false → ∃ v, exec (.ringSideAccess false) s = .next v ∧ served v (memBytes s.mem (line * 64) 64) false) ∧
        (wr = true → ∃ v, exec (.ringSideAccess false) s = .next v ∧ served v [] false) ∧
        (wr = false → ∃ v, exec (.ringSideAccess true) s = .next v ∧ served v [] true)) ∧
      (dev = 0 →
        (wr = false → ∃ v, exec (.cxlAccessComplete false) s = .next v ∧ served v (memBytes s.mem (line * 64) 64) false) ∧
        (wr = true → ∃ v, exec (.cxlAccessComplete false) s = .next v ∧ served v [] false) ∧
        (wr = false → ∃ v, exec (.cxlAccessComplete true) s = .next v ∧ served v [] true))) ∧
    (s.ringSide = [] → exec (.ringSideAccess wr) s = .next s ∧ exec (.cxlAccessComplete wr) s = .next s)

/-- Frames start, wait for FRAME_SYNC, end, and fall quiet. -/
def Obligations.FramesStartAndEnd : Prop :=
  Sys2Proof.Claims.FramesStart ∧ Sys2Proof.Claims.FramesEnd

/-- Between frames (R38, R345, R579, R588 to R590): a switch first marks the partition, then brings the next program in; the
governor ramps the cores up before the first frame and down after the last job. -/
def Obligations.SwitchesAndRamps : Prop :=
  ∀ (s : State) (p k : Nat), p < 8 →
    let q := s.part p
    (nextProg q = some k → partReady q = true → q.frame = .idle → q.cur ≠ k + 1 →
      (∀ b, b ∈ benchesOf s p → benchStill (s.bench b) = true) →
      (q.marked = false → exec (.timeSliceSwitch p) s = .next (s.updPart p (fun q => { q with marked := true }))) ∧
      (q.marked = true → ∃ u, exec (.timeSliceSwitch p) s = .next u ∧ (u.part p).marked = false ∧ (u.part p).cur = k + 1)) ∧
    (nextProg q = some k → q.live = true → s.board.wetarOn = true →
      (q.ramp = 0 → rampRoom s (min (envNow s (q.prog k)) 1000) = true →
        ∃ u, exec (.preamble p) s = .next u ∧ (u.part p).ramp = 3 ∧
          (u.part p).rampEnd = s.tb + max 2000000 (2000 * envNow s (q.prog k))) ∧
      (q.ramp = 3 → q.rampEnd ≤ s.tb → exec (.preamble p) s = .next (s.updPart p (fun q => { q with ramp := 1 }))) ∧
      (q.ramp = 3 → s.tb < q.rampEnd → exec (.preamble p) s = .next s)) ∧
    (q.live = true → q.ramp = 4 → q.frame = .idle → rampRoom s 1000 = true →
      ∃ u, exec (.rampDown p) s = .next u ∧ (u.part p).ramp = 2 ∧ s.tb + 2000000 ≤ (u.part p).rampEnd) ∧
    (q.ramp = 2 → q.rampEnd ≤ s.tb → ∃ u, exec (.rampDown p) s = .next u ∧ (u.part p).ramp = 0 ∧
      ∀ c, c ∈ coresOf s p → (u.core c).cycFrom = none) ∧
    (q.ramp = 2 → s.tb < q.rampEnd → exec (.rampDown p) s = .next s)

/-- Packets leave on the welt and are sent again; ports go down and up. -/
def Obligations.WeltSendsAndPorts : Prop :=
  Sys2Proof.Claims.WeltPacketsAreSent ∧ Sys2Proof.Claims.PortsGoDownAndUp

/-- Frames are checked, packets are counted and acknowledged. -/
def Obligations.WeltReceives : Prop :=
  Sys2Proof.Claims.WeltFramesAreChecked ∧ Sys2Proof.Claims.PacketsAreCounted

/-- The crew (R533 to R535, R563): a registered module joins and beats; 300 ms without a message lose it; a manager's
command is accepted as though on PF0, another's is counted; a response completes the relay that waits for it. -/
def Obligations.CrewMessages : Prop :=
  ∀ (s : State) (m : MgmtMsg) (k i n : Nat) (key : List Byte) (g : Managed),
    (nextMessage s 1 m → (∃ g, g ∈ s.fmn.managed ∧ g.mod = m.src) →
      ∃ u, exec .mgmtJoin s = .next u ∧ ∀ g, g ∈ u.fmn.managed → g.mod = m.src → g.state = 1) ∧
    (nextMessage s 2 m → s.fmn.manager = some (m.src, key) → ∃ u, exec .joinAck s = .next u ∧ u.fmn.joined = true) ∧
    (nextMessage s 3 m → ∃ u, exec .heartbeat s = .next u ∧ ∀ g, g ∈ u.fmn.managed → g.mod = m.src →
      g.word = BitVec.ofNat 32 (leNat (m.body.take 4)) ∧ g.last = s.tb) ∧
    (nextMessage s 4 m → s.fmn.manager = some (m.src, key) → notRelayed m.code = false → m.code ∈ commandCodes → i < 256 →
      (s.mbox (256 + i)).order = 0 → (∀ j, j < i → (s.mbox (256 + j)).order ≠ 0) →
      ∃ u, exec .mgmtCommand s = .next u ∧ (u.mbox (256 + i)).cmd = m.code ∧ (u.mbox (256 + i)).payload = m.body ∧
        (u.mbox (256 + i)).sender = some (m.src, m.seq) ∧ (u.mbox (256 + i)).order = s.fmn.nextOrder) ∧
    (nextMessage s 4 m → s.fmn.manager.map (·.1) ≠ some m.src → ∃ u, exec .mgmtCommand s = .next u ∧
      (u.welt m.port).r 0x060 = counterAdd ((s.welt m.port).r 0x060) 1 ∧ ∀ j, (u.mbox j).order = (s.mbox j).order) ∧
    (nextMessage s 5 m → i < 128 → (s.mbox i).relay = some (m.src, m.seq, n) → (s.mbox i).order ≠ 0 → m.body.length ≤ 4076 →
      (∀ j, j < i → (s.mbox j).relay = none) →
      ∃ u, exec .mgmtResponse s = .next u ∧ Answered u i 0 0 (leBytes m.code 2 ++ leBytes 0 2 ++
        leBytes (leNat (m.body.take 4)) 4 ++ m.body.drop 4)) ∧
    (nextMessage s 6 m → ∃ u, exec .mgmtLeave s = .next u ∧ ∀ g, g ∈ u.fmn.managed → g.mod = m.src → g.state = 0) ∧
    (s.fmn.manager = some (k, key) → s.fmn.joined = true →
      (s.fmn.lastBeat + 100000000 ≤ s.tb → ∃ u, exec .heartbeatTimer s = .next u ∧ u.fmn.lastBeat = s.tb) ∧
      (s.tb < s.fmn.lastBeat + 100000000 → exec .heartbeatTimer s = .next s)) ∧
    (g ∈ s.fmn.managed → g.mod = k → g.state = 1 → g.last + 300000000 ≤ s.tb →
      ∃ u, exec (.crewLostTimer k) s = .next u ∧ ∀ h, h ∈ u.fmn.managed → h.mod = k → h.state = 2)

/-- Mailboxes are handed over, and every command is checked first. -/
def Obligations.Mailboxes : Prop :=
  Sys2Proof.Claims.MailboxesAreHandedOver ∧ Sys2Proof.Claims.CommandsAreCheckedFirst

/-- The commands that report (R555, R561, R563, R581, R582, R625, R639, R711): each answers OK with what the module holds.
-/
def Obligations.ReportsOfTheModule : Prop :=
  ∀ (s : State) (m : Nat) (l : List Byte) (q : Nat),
    (MayRun s m 0x0001 [] → ∃ u, exec (.getInfo m) s = .next u ∧ Answered u m 0 0 (infoBytes s)) ∧
    (MayRun s m 0x0002 l → l.length = 1 → 1 ≤ fieldOf l 0 1 → fieldOf l 0 1 ≤ 127 →
      let g := tblGet (fun _ => EvLog.reset) s.fmn.logs 0
      let out := g.entries.take (fieldOf l 0 1)
      ∃ u, exec (.getEvents m) s = .next u ∧
        Answered u m 0 0 (leBytes out.length 1 ++ [0, 0, 0] ++ satBytes g.lost 4 ++ out.flatMap eventBytes) ∧
        tblGet (fun _ => EvLog.reset) u.fmn.logs 0 = ⟨g.entries.drop (fieldOf l 0 1), 0⟩) ∧
    (MayRun s m 0x0105 l → l.length = 2 → fieldOf l 0 1 < 8 → fieldOf l 1 1 < 16 → (s.part (fieldOf l 0 1)).live = true →
      let g := (s.part (fieldOf l 0 1)).prog (fieldOf l 1 1)
      ∃ u, exec (.queryJob m) s = .next u ∧ Answered u m 0 0 (leBytes g.js 1 ++ List.replicate 7 0 ++
        jobBytes (fieldOf l 0 1) (fieldOf l 1 1) g.job)) ∧
    (MayRun s m 0x0303 [] → ∃ u, exec (.getEnergy m) s = .next u ∧ Answered u m 0 0 (leBytes s.tb 8 ++
      satBytes (s.pwr.moduleNj / 10 ^ 6) 8 ++ (List.range 8).flatMap (fun p => satBytes ((s.part p).energy / 10 ^ 6) 8) ++
      satBytes (s.pwr.unattrNj / 10 ^ 6) 8)) ∧
    (MayRun s m 0x0402 l → l.length = 2 → partOf s (fieldOf l 0 2 / 512) = some q → (s.part q).live = true →
      ∃ u, exec (.readTally m) s = .next u ∧ Answered u m 0 0 (leBytes (tallyWord s (fieldOf l 0 2)) 8)) ∧
    (MayRun s m 0x0404 l → l.length = 8 → fieldOf l 0 1 = 0 → fieldOf l 1 1 = 0 → fieldOf l 2 2 < 128 → fieldOf l 4 2 % 8 = 0 →
      0x4000 ≤ fieldOf l 4 2 → 1 ≤ fieldOf l 6 2 → fieldOf l 6 2 ≤ 500 → fieldOf l 4 2 + 8 * fieldOf l 6 2 ≤ 0x8000 →
      ∃ u, exec (.readCounters m) s = .next u ∧ Answered u m 0 0 (leBytes s.tb 8 ++
        (List.range (fieldOf l 6 2)).flatMap (fun i => leBytes (benchRead (wake s) (fieldOf l 2 2) (fieldOf l 4 2 + 8 * i)).toNat 8))) ∧
    (MayRun s m 0x0502 l → l.length = 1 → fieldOf l 0 1 < 8 → fieldOf l 0 1 ≠ 0 →
      let x := s.recd (fieldOf l 0 1)
      ∃ u, exec (.readRecord m) s = .next u ∧ Answered u m 0 0 (leBytes x.left 2 ++ [0, 0] ++ x.body)) ∧
    (MayRun s m 0x0602 l → l.length = 2 →
      let out := (s.fmn.managed.drop (fieldOf l 0 2)).take 254
      ∃ u, exec (.crewStatus m) s = .next u ∧ Answered u m 0 0 (leBytes out.length 2 ++ [0, 0] ++ out.flatMap (crewEntry s)))

/-- Programs and jobs (R568, R570, R572 to R578): a sound package that is admitted, and whose save region finds a place, is
loaded into the lowest free slot; a loaded program's job starts, stops at its frame boundary or at once, a running frame
being discarded when its threads have stopped, each at once or when its instruction completes; and it gives its slot back
once it has ended. -/
def Obligations.ProgramsAndJobs : Prop :=
  ∀ (s : State) (m k d c : Nat) (l : List Byte) (pkg : Sections),
    let p := fieldOf l 0 1
    let i := fieldOf l 1 1
    let a := fieldOf l 8 8
    let len := fieldOf l 16 8
    let w := wake s
    let g := programAt w a pkg
    let j := (s.part p).prog i
    let ended := fun (u : State) => (u.mbox m).owner = 0 ∧ (u.mbox m).status = 0 ∧ ((u.part p).prog i).js = 4 ∧
      ((u.part p).prog i).job.reason = 3
    p < 8 → (s.part p).live = true →
    (MayRun s m 0x0101 l → l.length = 24 → fieldOf l 1 7 = 0 → gddrRange w a len = true → k < 16 → ((s.part p).prog k).js = 0 →
      (∀ n, n < k → ((s.part p).prog n).js ≠ 0) →
      (packageWhy w p a len g = some (d + 1) → ∃ u, exec (.loadProgram m pkg) s = .next u ∧ Answered u m 0xA (d + 1) []) ∧
      (packageWhy w p a len g = none → ∃ u, exec (.loadProgram m pkg) s = .next u ∧ Answered u m 0xB 0 []) ∧
      (packageWhy w p a len g = some 0 →
        (∀ n, (admission w p g (admitted w)).1 = n + 1 → ∃ u, exec (.loadProgram m pkg) s = .next u ∧ Answered u m 0xC (n + 1) []) ∧
        ((admission w p g (admitted w)).1 = 0 → placeSave p g w = none →
          ∃ u, exec (.loadProgram m pkg) s = .next u ∧ Answered u m 9 3 []) ∧
        ((admission w p g (admitted w)).1 = 0 → (placeSave p g w).isSome → ∃ u, exec (.loadProgram m pkg) s = .next u ∧
          Answered u m 0 0 (leBytes k 1 ++ leBytes g.nvar 1 ++ leBytes (admission w p g (admitted w)).2.1 1 ++ [0] ++
            satBytes (admission w p g (admitted w)).2.2 4) ∧
          ((u.part p).prog k).js = 1 ∧ ((u.part p).prog k).sect = pkg))) ∧
    (MayRun s m 0x0102 l → l.length = 2 → i < 16 →
      (j.js = 0 → ∃ u, exec (.unloadProgram m) s = .next u ∧ Answered u m 0xD 0 []) ∧
      (activeJob j = true → ∃ u, exec (.unloadProgram m) s = .next u ∧ Answered u m 7 0 []) ∧
      (j.js ≠ 0 → activeJob j = false → ∃ u, exec (.unloadProgram m) s = .next u ∧ Answered u m 0 0 [] ∧
        (u.part p).prog i = Program.reset ∧ ((s.part p).cur = i + 1 → (u.part p).cur = 0))) ∧
    (MayRun s m 0x0103 l → l.length = 16 → i < 16 → fieldOf l 2 2 = 0 → j.js ≠ 0 → activeJob j = false →
      fencedPart w p = false → partReady (s.part p) = true →
      (admission w p j ((admitted w).filter (fun e => !(decide (e.1 = p) && decide (e.2.1 = i))))).1 = 0 →
      ∃ u, exec (.startJob m) s = .next u ∧ Answered u m 0 0 [] ∧ ((u.part p).prog i).js = 2 ∧
        ((u.part p).prog i).job.jobid = fieldOf l 4 4 ∧ ((u.part p).prog i).job.framesAsked = fieldOf l 8 8) ∧
    (MayRun s m 0x0104 l → l.length = 3 → i < 16 →
      (activeJob j = false → fieldOf l 2 1 < 2 → ∃ u, exec (.stopJob m) s = .next u ∧ Answered u m 0xD 0 (jobBytes p i j.job)) ∧
      (activeJob j = true → fieldOf l 2 1 = 0 → ∃ u, exec (.stopJob m) s = .next u ∧ ((u.part p).prog i).js = 3 ∧
        ((u.part p).prog i).stopBy = m + 1 ∧ u.mbox m = s.mbox m) ∧
      (activeJob j = true → fieldOf l 2 1 = 1 →
        ((s.part p).cur ≠ i + 1 ∨ (s.part p).frame ≠ .running → ∃ u, exec (.stopJob m) s = .next u ∧ ended u) ∧
        ((s.part p).cur = i + 1 → (s.part p).frame = .running →
          ((s.part p).discard ≤ 3 → (∀ c ∈ coresOf s p, ∀ n, n < 8 → ((s.core c).ctx n).st ≠ .run) →
            ∃ u, exec (.stopJob m) s = .next u ∧ ended u ∧ (u.part p).frame = .quiet s.now) ∧
          (c ∈ coresOf s p → k < nCtx s c → ((s.core c).ctx k).st = .run →
            (((s.core c).ctx k).wait = .micro → ∃ u, exec (.stopJob m) s = .next u ∧ (u.part p).frame = .running ∧
              3 ≤ (u.part p).discard ∧ ((u.core c).ctx k).suspReq = true ∧ ((u.part p).prog i).js = 3 ∧ u.mbox m = s.mbox m) ∧
            (((s.core c).ctx k).wait = .none → ∃ u, exec (.stopJob m) s = .next u ∧
              ((u.part p).frame = .running → ((u.core c).ctx k).st = .susp))))))

/-- Partitions come and go; resets of every scope begin, pass their point and end. -/
def Obligations.PartitionsAndModuleResets : Prop :=
  Sys2Proof.Claims.PartitionsAndResets ∧ Sys2Proof.Claims.ModuleResets

/-- The cap and the fixed point (R572, R594, R595, R608): a cap that every admitted program fits is put in force; one that
some program does not fit is refused, unless forced; a fixed point that all fit becomes the goal. -/
def Obligations.CapAndFixedPoint : Prop :=
  ∀ (s : State) (m : Nat) (l : List Byte),
    let w := wake s
    let top := profileCap s.pwr.profile
    let cap := fieldOf l 0 2
    let host := if cap = 0 then top else min cap top
    (MayRun s m 0x0301 l → l.length = 3 → cap = 0 ∨ 400 ≤ cap → fieldOf l 2 1 < 2 →
      (unfits w (fixedNow w) host 128 (admitted w) = [] → ∃ u, exec (.setCap m) s = .next u ∧ Answered u m 0 0 (leBytes host 2) ∧
        u.pwr.hostCap = host ∧ u.pwr.ialarm = 96 * min top host / 460) ∧
      (∀ e r, unfits w (fixedNow w) host 128 (admitted w) = e :: r → fieldOf l 2 1 = 0 →
        ∃ u, exec (.setCap m) s = .next u ∧ Answered u m 0xE (e.1 * 256 + e.2.1) [] ∧ u.pwr.hostCap = s.pwr.hostCap) ∧
      (∀ e r, unfits w (fixedNow w) host 128 (admitted w) = e :: r → fieldOf l 2 1 = 1 → (∀ x, x ∈ e :: r → activeJob x.2.2 = false) →
        ∃ u, exec (.setCap m) s = .next u ∧ Answered u m 0 0 (leBytes host 2) ∧ u.pwr.hostCap = host)) ∧
    (MayRun s m 0x0302 l → l.length = 1 →
      (fieldOf l 0 1 = 0xFF → ∃ u, exec (.setFixedPoint m) s = .next u ∧ Answered u m 0 0 [] ∧ u.pwr.fixed = false ∧
        u.pwr.goal = none) ∧
      (fieldOf l 0 1 < 8 → unfits w (some (fieldOf l 0 1)) (capNow w) 128 (admitted w) = [] →
        ∃ u, exec (.setFixedPoint m) s = .next u ∧ Answered u m 0 0 [] ∧ u.pwr.fixed = true ∧ u.pwr.fixOp = fieldOf l 0 1 ∧
          (s.pwr.stepTo = none → s.pwr.op < fieldOf l 0 1 → u.pwr.stepTo = some (s.pwr.op + 1))))

/-- Tally records, trace control and MRAM records by the host (R561, R640 to R644, R703): SET_TALLY answers the old record
and writes the new one; CONFIG_TRACE answers the old control word; WRITE_RECORD consumes a generation, and none when its
body is unchanged. -/
def Obligations.HostWritesRecords : Prop :=
  ∀ (s : State) (m q : Nat) (l : List Byte),
    let n := fieldOf l 0 2
    let v := fieldOf l 8 8
    let r := fieldOf l 0 1
    let x := s.recd r
    let body := l.drop 20
    (MayRun s m 0x0401 l → l.length = 16 → fieldOf l 2 6 = 0 → 2 ≤ bits v 61 59 → bits v 61 59 ≤ 5 → bit v 62 = false →
      partOf s (n / 512) = some q → (s.part q).live = true →
      ∃ u, exec (.setTally m) s = .next u ∧ Answered u m 0 0 (leBytes (tallyWord s n) 8) ∧
        ((u.bench (n / 512)).tally (n % 512)).count.toNat = v % 2 ^ 32 ∧ ((u.bench (n / 512)).tally (n % 512)).ovf = bit v 56 ∧
        ((u.bench (n / 512)).tally (n % 512)).scope = bits v 61 59) ∧
    (MayRun s m 0x0403 l → l.length = 24 → 10 ≤ bits (fieldOf l 0 8) 8 4 → bits (fieldOf l 0 8) 8 4 ≤ 24 →
      bits (fieldOf l 0 8) 15 9 = 0 → bits (fieldOf l 0 8) 23 21 = 0 → bits (fieldOf l 0 8) 63 40 = 0 →
      fieldOf l 8 8 % 2 ^ fieldOf l 16 1 = 0 → 20 ≤ fieldOf l 16 1 → fieldOf l 16 1 ≤ 27 → fieldOf l 17 7 = 0 →
      gddrRange s (fieldOf l 8 8) (2 ^ fieldOf l 16 1) = true → meetsRegions s (fieldOf l 8 8) (2 ^ fieldOf l 16 1) = false →
      ∃ u, exec (.configTrace m) s = .next u ∧ Answered u m 0 0 (leBytes s.trc.ctl.toNat 8) ∧
        u.trc.ctl = BitVec.ofNat 64 (fieldOf l 0 8) ∧ u.trc.base = fieldOf l 8 8 ∧ u.trc.slog = fieldOf l 16 1 ∧
        (s.trc.base ≠ fieldOf l 8 8 → u.trc.off = 0 ∧ u.trc.wraps = 0)) ∧
    (MayRun s m 0x0501 l → 20 ≤ l.length → l.length = 8 + fieldOf l 4 4 → r < 8 → fieldOf l 1 3 = 0 →
      (r ≤ 2 ∨ r = 5 → ∃ u, exec (.writeRecord m) s = .next u ∧ Answered u m 0x10 0 [] ∧ u.boot.recs = s.boot.recs) ∧
      (r = 3 ∨ r = 4 ∨ r = 6 ∨ r = 7 → x.left = 0 → ∃ u, exec (.writeRecord m) s = .next u ∧ Answered u m 0xF 0 []) ∧
      (r = 3 ∨ r = 4 ∨ r = 6 ∨ r = 7 → x.left ≠ 0 → fieldOf l 12 8 = 0 ∨ gddrRange s (fieldOf l 12 8) 7856 = true →
        (fieldOf l 8 2 ≠ x.gen + 1 → ∃ u, exec (.writeRecord m) s = .next u ∧ Answered u m 0x10 0 [] ∧ u.boot.recs = s.boot.recs) ∧
        (fieldOf l 8 2 = x.gen + 1 → fieldOf l 10 2 = 0 → layoutOk r body = true →
          recSigned (wake s) r (x.gen + 1) (fieldOf l 12 8) body = true →
          (body ≠ x.body → ∃ u, exec (.writeRecord m) s = .next u ∧ Answered u m 0 0 (leBytes (x.left - 1) 2) ∧
            u.recd r = ⟨x.gen + 1, x.left - 1, body⟩) ∧
          (body = x.body → ∃ u, exec (.writeRecord m) s = .next u ∧ Answered u m 0 0 (leBytes x.left 2) ∧ u.recd r = x))))

/-- Streams open and close; apertures, host moves and Foreman images. -/
def Obligations.StreamsAndHostMoves : Prop :=
  Sys2Proof.Claims.StreamsOpenAndClose ∧ Sys2Proof.Claims.HostMovesAndImages

/-- Attestation, crew commands, the host's BAR windows and Function Level Reset. -/
def Obligations.AttestationAndHostWindows : Prop :=
  Sys2Proof.Claims.AttestationAndCrewCommands ∧ Sys2Proof.Claims.HostWindows

/-- Hardware errors (R667, R669 to R676): an event is counted in its unit's history; the second uncorrectable one in a day,
or the third correctable one in ten minutes, makes the fault lasting: the unit is fenced and takes no more events. A
double-bit error in a tally record store, a pattern memory or a connection table stops the unit's partition at once, and its
reset is to follow. -/
def Obligations.ErrorsAreCounted : Prop :=
  ∀ (s : State) (cls n p : Nat) (unc : Bool), s.board.island = true → s.pwr.wstate < 3 →
    n < [512, 128, 128, 512, 16, 8, 17, 128].getD cls 0 →
    let c := if cls = 7 then 1 else cls
    let x := unitAt s c n
    let l := (s.tb, unc) :: x.events
    let stop : Prop := unc = true ∧ (cls = 2 ∨ cls = 7)
    (x.fenced = true → ¬ stop → exec (.errorReport cls n unc) s = .next s) ∧
    (x.fenced = false → lasting s l unc = false → ¬ stop → ∃ u, exec (.errorReport cls n unc) s = .next u ∧
      unitAt u c n = { x with events := l } ∧ u.parts = s.parts) ∧
    (x.fenced = false → lasting s l unc = true → ∃ u, exec (.errorReport cls n unc) s = .next u ∧
      (unitAt u c n).fenced = true ∧ (unitAt u c n).repair ≠ 0) ∧
    (stop → unitPart s c n = some p → (s.part p).live = true → ∃ u, exec (.errorReport cls n unc) s = .next u ∧
      (u.part p).faultReset = true) ∧
    (lasting s l true = true ↔ 2 ≤ (l.filter (fun e => e.2 && decide (s.tb < e.1 + 86400 * 10 ^ 9))).length) ∧
    (lasting s l false = true ↔ 3 ≤ (l.filter (fun e => !e.2 && decide (s.tb < e.1 + 600 * 10 ^ 9))).length)

/-- The cap loop and the hardware fast limit move the operating point. -/
def Obligations.CapLoopAndFastLimit : Prop :=
  Sys2Proof.Claims.CapLoopSteps ∧ Sys2Proof.Claims.FastLimitSlowsTheDie

/-- What losing power clears, and what the ledger charges. -/
def Obligations.PowerLossAndLedger : Prop :=
  Sys2Proof.Claims.PowerIsLost ∧ Sys2Proof.Claims.LedgerCharges

/-- Start-up runs its steps, and the module goes down and up the idle ladder. -/
def Obligations.StartUpAndIdle : Prop :=
  Sys2Proof.Claims.StartUpSteps ∧ Sys2Proof.Claims.IdleLadder

/-- The I3C target, and records that leave the trace collector. -/
def Obligations.BoardAndTrace : Prop :=
  Sys2Proof.Claims.I3cTarget ∧ Sys2Proof.Claims.TraceLeavesTheCollector
end

