-- ==== Sys2Proof/Laws/Within.lean ====
section
/-! SUPPORT. What a change of State leaves alone, part by part: the relation `Within`, kept by every update of the parts it
names. -/

namespace Sys2Proof.Laws
open Sys2Proof Sys2Proof.Machine

/-- `t` differs from `s` at most in the parts listed in `F`. -/
structure Within (F : List Field) (s t : State) : Prop where
  out : ∀ f, f ∉ F → same f s t

theorem same_refl (f : Field) (s : State) : same f s s := by cases f <;> rfl

theorem same_trans {f : Field} {s t u : State} (h : same f s t) (k : same f t u) : same f s u := by
  cases f <;> exact Eq.trans k h

theorem Within.refl (F : List Field) (s : State) : Within F s s := ⟨fun f _ => same_refl f s⟩

theorem Within.trans {F : List Field} {s t u : State} (h : Within F s t) (k : Within F t u) : Within F s u :=
  ⟨fun f m => same_trans (h.out f m) (k.out f m)⟩

theorem Within.mono {F G : List Field} {s t : State} (hF : F ⊆ G) (h : Within F s t) : Within G s t :=
  ⟨fun f m => h.out f (fun n => m (hF n))⟩

/-- A shorter list of parts within a longer one, decided by evaluation. -/
theorem sub {l m F : List Field} (h : l.all (fun f => decide (f ∈ m)) = true) (k : m ⊆ F) : l ⊆ F := by
  intro f hf
  exact k (by simpa using List.all_eq_true.mp h f hf)

theorem Within.snd {α : Type} {F : List Field} {s v : State} {p : α × State} {a : α} (e : p = (a, v))
    (h : Within F s p.2) : Within F s v := by subst e; exact h

theorem Within.fst {α : Type} {F : List Field} {s v : State} {p : State × α} {a : α} (e : p = (v, a))
    (h : Within F s p.1) : Within F s v := by subst e; exact h

theorem Within.ite {F : List Field} {s u v : State} {c : Prop} [Decidable c] (h : Within F s u) (k : Within F s v) :
    Within F s (if c then u else v) := by split <;> assumption

theorem Within.set_now {F : List Field} {s u : State} (hF : [Field.now] ⊆ F) (h : Within F s u)
    {a0 : _} : Within F s { u with now := a0 } := by
  refine ⟨fun f m => ?_⟩
  cases f <;> first | exact absurd (hF (by decide)) m | exact h.out _ m

theorem Within.set_tb {F : List Field} {s u : State} (hF : [Field.tb] ⊆ F) (h : Within F s u)
    {a0 : _} : Within F s { u with tb := a0 } := by
  refine ⟨fun f m => ?_⟩
  cases f <;> first | exact absurd (hF (by decide)) m | exact h.out _ m

theorem Within.set_tb_board {F : List Field} {s u : State} (hF : [Field.tb, Field.board] ⊆ F) (h : Within F s u)
    {a0 : _} {a1 : _} : Within F s { u with tb := a0, board := a1 } := by
  refine ⟨fun f m => ?_⟩
  cases f <;> first | exact absurd (hF (by decide)) m | exact h.out _ m

theorem Within.set_mem {F : List Field} {s u : State} (hF : [Field.mem] ⊆ F) (h : Within F s u)
    {a0 : _} : Within F s { u with mem := a0 } := by
  refine ⟨fun f m => ?_⟩
  cases f <;> first | exact absurd (hF (by decide)) m | exact h.out _ m

theorem Within.set_mem_bad {F : List Field} {s u : State} (hF : [Field.mem, Field.bad] ⊆ F) (h : Within F s u)
    {a0 : _} {a1 : _} : Within F s { u with mem := a0, bad := a1 } := by
  refine ⟨fun f m => ?_⟩
  cases f <;> first | exact absurd (hF (by decide)) m | exact h.out _ m

theorem Within.set_many16_board {F : List Field} {s u : State} (hF : [Field.mem, Field.bad, Field.cores, Field.benches, Field.flits, Field.arrivals, Field.ports, Field.welts, Field.streams, Field.clicker, Field.ring, Field.ringTurn, Field.ringSide, Field.pwr, Field.trc, Field.board] ⊆ F) (h : Within F s u)
    {a0 : _} {a1 : _} {a2 : _} {a3 : _} {a4 : _} {a5 : _} {a6 : _} {a7 : _} {a8 : _} {a9 : _} {a10 : _} {a11 : _} {a12 : _} {a13 : _} {a14 : _} {a15 : _} : Within F s { u with mem := a0, bad := a1, cores := a2, benches := a3, flits := a4, arrivals := a5, ports := a6, welts := a7, streams := a8, clicker := a9, ring := a10, ringTurn := a11, ringSide := a12, pwr := a13, trc := a14, board := a15 } := by
  refine ⟨fun f m => ?_⟩
  cases f <;> first | exact absurd (hF (by decide)) m | exact h.out _ m

theorem Within.set_many11_board {F : List Field} {s u : State} (hF : [Field.mem, Field.bad, Field.cores, Field.benches, Field.flits, Field.arrivals, Field.ports, Field.clicker, Field.ringTurn, Field.trc, Field.board] ⊆ F) (h : Within F s u)
    {a0 : _} {a1 : _} {a2 : _} {a3 : _} {a4 : _} {a5 : _} {a6 : _} {a7 : _} {a8 : _} {a9 : _} {a10 : _} : Within F s { u with mem := a0, bad := a1, cores := a2, benches := a3, flits := a4, arrivals := a5, ports := a6, clicker := a7, ringTurn := a8, trc := a9, board := a10 } := by
  refine ⟨fun f m => ?_⟩
  cases f <;> first | exact absurd (hF (by decide)) m | exact h.out _ m

theorem Within.set_mem_pwr_boot_board_faults {F : List Field} {s u : State} (hF : [Field.mem, Field.pwr, Field.boot, Field.board, Field.faults] ⊆ F) (h : Within F s u)
    {a0 : _} {a1 : _} {a2 : _} {a3 : _} {a4 : _} : Within F s { u with mem := a0, pwr := a1, boot := a2, board := a3, faults := a4 } := by
  refine ⟨fun f m => ?_⟩
  cases f <;> first | exact absurd (hF (by decide)) m | exact h.out _ m

theorem Within.set_bad {F : List Field} {s u : State} (hF : [Field.bad] ⊆ F) (h : Within F s u)
    {a0 : _} : Within F s { u with bad := a0 } := by
  refine ⟨fun f m => ?_⟩
  cases f <;> first | exact absurd (hF (by decide)) m | exact h.out _ m

theorem Within.set_cores {F : List Field} {s u : State} (hF : [Field.cores] ⊆ F) (h : Within F s u)
    {a0 : _} : Within F s { u with cores := a0 } := by
  refine ⟨fun f m => ?_⟩
  cases f <;> first | exact absurd (hF (by decide)) m | exact h.out _ m

theorem Within.set_benches {F : List Field} {s u : State} (hF : [Field.benches] ⊆ F) (h : Within F s u)
    {a0 : _} : Within F s { u with benches := a0 } := by
  refine ⟨fun f m => ?_⟩
  cases f <;> first | exact absurd (hF (by decide)) m | exact h.out _ m

theorem Within.set_flits {F : List Field} {s u : State} (hF : [Field.flits] ⊆ F) (h : Within F s u)
    {a0 : _} : Within F s { u with flits := a0 } := by
  refine ⟨fun f m => ?_⟩
  cases f <;> first | exact absurd (hF (by decide)) m | exact h.out _ m

theorem Within.set_arrivals {F : List Field} {s u : State} (hF : [Field.arrivals] ⊆ F) (h : Within F s u)
    {a0 : _} : Within F s { u with arrivals := a0 } := by
  refine ⟨fun f m => ?_⟩
  cases f <;> first | exact absurd (hF (by decide)) m | exact h.out _ m

theorem Within.set_ports {F : List Field} {s u : State} (hF : [Field.ports] ⊆ F) (h : Within F s u)
    {a0 : _} : Within F s { u with ports := a0 } := by
  refine ⟨fun f m => ?_⟩
  cases f <;> first | exact absurd (hF (by decide)) m | exact h.out _ m

theorem Within.set_welts {F : List Field} {s u : State} (hF : [Field.welts] ⊆ F) (h : Within F s u)
    {a0 : _} : Within F s { u with welts := a0 } := by
  refine ⟨fun f m => ?_⟩
  cases f <;> first | exact absurd (hF (by decide)) m | exact h.out _ m

theorem Within.set_streams {F : List Field} {s u : State} (hF : [Field.streams] ⊆ F) (h : Within F s u)
    {a0 : _} : Within F s { u with streams := a0 } := by
  refine ⟨fun f m => ?_⟩
  cases f <;> first | exact absurd (hF (by decide)) m | exact h.out _ m

theorem Within.set_parts {F : List Field} {s u : State} (hF : [Field.parts] ⊆ F) (h : Within F s u)
    {a0 : _} : Within F s { u with parts := a0 } := by
  refine ⟨fun f m => ?_⟩
  cases f <;> first | exact absurd (hF (by decide)) m | exact h.out _ m

theorem Within.set_clicker {F : List Field} {s u : State} (hF : [Field.clicker] ⊆ F) (h : Within F s u)
    {a0 : _} : Within F s { u with clicker := a0 } := by
  refine ⟨fun f m => ?_⟩
  cases f <;> first | exact absurd (hF (by decide)) m | exact h.out _ m

theorem Within.set_clicker_ring {F : List Field} {s u : State} (hF : [Field.clicker, Field.ring] ⊆ F) (h : Within F s u)
    {a0 : _} {a1 : _} : Within F s { u with clicker := a0, ring := a1 } := by
  refine ⟨fun f m => ?_⟩
  cases f <;> first | exact absurd (hF (by decide)) m | exact h.out _ m

theorem Within.set_clicker_ring_ringSide {F : List Field} {s u : State} (hF : [Field.clicker, Field.ring, Field.ringSide] ⊆ F) (h : Within F s u)
    {a0 : _} {a1 : _} {a2 : _} : Within F s { u with clicker := a0, ring := a1, ringSide := a2 } := by
  refine ⟨fun f m => ?_⟩
  cases f <;> first | exact absurd (hF (by decide)) m | exact h.out _ m

theorem Within.set_ring {F : List Field} {s u : State} (hF : [Field.ring] ⊆ F) (h : Within F s u)
    {a0 : _} : Within F s { u with ring := a0 } := by
  refine ⟨fun f m => ?_⟩
  cases f <;> first | exact absurd (hF (by decide)) m | exact h.out _ m

theorem Within.set_ring_ringTurn {F : List Field} {s u : State} (hF : [Field.ring, Field.ringTurn] ⊆ F) (h : Within F s u)
    {a0 : _} {a1 : _} : Within F s { u with ring := a0, ringTurn := a1 } := by
  refine ⟨fun f m => ?_⟩
  cases f <;> first | exact absurd (hF (by decide)) m | exact h.out _ m

theorem Within.set_ringSide {F : List Field} {s u : State} (hF : [Field.ringSide] ⊆ F) (h : Within F s u)
    {a0 : _} : Within F s { u with ringSide := a0 } := by
  refine ⟨fun f m => ?_⟩
  cases f <;> first | exact absurd (hF (by decide)) m | exact h.out _ m

theorem Within.set_fmn {F : List Field} {s u : State} (hF : [Field.fmn] ⊆ F) (h : Within F s u)
    {a0 : _} : Within F s { u with fmn := a0 } := by
  refine ⟨fun f m => ?_⟩
  cases f <;> first | exact absurd (hF (by decide)) m | exact h.out _ m

theorem Within.set_fmn_pwr {F : List Field} {s u : State} (hF : [Field.fmn, Field.pwr] ⊆ F) (h : Within F s u)
    {a0 : _} {a1 : _} : Within F s { u with fmn := a0, pwr := a1 } := by
  refine ⟨fun f m => ?_⟩
  cases f <;> first | exact absurd (hF (by decide)) m | exact h.out _ m

theorem Within.set_fmn_resets {F : List Field} {s u : State} (hF : [Field.fmn, Field.resets] ⊆ F) (h : Within F s u)
    {a0 : _} {a1 : _} : Within F s { u with fmn := a0, resets := a1 } := by
  refine ⟨fun f m => ?_⟩
  cases f <;> first | exact absurd (hF (by decide)) m | exact h.out _ m

theorem Within.set_pwr {F : List Field} {s u : State} (hF : [Field.pwr] ⊆ F) (h : Within F s u)
    {a0 : _} : Within F s { u with pwr := a0 } := by
  refine ⟨fun f m => ?_⟩
  cases f <;> first | exact absurd (hF (by decide)) m | exact h.out _ m

theorem Within.set_pwr_boot {F : List Field} {s u : State} (hF : [Field.pwr, Field.boot] ⊆ F) (h : Within F s u)
    {a0 : _} {a1 : _} : Within F s { u with pwr := a0, boot := a1 } := by
  refine ⟨fun f m => ?_⟩
  cases f <;> first | exact absurd (hF (by decide)) m | exact h.out _ m

theorem Within.set_pwr_board {F : List Field} {s u : State} (hF : [Field.pwr, Field.board] ⊆ F) (h : Within F s u)
    {a0 : _} {a1 : _} : Within F s { u with pwr := a0, board := a1 } := by
  refine ⟨fun f m => ?_⟩
  cases f <;> first | exact absurd (hF (by decide)) m | exact h.out _ m

theorem Within.set_boot {F : List Field} {s u : State} (hF : [Field.boot] ⊆ F) (h : Within F s u)
    {a0 : _} : Within F s { u with boot := a0 } := by
  refine ⟨fun f m => ?_⟩
  cases f <;> first | exact absurd (hF (by decide)) m | exact h.out _ m

theorem Within.set_boot_board {F : List Field} {s u : State} (hF : [Field.boot, Field.board] ⊆ F) (h : Within F s u)
    {a0 : _} {a1 : _} : Within F s { u with boot := a0, board := a1 } := by
  refine ⟨fun f m => ?_⟩
  cases f <;> first | exact absurd (hF (by decide)) m | exact h.out _ m

theorem Within.set_boot_free {F : List Field} {s u : State} (hF : [Field.boot, Field.free] ⊆ F) (h : Within F s u)
    {a0 : _} {a1 : _} : Within F s { u with boot := a0, free := a1 } := by
  refine ⟨fun f m => ?_⟩
  cases f <;> first | exact absurd (hF (by decide)) m | exact h.out _ m

theorem Within.set_trc {F : List Field} {s u : State} (hF : [Field.trc] ⊆ F) (h : Within F s u)
    {a0 : _} : Within F s { u with trc := a0 } := by
  refine ⟨fun f m => ?_⟩
  cases f <;> first | exact absurd (hF (by decide)) m | exact h.out _ m

theorem Within.set_board {F : List Field} {s u : State} (hF : [Field.board] ⊆ F) (h : Within F s u)
    {a0 : _} : Within F s { u with board := a0 } := by
  refine ⟨fun f m => ?_⟩
  cases f <;> first | exact absurd (hF (by decide)) m | exact h.out _ m

theorem Within.set_faults {F : List Field} {s u : State} (hF : [Field.faults] ⊆ F) (h : Within F s u)
    {a0 : _} : Within F s { u with faults := a0 } := by
  refine ⟨fun f m => ?_⟩
  cases f <;> first | exact absurd (hF (by decide)) m | exact h.out _ m

theorem Within.set_resets {F : List Field} {s u : State} (hF : [Field.resets] ⊆ F) (h : Within F s u)
    {a0 : _} : Within F s { u with resets := a0 } := by
  refine ⟨fun f m => ?_⟩
  cases f <;> first | exact absurd (hF (by decide)) m | exact h.out _ m

theorem Within.set_free {F : List Field} {s u : State} (hF : [Field.free] ⊆ F) (h : Within F s u)
    {a0 : _} : Within F s { u with free := a0 } := by
  refine ⟨fun f m => ?_⟩
  cases f <;> first | exact absurd (hF (by decide)) m | exact h.out _ m

theorem Within.set_pending {F : List Field} {s u : State} (hF : [Field.pending] ⊆ F) (h : Within F s u)
    {a0 : _} : Within F s { u with pending := a0 } := by
  refine ⟨fun f m => ?_⟩
  cases f <;> first | exact absurd (hF (by decide)) m | exact h.out _ m

theorem forAll_within {α : Type} {F : List Field} {s u : State} {l : List α} {f : α → State → State}
    (h : Within F s u) (hf : ∀ a v, Within F s v → Within F s (f a v)) : Within F s (forAll l f u) := by
  unfold forAll
  induction l generalizing u with
  | nil => exact h
  | cons a r ih => exact ih (hf a u h)

theorem Within.foldl {α : Type} {F : List Field} {s u : State} {l : List α} {f : State → α → State}
    (h : Within F s u) (hf : ∀ v, Within F s v → ∀ a, Within F s (f v a)) : Within F s (l.foldl f u) := by
  induction l generalizing u with
  | nil => exact h
  | cons a r ih => exact ih (hf u h a)

/-- The state the body of an instruction leaves. -/
def outState : Out → State
  | .ok e => e.s
  | .held s _ => s
  | .exc s _ _ => s
  | .done s => s

theorem Within.out_ok {F : List Field} {s : State} {e : Eff} (h : Within F s e.s) : Within F s (outState (.ok e)) := h
theorem Within.out_held {F : List Field} {s v : State} {w : Wait} (h : Within F s v) : Within F s (outState (.held v w)) := h
theorem Within.out_exc {F : List Field} {s v : State} {c : Nat} {i : Word} (h : Within F s v) : Within F s (outState (.exc v c i)) := h
theorem Within.out_done {F : List Field} {s v : State} (h : Within F s v) : Within F s (outState (.done v)) := h
theorem Within.of_ok {F : List Field} {s : State} {o : Out} {e : Eff} (k : o = .ok e) (h : Within F s (outState o)) :
    Within F s e.s := by subst k; exact h
theorem Within.of_held {F : List Field} {s v : State} {o : Out} {w : Wait} (k : o = .held v w) (h : Within F s (outState o)) :
    Within F s v := by subst k; exact h
theorem Within.of_exc {F : List Field} {s v : State} {o : Out} {c : Nat} {i : Word} (k : o = .exc v c i)
    (h : Within F s (outState o)) : Within F s v := by subst k; exact h
theorem Within.of_done {F : List Field} {s v : State} {o : Out} (k : o = .done v) (h : Within F s (outState o)) :
    Within F s v := by subst k; exact h

theorem ite_fst {α : Type} {F : List Field} {s : State} {c : Prop} [Decidable c] {p q : State × α} (h : Within F s p.1)
    (k : Within F s q.1) : Within F s (if c then p else q).1 := by split <;> assumption

theorem ite_wr {F : List Field} {s : State} {c : Prop} [Decidable c] {p q : Wr} (h : ∀ v, p = .ok v → Within F s v)
    (k : ∀ v, q = .ok v → Within F s v) : ∀ v, (if c then p else q) = .ok v → Within F s v := by split <;> assumption

/-- The state a beat leaves. -/
def beatState : Beat → State
  | .ok s _ => s
  | .fault s _ _ _ => s

theorem Within.mk_beat_ok {F : List Field} {s v : State} {o : TileOp} (h : Within F s v) : Within F s (beatState (.ok v o)) := h
theorem Within.mk_beat_fault {F : List Field} {s v : State} {o : TileOp} {c : Nat} {i : Word} (h : Within F s v) :
    Within F s (beatState (.fault v o c i)) := h
theorem Within.of_beat_ok {F : List Field} {s v : State} {b : Beat} {o : TileOp} (k : b = .ok v o)
    (h : Within F s (beatState b)) : Within F s v := by subst k; exact h
theorem Within.of_beat_fault {F : List Field} {s v : State} {b : Beat} {o : TileOp} {c : Nat} {i : Word} (k : b = .fault v o c i)
    (h : Within F s (beatState b)) : Within F s v := by subst k; exact h

/-- The state the micro-sequencer leaves. -/
def microState : MicroEnd → State
  | .done m => m.s
  | .fault m _ _ => m.s

end Sys2Proof.Laws
end

