-- ==== Sys2Proof/Laws/Footprint1.lean ====
section
/-! SUPPORT. One lemma per operation: the parts of State it may change. The list in each lemma is all of them. -/

namespace Sys2Proof.Laws
open Sys2Proof Sys2Proof.Machine

set_option linter.unusedTactic false
set_option linter.unreachableTactic false
set_option linter.unusedVariables false

theorem State_updBench_within {F : List Field} {s u : State} (hF : [Field.benches] ⊆ F) (h : Within F s u) (a1 : _) (a2 : _) :
    Within F s (State.updBench u a1 a2) := by
  unfold State.updBench
  try dsimp only
  repeat' (first
    | with_reducible exact h
    | with_reducible assumption
    | fail_if_no_progress with_reducible refine Within.set_benches (sub rfl hF) ?_)

theorem State_updChanOf_within {F : List Field} {s u : State} (hF : [Field.benches] ⊆ F) (h : Within F s u) (a1 : _) (a2 : _) (a3 : _) :
    Within F s (State.updChanOf u a1 a2 a3) := by
  unfold State.updChanOf
  try dsimp only
  repeat' (first
    | with_reducible exact h
    | with_reducible assumption
    | with_reducible refine State_updBench_within (sub rfl hF) ?_ _ _)

theorem State_updCore_within {F : List Field} {s u : State} (hF : [Field.cores] ⊆ F) (h : Within F s u) (a1 : _) (a2 : _) :
    Within F s (State.updCore u a1 a2) := by
  unfold State.updCore
  try dsimp only
  repeat' (first
    | with_reducible exact h
    | with_reducible assumption
    | fail_if_no_progress with_reducible refine Within.set_cores (sub rfl hF) ?_)

theorem State_updCtx_within {F : List Field} {s u : State} (hF : [Field.cores] ⊆ F) (h : Within F s u) (a1 : _) (a2 : _) :
    Within F s (State.updCtx u a1 a2) := by
  unfold State.updCtx
  try dsimp only
  repeat' (first
    | with_reducible exact h
    | with_reducible assumption
    | with_reducible refine State_updCore_within (sub rfl hF) ?_ _ _)

theorem State_updMbox_within {F : List Field} {s u : State} (hF : [Field.fmn] ⊆ F) (h : Within F s u) (a1 : _) (a2 : _) :
    Within F s (State.updMbox u a1 a2) := by
  unfold State.updMbox
  try dsimp only
  repeat' (first
    | with_reducible exact h
    | with_reducible assumption
    | fail_if_no_progress with_reducible refine Within.set_fmn (sub rfl hF) ?_)

theorem State_updPart_within {F : List Field} {s u : State} (hF : [Field.parts] ⊆ F) (h : Within F s u) (a1 : _) (a2 : _) :
    Within F s (State.updPart u a1 a2) := by
  unfold State.updPart
  try dsimp only
  repeat' (first
    | with_reducible exact h
    | with_reducible assumption
    | fail_if_no_progress with_reducible refine Within.set_parts (sub rfl hF) ?_)

theorem State_updPort_within {F : List Field} {s u : State} (hF : [Field.ports] ⊆ F) (h : Within F s u) (a1 : _) (a2 : _) :
    Within F s (State.updPort u a1 a2) := by
  unfold State.updPort
  try dsimp only
  repeat' (first
    | with_reducible exact h
    | with_reducible assumption
    | fail_if_no_progress with_reducible refine Within.set_ports (sub rfl hF) ?_)

theorem State_updQueueOf_within {F : List Field} {s u : State} (hF : [Field.benches] ⊆ F) (h : Within F s u) (a1 : _) (a2 : _) (a3 : _) :
    Within F s (State.updQueueOf u a1 a2 a3) := by
  unfold State.updQueueOf
  try dsimp only
  repeat' (first
    | with_reducible exact h
    | with_reducible assumption
    | with_reducible refine State_updBench_within (sub rfl hF) ?_ _ _)

theorem State_updSlotOf_within {F : List Field} {s u : State} (hF : [Field.benches] ⊆ F) (h : Within F s u) (a1 : _) (a2 : _) (a3 : _) :
    Within F s (State.updSlotOf u a1 a2 a3) := by
  unfold State.updSlotOf
  try dsimp only
  repeat' (first
    | with_reducible exact h
    | with_reducible assumption
    | with_reducible refine State_updBench_within (sub rfl hF) ?_ _ _)

theorem State_updStream_within {F : List Field} {s u : State} (hF : [Field.streams] ⊆ F) (h : Within F s u) (a1 : _) (a2 : _) :
    Within F s (State.updStream u a1 a2) := by
  unfold State.updStream
  try dsimp only
  repeat' (first
    | with_reducible exact h
    | with_reducible assumption
    | fail_if_no_progress with_reducible refine Within.set_streams (sub rfl hF) ?_)

theorem State_updWelt_within {F : List Field} {s u : State} (hF : [Field.welts] ⊆ F) (h : Within F s u) (a1 : _) (a2 : _) :
    Within F s (State.updWelt u a1 a2) := by
  unfold State.updWelt
  try dsimp only
  repeat' (first
    | with_reducible exact h
    | with_reducible assumption
    | fail_if_no_progress with_reducible refine Within.set_welts (sub rfl hF) ?_)

theorem State_withFetchWord_within {F : List Field} {s u : State} (hF : [Field.pending] ⊆ F) (h : Within F s u) (a1 : _) (a2 : _) :
    Within F s (State.withFetchWord u a1 a2) := by
  unfold State.withFetchWord
  try dsimp only
  repeat' (first
    | with_reducible exact h
    | with_reducible assumption
    | fail_if_no_progress with_reducible refine Within.set_pending (sub rfl hF) ?_
    | with_reducible refine Within.ite ?_ ?_
    | split)

theorem act_within {F : List Field} {s u : State} (hF : [Field.benches] ⊆ F) (h : Within F s u) (a0 : _) (a1 : _) (a2 : _) :
    Within F s (act a0 a1 a2 u) := by
  unfold act
  try dsimp only
  repeat' (first
    | with_reducible exact h
    | with_reducible assumption
    | with_reducible refine State_updBench_within (sub rfl hF) ?_ _ _)

theorem countSpin_within {F : List Field} {s u : State} (hF : [Field.cores, Field.benches] ⊆ F) (h : Within F s u) (a0 : _) (a1 : _) :
    Within F s (countSpin a0 a1 u) := by
  unfold countSpin
  try dsimp only
  repeat' (first
    | with_reducible exact h
    | with_reducible assumption
    | with_reducible refine act_within (sub rfl hF) ?_ _ _ _
    | with_reducible refine State_updCtx_within (sub rfl hF) ?_ _ _
    | with_reducible refine Within.ite ?_ ?_
    | split)

theorem count_within {F : List Field} {s u : State} (hF : [Field.benches] ⊆ F) (h : Within F s u) (a0 : _) (a1 : _) (a2 : _) :
    Within F s (count a0 a1 a2 u) := by
  unfold count
  try dsimp only
  repeat' (first
    | with_reducible exact h
    | with_reducible assumption
    | with_reducible refine State_updBench_within (sub rfl hF) ?_ _ _)

theorem oqPut_within {F : List Field} {s u : State} (hF : [Field.benches] ⊆ F) (h : Within F s u) (a0 : _) (a1 : _) :
    Within F s (oqPut a0 a1 u) := by
  unfold oqPut
  try dsimp only
  repeat' (first
    | with_reducible exact h
    | with_reducible assumption
    | with_reducible refine State_updBench_within (sub rfl hF) ?_ _ _)

theorem sendService_within {F : List Field} {s u : State} (hF : [Field.benches] ⊆ F) (h : Within F s u) (a0 : _) (a1 : _) (a2 : _) (a3 : _) (a4 : _) :
    Within F s (sendService a0 a1 a2 a3 a4 u) := by
  unfold sendService
  try dsimp only
  repeat' (first
    | with_reducible exact h
    | with_reducible assumption
    | with_reducible refine oqPut_within (sub rfl hF) ?_ _ _)

theorem ringPut_within {F : List Field} {s u : State} (hF : [Field.ring] ⊆ F) (h : Within F s u) (a0 : _) (a1 : _) (a2 : _) :
    Within F s (ringPut a0 a1 a2 u) := by
  unfold ringPut
  try dsimp only
  repeat' (first
    | with_reducible exact h
    | with_reducible assumption
    | fail_if_no_progress with_reducible refine Within.set_ring (sub rfl hF) ?_)

theorem setPend_within {F : List Field} {s u : State} (hF : [Field.cores] ⊆ F) (h : Within F s u) (a0 : _) (a1 : _) :
    Within F s (setPend a0 a1 u) := by
  unfold setPend
  try dsimp only
  repeat' (first
    | with_reducible exact h
    | with_reducible assumption
    | with_reducible refine State_updCore_within (sub rfl hF) ?_ _ _)

theorem syncWrite_within {F : List Field} {s u : State} (hF : [Field.cores, Field.benches] ⊆ F) (h : Within F s u) (a0 : _) (a1 : _) (a2 : _) :
    Within F s (syncWrite a0 a1 a2 u) := by
  unfold syncWrite
  try dsimp only
  repeat' (first
    | with_reducible exact h
    | with_reducible assumption
    | with_reducible refine setPend_within (sub rfl hF) ?_ _ _
    | with_reducible refine State_updBench_within (sub rfl hF) ?_ _ _
    | with_reducible refine Within.ite ?_ ?_)

theorem syncErr_within {F : List Field} {s u : State} (hF : [Field.cores, Field.benches, Field.ring] ⊆ F) (h : Within F s u) (a0 : _) (a1 : _) (a2 : _) (a3 : _) :
    Within F s (syncErr a0 a1 a2 a3 u) := by
  unfold syncErr
  try dsimp only
  repeat' (first
    | with_reducible exact h
    | with_reducible assumption
    | with_reducible refine syncWrite_within (sub rfl hF) ?_ _ _ _
    | with_reducible refine ringPut_within (sub rfl hF) ?_ _ _ _
    | with_reducible refine Within.ite ?_ ?_)

theorem toInbox_within {F : List Field} {s u : State} (hF : [Field.benches] ⊆ F) (h : Within F s u) (a0 : _) (a1 : _) (a2 : _) :
    Within F s (toInbox a0 a1 a2 u) := by
  unfold toInbox
  try dsimp only
  repeat' (first
    | with_reducible exact h
    | with_reducible assumption
    | with_reducible refine State_updBench_within (sub rfl hF) ?_ _ _)

theorem toSlice_within {F : List Field} {s u : State} (hF : [Field.benches] ⊆ F) (h : Within F s u) (a0 : _) (a1 : _) (a2 : _) (a3 : _) :
    Within F s (toSlice a0 a1 a2 a3 u) := by
  unfold toSlice
  try dsimp only
  repeat' (first
    | with_reducible exact h
    | with_reducible assumption
    | with_reducible refine State_updBench_within (sub rfl hF) ?_ _ _)

theorem sendTally_within {F : List Field} {s u : State} (hF : [Field.cores, Field.benches, Field.ring] ⊆ F) (h : Within F s u) (a0 : _) (a1 : _) (a2 : _) :
    Within F s (sendTally a0 a1 a2 u) := by
  unfold sendTally
  try dsimp only
  repeat' (first
    | with_reducible exact h
    | with_reducible assumption
    | with_reducible refine toSlice_within (sub rfl hF) ?_ _ _ _ _
    | with_reducible refine toInbox_within (sub rfl hF) ?_ _ _ _
    | with_reducible refine syncErr_within (sub rfl hF) ?_ _ _ _ _
    | with_reducible refine sendService_within (sub rfl hF) ?_ _ _ _ _ _
    | with_reducible refine count_within (sub rfl hF) ?_ _ _ _
    | with_reducible refine Within.ite ?_ ?_
    | split)

theorem abandon_within {F : List Field} {s u : State} (hF : [Field.cores, Field.benches, Field.ring] ⊆ F) (h : Within F s u) (a0 : _) :
    Within F s (abandon a0 u) := by
  unfold abandon
  try dsimp only
  repeat' (first
    | with_reducible exact h
    | with_reducible assumption
    | with_reducible refine sendTally_within (sub rfl hF) ?_ _ _ _
    | with_reducible refine countSpin_within (sub rfl hF) ?_ _ _
    | with_reducible refine State_updCtx_within (sub rfl hF) ?_ _ _
    | with_reducible refine Within.ite ?_ ?_
    | split)

theorem abortDesc_within {F : List Field} {s u : State} (hF : [Field.benches] ⊆ F) (h : Within F s u) (a0 : _) (a1 : _) :
    Within F s (abortDesc a0 a1 u) := by
  unfold abortDesc
  try dsimp only
  repeat' (first
    | with_reducible exact h
    | with_reducible assumption
    | with_reducible refine State_updSlotOf_within (sub rfl hF) ?_ _ _ _
    | with_reducible refine Within.ite ?_ ?_)

theorem abortAll_within {F : List Field} {s u : State} (hF : [Field.benches] ⊆ F) (h : Within F s u) (a0 : _) :
    Within F s (abortAll a0 u) := by
  unfold abortAll
  try dsimp only
  repeat' (first
    | with_reducible exact h
    | with_reducible assumption
    | with_reducible refine forAll_within ?_ ?_
    | with_reducible refine forAll_within (sub rfl hF) ?_ _ _
    | with_reducible refine abortDesc_within (sub rfl hF) ?_ _ _
    | with_reducible refine Within.ite ?_ ?_
    | split
    | intro)

theorem advance_within {F : List Field} {s u : State} (hF : [Field.cores, Field.free] ⊆ F) (h : Within F s u) (a0 : _) (a1 : _) :
    Within F s (advance a0 a1 u) := by
  unfold advance
  try dsimp only
  repeat' (first
    | with_reducible exact h
    | with_reducible assumption
    | fail_if_no_progress with_reducible refine Within.set_free (sub rfl hF) ?_
    | with_reducible refine State_updCtx_within (sub rfl hF) ?_ _ _
    | with_reducible refine Within.ite ?_ ?_)

theorem actLines_within {F : List Field} {s u : State} (hF : [Field.benches] ⊆ F) (h : Within F s u) (a0 : _) (a1 : _) :
    Within F s (actLines a0 a1 u) := by
  unfold actLines
  try dsimp only
  repeat' (first
    | with_reducible exact h
    | with_reducible assumption
    | with_reducible refine act_within (sub rfl hF) ?_ _ _ _
    | with_reducible refine Within.ite ?_ ?_
    | split)

theorem clearResv_within {F : List Field} {s u : State} (hF : [Field.cores] ⊆ F) (h : Within F s u) (a0 : _) (a1 : _) (a2 : _) :
    Within F s (clearResv a0 a1 a2 u) := by
  unfold clearResv
  try dsimp only
  repeat' (first
    | with_reducible exact h
    | with_reducible assumption
    | with_reducible refine forAll_within ?_ ?_
    | with_reducible refine forAll_within (sub rfl hF) ?_ _ _
    | with_reducible refine State_updCtx_within (sub rfl hF) ?_ _ _
    | with_reducible refine Within.ite ?_ ?_
    | split
    | intro)

theorem eccWrite_within {F : List Field} {s u : State} (hF : [Field.mem, Field.bad, Field.benches] ⊆ F) (h : Within F s u) (a1 : _) (a2 : _) :
    Within F s (eccWrite u a1 a2) := by
  unfold eccWrite
  try dsimp only
  repeat' (first
    | with_reducible exact h
    | with_reducible assumption
    | fail_if_no_progress with_reducible refine Within.set_mem_bad (sub rfl hF) ?_
    | with_reducible refine count_within (sub rfl hF) ?_ _ _ _
    | with_reducible refine Within.ite ?_ ?_
    | split)

theorem writeMask_within {F : List Field} {s u : State} (hF : [Field.mem, Field.bad, Field.cores, Field.benches] ⊆ F) (h : Within F s u) (a0 : _) (a1 : _) :
    Within F s (writeMask a0 a1 u) := by
  unfold writeMask
  try dsimp only
  repeat' (first
    | with_reducible exact h
    | with_reducible assumption
    | fail_if_no_progress with_reducible refine Within.set_mem (sub rfl hF) ?_
    | with_reducible refine eccWrite_within (sub rfl hF) ?_ _ _
    | with_reducible refine clearResv_within (sub rfl hF) ?_ _ _ _
    | with_reducible refine actLines_within (sub rfl hF) ?_ _ _
    | with_reducible refine Within.ite ?_ ?_
    | split)

theorem write_within {F : List Field} {s u : State} (hF : [Field.mem, Field.bad, Field.cores, Field.benches] ⊆ F) (h : Within F s u) (a0 : _) (a1 : _) :
    Within F s (write a0 a1 u) := by
  unfold write
  try dsimp only
  repeat' (first
    | with_reducible exact h
    | with_reducible assumption
    | with_reducible refine writeMask_within (sub rfl hF) ?_ _ _)

theorem spillWords_within {F : List Field} {s u : State} (hF : [Field.mem, Field.bad, Field.cores, Field.benches] ⊆ F) (h : Within F s u) (a0 : _) (a1 : _) (a2 : _) :
    Within F s (spillWords a0 a1 a2 u) := by
  induction a2 generalizing a1 u with
  | nil => exact h
  | cons w r ih =>
    unfold spillWords
    exact ih (write_within (sub rfl hF) h _ _) _

theorem pushOps_within {F : List Field} {s u : State} (hF : [Field.mem, Field.bad, Field.cores, Field.benches] ⊆ F) (h : Within F s u) (a0 : _) (a1 : _) (a2 : _) :
    Within F s (pushOps a0 a1 a2 u) := by
  unfold pushOps
  try dsimp only
  repeat' (first
    | with_reducible exact h
    | with_reducible assumption
    | with_reducible refine spillWords_within (sub rfl hF) ?_ _ _ _
    | with_reducible refine State_updCtx_within (sub rfl hF) ?_ _ _
    | with_reducible refine Within.ite ?_ ?_)

theorem pushRets_within {F : List Field} {s u : State} (hF : [Field.mem, Field.bad, Field.cores, Field.benches] ⊆ F) (h : Within F s u) (a0 : _) (a1 : _) (a2 : _) :
    Within F s (pushRets a0 a1 a2 u) := by
  unfold pushRets
  try dsimp only
  repeat' (first
    | with_reducible exact h
    | with_reducible assumption
    | with_reducible refine spillWords_within (sub rfl hF) ?_ _ _ _
    | with_reducible refine State_updCtx_within (sub rfl hF) ?_ _ _
    | with_reducible refine Within.ite ?_ ?_)

theorem complete_within {F : List Field} {s u : State} (hF : [Field.mem, Field.bad, Field.cores, Field.benches, Field.free] ⊆ F) (h : Within F s u) (a0 : _) (a1 : _) (a2 : _) (a3 : _) (a4 : _) (a5 : _) (a6 : _) :
    Within F s (complete a0 a1 a2 a3 a4 a5 a6 u) := by
  unfold complete
  try dsimp only
  repeat' (first
    | with_reducible exact h
    | with_reducible assumption
    | with_reducible refine pushRets_within (sub rfl hF) ?_ _ _ _
    | with_reducible refine pushOps_within (sub rfl hF) ?_ _ _ _
    | with_reducible refine advance_within (sub rfl hF) ?_ _ _
    | with_reducible refine State_updCtx_within (sub rfl hF) ?_ _ _
    | with_reducible refine Within.ite ?_ ?_
    | split)

theorem popHeld_within {F : List Field} {s u : State} (hF : [Field.mem, Field.bad, Field.cores, Field.benches, Field.free] ⊆ F) (h : Within F s u) (a0 : _) (a1 : _) :
    Within F s (popHeld a0 a1 u) := by
  unfold popHeld
  try dsimp only
  repeat' (first
    | with_reducible exact h
    | with_reducible assumption
    | with_reducible refine complete_within (sub rfl hF) ?_ _ _ _ _ _ _ _
    | with_reducible refine State_updCtx_within (sub rfl hF) ?_ _ _)

theorem suspendNow_within {F : List Field} {s u : State} (hF : [Field.cores] ⊆ F) (h : Within F s u) (a0 : _) :
    Within F s (suspendNow a0 u) := by
  unfold suspendNow
  try dsimp only
  repeat' (first
    | with_reducible exact h
    | with_reducible assumption
    | with_reducible refine State_updCtx_within (sub rfl hF) ?_ _ _)

theorem stopCheck_within {F : List Field} {s u : State} (hF : [Field.mem, Field.bad, Field.cores, Field.benches, Field.free] ⊆ F) (h : Within F s u) (a0 : _) (a1 : _) :
    Within F s (stopCheck a0 a1 u) := by
  induction a0 generalizing a1 u with
  | zero => exact h
  | succ n ih =>
    unfold stopCheck
    dsimp only
    refine Within.ite ?_ h
    refine forAll_within ?_ (fun i v hv => Within.ite (ih (popHeld_within (sub rfl hF) hv _ _) _) hv)
    exact Within.ite (suspendNow_within (sub rfl hF) h _) (State_updCtx_within (sub rfl hF) h _ _)

theorem completeHeld_within {F : List Field} {s u : State} (hF : [Field.mem, Field.bad, Field.cores, Field.benches, Field.free] ⊆ F) (h : Within F s u) (a0 : _) (a1 : _) :
    Within F s (completeHeld a0 a1 u) := by
  unfold completeHeld
  try dsimp only
  repeat' (first
    | with_reducible exact h
    | with_reducible assumption
    | with_reducible refine stopCheck_within (sub rfl hF) ?_ _ _
    | with_reducible refine popHeld_within (sub rfl hF) ?_ _ _)

theorem pushRecord_within {F : List Field} {s u : State} (hF : [Field.benches, Field.trc] ⊆ F) (h : Within F s u) (a0 : _) (a1 : _) (a2 : _) :
    Within F s (pushRecord a0 a1 a2 u) := by
  unfold pushRecord
  try dsimp only
  repeat' (first
    | with_reducible exact h
    | with_reducible assumption
    | fail_if_no_progress with_reducible refine Within.set_trc (sub rfl hF) ?_
    | with_reducible refine State_updBench_within (sub rfl hF) ?_ _ _
    | with_reducible refine Within.ite ?_ ?_)

theorem trace_within {F : List Field} {s u : State} (hF : [Field.benches, Field.trc] ⊆ F) (h : Within F s u) (a0 : _) (a1 : _) (a2 : _) (a3 : _) (a4 : _) (a5 : _) :
    Within F s (trace a0 a1 a2 a3 a4 a5 u) := by
  unfold trace
  try dsimp only
  repeat' (first
    | with_reducible exact h
    | with_reducible assumption
    | with_reducible refine pushRecord_within (sub rfl hF) ?_ _ _ _
    | with_reducible refine Within.ite ?_ ?_
    | split)

theorem traceSend_within {F : List Field} {s u : State} (hF : [Field.benches, Field.trc] ⊆ F) (h : Within F s u) (a0 : _) (a1 : _) (a2 : _) (a3 : _) (a4 : _) :
    Within F s (traceSend a0 a1 a2 a3 a4 u) := by
  unfold traceSend
  try dsimp only
  repeat' (first
    | with_reducible exact h
    | with_reducible assumption
    | with_reducible refine trace_within (sub rfl hF) ?_ _ _ _ _ _ _)

theorem endSends_within {F : List Field} {s u : State} (hF : [Field.mem, Field.bad, Field.cores, Field.benches, Field.trc, Field.free] ⊆ F) (h : Within F s u) (a0 : _) (a1 : _) (a2 : _) :
    Within F s (endSends a0 a1 a2 u) := by
  unfold endSends
  try dsimp only
  repeat' (first
    | with_reducible exact h
    | with_reducible assumption
    | with_reducible refine forAll_within ?_ ?_
    | with_reducible refine traceSend_within (sub rfl hF) ?_ _ _ _ _ _
    | with_reducible refine completeHeld_within (sub rfl hF) ?_ _ _
    | with_reducible refine forAll_within (sub rfl hF) ?_ _ _
    | with_reducible refine Within.ite ?_ ?_
    | split
    | intro)

theorem abortChan_within {F : List Field} {s u : State} (hF : [Field.mem, Field.bad, Field.cores, Field.benches, Field.trc, Field.free] ⊆ F) (h : Within F s u) (a0 : _) (a1 : _) :
    Within F s (abortChan a0 a1 u) := by
  unfold abortChan
  try dsimp only
  repeat' (first
    | with_reducible exact h
    | with_reducible assumption
    | with_reducible refine endSends_within (sub rfl hF) ?_ _ _ _
    | with_reducible refine State_updChanOf_within (sub rfl hF) ?_ _ _ _
    | with_reducible refine State_updBench_within (sub rfl hF) ?_ _ _
    | with_reducible refine Within.ite ?_ ?_)

theorem setConn_within {F : List Field} {s u : State} (hF : [Field.benches] ⊆ F) (h : Within F s u) (a0 : _) (a1 : _) (a2 : _) :
    Within F s (setConn a0 a1 a2 u) := by
  unfold setConn
  try dsimp only
  repeat' (first
    | with_reducible exact h
    | with_reducible assumption
    | with_reducible refine State_updBench_within (sub rfl hF) ?_ _ _)

theorem releasePaths_within {F : List Field} {s u : State} (hF : [Field.benches, Field.clicker] ⊆ F) (h : Within F s u) (a0 : _) (a1 : _) :
    Within F s (releasePaths a0 a1 u) := by
  unfold releasePaths
  try dsimp only
  repeat' (first
    | with_reducible exact h
    | with_reducible assumption
    | fail_if_no_progress with_reducible refine Within.set_clicker (sub rfl hF) ?_
    | with_reducible refine setConn_within (sub rfl hF) ?_ _ _ _
    | with_reducible refine Within.ite ?_ ?_)

theorem finishChan_within {F : List Field} {s u : State} (hF : [Field.benches, Field.clicker, Field.ring] ⊆ F) (h : Within F s u) (a0 : _) (a1 : _) (a2 : _) :
    Within F s (finishChan a0 a1 a2 u) := by
  unfold finishChan
  try dsimp only
  repeat' (first
    | with_reducible exact h
    | with_reducible assumption
    | with_reducible refine releasePaths_within (sub rfl hF) ?_ _ _
    | with_reducible refine ringPut_within (sub rfl hF) ?_ _ _ _
    | with_reducible refine State_updChanOf_within (sub rfl hF) ?_ _ _ _)

theorem channelDrain_within {F : List Field} {s u : State} (hF : [Field.benches, Field.clicker, Field.ring] ⊆ F) (h : Within F s u) (a0 : _) (a1 : _) :
    Within F s (channelDrain a0 a1 u) := by
  unfold channelDrain
  try dsimp only
  repeat' (first
    | with_reducible exact h
    | with_reducible assumption
    | with_reducible refine finishChan_within (sub rfl hF) ?_ _ _ _
    | with_reducible refine Within.ite ?_ ?_)

theorem abortOrDrain_within {F : List Field} {s u : State} (hF : [Field.mem, Field.bad, Field.cores, Field.benches, Field.clicker, Field.ring, Field.trc, Field.free] ⊆ F) (h : Within F s u) (a0 : _) (a1 : _) :
    Within F s (abortOrDrain a0 a1 u) := by
  unfold abortOrDrain
  try dsimp only
  repeat' (first
    | with_reducible exact h
    | with_reducible assumption
    | with_reducible refine channelDrain_within (sub rfl hF) ?_ _ _
    | with_reducible refine abortChan_within (sub rfl hF) ?_ _ _)

theorem abortOpen_within {F : List Field} {s u : State} (hF : [Field.mem, Field.bad, Field.cores, Field.benches, Field.clicker, Field.ring, Field.trc, Field.free] ⊆ F) (h : Within F s u) (a0 : _) (a1 : _) :
    Within F s (abortOpen a0 a1 u) := by
  unfold abortOpen
  try dsimp only
  repeat' (first
    | with_reducible exact h
    | with_reducible assumption
    | with_reducible refine abortOrDrain_within (sub rfl hF) ?_ _ _
    | with_reducible refine State_updChanOf_within (sub rfl hF) ?_ _ _ _
    | with_reducible refine Within.ite ?_ ?_)

theorem absorb_within {F : List Field} {s u : State} (hF : [Field.benches] ⊆ F) (h : Within F s u) (a0 : _) :
    Within F s (absorb a0 u) := by
  unfold absorb
  try dsimp only
  repeat' (first
    | with_reducible exact h
    | with_reducible assumption
    | with_reducible refine count_within (sub rfl hF) ?_ _ _ _)

theorem forgetPacket_within {F : List Field} {s u : State} (hF : [Field.welts, Field.streams] ⊆ F) (h : Within F s u) (a0 : _) (a1 : _) :
    Within F s (forgetPacket a0 a1 u) := by
  unfold forgetPacket
  try dsimp only
  repeat' (first
    | with_reducible exact h
    | with_reducible assumption
    | with_reducible refine forAll_within ?_ ?_
    | with_reducible refine forAll_within (sub rfl hF) ?_ _ _
    | with_reducible refine State_updWelt_within (sub rfl hF) ?_ _ _
    | with_reducible refine State_updStream_within (sub rfl hF) ?_ _ _
    | with_reducible refine Within.ite ?_ ?_
    | split
    | intro)

theorem updJob_within {F : List Field} {s u : State} (hF : [Field.parts] ⊆ F) (h : Within F s u) (a0 : _) (a1 : _) :
    Within F s (updJob a0 a1 u) := by
  unfold updJob
  try dsimp only
  repeat' (first
    | with_reducible exact h
    | with_reducible assumption
    | with_reducible refine State_updPart_within (sub rfl hF) ?_ _ _)

theorem jobOfCore_within {F : List Field} {s u : State} (hF : [Field.parts] ⊆ F) (h : Within F s u) (a0 : _) (a1 : _) :
    Within F s (jobOfCore a0 a1 u) := by
  unfold jobOfCore
  try dsimp only
  repeat' (first
    | with_reducible exact h
    | with_reducible assumption
    | with_reducible refine updJob_within (sub rfl hF) ?_ _ _
    | with_reducible refine Within.ite ?_ ?_
    | split)

theorem settleDesc_within {F : List Field} {s u : State} (hF : [Field.benches, Field.parts] ⊆ F) (h : Within F s u) (a0 : _) (a1 : _) :
    Within F s (settleDesc a0 a1 u) := by
  unfold settleDesc
  try dsimp only
  repeat' (first
    | with_reducible exact h
    | with_reducible assumption
    | with_reducible refine jobOfCore_within (sub rfl hF) ?_ _ _
    | with_reducible refine State_updSlotOf_within (sub rfl hF) ?_ _ _ _
    | with_reducible refine Within.ite ?_ ?_)

theorem absorbData_within {F : List Field} {s u : State} (hF : [Field.benches, Field.welts, Field.streams, Field.parts] ⊆ F) (h : Within F s u) (a0 : _) :
    Within F s (absorbData a0 u) := by
  unfold absorbData
  try dsimp only
  repeat' (first
    | with_reducible exact h
    | with_reducible assumption
    | with_reducible refine settleDesc_within (sub rfl hF) ?_ _ _
    | with_reducible refine forgetPacket_within (sub rfl hF) ?_ _ _
    | with_reducible refine absorb_within (sub rfl hF) ?_ _
    | with_reducible refine State_updSlotOf_within (sub rfl hF) ?_ _ _ _
    | with_reducible refine Within.ite ?_ ?_
    | split)

theorem answer_within {F : List Field} {s u : State} (hF : [Field.benches] ⊆ F) (h : Within F s u) (a0 : _) (a1 : _) (a2 : _) :
    Within F s (answer a0 a1 a2 u) := by
  unfold answer
  try dsimp only
  repeat' (first
    | with_reducible exact h
    | with_reducible assumption
    | with_reducible refine toInbox_within (sub rfl hF) ?_ _ _ _
    | with_reducible refine sendService_within (sub rfl hF) ?_ _ _ _ _ _
    | with_reducible refine Within.ite ?_ ?_)

theorem absorbTally_within {F : List Field} {s u : State} (hF : [Field.benches] ⊆ F) (h : Within F s u) (a0 : _) (a1 : _) :
    Within F s (absorbTally a0 a1 u) := by
  unfold absorbTally
  try dsimp only
  repeat' (first
    | with_reducible exact h
    | with_reducible assumption
    | with_reducible refine answer_within (sub rfl hF) ?_ _ _ _
    | with_reducible refine absorb_within (sub rfl hF) ?_ _
    | with_reducible refine Within.ite ?_ ?_
    | split)

theorem raise_within {F : List Field} {s u : State} (hF : [Field.fmn] ⊆ F) (h : Within F s u) (a0 : _) (a1 : _) :
    Within F s (raise a0 a1 u) := by
  unfold raise
  try dsimp only
  repeat' (first
    | with_reducible exact h
    | with_reducible assumption
    | fail_if_no_progress with_reducible refine Within.set_fmn (sub rfl hF) ?_)

theorem transmit_within {F : List Field} {s u : State} (hF : [Field.welts] ⊆ F) (h : Within F s u) (a0 : _) (a1 : _) (a2 : _) :
    Within F s (transmit a0 a1 a2 u) := by
  unfold transmit
  try dsimp only
  repeat' (first
    | with_reducible exact h
    | with_reducible assumption
    | with_reducible refine State_updWelt_within (sub rfl hF) ?_ _ _
    | with_reducible refine Within.ite ?_ ?_)

theorem sendMgmt_within {F : List Field} {s u : State} (hF : [Field.welts] ⊆ F) (h : Within F s u) (a0 : _) (a1 : _) (a2 : _) (a3 : _) (a4 : _) :
    Within F s (sendMgmt a0 a1 a2 a3 a4 u) := by
  unfold sendMgmt
  try dsimp only
  repeat' (first
    | with_reducible exact h
    | with_reducible assumption
    | with_reducible refine transmit_within (sub rfl hF) ?_ _ _ _
    | with_reducible refine Within.ite ?_ ?_
    | split)

theorem updSession_within {F : List Field} {s u : State} (hF : [Field.fmn] ⊆ F) (h : Within F s u) (a0 : _) (a1 : _) :
    Within F s (updSession a0 a1 u) := by
  unfold updSession
  try dsimp only
  repeat' (first
    | with_reducible exact h
    | with_reducible assumption
    | fail_if_no_progress with_reducible refine Within.set_fmn (sub rfl hF) ?_)

theorem pumpSession_within {F : List Field} {s u : State} (hF : [Field.welts, Field.fmn] ⊆ F) (h : Within F s u) (a0 : _) (a1 : _) :
    Within F s (pumpSession a0 a1 u) := by
  induction a1 generalizing u with
  | zero => exact h
  | succ n ih =>
    unfold pumpSession
    dsimp only
    split
    · exact h
    · refine Within.ite h (ih ?_)
      exact sendMgmt_within (sub rfl hF) (updSession_within (sub rfl hF) h _ _) _ _ _ _ _

theorem sendMsg_within {F : List Field} {s u : State} (hF : [Field.welts, Field.fmn] ⊆ F) (h : Within F s u) (a0 : _) (a1 : _) (a2 : _) (a3 : _) (a4 : _) :
    Within F s (sendMsg a0 a1 a2 a3 a4 u) := by
  unfold sendMsg
  try dsimp only
  repeat' (first
    | with_reducible exact h
    | with_reducible assumption
    | with_reducible refine pumpSession_within (sub rfl hF) ?_ _ _
    | with_reducible refine updSession_within (sub rfl hF) ?_ _ _)

theorem respond_within {F : List Field} {s u : State} (hF : [Field.welts, Field.fmn] ⊆ F) (h : Within F s u) (a0 : _) (a1 : _) (a2 : _) (a3 : _) :
    Within F s (respond a0 a1 a2 a3 u) := by
  unfold respond
  try dsimp only
  repeat' (first
    | with_reducible exact h
    | with_reducible assumption
    | with_reducible refine sendMsg_within (sub rfl hF) ?_ _ _ _ _ _
    | with_reducible refine raise_within (sub rfl hF) ?_ _ _
    | with_reducible refine State_updMbox_within (sub rfl hF) ?_ _ _
    | with_reducible refine Within.ite ?_ ?_
    | split)

theorem wake_within {F : List Field} {s u : State} (hF : [Field.pwr] ⊆ F) (h : Within F s u) :
    Within F s (wake u) := by
  unfold wake
  try dsimp only
  repeat' (first
    | with_reducible exact h
    | with_reducible assumption
    | fail_if_no_progress with_reducible refine Within.set_pwr (sub rfl hF) ?_
    | with_reducible refine Within.ite ?_ ?_)

theorem accept_within {F : List Field} {s u : State} (hF : [Field.welts, Field.fmn, Field.pwr] ⊆ F) (h : Within F s u) (a0 : _) :
    Within F s (accept a0 u) := by
  unfold accept
  try dsimp only
  repeat' (first
    | with_reducible exact h
    | with_reducible assumption
    | fail_if_no_progress with_reducible refine Within.set_fmn (sub rfl hF) ?_
    | with_reducible refine wake_within (sub rfl hF) ?_ 
    | with_reducible refine respond_within (sub rfl hF) ?_ _ _ _ _
    | with_reducible refine State_updMbox_within (sub rfl hF) ?_ _ _
    | with_reducible refine Within.ite ?_ ?_)

theorem logIn_within {F : List Field} {s u : State} (hF : [Field.fmn] ⊆ F) (h : Within F s u) (a0 : _) (a1 : _) :
    Within F s (logIn a0 a1 u) := by
  unfold logIn
  try dsimp only
  repeat' (first
    | with_reducible exact h
    | with_reducible assumption
    | fail_if_no_progress with_reducible refine Within.set_fmn (sub rfl hF) ?_
    | with_reducible refine raise_within (sub rfl hF) ?_ _ _
    | with_reducible refine Within.ite ?_ ?_)

theorem logEvent_within {F : List Field} {s u : State} (hF : [Field.fmn] ⊆ F) (h : Within F s u) (a0 : _) (a1 : _) (a2 : _) (a3 : _) :
    Within F s (logEvent a0 a1 a2 a3 u) := by
  unfold logEvent
  try dsimp only
  repeat' (first
    | with_reducible exact h
    | with_reducible assumption
    | with_reducible refine forAll_within ?_ ?_
    | with_reducible refine logIn_within (sub rfl hF) ?_ _ _
    | with_reducible refine forAll_within (sub rfl hF) ?_ _ _
    | with_reducible refine Within.ite ?_ ?_
    | split
    | intro)

theorem hostEvent_within {F : List Field} {s u : State} (hF : [Field.fmn] ⊆ F) (h : Within F s u) (a0 : _) (a1 : _) (a2 : _) (a3 : _) :
    Within F s (hostEvent a0 a1 a2 a3 u) := by
  unfold hostEvent
  try dsimp only
  repeat' (first
    | with_reducible exact h
    | with_reducible assumption
    | with_reducible refine logEvent_within (sub rfl hF) ?_ _ _ _ _)

theorem closeWins_within {F : List Field} {s u : State} (hF : [Field.ports] ⊆ F) (h : Within F s u) (a0 : _) (a1 : _) :
    Within F s (closeWins a0 a1 u) := by
  unfold closeWins
  try dsimp only
  repeat' (first
    | with_reducible exact h
    | with_reducible assumption
    | with_reducible refine State_updPort_within (sub rfl hF) ?_ _ _
    | with_reducible refine Within.ite ?_ ?_)

theorem ringWrite_within {F : List Field} {s u : State} (hF : [Field.mem, Field.bad, Field.cores, Field.benches, Field.ports] ⊆ F) (h : Within F s u) (a0 : _) (a1 : _) :
    Within F s (ringWrite a0 a1 u) := by
  unfold ringWrite
  try dsimp only
  repeat' (first
    | with_reducible exact h
    | with_reducible assumption
    | with_reducible refine closeWins_within (sub rfl hF) ?_ _ _
    | with_reducible refine write_within (sub rfl hF) ?_ _ _)

theorem acceptHost_within {F : List Field} {s u : State} (hF : [Field.mem, Field.bad, Field.cores, Field.benches, Field.ports, Field.fmn] ⊆ F) (h : Within F s u) (a0 : _) :
    Within F s (acceptHost a0 u) := by
  unfold acceptHost
  try dsimp only
  repeat' (first
    | with_reducible exact h
    | with_reducible assumption
    | with_reducible refine ringWrite_within (sub rfl hF) ?_ _ _
    | with_reducible refine hostEvent_within (sub rfl hF) ?_ _ _ _ _
    | with_reducible refine Within.ite ?_ ?_)

theorem itemAccepted_within {F : List Field} {s u : State} (hF : [Field.benches] ⊆ F) (h : Within F s u) (a0 : _) (a1 : _) :
    Within F s (itemAccepted a0 a1 u) := by
  unfold itemAccepted
  try dsimp only
  repeat' (first
    | with_reducible exact h
    | with_reducible assumption
    | with_reducible refine State_updBench_within (sub rfl hF) ?_ _ _)

theorem landed_within {F : List Field} {s u : State} (hF : [Field.benches, Field.parts] ⊆ F) (h : Within F s u) (a0 : _) (a1 : _) (a2 : _) :
    Within F s (landed a0 a1 a2 u) := by
  unfold landed
  try dsimp only
  repeat' (first
    | with_reducible exact h
    | with_reducible assumption
    | with_reducible refine settleDesc_within (sub rfl hF) ?_ _ _
    | with_reducible refine toSlice_within (sub rfl hF) ?_ _ _ _ _
    | with_reducible refine act_within (sub rfl hF) ?_ _ _ _
    | with_reducible refine State_updSlotOf_within (sub rfl hF) ?_ _ _ _
    | with_reducible refine Within.ite ?_ ?_)

theorem ringLanded_within {F : List Field} {s u : State} (hF : [Field.benches, Field.parts] ⊆ F) (h : Within F s u) (a0 : _) (a1 : _) (a2 : _) :
    Within F s (ringLanded a0 a1 a2 u) := by
  unfold ringLanded
  try dsimp only
  repeat' (first
    | with_reducible exact h
    | with_reducible assumption
    | with_reducible refine landed_within (sub rfl hF) ?_ _ _ _)

theorem takeFree_within {F : List Field} {s u : State} (hF : [Field.free] ⊆ F) (h : Within F s u) :
    Within F s (takeFree u).2 := by
  unfold takeFree
  try dsimp only
  repeat' (first
    | with_reducible exact h
    | with_reducible assumption
    | fail_if_no_progress with_reducible refine Within.set_free (sub rfl hF) ?_)

theorem txrow_within {F : List Field} {s u : State} (hF : [Field.free] ⊆ F) (h : Within F s u) (a0 : _) :
    Within F s (txrow a0 u).2 := by
  unfold txrow
  try dsimp only
  repeat' (first
    | with_reducible exact h
    | with_reducible assumption
    | with_reducible refine takeFree_within (sub rfl hF) ?_ 
    | refine Within.snd (by assumption) (takeFree_within (sub rfl hF) ?_ )
    | with_reducible refine Within.ite ?_ ?_
    | split)

theorem discardTile_within {F : List Field} {s u : State} (hF : [Field.cores, Field.free] ⊆ F) (h : Within F s u) (a0 : _) :
    Within F s (discardTile a0 u) := by
  unfold discardTile
  try dsimp only
  repeat' (first
    | with_reducible exact h
    | with_reducible assumption
    | with_reducible refine txrow_within (sub rfl hF) ?_ _
    | refine Within.snd (by assumption) (txrow_within (sub rfl hF) ?_ _)
    | with_reducible refine State_updCtx_within (sub rfl hF) ?_ _ _
    | with_reducible refine State_updCore_within (sub rfl hF) ?_ _ _
    | with_reducible refine Within.ite ?_ ?_
    | split)

theorem coreCount_within {F : List Field} {s u : State} (hF : [Field.benches, Field.parts] ⊆ F) (h : Within F s u) (a0 : _) (a1 : _) (a2 : _) :
    Within F s (coreCount a0 a1 a2 u) := by
  unfold coreCount
  try dsimp only
  repeat' (first
    | with_reducible exact h
    | with_reducible assumption
    | with_reducible refine jobOfCore_within (sub rfl hF) ?_ _ _
    | with_reducible refine count_within (sub rfl hF) ?_ _ _ _
    | with_reducible refine Within.ite ?_ ?_)

theorem sampleMma_within {F : List Field} {s u : State} (hF : [Field.cores, Field.benches] ⊆ F) (h : Within F s u) (a0 : _) (a1 : _) (a2 : _) (a3 : _) :
    Within F s (sampleMma a0 a1 a2 a3 u) := by
  unfold sampleMma
  extract_lets b k
  refine Within.ite h ?_
  extract_lets
  refine State_updCtx_within (sub rfl hF) (Within.foldl h (fun v hv p => ?_)) _ _
  exact Within.ite hv (Within.ite (count_within (sub rfl hF) hv _ _ _) (State_updCore_within (sub rfl hF) hv _ _))

theorem mmaCommit_within {F : List Field} {s u : State} (hF : [Field.cores, Field.benches, Field.parts] ⊆ F) (h : Within F s u) (a0 : _) (a1 : _) :
    Within F s (mmaCommit a0 a1 u) := by
  unfold mmaCommit
  try dsimp only
  repeat' (first
    | with_reducible exact h
    | with_reducible assumption
    | with_reducible refine sampleMma_within (sub rfl hF) ?_ _ _ _ _
    | with_reducible refine coreCount_within (sub rfl hF) ?_ _ _ _
    | with_reducible refine State_updCore_within (sub rfl hF) ?_ _ _
    | with_reducible refine Within.foldl ?_ ?_
    | with_reducible refine Within.ite ?_ ?_)

theorem tileRelease_within {F : List Field} {s u : State} (hF : [Field.mem, Field.bad, Field.cores, Field.benches, Field.free] ⊆ F) (h : Within F s u) (a0 : _) :
    Within F s (tileRelease a0 u) := by
  unfold tileRelease
  try dsimp only
  repeat' (first
    | with_reducible exact h
    | with_reducible assumption
    | with_reducible refine completeHeld_within (sub rfl hF) ?_ _ _
    | with_reducible refine State_updCore_within (sub rfl hF) ?_ _ _)

theorem mmaDone_within {F : List Field} {s u : State} (hF : [Field.mem, Field.bad, Field.cores, Field.benches, Field.parts, Field.free] ⊆ F) (h : Within F s u) (a0 : _) :
    Within F s (mmaDone a0 u) := by
  unfold mmaDone
  try dsimp only
  repeat' (first
    | with_reducible exact h
    | with_reducible assumption
    | with_reducible refine tileRelease_within (sub rfl hF) ?_ _
    | with_reducible refine mmaCommit_within (sub rfl hF) ?_ _ _
    | with_reducible refine Within.ite ?_ ?_
    | split)

theorem tileCommit_within {F : List Field} {s u : State} (hF : [Field.cores, Field.benches, Field.parts] ⊆ F) (h : Within F s u) (a0 : _) (a1 : _) :
    Within F s (tileCommit a0 a1 u) := by
  unfold tileCommit
  try dsimp only
  repeat' (first
    | with_reducible exact h
    | with_reducible assumption
    | with_reducible refine coreCount_within (sub rfl hF) ?_ _ _ _
    | with_reducible refine State_updCtx_within (sub rfl hF) ?_ _ _
    | with_reducible refine Within.ite ?_ ?_
    | split)

theorem tileDone_within {F : List Field} {s u : State} (hF : [Field.mem, Field.bad, Field.cores, Field.benches, Field.parts, Field.free] ⊆ F) (h : Within F s u) (a0 : _) :
    Within F s (tileDone a0 u) := by
  unfold tileDone
  try dsimp only
  repeat' (first
    | with_reducible exact h
    | with_reducible assumption
    | with_reducible refine tileCommit_within (sub rfl hF) ?_ _ _
    | with_reducible refine tileRelease_within (sub rfl hF) ?_ _
    | with_reducible refine Within.ite ?_ ?_
    | split)

theorem settleTile_within {F : List Field} {s u : State} (hF : [Field.mem, Field.bad, Field.cores, Field.benches, Field.parts, Field.free] ⊆ F) (h : Within F s u) (a0 : _) :
    Within F s (settleTile a0 u) := by
  unfold settleTile
  try dsimp only
  repeat' (first
    | with_reducible exact h
    | with_reducible assumption
    | with_reducible refine tileDone_within (sub rfl hF) ?_ _
    | with_reducible refine mmaDone_within (sub rfl hF) ?_ _)

theorem yieldHeld_within {F : List Field} {s u : State} (hF : [Field.mem, Field.bad, Field.cores, Field.benches, Field.parts, Field.ring, Field.free] ⊆ F) (h : Within F s u) (a0 : _) :
    ∀ v, yieldHeld a0 u = some v → Within F s v.1 := by
  intro v e
  unfold yieldHeld at e
  try dsimp only at e
  repeat' split at e
  all_goals (try contradiction)
  all_goals (first | cases e | skip)
  all_goals repeat' (first | with_reducible exact h | with_reducible assumption | with_reducible refine settleTile_within (sub rfl hF) ?_ _ | with_reducible refine discardTile_within (sub rfl hF) ?_ _ | with_reducible refine abandon_within (sub rfl hF) ?_ _ | with_reducible refine Within.ite ?_ ?_ | split | intro)

theorem askStop_within {F : List Field} {s u : State} (hF : [Field.mem, Field.bad, Field.cores, Field.benches, Field.parts, Field.ring, Field.free] ⊆ F) (h : Within F s u) (a0 : _) :
    Within F s (askStop a0 u) := by
  unfold askStop
  try dsimp only
  repeat' (first
    | with_reducible exact h
    | with_reducible assumption
    | refine yieldHeld_within (sub rfl hF) ?_ _ (_, _) (by assumption)
    | refine yieldHeld_within (sub rfl hF) ?_ _ _ (by assumption)
    | with_reducible refine suspendNow_within (sub rfl hF) ?_ _
    | with_reducible refine State_updCtx_within (sub rfl hF) ?_ _ _
    | with_reducible refine Within.ite ?_ ?_
    | split)

theorem addFrameTime_within {F : List Field} {s u : State} (hF : [Field.parts] ⊆ F) (h : Within F s u) (a0 : _) :
    Within F s (addFrameTime a0 u) := by
  unfold addFrameTime
  try dsimp only
  repeat' (first
    | with_reducible exact h
    | with_reducible assumption
    | with_reducible refine State_updPart_within (sub rfl hF) ?_ _ _)

theorem discardCtx_within {F : List Field} {s u : State} (hF : [Field.cores] ⊆ F) (h : Within F s u) (a0 : _) :
    Within F s (discardCtx a0 u) := by
  unfold discardCtx
  try dsimp only
  repeat' (first
    | with_reducible exact h
    | with_reducible assumption
    | with_reducible refine State_updCtx_within (sub rfl hF) ?_ _ _
    | with_reducible refine Within.ite ?_ ?_)

theorem spinDown_within {F : List Field} {s u : State} (hF : [Field.parts] ⊆ F) (h : Within F s u) (a0 : _) :
    Within F s (spinDown a0 u) := by
  unfold spinDown
  try dsimp only
  repeat' (first
    | with_reducible exact h
    | with_reducible assumption
    | with_reducible refine State_updPart_within (sub rfl hF) ?_ _ _)

theorem touch_within {F : List Field} {s u : State} (hF : [Field.pwr] ⊆ F) (h : Within F s u) :
    Within F s (touch u) := by
  unfold touch
  try dsimp only
  repeat' (first
    | with_reducible exact h
    | with_reducible assumption
    | fail_if_no_progress with_reducible refine Within.set_pwr (sub rfl hF) ?_)

theorem jobEnd_within {F : List Field} {s u : State} (hF : [Field.benches, Field.welts, Field.parts, Field.fmn, Field.pwr] ⊆ F) (h : Within F s u) (a0 : _) (a1 : _) (a2 : _) :
    Within F s (jobEnd a0 a1 a2 u) := by
  unfold jobEnd
  try dsimp only
  repeat' (first
    | with_reducible exact h
    | with_reducible assumption
    | with_reducible refine forAll_within ?_ ?_
    | with_reducible refine touch_within (sub rfl hF) ?_ 
    | with_reducible refine spinDown_within (sub rfl hF) ?_ _
    | with_reducible refine logEvent_within (sub rfl hF) ?_ _ _ _ _
    | with_reducible refine respond_within (sub rfl hF) ?_ _ _ _ _
    | with_reducible refine forAll_within (sub rfl hF) ?_ _ _
    | with_reducible refine State_updPart_within (sub rfl hF) ?_ _ _
    | with_reducible refine State_updBench_within (sub rfl hF) ?_ _ _
    | with_reducible refine Within.foldl ?_ ?_
    | with_reducible refine Within.ite ?_ ?_
    | split
    | intro)

theorem endAll_within {F : List Field} {s u : State} (hF : [Field.benches, Field.welts, Field.parts, Field.fmn, Field.pwr] ⊆ F) (h : Within F s u) (a0 : _) (a1 : _) :
    Within F s (endAll a0 a1 u) := by
  unfold endAll
  try dsimp only
  repeat' (first
    | with_reducible exact h
    | with_reducible assumption
    | with_reducible refine forAll_within ?_ ?_
    | with_reducible refine jobEnd_within (sub rfl hF) ?_ _ _ _
    | with_reducible refine forAll_within (sub rfl hF) ?_ _ _
    | with_reducible refine Within.ite ?_ ?_
    | split
    | intro)

theorem forCtxs_within {F : List Field} {s u : State} (hF : [] ⊆ F) (h : Within F s u) {f : Thread → State → State}
    (hf : ∀ t v, Within F s v → Within F s (f t v)) (a0 : _) : Within F s (forCtxs a0 f u) :=
  forAll_within h (fun c _ hv => forAll_within hv (fun i w hw => hf ⟨c, i⟩ w hw))

theorem finishDiscard_within {F : List Field} {s u : State} (hF : [Field.cores, Field.benches, Field.welts, Field.parts, Field.fmn, Field.pwr] ⊆ F) (h : Within F s u) (a0 : _) :
    Within F s (finishDiscard a0 u) := by
  unfold finishDiscard
  try dsimp only
  repeat' (first
    | with_reducible exact h
    | with_reducible assumption
    | with_reducible refine forCtxs_within (sub rfl hF) ?_ ?_ _
    | with_reducible refine endAll_within (sub rfl hF) ?_ _ _
    | with_reducible refine jobEnd_within (sub rfl hF) ?_ _ _ _
    | with_reducible refine discardCtx_within (sub rfl hF) ?_ _
    | with_reducible refine addFrameTime_within (sub rfl hF) ?_ _
    | with_reducible refine State_updPart_within (sub rfl hF) ?_ _ _
    | with_reducible refine Within.ite ?_ ?_
    | split
    | intro)

theorem discardFrame_within {F : List Field} {s u : State} (hF : [Field.mem, Field.bad, Field.cores, Field.benches, Field.welts, Field.parts, Field.ring, Field.fmn, Field.pwr, Field.free] ⊆ F) (h : Within F s u) (a0 : _) (a1 : _) :
    Within F s (discardFrame a0 a1 u) := by
  unfold discardFrame
  try dsimp only
  repeat' (first
    | with_reducible exact h
    | with_reducible assumption
    | with_reducible refine forAll_within ?_ ?_
    | with_reducible refine finishDiscard_within (sub rfl hF) ?_ _
    | with_reducible refine forCtxs_within (sub rfl hF) ?_ ?_ _
    | with_reducible refine askStop_within (sub rfl hF) ?_ _
    | with_reducible refine abortAll_within (sub rfl hF) ?_ _
    | with_reducible refine forAll_within (sub rfl hF) ?_ _ _
    | with_reducible refine State_updPart_within (sub rfl hF) ?_ _ _
    | with_reducible refine Within.ite ?_ ?_
    | split
    | intro)

theorem faultJobs_within {F : List Field} {s u : State} (hF : [Field.parts] ⊆ F) (h : Within F s u) (a0 : _) :
    Within F s (faultJobs a0 u) := by
  unfold faultJobs
  try dsimp only
  repeat' (first
    | with_reducible exact h
    | with_reducible assumption
    | with_reducible refine State_updPart_within (sub rfl hF) ?_ _ _)

theorem logMerged_within {F : List Field} {s u : State} (hF : [Field.fmn] ⊆ F) (h : Within F s u) (a0 : _) (a1 : _) (a2 : _) (a3 : _) :
    Within F s (logMerged a0 a1 a2 a3 u) := by
  unfold logMerged
  try dsimp only
  repeat' (first
    | with_reducible exact h
    | with_reducible assumption
    | fail_if_no_progress with_reducible refine Within.set_fmn (sub rfl hF) ?_
    | with_reducible refine forAll_within ?_ ?_
    | with_reducible refine logIn_within (sub rfl hF) ?_ _ _
    | with_reducible refine forAll_within (sub rfl hF) ?_ _ _
    | with_reducible refine Within.ite ?_ ?_
    | split
    | intro)

theorem frameEnd_within {F : List Field} {s u : State} (hF : [Field.cores, Field.benches, Field.welts, Field.parts, Field.fmn, Field.pwr] ⊆ F) (h : Within F s u) (a0 : _) :
    Within F s (frameEnd a0 u) := by
  unfold frameEnd
  try dsimp only
  repeat' (first
    | with_reducible exact h
    | with_reducible assumption
    | with_reducible refine forAll_within ?_ ?_
    | with_reducible refine logMerged_within (sub rfl hF) ?_ _ _ _ _
    | with_reducible refine finishDiscard_within (sub rfl hF) ?_ _
    | with_reducible refine endAll_within (sub rfl hF) ?_ _ _
    | with_reducible refine jobEnd_within (sub rfl hF) ?_ _ _ _
    | with_reducible refine addFrameTime_within (sub rfl hF) ?_ _
    | with_reducible refine abortAll_within (sub rfl hF) ?_ _
    | with_reducible refine forAll_within (sub rfl hF) ?_ _ _
    | with_reducible refine State_updPart_within (sub rfl hF) ?_ _ _
    | with_reducible refine Within.ite ?_ ?_
    | split
    | intro)

theorem stopNow_within {F : List Field} {s u : State} (hF : [Field.mem, Field.bad, Field.cores, Field.benches, Field.welts, Field.parts, Field.ring, Field.fmn, Field.pwr, Field.free] ⊆ F) (h : Within F s u) (a0 : _) :
    Within F s (stopNow a0 u) := by
  unfold stopNow
  try dsimp only
  repeat' (first
    | with_reducible exact h
    | with_reducible assumption
    | with_reducible refine frameEnd_within (sub rfl hF) ?_ _
    | with_reducible refine faultJobs_within (sub rfl hF) ?_ _
    | with_reducible refine discardFrame_within (sub rfl hF) ?_ _ _
    | with_reducible refine endAll_within (sub rfl hF) ?_ _ _
    | with_reducible refine State_updPart_within (sub rfl hF) ?_ _ _
    | with_reducible refine Within.ite ?_ ?_)

theorem ringRefused_within {F : List Field} {s u : State} (hF : [Field.mem, Field.bad, Field.cores, Field.benches, Field.welts, Field.parts, Field.ring, Field.fmn, Field.pwr, Field.free] ⊆ F) (h : Within F s u) (a0 : _) :
    Within F s (ringRefused a0 u) := by
  unfold ringRefused
  try dsimp only
  repeat' (first
    | with_reducible exact h
    | with_reducible assumption
    | with_reducible refine stopNow_within (sub rfl hF) ?_ _
    | with_reducible refine Within.ite ?_ ?_
    | split)

theorem ringWriteMask_within {F : List Field} {s u : State} (hF : [Field.mem, Field.bad, Field.cores, Field.benches, Field.ports] ⊆ F) (h : Within F s u) (a0 : _) (a1 : _) :
    Within F s (ringWriteMask a0 a1 u) := by
  unfold ringWriteMask
  try dsimp only
  repeat' (first
    | with_reducible exact h
    | with_reducible assumption
    | with_reducible refine closeWins_within (sub rfl hF) ?_ _ _
    | with_reducible refine writeMask_within (sub rfl hF) ?_ _ _)

theorem acceptWrite_within {F : List Field} {s u : State} (hF : [Field.mem, Field.bad, Field.cores, Field.benches, Field.ports, Field.welts, Field.parts, Field.ring, Field.fmn, Field.pwr, Field.free] ⊆ F) (h : Within F s u) (a0 : _) (a1 : _) (a2 : _) (a3 : _) (a4 : _) (a5 : _) (a6 : _) :
    Within F s (acceptWrite a0 a1 a2 a3 a4 a5 a6 u) := by
  unfold acceptWrite
  try dsimp only
  repeat' (first
    | with_reducible exact h
    | with_reducible assumption
    | with_reducible refine ringWriteMask_within (sub rfl hF) ?_ _ _
    | with_reducible refine ringRefused_within (sub rfl hF) ?_ _
    | with_reducible refine ringLanded_within (sub rfl hF) ?_ _ _ _
    | with_reducible refine itemAccepted_within (sub rfl hF) ?_ _ _
    | with_reducible refine Within.ite ?_ ?_
    | split)

theorem settleSlips_within {F : List Field} {s u : State} (hF : [Field.ports] ⊆ F) (h : Within F s u) (a0 : _) :
    Within F s (settleSlips a0 u) := by
  unfold settleSlips
  try dsimp only
  repeat' (first
    | with_reducible exact h
    | with_reducible assumption
    | with_reducible refine State_updPort_within (sub rfl hF) ?_ _ _)

theorem accessDone_within {F : List Field} {s u : State} (hF : [Field.ports] ⊆ F) (h : Within F s u) (a0 : _) (a1 : _) (a2 : _) :
    Within F s (accessDone a0 a1 a2 u) := by
  unfold accessDone
  try dsimp only
  repeat' (first
    | with_reducible exact h
    | with_reducible assumption
    | with_reducible refine settleSlips_within (sub rfl hF) ?_ _
    | with_reducible refine State_updPort_within (sub rfl hF) ?_ _ _
    | with_reducible refine Within.ite ?_ ?_
    | split)

theorem putRow_within {F : List Field} {s u : State} (hF : [Field.cores] ⊆ F) (h : Within F s u) (a0 : _) (a1 : _) (a2 : _) (a3 : _) :
    Within F s (putRow a0 a1 a2 a3 u) := by
  unfold putRow
  try dsimp only
  repeat' (first
    | with_reducible exact h
    | with_reducible assumption
    | with_reducible refine State_updCore_within (sub rfl hF) ?_ _ _)

theorem accrdRow_within {F : List Field} {s u : State} (hF : [Field.cores] ⊆ F) (h : Within F s u) (a0 : _) (a1 : _) (a3 : _) :
    Within F s (beatState (accrdRow a0 a1 u a3)) := by
  unfold accrdRow
  try dsimp only
  repeat' (first
    | with_reducible exact h
    | with_reducible assumption
    | with_reducible refine putRow_within (sub rfl hF) ?_ _ _ _ _
    | with_reducible refine Within.mk_beat_ok ?_
    | with_reducible refine Within.mk_beat_fault ?_
    | with_reducible refine Within.foldl ?_ ?_
    | with_reducible refine Within.ite ?_ ?_
    | split)

theorem accz_within {F : List Field} {s u : State} (hF : [Field.cores] ⊆ F) (h : Within F s u) (a0 : _) (a1 : _) :
    Within F s (accz a0 a1 u) := by
  unfold accz
  try dsimp only
  repeat' (first
    | with_reducible exact h
    | with_reducible assumption
    | with_reducible refine State_updCore_within (sub rfl hF) ?_ _ _)

theorem sendAck_within {F : List Field} {s u : State} (hF : [Field.welts, Field.streams] ⊆ F) (h : Within F s u) (a0 : _) (a1 : _) :
    Within F s (sendAck a0 a1 u) := by
  unfold sendAck
  try dsimp only
  repeat' (first
    | with_reducible exact h
    | with_reducible assumption
    | with_reducible refine transmit_within (sub rfl hF) ?_ _ _ _
    | with_reducible refine State_updStream_within (sub rfl hF) ?_ _ _)

theorem sessionAck_within {F : List Field} {s u : State} (hF : [Field.welts, Field.fmn] ⊆ F) (h : Within F s u) (a0 : _) (a1 : _) :
    Within F s (sessionAck a0 a1 u) := by
  unfold sessionAck
  try dsimp only
  repeat' (first
    | with_reducible exact h
    | with_reducible assumption
    | with_reducible refine updSession_within (sub rfl hF) ?_ _ _
    | with_reducible refine transmit_within (sub rfl hF) ?_ _ _ _)

theorem ackTimer_within {F : List Field} {s u : State} (hF : [Field.welts, Field.streams, Field.fmn] ⊆ F) (h : Within F s u) (a0 : _) :
    Within F s (ackTimer a0 u) := by
  unfold ackTimer
  try dsimp only
  repeat' (first
    | with_reducible exact h
    | with_reducible assumption
    | with_reducible refine sessionAck_within (sub rfl hF) ?_ _ _
    | with_reducible refine sendAck_within (sub rfl hF) ?_ _ _
    | with_reducible refine Within.ite ?_ ?_)

theorem recordCont_within {F : List Field} {s u : State} (hF : [Field.benches, Field.fmn, Field.trc] ⊆ F) (h : Within F s u) (a0 : _) (a1 : _) (a2 : _) (a3 : _) :
    Within F s (recordCont a0 a1 a2 a3 u) := by
  unfold recordCont
  try dsimp only
  repeat' (first
    | with_reducible exact h
    | with_reducible assumption
    | with_reducible refine logEvent_within (sub rfl hF) ?_ _ _ _ _
    | with_reducible refine trace_within (sub rfl hF) ?_ _ _ _ _ _ _
    | with_reducible refine State_updBench_within (sub rfl hF) ?_ _ _
    | with_reducible refine Within.ite ?_ ?_
    | split)

theorem memCont_within {F : List Field} {s u : State} (hF : [Field.benches, Field.fmn, Field.trc] ⊆ F) (h : Within F s u) (a0 : _) (a1 : _) (a2 : _) :
    Within F s (memCont a0 a1 a2 u) := by
  unfold memCont
  try dsimp only
  repeat' (first
    | with_reducible exact h
    | with_reducible assumption
    | with_reducible refine recordCont_within (sub rfl hF) ?_ _ _ _ _
    | with_reducible refine count_within (sub rfl hF) ?_ _ _ _
    | with_reducible refine Within.ite ?_ ?_
    | split)

theorem noteRead_within {F : List Field} {s u : State} (hF : [Field.bad, Field.benches] ⊆ F) (h : Within F s u) (a0 : _) (a1 : _) :
    Within F s (noteRead a0 a1 u) := by
  unfold noteRead
  try dsimp only
  repeat' (first
    | with_reducible exact h
    | with_reducible assumption
    | fail_if_no_progress with_reducible refine Within.set_bad (sub rfl hF) ?_
    | with_reducible refine actLines_within (sub rfl hF) ?_ _ _
    | with_reducible refine count_within (sub rfl hF) ?_ _ _ _
    | with_reducible refine Within.ite ?_ ?_
    | split)

theorem readRow_within {F : List Field} {s u : State} (hF : [Field.bad, Field.benches, Field.fmn, Field.trc] ⊆ F) (h : Within F s u) {k : List Byte → State → TileOp → Beat}
    (hk : ∀ l v o, Within F s v → Within F s (beatState (k l v o))) (t : Thread) (a : Nat) (p : List (Nat × Nat)) (o : TileOp) :
    Within F s (beatState (readRow t a p u o k)) := by
  unfold readRow
  dsimp only
  split
  · exact h
  split
  · exact Within.mk_beat_fault (memCont_within (sub rfl hF) h _ _ _)
  · exact hk _ _ _ (forAll_within h (fun _ _ hv => noteRead_within (sub rfl hF) hv _ _))

theorem actLoad_within {F : List Field} {s u : State} (hF : [Field.bad, Field.cores, Field.benches, Field.fmn, Field.trc] ⊆ F) (h : Within F s u) (a0 : _) (a1 : _) (a3 : _) :
    Within F s (beatState (actLoad a0 a1 u a3)) := by
  unfold actLoad
  try dsimp only
  repeat' (first
    | with_reducible exact h
    | with_reducible assumption
    | with_reducible refine readRow_within (sub rfl hF) ?_ ?_ _ _ _ _
    | refine Within.of_beat_ok (by assumption) (readRow_within (sub rfl hF) ?_ ?_ _ _ _ _)
    | refine Within.of_beat_fault (by assumption) (readRow_within (sub rfl hF) ?_ ?_ _ _ _ _)
    | with_reducible refine State_updCore_within (sub rfl hF) ?_ _ _
    | with_reducible refine Within.mk_beat_ok ?_
    | with_reducible refine Within.mk_beat_fault ?_
    | with_reducible refine Within.ite ?_ ?_
    | split
    | intro)

theorem putLanes_within {F : List Field} {s u : State} (hF : [Field.cores] ⊆ F) (h : Within F s u) (a0 : _) (a1 : _) (a2 : _) (a3 : _) (a4 : _) :
    Within F s (putLanes a0 a1 a2 a3 a4 u) := by
  unfold putLanes
  try dsimp only
  repeat' (first
    | with_reducible exact h
    | with_reducible assumption
    | with_reducible refine putRow_within (sub rfl hF) ?_ _ _ _ _)

theorem actRow_within {F : List Field} {s u : State} (hF : [Field.cores] ⊆ F) (h : Within F s u) (a0 : _) (a1 : _) (a3 : _) :
    Within F s (beatState (actRow a0 a1 u a3)) := by
  unfold actRow
  try dsimp only
  repeat' (first
    | with_reducible exact h
    | with_reducible assumption
    | with_reducible refine putLanes_within (sub rfl hF) ?_ _ _ _ _ _
    | with_reducible refine Within.mk_beat_ok ?_)

theorem actSr_within {F : List Field} {s u : State} (hF : [Field.benches] ⊆ F) (h : Within F s u) (a0 : _) :
    Within F s (actSr a0 u) := by
  unfold actSr
  try dsimp only
  repeat' (first
    | with_reducible exact h
    | with_reducible assumption
    | with_reducible refine act_within (sub rfl hF) ?_ _ _ _)

theorem anomaly_within {F : List Field} {s u : State} (hF : [Field.cores, Field.benches, Field.ring] ⊆ F) (h : Within F s u) (a0 : _) (a1 : _) (a2 : _) (a3 : _) :
    Within F s (anomaly a0 a1 a2 a3 u) := by
  unfold anomaly
  try dsimp only
  repeat' (first
    | with_reducible exact h
    | with_reducible assumption
    | with_reducible refine syncErr_within (sub rfl hF) ?_ _ _ _ _
    | with_reducible refine count_within (sub rfl hF) ?_ _ _ _)

theorem answerOpen_within {F : List Field} {s u : State} (hF : [Field.ring] ⊆ F) (h : Within F s u) (a0 : _) (a1 : _) (a2 : _) (a3 : _) :
    Within F s (answerOpen a0 a1 a2 a3 u) := by
  unfold answerOpen
  try dsimp only
  repeat' (first
    | with_reducible exact h
    | with_reducible assumption
    | with_reducible refine ringPut_within (sub rfl hF) ?_ _ _ _)

theorem applyAck_within {F : List Field} {s u : State} (hF : [Field.benches, Field.welts, Field.streams, Field.parts, Field.pwr] ⊆ F) (h : Within F s u) (a0 : _) (a1 : _) (a2 : _) :
    Within F s (applyAck a0 a1 a2 u) := by
  unfold applyAck
  try dsimp only
  repeat' (first
    | with_reducible exact h
    | with_reducible assumption
    | with_reducible refine forAll_within ?_ ?_
    | with_reducible refine touch_within (sub rfl hF) ?_ 
    | with_reducible refine landed_within (sub rfl hF) ?_ _ _ _
    | with_reducible refine forAll_within (sub rfl hF) ?_ _ _
    | with_reducible refine State_updWelt_within (sub rfl hF) ?_ _ _
    | with_reducible refine State_updStream_within (sub rfl hF) ?_ _ _
    | with_reducible refine Within.ite ?_ ?_
    | split
    | intro)

theorem failStream_within {F : List Field} {s u : State} (hF : [Field.cores, Field.benches, Field.welts, Field.streams, Field.parts, Field.fmn, Field.pwr] ⊆ F) (h : Within F s u) (a0 : _) (a1 : _) :
    Within F s (failStream a0 a1 u) := by
  unfold failStream
  try dsimp only
  repeat' (first
    | with_reducible exact h
    | with_reducible assumption
    | with_reducible refine forAll_within ?_ ?_
    | with_reducible refine touch_within (sub rfl hF) ?_ 
    | with_reducible refine logEvent_within (sub rfl hF) ?_ _ _ _ _
    | with_reducible refine jobOfCore_within (sub rfl hF) ?_ _ _
    | with_reducible refine forAll_within (sub rfl hF) ?_ _ _
    | with_reducible refine setPend_within (sub rfl hF) ?_ _ _
    | with_reducible refine State_updWelt_within (sub rfl hF) ?_ _ _
    | with_reducible refine State_updStream_within (sub rfl hF) ?_ _ _
    | with_reducible refine State_updSlotOf_within (sub rfl hF) ?_ _ _ _
    | with_reducible refine Within.ite ?_ ?_
    | split
    | intro)

theorem updTx_within {F : List Field} {s u : State} (hF : [Field.welts] ⊆ F) (h : Within F s u) (a0 : _) (a1 : _) (a2 : _) (a3 : _) :
    Within F s (updTx a0 a1 a2 a3 u) := by
  unfold updTx
  try dsimp only
  repeat' (first
    | with_reducible exact h
    | with_reducible assumption
    | with_reducible refine State_updWelt_within (sub rfl hF) ?_ _ _)

theorem applyNak_within {F : List Field} {s u : State} (hF : [Field.cores, Field.benches, Field.welts, Field.streams, Field.parts, Field.fmn, Field.pwr] ⊆ F) (h : Within F s u) (a0 : _) (a1 : _) (a2 : _) :
    Within F s (applyNak a0 a1 a2 u) := by
  unfold applyNak
  try dsimp only
  repeat' (first
    | with_reducible exact h
    | with_reducible assumption
    | with_reducible refine forAll_within ?_ ?_
    | with_reducible refine updTx_within (sub rfl hF) ?_ _ _ _ _
    | with_reducible refine failStream_within (sub rfl hF) ?_ _ _
    | with_reducible refine forAll_within (sub rfl hF) ?_ _ _
    | with_reducible refine Within.ite ?_ ?_
    | split
    | intro)

theorem portDown_within {F : List Field} {s u : State} (hF : [Field.welts, Field.fmn] ⊆ F) (h : Within F s u) (a0 : _) :
    Within F s (portDown a0 u) := by
  unfold portDown
  try dsimp only
  repeat' (first
    | with_reducible exact h
    | with_reducible assumption
    | with_reducible refine logEvent_within (sub rfl hF) ?_ _ _ _ _
    | with_reducible refine State_updWelt_within (sub rfl hF) ?_ _ _
    | with_reducible refine Within.ite ?_ ?_)

theorem recheck_within {F : List Field} {s u : State} (hF : [Field.boot] ⊆ F) (h : Within F s u) :
    Within F s (recheck u) := by
  unfold recheck
  try dsimp only
  repeat' (first
    | with_reducible exact h
    | with_reducible assumption
    | fail_if_no_progress with_reducible refine Within.set_boot (sub rfl hF) ?_)

theorem applyRepair_within {F : List Field} {s u : State} (hF : [Field.welts, Field.fmn, Field.boot] ⊆ F) (h : Within F s u) (a0 : _) :
    Within F s (applyRepair a0 u) := by
  unfold applyRepair
  try dsimp only
  repeat' (first
    | with_reducible exact h
    | with_reducible assumption
    | fail_if_no_progress with_reducible refine Within.set_boot (sub rfl hF) ?_
    | with_reducible refine recheck_within (sub rfl hF) ?_ 
    | with_reducible refine portDown_within (sub rfl hF) ?_ _
    | with_reducible refine logEvent_within (sub rfl hF) ?_ _ _ _ _
    | with_reducible refine Within.foldl ?_ ?_
    | with_reducible refine Within.ite ?_ ?_)

theorem clearUnits_within {F : List Field} {s u : State} (hF : [Field.faults] ⊆ F) (h : Within F s u) (a0 : _) :
    Within F s (clearUnits a0 u) := by
  unfold clearUnits
  try dsimp only
  repeat' (first
    | with_reducible exact h
    | with_reducible assumption
    | fail_if_no_progress with_reducible refine Within.set_faults (sub rfl hF) ?_)

theorem applyRepairs_within {F : List Field} {s u : State} (hF : [Field.welts, Field.fmn, Field.boot, Field.faults] ⊆ F) (h : Within F s u) (a0 : _) :
    Within F s (applyRepairs a0 u) := by
  unfold applyRepairs
  try dsimp only
  repeat' (first
    | with_reducible exact h
    | with_reducible assumption
    | with_reducible refine forAll_within ?_ ?_
    | with_reducible refine clearUnits_within (sub rfl hF) ?_ _
    | with_reducible refine applyRepair_within (sub rfl hF) ?_ _
    | with_reducible refine forAll_within (sub rfl hF) ?_ _ _
    | with_reducible refine Within.ite ?_ ?_
    | split
    | intro)

theorem applySessionAck_within {F : List Field} {s u : State} (hF : [Field.welts, Field.fmn] ⊆ F) (h : Within F s u) (a0 : _) (a1 : _) (a2 : _) :
    Within F s (applySessionAck a0 a1 a2 u) := by
  unfold applySessionAck
  try dsimp only
  repeat' (first
    | with_reducible exact h
    | with_reducible assumption
    | fail_if_no_progress with_reducible refine Within.set_fmn (sub rfl hF) ?_
    | with_reducible refine pumpSession_within (sub rfl hF) ?_ _ _
    | with_reducible refine updSession_within (sub rfl hF) ?_ _ _
    | with_reducible refine Within.ite ?_ ?_)

theorem sendWakes_within {F : List Field} {s u : State} (hF : [Field.benches] ⊆ F) (h : Within F s u) (a0 : _) :
    Within F s (sendWakes a0 u) := by
  unfold sendWakes
  try dsimp only
  repeat' (first
    | with_reducible exact h
    | with_reducible assumption
    | with_reducible refine forAll_within ?_ ?_
    | with_reducible refine answer_within (sub rfl hF) ?_ _ _ _
    | with_reducible refine forAll_within (sub rfl hF) ?_ _ _
    | with_reducible refine State_updBench_within (sub rfl hF) ?_ _ _
    | with_reducible refine Within.ite ?_ ?_
    | split
    | intro)

theorem traceTally_within {F : List Field} {s u : State} (hF : [Field.benches, Field.trc] ⊆ F) (h : Within F s u) (a0 : _) (a1 : _) (a2 : _) (a3 : _) (a4 : _) (a5 : _) :
    Within F s (traceTally a0 a1 a2 a3 a4 a5 u) := by
  unfold traceTally
  try dsimp only
  repeat' (first
    | with_reducible exact h
    | with_reducible assumption
    | with_reducible refine trace_within (sub rfl hF) ?_ _ _ _ _ _ _)

theorem checkWatches_within {F : List Field} {s u : State} (hF : [Field.benches, Field.trc] ⊆ F) (h : Within F s u) (a0 : _) :
    Within F s (checkWatches a0 u) := by
  unfold checkWatches
  try dsimp only
  repeat' (first
    | with_reducible exact h
    | with_reducible assumption
    | with_reducible refine forAll_within ?_ ?_
    | with_reducible refine traceTally_within (sub rfl hF) ?_ _ _ _ _ _ _
    | with_reducible refine sendWakes_within (sub rfl hF) ?_ _
    | with_reducible refine forAll_within (sub rfl hF) ?_ _ _
    | with_reducible refine State_updBench_within (sub rfl hF) ?_ _ _
    | with_reducible refine Within.ite ?_ ?_
    | split
    | intro)

theorem setTally_within {F : List Field} {s u : State} (hF : [Field.benches] ⊆ F) (h : Within F s u) (a0 : _) (a1 : _) :
    Within F s (setTally a0 a1 u) := by
  unfold setTally
  try dsimp only
  repeat' (first
    | with_reducible exact h
    | with_reducible assumption
    | with_reducible refine State_updBench_within (sub rfl hF) ?_ _ _)

theorem applyTally_within {F : List Field} {s u : State} (hF : [Field.cores, Field.benches, Field.ring, Field.trc] ⊆ F) (h : Within F s u) (a0 : _) :
    Within F s (applyTally a0 u) := by
  unfold applyTally
  try dsimp only
  repeat' (first
    | with_reducible exact h
    | with_reducible assumption
    | with_reducible refine setTally_within (sub rfl hF) ?_ _ _
    | with_reducible refine checkWatches_within (sub rfl hF) ?_ _
    | with_reducible refine traceTally_within (sub rfl hF) ?_ _ _ _ _ _ _
    | with_reducible refine anomaly_within (sub rfl hF) ?_ _ _ _ _
    | with_reducible refine answer_within (sub rfl hF) ?_ _ _ _
    | with_reducible refine count_within (sub rfl hF) ?_ _ _ _
    | with_reducible refine State_updCtx_within (sub rfl hF) ?_ _ _
    | with_reducible refine State_updBench_within (sub rfl hF) ?_ _ _
    | with_reducible refine Within.ite ?_ ?_
    | split)

theorem moduleReset_within {F : List Field} {s u : State} (hF : [Field.now, Field.mem, Field.bad, Field.cores, Field.benches, Field.flits, Field.arrivals, Field.ports, Field.welts, Field.streams, Field.parts, Field.clicker, Field.ring, Field.ringTurn, Field.ringSide, Field.fmn, Field.pwr, Field.boot, Field.trc, Field.board, Field.faults, Field.resets] ⊆ F) (h : Within F s u) : Within F s (moduleReset u) := by
  refine ⟨fun f m => ?_⟩
  cases f <;> first | exact absurd (hF (by decide)) m | exact h.out _ m

theorem askModuleReset_within {F : List Field} {s u : State} (hF : [Field.now, Field.mem, Field.bad, Field.cores, Field.benches, Field.flits, Field.arrivals, Field.ports, Field.welts, Field.streams, Field.parts, Field.clicker, Field.ring, Field.ringTurn, Field.ringSide, Field.fmn, Field.pwr, Field.boot, Field.trc, Field.board, Field.faults, Field.resets] ⊆ F) (h : Within F s u) :
    Within F s (askModuleReset u) := by
  unfold askModuleReset
  try dsimp only
  repeat' (first
    | with_reducible exact h
    | with_reducible assumption
    | fail_if_no_progress with_reducible refine Within.set_board (sub rfl hF) ?_
    | with_reducible refine moduleReset_within (sub rfl hF) ?_ 
    | with_reducible refine Within.ite ?_ ?_)

theorem askPlace_within {F : List Field} {s u : State} (hF : [Field.welts] ⊆ F) (h : Within F s u) (a0 : _) (a1 : _) :
    Within F s (askPlace a0 a1 u) := by
  unfold askPlace
  try dsimp only
  repeat' (first
    | with_reducible exact h
    | with_reducible assumption
    | with_reducible refine State_updWelt_within (sub rfl hF) ?_ _ _)

theorem assayClear_within {F : List Field} {s u : State} (hF : [Field.cores, Field.benches] ⊆ F) (h : Within F s u) (a0 : _) :
    Within F s (assayClear a0 u) := by
  unfold assayClear
  try dsimp only
  repeat' (first
    | with_reducible exact h
    | with_reducible assumption
    | with_reducible refine forAll_within ?_ ?_
    | with_reducible refine forAll_within (sub rfl hF) ?_ _ _
    | with_reducible refine State_updCore_within (sub rfl hF) ?_ _ _
    | with_reducible refine State_updBench_within (sub rfl hF) ?_ _ _
    | with_reducible refine Within.foldl ?_ ?_
    | with_reducible refine Within.ite ?_ ?_
    | split
    | intro)

theorem setOp_within {F : List Field} {s u : State} (hF : [Field.pwr] ⊆ F) (h : Within F s u) (a0 : _) :
    Within F s (setOp a0 u) := by
  unfold setOp
  try dsimp only
  repeat' (first
    | with_reducible exact h
    | with_reducible assumption
    | fail_if_no_progress with_reducible refine Within.set_pwr (sub rfl hF) ?_)

theorem downStep_within {F : List Field} {s u : State} (hF : [Field.pwr] ⊆ F) (h : Within F s u) :
    Within F s (downStep u) := by
  unfold downStep
  try dsimp only
  repeat' (first
    | with_reducible exact h
    | with_reducible assumption
    | fail_if_no_progress with_reducible refine Within.set_pwr (sub rfl hF) ?_
    | with_reducible refine setOp_within (sub rfl hF) ?_ _
    | with_reducible refine Within.ite ?_ ?_
    | split)

theorem pwrCount_within {F : List Field} {s u : State} (hF : [Field.pwr] ⊆ F) (h : Within F s u) (a0 : _) :
    Within F s (pwrCount a0 u) := by
  unfold pwrCount
  try dsimp only
  repeat' (first
    | with_reducible exact h
    | with_reducible assumption
    | fail_if_no_progress with_reducible refine Within.set_pwr (sub rfl hF) ?_)

theorem excursion_within {F : List Field} {s u : State} (hF : [Field.parts, Field.fmn, Field.pwr] ⊆ F) (h : Within F s u) :
    Within F s (excursion u) := by
  unfold excursion
  try dsimp only
  repeat' (first
    | with_reducible exact h
    | with_reducible assumption
    | with_reducible refine forAll_within ?_ ?_
    | with_reducible refine pwrCount_within (sub rfl hF) ?_ _
    | with_reducible refine logMerged_within (sub rfl hF) ?_ _ _ _ _
    | with_reducible refine forAll_within (sub rfl hF) ?_ _ _
    | with_reducible refine State_updPart_within (sub rfl hF) ?_ _ _
    | with_reducible refine Within.ite ?_ ?_
    | split
    | intro)

theorem assertSource_within {F : List Field} {s u : State} (hF : [Field.parts, Field.fmn, Field.pwr] ⊆ F) (h : Within F s u) (a0 : _) :
    Within F s (assertSource a0 u) := by
  unfold assertSource
  try dsimp only
  repeat' (first
    | with_reducible exact h
    | with_reducible assumption
    | fail_if_no_progress with_reducible refine Within.set_pwr (sub rfl hF) ?_
    | with_reducible refine excursion_within (sub rfl hF) ?_ 
    | with_reducible refine pwrCount_within (sub rfl hF) ?_ _
    | with_reducible refine downStep_within (sub rfl hF) ?_ 
    | with_reducible refine Within.ite ?_ ?_)

theorem assignAddr_within {F : List Field} {s u : State} (hF : [Field.board] ⊆ F) (h : Within F s u) (a0 : _) :
    Within F s (assignAddr a0 u) := by
  unfold assignAddr
  try dsimp only
  repeat' (first
    | with_reducible exact h
    | with_reducible assumption
    | fail_if_no_progress with_reducible refine Within.set_board (sub rfl hF) ?_
    | with_reducible refine Within.ite ?_ ?_)

theorem descFault_within {F : List Field} {s u : State} (hF : [Field.cores, Field.benches, Field.parts, Field.fmn, Field.trc] ⊆ F) (h : Within F s u) (a0 : _) (a1 : _) (a2 : _) (a3 : _) (a4 : _) (a5 : _) :
    Within F s (descFault a0 a1 a2 a3 a4 a5 u) := by
  unfold descFault
  try dsimp only
  repeat' (first
    | with_reducible exact h
    | with_reducible assumption
    | with_reducible refine recordCont_within (sub rfl hF) ?_ _ _ _ _
    | with_reducible refine settleDesc_within (sub rfl hF) ?_ _ _
    | with_reducible refine setPend_within (sub rfl hF) ?_ _ _
    | with_reducible refine State_updSlotOf_within (sub rfl hF) ?_ _ _ _)

theorem assignPacket_within {F : List Field} {s u : State} (hF : [Field.bad, Field.cores, Field.benches, Field.welts, Field.streams, Field.parts, Field.fmn, Field.trc] ⊆ F) (h : Within F s u) (a0 : _) (a1 : _) :
    ∀ v, assignPacket a0 a1 u = some v → Within F s v.2 := by
  intro v e
  unfold assignPacket at e
  try dsimp only at e
  repeat' split at e
  all_goals (try contradiction)
  all_goals (first | cases e | skip)
  all_goals repeat' (first | with_reducible exact h | with_reducible assumption | with_reducible refine descFault_within (sub rfl hF) ?_ _ _ _ _ _ _ | with_reducible refine askPlace_within (sub rfl hF) ?_ _ _ | with_reducible refine noteRead_within (sub rfl hF) ?_ _ _ | with_reducible refine settleDesc_within (sub rfl hF) ?_ _ _ | with_reducible refine State_updWelt_within (sub rfl hF) ?_ _ _ | with_reducible refine State_updStream_within (sub rfl hF) ?_ _ _ | with_reducible refine State_updSlotOf_within (sub rfl hF) ?_ _ _ _ | with_reducible refine Within.foldl ?_ ?_ | with_reducible refine Within.ite ?_ ?_ | split | intro)

theorem lockWire_within {F : List Field} {s u : State} (hF : [Field.board] ⊆ F) (h : Within F s u) :
    Within F s (lockWire u) := by
  unfold lockWire
  try dsimp only
  repeat' (first
    | with_reducible exact h
    | with_reducible assumption
    | fail_if_no_progress with_reducible refine Within.set_board (sub rfl hF) ?_)

theorem lockup_within {F : List Field} {s u : State} (hF : [Field.cores, Field.benches, Field.parts, Field.fmn, Field.trc, Field.board] ⊆ F) (h : Within F s u) (a0 : _) (a1 : _) (a2 : _) (a3 : _) (a4 : _) (a5 : _) :
    Within F s (lockup a0 a1 a2 a3 a4 a5 u) := by
  unfold lockup
  try dsimp only
  repeat' (first
    | with_reducible exact h
    | with_reducible assumption
    | with_reducible refine forAll_within ?_ ?_
    | with_reducible refine lockWire_within (sub rfl hF) ?_ 
    | with_reducible refine logEvent_within (sub rfl hF) ?_ _ _ _ _
    | with_reducible refine jobOfCore_within (sub rfl hF) ?_ _ _
    | with_reducible refine trace_within (sub rfl hF) ?_ _ _ _ _ _ _
    | with_reducible refine forAll_within (sub rfl hF) ?_ _ _
    | with_reducible refine countSpin_within (sub rfl hF) ?_ _ _
    | with_reducible refine State_updCtx_within (sub rfl hF) ?_ _ _
    | with_reducible refine State_updCore_within (sub rfl hF) ?_ _ _
    | with_reducible refine State_updBench_within (sub rfl hF) ?_ _ _
    | with_reducible refine Within.ite ?_ ?_
    | split
    | intro)

end Sys2Proof.Laws
end

