-- ==== Sys2Proof/Laws/Footprint2.lean ====
section
/-! SUPPORT. One lemma per operation: the parts of State it may change. The list in each lemma is all of them. -/

namespace Sys2Proof.Laws
open Sys2Proof Sys2Proof.Machine

set_option linter.unusedTactic false
set_option linter.unreachableTactic false
set_option linter.unusedVariables false

theorem enter_within {F : List Field} {s u : State} (hF : [Field.mem, Field.bad, Field.cores, Field.benches, Field.parts, Field.fmn, Field.trc, Field.board] ⊆ F) (h : Within F s u) (a0 : _) (a1 : _) (a2 : _) (a3 : _) (a4 : _) (a5 : _) (a6 : _) :
    Within F s (enter a0 a1 a2 a3 a4 a5 a6 u) := by
  unfold enter
  try dsimp only
  repeat' (first
    | with_reducible exact h
    | with_reducible assumption
    | with_reducible refine lockup_within (sub rfl hF) ?_ _ _ _ _ _ _
    | with_reducible refine trace_within (sub rfl hF) ?_ _ _ _ _ _ _
    | with_reducible refine write_within (sub rfl hF) ?_ _ _
    | with_reducible refine State_updCtx_within (sub rfl hF) ?_ _ _
    | with_reducible refine Within.ite ?_ ?_)

theorem haltOn_within {F : List Field} {s u : State} (hF : [Field.mem, Field.bad, Field.cores, Field.benches, Field.parts, Field.trc] ⊆ F) (h : Within F s u) (a0 : _) (a1 : _) (a2 : _) (a3 : _) (a4 : _) :
    Within F s (haltOn a0 a1 a2 a3 a4 u) := by
  unfold haltOn
  try dsimp only
  repeat' (first
    | with_reducible exact h
    | with_reducible assumption
    | with_reducible refine jobOfCore_within (sub rfl hF) ?_ _ _
    | with_reducible refine trace_within (sub rfl hF) ?_ _ _ _ _ _ _
    | with_reducible refine write_within (sub rfl hF) ?_ _ _
    | with_reducible refine setPend_within (sub rfl hF) ?_ _ _
    | with_reducible refine State_updCtx_within (sub rfl hF) ?_ _ _
    | with_reducible refine State_updCore_within (sub rfl hF) ?_ _ _
    | with_reducible refine Within.ite ?_ ?_)

theorem fault_within {F : List Field} {s u : State} (hF : [Field.mem, Field.bad, Field.cores, Field.benches, Field.parts, Field.fmn, Field.trc, Field.board] ⊆ F) (h : Within F s u) (a0 : _) (a1 : _) (a2 : _) (a3 : _) (a4 : _) :
    Within F s (fault a0 a1 a2 a3 a4 u) := by
  unfold fault
  try dsimp only
  repeat' (first
    | with_reducible exact h
    | with_reducible assumption
    | with_reducible refine haltOn_within (sub rfl hF) ?_ _ _ _ _ _
    | with_reducible refine enter_within (sub rfl hF) ?_ _ _ _ _ _ _ _
    | with_reducible refine jobOfCore_within (sub rfl hF) ?_ _ _
    | with_reducible refine Within.ite ?_ ?_)

theorem firstIssue_within {F : List Field} {s u : State} (hF : [Field.cores] ⊆ F) (h : Within F s u) (a0 : _) :
    Within F s (firstIssue a0 u) := by
  unfold firstIssue
  try dsimp only
  repeat' (first
    | with_reducible exact h
    | with_reducible assumption
    | with_reducible refine State_updCtx_within (sub rfl hF) ?_ _ _
    | with_reducible refine Within.ite ?_ ?_)

theorem issue_within {F : List Field} {s u : State} (hF : [Field.mem, Field.bad, Field.cores, Field.benches, Field.parts, Field.fmn, Field.trc, Field.board, Field.free] ⊆ F) (h : Within F s u)
    {body : State → List Word → List Word → Out} (hb : ∀ v, Within F s v → ∀ a r, Within F s (outState (body v a r)))
    (t : Thread) (op : Nat) (sec : Option Byte) (len : Nat) (sh : Shape) (g : State → Option (Nat × Word)) :
    Within F s (issue t op sec len sh g body u) := by
  have h1 := firstIssue_within (sub rfl hF) h t
  unfold issue
  dsimp only
  refine Within.ite h ?_
  split
  · exact fault_within (sub rfl hF) h1 _ _ _ _ _
  refine Within.ite (fault_within (sub rfl hF) h1 _ _ _ _ _) ?_
  refine Within.ite (fault_within (sub rfl hF) h1 _ _ _ _ _) ?_
  split
  · exact fault_within (sub rfl hF) h1 _ _ _ _ _
  split
  · exact fault_within (sub rfl hF) h1 _ _ _ _ _
  split
  · exact fault_within (sub rfl hF) (memCont_within (sub rfl hF) h1 _ _ _) _ _ _ _ _
  have hb := hb (firstIssue t u) h1 (operands (firstIssue t u) t sh.pops) (returns (firstIssue t u) t sh.rpops)
  split <;> rename_i e <;> rw [e] at hb
  · exact complete_within (sub rfl hF) hb _ _ _ _ _ _ _
  · exact State_updCtx_within (sub rfl hF) hb _ _
  · exact fault_within (sub rfl hF) hb _ _ _ _ _
  · exact hb

theorem pushes_within {F : List Field} {s u : State} (hF : [] ⊆ F) (h : Within F s u) (a1 : _) :
    Within F s (outState (pushes u a1)) := h

theorem asyw_within {F : List Field} {s u : State} (hF : [Field.mem, Field.bad, Field.cores, Field.benches, Field.parts, Field.fmn, Field.trc, Field.board, Field.free] ⊆ F) (h : Within F s u) (a0 : _) :
    Within F s (asyw a0 u) := by
  unfold asyw
  try dsimp only
  repeat' (first
    | with_reducible exact h
    | with_reducible assumption
    | with_reducible refine pushes_within (sub rfl hF) ?_ _
    | refine Within.of_ok (by assumption) (pushes_within (sub rfl hF) ?_ _)
    | refine Within.of_held (by assumption) (pushes_within (sub rfl hF) ?_ _)
    | refine Within.of_exc (by assumption) (pushes_within (sub rfl hF) ?_ _)
    | refine Within.of_done (by assumption) (pushes_within (sub rfl hF) ?_ _)
    | with_reducible refine issue_within (sub rfl hF) ?_ ?_ _ _ _ _ _ _
    | with_reducible refine State_updBench_within (sub rfl hF) ?_ _ _
    | with_reducible refine Within.out_ok ?_
    | with_reducible refine Within.out_held ?_
    | with_reducible refine Within.out_exc ?_
    | with_reducible refine Within.out_done ?_
    | with_reducible refine Within.ite ?_ ?_
    | split
    | intro)

theorem atX_within {F : List Field} {s u : State} (hF : [Field.flits] ⊆ F) (h : Within F s u) (a0 : _) (a1 : _) :
    Within F s (atX a0 a1 u) := by
  unfold atX
  try dsimp only
  repeat' (first
    | with_reducible exact h
    | with_reducible assumption
    | fail_if_no_progress with_reducible refine Within.set_flits (sub rfl hF) ?_)

theorem attach_within {F : List Field} {s u : State} (hF : [Field.benches] ⊆ F) (h : Within F s u) (a0 : _) (a1 : _) :
    Within F s (attach a0 a1 u) := by
  unfold attach
  try dsimp only
  repeat' (first
    | with_reducible exact h
    | with_reducible assumption
    | with_reducible refine State_updQueueOf_within (sub rfl hF) ?_ _ _ _)

theorem putAttest_within {F : List Field} {s u : State} (hF : [Field.fmn] ⊆ F) (h : Within F s u) (a0 : _) (a1 : _) :
    Within F s (putAttest a0 a1 u) := by
  unfold putAttest
  try dsimp only
  repeat' (first
    | with_reducible exact h
    | with_reducible assumption
    | fail_if_no_progress with_reducible refine Within.set_fmn (sub rfl hF) ?_)

theorem attestationSigned_within {F : List Field} {s u : State} (hF : [Field.fmn] ⊆ F) (h : Within F s u) (a0 : _) :
    Within F s (attestationSigned a0 u) := by
  unfold attestationSigned
  try dsimp only
  repeat' (first
    | with_reducible exact h
    | with_reducible assumption
    | with_reducible refine putAttest_within (sub rfl hF) ?_ _ _
    | with_reducible refine Within.ite ?_ ?_)

theorem completeRead_within {F : List Field} {s u : State} (hF : [Field.fmn] ⊆ F) (h : Within F s u) (a0 : _) (a1 : _) (a2 : _) (a3 : _) (a4 : _) :
    Within F s (completeRead a0 a1 a2 a3 a4 u) := by
  unfold completeRead
  try dsimp only
  repeat' (first
    | with_reducible exact h
    | with_reducible assumption
    | fail_if_no_progress with_reducible refine Within.set_fmn (sub rfl hF) ?_)

theorem freshSerial_within {F : List Field} {s u : State} (hF : [Field.fmn] ⊆ F) (h : Within F s u) :
    Within F s (freshSerial u).2 := by
  unfold freshSerial
  try dsimp only
  repeat' (first
    | with_reducible exact h
    | with_reducible assumption
    | fail_if_no_progress with_reducible refine Within.set_fmn (sub rfl hF) ?_)

theorem hostAccess_within {F : List Field} {s u : State} (hF : [Field.ring] ⊆ F) (h : Within F s u) (a0 : _) :
    Within F s (hostAccess a0 u) := by
  unfold hostAccess
  try dsimp only
  repeat' (first
    | with_reducible exact h
    | with_reducible assumption
    | with_reducible refine ringPut_within (sub rfl hF) ?_ _ _ _)

theorem writePieces_within {F : List Field} {s u : State} (hF : [Field.ring] ⊆ F) (h : Within F s u) (a0 : _) (a1 : _) (a2 : _) (a3 : _) (a4 : _) :
    Within F s (writePieces a0 a1 a2 a3 a4 u) := by
  induction a2 generalizing a3 a4 u with
  | zero => exact h
  | succ n ih =>
    unfold writePieces
    exact Within.ite h (ih (hostAccess_within (sub rfl hF) h _) _ _)

theorem bar2Access_within {F : List Field} {s u : State} (hF : [Field.ring, Field.fmn, Field.pwr] ⊆ F) (h : Within F s u) (a0 : _) (a1 : _) (a2 : _) :
    Within F s (bar2Access a0 a1 a2 u) := by
  unfold bar2Access
  try dsimp only
  repeat' (first
    | with_reducible exact h
    | with_reducible assumption
    | fail_if_no_progress with_reducible refine Within.set_fmn (sub rfl hF) ?_
    | with_reducible refine writePieces_within (sub rfl hF) ?_ _ _ _ _ _
    | with_reducible refine hostAccess_within (sub rfl hF) ?_ _
    | with_reducible refine freshSerial_within (sub rfl hF) ?_ 
    | refine Within.snd (by assumption) (freshSerial_within (sub rfl hF) ?_ )
    | with_reducible refine completeRead_within (sub rfl hF) ?_ _ _ _ _ _
    | with_reducible refine hostEvent_within (sub rfl hF) ?_ _ _ _ _
    | with_reducible refine wake_within (sub rfl hF) ?_ 
    | with_reducible refine Within.ite ?_ ?_)

theorem dropRead_within {F : List Field} {s u : State} (hF : [Field.fmn] ⊆ F) (h : Within F s u) (a0 : _) :
    Within F s (dropRead a0 u) := by
  unfold dropRead
  try dsimp only
  repeat' (first
    | with_reducible exact h
    | with_reducible assumption
    | fail_if_no_progress with_reducible refine Within.set_fmn (sub rfl hF) ?_)

theorem bar2Timeout_within {F : List Field} {s u : State} (hF : [Field.fmn] ⊆ F) (h : Within F s u) (a0 : _) (a1 : _) :
    Within F s (bar2Timeout a0 a1 u) := by
  unfold bar2Timeout
  try dsimp only
  repeat' (first
    | with_reducible exact h
    | with_reducible assumption
    | with_reducible refine dropRead_within (sub rfl hF) ?_ _
    | with_reducible refine completeRead_within (sub rfl hF) ?_ _ _ _ _ _
    | with_reducible refine hostEvent_within (sub rfl hF) ?_ _ _ _ _
    | with_reducible refine Within.ite ?_ ?_
    | split)

theorem tbLatch_within {F : List Field} {s u : State} (hF : [Field.trc] ⊆ F) (h : Within F s u) (a0 : _) :
    Within F s (tbLatch a0 u) := by
  unfold tbLatch
  try dsimp only
  repeat' (first
    | with_reducible exact h
    | with_reducible assumption
    | fail_if_no_progress with_reducible refine Within.set_trc (sub rfl hF) ?_)

theorem bar4Access_within {F : List Field} {s u : State} (hF : [Field.fmn, Field.trc] ⊆ F) (h : Within F s u) (a0 : _) (a1 : _) :
    Within F s (bar4Access a0 a1 u) := by
  unfold bar4Access
  try dsimp only
  repeat' (first
    | with_reducible exact h
    | with_reducible assumption
    | with_reducible refine tbLatch_within (sub rfl hF) ?_ _
    | with_reducible refine completeRead_within (sub rfl hF) ?_ _ _ _ _ _
    | with_reducible refine Within.ite ?_ ?_)

theorem beatAll_within {F : List Field} {s u : State} (hF : [] ⊆ F) (h : Within F s u) {f : Nat → State → TileOp → Beat}
    (hf : ∀ i v o, Within F s v → Within F s (beatState (f i v o))) (l : List Nat) (o : TileOp) :
    Within F s (beatState (beatAll f l u o)) := by
  induction l generalizing u o with
  | nil => exact h
  | cons i r ih =>
    unfold beatAll
    have h1 := hf i u o h
    split
    · rename_i e; rw [e] at h1; exact ih h1 _
    · rename_i b _; revert h1; intro h1; exact h1

theorem convLoad_within {F : List Field} {s u : State} (hF : [Field.bad, Field.cores, Field.benches, Field.fmn, Field.trc] ⊆ F) (h : Within F s u) (a0 : _) (a2 : _) :
    Within F s (beatState (convLoad a0 u a2)) := by
  unfold convLoad
  try dsimp only
  repeat' (first
    | with_reducible exact h
    | with_reducible assumption
    | with_reducible refine readRow_within (sub rfl hF) ?_ ?_ _ _ _ _
    | refine Within.of_beat_ok (by assumption) (readRow_within (sub rfl hF) ?_ ?_ _ _ _ _)
    | refine Within.of_beat_fault (by assumption) (readRow_within (sub rfl hF) ?_ ?_ _ _ _ _)
    | with_reducible refine putRow_within (sub rfl hF) ?_ _ _ _ _
    | with_reducible refine Within.mk_beat_ok ?_
    | with_reducible refine Within.mk_beat_fault ?_
    | with_reducible refine Within.foldl ?_ ?_
    | with_reducible refine Within.ite ?_ ?_
    | split
    | intro)

theorem convStore_within {F : List Field} {s u : State} (hF : [Field.mem, Field.bad, Field.cores, Field.benches] ⊆ F) (h : Within F s u) (a0 : _) (a2 : _) :
    Within F s (beatState (convStore a0 u a2)) := by
  unfold convStore
  try dsimp only
  repeat' (first
    | with_reducible exact h
    | with_reducible assumption
    | with_reducible refine write_within (sub rfl hF) ?_ _ _
    | with_reducible refine Within.mk_beat_ok ?_
    | with_reducible refine Within.mk_beat_fault ?_
    | with_reducible refine Within.foldl ?_ ?_
    | with_reducible refine Within.ite ?_ ?_
    | split)

theorem fmaBeat_within {F : List Field} {s u : State} (hF : [Field.cores] ⊆ F) (h : Within F s u) (a0 : _) (a2 : _) :
    Within F s (beatState (fmaBeat a0 u a2)) := by
  unfold fmaBeat
  try dsimp only
  repeat' (first
    | with_reducible exact h
    | with_reducible assumption
    | with_reducible refine putLanes_within (sub rfl hF) ?_ _ _ _ _ _
    | with_reducible refine Within.mk_beat_ok ?_
    | with_reducible refine Within.mk_beat_fault ?_
    | with_reducible refine Within.ite ?_ ?_
    | split)

theorem lanewiseRow_within {F : List Field} {s u : State} (hF : [Field.cores] ⊆ F) (h : Within F s u) (a0 : _) (a1 : _) (a3 : _) :
    Within F s (beatState (lanewiseRow a0 a1 u a3)) := by
  unfold lanewiseRow
  try dsimp only
  repeat' (first
    | with_reducible exact h
    | with_reducible assumption
    | with_reducible refine putLanes_within (sub rfl hF) ?_ _ _ _ _ _
    | with_reducible refine Within.mk_beat_ok ?_)

theorem loadRow_within {F : List Field} {s u : State} (hF : [Field.bad, Field.cores, Field.benches, Field.fmn, Field.trc] ⊆ F) (h : Within F s u) (a0 : _) (a1 : _) (a2 : _) (a4 : _) :
    Within F s (beatState (loadRow a0 a1 a2 u a4)) := by
  unfold loadRow
  try dsimp only
  repeat' (first
    | with_reducible exact h
    | with_reducible assumption
    | with_reducible refine readRow_within (sub rfl hF) ?_ ?_ _ _ _ _
    | refine Within.of_beat_ok (by assumption) (readRow_within (sub rfl hF) ?_ ?_ _ _ _ _)
    | refine Within.of_beat_fault (by assumption) (readRow_within (sub rfl hF) ?_ ?_ _ _ _ _)
    | with_reducible refine putRow_within (sub rfl hF) ?_ _ _ _ _
    | with_reducible refine Within.mk_beat_ok ?_
    | with_reducible refine Within.mk_beat_fault ?_
    | with_reducible refine Within.ite ?_ ?_
    | split
    | intro)

theorem qntRow_within {F : List Field} {s u : State} (hF : [Field.cores] ⊆ F) (h : Within F s u) (a0 : _) (a1 : _) (a3 : _) :
    Within F s (beatState (qntRow a0 a1 u a3)) := by
  unfold qntRow
  try dsimp only
  repeat' (first
    | with_reducible exact h
    | with_reducible assumption
    | with_reducible refine putRow_within (sub rfl hF) ?_ _ _ _ _
    | with_reducible refine Within.mk_beat_ok ?_
    | with_reducible refine Within.mk_beat_fault ?_
    | with_reducible refine Within.foldl ?_ ?_
    | with_reducible refine Within.ite ?_ ?_
    | split)

theorem reduceRow_within {F : List Field} {s u : State} (hF : [Field.cores] ⊆ F) (h : Within F s u) (a0 : _) (a1 : _) (a3 : _) :
    Within F s (beatState (reduceRow a0 a1 u a3)) := by
  unfold reduceRow
  try dsimp only
  repeat' (first
    | with_reducible exact h
    | with_reducible assumption
    | with_reducible refine putRow_within (sub rfl hF) ?_ _ _ _ _
    | with_reducible refine Within.mk_beat_ok ?_)

theorem storeRow_within {F : List Field} {s u : State} (hF : [Field.mem, Field.bad, Field.cores, Field.benches] ⊆ F) (h : Within F s u) (a0 : _) (a1 : _) (a2 : _) (a4 : _) :
    Within F s (beatState (storeRow a0 a1 a2 u a4)) := by
  unfold storeRow
  try dsimp only
  repeat' (first
    | with_reducible exact h
    | with_reducible assumption
    | with_reducible refine write_within (sub rfl hF) ?_ _ _
    | with_reducible refine Within.mk_beat_ok ?_
    | with_reducible refine Within.mk_beat_fault ?_
    | with_reducible refine Within.ite ?_ ?_
    | split)

theorem tcvtRow_within {F : List Field} {s u : State} (hF : [Field.cores] ⊆ F) (h : Within F s u) (a0 : _) (a1 : _) (a3 : _) :
    Within F s (beatState (tcvtRow a0 a1 u a3)) := by
  unfold tcvtRow
  try dsimp only
  repeat' (first
    | with_reducible exact h
    | with_reducible assumption
    | with_reducible refine putRow_within (sub rfl hF) ?_ _ _ _ _
    | with_reducible refine Within.mk_beat_ok ?_
    | with_reducible refine Within.mk_beat_fault ?_
    | with_reducible refine Within.foldl ?_ ?_
    | with_reducible refine Within.ite ?_ ?_
    | split)

theorem transLoad_within {F : List Field} {s u : State} (hF : [Field.bad, Field.cores, Field.benches, Field.fmn, Field.trc] ⊆ F) (h : Within F s u) (a0 : _) (a1 : _) (a3 : _) :
    Within F s (beatState (transLoad a0 a1 u a3)) := by
  unfold transLoad
  try dsimp only
  repeat' (first
    | with_reducible exact h
    | with_reducible assumption
    | with_reducible refine readRow_within (sub rfl hF) ?_ ?_ _ _ _ _
    | refine Within.of_beat_ok (by assumption) (readRow_within (sub rfl hF) ?_ ?_ _ _ _ _)
    | refine Within.of_beat_fault (by assumption) (readRow_within (sub rfl hF) ?_ ?_ _ _ _ _)
    | with_reducible refine State_updCore_within (sub rfl hF) ?_ _ _
    | with_reducible refine Within.mk_beat_ok ?_
    | with_reducible refine Within.mk_beat_fault ?_
    | with_reducible refine Within.foldl ?_ ?_
    | with_reducible refine Within.ite ?_ ?_
    | split
    | intro)

theorem transStore_within {F : List Field} {s u : State} (hF : [Field.mem, Field.bad, Field.cores, Field.benches] ⊆ F) (h : Within F s u) (a0 : _) (a1 : _) (a3 : _) :
    Within F s (beatState (transStore a0 a1 u a3)) := by
  unfold transStore
  try dsimp only
  repeat' (first
    | with_reducible exact h
    | with_reducible assumption
    | with_reducible refine write_within (sub rfl hF) ?_ _ _
    | with_reducible refine Within.mk_beat_ok ?_
    | with_reducible refine Within.mk_beat_fault ?_
    | with_reducible refine Within.foldl ?_ ?_
    | with_reducible refine Within.ite ?_ ?_
    | split
    | intro)

theorem beatOf_within {F : List Field} {s u : State} (hF : [Field.mem, Field.bad, Field.cores, Field.benches, Field.fmn, Field.trc] ⊆ F) (h : Within F s u) (a0 : _) (a2 : _) :
    Within F s (beatState (beatOf a0 u a2)) := by
  unfold beatOf
  dsimp only
  generalize a2.op = x
  cases x <;> dsimp only <;> first
    | exact Within.mk_beat_ok h
    | with_reducible exact accrdRow_within (sub rfl hF) h _ _ _
    | with_reducible exact tcvtRow_within (sub rfl hF) h _ _ _
    | with_reducible exact qntRow_within (sub rfl hF) h _ _ _
    | with_reducible exact lanewiseRow_within (sub rfl hF) h _ _ _
    | with_reducible exact reduceRow_within (sub rfl hF) h _ _ _
    | with_reducible exact actRow_within (sub rfl hF) h _ _ _
    | with_reducible exact fmaBeat_within (sub rfl hF) h _ _
    | with_reducible exact convLoad_within (sub rfl hF) h _ _
    | with_reducible exact convStore_within (sub rfl hF) h _ _
    | with_reducible exact beatAll_within (sub rfl hF) h (fun _ _ _ hv => loadRow_within (sub rfl hF) hv _ _ _ _) _ _
    | with_reducible exact beatAll_within (sub rfl hF) h (fun _ _ _ hv => storeRow_within (sub rfl hF) hv _ _ _ _) _ _
    | with_reducible exact beatAll_within (sub rfl hF) h (fun _ _ _ hv => transLoad_within (sub rfl hF) hv _ _ _) _ _
    | with_reducible exact beatAll_within (sub rfl hF) h (fun _ _ _ hv => transStore_within (sub rfl hF) hv _ _ _) _ _
    | with_reducible exact beatAll_within (sub rfl hF) h (fun _ _ _ hv => actLoad_within (sub rfl hF) hv _ _ _) _ _

theorem beginPacket_within {F : List Field} {s u : State} (hF : [Field.bad, Field.cores, Field.benches, Field.welts, Field.streams, Field.parts, Field.fmn, Field.trc] ⊆ F) (h : Within F s u) (a0 : _) (a1 : _) (a2 : _) :
    Within F s (beginPacket a0 a1 a2 u) := by
  unfold beginPacket
  try dsimp only
  repeat' (first
    | with_reducible exact h
    | with_reducible assumption
    | refine assignPacket_within (sub rfl hF) ?_ _ _ (_, _) (by assumption)
    | refine assignPacket_within (sub rfl hF) ?_ _ _ _ (by assumption)
    | with_reducible refine Within.ite ?_ ?_
    | split)

theorem beginRamp_within {F : List Field} {s u : State} (hF : [Field.parts] ⊆ F) (h : Within F s u) (a0 : _) (a1 : _) (a2 : _) :
    Within F s (beginRamp a0 a1 a2 u) := by
  unfold beginRamp
  try dsimp only
  repeat' (first
    | with_reducible exact h
    | with_reducible assumption
    | with_reducible refine State_updPart_within (sub rfl hF) ?_ _ _)

theorem beginReset_within {F : List Field} {s u : State} (hF : [Field.parts, Field.resets] ⊆ F) (h : Within F s u) (a0 : _) (a1 : _) :
    Within F s (beginReset a0 a1 u) := by
  unfold beginReset
  try dsimp only
  repeat' (first
    | with_reducible exact h
    | with_reducible assumption
    | fail_if_no_progress with_reducible refine Within.set_resets (sub rfl hF) ?_
    | with_reducible refine State_updPart_within (sub rfl hF) ?_ _ _
    | with_reducible refine Within.ite ?_ ?_
    | split)

theorem beginTally_within {F : List Field} {s u : State} (hF : [Field.cores, Field.benches, Field.ring] ⊆ F) (h : Within F s u) (a0 : _) (a1 : _) (a2 : _) :
    Within F s (outState (beginTally a0 a1 a2 u)) := by
  unfold beginTally
  try dsimp only
  repeat' (first
    | with_reducible exact h
    | with_reducible assumption
    | with_reducible refine pushes_within (sub rfl hF) ?_ _
    | refine Within.of_ok (by assumption) (pushes_within (sub rfl hF) ?_ _)
    | refine Within.of_held (by assumption) (pushes_within (sub rfl hF) ?_ _)
    | refine Within.of_exc (by assumption) (pushes_within (sub rfl hF) ?_ _)
    | refine Within.of_done (by assumption) (pushes_within (sub rfl hF) ?_ _)
    | with_reducible refine sendTally_within (sub rfl hF) ?_ _ _ _
    | with_reducible refine State_updCtx_within (sub rfl hF) ?_ _ _
    | with_reducible refine State_updBench_within (sub rfl hF) ?_ _ _
    | with_reducible refine Within.out_ok ?_
    | with_reducible refine Within.out_held ?_
    | with_reducible refine Within.out_exc ?_
    | with_reducible refine Within.out_done ?_
    | with_reducible refine Within.ite ?_ ?_
    | split)

theorem pvselWrite_within {F : List Field} {s u : State} (hF : [Field.benches] ⊆ F) (h : Within F s u) (a0 : _) (a1 : _) (a2 : _) :
    Within F s (pvselWrite a0 a1 a2 u) := by
  unfold pvselWrite
  try dsimp only
  repeat' (first
    | with_reducible exact h
    | with_reducible assumption
    | with_reducible refine State_updBench_within (sub rfl hF) ?_ _ _
    | with_reducible refine Within.ite ?_ ?_
    | split)

theorem disarm_within {F : List Field} {s u : State} (hF : [Field.benches, Field.ring] ⊆ F) (h : Within F s u) (a0 : _) (a1 : _) :
    Within F s (disarm a0 a1 u) := by
  unfold disarm
  try dsimp only
  repeat' (first
    | with_reducible exact h
    | with_reducible assumption
    | with_reducible refine ringPut_within (sub rfl hF) ?_ _ _ _
    | with_reducible refine State_updQueueOf_within (sub rfl hF) ?_ _ _ _
    | with_reducible refine Within.ite ?_ ?_)

theorem queueWrite_within {F : List Field} {s u : State} (hF : [Field.benches, Field.ring] ⊆ F) (h : Within F s u) (a0 : _) (a1 : _) (a2 : _) (a3 : _) :
    Within F s (queueWrite a0 a1 a2 a3 u) := by
  unfold queueWrite
  try dsimp only
  repeat' (first
    | with_reducible exact h
    | with_reducible assumption
    | with_reducible refine disarm_within (sub rfl hF) ?_ _ _
    | with_reducible refine State_updQueueOf_within (sub rfl hF) ?_ _ _ _
    | with_reducible refine Within.ite ?_ ?_)

theorem rngAdd_within {F : List Field} {s u : State} (hF : [Field.benches] ⊆ F) (h : Within F s u) (a0 : _) (a1 : _) :
    Within F s (rngAdd a0 a1 u) := by
  unfold rngAdd
  try dsimp only
  repeat' (first
    | with_reducible exact h
    | with_reducible assumption
    | with_reducible refine toSlice_within (sub rfl hF) ?_ _ _ _ _
    | with_reducible refine Within.ite ?_ ?_)

theorem rngResult_within {F : List Field} {s u : State} (hF : [Field.benches] ⊆ F) (h : Within F s u) (a0 : _) (a1 : _) (a2 : _) :
    Within F s (rngResult a0 a1 a2 u) := by
  unfold rngResult
  try dsimp only
  repeat' (first
    | with_reducible exact h
    | with_reducible assumption
    | with_reducible refine State_updBench_within (sub rfl hF) ?_ _ _)

theorem rngSweep_within {F : List Field} {s u : State} (hF : [Field.benches] ⊆ F) (h : Within F s u) (a0 : _) (a1 : _) (a2 : _) :
    Within F s (rngSweep a0 a1 a2 u) := by
  unfold rngSweep
  try dsimp only
  repeat' (first
    | with_reducible exact h
    | with_reducible assumption
    | with_reducible refine State_updBench_within (sub rfl hF) ?_ _ _)

theorem zeroWays_within {F : List Field} {s u : State} (hF : [Field.mem, Field.bad] ⊆ F) (h : Within F s u) (a0 : _) (a1 : _) (a2 : _) :
    Within F s (zeroWays a0 a1 a2 u) := by
  unfold zeroWays
  try dsimp only
  repeat' (first
    | with_reducible exact h
    | with_reducible assumption
    | fail_if_no_progress with_reducible refine Within.set_mem_bad (sub rfl hF) ?_)

theorem waysEnd_within {F : List Field} {s u : State} (hF : [Field.mem, Field.bad, Field.benches] ⊆ F) (h : Within F s u) (a0 : _) (a1 : _) (a2 : _) :
    Within F s (waysEnd a0 a1 a2 u) := by
  unfold waysEnd
  try dsimp only
  repeat' (first
    | with_reducible exact h
    | with_reducible assumption
    | with_reducible refine zeroWays_within (sub rfl hF) ?_ _ _ _
    | with_reducible refine State_updBench_within (sub rfl hF) ?_ _ _
    | with_reducible refine Within.ite ?_ ?_)

theorem rngComplete_within {F : List Field} {s u : State} (hF : [Field.mem, Field.bad, Field.benches] ⊆ F) (h : Within F s u) (a0 : _) :
    Within F s (rngComplete a0 u) := by
  unfold rngComplete
  try dsimp only
  repeat' (first
    | with_reducible exact h
    | with_reducible assumption
    | with_reducible refine waysEnd_within (sub rfl hF) ?_ _ _ _
    | with_reducible refine rngSweep_within (sub rfl hF) ?_ _ _ _
    | with_reducible refine rngResult_within (sub rfl hF) ?_ _ _ _
    | with_reducible refine rngAdd_within (sub rfl hF) ?_ _ _
    | with_reducible refine Within.ite ?_ ?_
    | split)

theorem rngAbort_within {F : List Field} {s u : State} (hF : [Field.mem, Field.bad, Field.benches] ⊆ F) (h : Within F s u) (a0 : _) :
    Within F s (rngAbort a0 u) := by
  unfold rngAbort
  try dsimp only
  repeat' (first
    | with_reducible exact h
    | with_reducible assumption
    | with_reducible refine rngComplete_within (sub rfl hF) ?_ _
    | with_reducible refine rngSweep_within (sub rfl hF) ?_ _ _ _
    | with_reducible refine rngResult_within (sub rfl hF) ?_ _ _ _
    | with_reducible refine State_updBench_within (sub rfl hF) ?_ _ _
    | with_reducible refine Within.ite ?_ ?_
    | split)

theorem rngGo_within {F : List Field} {s u : State} (hF : [Field.benches] ⊆ F) (h : Within F s u) (a0 : _) :
    Within F s (rngGo a0 u) := by
  unfold rngGo
  try dsimp only
  repeat' (first
    | with_reducible exact h
    | with_reducible assumption
    | with_reducible refine rngResult_within (sub rfl hF) ?_ _ _ _
    | with_reducible refine State_updBench_within (sub rfl hF) ?_ _ _
    | with_reducible refine Within.foldl ?_ ?_
    | with_reducible refine Within.ite ?_ ?_
    | split)

theorem rngWrite_within {F : List Field} {s u : State} (hF : [Field.mem, Field.bad, Field.benches] ⊆ F) (h : Within F s u) (a0 : _) (a1 : _) :
    Within F s (rngWrite a0 a1 u) := by
  unfold rngWrite
  try dsimp only
  repeat' (first
    | with_reducible exact h
    | with_reducible assumption
    | with_reducible refine rngGo_within (sub rfl hF) ?_ _
    | with_reducible refine rngAbort_within (sub rfl hF) ?_ _
    | with_reducible refine State_updBench_within (sub rfl hF) ?_ _ _
    | with_reducible refine Within.ite ?_ ?_)

theorem benchWrite_within {F : List Field} {s u : State} (hF : [Field.mem, Field.bad, Field.cores, Field.benches, Field.ring] ⊆ F) (h : Within F s u) (a0 : _) (a1 : _) (a2 : _) (a3 : _) :
    Within F s (benchWrite a0 a1 a2 a3 u) := by
  unfold benchWrite
  try dsimp only
  repeat' (first
    | with_reducible exact h
    | with_reducible assumption
    | with_reducible refine rngWrite_within (sub rfl hF) ?_ _ _
    | with_reducible refine queueWrite_within (sub rfl hF) ?_ _ _ _ _
    | with_reducible refine pvselWrite_within (sub rfl hF) ?_ _ _ _
    | with_reducible refine assayClear_within (sub rfl hF) ?_ _
    | with_reducible refine State_updBench_within (sub rfl hF) ?_ _ _
    | with_reducible refine Within.ite ?_ ?_)

theorem stopAtBoundary_within {F : List Field} {s u : State} (hF : [Field.mem, Field.bad, Field.cores, Field.benches, Field.welts, Field.parts, Field.ring, Field.fmn, Field.pwr, Field.free] ⊆ F) (h : Within F s u) (a0 : _) :
    Within F s (stopAtBoundary a0 u) := by
  unfold stopAtBoundary
  try dsimp only
  repeat' (first
    | with_reducible exact h
    | with_reducible assumption
    | with_reducible refine stopNow_within (sub rfl hF) ?_ _
    | with_reducible refine faultJobs_within (sub rfl hF) ?_ _
    | with_reducible refine Within.ite ?_ ?_)

theorem stopPart_within {F : List Field} {s u : State} (hF : [Field.mem, Field.bad, Field.cores, Field.benches, Field.welts, Field.parts, Field.ring, Field.fmn, Field.pwr, Field.free] ⊆ F) (h : Within F s u) (a0 : _) (a1 : _) :
    Within F s (stopPart a0 a1 u) := by
  unfold stopPart
  try dsimp only
  repeat' (first
    | with_reducible exact h
    | with_reducible assumption
    | with_reducible refine stopAtBoundary_within (sub rfl hF) ?_ _
    | with_reducible refine stopNow_within (sub rfl hF) ?_ _
    | with_reducible refine Within.ite ?_ ?_
    | split)

theorem setRec_within {F : List Field} {s u : State} (hF : [Field.boot] ⊆ F) (h : Within F s u) (a0 : _) (a1 : _) :
    Within F s (setRec a0 a1 u) := by
  unfold setRec
  try dsimp only
  repeat' (first
    | with_reducible exact h
    | with_reducible assumption
    | fail_if_no_progress with_reducible refine Within.set_boot (sub rfl hF) ?_)

theorem changeRec_within {F : List Field} {s u : State} (hF : [Field.fmn, Field.boot] ⊆ F) (h : Within F s u) (a0 : _) (a1 : _) (a2 : _) :
    Within F s (changeRec a0 a1 a2 u) := by
  unfold changeRec
  try dsimp only
  repeat' (first
    | with_reducible exact h
    | with_reducible assumption
    | with_reducible refine setRec_within (sub rfl hF) ?_ _ _
    | with_reducible refine logEvent_within (sub rfl hF) ?_ _ _ _ _)

theorem writeRepair_within {F : List Field} {s u : State} (hF : [Field.fmn, Field.boot] ⊆ F) (h : Within F s u) (a0 : _) (a1 : _) :
    Within F s (writeRepair a0 a1 u).2 := by
  unfold writeRepair
  try dsimp only
  repeat' (first
    | with_reducible exact h
    | with_reducible assumption
    | with_reducible refine changeRec_within (sub rfl hF) ?_ _ _ _
    | with_reducible refine Within.ite ?_ ?_
    | split)

theorem lastingFault_within {F : List Field} {s u : State} (hF : [Field.mem, Field.bad, Field.cores, Field.benches, Field.welts, Field.parts, Field.ring, Field.fmn, Field.pwr, Field.boot, Field.faults, Field.free] ⊆ F) (h : Within F s u) (a0 : _) (a1 : _) (a2 : _) :
    Within F s (lastingFault a0 a1 a2 u) := by
  unfold lastingFault
  try dsimp only
  repeat' (first
    | with_reducible exact h
    | with_reducible assumption
    | fail_if_no_progress with_reducible refine Within.set_faults (sub rfl hF) ?_
    | with_reducible refine writeRepair_within (sub rfl hF) ?_ _ _
    | refine Within.snd (by assumption) (writeRepair_within (sub rfl hF) ?_ _ _)
    | with_reducible refine stopPart_within (sub rfl hF) ?_ _ _
    | with_reducible refine logEvent_within (sub rfl hF) ?_ _ _ _ _)

theorem countEvent_within {F : List Field} {s u : State} (hF : [Field.mem, Field.bad, Field.cores, Field.benches, Field.welts, Field.parts, Field.ring, Field.fmn, Field.pwr, Field.boot, Field.faults, Field.free] ⊆ F) (h : Within F s u) (a0 : _) (a1 : _) (a2 : _) :
    Within F s (countEvent a0 a1 a2 u) := by
  unfold countEvent
  try dsimp only
  repeat' (first
    | with_reducible exact h
    | with_reducible assumption
    | fail_if_no_progress with_reducible refine Within.set_faults (sub rfl hF) ?_
    | with_reducible refine lastingFault_within (sub rfl hF) ?_ _ _ _
    | with_reducible refine Within.ite ?_ ?_)

theorem putMap_within {F : List Field} {s u : State} (hF : [Field.boot] ⊆ F) (h : Within F s u) (a0 : _) :
    Within F s (putMap a0 u) := by
  unfold putMap
  try dsimp only
  repeat' (first
    | with_reducible exact h
    | with_reducible assumption
    | fail_if_no_progress with_reducible refine Within.set_boot (sub rfl hF) ?_)

theorem startFail_within {F : List Field} {s u : State} (hF : [Field.boot, Field.board] ⊆ F) (h : Within F s u) (a0 : _) :
    Within F s (startFail a0 u) := by
  unfold startFail
  try dsimp only
  repeat' (first
    | with_reducible exact h
    | with_reducible assumption
    | fail_if_no_progress with_reducible refine Within.set_boot_board (sub rfl hF) ?_)

theorem toStep_within {F : List Field} {s u : State} (hF : [Field.boot] ⊆ F) (h : Within F s u) (a0 : _) :
    Within F s (toStep a0 u) := by
  unfold toStep
  try dsimp only
  repeat' (first
    | with_reducible exact h
    | with_reducible assumption
    | fail_if_no_progress with_reducible refine Within.set_boot (sub rfl hF) ?_)

theorem bist_within {F : List Field} {s u : State} (hF : [Field.mem, Field.bad, Field.cores, Field.benches, Field.welts, Field.parts, Field.ring, Field.fmn, Field.pwr, Field.boot, Field.board, Field.faults, Field.free] ⊆ F) (h : Within F s u) (a0 : _) :
    Within F s (bist a0 u) := by
  unfold bist
  try dsimp only
  repeat' (first
    | with_reducible exact h
    | with_reducible assumption
    | fail_if_no_progress with_reducible refine Within.set_boot (sub rfl hF) ?_
    | with_reducible refine forAll_within ?_ ?_
    | with_reducible refine toStep_within (sub rfl hF) ?_ _
    | with_reducible refine startFail_within (sub rfl hF) ?_ _
    | with_reducible refine putMap_within (sub rfl hF) ?_ _
    | with_reducible refine countEvent_within (sub rfl hF) ?_ _ _ _
    | with_reducible refine forAll_within (sub rfl hF) ?_ _ _
    | with_reducible refine Within.ite ?_ ?_
    | split
    | intro)

theorem collectRng_within {F : List Field} {s u : State} (hF : [Field.benches] ⊆ F) (h : Within F s u) (a0 : _) :
    Within F s (collectRng a0 u) := by
  unfold collectRng
  try dsimp only
  repeat' (first
    | with_reducible exact h
    | with_reducible assumption
    | with_reducible refine State_updBench_within (sub rfl hF) ?_ _ _
    | with_reducible refine Within.ite ?_ ?_
    | split)

theorem blkRead32_within {F : List Field} {s u : State} (hF : [Field.benches, Field.trc] ⊆ F) (h : Within F s u) (a0 : _) (a1 : _) :
    Within F s (blkRead32 a0 a1 u).1 := by
  unfold blkRead32
  try dsimp only
  repeat' (first
    | with_reducible exact h
    | with_reducible assumption
    | with_reducible refine collectRng_within (sub rfl hF) ?_ _
    | with_reducible refine tbLatch_within (sub rfl hF) ?_ _
    | with_reducible refine Within.ite ?_ ?_
    | split)

theorem blkWrite_within {F : List Field} {s u : State} (hF : [Field.mem, Field.bad, Field.cores, Field.benches, Field.ports, Field.welts, Field.ring, Field.pwr, Field.trc] ⊆ F) (h : Within F s u) (a0 : _) (a1 : _) (a2 : _) :
    Within F s (blkWrite a0 a1 a2 u) := by
  unfold blkWrite
  try dsimp only
  repeat' (first
    | with_reducible exact h
    | with_reducible assumption
    | fail_if_no_progress with_reducible refine Within.set_trc (sub rfl hF) ?_
    | fail_if_no_progress with_reducible refine Within.set_pwr (sub rfl hF) ?_
    | with_reducible refine benchWrite_within (sub rfl hF) ?_ _ _ _ _
    | with_reducible refine State_updWelt_within (sub rfl hF) ?_ _ _
    | with_reducible refine State_updPort_within (sub rfl hF) ?_ _ _
    | with_reducible refine Within.ite ?_ ?_
    | split)

theorem blkStore_within {F : List Field} {s u : State} (hF : [Field.mem, Field.bad, Field.cores, Field.benches, Field.ports, Field.welts, Field.ring, Field.pwr, Field.trc] ⊆ F) (h : Within F s u) (a0 : _) (a1 : _) (a2 : _) :
    Within F s (blkStore a0 a1 a2 u) := by
  unfold blkStore
  try dsimp only
  repeat' (first
    | with_reducible exact h
    | with_reducible assumption
    | with_reducible refine blkWrite_within (sub rfl hF) ?_ _ _ _
    | with_reducible refine Within.ite ?_ ?_)

theorem breakQueue_within {F : List Field} {s u : State} (hF : [Field.cores, Field.benches, Field.ring, Field.fmn, Field.trc] ⊆ F) (h : Within F s u) (a0 : _) :
    Within F s (breakQueue a0 u) := by
  unfold breakQueue
  try dsimp only
  repeat' (first
    | with_reducible exact h
    | with_reducible assumption
    | with_reducible refine recordCont_within (sub rfl hF) ?_ _ _ _ _
    | with_reducible refine syncWrite_within (sub rfl hF) ?_ _ _ _
    | with_reducible refine ringPut_within (sub rfl hF) ?_ _ _ _
    | with_reducible refine State_updQueueOf_within (sub rfl hF) ?_ _ _ _
    | with_reducible refine State_updChanOf_within (sub rfl hF) ?_ _ _ _
    | with_reducible refine Within.ite ?_ ?_)

theorem setEntry_within {F : List Field} {s u : State} (hF : [Field.benches] ⊆ F) (h : Within F s u) (a0 : _) (a1 : _) (a2 : _) :
    Within F s (setEntry a0 a1 a2 u) := by
  unfold setEntry
  try dsimp only
  repeat' (first
    | with_reducible exact h
    | with_reducible assumption
    | with_reducible refine State_updBench_within (sub rfl hF) ?_ _ _)

theorem writePath_within {F : List Field} {s u : State} (hF : [Field.benches] ⊆ F) (h : Within F s u) (a0 : _) (a1 : _) (a2 : _) (a3 : _) (a4 : _) :
    Within F s (writePath a0 a1 a2 a3 a4 u) := by
  unfold writePath
  try dsimp only
  repeat' (first
    | with_reducible exact h
    | with_reducible assumption
    | with_reducible refine forAll_within ?_ ?_
    | with_reducible refine setEntry_within (sub rfl hF) ?_ _ _ _
    | with_reducible refine forAll_within (sub rfl hF) ?_ _ _
    | with_reducible refine Within.ite ?_ ?_
    | split
    | intro)

theorem cutPath_within {F : List Field} {s u : State} (hF : [Field.benches, Field.clicker] ⊆ F) (h : Within F s u) (a0 : _) (a1 : _) (a2 : _) (a3 : _) (a4 : _) :
    ∀ v, cutPath a0 a1 a2 a3 a4 u = .ok v → Within F s v.2 := by
  intro v e
  unfold cutPath at e
  try dsimp only at e
  repeat' split at e
  all_goals (try contradiction)
  all_goals (first | cases e | skip)
  all_goals repeat' (first | with_reducible exact h | with_reducible assumption | fail_if_no_progress with_reducible refine Within.set_clicker (sub rfl hF) ?_ | with_reducible refine writePath_within (sub rfl hF) ?_ _ _ _ _ _ | with_reducible refine setConn_within (sub rfl hF) ?_ _ _ _ | with_reducible refine Within.ite ?_ ?_ | split | intro)

theorem putCores_within {F : List Field} {s u : State} (hF : [Field.cores] ⊆ F) (h : Within F s u) (a0 : _) (a1 : _) :
    Within F s (putCores a0 a1 u) := by
  unfold putCores
  try dsimp only
  repeat' (first
    | with_reducible exact h
    | with_reducible assumption
    | with_reducible refine forAll_within ?_ ?_
    | with_reducible refine forAll_within (sub rfl hF) ?_ _ _
    | with_reducible refine State_updCore_within (sub rfl hF) ?_ _ _
    | with_reducible refine Within.foldl ?_ ?_
    | with_reducible refine Within.ite ?_ ?_
    | split
    | intro)

theorem putReloc_within {F : List Field} {s u : State} (hF : [Field.benches] ⊆ F) (h : Within F s u) (a0 : _) (a1 : _) :
    Within F s (putReloc a0 a1 u) := by
  unfold putReloc
  try dsimp only
  repeat' (first
    | with_reducible exact h
    | with_reducible assumption
    | with_reducible refine forAll_within ?_ ?_
    | with_reducible refine forAll_within (sub rfl hF) ?_ _ _
    | with_reducible refine State_updBench_within (sub rfl hF) ?_ _ _
    | with_reducible refine Within.foldl ?_ ?_
    | with_reducible refine Within.ite ?_ ?_
    | split
    | intro)

theorem putSrconns_within {F : List Field} {s u : State} (hF : [Field.benches] ⊆ F) (h : Within F s u) (a0 : _) (a1 : _) :
    Within F s (putSrconns a0 a1 u) := by
  unfold putSrconns
  try dsimp only
  repeat' (first
    | with_reducible exact h
    | with_reducible assumption
    | with_reducible refine forAll_within ?_ ?_
    | with_reducible refine forAll_within (sub rfl hF) ?_ _ _
    | with_reducible refine State_updBench_within (sub rfl hF) ?_ _ _
    | with_reducible refine Within.foldl ?_ ?_
    | with_reducible refine Within.ite ?_ ?_
    | split
    | intro)

theorem putPackage_within {F : List Field} {s u : State} (hF : [Field.cores, Field.benches, Field.parts] ⊆ F) (h : Within F s u) (a0 : _) (a1 : _) :
    Within F s (putPackage a0 a1 u) := by
  unfold putPackage
  try dsimp only
  repeat' (first
    | with_reducible exact h
    | with_reducible assumption
    | with_reducible refine putSrconns_within (sub rfl hF) ?_ _ _
    | with_reducible refine putReloc_within (sub rfl hF) ?_ _ _
    | with_reducible refine putCores_within (sub rfl hF) ?_ _ _
    | with_reducible refine State_updPart_within (sub rfl hF) ?_ _ _)

theorem installFresh_within {F : List Field} {s u : State} (hF : [Field.mem, Field.bad, Field.cores, Field.benches, Field.parts, Field.clicker, Field.ring] ⊆ F) (h : Within F s u) (a0 : _) (a1 : _) :
    Within F s (installFresh a0 a1 u) := by
  unfold installFresh
  try dsimp only
  repeat' (first
    | with_reducible exact h
    | with_reducible assumption
    | fail_if_no_progress with_reducible refine Within.set_clicker (sub rfl hF) ?_
    | with_reducible refine forAll_within ?_ ?_
    | with_reducible refine putPackage_within (sub rfl hF) ?_ _ _
    | refine cutPath_within (sub rfl hF) ?_ _ _ _ _ _ (_, _) (by assumption)
    | refine cutPath_within (sub rfl hF) ?_ _ _ _ _ _ _ (by assumption)
    | with_reducible refine setEntry_within (sub rfl hF) ?_ _ _ _
    | with_reducible refine queueWrite_within (sub rfl hF) ?_ _ _ _ _
    | with_reducible refine setConn_within (sub rfl hF) ?_ _ _ _
    | with_reducible refine write_within (sub rfl hF) ?_ _ _
    | with_reducible refine forAll_within (sub rfl hF) ?_ _ _
    | with_reducible refine State_updPart_within (sub rfl hF) ?_ _ _
    | with_reducible refine State_updCore_within (sub rfl hF) ?_ _ _
    | with_reducible refine State_updBench_within (sub rfl hF) ?_ _ _
    | with_reducible refine Within.ite ?_ ?_
    | split
    | intro)

theorem restoreImage_within {F : List Field} {s : State} (hF : [Field.cores] ⊆ F) (a0 : _) (a1 : _) (a2 : Nat × State) (h : Within F s a2.2) :
    Within F s (restoreImage a0 a1 a2).2 := by
  unfold restoreImage
  dsimp only
  exact Within.ite (State_updCore_within (sub rfl hF) (State_updCore_within (sub rfl hF) (State_updCore_within (sub rfl hF) h _ _) _ _) _ _)
    (State_updCore_within (sub rfl hF) (State_updCore_within (sub rfl hF) h _ _) _ _)

theorem restoreImages_within {F : List Field} {s u : State} (hF : [Field.cores] ⊆ F) (h : Within F s u) (a0 : _) (a1 : _) :
    Within F s (restoreImages a0 a1 u) := by
  unfold restoreImages
  dsimp only
  have : ∀ (l : List Thread) (r : Nat × State), Within F s r.2 → Within F s (l.foldl (fun r t => restoreImage a1 t r) r).2 := by
    intro l
    induction l with
    | nil => intro r hr; exact hr
    | cons t l ih => intro r hr; exact ih _ (restoreImage_within (sub rfl hF) _ _ _ hr)
  exact this _ _ (forAll_within h (fun _ _ hv => State_updCore_within (sub rfl hF) hv _ _))

theorem restoreProg_within {F : List Field} {s u : State} (hF : [Field.mem, Field.bad, Field.cores, Field.benches, Field.parts, Field.clicker, Field.ring] ⊆ F) (h : Within F s u) (a0 : _) (a1 : _) (a2 : _) :
    Within F s (restoreProg a0 a1 a2 u) := by
  unfold restoreProg
  try dsimp only
  repeat' (first
    | with_reducible exact h
    | with_reducible assumption
    | fail_if_no_progress with_reducible refine Within.set_clicker (sub rfl hF) ?_
    | with_reducible refine forAll_within ?_ ?_
    | with_reducible refine restoreImages_within (sub rfl hF) ?_ _ _
    | with_reducible refine putPackage_within (sub rfl hF) ?_ _ _
    | with_reducible refine write_within (sub rfl hF) ?_ _ _
    | with_reducible refine forAll_within (sub rfl hF) ?_ _ _
    | with_reducible refine ringPut_within (sub rfl hF) ?_ _ _ _
    | with_reducible refine State_updPart_within (sub rfl hF) ?_ _ _
    | with_reducible refine State_updCtx_within (sub rfl hF) ?_ _ _
    | with_reducible refine State_updBench_within (sub rfl hF) ?_ _ _
    | with_reducible refine Within.ite ?_ ?_
    | split
    | intro)

theorem bringIn_within {F : List Field} {s u : State} (hF : [Field.mem, Field.bad, Field.cores, Field.benches, Field.parts, Field.clicker, Field.ring] ⊆ F) (h : Within F s u) (a0 : _) (a1 : _) :
    Within F s (bringIn a0 a1 u) := by
  unfold bringIn
  try dsimp only
  repeat' (first
    | with_reducible exact h
    | with_reducible assumption
    | with_reducible refine restoreProg_within (sub rfl hF) ?_ _ _ _
    | with_reducible refine installFresh_within (sub rfl hF) ?_ _ _
    | with_reducible refine Within.ite ?_ ?_
    | split)

theorem bufferLine_within {F : List Field} {s u : State} (hF : [Field.ring] ⊆ F) (h : Within F s u) (a0 : _) (a1 : _) :
    Within F s (bufferLine a0 a1 u) := by
  unfold bufferLine
  try dsimp only
  repeat' (first
    | with_reducible exact h
    | with_reducible assumption
    | with_reducible refine ringPut_within (sub rfl hF) ?_ _ _ _)

theorem cobble_within {F : List Field} {s u : State} (hF : [Field.boot] ⊆ F) (h : Within F s u) :
    Within F s (cobble u).2 := by
  unfold cobble
  try dsimp only
  repeat' (first
    | with_reducible exact h
    | with_reducible assumption
    | fail_if_no_progress with_reducible refine Within.set_boot (sub rfl hF) ?_
    | with_reducible refine putMap_within (sub rfl hF) ?_ _
    | with_reducible refine Within.ite ?_ ?_
    | split)

theorem buildMap_within {F : List Field} {s u : State} (hF : [Field.boot, Field.board, Field.faults] ⊆ F) (h : Within F s u) :
    Within F s (buildMap u) := by
  unfold buildMap
  try dsimp only
  repeat' (first
    | with_reducible exact h
    | with_reducible assumption
    | with_reducible refine cobble_within (sub rfl hF) ?_ 
    | refine Within.snd (by assumption) (cobble_within (sub rfl hF) ?_ )
    | with_reducible refine toStep_within (sub rfl hF) ?_ _
    | with_reducible refine startFail_within (sub rfl hF) ?_ _
    | with_reducible refine clearUnits_within (sub rfl hF) ?_ _
    | with_reducible refine Within.ite ?_ ?_
    | split)

theorem cabort_within {F : List Field} {s u : State} (hF : [Field.mem, Field.bad, Field.cores, Field.benches, Field.parts, Field.clicker, Field.ring, Field.fmn, Field.trc, Field.board, Field.free] ⊆ F) (h : Within F s u) (a0 : _) :
    Within F s (cabort a0 u) := by
  unfold cabort
  try dsimp only
  repeat' (first
    | with_reducible exact h
    | with_reducible assumption
    | with_reducible refine pushes_within (sub rfl hF) ?_ _
    | refine Within.of_ok (by assumption) (pushes_within (sub rfl hF) ?_ _)
    | refine Within.of_held (by assumption) (pushes_within (sub rfl hF) ?_ _)
    | refine Within.of_exc (by assumption) (pushes_within (sub rfl hF) ?_ _)
    | refine Within.of_done (by assumption) (pushes_within (sub rfl hF) ?_ _)
    | with_reducible refine issue_within (sub rfl hF) ?_ ?_ _ _ _ _ _ _
    | with_reducible refine channelDrain_within (sub rfl hF) ?_ _ _
    | with_reducible refine abortChan_within (sub rfl hF) ?_ _ _
    | with_reducible refine State_updChanOf_within (sub rfl hF) ?_ _ _ _
    | with_reducible refine Within.out_ok ?_
    | with_reducible refine Within.out_held ?_
    | with_reducible refine Within.out_exc ?_
    | with_reducible refine Within.out_done ?_
    | with_reducible refine Within.ite ?_ ?_
    | split
    | intro)

theorem dropLine_within {F : List Field} {s u : State} (hF : [Field.benches] ⊆ F) (h : Within F s u) (a0 : _) (a1 : _) :
    Within F s (dropLine a0 a1 u) := by
  unfold dropLine
  try dsimp only
  repeat' (first
    | with_reducible exact h
    | with_reducible assumption
    | with_reducible refine State_updBench_within (sub rfl hF) ?_ _ _)

theorem startFill_within {F : List Field} {s u : State} (hF : [Field.benches, Field.fmn] ⊆ F) (h : Within F s u) (a0 : _) (a1 : _) :
    Within F s (startFill a0 a1 u) := by
  unfold startFill
  try dsimp only
  repeat' (first
    | with_reducible exact h
    | with_reducible assumption
    | with_reducible refine freshSerial_within (sub rfl hF) ?_ 
    | refine Within.snd (by assumption) (freshSerial_within (sub rfl hF) ?_ )
    | with_reducible refine count_within (sub rfl hF) ?_ _ _ _
    | with_reducible refine State_updBench_within (sub rfl hF) ?_ _ _
    | with_reducible refine Within.ite ?_ ?_)

theorem cachedLoad_within {F : List Field} {s u : State} (hF : [Field.benches, Field.fmn] ⊆ F) (h : Within F s u) (a0 : _) (a1 : _) (a2 : _) :
    Within F s (cachedLoad a0 a1 a2 u).2 := by
  unfold cachedLoad
  try dsimp only
  repeat' (first
    | with_reducible exact h
    | with_reducible assumption
    | with_reducible refine startFill_within (sub rfl hF) ?_ _ _
    | with_reducible refine dropLine_within (sub rfl hF) ?_ _ _
    | with_reducible refine actSr_within (sub rfl hF) ?_ _
    | with_reducible refine count_within (sub rfl hF) ?_ _ _ _
    | with_reducible refine State_updBench_within (sub rfl hF) ?_ _ _
    | with_reducible refine Within.ite ?_ ?_
    | split)

theorem countMerge_within {F : List Field} {s u : State} (hF : [Field.benches] ⊆ F) (h : Within F s u) (a0 : _) (a1 : _) (a2 : _) :
    Within F s (countMerge a0 a1 a2 u) := by
  unfold countMerge
  try dsimp only
  repeat' (first
    | with_reducible exact h
    | with_reducible assumption
    | with_reducible refine count_within (sub rfl hF) ?_ _ _ _)

theorem overFills_within {F : List Field} {s u : State} (hF : [Field.benches] ⊆ F) (h : Within F s u) (a0 : _) (a1 : _) (a2 : _) :
    Within F s (overFills a0 a1 a2 u) := by
  unfold overFills
  try dsimp only
  repeat' (first
    | with_reducible exact h
    | with_reducible assumption
    | with_reducible refine State_updBench_within (sub rfl hF) ?_ _ _)

theorem storeLine_within {F : List Field} {s u : State} (hF : [Field.benches] ⊆ F) (h : Within F s u) (a0 : _) (a1 : _) (a2 : _) :
    Within F s (storeLine a0 a1 a2 u) := by
  unfold storeLine
  try dsimp only
  repeat' (first
    | with_reducible exact h
    | with_reducible assumption
    | with_reducible refine countMerge_within (sub rfl hF) ?_ _ _ _
    | with_reducible refine dropLine_within (sub rfl hF) ?_ _ _
    | with_reducible refine actSr_within (sub rfl hF) ?_ _
    | with_reducible refine count_within (sub rfl hF) ?_ _ _ _
    | with_reducible refine State_updBench_within (sub rfl hF) ?_ _ _
    | with_reducible refine Within.ite ?_ ?_
    | split)

theorem cachedStore_within {F : List Field} {s u : State} (hF : [Field.benches, Field.fmn] ⊆ F) (h : Within F s u) (a0 : _) (a1 : _) (a2 : _) :
    ∀ v, cachedStore a0 a1 a2 u = some v → Within F s v := by
  intro v e
  unfold cachedStore at e
  try dsimp only at e
  repeat' split at e
  all_goals (try contradiction)
  all_goals (first | cases e | skip)
  all_goals repeat' (first | with_reducible exact h | with_reducible assumption | with_reducible refine storeLine_within (sub rfl hF) ?_ _ _ _ | with_reducible refine overFills_within (sub rfl hF) ?_ _ _ _ | with_reducible refine countMerge_within (sub rfl hF) ?_ _ _ _ | with_reducible refine freshSerial_within (sub rfl hF) ?_  | refine Within.snd (by assumption) (freshSerial_within (sub rfl hF) ?_ ) | with_reducible refine State_updBench_within (sub rfl hF) ?_ _ _ | with_reducible refine Within.ite ?_ ?_ | split | intro)

theorem releaseSource_within {F : List Field} {s u : State} (hF : [Field.pwr] ⊆ F) (h : Within F s u) (a0 : _) :
    Within F s (releaseSource a0 u) := by
  unfold releaseSource
  try dsimp only
  repeat' (first
    | with_reducible exact h
    | with_reducible assumption
    | fail_if_no_progress with_reducible refine Within.set_pwr (sub rfl hF) ?_)

theorem endPulse_within {F : List Field} {s u : State} (hF : [Field.pwr] ⊆ F) (h : Within F s u) :
    Within F s (endPulse u) := by
  unfold endPulse
  try dsimp only
  repeat' (first
    | with_reducible exact h
    | with_reducible assumption
    | with_reducible refine releaseSource_within (sub rfl hF) ?_ _
    | with_reducible refine Within.ite ?_ ?_)

theorem capStep_within {F : List Field} {s u : State} (hF : [Field.parts, Field.fmn, Field.pwr] ⊆ F) (h : Within F s u) (a0 : _) (a1 : _) :
    Within F s (capStep a0 a1 u) := by
  unfold capStep
  try dsimp only
  repeat' (first
    | with_reducible exact h
    | with_reducible assumption
    | fail_if_no_progress with_reducible refine Within.set_pwr (sub rfl hF) ?_
    | with_reducible refine endPulse_within (sub rfl hF) ?_ 
    | with_reducible refine assertSource_within (sub rfl hF) ?_ _
    | with_reducible refine Within.ite ?_ ?_)

theorem capStop_within {F : List Field} {s u : State} (hF : [Field.benches, Field.welts, Field.parts, Field.fmn, Field.pwr] ⊆ F) (h : Within F s u) (a0 : _) :
    Within F s (capStop a0 u) := by
  unfold capStop
  try dsimp only
  repeat' (first
    | with_reducible exact h
    | with_reducible assumption
    | with_reducible refine jobEnd_within (sub rfl hF) ?_ _ _ _
    | with_reducible refine State_updPart_within (sub rfl hF) ?_ _ _
    | with_reducible refine Within.ite ?_ ?_)

theorem capTick_within {F : List Field} {s u : State} (hF : [Field.parts, Field.fmn, Field.pwr] ⊆ F) (h : Within F s u) (a0 : _) (a1 : _) (a2 : _) (a3 : _) :
    Within F s (capTick a0 a1 a2 a3 u) := by
  unfold capTick
  try dsimp only
  repeat' (first
    | with_reducible exact h
    | with_reducible assumption
    | fail_if_no_progress with_reducible refine Within.set_pwr (sub rfl hF) ?_
    | with_reducible refine capStep_within (sub rfl hF) ?_ _ _
    | with_reducible refine Within.ite ?_ ?_)

theorem cclose_within {F : List Field} {s u : State} (hF : [Field.mem, Field.bad, Field.cores, Field.benches, Field.parts, Field.fmn, Field.trc, Field.board, Field.free] ⊆ F) (h : Within F s u) (a0 : _) :
    Within F s (cclose a0 u) := by
  unfold cclose
  try dsimp only
  repeat' (first
    | with_reducible exact h
    | with_reducible assumption
    | with_reducible refine pushes_within (sub rfl hF) ?_ _
    | refine Within.of_ok (by assumption) (pushes_within (sub rfl hF) ?_ _)
    | refine Within.of_held (by assumption) (pushes_within (sub rfl hF) ?_ _)
    | refine Within.of_exc (by assumption) (pushes_within (sub rfl hF) ?_ _)
    | refine Within.of_done (by assumption) (pushes_within (sub rfl hF) ?_ _)
    | with_reducible refine issue_within (sub rfl hF) ?_ ?_ _ _ _ _ _ _
    | with_reducible refine State_updChanOf_within (sub rfl hF) ?_ _ _ _
    | with_reducible refine Within.out_ok ?_
    | with_reducible refine Within.out_held ?_
    | with_reducible refine Within.out_exc ?_
    | with_reducible refine Within.out_done ?_
    | with_reducible refine Within.ite ?_ ?_
    | split
    | intro)

theorem placeMsg_within {F : List Field} {s u : State} (hF : [Field.mem, Field.bad, Field.cores, Field.benches] ⊆ F) (h : Within F s u) (a0 : _) (a1 : _) :
    Within F s (placeMsg a0 a1 u) := by
  unfold placeMsg
  try dsimp only
  repeat' (first
    | with_reducible exact h
    | with_reducible assumption
    | with_reducible refine write_within (sub rfl hF) ?_ _ _
    | with_reducible refine toSlice_within (sub rfl hF) ?_ _ _ _ _
    | with_reducible refine count_within (sub rfl hF) ?_ _ _ _
    | with_reducible refine State_updQueueOf_within (sub rfl hF) ?_ _ _ _
    | with_reducible refine State_updChanOf_within (sub rfl hF) ?_ _ _ _
    | with_reducible refine Within.ite ?_ ?_)

theorem chanFlit_within {F : List Field} {s u : State} (hF : [Field.mem, Field.bad, Field.cores, Field.benches, Field.ring, Field.fmn, Field.trc] ⊆ F) (h : Within F s u) (a0 : _) (a1 : _) :
    Within F s (chanFlit a0 a1 u) := by
  unfold chanFlit
  try dsimp only
  repeat' (first
    | with_reducible exact h
    | with_reducible assumption
    | with_reducible refine placeMsg_within (sub rfl hF) ?_ _ _
    | with_reducible refine breakQueue_within (sub rfl hF) ?_ _
    | with_reducible refine State_updQueueOf_within (sub rfl hF) ?_ _ _ _
    | with_reducible refine Within.ite ?_ ?_)

theorem channelAbortDone_within {F : List Field} {s u : State} (hF : [Field.benches, Field.clicker, Field.ring] ⊆ F) (h : Within F s u) (a0 : _) (a1 : _) :
    Within F s (channelAbortDone a0 a1 u) := by
  unfold channelAbortDone
  try dsimp only
  repeat' (first
    | with_reducible exact h
    | with_reducible assumption
    | with_reducible refine finishChan_within (sub rfl hF) ?_ _ _ _
    | with_reducible refine Within.ite ?_ ?_)

theorem rounded_within {F : List Field} {s u : State} (hF : [Field.free] ⊆ F) (h : Within F s u) (a0 : _) (a1 : _) :
    Within F s (rounded a0 a1 u).2 := by
  unfold rounded
  try dsimp only
  repeat' (first
    | with_reducible exact h
    | with_reducible assumption
    | fail_if_no_progress with_reducible refine Within.set_free (sub rfl hF) ?_
    | with_reducible refine Within.ite ?_ ?_
    | split)

theorem chargePart_within {F : List Field} {s u : State} (hF : [Field.parts, Field.free] ⊆ F) (h : Within F s u) (a0 : _) (a1 : _) (a2 : _) (a3 : _) :
    Within F s (chargePart a0 a1 a2 a3 u) := by
  unfold chargePart
  try dsimp only
  repeat' (first
    | with_reducible exact h
    | with_reducible assumption
    | with_reducible refine forAll_within ?_ ?_
    | with_reducible refine rounded_within (sub rfl hF) ?_ _ _
    | refine Within.snd (by assumption) (rounded_within (sub rfl hF) ?_ _ _)
    | with_reducible refine forAll_within (sub rfl hF) ?_ _ _
    | with_reducible refine State_updPart_within (sub rfl hF) ?_ _ _
    | with_reducible refine Within.ite ?_ ?_
    | split
    | intro)

theorem enterReady_within {F : List Field} {s u : State} (hF : [Field.welts, Field.fmn, Field.pwr, Field.boot] ⊆ F) (h : Within F s u) :
    Within F s (enterReady u) := by
  unfold enterReady
  try dsimp only
  repeat' (first
    | with_reducible exact h
    | with_reducible assumption
    | fail_if_no_progress with_reducible refine Within.set_pwr (sub rfl hF) ?_
    | fail_if_no_progress with_reducible refine Within.set_boot (sub rfl hF) ?_
    | with_reducible refine forAll_within ?_ ?_
    | with_reducible refine toStep_within (sub rfl hF) ?_ _
    | with_reducible refine changeRec_within (sub rfl hF) ?_ _ _ _
    | with_reducible refine recheck_within (sub rfl hF) ?_ 
    | with_reducible refine forAll_within (sub rfl hF) ?_ _ _
    | with_reducible refine State_updWelt_within (sub rfl hF) ?_ _ _
    | with_reducible refine Within.ite ?_ ?_
    | split
    | intro)

theorem checkLinks_within {F : List Field} {s u : State} (hF : [Field.welts, Field.fmn, Field.pwr, Field.boot, Field.board] ⊆ F) (h : Within F s u) (a0 : _) :
    Within F s (checkLinks a0 u) := by
  unfold checkLinks
  try dsimp only
  repeat' (first
    | with_reducible exact h
    | with_reducible assumption
    | fail_if_no_progress with_reducible refine Within.set_boot (sub rfl hF) ?_
    | with_reducible refine enterReady_within (sub rfl hF) ?_ 
    | with_reducible refine startFail_within (sub rfl hF) ?_ _
    | with_reducible refine Within.ite ?_ ?_)

theorem checked_within {F : List Field} {s u : State} (hF : [Field.welts, Field.fmn] ⊆ F) (h : Within F s u) {go : State → State}
    (hg : ∀ v, Within F s v → Within F s (go v)) (a0 : _) (a1 : _) (a2 : _) : Within F s (checked a0 a1 a2 go u) := by
  unfold checked
  split
  · exact respond_within (sub rfl hF) h _ _ _ _
  · exact hg _ h

theorem classWrite_within {F : List Field} {s u : State} (hF : [Field.cores] ⊆ F) (h : Within F s u) (a0 : _) (a1 : _) (a2 : _) :
    ∀ v, classWrite a0 a1 a2 u = .ok v → Within F s v := by
  intro v e
  unfold classWrite at e
  dsimp only at e
  have hp : ∀ w, Wr.ok (u.updCore a0 (fun k => k.setReg a1 w)) = .ok v → Within F s v := by
    intro w e; cases e; exact State_updCore_within (sub rfl hF) h _ _
  rw [ite_eq_iff] at e
  rcases e with ⟨_, e⟩ | ⟨_, e⟩
  · contradiction
  · exact hp _ e

theorem clearCore_within {F : List Field} {s u : State} (hF : [Field.cores, Field.benches] ⊆ F) (h : Within F s u) (a0 : _) :
    Within F s (clearCore a0 u) := by
  unfold clearCore
  try dsimp only
  repeat' (first
    | with_reducible exact h
    | with_reducible assumption
    | with_reducible refine State_updCore_within (sub rfl hF) ?_ _ _
    | with_reducible refine State_updBench_within (sub rfl hF) ?_ _ _)

theorem clearMem_within {F : List Field} {s u : State} (hF : [Field.mem, Field.bad] ⊆ F) (h : Within F s u) (a0 : _) (a1 : _) :
    Within F s (clearMem a0 a1 u) := by
  unfold clearMem
  try dsimp only
  repeat' (first
    | with_reducible exact h
    | with_reducible assumption
    | fail_if_no_progress with_reducible refine Within.set_mem_bad (sub rfl hF) ?_)

theorem flushBench_within {F : List Field} {s u : State} (hF : [Field.mem, Field.bad, Field.cores, Field.benches, Field.ports] ⊆ F) (h : Within F s u) (a0 : _) :
    Within F s (flushBench a0 u) := by
  unfold flushBench
  try dsimp only
  repeat' (first
    | with_reducible exact h
    | with_reducible assumption
    | with_reducible refine forAll_within ?_ ?_
    | with_reducible refine ringWriteMask_within (sub rfl hF) ?_ _ _
    | with_reducible refine forAll_within (sub rfl hF) ?_ _ _
    | with_reducible refine Within.ite ?_ ?_
    | split
    | intro)

theorem clearBench_within {F : List Field} {s u : State} (hF : [Field.mem, Field.bad, Field.cores, Field.benches, Field.ports] ⊆ F) (h : Within F s u) (a0 : _) :
    Within F s (clearBench a0 u) := by
  unfold clearBench
  try dsimp only
  repeat' (first
    | with_reducible exact h
    | with_reducible assumption
    | with_reducible refine forAll_within ?_ ?_
    | with_reducible refine flushBench_within (sub rfl hF) ?_ _
    | with_reducible refine clearMem_within (sub rfl hF) ?_ _ _
    | with_reducible refine clearCore_within (sub rfl hF) ?_ _
    | with_reducible refine forAll_within (sub rfl hF) ?_ _ _
    | with_reducible refine State_updBench_within (sub rfl hF) ?_ _ _
    | with_reducible refine Within.ite ?_ ?_
    | split
    | intro)

theorem closeEntry_within {F : List Field} {s u : State} (hF : [Field.welts, Field.streams, Field.pwr] ⊆ F) (h : Within F s u) (a0 : _) :
    Within F s (closeEntry a0 u) := by
  unfold closeEntry
  try dsimp only
  repeat' (first
    | with_reducible exact h
    | with_reducible assumption
    | with_reducible refine forAll_within ?_ ?_
    | with_reducible refine touch_within (sub rfl hF) ?_ 
    | with_reducible refine forAll_within (sub rfl hF) ?_ _ _
    | with_reducible refine State_updWelt_within (sub rfl hF) ?_ _ _
    | with_reducible refine State_updStream_within (sub rfl hF) ?_ _ _
    | with_reducible refine Within.ite ?_ ?_
    | split
    | intro)

theorem drainRing_within {F : List Field} {s u : State} (hF : [Field.mem, Field.bad, Field.cores, Field.benches, Field.ports, Field.clicker, Field.ring, Field.ringSide] ⊆ F) (h : Within F s u) (a0 : _) :
    Within F s (drainRing a0 u) := by
  unfold drainRing
  try dsimp only
  repeat' (first
    | with_reducible exact h
    | with_reducible assumption
    | fail_if_no_progress with_reducible refine Within.set_clicker_ring_ringSide (sub rfl hF) ?_
    | with_reducible refine forAll_within ?_ ?_
    | with_reducible refine ringWriteMask_within (sub rfl hF) ?_ _ _
    | with_reducible refine ringWrite_within (sub rfl hF) ?_ _ _
    | with_reducible refine absorb_within (sub rfl hF) ?_ _
    | with_reducible refine forAll_within (sub rfl hF) ?_ _ _
    | with_reducible refine Within.ite ?_ ?_
    | split
    | intro)

theorem freshProgs_within {F : List Field} {s u : State} (hF : [Field.parts] ⊆ F) (h : Within F s u) (a0 : _) :
    Within F s (freshProgs a0 u) := by
  unfold freshProgs
  try dsimp only
  repeat' (first
    | with_reducible exact h
    | with_reducible assumption
    | with_reducible refine State_updPart_within (sub rfl hF) ?_ _ _)

theorem clearDie_within {F : List Field} {s u : State} (hF : [Field.mem, Field.bad, Field.cores, Field.benches, Field.flits, Field.arrivals, Field.ports, Field.welts, Field.streams, Field.parts, Field.clicker, Field.ring, Field.ringTurn, Field.ringSide, Field.fmn, Field.pwr, Field.boot, Field.trc, Field.board, Field.faults] ⊆ F) (h : Within F s u) : Within F s (clearDie u) := by
  have h1 : Within F s (drainRing (fun _ => true) (forAll (List.range 128) flushBench u)) :=
    drainRing_within (sub rfl hF) (forAll_within h (fun _ _ hv => flushBench_within (sub rfl hF) hv _)) _
  unfold clearDie
  dsimp only
  generalize drainRing (fun _ => true) (forAll (List.range 128) flushBench u) = s1 at h1
  have h2 : Within F s (forAll (s1.streams.map (·.1)) closeEntry s1) :=
    forAll_within h1 (fun _ _ hv => closeEntry_within (sub rfl hF) hv _)
  generalize forAll (s1.streams.map (·.1)) closeEntry s1 = s2 at h2
  have h3 : ∀ f, (∀ a v, Within F s v → Within F s (f a v)) → Within F s (forAll (List.range 8) f s2) :=
    fun f hf => forAll_within h2 hf
  generalize e3 : forAll (List.range 8) _ s2 = s3
  have h3 : Within F s s3 := by
    rw [← e3]
    exact forAll_within h2 (fun p v hv =>
      Within.ite (freshProgs_within (sub rfl hF) (State_updPart_within (sub rfl hF) hv _ _) _) hv)
  generalize e4 : applyRepairs _ _ = s5
  have h5 : Within F s s5 := by
    rw [← e4]
    refine applyRepairs_within (sub rfl hF) ?_ _
    refine ⟨fun f m => ?_⟩
    cases f <;> first | exact absurd (hF (by decide)) m | exact h3.out _ m
  split
  · exact lockWire_within (sub rfl hF) (Within.snd (by assumption) (cobble_within (sub rfl hF) h5))
  · have h6 := Within.snd (by assumption) (cobble_within (sub rfl hF) h5)
    refine ⟨fun f m => ?_⟩
    cases f <;> first | exact absurd (hF (by decide)) m | exact h6.out _ m

theorem clearPart_within {F : List Field} {s u : State} (hF : [Field.mem, Field.bad, Field.cores, Field.benches, Field.ports, Field.welts, Field.streams, Field.parts, Field.clicker, Field.ring, Field.ringSide, Field.pwr] ⊆ F) (h : Within F s u) (a0 : _) :
    Within F s (clearPart a0 u) := by
  unfold clearPart
  try dsimp only
  repeat' (first
    | with_reducible exact h
    | with_reducible assumption
    | fail_if_no_progress with_reducible refine Within.set_clicker (sub rfl hF) ?_
    | with_reducible refine forAll_within ?_ ?_
    | with_reducible refine freshProgs_within (sub rfl hF) ?_ _
    | with_reducible refine drainRing_within (sub rfl hF) ?_ _
    | with_reducible refine closeEntry_within (sub rfl hF) ?_ _
    | with_reducible refine clearBench_within (sub rfl hF) ?_ _
    | with_reducible refine clearMem_within (sub rfl hF) ?_ _ _
    | with_reducible refine forAll_within (sub rfl hF) ?_ _ _
    | with_reducible refine State_updPort_within (sub rfl hF) ?_ _ _
    | with_reducible refine State_updPart_within (sub rfl hF) ?_ _ _
    | with_reducible refine State_updCore_within (sub rfl hF) ?_ _ _
    | with_reducible refine State_updBench_within (sub rfl hF) ?_ _ _
    | with_reducible refine Within.ite ?_ ?_
    | split
    | intro)

theorem dropReplies_within {F : List Field} {s u : State} (hF : [Field.ports] ⊆ F) (h : Within F s u) (a0 : _) :
    Within F s (dropReplies a0 u) := by
  unfold dropReplies
  try dsimp only
  repeat' (first
    | with_reducible exact h
    | with_reducible assumption
    | with_reducible refine forAll_within ?_ ?_
    | with_reducible refine forAll_within (sub rfl hF) ?_ _ _
    | with_reducible refine State_updPort_within (sub rfl hF) ?_ _ _
    | with_reducible refine Within.ite ?_ ?_
    | split
    | intro)

theorem finishAborts_within {F : List Field} {s u : State} (hF : [Field.benches, Field.clicker, Field.ring] ⊆ F) (h : Within F s u) (a0 : _) :
    Within F s (finishAborts a0 u) := by
  unfold finishAborts
  try dsimp only
  repeat' (first
    | with_reducible exact h
    | with_reducible assumption
    | with_reducible refine forAll_within ?_ ?_
    | with_reducible refine channelAbortDone_within (sub rfl hF) ?_ _ _
    | with_reducible refine forAll_within (sub rfl hF) ?_ _ _
    | with_reducible refine Within.ite ?_ ?_
    | split
    | intro)

theorem clearScope_within {F : List Field} {s u : State} (hF : [Field.mem, Field.bad, Field.cores, Field.benches, Field.flits, Field.arrivals, Field.ports, Field.welts, Field.streams, Field.parts, Field.clicker, Field.ring, Field.ringTurn, Field.ringSide, Field.fmn, Field.pwr, Field.boot, Field.trc, Field.board, Field.faults] ⊆ F) (h : Within F s u) (a0 : _) :
    Within F s (clearScope a0 u) := by
  unfold clearScope
  try dsimp only
  repeat' (first
    | with_reducible exact h
    | with_reducible assumption
    | with_reducible refine finishAborts_within (sub rfl hF) ?_ _
    | with_reducible refine dropReplies_within (sub rfl hF) ?_ _
    | with_reducible refine clearPart_within (sub rfl hF) ?_ _
    | with_reducible refine clearDie_within (sub rfl hF) ?_ 
    | with_reducible refine drainRing_within (sub rfl hF) ?_ _
    | with_reducible refine clearBench_within (sub rfl hF) ?_ _
    | with_reducible refine clearCore_within (sub rfl hF) ?_ _
    | with_reducible refine lockWire_within (sub rfl hF) ?_ 
    | with_reducible refine Within.ite ?_ ?_
    | split)

theorem unclaim_within {F : List Field} {s u : State} (hF : [Field.benches] ⊆ F) (h : Within F s u) (a0 : _) (a1 : _) :
    Within F s (unclaim a0 a1 u) := by
  unfold unclaim
  try dsimp only
  repeat' (first
    | with_reducible exact h
    | with_reducible assumption
    | with_reducible refine State_updQueueOf_within (sub rfl hF) ?_ _ _ _
    | with_reducible refine Within.ite ?_ ?_)

theorem dropCopen_within {F : List Field} {s u : State} (hF : [Field.cores, Field.benches] ⊆ F) (h : Within F s u) (a0 : _) (a1 : _) :
    Within F s (dropCopen a0 a1 u) := by
  unfold dropCopen
  try dsimp only
  repeat' (first
    | with_reducible exact h
    | with_reducible assumption
    | with_reducible refine forAll_within ?_ ?_
    | with_reducible refine unclaim_within (sub rfl hF) ?_ _ _
    | with_reducible refine forAll_within (sub rfl hF) ?_ _ _
    | with_reducible refine State_updCtx_within (sub rfl hF) ?_ _ _
    | with_reducible refine State_updChanOf_within (sub rfl hF) ?_ _ _ _
    | with_reducible refine Within.ite ?_ ?_
    | split
    | intro)

theorem dropReq_within {F : List Field} {s u : State} (hF : [Field.cores, Field.benches] ⊆ F) (h : Within F s u) (a0 : _) :
    Within F s (dropReq a0 u) := by
  unfold dropReq
  try dsimp only
  repeat' (first
    | with_reducible exact h
    | with_reducible assumption
    | with_reducible refine dropCopen_within (sub rfl hF) ?_ _ _
    | with_reducible refine Within.ite ?_ ?_
    | split)

theorem oqPromote_within {F : List Field} {s u : State} (hF : [Field.mem, Field.bad, Field.cores, Field.benches, Field.free] ⊆ F) (h : Within F s u) (a0 : _) :
    Within F s (oqPromote a0 u) := by
  unfold oqPromote
  try dsimp only
  repeat' (first
    | with_reducible exact h
    | with_reducible assumption
    | with_reducible refine forAll_within ?_ ?_
    | with_reducible refine sendWakes_within (sub rfl hF) ?_ _
    | with_reducible refine completeHeld_within (sub rfl hF) ?_ _ _
    | with_reducible refine forAll_within (sub rfl hF) ?_ _ _
    | with_reducible refine State_updBench_within (sub rfl hF) ?_ _ _
    | with_reducible refine Within.ite ?_ ?_
    | split
    | intro)

theorem refuseItem_within {F : List Field} {s u : State} (hF : [Field.cores, Field.benches, Field.ring] ⊆ F) (h : Within F s u) (a0 : _) (a1 : _) :
    Within F s (refuseItem a0 a1 u) := by
  unfold refuseItem
  try dsimp only
  repeat' (first
    | with_reducible exact h
    | with_reducible assumption
    | with_reducible refine toInbox_within (sub rfl hF) ?_ _ _ _
    | with_reducible refine syncErr_within (sub rfl hF) ?_ _ _ _ _
    | with_reducible refine ringPut_within (sub rfl hF) ?_ _ _ _
    | with_reducible refine Within.ite ?_ ?_
    | split)

theorem refuseService_within {F : List Field} {s u : State} (hF : [Field.mem, Field.bad, Field.cores, Field.benches, Field.ring, Field.free] ⊆ F) (h : Within F s u) (a0 : _) (a1 : _) :
    Within F s (refuseService a0 a1 u) := by
  unfold refuseService
  try dsimp only
  repeat' (first
    | with_reducible exact h
    | with_reducible assumption
    | with_reducible refine forAll_within ?_ ?_
    | with_reducible refine refuseItem_within (sub rfl hF) ?_ _ _
    | with_reducible refine oqPromote_within (sub rfl hF) ?_ _
    | with_reducible refine completeHeld_within (sub rfl hF) ?_ _ _
    | with_reducible refine forAll_within (sub rfl hF) ?_ _ _
    | with_reducible refine State_updBench_within (sub rfl hF) ?_ _ _
    | with_reducible refine Within.ite ?_ ?_
    | split
    | intro)

theorem ringTake_within {F : List Field} {s u : State} (hF : [Field.ring] ⊆ F) (h : Within F s u) (a0 : _) :
    ∀ v, ringTake a0 u = some v → Within F s v.2 := by
  intro v e
  unfold ringTake at e
  try dsimp only at e
  repeat' split at e
  all_goals (try contradiction)
  all_goals (first | cases e | skip)
  all_goals repeat' (first | with_reducible exact h | with_reducible assumption | fail_if_no_progress with_reducible refine Within.set_ring (sub rfl hF) ?_ | with_reducible refine Within.ite ?_ ?_ | split | intro)

theorem clickerRequest_within {F : List Field} {s u : State} (hF : [Field.mem, Field.bad, Field.cores, Field.benches, Field.clicker, Field.ring, Field.free] ⊆ F) (h : Within F s u) :
    Within F s (clickerRequest u) := by
  unfold clickerRequest
  try dsimp only
  repeat' (first
    | with_reducible exact h
    | with_reducible assumption
    | fail_if_no_progress with_reducible refine Within.set_clicker (sub rfl hF) ?_
    | refine ringTake_within (sub rfl hF) ?_ _ (_, _) (by assumption)
    | refine ringTake_within (sub rfl hF) ?_ _ _ (by assumption)
    | with_reducible refine refuseService_within (sub rfl hF) ?_ _ _
    | with_reducible refine dropReq_within (sub rfl hF) ?_ _
    | with_reducible refine unclaim_within (sub rfl hF) ?_ _ _
    | with_reducible refine answerOpen_within (sub rfl hF) ?_ _ _ _ _
    | with_reducible refine State_updBench_within (sub rfl hF) ?_ _ _
    | with_reducible refine Within.ite ?_ ?_
    | split)

theorem holdBack_within {F : List Field} {s u : State} (hF : [Field.clicker] ⊆ F) (h : Within F s u) (a0 : _) (a1 : _) :
    Within F s (holdBack a0 a1 u) := by
  unfold holdBack
  try dsimp only
  repeat' (first
    | with_reducible exact h
    | with_reducible assumption
    | fail_if_no_progress with_reducible refine Within.set_clicker (sub rfl hF) ?_)

theorem cutBoth_within {F : List Field} {s u : State} (hF : [Field.benches, Field.clicker] ⊆ F) (h : Within F s u) (a0 : _) (a1 : _) (a2 : _) :
    ∀ v, cutBoth a0 a1 a2 u = .ok v → Within F s v.2 := by
  intro v e
  unfold cutBoth at e
  dsimp only at e
  split at e
  · contradiction
  split at e
  · contradiction
  rename_i s1 e1
  have h1 : Within F s s1 := cutPath_within (sub rfl hF) h _ _ _ _ _ _ e1
  split at e
  · cases e; exact holdBack_within (sub rfl hF) h1 _ _
  split at e
  · contradiction
  rename_i e2
  cases e
  have h2 := cutPath_within (sub rfl hF) h1 _ _ _ _ _ _ e2
  exact h2

theorem openChan_within {F : List Field} {s u : State} (hF : [Field.benches] ⊆ F) (h : Within F s u) (a0 : _) (a1 : _) (a2 : _) :
    Within F s (openChan a0 a1 a2 u) := by
  unfold openChan
  try dsimp only
  repeat' (first
    | with_reducible exact h
    | with_reducible assumption
    | with_reducible refine State_updChanOf_within (sub rfl hF) ?_ _ _ _)

theorem serveCopen_within {F : List Field} {s u : State} (hF : [Field.benches, Field.clicker, Field.ring] ⊆ F) (h : Within F s u) (a0 : _) (a1 : _) :
    Within F s (serveCopen a0 a1 u) := by
  unfold serveCopen
  try dsimp only
  repeat' (first
    | with_reducible exact h
    | with_reducible assumption
    | with_reducible refine openChan_within (sub rfl hF) ?_ _ _ _
    | refine cutBoth_within (sub rfl hF) ?_ _ _ _ (_, _) (by assumption)
    | refine cutBoth_within (sub rfl hF) ?_ _ _ _ _ (by assumption)
    | with_reducible refine unclaim_within (sub rfl hF) ?_ _ _
    | with_reducible refine attach_within (sub rfl hF) ?_ _ _
    | with_reducible refine answerOpen_within (sub rfl hF) ?_ _ _ _ _
    | with_reducible refine Within.ite ?_ ?_
    | split)

theorem serveService_within {F : List Field} {s u : State} (hF : [Field.mem, Field.bad, Field.cores, Field.benches, Field.clicker, Field.ring, Field.free] ⊆ F) (h : Within F s u) (a0 : _) (a1 : _) :
    Within F s (serveService a0 a1 u) := by
  unfold serveService
  dsimp only
  have h0 := State_updBench_within (sub rfl hF) h a0 (fun x => { x with pathAsk := x.pathAsk.erase a1 })
  refine Within.ite h0 ?_
  split
  · rename_i e
    split at e
    · exact cutPath_within (sub rfl hF) h0 _ _ _ _ _ (_, _) e
    · contradiction
  · exact refuseService_within (sub rfl hF) h0 _ _

theorem clickerServe_within {F : List Field} {s u : State} (hF : [Field.mem, Field.bad, Field.cores, Field.benches, Field.clicker, Field.ring, Field.free] ⊆ F) (h : Within F s u) :
    Within F s (clickerServe u) := by
  unfold clickerServe
  try dsimp only
  repeat' (first
    | with_reducible exact h
    | with_reducible assumption
    | fail_if_no_progress with_reducible refine Within.set_clicker (sub rfl hF) ?_
    | with_reducible refine serveService_within (sub rfl hF) ?_ _ _
    | with_reducible refine serveCopen_within (sub rfl hF) ?_ _ _
    | with_reducible refine dropReq_within (sub rfl hF) ?_ _
    | with_reducible refine Within.ite ?_ ?_
    | split)

theorem countActive_within {F : List Field} {s u : State} (hF : [Field.benches] ⊆ F) (h : Within F s u) (a0 : _) :
    Within F s (countActive a0 u) := by
  unfold countActive
  try dsimp only
  repeat' (first
    | with_reducible exact h
    | with_reducible assumption
    | with_reducible refine act_within (sub rfl hF) ?_ _ _ _
    | with_reducible refine Within.ite ?_ ?_
    | split)

theorem clockOff_within {F : List Field} {s u : State} (hF : [Field.cores, Field.benches] ⊆ F) (h : Within F s u) (a0 : _) :
    Within F s (clockOff a0 u) := by
  unfold clockOff
  try dsimp only
  repeat' (first
    | with_reducible exact h
    | with_reducible assumption
    | with_reducible refine countActive_within (sub rfl hF) ?_ _
    | with_reducible refine State_updCore_within (sub rfl hF) ?_ _ _)

theorem clockOn_within {F : List Field} {s u : State} (hF : [Field.cores] ⊆ F) (h : Within F s u) (a0 : _) :
    Within F s (clockOn a0 u) := by
  unfold clockOn
  try dsimp only
  repeat' (first
    | with_reducible exact h
    | with_reducible assumption
    | with_reducible refine State_updCore_within (sub rfl hF) ?_ _ _)

theorem closeNotice_within {F : List Field} {s u : State} (hF : [Field.benches, Field.ring] ⊆ F) (h : Within F s u) (a0 : _) (a1 : _) :
    Within F s (closeNotice a0 a1 u) := by
  unfold closeNotice
  try dsimp only
  repeat' (first
    | with_reducible exact h
    | with_reducible assumption
    | refine ringTake_within (sub rfl hF) ?_ _ (_, _) (by assumption)
    | refine ringTake_within (sub rfl hF) ?_ _ _ (by assumption)
    | with_reducible refine State_updQueueOf_within (sub rfl hF) ?_ _ _ _
    | with_reducible refine Within.ite ?_ ?_
    | split)

theorem runCmd_within {F : List Field} {s u : State} (hF : [Field.welts, Field.fmn, Field.pwr] ⊆ F) (h : Within F s u) {body : List Byte → State → State}
    (hb : ∀ l v, Within F s v → Within F s (body l v)) (a0 : _) (a1 : _) (a2 : _) (a3 : _) (a4 : _) :
    Within F s (runCmd a0 a1 a2 a3 a4 body u) := by
  unfold runCmd
  dsimp only
  have h1 : Within F s (if keepsIdle a1 then u else wake u) := Within.ite h (wake_within (sub rfl hF) h)
  generalize (if keepsIdle a1 then u else wake u) = v at h1
  have hr : ∀ x, Within F s (respond a0 x 0 [] v) := fun x => respond_within (sub rfl hF) h1 _ _ _ _
  exact Within.ite h (Within.ite (hr _) (Within.ite (hr _) (Within.ite (hr _) (Within.ite (hr _) (hb _ _ h1)))))

theorem withPart_within {F : List Field} {s u : State} (hF : [Field.welts, Field.fmn] ⊆ F) (h : Within F s u) {go : State → State}
    (hg : ∀ v, Within F s v → Within F s (go v)) (a0 : _) (a1 : _) : Within F s (withPart a0 a1 go u) := by
  unfold withPart
  exact Within.ite (respond_within (sub rfl hF) h _ _ _ _) (Within.ite (respond_within (sub rfl hF) h _ _ _ _) (hg _ h))

theorem closeStream_within {F : List Field} {s u : State} (hF : [Field.welts, Field.streams, Field.fmn, Field.pwr] ⊆ F) (h : Within F s u) (a0 : _) :
    Within F s (closeStream a0 u) := by
  unfold closeStream
  try dsimp only
  repeat' (first
    | with_reducible exact h
    | with_reducible assumption
    | with_reducible refine withPart_within (sub rfl hF) ?_ ?_ _ _
    | with_reducible refine runCmd_within (sub rfl hF) ?_ ?_ _ _ _ _ _
    | with_reducible refine closeEntry_within (sub rfl hF) ?_ _
    | with_reducible refine checked_within (sub rfl hF) ?_ ?_ _ _ _
    | with_reducible refine respond_within (sub rfl hF) ?_ _ _ _ _
    | with_reducible refine Within.ite ?_ ?_
    | split
    | intro)

theorem collect_within {F : List Field} {s u : State} (hF : [Field.trc] ⊆ F) (h : Within F s u) (a0 : _) :
    Within F s (collect a0 u) := by
  unfold collect
  try dsimp only
  repeat' (first
    | with_reducible exact h
    | with_reducible assumption
    | fail_if_no_progress with_reducible refine Within.set_trc (sub rfl hF) ?_
    | with_reducible refine Within.ite ?_ ?_)

theorem commit_within {F : List Field} {s u : State} (hF : [Field.cores, Field.benches, Field.trc] ⊆ F) (h : Within F s u) (a0 : _) (a1 : _) (a2 : _) :
    Within F s (commit a0 a1 a2 u) := by
  unfold commit
  try dsimp only
  repeat' (first
    | with_reducible exact h
    | with_reducible assumption
    | with_reducible refine forAll_within ?_ ?_
    | with_reducible refine traceSend_within (sub rfl hF) ?_ _ _ _ _ _
    | with_reducible refine forAll_within (sub rfl hF) ?_ _ _
    | with_reducible refine toInbox_within (sub rfl hF) ?_ _ _ _
    | with_reducible refine oqPut_within (sub rfl hF) ?_ _ _
    | with_reducible refine State_updCtx_within (sub rfl hF) ?_ _ _
    | with_reducible refine State_updChanOf_within (sub rfl hF) ?_ _ _ _
    | with_reducible refine Within.ite ?_ ?_
    | split
    | intro)

theorem errorUnits_within {F : List Field} {s u : State} (hF : [Field.free] ⊆ F) (h : Within F s u) (a0 : _) (a1 : _) :
    Within F s (errorUnits a0 a1 u).2 := by
  unfold errorUnits
  try dsimp only
  repeat' (first
    | with_reducible exact h
    | with_reducible assumption
    | with_reducible refine takeFree_within (sub rfl hF) ?_ 
    | refine Within.snd (by assumption) (takeFree_within (sub rfl hF) ?_ )
    | with_reducible refine Within.ite ?_ ?_
    | split)

theorem compareColumn_within {F : List Field} {s u : State} (hF : [Field.benches, Field.free] ⊆ F) (h : Within F s u) (a0 : _) (a1 : _) (a2 : _) (a3 : _) (a5 : _) :
    Within F s (compareColumn a0 a1 a2 a3 u a5) := by
  unfold compareColumn
  try dsimp only
  repeat' (first
    | with_reducible exact h
    | with_reducible assumption
    | with_reducible refine errorUnits_within (sub rfl hF) ?_ _ _
    | refine Within.snd (by assumption) (errorUnits_within (sub rfl hF) ?_ _ _)
    | with_reducible refine count_within (sub rfl hF) ?_ _ _ _
    | with_reducible refine State_updBench_within (sub rfl hF) ?_ _ _)

theorem configTrace_within {F : List Field} {s u : State} (hF : [Field.welts, Field.fmn, Field.pwr, Field.trc] ⊆ F) (h : Within F s u) (a0 : _) :
    Within F s (configTrace a0 u) := by
  unfold configTrace
  try dsimp only
  repeat' (first
    | with_reducible exact h
    | with_reducible assumption
    | fail_if_no_progress with_reducible refine Within.set_trc (sub rfl hF) ?_
    | with_reducible refine runCmd_within (sub rfl hF) ?_ ?_ _ _ _ _ _
    | with_reducible refine checked_within (sub rfl hF) ?_ ?_ _ _ _
    | with_reducible refine respond_within (sub rfl hF) ?_ _ _ _ _
    | with_reducible refine Within.ite ?_ ?_
    | split
    | intro)

theorem noteEntry_within {F : List Field} {s u : State} (hF : [Field.benches] ⊆ F) (h : Within F s u) (a0 : _) (a1 : _) :
    Within F s (noteEntry a0 a1 u) := by
  unfold noteEntry
  try dsimp only
  repeat' (first
    | with_reducible exact h
    | with_reducible assumption
    | with_reducible refine count_within (sub rfl hF) ?_ _ _ _)

theorem markSent_within {F : List Field} {s u : State} (hF : [Field.benches] ⊆ F) (h : Within F s u) (a0 : _) (a1 : _) (a2 : _) :
    Within F s (markSent a0 a1 a2 u) := by
  unfold markSent
  try dsimp only
  repeat' (first
    | with_reducible exact h
    | with_reducible assumption
    | with_reducible refine noteEntry_within (sub rfl hF) ?_ _ _
    | with_reducible refine State_updBench_within (sub rfl hF) ?_ _ _
    | with_reducible refine Within.ite ?_ ?_
    | split)

theorem oqFlit_within {F : List Field} {s u : State} (hF : [Field.mem, Field.bad, Field.cores, Field.benches, Field.free] ⊆ F) (h : Within F s u) (a0 : _) (a1 : _) :
    Within F s (oqFlit a0 a1 u).2 := by
  unfold oqFlit
  try dsimp only
  repeat' (first
    | with_reducible exact h
    | with_reducible assumption
    | with_reducible refine oqPromote_within (sub rfl hF) ?_ _
    | with_reducible refine State_updChanOf_within (sub rfl hF) ?_ _ _ _
    | with_reducible refine State_updBench_within (sub rfl hF) ?_ _ _
    | with_reducible refine Within.ite ?_ ?_
    | split)

theorem sendFlit_within {F : List Field} {s u : State} (hF : [Field.bad, Field.cores, Field.benches, Field.parts, Field.fmn, Field.trc] ⊆ F) (h : Within F s u) (a0 : _) (a1 : _) (a2 : _) (a3 : _) :
    Within F s (sendFlit a0 a1 a2 a3 u).2 := by
  unfold sendFlit
  try dsimp only
  repeat' (first
    | with_reducible exact h
    | with_reducible assumption
    | with_reducible refine descFault_within (sub rfl hF) ?_ _ _ _ _ _ _
    | with_reducible refine noteRead_within (sub rfl hF) ?_ _ _
    | with_reducible refine settleDesc_within (sub rfl hF) ?_ _ _
    | with_reducible refine State_updSlotOf_within (sub rfl hF) ?_ _ _ _
    | with_reducible refine Within.ite ?_ ?_
    | split)

theorem weltFlit_within {F : List Field} {s u : State} (hF : [Field.bad, Field.cores, Field.benches, Field.welts, Field.streams, Field.parts, Field.fmn, Field.trc] ⊆ F) (h : Within F s u) (a0 : _) (a1 : _) (a2 : _) (a3 : _) :
    Within F s (weltFlit a0 a1 a2 a3 u).2 := by
  unfold weltFlit
  try dsimp only
  repeat' (first
    | with_reducible exact h
    | with_reducible assumption
    | with_reducible refine beginPacket_within (sub rfl hF) ?_ _ _ _
    | with_reducible refine State_updWelt_within (sub rfl hF) ?_ _ _
    | with_reducible refine Within.ite ?_ ?_
    | split)

theorem porterFlit_within {F : List Field} {s u : State} (hF : [Field.bad, Field.cores, Field.benches, Field.welts, Field.streams, Field.parts, Field.fmn, Field.trc] ⊆ F) (h : Within F s u) (a0 : _) (a1 : _) :
    Within F s (porterFlit a0 a1 u).2 := by
  unfold porterFlit
  try dsimp only
  repeat' (first
    | with_reducible exact h
    | with_reducible assumption
    | with_reducible refine weltFlit_within (sub rfl hF) ?_ _ _ _ _
    | refine Within.snd (by assumption) (weltFlit_within (sub rfl hF) ?_ _ _ _ _)
    | with_reducible refine sendFlit_within (sub rfl hF) ?_ _ _ _ _
    | refine Within.snd (by assumption) (sendFlit_within (sub rfl hF) ?_ _ _ _ _)
    | with_reducible refine State_updSlotOf_within (sub rfl hF) ?_ _ _ _
    | with_reducible refine Within.ite ?_ ?_
    | split)

theorem retryStores_within {F : List Field} {s u : State} (hF : [Field.mem, Field.bad, Field.cores, Field.benches, Field.fmn, Field.free] ⊆ F) (h : Within F s u) (a0 : _) :
    Within F s (retryStores a0 u) := by
  unfold retryStores
  try dsimp only
  repeat' (first
    | with_reducible exact h
    | with_reducible assumption
    | with_reducible refine forAll_within ?_ ?_
    | refine cachedStore_within (sub rfl hF) ?_ _ _ _ _ (by assumption)
    | with_reducible refine completeHeld_within (sub rfl hF) ?_ _ _
    | with_reducible refine forAll_within (sub rfl hF) ?_ _ _
    | with_reducible refine count_within (sub rfl hF) ?_ _ _ _
    | with_reducible refine Within.ite ?_ ?_
    | split
    | intro)

theorem connFlit_within {F : List Field} {s u : State} (hF : [Field.mem, Field.bad, Field.cores, Field.benches, Field.welts, Field.streams, Field.parts, Field.fmn, Field.trc, Field.free] ⊆ F) (h : Within F s u) (a0 : _) (a1 : _) :
    Within F s (connFlit a0 a1 u).2 := by
  unfold connFlit
  try dsimp only
  repeat' (first
    | with_reducible exact h
    | with_reducible assumption
    | with_reducible refine retryStores_within (sub rfl hF) ?_ _
    | with_reducible refine porterFlit_within (sub rfl hF) ?_ _ _
    | refine Within.snd (by assumption) (porterFlit_within (sub rfl hF) ?_ _ _)
    | with_reducible refine oqFlit_within (sub rfl hF) ?_ _ _
    | refine Within.snd (by assumption) (oqFlit_within (sub rfl hF) ?_ _ _)
    | with_reducible refine markSent_within (sub rfl hF) ?_ _ _ _
    | with_reducible refine Within.ite ?_ ?_
    | split)

theorem itemRing_within {F : List Field} {s u : State} (hF : [Field.benches, Field.ring] ⊆ F) (h : Within F s u) (a0 : _) (a1 : _) :
    Within F s (itemRing a0 a1 u) := by
  unfold itemRing
  try dsimp only
  repeat' (first
    | with_reducible exact h
    | with_reducible assumption
    | with_reducible refine markSent_within (sub rfl hF) ?_ _ _ _
    | with_reducible refine ringPut_within (sub rfl hF) ?_ _ _ _
    | with_reducible refine count_within (sub rfl hF) ?_ _ _ _
    | with_reducible refine Within.ite ?_ ?_
    | split)

theorem forwardRing_within {F : List Field} {s u : State} (hF : [Field.benches, Field.ring] ⊆ F) (h : Within F s u) (a0 : _) :
    Within F s (forwardRing a0 u) := by
  unfold forwardRing
  try dsimp only
  repeat' (first
    | with_reducible exact h
    | with_reducible assumption
    | with_reducible refine itemRing_within (sub rfl hF) ?_ _ _
    | with_reducible refine Within.ite ?_ ?_
    | split)

theorem handTrace_within {F : List Field} {s u : State} (hF : [Field.benches, Field.ring] ⊆ F) (h : Within F s u) (a0 : _) :
    Within F s (handTrace a0 u) := by
  unfold handTrace
  try dsimp only
  repeat' (first
    | with_reducible exact h
    | with_reducible assumption
    | with_reducible refine ringPut_within (sub rfl hF) ?_ _ _ _
    | with_reducible refine State_updBench_within (sub rfl hF) ?_ _ _
    | with_reducible refine Within.ite ?_ ?_
    | split)

theorem controlCycle_within {F : List Field} {s u : State} (hF : [Field.mem, Field.bad, Field.cores, Field.benches, Field.welts, Field.parts, Field.ring, Field.fmn, Field.pwr, Field.free] ⊆ F) (h : Within F s u) :
    Within F s (controlCycle u) := by
  unfold controlCycle
  try dsimp only
  repeat' (first
    | with_reducible exact h
    | with_reducible assumption
    | with_reducible refine forAll_within ?_ ?_
    | with_reducible refine handTrace_within (sub rfl hF) ?_ _
    | with_reducible refine forwardRing_within (sub rfl hF) ?_ _
    | with_reducible refine retryStores_within (sub rfl hF) ?_ _
    | with_reducible refine finishDiscard_within (sub rfl hF) ?_ _
    | with_reducible refine forAll_within (sub rfl hF) ?_ _ _
    | with_reducible refine Within.ite ?_ ?_
    | split
    | intro)

end Sys2Proof.Laws
end

