-- ==== Sys2Proof/Laws/Footprint3.lean ====
section
/-! SUPPORT. One lemma per operation: the parts of State it may change. The list in each lemma is all of them. -/

namespace Sys2Proof.Laws
open Sys2Proof Sys2Proof.Machine

set_option linter.unusedTactic false
set_option linter.unreachableTactic false
set_option linter.unusedVariables false

theorem openInside_within {F : List Field} {s u : State} (hF : [Field.benches, Field.ring] ⊆ F) (h : Within F s u) (a0 : _) (a1 : _) :
    Within F s (openInside a0 a1 u) := by
  unfold openInside
  try dsimp only
  repeat' (first
    | with_reducible exact h
    | with_reducible assumption
    | with_reducible refine openChan_within (sub rfl hF) ?_ _ _ _
    | with_reducible refine attach_within (sub rfl hF) ?_ _ _
    | with_reducible refine answerOpen_within (sub rfl hF) ?_ _ _ _ _
    | with_reducible refine setConn_within (sub rfl hF) ?_ _ _ _
    | with_reducible refine Within.ite ?_ ?_
    | split)

theorem copen_within {F : List Field} {s u : State} (hF : [Field.mem, Field.bad, Field.cores, Field.benches, Field.parts, Field.ring, Field.fmn, Field.trc, Field.board, Field.free] ⊆ F) (h : Within F s u) (a0 : _) :
    Within F s (copen a0 u) := by
  unfold copen
  try dsimp only
  repeat' (first
    | with_reducible exact h
    | with_reducible assumption
    | with_reducible refine openInside_within (sub rfl hF) ?_ _ _
    | with_reducible refine pushes_within (sub rfl hF) ?_ _
    | refine Within.of_ok (by assumption) (pushes_within (sub rfl hF) ?_ _)
    | refine Within.of_held (by assumption) (pushes_within (sub rfl hF) ?_ _)
    | refine Within.of_exc (by assumption) (pushes_within (sub rfl hF) ?_ _)
    | refine Within.of_done (by assumption) (pushes_within (sub rfl hF) ?_ _)
    | with_reducible refine issue_within (sub rfl hF) ?_ ?_ _ _ _ _ _ _
    | with_reducible refine ringPut_within (sub rfl hF) ?_ _ _ _
    | with_reducible refine State_updChanOf_within (sub rfl hF) ?_ _ _ _
    | with_reducible refine Within.out_ok ?_
    | with_reducible refine Within.out_held ?_
    | with_reducible refine Within.out_exc ?_
    | with_reducible refine Within.out_done ?_
    | with_reducible refine Within.ite ?_ ?_
    | split
    | intro)

theorem copenAnswer_within {F : List Field} {s u : State} (hF : [Field.mem, Field.bad, Field.cores, Field.benches, Field.ring, Field.free] ⊆ F) (h : Within F s u) (a0 : _) :
    Within F s (copenAnswer a0 u) := by
  unfold copenAnswer
  split
  · dsimp only
    split
    · rename_i e
      have h1 := ringTake_within (sub rfl hF) h _ (_, _) e
      split
      · exact Within.ite (completeHeld_within (sub rfl hF) h1 _ _)
          (completeHeld_within (sub rfl hF) (State_updChanOf_within (sub rfl hF) h1 _ _ _) _ _)
      · exact h
    · exact h
  · exact h

theorem portCount_within {F : List Field} {s u : State} (hF : [Field.ports] ⊆ F) (h : Within F s u) (a0 : _) (a1 : _) (a2 : _) :
    Within F s (portCount a0 a1 a2 u) := by
  unfold portCount
  try dsimp only
  repeat' (first
    | with_reducible exact h
    | with_reducible assumption
    | with_reducible refine State_updPort_within (sub rfl hF) ?_ _ _)

theorem countAccess_within {F : List Field} {s u : State} (hF : [Field.ports] ⊆ F) (h : Within F s u) (a0 : _) (a1 : _) (a2 : _) :
    Within F s (countAccess a0 a1 a2 u) := by
  unfold countAccess
  try dsimp only
  repeat' (first
    | with_reducible exact h
    | with_reducible assumption
    | with_reducible refine portCount_within (sub rfl hF) ?_ _ _ _
    | with_reducible refine State_updPort_within (sub rfl hF) ?_ _ _)

theorem countDrops_within {F : List Field} {s u : State} (hF : [Field.fmn] ⊆ F) (h : Within F s u) (a0 : _) :
    Within F s (countDrops a0 u) := by
  unfold countDrops
  try dsimp only
  repeat' (first
    | with_reducible exact h
    | with_reducible assumption
    | fail_if_no_progress with_reducible refine Within.set_fmn (sub rfl hF) ?_)

theorem updManaged_within {F : List Field} {s u : State} (hF : [Field.fmn] ⊆ F) (h : Within F s u) (a0 : _) (a1 : _) :
    Within F s (updManaged a0 a1 u) := by
  unfold updManaged
  try dsimp only
  repeat' (first
    | with_reducible exact h
    | with_reducible assumption
    | fail_if_no_progress with_reducible refine Within.set_fmn (sub rfl hF) ?_)

theorem countMsg_within {F : List Field} {s u : State} (hF : [Field.welts, Field.fmn] ⊆ F) (h : Within F s u) (a0 : _) :
    Within F s (countMsg a0 u) := by
  unfold countMsg
  try dsimp only
  repeat' (first
    | with_reducible exact h
    | with_reducible assumption
    | with_reducible refine updManaged_within (sub rfl hF) ?_ _ _
    | with_reducible refine sessionAck_within (sub rfl hF) ?_ _ _
    | with_reducible refine logEvent_within (sub rfl hF) ?_ _ _ _ _
    | with_reducible refine updSession_within (sub rfl hF) ?_ _ _
    | with_reducible refine Within.ite ?_ ?_)

theorem localRead_within {F : List Field} {s u : State} (hF : [Field.bad, Field.benches, Field.fmn, Field.trc] ⊆ F) (h : Within F s u) {k : List Byte → State → Out}
    (hk : ∀ l v, Within F s v → Within F s (outState (k l v))) (a0 : _) (a1 : _) (a2 : _) :
    Within F s (outState (localRead a0 a1 a2 u k)) := by
  unfold localRead
  split
  · refine Within.out_exc ?_
    exact memCont_within (sub rfl hF) h _ _ _
  · exact hk _ _ (noteRead_within (sub rfl hF) h _ _)

theorem cput_within {F : List Field} {s u : State} (hF : [Field.mem, Field.bad, Field.cores, Field.benches, Field.parts, Field.fmn, Field.trc, Field.board, Field.free] ⊆ F) (h : Within F s u) (a0 : _) :
    Within F s (cput a0 u) := by
  unfold cput
  try dsimp only
  repeat' (first
    | with_reducible exact h
    | with_reducible assumption
    | with_reducible refine localRead_within (sub rfl hF) ?_ ?_ _ _ _
    | refine Within.of_ok (by assumption) (localRead_within (sub rfl hF) ?_ ?_ _ _ _)
    | refine Within.of_held (by assumption) (localRead_within (sub rfl hF) ?_ ?_ _ _ _)
    | refine Within.of_exc (by assumption) (localRead_within (sub rfl hF) ?_ ?_ _ _ _)
    | refine Within.of_done (by assumption) (localRead_within (sub rfl hF) ?_ ?_ _ _ _)
    | with_reducible refine pushes_within (sub rfl hF) ?_ _
    | refine Within.of_ok (by assumption) (pushes_within (sub rfl hF) ?_ _)
    | refine Within.of_held (by assumption) (pushes_within (sub rfl hF) ?_ _)
    | refine Within.of_exc (by assumption) (pushes_within (sub rfl hF) ?_ _)
    | refine Within.of_done (by assumption) (pushes_within (sub rfl hF) ?_ _)
    | with_reducible refine issue_within (sub rfl hF) ?_ ?_ _ _ _ _ _ _
    | with_reducible refine State_updCtx_within (sub rfl hF) ?_ _ _
    | with_reducible refine Within.out_ok ?_
    | with_reducible refine Within.out_held ?_
    | with_reducible refine Within.out_exc ?_
    | with_reducible refine Within.out_done ?_
    | with_reducible refine Within.ite ?_ ?_
    | split
    | intro)

theorem putWindow_within {F : List Field} {s u : State} (hF : [Field.benches] ⊆ F) (h : Within F s u) (a0 : _) (a1 : _) :
    Within F s (putWindow a0 a1 u) := by
  unfold putWindow
  try dsimp only
  repeat' (first
    | with_reducible exact h
    | with_reducible assumption
    | with_reducible refine forAll_within ?_ ?_
    | with_reducible refine forAll_within (sub rfl hF) ?_ _ _
    | with_reducible refine State_updBench_within (sub rfl hF) ?_ _ _
    | with_reducible refine Within.ite ?_ ?_
    | split
    | intro)

theorem createPartition_within {F : List Field} {s u : State} (hF : [Field.benches, Field.welts, Field.parts, Field.fmn, Field.pwr] ⊆ F) (h : Within F s u) (a0 : _) :
    Within F s (createPartition a0 u) := by
  unfold createPartition
  try dsimp only
  repeat' (first
    | with_reducible exact h
    | with_reducible assumption
    | with_reducible refine putWindow_within (sub rfl hF) ?_ _ _
    | with_reducible refine runCmd_within (sub rfl hF) ?_ ?_ _ _ _ _ _
    | with_reducible refine checked_within (sub rfl hF) ?_ ?_ _ _ _
    | with_reducible refine putReloc_within (sub rfl hF) ?_ _ _
    | with_reducible refine respond_within (sub rfl hF) ?_ _ _ _ _
    | with_reducible refine State_updPart_within (sub rfl hF) ?_ _ _
    | with_reducible refine Within.ite ?_ ?_
    | split
    | intro)

theorem nameUnit_within {F : List Field} {s u : State} (hF : [Field.cores] ⊆ F) (h : Within F s u) (a0 : _) (a1 : _) (a2 : _) (a3 : _) :
    ∀ v, nameUnit a0 a1 a2 a3 u = some v → Within F s v := by
  intro v e
  unfold nameUnit at e
  try dsimp only at e
  repeat' split at e
  all_goals (try contradiction)
  all_goals (first | cases e | skip)
  all_goals repeat' (first | with_reducible exact h | with_reducible assumption | with_reducible refine State_updCore_within (sub rfl hF) ?_ _ _ | with_reducible refine Within.foldl ?_ ?_ | with_reducible refine Within.ite ?_ ?_ | split | intro)

theorem sendCredit_within {F : List Field} {s u : State} (hF : [Field.benches] ⊆ F) (h : Within F s u) (a0 : _) (a1 : _) (a2 : _) (a3 : _) (a4 : _) (a5 : _) :
    Within F s (sendCredit a0 a1 a2 a3 a4 a5 u) := by
  unfold sendCredit
  try dsimp only
  repeat' (first
    | with_reducible exact h
    | with_reducible assumption
    | with_reducible refine sendService_within (sub rfl hF) ?_ _ _ _ _ _
    | with_reducible refine State_updBench_within (sub rfl hF) ?_ _ _
    | with_reducible refine Within.ite ?_ ?_)

theorem receive_within {F : List Field} {s u : State} (hF : [Field.mem, Field.bad, Field.cores, Field.benches, Field.fmn, Field.trc] ⊆ F) (h : Within F s u) (a0 : _) (a1 : _) (a2 : _) :
    Within F s (outState (receive a0 a1 a2 u)) := by
  unfold receive
  try dsimp only
  repeat' (first
    | with_reducible exact h
    | with_reducible assumption
    | with_reducible refine sendCredit_within (sub rfl hF) ?_ _ _ _ _ _ _
    | with_reducible refine pushes_within (sub rfl hF) ?_ _
    | refine Within.of_ok (by assumption) (pushes_within (sub rfl hF) ?_ _)
    | refine Within.of_held (by assumption) (pushes_within (sub rfl hF) ?_ _)
    | refine Within.of_exc (by assumption) (pushes_within (sub rfl hF) ?_ _)
    | refine Within.of_done (by assumption) (pushes_within (sub rfl hF) ?_ _)
    | with_reducible refine noteRead_within (sub rfl hF) ?_ _ _
    | with_reducible refine memCont_within (sub rfl hF) ?_ _ _ _
    | with_reducible refine write_within (sub rfl hF) ?_ _ _
    | with_reducible refine toInbox_within (sub rfl hF) ?_ _ _ _
    | with_reducible refine State_updQueueOf_within (sub rfl hF) ?_ _ _ _
    | with_reducible refine Within.out_ok ?_
    | with_reducible refine Within.out_held ?_
    | with_reducible refine Within.out_exc ?_
    | with_reducible refine Within.out_done ?_
    | with_reducible refine Within.ite ?_ ?_
    | split)

theorem crecv_within {F : List Field} {s u : State} (hF : [Field.mem, Field.bad, Field.cores, Field.benches, Field.parts, Field.fmn, Field.trc, Field.board, Field.free] ⊆ F) (h : Within F s u) (a0 : _) :
    Within F s (crecv a0 u) := by
  unfold crecv
  try dsimp only
  repeat' (first
    | with_reducible exact h
    | with_reducible assumption
    | with_reducible refine receive_within (sub rfl hF) ?_ _ _ _
    | refine Within.of_ok (by assumption) (receive_within (sub rfl hF) ?_ _ _ _)
    | refine Within.of_held (by assumption) (receive_within (sub rfl hF) ?_ _ _ _)
    | refine Within.of_exc (by assumption) (receive_within (sub rfl hF) ?_ _ _ _)
    | refine Within.of_done (by assumption) (receive_within (sub rfl hF) ?_ _ _ _)
    | refine nameUnit_within (sub rfl hF) ?_ _ _ _ _ _ (by assumption)
    | with_reducible refine issue_within (sub rfl hF) ?_ ?_ _ _ _ _ _ _
    | with_reducible refine Within.out_ok ?_
    | with_reducible refine Within.out_held ?_
    | with_reducible refine Within.out_exc ?_
    | with_reducible refine Within.out_done ?_
    | with_reducible refine Within.ite ?_ ?_
    | split
    | intro)

theorem creditIn_within {F : List Field} {s u : State} (hF : [Field.mem, Field.bad, Field.cores, Field.benches, Field.clicker, Field.ring, Field.trc, Field.free] ⊆ F) (h : Within F s u) (a0 : _) (a1 : _) (a2 : _) (a3 : _) (a4 : _) :
    Within F s (creditIn a0 a1 a2 a3 a4 u) := by
  unfold creditIn
  try dsimp only
  repeat' (first
    | with_reducible exact h
    | with_reducible assumption
    | with_reducible refine abortOrDrain_within (sub rfl hF) ?_ _ _
    | with_reducible refine syncWrite_within (sub rfl hF) ?_ _ _ _
    | with_reducible refine State_updChanOf_within (sub rfl hF) ?_ _ _ _
    | with_reducible refine Within.ite ?_ ?_)

theorem inboxDrop_within {F : List Field} {s u : State} (hF : [Field.benches] ⊆ F) (h : Within F s u) (a0 : _) (a1 : _) :
    Within F s (inboxDrop a0 a1 u) := by
  unfold inboxDrop
  try dsimp only
  repeat' (first
    | with_reducible exact h
    | with_reducible assumption
    | with_reducible refine State_updBench_within (sub rfl hF) ?_ _ _)

theorem creditInside_within {F : List Field} {s u : State} (hF : [Field.mem, Field.bad, Field.cores, Field.benches, Field.clicker, Field.ring, Field.trc, Field.free] ⊆ F) (h : Within F s u) (a0 : _) :
    ∀ v, creditInside a0 u = some v → Within F s v := by
  intro v e
  unfold creditInside at e
  try dsimp only at e
  repeat' split at e
  all_goals (try contradiction)
  all_goals (first | cases e | skip)
  all_goals repeat' (first | with_reducible exact h | with_reducible assumption | with_reducible refine inboxDrop_within (sub rfl hF) ?_ _ _ | with_reducible refine creditIn_within (sub rfl hF) ?_ _ _ _ _ _ | with_reducible refine Within.ite ?_ ?_ | split | intro)

theorem takeArrival_within {F : List Field} {s u : State} (hF : [Field.arrivals] ⊆ F) (h : Within F s u) (a0 : _) :
    ∀ v, takeArrival a0 u = some v → Within F s v.2 := by
  intro v e
  unfold takeArrival at e
  try dsimp only at e
  repeat' split at e
  all_goals (try contradiction)
  all_goals (first | cases e | skip)
  all_goals repeat' (first | with_reducible exact h | with_reducible assumption | fail_if_no_progress with_reducible refine Within.set_arrivals (sub rfl hF) ?_ | with_reducible refine Within.ite ?_ ?_ | split | intro)

theorem creditArrival_within {F : List Field} {s u : State} (hF : [Field.mem, Field.bad, Field.cores, Field.benches, Field.arrivals, Field.clicker, Field.ring, Field.trc, Field.free] ⊆ F) (h : Within F s u) (a0 : _) :
    Within F s (creditArrival a0 u) := by
  unfold creditArrival
  split
  · rename_i e
    have h1 := takeArrival_within (sub rfl hF) h _ (_, _) e
    split
    · exact Within.ite (creditIn_within (sub rfl hF) h1 _ _ _ _ _) (count_within (sub rfl hF) h1 _ _ _)
    · exact h1
  · have h2 := creditInside_within (sub rfl hF) h a0
    cases e : creditInside a0 u with
    | none => exact h
    | some v => exact h2 v e

theorem newSession_within {F : List Field} {s u : State} (hF : [Field.fmn] ⊆ F) (h : Within F s u) (a0 : _) :
    Within F s (newSession a0 u) := by
  unfold newSession
  try dsimp only
  repeat' (first
    | with_reducible exact h
    | with_reducible assumption
    | with_reducible refine updSession_within (sub rfl hF) ?_ _ _)

theorem crewJoin_within {F : List Field} {s u : State} (hF : [Field.welts, Field.fmn, Field.pwr] ⊆ F) (h : Within F s u) (a0 : _) :
    Within F s (crewJoin a0 u) := by
  unfold crewJoin
  try dsimp only
  repeat' (first
    | with_reducible exact h
    | with_reducible assumption
    | fail_if_no_progress with_reducible refine Within.set_fmn (sub rfl hF) ?_
    | with_reducible refine newSession_within (sub rfl hF) ?_ _
    | with_reducible refine runCmd_within (sub rfl hF) ?_ ?_ _ _ _ _ _
    | with_reducible refine checked_within (sub rfl hF) ?_ ?_ _ _ _
    | with_reducible refine respond_within (sub rfl hF) ?_ _ _ _ _
    | with_reducible refine sendMsg_within (sub rfl hF) ?_ _ _ _ _ _
    | with_reducible refine Within.ite ?_ ?_
    | split
    | intro)

theorem crewLost_within {F : List Field} {s u : State} (hF : [Field.fmn] ⊆ F) (h : Within F s u) (a0 : _) :
    Within F s (crewLost a0 u) := by
  unfold crewLost
  try dsimp only
  repeat' (first
    | with_reducible exact h
    | with_reducible assumption
    | with_reducible refine updManaged_within (sub rfl hF) ?_ _ _
    | with_reducible refine logEvent_within (sub rfl hF) ?_ _ _ _ _
    | with_reducible refine Within.ite ?_ ?_)

theorem crewRelay_within {F : List Field} {s u : State} (hF : [Field.welts, Field.fmn, Field.pwr] ⊆ F) (h : Within F s u) (a0 : _) :
    Within F s (crewRelay a0 u) := by
  unfold crewRelay
  try dsimp only
  repeat' (first
    | with_reducible exact h
    | with_reducible assumption
    | fail_if_no_progress with_reducible refine Within.set_fmn (sub rfl hF) ?_
    | with_reducible refine runCmd_within (sub rfl hF) ?_ ?_ _ _ _ _ _
    | with_reducible refine respond_within (sub rfl hF) ?_ _ _ _ _
    | with_reducible refine sendMsg_within (sub rfl hF) ?_ _ _ _ _ _
    | with_reducible refine State_updMbox_within (sub rfl hF) ?_ _ _
    | with_reducible refine Within.ite ?_ ?_
    | split
    | intro)

theorem crewStatus_within {F : List Field} {s u : State} (hF : [Field.welts, Field.fmn, Field.pwr] ⊆ F) (h : Within F s u) (a0 : _) :
    Within F s (crewStatus a0 u) := by
  unfold crewStatus
  try dsimp only
  repeat' (first
    | with_reducible exact h
    | with_reducible assumption
    | with_reducible refine runCmd_within (sub rfl hF) ?_ ?_ _ _ _ _ _
    | with_reducible refine respond_within (sub rfl hF) ?_ _ _ _ _
    | with_reducible refine Within.ite ?_ ?_
    | split
    | intro)

theorem csend_within {F : List Field} {s u : State} (hF : [Field.mem, Field.bad, Field.cores, Field.benches, Field.parts, Field.fmn, Field.trc, Field.board, Field.free] ⊆ F) (h : Within F s u) (a0 : _) :
    Within F s (csend a0 u) := by
  unfold csend
  try dsimp only
  repeat' (first
    | with_reducible exact h
    | with_reducible assumption
    | with_reducible refine commit_within (sub rfl hF) ?_ _ _ _
    | with_reducible refine pushes_within (sub rfl hF) ?_ _
    | refine Within.of_ok (by assumption) (pushes_within (sub rfl hF) ?_ _)
    | refine Within.of_held (by assumption) (pushes_within (sub rfl hF) ?_ _)
    | refine Within.of_exc (by assumption) (pushes_within (sub rfl hF) ?_ _)
    | refine Within.of_done (by assumption) (pushes_within (sub rfl hF) ?_ _)
    | with_reducible refine issue_within (sub rfl hF) ?_ ?_ _ _ _ _ _ _
    | with_reducible refine traceSend_within (sub rfl hF) ?_ _ _ _ _ _
    | with_reducible refine Within.out_ok ?_
    | with_reducible refine Within.out_held ?_
    | with_reducible refine Within.out_exc ?_
    | with_reducible refine Within.out_done ?_
    | with_reducible refine Within.ite ?_ ?_
    | split
    | intro)

theorem csendCommit_within {F : List Field} {s u : State} (hF : [Field.mem, Field.bad, Field.cores, Field.benches, Field.trc, Field.free] ⊆ F) (h : Within F s u) (a0 : _) :
    Within F s (csendCommit a0 u) := by
  unfold csendCommit
  try dsimp only
  repeat' (first
    | with_reducible exact h
    | with_reducible assumption
    | with_reducible refine commit_within (sub rfl hF) ?_ _ _ _
    | with_reducible refine completeHeld_within (sub rfl hF) ?_ _ _
    | with_reducible refine Within.ite ?_ ?_
    | split)

theorem csendTimeout_within {F : List Field} {s u : State} (hF : [Field.mem, Field.bad, Field.cores, Field.benches, Field.ring, Field.trc, Field.free] ⊆ F) (h : Within F s u) (a0 : _) :
    Within F s (csendTimeout a0 u) := by
  unfold csendTimeout
  try dsimp only
  repeat' (first
    | with_reducible exact h
    | with_reducible assumption
    | with_reducible refine traceSend_within (sub rfl hF) ?_ _ _ _ _ _
    | with_reducible refine completeHeld_within (sub rfl hF) ?_ _ _
    | with_reducible refine syncErr_within (sub rfl hF) ?_ _ _ _ _
    | with_reducible refine syncWrite_within (sub rfl hF) ?_ _ _ _
    | with_reducible refine count_within (sub rfl hF) ?_ _ _ _
    | with_reducible refine Within.ite ?_ ?_
    | split)

theorem cstat_within {F : List Field} {s u : State} (hF : [Field.mem, Field.bad, Field.cores, Field.benches, Field.parts, Field.fmn, Field.trc, Field.board, Field.free] ⊆ F) (h : Within F s u) (a0 : _) :
    Within F s (cstat a0 u) := by
  unfold cstat
  try dsimp only
  repeat' (first
    | with_reducible exact h
    | with_reducible assumption
    | with_reducible refine pushes_within (sub rfl hF) ?_ _
    | refine Within.of_ok (by assumption) (pushes_within (sub rfl hF) ?_ _)
    | refine Within.of_held (by assumption) (pushes_within (sub rfl hF) ?_ _)
    | refine Within.of_exc (by assumption) (pushes_within (sub rfl hF) ?_ _)
    | refine Within.of_done (by assumption) (pushes_within (sub rfl hF) ?_ _)
    | with_reducible refine issue_within (sub rfl hF) ?_ ?_ _ _ _ _ _ _
    | with_reducible refine State_updChanOf_within (sub rfl hF) ?_ _ _ _
    | with_reducible refine Within.out_ok ?_
    | with_reducible refine Within.out_held ?_
    | with_reducible refine Within.out_exc ?_
    | with_reducible refine Within.out_done ?_
    | with_reducible refine Within.ite ?_ ?_
    | split
    | intro)

theorem serveAccess_within {F : List Field} {s u : State} (hF : [Field.ring, Field.ringSide] ⊆ F) (h : Within F s u) (a0 : _) (a1 : _) :
    Within F s (serveAccess a0 a1 u) := by
  unfold serveAccess
  try dsimp only
  repeat' (first
    | with_reducible exact h
    | with_reducible assumption
    | fail_if_no_progress with_reducible refine Within.set_ringSide (sub rfl hF) ?_
    | with_reducible refine ringPut_within (sub rfl hF) ?_ _ _ _
    | with_reducible refine Within.ite ?_ ?_
    | split)

theorem cxlComplete_within {F : List Field} {s u : State} (hF : [Field.ring, Field.ringSide] ⊆ F) (h : Within F s u) (a0 : _) :
    Within F s (cxlComplete a0 u) := by
  unfold cxlComplete
  try dsimp only
  repeat' (first
    | with_reducible exact h
    | with_reducible assumption
    | with_reducible refine serveAccess_within (sub rfl hF) ?_ _ _
    | with_reducible refine Within.ite ?_ ?_
    | split)

theorem dataErr_within {F : List Field} {s u : State} (hF : [Field.cores, Field.benches, Field.welts, Field.parts, Field.fmn, Field.trc] ⊆ F) (h : Within F s u) (a0 : _) :
    Within F s (dataErr a0 u) := by
  unfold dataErr
  try dsimp only
  repeat' (first
    | with_reducible exact h
    | with_reducible assumption
    | with_reducible refine forAll_within ?_ ?_
    | with_reducible refine recordCont_within (sub rfl hF) ?_ _ _ _ _
    | with_reducible refine settleDesc_within (sub rfl hF) ?_ _ _
    | with_reducible refine forAll_within (sub rfl hF) ?_ _ _
    | with_reducible refine setPend_within (sub rfl hF) ?_ _ _
    | with_reducible refine State_updWelt_within (sub rfl hF) ?_ _ _
    | with_reducible refine State_updSlotOf_within (sub rfl hF) ?_ _ _ _
    | with_reducible refine Within.ite ?_ ?_
    | split
    | intro)

theorem weltWrote_within {F : List Field} {s u : State} (hF : [Field.welts] ⊆ F) (h : Within F s u) (a0 : _) (a1 : _) (a2 : _) :
    Within F s (weltWrote a0 a1 a2 u) := by
  unfold weltWrote
  try dsimp only
  repeat' (first
    | with_reducible exact h
    | with_reducible assumption
    | with_reducible refine forAll_within ?_ ?_
    | with_reducible refine forAll_within (sub rfl hF) ?_ _ _
    | with_reducible refine State_updWelt_within (sub rfl hF) ?_ _ _
    | with_reducible refine Within.ite ?_ ?_
    | split
    | intro)

theorem dataFlit_within {F : List Field} {s u : State} (hF : [Field.mem, Field.bad, Field.cores, Field.benches, Field.welts, Field.streams, Field.parts, Field.fmn, Field.trc] ⊆ F) (h : Within F s u) (a0 : _) :
    Within F s (dataFlit a0 u) := by
  unfold dataFlit
  try dsimp only
  repeat' (first
    | with_reducible exact h
    | with_reducible assumption
    | with_reducible refine weltWrote_within (sub rfl hF) ?_ _ _ _
    | with_reducible refine dataErr_within (sub rfl hF) ?_ _
    | with_reducible refine landed_within (sub rfl hF) ?_ _ _ _
    | with_reducible refine absorbData_within (sub rfl hF) ?_ _
    | with_reducible refine write_within (sub rfl hF) ?_ _ _
    | with_reducible refine Within.ite ?_ ?_
    | split)

theorem movesGo_within {F : List Field} {s u : State} (hF : [Field.ring, Field.fmn] ⊆ F) (h : Within F s u) :
    Within F s (movesGo u) := by
  unfold movesGo
  try dsimp only
  repeat' (first
    | with_reducible exact h
    | with_reducible assumption
    | fail_if_no_progress with_reducible refine Within.set_fmn (sub rfl hF) ?_
    | with_reducible refine forAll_within ?_ ?_
    | with_reducible refine hostAccess_within (sub rfl hF) ?_ _
    | with_reducible refine forAll_within (sub rfl hF) ?_ _ _
    | with_reducible refine Within.ite ?_ ?_
    | split
    | intro)

theorem moveEnds_within {F : List Field} {s u : State} (hF : [Field.welts, Field.ring, Field.fmn, Field.pwr] ⊆ F) (h : Within F s u) (a0 : _) (a1 : _) :
    Within F s (moveEnds a0 a1 u) := by
  unfold moveEnds
  try dsimp only
  repeat' (first
    | with_reducible exact h
    | with_reducible assumption
    | fail_if_no_progress with_reducible refine Within.set_fmn (sub rfl hF) ?_
    | with_reducible refine movesGo_within (sub rfl hF) ?_ 
    | with_reducible refine touch_within (sub rfl hF) ?_ 
    | with_reducible refine respond_within (sub rfl hF) ?_ _ _ _ _
    | with_reducible refine Within.ite ?_ ?_)

theorem moveBack_within {F : List Field} {s u : State} (hF : [Field.welts, Field.ring, Field.fmn, Field.pwr] ⊆ F) (h : Within F s u) (a0 : _) (a1 : _) (a2 : _) :
    Within F s (moveBack a0 a1 a2 u) := by
  unfold moveBack
  try dsimp only
  repeat' (first
    | with_reducible exact h
    | with_reducible assumption
    | fail_if_no_progress with_reducible refine Within.set_fmn (sub rfl hF) ?_
    | with_reducible refine moveEnds_within (sub rfl hF) ?_ _ _
    | with_reducible refine movesGo_within (sub rfl hF) ?_ 
    | with_reducible refine hostEvent_within (sub rfl hF) ?_ _ _ _ _
    | with_reducible refine Within.ite ?_ ?_)

theorem readBack_within {F : List Field} {s u : State} (hF : [Field.ring, Field.fmn] ⊆ F) (h : Within F s u) (a0 : _) (a1 : _) (a2 : _) :
    Within F s (readBack a0 a1 a2 u) := by
  unfold readBack
  try dsimp only
  repeat' (first
    | with_reducible exact h
    | with_reducible assumption
    | fail_if_no_progress with_reducible refine Within.set_fmn (sub rfl hF) ?_
    | with_reducible refine dropRead_within (sub rfl hF) ?_ _
    | with_reducible refine hostAccess_within (sub rfl hF) ?_ _
    | with_reducible refine completeRead_within (sub rfl hF) ?_ _ _ _ _ _
    | with_reducible refine hostEvent_within (sub rfl hF) ?_ _ _ _ _
    | with_reducible refine Within.ite ?_ ?_)

theorem hostResponse_within {F : List Field} {s u : State} (hF : [Field.welts, Field.ring, Field.fmn, Field.pwr] ⊆ F) (h : Within F s u) (a0 : _) (a1 : _) (a2 : _) :
    Within F s (hostResponse a0 a1 a2 u) := by
  unfold hostResponse
  try dsimp only
  repeat' (first
    | with_reducible exact h
    | with_reducible assumption
    | with_reducible refine readBack_within (sub rfl hF) ?_ _ _ _
    | with_reducible refine moveBack_within (sub rfl hF) ?_ _ _ _
    | with_reducible refine Within.ite ?_ ?_
    | split)

theorem fillData_within {F : List Field} {s u : State} (hF : [Field.benches] ⊆ F) (h : Within F s u) (a0 : _) (a1 : _) (a2 : _) (a3 : _) :
    Within F s (fillData a0 a1 a2 a3 u) := by
  unfold fillData
  try dsimp only
  repeat' (first
    | with_reducible exact h
    | with_reducible assumption
    | with_reducible refine State_updBench_within (sub rfl hF) ?_ _ _)

theorem itemDone_within {F : List Field} {s u : State} (hF : [Field.benches] ⊆ F) (h : Within F s u) (a0 : _) (a1 : _) :
    Within F s (itemDone a0 a1 u) := by
  unfold itemDone
  try dsimp only
  repeat' (first
    | with_reducible exact h
    | with_reducible assumption
    | with_reducible refine State_updBench_within (sub rfl hF) ?_ _ _)

theorem ringAccess_within {F : List Field} {s u : State} (hF : [Field.ring] ⊆ F) (h : Within F s u) (a0 : _) (a1 : _) (a2 : _) (a3 : _) (a4 : _) :
    Within F s (ringAccess a0 a1 a2 a3 a4 u) := by
  unfold ringAccess
  try dsimp only
  repeat' (first
    | with_reducible exact h
    | with_reducible assumption
    | with_reducible refine ringPut_within (sub rfl hF) ?_ _ _ _)

theorem ringNext_within {F : List Field} {s u : State} (hF : [Field.bad, Field.cores, Field.benches, Field.parts, Field.ring, Field.fmn, Field.trc] ⊆ F) (h : Within F s u) (a0 : _) (a1 : _) :
    Within F s (ringNext a0 a1 u) := by
  unfold ringNext
  try dsimp only
  repeat' (first
    | with_reducible exact h
    | with_reducible assumption
    | with_reducible refine ringAccess_within (sub rfl hF) ?_ _ _ _ _ _
    | with_reducible refine descFault_within (sub rfl hF) ?_ _ _ _ _ _ _
    | with_reducible refine noteRead_within (sub rfl hF) ?_ _ _
    | with_reducible refine settleDesc_within (sub rfl hF) ?_ _ _
    | with_reducible refine State_updSlotOf_within (sub rfl hF) ?_ _ _ _
    | with_reducible refine Within.ite ?_ ?_
    | split)

theorem ringBack_within {F : List Field} {s u : State} (hF : [Field.mem, Field.bad, Field.cores, Field.benches, Field.parts, Field.ring, Field.fmn, Field.trc] ⊆ F) (h : Within F s u) (a0 : _) (a1 : _) (a2 : _) (a3 : _) (a4 : _) (a5 : _) (a6 : _) :
    Within F s (ringBack a0 a1 a2 a3 a4 a5 a6 u) := by
  unfold ringBack
  try dsimp only
  repeat' (first
    | with_reducible exact h
    | with_reducible assumption
    | with_reducible refine ringNext_within (sub rfl hF) ?_ _ _
    | with_reducible refine ringAccess_within (sub rfl hF) ?_ _ _ _ _ _
    | with_reducible refine descFault_within (sub rfl hF) ?_ _ _ _ _ _ _
    | with_reducible refine landed_within (sub rfl hF) ?_ _ _ _
    | with_reducible refine settleDesc_within (sub rfl hF) ?_ _ _
    | with_reducible refine write_within (sub rfl hF) ?_ _ _
    | with_reducible refine State_updSlotOf_within (sub rfl hF) ?_ _ _ _
    | with_reducible refine Within.ite ?_ ?_
    | split)

theorem uloadData_within {F : List Field} {s u : State} (hF : [Field.benches] ⊆ F) (h : Within F s u) (a0 : _) (a1 : _) (a2 : _) (a3 : _) :
    Within F s (uloadData a0 a1 a2 a3 u) := by
  unfold uloadData
  try dsimp only
  repeat' (first
    | with_reducible exact h
    | with_reducible assumption
    | with_reducible refine State_updBench_within (sub rfl hF) ?_ _ _)

theorem ringResponse_within {F : List Field} {s u : State} (hF : [Field.mem, Field.bad, Field.cores, Field.benches, Field.parts, Field.ring, Field.fmn, Field.trc] ⊆ F) (h : Within F s u) (a0 : _) (a1 : _) (a2 : _) (a3 : _) (a4 : _) :
    Within F s (ringResponse a0 a1 a2 a3 a4 u) := by
  unfold ringResponse
  try dsimp only
  repeat' (first
    | with_reducible exact h
    | with_reducible assumption
    | with_reducible refine uloadData_within (sub rfl hF) ?_ _ _ _ _
    | with_reducible refine ringBack_within (sub rfl hF) ?_ _ _ _ _ _ _ _
    | with_reducible refine itemDone_within (sub rfl hF) ?_ _ _
    | with_reducible refine fillData_within (sub rfl hF) ?_ _ _ _ _
    | with_reducible refine settleDesc_within (sub rfl hF) ?_ _ _
    | with_reducible refine absorb_within (sub rfl hF) ?_ _
    | with_reducible refine State_updSlotOf_within (sub rfl hF) ?_ _ _ _
    | with_reducible refine Within.ite ?_ ?_
    | split)

theorem takeCheck_within {F : List Field} {s u : State} (hF : [Field.benches, Field.ring] ⊆ F) (h : Within F s u) (a0 : _) (a1 : _) :
    Within F s (takeCheck a0 a1 u) := by
  unfold takeCheck
  try dsimp only
  repeat' (first
    | with_reducible exact h
    | with_reducible assumption
    | with_reducible refine answerOpen_within (sub rfl hF) ?_ _ _ _ _
    | with_reducible refine ringPut_within (sub rfl hF) ?_ _ _ _
    | with_reducible refine State_updQueueOf_within (sub rfl hF) ?_ _ _ _
    | with_reducible refine Within.ite ?_ ?_)

theorem deliverPacket_within {F : List Field} {s u : State} (hF : [Field.mem, Field.bad, Field.cores, Field.benches, Field.ports, Field.welts, Field.parts, Field.ring, Field.ringSide, Field.fmn, Field.pwr, Field.trc, Field.free] ⊆ F) (h : Within F s u) (a0 : _) :
    Within F s (deliverPacket a0 u) := by
  unfold deliverPacket
  try dsimp only
  repeat' (first
    | with_reducible exact h
    | with_reducible assumption
    | fail_if_no_progress with_reducible refine Within.set_ringSide (sub rfl hF) ?_
    | with_reducible refine takeCheck_within (sub rfl hF) ?_ _ _
    | with_reducible refine ringResponse_within (sub rfl hF) ?_ _ _ _ _ _
    | with_reducible refine hostResponse_within (sub rfl hF) ?_ _ _ _
    | with_reducible refine collect_within (sub rfl hF) ?_ _
    | with_reducible refine acceptWrite_within (sub rfl hF) ?_ _ _ _ _ _ _ _
    | with_reducible refine logMerged_within (sub rfl hF) ?_ _ _ _ _
    | with_reducible refine acceptHost_within (sub rfl hF) ?_ _
    | with_reducible refine toInbox_within (sub rfl hF) ?_ _ _ _
    | with_reducible refine syncWrite_within (sub rfl hF) ?_ _ _ _
    | with_reducible refine Within.ite ?_ ?_
    | split)

theorem descriptorAborted_within {F : List Field} {s u : State} (hF : [Field.benches] ⊆ F) (h : Within F s u) (a0 : _) (a1 : _) :
    Within F s (descriptorAborted a0 a1 u) := by
  unfold descriptorAborted
  try dsimp only
  repeat' (first
    | with_reducible exact h
    | with_reducible assumption
    | with_reducible refine State_updSlotOf_within (sub rfl hF) ?_ _ _ _
    | with_reducible refine Within.ite ?_ ?_)

theorem descriptorStart_within {F : List Field} {s u : State} (hF : [Field.bad, Field.cores, Field.benches, Field.parts, Field.ring, Field.fmn, Field.trc] ⊆ F) (h : Within F s u) (a0 : _) (a1 : _) :
    Within F s (descriptorStart a0 a1 u) := by
  unfold descriptorStart
  try dsimp only
  repeat' (first
    | with_reducible exact h
    | with_reducible assumption
    | with_reducible refine ringNext_within (sub rfl hF) ?_ _ _
    | with_reducible refine State_updSlotOf_within (sub rfl hF) ?_ _ _ _
    | with_reducible refine Within.ite ?_ ?_
    | split)

theorem joinReset_within {F : List Field} {s u : State} (hF : [Field.parts, Field.resets] ⊆ F) (h : Within F s u) (a0 : _) (a1 : _) :
    Within F s (joinReset a0 a1 u) := by
  unfold joinReset
  try dsimp only
  repeat' (first
    | with_reducible exact h
    | with_reducible assumption
    | fail_if_no_progress with_reducible refine Within.set_resets (sub rfl hF) ?_
    | with_reducible refine beginReset_within (sub rfl hF) ?_ _ _
    | with_reducible refine Within.ite ?_ ?_)

theorem releaseProg_within {F : List Field} {s u : State} (hF : [Field.benches, Field.clicker] ⊆ F) (h : Within F s u) (a0 : _) :
    Within F s (releaseProg a0 u) := by
  unfold releaseProg
  try dsimp only
  repeat' (first
    | with_reducible exact h
    | with_reducible assumption
    | fail_if_no_progress with_reducible refine Within.set_clicker (sub rfl hF) ?_
    | with_reducible refine forAll_within ?_ ?_
    | with_reducible refine forAll_within (sub rfl hF) ?_ _ _
    | with_reducible refine State_updBench_within (sub rfl hF) ?_ _ _
    | with_reducible refine Within.ite ?_ ?_
    | split
    | intro)

theorem unload_within {F : List Field} {s u : State} (hF : [Field.benches, Field.parts, Field.clicker] ⊆ F) (h : Within F s u) (a0 : _) (a1 : _) :
    Within F s (unload a0 a1 u) := by
  unfold unload
  try dsimp only
  repeat' (first
    | with_reducible exact h
    | with_reducible assumption
    | with_reducible refine releaseProg_within (sub rfl hF) ?_ _
    | with_reducible refine putReloc_within (sub rfl hF) ?_ _ _
    | with_reducible refine State_updPart_within (sub rfl hF) ?_ _ _
    | with_reducible refine Within.ite ?_ ?_)

theorem destroyPartition_within {F : List Field} {s u : State} (hF : [Field.benches, Field.welts, Field.parts, Field.clicker, Field.fmn, Field.pwr, Field.resets] ⊆ F) (h : Within F s u) (a0 : _) :
    Within F s (destroyPartition a0 u) := by
  unfold destroyPartition
  try dsimp only
  repeat' (first
    | with_reducible exact h
    | with_reducible assumption
    | with_reducible refine forAll_within ?_ ?_
    | with_reducible refine unload_within (sub rfl hF) ?_ _ _
    | with_reducible refine joinReset_within (sub rfl hF) ?_ _ _
    | with_reducible refine runCmd_within (sub rfl hF) ?_ ?_ _ _ _ _ _
    | with_reducible refine checked_within (sub rfl hF) ?_ ?_ _ _ _
    | with_reducible refine respond_within (sub rfl hF) ?_ _ _ _ _
    | with_reducible refine forAll_within (sub rfl hF) ?_ _ _
    | with_reducible refine Within.ite ?_ ?_
    | split
    | intro)

theorem doRetx_within {F : List Field} {s u : State} (hF : [Field.cores] ⊆ F) (h : Within F s u) (a0 : _) :
    Within F s (doRetx a0 u) := by
  unfold doRetx
  try dsimp only
  repeat' (first
    | with_reducible exact h
    | with_reducible assumption
    | with_reducible refine State_updCtx_within (sub rfl hF) ?_ _ _
    | with_reducible refine State_updCore_within (sub rfl hF) ?_ _ _
    | with_reducible refine Within.foldl ?_ ?_
    | with_reducible refine Within.ite ?_ ?_)

theorem refuseIdle_within {F : List Field} {s u : State} (hF : [Field.pwr] ⊆ F) (h : Within F s u) :
    Within F s (refuseIdle u) := by
  unfold refuseIdle
  try dsimp only
  repeat' (first
    | with_reducible exact h
    | with_reducible assumption
    | fail_if_no_progress with_reducible refine Within.set_pwr (sub rfl hF) ?_)

theorem wetarOff_within {F : List Field} {s u : State} (hF : [Field.mem, Field.bad, Field.cores, Field.benches, Field.flits, Field.arrivals, Field.ports, Field.welts, Field.streams, Field.parts, Field.clicker, Field.ring, Field.ringTurn, Field.ringSide, Field.pwr, Field.trc, Field.board] ⊆ F) (h : Within F s u) :
    Within F s (wetarOff u) := by
  unfold wetarOff
  try dsimp only
  repeat' (first
    | with_reducible exact h
    | with_reducible assumption
    | fail_if_no_progress with_reducible refine Within.set_many16_board (sub rfl hF) ?_
    | with_reducible refine forAll_within ?_ ?_
    | with_reducible refine forAll_within (sub rfl hF) ?_ _ _
    | with_reducible refine State_updPart_within (sub rfl hF) ?_ _ _
    | with_reducible refine Within.ite ?_ ?_
    | split
    | intro)

theorem doze_within {F : List Field} {s u : State} (hF : [Field.mem, Field.bad, Field.cores, Field.benches, Field.flits, Field.arrivals, Field.ports, Field.welts, Field.streams, Field.parts, Field.clicker, Field.ring, Field.ringTurn, Field.ringSide, Field.fmn, Field.pwr, Field.trc, Field.board] ⊆ F) (h : Within F s u) (a0 : _) :
    Within F s (doze a0 u) := by
  unfold doze
  try dsimp only
  repeat' (first
    | with_reducible exact h
    | with_reducible assumption
    | fail_if_no_progress with_reducible refine Within.set_fmn_pwr (sub rfl hF) ?_
    | with_reducible refine wetarOff_within (sub rfl hF) ?_ 
    | with_reducible refine refuseIdle_within (sub rfl hF) ?_ 
    | with_reducible refine Within.ite ?_ ?_)

theorem drainAgain_within {F : List Field} {s u : State} (hF : [Field.parts] ⊆ F) (h : Within F s u) (a0 : _) :
    Within F s (drainAgain a0 u) := by
  unfold drainAgain
  try dsimp only
  repeat' (first
    | with_reducible exact h
    | with_reducible assumption
    | with_reducible refine State_updPart_within (sub rfl hF) ?_ _ _
    | with_reducible refine Within.ite ?_ ?_)

theorem dropRequests_within {F : List Field} {s u : State} (hF : [Field.cores, Field.benches, Field.clicker, Field.ring] ⊆ F) (h : Within F s u) (a0 : _) :
    Within F s (dropRequests a0 u) := by
  unfold dropRequests
  try dsimp only
  repeat' (first
    | with_reducible exact h
    | with_reducible assumption
    | fail_if_no_progress with_reducible refine Within.set_clicker_ring (sub rfl hF) ?_
    | with_reducible refine forAll_within ?_ ?_
    | with_reducible refine dropReq_within (sub rfl hF) ?_ _
    | with_reducible refine forAll_within (sub rfl hF) ?_ _ _
    | with_reducible refine Within.ite ?_ ?_
    | split
    | intro)

theorem dropTx_within {F : List Field} {s u : State} (hF : [Field.welts, Field.pwr] ⊆ F) (h : Within F s u) (a0 : _) (a1 : _) (a2 : _) :
    Within F s (dropTx a0 a1 a2 u) := by
  unfold dropTx
  try dsimp only
  repeat' (first
    | with_reducible exact h
    | with_reducible assumption
    | with_reducible refine touch_within (sub rfl hF) ?_ 
    | with_reducible refine State_updWelt_within (sub rfl hF) ?_ _ _)

theorem dropWait_within {F : List Field} {s u : State} (hF : [Field.mem, Field.bad, Field.cores, Field.benches, Field.clicker, Field.ring, Field.trc, Field.free] ⊆ F) (h : Within F s u) (a0 : _) :
    Within F s (dropWait a0 u) := by
  unfold dropWait
  try dsimp only
  repeat' (first
    | with_reducible exact h
    | with_reducible assumption
    | fail_if_no_progress with_reducible refine Within.set_clicker_ring (sub rfl hF) ?_
    | with_reducible refine dropCopen_within (sub rfl hF) ?_ _ _
    | with_reducible refine discardTile_within (sub rfl hF) ?_ _
    | with_reducible refine abortChan_within (sub rfl hF) ?_ _ _
    | with_reducible refine abandon_within (sub rfl hF) ?_ _
    | with_reducible refine State_updCtx_within (sub rfl hF) ?_ _ _
    | with_reducible refine State_updCore_within (sub rfl hF) ?_ _ _
    | with_reducible refine Within.ite ?_ ?_
    | split)

theorem emptySlot_within {F : List Field} {s u : State} (hF : [Field.benches] ⊆ F) (h : Within F s u) (a0 : _) (a1 : _) :
    Within F s (emptySlot a0 a1 u) := by
  unfold emptySlot
  try dsimp only
  repeat' (first
    | with_reducible exact h
    | with_reducible assumption
    | with_reducible refine State_updSlotOf_within (sub rfl hF) ?_ _ _ _)

theorem releaseUnits_within {F : List Field} {s u : State} (hF : [Field.cores, Field.benches, Field.ring] ⊆ F) (h : Within F s u) (a0 : _) :
    Within F s (releaseUnits a0 u) := by
  unfold releaseUnits
  try dsimp only
  repeat' (first
    | with_reducible exact h
    | with_reducible assumption
    | with_reducible refine forAll_within ?_ ?_
    | with_reducible refine disarm_within (sub rfl hF) ?_ _ _
    | with_reducible refine forAll_within (sub rfl hF) ?_ _ _
    | with_reducible refine State_updCore_within (sub rfl hF) ?_ _ _
    | with_reducible refine State_updBench_within (sub rfl hF) ?_ _ _
    | with_reducible refine Within.ite ?_ ?_
    | split
    | intro)

theorem endSteps_within {F : List Field} {s u : State} (hF : [Field.mem, Field.bad, Field.cores, Field.benches, Field.clicker, Field.ring, Field.trc, Field.free] ⊆ F) (h : Within F s u) (a0 : _) (a1 : _) :
    Within F s (endSteps a0 a1 u) := by
  unfold endSteps
  try dsimp only
  repeat' (first
    | with_reducible exact h
    | with_reducible assumption
    | with_reducible refine forAll_within ?_ ?_
    | with_reducible refine releaseUnits_within (sub rfl hF) ?_ _
    | with_reducible refine abortOpen_within (sub rfl hF) ?_ _ _
    | with_reducible refine forAll_within (sub rfl hF) ?_ _ _
    | with_reducible refine toSlice_within (sub rfl hF) ?_ _ _ _ _
    | with_reducible refine setPend_within (sub rfl hF) ?_ _ _
    | with_reducible refine State_updCtx_within (sub rfl hF) ?_ _ _
    | with_reducible refine State_updCore_within (sub rfl hF) ?_ _ _
    | with_reducible refine Within.ite ?_ ?_
    | split
    | intro)

theorem enterW1_within {F : List Field} {s u : State} (hF : [Field.pwr] ⊆ F) (h : Within F s u) :
    Within F s (enterW1 u) := by
  unfold enterW1
  try dsimp only
  repeat' (first
    | with_reducible exact h
    | with_reducible assumption
    | fail_if_no_progress with_reducible refine Within.set_pwr (sub rfl hF) ?_
    | with_reducible refine Within.ite ?_ ?_)

theorem enterW2_within {F : List Field} {s u : State} (hF : [Field.pwr] ⊆ F) (h : Within F s u) :
    Within F s (enterW2 u) := by
  unfold enterW2
  try dsimp only
  repeat' (first
    | with_reducible exact h
    | with_reducible assumption
    | fail_if_no_progress with_reducible refine Within.set_pwr (sub rfl hF) ?_
    | with_reducible refine Within.ite ?_ ?_)

theorem errorReport_within {F : List Field} {s u : State} (hF : [Field.mem, Field.bad, Field.cores, Field.benches, Field.welts, Field.parts, Field.ring, Field.fmn, Field.pwr, Field.boot, Field.faults, Field.free] ⊆ F) (h : Within F s u) (a0 : _) (a1 : _) (a2 : _) (a3 : _) :
    Within F s (errorReport a0 a1 a2 a3 u) := by
  unfold errorReport
  try dsimp only
  repeat' (first
    | with_reducible exact h
    | with_reducible assumption
    | with_reducible refine countEvent_within (sub rfl hF) ?_ _ _ _
    | with_reducible refine stopPart_within (sub rfl hF) ?_ _ _
    | with_reducible refine Within.ite ?_ ?_)

theorem leakage_within {F : List Field} {s u : State} (hF : [Field.free] ⊆ F) (h : Within F s u) (a0 : _) (a1 : _) (a2 : _) :
    Within F s (leakage a0 a1 a2 u).2 := by
  unfold leakage
  try dsimp only
  repeat' (first
    | with_reducible exact h
    | with_reducible assumption
    | fail_if_no_progress with_reducible refine Within.set_free (sub rfl hF) ?_
    | with_reducible refine Within.ite ?_ ?_
    | split)

theorem estimate_within {F : List Field} {s u : State} (hF : [Field.free] ⊆ F) (h : Within F s u) (a0 : _) (a1 : _) (a2 : _) :
    Within F s (estimate a0 a1 a2 u).2 := by
  unfold estimate
  try dsimp only
  repeat' (first
    | with_reducible exact h
    | with_reducible assumption
    | with_reducible refine leakage_within (sub rfl hF) ?_ _ _ _
    | refine Within.snd (by assumption) (leakage_within (sub rfl hF) ?_ _ _ _)
    | with_reducible refine rounded_within (sub rfl hF) ?_ _ _)

theorem estimates_within {F : List Field} {s u : State} (hF : [Field.free] ⊆ F) (h : Within F s u) (a0 : _) (a1 : _) :
    Within F s (estimates a0 a1 u).2 := by
  unfold estimates
  have : ∀ (l : List Nat) (r : List (Nat × Nat) × State), Within F s r.2 → Within F s (l.foldl (fun r p =>
      if (r.2.part p).live then
        let (e, s1) := estimate p a0 a1 r.2
        (r.1 ++ [(p, e)], s1)
      else r) r).2 := by
    intro l
    induction l with
    | nil => intro r hr; exact hr
    | cons p l ih =>
      intro r hr
      refine ih _ ?_
      dsimp only
      split
      · exact estimate_within (sub rfl hF) hr _ _ _
      · exact hr
  exact this _ _ h

theorem nameAll_within {F : List Field} {s u : State} (hF : [Field.cores] ⊆ F) (h : Within F s u) (a0 : _) (a1 : _) (a2 : _) :
    ∀ v, nameAll a0 a1 a2 u = .inr v → Within F s v := by
  induction a2 generalizing u with
  | nil => intro v e; cases e; exact h
  | cons x r ih =>
    intro v e
    unfold nameAll at e
    dsimp only at e
    split at e
    · exact ih (nameUnit_within (sub rfl hF) h _ _ _ _ _ (by assumption)) v e
    · contradiction

theorem tileChecks_within {F : List Field} {s u : State} (hF : [Field.cores] ⊆ F) (h : Within F s u) {go : State → Out}
    (hg : ∀ v, Within F s v → Within F s (outState (go v))) (a0 : _) (a1 : _) (a2 : _) (a3 : _) (a4 : _) (a5 : _) :
    Within F s (outState (tileChecks a0 a1 a2 a3 a4 a5 u go)) := by
  unfold tileChecks
  split
  · exact h
  split
  · exact h
  · exact hg _ (nameAll_within (sub rfl hF) h _ _ _ _ (by assumption))

theorem tileIssue_within {F : List Field} {s u : State} (hF : [Field.mem, Field.bad, Field.cores, Field.benches, Field.parts, Field.fmn, Field.trc, Field.board, Field.free] ⊆ F) (h : Within F s u) (a0 : _) (a1 : _) (a2 : _) :
    Within F s (tileIssue a0 a1 a2 u) := by
  unfold tileIssue
  try dsimp only
  repeat' (first
    | with_reducible exact h
    | with_reducible assumption
    | with_reducible refine tileChecks_within (sub rfl hF) ?_ ?_ _ _ _ _ _ _
    | refine Within.of_ok (by assumption) (tileChecks_within (sub rfl hF) ?_ ?_ _ _ _ _ _ _)
    | refine Within.of_held (by assumption) (tileChecks_within (sub rfl hF) ?_ ?_ _ _ _ _ _ _)
    | refine Within.of_exc (by assumption) (tileChecks_within (sub rfl hF) ?_ ?_ _ _ _ _ _ _)
    | refine Within.of_done (by assumption) (tileChecks_within (sub rfl hF) ?_ ?_ _ _ _ _ _ _)
    | with_reducible refine issue_within (sub rfl hF) ?_ ?_ _ _ _ _ _ _
    | with_reducible refine State_updCore_within (sub rfl hF) ?_ _ _
    | with_reducible refine Within.out_ok ?_
    | with_reducible refine Within.out_held ?_
    | with_reducible refine Within.out_exc ?_
    | with_reducible refine Within.out_done ?_
    | with_reducible refine Within.ite ?_ ?_
    | split
    | intro)

theorem scalar_within {F : List Field} {s u : State} (hF : [Field.mem, Field.bad, Field.cores, Field.benches, Field.parts, Field.fmn, Field.trc, Field.board, Field.free] ⊆ F) (h : Within F s u) (a0 : _) (a1 : _) (a2 : _) (a3 : _) (a4 : _) :
    Within F s (scalar a0 a1 a2 a3 a4 u) := by
  unfold scalar
  try dsimp only
  repeat' (first
    | with_reducible exact h
    | with_reducible assumption
    | with_reducible refine pushes_within (sub rfl hF) ?_ _
    | refine Within.of_ok (by assumption) (pushes_within (sub rfl hF) ?_ _)
    | refine Within.of_held (by assumption) (pushes_within (sub rfl hF) ?_ _)
    | refine Within.of_exc (by assumption) (pushes_within (sub rfl hF) ?_ _)
    | refine Within.of_done (by assumption) (pushes_within (sub rfl hF) ?_ _)
    | with_reducible refine issue_within (sub rfl hF) ?_ ?_ _ _ _ _ _ _
    | with_reducible refine Within.out_ok ?_
    | with_reducible refine Within.out_held ?_
    | with_reducible refine Within.out_exc ?_
    | with_reducible refine Within.out_done ?_
    | with_reducible refine Within.ite ?_ ?_
    | split
    | intro)

theorem sampleDone_within {F : List Field} {s u : State} (hF : [Field.bad, Field.cores, Field.benches, Field.free] ⊆ F) (h : Within F s u) (a0 : _) :
    Within F s (sampleDone a0 u) := by
  unfold sampleDone
  try dsimp only
  repeat' (first
    | with_reducible exact h
    | with_reducible assumption
    | with_reducible refine forAll_within ?_ ?_
    | with_reducible refine compareColumn_within (sub rfl hF) ?_ _ _ _ _ _
    | with_reducible refine noteRead_within (sub rfl hF) ?_ _ _
    | with_reducible refine forAll_within (sub rfl hF) ?_ _ _
    | with_reducible refine count_within (sub rfl hF) ?_ _ _ _
    | with_reducible refine State_updCore_within (sub rfl hF) ?_ _ _
    | with_reducible refine State_updBench_within (sub rfl hF) ?_ _ _
    | with_reducible refine Within.foldl ?_ ?_
    | with_reducible refine Within.ite ?_ ?_
    | split
    | intro)

theorem windowEnd_within {F : List Field} {s u : State} (hF : [Field.benches] ⊆ F) (h : Within F s u) (a0 : _) :
    Within F s (windowEnd a0 u) := by
  unfold windowEnd
  try dsimp only
  repeat' (first
    | with_reducible exact h
    | with_reducible assumption
    | with_reducible refine State_updBench_within (sub rfl hF) ?_ _ _
    | with_reducible refine Within.ite ?_ ?_
    | split)

theorem windowStart_within {F : List Field} {s u : State} (hF : [Field.benches] ⊆ F) (h : Within F s u) (a0 : _) :
    Within F s (windowStart a0 u) := by
  unfold windowStart
  try dsimp only
  repeat' (first
    | with_reducible exact h
    | with_reducible assumption
    | with_reducible refine State_updBench_within (sub rfl hF) ?_ _ _
    | with_reducible refine Within.ite ?_ ?_
    | split)

theorem goes_within {F : List Field} {s u : State} (hF : [] ⊆ F) (h : Within F s u) (a1 : _) (a2 : _) :
    Within F s (outState (goes u a1 a2)) := h

theorem rngCommand_within {F : List Field} {s u : State} (hF : [Field.mem, Field.bad, Field.benches] ⊆ F) (h : Within F s u) (a0 : _) (a1 : _) (a2 : _) (a3 : _) :
    Within F s (rngCommand a0 a1 a2 a3 u) := by
  unfold rngCommand
  try dsimp only
  repeat' (first
    | with_reducible exact h
    | with_reducible assumption
    | with_reducible refine rngWrite_within (sub rfl hF) ?_ _ _
    | with_reducible refine Within.ite ?_ ?_)

theorem readPair_within {F : List Field} {s u : State} (hF : [Field.cores, Field.benches, Field.parts] ⊆ F) (h : Within F s u) (a0 : _) (a1 : _) :
    Within F s (readPair a0 a1 u).1 := by
  unfold readPair
  try dsimp only
  repeat' (first
    | with_reducible exact h
    | with_reducible assumption
    | with_reducible refine coreCount_within (sub rfl hF) ?_ _ _ _
    | with_reducible refine State_updCtx_within (sub rfl hF) ?_ _ _
    | with_reducible refine Within.ite ?_ ?_)

theorem srRead_within {F : List Field} {s u : State} (hF : [Field.cores, Field.benches, Field.parts] ⊆ F) (h : Within F s u) (a0 : _) (a1 : _) (a2 : _) :
    Within F s (srRead a0 a1 a2 u).1 := by
  unfold srRead
  dsimp only
  have h1 := readPair_within (sub rfl hF) h a1 a2
  have h2 := State_updCtx_within (sub rfl hF) h a1 (settle (mulDone (coreNow u)))
  have h3 := State_updCtx_within (sub rfl hF) h a0 (fun x => { x with cycHi := word (cyc u a1.core / 2 ^ 32) })
  refine ite_fst h ?_
  refine ite_fst h ?_
  refine ite_fst h ?_
  refine ite_fst (ite_fst h1 h2) ?_
  refine ite_fst h ?_
  refine ite_fst h ?_
  refine ite_fst h ?_
  refine ite_fst h ?_
  refine ite_fst h3 ?_
  repeat' first | exact h | refine ite_fst h ?_

theorem srWriteCore_within {F : List Field} {s u : State} (hF : [Field.cores] ⊆ F) (h : Within F s u) (a0 : _) (a1 : _) (a2 : _) :
    ∀ v, srWriteCore a0 a1 a2 u = .ok v → Within F s v := by
  have hp : ∀ w v, Wr.ok (u.updCore a0 (fun k => k.setReg a1 w)) = .ok v → Within F s v := by
    intro w v e; cases e; exact State_updCore_within (sub rfl hF) h _ _
  have hr : ∀ v, Wr.refused = .ok v → Within F s v := by intro v e; contradiction
  have hw : ∀ w v, Wr.wait w = .ok v → Within F s v := by intro w v e; contradiction
  have hs : ∀ v, Wr.ok u = .ok v → Within F s v := by intro v e; cases e; exact h
  have hc := classWrite_within (sub rfl hF) h a0 a1 a2
  unfold srWriteCore
  dsimp only
  repeat' first | exact hs | exact hr | exact hp _ | exact hw _ | exact hc | refine ite_wr ?_ ?_

theorem srWriteThread_within {F : List Field} {s u : State} (hF : [Field.cores] ⊆ F) (h : Within F s u) (a0 : _) (a1 : _) (a2 : _) :
    ∀ v, srWriteThread a0 a1 a2 u = .ok v → Within F s v := by
  have hp : ∀ f v, Wr.ok (u.updCtx a0 f) = .ok v → Within F s v := by
    intro f v e; cases e; exact State_updCtx_within (sub rfl hF) h _ _
  have hr : ∀ v, Wr.refused = .ok v → Within F s v := by intro v e; contradiction
  have hw : ∀ w v, Wr.wait w = .ok v → Within F s v := by intro w v e; contradiction
  have hs : ∀ v, Wr.ok u = .ok v → Within F s v := by intro v e; cases e; exact h
  unfold srWriteThread
  dsimp only
  repeat' first | exact hs | exact hr | exact hp _ | exact hw _ | refine ite_wr ?_ ?_

theorem srWrite_within {F : List Field} {s u : State} (hF : [Field.cores] ⊆ F) (h : Within F s u) (a0 : _) (a1 : _) (a2 : _) :
    ∀ v, srWrite a0 a1 a2 u = .ok v → Within F s v := by
  intro v e
  unfold srWrite at e
  try dsimp only at e
  repeat' split at e
  all_goals (try contradiction)
  all_goals (first | cases e | skip)
  all_goals repeat' (first | with_reducible exact h | with_reducible assumption | refine srWriteThread_within (sub rfl hF) ?_ _ _ _ _ (by assumption) | refine srWriteCore_within (sub rfl hF) ?_ _ _ _ _ (by assumption) | with_reducible refine Within.ite ?_ ?_ | split | intro)

theorem writeSr_within {F : List Field} {s u : State} (hF : [Field.mem, Field.bad, Field.cores, Field.benches, Field.parts, Field.fmn, Field.trc, Field.board, Field.free] ⊆ F) (h : Within F s u) (a0 : _) (a1 : _) (a2 : _) (a3 : _) (a4 : _) :
    Within F s (writeSr a0 a1 a2 a3 a4 u) := by
  unfold writeSr
  try dsimp only
  repeat' (first
    | with_reducible exact h
    | with_reducible assumption
    | refine srWrite_within (sub rfl hF) ?_ _ _ _ _ (by assumption)
    | with_reducible refine fault_within (sub rfl hF) ?_ _ _ _ _ _
    | with_reducible refine completeHeld_within (sub rfl hF) ?_ _ _
    | with_reducible refine setPend_within (sub rfl hF) ?_ _ _
    | with_reducible refine Within.ite ?_ ?_
    | split)

theorem writeReg_within {F : List Field} {s u : State} (hF : [Field.mem, Field.bad, Field.cores, Field.benches, Field.ports, Field.welts, Field.parts, Field.ring, Field.fmn, Field.pwr, Field.trc, Field.board, Field.free] ⊆ F) (h : Within F s u) (a0 : _) (a1 : _) (a2 : _) :
    Within F s (writeReg a0 a1 a2 u) := by
  unfold writeReg
  try dsimp only
  repeat' (first
    | with_reducible exact h
    | with_reducible assumption
    | with_reducible refine writeSr_within (sub rfl hF) ?_ _ _ _ _ _
    | with_reducible refine blkWrite_within (sub rfl hF) ?_ _ _ _
    | with_reducible refine Within.ite ?_ ?_
    | split)

theorem relayTimeout_within {F : List Field} {s u : State} (hF : [Field.welts, Field.fmn] ⊆ F) (h : Within F s u) (a0 : _) :
    Within F s (relayTimeout a0 u) := by
  unfold relayTimeout
  try dsimp only
  repeat' (first
    | with_reducible exact h
    | with_reducible assumption
    | with_reducible refine respond_within (sub rfl hF) ?_ _ _ _ _
    | with_reducible refine Within.ite ?_ ?_
    | split)

theorem fastRelease_within {F : List Field} {s u : State} (hF : [Field.pwr] ⊆ F) (h : Within F s u) (a0 : _) :
    Within F s (fastRelease a0 u) := by
  unfold fastRelease
  try dsimp only
  repeat' (first
    | with_reducible exact h
    | with_reducible assumption
    | with_reducible refine releaseSource_within (sub rfl hF) ?_ _
    | with_reducible refine Within.ite ?_ ?_)

theorem fastStep_within {F : List Field} {s u : State} (hF : [Field.pwr] ⊆ F) (h : Within F s u) :
    Within F s (fastStep u) := by
  unfold fastStep
  try dsimp only
  repeat' (first
    | with_reducible exact h
    | with_reducible assumption
    | fail_if_no_progress with_reducible refine Within.set_pwr (sub rfl hF) ?_
    | with_reducible refine downStep_within (sub rfl hF) ?_ 
    | with_reducible refine Within.ite ?_ ?_
    | split)

theorem fastTrip_within {F : List Field} {s u : State} (hF : [Field.parts, Field.fmn, Field.pwr] ⊆ F) (h : Within F s u) (a0 : _) :
    Within F s (fastTrip a0 u) := by
  unfold fastTrip
  try dsimp only
  repeat' (first
    | with_reducible exact h
    | with_reducible assumption
    | with_reducible refine endPulse_within (sub rfl hF) ?_ 
    | with_reducible refine assertSource_within (sub rfl hF) ?_ _
    | with_reducible refine Within.ite ?_ ?_)

theorem faultReset_within {F : List Field} {s u : State} (hF : [Field.parts, Field.resets] ⊆ F) (h : Within F s u) (a0 : _) :
    Within F s (faultReset a0 u) := by
  unfold faultReset
  try dsimp only
  repeat' (first
    | with_reducible exact h
    | with_reducible assumption
    | with_reducible refine beginReset_within (sub rfl hF) ?_ _ _
    | with_reducible refine Within.ite ?_ ?_)

theorem fenceInstr_within {F : List Field} {s u : State} (hF : [Field.mem, Field.bad, Field.cores, Field.benches, Field.parts, Field.fmn, Field.trc, Field.board, Field.free] ⊆ F) (h : Within F s u) (a0 : _) (a1 : _) :
    Within F s (fenceInstr a0 a1 u) := by
  unfold fenceInstr
  try dsimp only
  repeat' (first
    | with_reducible exact h
    | with_reducible assumption
    | with_reducible refine pushes_within (sub rfl hF) ?_ _
    | refine Within.of_ok (by assumption) (pushes_within (sub rfl hF) ?_ _)
    | refine Within.of_held (by assumption) (pushes_within (sub rfl hF) ?_ _)
    | refine Within.of_exc (by assumption) (pushes_within (sub rfl hF) ?_ _)
    | refine Within.of_done (by assumption) (pushes_within (sub rfl hF) ?_ _)
    | with_reducible refine issue_within (sub rfl hF) ?_ ?_ _ _ _ _ _ _
    | with_reducible refine Within.out_ok ?_
    | with_reducible refine Within.out_held ?_
    | with_reducible refine Within.out_exc ?_
    | with_reducible refine Within.out_done ?_
    | with_reducible refine Within.ite ?_ ?_
    | split
    | intro)

theorem faultHeld_within {F : List Field} {s u : State} (hF : [Field.mem, Field.bad, Field.cores, Field.benches, Field.parts, Field.fmn, Field.trc, Field.board, Field.free] ⊆ F) (h : Within F s u) (a0 : _) (a1 : _) (a2 : _) :
    Within F s (faultHeld a0 a1 a2 u) := by
  unfold faultHeld
  try dsimp only
  repeat' (first
    | with_reducible exact h
    | with_reducible assumption
    | with_reducible refine fault_within (sub rfl hF) ?_ _ _ _ _ _
    | with_reducible refine stopCheck_within (sub rfl hF) ?_ _ _
    | with_reducible refine State_updCtx_within (sub rfl hF) ?_ _ _)

theorem loadFault_within {F : List Field} {s u : State} (hF : [Field.mem, Field.bad, Field.cores, Field.benches, Field.parts, Field.fmn, Field.trc, Field.board, Field.free] ⊆ F) (h : Within F s u) (a0 : _) (a1 : _) (a2 : _) :
    Within F s (loadFault a0 a1 a2 u) := by
  unfold loadFault
  try dsimp only
  repeat' (first
    | with_reducible exact h
    | with_reducible assumption
    | with_reducible refine faultHeld_within (sub rfl hF) ?_ _ _ _
    | with_reducible refine recordCont_within (sub rfl hF) ?_ _ _ _ _)

theorem wakeLoads_within {F : List Field} {s u : State} (hF : [Field.mem, Field.bad, Field.cores, Field.benches, Field.parts, Field.fmn, Field.trc, Field.board, Field.free] ⊆ F) (h : Within F s u) (a0 : _) (a1 : _) (a2 : _) :
    Within F s (wakeLoads a0 a1 a2 u) := by
  unfold wakeLoads
  try dsimp only
  repeat' (first
    | with_reducible exact h
    | with_reducible assumption
    | with_reducible refine forAll_within ?_ ?_
    | with_reducible refine loadFault_within (sub rfl hF) ?_ _ _ _
    | with_reducible refine completeHeld_within (sub rfl hF) ?_ _ _
    | with_reducible refine forAll_within (sub rfl hF) ?_ _ _
    | with_reducible refine Within.ite ?_ ?_
    | split
    | intro)

theorem fillComplete_within {F : List Field} {s u : State} (hF : [Field.mem, Field.bad, Field.cores, Field.benches, Field.parts, Field.fmn, Field.trc, Field.board, Field.free] ⊆ F) (h : Within F s u) (a0 : _) :
    Within F s (fillComplete a0 u) := by
  unfold fillComplete
  try dsimp only
  repeat' (first
    | with_reducible exact h
    | with_reducible assumption
    | with_reducible refine wakeLoads_within (sub rfl hF) ?_ _ _ _
    | with_reducible refine actSr_within (sub rfl hF) ?_ _
    | with_reducible refine State_updBench_within (sub rfl hF) ?_ _ _
    | with_reducible refine Within.ite ?_ ?_
    | split)

theorem openFlit_within {F : List Field} {s u : State} (hF : [Field.mem, Field.bad, Field.cores, Field.benches, Field.ring, Field.fmn, Field.trc] ⊆ F) (h : Within F s u) (a0 : _) (a1 : _) (a2 : _) :
    Within F s (openFlit a0 a1 a2 u) := by
  unfold openFlit
  try dsimp only
  repeat' (first
    | with_reducible exact h
    | with_reducible assumption
    | with_reducible refine chanFlit_within (sub rfl hF) ?_ _ _
    | with_reducible refine toSlice_within (sub rfl hF) ?_ _ _ _ _
    | with_reducible refine toInbox_within (sub rfl hF) ?_ _ _ _
    | with_reducible refine Within.ite ?_ ?_
    | split)

theorem takeFlit_within {F : List Field} {s u : State} (hF : [Field.mem, Field.bad, Field.cores, Field.benches, Field.welts, Field.streams, Field.parts, Field.ring, Field.fmn, Field.trc] ⊆ F) (h : Within F s u) (a0 : _) (a1 : _) :
    Within F s (takeFlit a0 a1 u) := by
  unfold takeFlit
  try dsimp only
  repeat' (first
    | with_reducible exact h
    | with_reducible assumption
    | with_reducible refine openFlit_within (sub rfl hF) ?_ _ _ _
    | with_reducible refine dataFlit_within (sub rfl hF) ?_ _
    | with_reducible refine count_within (sub rfl hF) ?_ _ _ _
    | with_reducible refine Within.ite ?_ ?_
    | split)

theorem flitArrival_within {F : List Field} {s u : State} (hF : [Field.mem, Field.bad, Field.cores, Field.benches, Field.arrivals, Field.welts, Field.streams, Field.parts, Field.ring, Field.fmn, Field.trc] ⊆ F) (h : Within F s u) (a0 : _) :
    Within F s (flitArrival a0 u) := by
  unfold flitArrival
  try dsimp only
  repeat' (first
    | with_reducible exact h
    | with_reducible assumption
    | with_reducible refine takeFlit_within (sub rfl hF) ?_ _ _
    | with_reducible refine openFlit_within (sub rfl hF) ?_ _ _ _
    | refine takeArrival_within (sub rfl hF) ?_ _ (_, _) (by assumption)
    | refine takeArrival_within (sub rfl hF) ?_ _ _ (by assumption)
    | with_reducible refine inboxDrop_within (sub rfl hF) ?_ _ _
    | with_reducible refine Within.ite ?_ ?_
    | split)

theorem startFork_within {F : List Field} {s u : State} (hF : [Field.cores, Field.benches] ⊆ F) (h : Within F s u) (a0 : _) (a1 : _) (a2 : _) (a3 : _) (a4 : _) :
    Within F s (startFork a0 a1 a2 a3 a4 u) := by
  unfold startFork
  try dsimp only
  repeat' (first
    | with_reducible exact h
    | with_reducible assumption
    | with_reducible refine toSlice_within (sub rfl hF) ?_ _ _ _ _
    | with_reducible refine State_updCtx_within (sub rfl hF) ?_ _ _)

theorem fork_within {F : List Field} {s u : State} (hF : [Field.mem, Field.bad, Field.cores, Field.benches, Field.parts, Field.fmn, Field.trc, Field.board, Field.free] ⊆ F) (h : Within F s u) (a0 : _) :
    Within F s (fork a0 u) := by
  unfold fork
  try dsimp only
  repeat' (first
    | with_reducible exact h
    | with_reducible assumption
    | with_reducible refine startFork_within (sub rfl hF) ?_ _ _ _ _ _
    | with_reducible refine pushes_within (sub rfl hF) ?_ _
    | refine Within.of_ok (by assumption) (pushes_within (sub rfl hF) ?_ _)
    | refine Within.of_held (by assumption) (pushes_within (sub rfl hF) ?_ _)
    | refine Within.of_exc (by assumption) (pushes_within (sub rfl hF) ?_ _)
    | refine Within.of_done (by assumption) (pushes_within (sub rfl hF) ?_ _)
    | with_reducible refine issue_within (sub rfl hF) ?_ ?_ _ _ _ _ _ _
    | with_reducible refine Within.out_ok ?_
    | with_reducible refine Within.out_held ?_
    | with_reducible refine Within.out_exc ?_
    | with_reducible refine Within.out_done ?_
    | with_reducible refine Within.ite ?_ ?_
    | split
    | intro)

theorem startCore_within {F : List Field} {s u : State} (hF : [Field.cores] ⊆ F) (h : Within F s u) (a0 : _) (a1 : _) (a2 : _) (a3 : _) :
    Within F s (startCore a0 a1 a2 a3 u) := by
  unfold startCore
  try dsimp only
  repeat' (first
    | with_reducible exact h
    | with_reducible assumption
    | with_reducible refine forAll_within ?_ ?_
    | with_reducible refine forAll_within (sub rfl hF) ?_ _ _
    | with_reducible refine State_updCtx_within (sub rfl hF) ?_ _ _
    | with_reducible refine Within.foldl ?_ ?_
    | with_reducible refine Within.ite ?_ ?_
    | split
    | intro)

theorem traceFrame_within {F : List Field} {s u : State} (hF : [Field.benches, Field.trc] ⊆ F) (h : Within F s u) (a0 : _) (a1 : _) (a2 : _) :
    Within F s (traceFrame a0 a1 a2 u) := by
  unfold traceFrame
  try dsimp only
  repeat' (first
    | with_reducible exact h
    | with_reducible assumption
    | with_reducible refine trace_within (sub rfl hF) ?_ _ _ _ _ _ _)

theorem startFrame_within {F : List Field} {s u : State} (hF : [Field.cores, Field.benches, Field.parts, Field.trc] ⊆ F) (h : Within F s u) (a0 : _) (a1 : _) :
    Within F s (startFrame a0 a1 u) := by
  unfold startFrame
  try dsimp only
  repeat' (first
    | with_reducible exact h
    | with_reducible assumption
    | with_reducible refine forAll_within ?_ ?_
    | with_reducible refine traceFrame_within (sub rfl hF) ?_ _ _ _
    | with_reducible refine startCore_within (sub rfl hF) ?_ _ _ _ _
    | with_reducible refine forAll_within (sub rfl hF) ?_ _ _
    | with_reducible refine State_updPart_within (sub rfl hF) ?_ _ _
    | with_reducible refine State_updBench_within (sub rfl hF) ?_ _ _
    | with_reducible refine Within.foldl ?_ ?_
    | with_reducible refine Within.ite ?_ ?_
    | split
    | intro)

theorem frameStart_within {F : List Field} {s u : State} (hF : [Field.cores, Field.benches, Field.parts, Field.trc] ⊆ F) (h : Within F s u) (a0 : _) :
    Within F s (frameStart a0 u) := by
  unfold frameStart
  try dsimp only
  repeat' (first
    | with_reducible exact h
    | with_reducible assumption
    | with_reducible refine startFrame_within (sub rfl hF) ?_ _ _
    | with_reducible refine State_updPart_within (sub rfl hF) ?_ _ _
    | with_reducible refine Within.ite ?_ ?_
    | split)

theorem syncRelease_within {F : List Field} {s u : State} (hF : [Field.cores, Field.benches, Field.parts, Field.trc] ⊆ F) (h : Within F s u) (a0 : _) :
    Within F s (syncRelease a0 u) := by
  unfold syncRelease
  try dsimp only
  repeat' (first
    | with_reducible exact h
    | with_reducible assumption
    | with_reducible refine frameStart_within (sub rfl hF) ?_ _
    | with_reducible refine State_updPart_within (sub rfl hF) ?_ _ _
    | with_reducible refine Within.ite ?_ ?_)

theorem frameSyncEdge_latch_within {F : List Field} {s u : State} (hF : [Field.cores, Field.benches, Field.parts, Field.trc, Field.board] ⊆ F) (h : Within F s u) :
    Within F s (frameSyncEdge.latch u) := by
  unfold frameSyncEdge.latch
  try dsimp only
  repeat' (first
    | with_reducible exact h
    | with_reducible assumption
    | fail_if_no_progress with_reducible refine Within.set_board (sub rfl hF) ?_
    | with_reducible refine forAll_within ?_ ?_
    | with_reducible refine syncRelease_within (sub rfl hF) ?_ _
    | with_reducible refine forAll_within (sub rfl hF) ?_ _ _
    | with_reducible refine Within.ite ?_ ?_
    | split
    | intro)

theorem frameSyncEdge_within {F : List Field} {s u : State} (hF : [Field.cores, Field.benches, Field.parts, Field.trc, Field.board] ⊆ F) (h : Within F s u) :
    Within F s (frameSyncEdge u) := by
  unfold frameSyncEdge
  try dsimp only
  repeat' (first
    | with_reducible exact h
    | with_reducible assumption
    | with_reducible refine frameSyncEdge_latch_within (sub rfl hF) ?_ 
    | with_reducible refine Within.ite ?_ ?_
    | split)

theorem frameSyncMiss_within {F : List Field} {s u : State} (hF : [Field.cores, Field.benches, Field.parts, Field.trc] ⊆ F) (h : Within F s u) (a0 : _) :
    Within F s (frameSyncMiss a0 u) := by
  unfold frameSyncMiss
  try dsimp only
  repeat' (first
    | with_reducible exact h
    | with_reducible assumption
    | fail_if_no_progress with_reducible refine Within.set_trc (sub rfl hF) ?_
    | with_reducible refine syncRelease_within (sub rfl hF) ?_ _
    | with_reducible refine Within.ite ?_ ?_
    | split)

theorem orphan_within {F : List Field} {s u : State} (hF : [Field.parts, Field.fmn, Field.resets] ⊆ F) (h : Within F s u) (a0 : _) :
    Within F s (orphan a0 u) := by
  unfold orphan
  try dsimp only
  repeat' (first
    | with_reducible exact h
    | with_reducible assumption
    | fail_if_no_progress with_reducible refine Within.set_fmn_resets (sub rfl hF) ?_
    | with_reducible refine forAll_within ?_ ?_
    | with_reducible refine forAll_within (sub rfl hF) ?_ _ _
    | with_reducible refine State_updPart_within (sub rfl hF) ?_ _ _
    | with_reducible refine State_updMbox_within (sub rfl hF) ?_ _ _
    | with_reducible refine Within.ite ?_ ?_
    | split
    | intro)

theorem functionLevelReset_within {F : List Field} {s u : State} (hF : [Field.parts, Field.fmn, Field.resets] ⊆ F) (h : Within F s u) (a0 : _) :
    Within F s (functionLevelReset a0 u) := by
  unfold functionLevelReset
  try dsimp only
  repeat' (first
    | with_reducible exact h
    | with_reducible assumption
    | with_reducible refine forAll_within ?_ ?_
    | with_reducible refine orphan_within (sub rfl hF) ?_ _
    | with_reducible refine forAll_within (sub rfl hF) ?_ _ _
    | with_reducible refine State_updMbox_within (sub rfl hF) ?_ _ _
    | with_reducible refine Within.ite ?_ ?_
    | split
    | intro)

theorem fwActivate_within {F : List Field} {s u : State} (hF : [Field.welts, Field.fmn, Field.pwr, Field.boot] ⊆ F) (h : Within F s u) (a0 : _) :
    Within F s (fwActivate a0 u) := by
  unfold fwActivate
  try dsimp only
  repeat' (first
    | with_reducible exact h
    | with_reducible assumption
    | fail_if_no_progress with_reducible refine Within.set_boot (sub rfl hF) ?_
    | with_reducible refine runCmd_within (sub rfl hF) ?_ ?_ _ _ _ _ _
    | with_reducible refine checked_within (sub rfl hF) ?_ ?_ _ _ _
    | with_reducible refine respond_within (sub rfl hF) ?_ _ _ _ _
    | with_reducible refine Within.ite ?_ ?_
    | split
    | intro)

theorem fwStage_within {F : List Field} {s u : State} (hF : [Field.welts, Field.fmn, Field.pwr, Field.boot] ⊆ F) (h : Within F s u) (a0 : _) :
    Within F s (fwStage a0 u) := by
  unfold fwStage
  try dsimp only
  repeat' (first
    | with_reducible exact h
    | with_reducible assumption
    | fail_if_no_progress with_reducible refine Within.set_boot (sub rfl hF) ?_
    | with_reducible refine runCmd_within (sub rfl hF) ?_ ?_ _ _ _ _ _
    | with_reducible refine respond_within (sub rfl hF) ?_ _ _ _ _
    | with_reducible refine Within.ite ?_ ?_
    | split
    | intro)

theorem refuseTally_within {F : List Field} {s u : State} (hF : [Field.cores, Field.benches, Field.ring, Field.trc] ⊆ F) (h : Within F s u) (a0 : _) :
    Within F s (refuseTally a0 u) := by
  unfold refuseTally
  try dsimp only
  repeat' (first
    | with_reducible exact h
    | with_reducible assumption
    | with_reducible refine setTally_within (sub rfl hF) ?_ _ _
    | with_reducible refine traceTally_within (sub rfl hF) ?_ _ _ _ _ _ _
    | with_reducible refine anomaly_within (sub rfl hF) ?_ _ _ _ _
    | with_reducible refine answer_within (sub rfl hF) ?_ _ _ _
    | with_reducible refine Within.ite ?_ ?_
    | split)

theorem performTally_within {F : List Field} {s u : State} (hF : [Field.cores, Field.benches, Field.ring, Field.trc] ⊆ F) (h : Within F s u) (a0 : _) :
    Within F s (performTally a0 u) := by
  unfold performTally
  try dsimp only
  repeat' (first
    | with_reducible exact h
    | with_reducible assumption
    | with_reducible refine refuseTally_within (sub rfl hF) ?_ _
    | with_reducible refine applyTally_within (sub rfl hF) ?_ _
    | with_reducible refine traceTally_within (sub rfl hF) ?_ _ _ _ _ _ _
    | with_reducible refine anomaly_within (sub rfl hF) ?_ _ _ _ _
    | with_reducible refine Within.ite ?_ ?_)

theorem runDeferred_within {F : List Field} {s u : State} (hF : [Field.cores, Field.benches, Field.ring, Field.trc] ⊆ F) (h : Within F s u) (a0 : _) (a1 : _) :
    Within F s (runDeferred a0 a1 u) := by
  induction a1 generalizing u with
  | zero => exact h
  | succ n ih =>
    unfold runDeferred
    split
    · exact h
    · exact Within.ite h (ih (performTally_within (sub rfl hF) (State_updBench_within (sub rfl hF) h _ _) _))

theorem getAttestation_within {F : List Field} {s u : State} (hF : [Field.welts, Field.fmn, Field.pwr] ⊆ F) (h : Within F s u) (a0 : _) :
    Within F s (getAttestation a0 u) := by
  unfold getAttestation
  try dsimp only
  repeat' (first
    | with_reducible exact h
    | with_reducible assumption
    | with_reducible refine runCmd_within (sub rfl hF) ?_ ?_ _ _ _ _ _
    | with_reducible refine putAttest_within (sub rfl hF) ?_ _ _
    | with_reducible refine respond_within (sub rfl hF) ?_ _ _ _ _
    | with_reducible refine Within.ite ?_ ?_
    | split
    | intro)

theorem getEnergy_within {F : List Field} {s u : State} (hF : [Field.welts, Field.fmn, Field.pwr] ⊆ F) (h : Within F s u) (a0 : _) :
    Within F s (getEnergy a0 u) := by
  unfold getEnergy
  try dsimp only
  repeat' (first
    | with_reducible exact h
    | with_reducible assumption
    | with_reducible refine runCmd_within (sub rfl hF) ?_ ?_ _ _ _ _ _
    | with_reducible refine respond_within (sub rfl hF) ?_ _ _ _ _
    | with_reducible refine Within.ite ?_ ?_
    | split
    | intro)

theorem getEvents_within {F : List Field} {s u : State} (hF : [Field.welts, Field.fmn, Field.pwr] ⊆ F) (h : Within F s u) (a0 : _) :
    Within F s (getEvents a0 u) := by
  unfold getEvents
  try dsimp only
  repeat' (first
    | with_reducible exact h
    | with_reducible assumption
    | fail_if_no_progress with_reducible refine Within.set_fmn (sub rfl hF) ?_
    | with_reducible refine runCmd_within (sub rfl hF) ?_ ?_ _ _ _ _ _
    | with_reducible refine checked_within (sub rfl hF) ?_ ?_ _ _ _
    | with_reducible refine respond_within (sub rfl hF) ?_ _ _ _ _
    | with_reducible refine Within.ite ?_ ?_
    | split
    | intro)

theorem getInfo_within {F : List Field} {s u : State} (hF : [Field.welts, Field.fmn, Field.pwr] ⊆ F) (h : Within F s u) (a0 : _) :
    Within F s (getInfo a0 u) := by
  unfold getInfo
  try dsimp only
  repeat' (first
    | with_reducible exact h
    | with_reducible assumption
    | with_reducible refine runCmd_within (sub rfl hF) ?_ ?_ _ _ _ _ _
    | with_reducible refine respond_within (sub rfl hF) ?_ _ _ _ _
    | with_reducible refine Within.ite ?_ ?_
    | split
    | intro)

theorem globalLoadReturn_within {F : List Field} {s u : State} (hF : [Field.mem, Field.bad, Field.cores, Field.benches, Field.parts, Field.fmn, Field.trc, Field.board, Field.free] ⊆ F) (h : Within F s u) (a0 : _) :
    Within F s (globalLoadReturn a0 u) := by
  unfold globalLoadReturn
  try dsimp only
  repeat' (first
    | with_reducible exact h
    | with_reducible assumption
    | with_reducible refine loadFault_within (sub rfl hF) ?_ _ _ _
    | with_reducible refine completeHeld_within (sub rfl hF) ?_ _ _
    | with_reducible refine State_updBench_within (sub rfl hF) ?_ _ _
    | with_reducible refine Within.ite ?_ ?_
    | split)

theorem weltCount_within {F : List Field} {s u : State} (hF : [Field.welts] ⊆ F) (h : Within F s u) (a0 : _) (a1 : _) (a2 : _) :
    Within F s (weltCount a0 a1 a2 u) := by
  unfold weltCount
  try dsimp only
  repeat' (first
    | with_reducible exact h
    | with_reducible assumption
    | with_reducible refine State_updWelt_within (sub rfl hF) ?_ _ _)

theorem mgmtBad_within {F : List Field} {s u : State} (hF : [Field.welts] ⊆ F) (h : Within F s u) (a0 : _) :
    Within F s (mgmtBad a0 u) := by
  unfold mgmtBad
  try dsimp only
  repeat' (first
    | with_reducible exact h
    | with_reducible assumption
    | with_reducible refine weltCount_within (sub rfl hF) ?_ _ _ _)

theorem takeMsg_within {F : List Field} {s u : State} (hF : [Field.welts, Field.fmn] ⊆ F) (h : Within F s u) (a0 : _) :
    ∀ v, takeMsg a0 u = some v → Within F s v.2 := by
  intro v e
  unfold takeMsg at e
  try dsimp only at e
  repeat' split at e
  all_goals (try contradiction)
  all_goals (first | cases e | skip)
  all_goals repeat' (first | with_reducible exact h | with_reducible assumption | fail_if_no_progress with_reducible refine Within.set_fmn (sub rfl hF) ?_ | with_reducible refine mgmtBad_within (sub rfl hF) ?_ _ | with_reducible refine countMsg_within (sub rfl hF) ?_ _ | with_reducible refine updSession_within (sub rfl hF) ?_ _ _ | with_reducible refine Within.ite ?_ ?_ | split | intro)

theorem heartbeat_within {F : List Field} {s u : State} (hF : [Field.welts, Field.fmn] ⊆ F) (h : Within F s u) :
    Within F s (heartbeat u) := by
  unfold heartbeat
  try dsimp only
  repeat' (first
    | with_reducible exact h
    | with_reducible assumption
    | refine takeMsg_within (sub rfl hF) ?_ _ (_, _) (by assumption)
    | refine takeMsg_within (sub rfl hF) ?_ _ _ (by assumption)
    | with_reducible refine updManaged_within (sub rfl hF) ?_ _ _
    | with_reducible refine Within.ite ?_ ?_
    | split)

theorem heartbeatTimer_within {F : List Field} {s u : State} (hF : [Field.welts, Field.fmn, Field.free] ⊆ F) (h : Within F s u) :
    Within F s (heartbeatTimer u) := by
  unfold heartbeatTimer
  try dsimp only
  repeat' (first
    | with_reducible exact h
    | with_reducible assumption
    | fail_if_no_progress with_reducible refine Within.set_fmn (sub rfl hF) ?_
    | with_reducible refine takeFree_within (sub rfl hF) ?_ 
    | refine Within.snd (by assumption) (takeFree_within (sub rfl hF) ?_ )
    | with_reducible refine sendMsg_within (sub rfl hF) ?_ _ _ _ _ _
    | with_reducible refine Within.ite ?_ ?_
    | split)

theorem heldStart_within {F : List Field} {s u : State} (hF : [Field.now, Field.mem, Field.bad, Field.cores, Field.benches, Field.flits, Field.arrivals, Field.ports, Field.welts, Field.streams, Field.parts, Field.clicker, Field.ring, Field.ringTurn, Field.ringSide, Field.fmn, Field.pwr, Field.boot, Field.trc, Field.board, Field.faults, Field.resets] ⊆ F) (h : Within F s u) (a0 : _) :
    Within F s (heldStart a0 u) := by
  unfold heldStart
  try dsimp only
  repeat' (first
    | with_reducible exact h
    | with_reducible assumption
    | with_reducible refine moduleReset_within (sub rfl hF) ?_ 
    | with_reducible refine Within.ite ?_ ?_)

theorem holdExpiry_within {F : List Field} {s u : State} (hF : [Field.cores, Field.benches, Field.parts] ⊆ F) (h : Within F s u) (a0 : _) :
    Within F s (holdExpiry a0 u) := by
  unfold holdExpiry
  try dsimp only
  repeat' (first
    | with_reducible exact h
    | with_reducible assumption
    | with_reducible refine coreCount_within (sub rfl hF) ?_ _ _ _
    | with_reducible refine State_updCtx_within (sub rfl hF) ?_ _ _
    | with_reducible refine Within.ite ?_ ?_
    | split)

theorem hostMove_within {F : List Field} {s u : State} (hF : [Field.welts, Field.ring, Field.fmn, Field.pwr] ⊆ F) (h : Within F s u) (a0 : _) (a1 : _) :
    Within F s (hostMove a0 a1 u) := by
  unfold hostMove
  try dsimp only
  repeat' (first
    | with_reducible exact h
    | with_reducible assumption
    | fail_if_no_progress with_reducible refine Within.set_fmn (sub rfl hF) ?_
    | with_reducible refine movesGo_within (sub rfl hF) ?_ 
    | with_reducible refine runCmd_within (sub rfl hF) ?_ ?_ _ _ _ _ _
    | with_reducible refine checked_within (sub rfl hF) ?_ ?_ _ _ _
    | with_reducible refine freshSerial_within (sub rfl hF) ?_ 
    | refine Within.snd (by assumption) (freshSerial_within (sub rfl hF) ?_ )
    | with_reducible refine touch_within (sub rfl hF) ?_ 
    | with_reducible refine respond_within (sub rfl hF) ?_ _ _ _ _
    | with_reducible refine Within.ite ?_ ?_
    | split
    | intro)

theorem i3cRead_within {F : List Field} {s u : State} (hF : [Field.board] ⊆ F) (h : Within F s u) (a0 : _) :
    Within F s (i3cRead a0 u) := by
  unfold i3cRead
  try dsimp only
  repeat' (first
    | with_reducible exact h
    | with_reducible assumption
    | fail_if_no_progress with_reducible refine Within.set_board (sub rfl hF) ?_
    | with_reducible refine Within.ite ?_ ?_)

theorem wakeUp_within {F : List Field} {s u : State} (hF : [Field.pwr, Field.boot] ⊆ F) (h : Within F s u) :
    Within F s (wakeUp u) := by
  unfold wakeUp
  try dsimp only
  repeat' (first
    | with_reducible exact h
    | with_reducible assumption
    | fail_if_no_progress with_reducible refine Within.set_pwr_boot (sub rfl hF) ?_
    | with_reducible refine Within.ite ?_ ?_)

theorem idleReq_within {F : List Field} {s u : State} (hF : [Field.mem, Field.bad, Field.cores, Field.benches, Field.flits, Field.arrivals, Field.ports, Field.welts, Field.streams, Field.parts, Field.clicker, Field.ring, Field.ringTurn, Field.ringSide, Field.fmn, Field.pwr, Field.boot, Field.trc, Field.board] ⊆ F) (h : Within F s u) (a0 : _) :
    Within F s (idleReq a0 u) := by
  unfold idleReq
  try dsimp only
  repeat' (first
    | with_reducible exact h
    | with_reducible assumption
    | fail_if_no_progress with_reducible refine Within.set_pwr (sub rfl hF) ?_
    | with_reducible refine wakeUp_within (sub rfl hF) ?_ 
    | with_reducible refine doze_within (sub rfl hF) ?_ _
    | with_reducible refine refuseIdle_within (sub rfl hF) ?_ 
    | with_reducible refine Within.ite ?_ ?_
    | split)

theorem i3cPut_within {F : List Field} {s u : State} (hF : [Field.mem, Field.bad, Field.cores, Field.benches, Field.flits, Field.arrivals, Field.ports, Field.welts, Field.streams, Field.parts, Field.clicker, Field.ring, Field.ringTurn, Field.ringSide, Field.fmn, Field.pwr, Field.boot, Field.trc, Field.board] ⊆ F) (h : Within F s u) (a0 : _) (a1 : _) :
    Within F s (i3cPut a0 a1 u) := by
  unfold i3cPut
  try dsimp only
  repeat' (first
    | with_reducible exact h
    | with_reducible assumption
    | fail_if_no_progress with_reducible refine Within.set_board (sub rfl hF) ?_
    | with_reducible refine idleReq_within (sub rfl hF) ?_ _
    | with_reducible refine Within.ite ?_ ?_)

theorem i3cWrite_within {F : List Field} {s u : State} (hF : [Field.mem, Field.bad, Field.cores, Field.benches, Field.flits, Field.arrivals, Field.ports, Field.welts, Field.streams, Field.parts, Field.clicker, Field.ring, Field.ringTurn, Field.ringSide, Field.fmn, Field.pwr, Field.boot, Field.trc, Field.board] ⊆ F) (h : Within F s u) (a0 : _) (a1 : _) :
    Within F s (i3cWrite a0 a1 u) := by
  unfold i3cWrite
  try dsimp only
  repeat' (first
    | with_reducible exact h
    | with_reducible assumption
    | fail_if_no_progress with_reducible refine Within.set_board (sub rfl hF) ?_
    | with_reducible refine forAll_within ?_ ?_
    | with_reducible refine i3cPut_within (sub rfl hF) ?_ _ _
    | with_reducible refine forAll_within (sub rfl hF) ?_ _ _
    | with_reducible refine Within.ite ?_ ?_
    | split
    | intro)

theorem idleExit_within {F : List Field} {s u : State} (hF : [Field.pwr] ⊆ F) (h : Within F s u) (a0 : _) :
    Within F s (idleExit a0 u) := by
  unfold idleExit
  try dsimp only
  repeat' (first
    | with_reducible exact h
    | with_reducible assumption
    | with_reducible refine wake_within (sub rfl hF) ?_ 
    | with_reducible refine Within.ite ?_ ?_)

theorem injection_within {F : List Field} {s u : State} (hF : [Field.mem, Field.bad, Field.cores, Field.benches, Field.parts, Field.ring, Field.fmn, Field.trc, Field.board, Field.free] ⊆ F) (h : Within F s u) (a0 : _) (a1 : _) :
    Within F s (injection a0 a1 u) := by
  unfold injection
  dsimp only
  refine Within.ite h ?_
  split
  · exact State_updCtx_within (sub rfl hF) h _ _
  · rename_i e
    split at e
    · contradiction
    · have h1 := yieldHeld_within (sub rfl hF) h a0 (_, _) e
      exact enter_within (sub rfl hF) (State_updCtx_within (sub rfl hF) h1 _ _) _ _ _ _ _ _ _

theorem inputOpen_within {F : List Field} {s u : State} (hF : [Field.now, Field.tb, Field.mem, Field.bad, Field.cores, Field.benches, Field.flits, Field.arrivals, Field.ports, Field.welts, Field.streams, Field.parts, Field.clicker, Field.ring, Field.ringTurn, Field.ringSide, Field.fmn, Field.pwr, Field.boot, Field.trc, Field.board, Field.faults, Field.resets] ⊆ F) (h : Within F s u) : Within F s (inputOpen u) := by
  refine ⟨fun f m => ?_⟩
  cases f <;> first | exact absurd (hF (by decide)) m | exact h.out _ m

theorem interruptEntry_within {F : List Field} {s u : State} (hF : [Field.mem, Field.bad, Field.cores, Field.benches, Field.parts, Field.ring, Field.fmn, Field.trc, Field.board, Field.free] ⊆ F) (h : Within F s u) (a0 : _) :
    Within F s (interruptEntry a0 u) := by
  unfold interruptEntry
  try dsimp only
  repeat' (first
    | with_reducible exact h
    | with_reducible assumption
    | with_reducible refine enter_within (sub rfl hF) ?_ _ _ _ _ _ _ _
    | refine yieldHeld_within (sub rfl hF) ?_ _ (_, _) (by assumption)
    | refine yieldHeld_within (sub rfl hF) ?_ _ _ (by assumption)
    | with_reducible refine Within.ite ?_ ?_
    | split)

theorem issueSample_within {F : List Field} {s u : State} (hF : [Field.benches, Field.trc] ⊆ F) (h : Within F s u) (a0 : _) :
    Within F s (issueSample a0 u) := by
  unfold issueSample
  try dsimp only
  repeat' (first
    | with_reducible exact h
    | with_reducible assumption
    | with_reducible refine trace_within (sub rfl hF) ?_ _ _ _ _ _ _
    | with_reducible refine Within.ite ?_ ?_
    | split)

theorem join_within {F : List Field} {s u : State} (hF : [Field.mem, Field.bad, Field.cores, Field.benches, Field.parts, Field.fmn, Field.trc, Field.board, Field.free] ⊆ F) (h : Within F s u) (a0 : _) :
    Within F s (join a0 u) := by
  unfold join
  try dsimp only
  repeat' (first
    | with_reducible exact h
    | with_reducible assumption
    | with_reducible refine pushes_within (sub rfl hF) ?_ _
    | refine Within.of_ok (by assumption) (pushes_within (sub rfl hF) ?_ _)
    | refine Within.of_held (by assumption) (pushes_within (sub rfl hF) ?_ _)
    | refine Within.of_exc (by assumption) (pushes_within (sub rfl hF) ?_ _)
    | refine Within.of_done (by assumption) (pushes_within (sub rfl hF) ?_ _)
    | with_reducible refine issue_within (sub rfl hF) ?_ ?_ _ _ _ _ _ _
    | with_reducible refine State_updCtx_within (sub rfl hF) ?_ _ _
    | with_reducible refine Within.out_ok ?_
    | with_reducible refine Within.out_held ?_
    | with_reducible refine Within.out_exc ?_
    | with_reducible refine Within.out_done ?_
    | with_reducible refine Within.ite ?_ ?_
    | split
    | intro)

theorem joinAck_within {F : List Field} {s u : State} (hF : [Field.welts, Field.fmn] ⊆ F) (h : Within F s u) :
    Within F s (joinAck u) := by
  unfold joinAck
  try dsimp only
  repeat' (first
    | with_reducible exact h
    | with_reducible assumption
    | fail_if_no_progress with_reducible refine Within.set_fmn (sub rfl hF) ?_
    | refine takeMsg_within (sub rfl hF) ?_ _ (_, _) (by assumption)
    | refine takeMsg_within (sub rfl hF) ?_ _ _ (by assumption)
    | with_reducible refine Within.ite ?_ ?_
    | split)

theorem joinTimeout_within {F : List Field} {s u : State} (hF : [Field.mem, Field.bad, Field.cores, Field.benches, Field.free] ⊆ F) (h : Within F s u) (a0 : _) :
    Within F s (joinTimeout a0 u) := by
  unfold joinTimeout
  try dsimp only
  repeat' (first
    | with_reducible exact h
    | with_reducible assumption
    | with_reducible refine completeHeld_within (sub rfl hF) ?_ _ _
    | with_reducible refine countSpin_within (sub rfl hF) ?_ _ _
    | with_reducible refine Within.ite ?_ ?_
    | split)

theorem joinWake_within {F : List Field} {s u : State} (hF : [Field.mem, Field.bad, Field.cores, Field.benches, Field.free] ⊆ F) (h : Within F s u) (a0 : _) :
    Within F s (joinWake a0 u) := by
  unfold joinWake
  try dsimp only
  repeat' (first
    | with_reducible exact h
    | with_reducible assumption
    | with_reducible refine completeHeld_within (sub rfl hF) ?_ _ _
    | with_reducible refine countSpin_within (sub rfl hF) ?_ _ _
    | with_reducible refine Within.ite ?_ ?_
    | split)

theorem nearLoad_within {F : List Field} {s u : State} (hF : [Field.bad, Field.benches, Field.fmn, Field.trc] ⊆ F) (h : Within F s u) (a0 : _) (a1 : _) (a2 : _) (a3 : _) (a4 : _) :
    Within F s (outState (nearLoad a0 a1 a2 a3 a4 u)) := by
  unfold nearLoad
  try dsimp only
  repeat' (first
    | with_reducible exact h
    | with_reducible assumption
    | with_reducible refine pushes_within (sub rfl hF) ?_ _
    | refine Within.of_ok (by assumption) (pushes_within (sub rfl hF) ?_ _)
    | refine Within.of_held (by assumption) (pushes_within (sub rfl hF) ?_ _)
    | refine Within.of_exc (by assumption) (pushes_within (sub rfl hF) ?_ _)
    | refine Within.of_done (by assumption) (pushes_within (sub rfl hF) ?_ _)
    | with_reducible refine noteRead_within (sub rfl hF) ?_ _ _
    | with_reducible refine memCont_within (sub rfl hF) ?_ _ _ _
    | with_reducible refine Within.out_ok ?_
    | with_reducible refine Within.out_held ?_
    | with_reducible refine Within.out_exc ?_
    | with_reducible refine Within.out_done ?_
    | with_reducible refine Within.ite ?_ ?_
    | split)

theorem uncachedLoad_within {F : List Field} {s u : State} (hF : [Field.benches, Field.fmn] ⊆ F) (h : Within F s u) (a0 : _) (a1 : _) :
    Within F s (uncachedLoad a0 a1 u) := by
  unfold uncachedLoad
  try dsimp only
  repeat' (first
    | with_reducible exact h
    | with_reducible assumption
    | with_reducible refine freshSerial_within (sub rfl hF) ?_ 
    | refine Within.snd (by assumption) (freshSerial_within (sub rfl hF) ?_ )
    | with_reducible refine State_updBench_within (sub rfl hF) ?_ _ _)

theorem loadBody_within {F : List Field} {s u : State} (hF : [Field.bad, Field.benches, Field.fmn, Field.trc] ⊆ F) (h : Within F s u) (a0 : _) (a1 : _) (a2 : _) (a3 : _) :
    Within F s (outState (loadBody a0 a1 a2 a3 u)) := by
  unfold loadBody
  try dsimp only
  repeat' (first
    | with_reducible exact h
    | with_reducible assumption
    | with_reducible refine uncachedLoad_within (sub rfl hF) ?_ _ _
    | with_reducible refine nearLoad_within (sub rfl hF) ?_ _ _ _ _ _
    | refine Within.of_ok (by assumption) (nearLoad_within (sub rfl hF) ?_ _ _ _ _ _)
    | refine Within.of_held (by assumption) (nearLoad_within (sub rfl hF) ?_ _ _ _ _ _)
    | refine Within.of_exc (by assumption) (nearLoad_within (sub rfl hF) ?_ _ _ _ _ _)
    | refine Within.of_done (by assumption) (nearLoad_within (sub rfl hF) ?_ _ _ _ _ _)
    | with_reducible refine cachedLoad_within (sub rfl hF) ?_ _ _ _
    | refine Within.snd (by assumption) (cachedLoad_within (sub rfl hF) ?_ _ _ _)
    | with_reducible refine blkRead32_within (sub rfl hF) ?_ _ _
    | refine Within.fst (by assumption) (blkRead32_within (sub rfl hF) ?_ _ _)
    | with_reducible refine pushes_within (sub rfl hF) ?_ _
    | refine Within.of_ok (by assumption) (pushes_within (sub rfl hF) ?_ _)
    | refine Within.of_held (by assumption) (pushes_within (sub rfl hF) ?_ _)
    | refine Within.of_exc (by assumption) (pushes_within (sub rfl hF) ?_ _)
    | refine Within.of_done (by assumption) (pushes_within (sub rfl hF) ?_ _)
    | with_reducible refine Within.out_ok ?_
    | with_reducible refine Within.out_held ?_
    | with_reducible refine Within.out_exc ?_
    | with_reducible refine Within.out_done ?_
    | with_reducible refine Within.ite ?_ ?_
    | split)

theorem loadInstr_within {F : List Field} {s u : State} (hF : [Field.mem, Field.bad, Field.cores, Field.benches, Field.parts, Field.fmn, Field.trc, Field.board, Field.free] ⊆ F) (h : Within F s u) (a0 : _) (a1 : _) (a2 : _) (a3 : _) :
    Within F s (loadInstr a0 a1 a2 a3 u) := by
  unfold loadInstr
  try dsimp only
  repeat' (first
    | with_reducible exact h
    | with_reducible assumption
    | with_reducible refine loadBody_within (sub rfl hF) ?_ _ _ _ _
    | refine Within.of_ok (by assumption) (loadBody_within (sub rfl hF) ?_ _ _ _ _)
    | refine Within.of_held (by assumption) (loadBody_within (sub rfl hF) ?_ _ _ _ _)
    | refine Within.of_exc (by assumption) (loadBody_within (sub rfl hF) ?_ _ _ _ _)
    | refine Within.of_done (by assumption) (loadBody_within (sub rfl hF) ?_ _ _ _ _)
    | with_reducible refine issue_within (sub rfl hF) ?_ ?_ _ _ _ _ _ _
    | with_reducible refine Within.out_ok ?_
    | with_reducible refine Within.out_held ?_
    | with_reducible refine Within.out_exc ?_
    | with_reducible refine Within.out_done ?_
    | with_reducible refine Within.ite ?_ ?_
    | split
    | intro)

theorem ldr_within {F : List Field} {s u : State} (hF : [Field.mem, Field.bad, Field.cores, Field.benches, Field.parts, Field.fmn, Field.trc, Field.board, Field.free] ⊆ F) (h : Within F s u) (a0 : _) :
    Within F s (ldr a0 u) := by
  unfold ldr
  try dsimp only
  repeat' (first
    | with_reducible exact h
    | with_reducible assumption
    | with_reducible refine nearLoad_within (sub rfl hF) ?_ _ _ _ _ _
    | refine Within.of_ok (by assumption) (nearLoad_within (sub rfl hF) ?_ _ _ _ _ _)
    | refine Within.of_held (by assumption) (nearLoad_within (sub rfl hF) ?_ _ _ _ _ _)
    | refine Within.of_exc (by assumption) (nearLoad_within (sub rfl hF) ?_ _ _ _ _ _)
    | refine Within.of_done (by assumption) (nearLoad_within (sub rfl hF) ?_ _ _ _ _ _)
    | with_reducible refine issue_within (sub rfl hF) ?_ ?_ _ _ _ _ _ _
    | with_reducible refine State_updCtx_within (sub rfl hF) ?_ _ _
    | with_reducible refine Within.out_ok ?_
    | with_reducible refine Within.out_held ?_
    | with_reducible refine Within.out_exc ?_
    | with_reducible refine Within.out_done ?_
    | with_reducible refine Within.ite ?_ ?_
    | split
    | intro)

theorem snapBench_within {F : List Field} {s u : State} (hF : [Field.benches] ⊆ F) (h : Within F s u) (a0 : _) :
    Within F s (snapBench a0 u) := by
  unfold snapBench
  try dsimp only
  repeat' (first
    | with_reducible exact h
    | with_reducible assumption
    | with_reducible refine State_updBench_within (sub rfl hF) ?_ _ _)

theorem snapPort_within {F : List Field} {s u : State} (hF : [Field.ports] ⊆ F) (h : Within F s u) (a0 : _) :
    Within F s (snapPort a0 u) := by
  unfold snapPort
  try dsimp only
  repeat' (first
    | with_reducible exact h
    | with_reducible assumption
    | with_reducible refine State_updPort_within (sub rfl hF) ?_ _ _)

theorem snapshot_within {F : List Field} {s u : State} (hF : [Field.benches, Field.ports, Field.parts, Field.pwr] ⊆ F) (h : Within F s u) :
    Within F s (snapshot u) := by
  unfold snapshot
  try dsimp only
  repeat' (first
    | with_reducible exact h
    | with_reducible assumption
    | fail_if_no_progress with_reducible refine Within.set_pwr (sub rfl hF) ?_
    | with_reducible refine forAll_within ?_ ?_
    | with_reducible refine snapPort_within (sub rfl hF) ?_ _
    | with_reducible refine snapBench_within (sub rfl hF) ?_ _
    | with_reducible refine countActive_within (sub rfl hF) ?_ _
    | with_reducible refine addFrameTime_within (sub rfl hF) ?_ _
    | with_reducible refine forAll_within (sub rfl hF) ?_ _ _
    | with_reducible refine Within.ite ?_ ?_
    | split
    | intro)

theorem ledgerSnapshot_within {F : List Field} {s u : State} (hF : [Field.benches, Field.ports, Field.parts, Field.pwr, Field.free] ⊆ F) (h : Within F s u) (a0 : _) (a1 : _) (a2 : _) :
    Within F s (ledgerSnapshot a0 a1 a2 u) := by
  unfold ledgerSnapshot
  refine Within.ite h ?_
  extract_lets len s1 k
  have h1 : Within F s s1 := setOp_within (sub rfl hF) (snapshot_within (sub rfl hF) h) _
  clear_value s1
  split
  rename_i es s2 e
  have h2 : Within F s s2 := Within.snd e (estimates_within (sub rfl hF) h1 _ _)
  extract_lets sum u1 s3 s4 src
  have h3 : Within F s s3 := by
    refine forAll_within h2 (fun e v hv => ?_)
    refine Within.ite (chargePart_within (sub rfl hF) hv _ _ _ _) ?_
    exact chargePart_within (sub rfl hF) (rounded_within (sub rfl hF) hv _ _) _ _ _ _
  clear_value s3
  have h4 : Within F s s4 := Within.ite h3 (pwrCount_within (sub rfl hF) h3 _)
  clear_value s4
  exact Within.set_pwr (sub rfl hF) h4

end Sys2Proof.Laws
end

