-- ==== Sys2Proof/Laws/Footprint4.lean ====
section
/-! SUPPORT. One lemma per operation: the parts of State it may change. The list in each lemma is all of them. -/

namespace Sys2Proof.Laws
open Sys2Proof Sys2Proof.Machine

set_option linter.unusedTactic false
set_option linter.unreachableTactic false
set_option linter.unusedVariables false

theorem literalRun_within {F : List Field} {s u : State} (hF : [Field.mem, Field.bad, Field.cores, Field.benches, Field.parts, Field.fmn, Field.trc, Field.board, Field.free] ⊆ F) (h : Within F s u) (a0 : _) (a1 : _) :
    Within F s (literalRun a0 a1 u) := by
  unfold literalRun
  try dsimp only
  repeat' (first
    | with_reducible exact h
    | with_reducible assumption
    | with_reducible refine pushes_within (sub rfl hF) ?_ _
    | refine Within.of_ok (by assumption) (pushes_within (sub rfl hF) ?_ _)
    | refine Within.of_held (by assumption) (pushes_within (sub rfl hF) ?_ _)
    | refine Within.of_exc (by assumption) (pushes_within (sub rfl hF) ?_ _)
    | refine Within.of_done (by assumption) (pushes_within (sub rfl hF) ?_ _)
    | with_reducible refine issue_within (sub rfl hF) ?_ ?_ _ _ _ _ _ _
    | with_reducible refine Within.out_ok ?_
    | with_reducible refine Within.out_held ?_
    | with_reducible refine Within.out_exc ?_
    | with_reducible refine Within.out_done ?_
    | with_reducible refine Within.ite ?_ ?_
    | split
    | intro)

theorem moveDown_within {F : List Field} {s u : State} (hF : [Field.pwr] ⊆ F) (h : Within F s u) :
    Within F s (moveDown u) := by
  unfold moveDown
  try dsimp only
  repeat' (first
    | with_reducible exact h
    | with_reducible assumption
    | fail_if_no_progress with_reducible refine Within.set_pwr (sub rfl hF) ?_
    | with_reducible refine setOp_within (sub rfl hF) ?_ _
    | with_reducible refine Within.ite ?_ ?_)

theorem place_within {F : List Field} {s u : State} (hF : [Field.mem, Field.bad, Field.cores, Field.benches, Field.streams, Field.parts, Field.clicker, Field.ring] ⊆ F) (h : Within F s u) (a0 : _) (a1 : _) (a2 : _) :
    Within F s (place a0 a1 a2 u) := by
  unfold place
  try dsimp only
  repeat' (first
    | with_reducible exact h
    | with_reducible assumption
    | with_reducible refine forAll_within ?_ ?_
    | with_reducible refine installFresh_within (sub rfl hF) ?_ _ _
    | with_reducible refine forAll_within (sub rfl hF) ?_ _ _
    | with_reducible refine State_updStream_within (sub rfl hF) ?_ _ _
    | with_reducible refine State_updPart_within (sub rfl hF) ?_ _ _
    | with_reducible refine Within.ite ?_ ?_
    | split
    | intro)

theorem saveWrite_within {F : List Field} {s u : State} (hF : [Field.mem, Field.bad, Field.cores, Field.benches, Field.ports] ⊆ F) (h : Within F s u) (a0 : _) (a1 : _) (a2 : _) (a3 : _) :
    Within F s (saveWrite a0 a1 a2 a3 u) := by
  induction a1 generalizing a2 a3 u with
  | zero => exact h
  | succ n ih =>
    unfold saveWrite
    split
    · exact ih (ringWrite_within (sub rfl hF) h _ _) _ _
    · exact h

theorem moveSave_within {F : List Field} {s u : State} (hF : [Field.mem, Field.bad, Field.cores, Field.benches, Field.ports, Field.parts] ⊆ F) (h : Within F s u) (a0 : _) (a1 : _) (a2 : _) :
    ∀ v, moveSave a0 a1 a2 u = some v → Within F s v := by
  intro v e
  unfold moveSave at e
  dsimp only at e
  split at e
  · cases e; exact h
  split at e
  · contradiction
  · cases e; exact State_updPart_within (sub rfl hF) (saveWrite_within (sub rfl hF) h _ _ _ _) _ _

theorem placeSave_within {F : List Field} {s u : State} (hF : [Field.mem, Field.bad, Field.cores, Field.benches, Field.ports, Field.parts] ⊆ F) (h : Within F s u) (a0 : _) (a1 : _) :
    ∀ v, placeSave a0 a1 u = some v → Within F s v.2 := by
  intro v e
  have hn : ∀ l : List Nat, l.foldl (fun (r : Option State) k => r.bind (moveSave a0 k (saveTaken u a0 a1))) none = none := by
    intro l
    induction l with
    | nil => rfl
    | cons k l ih => exact ih
  have : ∀ (l : List Nat) (x y : State), Within F s x →
      l.foldl (fun (r : Option State) k => r.bind (moveSave a0 k (saveTaken u a0 a1))) (some x) = some y → Within F s y := by
    intro l
    induction l with
    | nil => intro x y hx e; cases e; exact hx
    | cons k l ih =>
      intro x y hx e
      rw [List.foldl_cons, Option.bind_some] at e
      cases m : moveSave a0 k (saveTaken u a0 a1) x with
      | none => rw [m, hn] at e; contradiction
      | some z => rw [m] at e; exact ih z y (moveSave_within (sub rfl hF) hx _ _ _ z m) e
  unfold placeSave at e
  dsimp only at e
  split at e
  · contradiction
  · rename_i s1 e1
    rw [Option.map_eq_some_iff] at e
    obtain ⟨l, -, e⟩ := e
    cases e
    exact this _ _ _ h e1

theorem loadProgram_within {F : List Field} {s u : State} (hF : [Field.mem, Field.bad, Field.cores, Field.benches, Field.ports, Field.welts, Field.streams, Field.parts, Field.clicker, Field.ring, Field.fmn, Field.pwr] ⊆ F) (h : Within F s u) (a0 : _) (a1 : _) :
    Within F s (loadProgram a0 a1 u) := by
  unfold loadProgram
  try dsimp only
  repeat' (first
    | with_reducible exact h
    | with_reducible assumption
    | refine placeSave_within (sub rfl hF) ?_ _ _ (_, _) (by assumption)
    | refine placeSave_within (sub rfl hF) ?_ _ _ _ (by assumption)
    | with_reducible refine place_within (sub rfl hF) ?_ _ _ _
    | with_reducible refine moveDown_within (sub rfl hF) ?_ 
    | with_reducible refine withPart_within (sub rfl hF) ?_ ?_ _ _
    | with_reducible refine runCmd_within (sub rfl hF) ?_ ?_ _ _ _ _ _
    | with_reducible refine checked_within (sub rfl hF) ?_ ?_ _ _ _
    | with_reducible refine respond_within (sub rfl hF) ?_ _ _ _ _
    | with_reducible refine Within.ite ?_ ?_
    | split
    | intro)

theorem multiply_within {F : List Field} {s u : State} (hF : [Field.mem, Field.bad, Field.cores, Field.benches, Field.parts, Field.fmn, Field.trc, Field.board, Field.free] ⊆ F) (h : Within F s u) (a0 : _) (a1 : _) (a2 : _) (a3 : _) :
    Within F s (multiply a0 a1 a2 a3 u) := by
  unfold multiply
  try dsimp only
  repeat' (first
    | with_reducible exact h
    | with_reducible assumption
    | with_reducible refine pushes_within (sub rfl hF) ?_ _
    | refine Within.of_ok (by assumption) (pushes_within (sub rfl hF) ?_ _)
    | refine Within.of_held (by assumption) (pushes_within (sub rfl hF) ?_ _)
    | refine Within.of_exc (by assumption) (pushes_within (sub rfl hF) ?_ _)
    | refine Within.of_done (by assumption) (pushes_within (sub rfl hF) ?_ _)
    | with_reducible refine issue_within (sub rfl hF) ?_ ?_ _ _ _ _ _ _
    | with_reducible refine State_updCtx_within (sub rfl hF) ?_ _ _
    | with_reducible refine Within.out_ok ?_
    | with_reducible refine Within.out_held ?_
    | with_reducible refine Within.out_exc ?_
    | with_reducible refine Within.out_done ?_
    | with_reducible refine Within.ite ?_ ?_
    | split
    | intro)

theorem handOver_within {F : List Field} {s u : State} (hF : [Field.welts, Field.fmn, Field.pwr] ⊆ F) (h : Within F s u) (a0 : _) :
    Within F s (handOver a0 u) := by
  unfold handOver
  try dsimp only
  repeat' (first
    | with_reducible exact h
    | with_reducible assumption
    | with_reducible refine accept_within (sub rfl hF) ?_ _
    | with_reducible refine raise_within (sub rfl hF) ?_ _ _
    | with_reducible refine State_updMbox_within (sub rfl hF) ?_ _ _
    | with_reducible refine Within.ite ?_ ?_
    | split)

theorem mailboxHandover_within {F : List Field} {s u : State} (hF : [Field.welts, Field.fmn, Field.pwr] ⊆ F) (h : Within F s u) (a0 : _) (a1 : _) (a2 : _) (a3 : _) :
    Within F s (mailboxHandover a0 a1 a2 a3 u) := by
  unfold mailboxHandover
  try dsimp only
  repeat' (first
    | with_reducible exact h
    | with_reducible assumption
    | with_reducible refine handOver_within (sub rfl hF) ?_ _
    | with_reducible refine countDrops_within (sub rfl hF) ?_ _
    | with_reducible refine State_updMbox_within (sub rfl hF) ?_ _ _
    | with_reducible refine Within.ite ?_ ?_)

theorem mailboxHostWrite_within {F : List Field} {s u : State} (hF : [Field.welts, Field.fmn, Field.pwr] ⊆ F) (h : Within F s u) (a0 : _) (a1 : _) (a2 : _) :
    Within F s (mailboxHostWrite a0 a1 a2 u) := by
  unfold mailboxHostWrite
  try dsimp only
  repeat' (first
    | with_reducible exact h
    | with_reducible assumption
    | with_reducible refine handOver_within (sub rfl hF) ?_ _
    | with_reducible refine countDrops_within (sub rfl hF) ?_ _
    | with_reducible refine State_updMbox_within (sub rfl hF) ?_ _ _
    | with_reducible refine Within.ite ?_ ?_)

theorem traceSlip_within {F : List Field} {s u : State} (hF : [Field.benches, Field.trc] ⊆ F) (h : Within F s u) (a0 : _) (a1 : _) :
    Within F s (traceSlip a0 a1 u) := by
  unfold traceSlip
  try dsimp only
  repeat' (first
    | with_reducible exact h
    | with_reducible assumption
    | with_reducible refine trace_within (sub rfl hF) ?_ _ _ _ _ _ _)

theorem lateMarker_within {F : List Field} {s u : State} (hF : [Field.cores, Field.benches, Field.trc] ⊆ F) (h : Within F s u) (a0 : _) (a1 : _) :
    Within F s (lateMarker a0 a1 u) := by
  unfold lateMarker
  try dsimp only
  repeat' (first
    | with_reducible exact h
    | with_reducible assumption
    | with_reducible refine forAll_within ?_ ?_
    | with_reducible refine traceSlip_within (sub rfl hF) ?_ _ _
    | with_reducible refine forAll_within (sub rfl hF) ?_ _ _
    | with_reducible refine setPend_within (sub rfl hF) ?_ _ _
    | with_reducible refine count_within (sub rfl hF) ?_ _ _ _
    | with_reducible refine Within.ite ?_ ?_
    | split
    | intro)

theorem porterReply_within {F : List Field} {s u : State} (hF : [Field.mem, Field.bad, Field.cores, Field.benches, Field.parts, Field.fmn, Field.trc] ⊆ F) (h : Within F s u) (a0 : _) (a1 : _) (a2 : _) (a3 : _) :
    Within F s (porterReply a0 a1 a2 a3 u) := by
  unfold porterReply
  try dsimp only
  repeat' (first
    | with_reducible exact h
    | with_reducible assumption
    | with_reducible refine descFault_within (sub rfl hF) ?_ _ _ _ _ _ _
    | with_reducible refine landed_within (sub rfl hF) ?_ _ _ _
    | with_reducible refine settleDesc_within (sub rfl hF) ?_ _ _
    | with_reducible refine absorb_within (sub rfl hF) ?_ _
    | with_reducible refine write_within (sub rfl hF) ?_ _ _
    | with_reducible refine State_updSlotOf_within (sub rfl hF) ?_ _ _ _
    | with_reducible refine Within.ite ?_ ?_
    | split)

theorem replyArrival_within {F : List Field} {s u : State} (hF : [Field.mem, Field.bad, Field.cores, Field.benches, Field.arrivals, Field.parts, Field.fmn, Field.trc] ⊆ F) (h : Within F s u) (a0 : _) :
    Within F s (replyArrival a0 u) := by
  unfold replyArrival
  try dsimp only
  repeat' (first
    | with_reducible exact h
    | with_reducible assumption
    | with_reducible refine porterReply_within (sub rfl hF) ?_ _ _ _ _
    | with_reducible refine lateMarker_within (sub rfl hF) ?_ _ _
    | with_reducible refine uloadData_within (sub rfl hF) ?_ _ _ _ _
    | with_reducible refine fillData_within (sub rfl hF) ?_ _ _ _ _
    | refine takeArrival_within (sub rfl hF) ?_ _ (_, _) (by assumption)
    | refine takeArrival_within (sub rfl hF) ?_ _ _ (by assumption)
    | with_reducible refine absorb_within (sub rfl hF) ?_ _
    | with_reducible refine Within.ite ?_ ?_
    | split)

theorem oweReply_within {F : List Field} {s u : State} (hF : [Field.ports] ⊆ F) (h : Within F s u) (a0 : _) (a1 : _) (a2 : _) (a3 : _) (a4 : _) (a5 : _) :
    Within F s (oweReply a0 a1 a2 a3 a4 a5 u) := by
  unfold oweReply
  try dsimp only
  repeat' (first
    | with_reducible exact h
    | with_reducible assumption
    | with_reducible refine State_updPort_within (sub rfl hF) ?_ _ _)

theorem portRead_within {F : List Field} {s u : State} (hF : [Field.ports] ⊆ F) (h : Within F s u) (a0 : _) (a1 : _) (a2 : _) :
    Within F s (portRead a0 a1 a2 u) := by
  unfold portRead
  try dsimp only
  repeat' (first
    | with_reducible exact h
    | with_reducible assumption
    | with_reducible refine oweReply_within (sub rfl hF) ?_ _ _ _ _ _ _
    | with_reducible refine countAccess_within (sub rfl hF) ?_ _ _ _
    | with_reducible refine portCount_within (sub rfl hF) ?_ _ _ _
    | with_reducible refine State_updPort_within (sub rfl hF) ?_ _ _
    | with_reducible refine Within.ite ?_ ?_)

theorem writeCounted_within {F : List Field} {s u : State} (hF : [Field.benches, Field.welts, Field.parts] ⊆ F) (h : Within F s u) (a0 : _) :
    Within F s (writeCounted a0 u) := by
  unfold writeCounted
  try dsimp only
  repeat' (first
    | with_reducible exact h
    | with_reducible assumption
    | with_reducible refine itemDone_within (sub rfl hF) ?_ _ _
    | with_reducible refine weltWrote_within (sub rfl hF) ?_ _ _ _
    | with_reducible refine landed_within (sub rfl hF) ?_ _ _ _
    | with_reducible refine Within.ite ?_ ?_
    | split)

theorem portWrite_within {F : List Field} {s u : State} (hF : [Field.mem, Field.bad, Field.cores, Field.benches, Field.ports, Field.welts, Field.parts, Field.ring, Field.fmn, Field.pwr, Field.free] ⊆ F) (h : Within F s u) (a0 : _) (a1 : _) (a2 : _) :
    Within F s (portWrite a0 a1 a2 u) := by
  unfold portWrite
  try dsimp only
  repeat' (first
    | with_reducible exact h
    | with_reducible assumption
    | with_reducible refine writeCounted_within (sub rfl hF) ?_ _
    | with_reducible refine countAccess_within (sub rfl hF) ?_ _ _ _
    | with_reducible refine stopNow_within (sub rfl hF) ?_ _
    | with_reducible refine write_within (sub rfl hF) ?_ _ _
    | with_reducible refine writeMask_within (sub rfl hF) ?_ _ _
    | with_reducible refine State_updPort_within (sub rfl hF) ?_ _ _
    | with_reducible refine Within.ite ?_ ?_
    | split)

theorem memoryRequest_within {F : List Field} {s u : State} (hF : [Field.mem, Field.bad, Field.cores, Field.benches, Field.arrivals, Field.ports, Field.welts, Field.parts, Field.ring, Field.fmn, Field.pwr, Field.free] ⊆ F) (h : Within F s u) (a0 : _) :
    Within F s (memoryRequest a0 u) := by
  unfold memoryRequest
  try dsimp only
  repeat' (first
    | with_reducible exact h
    | with_reducible assumption
    | with_reducible refine portWrite_within (sub rfl hF) ?_ _ _ _
    | with_reducible refine portRead_within (sub rfl hF) ?_ _ _ _
    | refine takeArrival_within (sub rfl hF) ?_ _ (_, _) (by assumption)
    | refine takeArrival_within (sub rfl hF) ?_ _ _ (by assumption)
    | with_reducible refine count_within (sub rfl hF) ?_ _ _ _
    | with_reducible refine Within.ite ?_ ?_
    | split)

theorem putB_within {F : List Field} {s u : State} (hF : [Field.flits] ⊆ F) (h : Within F s u) (a0 : _) (a1 : _) :
    Within F s (putB a0 a1 u) := by
  unfold putB
  try dsimp only
  repeat' (first
    | with_reducible exact h
    | with_reducible assumption
    | fail_if_no_progress with_reducible refine Within.set_flits (sub rfl hF) ?_
    | with_reducible refine Within.ite ?_ ?_
    | split)

theorem putConn_within {F : List Field} {s u : State} (hF : [Field.mem, Field.bad, Field.cores, Field.benches, Field.flits, Field.welts, Field.streams, Field.parts, Field.fmn, Field.trc, Field.free] ⊆ F) (h : Within F s u) (a0 : _) (a1 : _) :
    Within F s (putConn a0 a1 u) := by
  unfold putConn
  try dsimp only
  repeat' (first
    | with_reducible exact h
    | with_reducible assumption
    | with_reducible refine putB_within (sub rfl hF) ?_ _ _
    | with_reducible refine connFlit_within (sub rfl hF) ?_ _ _)

theorem injectB_within {F : List Field} {s u : State} (hF : [Field.mem, Field.bad, Field.cores, Field.benches, Field.flits, Field.welts, Field.streams, Field.parts, Field.fmn, Field.trc, Field.free] ⊆ F) (h : Within F s u) (a0 : _) :
    Within F s (injectB a0 u) := by
  unfold injectB
  try dsimp only
  repeat' (first
    | with_reducible exact h
    | with_reducible assumption
    | with_reducible refine putConn_within (sub rfl hF) ?_ _ _
    | with_reducible refine Within.ite ?_ ?_
    | split)

theorem injectWelt_within {F : List Field} {s u : State} (hF : [Field.flits, Field.welts] ⊆ F) (h : Within F s u) (a0 : _) :
    Within F s (injectWelt a0 u) := by
  unfold injectWelt
  try dsimp only
  repeat' (first
    | with_reducible exact h
    | with_reducible assumption
    | with_reducible refine atX_within (sub rfl hF) ?_ _ _
    | with_reducible refine State_updWelt_within (sub rfl hF) ?_ _ _
    | with_reducible refine Within.ite ?_ ?_
    | split)

theorem linkError_within {F : List Field} {s u : State} (hF : [Field.benches, Field.flits] ⊆ F) (h : Within F s u) (a0 : _) :
    Within F s (linkError a0 u) := by
  unfold linkError
  try dsimp only
  repeat' (first
    | with_reducible exact h
    | with_reducible assumption
    | fail_if_no_progress with_reducible refine Within.set_flits (sub rfl hF) ?_
    | with_reducible refine count_within (sub rfl hF) ?_ _ _ _
    | with_reducible refine Within.ite ?_ ?_)

theorem ringMove_within {F : List Field} {s u : State} (hF : [Field.ring, Field.ringTurn] ⊆ F) (h : Within F s u) (a0 : _) (a1 : _) (a2 : _) :
    Within F s (ringMove a0 a1 a2 u) := by
  unfold ringMove
  split
  · exact h
  · exact Within.set_ring_ringTurn (sub rfl hF) h

theorem ringCycle_within {F : List Field} {s u : State} (hF : [Field.ring, Field.ringTurn] ⊆ F) (h : Within F s u) : Within F s (ringCycle u) := by
  unfold ringCycle
  exact forAll_within h (fun _ _ hv => ringMove_within (sub rfl hF) (ringMove_within (sub rfl hF) hv _ _ _) _ _ _)

theorem meshTick_within {F : List Field} {s u : State} (hF : [Field.now, Field.cores, Field.ring, Field.ringTurn] ⊆ F) (h : Within F s u) :
    Within F s (meshTick u) := by
  unfold meshTick
  try dsimp only
  repeat' (first
    | with_reducible exact h
    | with_reducible assumption
    | fail_if_no_progress with_reducible refine Within.set_now (sub rfl hF) ?_
    | with_reducible refine forAll_within ?_ ?_
    | with_reducible refine ringCycle_within (sub rfl hF) ?_ 
    | with_reducible refine forAll_within (sub rfl hF) ?_ _ _
    | with_reducible refine State_updCore_within (sub rfl hF) ?_ _ _
    | with_reducible refine Within.ite ?_ ?_
    | split
    | intro)

theorem sendReply_within {F : List Field} {s u : State} (hF : [Field.flits, Field.ports] ⊆ F) (h : Within F s u) (a0 : _) (a1 : _) (a2 : _) :
    Within F s (sendReply a0 a1 a2 u) := by
  unfold sendReply
  try dsimp only
  repeat' (first
    | with_reducible exact h
    | with_reducible assumption
    | with_reducible refine portCount_within (sub rfl hF) ?_ _ _ _
    | with_reducible refine atX_within (sub rfl hF) ?_ _ _
    | with_reducible refine settleSlips_within (sub rfl hF) ?_ _
    | with_reducible refine State_updPort_within (sub rfl hF) ?_ _ _
    | with_reducible refine Within.ite ?_ ?_)

theorem slip_within {F : List Field} {s u : State} (hF : [Field.flits, Field.ports, Field.parts, Field.ring] ⊆ F) (h : Within F s u) (a0 : _) (a1 : _) :
    Within F s (slip a0 a1 u) := by
  unfold slip
  try dsimp only
  repeat' (first
    | with_reducible exact h
    | with_reducible assumption
    | with_reducible refine portCount_within (sub rfl hF) ?_ _ _ _
    | with_reducible refine atX_within (sub rfl hF) ?_ _ _
    | with_reducible refine settleSlips_within (sub rfl hF) ?_ _
    | with_reducible refine updJob_within (sub rfl hF) ?_ _ _
    | with_reducible refine ringPut_within (sub rfl hF) ?_ _ _ _
    | with_reducible refine State_updPort_within (sub rfl hF) ?_ _ _
    | with_reducible refine Within.ite ?_ ?_
    | split)

theorem replySlot_within {F : List Field} {s u : State} (hF : [Field.flits, Field.ports, Field.parts, Field.ring] ⊆ F) (h : Within F s u) (a0 : _) :
    Within F s (replySlot a0 u) := by
  unfold replySlot
  try dsimp only
  repeat' (first
    | with_reducible exact h
    | with_reducible assumption
    | with_reducible refine slip_within (sub rfl hF) ?_ _ _
    | with_reducible refine sendReply_within (sub rfl hF) ?_ _ _ _
    | with_reducible refine Within.ite ?_ ?_
    | split)

theorem reserveSlot_within {F : List Field} {s u : State} (hF : [Field.flits, Field.ports] ⊆ F) (h : Within F s u) (a0 : _) :
    Within F s (reserveSlot a0 u) := by
  unfold reserveSlot
  try dsimp only
  repeat' (first
    | with_reducible exact h
    | with_reducible assumption
    | with_reducible refine sendReply_within (sub rfl hF) ?_ _ _ _
    | with_reducible refine Within.ite ?_ ?_
    | split)

theorem sendOut_within {F : List Field} {s u : State} (hF : [Field.benches, Field.flits, Field.arrivals] ⊆ F) (h : Within F s u) (a0 : _) (a1 : _) (a2 : _) :
    Within F s (sendOut a0 a1 a2 u) := by
  unfold sendOut
  try dsimp only
  repeat' (first
    | with_reducible exact h
    | with_reducible assumption
    | fail_if_no_progress with_reducible refine Within.set_flits (sub rfl hF) ?_
    | fail_if_no_progress with_reducible refine Within.set_arrivals (sub rfl hF) ?_
    | with_reducible refine act_within (sub rfl hF) ?_ _ _ _
    | with_reducible refine Within.ite ?_ ?_
    | split)

theorem route_within {F : List Field} {s u : State} (hF : [Field.benches, Field.flits, Field.arrivals] ⊆ F) (h : Within F s u) (a0 : _) :
    Within F s (route a0 u) := by
  unfold route
  try dsimp only
  repeat' (first
    | with_reducible exact h
    | with_reducible assumption
    | with_reducible refine forAll_within ?_ ?_
    | with_reducible refine sendOut_within (sub rfl hF) ?_ _ _ _
    | with_reducible refine forAll_within (sub rfl hF) ?_ _ _
    | with_reducible refine count_within (sub rfl hF) ?_ _ _ _
    | with_reducible refine Within.ite ?_ ?_
    | split
    | intro)

theorem routeAll_within {F : List Field} {s u : State} (hF : [Field.benches, Field.flits, Field.arrivals] ⊆ F) (h : Within F s u) :
    Within F s (routeAll u) := by
  unfold routeAll
  try dsimp only
  repeat' (first
    | with_reducible exact h
    | with_reducible assumption
    | fail_if_no_progress with_reducible refine Within.set_flits (sub rfl hF) ?_
    | with_reducible refine forAll_within ?_ ?_
    | with_reducible refine route_within (sub rfl hF) ?_ _
    | with_reducible refine forAll_within (sub rfl hF) ?_ _ _
    | with_reducible refine Within.ite ?_ ?_
    | split
    | intro)

theorem upsetEntry_within {F : List Field} {s u : State} (hF : [Field.benches] ⊆ F) (h : Within F s u) (a0 : _) (a1 : _) (a2 : _) (a3 : _) :
    Within F s (upsetEntry a0 a1 a2 a3 u) := by
  unfold upsetEntry
  try dsimp only
  repeat' (first
    | with_reducible exact h
    | with_reducible assumption
    | with_reducible refine State_updBench_within (sub rfl hF) ?_ _ _)

theorem upsetLine_within {F : List Field} {s u : State} (hF : [Field.benches] ⊆ F) (h : Within F s u) (a0 : _) (a1 : _) (a2 : _) :
    Within F s (upsetLine a0 a1 a2 u) := by
  unfold upsetLine
  try dsimp only
  repeat' (first
    | with_reducible exact h
    | with_reducible assumption
    | with_reducible refine State_updBench_within (sub rfl hF) ?_ _ _)

theorem upset_within {F : List Field} {s u : State} (hF : [Field.bad, Field.benches] ⊆ F) (h : Within F s u) (a0 : _) :
    Within F s (upset a0 u) := by
  unfold upset
  try dsimp only
  repeat' (first
    | with_reducible exact h
    | with_reducible assumption
    | fail_if_no_progress with_reducible refine Within.set_bad (sub rfl hF) ?_
    | with_reducible refine upsetLine_within (sub rfl hF) ?_ _ _ _
    | with_reducible refine upsetEntry_within (sub rfl hF) ?_ _ _ _ _
    | with_reducible refine Within.ite ?_ ?_
    | split)

theorem meshCycle_within {F : List Field} {s u : State} (hF : [Field.now, Field.mem, Field.bad, Field.cores, Field.benches, Field.flits, Field.arrivals, Field.ports, Field.welts, Field.streams, Field.parts, Field.ring, Field.ringTurn, Field.fmn, Field.pwr, Field.trc, Field.free] ⊆ F) (h : Within F s u) (a0 : _) :
    Within F s (meshCycle a0 u) := by
  unfold meshCycle
  try dsimp only
  repeat' (first
    | with_reducible exact h
    | with_reducible assumption
    | with_reducible refine forAll_within ?_ ?_
    | with_reducible refine upset_within (sub rfl hF) ?_ _
    | with_reducible refine routeAll_within (sub rfl hF) ?_ 
    | with_reducible refine reserveSlot_within (sub rfl hF) ?_ _
    | with_reducible refine replySlot_within (sub rfl hF) ?_ _
    | with_reducible refine meshTick_within (sub rfl hF) ?_ 
    | with_reducible refine linkError_within (sub rfl hF) ?_ _
    | with_reducible refine injectWelt_within (sub rfl hF) ?_ _
    | with_reducible refine injectB_within (sub rfl hF) ?_ _
    | with_reducible refine controlCycle_within (sub rfl hF) ?_ 
    | with_reducible refine forAll_within (sub rfl hF) ?_ _ _
    | with_reducible refine Within.ite ?_ ?_
    | split
    | intro)

theorem mgmtCommand_within {F : List Field} {s u : State} (hF : [Field.welts, Field.fmn, Field.pwr] ⊆ F) (h : Within F s u) :
    Within F s (mgmtCommand u) := by
  unfold mgmtCommand
  try dsimp only
  repeat' (first
    | with_reducible exact h
    | with_reducible assumption
    | refine takeMsg_within (sub rfl hF) ?_ _ (_, _) (by assumption)
    | refine takeMsg_within (sub rfl hF) ?_ _ _ (by assumption)
    | with_reducible refine mgmtBad_within (sub rfl hF) ?_ _
    | with_reducible refine accept_within (sub rfl hF) ?_ _
    | with_reducible refine sendMsg_within (sub rfl hF) ?_ _ _ _ _ _
    | with_reducible refine State_updMbox_within (sub rfl hF) ?_ _ _
    | with_reducible refine Within.ite ?_ ?_
    | split)

theorem mgmtJoin_within {F : List Field} {s u : State} (hF : [Field.welts, Field.fmn] ⊆ F) (h : Within F s u) :
    Within F s (mgmtJoin u) := by
  unfold mgmtJoin
  try dsimp only
  repeat' (first
    | with_reducible exact h
    | with_reducible assumption
    | refine takeMsg_within (sub rfl hF) ?_ _ (_, _) (by assumption)
    | refine takeMsg_within (sub rfl hF) ?_ _ _ (by assumption)
    | with_reducible refine updManaged_within (sub rfl hF) ?_ _ _
    | with_reducible refine logEvent_within (sub rfl hF) ?_ _ _ _ _
    | with_reducible refine sendMsg_within (sub rfl hF) ?_ _ _ _ _ _
    | with_reducible refine Within.ite ?_ ?_
    | split)

theorem mgmtLeave_within {F : List Field} {s u : State} (hF : [Field.welts, Field.fmn] ⊆ F) (h : Within F s u) :
    Within F s (mgmtLeave u) := by
  unfold mgmtLeave
  try dsimp only
  repeat' (first
    | with_reducible exact h
    | with_reducible assumption
    | refine takeMsg_within (sub rfl hF) ?_ _ (_, _) (by assumption)
    | refine takeMsg_within (sub rfl hF) ?_ _ _ (by assumption)
    | with_reducible refine updManaged_within (sub rfl hF) ?_ _ _
    | with_reducible refine Within.ite ?_ ?_
    | split)

theorem mgmtResponse_within {F : List Field} {s u : State} (hF : [Field.welts, Field.fmn] ⊆ F) (h : Within F s u) : Within F s (mgmtResponse u) := by
  unfold mgmtResponse
  split
  · rename_i m s1 e
    have h1 := takeMsg_within (sub rfl hF) h _ (_, _) e
    extract_lets waits
    generalize findBelow 512 waits = o
    cases o with
    | none => exact h1
    | some i => exact respond_within (sub rfl hF) (State_updMbox_within (sub rfl hF) h1 _ _) _ _ _ _
  · rename_i e
    exact takeMsg_within (sub rfl hF) h _ (_, _) e
  · exact h

theorem microOp_within {F : List Field} {s : State} (hF : [Field.mem, Field.bad, Field.cores, Field.benches, Field.parts] ⊆ F) {m : MicroState} (h : Within F s m.s) (a0 : _) (a1 : _) (a2 : _) (a3 : _) :
    ∀ v, microOp a0 a1 a2 a3 m = some (.inl v) → Within F s v.s := by
  have put : ∀ (c : Prop) [Decidable c] (x y : MicroState), Within F s x.s →
      (if c then none else some (Sum.inl x : MicroState ⊕ (Nat × Word))) = some (.inl y) → Within F s y.s := by
    intro c _ x y hx e
    split at e
    · contradiction
    · cases e; exact hx
  have hc := coreCount_within (sub rfl hF) h a0.core 0x18 1
  have hn := fun a n => noteRead_within (sub rfl hF) h a n
  have hw := fun a l => write_within (sub rfl hF) h a l
  intro v e
  unfold microOp at e
  dsimp only at e
  split at e <;> first
    | exact put _ _ _ h e
    | skip
  all_goals
    repeat' first
      | exact put _ _ _ h e
      | exact put _ _ _ (hw _ _) e
      | exact put _ _ _ (hn _ _) e
      | contradiction
      | (cases e; done)
      | (cases e; first | exact h | exact hn _ _ | exact hw _ _ | exact hc)
      | split at e
  all_goals first
    | exact put _ _ _ (Within.ite h hc) e
    | skip

theorem microRun_within {F : List Field} {s : State} (hF : [Field.mem, Field.bad, Field.cores, Field.benches, Field.parts] ⊆ F) {m : MicroState} (h : Within F s m.s) (a0 : _) (a1 : _) (a2 : _) (a3 : _) (a4 : _) :
    Within F s (microState (microRun a0 a1 a2 a3 a4 m)) := by
  induction a4 generalizing m with
  | zero => exact h
  | succ n ih =>
    unfold microRun
    dsimp only
    repeat' first
      | exact h
      | exact ih (by exact h)
      | (have h1 := microOp_within (sub rfl hF) h _ _ _ _ _ ‹microOp _ _ _ _ _ = some (Sum.inl _)›; exact h1)
      | exact ih (by have h1 := microOp_within (sub rfl hF) h _ _ _ _ _ ‹microOp _ _ _ _ _ = some (Sum.inl _)›; exact h1)
      | split

theorem microResult_within {F : List Field} {s u : State} (hF : [Field.mem, Field.bad, Field.cores, Field.benches, Field.parts] ⊆ F) (h : Within F s u) (a0 : _) (a1 : _) :
    Within F s (microState (microResult a0 a1 u)) := by
  unfold microResult
  exact microRun_within (sub rfl hF) (m := { s := u, stk := _, i := _, cyc := _, acc := _, muls := _ }) h _ _ _ _ _

theorem microEnd_within {F : List Field} {s u : State} (hF : [Field.mem, Field.bad, Field.cores, Field.benches, Field.parts, Field.fmn, Field.trc, Field.board, Field.free] ⊆ F) (h : Within F s u) (a0 : _) : Within F s (microEnd a0 u) := by
  unfold microEnd
  split
  · dsimp only
    split
    · exact h
    · rename_i r rest _ _ _ _
      have hm := microResult_within (sub rfl hF) h a0 r
      split <;> rename_i e <;> rw [e] at hm
      · exact Within.ite h (completeHeld_within (sub rfl hF) (State_updCore_within (sub rfl hF) hm _ _) _ _)
      · refine Within.ite h (faultHeld_within (sub rfl hF) (Within.ite ?_ ?_) _ _ _)
        · exact memCont_within (sub rfl hF) (State_updCore_within (sub rfl hF) hm _ _) _ _ _
        · exact State_updCore_within (sub rfl hF) hm _ _
  · exact h

theorem microStart_within {F : List Field} {s u : State} (hF : [Field.cores] ⊆ F) (h : Within F s u) (a0 : _) :
    Within F s (microStart a0 u) := by
  unfold microStart
  try dsimp only
  repeat' (first
    | with_reducible exact h
    | with_reducible assumption
    | with_reducible refine State_updCore_within (sub rfl hF) ?_ _ _
    | with_reducible refine Within.ite ?_ ?_
    | split)

theorem wakeRdtsr_within {F : List Field} {s u : State} (hF : [Field.mem, Field.bad, Field.cores, Field.benches, Field.free] ⊆ F) (h : Within F s u) (a0 : _) :
    Within F s (wakeRdtsr a0 u) := by
  unfold wakeRdtsr
  try dsimp only
  repeat' (first
    | with_reducible exact h
    | with_reducible assumption
    | with_reducible refine forAll_within ?_ ?_
    | with_reducible refine completeHeld_within (sub rfl hF) ?_ _ _
    | with_reducible refine forAll_within (sub rfl hF) ?_ _ _
    | with_reducible refine Within.ite ?_ ?_
    | split
    | intro)

theorem toward_within {F : List Field} {s u : State} (hF : [Field.pwr] ⊆ F) (h : Within F s u) :
    Within F s (toward u) := by
  unfold toward
  try dsimp only
  repeat' (first
    | with_reducible exact h
    | with_reducible assumption
    | fail_if_no_progress with_reducible refine Within.set_pwr (sub rfl hF) ?_
    | with_reducible refine Within.ite ?_ ?_
    | split)

theorem opStepDone_within {F : List Field} {s u : State} (hF : [Field.pwr] ⊆ F) (h : Within F s u) :
    Within F s (opStepDone u) := by
  unfold opStepDone
  try dsimp only
  repeat' (first
    | with_reducible exact h
    | with_reducible assumption
    | fail_if_no_progress with_reducible refine Within.set_pwr (sub rfl hF) ?_
    | with_reducible refine toward_within (sub rfl hF) ?_ 
    | with_reducible refine endPulse_within (sub rfl hF) ?_ 
    | with_reducible refine setOp_within (sub rfl hF) ?_ _
    | with_reducible refine Within.ite ?_ ?_
    | split)

theorem openStreamRx_within {F : List Field} {s u : State} (hF : [Field.welts, Field.streams, Field.fmn, Field.pwr] ⊆ F) (h : Within F s u) (a0 : _) :
    Within F s (openStreamRx a0 u) := by
  unfold openStreamRx
  try dsimp only
  repeat' (first
    | with_reducible exact h
    | with_reducible assumption
    | with_reducible refine withPart_within (sub rfl hF) ?_ ?_ _ _
    | with_reducible refine runCmd_within (sub rfl hF) ?_ ?_ _ _ _ _ _
    | with_reducible refine checked_within (sub rfl hF) ?_ ?_ _ _ _
    | with_reducible refine respond_within (sub rfl hF) ?_ _ _ _ _
    | with_reducible refine State_updStream_within (sub rfl hF) ?_ _ _
    | with_reducible refine Within.ite ?_ ?_
    | split
    | intro)

theorem openStreamTx_within {F : List Field} {s u : State} (hF : [Field.welts, Field.streams, Field.fmn, Field.pwr] ⊆ F) (h : Within F s u) (a0 : _) :
    Within F s (openStreamTx a0 u) := by
  unfold openStreamTx
  try dsimp only
  repeat' (first
    | with_reducible exact h
    | with_reducible assumption
    | with_reducible refine withPart_within (sub rfl hF) ?_ ?_ _ _
    | with_reducible refine runCmd_within (sub rfl hF) ?_ ?_ _ _ _ _ _
    | with_reducible refine checked_within (sub rfl hF) ?_ ?_ _ _ _
    | with_reducible refine respond_within (sub rfl hF) ?_ _ _ _ _
    | with_reducible refine State_updStream_within (sub rfl hF) ?_ _ _
    | with_reducible refine Within.ite ?_ ?_
    | split
    | intro)

theorem withSlot_within {F : List Field} {s u : State} (hF : [Field.cores] ⊆ F) (h : Within F s u) {k : State → Out}
    (hk : ∀ v, Within F s v → Within F s (outState (k v))) (a0 : _) (a1 : _) (a2 : _) :
    Within F s (outState (withSlot a0 a1 a2 u k)) := by
  unfold withSlot
  split
  · exact h
  · exact hk _ (nameUnit_within (sub rfl hF) h _ _ _ _ _ (by assumption))

theorem pabort_within {F : List Field} {s u : State} (hF : [Field.mem, Field.bad, Field.cores, Field.benches, Field.parts, Field.fmn, Field.trc, Field.board, Field.free] ⊆ F) (h : Within F s u) (a0 : _) :
    Within F s (pabort a0 u) := by
  unfold pabort
  try dsimp only
  repeat' (first
    | with_reducible exact h
    | with_reducible assumption
    | with_reducible refine withSlot_within (sub rfl hF) ?_ ?_ _ _ _
    | refine Within.of_ok (by assumption) (withSlot_within (sub rfl hF) ?_ ?_ _ _ _)
    | refine Within.of_held (by assumption) (withSlot_within (sub rfl hF) ?_ ?_ _ _ _)
    | refine Within.of_exc (by assumption) (withSlot_within (sub rfl hF) ?_ ?_ _ _ _)
    | refine Within.of_done (by assumption) (withSlot_within (sub rfl hF) ?_ ?_ _ _ _)
    | with_reducible refine pushes_within (sub rfl hF) ?_ _
    | refine Within.of_ok (by assumption) (pushes_within (sub rfl hF) ?_ _)
    | refine Within.of_held (by assumption) (pushes_within (sub rfl hF) ?_ _)
    | refine Within.of_exc (by assumption) (pushes_within (sub rfl hF) ?_ _)
    | refine Within.of_done (by assumption) (pushes_within (sub rfl hF) ?_ _)
    | with_reducible refine issue_within (sub rfl hF) ?_ ?_ _ _ _ _ _ _
    | with_reducible refine abortDesc_within (sub rfl hF) ?_ _ _
    | with_reducible refine Within.out_ok ?_
    | with_reducible refine Within.out_held ?_
    | with_reducible refine Within.out_exc ?_
    | with_reducible refine Within.out_done ?_
    | with_reducible refine Within.ite ?_ ?_
    | split
    | intro)

theorem packetCounted_within {F : List Field} {s u : State} (hF : [Field.benches, Field.welts, Field.streams] ⊆ F) (h : Within F s u) (a0 : _) (a1 : _) :
    Within F s (packetCounted a0 a1 u) := by
  unfold packetCounted
  try dsimp only
  repeat' (first
    | with_reducible exact h
    | with_reducible assumption
    | with_reducible refine sendAck_within (sub rfl hF) ?_ _ _
    | with_reducible refine toSlice_within (sub rfl hF) ?_ _ _ _ _
    | with_reducible refine State_updWelt_within (sub rfl hF) ?_ _ _
    | with_reducible refine State_updStream_within (sub rfl hF) ?_ _ _
    | with_reducible refine Within.ite ?_ ?_
    | split)

theorem pathRelease_within {F : List Field} {s u : State} (hF : [Field.benches, Field.clicker] ⊆ F) (h : Within F s u) (a0 : _) (a1 : _) :
    Within F s (pathRelease a0 a1 u) := by
  unfold pathRelease
  try dsimp only
  repeat' (first
    | with_reducible exact h
    | with_reducible assumption
    | fail_if_no_progress with_reducible refine Within.set_clicker (sub rfl hF) ?_
    | with_reducible refine setConn_within (sub rfl hF) ?_ _ _ _
    | with_reducible refine Within.ite ?_ ?_
    | split)

theorem pathRoutersFreed_within {F : List Field} {s u : State} (hF : [Field.benches, Field.clicker] ⊆ F) (h : Within F s u) (a0 : _) (a1 : _) :
    Within F s (pathRoutersFreed a0 a1 u) := by
  unfold pathRoutersFreed
  try dsimp only
  repeat' (first
    | with_reducible exact h
    | with_reducible assumption
    | fail_if_no_progress with_reducible refine Within.set_clicker (sub rfl hF) ?_
    | with_reducible refine writePath_within (sub rfl hF) ?_ _ _ _ _ _
    | with_reducible refine Within.ite ?_ ?_
    | split)

theorem perstAssert_within {F : List Field} {s u : State} (hF : [Field.now, Field.mem, Field.bad, Field.cores, Field.benches, Field.flits, Field.arrivals, Field.ports, Field.welts, Field.streams, Field.parts, Field.clicker, Field.ring, Field.ringTurn, Field.ringSide, Field.fmn, Field.pwr, Field.boot, Field.trc, Field.board, Field.faults, Field.resets] ⊆ F) (h : Within F s u) (a0 : _) :
    Within F s (perstAssert a0 u) := by
  unfold perstAssert
  try dsimp only
  repeat' (first
    | with_reducible exact h
    | with_reducible assumption
    | fail_if_no_progress with_reducible refine Within.set_board (sub rfl hF) ?_
    | with_reducible refine askModuleReset_within (sub rfl hF) ?_ 
    | with_reducible refine Within.ite ?_ ?_)

theorem perstDeassert_within {F : List Field} {s u : State} (hF : [Field.pwr, Field.boot, Field.board] ⊆ F) (h : Within F s u) :
    Within F s (perstDeassert u) := by
  unfold perstDeassert
  try dsimp only
  repeat' (first
    | with_reducible exact h
    | with_reducible assumption
    | fail_if_no_progress with_reducible refine Within.set_board (sub rfl hF) ?_
    | with_reducible refine wakeUp_within (sub rfl hF) ?_ 
    | with_reducible refine Within.ite ?_ ?_)

theorem pick_within {F : List Field} {s u : State} (hF : [Field.mem, Field.bad, Field.cores, Field.benches, Field.parts, Field.fmn, Field.trc, Field.board, Field.free] ⊆ F) (h : Within F s u) (a0 : _) :
    Within F s (pick a0 u) := by
  unfold pick
  try dsimp only
  repeat' (first
    | with_reducible exact h
    | with_reducible assumption
    | with_reducible refine pushes_within (sub rfl hF) ?_ _
    | refine Within.of_ok (by assumption) (pushes_within (sub rfl hF) ?_ _)
    | refine Within.of_held (by assumption) (pushes_within (sub rfl hF) ?_ _)
    | refine Within.of_exc (by assumption) (pushes_within (sub rfl hF) ?_ _)
    | refine Within.of_done (by assumption) (pushes_within (sub rfl hF) ?_ _)
    | with_reducible refine issue_within (sub rfl hF) ?_ ?_ _ _ _ _ _ _
    | with_reducible refine Within.out_ok ?_
    | with_reducible refine Within.out_held ?_
    | with_reducible refine Within.out_exc ?_
    | with_reducible refine Within.out_done ?_
    | with_reducible refine Within.ite ?_ ?_
    | split
    | intro)

theorem portTrained_within {F : List Field} {s u : State} (hF : [Field.welts, Field.fmn, Field.boot] ⊆ F) (h : Within F s u) (a0 : _) :
    Within F s (portTrained a0 u) := by
  unfold portTrained
  try dsimp only
  repeat' (first
    | with_reducible exact h
    | with_reducible assumption
    | fail_if_no_progress with_reducible refine Within.set_boot (sub rfl hF) ?_
    | with_reducible refine recheck_within (sub rfl hF) ?_ 
    | with_reducible refine logEvent_within (sub rfl hF) ?_ _ _ _ _
    | with_reducible refine State_updWelt_within (sub rfl hF) ?_ _ _
    | with_reducible refine Within.ite ?_ ?_)

theorem powerOn_within {F : List Field} {s u : State} (hF : [Field.tb, Field.board] ⊆ F) (h : Within F s u) (a0 : _) :
    Within F s (powerOn a0 u) := by
  unfold powerOn
  try dsimp only
  repeat' (first
    | with_reducible exact h
    | with_reducible assumption
    | fail_if_no_progress with_reducible refine Within.set_tb_board (sub rfl hF) ?_
    | with_reducible refine Within.ite ?_ ?_)

theorem ppost_within {F : List Field} {s u : State} (hF : [Field.mem, Field.bad, Field.cores, Field.benches, Field.parts, Field.fmn, Field.trc, Field.board, Field.free] ⊆ F) (h : Within F s u) (a0 : _) :
    Within F s (ppost a0 u) := by
  unfold ppost
  try dsimp only
  repeat' (first
    | with_reducible exact h
    | with_reducible assumption
    | with_reducible refine withSlot_within (sub rfl hF) ?_ ?_ _ _ _
    | refine Within.of_ok (by assumption) (withSlot_within (sub rfl hF) ?_ ?_ _ _ _)
    | refine Within.of_held (by assumption) (withSlot_within (sub rfl hF) ?_ ?_ _ _ _)
    | refine Within.of_exc (by assumption) (withSlot_within (sub rfl hF) ?_ ?_ _ _ _)
    | refine Within.of_done (by assumption) (withSlot_within (sub rfl hF) ?_ ?_ _ _ _)
    | with_reducible refine localRead_within (sub rfl hF) ?_ ?_ _ _ _
    | refine Within.of_ok (by assumption) (localRead_within (sub rfl hF) ?_ ?_ _ _ _)
    | refine Within.of_held (by assumption) (localRead_within (sub rfl hF) ?_ ?_ _ _ _)
    | refine Within.of_exc (by assumption) (localRead_within (sub rfl hF) ?_ ?_ _ _ _)
    | refine Within.of_done (by assumption) (localRead_within (sub rfl hF) ?_ ?_ _ _ _)
    | with_reducible refine freshSerial_within (sub rfl hF) ?_ 
    | refine Within.snd (by assumption) (freshSerial_within (sub rfl hF) ?_ )
    | with_reducible refine pushes_within (sub rfl hF) ?_ _
    | refine Within.of_ok (by assumption) (pushes_within (sub rfl hF) ?_ _)
    | refine Within.of_held (by assumption) (pushes_within (sub rfl hF) ?_ _)
    | refine Within.of_exc (by assumption) (pushes_within (sub rfl hF) ?_ _)
    | refine Within.of_done (by assumption) (pushes_within (sub rfl hF) ?_ _)
    | with_reducible refine issue_within (sub rfl hF) ?_ ?_ _ _ _ _ _ _
    | with_reducible refine State_updSlotOf_within (sub rfl hF) ?_ _ _ _
    | with_reducible refine Within.out_ok ?_
    | with_reducible refine Within.out_held ?_
    | with_reducible refine Within.out_exc ?_
    | with_reducible refine Within.out_done ?_
    | with_reducible refine Within.ite ?_ ?_
    | split
    | intro)

theorem preamble_within {F : List Field} {s u : State} (hF : [Field.cores, Field.parts, Field.pwr] ⊆ F) (h : Within F s u) (a0 : _) :
    Within F s (preamble a0 u) := by
  unfold preamble
  try dsimp only
  repeat' (first
    | with_reducible exact h
    | with_reducible assumption
    | fail_if_no_progress with_reducible refine Within.set_pwr (sub rfl hF) ?_
    | with_reducible refine forAll_within ?_ ?_
    | with_reducible refine clockOn_within (sub rfl hF) ?_ _
    | with_reducible refine beginRamp_within (sub rfl hF) ?_ _ _ _
    | with_reducible refine forAll_within (sub rfl hF) ?_ _ _
    | with_reducible refine State_updPart_within (sub rfl hF) ?_ _ _
    | with_reducible refine Within.ite ?_ ?_
    | split
    | intro)

theorem pstat_within {F : List Field} {s u : State} (hF : [Field.mem, Field.bad, Field.cores, Field.benches, Field.parts, Field.fmn, Field.trc, Field.board, Field.free] ⊆ F) (h : Within F s u) (a0 : _) :
    Within F s (pstat a0 u) := by
  unfold pstat
  try dsimp only
  repeat' (first
    | with_reducible exact h
    | with_reducible assumption
    | with_reducible refine withSlot_within (sub rfl hF) ?_ ?_ _ _ _
    | refine Within.of_ok (by assumption) (withSlot_within (sub rfl hF) ?_ ?_ _ _ _)
    | refine Within.of_held (by assumption) (withSlot_within (sub rfl hF) ?_ ?_ _ _ _)
    | refine Within.of_exc (by assumption) (withSlot_within (sub rfl hF) ?_ ?_ _ _ _)
    | refine Within.of_done (by assumption) (withSlot_within (sub rfl hF) ?_ ?_ _ _ _)
    | with_reducible refine emptySlot_within (sub rfl hF) ?_ _ _
    | with_reducible refine pushes_within (sub rfl hF) ?_ _
    | refine Within.of_ok (by assumption) (pushes_within (sub rfl hF) ?_ _)
    | refine Within.of_held (by assumption) (pushes_within (sub rfl hF) ?_ _)
    | refine Within.of_exc (by assumption) (pushes_within (sub rfl hF) ?_ _)
    | refine Within.of_done (by assumption) (pushes_within (sub rfl hF) ?_ _)
    | with_reducible refine issue_within (sub rfl hF) ?_ ?_ _ _ _ _ _ _
    | with_reducible refine Within.out_ok ?_
    | with_reducible refine Within.out_held ?_
    | with_reducible refine Within.out_exc ?_
    | with_reducible refine Within.out_done ?_
    | with_reducible refine Within.ite ?_ ?_
    | split
    | intro)

theorem pwrBrake_within {F : List Field} {s u : State} (hF : [Field.parts, Field.fmn, Field.pwr, Field.board] ⊆ F) (h : Within F s u) (a0 : _) (a1 : _) :
    Within F s (pwrBrake a0 a1 u) := by
  unfold pwrBrake
  try dsimp only
  repeat' (first
    | with_reducible exact h
    | with_reducible assumption
    | fail_if_no_progress with_reducible refine Within.set_board (sub rfl hF) ?_
    | with_reducible refine releaseSource_within (sub rfl hF) ?_ _
    | with_reducible refine assertSource_within (sub rfl hF) ?_ _
    | with_reducible refine Within.ite ?_ ?_)

theorem queryJob_within {F : List Field} {s u : State} (hF : [Field.welts, Field.fmn, Field.pwr] ⊆ F) (h : Within F s u) (a0 : _) :
    Within F s (queryJob a0 u) := by
  unfold queryJob
  try dsimp only
  repeat' (first
    | with_reducible exact h
    | with_reducible assumption
    | with_reducible refine withPart_within (sub rfl hF) ?_ ?_ _ _
    | with_reducible refine runCmd_within (sub rfl hF) ?_ ?_ _ _ _ _ _
    | with_reducible refine checked_within (sub rfl hF) ?_ ?_ _ _ _
    | with_reducible refine respond_within (sub rfl hF) ?_ _ _ _ _
    | with_reducible refine Within.ite ?_ ?_
    | split
    | intro)

theorem quietEnd_within {F : List Field} {s u : State} (hF : [Field.parts] ⊆ F) (h : Within F s u) (a0 : _) :
    Within F s (quietEnd a0 u) := by
  unfold quietEnd
  try dsimp only
  repeat' (first
    | with_reducible exact h
    | with_reducible assumption
    | with_reducible refine State_updPart_within (sub rfl hF) ?_ _ _
    | with_reducible refine Within.ite ?_ ?_
    | split)

theorem quit_within {F : List Field} {s u : State} (hF : [Field.mem, Field.bad, Field.cores, Field.benches, Field.parts, Field.fmn, Field.trc, Field.board, Field.free] ⊆ F) (h : Within F s u) (a0 : _) :
    Within F s (quit a0 u) := by
  unfold quit
  try dsimp only
  repeat' (first
    | with_reducible exact h
    | with_reducible assumption
    | with_reducible refine goes_within (sub rfl hF) ?_ _ _
    | refine Within.of_ok (by assumption) (goes_within (sub rfl hF) ?_ _ _)
    | refine Within.of_held (by assumption) (goes_within (sub rfl hF) ?_ _ _)
    | refine Within.of_exc (by assumption) (goes_within (sub rfl hF) ?_ _ _)
    | refine Within.of_done (by assumption) (goes_within (sub rfl hF) ?_ _ _)
    | with_reducible refine issue_within (sub rfl hF) ?_ ?_ _ _ _ _ _ _
    | with_reducible refine State_updCtx_within (sub rfl hF) ?_ _ _
    | with_reducible refine Within.out_ok ?_
    | with_reducible refine Within.out_held ?_
    | with_reducible refine Within.out_exc ?_
    | with_reducible refine Within.out_done ?_
    | with_reducible refine Within.ite ?_ ?_
    | split
    | intro)

theorem rampDown_within {F : List Field} {s u : State} (hF : [Field.cores, Field.benches, Field.parts, Field.pwr] ⊆ F) (h : Within F s u) (a0 : _) :
    Within F s (rampDown a0 u) := by
  unfold rampDown
  try dsimp only
  repeat' (first
    | with_reducible exact h
    | with_reducible assumption
    | with_reducible refine forAll_within ?_ ?_
    | with_reducible refine clockOff_within (sub rfl hF) ?_ _
    | with_reducible refine beginRamp_within (sub rfl hF) ?_ _ _ _
    | with_reducible refine touch_within (sub rfl hF) ?_ 
    | with_reducible refine forAll_within (sub rfl hF) ?_ _ _
    | with_reducible refine State_updPart_within (sub rfl hF) ?_ _ _
    | with_reducible refine Within.foldl ?_ ?_
    | with_reducible refine Within.ite ?_ ?_
    | split
    | intro)

theorem rdsr_within {F : List Field} {s u : State} (hF : [Field.mem, Field.bad, Field.cores, Field.benches, Field.parts, Field.fmn, Field.trc, Field.board, Field.free] ⊆ F) (h : Within F s u) (a0 : _) :
    Within F s (rdsr a0 u) := by
  unfold rdsr
  try dsimp only
  repeat' (first
    | with_reducible exact h
    | with_reducible assumption
    | with_reducible refine srRead_within (sub rfl hF) ?_ _ _ _
    | refine Within.fst (by assumption) (srRead_within (sub rfl hF) ?_ _ _ _)
    | with_reducible refine pushes_within (sub rfl hF) ?_ _
    | refine Within.of_ok (by assumption) (pushes_within (sub rfl hF) ?_ _)
    | refine Within.of_held (by assumption) (pushes_within (sub rfl hF) ?_ _)
    | refine Within.of_exc (by assumption) (pushes_within (sub rfl hF) ?_ _)
    | refine Within.of_done (by assumption) (pushes_within (sub rfl hF) ?_ _)
    | with_reducible refine issue_within (sub rfl hF) ?_ ?_ _ _ _ _ _ _
    | with_reducible refine Within.out_ok ?_
    | with_reducible refine Within.out_held ?_
    | with_reducible refine Within.out_exc ?_
    | with_reducible refine Within.out_done ?_
    | with_reducible refine Within.ite ?_ ?_
    | split
    | intro)

theorem rdtsr_within {F : List Field} {s u : State} (hF : [Field.mem, Field.bad, Field.cores, Field.benches, Field.parts, Field.fmn, Field.trc, Field.board, Field.free] ⊆ F) (h : Within F s u) (a0 : _) :
    Within F s (rdtsr a0 u) := by
  unfold rdtsr
  try dsimp only
  repeat' (first
    | with_reducible exact h
    | with_reducible assumption
    | with_reducible refine srRead_within (sub rfl hF) ?_ _ _ _
    | refine Within.fst (by assumption) (srRead_within (sub rfl hF) ?_ _ _ _)
    | with_reducible refine pushes_within (sub rfl hF) ?_ _
    | refine Within.of_ok (by assumption) (pushes_within (sub rfl hF) ?_ _)
    | refine Within.of_held (by assumption) (pushes_within (sub rfl hF) ?_ _)
    | refine Within.of_exc (by assumption) (pushes_within (sub rfl hF) ?_ _)
    | refine Within.of_done (by assumption) (pushes_within (sub rfl hF) ?_ _)
    | with_reducible refine issue_within (sub rfl hF) ?_ ?_ _ _ _ _ _ _
    | with_reducible refine Within.out_ok ?_
    | with_reducible refine Within.out_held ?_
    | with_reducible refine Within.out_exc ?_
    | with_reducible refine Within.out_done ?_
    | with_reducible refine Within.ite ?_ ?_
    | split
    | intro)

theorem readCounters_within {F : List Field} {s u : State} (hF : [Field.welts, Field.fmn, Field.pwr] ⊆ F) (h : Within F s u) (a0 : _) :
    Within F s (readCounters a0 u) := by
  unfold readCounters
  try dsimp only
  repeat' (first
    | with_reducible exact h
    | with_reducible assumption
    | with_reducible refine runCmd_within (sub rfl hF) ?_ ?_ _ _ _ _ _
    | with_reducible refine checked_within (sub rfl hF) ?_ ?_ _ _ _
    | with_reducible refine respond_within (sub rfl hF) ?_ _ _ _ _
    | with_reducible refine Within.ite ?_ ?_
    | split
    | intro)

theorem readRecord_within {F : List Field} {s u : State} (hF : [Field.welts, Field.fmn, Field.pwr] ⊆ F) (h : Within F s u) (a0 : _) :
    Within F s (readRecord a0 u) := by
  unfold readRecord
  try dsimp only
  repeat' (first
    | with_reducible exact h
    | with_reducible assumption
    | with_reducible refine runCmd_within (sub rfl hF) ?_ ?_ _ _ _ _ _
    | with_reducible refine checked_within (sub rfl hF) ?_ ?_ _ _ _
    | with_reducible refine respond_within (sub rfl hF) ?_ _ _ _ _
    | with_reducible refine Within.ite ?_ ?_
    | split
    | intro)

theorem withTally_within {F : List Field} {s u : State} (hF : [Field.welts, Field.fmn] ⊆ F) (h : Within F s u) {go : State → State}
    (hg : ∀ v, Within F s v → Within F s (go v)) (a0 : _) (a1 : _) : Within F s (withTally a0 a1 go u) := by
  unfold withTally
  split
  · exact respond_within (sub rfl hF) h _ _ _ _
  · exact withPart_within (sub rfl hF) h hg _ _

theorem readTally_within {F : List Field} {s u : State} (hF : [Field.welts, Field.fmn, Field.pwr] ⊆ F) (h : Within F s u) (a0 : _) :
    Within F s (readTally a0 u) := by
  unfold readTally
  try dsimp only
  repeat' (first
    | with_reducible exact h
    | with_reducible assumption
    | with_reducible refine withTally_within (sub rfl hF) ?_ ?_ _ _
    | with_reducible refine runCmd_within (sub rfl hF) ?_ ?_ _ _ _ _ _
    | with_reducible refine respond_within (sub rfl hF) ?_ _ _ _ _
    | with_reducible refine Within.ite ?_ ?_
    | split
    | intro)

theorem receiverAbort_within {F : List Field} {s u : State} (hF : [Field.mem, Field.bad, Field.cores, Field.benches, Field.clicker, Field.ring, Field.trc, Field.free] ⊆ F) (h : Within F s u) (a0 : _) (a1 : _) :
    Within F s (receiverAbort a0 a1 u) := by
  unfold receiverAbort
  try dsimp only
  repeat' (first
    | with_reducible exact h
    | with_reducible assumption
    | refine ringTake_within (sub rfl hF) ?_ _ (_, _) (by assumption)
    | refine ringTake_within (sub rfl hF) ?_ _ _ (by assumption)
    | with_reducible refine abortOrDrain_within (sub rfl hF) ?_ _ _
    | with_reducible refine Within.ite ?_ ?_
    | split)

theorem refclkLoss_within {F : List Field} {s u : State} (hF : [Field.now, Field.mem, Field.bad, Field.cores, Field.benches, Field.flits, Field.arrivals, Field.ports, Field.welts, Field.streams, Field.parts, Field.clicker, Field.ring, Field.ringTurn, Field.ringSide, Field.fmn, Field.pwr, Field.boot, Field.trc, Field.board, Field.faults, Field.resets] ⊆ F) (h : Within F s u) :
    Within F s (refclkLoss u) := by
  unfold refclkLoss
  try dsimp only
  repeat' (first
    | with_reducible exact h
    | with_reducible assumption
    | fail_if_no_progress with_reducible refine Within.set_pwr_board (sub rfl hF) ?_
    | fail_if_no_progress with_reducible refine Within.set_board (sub rfl hF) ?_
    | with_reducible refine moduleReset_within (sub rfl hF) ?_ 
    | with_reducible refine Within.ite ?_ ?_)

theorem refclkReturn_within {F : List Field} {s u : State} (hF : [Field.now, Field.mem, Field.bad, Field.cores, Field.benches, Field.flits, Field.arrivals, Field.ports, Field.welts, Field.streams, Field.parts, Field.clicker, Field.ring, Field.ringTurn, Field.ringSide, Field.fmn, Field.pwr, Field.boot, Field.trc, Field.board, Field.faults, Field.resets] ⊆ F) (h : Within F s u) :
    Within F s (refclkReturn u) := by
  unfold refclkReturn
  try dsimp only
  repeat' (first
    | with_reducible exact h
    | with_reducible assumption
    | fail_if_no_progress with_reducible refine Within.set_board (sub rfl hF) ?_
    | with_reducible refine askModuleReset_within (sub rfl hF) ?_ 
    | with_reducible refine Within.ite ?_ ?_)

theorem resetEnd_within {F : List Field} {s u : State} (hF : [Field.mem, Field.bad, Field.cores, Field.benches, Field.flits, Field.arrivals, Field.ports, Field.welts, Field.streams, Field.parts, Field.clicker, Field.ring, Field.ringTurn, Field.ringSide, Field.fmn, Field.pwr, Field.boot, Field.trc, Field.board, Field.faults, Field.resets] ⊆ F) (h : Within F s u) (a0 : _) :
    Within F s (resetEnd a0 u) := by
  unfold resetEnd
  try dsimp only
  repeat' (first
    | with_reducible exact h
    | with_reducible assumption
    | fail_if_no_progress with_reducible refine Within.set_resets (sub rfl hF) ?_
    | with_reducible refine forAll_within ?_ ?_
    | with_reducible refine clockOff_within (sub rfl hF) ?_ _
    | with_reducible refine clearScope_within (sub rfl hF) ?_ _
    | with_reducible refine freshProgs_within (sub rfl hF) ?_ _
    | with_reducible refine applyRepairs_within (sub rfl hF) ?_ _
    | with_reducible refine respond_within (sub rfl hF) ?_ _ _ _ _
    | with_reducible refine forAll_within (sub rfl hF) ?_ _ _
    | with_reducible refine State_updPart_within (sub rfl hF) ?_ _ _
    | with_reducible refine Within.ite ?_ ?_
    | split
    | intro)

theorem peerReset_within {F : List Field} {s u : State} (hF : [Field.mem, Field.bad, Field.cores, Field.benches, Field.clicker, Field.trc, Field.free] ⊆ F) (h : Within F s u) (a0 : _) (a1 : _) (a2 : _) :
    Within F s (peerReset a0 a1 a2 u) := by
  unfold peerReset
  try dsimp only
  repeat' (first
    | with_reducible exact h
    | with_reducible assumption
    | with_reducible refine releasePaths_within (sub rfl hF) ?_ _ _
    | with_reducible refine endSends_within (sub rfl hF) ?_ _ _ _
    | with_reducible refine State_updChanOf_within (sub rfl hF) ?_ _ _ _
    | with_reducible refine Within.ite ?_ ?_)

theorem pointCore_within {F : List Field} {s u : State} (hF : [Field.mem, Field.bad, Field.cores, Field.benches, Field.clicker, Field.ring, Field.trc, Field.free] ⊆ F) (h : Within F s u) (a0 : _) :
    Within F s (pointCore a0 u) := by
  unfold pointCore
  try dsimp only
  repeat' (first
    | with_reducible exact h
    | with_reducible assumption
    | with_reducible refine forAll_within ?_ ?_
    | with_reducible refine dropWait_within (sub rfl hF) ?_ _
    | with_reducible refine abortOrDrain_within (sub rfl hF) ?_ _ _
    | with_reducible refine forAll_within (sub rfl hF) ?_ _ _
    | with_reducible refine abortDesc_within (sub rfl hF) ?_ _ _
    | with_reducible refine Within.ite ?_ ?_
    | split
    | intro)

theorem pointStreams_within {F : List Field} {s u : State} (hF : [Field.benches, Field.welts, Field.streams, Field.pwr] ⊆ F) (h : Within F s u) (a0 : _) :
    Within F s (pointStreams a0 u) := by
  unfold pointStreams
  try dsimp only
  repeat' (first
    | with_reducible exact h
    | with_reducible assumption
    | with_reducible refine forAll_within ?_ ?_
    | with_reducible refine closeEntry_within (sub rfl hF) ?_ _
    | with_reducible refine forAll_within (sub rfl hF) ?_ _ _
    | with_reducible refine State_updSlotOf_within (sub rfl hF) ?_ _ _ _
    | with_reducible refine Within.ite ?_ ?_
    | split
    | intro)

theorem resetPoint_within {F : List Field} {s u : State} (hF : [Field.now, Field.mem, Field.bad, Field.cores, Field.benches, Field.flits, Field.arrivals, Field.ports, Field.welts, Field.streams, Field.parts, Field.clicker, Field.ring, Field.ringTurn, Field.ringSide, Field.fmn, Field.pwr, Field.boot, Field.trc, Field.board, Field.faults, Field.resets, Field.free] ⊆ F) (h : Within F s u) (a0 : _) :
    Within F s (resetPoint a0 u) := by
  unfold resetPoint
  try dsimp only
  repeat' (first
    | with_reducible exact h
    | with_reducible assumption
    | fail_if_no_progress with_reducible refine Within.set_resets (sub rfl hF) ?_
    | with_reducible refine forAll_within ?_ ?_
    | with_reducible refine pointStreams_within (sub rfl hF) ?_ _
    | with_reducible refine pointCore_within (sub rfl hF) ?_ _
    | with_reducible refine peerReset_within (sub rfl hF) ?_ _ _ _
    | with_reducible refine drainAgain_within (sub rfl hF) ?_ _
    | with_reducible refine moduleReset_within (sub rfl hF) ?_ 
    | with_reducible refine forAll_within (sub rfl hF) ?_ _ _
    | with_reducible refine State_updBench_within (sub rfl hF) ?_ _ _
    | with_reducible refine Within.ite ?_ ?_
    | split
    | intro)

theorem resetScope_within {F : List Field} {s u : State} (hF : [Field.welts, Field.parts, Field.fmn, Field.pwr, Field.resets] ⊆ F) (h : Within F s u) (a0 : _) :
    Within F s (resetScope a0 u) := by
  unfold resetScope
  try dsimp only
  repeat' (first
    | with_reducible exact h
    | with_reducible assumption
    | with_reducible refine joinReset_within (sub rfl hF) ?_ _ _
    | with_reducible refine withPart_within (sub rfl hF) ?_ ?_ _ _
    | with_reducible refine runCmd_within (sub rfl hF) ?_ ?_ _ _ _ _ _
    | with_reducible refine checked_within (sub rfl hF) ?_ ?_ _ _ _
    | with_reducible refine beginReset_within (sub rfl hF) ?_ _ _
    | with_reducible refine respond_within (sub rfl hF) ?_ _ _ _ _
    | with_reducible refine Within.ite ?_ ?_
    | split
    | intro)

theorem messageTimeout_within {F : List Field} {s u : State} (hF : [Field.welts, Field.fmn] ⊆ F) (h : Within F s u) (a0 : _) (a1 : _) :
    Within F s (messageTimeout a0 a1 u) := by
  unfold messageTimeout
  try dsimp only
  repeat' (first
    | with_reducible exact h
    | with_reducible assumption
    | with_reducible refine updSession_within (sub rfl hF) ?_ _ _
    | with_reducible refine sendMgmt_within (sub rfl hF) ?_ _ _ _ _ _
    | with_reducible refine Within.ite ?_ ?_
    | split)

theorem sendPacket_within {F : List Field} {s u : State} (hF : [Field.welts] ⊆ F) (h : Within F s u) (a0 : _) (a1 : _) (a2 : _) :
    Within F s (sendPacket a0 a1 a2 u) := by
  unfold sendPacket
  try dsimp only
  repeat' (first
    | with_reducible exact h
    | with_reducible assumption
    | with_reducible refine weltCount_within (sub rfl hF) ?_ _ _ _
    | with_reducible refine updTx_within (sub rfl hF) ?_ _ _ _ _
    | with_reducible refine transmit_within (sub rfl hF) ?_ _ _ _
    | with_reducible refine Within.ite ?_ ?_)

theorem packetTimeout_within {F : List Field} {s u : State} (hF : [Field.cores, Field.benches, Field.welts, Field.streams, Field.parts, Field.fmn, Field.pwr] ⊆ F) (h : Within F s u) (a0 : _) (a1 : _) :
    Within F s (packetTimeout a0 a1 u) := by
  unfold packetTimeout
  try dsimp only
  repeat' (first
    | with_reducible exact h
    | with_reducible assumption
    | with_reducible refine sendPacket_within (sub rfl hF) ?_ _ _ _
    | with_reducible refine updTx_within (sub rfl hF) ?_ _ _ _ _
    | with_reducible refine failStream_within (sub rfl hF) ?_ _ _
    | with_reducible refine State_updStream_within (sub rfl hF) ?_ _ _
    | with_reducible refine Within.ite ?_ ?_
    | split)

theorem retransmission_within {F : List Field} {s u : State} (hF : [Field.cores, Field.benches, Field.welts, Field.streams, Field.parts, Field.fmn, Field.pwr] ⊆ F) (h : Within F s u) (a0 : _) (a1 : _) :
    Within F s (retransmission a0 a1 u) := by
  unfold retransmission
  try dsimp only
  repeat' (first
    | with_reducible exact h
    | with_reducible assumption
    | with_reducible refine packetTimeout_within (sub rfl hF) ?_ _ _
    | with_reducible refine messageTimeout_within (sub rfl hF) ?_ _ _
    | with_reducible refine Within.ite ?_ ?_
    | split)

theorem retx_within {F : List Field} {s u : State} (hF : [Field.mem, Field.bad, Field.cores, Field.benches, Field.parts, Field.fmn, Field.trc, Field.board, Field.free] ⊆ F) (h : Within F s u) (a0 : _) :
    Within F s (retx a0 u) := by
  unfold retx
  try dsimp only
  repeat' (first
    | with_reducible exact h
    | with_reducible assumption
    | with_reducible refine doRetx_within (sub rfl hF) ?_ _
    | with_reducible refine issue_within (sub rfl hF) ?_ ?_ _ _ _ _ _ _
    | with_reducible refine Within.out_ok ?_
    | with_reducible refine Within.out_held ?_
    | with_reducible refine Within.out_exc ?_
    | with_reducible refine Within.out_done ?_
    | with_reducible refine Within.ite ?_ ?_
    | split
    | intro)

theorem ringArrival_within {F : List Field} {s u : State} (hF : [Field.mem, Field.bad, Field.cores, Field.benches, Field.ports, Field.welts, Field.parts, Field.ring, Field.ringSide, Field.fmn, Field.pwr, Field.trc, Field.free] ⊆ F) (h : Within F s u) (a0 : _) :
    Within F s (ringArrival a0 u) := by
  unfold ringArrival
  try dsimp only
  repeat' (first
    | with_reducible exact h
    | with_reducible assumption
    | with_reducible refine deliverPacket_within (sub rfl hF) ?_ _
    | refine ringTake_within (sub rfl hF) ?_ _ (_, _) (by assumption)
    | refine ringTake_within (sub rfl hF) ?_ _ _ (by assumption)
    | with_reducible refine Within.ite ?_ ?_
    | split)

theorem ringSideAccess_within {F : List Field} {s u : State} (hF : [Field.ring, Field.ringSide] ⊆ F) (h : Within F s u) (a0 : _) :
    Within F s (ringSideAccess a0 u) := by
  unfold ringSideAccess
  try dsimp only
  repeat' (first
    | with_reducible exact h
    | with_reducible assumption
    | with_reducible refine serveAccess_within (sub rfl hF) ?_ _ _
    | with_reducible refine Within.ite ?_ ?_
    | split)

theorem rxUncorrectable_within {F : List Field} {s u : State} (hF : [Field.welts, Field.streams] ⊆ F) (h : Within F s u) (a0 : _) (a1 : _) :
    Within F s (rxUncorrectable a0 a1 u) := by
  unfold rxUncorrectable
  try dsimp only
  repeat' (first
    | with_reducible exact h
    | with_reducible assumption
    | with_reducible refine State_updWelt_within (sub rfl hF) ?_ _ _
    | with_reducible refine State_updStream_within (sub rfl hF) ?_ _ _
    | with_reducible refine Within.ite ?_ ?_
    | split)

theorem servicePathRequest_within {F : List Field} {s u : State} (hF : [Field.benches, Field.ring] ⊆ F) (h : Within F s u) (a0 : _) (a1 : _) :
    Within F s (servicePathRequest a0 a1 u) := by
  unfold servicePathRequest
  try dsimp only
  repeat' (first
    | with_reducible exact h
    | with_reducible assumption
    | with_reducible refine ringPut_within (sub rfl hF) ?_ _ _ _
    | with_reducible refine State_updBench_within (sub rfl hF) ?_ _ _
    | with_reducible refine Within.ite ?_ ?_)

theorem setAperture_within {F : List Field} {s u : State} (hF : [Field.welts, Field.fmn, Field.pwr] ⊆ F) (h : Within F s u) (a0 : _) :
    Within F s (setAperture a0 u) := by
  unfold setAperture
  try dsimp only
  repeat' (first
    | with_reducible exact h
    | with_reducible assumption
    | fail_if_no_progress with_reducible refine Within.set_fmn (sub rfl hF) ?_
    | with_reducible refine runCmd_within (sub rfl hF) ?_ ?_ _ _ _ _ _
    | with_reducible refine respond_within (sub rfl hF) ?_ _ _ _ _
    | with_reducible refine Within.ite ?_ ?_
    | split
    | intro)

theorem putCap_within {F : List Field} {s u : State} (hF : [Field.pwr] ⊆ F) (h : Within F s u) (a0 : _) :
    Within F s (putCap a0 u) := by
  unfold putCap
  try dsimp only
  repeat' (first
    | with_reducible exact h
    | with_reducible assumption
    | fail_if_no_progress with_reducible refine Within.set_pwr (sub rfl hF) ?_)

theorem setCap_within {F : List Field} {s u : State} (hF : [Field.benches, Field.welts, Field.parts, Field.fmn, Field.pwr] ⊆ F) (h : Within F s u) (a0 : _) :
    Within F s (setCap a0 u) := by
  unfold setCap
  try dsimp only
  repeat' (first
    | with_reducible exact h
    | with_reducible assumption
    | with_reducible refine forAll_within ?_ ?_
    | with_reducible refine putCap_within (sub rfl hF) ?_ _
    | with_reducible refine runCmd_within (sub rfl hF) ?_ ?_ _ _ _ _ _
    | with_reducible refine checked_within (sub rfl hF) ?_ ?_ _ _ _
    | with_reducible refine capStop_within (sub rfl hF) ?_ _
    | with_reducible refine logEvent_within (sub rfl hF) ?_ _ _ _ _
    | with_reducible refine respond_within (sub rfl hF) ?_ _ _ _ _
    | with_reducible refine forAll_within (sub rfl hF) ?_ _ _
    | with_reducible refine Within.ite ?_ ?_
    | split
    | intro)

theorem setFixedPoint_within {F : List Field} {s u : State} (hF : [Field.welts, Field.fmn, Field.pwr] ⊆ F) (h : Within F s u) (a0 : _) :
    Within F s (setFixedPoint a0 u) := by
  unfold setFixedPoint
  try dsimp only
  repeat' (first
    | with_reducible exact h
    | with_reducible assumption
    | fail_if_no_progress with_reducible refine Within.set_pwr (sub rfl hF) ?_
    | with_reducible refine toward_within (sub rfl hF) ?_ 
    | with_reducible refine runCmd_within (sub rfl hF) ?_ ?_ _ _ _ _ _
    | with_reducible refine checked_within (sub rfl hF) ?_ ?_ _ _ _
    | with_reducible refine respond_within (sub rfl hF) ?_ _ _ _ _
    | with_reducible refine Within.ite ?_ ?_
    | split
    | intro)

theorem writeTally_within {F : List Field} {s u : State} (hF : [Field.benches, Field.trc] ⊆ F) (h : Within F s u) (a0 : _) (a1 : _) :
    Within F s (writeTally a0 a1 u) := by
  unfold writeTally
  try dsimp only
  repeat' (first
    | with_reducible exact h
    | with_reducible assumption
    | with_reducible refine setTally_within (sub rfl hF) ?_ _ _
    | with_reducible refine checkWatches_within (sub rfl hF) ?_ _)

theorem setTallyCmd_within {F : List Field} {s u : State} (hF : [Field.benches, Field.welts, Field.fmn, Field.pwr, Field.trc] ⊆ F) (h : Within F s u) (a0 : _) :
    Within F s (setTallyCmd a0 u) := by
  unfold setTallyCmd
  try dsimp only
  repeat' (first
    | with_reducible exact h
    | with_reducible assumption
    | with_reducible refine writeTally_within (sub rfl hF) ?_ _ _
    | with_reducible refine withTally_within (sub rfl hF) ?_ ?_ _ _
    | with_reducible refine runCmd_within (sub rfl hF) ?_ ?_ _ _ _ _ _
    | with_reducible refine checked_within (sub rfl hF) ?_ ?_ _ _ _
    | with_reducible refine traceTally_within (sub rfl hF) ?_ _ _ _ _ _ _
    | with_reducible refine logEvent_within (sub rfl hF) ?_ _ _ _ _
    | with_reducible refine respond_within (sub rfl hF) ?_ _ _ _ _
    | with_reducible refine Within.ite ?_ ?_
    | split
    | intro)

theorem setTransport_within {F : List Field} {s u : State} (hF : [Field.welts, Field.fmn, Field.pwr, Field.boot] ⊆ F) (h : Within F s u) (a0 : _) :
    Within F s (setTransport a0 u) := by
  unfold setTransport
  try dsimp only
  repeat' (first
    | with_reducible exact h
    | with_reducible assumption
    | fail_if_no_progress with_reducible refine Within.set_boot (sub rfl hF) ?_
    | with_reducible refine runCmd_within (sub rfl hF) ?_ ?_ _ _ _ _ _
    | with_reducible refine checked_within (sub rfl hF) ?_ ?_ _ _ _
    | with_reducible refine respond_within (sub rfl hF) ?_ _ _ _ _
    | with_reducible refine Within.ite ?_ ?_
    | split
    | intro)

theorem startJob_within {F : List Field} {s u : State} (hF : [Field.welts, Field.parts, Field.fmn, Field.pwr] ⊆ F) (h : Within F s u) (a0 : _) :
    Within F s (startJob a0 u) := by
  unfold startJob
  try dsimp only
  repeat' (first
    | with_reducible exact h
    | with_reducible assumption
    | with_reducible refine moveDown_within (sub rfl hF) ?_ 
    | with_reducible refine withPart_within (sub rfl hF) ?_ ?_ _ _
    | with_reducible refine runCmd_within (sub rfl hF) ?_ ?_ _ _ _ _ _
    | with_reducible refine checked_within (sub rfl hF) ?_ ?_ _ _ _
    | with_reducible refine respond_within (sub rfl hF) ?_ _ _ _ _
    | with_reducible refine State_updPart_within (sub rfl hF) ?_ _ _
    | with_reducible refine Within.ite ?_ ?_
    | split
    | intro)

theorem loadImage_within {F : List Field} {s u : State} (hF : [Field.boot, Field.board] ⊆ F) (h : Within F s u) :
    Within F s (loadImage u) := by
  unfold loadImage
  try dsimp only
  repeat' (first
    | with_reducible exact h
    | with_reducible assumption
    | fail_if_no_progress with_reducible refine Within.set_boot (sub rfl hF) ?_
    | with_reducible refine toStep_within (sub rfl hF) ?_ _
    | with_reducible refine startFail_within (sub rfl hF) ?_ _
    | with_reducible refine Within.ite ?_ ?_
    | split)

theorem noteRetrain_within {F : List Field} {s u : State} (hF : [Field.boot] ⊆ F) (h : Within F s u) (a0 : _) :
    Within F s (noteRetrain a0 u) := by
  unfold noteRetrain
  try dsimp only
  repeat' (first
    | with_reducible exact h
    | with_reducible assumption
    | fail_if_no_progress with_reducible refine Within.set_boot (sub rfl hF) ?_)

theorem loadSettings_within {F : List Field} {s u : State} (hF : [Field.pwr, Field.boot] ⊆ F) (h : Within F s u) :
    Within F s (loadSettings u) := by
  unfold loadSettings
  try dsimp only
  repeat' (first
    | with_reducible exact h
    | with_reducible assumption
    | fail_if_no_progress with_reducible refine Within.set_pwr_boot (sub rfl hF) ?_)

theorem readRecords_within {F : List Field} {s u : State} (hF : [Field.fmn, Field.pwr, Field.boot, Field.board, Field.free] ⊆ F) (h : Within F s u) (a0 : _) :
    Within F s (readRecords a0 u) := by
  unfold readRecords
  try dsimp only
  repeat' (first
    | with_reducible exact h
    | with_reducible assumption
    | fail_if_no_progress with_reducible refine Within.set_boot_free (sub rfl hF) ?_
    | with_reducible refine loadSettings_within (sub rfl hF) ?_ 
    | with_reducible refine toStep_within (sub rfl hF) ?_ _
    | with_reducible refine startFail_within (sub rfl hF) ?_ _
    | with_reducible refine logEvent_within (sub rfl hF) ?_ _ _ _ _
    | with_reducible refine Within.ite ?_ ?_)

theorem startupStep_within {F : List Field} {s u : State} (hF : [Field.mem, Field.bad, Field.cores, Field.benches, Field.welts, Field.parts, Field.ring, Field.fmn, Field.pwr, Field.boot, Field.board, Field.faults, Field.free] ⊆ F) (h : Within F s u) (a0 : _) :
    Within F s (startupStep a0 u) := by
  unfold startupStep
  try dsimp only
  repeat' (first
    | with_reducible exact h
    | with_reducible assumption
    | fail_if_no_progress with_reducible refine Within.set_board (sub rfl hF) ?_
    | with_reducible refine readRecords_within (sub rfl hF) ?_ _
    | with_reducible refine noteRetrain_within (sub rfl hF) ?_ _
    | with_reducible refine loadImage_within (sub rfl hF) ?_ 
    | with_reducible refine checkLinks_within (sub rfl hF) ?_ _
    | with_reducible refine buildMap_within (sub rfl hF) ?_ 
    | with_reducible refine bist_within (sub rfl hF) ?_ _
    | with_reducible refine toStep_within (sub rfl hF) ?_ _
    | with_reducible refine Within.ite ?_ ?_
    | split)

theorem uncachedStore_within {F : List Field} {s u : State} (hF : [Field.benches, Field.fmn] ⊆ F) (h : Within F s u) (a0 : _) (a1 : _) (a2 : _) :
    Within F s (uncachedStore a0 a1 a2 u) := by
  unfold uncachedStore
  try dsimp only
  repeat' (first
    | with_reducible exact h
    | with_reducible assumption
    | with_reducible refine overFills_within (sub rfl hF) ?_ _ _ _
    | with_reducible refine dropLine_within (sub rfl hF) ?_ _ _
    | with_reducible refine freshSerial_within (sub rfl hF) ?_ 
    | refine Within.snd (by assumption) (freshSerial_within (sub rfl hF) ?_ )
    | with_reducible refine State_updBench_within (sub rfl hF) ?_ _ _)

theorem storeBody_within {F : List Field} {s u : State} (hF : [Field.mem, Field.bad, Field.cores, Field.benches, Field.ports, Field.welts, Field.ring, Field.fmn, Field.pwr, Field.trc] ⊆ F) (h : Within F s u) (a0 : _) (a1 : _) (a2 : _) (a3 : _) :
    Within F s (outState (storeBody a0 a1 a2 a3 u)) := by
  unfold storeBody
  try dsimp only
  repeat' (first
    | with_reducible exact h
    | with_reducible assumption
    | with_reducible refine uncachedStore_within (sub rfl hF) ?_ _ _ _
    | refine cachedStore_within (sub rfl hF) ?_ _ _ _ _ (by assumption)
    | with_reducible refine blkStore_within (sub rfl hF) ?_ _ _ _
    | with_reducible refine pushes_within (sub rfl hF) ?_ _
    | refine Within.of_ok (by assumption) (pushes_within (sub rfl hF) ?_ _)
    | refine Within.of_held (by assumption) (pushes_within (sub rfl hF) ?_ _)
    | refine Within.of_exc (by assumption) (pushes_within (sub rfl hF) ?_ _)
    | refine Within.of_done (by assumption) (pushes_within (sub rfl hF) ?_ _)
    | with_reducible refine write_within (sub rfl hF) ?_ _ _
    | with_reducible refine Within.out_ok ?_
    | with_reducible refine Within.out_held ?_
    | with_reducible refine Within.out_exc ?_
    | with_reducible refine Within.out_done ?_
    | with_reducible refine Within.ite ?_ ?_
    | split)

theorem storeInstr_within {F : List Field} {s u : State} (hF : [Field.mem, Field.bad, Field.cores, Field.benches, Field.ports, Field.welts, Field.parts, Field.ring, Field.fmn, Field.pwr, Field.trc, Field.board, Field.free] ⊆ F) (h : Within F s u) (a0 : _) (a1 : _) (a2 : _) :
    Within F s (storeInstr a0 a1 a2 u) := by
  unfold storeInstr
  try dsimp only
  repeat' (first
    | with_reducible exact h
    | with_reducible assumption
    | with_reducible refine storeBody_within (sub rfl hF) ?_ _ _ _ _
    | refine Within.of_ok (by assumption) (storeBody_within (sub rfl hF) ?_ _ _ _ _)
    | refine Within.of_held (by assumption) (storeBody_within (sub rfl hF) ?_ _ _ _ _)
    | refine Within.of_exc (by assumption) (storeBody_within (sub rfl hF) ?_ _ _ _ _)
    | refine Within.of_done (by assumption) (storeBody_within (sub rfl hF) ?_ _ _ _ _)
    | with_reducible refine issue_within (sub rfl hF) ?_ ?_ _ _ _ _ _ _
    | with_reducible refine Within.out_ok ?_
    | with_reducible refine Within.out_held ?_
    | with_reducible refine Within.out_exc ?_
    | with_reducible refine Within.out_done ?_
    | with_reducible refine Within.ite ?_ ?_
    | split
    | intro)

theorem stc_within {F : List Field} {s u : State} (hF : [Field.mem, Field.bad, Field.cores, Field.benches, Field.parts, Field.fmn, Field.trc, Field.board, Field.free] ⊆ F) (h : Within F s u) (a0 : _) :
    Within F s (stc a0 u) := by
  unfold stc
  try dsimp only
  repeat' (first
    | with_reducible exact h
    | with_reducible assumption
    | with_reducible refine pushes_within (sub rfl hF) ?_ _
    | refine Within.of_ok (by assumption) (pushes_within (sub rfl hF) ?_ _)
    | refine Within.of_held (by assumption) (pushes_within (sub rfl hF) ?_ _)
    | refine Within.of_exc (by assumption) (pushes_within (sub rfl hF) ?_ _)
    | refine Within.of_done (by assumption) (pushes_within (sub rfl hF) ?_ _)
    | with_reducible refine issue_within (sub rfl hF) ?_ ?_ _ _ _ _ _ _
    | with_reducible refine write_within (sub rfl hF) ?_ _ _
    | with_reducible refine State_updCtx_within (sub rfl hF) ?_ _ _
    | with_reducible refine Within.out_ok ?_
    | with_reducible refine Within.out_held ?_
    | with_reducible refine Within.out_exc ?_
    | with_reducible refine Within.out_done ?_
    | with_reducible refine Within.ite ?_ ?_
    | split
    | intro)

theorem stopJob_within {F : List Field} {s u : State} (hF : [Field.mem, Field.bad, Field.cores, Field.benches, Field.welts, Field.parts, Field.ring, Field.fmn, Field.pwr, Field.free] ⊆ F) (h : Within F s u) (a0 : _) :
    Within F s (stopJob a0 u) := by
  unfold stopJob
  try dsimp only
  repeat' (first
    | with_reducible exact h
    | with_reducible assumption
    | with_reducible refine withPart_within (sub rfl hF) ?_ ?_ _ _
    | with_reducible refine runCmd_within (sub rfl hF) ?_ ?_ _ _ _ _ _
    | with_reducible refine checked_within (sub rfl hF) ?_ ?_ _ _ _
    | with_reducible refine discardFrame_within (sub rfl hF) ?_ _ _
    | with_reducible refine jobEnd_within (sub rfl hF) ?_ _ _ _
    | with_reducible refine respond_within (sub rfl hF) ?_ _ _ _ _
    | with_reducible refine State_updPart_within (sub rfl hF) ?_ _ _
    | with_reducible refine Within.ite ?_ ?_
    | split
    | intro)

theorem sysc_within {F : List Field} {s u : State} (hF : [Field.mem, Field.bad, Field.cores, Field.benches, Field.parts, Field.fmn, Field.trc, Field.board, Field.free] ⊆ F) (h : Within F s u) (a0 : _) (a1 : _) :
    Within F s (sysc a0 a1 u) := by
  unfold sysc
  try dsimp only
  repeat' (first
    | with_reducible exact h
    | with_reducible assumption
    | with_reducible refine issue_within (sub rfl hF) ?_ ?_ _ _ _ _ _ _
    | with_reducible refine enter_within (sub rfl hF) ?_ _ _ _ _ _ _ _
    | with_reducible refine Within.out_ok ?_
    | with_reducible refine Within.out_held ?_
    | with_reducible refine Within.out_exc ?_
    | with_reducible refine Within.out_done ?_
    | with_reducible refine Within.ite ?_ ?_
    | split
    | intro)

theorem tallyInstr_within {F : List Field} {s u : State} (hF : [Field.mem, Field.bad, Field.cores, Field.benches, Field.parts, Field.ring, Field.fmn, Field.trc, Field.board, Field.free] ⊆ F) (h : Within F s u) (a0 : _) (a1 : _) (a2 : _) (a3 : _) (a4 : _) :
    Within F s (tallyInstr a0 a1 a2 a3 a4 u) := by
  unfold tallyInstr
  try dsimp only
  repeat' (first
    | with_reducible exact h
    | with_reducible assumption
    | with_reducible refine beginTally_within (sub rfl hF) ?_ _ _ _
    | refine Within.of_ok (by assumption) (beginTally_within (sub rfl hF) ?_ _ _ _)
    | refine Within.of_held (by assumption) (beginTally_within (sub rfl hF) ?_ _ _ _)
    | refine Within.of_exc (by assumption) (beginTally_within (sub rfl hF) ?_ _ _ _)
    | refine Within.of_done (by assumption) (beginTally_within (sub rfl hF) ?_ _ _ _)
    | with_reducible refine freshSerial_within (sub rfl hF) ?_ 
    | refine Within.snd (by assumption) (freshSerial_within (sub rfl hF) ?_ )
    | with_reducible refine issue_within (sub rfl hF) ?_ ?_ _ _ _ _ _ _
    | with_reducible refine Within.out_ok ?_
    | with_reducible refine Within.out_held ?_
    | with_reducible refine Within.out_exc ?_
    | with_reducible refine Within.out_done ?_
    | with_reducible refine Within.ite ?_ ?_
    | split
    | intro)

theorem sliceOp_within {F : List Field} {s u : State} (hF : [Field.cores, Field.benches, Field.ring, Field.trc] ⊆ F) (h : Within F s u) (a0 : _) :
    Within F s (sliceOp a0 u) := by
  unfold sliceOp
  try dsimp only
  repeat' (first
    | with_reducible exact h
    | with_reducible assumption
    | with_reducible refine performTally_within (sub rfl hF) ?_ _
    | with_reducible refine count_within (sub rfl hF) ?_ _ _ _
    | with_reducible refine State_updBench_within (sub rfl hF) ?_ _ _
    | with_reducible refine Within.ite ?_ ?_)

theorem takeTally_within {F : List Field} {s u : State} (hF : [Field.cores, Field.benches, Field.ring, Field.trc] ⊆ F) (h : Within F s u) (a0 : _) (a1 : _) :
    Within F s (takeTally a0 a1 u) := by
  unfold takeTally
  try dsimp only
  repeat' (first
    | with_reducible exact h
    | with_reducible assumption
    | with_reducible refine sliceOp_within (sub rfl hF) ?_ _
    | with_reducible refine absorbTally_within (sub rfl hF) ?_ _ _
    | with_reducible refine State_updBench_within (sub rfl hF) ?_ _ _
    | with_reducible refine Within.ite ?_ ?_
    | split)

theorem tas_within {F : List Field} {s u : State} (hF : [Field.mem, Field.bad, Field.cores, Field.benches, Field.parts, Field.fmn, Field.trc, Field.board, Field.free] ⊆ F) (h : Within F s u) (a0 : _) :
    Within F s (tas a0 u) := by
  unfold tas
  try dsimp only
  repeat' (first
    | with_reducible exact h
    | with_reducible assumption
    | with_reducible refine nearLoad_within (sub rfl hF) ?_ _ _ _ _ _
    | refine Within.of_ok (by assumption) (nearLoad_within (sub rfl hF) ?_ _ _ _ _ _)
    | refine Within.of_held (by assumption) (nearLoad_within (sub rfl hF) ?_ _ _ _ _ _)
    | refine Within.of_exc (by assumption) (nearLoad_within (sub rfl hF) ?_ _ _ _ _ _)
    | refine Within.of_done (by assumption) (nearLoad_within (sub rfl hF) ?_ _ _ _ _ _)
    | with_reducible refine issue_within (sub rfl hF) ?_ ?_ _ _ _ _ _ _
    | with_reducible refine write_within (sub rfl hF) ?_ _ _
    | with_reducible refine Within.out_ok ?_
    | with_reducible refine Within.out_held ?_
    | with_reducible refine Within.out_exc ?_
    | with_reducible refine Within.out_done ?_
    | with_reducible refine Within.ite ?_ ?_
    | split
    | intro)

theorem thermalTrip_within {F : List Field} {s u : State} (hF : [Field.mem, Field.bad, Field.cores, Field.benches, Field.flits, Field.arrivals, Field.ports, Field.welts, Field.streams, Field.parts, Field.clicker, Field.ring, Field.ringTurn, Field.ringSide, Field.pwr, Field.trc, Field.board] ⊆ F) (h : Within F s u) (a0 : _) :
    Within F s (thermalTrip a0 u) := by
  unfold thermalTrip
  try dsimp only
  repeat' (first
    | with_reducible exact h
    | with_reducible assumption
    | fail_if_no_progress with_reducible refine Within.set_pwr_board (sub rfl hF) ?_
    | with_reducible refine wetarOff_within (sub rfl hF) ?_ 
    | with_reducible refine Within.ite ?_ ?_)

theorem threadEnd_within {F : List Field} {s u : State} (hF : [Field.mem, Field.bad, Field.cores, Field.benches, Field.clicker, Field.ring, Field.trc, Field.free] ⊆ F) (h : Within F s u) (a0 : _) :
    Within F s (threadEnd a0 u) := by
  unfold threadEnd
  try dsimp only
  repeat' (first
    | with_reducible exact h
    | with_reducible assumption
    | with_reducible refine endSteps_within (sub rfl hF) ?_ _ _
    | with_reducible refine Within.ite ?_ ?_
    | split)

theorem thresm_within {F : List Field} {s u : State} (hF : [Field.mem, Field.bad, Field.cores, Field.benches, Field.parts, Field.fmn, Field.trc, Field.board, Field.free] ⊆ F) (h : Within F s u) (a0 : _) :
    Within F s (thresm a0 u) := by
  unfold thresm
  try dsimp only
  repeat' (first
    | with_reducible exact h
    | with_reducible assumption
    | with_reducible refine pushes_within (sub rfl hF) ?_ _
    | refine Within.of_ok (by assumption) (pushes_within (sub rfl hF) ?_ _)
    | refine Within.of_held (by assumption) (pushes_within (sub rfl hF) ?_ _)
    | refine Within.of_exc (by assumption) (pushes_within (sub rfl hF) ?_ _)
    | refine Within.of_done (by assumption) (pushes_within (sub rfl hF) ?_ _)
    | with_reducible refine issue_within (sub rfl hF) ?_ ?_ _ _ _ _ _ _
    | with_reducible refine State_updCtx_within (sub rfl hF) ?_ _ _
    | with_reducible refine Within.out_ok ?_
    | with_reducible refine Within.out_held ?_
    | with_reducible refine Within.out_exc ?_
    | with_reducible refine Within.out_done ?_
    | with_reducible refine Within.ite ?_ ?_
    | split
    | intro)

theorem thsusp_within {F : List Field} {s u : State} (hF : [Field.mem, Field.bad, Field.cores, Field.benches, Field.parts, Field.ring, Field.fmn, Field.trc, Field.board, Field.free] ⊆ F) (h : Within F s u) (a0 : _) :
    Within F s (thsusp a0 u) := by
  unfold thsusp
  try dsimp only
  repeat' (first
    | with_reducible exact h
    | with_reducible assumption
    | with_reducible refine pushes_within (sub rfl hF) ?_ _
    | refine Within.of_ok (by assumption) (pushes_within (sub rfl hF) ?_ _)
    | refine Within.of_held (by assumption) (pushes_within (sub rfl hF) ?_ _)
    | refine Within.of_exc (by assumption) (pushes_within (sub rfl hF) ?_ _)
    | refine Within.of_done (by assumption) (pushes_within (sub rfl hF) ?_ _)
    | with_reducible refine issue_within (sub rfl hF) ?_ ?_ _ _ _ _ _ _
    | with_reducible refine askStop_within (sub rfl hF) ?_ _
    | with_reducible refine stopCheck_within (sub rfl hF) ?_ _ _
    | with_reducible refine State_updCtx_within (sub rfl hF) ?_ _ _
    | with_reducible refine Within.out_ok ?_
    | with_reducible refine Within.out_held ?_
    | with_reducible refine Within.out_exc ?_
    | with_reducible refine Within.out_done ?_
    | with_reducible refine Within.ite ?_ ?_
    | split
    | intro)

theorem setTileOp_within {F : List Field} {s u : State} (hF : [Field.cores] ⊆ F) (h : Within F s u) (a0 : _) (a1 : _) :
    Within F s (setTileOp a0 a1 u) := by
  unfold setTileOp
  try dsimp only
  repeat' (first
    | with_reducible exact h
    | with_reducible assumption
    | with_reducible refine State_updCore_within (sub rfl hF) ?_ _ _)

theorem tileFault_within {F : List Field} {s u : State} (hF : [Field.mem, Field.bad, Field.cores, Field.benches, Field.parts, Field.fmn, Field.trc, Field.board, Field.free] ⊆ F) (h : Within F s u) (a0 : _) (a1 : _) (a2 : _) (a3 : _) :
    Within F s (tileFault a0 a1 a2 a3 u) := by
  unfold tileFault
  try dsimp only
  repeat' (first
    | with_reducible exact h
    | with_reducible assumption
    | with_reducible refine setTileOp_within (sub rfl hF) ?_ _ _
    | with_reducible refine fault_within (sub rfl hF) ?_ _ _ _ _ _
    | with_reducible refine discardTile_within (sub rfl hF) ?_ _
    | with_reducible refine stopCheck_within (sub rfl hF) ?_ _ _)

theorem tileBeat_within {F : List Field} {s u : State} (hF : [Field.mem, Field.bad, Field.cores, Field.benches, Field.parts, Field.fmn, Field.trc, Field.board, Field.free] ⊆ F) (h : Within F s u) (a0 : _) :
    Within F s (tileBeat a0 u) := by
  unfold tileBeat
  try dsimp only
  repeat' (first
    | with_reducible exact h
    | with_reducible assumption
    | with_reducible refine tileFault_within (sub rfl hF) ?_ _ _ _ _
    | with_reducible refine setTileOp_within (sub rfl hF) ?_ _ _
    | with_reducible refine beatOf_within (sub rfl hF) ?_ _ _
    | refine Within.of_beat_ok (by assumption) (beatOf_within (sub rfl hF) ?_ _ _)
    | refine Within.of_beat_fault (by assumption) (beatOf_within (sub rfl hF) ?_ _ _)
    | with_reducible refine act_within (sub rfl hF) ?_ _ _ _
    | with_reducible refine State_updCore_within (sub rfl hF) ?_ _ _
    | with_reducible refine Within.ite ?_ ?_
    | split)

theorem sideRead_within {F : List Field} {s u : State} (hF : [Field.cores] ⊆ F) (h : Within F s u) (a0 : _) (a1 : _) :
    Within F s (sideRead a0 a1 u).2 := by
  unfold sideRead
  try dsimp only
  repeat' (first
    | with_reducible exact h
    | with_reducible assumption
    | with_reducible refine State_updCore_within (sub rfl hF) ?_ _ _)

theorem tfree_within {F : List Field} {s u : State} (hF : [Field.cores] ⊆ F) (h : Within F s u) (a0 : _) (a1 : _) :
    Within F s (tfree a0 a1 u) := by
  unfold tfree
  try dsimp only
  repeat' (first
    | with_reducible exact h
    | with_reducible assumption
    | with_reducible refine State_updCore_within (sub rfl hF) ?_ _ _)

theorem tileStart_within {F : List Field} {s u : State} (hF : [Field.mem, Field.bad, Field.cores, Field.benches, Field.parts, Field.fmn, Field.trc, Field.board, Field.free] ⊆ F) (h : Within F s u) (a0 : _) :
    Within F s (tileStart a0 u) := by
  unfold tileStart
  try dsimp only
  repeat' (first
    | with_reducible exact h
    | with_reducible assumption
    | with_reducible refine tfree_within (sub rfl hF) ?_ _ _
    | with_reducible refine sideRead_within (sub rfl hF) ?_ _ _
    | refine Within.snd (by assumption) (sideRead_within (sub rfl hF) ?_ _ _)
    | with_reducible refine tileFault_within (sub rfl hF) ?_ _ _ _ _
    | with_reducible refine setTileOp_within (sub rfl hF) ?_ _ _
    | with_reducible refine accz_within (sub rfl hF) ?_ _ _
    | with_reducible refine tileRelease_within (sub rfl hF) ?_ _
    | with_reducible refine act_within (sub rfl hF) ?_ _ _ _
    | with_reducible refine State_updCore_within (sub rfl hF) ?_ _ _
    | with_reducible refine Within.ite ?_ ?_
    | split)

theorem saveProg_within {F : List Field} {s u : State} (hF : [Field.mem, Field.bad, Field.cores, Field.benches, Field.ports, Field.parts, Field.clicker] ⊆ F) (h : Within F s u) (a0 : _) (a1 : _) :
    Within F s (saveProg a0 a1 u) := by
  unfold saveProg
  try dsimp only
  repeat' (first
    | with_reducible exact h
    | with_reducible assumption
    | fail_if_no_progress with_reducible refine Within.set_clicker (sub rfl hF) ?_
    | with_reducible refine saveWrite_within (sub rfl hF) ?_ _ _ _ _
    | with_reducible refine State_updPart_within (sub rfl hF) ?_ _ _)

theorem timeSliceSwitch_within {F : List Field} {s u : State} (hF : [Field.mem, Field.bad, Field.cores, Field.benches, Field.ports, Field.parts, Field.clicker, Field.ring] ⊆ F) (h : Within F s u) (a0 : _) :
    Within F s (timeSliceSwitch a0 u) := by
  unfold timeSliceSwitch
  try dsimp only
  repeat' (first
    | with_reducible exact h
    | with_reducible assumption
    | with_reducible refine saveProg_within (sub rfl hF) ?_ _ _
    | with_reducible refine dropRequests_within (sub rfl hF) ?_ _
    | with_reducible refine bringIn_within (sub rfl hF) ?_ _ _
    | with_reducible refine State_updPart_within (sub rfl hF) ?_ _ _
    | with_reducible refine Within.ite ?_ ?_
    | split)

theorem toBuffer_within {F : List Field} {s u : State} (hF : [Field.ring, Field.trc] ⊆ F) (h : Within F s u) (a0 : _) :
    Within F s (toBuffer a0 u) := by
  unfold toBuffer
  try dsimp only
  repeat' (first
    | with_reducible exact h
    | with_reducible assumption
    | fail_if_no_progress with_reducible refine Within.set_trc (sub rfl hF) ?_
    | with_reducible refine bufferLine_within (sub rfl hF) ?_ _ _
    | with_reducible refine Within.ite ?_ ?_)

theorem sendRecord_within {F : List Field} {s u : State} (hF : [Field.ring, Field.trc] ⊆ F) (h : Within F s u) :
    Within F s (sendRecord u) := by
  unfold sendRecord
  try dsimp only
  repeat' (first
    | with_reducible exact h
    | with_reducible assumption
    | fail_if_no_progress with_reducible refine Within.set_trc (sub rfl hF) ?_
    | with_reducible refine toBuffer_within (sub rfl hF) ?_ _
    | with_reducible refine Within.ite ?_ ?_
    | split)

theorem traceOut_within {F : List Field} {s u : State} (hF : [Field.ring, Field.trc] ⊆ F) (h : Within F s u) :
    Within F s (traceOut u) := by
  unfold traceOut
  try dsimp only
  repeat' (first
    | with_reducible exact h
    | with_reducible assumption
    | with_reducible refine sendRecord_within (sub rfl hF) ?_ 
    | with_reducible refine Within.ite ?_ ?_)

theorem uc_within {F : List Field} {s u : State} (hF : [Field.mem, Field.bad, Field.cores, Field.benches, Field.parts, Field.fmn, Field.trc, Field.board, Field.free] ⊆ F) (h : Within F s u) (a0 : _) (a1 : _) :
    Within F s (uc a0 a1 u) := by
  unfold uc
  try dsimp only
  repeat' (first
    | with_reducible exact h
    | with_reducible assumption
    | with_reducible refine issue_within (sub rfl hF) ?_ ?_ _ _ _ _ _ _
    | with_reducible refine State_updCore_within (sub rfl hF) ?_ _ _
    | with_reducible refine Within.out_ok ?_
    | with_reducible refine Within.out_held ?_
    | with_reducible refine Within.out_exc ?_
    | with_reducible refine Within.out_done ?_
    | with_reducible refine Within.ite ?_ ?_
    | split
    | intro)

theorem undervoltage_within {F : List Field} {s u : State} (hF : [Field.parts, Field.fmn, Field.pwr] ⊆ F) (h : Within F s u) (a0 : _) :
    Within F s (undervoltage a0 u) := by
  unfold undervoltage
  try dsimp only
  repeat' (first
    | with_reducible exact h
    | with_reducible assumption
    | with_reducible refine assertSource_within (sub rfl hF) ?_ _
    | with_reducible refine Within.ite ?_ ?_)

theorem unhold_within {F : List Field} {s u : State} (hF : [Field.mem, Field.bad, Field.cores, Field.benches, Field.parts, Field.fmn, Field.trc, Field.board, Field.free] ⊆ F) (h : Within F s u) (a0 : _) :
    Within F s (unhold a0 u) := by
  unfold unhold
  try dsimp only
  repeat' (first
    | with_reducible exact h
    | with_reducible assumption
    | with_reducible refine pushes_within (sub rfl hF) ?_ _
    | refine Within.of_ok (by assumption) (pushes_within (sub rfl hF) ?_ _)
    | refine Within.of_held (by assumption) (pushes_within (sub rfl hF) ?_ _)
    | refine Within.of_exc (by assumption) (pushes_within (sub rfl hF) ?_ _)
    | refine Within.of_done (by assumption) (pushes_within (sub rfl hF) ?_ _)
    | with_reducible refine issue_within (sub rfl hF) ?_ ?_ _ _ _ _ _ _
    | with_reducible refine State_updCtx_within (sub rfl hF) ?_ _ _
    | with_reducible refine Within.out_ok ?_
    | with_reducible refine Within.out_held ?_
    | with_reducible refine Within.out_exc ?_
    | with_reducible refine Within.out_done ?_
    | with_reducible refine Within.ite ?_ ?_
    | split
    | intro)

theorem unloadProgram_within {F : List Field} {s u : State} (hF : [Field.benches, Field.welts, Field.parts, Field.clicker, Field.fmn, Field.pwr] ⊆ F) (h : Within F s u) (a0 : _) :
    Within F s (unloadProgram a0 u) := by
  unfold unloadProgram
  try dsimp only
  repeat' (first
    | with_reducible exact h
    | with_reducible assumption
    | with_reducible refine unload_within (sub rfl hF) ?_ _ _
    | with_reducible refine withPart_within (sub rfl hF) ?_ ?_ _ _
    | with_reducible refine runCmd_within (sub rfl hF) ?_ ?_ _ _ _ _ _
    | with_reducible refine checked_within (sub rfl hF) ?_ ?_ _ _ _
    | with_reducible refine respond_within (sub rfl hF) ?_ _ _ _ _
    | with_reducible refine Within.ite ?_ ?_
    | split
    | intro)

theorem rxAnswer_within {F : List Field} {s u : State} (hF : [Field.cores, Field.benches, Field.welts, Field.streams, Field.parts, Field.fmn, Field.pwr] ⊆ F) (h : Within F s u) (a0 : _) (a1 : _) :
    Within F s (rxAnswer a0 a1 u) := by
  unfold rxAnswer
  try dsimp only
  repeat' (first
    | with_reducible exact h
    | with_reducible assumption
    | with_reducible refine applySessionAck_within (sub rfl hF) ?_ _ _ _
    | with_reducible refine applyNak_within (sub rfl hF) ?_ _ _ _
    | with_reducible refine applyAck_within (sub rfl hF) ?_ _ _ _
    | with_reducible refine Within.ite ?_ ?_)

theorem sendNak_within {F : List Field} {s u : State} (hF : [Field.welts] ⊆ F) (h : Within F s u) (a0 : _) (a1 : _) (a2 : _) (a3 : _) (a4 : _) (a5 : _) :
    Within F s (sendNak a0 a1 a2 a3 a4 a5 u) := by
  unfold sendNak
  try dsimp only
  repeat' (first
    | with_reducible exact h
    | with_reducible assumption
    | with_reducible refine weltCount_within (sub rfl hF) ?_ _ _ _
    | with_reducible refine transmit_within (sub rfl hF) ?_ _ _ _)

theorem rxData_within {F : List Field} {s u : State} (hF : [Field.benches, Field.welts, Field.streams] ⊆ F) (h : Within F s u) (a0 : _) (a1 : _) :
    Within F s (rxData a0 a1 u) := by
  unfold rxData
  try dsimp only
  repeat' (first
    | with_reducible exact h
    | with_reducible assumption
    | with_reducible refine sendNak_within (sub rfl hF) ?_ _ _ _ _ _ _
    | with_reducible refine weltCount_within (sub rfl hF) ?_ _ _ _
    | with_reducible refine sendAck_within (sub rfl hF) ?_ _ _
    | with_reducible refine absorb_within (sub rfl hF) ?_ _
    | with_reducible refine State_updWelt_within (sub rfl hF) ?_ _ _
    | with_reducible refine State_updStream_within (sub rfl hF) ?_ _ _
    | with_reducible refine Within.ite ?_ ?_
    | split)

theorem rxMgmt_within {F : List Field} {s u : State} (hF : [Field.welts, Field.fmn] ⊆ F) (h : Within F s u) (a0 : _) (a1 : _) :
    Within F s (rxMgmt a0 a1 u) := by
  unfold rxMgmt
  try dsimp only
  repeat' (first
    | with_reducible exact h
    | with_reducible assumption
    | fail_if_no_progress with_reducible refine Within.set_fmn (sub rfl hF) ?_
    | with_reducible refine mgmtBad_within (sub rfl hF) ?_ _
    | with_reducible refine sessionAck_within (sub rfl hF) ?_ _ _
    | with_reducible refine updSession_within (sub rfl hF) ?_ _ _
    | with_reducible refine Within.ite ?_ ?_
    | split)

theorem frameReceive_within {F : List Field} {s u : State} (hF : [Field.cores, Field.benches, Field.welts, Field.streams, Field.parts, Field.fmn, Field.pwr] ⊆ F) (h : Within F s u) (a0 : _) (a1 : _) :
    Within F s (frameReceive a0 a1 u) := by
  unfold frameReceive
  try dsimp only
  repeat' (first
    | with_reducible exact h
    | with_reducible assumption
    | with_reducible refine rxMgmt_within (sub rfl hF) ?_ _ _
    | with_reducible refine rxData_within (sub rfl hF) ?_ _ _
    | with_reducible refine rxAnswer_within (sub rfl hF) ?_ _ _
    | with_reducible refine weltCount_within (sub rfl hF) ?_ _ _ _
    | with_reducible refine wake_within (sub rfl hF) ?_ 
    | with_reducible refine Within.ite ?_ ?_)

theorem stationFlit_within {F : List Field} {s u : State} (hF : [Field.cores, Field.benches, Field.welts, Field.parts, Field.fmn, Field.pwr, Field.trc] ⊆ F) (h : Within F s u) (a0 : _) (a1 : _) :
    Within F s (stationFlit a0 a1 u).2 := by
  unfold stationFlit
  try dsimp only
  repeat' (first
    | with_reducible exact h
    | with_reducible assumption
    | with_reducible refine sendPacket_within (sub rfl hF) ?_ _ _ _
    | with_reducible refine dropTx_within (sub rfl hF) ?_ _ _ _
    | with_reducible refine descFault_within (sub rfl hF) ?_ _ _ _ _ _ _
    | with_reducible refine count_within (sub rfl hF) ?_ _ _ _
    | with_reducible refine Within.ite ?_ ?_
    | split)

theorem takeFlits_within {F : List Field} {s u : State} (hF : [Field.cores, Field.benches, Field.arrivals, Field.welts, Field.parts, Field.fmn, Field.pwr, Field.trc] ⊆ F) (h : Within F s u) (a0 : _) (a1 : _) :
    Within F s (takeFlits a0 a1 u) := by
  induction a1 generalizing u with
  | zero => exact h
  | succ n ih =>
    unfold takeFlits
    split
    · exact h
    rename_i e1
    have h1 := takeArrival_within (sub rfl hF) h _ (_, _) e1
    split
    · exact Within.snd (by assumption) (stationFlit_within (sub rfl hF) h1 _ _)
    · exact ih (Within.snd (by assumption) (stationFlit_within (sub rfl hF) h1 _ _))

theorem packetSend_within {F : List Field} {s u : State} (hF : [Field.cores, Field.benches, Field.arrivals, Field.welts, Field.parts, Field.fmn, Field.pwr, Field.trc] ⊆ F) (h : Within F s u) (a0 : _) :
    Within F s (packetSend a0 u) := by
  unfold packetSend
  try dsimp only
  repeat' (first
    | with_reducible exact h
    | with_reducible assumption
    | with_reducible refine takeFlits_within (sub rfl hF) ?_ _ _)

theorem writeRecord_within {F : List Field} {s u : State} (hF : [Field.welts, Field.fmn, Field.pwr, Field.boot] ⊆ F) (h : Within F s u) (a0 : _) :
    Within F s (writeRecord a0 u) := by
  unfold writeRecord
  try dsimp only
  repeat' (first
    | with_reducible exact h
    | with_reducible assumption
    | with_reducible refine runCmd_within (sub rfl hF) ?_ ?_ _ _ _ _ _
    | with_reducible refine checked_within (sub rfl hF) ?_ ?_ _ _ _
    | with_reducible refine changeRec_within (sub rfl hF) ?_ _ _ _
    | with_reducible refine respond_within (sub rfl hF) ?_ _ _ _ _
    | with_reducible refine Within.ite ?_ ?_
    | split
    | intro)

theorem wrOut_within {F : List Field} {s u : State} (hF : [] ⊆ F) (h : Within F s u) (a0 : _) {w : Wr}
    (hw : ∀ v, w = .ok v → Within F s v) : Within F s (outState (wrOut a0 u w)) := by
  cases w with
  | ok v => exact hw v rfl
  | refused => exact h
  | wait x => exact h

theorem wrsr_within {F : List Field} {s u : State} (hF : [Field.mem, Field.bad, Field.cores, Field.benches, Field.parts, Field.fmn, Field.trc, Field.board, Field.free] ⊆ F) (h : Within F s u) (a0 : _) :
    Within F s (wrsr a0 u) := by
  unfold wrsr
  try dsimp only
  repeat' (first
    | with_reducible exact h
    | with_reducible assumption
    | with_reducible refine wrOut_within (sub rfl hF) ?_ _ ?_
    | refine Within.of_ok (by assumption) (wrOut_within (sub rfl hF) ?_ _ ?_)
    | refine Within.of_held (by assumption) (wrOut_within (sub rfl hF) ?_ _ ?_)
    | refine Within.of_exc (by assumption) (wrOut_within (sub rfl hF) ?_ _ ?_)
    | refine Within.of_done (by assumption) (wrOut_within (sub rfl hF) ?_ _ ?_)
    | refine srWrite_within (sub rfl hF) ?_ _ _ _ _ (by assumption)
    | with_reducible refine issue_within (sub rfl hF) ?_ ?_ _ _ _ _ _ _
    | with_reducible refine Within.out_ok ?_
    | with_reducible refine Within.out_held ?_
    | with_reducible refine Within.out_exc ?_
    | with_reducible refine Within.out_done ?_
    | with_reducible refine Within.ite ?_ ?_
    | split
    | intro)

theorem wrtsr_within {F : List Field} {s u : State} (hF : [Field.mem, Field.bad, Field.cores, Field.benches, Field.parts, Field.fmn, Field.trc, Field.board, Field.free] ⊆ F) (h : Within F s u) (a0 : _) :
    Within F s (wrtsr a0 u) := by
  unfold wrtsr
  try dsimp only
  repeat' (first
    | with_reducible exact h
    | with_reducible assumption
    | with_reducible refine wrOut_within (sub rfl hF) ?_ _ ?_
    | refine Within.of_ok (by assumption) (wrOut_within (sub rfl hF) ?_ _ ?_)
    | refine Within.of_held (by assumption) (wrOut_within (sub rfl hF) ?_ _ ?_)
    | refine Within.of_exc (by assumption) (wrOut_within (sub rfl hF) ?_ _ ?_)
    | refine Within.of_done (by assumption) (wrOut_within (sub rfl hF) ?_ _ ?_)
    | refine srWrite_within (sub rfl hF) ?_ _ _ _ _ (by assumption)
    | with_reducible refine issue_within (sub rfl hF) ?_ ?_ _ _ _ _ _ _
    | with_reducible refine Within.out_ok ?_
    | with_reducible refine Within.out_held ?_
    | with_reducible refine Within.out_exc ?_
    | with_reducible refine Within.out_done ?_
    | with_reducible refine Within.ite ?_ ?_
    | split
    | intro)

theorem idleTick_within {F : List Field} {s u : State} (hF : [Field.tb] ⊆ F) (h : Within F s u) :
    Within F s (idleTick u) := by
  unfold idleTick
  try dsimp only
  repeat' (first
    | with_reducible exact h
    | with_reducible assumption
    | fail_if_no_progress with_reducible refine Within.set_tb (sub rfl hF) ?_
    | with_reducible refine Within.ite ?_ ?_)

theorem trial_within {F : List Field} {s u : State} (hF : [Field.benches, Field.parts, Field.clicker] ⊆ F) (h : Within F s u) (a0 : _) (a1 : _) :
    Within F s (trial a0 a1 u) := by
  unfold trial
  try dsimp only
  repeat' (first
    | with_reducible exact h
    | with_reducible assumption
    | fail_if_no_progress with_reducible refine Within.set_clicker (sub rfl hF) ?_
    | with_reducible refine forAll_within ?_ ?_
    | with_reducible refine putReloc_within (sub rfl hF) ?_ _ _
    | with_reducible refine setEntry_within (sub rfl hF) ?_ _ _ _
    | with_reducible refine setConn_within (sub rfl hF) ?_ _ _ _
    | with_reducible refine forAll_within (sub rfl hF) ?_ _ _
    | with_reducible refine State_updPart_within (sub rfl hF) ?_ _ _
    | with_reducible refine State_updBench_within (sub rfl hF) ?_ _ _
    | with_reducible refine Within.ite ?_ ?_
    | split
    | intro)

end Sys2Proof.Laws
end

