-- ==== Sys2Proof/Laws/Memory.lean ====
section
/-! SUPPORT. The laws of sparse tables and of byte memory: a read after a write, and the canonical form, which every memory
operation keeps. -/

namespace Sys2Proof.Laws
open Sys2Proof Sys2Proof.Machine

set_option linter.unusedSectionVars false

variable {α : Type} [DecidableEq α] {d : Nat → α}

/-- Taking pairs out keeps the form. -/
theorem tblWf_filter {l : Tbl α} (p : Nat × α → Bool) (h : tblWf d l = true) : tblWf d (l.filter p) = true := by
  induction l with
  | nil => rfl
  | cons x r ih =>
    obtain ⟨k, v⟩ := x
    simp only [tblWf, Bool.and_eq_true] at h
    have hr := ih h.2
    rw [List.filter_cons]
    split
    · simp only [tblWf, Bool.and_eq_true]
      refine ⟨⟨h.1.1, ?_⟩, hr⟩
      have hk := List.all_eq_true.mp h.1.2
      rw [List.all_eq_true]
      intro y hy
      exact hk y (List.mem_filter.mp hy).1
    · exact hr

theorem tblGet_below {l : Tbl α} {i : Nat} (h : l.all (fun p => decide (i < p.1)) = true) : tblGet d l i = d i := by
  induction l with
  | nil => rfl
  | cons x r ih =>
    obtain ⟨k, v⟩ := x
    simp only [List.all_cons, Bool.and_eq_true, decide_eq_true_eq] at h
    have : k ≠ i := by omega
    simp only [tblGet, this, if_false]
    exact ih h.2

/-- A write keeps the form. -/
theorem tblSet_wf {l : Tbl α} (i : Nat) (v : α) (h : tblWf d l = true) : tblWf d (tblSet d l i v) = true := by
  have hmem : ∀ (l : Tbl α) (j : Nat), j < i → l.all (fun p => decide (j < p.1)) = true →
      (tblSet d l i v).all (fun p => decide (j < p.1)) = true := by
    intro l j hj
    induction l with
    | nil =>
      intro _
      simp only [tblSet]
      split <;> simp [hj]
    | cons x r ih =>
      obtain ⟨k, w⟩ := x
      intro ha
      simp only [List.all_cons, Bool.and_eq_true, decide_eq_true_eq] at ha
      have hr := List.all_eq_true.mp ha.2
      simp only [tblSet]
      split
      · simp [ha.1, ih ha.2]
      · have hf : (((k, w) :: r).filter (fun p => decide (p.1 ≠ i))).all (fun p => decide (j < p.1)) = true := by
          rw [List.all_eq_true]
          intro y hy
          have hy := (List.mem_filter.mp hy).1
          rcases List.mem_cons.mp hy with rfl | hy
          · simpa using ha.1
          · exact hr y hy
        split
        · exact hf
        · rw [List.all_cons, hf]; simp [hj]
  induction l with
  | nil =>
    simp only [tblSet]
    split
    · rfl
    · rename_i hv; simp [tblWf, hv]
  | cons x r ih =>
    obtain ⟨k, w⟩ := x
    have h0 := h
    simp only [tblWf, Bool.and_eq_true] at h
    simp only [tblSet]
    split
    · rename_i hk
      simp only [tblWf, Bool.and_eq_true]
      exact ⟨⟨h.1.1, hmem r k hk h.1.2⟩, ih h.2⟩
    · rename_i hk
      split
      · exact tblWf_filter _ h0
      · rename_i hv
        simp only [tblWf, Bool.and_eq_true]
        refine ⟨⟨by simpa using hv, ?_⟩, tblWf_filter _ h0⟩
        rw [List.all_eq_true]
        intro y hy
        have hne := (List.mem_filter.mp hy).2
        rcases List.mem_cons.mp (List.mem_filter.mp hy).1 with e | hy
        · subst e; simp at hne ⊢; omega
        · have := List.all_eq_true.mp h.1.2 y hy
          simp at this hne ⊢; omega

theorem tblGet_filter_ne {l : Tbl α} {i j : Nat} (h : j ≠ i) :
    tblGet d (l.filter (fun p => decide (p.1 ≠ i))) j = tblGet d l j := by
  induction l with
  | nil => rfl
  | cons x r ih =>
    obtain ⟨k, v⟩ := x
    rw [List.filter_cons]
    split
    · simp only [tblGet, ih]
    · rename_i hk
      simp at hk
      subst hk
      have : ¬ k = j := fun e => h e.symm
      simp only [tblGet, this, if_false, ih]

theorem tblGet_filter_eq {l : Tbl α} {i : Nat} : tblGet d (l.filter (fun p => decide (p.1 ≠ i))) i = d i := by
  induction l with
  | nil => rfl
  | cons x r ih =>
    obtain ⟨k, v⟩ := x
    rw [List.filter_cons]
    split
    · rename_i hk
      simp at hk
      simp only [tblGet, hk, if_false, ih]
    · exact ih

/-- A read after a write: the index written holds the value, every other what it held. -/
theorem tblGet_tblSet {l : Tbl α} (i j : Nat) (v : α) : tblGet d (tblSet d l i v) j = if i = j then v else tblGet d l j := by
  induction l with
  | nil =>
    simp only [tblSet]
    split
    · rename_i hv
      simp only [tblGet]
      split
      · rename_i e; subst e; exact hv.symm
      · rfl
    · simp only [tblGet]
  | cons x r ih =>
    obtain ⟨k, w⟩ := x
    simp only [tblSet]
    split
    · rename_i hk
      simp only [tblGet, ih]
      by_cases hkj : k = j
      · have : ¬ i = j := by omega
        simp [hkj, this]
      · simp [hkj]
    · split
      · rename_i hv
        by_cases e : i = j
        · subst e; rw [tblGet_filter_eq]; simp [hv]
        · rw [tblGet_filter_ne (fun h => e h.symm)]; simp [e]
      · by_cases e : i = j
        · simp [tblGet, e]
        · have : ¬ i = j := e
          simp only [tblGet, this, if_false]
          rw [tblGet_filter_ne (fun h => e h.symm)]
          simp only [tblGet]

@[simp] theorem tblGet_tblSet_same {l : Tbl α} (i : Nat) (v : α) : tblGet d (tblSet d l i v) i = v := by
  rw [tblGet_tblSet]; simp

theorem tblGet_tblSet_ne {l : Tbl α} {i j : Nat} (v : α) (h : i ≠ j) : tblGet d (tblSet d l i v) j = tblGet d l j := by
  rw [tblGet_tblSet]; simp [h]

theorem tblGet_tblUpd {l : Tbl α} (i j : Nat) (f : α → α) :
    tblGet d (tblUpd d l i f) j = if i = j then f (tblGet d l i) else tblGet d l j := tblGet_tblSet ..

@[simp] theorem tblGet_tblUpd_same {l : Tbl α} (i : Nat) (f : α → α) : tblGet d (tblUpd d l i f) i = f (tblGet d l i) := by
  rw [tblGet_tblUpd]; simp

/-! ## Byte memory -/

theorem memGet_memSet (m : Mem) (a j : Nat) (b : Byte) : memGet (memSet m a b) j = if a = j then b else memGet m j :=
  tblGet_tblSet ..

theorem memSet_wf {m : Mem} (a : Nat) (b : Byte) (h : memWf m = true) : memWf (memSet m a b) = true := tblSet_wf a b h

theorem memPut_wf {m : Mem} (a : Nat) (l : List Byte) (h : memWf m = true) : memWf (memPut m a l) = true := by
  induction l generalizing m a with
  | nil => exact h
  | cons b r ih => exact ih (a + 1) (memSet_wf a b h)

theorem memPutMask_wf {m : Mem} (a : Nat) (l : List (Byte × Bool)) (h : memWf m = true) : memWf (memPutMask m a l) = true := by
  induction l generalizing m a with
  | nil => exact h
  | cons b r ih =>
    obtain ⟨b, e⟩ := b
    refine ih (a + 1) ?_
    cases e
    · exact h
    · exact memSet_wf a b h

theorem memFilter_wf {m : Mem} (p : Nat × Byte → Bool) (h : memWf m = true) : memWf (m.filter p) = true := tblWf_filter p h

/-- A masked store changes exactly the bytes whose mask entry is true. -/
theorem memGet_memPutMask (m : Mem) (a : Nat) (l : List (Byte × Bool)) (j : Nat) :
    memGet (memPutMask m a l) j =
      match if a ≤ j then l[j - a]? else none with
      | some (b, true) => b
      | _ => memGet m j := by
  induction l generalizing m a with
  | nil => simp [memPutMask]
  | cons x r ih =>
    obtain ⟨b, e⟩ := x
    simp only [memPutMask, ih]
    by_cases h1 : a + 1 ≤ j
    · have h2 : a ≤ j := by omega
      have h3 : j - a = (j - (a + 1)) + 1 := by omega
      simp only [h1, h2, if_true, h3, List.getElem?_cons_succ]
      have h4 : a ≠ j := by omega
      cases e <;> simp [memGet_memSet, h4]
    · by_cases h2 : a = j
      · subst h2
        have h3 : ¬ a + 1 ≤ a := by omega
        cases e <;> simp [memGet_memSet, h3]
      · have h3 : ¬ a ≤ j := by omega
        cases e <;> simp [h1, h3, memGet_memSet, h2]

/-- A store of bytes changes exactly those bytes. -/
theorem memGet_memPut (m : Mem) (a : Nat) (l : List Byte) (j : Nat) :
    memGet (memPut m a l) j = if a ≤ j ∧ j < a + l.length then l.getD (j - a) 0 else memGet m j := by
  induction l generalizing m a with
  | nil =>
    have : ¬ (a ≤ j ∧ j < a + ([] : List Byte).length) := by simp
    rw [if_neg this]; rfl
  | cons b r ih =>
    simp only [memPut, ih, List.length_cons]
    by_cases h1 : a = j
    · subst h1
      have h : ¬ (a + 1 ≤ a ∧ a < a + 1 + r.length) := by omega
      simp [memGet_memSet, h]
    · by_cases h2 : a + 1 ≤ j ∧ j < a + 1 + r.length
      · have h3 : a ≤ j ∧ j < a + (r.length + 1) := by omega
        have h4 : j - a = (j - (a + 1)) + 1 := by omega
        simp only [h2, h3, and_self, if_true, h4]
        rfl
      · have h3 : ¬ (a ≤ j ∧ j < a + (r.length + 1)) := by omega
        simp only [h2, h3, if_false, memGet_memSet, h1]

theorem memPutMask_all (m : Mem) (a : Nat) (l : List Byte) : memPutMask m a (l.map (fun b => (b, true))) = memPut m a l := by
  induction l generalizing m a with
  | nil => rfl
  | cons b r ih => simp [memPutMask, memPut, ih]

/-- The bytes from `a` upward, one by one. -/
theorem memBytes_length (m : Mem) (a n : Nat) : (memBytes m a n).length = n := by
  induction n generalizing a with
  | zero => rfl
  | succ n ih => simp [memBytes, ih]

theorem memBytes_getElem? (m : Mem) (a n i : Nat) (h : i < n) : (memBytes m a n)[i]? = some (memGet m (a + i)) := by
  induction n generalizing a i with
  | zero => omega
  | succ n ih =>
    cases i with
    | zero => rfl
    | succ i =>
      simp only [memBytes, List.getElem?_cons_succ]
      rw [ih (a + 1) i (by omega)]
      congr 2
      omega

/-- Memories that agree on a range read the same bytes there. -/
theorem memBytes_congr {m m' : Mem} {a n : Nat} (h : ∀ i, i < n → memGet m' (a + i) = memGet m (a + i)) :
    memBytes m' a n = memBytes m a n := by
  induction n generalizing a with
  | zero => rfl
  | succ n ih =>
    simp only [memBytes]
    rw [show memGet m' a = memGet m a from h 0 (by omega)]
    rw [ih (fun i hi => by have := h (i + 1) (by omega); rwa [show a + (i + 1) = a + 1 + i by omega] at this)]

theorem memBytes_memPut_same (m : Mem) (a : Nat) (l : List Byte) : memBytes (memPut m a l) a l.length = l := by
  apply List.ext_getElem?
  intro i
  by_cases h : i < l.length
  · rw [memBytes_getElem? _ _ _ _ h, memGet_memPut]
    simp [h]
  · rw [List.getElem?_eq_none (by rw [memBytes_length]; omega), List.getElem?_eq_none (by omega)]

theorem memBytes_memPut_apart (m : Mem) (a b n : Nat) (l : List Byte) (h : b + n ≤ a ∨ a + l.length ≤ b) :
    memBytes (memPut m a l) b n = memBytes m b n := by
  apply memBytes_congr
  intro i hi
  rw [memGet_memPut]
  have : ¬ (a ≤ b + i ∧ b + i < a + l.length) := by omega
  simp [this]

theorem leBytes_length (v n : Nat) : (leBytes v n).length = n := by
  induction n generalizing v with
  | zero => rfl
  | succ n ih => simp [leBytes, ih]

/-- A little-endian value read back. -/
theorem leNat_leBytes (v n : Nat) : leNat (leBytes v n) = v % 256 ^ n := by
  induction n generalizing v with
  | zero => simp [leBytes, leNat, Nat.mod_one]
  | succ n ih =>
    have e : (BitVec.ofNat 8 v).toNat = v % 256 := rfl
    simp only [leBytes, leNat, ih, e]
    rw [Nat.pow_succ, Nat.mul_comm (256 ^ n) 256, Nat.mod_mul]

/-- A word written is the word read. -/
theorem memWord_memPut (m : Mem) (a : Nat) (w : Word) : memWord (memPut m a (leBytes w.toNat 4)) a = w := by
  have h : memBytes (memPut m a (leBytes w.toNat 4)) a 4 = leBytes w.toNat 4 := by
    have := memBytes_memPut_same m a (leBytes w.toNat 4)
    rwa [leBytes_length] at this
  simp only [memWord, memNat, h, leNat_leBytes]
  have : w.toNat % 256 ^ 4 = w.toNat := Nat.mod_eq_of_lt (by have := w.isLt; omega)
  rw [this]
  simp

theorem memWord_memPut_apart (m : Mem) (a b : Nat) (l : List Byte) (h : b + 4 ≤ a ∨ a + l.length ≤ b) :
    memWord (memPut m a l) b = memWord m b := by
  simp only [memWord, memNat, memBytes_memPut_apart m a b 4 l h]

end Sys2Proof.Laws
end

