-- ==== Sys2Proof/Laws/Invariant1.lean ====
section
/-! SUPPORT. Every operation keeps the invariant. -/

namespace Sys2Proof.Laws
open Sys2Proof Sys2Proof.Machine

set_option linter.unusedTactic false
set_option linter.unreachableTactic false
set_option linter.unusedVariables false


theorem inv_of {F : List Field} {u v : State} (w : Within F u v)
    (hd : F.all (fun f => decide (f ≠ .mem ∧ f ≠ .pwr ∧ f ≠ .boot)) = true) (h : StateInv u) : StateInv v := by
  have ne : ∀ f, f ∈ F → f ≠ .mem ∧ f ≠ .pwr ∧ f ≠ .boot := by
    intro f hf
    simpa using List.all_eq_true.mp hd f hf
  have h1 : v.mem = u.mem := w.out .mem (fun m => (ne _ m).1 rfl)
  have h2 : v.pwr = u.pwr := w.out .pwr (fun m => (ne _ m).2.1 rfl)
  have h3 : v.boot = u.boot := w.out .boot (fun m => (ne _ m).2.2 rfl)
  exact ⟨h1 ▸ h.mem, h2 ▸ h.pwr, h3 ▸ h.boot⟩

theorem StateInv.snd {α : Type} {v : State} {p : α × State} {a : α} (e : p = (a, v)) (h : StateInv p.2) : StateInv v := by subst e; exact h
theorem StateInv.fst {α : Type} {v : State} {p : State × α} {a : α} (e : p = (v, a)) (h : StateInv p.1) : StateInv v := by subst e; exact h
theorem StateInv.ite {u v : State} {c : Prop} [Decidable c] (h : StateInv u) (k : StateInv v) : StateInv (if c then u else v) := by
  split <;> assumption
theorem ite_inv {u v : State} {c : Prop} [Decidable c] (h : c → StateInv u) (k : ¬ c → StateInv v) : StateInv (if c then u else v) := by
  split
  · exact h ‹_›
  · exact k ‹_›
theorem forAll_inv {α : Type} {u : State} {l : List α} {f : α → State → State} (h : StateInv u)
    (hf : ∀ a v, StateInv v → StateInv (f a v)) : StateInv (forAll l f u) := by
  unfold forAll
  induction l generalizing u with
  | nil => exact h
  | cons a r ih => exact ih (hf a u h)
theorem StateInv.foldl {α : Type} {u : State} {l : List α} {f : State → α → State} (h : StateInv u)
    (hf : ∀ v, StateInv v → ∀ a, StateInv (f v a)) : StateInv (l.foldl f u) := by
  induction l generalizing u with
  | nil => exact h
  | cons a r ih => exact ih (hf u h a)
theorem StateInv.out_ok {e : Eff} (h : StateInv e.s) : StateInv (outState (.ok e)) := h
theorem StateInv.out_held {v : State} {w : Wait} (h : StateInv v) : StateInv (outState (.held v w)) := h
theorem StateInv.out_exc {v : State} {c : Nat} {i : Word} (h : StateInv v) : StateInv (outState (.exc v c i)) := h
theorem StateInv.out_done {v : State} (h : StateInv v) : StateInv (outState (.done v)) := h
theorem StateInv.of_ok {o : Out} {e : Eff} (k : o = .ok e) (h : StateInv (outState o)) : StateInv e.s := by subst k; exact h
theorem StateInv.of_held {v : State} {o : Out} {w : Wait} (k : o = .held v w) (h : StateInv (outState o)) : StateInv v := by subst k; exact h
theorem StateInv.of_exc {v : State} {o : Out} {c : Nat} {i : Word} (k : o = .exc v c i) (h : StateInv (outState o)) : StateInv v := by
  subst k; exact h
theorem StateInv.of_done {v : State} {o : Out} (k : o = .done v) (h : StateInv (outState o)) : StateInv v := by subst k; exact h
theorem ite_fst_inv {α : Type} {c : Prop} [Decidable c] {p q : State × α} (h : StateInv p.1) (k : StateInv q.1) :
    StateInv (if c then p else q).1 := by split <;> assumption
theorem ite_wr_inv {c : Prop} [Decidable c] {p q : Wr} (h : ∀ v, p = .ok v → StateInv v) (k : ∀ v, q = .ok v → StateInv v) :
    ∀ v, (if c then p else q) = .ok v → StateInv v := by split <;> assumption
theorem StateInv.mk_beat_ok {v : State} {o : TileOp} (h : StateInv v) : StateInv (beatState (.ok v o)) := h
theorem StateInv.mk_beat_fault {v : State} {o : TileOp} {c : Nat} {i : Word} (h : StateInv v) : StateInv (beatState (.fault v o c i)) := h
theorem StateInv.of_beat_ok {v : State} {b : Beat} {o : TileOp} (k : b = .ok v o) (h : StateInv (beatState b)) : StateInv v := by subst k; exact h
theorem StateInv.of_beat_fault {v : State} {b : Beat} {o : TileOp} {c : Nat} {i : Word} (k : b = .fault v o c i)
    (h : StateInv (beatState b)) : StateInv v := by subst k; exact h
theorem StateInv.set_now {u : State} (h : StateInv u) {a0 : _} : StateInv { u with now := a0 } := ⟨h.mem, h.pwr, h.boot⟩
theorem StateInv.set_tb {u : State} (h : StateInv u) {a0 : _} : StateInv { u with tb := a0 } := ⟨h.mem, h.pwr, h.boot⟩
theorem StateInv.set_tb_board {u : State} (h : StateInv u) {a0 : _} {a1 : _} : StateInv { u with tb := a0, board := a1 } := ⟨h.mem, h.pwr, h.boot⟩
theorem StateInv.set_bad {u : State} (h : StateInv u) {a0 : _} : StateInv { u with bad := a0 } := ⟨h.mem, h.pwr, h.boot⟩
theorem StateInv.set_cores {u : State} (h : StateInv u) {a0 : _} : StateInv { u with cores := a0 } := ⟨h.mem, h.pwr, h.boot⟩
theorem StateInv.set_benches {u : State} (h : StateInv u) {a0 : _} : StateInv { u with benches := a0 } := ⟨h.mem, h.pwr, h.boot⟩
theorem StateInv.set_flits {u : State} (h : StateInv u) {a0 : _} : StateInv { u with flits := a0 } := ⟨h.mem, h.pwr, h.boot⟩
theorem StateInv.set_arrivals {u : State} (h : StateInv u) {a0 : _} : StateInv { u with arrivals := a0 } := ⟨h.mem, h.pwr, h.boot⟩
theorem StateInv.set_ports {u : State} (h : StateInv u) {a0 : _} : StateInv { u with ports := a0 } := ⟨h.mem, h.pwr, h.boot⟩
theorem StateInv.set_welts {u : State} (h : StateInv u) {a0 : _} : StateInv { u with welts := a0 } := ⟨h.mem, h.pwr, h.boot⟩
theorem StateInv.set_streams {u : State} (h : StateInv u) {a0 : _} : StateInv { u with streams := a0 } := ⟨h.mem, h.pwr, h.boot⟩
theorem StateInv.set_parts {u : State} (h : StateInv u) {a0 : _} : StateInv { u with parts := a0 } := ⟨h.mem, h.pwr, h.boot⟩
theorem StateInv.set_clicker {u : State} (h : StateInv u) {a0 : _} : StateInv { u with clicker := a0 } := ⟨h.mem, h.pwr, h.boot⟩
theorem StateInv.set_clicker_ring {u : State} (h : StateInv u) {a0 : _} {a1 : _} : StateInv { u with clicker := a0, ring := a1 } := ⟨h.mem, h.pwr, h.boot⟩
theorem StateInv.set_clicker_ring_ringSide {u : State} (h : StateInv u) {a0 : _} {a1 : _} {a2 : _} : StateInv { u with clicker := a0, ring := a1, ringSide := a2 } := ⟨h.mem, h.pwr, h.boot⟩
theorem StateInv.set_ring {u : State} (h : StateInv u) {a0 : _} : StateInv { u with ring := a0 } := ⟨h.mem, h.pwr, h.boot⟩
theorem StateInv.set_ring_ringTurn {u : State} (h : StateInv u) {a0 : _} {a1 : _} : StateInv { u with ring := a0, ringTurn := a1 } := ⟨h.mem, h.pwr, h.boot⟩
theorem StateInv.set_ringSide {u : State} (h : StateInv u) {a0 : _} : StateInv { u with ringSide := a0 } := ⟨h.mem, h.pwr, h.boot⟩
theorem StateInv.set_fmn {u : State} (h : StateInv u) {a0 : _} : StateInv { u with fmn := a0 } := ⟨h.mem, h.pwr, h.boot⟩
theorem StateInv.set_fmn_resets {u : State} (h : StateInv u) {a0 : _} {a1 : _} : StateInv { u with fmn := a0, resets := a1 } := ⟨h.mem, h.pwr, h.boot⟩
theorem StateInv.set_trc {u : State} (h : StateInv u) {a0 : _} : StateInv { u with trc := a0 } := ⟨h.mem, h.pwr, h.boot⟩
theorem StateInv.set_board {u : State} (h : StateInv u) {a0 : _} : StateInv { u with board := a0 } := ⟨h.mem, h.pwr, h.boot⟩
theorem StateInv.set_faults {u : State} (h : StateInv u) {a0 : _} : StateInv { u with faults := a0 } := ⟨h.mem, h.pwr, h.boot⟩
theorem StateInv.set_resets {u : State} (h : StateInv u) {a0 : _} : StateInv { u with resets := a0 } := ⟨h.mem, h.pwr, h.boot⟩
theorem StateInv.set_free {u : State} (h : StateInv u) {a0 : _} : StateInv { u with free := a0 } := ⟨h.mem, h.pwr, h.boot⟩
theorem StateInv.set_pending {u : State} (h : StateInv u) {a0 : _} : StateInv { u with pending := a0 } := ⟨h.mem, h.pwr, h.boot⟩
theorem StateInv.set_pwr {u : State} (h : StateInv u) {a : Power} (k : a.Ok) : StateInv { u with pwr := a } := ⟨h.mem, k, h.boot⟩
theorem StateInv.set_boot {u : State} (h : StateInv u) {a : Boot} (k : a.Ok) : StateInv { u with boot := a } := ⟨h.mem, h.pwr, k⟩

theorem State_updBench_inv {u : State} (h : StateInv u) (a1 : _) (a2 : _) :
    StateInv (State.updBench u a1 a2) :=
  inv_of (State_updBench_within (fun _ m => m) (Within.refl _ _) _ _) rfl h

theorem State_updChanOf_inv {u : State} (h : StateInv u) (a1 : _) (a2 : _) (a3 : _) :
    StateInv (State.updChanOf u a1 a2 a3) :=
  inv_of (State_updChanOf_within (fun _ m => m) (Within.refl _ _) _ _ _) rfl h

theorem State_updCore_inv {u : State} (h : StateInv u) (a1 : _) (a2 : _) :
    StateInv (State.updCore u a1 a2) :=
  inv_of (State_updCore_within (fun _ m => m) (Within.refl _ _) _ _) rfl h

theorem State_updCtx_inv {u : State} (h : StateInv u) (a1 : _) (a2 : _) :
    StateInv (State.updCtx u a1 a2) :=
  inv_of (State_updCtx_within (fun _ m => m) (Within.refl _ _) _ _) rfl h

theorem State_updMbox_inv {u : State} (h : StateInv u) (a1 : _) (a2 : _) :
    StateInv (State.updMbox u a1 a2) :=
  inv_of (State_updMbox_within (fun _ m => m) (Within.refl _ _) _ _) rfl h

theorem State_updPart_inv {u : State} (h : StateInv u) (a1 : _) (a2 : _) :
    StateInv (State.updPart u a1 a2) :=
  inv_of (State_updPart_within (fun _ m => m) (Within.refl _ _) _ _) rfl h

theorem State_updPort_inv {u : State} (h : StateInv u) (a1 : _) (a2 : _) :
    StateInv (State.updPort u a1 a2) :=
  inv_of (State_updPort_within (fun _ m => m) (Within.refl _ _) _ _) rfl h

theorem State_updQueueOf_inv {u : State} (h : StateInv u) (a1 : _) (a2 : _) (a3 : _) :
    StateInv (State.updQueueOf u a1 a2 a3) :=
  inv_of (State_updQueueOf_within (fun _ m => m) (Within.refl _ _) _ _ _) rfl h

theorem State_updSlotOf_inv {u : State} (h : StateInv u) (a1 : _) (a2 : _) (a3 : _) :
    StateInv (State.updSlotOf u a1 a2 a3) :=
  inv_of (State_updSlotOf_within (fun _ m => m) (Within.refl _ _) _ _ _) rfl h

theorem State_updStream_inv {u : State} (h : StateInv u) (a1 : _) (a2 : _) :
    StateInv (State.updStream u a1 a2) :=
  inv_of (State_updStream_within (fun _ m => m) (Within.refl _ _) _ _) rfl h

theorem State_updWelt_inv {u : State} (h : StateInv u) (a1 : _) (a2 : _) :
    StateInv (State.updWelt u a1 a2) :=
  inv_of (State_updWelt_within (fun _ m => m) (Within.refl _ _) _ _) rfl h

theorem State_withFetchWord_inv {u : State} (h : StateInv u) (a1 : _) (a2 : _) :
    StateInv (State.withFetchWord u a1 a2) :=
  inv_of (State_withFetchWord_within (fun _ m => m) (Within.refl _ _) _ _) rfl h

theorem act_inv {u : State} (h : StateInv u) (a0 : _) (a1 : _) (a2 : _) :
    StateInv (act a0 a1 a2 u) :=
  inv_of (act_within (fun _ m => m) (Within.refl _ _) _ _ _) rfl h

theorem countSpin_inv {u : State} (h : StateInv u) (a0 : _) (a1 : _) :
    StateInv (countSpin a0 a1 u) :=
  inv_of (countSpin_within (fun _ m => m) (Within.refl _ _) _ _) rfl h

theorem count_inv {u : State} (h : StateInv u) (a0 : _) (a1 : _) (a2 : _) :
    StateInv (count a0 a1 a2 u) :=
  inv_of (count_within (fun _ m => m) (Within.refl _ _) _ _ _) rfl h

theorem oqPut_inv {u : State} (h : StateInv u) (a0 : _) (a1 : _) :
    StateInv (oqPut a0 a1 u) :=
  inv_of (oqPut_within (fun _ m => m) (Within.refl _ _) _ _) rfl h

theorem sendService_inv {u : State} (h : StateInv u) (a0 : _) (a1 : _) (a2 : _) (a3 : _) (a4 : _) :
    StateInv (sendService a0 a1 a2 a3 a4 u) :=
  inv_of (sendService_within (fun _ m => m) (Within.refl _ _) _ _ _ _ _) rfl h

theorem ringPut_inv {u : State} (h : StateInv u) (a0 : _) (a1 : _) (a2 : _) :
    StateInv (ringPut a0 a1 a2 u) :=
  inv_of (ringPut_within (fun _ m => m) (Within.refl _ _) _ _ _) rfl h

theorem setPend_inv {u : State} (h : StateInv u) (a0 : _) (a1 : _) :
    StateInv (setPend a0 a1 u) :=
  inv_of (setPend_within (fun _ m => m) (Within.refl _ _) _ _) rfl h

theorem syncWrite_inv {u : State} (h : StateInv u) (a0 : _) (a1 : _) (a2 : _) :
    StateInv (syncWrite a0 a1 a2 u) :=
  inv_of (syncWrite_within (fun _ m => m) (Within.refl _ _) _ _ _) rfl h

theorem syncErr_inv {u : State} (h : StateInv u) (a0 : _) (a1 : _) (a2 : _) (a3 : _) :
    StateInv (syncErr a0 a1 a2 a3 u) :=
  inv_of (syncErr_within (fun _ m => m) (Within.refl _ _) _ _ _ _) rfl h

theorem toInbox_inv {u : State} (h : StateInv u) (a0 : _) (a1 : _) (a2 : _) :
    StateInv (toInbox a0 a1 a2 u) :=
  inv_of (toInbox_within (fun _ m => m) (Within.refl _ _) _ _ _) rfl h

theorem toSlice_inv {u : State} (h : StateInv u) (a0 : _) (a1 : _) (a2 : _) (a3 : _) :
    StateInv (toSlice a0 a1 a2 a3 u) :=
  inv_of (toSlice_within (fun _ m => m) (Within.refl _ _) _ _ _ _) rfl h

theorem sendTally_inv {u : State} (h : StateInv u) (a0 : _) (a1 : _) (a2 : _) :
    StateInv (sendTally a0 a1 a2 u) :=
  inv_of (sendTally_within (fun _ m => m) (Within.refl _ _) _ _ _) rfl h

theorem abandon_inv {u : State} (h : StateInv u) (a0 : _) :
    StateInv (abandon a0 u) :=
  inv_of (abandon_within (fun _ m => m) (Within.refl _ _) _) rfl h

theorem abortDesc_inv {u : State} (h : StateInv u) (a0 : _) (a1 : _) :
    StateInv (abortDesc a0 a1 u) :=
  inv_of (abortDesc_within (fun _ m => m) (Within.refl _ _) _ _) rfl h

theorem abortAll_inv {u : State} (h : StateInv u) (a0 : _) :
    StateInv (abortAll a0 u) :=
  inv_of (abortAll_within (fun _ m => m) (Within.refl _ _) _) rfl h

theorem advance_inv {u : State} (h : StateInv u) (a0 : _) (a1 : _) :
    StateInv (advance a0 a1 u) :=
  inv_of (advance_within (fun _ m => m) (Within.refl _ _) _ _) rfl h

theorem actLines_inv {u : State} (h : StateInv u) (a0 : _) (a1 : _) :
    StateInv (actLines a0 a1 u) :=
  inv_of (actLines_within (fun _ m => m) (Within.refl _ _) _ _) rfl h

theorem clearResv_inv {u : State} (h : StateInv u) (a0 : _) (a1 : _) (a2 : _) :
    StateInv (clearResv a0 a1 a2 u) :=
  inv_of (clearResv_within (fun _ m => m) (Within.refl _ _) _ _ _) rfl h

theorem eccWrite_inv {u : State} (h : StateInv u) (a1 : _) (a2 : _) : StateInv (eccWrite u a1 a2) := by
  have hm : ∀ l b, StateInv { u with mem := memPutMask u.mem a1 l, bad := b } :=
    fun l b => ⟨memPutMask_wf _ _ h.1, h.pwr, h.boot⟩
  unfold eccWrite
  dsimp only
  split
  · exact count_inv (count_inv (hm _ _) _ _ _) _ _ _
  · exact hm _ _

theorem writeMask_inv {u : State} (h : StateInv u) (a0 : _) (a1 : _) : StateInv (writeMask a0 a1 u) := by
  have h1 : StateInv (if u.bad = [] then { u with mem := memPutMask u.mem a0 a1 } else eccWrite u a0 a1) :=
    StateInv.ite ⟨memPutMask_wf _ _ h.1, h.pwr, h.boot⟩ (eccWrite_inv h _ _)
  unfold writeMask
  dsimp only
  refine actLines_inv ?_ _ _
  split
  · exact clearResv_inv h1 _ _ _
  · exact h1

theorem write_inv {u : State} (h : StateInv u) (a0 : _) (a1 : _) :
    StateInv (write a0 a1 u) := by
  unfold write
  try dsimp only
  repeat' (first
    | with_reducible exact h
    | with_reducible assumption
    | with_reducible refine writeMask_inv ?_ _ _)

theorem spillWords_inv {u : State} (h : StateInv u) (a0 : _) (a1 : _) (a2 : _) :
    StateInv (spillWords a0 a1 a2 u) := by
  induction a2 generalizing a1 u with
  | nil => exact h
  | cons w r ih =>
    unfold spillWords
    exact ih (write_inv h _ _) _

theorem pushOps_inv {u : State} (h : StateInv u) (a0 : _) (a1 : _) (a2 : _) :
    StateInv (pushOps a0 a1 a2 u) := by
  unfold pushOps
  try dsimp only
  repeat' (first
    | with_reducible exact h
    | with_reducible assumption
    | with_reducible refine spillWords_inv ?_ _ _ _
    | with_reducible refine State_updCtx_inv ?_ _ _
    | with_reducible refine StateInv.ite ?_ ?_)

theorem pushRets_inv {u : State} (h : StateInv u) (a0 : _) (a1 : _) (a2 : _) :
    StateInv (pushRets a0 a1 a2 u) := by
  unfold pushRets
  try dsimp only
  repeat' (first
    | with_reducible exact h
    | with_reducible assumption
    | with_reducible refine spillWords_inv ?_ _ _ _
    | with_reducible refine State_updCtx_inv ?_ _ _
    | with_reducible refine StateInv.ite ?_ ?_)

theorem complete_inv {u : State} (h : StateInv u) (a0 : _) (a1 : _) (a2 : _) (a3 : _) (a4 : _) (a5 : _) (a6 : _) :
    StateInv (complete a0 a1 a2 a3 a4 a5 a6 u) := by
  unfold complete
  try dsimp only
  repeat' (first
    | with_reducible exact h
    | with_reducible assumption
    | with_reducible refine pushRets_inv ?_ _ _ _
    | with_reducible refine pushOps_inv ?_ _ _ _
    | with_reducible refine advance_inv ?_ _ _
    | with_reducible refine State_updCtx_inv ?_ _ _
    | with_reducible refine StateInv.ite ?_ ?_
    | split)

theorem popHeld_inv {u : State} (h : StateInv u) (a0 : _) (a1 : _) :
    StateInv (popHeld a0 a1 u) := by
  unfold popHeld
  try dsimp only
  repeat' (first
    | with_reducible exact h
    | with_reducible assumption
    | with_reducible refine complete_inv ?_ _ _ _ _ _ _ _
    | with_reducible refine State_updCtx_inv ?_ _ _)

theorem suspendNow_inv {u : State} (h : StateInv u) (a0 : _) :
    StateInv (suspendNow a0 u) :=
  inv_of (suspendNow_within (fun _ m => m) (Within.refl _ _) _) rfl h

theorem stopCheck_inv {u : State} (h : StateInv u) (a0 : _) (a1 : _) :
    StateInv (stopCheck a0 a1 u) := by
  induction a0 generalizing a1 u with
  | zero => exact h
  | succ n ih =>
    unfold stopCheck
    dsimp only
    refine StateInv.ite ?_ h
    refine forAll_inv ?_ (fun i v hv => StateInv.ite (ih (popHeld_inv hv _ _) _) hv)
    exact StateInv.ite (suspendNow_inv h _) (State_updCtx_inv h _ _)

theorem completeHeld_inv {u : State} (h : StateInv u) (a0 : _) (a1 : _) :
    StateInv (completeHeld a0 a1 u) := by
  unfold completeHeld
  try dsimp only
  repeat' (first
    | with_reducible exact h
    | with_reducible assumption
    | with_reducible refine stopCheck_inv ?_ _ _
    | with_reducible refine popHeld_inv ?_ _ _)

theorem pushRecord_inv {u : State} (h : StateInv u) (a0 : _) (a1 : _) (a2 : _) :
    StateInv (pushRecord a0 a1 a2 u) :=
  inv_of (pushRecord_within (fun _ m => m) (Within.refl _ _) _ _ _) rfl h

theorem trace_inv {u : State} (h : StateInv u) (a0 : _) (a1 : _) (a2 : _) (a3 : _) (a4 : _) (a5 : _) :
    StateInv (trace a0 a1 a2 a3 a4 a5 u) :=
  inv_of (trace_within (fun _ m => m) (Within.refl _ _) _ _ _ _ _ _) rfl h

theorem traceSend_inv {u : State} (h : StateInv u) (a0 : _) (a1 : _) (a2 : _) (a3 : _) (a4 : _) :
    StateInv (traceSend a0 a1 a2 a3 a4 u) :=
  inv_of (traceSend_within (fun _ m => m) (Within.refl _ _) _ _ _ _ _) rfl h

theorem endSends_inv {u : State} (h : StateInv u) (a0 : _) (a1 : _) (a2 : _) :
    StateInv (endSends a0 a1 a2 u) := by
  unfold endSends
  try dsimp only
  repeat' (first
    | with_reducible exact h
    | with_reducible assumption
    | with_reducible refine forAll_inv ?_ ?_
    | with_reducible refine traceSend_inv ?_ _ _ _ _ _
    | with_reducible refine completeHeld_inv ?_ _ _
    | with_reducible refine forAll_inv ?_ _ _
    | with_reducible refine StateInv.ite ?_ ?_
    | split
    | intro)

theorem abortChan_inv {u : State} (h : StateInv u) (a0 : _) (a1 : _) :
    StateInv (abortChan a0 a1 u) := by
  unfold abortChan
  try dsimp only
  repeat' (first
    | with_reducible exact h
    | with_reducible assumption
    | with_reducible refine endSends_inv ?_ _ _ _
    | with_reducible refine State_updChanOf_inv ?_ _ _ _
    | with_reducible refine State_updBench_inv ?_ _ _
    | with_reducible refine StateInv.ite ?_ ?_)

theorem setConn_inv {u : State} (h : StateInv u) (a0 : _) (a1 : _) (a2 : _) :
    StateInv (setConn a0 a1 a2 u) :=
  inv_of (setConn_within (fun _ m => m) (Within.refl _ _) _ _ _) rfl h

theorem releasePaths_inv {u : State} (h : StateInv u) (a0 : _) (a1 : _) :
    StateInv (releasePaths a0 a1 u) :=
  inv_of (releasePaths_within (fun _ m => m) (Within.refl _ _) _ _) rfl h

theorem finishChan_inv {u : State} (h : StateInv u) (a0 : _) (a1 : _) (a2 : _) :
    StateInv (finishChan a0 a1 a2 u) :=
  inv_of (finishChan_within (fun _ m => m) (Within.refl _ _) _ _ _) rfl h

theorem channelDrain_inv {u : State} (h : StateInv u) (a0 : _) (a1 : _) :
    StateInv (channelDrain a0 a1 u) :=
  inv_of (channelDrain_within (fun _ m => m) (Within.refl _ _) _ _) rfl h

theorem abortOrDrain_inv {u : State} (h : StateInv u) (a0 : _) (a1 : _) :
    StateInv (abortOrDrain a0 a1 u) := by
  unfold abortOrDrain
  try dsimp only
  repeat' (first
    | with_reducible exact h
    | with_reducible assumption
    | with_reducible refine channelDrain_inv ?_ _ _
    | with_reducible refine abortChan_inv ?_ _ _)

theorem abortOpen_inv {u : State} (h : StateInv u) (a0 : _) (a1 : _) :
    StateInv (abortOpen a0 a1 u) := by
  unfold abortOpen
  try dsimp only
  repeat' (first
    | with_reducible exact h
    | with_reducible assumption
    | with_reducible refine abortOrDrain_inv ?_ _ _
    | with_reducible refine State_updChanOf_inv ?_ _ _ _
    | with_reducible refine StateInv.ite ?_ ?_)

theorem absorb_inv {u : State} (h : StateInv u) (a0 : _) :
    StateInv (absorb a0 u) :=
  inv_of (absorb_within (fun _ m => m) (Within.refl _ _) _) rfl h

theorem forgetPacket_inv {u : State} (h : StateInv u) (a0 : _) (a1 : _) :
    StateInv (forgetPacket a0 a1 u) :=
  inv_of (forgetPacket_within (fun _ m => m) (Within.refl _ _) _ _) rfl h

theorem updJob_inv {u : State} (h : StateInv u) (a0 : _) (a1 : _) :
    StateInv (updJob a0 a1 u) :=
  inv_of (updJob_within (fun _ m => m) (Within.refl _ _) _ _) rfl h

theorem jobOfCore_inv {u : State} (h : StateInv u) (a0 : _) (a1 : _) :
    StateInv (jobOfCore a0 a1 u) :=
  inv_of (jobOfCore_within (fun _ m => m) (Within.refl _ _) _ _) rfl h

theorem settleDesc_inv {u : State} (h : StateInv u) (a0 : _) (a1 : _) :
    StateInv (settleDesc a0 a1 u) :=
  inv_of (settleDesc_within (fun _ m => m) (Within.refl _ _) _ _) rfl h

theorem absorbData_inv {u : State} (h : StateInv u) (a0 : _) :
    StateInv (absorbData a0 u) :=
  inv_of (absorbData_within (fun _ m => m) (Within.refl _ _) _) rfl h

theorem answer_inv {u : State} (h : StateInv u) (a0 : _) (a1 : _) (a2 : _) :
    StateInv (answer a0 a1 a2 u) :=
  inv_of (answer_within (fun _ m => m) (Within.refl _ _) _ _ _) rfl h

theorem absorbTally_inv {u : State} (h : StateInv u) (a0 : _) (a1 : _) :
    StateInv (absorbTally a0 a1 u) :=
  inv_of (absorbTally_within (fun _ m => m) (Within.refl _ _) _ _) rfl h

theorem raise_inv {u : State} (h : StateInv u) (a0 : _) (a1 : _) :
    StateInv (raise a0 a1 u) :=
  inv_of (raise_within (fun _ m => m) (Within.refl _ _) _ _) rfl h

theorem transmit_inv {u : State} (h : StateInv u) (a0 : _) (a1 : _) (a2 : _) :
    StateInv (transmit a0 a1 a2 u) :=
  inv_of (transmit_within (fun _ m => m) (Within.refl _ _) _ _ _) rfl h

theorem sendMgmt_inv {u : State} (h : StateInv u) (a0 : _) (a1 : _) (a2 : _) (a3 : _) (a4 : _) :
    StateInv (sendMgmt a0 a1 a2 a3 a4 u) :=
  inv_of (sendMgmt_within (fun _ m => m) (Within.refl _ _) _ _ _ _ _) rfl h

theorem updSession_inv {u : State} (h : StateInv u) (a0 : _) (a1 : _) :
    StateInv (updSession a0 a1 u) :=
  inv_of (updSession_within (fun _ m => m) (Within.refl _ _) _ _) rfl h

theorem pumpSession_inv {u : State} (h : StateInv u) (a0 : _) (a1 : _) :
    StateInv (pumpSession a0 a1 u) :=
  inv_of (pumpSession_within (fun _ m => m) (Within.refl _ _) _ _) rfl h

theorem sendMsg_inv {u : State} (h : StateInv u) (a0 : _) (a1 : _) (a2 : _) (a3 : _) (a4 : _) :
    StateInv (sendMsg a0 a1 a2 a3 a4 u) :=
  inv_of (sendMsg_within (fun _ m => m) (Within.refl _ _) _ _ _ _ _) rfl h

theorem respond_inv {u : State} (h : StateInv u) (a0 : _) (a1 : _) (a2 : _) (a3 : _) :
    StateInv (respond a0 a1 a2 a3 u) :=
  inv_of (respond_within (fun _ m => m) (Within.refl _ _) _ _ _ _) rfl h

theorem wake_inv {u : State} (h : StateInv u) : StateInv (wake u) := by
  unfold wake
  exact StateInv.ite ⟨h.1, ⟨h.pwr.1, h.pwr.2.1, h.pwr.2.2.1, Nat.zero_le _⟩, h.boot⟩ h

theorem accept_inv {u : State} (h : StateInv u) (a0 : _) :
    StateInv (accept a0 u) := by
  unfold accept
  try dsimp only
  repeat' (first
    | with_reducible exact h
    | with_reducible assumption
    | fail_if_no_progress with_reducible refine StateInv.set_fmn ?_
    | with_reducible refine wake_inv ?_ 
    | with_reducible refine respond_inv ?_ _ _ _ _
    | with_reducible refine State_updMbox_inv ?_ _ _
    | with_reducible refine StateInv.ite ?_ ?_)

theorem logIn_inv {u : State} (h : StateInv u) (a0 : _) (a1 : _) :
    StateInv (logIn a0 a1 u) :=
  inv_of (logIn_within (fun _ m => m) (Within.refl _ _) _ _) rfl h

theorem logEvent_inv {u : State} (h : StateInv u) (a0 : _) (a1 : _) (a2 : _) (a3 : _) :
    StateInv (logEvent a0 a1 a2 a3 u) :=
  inv_of (logEvent_within (fun _ m => m) (Within.refl _ _) _ _ _ _) rfl h

theorem hostEvent_inv {u : State} (h : StateInv u) (a0 : _) (a1 : _) (a2 : _) (a3 : _) :
    StateInv (hostEvent a0 a1 a2 a3 u) :=
  inv_of (hostEvent_within (fun _ m => m) (Within.refl _ _) _ _ _ _) rfl h

theorem closeWins_inv {u : State} (h : StateInv u) (a0 : _) (a1 : _) :
    StateInv (closeWins a0 a1 u) :=
  inv_of (closeWins_within (fun _ m => m) (Within.refl _ _) _ _) rfl h

theorem ringWrite_inv {u : State} (h : StateInv u) (a0 : _) (a1 : _) :
    StateInv (ringWrite a0 a1 u) := by
  unfold ringWrite
  try dsimp only
  repeat' (first
    | with_reducible exact h
    | with_reducible assumption
    | with_reducible refine closeWins_inv ?_ _ _
    | with_reducible refine write_inv ?_ _ _)

theorem acceptHost_inv {u : State} (h : StateInv u) (a0 : _) :
    StateInv (acceptHost a0 u) := by
  unfold acceptHost
  try dsimp only
  repeat' (first
    | with_reducible exact h
    | with_reducible assumption
    | with_reducible refine ringWrite_inv ?_ _ _
    | with_reducible refine hostEvent_inv ?_ _ _ _ _
    | with_reducible refine StateInv.ite ?_ ?_)

theorem itemAccepted_inv {u : State} (h : StateInv u) (a0 : _) (a1 : _) :
    StateInv (itemAccepted a0 a1 u) :=
  inv_of (itemAccepted_within (fun _ m => m) (Within.refl _ _) _ _) rfl h

theorem landed_inv {u : State} (h : StateInv u) (a0 : _) (a1 : _) (a2 : _) :
    StateInv (landed a0 a1 a2 u) :=
  inv_of (landed_within (fun _ m => m) (Within.refl _ _) _ _ _) rfl h

theorem ringLanded_inv {u : State} (h : StateInv u) (a0 : _) (a1 : _) (a2 : _) :
    StateInv (ringLanded a0 a1 a2 u) :=
  inv_of (ringLanded_within (fun _ m => m) (Within.refl _ _) _ _ _) rfl h

theorem takeFree_inv {u : State} (h : StateInv u) :
    StateInv (takeFree u).2 :=
  inv_of (takeFree_within (fun _ m => m) (Within.refl _ _) ) rfl h

theorem txrow_inv {u : State} (h : StateInv u) (a0 : _) :
    StateInv (txrow a0 u).2 :=
  inv_of (txrow_within (fun _ m => m) (Within.refl _ _) _) rfl h

theorem discardTile_inv {u : State} (h : StateInv u) (a0 : _) :
    StateInv (discardTile a0 u) :=
  inv_of (discardTile_within (fun _ m => m) (Within.refl _ _) _) rfl h

theorem coreCount_inv {u : State} (h : StateInv u) (a0 : _) (a1 : _) (a2 : _) :
    StateInv (coreCount a0 a1 a2 u) :=
  inv_of (coreCount_within (fun _ m => m) (Within.refl _ _) _ _ _) rfl h

theorem sampleMma_inv {u : State} (h : StateInv u) (a0 : _) (a1 : _) (a2 : _) (a3 : _) :
    StateInv (sampleMma a0 a1 a2 a3 u) :=
  inv_of (sampleMma_within (fun _ m => m) (Within.refl _ _) _ _ _ _) rfl h

theorem mmaCommit_inv {u : State} (h : StateInv u) (a0 : _) (a1 : _) :
    StateInv (mmaCommit a0 a1 u) :=
  inv_of (mmaCommit_within (fun _ m => m) (Within.refl _ _) _ _) rfl h

theorem tileRelease_inv {u : State} (h : StateInv u) (a0 : _) :
    StateInv (tileRelease a0 u) := by
  unfold tileRelease
  try dsimp only
  repeat' (first
    | with_reducible exact h
    | with_reducible assumption
    | with_reducible refine completeHeld_inv ?_ _ _
    | with_reducible refine State_updCore_inv ?_ _ _)

theorem mmaDone_inv {u : State} (h : StateInv u) (a0 : _) :
    StateInv (mmaDone a0 u) := by
  unfold mmaDone
  try dsimp only
  repeat' (first
    | with_reducible exact h
    | with_reducible assumption
    | with_reducible refine tileRelease_inv ?_ _
    | with_reducible refine mmaCommit_inv ?_ _ _
    | with_reducible refine StateInv.ite ?_ ?_
    | split)

theorem tileCommit_inv {u : State} (h : StateInv u) (a0 : _) (a1 : _) :
    StateInv (tileCommit a0 a1 u) :=
  inv_of (tileCommit_within (fun _ m => m) (Within.refl _ _) _ _) rfl h

theorem tileDone_inv {u : State} (h : StateInv u) (a0 : _) :
    StateInv (tileDone a0 u) := by
  unfold tileDone
  try dsimp only
  repeat' (first
    | with_reducible exact h
    | with_reducible assumption
    | with_reducible refine tileCommit_inv ?_ _ _
    | with_reducible refine tileRelease_inv ?_ _
    | with_reducible refine StateInv.ite ?_ ?_
    | split)

theorem settleTile_inv {u : State} (h : StateInv u) (a0 : _) :
    StateInv (settleTile a0 u) := by
  unfold settleTile
  try dsimp only
  repeat' (first
    | with_reducible exact h
    | with_reducible assumption
    | with_reducible refine tileDone_inv ?_ _
    | with_reducible refine mmaDone_inv ?_ _)

theorem yieldHeld_inv {u : State} (h : StateInv u) (a0 : _) :
    ∀ v, yieldHeld a0 u = some v → StateInv v.1 := by
  intro v e
  unfold yieldHeld at e
  try dsimp only at e
  repeat' split at e
  all_goals (try contradiction)
  all_goals (first | cases e | skip)
  all_goals repeat' (first | with_reducible exact h | with_reducible assumption | with_reducible refine settleTile_inv ?_ _ | with_reducible refine discardTile_inv ?_ _ | with_reducible refine abandon_inv ?_ _ | with_reducible refine StateInv.ite ?_ ?_ | split | intro)

theorem askStop_inv {u : State} (h : StateInv u) (a0 : _) :
    StateInv (askStop a0 u) := by
  unfold askStop
  try dsimp only
  repeat' (first
    | with_reducible exact h
    | with_reducible assumption
    | refine yieldHeld_inv ?_ _ (_, _) (by assumption)
    | refine yieldHeld_inv ?_ _ _ (by assumption)
    | with_reducible refine suspendNow_inv ?_ _
    | with_reducible refine State_updCtx_inv ?_ _ _
    | with_reducible refine StateInv.ite ?_ ?_
    | split)

theorem addFrameTime_inv {u : State} (h : StateInv u) (a0 : _) :
    StateInv (addFrameTime a0 u) :=
  inv_of (addFrameTime_within (fun _ m => m) (Within.refl _ _) _) rfl h

theorem discardCtx_inv {u : State} (h : StateInv u) (a0 : _) :
    StateInv (discardCtx a0 u) :=
  inv_of (discardCtx_within (fun _ m => m) (Within.refl _ _) _) rfl h

theorem spinDown_inv {u : State} (h : StateInv u) (a0 : _) :
    StateInv (spinDown a0 u) :=
  inv_of (spinDown_within (fun _ m => m) (Within.refl _ _) _) rfl h

theorem touch_inv {u : State} (h : StateInv u) : StateInv (touch u) := ⟨h.1, h.pwr, h.boot⟩

theorem jobEnd_inv {u : State} (h : StateInv u) (a0 : _) (a1 : _) (a2 : _) :
    StateInv (jobEnd a0 a1 a2 u) := by
  unfold jobEnd
  try dsimp only
  repeat' (first
    | with_reducible exact h
    | with_reducible assumption
    | with_reducible refine forAll_inv ?_ ?_
    | with_reducible refine touch_inv ?_ 
    | with_reducible refine spinDown_inv ?_ _
    | with_reducible refine logEvent_inv ?_ _ _ _ _
    | with_reducible refine respond_inv ?_ _ _ _ _
    | with_reducible refine forAll_inv ?_ _ _
    | with_reducible refine State_updPart_inv ?_ _ _
    | with_reducible refine State_updBench_inv ?_ _ _
    | with_reducible refine StateInv.foldl ?_ ?_
    | with_reducible refine StateInv.ite ?_ ?_
    | split
    | intro)

theorem endAll_inv {u : State} (h : StateInv u) (a0 : _) (a1 : _) :
    StateInv (endAll a0 a1 u) := by
  unfold endAll
  try dsimp only
  repeat' (first
    | with_reducible exact h
    | with_reducible assumption
    | with_reducible refine forAll_inv ?_ ?_
    | with_reducible refine jobEnd_inv ?_ _ _ _
    | with_reducible refine forAll_inv ?_ _ _
    | with_reducible refine StateInv.ite ?_ ?_
    | split
    | intro)

theorem forCtxs_inv {u : State} (h : StateInv u) {f : Thread → State → State} (hf : ∀ t v, StateInv v → StateInv (f t v)) (a0 : _) :
    StateInv (forCtxs a0 f u) :=
  forAll_inv h (fun c _ hv => forAll_inv hv (fun i w hw => hf ⟨c, i⟩ w hw))

theorem finishDiscard_inv {u : State} (h : StateInv u) (a0 : _) :
    StateInv (finishDiscard a0 u) := by
  unfold finishDiscard
  try dsimp only
  repeat' (first
    | with_reducible exact h
    | with_reducible assumption
    | with_reducible refine forCtxs_inv ?_ ?_ _
    | with_reducible refine endAll_inv ?_ _ _
    | with_reducible refine jobEnd_inv ?_ _ _ _
    | with_reducible refine discardCtx_inv ?_ _
    | with_reducible refine addFrameTime_inv ?_ _
    | with_reducible refine State_updPart_inv ?_ _ _
    | with_reducible refine StateInv.ite ?_ ?_
    | split
    | intro)

theorem discardFrame_inv {u : State} (h : StateInv u) (a0 : _) (a1 : _) :
    StateInv (discardFrame a0 a1 u) := by
  unfold discardFrame
  try dsimp only
  repeat' (first
    | with_reducible exact h
    | with_reducible assumption
    | with_reducible refine forAll_inv ?_ ?_
    | with_reducible refine finishDiscard_inv ?_ _
    | with_reducible refine forCtxs_inv ?_ ?_ _
    | with_reducible refine askStop_inv ?_ _
    | with_reducible refine abortAll_inv ?_ _
    | with_reducible refine forAll_inv ?_ _ _
    | with_reducible refine State_updPart_inv ?_ _ _
    | with_reducible refine StateInv.ite ?_ ?_
    | split
    | intro)

theorem faultJobs_inv {u : State} (h : StateInv u) (a0 : _) :
    StateInv (faultJobs a0 u) :=
  inv_of (faultJobs_within (fun _ m => m) (Within.refl _ _) _) rfl h

theorem logMerged_inv {u : State} (h : StateInv u) (a0 : _) (a1 : _) (a2 : _) (a3 : _) :
    StateInv (logMerged a0 a1 a2 a3 u) :=
  inv_of (logMerged_within (fun _ m => m) (Within.refl _ _) _ _ _ _) rfl h

theorem frameEnd_inv {u : State} (h : StateInv u) (a0 : _) :
    StateInv (frameEnd a0 u) := by
  unfold frameEnd
  try dsimp only
  repeat' (first
    | with_reducible exact h
    | with_reducible assumption
    | with_reducible refine forAll_inv ?_ ?_
    | with_reducible refine logMerged_inv ?_ _ _ _ _
    | with_reducible refine finishDiscard_inv ?_ _
    | with_reducible refine endAll_inv ?_ _ _
    | with_reducible refine jobEnd_inv ?_ _ _ _
    | with_reducible refine addFrameTime_inv ?_ _
    | with_reducible refine abortAll_inv ?_ _
    | with_reducible refine forAll_inv ?_ _ _
    | with_reducible refine State_updPart_inv ?_ _ _
    | with_reducible refine StateInv.ite ?_ ?_
    | split
    | intro)

theorem stopNow_inv {u : State} (h : StateInv u) (a0 : _) :
    StateInv (stopNow a0 u) := by
  unfold stopNow
  try dsimp only
  repeat' (first
    | with_reducible exact h
    | with_reducible assumption
    | with_reducible refine frameEnd_inv ?_ _
    | with_reducible refine faultJobs_inv ?_ _
    | with_reducible refine discardFrame_inv ?_ _ _
    | with_reducible refine endAll_inv ?_ _ _
    | with_reducible refine State_updPart_inv ?_ _ _
    | with_reducible refine StateInv.ite ?_ ?_)

theorem ringRefused_inv {u : State} (h : StateInv u) (a0 : _) :
    StateInv (ringRefused a0 u) := by
  unfold ringRefused
  try dsimp only
  repeat' (first
    | with_reducible exact h
    | with_reducible assumption
    | with_reducible refine stopNow_inv ?_ _
    | with_reducible refine StateInv.ite ?_ ?_
    | split)

theorem ringWriteMask_inv {u : State} (h : StateInv u) (a0 : _) (a1 : _) :
    StateInv (ringWriteMask a0 a1 u) := by
  unfold ringWriteMask
  try dsimp only
  repeat' (first
    | with_reducible exact h
    | with_reducible assumption
    | with_reducible refine closeWins_inv ?_ _ _
    | with_reducible refine writeMask_inv ?_ _ _)

theorem acceptWrite_inv {u : State} (h : StateInv u) (a0 : _) (a1 : _) (a2 : _) (a3 : _) (a4 : _) (a5 : _) (a6 : _) :
    StateInv (acceptWrite a0 a1 a2 a3 a4 a5 a6 u) := by
  unfold acceptWrite
  try dsimp only
  repeat' (first
    | with_reducible exact h
    | with_reducible assumption
    | with_reducible refine ringWriteMask_inv ?_ _ _
    | with_reducible refine ringRefused_inv ?_ _
    | with_reducible refine ringLanded_inv ?_ _ _ _
    | with_reducible refine itemAccepted_inv ?_ _ _
    | with_reducible refine StateInv.ite ?_ ?_
    | split)

theorem settleSlips_inv {u : State} (h : StateInv u) (a0 : _) :
    StateInv (settleSlips a0 u) :=
  inv_of (settleSlips_within (fun _ m => m) (Within.refl _ _) _) rfl h

theorem accessDone_inv {u : State} (h : StateInv u) (a0 : _) (a1 : _) (a2 : _) :
    StateInv (accessDone a0 a1 a2 u) :=
  inv_of (accessDone_within (fun _ m => m) (Within.refl _ _) _ _ _) rfl h

theorem putRow_inv {u : State} (h : StateInv u) (a0 : _) (a1 : _) (a2 : _) (a3 : _) :
    StateInv (putRow a0 a1 a2 a3 u) :=
  inv_of (putRow_within (fun _ m => m) (Within.refl _ _) _ _ _ _) rfl h

theorem accrdRow_inv {u : State} (h : StateInv u) (a0 : _) (a1 : _) (a3 : _) :
    StateInv (beatState (accrdRow a0 a1 u a3)) :=
  inv_of (accrdRow_within (fun _ m => m) (Within.refl _ _) _ _ _) rfl h

theorem accz_inv {u : State} (h : StateInv u) (a0 : _) (a1 : _) :
    StateInv (accz a0 a1 u) :=
  inv_of (accz_within (fun _ m => m) (Within.refl _ _) _ _) rfl h

theorem sendAck_inv {u : State} (h : StateInv u) (a0 : _) (a1 : _) :
    StateInv (sendAck a0 a1 u) :=
  inv_of (sendAck_within (fun _ m => m) (Within.refl _ _) _ _) rfl h

theorem sessionAck_inv {u : State} (h : StateInv u) (a0 : _) (a1 : _) :
    StateInv (sessionAck a0 a1 u) :=
  inv_of (sessionAck_within (fun _ m => m) (Within.refl _ _) _ _) rfl h

theorem ackTimer_inv {u : State} (h : StateInv u) (a0 : _) :
    StateInv (ackTimer a0 u) :=
  inv_of (ackTimer_within (fun _ m => m) (Within.refl _ _) _) rfl h

theorem recordCont_inv {u : State} (h : StateInv u) (a0 : _) (a1 : _) (a2 : _) (a3 : _) :
    StateInv (recordCont a0 a1 a2 a3 u) :=
  inv_of (recordCont_within (fun _ m => m) (Within.refl _ _) _ _ _ _) rfl h

theorem memCont_inv {u : State} (h : StateInv u) (a0 : _) (a1 : _) (a2 : _) :
    StateInv (memCont a0 a1 a2 u) :=
  inv_of (memCont_within (fun _ m => m) (Within.refl _ _) _ _ _) rfl h

theorem noteRead_inv {u : State} (h : StateInv u) (a0 : _) (a1 : _) :
    StateInv (noteRead a0 a1 u) :=
  inv_of (noteRead_within (fun _ m => m) (Within.refl _ _) _ _) rfl h

theorem readRow_inv {u : State} (h : StateInv u) {k : List Byte → State → TileOp → Beat}
    (hk : ∀ l v o, StateInv v → StateInv (beatState (k l v o))) (t : Thread) (a : Nat) (p : List (Nat × Nat)) (o : TileOp) :
    StateInv (beatState (readRow t a p u o k)) := by
  unfold readRow
  dsimp only
  split
  · exact h
  split
  · exact StateInv.mk_beat_fault (memCont_inv h _ _ _)
  · exact hk _ _ _ (forAll_inv h (fun _ _ hv => noteRead_inv hv _ _))

theorem actLoad_inv {u : State} (h : StateInv u) (a0 : _) (a1 : _) (a3 : _) :
    StateInv (beatState (actLoad a0 a1 u a3)) :=
  inv_of (actLoad_within (fun _ m => m) (Within.refl _ _) _ _ _) rfl h

theorem putLanes_inv {u : State} (h : StateInv u) (a0 : _) (a1 : _) (a2 : _) (a3 : _) (a4 : _) :
    StateInv (putLanes a0 a1 a2 a3 a4 u) :=
  inv_of (putLanes_within (fun _ m => m) (Within.refl _ _) _ _ _ _ _) rfl h

theorem actRow_inv {u : State} (h : StateInv u) (a0 : _) (a1 : _) (a3 : _) :
    StateInv (beatState (actRow a0 a1 u a3)) :=
  inv_of (actRow_within (fun _ m => m) (Within.refl _ _) _ _ _) rfl h

theorem actSr_inv {u : State} (h : StateInv u) (a0 : _) :
    StateInv (actSr a0 u) :=
  inv_of (actSr_within (fun _ m => m) (Within.refl _ _) _) rfl h

theorem anomaly_inv {u : State} (h : StateInv u) (a0 : _) (a1 : _) (a2 : _) (a3 : _) :
    StateInv (anomaly a0 a1 a2 a3 u) :=
  inv_of (anomaly_within (fun _ m => m) (Within.refl _ _) _ _ _ _) rfl h

theorem answerOpen_inv {u : State} (h : StateInv u) (a0 : _) (a1 : _) (a2 : _) (a3 : _) :
    StateInv (answerOpen a0 a1 a2 a3 u) :=
  inv_of (answerOpen_within (fun _ m => m) (Within.refl _ _) _ _ _ _) rfl h

theorem applyAck_inv {u : State} (h : StateInv u) (a0 : _) (a1 : _) (a2 : _) :
    StateInv (applyAck a0 a1 a2 u) := by
  unfold applyAck
  try dsimp only
  repeat' (first
    | with_reducible exact h
    | with_reducible assumption
    | with_reducible refine forAll_inv ?_ ?_
    | with_reducible refine touch_inv ?_ 
    | with_reducible refine landed_inv ?_ _ _ _
    | with_reducible refine forAll_inv ?_ _ _
    | with_reducible refine State_updWelt_inv ?_ _ _
    | with_reducible refine State_updStream_inv ?_ _ _
    | with_reducible refine StateInv.ite ?_ ?_
    | split
    | intro)

theorem failStream_inv {u : State} (h : StateInv u) (a0 : _) (a1 : _) :
    StateInv (failStream a0 a1 u) := by
  unfold failStream
  try dsimp only
  repeat' (first
    | with_reducible exact h
    | with_reducible assumption
    | with_reducible refine forAll_inv ?_ ?_
    | with_reducible refine touch_inv ?_ 
    | with_reducible refine logEvent_inv ?_ _ _ _ _
    | with_reducible refine jobOfCore_inv ?_ _ _
    | with_reducible refine forAll_inv ?_ _ _
    | with_reducible refine setPend_inv ?_ _ _
    | with_reducible refine State_updWelt_inv ?_ _ _
    | with_reducible refine State_updStream_inv ?_ _ _
    | with_reducible refine State_updSlotOf_inv ?_ _ _ _
    | with_reducible refine StateInv.ite ?_ ?_
    | split
    | intro)

theorem updTx_inv {u : State} (h : StateInv u) (a0 : _) (a1 : _) (a2 : _) (a3 : _) :
    StateInv (updTx a0 a1 a2 a3 u) :=
  inv_of (updTx_within (fun _ m => m) (Within.refl _ _) _ _ _ _) rfl h

theorem applyNak_inv {u : State} (h : StateInv u) (a0 : _) (a1 : _) (a2 : _) :
    StateInv (applyNak a0 a1 a2 u) := by
  unfold applyNak
  try dsimp only
  repeat' (first
    | with_reducible exact h
    | with_reducible assumption
    | with_reducible refine forAll_inv ?_ ?_
    | with_reducible refine updTx_inv ?_ _ _ _ _
    | with_reducible refine failStream_inv ?_ _ _
    | with_reducible refine forAll_inv ?_ _ _
    | with_reducible refine StateInv.ite ?_ ?_
    | split
    | intro)

theorem portDown_inv {u : State} (h : StateInv u) (a0 : _) :
    StateInv (portDown a0 u) :=
  inv_of (portDown_within (fun _ m => m) (Within.refl _ _) _) rfl h

theorem recheck_inv {u : State} (h : StateInv u) : StateInv (recheck u) := by
  refine ⟨h.1, h.pwr, h.boot.1, h.boot.2.1, ?_⟩
  have hb := h.boot.2.2
  show (if u.boot.state = 1 ∨ u.boot.state = 2 then (if _ = 0 then 1 else 2) else u.boot.state) ≤ 3
  repeat' split
  all_goals omega

theorem applyRepair_inv {u : State} (h : StateInv u) (a0 : _) : StateInv (applyRepair a0 u) := by
  have hb : ∀ b : Boot, b.step = u.boot.step → b.state = u.boot.state → StateInv { u with boot := b } := by
    intro b e1 e2
    refine StateInv.set_boot h ?_
    unfold Boot.Ok
    rw [e1, e2]
    exact h.boot
  unfold applyRepair
  dsimp only
  refine StateInv.ite (hb _ rfl rfl) (StateInv.ite ?_ (StateInv.ite ?_ h))
  · refine logEvent_inv (recheck_inv ?_) _ _ _ _
    exact ⟨h.mem, h.pwr, h.boot⟩
  · refine recheck_inv (portDown_inv ?_ _)
    exact ⟨h.mem, h.pwr, h.boot⟩

theorem clearUnits_inv {u : State} (h : StateInv u) (a0 : _) :
    StateInv (clearUnits a0 u) :=
  inv_of (clearUnits_within (fun _ m => m) (Within.refl _ _) _) rfl h

theorem applyRepairs_inv {u : State} (h : StateInv u) (a0 : _) :
    StateInv (applyRepairs a0 u) := by
  unfold applyRepairs
  try dsimp only
  repeat' (first
    | with_reducible exact h
    | with_reducible assumption
    | with_reducible refine forAll_inv ?_ ?_
    | with_reducible refine clearUnits_inv ?_ _
    | with_reducible refine applyRepair_inv ?_ _
    | with_reducible refine forAll_inv ?_ _ _
    | with_reducible refine StateInv.ite ?_ ?_
    | split
    | intro)

theorem applySessionAck_inv {u : State} (h : StateInv u) (a0 : _) (a1 : _) (a2 : _) :
    StateInv (applySessionAck a0 a1 a2 u) :=
  inv_of (applySessionAck_within (fun _ m => m) (Within.refl _ _) _ _ _) rfl h

theorem sendWakes_inv {u : State} (h : StateInv u) (a0 : _) :
    StateInv (sendWakes a0 u) :=
  inv_of (sendWakes_within (fun _ m => m) (Within.refl _ _) _) rfl h

theorem traceTally_inv {u : State} (h : StateInv u) (a0 : _) (a1 : _) (a2 : _) (a3 : _) (a4 : _) (a5 : _) :
    StateInv (traceTally a0 a1 a2 a3 a4 a5 u) :=
  inv_of (traceTally_within (fun _ m => m) (Within.refl _ _) _ _ _ _ _ _) rfl h

theorem checkWatches_inv {u : State} (h : StateInv u) (a0 : _) :
    StateInv (checkWatches a0 u) :=
  inv_of (checkWatches_within (fun _ m => m) (Within.refl _ _) _) rfl h

theorem setTally_inv {u : State} (h : StateInv u) (a0 : _) (a1 : _) :
    StateInv (setTally a0 a1 u) :=
  inv_of (setTally_within (fun _ m => m) (Within.refl _ _) _ _) rfl h

theorem applyTally_inv {u : State} (h : StateInv u) (a0 : _) :
    StateInv (applyTally a0 u) :=
  inv_of (applyTally_within (fun _ m => m) (Within.refl _ _) _) rfl h

theorem moduleReset_inv {u : State} (h : StateInv u) : StateInv (moduleReset u) := by
  refine ⟨memFilter_wf _ h.1, ⟨Nat.le_refl 7, nofun, nofun, Nat.zero_le 4⟩, ?_, ?_, Nat.zero_le 3⟩
  · show 1 ≤ if u.board.perst then 2 else 1
    split <;> decide
  · show (if u.board.perst then 2 else 1) ≤ 11
    split <;> decide

theorem askModuleReset_inv {u : State} (h : StateInv u) :
    StateInv (askModuleReset u) := by
  unfold askModuleReset
  try dsimp only
  repeat' (first
    | with_reducible exact h
    | with_reducible assumption
    | fail_if_no_progress with_reducible refine StateInv.set_board ?_
    | with_reducible refine moduleReset_inv ?_ 
    | with_reducible refine StateInv.ite ?_ ?_)

theorem askPlace_inv {u : State} (h : StateInv u) (a0 : _) (a1 : _) :
    StateInv (askPlace a0 a1 u) :=
  inv_of (askPlace_within (fun _ m => m) (Within.refl _ _) _ _) rfl h

theorem assayClear_inv {u : State} (h : StateInv u) (a0 : _) :
    StateInv (assayClear a0 u) :=
  inv_of (assayClear_within (fun _ m => m) (Within.refl _ _) _) rfl h

theorem setOp_inv {u : State} (h : StateInv u) (a0 : _) (k : a0 ≤ 7) : StateInv (setOp a0 u) :=
  ⟨h.1, ⟨k, h.pwr.2.1, h.pwr.2.2.1, h.pwr.2.2.2⟩, h.boot⟩

/-- A change of the power manager that leaves its four bounded fields legal. -/
theorem inv_pwr {u : State} (h : StateInv u) {p : Power} (h1 : p.op ≤ 7) (h2 : ∀ k, p.stepTo = some k → k ≤ 7)
    (h3 : ∀ k, p.goal = some k → k ≤ 7) (h4 : p.wstate ≤ 4) : StateInv { u with pwr := p } :=
  ⟨h.1, ⟨h1, h2, h3, h4⟩, h.boot⟩

theorem downStep_inv {u : State} (h : StateInv u) : StateInv (downStep u) := by
  unfold downStep
  extract_lets s1 k
  have h1 : StateInv s1 := by
    show StateInv (match u.pwr.stepTo with | some k => if u.pwr.op < k then setOp k u else u | none => u)
    split
    · rename_i e
      exact StateInv.ite (setOp_inv h _ (h.pwr.2.1 _ e)) h
    · exact h
  clear_value s1
  have hk : k ≤ 7 := Nat.min_le_left _ _
  clear_value k
  refine ⟨h1.1, ⟨h1.pwr.1, ?_, ?_, h1.pwr.2.2.2⟩, h1.boot⟩
  · intro j e
    have e : (if k = s1.pwr.op then none else some k) = some j := e
    split at e
    · contradiction
    · cases e; exact hk
  · intro j e
    have e : s1.pwr.goal.filter (fun g => decide (k < g)) = some j := e
    rw [Option.filter_eq_some_iff] at e
    exact h1.pwr.2.2.1 _ e.1

theorem pwrCount_inv {u : State} (h : StateInv u) (a0 : _) : StateInv (pwrCount a0 u) := ⟨h.1, h.pwr, h.boot⟩

theorem excursion_inv {u : State} (h : StateInv u) :
    StateInv (excursion u) := by
  unfold excursion
  try dsimp only
  repeat' (first
    | with_reducible exact h
    | with_reducible assumption
    | with_reducible refine forAll_inv ?_ ?_
    | with_reducible refine pwrCount_inv ?_ _
    | with_reducible refine logMerged_inv ?_ _ _ _ _
    | with_reducible refine forAll_inv ?_ _ _
    | with_reducible refine State_updPart_inv ?_ _ _
    | with_reducible refine StateInv.ite ?_ ?_
    | split
    | intro)

theorem assertSource_inv {u : State} (h : StateInv u) (a0 : _) : StateInv (assertSource a0 u) := by
  have h1 : ∀ x, StateInv { u with pwr := { u.pwr with src := x } } := fun x => ⟨h.1, h.pwr, h.boot⟩
  unfold assertSource
  dsimp only
  refine StateInv.ite (h1 _) (StateInv.ite ?_ (StateInv.ite (downStep_inv (h1 _)) (h1 _)))
  have h2 := downStep_inv (pwrCount_inv (h1 (setBits u.pwr.src a0 a0 1)) 0x020)
  generalize downStep (pwrCount 0x020 { u with pwr := { u.pwr with src := setBits u.pwr.src a0 a0 1 } }) = s2 at h2
  have h3 : StateInv { s2 with pwr := { s2.pwr with lastFast := some s2.tb } } := ⟨h2.1, h2.pwr, h2.boot⟩
  exact StateInv.ite (excursion_inv h3) h3

theorem assignAddr_inv {u : State} (h : StateInv u) (a0 : _) :
    StateInv (assignAddr a0 u) :=
  inv_of (assignAddr_within (fun _ m => m) (Within.refl _ _) _) rfl h

theorem descFault_inv {u : State} (h : StateInv u) (a0 : _) (a1 : _) (a2 : _) (a3 : _) (a4 : _) (a5 : _) :
    StateInv (descFault a0 a1 a2 a3 a4 a5 u) :=
  inv_of (descFault_within (fun _ m => m) (Within.refl _ _) _ _ _ _ _ _) rfl h

theorem assignPacket_inv {u : State} (h : StateInv u) (a0 : _) (a1 : _) :
    ∀ v, assignPacket a0 a1 u = some v → StateInv v.2 := by
  intro v e
  unfold assignPacket at e
  try dsimp only at e
  repeat' split at e
  all_goals (try contradiction)
  all_goals (first | cases e | skip)
  all_goals repeat' (first | with_reducible exact h | with_reducible assumption | with_reducible refine descFault_inv ?_ _ _ _ _ _ _ | with_reducible refine askPlace_inv ?_ _ _ | with_reducible refine noteRead_inv ?_ _ _ | with_reducible refine settleDesc_inv ?_ _ _ | with_reducible refine State_updWelt_inv ?_ _ _ | with_reducible refine State_updStream_inv ?_ _ _ | with_reducible refine State_updSlotOf_inv ?_ _ _ _ | with_reducible refine StateInv.foldl ?_ ?_ | with_reducible refine StateInv.ite ?_ ?_ | split | intro)

theorem lockWire_inv {u : State} (h : StateInv u) :
    StateInv (lockWire u) :=
  inv_of (lockWire_within (fun _ m => m) (Within.refl _ _) ) rfl h

theorem lockup_inv {u : State} (h : StateInv u) (a0 : _) (a1 : _) (a2 : _) (a3 : _) (a4 : _) (a5 : _) :
    StateInv (lockup a0 a1 a2 a3 a4 a5 u) :=
  inv_of (lockup_within (fun _ m => m) (Within.refl _ _) _ _ _ _ _ _) rfl h

theorem enter_inv {u : State} (h : StateInv u) (a0 : _) (a1 : _) (a2 : _) (a3 : _) (a4 : _) (a5 : _) (a6 : _) :
    StateInv (enter a0 a1 a2 a3 a4 a5 a6 u) := by
  unfold enter
  try dsimp only
  repeat' (first
    | with_reducible exact h
    | with_reducible assumption
    | with_reducible refine lockup_inv ?_ _ _ _ _ _ _
    | with_reducible refine trace_inv ?_ _ _ _ _ _ _
    | with_reducible refine write_inv ?_ _ _
    | with_reducible refine State_updCtx_inv ?_ _ _
    | with_reducible refine StateInv.ite ?_ ?_)

theorem haltOn_inv {u : State} (h : StateInv u) (a0 : _) (a1 : _) (a2 : _) (a3 : _) (a4 : _) :
    StateInv (haltOn a0 a1 a2 a3 a4 u) := by
  unfold haltOn
  try dsimp only
  repeat' (first
    | with_reducible exact h
    | with_reducible assumption
    | with_reducible refine jobOfCore_inv ?_ _ _
    | with_reducible refine trace_inv ?_ _ _ _ _ _ _
    | with_reducible refine write_inv ?_ _ _
    | with_reducible refine setPend_inv ?_ _ _
    | with_reducible refine State_updCtx_inv ?_ _ _
    | with_reducible refine State_updCore_inv ?_ _ _
    | with_reducible refine StateInv.ite ?_ ?_)

theorem fault_inv {u : State} (h : StateInv u) (a0 : _) (a1 : _) (a2 : _) (a3 : _) (a4 : _) :
    StateInv (fault a0 a1 a2 a3 a4 u) := by
  unfold fault
  try dsimp only
  repeat' (first
    | with_reducible exact h
    | with_reducible assumption
    | with_reducible refine haltOn_inv ?_ _ _ _ _ _
    | with_reducible refine enter_inv ?_ _ _ _ _ _ _ _
    | with_reducible refine jobOfCore_inv ?_ _ _
    | with_reducible refine StateInv.ite ?_ ?_)

theorem firstIssue_inv {u : State} (h : StateInv u) (a0 : _) :
    StateInv (firstIssue a0 u) :=
  inv_of (firstIssue_within (fun _ m => m) (Within.refl _ _) _) rfl h

theorem issue_inv {u : State} (h : StateInv u)
    {body : State → List Word → List Word → Out} (hb : ∀ v, StateInv v → ∀ a r, StateInv (outState (body v a r)))
    (t : Thread) (op : Nat) (sec : Option Byte) (len : Nat) (sh : Shape) (g : State → Option (Nat × Word)) :
    StateInv (issue t op sec len sh g body u) := by
  have h1 := firstIssue_inv h t
  unfold issue
  dsimp only
  refine StateInv.ite h ?_
  split
  · exact fault_inv h1 _ _ _ _ _
  refine StateInv.ite (fault_inv h1 _ _ _ _ _) ?_
  refine StateInv.ite (fault_inv h1 _ _ _ _ _) ?_
  split
  · exact fault_inv h1 _ _ _ _ _
  split
  · exact fault_inv h1 _ _ _ _ _
  split
  · exact fault_inv (memCont_inv h1 _ _ _) _ _ _ _ _
  have hb := hb (firstIssue t u) h1 (operands (firstIssue t u) t sh.pops) (returns (firstIssue t u) t sh.rpops)
  split <;> rename_i e <;> rw [e] at hb
  · exact complete_inv hb _ _ _ _ _ _ _
  · exact State_updCtx_inv hb _ _
  · exact fault_inv hb _ _ _ _ _
  · exact hb

theorem pushes_inv {u : State} (h : StateInv u) (a1 : _) :
    StateInv (outState (pushes u a1)) :=
  inv_of (pushes_within (fun _ m => m) (Within.refl _ _) _) rfl h

theorem asyw_inv {u : State} (h : StateInv u) (a0 : _) :
    StateInv (asyw a0 u) := by
  unfold asyw
  try dsimp only
  repeat' (first
    | with_reducible exact h
    | with_reducible assumption
    | with_reducible refine pushes_inv ?_ _
    | refine StateInv.of_ok (by assumption) (pushes_inv ?_ _)
    | refine StateInv.of_held (by assumption) (pushes_inv ?_ _)
    | refine StateInv.of_exc (by assumption) (pushes_inv ?_ _)
    | refine StateInv.of_done (by assumption) (pushes_inv ?_ _)
    | with_reducible refine issue_inv ?_ ?_ _ _ _ _ _ _
    | with_reducible refine State_updBench_inv ?_ _ _
    | with_reducible refine StateInv.out_ok ?_
    | with_reducible refine StateInv.out_held ?_
    | with_reducible refine StateInv.out_exc ?_
    | with_reducible refine StateInv.out_done ?_
    | with_reducible refine StateInv.ite ?_ ?_
    | split
    | intro)

theorem atX_inv {u : State} (h : StateInv u) (a0 : _) (a1 : _) :
    StateInv (atX a0 a1 u) :=
  inv_of (atX_within (fun _ m => m) (Within.refl _ _) _ _) rfl h

theorem attach_inv {u : State} (h : StateInv u) (a0 : _) (a1 : _) :
    StateInv (attach a0 a1 u) :=
  inv_of (attach_within (fun _ m => m) (Within.refl _ _) _ _) rfl h

theorem putAttest_inv {u : State} (h : StateInv u) (a0 : _) (a1 : _) :
    StateInv (putAttest a0 a1 u) :=
  inv_of (putAttest_within (fun _ m => m) (Within.refl _ _) _ _) rfl h

theorem attestationSigned_inv {u : State} (h : StateInv u) (a0 : _) :
    StateInv (attestationSigned a0 u) :=
  inv_of (attestationSigned_within (fun _ m => m) (Within.refl _ _) _) rfl h

theorem completeRead_inv {u : State} (h : StateInv u) (a0 : _) (a1 : _) (a2 : _) (a3 : _) (a4 : _) :
    StateInv (completeRead a0 a1 a2 a3 a4 u) :=
  inv_of (completeRead_within (fun _ m => m) (Within.refl _ _) _ _ _ _ _) rfl h

theorem freshSerial_inv {u : State} (h : StateInv u) :
    StateInv (freshSerial u).2 :=
  inv_of (freshSerial_within (fun _ m => m) (Within.refl _ _) ) rfl h

theorem hostAccess_inv {u : State} (h : StateInv u) (a0 : _) :
    StateInv (hostAccess a0 u) :=
  inv_of (hostAccess_within (fun _ m => m) (Within.refl _ _) _) rfl h

theorem writePieces_inv {u : State} (h : StateInv u) (a0 : _) (a1 : _) (a2 : _) (a3 : _) (a4 : _) :
    StateInv (writePieces a0 a1 a2 a3 a4 u) :=
  inv_of (writePieces_within (fun _ m => m) (Within.refl _ _) _ _ _ _ _) rfl h

theorem bar2Access_inv {u : State} (h : StateInv u) (a0 : _) (a1 : _) (a2 : _) :
    StateInv (bar2Access a0 a1 a2 u) := by
  unfold bar2Access
  try dsimp only
  repeat' (first
    | with_reducible exact h
    | with_reducible assumption
    | fail_if_no_progress with_reducible refine StateInv.set_fmn ?_
    | with_reducible refine writePieces_inv ?_ _ _ _ _ _
    | with_reducible refine hostAccess_inv ?_ _
    | with_reducible refine freshSerial_inv ?_ 
    | refine StateInv.snd (by assumption) (freshSerial_inv ?_ )
    | with_reducible refine completeRead_inv ?_ _ _ _ _ _
    | with_reducible refine hostEvent_inv ?_ _ _ _ _
    | with_reducible refine wake_inv ?_ 
    | with_reducible refine StateInv.ite ?_ ?_)

theorem dropRead_inv {u : State} (h : StateInv u) (a0 : _) :
    StateInv (dropRead a0 u) :=
  inv_of (dropRead_within (fun _ m => m) (Within.refl _ _) _) rfl h

theorem bar2Timeout_inv {u : State} (h : StateInv u) (a0 : _) (a1 : _) :
    StateInv (bar2Timeout a0 a1 u) :=
  inv_of (bar2Timeout_within (fun _ m => m) (Within.refl _ _) _ _) rfl h

theorem tbLatch_inv {u : State} (h : StateInv u) (a0 : _) :
    StateInv (tbLatch a0 u) :=
  inv_of (tbLatch_within (fun _ m => m) (Within.refl _ _) _) rfl h

theorem bar4Access_inv {u : State} (h : StateInv u) (a0 : _) (a1 : _) :
    StateInv (bar4Access a0 a1 u) :=
  inv_of (bar4Access_within (fun _ m => m) (Within.refl _ _) _ _) rfl h

theorem beatAll_inv {u : State} (h : StateInv u) {f : Nat → State → TileOp → Beat}
    (hf : ∀ i v o, StateInv v → StateInv (beatState (f i v o))) (l : List Nat) (o : TileOp) :
    StateInv (beatState (beatAll f l u o)) := by
  induction l generalizing u o with
  | nil => exact h
  | cons i r ih =>
    unfold beatAll
    have h1 := hf i u o h
    split
    · rename_i e; rw [e] at h1; exact ih h1 _
    · rename_i b _; revert h1; intro h1; exact h1

theorem convLoad_inv {u : State} (h : StateInv u) (a0 : _) (a2 : _) :
    StateInv (beatState (convLoad a0 u a2)) :=
  inv_of (convLoad_within (fun _ m => m) (Within.refl _ _) _ _) rfl h

theorem convStore_inv {u : State} (h : StateInv u) (a0 : _) (a2 : _) :
    StateInv (beatState (convStore a0 u a2)) := by
  unfold convStore
  try dsimp only
  repeat' (first
    | with_reducible exact h
    | with_reducible assumption
    | with_reducible refine write_inv ?_ _ _
    | with_reducible refine StateInv.mk_beat_ok ?_
    | with_reducible refine StateInv.mk_beat_fault ?_
    | with_reducible refine StateInv.foldl ?_ ?_
    | with_reducible refine StateInv.ite ?_ ?_
    | split)

theorem fmaBeat_inv {u : State} (h : StateInv u) (a0 : _) (a2 : _) :
    StateInv (beatState (fmaBeat a0 u a2)) :=
  inv_of (fmaBeat_within (fun _ m => m) (Within.refl _ _) _ _) rfl h

theorem lanewiseRow_inv {u : State} (h : StateInv u) (a0 : _) (a1 : _) (a3 : _) :
    StateInv (beatState (lanewiseRow a0 a1 u a3)) :=
  inv_of (lanewiseRow_within (fun _ m => m) (Within.refl _ _) _ _ _) rfl h

theorem loadRow_inv {u : State} (h : StateInv u) (a0 : _) (a1 : _) (a2 : _) (a4 : _) :
    StateInv (beatState (loadRow a0 a1 a2 u a4)) :=
  inv_of (loadRow_within (fun _ m => m) (Within.refl _ _) _ _ _ _) rfl h

theorem qntRow_inv {u : State} (h : StateInv u) (a0 : _) (a1 : _) (a3 : _) :
    StateInv (beatState (qntRow a0 a1 u a3)) :=
  inv_of (qntRow_within (fun _ m => m) (Within.refl _ _) _ _ _) rfl h

theorem reduceRow_inv {u : State} (h : StateInv u) (a0 : _) (a1 : _) (a3 : _) :
    StateInv (beatState (reduceRow a0 a1 u a3)) :=
  inv_of (reduceRow_within (fun _ m => m) (Within.refl _ _) _ _ _) rfl h

theorem storeRow_inv {u : State} (h : StateInv u) (a0 : _) (a1 : _) (a2 : _) (a4 : _) :
    StateInv (beatState (storeRow a0 a1 a2 u a4)) := by
  unfold storeRow
  try dsimp only
  repeat' (first
    | with_reducible exact h
    | with_reducible assumption
    | with_reducible refine write_inv ?_ _ _
    | with_reducible refine StateInv.mk_beat_ok ?_
    | with_reducible refine StateInv.mk_beat_fault ?_
    | with_reducible refine StateInv.ite ?_ ?_
    | split)

theorem tcvtRow_inv {u : State} (h : StateInv u) (a0 : _) (a1 : _) (a3 : _) :
    StateInv (beatState (tcvtRow a0 a1 u a3)) :=
  inv_of (tcvtRow_within (fun _ m => m) (Within.refl _ _) _ _ _) rfl h

theorem transLoad_inv {u : State} (h : StateInv u) (a0 : _) (a1 : _) (a3 : _) :
    StateInv (beatState (transLoad a0 a1 u a3)) :=
  inv_of (transLoad_within (fun _ m => m) (Within.refl _ _) _ _ _) rfl h

theorem transStore_inv {u : State} (h : StateInv u) (a0 : _) (a1 : _) (a3 : _) :
    StateInv (beatState (transStore a0 a1 u a3)) := by
  unfold transStore
  try dsimp only
  repeat' (first
    | with_reducible exact h
    | with_reducible assumption
    | with_reducible refine write_inv ?_ _ _
    | with_reducible refine StateInv.mk_beat_ok ?_
    | with_reducible refine StateInv.mk_beat_fault ?_
    | with_reducible refine StateInv.foldl ?_ ?_
    | with_reducible refine StateInv.ite ?_ ?_
    | split
    | intro)

theorem beatOf_inv {u : State} (h : StateInv u) (a0 : _) (a2 : _) :
    StateInv (beatState (beatOf a0 u a2)) := by
  unfold beatOf
  dsimp only
  generalize a2.op = x
  cases x <;> dsimp only <;> first
    | exact StateInv.mk_beat_ok h
    | with_reducible exact accrdRow_inv h _ _ _
    | with_reducible exact tcvtRow_inv h _ _ _
    | with_reducible exact qntRow_inv h _ _ _
    | with_reducible exact lanewiseRow_inv h _ _ _
    | with_reducible exact reduceRow_inv h _ _ _
    | with_reducible exact actRow_inv h _ _ _
    | with_reducible exact fmaBeat_inv h _ _
    | with_reducible exact convLoad_inv h _ _
    | with_reducible exact convStore_inv h _ _
    | with_reducible exact beatAll_inv h (fun _ _ _ hv => loadRow_inv hv _ _ _ _) _ _
    | with_reducible exact beatAll_inv h (fun _ _ _ hv => storeRow_inv hv _ _ _ _) _ _
    | with_reducible exact beatAll_inv h (fun _ _ _ hv => transLoad_inv hv _ _ _) _ _
    | with_reducible exact beatAll_inv h (fun _ _ _ hv => transStore_inv hv _ _ _) _ _
    | with_reducible exact beatAll_inv h (fun _ _ _ hv => actLoad_inv hv _ _ _) _ _

theorem beginPacket_inv {u : State} (h : StateInv u) (a0 : _) (a1 : _) (a2 : _) :
    StateInv (beginPacket a0 a1 a2 u) :=
  inv_of (beginPacket_within (fun _ m => m) (Within.refl _ _) _ _ _) rfl h

theorem beginRamp_inv {u : State} (h : StateInv u) (a0 : _) (a1 : _) (a2 : _) :
    StateInv (beginRamp a0 a1 a2 u) :=
  inv_of (beginRamp_within (fun _ m => m) (Within.refl _ _) _ _ _) rfl h

theorem beginReset_inv {u : State} (h : StateInv u) (a0 : _) (a1 : _) :
    StateInv (beginReset a0 a1 u) :=
  inv_of (beginReset_within (fun _ m => m) (Within.refl _ _) _ _) rfl h

theorem beginTally_inv {u : State} (h : StateInv u) (a0 : _) (a1 : _) (a2 : _) :
    StateInv (outState (beginTally a0 a1 a2 u)) :=
  inv_of (beginTally_within (fun _ m => m) (Within.refl _ _) _ _ _) rfl h

theorem pvselWrite_inv {u : State} (h : StateInv u) (a0 : _) (a1 : _) (a2 : _) :
    StateInv (pvselWrite a0 a1 a2 u) :=
  inv_of (pvselWrite_within (fun _ m => m) (Within.refl _ _) _ _ _) rfl h

theorem disarm_inv {u : State} (h : StateInv u) (a0 : _) (a1 : _) :
    StateInv (disarm a0 a1 u) :=
  inv_of (disarm_within (fun _ m => m) (Within.refl _ _) _ _) rfl h

theorem queueWrite_inv {u : State} (h : StateInv u) (a0 : _) (a1 : _) (a2 : _) (a3 : _) :
    StateInv (queueWrite a0 a1 a2 a3 u) :=
  inv_of (queueWrite_within (fun _ m => m) (Within.refl _ _) _ _ _ _) rfl h

theorem rngAdd_inv {u : State} (h : StateInv u) (a0 : _) (a1 : _) :
    StateInv (rngAdd a0 a1 u) :=
  inv_of (rngAdd_within (fun _ m => m) (Within.refl _ _) _ _) rfl h

theorem rngResult_inv {u : State} (h : StateInv u) (a0 : _) (a1 : _) (a2 : _) :
    StateInv (rngResult a0 a1 a2 u) :=
  inv_of (rngResult_within (fun _ m => m) (Within.refl _ _) _ _ _) rfl h

theorem rngSweep_inv {u : State} (h : StateInv u) (a0 : _) (a1 : _) (a2 : _) :
    StateInv (rngSweep a0 a1 a2 u) :=
  inv_of (rngSweep_within (fun _ m => m) (Within.refl _ _) _ _ _) rfl h

theorem zeroWays_inv {u : State} (h : StateInv u) (a0 : _) (a1 : _) (a2 : _) : StateInv (zeroWays a0 a1 a2 u) :=
  ⟨memFilter_wf _ h.1, h.pwr, h.boot⟩

theorem waysEnd_inv {u : State} (h : StateInv u) (a0 : _) (a1 : _) (a2 : _) :
    StateInv (waysEnd a0 a1 a2 u) := by
  unfold waysEnd
  try dsimp only
  repeat' (first
    | with_reducible exact h
    | with_reducible assumption
    | with_reducible refine zeroWays_inv ?_ _ _ _
    | with_reducible refine State_updBench_inv ?_ _ _
    | with_reducible refine StateInv.ite ?_ ?_)

theorem rngComplete_inv {u : State} (h : StateInv u) (a0 : _) :
    StateInv (rngComplete a0 u) := by
  unfold rngComplete
  try dsimp only
  repeat' (first
    | with_reducible exact h
    | with_reducible assumption
    | with_reducible refine waysEnd_inv ?_ _ _ _
    | with_reducible refine rngSweep_inv ?_ _ _ _
    | with_reducible refine rngResult_inv ?_ _ _ _
    | with_reducible refine rngAdd_inv ?_ _ _
    | with_reducible refine StateInv.ite ?_ ?_
    | split)

theorem rngAbort_inv {u : State} (h : StateInv u) (a0 : _) :
    StateInv (rngAbort a0 u) := by
  unfold rngAbort
  try dsimp only
  repeat' (first
    | with_reducible exact h
    | with_reducible assumption
    | with_reducible refine rngComplete_inv ?_ _
    | with_reducible refine rngSweep_inv ?_ _ _ _
    | with_reducible refine rngResult_inv ?_ _ _ _
    | with_reducible refine State_updBench_inv ?_ _ _
    | with_reducible refine StateInv.ite ?_ ?_
    | split)

theorem rngGo_inv {u : State} (h : StateInv u) (a0 : _) :
    StateInv (rngGo a0 u) :=
  inv_of (rngGo_within (fun _ m => m) (Within.refl _ _) _) rfl h

theorem rngWrite_inv {u : State} (h : StateInv u) (a0 : _) (a1 : _) :
    StateInv (rngWrite a0 a1 u) := by
  unfold rngWrite
  try dsimp only
  repeat' (first
    | with_reducible exact h
    | with_reducible assumption
    | with_reducible refine rngGo_inv ?_ _
    | with_reducible refine rngAbort_inv ?_ _
    | with_reducible refine State_updBench_inv ?_ _ _
    | with_reducible refine StateInv.ite ?_ ?_)

theorem benchWrite_inv {u : State} (h : StateInv u) (a0 : _) (a1 : _) (a2 : _) (a3 : _) :
    StateInv (benchWrite a0 a1 a2 a3 u) := by
  unfold benchWrite
  try dsimp only
  repeat' (first
    | with_reducible exact h
    | with_reducible assumption
    | with_reducible refine rngWrite_inv ?_ _ _
    | with_reducible refine queueWrite_inv ?_ _ _ _ _
    | with_reducible refine pvselWrite_inv ?_ _ _ _
    | with_reducible refine assayClear_inv ?_ _
    | with_reducible refine State_updBench_inv ?_ _ _
    | with_reducible refine StateInv.ite ?_ ?_)

theorem stopAtBoundary_inv {u : State} (h : StateInv u) (a0 : _) :
    StateInv (stopAtBoundary a0 u) := by
  unfold stopAtBoundary
  try dsimp only
  repeat' (first
    | with_reducible exact h
    | with_reducible assumption
    | with_reducible refine stopNow_inv ?_ _
    | with_reducible refine faultJobs_inv ?_ _
    | with_reducible refine StateInv.ite ?_ ?_)

end Sys2Proof.Laws
end

