-- ==== Sys2Proof/Laws/Invariant2.lean ====
section
/-! SUPPORT. Every operation keeps the invariant. -/

namespace Sys2Proof.Laws
open Sys2Proof Sys2Proof.Machine

set_option linter.unusedTactic false
set_option linter.unreachableTactic false
set_option linter.unusedVariables false

theorem stopPart_inv {u : State} (h : StateInv u) (a0 : _) (a1 : _) :
    StateInv (stopPart a0 a1 u) := by
  unfold stopPart
  try dsimp only
  repeat' (first
    | with_reducible exact h
    | with_reducible assumption
    | with_reducible refine stopAtBoundary_inv ?_ _
    | with_reducible refine stopNow_inv ?_ _
    | with_reducible refine StateInv.ite ?_ ?_
    | split)

theorem setRec_inv {u : State} (h : StateInv u) (a0 : _) (a1 : _) : StateInv (setRec a0 a1 u) := ⟨h.1, h.pwr, h.boot⟩

theorem changeRec_inv {u : State} (h : StateInv u) (a0 : _) (a1 : _) (a2 : _) :
    StateInv (changeRec a0 a1 a2 u) := by
  unfold changeRec
  try dsimp only
  repeat' (first
    | with_reducible exact h
    | with_reducible assumption
    | with_reducible refine setRec_inv ?_ _ _
    | with_reducible refine logEvent_inv ?_ _ _ _ _)

theorem writeRepair_inv {u : State} (h : StateInv u) (a0 : _) (a1 : _) :
    StateInv (writeRepair a0 a1 u).2 := by
  unfold writeRepair
  try dsimp only
  repeat' (first
    | with_reducible exact h
    | with_reducible assumption
    | with_reducible refine changeRec_inv ?_ _ _ _
    | with_reducible refine StateInv.ite ?_ ?_
    | split)

theorem lastingFault_inv {u : State} (h : StateInv u) (a0 : _) (a1 : _) (a2 : _) :
    StateInv (lastingFault a0 a1 a2 u) := by
  unfold lastingFault
  try dsimp only
  repeat' (first
    | with_reducible exact h
    | with_reducible assumption
    | fail_if_no_progress with_reducible refine StateInv.set_faults ?_
    | with_reducible refine writeRepair_inv ?_ _ _
    | refine StateInv.snd (by assumption) (writeRepair_inv ?_ _ _)
    | with_reducible refine stopPart_inv ?_ _ _
    | with_reducible refine logEvent_inv ?_ _ _ _ _)

theorem countEvent_inv {u : State} (h : StateInv u) (a0 : _) (a1 : _) (a2 : _) :
    StateInv (countEvent a0 a1 a2 u) := by
  unfold countEvent
  try dsimp only
  repeat' (first
    | with_reducible exact h
    | with_reducible assumption
    | fail_if_no_progress with_reducible refine StateInv.set_faults ?_
    | with_reducible refine lastingFault_inv ?_ _ _ _
    | with_reducible refine StateInv.ite ?_ ?_)

theorem putMap_inv {u : State} (h : StateInv u) (a0 : _) : StateInv (putMap a0 u) := ⟨h.1, h.pwr, h.boot⟩

theorem startFail_inv {u : State} (h : StateInv u) (a0 : _) : StateInv (startFail a0 u) :=
  ⟨h.1, h.pwr, h.boot.1, h.boot.2.1, Nat.le_refl 3⟩

theorem toStep_inv {u : State} (h : StateInv u) (a0 : _) (h1 : 1 ≤ a0) (h2 : a0 ≤ 11) : StateInv (toStep a0 u) :=
  ⟨h.1, h.pwr, h1, h2, h.boot.2.2⟩

theorem bist_inv {u : State} (h : StateInv u) (a0 : _) : StateInv (bist a0 u) := by
  have hl : ∀ {α : Type} (l : List α) (f : α → State → State) (v : State), StateInv v →
      (∀ a w, StateInv w → StateInv (f a w)) → StateInv (forAll l f v) := fun l f v hv hf => forAll_inv hv hf
  unfold bist
  dsimp only
  refine StateInv.ite (startFail_inv ?_ _) (toStep_inv ?_ _ (by decide) (by decide)) <;>
  · refine hl _ _ _ (hl _ _ _ (hl _ _ _ (hl _ _ _ (putMap_inv ?_ _) ?_) ?_) ?_) ?_
    · exact ⟨h.1, h.pwr, h.boot⟩
    · intro e v hv; split
      · exact countEvent_inv hv _ _ _
      · exact hv
    · intro e v hv; split
      · exact countEvent_inv hv _ _ _
      · exact hv
    · intro e v hv; exact countEvent_inv hv _ _ _
    · intro e v hv; exact countEvent_inv hv _ _ _

theorem collectRng_inv {u : State} (h : StateInv u) (a0 : _) :
    StateInv (collectRng a0 u) :=
  inv_of (collectRng_within (fun _ m => m) (Within.refl _ _) _) rfl h

theorem blkRead32_inv {u : State} (h : StateInv u) (a0 : _) (a1 : _) :
    StateInv (blkRead32 a0 a1 u).1 :=
  inv_of (blkRead32_within (fun _ m => m) (Within.refl _ _) _ _) rfl h

theorem blkWrite_inv {u : State} (h : StateInv u) (a0 : _) (a1 : _) (a2 : _) : StateInv (blkWrite a0 a1 a2 u) := by
  unfold blkWrite
  dsimp only
  split
  · exact benchWrite_inv h _ _ _ _
  · exact StateInv.ite (State_updPort_inv h _ _) h
  · exact StateInv.ite (State_updWelt_inv h _ _) h
  · exact StateInv.ite ⟨h.mem, h.pwr, h.boot⟩ h
  · exact StateInv.ite ⟨h.mem, h.pwr, h.boot⟩ h
  · exact h
  · exact h
  · exact h

theorem blkStore_inv {u : State} (h : StateInv u) (a0 : _) (a1 : _) (a2 : _) :
    StateInv (blkStore a0 a1 a2 u) := by
  unfold blkStore
  try dsimp only
  repeat' (first
    | with_reducible exact h
    | with_reducible assumption
    | with_reducible refine blkWrite_inv ?_ _ _ _
    | with_reducible refine StateInv.ite ?_ ?_)

theorem breakQueue_inv {u : State} (h : StateInv u) (a0 : _) :
    StateInv (breakQueue a0 u) :=
  inv_of (breakQueue_within (fun _ m => m) (Within.refl _ _) _) rfl h

theorem setEntry_inv {u : State} (h : StateInv u) (a0 : _) (a1 : _) (a2 : _) :
    StateInv (setEntry a0 a1 a2 u) :=
  inv_of (setEntry_within (fun _ m => m) (Within.refl _ _) _ _ _) rfl h

theorem writePath_inv {u : State} (h : StateInv u) (a0 : _) (a1 : _) (a2 : _) (a3 : _) (a4 : _) :
    StateInv (writePath a0 a1 a2 a3 a4 u) :=
  inv_of (writePath_within (fun _ m => m) (Within.refl _ _) _ _ _ _ _) rfl h

theorem cutPath_inv {u : State} (h : StateInv u) (a0 : _) (a1 : _) (a2 : _) (a3 : _) (a4 : _) :
    ∀ v, cutPath a0 a1 a2 a3 a4 u = .ok v → StateInv v.2 := by
  intro v e
  unfold cutPath at e
  try dsimp only at e
  repeat' split at e
  all_goals (try contradiction)
  all_goals (first | cases e | skip)
  all_goals repeat' (first | with_reducible exact h | with_reducible assumption | fail_if_no_progress with_reducible refine StateInv.set_clicker ?_ | with_reducible refine writePath_inv ?_ _ _ _ _ _ | with_reducible refine setConn_inv ?_ _ _ _ | with_reducible refine StateInv.ite ?_ ?_ | split | intro)

theorem putCores_inv {u : State} (h : StateInv u) (a0 : _) (a1 : _) :
    StateInv (putCores a0 a1 u) :=
  inv_of (putCores_within (fun _ m => m) (Within.refl _ _) _ _) rfl h

theorem putReloc_inv {u : State} (h : StateInv u) (a0 : _) (a1 : _) :
    StateInv (putReloc a0 a1 u) :=
  inv_of (putReloc_within (fun _ m => m) (Within.refl _ _) _ _) rfl h

theorem putSrconns_inv {u : State} (h : StateInv u) (a0 : _) (a1 : _) :
    StateInv (putSrconns a0 a1 u) :=
  inv_of (putSrconns_within (fun _ m => m) (Within.refl _ _) _ _) rfl h

theorem putPackage_inv {u : State} (h : StateInv u) (a0 : _) (a1 : _) :
    StateInv (putPackage a0 a1 u) :=
  inv_of (putPackage_within (fun _ m => m) (Within.refl _ _) _ _) rfl h

theorem installFresh_inv {u : State} (h : StateInv u) (a0 : _) (a1 : _) :
    StateInv (installFresh a0 a1 u) := by
  unfold installFresh
  try dsimp only
  repeat' (first
    | with_reducible exact h
    | with_reducible assumption
    | fail_if_no_progress with_reducible refine StateInv.set_clicker ?_
    | with_reducible refine forAll_inv ?_ ?_
    | with_reducible refine putPackage_inv ?_ _ _
    | refine cutPath_inv ?_ _ _ _ _ _ (_, _) (by assumption)
    | refine cutPath_inv ?_ _ _ _ _ _ _ (by assumption)
    | with_reducible refine setEntry_inv ?_ _ _ _
    | with_reducible refine queueWrite_inv ?_ _ _ _ _
    | with_reducible refine setConn_inv ?_ _ _ _
    | with_reducible refine write_inv ?_ _ _
    | with_reducible refine forAll_inv ?_ _ _
    | with_reducible refine State_updPart_inv ?_ _ _
    | with_reducible refine State_updCore_inv ?_ _ _
    | with_reducible refine State_updBench_inv ?_ _ _
    | with_reducible refine StateInv.ite ?_ ?_
    | split
    | intro)

theorem restoreImage_inv (a0 : _) (a1 : _) (a2 : Nat × State) (h : StateInv a2.2) : StateInv (restoreImage a0 a1 a2).2 :=
  inv_of (restoreImage_within (fun _ m => m) _ _ _ (Within.refl _ _)) rfl h

theorem restoreImages_inv {u : State} (h : StateInv u) (a0 : _) (a1 : _) :
    StateInv (restoreImages a0 a1 u) :=
  inv_of (restoreImages_within (fun _ m => m) (Within.refl _ _) _ _) rfl h

theorem restoreProg_inv {u : State} (h : StateInv u) (a0 : _) (a1 : _) (a2 : _) :
    StateInv (restoreProg a0 a1 a2 u) := by
  unfold restoreProg
  try dsimp only
  repeat' (first
    | with_reducible exact h
    | with_reducible assumption
    | fail_if_no_progress with_reducible refine StateInv.set_clicker ?_
    | with_reducible refine forAll_inv ?_ ?_
    | with_reducible refine restoreImages_inv ?_ _ _
    | with_reducible refine putPackage_inv ?_ _ _
    | with_reducible refine write_inv ?_ _ _
    | with_reducible refine forAll_inv ?_ _ _
    | with_reducible refine ringPut_inv ?_ _ _ _
    | with_reducible refine State_updPart_inv ?_ _ _
    | with_reducible refine State_updCtx_inv ?_ _ _
    | with_reducible refine State_updBench_inv ?_ _ _
    | with_reducible refine StateInv.ite ?_ ?_
    | split
    | intro)

theorem bringIn_inv {u : State} (h : StateInv u) (a0 : _) (a1 : _) :
    StateInv (bringIn a0 a1 u) := by
  unfold bringIn
  try dsimp only
  repeat' (first
    | with_reducible exact h
    | with_reducible assumption
    | with_reducible refine restoreProg_inv ?_ _ _ _
    | with_reducible refine installFresh_inv ?_ _ _
    | with_reducible refine StateInv.ite ?_ ?_
    | split)

theorem bufferLine_inv {u : State} (h : StateInv u) (a0 : _) (a1 : _) :
    StateInv (bufferLine a0 a1 u) :=
  inv_of (bufferLine_within (fun _ m => m) (Within.refl _ _) _ _) rfl h

theorem cobble_inv {u : State} (h : StateInv u) : StateInv (cobble u).2 := by
  unfold cobble
  split
  · exact h
  · rename_i m _
    have h1 := putMap_inv h m
    generalize putMap m u = v at h1
    exact ⟨h1.1, h1.pwr, h1.boot⟩

theorem buildMap_inv {u : State} (h : StateInv u) : StateInv (buildMap u) := by
  have hc := cobble_inv h
  unfold buildMap
  generalize cobble u = p at hc
  obtain ⟨b, s1⟩ := p
  cases b
  · exact startFail_inv hc _
  · exact toStep_inv (clearUnits_inv hc _) _ (by decide) (by decide)

theorem cabort_inv {u : State} (h : StateInv u) (a0 : _) :
    StateInv (cabort a0 u) := by
  unfold cabort
  try dsimp only
  repeat' (first
    | with_reducible exact h
    | with_reducible assumption
    | with_reducible refine pushes_inv ?_ _
    | refine StateInv.of_ok (by assumption) (pushes_inv ?_ _)
    | refine StateInv.of_held (by assumption) (pushes_inv ?_ _)
    | refine StateInv.of_exc (by assumption) (pushes_inv ?_ _)
    | refine StateInv.of_done (by assumption) (pushes_inv ?_ _)
    | with_reducible refine issue_inv ?_ ?_ _ _ _ _ _ _
    | with_reducible refine channelDrain_inv ?_ _ _
    | with_reducible refine abortChan_inv ?_ _ _
    | with_reducible refine State_updChanOf_inv ?_ _ _ _
    | with_reducible refine StateInv.out_ok ?_
    | with_reducible refine StateInv.out_held ?_
    | with_reducible refine StateInv.out_exc ?_
    | with_reducible refine StateInv.out_done ?_
    | with_reducible refine StateInv.ite ?_ ?_
    | split
    | intro)

theorem dropLine_inv {u : State} (h : StateInv u) (a0 : _) (a1 : _) :
    StateInv (dropLine a0 a1 u) :=
  inv_of (dropLine_within (fun _ m => m) (Within.refl _ _) _ _) rfl h

theorem startFill_inv {u : State} (h : StateInv u) (a0 : _) (a1 : _) :
    StateInv (startFill a0 a1 u) :=
  inv_of (startFill_within (fun _ m => m) (Within.refl _ _) _ _) rfl h

theorem cachedLoad_inv {u : State} (h : StateInv u) (a0 : _) (a1 : _) (a2 : _) :
    StateInv (cachedLoad a0 a1 a2 u).2 :=
  inv_of (cachedLoad_within (fun _ m => m) (Within.refl _ _) _ _ _) rfl h

theorem countMerge_inv {u : State} (h : StateInv u) (a0 : _) (a1 : _) (a2 : _) :
    StateInv (countMerge a0 a1 a2 u) :=
  inv_of (countMerge_within (fun _ m => m) (Within.refl _ _) _ _ _) rfl h

theorem overFills_inv {u : State} (h : StateInv u) (a0 : _) (a1 : _) (a2 : _) :
    StateInv (overFills a0 a1 a2 u) :=
  inv_of (overFills_within (fun _ m => m) (Within.refl _ _) _ _ _) rfl h

theorem storeLine_inv {u : State} (h : StateInv u) (a0 : _) (a1 : _) (a2 : _) :
    StateInv (storeLine a0 a1 a2 u) :=
  inv_of (storeLine_within (fun _ m => m) (Within.refl _ _) _ _ _) rfl h

theorem cachedStore_inv {u : State} (h : StateInv u) (a0 : _) (a1 : _) (a2 : _) :
    ∀ v, cachedStore a0 a1 a2 u = some v → StateInv v := by
  intro v e
  unfold cachedStore at e
  try dsimp only at e
  repeat' split at e
  all_goals (try contradiction)
  all_goals (first | cases e | skip)
  all_goals repeat' (first | with_reducible exact h | with_reducible assumption | with_reducible refine storeLine_inv ?_ _ _ _ | with_reducible refine overFills_inv ?_ _ _ _ | with_reducible refine countMerge_inv ?_ _ _ _ | with_reducible refine freshSerial_inv ?_  | refine StateInv.snd (by assumption) (freshSerial_inv ?_ ) | with_reducible refine State_updBench_inv ?_ _ _ | with_reducible refine StateInv.ite ?_ ?_ | split | intro)

theorem releaseSource_inv {u : State} (h : StateInv u) (a0 : _) : StateInv (releaseSource a0 u) := ⟨h.1, h.pwr, h.boot⟩

theorem endPulse_inv {u : State} (h : StateInv u) :
    StateInv (endPulse u) := by
  unfold endPulse
  try dsimp only
  repeat' (first
    | with_reducible exact h
    | with_reducible assumption
    | with_reducible refine releaseSource_inv ?_ _
    | with_reducible refine StateInv.ite ?_ ?_)

theorem capStep_inv {u : State} (h : StateInv u) (a0 : _) (a1 : _) : StateInv (capStep a0 a1 u) := by
  have hop := h.pwr.1
  have hs : ∀ k v, k ≤ 7 → StateInv v → StateInv { v with pwr := { v.pwr with stepTo := some k } } := by
    intro k v hk hv
    exact inv_pwr hv hv.pwr.1 (by intro j e; cases e; exact hk) hv.pwr.2.2.1 hv.pwr.2.2.2
  unfold capStep
  extract_lets k step rested
  have hs : ∀ k v, k ≤ 7 → StateInv v → StateInv (step k v) := hs
  have hk : k ≤ 7 := hop
  clear_value k step rested
  refine StateInv.ite (StateInv.ite (endPulse_inv (assertSource_inv h _)) (StateInv.ite (hs _ _ (by omega) h) h)) ?_
  refine StateInv.ite ?_ (StateInv.ite (hs _ _ (by omega) h) h)
  by_cases hk : k < 7
  · rw [if_pos hk]; exact hs (k + 1) _ (by omega) ⟨h.1, h.pwr, h.boot⟩
  · rw [if_neg hk]; exact h

theorem capStop_inv {u : State} (h : StateInv u) (a0 : _) :
    StateInv (capStop a0 u) := by
  unfold capStop
  try dsimp only
  repeat' (first
    | with_reducible exact h
    | with_reducible assumption
    | with_reducible refine jobEnd_inv ?_ _ _ _
    | with_reducible refine State_updPart_inv ?_ _ _
    | with_reducible refine StateInv.ite ?_ ?_)

theorem capTick_inv {u : State} (h : StateInv u) (a0 : _) (a1 : _) (a2 : _) (a3 : _) : StateInv (capTick a0 a1 a2 a3 u) := by
  have h1 : StateInv { u with pwr := { u.pwr with vin := a0, iin := a1, pin := a2, tmax := a3, lastTick := some u.tb } } :=
    ⟨h.1, h.pwr, h.boot⟩
  unfold capTick
  exact StateInv.ite h (StateInv.ite (capStep_inv h1 _ _) h1)

theorem cclose_inv {u : State} (h : StateInv u) (a0 : _) :
    StateInv (cclose a0 u) := by
  unfold cclose
  try dsimp only
  repeat' (first
    | with_reducible exact h
    | with_reducible assumption
    | with_reducible refine pushes_inv ?_ _
    | refine StateInv.of_ok (by assumption) (pushes_inv ?_ _)
    | refine StateInv.of_held (by assumption) (pushes_inv ?_ _)
    | refine StateInv.of_exc (by assumption) (pushes_inv ?_ _)
    | refine StateInv.of_done (by assumption) (pushes_inv ?_ _)
    | with_reducible refine issue_inv ?_ ?_ _ _ _ _ _ _
    | with_reducible refine State_updChanOf_inv ?_ _ _ _
    | with_reducible refine StateInv.out_ok ?_
    | with_reducible refine StateInv.out_held ?_
    | with_reducible refine StateInv.out_exc ?_
    | with_reducible refine StateInv.out_done ?_
    | with_reducible refine StateInv.ite ?_ ?_
    | split
    | intro)

theorem placeMsg_inv {u : State} (h : StateInv u) (a0 : _) (a1 : _) :
    StateInv (placeMsg a0 a1 u) := by
  unfold placeMsg
  try dsimp only
  repeat' (first
    | with_reducible exact h
    | with_reducible assumption
    | with_reducible refine write_inv ?_ _ _
    | with_reducible refine toSlice_inv ?_ _ _ _ _
    | with_reducible refine count_inv ?_ _ _ _
    | with_reducible refine State_updQueueOf_inv ?_ _ _ _
    | with_reducible refine State_updChanOf_inv ?_ _ _ _
    | with_reducible refine StateInv.ite ?_ ?_)

theorem chanFlit_inv {u : State} (h : StateInv u) (a0 : _) (a1 : _) :
    StateInv (chanFlit a0 a1 u) := by
  unfold chanFlit
  try dsimp only
  repeat' (first
    | with_reducible exact h
    | with_reducible assumption
    | with_reducible refine placeMsg_inv ?_ _ _
    | with_reducible refine breakQueue_inv ?_ _
    | with_reducible refine State_updQueueOf_inv ?_ _ _ _
    | with_reducible refine StateInv.ite ?_ ?_)

theorem channelAbortDone_inv {u : State} (h : StateInv u) (a0 : _) (a1 : _) :
    StateInv (channelAbortDone a0 a1 u) :=
  inv_of (channelAbortDone_within (fun _ m => m) (Within.refl _ _) _ _) rfl h

theorem rounded_inv {u : State} (h : StateInv u) (a0 : _) (a1 : _) :
    StateInv (rounded a0 a1 u).2 :=
  inv_of (rounded_within (fun _ m => m) (Within.refl _ _) _ _) rfl h

theorem chargePart_inv {u : State} (h : StateInv u) (a0 : _) (a1 : _) (a2 : _) (a3 : _) :
    StateInv (chargePart a0 a1 a2 a3 u) :=
  inv_of (chargePart_within (fun _ m => m) (Within.refl _ _) _ _ _ _) rfl h

theorem enterReady_inv {u : State} (h : StateInv u) : StateInv (enterReady u) := by
  unfold enterReady
  extract_lets svn up s1 b s2 p s3
  have h1 : StateInv s1 := forAll_inv (toStep_inv h _ (by decide) (by decide)) (fun e v hv => State_updWelt_inv hv _ _)
  have h2 : StateInv s2 := recheck_inv ⟨h1.mem, h1.pwr, h1.boot.1, h1.boot.2.1, (by decide : 1 ≤ 3)⟩
  have h3 : StateInv s3 := ⟨h2.mem, h2.pwr, h2.boot⟩
  clear_value s3
  exact StateInv.ite (changeRec_inv h3 _ _ _) h3

theorem checkLinks_inv {u : State} (h : StateInv u) (a0 : _) : StateInv (checkLinks a0 u) := by
  have hb : ∀ b : Boot, b.step = u.boot.step → b.state = u.boot.state → StateInv { u with boot := b } := by
    intro b e1 e2
    refine StateInv.set_boot h ?_
    unfold Boot.Ok
    rw [e1, e2]
    exact h.boot
  unfold checkLinks
  refine StateInv.ite (startFail_inv h _) (StateInv.ite (startFail_inv ?_ _) (enterReady_inv ?_))
  · exact hb _ rfl rfl
  · exact hb _ rfl rfl

theorem checked_inv {u : State} (h : StateInv u) {go : State → State}
    (hg : ∀ v, StateInv v → StateInv (go v)) (a0 : _) (a1 : _) (a2 : _) : StateInv (checked a0 a1 a2 go u) := by
  unfold checked
  split
  · exact respond_inv h _ _ _ _
  · exact hg _ h

theorem classWrite_inv {u : State} (h : StateInv u) (a0 : _) (a1 : _) (a2 : _) :
    ∀ v, classWrite a0 a1 a2 u = .ok v → StateInv v := by
  intro v e
  unfold classWrite at e
  dsimp only at e
  have hp : ∀ w, Wr.ok (u.updCore a0 (fun k => k.setReg a1 w)) = .ok v → StateInv v := by
    intro w e; cases e; exact State_updCore_inv h _ _
  rw [ite_eq_iff] at e
  rcases e with ⟨_, e⟩ | ⟨_, e⟩
  · contradiction
  · exact hp _ e

theorem clearCore_inv {u : State} (h : StateInv u) (a0 : _) :
    StateInv (clearCore a0 u) :=
  inv_of (clearCore_within (fun _ m => m) (Within.refl _ _) _) rfl h

theorem clearMem_inv {u : State} (h : StateInv u) (a0 : _) (a1 : _) : StateInv (clearMem a0 a1 u) := ⟨memFilter_wf _ h.1, h.pwr, h.boot⟩

theorem flushBench_inv {u : State} (h : StateInv u) (a0 : _) :
    StateInv (flushBench a0 u) := by
  unfold flushBench
  try dsimp only
  repeat' (first
    | with_reducible exact h
    | with_reducible assumption
    | with_reducible refine forAll_inv ?_ ?_
    | with_reducible refine ringWriteMask_inv ?_ _ _
    | with_reducible refine forAll_inv ?_ _ _
    | with_reducible refine StateInv.ite ?_ ?_
    | split
    | intro)

theorem clearBench_inv {u : State} (h : StateInv u) (a0 : _) :
    StateInv (clearBench a0 u) := by
  unfold clearBench
  try dsimp only
  repeat' (first
    | with_reducible exact h
    | with_reducible assumption
    | with_reducible refine forAll_inv ?_ ?_
    | with_reducible refine flushBench_inv ?_ _
    | with_reducible refine clearMem_inv ?_ _ _
    | with_reducible refine clearCore_inv ?_ _
    | with_reducible refine forAll_inv ?_ _ _
    | with_reducible refine State_updBench_inv ?_ _ _
    | with_reducible refine StateInv.ite ?_ ?_
    | split
    | intro)

theorem closeEntry_inv {u : State} (h : StateInv u) (a0 : _) :
    StateInv (closeEntry a0 u) := by
  unfold closeEntry
  try dsimp only
  repeat' (first
    | with_reducible exact h
    | with_reducible assumption
    | with_reducible refine forAll_inv ?_ ?_
    | with_reducible refine touch_inv ?_ 
    | with_reducible refine forAll_inv ?_ _ _
    | with_reducible refine State_updWelt_inv ?_ _ _
    | with_reducible refine State_updStream_inv ?_ _ _
    | with_reducible refine StateInv.ite ?_ ?_
    | split
    | intro)

theorem drainRing_inv {u : State} (h : StateInv u) (a0 : _) :
    StateInv (drainRing a0 u) := by
  unfold drainRing
  try dsimp only
  repeat' (first
    | with_reducible exact h
    | with_reducible assumption
    | fail_if_no_progress with_reducible refine StateInv.set_clicker_ring_ringSide ?_
    | with_reducible refine forAll_inv ?_ ?_
    | with_reducible refine ringWriteMask_inv ?_ _ _
    | with_reducible refine ringWrite_inv ?_ _ _
    | with_reducible refine absorb_inv ?_ _
    | with_reducible refine forAll_inv ?_ _ _
    | with_reducible refine StateInv.ite ?_ ?_
    | split
    | intro)

theorem freshProgs_inv {u : State} (h : StateInv u) (a0 : _) :
    StateInv (freshProgs a0 u) :=
  inv_of (freshProgs_within (fun _ m => m) (Within.refl _ _) _) rfl h

theorem clearDie_inv {u : State} (h : StateInv u) : StateInv (clearDie u) := by
  have h1 : StateInv (drainRing (fun _ => true) (forAll (List.range 128) flushBench u)) :=
    drainRing_inv (forAll_inv h (fun _ _ hv => flushBench_inv hv _)) _
  unfold clearDie
  dsimp only
  generalize drainRing (fun _ => true) (forAll (List.range 128) flushBench u) = s1 at h1
  have h2 : StateInv (forAll (s1.streams.map (·.1)) closeEntry s1) := forAll_inv h1 (fun _ _ hv => closeEntry_inv hv _)
  generalize forAll (s1.streams.map (·.1)) closeEntry s1 = s2 at h2
  generalize e3 : forAll (List.range 8) _ s2 = s3
  have h3 : StateInv s3 := by
    rw [← e3]
    exact forAll_inv h2 (fun p v hv => StateInv.ite (freshProgs_inv (State_updPart_inv hv _ _) _) hv)
  generalize e4 : applyRepairs _ _ = s5
  have h5 : StateInv s5 := by
    rw [← e4]
    refine applyRepairs_inv ?_ _
    exact ⟨memFilter_wf _ h3.1, h3.pwr, h3.boot⟩
  split
  · exact lockWire_inv (StateInv.snd (by assumption) (cobble_inv h5))
  · have h6 := StateInv.snd (by assumption) (cobble_inv h5)
    exact startFail_inv h6 3

theorem clearPart_inv {u : State} (h : StateInv u) (a0 : _) :
    StateInv (clearPart a0 u) := by
  unfold clearPart
  try dsimp only
  repeat' (first
    | with_reducible exact h
    | with_reducible assumption
    | fail_if_no_progress with_reducible refine StateInv.set_clicker ?_
    | with_reducible refine forAll_inv ?_ ?_
    | with_reducible refine freshProgs_inv ?_ _
    | with_reducible refine drainRing_inv ?_ _
    | with_reducible refine closeEntry_inv ?_ _
    | with_reducible refine clearBench_inv ?_ _
    | with_reducible refine clearMem_inv ?_ _ _
    | with_reducible refine forAll_inv ?_ _ _
    | with_reducible refine State_updPort_inv ?_ _ _
    | with_reducible refine State_updPart_inv ?_ _ _
    | with_reducible refine State_updCore_inv ?_ _ _
    | with_reducible refine State_updBench_inv ?_ _ _
    | with_reducible refine StateInv.ite ?_ ?_
    | split
    | intro)

theorem dropReplies_inv {u : State} (h : StateInv u) (a0 : _) :
    StateInv (dropReplies a0 u) :=
  inv_of (dropReplies_within (fun _ m => m) (Within.refl _ _) _) rfl h

theorem finishAborts_inv {u : State} (h : StateInv u) (a0 : _) :
    StateInv (finishAborts a0 u) :=
  inv_of (finishAborts_within (fun _ m => m) (Within.refl _ _) _) rfl h

theorem clearScope_inv {u : State} (h : StateInv u) (a0 : _) :
    StateInv (clearScope a0 u) := by
  unfold clearScope
  try dsimp only
  repeat' (first
    | with_reducible exact h
    | with_reducible assumption
    | with_reducible refine finishAborts_inv ?_ _
    | with_reducible refine dropReplies_inv ?_ _
    | with_reducible refine clearPart_inv ?_ _
    | with_reducible refine clearDie_inv ?_ 
    | with_reducible refine drainRing_inv ?_ _
    | with_reducible refine clearBench_inv ?_ _
    | with_reducible refine clearCore_inv ?_ _
    | with_reducible refine lockWire_inv ?_ 
    | with_reducible refine StateInv.ite ?_ ?_
    | split)

theorem unclaim_inv {u : State} (h : StateInv u) (a0 : _) (a1 : _) :
    StateInv (unclaim a0 a1 u) :=
  inv_of (unclaim_within (fun _ m => m) (Within.refl _ _) _ _) rfl h

theorem dropCopen_inv {u : State} (h : StateInv u) (a0 : _) (a1 : _) :
    StateInv (dropCopen a0 a1 u) :=
  inv_of (dropCopen_within (fun _ m => m) (Within.refl _ _) _ _) rfl h

theorem dropReq_inv {u : State} (h : StateInv u) (a0 : _) :
    StateInv (dropReq a0 u) :=
  inv_of (dropReq_within (fun _ m => m) (Within.refl _ _) _) rfl h

theorem oqPromote_inv {u : State} (h : StateInv u) (a0 : _) :
    StateInv (oqPromote a0 u) := by
  unfold oqPromote
  try dsimp only
  repeat' (first
    | with_reducible exact h
    | with_reducible assumption
    | with_reducible refine forAll_inv ?_ ?_
    | with_reducible refine sendWakes_inv ?_ _
    | with_reducible refine completeHeld_inv ?_ _ _
    | with_reducible refine forAll_inv ?_ _ _
    | with_reducible refine State_updBench_inv ?_ _ _
    | with_reducible refine StateInv.ite ?_ ?_
    | split
    | intro)

theorem refuseItem_inv {u : State} (h : StateInv u) (a0 : _) (a1 : _) :
    StateInv (refuseItem a0 a1 u) :=
  inv_of (refuseItem_within (fun _ m => m) (Within.refl _ _) _ _) rfl h

theorem refuseService_inv {u : State} (h : StateInv u) (a0 : _) (a1 : _) :
    StateInv (refuseService a0 a1 u) := by
  unfold refuseService
  try dsimp only
  repeat' (first
    | with_reducible exact h
    | with_reducible assumption
    | with_reducible refine forAll_inv ?_ ?_
    | with_reducible refine refuseItem_inv ?_ _ _
    | with_reducible refine oqPromote_inv ?_ _
    | with_reducible refine completeHeld_inv ?_ _ _
    | with_reducible refine forAll_inv ?_ _ _
    | with_reducible refine State_updBench_inv ?_ _ _
    | with_reducible refine StateInv.ite ?_ ?_
    | split
    | intro)

theorem ringTake_inv {u : State} (h : StateInv u) (a0 : _) :
    ∀ v, ringTake a0 u = some v → StateInv v.2 := by
  intro v e
  unfold ringTake at e
  try dsimp only at e
  repeat' split at e
  all_goals (try contradiction)
  all_goals (first | cases e | skip)
  all_goals repeat' (first | with_reducible exact h | with_reducible assumption | fail_if_no_progress with_reducible refine StateInv.set_ring ?_ | with_reducible refine StateInv.ite ?_ ?_ | split | intro)

theorem clickerRequest_inv {u : State} (h : StateInv u) :
    StateInv (clickerRequest u) := by
  unfold clickerRequest
  try dsimp only
  repeat' (first
    | with_reducible exact h
    | with_reducible assumption
    | fail_if_no_progress with_reducible refine StateInv.set_clicker ?_
    | refine ringTake_inv ?_ _ (_, _) (by assumption)
    | refine ringTake_inv ?_ _ _ (by assumption)
    | with_reducible refine refuseService_inv ?_ _ _
    | with_reducible refine dropReq_inv ?_ _
    | with_reducible refine unclaim_inv ?_ _ _
    | with_reducible refine answerOpen_inv ?_ _ _ _ _
    | with_reducible refine State_updBench_inv ?_ _ _
    | with_reducible refine StateInv.ite ?_ ?_
    | split)

theorem holdBack_inv {u : State} (h : StateInv u) (a0 : _) (a1 : _) :
    StateInv (holdBack a0 a1 u) :=
  inv_of (holdBack_within (fun _ m => m) (Within.refl _ _) _ _) rfl h

theorem cutBoth_inv {u : State} (h : StateInv u) (a0 : _) (a1 : _) (a2 : _) :
    ∀ v, cutBoth a0 a1 a2 u = .ok v → StateInv v.2 := by
  intro v e
  unfold cutBoth at e
  dsimp only at e
  split at e
  · contradiction
  split at e
  · contradiction
  rename_i s1 e1
  have h1 : StateInv s1 := cutPath_inv h _ _ _ _ _ _ e1
  split at e
  · cases e; exact holdBack_inv h1 _ _
  split at e
  · contradiction
  rename_i e2
  cases e
  have h2 := cutPath_inv h1 _ _ _ _ _ _ e2
  exact h2

theorem openChan_inv {u : State} (h : StateInv u) (a0 : _) (a1 : _) (a2 : _) :
    StateInv (openChan a0 a1 a2 u) :=
  inv_of (openChan_within (fun _ m => m) (Within.refl _ _) _ _ _) rfl h

theorem serveCopen_inv {u : State} (h : StateInv u) (a0 : _) (a1 : _) :
    StateInv (serveCopen a0 a1 u) :=
  inv_of (serveCopen_within (fun _ m => m) (Within.refl _ _) _ _) rfl h

theorem serveService_inv {u : State} (h : StateInv u) (a0 : _) (a1 : _) :
    StateInv (serveService a0 a1 u) := by
  unfold serveService
  dsimp only
  have h0 := State_updBench_inv h a0 (fun x => { x with pathAsk := x.pathAsk.erase a1 })
  refine StateInv.ite h0 ?_
  split
  · rename_i e
    split at e
    · exact cutPath_inv h0 _ _ _ _ _ (_, _) e
    · contradiction
  · exact refuseService_inv h0 _ _

theorem clickerServe_inv {u : State} (h : StateInv u) :
    StateInv (clickerServe u) := by
  unfold clickerServe
  try dsimp only
  repeat' (first
    | with_reducible exact h
    | with_reducible assumption
    | fail_if_no_progress with_reducible refine StateInv.set_clicker ?_
    | with_reducible refine serveService_inv ?_ _ _
    | with_reducible refine serveCopen_inv ?_ _ _
    | with_reducible refine dropReq_inv ?_ _
    | with_reducible refine StateInv.ite ?_ ?_
    | split)

theorem countActive_inv {u : State} (h : StateInv u) (a0 : _) :
    StateInv (countActive a0 u) :=
  inv_of (countActive_within (fun _ m => m) (Within.refl _ _) _) rfl h

theorem clockOff_inv {u : State} (h : StateInv u) (a0 : _) :
    StateInv (clockOff a0 u) :=
  inv_of (clockOff_within (fun _ m => m) (Within.refl _ _) _) rfl h

theorem clockOn_inv {u : State} (h : StateInv u) (a0 : _) :
    StateInv (clockOn a0 u) :=
  inv_of (clockOn_within (fun _ m => m) (Within.refl _ _) _) rfl h

theorem closeNotice_inv {u : State} (h : StateInv u) (a0 : _) (a1 : _) :
    StateInv (closeNotice a0 a1 u) :=
  inv_of (closeNotice_within (fun _ m => m) (Within.refl _ _) _ _) rfl h

theorem runCmd_inv {u : State} (h : StateInv u) {body : List Byte → State → State}
    (hb : ∀ l v, StateInv v → StateInv (body l v)) (a0 : _) (a1 : _) (a2 : _) (a3 : _) (a4 : _) :
    StateInv (runCmd a0 a1 a2 a3 a4 body u) := by
  unfold runCmd
  dsimp only
  have h1 : StateInv (if keepsIdle a1 then u else wake u) := StateInv.ite h (wake_inv h)
  generalize (if keepsIdle a1 then u else wake u) = v at h1
  have hr : ∀ x, StateInv (respond a0 x 0 [] v) := fun x => respond_inv h1 _ _ _ _
  exact StateInv.ite h (StateInv.ite (hr _) (StateInv.ite (hr _) (StateInv.ite (hr _) (StateInv.ite (hr _) (hb _ _ h1)))))

theorem withPart_inv {u : State} (h : StateInv u) {go : State → State}
    (hg : ∀ v, StateInv v → StateInv (go v)) (a0 : _) (a1 : _) : StateInv (withPart a0 a1 go u) := by
  unfold withPart
  exact StateInv.ite (respond_inv h _ _ _ _) (StateInv.ite (respond_inv h _ _ _ _) (hg _ h))

theorem closeStream_inv {u : State} (h : StateInv u) (a0 : _) :
    StateInv (closeStream a0 u) := by
  unfold closeStream
  try dsimp only
  repeat' (first
    | with_reducible exact h
    | with_reducible assumption
    | with_reducible refine withPart_inv ?_ ?_ _ _
    | with_reducible refine runCmd_inv ?_ ?_ _ _ _ _ _
    | with_reducible refine closeEntry_inv ?_ _
    | with_reducible refine checked_inv ?_ ?_ _ _ _
    | with_reducible refine respond_inv ?_ _ _ _ _
    | with_reducible refine StateInv.ite ?_ ?_
    | split
    | intro)

theorem collect_inv {u : State} (h : StateInv u) (a0 : _) :
    StateInv (collect a0 u) :=
  inv_of (collect_within (fun _ m => m) (Within.refl _ _) _) rfl h

theorem commit_inv {u : State} (h : StateInv u) (a0 : _) (a1 : _) (a2 : _) :
    StateInv (commit a0 a1 a2 u) :=
  inv_of (commit_within (fun _ m => m) (Within.refl _ _) _ _ _) rfl h

theorem errorUnits_inv {u : State} (h : StateInv u) (a0 : _) (a1 : _) :
    StateInv (errorUnits a0 a1 u).2 :=
  inv_of (errorUnits_within (fun _ m => m) (Within.refl _ _) _ _) rfl h

theorem compareColumn_inv {u : State} (h : StateInv u) (a0 : _) (a1 : _) (a2 : _) (a3 : _) (a5 : _) :
    StateInv (compareColumn a0 a1 a2 a3 u a5) :=
  inv_of (compareColumn_within (fun _ m => m) (Within.refl _ _) _ _ _ _ _) rfl h

theorem configTrace_inv {u : State} (h : StateInv u) (a0 : _) :
    StateInv (configTrace a0 u) := by
  unfold configTrace
  try dsimp only
  repeat' (first
    | with_reducible exact h
    | with_reducible assumption
    | fail_if_no_progress with_reducible refine StateInv.set_trc ?_
    | with_reducible refine runCmd_inv ?_ ?_ _ _ _ _ _
    | with_reducible refine checked_inv ?_ ?_ _ _ _
    | with_reducible refine respond_inv ?_ _ _ _ _
    | with_reducible refine StateInv.ite ?_ ?_
    | split
    | intro)

theorem noteEntry_inv {u : State} (h : StateInv u) (a0 : _) (a1 : _) :
    StateInv (noteEntry a0 a1 u) :=
  inv_of (noteEntry_within (fun _ m => m) (Within.refl _ _) _ _) rfl h

theorem markSent_inv {u : State} (h : StateInv u) (a0 : _) (a1 : _) (a2 : _) :
    StateInv (markSent a0 a1 a2 u) :=
  inv_of (markSent_within (fun _ m => m) (Within.refl _ _) _ _ _) rfl h

theorem oqFlit_inv {u : State} (h : StateInv u) (a0 : _) (a1 : _) :
    StateInv (oqFlit a0 a1 u).2 := by
  unfold oqFlit
  try dsimp only
  repeat' (first
    | with_reducible exact h
    | with_reducible assumption
    | with_reducible refine oqPromote_inv ?_ _
    | with_reducible refine State_updChanOf_inv ?_ _ _ _
    | with_reducible refine State_updBench_inv ?_ _ _
    | with_reducible refine StateInv.ite ?_ ?_
    | split)

theorem sendFlit_inv {u : State} (h : StateInv u) (a0 : _) (a1 : _) (a2 : _) (a3 : _) :
    StateInv (sendFlit a0 a1 a2 a3 u).2 :=
  inv_of (sendFlit_within (fun _ m => m) (Within.refl _ _) _ _ _ _) rfl h

theorem weltFlit_inv {u : State} (h : StateInv u) (a0 : _) (a1 : _) (a2 : _) (a3 : _) :
    StateInv (weltFlit a0 a1 a2 a3 u).2 :=
  inv_of (weltFlit_within (fun _ m => m) (Within.refl _ _) _ _ _ _) rfl h

theorem porterFlit_inv {u : State} (h : StateInv u) (a0 : _) (a1 : _) :
    StateInv (porterFlit a0 a1 u).2 :=
  inv_of (porterFlit_within (fun _ m => m) (Within.refl _ _) _ _) rfl h

theorem retryStores_inv {u : State} (h : StateInv u) (a0 : _) :
    StateInv (retryStores a0 u) := by
  unfold retryStores
  try dsimp only
  repeat' (first
    | with_reducible exact h
    | with_reducible assumption
    | with_reducible refine forAll_inv ?_ ?_
    | refine cachedStore_inv ?_ _ _ _ _ (by assumption)
    | with_reducible refine completeHeld_inv ?_ _ _
    | with_reducible refine forAll_inv ?_ _ _
    | with_reducible refine count_inv ?_ _ _ _
    | with_reducible refine StateInv.ite ?_ ?_
    | split
    | intro)

theorem connFlit_inv {u : State} (h : StateInv u) (a0 : _) (a1 : _) :
    StateInv (connFlit a0 a1 u).2 := by
  unfold connFlit
  try dsimp only
  repeat' (first
    | with_reducible exact h
    | with_reducible assumption
    | with_reducible refine retryStores_inv ?_ _
    | with_reducible refine porterFlit_inv ?_ _ _
    | refine StateInv.snd (by assumption) (porterFlit_inv ?_ _ _)
    | with_reducible refine oqFlit_inv ?_ _ _
    | refine StateInv.snd (by assumption) (oqFlit_inv ?_ _ _)
    | with_reducible refine markSent_inv ?_ _ _ _
    | with_reducible refine StateInv.ite ?_ ?_
    | split)

theorem itemRing_inv {u : State} (h : StateInv u) (a0 : _) (a1 : _) :
    StateInv (itemRing a0 a1 u) :=
  inv_of (itemRing_within (fun _ m => m) (Within.refl _ _) _ _) rfl h

theorem forwardRing_inv {u : State} (h : StateInv u) (a0 : _) :
    StateInv (forwardRing a0 u) :=
  inv_of (forwardRing_within (fun _ m => m) (Within.refl _ _) _) rfl h

theorem handTrace_inv {u : State} (h : StateInv u) (a0 : _) :
    StateInv (handTrace a0 u) :=
  inv_of (handTrace_within (fun _ m => m) (Within.refl _ _) _) rfl h

theorem controlCycle_inv {u : State} (h : StateInv u) :
    StateInv (controlCycle u) := by
  unfold controlCycle
  try dsimp only
  repeat' (first
    | with_reducible exact h
    | with_reducible assumption
    | with_reducible refine forAll_inv ?_ ?_
    | with_reducible refine handTrace_inv ?_ _
    | with_reducible refine forwardRing_inv ?_ _
    | with_reducible refine retryStores_inv ?_ _
    | with_reducible refine finishDiscard_inv ?_ _
    | with_reducible refine forAll_inv ?_ _ _
    | with_reducible refine StateInv.ite ?_ ?_
    | split
    | intro)

theorem openInside_inv {u : State} (h : StateInv u) (a0 : _) (a1 : _) :
    StateInv (openInside a0 a1 u) :=
  inv_of (openInside_within (fun _ m => m) (Within.refl _ _) _ _) rfl h

theorem copen_inv {u : State} (h : StateInv u) (a0 : _) :
    StateInv (copen a0 u) := by
  unfold copen
  try dsimp only
  repeat' (first
    | with_reducible exact h
    | with_reducible assumption
    | with_reducible refine openInside_inv ?_ _ _
    | with_reducible refine pushes_inv ?_ _
    | refine StateInv.of_ok (by assumption) (pushes_inv ?_ _)
    | refine StateInv.of_held (by assumption) (pushes_inv ?_ _)
    | refine StateInv.of_exc (by assumption) (pushes_inv ?_ _)
    | refine StateInv.of_done (by assumption) (pushes_inv ?_ _)
    | with_reducible refine issue_inv ?_ ?_ _ _ _ _ _ _
    | with_reducible refine ringPut_inv ?_ _ _ _
    | with_reducible refine State_updChanOf_inv ?_ _ _ _
    | with_reducible refine StateInv.out_ok ?_
    | with_reducible refine StateInv.out_held ?_
    | with_reducible refine StateInv.out_exc ?_
    | with_reducible refine StateInv.out_done ?_
    | with_reducible refine StateInv.ite ?_ ?_
    | split
    | intro)

theorem copenAnswer_inv {u : State} (h : StateInv u) (a0 : _) :
    StateInv (copenAnswer a0 u) := by
  unfold copenAnswer
  split
  · dsimp only
    split
    · rename_i e
      have h1 := ringTake_inv h _ (_, _) e
      split
      · exact StateInv.ite (completeHeld_inv h1 _ _)
          (completeHeld_inv (State_updChanOf_inv h1 _ _ _) _ _)
      · exact h
    · exact h
  · exact h

theorem portCount_inv {u : State} (h : StateInv u) (a0 : _) (a1 : _) (a2 : _) :
    StateInv (portCount a0 a1 a2 u) :=
  inv_of (portCount_within (fun _ m => m) (Within.refl _ _) _ _ _) rfl h

theorem countAccess_inv {u : State} (h : StateInv u) (a0 : _) (a1 : _) (a2 : _) :
    StateInv (countAccess a0 a1 a2 u) :=
  inv_of (countAccess_within (fun _ m => m) (Within.refl _ _) _ _ _) rfl h

theorem countDrops_inv {u : State} (h : StateInv u) (a0 : _) :
    StateInv (countDrops a0 u) :=
  inv_of (countDrops_within (fun _ m => m) (Within.refl _ _) _) rfl h

theorem updManaged_inv {u : State} (h : StateInv u) (a0 : _) (a1 : _) :
    StateInv (updManaged a0 a1 u) :=
  inv_of (updManaged_within (fun _ m => m) (Within.refl _ _) _ _) rfl h

theorem countMsg_inv {u : State} (h : StateInv u) (a0 : _) :
    StateInv (countMsg a0 u) :=
  inv_of (countMsg_within (fun _ m => m) (Within.refl _ _) _) rfl h

theorem localRead_inv {u : State} (h : StateInv u) {k : List Byte → State → Out}
    (hk : ∀ l v, StateInv v → StateInv (outState (k l v))) (a0 : _) (a1 : _) (a2 : _) :
    StateInv (outState (localRead a0 a1 a2 u k)) := by
  unfold localRead
  split
  · refine StateInv.out_exc ?_
    exact memCont_inv h _ _ _
  · exact hk _ _ (noteRead_inv h _ _)

theorem cput_inv {u : State} (h : StateInv u) (a0 : _) :
    StateInv (cput a0 u) := by
  unfold cput
  try dsimp only
  repeat' (first
    | with_reducible exact h
    | with_reducible assumption
    | with_reducible refine localRead_inv ?_ ?_ _ _ _
    | refine StateInv.of_ok (by assumption) (localRead_inv ?_ ?_ _ _ _)
    | refine StateInv.of_held (by assumption) (localRead_inv ?_ ?_ _ _ _)
    | refine StateInv.of_exc (by assumption) (localRead_inv ?_ ?_ _ _ _)
    | refine StateInv.of_done (by assumption) (localRead_inv ?_ ?_ _ _ _)
    | with_reducible refine pushes_inv ?_ _
    | refine StateInv.of_ok (by assumption) (pushes_inv ?_ _)
    | refine StateInv.of_held (by assumption) (pushes_inv ?_ _)
    | refine StateInv.of_exc (by assumption) (pushes_inv ?_ _)
    | refine StateInv.of_done (by assumption) (pushes_inv ?_ _)
    | with_reducible refine issue_inv ?_ ?_ _ _ _ _ _ _
    | with_reducible refine State_updCtx_inv ?_ _ _
    | with_reducible refine StateInv.out_ok ?_
    | with_reducible refine StateInv.out_held ?_
    | with_reducible refine StateInv.out_exc ?_
    | with_reducible refine StateInv.out_done ?_
    | with_reducible refine StateInv.ite ?_ ?_
    | split
    | intro)

theorem putWindow_inv {u : State} (h : StateInv u) (a0 : _) (a1 : _) :
    StateInv (putWindow a0 a1 u) :=
  inv_of (putWindow_within (fun _ m => m) (Within.refl _ _) _ _) rfl h

theorem createPartition_inv {u : State} (h : StateInv u) (a0 : _) :
    StateInv (createPartition a0 u) := by
  unfold createPartition
  try dsimp only
  repeat' (first
    | with_reducible exact h
    | with_reducible assumption
    | with_reducible refine putWindow_inv ?_ _ _
    | with_reducible refine runCmd_inv ?_ ?_ _ _ _ _ _
    | with_reducible refine checked_inv ?_ ?_ _ _ _
    | with_reducible refine putReloc_inv ?_ _ _
    | with_reducible refine respond_inv ?_ _ _ _ _
    | with_reducible refine State_updPart_inv ?_ _ _
    | with_reducible refine StateInv.ite ?_ ?_
    | split
    | intro)

theorem nameUnit_inv {u : State} (h : StateInv u) (a0 : _) (a1 : _) (a2 : _) (a3 : _) :
    ∀ v, nameUnit a0 a1 a2 a3 u = some v → StateInv v := by
  intro v e
  unfold nameUnit at e
  try dsimp only at e
  repeat' split at e
  all_goals (try contradiction)
  all_goals (first | cases e | skip)
  all_goals repeat' (first | with_reducible exact h | with_reducible assumption | with_reducible refine State_updCore_inv ?_ _ _ | with_reducible refine StateInv.foldl ?_ ?_ | with_reducible refine StateInv.ite ?_ ?_ | split | intro)

theorem sendCredit_inv {u : State} (h : StateInv u) (a0 : _) (a1 : _) (a2 : _) (a3 : _) (a4 : _) (a5 : _) :
    StateInv (sendCredit a0 a1 a2 a3 a4 a5 u) :=
  inv_of (sendCredit_within (fun _ m => m) (Within.refl _ _) _ _ _ _ _ _) rfl h

theorem receive_inv {u : State} (h : StateInv u) (a0 : _) (a1 : _) (a2 : _) :
    StateInv (outState (receive a0 a1 a2 u)) := by
  unfold receive
  try dsimp only
  repeat' (first
    | with_reducible exact h
    | with_reducible assumption
    | with_reducible refine sendCredit_inv ?_ _ _ _ _ _ _
    | with_reducible refine pushes_inv ?_ _
    | refine StateInv.of_ok (by assumption) (pushes_inv ?_ _)
    | refine StateInv.of_held (by assumption) (pushes_inv ?_ _)
    | refine StateInv.of_exc (by assumption) (pushes_inv ?_ _)
    | refine StateInv.of_done (by assumption) (pushes_inv ?_ _)
    | with_reducible refine noteRead_inv ?_ _ _
    | with_reducible refine memCont_inv ?_ _ _ _
    | with_reducible refine write_inv ?_ _ _
    | with_reducible refine toInbox_inv ?_ _ _ _
    | with_reducible refine State_updQueueOf_inv ?_ _ _ _
    | with_reducible refine StateInv.out_ok ?_
    | with_reducible refine StateInv.out_held ?_
    | with_reducible refine StateInv.out_exc ?_
    | with_reducible refine StateInv.out_done ?_
    | with_reducible refine StateInv.ite ?_ ?_
    | split)

theorem crecv_inv {u : State} (h : StateInv u) (a0 : _) :
    StateInv (crecv a0 u) := by
  unfold crecv
  try dsimp only
  repeat' (first
    | with_reducible exact h
    | with_reducible assumption
    | with_reducible refine receive_inv ?_ _ _ _
    | refine StateInv.of_ok (by assumption) (receive_inv ?_ _ _ _)
    | refine StateInv.of_held (by assumption) (receive_inv ?_ _ _ _)
    | refine StateInv.of_exc (by assumption) (receive_inv ?_ _ _ _)
    | refine StateInv.of_done (by assumption) (receive_inv ?_ _ _ _)
    | refine nameUnit_inv ?_ _ _ _ _ _ (by assumption)
    | with_reducible refine issue_inv ?_ ?_ _ _ _ _ _ _
    | with_reducible refine StateInv.out_ok ?_
    | with_reducible refine StateInv.out_held ?_
    | with_reducible refine StateInv.out_exc ?_
    | with_reducible refine StateInv.out_done ?_
    | with_reducible refine StateInv.ite ?_ ?_
    | split
    | intro)

theorem creditIn_inv {u : State} (h : StateInv u) (a0 : _) (a1 : _) (a2 : _) (a3 : _) (a4 : _) :
    StateInv (creditIn a0 a1 a2 a3 a4 u) := by
  unfold creditIn
  try dsimp only
  repeat' (first
    | with_reducible exact h
    | with_reducible assumption
    | with_reducible refine abortOrDrain_inv ?_ _ _
    | with_reducible refine syncWrite_inv ?_ _ _ _
    | with_reducible refine State_updChanOf_inv ?_ _ _ _
    | with_reducible refine StateInv.ite ?_ ?_)

theorem inboxDrop_inv {u : State} (h : StateInv u) (a0 : _) (a1 : _) :
    StateInv (inboxDrop a0 a1 u) :=
  inv_of (inboxDrop_within (fun _ m => m) (Within.refl _ _) _ _) rfl h

theorem creditInside_inv {u : State} (h : StateInv u) (a0 : _) :
    ∀ v, creditInside a0 u = some v → StateInv v := by
  intro v e
  unfold creditInside at e
  try dsimp only at e
  repeat' split at e
  all_goals (try contradiction)
  all_goals (first | cases e | skip)
  all_goals repeat' (first | with_reducible exact h | with_reducible assumption | with_reducible refine inboxDrop_inv ?_ _ _ | with_reducible refine creditIn_inv ?_ _ _ _ _ _ | with_reducible refine StateInv.ite ?_ ?_ | split | intro)

theorem takeArrival_inv {u : State} (h : StateInv u) (a0 : _) :
    ∀ v, takeArrival a0 u = some v → StateInv v.2 := by
  intro v e
  unfold takeArrival at e
  try dsimp only at e
  repeat' split at e
  all_goals (try contradiction)
  all_goals (first | cases e | skip)
  all_goals repeat' (first | with_reducible exact h | with_reducible assumption | fail_if_no_progress with_reducible refine StateInv.set_arrivals ?_ | with_reducible refine StateInv.ite ?_ ?_ | split | intro)

theorem creditArrival_inv {u : State} (h : StateInv u) (a0 : _) :
    StateInv (creditArrival a0 u) := by
  unfold creditArrival
  split
  · rename_i e
    have h1 := takeArrival_inv h _ (_, _) e
    split
    · exact StateInv.ite (creditIn_inv h1 _ _ _ _ _) (count_inv h1 _ _ _)
    · exact h1
  · have h2 := creditInside_inv h a0
    cases e : creditInside a0 u with
    | none => exact h
    | some v => exact h2 v e

theorem newSession_inv {u : State} (h : StateInv u) (a0 : _) :
    StateInv (newSession a0 u) :=
  inv_of (newSession_within (fun _ m => m) (Within.refl _ _) _) rfl h

theorem crewJoin_inv {u : State} (h : StateInv u) (a0 : _) :
    StateInv (crewJoin a0 u) := by
  unfold crewJoin
  try dsimp only
  repeat' (first
    | with_reducible exact h
    | with_reducible assumption
    | fail_if_no_progress with_reducible refine StateInv.set_fmn ?_
    | with_reducible refine newSession_inv ?_ _
    | with_reducible refine runCmd_inv ?_ ?_ _ _ _ _ _
    | with_reducible refine checked_inv ?_ ?_ _ _ _
    | with_reducible refine respond_inv ?_ _ _ _ _
    | with_reducible refine sendMsg_inv ?_ _ _ _ _ _
    | with_reducible refine StateInv.ite ?_ ?_
    | split
    | intro)

theorem crewLost_inv {u : State} (h : StateInv u) (a0 : _) :
    StateInv (crewLost a0 u) :=
  inv_of (crewLost_within (fun _ m => m) (Within.refl _ _) _) rfl h

theorem crewRelay_inv {u : State} (h : StateInv u) (a0 : _) :
    StateInv (crewRelay a0 u) := by
  unfold crewRelay
  try dsimp only
  repeat' (first
    | with_reducible exact h
    | with_reducible assumption
    | fail_if_no_progress with_reducible refine StateInv.set_fmn ?_
    | with_reducible refine runCmd_inv ?_ ?_ _ _ _ _ _
    | with_reducible refine respond_inv ?_ _ _ _ _
    | with_reducible refine sendMsg_inv ?_ _ _ _ _ _
    | with_reducible refine State_updMbox_inv ?_ _ _
    | with_reducible refine StateInv.ite ?_ ?_
    | split
    | intro)

theorem crewStatus_inv {u : State} (h : StateInv u) (a0 : _) :
    StateInv (crewStatus a0 u) := by
  unfold crewStatus
  try dsimp only
  repeat' (first
    | with_reducible exact h
    | with_reducible assumption
    | with_reducible refine runCmd_inv ?_ ?_ _ _ _ _ _
    | with_reducible refine respond_inv ?_ _ _ _ _
    | with_reducible refine StateInv.ite ?_ ?_
    | split
    | intro)

theorem csend_inv {u : State} (h : StateInv u) (a0 : _) :
    StateInv (csend a0 u) := by
  unfold csend
  try dsimp only
  repeat' (first
    | with_reducible exact h
    | with_reducible assumption
    | with_reducible refine commit_inv ?_ _ _ _
    | with_reducible refine pushes_inv ?_ _
    | refine StateInv.of_ok (by assumption) (pushes_inv ?_ _)
    | refine StateInv.of_held (by assumption) (pushes_inv ?_ _)
    | refine StateInv.of_exc (by assumption) (pushes_inv ?_ _)
    | refine StateInv.of_done (by assumption) (pushes_inv ?_ _)
    | with_reducible refine issue_inv ?_ ?_ _ _ _ _ _ _
    | with_reducible refine traceSend_inv ?_ _ _ _ _ _
    | with_reducible refine StateInv.out_ok ?_
    | with_reducible refine StateInv.out_held ?_
    | with_reducible refine StateInv.out_exc ?_
    | with_reducible refine StateInv.out_done ?_
    | with_reducible refine StateInv.ite ?_ ?_
    | split
    | intro)

theorem csendCommit_inv {u : State} (h : StateInv u) (a0 : _) :
    StateInv (csendCommit a0 u) := by
  unfold csendCommit
  try dsimp only
  repeat' (first
    | with_reducible exact h
    | with_reducible assumption
    | with_reducible refine commit_inv ?_ _ _ _
    | with_reducible refine completeHeld_inv ?_ _ _
    | with_reducible refine StateInv.ite ?_ ?_
    | split)

theorem csendTimeout_inv {u : State} (h : StateInv u) (a0 : _) :
    StateInv (csendTimeout a0 u) := by
  unfold csendTimeout
  try dsimp only
  repeat' (first
    | with_reducible exact h
    | with_reducible assumption
    | with_reducible refine traceSend_inv ?_ _ _ _ _ _
    | with_reducible refine completeHeld_inv ?_ _ _
    | with_reducible refine syncErr_inv ?_ _ _ _ _
    | with_reducible refine syncWrite_inv ?_ _ _ _
    | with_reducible refine count_inv ?_ _ _ _
    | with_reducible refine StateInv.ite ?_ ?_
    | split)

theorem cstat_inv {u : State} (h : StateInv u) (a0 : _) :
    StateInv (cstat a0 u) := by
  unfold cstat
  try dsimp only
  repeat' (first
    | with_reducible exact h
    | with_reducible assumption
    | with_reducible refine pushes_inv ?_ _
    | refine StateInv.of_ok (by assumption) (pushes_inv ?_ _)
    | refine StateInv.of_held (by assumption) (pushes_inv ?_ _)
    | refine StateInv.of_exc (by assumption) (pushes_inv ?_ _)
    | refine StateInv.of_done (by assumption) (pushes_inv ?_ _)
    | with_reducible refine issue_inv ?_ ?_ _ _ _ _ _ _
    | with_reducible refine State_updChanOf_inv ?_ _ _ _
    | with_reducible refine StateInv.out_ok ?_
    | with_reducible refine StateInv.out_held ?_
    | with_reducible refine StateInv.out_exc ?_
    | with_reducible refine StateInv.out_done ?_
    | with_reducible refine StateInv.ite ?_ ?_
    | split
    | intro)

theorem serveAccess_inv {u : State} (h : StateInv u) (a0 : _) (a1 : _) :
    StateInv (serveAccess a0 a1 u) :=
  inv_of (serveAccess_within (fun _ m => m) (Within.refl _ _) _ _) rfl h

theorem cxlComplete_inv {u : State} (h : StateInv u) (a0 : _) :
    StateInv (cxlComplete a0 u) :=
  inv_of (cxlComplete_within (fun _ m => m) (Within.refl _ _) _) rfl h

theorem dataErr_inv {u : State} (h : StateInv u) (a0 : _) :
    StateInv (dataErr a0 u) :=
  inv_of (dataErr_within (fun _ m => m) (Within.refl _ _) _) rfl h

theorem weltWrote_inv {u : State} (h : StateInv u) (a0 : _) (a1 : _) (a2 : _) :
    StateInv (weltWrote a0 a1 a2 u) :=
  inv_of (weltWrote_within (fun _ m => m) (Within.refl _ _) _ _ _) rfl h

theorem dataFlit_inv {u : State} (h : StateInv u) (a0 : _) :
    StateInv (dataFlit a0 u) := by
  unfold dataFlit
  try dsimp only
  repeat' (first
    | with_reducible exact h
    | with_reducible assumption
    | with_reducible refine weltWrote_inv ?_ _ _ _
    | with_reducible refine dataErr_inv ?_ _
    | with_reducible refine landed_inv ?_ _ _ _
    | with_reducible refine absorbData_inv ?_ _
    | with_reducible refine write_inv ?_ _ _
    | with_reducible refine StateInv.ite ?_ ?_
    | split)

theorem movesGo_inv {u : State} (h : StateInv u) :
    StateInv (movesGo u) :=
  inv_of (movesGo_within (fun _ m => m) (Within.refl _ _) ) rfl h

theorem moveEnds_inv {u : State} (h : StateInv u) (a0 : _) (a1 : _) :
    StateInv (moveEnds a0 a1 u) := by
  unfold moveEnds
  try dsimp only
  repeat' (first
    | with_reducible exact h
    | with_reducible assumption
    | fail_if_no_progress with_reducible refine StateInv.set_fmn ?_
    | with_reducible refine movesGo_inv ?_ 
    | with_reducible refine touch_inv ?_ 
    | with_reducible refine respond_inv ?_ _ _ _ _
    | with_reducible refine StateInv.ite ?_ ?_)

theorem moveBack_inv {u : State} (h : StateInv u) (a0 : _) (a1 : _) (a2 : _) :
    StateInv (moveBack a0 a1 a2 u) := by
  unfold moveBack
  try dsimp only
  repeat' (first
    | with_reducible exact h
    | with_reducible assumption
    | fail_if_no_progress with_reducible refine StateInv.set_fmn ?_
    | with_reducible refine moveEnds_inv ?_ _ _
    | with_reducible refine movesGo_inv ?_ 
    | with_reducible refine hostEvent_inv ?_ _ _ _ _
    | with_reducible refine StateInv.ite ?_ ?_)

theorem readBack_inv {u : State} (h : StateInv u) (a0 : _) (a1 : _) (a2 : _) :
    StateInv (readBack a0 a1 a2 u) :=
  inv_of (readBack_within (fun _ m => m) (Within.refl _ _) _ _ _) rfl h

theorem hostResponse_inv {u : State} (h : StateInv u) (a0 : _) (a1 : _) (a2 : _) :
    StateInv (hostResponse a0 a1 a2 u) := by
  unfold hostResponse
  try dsimp only
  repeat' (first
    | with_reducible exact h
    | with_reducible assumption
    | with_reducible refine readBack_inv ?_ _ _ _
    | with_reducible refine moveBack_inv ?_ _ _ _
    | with_reducible refine StateInv.ite ?_ ?_
    | split)

theorem fillData_inv {u : State} (h : StateInv u) (a0 : _) (a1 : _) (a2 : _) (a3 : _) :
    StateInv (fillData a0 a1 a2 a3 u) :=
  inv_of (fillData_within (fun _ m => m) (Within.refl _ _) _ _ _ _) rfl h

theorem itemDone_inv {u : State} (h : StateInv u) (a0 : _) (a1 : _) :
    StateInv (itemDone a0 a1 u) :=
  inv_of (itemDone_within (fun _ m => m) (Within.refl _ _) _ _) rfl h

theorem ringAccess_inv {u : State} (h : StateInv u) (a0 : _) (a1 : _) (a2 : _) (a3 : _) (a4 : _) :
    StateInv (ringAccess a0 a1 a2 a3 a4 u) :=
  inv_of (ringAccess_within (fun _ m => m) (Within.refl _ _) _ _ _ _ _) rfl h

theorem ringNext_inv {u : State} (h : StateInv u) (a0 : _) (a1 : _) :
    StateInv (ringNext a0 a1 u) :=
  inv_of (ringNext_within (fun _ m => m) (Within.refl _ _) _ _) rfl h

theorem ringBack_inv {u : State} (h : StateInv u) (a0 : _) (a1 : _) (a2 : _) (a3 : _) (a4 : _) (a5 : _) (a6 : _) :
    StateInv (ringBack a0 a1 a2 a3 a4 a5 a6 u) := by
  unfold ringBack
  try dsimp only
  repeat' (first
    | with_reducible exact h
    | with_reducible assumption
    | with_reducible refine ringNext_inv ?_ _ _
    | with_reducible refine ringAccess_inv ?_ _ _ _ _ _
    | with_reducible refine descFault_inv ?_ _ _ _ _ _ _
    | with_reducible refine landed_inv ?_ _ _ _
    | with_reducible refine settleDesc_inv ?_ _ _
    | with_reducible refine write_inv ?_ _ _
    | with_reducible refine State_updSlotOf_inv ?_ _ _ _
    | with_reducible refine StateInv.ite ?_ ?_
    | split)

theorem uloadData_inv {u : State} (h : StateInv u) (a0 : _) (a1 : _) (a2 : _) (a3 : _) :
    StateInv (uloadData a0 a1 a2 a3 u) :=
  inv_of (uloadData_within (fun _ m => m) (Within.refl _ _) _ _ _ _) rfl h

theorem ringResponse_inv {u : State} (h : StateInv u) (a0 : _) (a1 : _) (a2 : _) (a3 : _) (a4 : _) :
    StateInv (ringResponse a0 a1 a2 a3 a4 u) := by
  unfold ringResponse
  try dsimp only
  repeat' (first
    | with_reducible exact h
    | with_reducible assumption
    | with_reducible refine uloadData_inv ?_ _ _ _ _
    | with_reducible refine ringBack_inv ?_ _ _ _ _ _ _ _
    | with_reducible refine itemDone_inv ?_ _ _
    | with_reducible refine fillData_inv ?_ _ _ _ _
    | with_reducible refine settleDesc_inv ?_ _ _
    | with_reducible refine absorb_inv ?_ _
    | with_reducible refine State_updSlotOf_inv ?_ _ _ _
    | with_reducible refine StateInv.ite ?_ ?_
    | split)

theorem takeCheck_inv {u : State} (h : StateInv u) (a0 : _) (a1 : _) :
    StateInv (takeCheck a0 a1 u) :=
  inv_of (takeCheck_within (fun _ m => m) (Within.refl _ _) _ _) rfl h

theorem deliverPacket_inv {u : State} (h : StateInv u) (a0 : _) :
    StateInv (deliverPacket a0 u) := by
  unfold deliverPacket
  try dsimp only
  repeat' (first
    | with_reducible exact h
    | with_reducible assumption
    | fail_if_no_progress with_reducible refine StateInv.set_ringSide ?_
    | with_reducible refine takeCheck_inv ?_ _ _
    | with_reducible refine ringResponse_inv ?_ _ _ _ _ _
    | with_reducible refine hostResponse_inv ?_ _ _ _
    | with_reducible refine collect_inv ?_ _
    | with_reducible refine acceptWrite_inv ?_ _ _ _ _ _ _ _
    | with_reducible refine logMerged_inv ?_ _ _ _ _
    | with_reducible refine acceptHost_inv ?_ _
    | with_reducible refine toInbox_inv ?_ _ _ _
    | with_reducible refine syncWrite_inv ?_ _ _ _
    | with_reducible refine StateInv.ite ?_ ?_
    | split)

theorem descriptorAborted_inv {u : State} (h : StateInv u) (a0 : _) (a1 : _) :
    StateInv (descriptorAborted a0 a1 u) :=
  inv_of (descriptorAborted_within (fun _ m => m) (Within.refl _ _) _ _) rfl h

theorem descriptorStart_inv {u : State} (h : StateInv u) (a0 : _) (a1 : _) :
    StateInv (descriptorStart a0 a1 u) :=
  inv_of (descriptorStart_within (fun _ m => m) (Within.refl _ _) _ _) rfl h

theorem joinReset_inv {u : State} (h : StateInv u) (a0 : _) (a1 : _) :
    StateInv (joinReset a0 a1 u) :=
  inv_of (joinReset_within (fun _ m => m) (Within.refl _ _) _ _) rfl h

theorem releaseProg_inv {u : State} (h : StateInv u) (a0 : _) :
    StateInv (releaseProg a0 u) :=
  inv_of (releaseProg_within (fun _ m => m) (Within.refl _ _) _) rfl h

theorem unload_inv {u : State} (h : StateInv u) (a0 : _) (a1 : _) :
    StateInv (unload a0 a1 u) :=
  inv_of (unload_within (fun _ m => m) (Within.refl _ _) _ _) rfl h

theorem destroyPartition_inv {u : State} (h : StateInv u) (a0 : _) :
    StateInv (destroyPartition a0 u) := by
  unfold destroyPartition
  try dsimp only
  repeat' (first
    | with_reducible exact h
    | with_reducible assumption
    | with_reducible refine forAll_inv ?_ ?_
    | with_reducible refine unload_inv ?_ _ _
    | with_reducible refine joinReset_inv ?_ _ _
    | with_reducible refine runCmd_inv ?_ ?_ _ _ _ _ _
    | with_reducible refine checked_inv ?_ ?_ _ _ _
    | with_reducible refine respond_inv ?_ _ _ _ _
    | with_reducible refine forAll_inv ?_ _ _
    | with_reducible refine StateInv.ite ?_ ?_
    | split
    | intro)

theorem doRetx_inv {u : State} (h : StateInv u) (a0 : _) :
    StateInv (doRetx a0 u) :=
  inv_of (doRetx_within (fun _ m => m) (Within.refl _ _) _) rfl h

theorem refuseIdle_inv {u : State} (h : StateInv u) : StateInv (refuseIdle u) := ⟨h.1, h.pwr, h.boot⟩

theorem wetarOff_inv {u : State} (h : StateInv u) : StateInv (wetarOff u) := by
  unfold wetarOff
  extract_lets s1
  have h1 : StateInv s1 := forAll_inv h (fun p v hv => StateInv.ite (State_updPart_inv hv _ _) hv)
  clear_value s1
  exact ⟨memFilter_wf _ h1.1, ⟨h1.pwr.1, nofun, nofun, h1.pwr.2.2.2⟩, h1.boot⟩

theorem doze_inv {u : State} (h : StateInv u) (a0 : _) (k : a0 ≤ 4) : StateInv (doze a0 u) := by
  unfold doze
  refine StateInv.ite (refuseIdle_inv h) ?_
  extract_lets s1
  have h1 : StateInv s1 := wetarOff_inv h
  clear_value s1
  exact ⟨h1.1, ⟨h1.pwr.1, h1.pwr.2.1, h1.pwr.2.2.1, k⟩, h1.boot⟩

theorem drainAgain_inv {u : State} (h : StateInv u) (a0 : _) :
    StateInv (drainAgain a0 u) :=
  inv_of (drainAgain_within (fun _ m => m) (Within.refl _ _) _) rfl h

theorem dropRequests_inv {u : State} (h : StateInv u) (a0 : _) :
    StateInv (dropRequests a0 u) :=
  inv_of (dropRequests_within (fun _ m => m) (Within.refl _ _) _) rfl h

theorem dropTx_inv {u : State} (h : StateInv u) (a0 : _) (a1 : _) (a2 : _) :
    StateInv (dropTx a0 a1 a2 u) := by
  unfold dropTx
  try dsimp only
  repeat' (first
    | with_reducible exact h
    | with_reducible assumption
    | with_reducible refine touch_inv ?_ 
    | with_reducible refine State_updWelt_inv ?_ _ _)

theorem dropWait_inv {u : State} (h : StateInv u) (a0 : _) :
    StateInv (dropWait a0 u) := by
  unfold dropWait
  try dsimp only
  repeat' (first
    | with_reducible exact h
    | with_reducible assumption
    | fail_if_no_progress with_reducible refine StateInv.set_clicker_ring ?_
    | with_reducible refine dropCopen_inv ?_ _ _
    | with_reducible refine discardTile_inv ?_ _
    | with_reducible refine abortChan_inv ?_ _ _
    | with_reducible refine abandon_inv ?_ _
    | with_reducible refine State_updCtx_inv ?_ _ _
    | with_reducible refine State_updCore_inv ?_ _ _
    | with_reducible refine StateInv.ite ?_ ?_
    | split)

theorem emptySlot_inv {u : State} (h : StateInv u) (a0 : _) (a1 : _) :
    StateInv (emptySlot a0 a1 u) :=
  inv_of (emptySlot_within (fun _ m => m) (Within.refl _ _) _ _) rfl h

theorem releaseUnits_inv {u : State} (h : StateInv u) (a0 : _) :
    StateInv (releaseUnits a0 u) :=
  inv_of (releaseUnits_within (fun _ m => m) (Within.refl _ _) _) rfl h

theorem endSteps_inv {u : State} (h : StateInv u) (a0 : _) (a1 : _) :
    StateInv (endSteps a0 a1 u) := by
  unfold endSteps
  try dsimp only
  repeat' (first
    | with_reducible exact h
    | with_reducible assumption
    | with_reducible refine forAll_inv ?_ ?_
    | with_reducible refine releaseUnits_inv ?_ _
    | with_reducible refine abortOpen_inv ?_ _ _
    | with_reducible refine forAll_inv ?_ _ _
    | with_reducible refine toSlice_inv ?_ _ _ _ _
    | with_reducible refine setPend_inv ?_ _ _
    | with_reducible refine State_updCtx_inv ?_ _ _
    | with_reducible refine State_updCore_inv ?_ _ _
    | with_reducible refine StateInv.ite ?_ ?_
    | split
    | intro)

theorem enterW1_inv {u : State} (h : StateInv u) : StateInv (enterW1 u) := by
  unfold enterW1
  exact StateInv.ite ⟨h.1, ⟨h.pwr.1, h.pwr.2.1, h.pwr.2.2.1, (by decide : 1 ≤ 4)⟩, h.boot⟩ h

theorem enterW2_inv {u : State} (h : StateInv u) : StateInv (enterW2 u) := by
  unfold enterW2
  exact StateInv.ite ⟨h.1, ⟨h.pwr.1, h.pwr.2.1, h.pwr.2.2.1, (by decide : 2 ≤ 4)⟩, h.boot⟩ h

theorem errorReport_inv {u : State} (h : StateInv u) (a0 : _) (a1 : _) (a2 : _) (a3 : _) :
    StateInv (errorReport a0 a1 a2 a3 u) := by
  unfold errorReport
  try dsimp only
  repeat' (first
    | with_reducible exact h
    | with_reducible assumption
    | with_reducible refine countEvent_inv ?_ _ _ _
    | with_reducible refine stopPart_inv ?_ _ _
    | with_reducible refine StateInv.ite ?_ ?_)

theorem leakage_inv {u : State} (h : StateInv u) (a0 : _) (a1 : _) (a2 : _) :
    StateInv (leakage a0 a1 a2 u).2 :=
  inv_of (leakage_within (fun _ m => m) (Within.refl _ _) _ _ _) rfl h

theorem estimate_inv {u : State} (h : StateInv u) (a0 : _) (a1 : _) (a2 : _) :
    StateInv (estimate a0 a1 a2 u).2 :=
  inv_of (estimate_within (fun _ m => m) (Within.refl _ _) _ _ _) rfl h

theorem estimates_inv {u : State} (h : StateInv u) (a0 : _) (a1 : _) :
    StateInv (estimates a0 a1 u).2 :=
  inv_of (estimates_within (fun _ m => m) (Within.refl _ _) _ _) rfl h

theorem nameAll_inv {u : State} (h : StateInv u) (a0 : _) (a1 : _) (a2 : _) :
    ∀ v, nameAll a0 a1 a2 u = .inr v → StateInv v := by
  induction a2 generalizing u with
  | nil => intro v e; cases e; exact h
  | cons x r ih =>
    intro v e
    unfold nameAll at e
    dsimp only at e
    split at e
    · exact ih (nameUnit_inv h _ _ _ _ _ (by assumption)) v e
    · contradiction

theorem tileChecks_inv {u : State} (h : StateInv u) {go : State → Out}
    (hg : ∀ v, StateInv v → StateInv (outState (go v))) (a0 : _) (a1 : _) (a2 : _) (a3 : _) (a4 : _) (a5 : _) :
    StateInv (outState (tileChecks a0 a1 a2 a3 a4 a5 u go)) := by
  unfold tileChecks
  split
  · exact h
  split
  · exact h
  · exact hg _ (nameAll_inv h _ _ _ _ (by assumption))

theorem tileIssue_inv {u : State} (h : StateInv u) (a0 : _) (a1 : _) (a2 : _) :
    StateInv (tileIssue a0 a1 a2 u) := by
  unfold tileIssue
  try dsimp only
  repeat' (first
    | with_reducible exact h
    | with_reducible assumption
    | with_reducible refine tileChecks_inv ?_ ?_ _ _ _ _ _ _
    | refine StateInv.of_ok (by assumption) (tileChecks_inv ?_ ?_ _ _ _ _ _ _)
    | refine StateInv.of_held (by assumption) (tileChecks_inv ?_ ?_ _ _ _ _ _ _)
    | refine StateInv.of_exc (by assumption) (tileChecks_inv ?_ ?_ _ _ _ _ _ _)
    | refine StateInv.of_done (by assumption) (tileChecks_inv ?_ ?_ _ _ _ _ _ _)
    | with_reducible refine issue_inv ?_ ?_ _ _ _ _ _ _
    | with_reducible refine State_updCore_inv ?_ _ _
    | with_reducible refine StateInv.out_ok ?_
    | with_reducible refine StateInv.out_held ?_
    | with_reducible refine StateInv.out_exc ?_
    | with_reducible refine StateInv.out_done ?_
    | with_reducible refine StateInv.ite ?_ ?_
    | split
    | intro)

theorem scalar_inv {u : State} (h : StateInv u) (a0 : _) (a1 : _) (a2 : _) (a3 : _) (a4 : _) :
    StateInv (scalar a0 a1 a2 a3 a4 u) := by
  unfold scalar
  try dsimp only
  repeat' (first
    | with_reducible exact h
    | with_reducible assumption
    | with_reducible refine pushes_inv ?_ _
    | refine StateInv.of_ok (by assumption) (pushes_inv ?_ _)
    | refine StateInv.of_held (by assumption) (pushes_inv ?_ _)
    | refine StateInv.of_exc (by assumption) (pushes_inv ?_ _)
    | refine StateInv.of_done (by assumption) (pushes_inv ?_ _)
    | with_reducible refine issue_inv ?_ ?_ _ _ _ _ _ _
    | with_reducible refine StateInv.out_ok ?_
    | with_reducible refine StateInv.out_held ?_
    | with_reducible refine StateInv.out_exc ?_
    | with_reducible refine StateInv.out_done ?_
    | with_reducible refine StateInv.ite ?_ ?_
    | split
    | intro)

theorem sampleDone_inv {u : State} (h : StateInv u) (a0 : _) :
    StateInv (sampleDone a0 u) :=
  inv_of (sampleDone_within (fun _ m => m) (Within.refl _ _) _) rfl h

theorem windowEnd_inv {u : State} (h : StateInv u) (a0 : _) :
    StateInv (windowEnd a0 u) :=
  inv_of (windowEnd_within (fun _ m => m) (Within.refl _ _) _) rfl h

theorem windowStart_inv {u : State} (h : StateInv u) (a0 : _) :
    StateInv (windowStart a0 u) :=
  inv_of (windowStart_within (fun _ m => m) (Within.refl _ _) _) rfl h

theorem goes_inv {u : State} (h : StateInv u) (a1 : _) (a2 : _) :
    StateInv (outState (goes u a1 a2)) :=
  inv_of (goes_within (fun _ m => m) (Within.refl _ _) _ _) rfl h

theorem rngCommand_inv {u : State} (h : StateInv u) (a0 : _) (a1 : _) (a2 : _) (a3 : _) :
    StateInv (rngCommand a0 a1 a2 a3 u) := by
  unfold rngCommand
  try dsimp only
  repeat' (first
    | with_reducible exact h
    | with_reducible assumption
    | with_reducible refine rngWrite_inv ?_ _ _
    | with_reducible refine StateInv.ite ?_ ?_)

theorem readPair_inv {u : State} (h : StateInv u) (a0 : _) (a1 : _) :
    StateInv (readPair a0 a1 u).1 :=
  inv_of (readPair_within (fun _ m => m) (Within.refl _ _) _ _) rfl h

theorem srRead_inv {u : State} (h : StateInv u) (a0 : _) (a1 : _) (a2 : _) :
    StateInv (srRead a0 a1 a2 u).1 :=
  inv_of (srRead_within (fun _ m => m) (Within.refl _ _) _ _ _) rfl h

theorem srWriteCore_inv {u : State} (h : StateInv u) (a0 : _) (a1 : _) (a2 : _) :
    ∀ v, srWriteCore a0 a1 a2 u = .ok v → StateInv v := by
  have hp : ∀ w v, Wr.ok (u.updCore a0 (fun k => k.setReg a1 w)) = .ok v → StateInv v := by
    intro w v e; cases e; exact State_updCore_inv h _ _
  have hr : ∀ v, Wr.refused = .ok v → StateInv v := by intro v e; contradiction
  have hw : ∀ w v, Wr.wait w = .ok v → StateInv v := by intro w v e; contradiction
  have hs : ∀ v, Wr.ok u = .ok v → StateInv v := by intro v e; cases e; exact h
  have hc := classWrite_inv h a0 a1 a2
  unfold srWriteCore
  dsimp only
  repeat' first | exact hs | exact hr | exact hp _ | exact hw _ | exact hc | refine ite_wr_inv ?_ ?_

theorem srWriteThread_inv {u : State} (h : StateInv u) (a0 : _) (a1 : _) (a2 : _) :
    ∀ v, srWriteThread a0 a1 a2 u = .ok v → StateInv v := by
  have hp : ∀ f v, Wr.ok (u.updCtx a0 f) = .ok v → StateInv v := by
    intro f v e; cases e; exact State_updCtx_inv h _ _
  have hr : ∀ v, Wr.refused = .ok v → StateInv v := by intro v e; contradiction
  have hw : ∀ w v, Wr.wait w = .ok v → StateInv v := by intro w v e; contradiction
  have hs : ∀ v, Wr.ok u = .ok v → StateInv v := by intro v e; cases e; exact h
  unfold srWriteThread
  dsimp only
  repeat' first | exact hs | exact hr | exact hp _ | exact hw _ | refine ite_wr_inv ?_ ?_

theorem srWrite_inv {u : State} (h : StateInv u) (a0 : _) (a1 : _) (a2 : _) :
    ∀ v, srWrite a0 a1 a2 u = .ok v → StateInv v := by
  intro v e
  unfold srWrite at e
  try dsimp only at e
  repeat' split at e
  all_goals (try contradiction)
  all_goals (first | cases e | skip)
  all_goals repeat' (first | with_reducible exact h | with_reducible assumption | refine srWriteThread_inv ?_ _ _ _ _ (by assumption) | refine srWriteCore_inv ?_ _ _ _ _ (by assumption) | with_reducible refine StateInv.ite ?_ ?_ | split | intro)

theorem writeSr_inv {u : State} (h : StateInv u) (a0 : _) (a1 : _) (a2 : _) (a3 : _) (a4 : _) :
    StateInv (writeSr a0 a1 a2 a3 a4 u) := by
  unfold writeSr
  try dsimp only
  repeat' (first
    | with_reducible exact h
    | with_reducible assumption
    | refine srWrite_inv ?_ _ _ _ _ (by assumption)
    | with_reducible refine fault_inv ?_ _ _ _ _ _
    | with_reducible refine completeHeld_inv ?_ _ _
    | with_reducible refine setPend_inv ?_ _ _
    | with_reducible refine StateInv.ite ?_ ?_
    | split)

theorem writeReg_inv {u : State} (h : StateInv u) (a0 : _) (a1 : _) (a2 : _) :
    StateInv (writeReg a0 a1 a2 u) := by
  unfold writeReg
  try dsimp only
  repeat' (first
    | with_reducible exact h
    | with_reducible assumption
    | with_reducible refine writeSr_inv ?_ _ _ _ _ _
    | with_reducible refine blkWrite_inv ?_ _ _ _
    | with_reducible refine StateInv.ite ?_ ?_
    | split)

theorem relayTimeout_inv {u : State} (h : StateInv u) (a0 : _) :
    StateInv (relayTimeout a0 u) :=
  inv_of (relayTimeout_within (fun _ m => m) (Within.refl _ _) _) rfl h

theorem fastRelease_inv {u : State} (h : StateInv u) (a0 : _) :
    StateInv (fastRelease a0 u) := by
  unfold fastRelease
  try dsimp only
  repeat' (first
    | with_reducible exact h
    | with_reducible assumption
    | with_reducible refine releaseSource_inv ?_ _
    | with_reducible refine StateInv.ite ?_ ?_)

theorem fastStep_inv {u : State} (h : StateInv u) : StateInv (fastStep u) := by
  unfold fastStep
  split
  · refine StateInv.ite ?_ h
    extract_lets s1
    have h1 : StateInv s1 := downStep_inv h
    clear_value s1
    exact ⟨h1.1, h1.pwr, h1.boot⟩
  · exact h

theorem fastTrip_inv {u : State} (h : StateInv u) (a0 : _) :
    StateInv (fastTrip a0 u) := by
  unfold fastTrip
  try dsimp only
  repeat' (first
    | with_reducible exact h
    | with_reducible assumption
    | with_reducible refine endPulse_inv ?_ 
    | with_reducible refine assertSource_inv ?_ _
    | with_reducible refine StateInv.ite ?_ ?_)

theorem faultReset_inv {u : State} (h : StateInv u) (a0 : _) :
    StateInv (faultReset a0 u) :=
  inv_of (faultReset_within (fun _ m => m) (Within.refl _ _) _) rfl h

theorem fenceInstr_inv {u : State} (h : StateInv u) (a0 : _) (a1 : _) :
    StateInv (fenceInstr a0 a1 u) := by
  unfold fenceInstr
  try dsimp only
  repeat' (first
    | with_reducible exact h
    | with_reducible assumption
    | with_reducible refine pushes_inv ?_ _
    | refine StateInv.of_ok (by assumption) (pushes_inv ?_ _)
    | refine StateInv.of_held (by assumption) (pushes_inv ?_ _)
    | refine StateInv.of_exc (by assumption) (pushes_inv ?_ _)
    | refine StateInv.of_done (by assumption) (pushes_inv ?_ _)
    | with_reducible refine issue_inv ?_ ?_ _ _ _ _ _ _
    | with_reducible refine StateInv.out_ok ?_
    | with_reducible refine StateInv.out_held ?_
    | with_reducible refine StateInv.out_exc ?_
    | with_reducible refine StateInv.out_done ?_
    | with_reducible refine StateInv.ite ?_ ?_
    | split
    | intro)

theorem faultHeld_inv {u : State} (h : StateInv u) (a0 : _) (a1 : _) (a2 : _) :
    StateInv (faultHeld a0 a1 a2 u) := by
  unfold faultHeld
  try dsimp only
  repeat' (first
    | with_reducible exact h
    | with_reducible assumption
    | with_reducible refine fault_inv ?_ _ _ _ _ _
    | with_reducible refine stopCheck_inv ?_ _ _
    | with_reducible refine State_updCtx_inv ?_ _ _)

theorem loadFault_inv {u : State} (h : StateInv u) (a0 : _) (a1 : _) (a2 : _) :
    StateInv (loadFault a0 a1 a2 u) := by
  unfold loadFault
  try dsimp only
  repeat' (first
    | with_reducible exact h
    | with_reducible assumption
    | with_reducible refine faultHeld_inv ?_ _ _ _
    | with_reducible refine recordCont_inv ?_ _ _ _ _)

theorem wakeLoads_inv {u : State} (h : StateInv u) (a0 : _) (a1 : _) (a2 : _) :
    StateInv (wakeLoads a0 a1 a2 u) := by
  unfold wakeLoads
  try dsimp only
  repeat' (first
    | with_reducible exact h
    | with_reducible assumption
    | with_reducible refine forAll_inv ?_ ?_
    | with_reducible refine loadFault_inv ?_ _ _ _
    | with_reducible refine completeHeld_inv ?_ _ _
    | with_reducible refine forAll_inv ?_ _ _
    | with_reducible refine StateInv.ite ?_ ?_
    | split
    | intro)

theorem fillComplete_inv {u : State} (h : StateInv u) (a0 : _) :
    StateInv (fillComplete a0 u) := by
  unfold fillComplete
  try dsimp only
  repeat' (first
    | with_reducible exact h
    | with_reducible assumption
    | with_reducible refine wakeLoads_inv ?_ _ _ _
    | with_reducible refine actSr_inv ?_ _
    | with_reducible refine State_updBench_inv ?_ _ _
    | with_reducible refine StateInv.ite ?_ ?_
    | split)

theorem openFlit_inv {u : State} (h : StateInv u) (a0 : _) (a1 : _) (a2 : _) :
    StateInv (openFlit a0 a1 a2 u) := by
  unfold openFlit
  try dsimp only
  repeat' (first
    | with_reducible exact h
    | with_reducible assumption
    | with_reducible refine chanFlit_inv ?_ _ _
    | with_reducible refine toSlice_inv ?_ _ _ _ _
    | with_reducible refine toInbox_inv ?_ _ _ _
    | with_reducible refine StateInv.ite ?_ ?_
    | split)

theorem takeFlit_inv {u : State} (h : StateInv u) (a0 : _) (a1 : _) :
    StateInv (takeFlit a0 a1 u) := by
  unfold takeFlit
  try dsimp only
  repeat' (first
    | with_reducible exact h
    | with_reducible assumption
    | with_reducible refine openFlit_inv ?_ _ _ _
    | with_reducible refine dataFlit_inv ?_ _
    | with_reducible refine count_inv ?_ _ _ _
    | with_reducible refine StateInv.ite ?_ ?_
    | split)

theorem flitArrival_inv {u : State} (h : StateInv u) (a0 : _) :
    StateInv (flitArrival a0 u) := by
  unfold flitArrival
  try dsimp only
  repeat' (first
    | with_reducible exact h
    | with_reducible assumption
    | with_reducible refine takeFlit_inv ?_ _ _
    | with_reducible refine openFlit_inv ?_ _ _ _
    | refine takeArrival_inv ?_ _ (_, _) (by assumption)
    | refine takeArrival_inv ?_ _ _ (by assumption)
    | with_reducible refine inboxDrop_inv ?_ _ _
    | with_reducible refine StateInv.ite ?_ ?_
    | split)

theorem startFork_inv {u : State} (h : StateInv u) (a0 : _) (a1 : _) (a2 : _) (a3 : _) (a4 : _) :
    StateInv (startFork a0 a1 a2 a3 a4 u) :=
  inv_of (startFork_within (fun _ m => m) (Within.refl _ _) _ _ _ _ _) rfl h

end Sys2Proof.Laws
end

