-- ==== Sys2Proof/Laws/Invariant3.lean ====
section
/-! SUPPORT. Every operation keeps the invariant. -/

namespace Sys2Proof.Laws
open Sys2Proof Sys2Proof.Machine

set_option linter.unusedTactic false
set_option linter.unreachableTactic false
set_option linter.unusedVariables false

theorem fork_inv {u : State} (h : StateInv u) (a0 : _) :
    StateInv (fork a0 u) := by
  unfold fork
  try dsimp only
  repeat' (first
    | with_reducible exact h
    | with_reducible assumption
    | with_reducible refine startFork_inv ?_ _ _ _ _ _
    | with_reducible refine pushes_inv ?_ _
    | refine StateInv.of_ok (by assumption) (pushes_inv ?_ _)
    | refine StateInv.of_held (by assumption) (pushes_inv ?_ _)
    | refine StateInv.of_exc (by assumption) (pushes_inv ?_ _)
    | refine StateInv.of_done (by assumption) (pushes_inv ?_ _)
    | with_reducible refine issue_inv ?_ ?_ _ _ _ _ _ _
    | with_reducible refine StateInv.out_ok ?_
    | with_reducible refine StateInv.out_held ?_
    | with_reducible refine StateInv.out_exc ?_
    | with_reducible refine StateInv.out_done ?_
    | with_reducible refine StateInv.ite ?_ ?_
    | split
    | intro)

theorem startCore_inv {u : State} (h : StateInv u) (a0 : _) (a1 : _) (a2 : _) (a3 : _) :
    StateInv (startCore a0 a1 a2 a3 u) :=
  inv_of (startCore_within (fun _ m => m) (Within.refl _ _) _ _ _ _) rfl h

theorem traceFrame_inv {u : State} (h : StateInv u) (a0 : _) (a1 : _) (a2 : _) :
    StateInv (traceFrame a0 a1 a2 u) :=
  inv_of (traceFrame_within (fun _ m => m) (Within.refl _ _) _ _ _) rfl h

theorem startFrame_inv {u : State} (h : StateInv u) (a0 : _) (a1 : _) :
    StateInv (startFrame a0 a1 u) :=
  inv_of (startFrame_within (fun _ m => m) (Within.refl _ _) _ _) rfl h

theorem frameStart_inv {u : State} (h : StateInv u) (a0 : _) :
    StateInv (frameStart a0 u) :=
  inv_of (frameStart_within (fun _ m => m) (Within.refl _ _) _) rfl h

theorem syncRelease_inv {u : State} (h : StateInv u) (a0 : _) :
    StateInv (syncRelease a0 u) :=
  inv_of (syncRelease_within (fun _ m => m) (Within.refl _ _) _) rfl h

theorem frameSyncEdge_latch_inv {u : State} (h : StateInv u) :
    StateInv (frameSyncEdge.latch u) :=
  inv_of (frameSyncEdge_latch_within (fun _ m => m) (Within.refl _ _) ) rfl h

theorem frameSyncEdge_inv {u : State} (h : StateInv u) :
    StateInv (frameSyncEdge u) :=
  inv_of (frameSyncEdge_within (fun _ m => m) (Within.refl _ _) ) rfl h

theorem frameSyncMiss_inv {u : State} (h : StateInv u) (a0 : _) :
    StateInv (frameSyncMiss a0 u) :=
  inv_of (frameSyncMiss_within (fun _ m => m) (Within.refl _ _) _) rfl h

theorem orphan_inv {u : State} (h : StateInv u) (a0 : _) :
    StateInv (orphan a0 u) :=
  inv_of (orphan_within (fun _ m => m) (Within.refl _ _) _) rfl h

theorem functionLevelReset_inv {u : State} (h : StateInv u) (a0 : _) :
    StateInv (functionLevelReset a0 u) :=
  inv_of (functionLevelReset_within (fun _ m => m) (Within.refl _ _) _) rfl h

theorem fwActivate_inv {u : State} (h : StateInv u) (a0 : _) : StateInv (fwActivate a0 u) := by
  unfold fwActivate
  refine runCmd_inv h (fun l v hv => checked_inv hv (fun w hw => respond_inv ?_ _ _ _ _) _ _ _) _ _ _ _ _
  exact ⟨hw.1, hw.pwr, hw.boot⟩

theorem fwStage_inv {u : State} (h : StateInv u) (a0 : _) : StateInv (fwStage a0 u) := by
  unfold fwStage
  refine runCmd_inv h (fun l v hv => ?_) _ _ _ _ _
  dsimp only
  refine StateInv.ite (respond_inv hv _ _ _ _) (StateInv.ite (respond_inv hv _ _ _ _) (respond_inv ?_ _ _ _ _))
  exact ⟨hv.1, hv.pwr, hv.boot⟩

theorem refuseTally_inv {u : State} (h : StateInv u) (a0 : _) :
    StateInv (refuseTally a0 u) :=
  inv_of (refuseTally_within (fun _ m => m) (Within.refl _ _) _) rfl h

theorem performTally_inv {u : State} (h : StateInv u) (a0 : _) :
    StateInv (performTally a0 u) :=
  inv_of (performTally_within (fun _ m => m) (Within.refl _ _) _) rfl h

theorem runDeferred_inv {u : State} (h : StateInv u) (a0 : _) (a1 : _) :
    StateInv (runDeferred a0 a1 u) :=
  inv_of (runDeferred_within (fun _ m => m) (Within.refl _ _) _ _) rfl h

theorem getAttestation_inv {u : State} (h : StateInv u) (a0 : _) :
    StateInv (getAttestation a0 u) := by
  unfold getAttestation
  try dsimp only
  repeat' (first
    | with_reducible exact h
    | with_reducible assumption
    | with_reducible refine runCmd_inv ?_ ?_ _ _ _ _ _
    | with_reducible refine putAttest_inv ?_ _ _
    | with_reducible refine respond_inv ?_ _ _ _ _
    | with_reducible refine StateInv.ite ?_ ?_
    | split
    | intro)

theorem getEnergy_inv {u : State} (h : StateInv u) (a0 : _) :
    StateInv (getEnergy a0 u) := by
  unfold getEnergy
  try dsimp only
  repeat' (first
    | with_reducible exact h
    | with_reducible assumption
    | with_reducible refine runCmd_inv ?_ ?_ _ _ _ _ _
    | with_reducible refine respond_inv ?_ _ _ _ _
    | with_reducible refine StateInv.ite ?_ ?_
    | split
    | intro)

theorem getEvents_inv {u : State} (h : StateInv u) (a0 : _) :
    StateInv (getEvents a0 u) := by
  unfold getEvents
  try dsimp only
  repeat' (first
    | with_reducible exact h
    | with_reducible assumption
    | fail_if_no_progress with_reducible refine StateInv.set_fmn ?_
    | with_reducible refine runCmd_inv ?_ ?_ _ _ _ _ _
    | with_reducible refine checked_inv ?_ ?_ _ _ _
    | with_reducible refine respond_inv ?_ _ _ _ _
    | with_reducible refine StateInv.ite ?_ ?_
    | split
    | intro)

theorem getInfo_inv {u : State} (h : StateInv u) (a0 : _) :
    StateInv (getInfo a0 u) := by
  unfold getInfo
  try dsimp only
  repeat' (first
    | with_reducible exact h
    | with_reducible assumption
    | with_reducible refine runCmd_inv ?_ ?_ _ _ _ _ _
    | with_reducible refine respond_inv ?_ _ _ _ _
    | with_reducible refine StateInv.ite ?_ ?_
    | split
    | intro)

theorem globalLoadReturn_inv {u : State} (h : StateInv u) (a0 : _) :
    StateInv (globalLoadReturn a0 u) := by
  unfold globalLoadReturn
  try dsimp only
  repeat' (first
    | with_reducible exact h
    | with_reducible assumption
    | with_reducible refine loadFault_inv ?_ _ _ _
    | with_reducible refine completeHeld_inv ?_ _ _
    | with_reducible refine State_updBench_inv ?_ _ _
    | with_reducible refine StateInv.ite ?_ ?_
    | split)

theorem weltCount_inv {u : State} (h : StateInv u) (a0 : _) (a1 : _) (a2 : _) :
    StateInv (weltCount a0 a1 a2 u) :=
  inv_of (weltCount_within (fun _ m => m) (Within.refl _ _) _ _ _) rfl h

theorem mgmtBad_inv {u : State} (h : StateInv u) (a0 : _) :
    StateInv (mgmtBad a0 u) :=
  inv_of (mgmtBad_within (fun _ m => m) (Within.refl _ _) _) rfl h

theorem takeMsg_inv {u : State} (h : StateInv u) (a0 : _) :
    ∀ v, takeMsg a0 u = some v → StateInv v.2 := by
  intro v e
  unfold takeMsg at e
  try dsimp only at e
  repeat' split at e
  all_goals (try contradiction)
  all_goals (first | cases e | skip)
  all_goals repeat' (first | with_reducible exact h | with_reducible assumption | fail_if_no_progress with_reducible refine StateInv.set_fmn ?_ | with_reducible refine mgmtBad_inv ?_ _ | with_reducible refine countMsg_inv ?_ _ | with_reducible refine updSession_inv ?_ _ _ | with_reducible refine StateInv.ite ?_ ?_ | split | intro)

theorem heartbeat_inv {u : State} (h : StateInv u) :
    StateInv (heartbeat u) :=
  inv_of (heartbeat_within (fun _ m => m) (Within.refl _ _) ) rfl h

theorem heartbeatTimer_inv {u : State} (h : StateInv u) :
    StateInv (heartbeatTimer u) :=
  inv_of (heartbeatTimer_within (fun _ m => m) (Within.refl _ _) ) rfl h

theorem heldStart_inv {u : State} (h : StateInv u) (a0 : _) :
    StateInv (heldStart a0 u) := by
  unfold heldStart
  try dsimp only
  repeat' (first
    | with_reducible exact h
    | with_reducible assumption
    | with_reducible refine moduleReset_inv ?_ 
    | with_reducible refine StateInv.ite ?_ ?_)

theorem holdExpiry_inv {u : State} (h : StateInv u) (a0 : _) :
    StateInv (holdExpiry a0 u) :=
  inv_of (holdExpiry_within (fun _ m => m) (Within.refl _ _) _) rfl h

theorem hostMove_inv {u : State} (h : StateInv u) (a0 : _) (a1 : _) :
    StateInv (hostMove a0 a1 u) := by
  unfold hostMove
  try dsimp only
  repeat' (first
    | with_reducible exact h
    | with_reducible assumption
    | fail_if_no_progress with_reducible refine StateInv.set_fmn ?_
    | with_reducible refine movesGo_inv ?_ 
    | with_reducible refine runCmd_inv ?_ ?_ _ _ _ _ _
    | with_reducible refine checked_inv ?_ ?_ _ _ _
    | with_reducible refine freshSerial_inv ?_ 
    | refine StateInv.snd (by assumption) (freshSerial_inv ?_ )
    | with_reducible refine touch_inv ?_ 
    | with_reducible refine respond_inv ?_ _ _ _ _
    | with_reducible refine StateInv.ite ?_ ?_
    | split
    | intro)

theorem i3cRead_inv {u : State} (h : StateInv u) (a0 : _) :
    StateInv (i3cRead a0 u) :=
  inv_of (i3cRead_within (fun _ m => m) (Within.refl _ _) _) rfl h

theorem wakeUp_inv {u : State} (h : StateInv u) : StateInv (wakeUp u) := by
  unfold wakeUp
  refine StateInv.ite ⟨h.1, ⟨h.pwr.1, h.pwr.2.1, h.pwr.2.2.1, Nat.zero_le _⟩, ?_, ?_, Nat.zero_le _⟩ h
  · show 1 ≤ if u.pwr.wstate = 3 then 5 else 4
    split <;> decide
  · show (if u.pwr.wstate = 3 then 5 else 4) ≤ 11
    split <;> decide

theorem idleReq_inv {u : State} (h : StateInv u) (a0 : _) : StateInv (idleReq a0 u) := by
  unfold idleReq
  have h1 : StateInv (if a0.getLsbD 3 then { u with pwr := { u.pwr with idleRefused := false } } else u) :=
    StateInv.ite ⟨h.1, h.pwr, h.boot⟩ h
  dsimp only
  generalize (if a0.getLsbD 3 then { u with pwr := { u.pwr with idleRefused := false } } else u) = s1 at h1
  split
  · exact h1
  · exact doze_inv h1 _ (by decide)
  · exact doze_inv h1 _ (by decide)
  · refine wakeUp_inv ?_
    exact ⟨h1.1, h1.pwr, h1.boot⟩
  · exact refuseIdle_inv h1

theorem i3cPut_inv {u : State} (h : StateInv u) (a0 : _) (a1 : _) :
    StateInv (i3cPut a0 a1 u) := by
  unfold i3cPut
  try dsimp only
  repeat' (first
    | with_reducible exact h
    | with_reducible assumption
    | fail_if_no_progress with_reducible refine StateInv.set_board ?_
    | with_reducible refine idleReq_inv ?_ _
    | with_reducible refine StateInv.ite ?_ ?_)

theorem i3cWrite_inv {u : State} (h : StateInv u) (a0 : _) (a1 : _) :
    StateInv (i3cWrite a0 a1 u) := by
  unfold i3cWrite
  try dsimp only
  repeat' (first
    | with_reducible exact h
    | with_reducible assumption
    | fail_if_no_progress with_reducible refine StateInv.set_board ?_
    | with_reducible refine forAll_inv ?_ ?_
    | with_reducible refine i3cPut_inv ?_ _ _
    | with_reducible refine forAll_inv ?_ _ _
    | with_reducible refine StateInv.ite ?_ ?_
    | split
    | intro)

theorem idleExit_inv {u : State} (h : StateInv u) (a0 : _) :
    StateInv (idleExit a0 u) := by
  unfold idleExit
  try dsimp only
  repeat' (first
    | with_reducible exact h
    | with_reducible assumption
    | with_reducible refine wake_inv ?_ 
    | with_reducible refine StateInv.ite ?_ ?_)

theorem injection_inv {u : State} (h : StateInv u) (a0 : _) (a1 : _) :
    StateInv (injection a0 a1 u) := by
  unfold injection
  dsimp only
  refine StateInv.ite h ?_
  split
  · exact State_updCtx_inv h _ _
  · rename_i e
    split at e
    · contradiction
    · have h1 := yieldHeld_inv h a0 (_, _) e
      exact enter_inv (State_updCtx_inv h1 _ _) _ _ _ _ _ _ _

theorem inputOpen_inv {u : State} (h : StateInv u) : StateInv (inputOpen u) :=
  ⟨rfl, ⟨Nat.le_refl 7, nofun, nofun, Nat.zero_le 4⟩, Nat.le_refl 1, (by decide : 1 ≤ 11), Nat.zero_le 3⟩

theorem interruptEntry_inv {u : State} (h : StateInv u) (a0 : _) :
    StateInv (interruptEntry a0 u) := by
  unfold interruptEntry
  try dsimp only
  repeat' (first
    | with_reducible exact h
    | with_reducible assumption
    | with_reducible refine enter_inv ?_ _ _ _ _ _ _ _
    | refine yieldHeld_inv ?_ _ (_, _) (by assumption)
    | refine yieldHeld_inv ?_ _ _ (by assumption)
    | with_reducible refine StateInv.ite ?_ ?_
    | split)

theorem issueSample_inv {u : State} (h : StateInv u) (a0 : _) :
    StateInv (issueSample a0 u) :=
  inv_of (issueSample_within (fun _ m => m) (Within.refl _ _) _) rfl h

theorem join_inv {u : State} (h : StateInv u) (a0 : _) :
    StateInv (join a0 u) := by
  unfold join
  try dsimp only
  repeat' (first
    | with_reducible exact h
    | with_reducible assumption
    | with_reducible refine pushes_inv ?_ _
    | refine StateInv.of_ok (by assumption) (pushes_inv ?_ _)
    | refine StateInv.of_held (by assumption) (pushes_inv ?_ _)
    | refine StateInv.of_exc (by assumption) (pushes_inv ?_ _)
    | refine StateInv.of_done (by assumption) (pushes_inv ?_ _)
    | with_reducible refine issue_inv ?_ ?_ _ _ _ _ _ _
    | with_reducible refine State_updCtx_inv ?_ _ _
    | with_reducible refine StateInv.out_ok ?_
    | with_reducible refine StateInv.out_held ?_
    | with_reducible refine StateInv.out_exc ?_
    | with_reducible refine StateInv.out_done ?_
    | with_reducible refine StateInv.ite ?_ ?_
    | split
    | intro)

theorem joinAck_inv {u : State} (h : StateInv u) :
    StateInv (joinAck u) :=
  inv_of (joinAck_within (fun _ m => m) (Within.refl _ _) ) rfl h

theorem joinTimeout_inv {u : State} (h : StateInv u) (a0 : _) :
    StateInv (joinTimeout a0 u) := by
  unfold joinTimeout
  try dsimp only
  repeat' (first
    | with_reducible exact h
    | with_reducible assumption
    | with_reducible refine completeHeld_inv ?_ _ _
    | with_reducible refine countSpin_inv ?_ _ _
    | with_reducible refine StateInv.ite ?_ ?_
    | split)

theorem joinWake_inv {u : State} (h : StateInv u) (a0 : _) :
    StateInv (joinWake a0 u) := by
  unfold joinWake
  try dsimp only
  repeat' (first
    | with_reducible exact h
    | with_reducible assumption
    | with_reducible refine completeHeld_inv ?_ _ _
    | with_reducible refine countSpin_inv ?_ _ _
    | with_reducible refine StateInv.ite ?_ ?_
    | split)

theorem nearLoad_inv {u : State} (h : StateInv u) (a0 : _) (a1 : _) (a2 : _) (a3 : _) (a4 : _) :
    StateInv (outState (nearLoad a0 a1 a2 a3 a4 u)) :=
  inv_of (nearLoad_within (fun _ m => m) (Within.refl _ _) _ _ _ _ _) rfl h

theorem uncachedLoad_inv {u : State} (h : StateInv u) (a0 : _) (a1 : _) :
    StateInv (uncachedLoad a0 a1 u) :=
  inv_of (uncachedLoad_within (fun _ m => m) (Within.refl _ _) _ _) rfl h

theorem loadBody_inv {u : State} (h : StateInv u) (a0 : _) (a1 : _) (a2 : _) (a3 : _) :
    StateInv (outState (loadBody a0 a1 a2 a3 u)) :=
  inv_of (loadBody_within (fun _ m => m) (Within.refl _ _) _ _ _ _) rfl h

theorem loadInstr_inv {u : State} (h : StateInv u) (a0 : _) (a1 : _) (a2 : _) (a3 : _) :
    StateInv (loadInstr a0 a1 a2 a3 u) := by
  unfold loadInstr
  try dsimp only
  repeat' (first
    | with_reducible exact h
    | with_reducible assumption
    | with_reducible refine loadBody_inv ?_ _ _ _ _
    | refine StateInv.of_ok (by assumption) (loadBody_inv ?_ _ _ _ _)
    | refine StateInv.of_held (by assumption) (loadBody_inv ?_ _ _ _ _)
    | refine StateInv.of_exc (by assumption) (loadBody_inv ?_ _ _ _ _)
    | refine StateInv.of_done (by assumption) (loadBody_inv ?_ _ _ _ _)
    | with_reducible refine issue_inv ?_ ?_ _ _ _ _ _ _
    | with_reducible refine StateInv.out_ok ?_
    | with_reducible refine StateInv.out_held ?_
    | with_reducible refine StateInv.out_exc ?_
    | with_reducible refine StateInv.out_done ?_
    | with_reducible refine StateInv.ite ?_ ?_
    | split
    | intro)

theorem ldr_inv {u : State} (h : StateInv u) (a0 : _) :
    StateInv (ldr a0 u) := by
  unfold ldr
  try dsimp only
  repeat' (first
    | with_reducible exact h
    | with_reducible assumption
    | with_reducible refine nearLoad_inv ?_ _ _ _ _ _
    | refine StateInv.of_ok (by assumption) (nearLoad_inv ?_ _ _ _ _ _)
    | refine StateInv.of_held (by assumption) (nearLoad_inv ?_ _ _ _ _ _)
    | refine StateInv.of_exc (by assumption) (nearLoad_inv ?_ _ _ _ _ _)
    | refine StateInv.of_done (by assumption) (nearLoad_inv ?_ _ _ _ _ _)
    | with_reducible refine issue_inv ?_ ?_ _ _ _ _ _ _
    | with_reducible refine State_updCtx_inv ?_ _ _
    | with_reducible refine StateInv.out_ok ?_
    | with_reducible refine StateInv.out_held ?_
    | with_reducible refine StateInv.out_exc ?_
    | with_reducible refine StateInv.out_done ?_
    | with_reducible refine StateInv.ite ?_ ?_
    | split
    | intro)

theorem snapBench_inv {u : State} (h : StateInv u) (a0 : _) :
    StateInv (snapBench a0 u) :=
  inv_of (snapBench_within (fun _ m => m) (Within.refl _ _) _) rfl h

theorem snapPort_inv {u : State} (h : StateInv u) (a0 : _) :
    StateInv (snapPort a0 u) :=
  inv_of (snapPort_within (fun _ m => m) (Within.refl _ _) _) rfl h

theorem snapshot_inv {u : State} (h : StateInv u) : StateInv (snapshot u) := by
  unfold snapshot
  extract_lets s1 s2
  have h1 : StateInv s1 := forAll_inv h (fun _ _ hv => countActive_inv hv _)
  clear_value s1
  have h2 : StateInv s2 := forAll_inv (forAll_inv h1 (fun _ _ hv => snapBench_inv hv _)) (fun _ _ hv => snapPort_inv hv _)
  clear_value s2
  exact forAll_inv ⟨h2.1, h2.pwr, h2.boot⟩ (fun _ _ hv => addFrameTime_inv hv _)

theorem ledgerSnapshot_inv {u : State} (h : StateInv u) (a0 : _) (a1 : _) (a2 : _) : StateInv (ledgerSnapshot a0 a1 a2 u) := by
  unfold ledgerSnapshot
  refine StateInv.ite h ?_
  extract_lets len s1 k
  have h1 : StateInv s1 := setOp_inv (snapshot_inv h) _ h.pwr.1
  clear_value s1
  split
  rename_i es s2 e
  have h2 : StateInv s2 := StateInv.snd e (estimates_inv h1 _ _)
  extract_lets sum u1 s3 s4 src
  have h3 : StateInv s3 := by
    refine forAll_inv h2 (fun e v hv => ?_)
    refine StateInv.ite (chargePart_inv hv _ _ _ _) ?_
    exact chargePart_inv (rounded_inv hv _ _) _ _ _ _
  clear_value s3
  have h4 : StateInv s4 := StateInv.ite h3 (pwrCount_inv h3 _)
  clear_value s4
  exact ⟨h4.1, h4.pwr, h4.boot⟩

theorem literalRun_inv {u : State} (h : StateInv u) (a0 : _) (a1 : _) :
    StateInv (literalRun a0 a1 u) := by
  unfold literalRun
  try dsimp only
  repeat' (first
    | with_reducible exact h
    | with_reducible assumption
    | with_reducible refine pushes_inv ?_ _
    | refine StateInv.of_ok (by assumption) (pushes_inv ?_ _)
    | refine StateInv.of_held (by assumption) (pushes_inv ?_ _)
    | refine StateInv.of_exc (by assumption) (pushes_inv ?_ _)
    | refine StateInv.of_done (by assumption) (pushes_inv ?_ _)
    | with_reducible refine issue_inv ?_ ?_ _ _ _ _ _ _
    | with_reducible refine StateInv.out_ok ?_
    | with_reducible refine StateInv.out_held ?_
    | with_reducible refine StateInv.out_exc ?_
    | with_reducible refine StateInv.out_done ?_
    | with_reducible refine StateInv.ite ?_ ?_
    | split
    | intro)

theorem lowestCeil_le (s : State) (l : List (Nat × Nat)) : lowestCeil s l ≤ 7 := by
  unfold lowestCeil
  have : ∀ (l : List (Nat × Nat)) (m : Nat), m ≤ 7 →
      l.foldl (fun m p => max m (((s.part p.1).prog p.2).ceil % 8)) m ≤ 7 := by
    intro l
    induction l with
    | nil => intro m h; exact h
    | cons p r ih => intro m h; exact ih _ (Nat.max_le.mpr ⟨h, by omega⟩)
  exact this l 0 (by decide)

theorem moveDown_inv {u : State} (h : StateInv u) : StateInv (moveDown u) := by
  unfold moveDown
  refine StateInv.ite ?_ ⟨h.mem, ⟨h.pwr.1, ?_, ?_, h.pwr.2.2.2⟩, h.boot⟩
  rotate_left
  · intro k e
    exact h.pwr.2.1 k (Option.filter_eq_some_iff.mp e).1
  · intro k e
    exact h.pwr.2.2.1 k (Option.filter_eq_some_iff.mp e).1
  extract_lets s1
  have h1 : StateInv s1 := setOp_inv h (ceilNow u) (lowestCeil_le _ _)
  clear_value s1
  exact ⟨h1.1, ⟨h1.pwr.1, nofun, nofun, h1.pwr.2.2.2⟩, h1.boot⟩

theorem place_inv {u : State} (h : StateInv u) (a0 : _) (a1 : _) (a2 : _) :
    StateInv (place a0 a1 a2 u) := by
  unfold place
  try dsimp only
  repeat' (first
    | with_reducible exact h
    | with_reducible assumption
    | with_reducible refine forAll_inv ?_ ?_
    | with_reducible refine installFresh_inv ?_ _ _
    | with_reducible refine forAll_inv ?_ _ _
    | with_reducible refine State_updStream_inv ?_ _ _
    | with_reducible refine State_updPart_inv ?_ _ _
    | with_reducible refine StateInv.ite ?_ ?_
    | split
    | intro)

theorem saveWrite_inv {u : State} (h : StateInv u) (a0 : _) (a1 : _) (a2 : _) (a3 : _) :
    StateInv (saveWrite a0 a1 a2 a3 u) := by
  induction a1 generalizing a2 a3 u with
  | zero => exact h
  | succ n ih =>
    unfold saveWrite
    split
    · exact ih (ringWrite_inv h _ _) _ _
    · exact h

theorem moveSave_inv {u : State} (h : StateInv u) (a0 : _) (a1 : _) (a2 : _) :
    ∀ v, moveSave a0 a1 a2 u = some v → StateInv v := by
  intro v e
  unfold moveSave at e
  dsimp only at e
  split at e
  · cases e; exact h
  split at e
  · contradiction
  · cases e; exact State_updPart_inv (saveWrite_inv h _ _ _ _) _ _

theorem placeSave_inv {u : State} (h : StateInv u) (a0 : _) (a1 : _) :
    ∀ v, placeSave a0 a1 u = some v → StateInv v.2 := by
  intro v e
  have hn : ∀ l : List Nat, l.foldl (fun (r : Option State) k => r.bind (moveSave a0 k (saveTaken u a0 a1))) none = none := by
    intro l
    induction l with
    | nil => rfl
    | cons k l ih => exact ih
  have : ∀ (l : List Nat) (x y : State), StateInv x →
      l.foldl (fun (r : Option State) k => r.bind (moveSave a0 k (saveTaken u a0 a1))) (some x) = some y → StateInv y := by
    intro l
    induction l with
    | nil => intro x y hx e; cases e; exact hx
    | cons k l ih =>
      intro x y hx e
      rw [List.foldl_cons, Option.bind_some] at e
      cases m : moveSave a0 k (saveTaken u a0 a1) x with
      | none => rw [m, hn] at e; contradiction
      | some z => rw [m] at e; exact ih z y (moveSave_inv hx _ _ _ z m) e
  unfold placeSave at e
  dsimp only at e
  split at e
  · contradiction
  · rename_i s1 e1
    rw [Option.map_eq_some_iff] at e
    obtain ⟨l, -, e⟩ := e
    cases e
    exact this _ _ _ h e1

theorem loadProgram_inv {u : State} (h : StateInv u) (a0 : _) (a1 : _) :
    StateInv (loadProgram a0 a1 u) := by
  unfold loadProgram
  try dsimp only
  repeat' (first
    | with_reducible exact h
    | with_reducible assumption
    | refine placeSave_inv ?_ _ _ (_, _) (by assumption)
    | refine placeSave_inv ?_ _ _ _ (by assumption)
    | with_reducible refine place_inv ?_ _ _ _
    | with_reducible refine moveDown_inv ?_ 
    | with_reducible refine withPart_inv ?_ ?_ _ _
    | with_reducible refine runCmd_inv ?_ ?_ _ _ _ _ _
    | with_reducible refine checked_inv ?_ ?_ _ _ _
    | with_reducible refine respond_inv ?_ _ _ _ _
    | with_reducible refine StateInv.ite ?_ ?_
    | split
    | intro)

theorem multiply_inv {u : State} (h : StateInv u) (a0 : _) (a1 : _) (a2 : _) (a3 : _) :
    StateInv (multiply a0 a1 a2 a3 u) := by
  unfold multiply
  try dsimp only
  repeat' (first
    | with_reducible exact h
    | with_reducible assumption
    | with_reducible refine pushes_inv ?_ _
    | refine StateInv.of_ok (by assumption) (pushes_inv ?_ _)
    | refine StateInv.of_held (by assumption) (pushes_inv ?_ _)
    | refine StateInv.of_exc (by assumption) (pushes_inv ?_ _)
    | refine StateInv.of_done (by assumption) (pushes_inv ?_ _)
    | with_reducible refine issue_inv ?_ ?_ _ _ _ _ _ _
    | with_reducible refine State_updCtx_inv ?_ _ _
    | with_reducible refine StateInv.out_ok ?_
    | with_reducible refine StateInv.out_held ?_
    | with_reducible refine StateInv.out_exc ?_
    | with_reducible refine StateInv.out_done ?_
    | with_reducible refine StateInv.ite ?_ ?_
    | split
    | intro)

theorem handOver_inv {u : State} (h : StateInv u) (a0 : _) :
    StateInv (handOver a0 u) := by
  unfold handOver
  try dsimp only
  repeat' (first
    | with_reducible exact h
    | with_reducible assumption
    | with_reducible refine accept_inv ?_ _
    | with_reducible refine raise_inv ?_ _ _
    | with_reducible refine State_updMbox_inv ?_ _ _
    | with_reducible refine StateInv.ite ?_ ?_
    | split)

theorem mailboxHandover_inv {u : State} (h : StateInv u) (a0 : _) (a1 : _) (a2 : _) (a3 : _) :
    StateInv (mailboxHandover a0 a1 a2 a3 u) := by
  unfold mailboxHandover
  try dsimp only
  repeat' (first
    | with_reducible exact h
    | with_reducible assumption
    | with_reducible refine handOver_inv ?_ _
    | with_reducible refine countDrops_inv ?_ _
    | with_reducible refine State_updMbox_inv ?_ _ _
    | with_reducible refine StateInv.ite ?_ ?_)

theorem mailboxHostWrite_inv {u : State} (h : StateInv u) (a0 : _) (a1 : _) (a2 : _) :
    StateInv (mailboxHostWrite a0 a1 a2 u) := by
  unfold mailboxHostWrite
  try dsimp only
  repeat' (first
    | with_reducible exact h
    | with_reducible assumption
    | with_reducible refine handOver_inv ?_ _
    | with_reducible refine countDrops_inv ?_ _
    | with_reducible refine State_updMbox_inv ?_ _ _
    | with_reducible refine StateInv.ite ?_ ?_)

theorem traceSlip_inv {u : State} (h : StateInv u) (a0 : _) (a1 : _) :
    StateInv (traceSlip a0 a1 u) :=
  inv_of (traceSlip_within (fun _ m => m) (Within.refl _ _) _ _) rfl h

theorem lateMarker_inv {u : State} (h : StateInv u) (a0 : _) (a1 : _) :
    StateInv (lateMarker a0 a1 u) :=
  inv_of (lateMarker_within (fun _ m => m) (Within.refl _ _) _ _) rfl h

theorem porterReply_inv {u : State} (h : StateInv u) (a0 : _) (a1 : _) (a2 : _) (a3 : _) :
    StateInv (porterReply a0 a1 a2 a3 u) := by
  unfold porterReply
  try dsimp only
  repeat' (first
    | with_reducible exact h
    | with_reducible assumption
    | with_reducible refine descFault_inv ?_ _ _ _ _ _ _
    | with_reducible refine landed_inv ?_ _ _ _
    | with_reducible refine settleDesc_inv ?_ _ _
    | with_reducible refine absorb_inv ?_ _
    | with_reducible refine write_inv ?_ _ _
    | with_reducible refine State_updSlotOf_inv ?_ _ _ _
    | with_reducible refine StateInv.ite ?_ ?_
    | split)

theorem replyArrival_inv {u : State} (h : StateInv u) (a0 : _) :
    StateInv (replyArrival a0 u) := by
  unfold replyArrival
  try dsimp only
  repeat' (first
    | with_reducible exact h
    | with_reducible assumption
    | with_reducible refine porterReply_inv ?_ _ _ _ _
    | with_reducible refine lateMarker_inv ?_ _ _
    | with_reducible refine uloadData_inv ?_ _ _ _ _
    | with_reducible refine fillData_inv ?_ _ _ _ _
    | refine takeArrival_inv ?_ _ (_, _) (by assumption)
    | refine takeArrival_inv ?_ _ _ (by assumption)
    | with_reducible refine absorb_inv ?_ _
    | with_reducible refine StateInv.ite ?_ ?_
    | split)

theorem oweReply_inv {u : State} (h : StateInv u) (a0 : _) (a1 : _) (a2 : _) (a3 : _) (a4 : _) (a5 : _) :
    StateInv (oweReply a0 a1 a2 a3 a4 a5 u) :=
  inv_of (oweReply_within (fun _ m => m) (Within.refl _ _) _ _ _ _ _ _) rfl h

theorem portRead_inv {u : State} (h : StateInv u) (a0 : _) (a1 : _) (a2 : _) :
    StateInv (portRead a0 a1 a2 u) :=
  inv_of (portRead_within (fun _ m => m) (Within.refl _ _) _ _ _) rfl h

theorem writeCounted_inv {u : State} (h : StateInv u) (a0 : _) :
    StateInv (writeCounted a0 u) :=
  inv_of (writeCounted_within (fun _ m => m) (Within.refl _ _) _) rfl h

theorem portWrite_inv {u : State} (h : StateInv u) (a0 : _) (a1 : _) (a2 : _) :
    StateInv (portWrite a0 a1 a2 u) := by
  unfold portWrite
  try dsimp only
  repeat' (first
    | with_reducible exact h
    | with_reducible assumption
    | with_reducible refine writeCounted_inv ?_ _
    | with_reducible refine countAccess_inv ?_ _ _ _
    | with_reducible refine stopNow_inv ?_ _
    | with_reducible refine write_inv ?_ _ _
    | with_reducible refine writeMask_inv ?_ _ _
    | with_reducible refine State_updPort_inv ?_ _ _
    | with_reducible refine StateInv.ite ?_ ?_
    | split)

theorem memoryRequest_inv {u : State} (h : StateInv u) (a0 : _) :
    StateInv (memoryRequest a0 u) := by
  unfold memoryRequest
  try dsimp only
  repeat' (first
    | with_reducible exact h
    | with_reducible assumption
    | with_reducible refine portWrite_inv ?_ _ _ _
    | with_reducible refine portRead_inv ?_ _ _ _
    | refine takeArrival_inv ?_ _ (_, _) (by assumption)
    | refine takeArrival_inv ?_ _ _ (by assumption)
    | with_reducible refine count_inv ?_ _ _ _
    | with_reducible refine StateInv.ite ?_ ?_
    | split)

theorem putB_inv {u : State} (h : StateInv u) (a0 : _) (a1 : _) :
    StateInv (putB a0 a1 u) :=
  inv_of (putB_within (fun _ m => m) (Within.refl _ _) _ _) rfl h

theorem putConn_inv {u : State} (h : StateInv u) (a0 : _) (a1 : _) :
    StateInv (putConn a0 a1 u) := by
  unfold putConn
  try dsimp only
  repeat' (first
    | with_reducible exact h
    | with_reducible assumption
    | with_reducible refine putB_inv ?_ _ _
    | with_reducible refine connFlit_inv ?_ _ _)

theorem injectB_inv {u : State} (h : StateInv u) (a0 : _) :
    StateInv (injectB a0 u) := by
  unfold injectB
  try dsimp only
  repeat' (first
    | with_reducible exact h
    | with_reducible assumption
    | with_reducible refine putConn_inv ?_ _ _
    | with_reducible refine StateInv.ite ?_ ?_
    | split)

theorem injectWelt_inv {u : State} (h : StateInv u) (a0 : _) :
    StateInv (injectWelt a0 u) :=
  inv_of (injectWelt_within (fun _ m => m) (Within.refl _ _) _) rfl h

theorem linkError_inv {u : State} (h : StateInv u) (a0 : _) :
    StateInv (linkError a0 u) :=
  inv_of (linkError_within (fun _ m => m) (Within.refl _ _) _) rfl h

theorem ringMove_inv {u : State} (h : StateInv u) (a0 : _) (a1 : _) (a2 : _) : StateInv (ringMove a0 a1 a2 u) :=
  inv_of (ringMove_within (fun _ m => m) (Within.refl _ _) _ _ _) rfl h

theorem ringCycle_inv {u : State} (h : StateInv u) :
    StateInv (ringCycle u) :=
  inv_of (ringCycle_within (fun _ m => m) (Within.refl _ _) ) rfl h

theorem meshTick_inv {u : State} (h : StateInv u) :
    StateInv (meshTick u) :=
  inv_of (meshTick_within (fun _ m => m) (Within.refl _ _) ) rfl h

theorem sendReply_inv {u : State} (h : StateInv u) (a0 : _) (a1 : _) (a2 : _) :
    StateInv (sendReply a0 a1 a2 u) :=
  inv_of (sendReply_within (fun _ m => m) (Within.refl _ _) _ _ _) rfl h

theorem slip_inv {u : State} (h : StateInv u) (a0 : _) (a1 : _) :
    StateInv (slip a0 a1 u) :=
  inv_of (slip_within (fun _ m => m) (Within.refl _ _) _ _) rfl h

theorem replySlot_inv {u : State} (h : StateInv u) (a0 : _) :
    StateInv (replySlot a0 u) :=
  inv_of (replySlot_within (fun _ m => m) (Within.refl _ _) _) rfl h

theorem reserveSlot_inv {u : State} (h : StateInv u) (a0 : _) :
    StateInv (reserveSlot a0 u) :=
  inv_of (reserveSlot_within (fun _ m => m) (Within.refl _ _) _) rfl h

theorem sendOut_inv {u : State} (h : StateInv u) (a0 : _) (a1 : _) (a2 : _) :
    StateInv (sendOut a0 a1 a2 u) :=
  inv_of (sendOut_within (fun _ m => m) (Within.refl _ _) _ _ _) rfl h

theorem route_inv {u : State} (h : StateInv u) (a0 : _) :
    StateInv (route a0 u) :=
  inv_of (route_within (fun _ m => m) (Within.refl _ _) _) rfl h

theorem routeAll_inv {u : State} (h : StateInv u) :
    StateInv (routeAll u) :=
  inv_of (routeAll_within (fun _ m => m) (Within.refl _ _) ) rfl h

theorem upsetEntry_inv {u : State} (h : StateInv u) (a0 : _) (a1 : _) (a2 : _) (a3 : _) :
    StateInv (upsetEntry a0 a1 a2 a3 u) :=
  inv_of (upsetEntry_within (fun _ m => m) (Within.refl _ _) _ _ _ _) rfl h

theorem upsetLine_inv {u : State} (h : StateInv u) (a0 : _) (a1 : _) (a2 : _) :
    StateInv (upsetLine a0 a1 a2 u) :=
  inv_of (upsetLine_within (fun _ m => m) (Within.refl _ _) _ _ _) rfl h

theorem upset_inv {u : State} (h : StateInv u) (a0 : _) :
    StateInv (upset a0 u) :=
  inv_of (upset_within (fun _ m => m) (Within.refl _ _) _) rfl h

theorem meshCycle_inv {u : State} (h : StateInv u) (a0 : _) :
    StateInv (meshCycle a0 u) := by
  unfold meshCycle
  try dsimp only
  repeat' (first
    | with_reducible exact h
    | with_reducible assumption
    | with_reducible refine forAll_inv ?_ ?_
    | with_reducible refine upset_inv ?_ _
    | with_reducible refine routeAll_inv ?_ 
    | with_reducible refine reserveSlot_inv ?_ _
    | with_reducible refine replySlot_inv ?_ _
    | with_reducible refine meshTick_inv ?_ 
    | with_reducible refine linkError_inv ?_ _
    | with_reducible refine injectWelt_inv ?_ _
    | with_reducible refine injectB_inv ?_ _
    | with_reducible refine controlCycle_inv ?_ 
    | with_reducible refine forAll_inv ?_ _ _
    | with_reducible refine StateInv.ite ?_ ?_
    | split
    | intro)

theorem mgmtCommand_inv {u : State} (h : StateInv u) :
    StateInv (mgmtCommand u) := by
  unfold mgmtCommand
  try dsimp only
  repeat' (first
    | with_reducible exact h
    | with_reducible assumption
    | refine takeMsg_inv ?_ _ (_, _) (by assumption)
    | refine takeMsg_inv ?_ _ _ (by assumption)
    | with_reducible refine mgmtBad_inv ?_ _
    | with_reducible refine accept_inv ?_ _
    | with_reducible refine sendMsg_inv ?_ _ _ _ _ _
    | with_reducible refine State_updMbox_inv ?_ _ _
    | with_reducible refine StateInv.ite ?_ ?_
    | split)

theorem mgmtJoin_inv {u : State} (h : StateInv u) :
    StateInv (mgmtJoin u) :=
  inv_of (mgmtJoin_within (fun _ m => m) (Within.refl _ _) ) rfl h

theorem mgmtLeave_inv {u : State} (h : StateInv u) :
    StateInv (mgmtLeave u) :=
  inv_of (mgmtLeave_within (fun _ m => m) (Within.refl _ _) ) rfl h

theorem mgmtResponse_inv {u : State} (h : StateInv u) :
    StateInv (mgmtResponse u) :=
  inv_of (mgmtResponse_within (fun _ m => m) (Within.refl _ _) ) rfl h

theorem microOp_inv {m : MicroState} (h : StateInv m.s) (a0 : _) (a1 : _) (a2 : _) (a3 : _) :
    ∀ v, microOp a0 a1 a2 a3 m = some (.inl v) → StateInv v.s := by
  have put : ∀ (c : Prop) [Decidable c] (x y : MicroState), StateInv x.s →
      (if c then none else some (Sum.inl x : MicroState ⊕ (Nat × Word))) = some (.inl y) → StateInv y.s := by
    intro c _ x y hx e
    split at e
    · contradiction
    · cases e; exact hx
  have hc := coreCount_inv h a0.core 0x18 1
  have hn := fun a n => noteRead_inv h a n
  have hw := fun a l => write_inv h a l
  intro v e
  unfold microOp at e
  dsimp only at e
  split at e <;> first
    | exact put _ _ _ h e
    | skip
  all_goals
    repeat' first
      | exact put _ _ _ h e
      | exact put _ _ _ (hw _ _) e
      | exact put _ _ _ (hn _ _) e
      | contradiction
      | (cases e; done)
      | (cases e; first | exact h | exact hn _ _ | exact hw _ _ | exact hc)
      | split at e
  all_goals first
    | exact put _ _ _ (StateInv.ite h hc) e
    | skip

theorem microRun_inv {m : MicroState} (h : StateInv m.s) (a0 : _) (a1 : _) (a2 : _) (a3 : _) (a4 : _) :
    StateInv (microState (microRun a0 a1 a2 a3 a4 m)) := by
  induction a4 generalizing m with
  | zero => exact h
  | succ n ih =>
    unfold microRun
    dsimp only
    repeat' first
      | exact h
      | exact ih (by exact h)
      | (have h1 := microOp_inv h _ _ _ _ _ ‹microOp _ _ _ _ _ = some (Sum.inl _)›; exact h1)
      | exact ih (by have h1 := microOp_inv h _ _ _ _ _ ‹microOp _ _ _ _ _ = some (Sum.inl _)›; exact h1)
      | split

theorem microResult_inv {u : State} (h : StateInv u) (a0 : _) (a1 : _) :
    StateInv (microState (microResult a0 a1 u)) := by
  unfold microResult
  exact microRun_inv (m := { s := u, stk := _, i := _, cyc := _, acc := _, muls := _ }) h _ _ _ _ _

theorem microEnd_inv {u : State} (h : StateInv u) (a0 : _) : StateInv (microEnd a0 u) := by
  unfold microEnd
  split
  · dsimp only
    split
    · exact h
    · rename_i r rest _ _ _ _
      have hm := microResult_inv h a0 r
      split <;> rename_i e <;> rw [e] at hm
      · exact StateInv.ite h (completeHeld_inv (State_updCore_inv hm _ _) _ _)
      · refine StateInv.ite h (faultHeld_inv (StateInv.ite ?_ ?_) _ _ _)
        · exact memCont_inv (State_updCore_inv hm _ _) _ _ _
        · exact State_updCore_inv hm _ _
  · exact h

theorem microStart_inv {u : State} (h : StateInv u) (a0 : _) :
    StateInv (microStart a0 u) :=
  inv_of (microStart_within (fun _ m => m) (Within.refl _ _) _) rfl h

theorem wakeRdtsr_inv {u : State} (h : StateInv u) (a0 : _) :
    StateInv (wakeRdtsr a0 u) := by
  unfold wakeRdtsr
  try dsimp only
  repeat' (first
    | with_reducible exact h
    | with_reducible assumption
    | with_reducible refine forAll_inv ?_ ?_
    | with_reducible refine completeHeld_inv ?_ _ _
    | with_reducible refine forAll_inv ?_ _ _
    | with_reducible refine StateInv.ite ?_ ?_
    | split
    | intro)

theorem toward_inv {u : State} (h : StateInv u) : StateInv (toward u) := by
  have hop := h.pwr.1
  have hs : ∀ k, k ≤ 7 → StateInv { u with pwr := { u.pwr with stepTo := some k } } := by
    intro k hk
    exact inv_pwr h hop (by intro j e; cases e; exact hk) h.pwr.2.2.1 h.pwr.2.2.2
  unfold toward
  split
  · exact h
  · rename_i g e
    have hg := h.pwr.2.2.1 g e
    refine StateInv.ite h ?_
    by_cases hk : u.pwr.op < g
    · rw [if_pos hk]; exact hs (u.pwr.op + 1) (by omega)
    · rw [if_neg hk]
      refine StateInv.ite (hs (u.pwr.op - 1) (by omega)) ?_
      exact inv_pwr h hop h.pwr.2.1 nofun h.pwr.2.2.2

theorem opStepDone_inv {u : State} (h : StateInv u) : StateInv (opStepDone u) := by
  unfold opStepDone
  split
  · rename_i k e
    extract_lets s1
    have h1 : StateInv s1 := setOp_inv h k (h.pwr.2.1 k e)
    clear_value s1
    exact toward_inv (endPulse_inv ⟨h1.1, ⟨h1.pwr.1, nofun, h1.pwr.2.2.1, h1.pwr.2.2.2⟩, h1.boot⟩)
  · exact toward_inv h

theorem openStreamRx_inv {u : State} (h : StateInv u) (a0 : _) :
    StateInv (openStreamRx a0 u) := by
  unfold openStreamRx
  try dsimp only
  repeat' (first
    | with_reducible exact h
    | with_reducible assumption
    | with_reducible refine withPart_inv ?_ ?_ _ _
    | with_reducible refine runCmd_inv ?_ ?_ _ _ _ _ _
    | with_reducible refine checked_inv ?_ ?_ _ _ _
    | with_reducible refine respond_inv ?_ _ _ _ _
    | with_reducible refine State_updStream_inv ?_ _ _
    | with_reducible refine StateInv.ite ?_ ?_
    | split
    | intro)

theorem openStreamTx_inv {u : State} (h : StateInv u) (a0 : _) :
    StateInv (openStreamTx a0 u) := by
  unfold openStreamTx
  try dsimp only
  repeat' (first
    | with_reducible exact h
    | with_reducible assumption
    | with_reducible refine withPart_inv ?_ ?_ _ _
    | with_reducible refine runCmd_inv ?_ ?_ _ _ _ _ _
    | with_reducible refine checked_inv ?_ ?_ _ _ _
    | with_reducible refine respond_inv ?_ _ _ _ _
    | with_reducible refine State_updStream_inv ?_ _ _
    | with_reducible refine StateInv.ite ?_ ?_
    | split
    | intro)

theorem withSlot_inv {u : State} (h : StateInv u) {k : State → Out}
    (hk : ∀ v, StateInv v → StateInv (outState (k v))) (a0 : _) (a1 : _) (a2 : _) :
    StateInv (outState (withSlot a0 a1 a2 u k)) := by
  unfold withSlot
  split
  · exact h
  · exact hk _ (nameUnit_inv h _ _ _ _ _ (by assumption))

theorem pabort_inv {u : State} (h : StateInv u) (a0 : _) :
    StateInv (pabort a0 u) := by
  unfold pabort
  try dsimp only
  repeat' (first
    | with_reducible exact h
    | with_reducible assumption
    | with_reducible refine withSlot_inv ?_ ?_ _ _ _
    | refine StateInv.of_ok (by assumption) (withSlot_inv ?_ ?_ _ _ _)
    | refine StateInv.of_held (by assumption) (withSlot_inv ?_ ?_ _ _ _)
    | refine StateInv.of_exc (by assumption) (withSlot_inv ?_ ?_ _ _ _)
    | refine StateInv.of_done (by assumption) (withSlot_inv ?_ ?_ _ _ _)
    | with_reducible refine pushes_inv ?_ _
    | refine StateInv.of_ok (by assumption) (pushes_inv ?_ _)
    | refine StateInv.of_held (by assumption) (pushes_inv ?_ _)
    | refine StateInv.of_exc (by assumption) (pushes_inv ?_ _)
    | refine StateInv.of_done (by assumption) (pushes_inv ?_ _)
    | with_reducible refine issue_inv ?_ ?_ _ _ _ _ _ _
    | with_reducible refine abortDesc_inv ?_ _ _
    | with_reducible refine StateInv.out_ok ?_
    | with_reducible refine StateInv.out_held ?_
    | with_reducible refine StateInv.out_exc ?_
    | with_reducible refine StateInv.out_done ?_
    | with_reducible refine StateInv.ite ?_ ?_
    | split
    | intro)

theorem packetCounted_inv {u : State} (h : StateInv u) (a0 : _) (a1 : _) :
    StateInv (packetCounted a0 a1 u) :=
  inv_of (packetCounted_within (fun _ m => m) (Within.refl _ _) _ _) rfl h

theorem pathRelease_inv {u : State} (h : StateInv u) (a0 : _) (a1 : _) :
    StateInv (pathRelease a0 a1 u) :=
  inv_of (pathRelease_within (fun _ m => m) (Within.refl _ _) _ _) rfl h

theorem pathRoutersFreed_inv {u : State} (h : StateInv u) (a0 : _) (a1 : _) :
    StateInv (pathRoutersFreed a0 a1 u) :=
  inv_of (pathRoutersFreed_within (fun _ m => m) (Within.refl _ _) _ _) rfl h

theorem perstAssert_inv {u : State} (h : StateInv u) (a0 : _) :
    StateInv (perstAssert a0 u) := by
  unfold perstAssert
  try dsimp only
  repeat' (first
    | with_reducible exact h
    | with_reducible assumption
    | fail_if_no_progress with_reducible refine StateInv.set_board ?_
    | with_reducible refine askModuleReset_inv ?_ 
    | with_reducible refine StateInv.ite ?_ ?_)

theorem perstDeassert_inv {u : State} (h : StateInv u) :
    StateInv (perstDeassert u) := by
  unfold perstDeassert
  try dsimp only
  repeat' (first
    | with_reducible exact h
    | with_reducible assumption
    | fail_if_no_progress with_reducible refine StateInv.set_board ?_
    | with_reducible refine wakeUp_inv ?_ 
    | with_reducible refine StateInv.ite ?_ ?_)

theorem pick_inv {u : State} (h : StateInv u) (a0 : _) :
    StateInv (pick a0 u) := by
  unfold pick
  try dsimp only
  repeat' (first
    | with_reducible exact h
    | with_reducible assumption
    | with_reducible refine pushes_inv ?_ _
    | refine StateInv.of_ok (by assumption) (pushes_inv ?_ _)
    | refine StateInv.of_held (by assumption) (pushes_inv ?_ _)
    | refine StateInv.of_exc (by assumption) (pushes_inv ?_ _)
    | refine StateInv.of_done (by assumption) (pushes_inv ?_ _)
    | with_reducible refine issue_inv ?_ ?_ _ _ _ _ _ _
    | with_reducible refine StateInv.out_ok ?_
    | with_reducible refine StateInv.out_held ?_
    | with_reducible refine StateInv.out_exc ?_
    | with_reducible refine StateInv.out_done ?_
    | with_reducible refine StateInv.ite ?_ ?_
    | split
    | intro)

theorem portTrained_inv {u : State} (h : StateInv u) (a0 : _) : StateInv (portTrained a0 u) := by
  unfold portTrained
  refine StateInv.ite ?_ h
  extract_lets s1
  have h1 : StateInv s1 := State_updWelt_inv h _ _
  clear_value s1
  refine logEvent_inv (recheck_inv ?_) _ _ _ _
  exact ⟨h1.1, h1.pwr, h1.boot⟩

theorem powerOn_inv {u : State} (h : StateInv u) (a0 : _) :
    StateInv (powerOn a0 u) :=
  inv_of (powerOn_within (fun _ m => m) (Within.refl _ _) _) rfl h

theorem ppost_inv {u : State} (h : StateInv u) (a0 : _) :
    StateInv (ppost a0 u) := by
  unfold ppost
  try dsimp only
  repeat' (first
    | with_reducible exact h
    | with_reducible assumption
    | with_reducible refine withSlot_inv ?_ ?_ _ _ _
    | refine StateInv.of_ok (by assumption) (withSlot_inv ?_ ?_ _ _ _)
    | refine StateInv.of_held (by assumption) (withSlot_inv ?_ ?_ _ _ _)
    | refine StateInv.of_exc (by assumption) (withSlot_inv ?_ ?_ _ _ _)
    | refine StateInv.of_done (by assumption) (withSlot_inv ?_ ?_ _ _ _)
    | with_reducible refine localRead_inv ?_ ?_ _ _ _
    | refine StateInv.of_ok (by assumption) (localRead_inv ?_ ?_ _ _ _)
    | refine StateInv.of_held (by assumption) (localRead_inv ?_ ?_ _ _ _)
    | refine StateInv.of_exc (by assumption) (localRead_inv ?_ ?_ _ _ _)
    | refine StateInv.of_done (by assumption) (localRead_inv ?_ ?_ _ _ _)
    | with_reducible refine freshSerial_inv ?_ 
    | refine StateInv.snd (by assumption) (freshSerial_inv ?_ )
    | with_reducible refine pushes_inv ?_ _
    | refine StateInv.of_ok (by assumption) (pushes_inv ?_ _)
    | refine StateInv.of_held (by assumption) (pushes_inv ?_ _)
    | refine StateInv.of_exc (by assumption) (pushes_inv ?_ _)
    | refine StateInv.of_done (by assumption) (pushes_inv ?_ _)
    | with_reducible refine issue_inv ?_ ?_ _ _ _ _ _ _
    | with_reducible refine State_updSlotOf_inv ?_ _ _ _
    | with_reducible refine StateInv.out_ok ?_
    | with_reducible refine StateInv.out_held ?_
    | with_reducible refine StateInv.out_exc ?_
    | with_reducible refine StateInv.out_done ?_
    | with_reducible refine StateInv.ite ?_ ?_
    | split
    | intro)

theorem preamble_inv {u : State} (h : StateInv u) (a0 : _) : StateInv (preamble a0 u) := by
  unfold preamble
  extract_lets q
  split
  · exact h
  · refine StateInv.ite h (StateInv.ite (StateInv.ite ?_ h) (StateInv.ite (State_updPart_inv h _ _) h))
    have h1 : ∀ e, StateInv (forAll (coresOf u a0) clockOn (beginRamp a0 3 e u)) :=
      fun e => forAll_inv (beginRamp_inv h _ _ _) (fun _ _ hv => clockOn_inv hv _)
    exact ⟨(h1 _).mem, (h1 _).pwr, (h1 _).boot⟩

theorem pstat_inv {u : State} (h : StateInv u) (a0 : _) :
    StateInv (pstat a0 u) := by
  unfold pstat
  try dsimp only
  repeat' (first
    | with_reducible exact h
    | with_reducible assumption
    | with_reducible refine withSlot_inv ?_ ?_ _ _ _
    | refine StateInv.of_ok (by assumption) (withSlot_inv ?_ ?_ _ _ _)
    | refine StateInv.of_held (by assumption) (withSlot_inv ?_ ?_ _ _ _)
    | refine StateInv.of_exc (by assumption) (withSlot_inv ?_ ?_ _ _ _)
    | refine StateInv.of_done (by assumption) (withSlot_inv ?_ ?_ _ _ _)
    | with_reducible refine emptySlot_inv ?_ _ _
    | with_reducible refine pushes_inv ?_ _
    | refine StateInv.of_ok (by assumption) (pushes_inv ?_ _)
    | refine StateInv.of_held (by assumption) (pushes_inv ?_ _)
    | refine StateInv.of_exc (by assumption) (pushes_inv ?_ _)
    | refine StateInv.of_done (by assumption) (pushes_inv ?_ _)
    | with_reducible refine issue_inv ?_ ?_ _ _ _ _ _ _
    | with_reducible refine StateInv.out_ok ?_
    | with_reducible refine StateInv.out_held ?_
    | with_reducible refine StateInv.out_exc ?_
    | with_reducible refine StateInv.out_done ?_
    | with_reducible refine StateInv.ite ?_ ?_
    | split
    | intro)

theorem pwrBrake_inv {u : State} (h : StateInv u) (a0 : _) (a1 : _) :
    StateInv (pwrBrake a0 a1 u) := by
  unfold pwrBrake
  try dsimp only
  repeat' (first
    | with_reducible exact h
    | with_reducible assumption
    | fail_if_no_progress with_reducible refine StateInv.set_board ?_
    | with_reducible refine releaseSource_inv ?_ _
    | with_reducible refine assertSource_inv ?_ _
    | with_reducible refine StateInv.ite ?_ ?_)

theorem queryJob_inv {u : State} (h : StateInv u) (a0 : _) :
    StateInv (queryJob a0 u) := by
  unfold queryJob
  try dsimp only
  repeat' (first
    | with_reducible exact h
    | with_reducible assumption
    | with_reducible refine withPart_inv ?_ ?_ _ _
    | with_reducible refine runCmd_inv ?_ ?_ _ _ _ _ _
    | with_reducible refine checked_inv ?_ ?_ _ _ _
    | with_reducible refine respond_inv ?_ _ _ _ _
    | with_reducible refine StateInv.ite ?_ ?_
    | split
    | intro)

theorem quietEnd_inv {u : State} (h : StateInv u) (a0 : _) :
    StateInv (quietEnd a0 u) :=
  inv_of (quietEnd_within (fun _ m => m) (Within.refl _ _) _) rfl h

theorem quit_inv {u : State} (h : StateInv u) (a0 : _) :
    StateInv (quit a0 u) := by
  unfold quit
  try dsimp only
  repeat' (first
    | with_reducible exact h
    | with_reducible assumption
    | with_reducible refine goes_inv ?_ _ _
    | refine StateInv.of_ok (by assumption) (goes_inv ?_ _ _)
    | refine StateInv.of_held (by assumption) (goes_inv ?_ _ _)
    | refine StateInv.of_exc (by assumption) (goes_inv ?_ _ _)
    | refine StateInv.of_done (by assumption) (goes_inv ?_ _ _)
    | with_reducible refine issue_inv ?_ ?_ _ _ _ _ _ _
    | with_reducible refine State_updCtx_inv ?_ _ _
    | with_reducible refine StateInv.out_ok ?_
    | with_reducible refine StateInv.out_held ?_
    | with_reducible refine StateInv.out_exc ?_
    | with_reducible refine StateInv.out_done ?_
    | with_reducible refine StateInv.ite ?_ ?_
    | split
    | intro)

theorem rampDown_inv {u : State} (h : StateInv u) (a0 : _) :
    StateInv (rampDown a0 u) := by
  unfold rampDown
  try dsimp only
  repeat' (first
    | with_reducible exact h
    | with_reducible assumption
    | with_reducible refine forAll_inv ?_ ?_
    | with_reducible refine clockOff_inv ?_ _
    | with_reducible refine beginRamp_inv ?_ _ _ _
    | with_reducible refine touch_inv ?_ 
    | with_reducible refine forAll_inv ?_ _ _
    | with_reducible refine State_updPart_inv ?_ _ _
    | with_reducible refine StateInv.foldl ?_ ?_
    | with_reducible refine StateInv.ite ?_ ?_
    | split
    | intro)

theorem rdsr_inv {u : State} (h : StateInv u) (a0 : _) :
    StateInv (rdsr a0 u) := by
  unfold rdsr
  try dsimp only
  repeat' (first
    | with_reducible exact h
    | with_reducible assumption
    | with_reducible refine srRead_inv ?_ _ _ _
    | refine StateInv.fst (by assumption) (srRead_inv ?_ _ _ _)
    | with_reducible refine pushes_inv ?_ _
    | refine StateInv.of_ok (by assumption) (pushes_inv ?_ _)
    | refine StateInv.of_held (by assumption) (pushes_inv ?_ _)
    | refine StateInv.of_exc (by assumption) (pushes_inv ?_ _)
    | refine StateInv.of_done (by assumption) (pushes_inv ?_ _)
    | with_reducible refine issue_inv ?_ ?_ _ _ _ _ _ _
    | with_reducible refine StateInv.out_ok ?_
    | with_reducible refine StateInv.out_held ?_
    | with_reducible refine StateInv.out_exc ?_
    | with_reducible refine StateInv.out_done ?_
    | with_reducible refine StateInv.ite ?_ ?_
    | split
    | intro)

theorem rdtsr_inv {u : State} (h : StateInv u) (a0 : _) :
    StateInv (rdtsr a0 u) := by
  unfold rdtsr
  try dsimp only
  repeat' (first
    | with_reducible exact h
    | with_reducible assumption
    | with_reducible refine srRead_inv ?_ _ _ _
    | refine StateInv.fst (by assumption) (srRead_inv ?_ _ _ _)
    | with_reducible refine pushes_inv ?_ _
    | refine StateInv.of_ok (by assumption) (pushes_inv ?_ _)
    | refine StateInv.of_held (by assumption) (pushes_inv ?_ _)
    | refine StateInv.of_exc (by assumption) (pushes_inv ?_ _)
    | refine StateInv.of_done (by assumption) (pushes_inv ?_ _)
    | with_reducible refine issue_inv ?_ ?_ _ _ _ _ _ _
    | with_reducible refine StateInv.out_ok ?_
    | with_reducible refine StateInv.out_held ?_
    | with_reducible refine StateInv.out_exc ?_
    | with_reducible refine StateInv.out_done ?_
    | with_reducible refine StateInv.ite ?_ ?_
    | split
    | intro)

theorem readCounters_inv {u : State} (h : StateInv u) (a0 : _) :
    StateInv (readCounters a0 u) := by
  unfold readCounters
  try dsimp only
  repeat' (first
    | with_reducible exact h
    | with_reducible assumption
    | with_reducible refine runCmd_inv ?_ ?_ _ _ _ _ _
    | with_reducible refine checked_inv ?_ ?_ _ _ _
    | with_reducible refine respond_inv ?_ _ _ _ _
    | with_reducible refine StateInv.ite ?_ ?_
    | split
    | intro)

theorem readRecord_inv {u : State} (h : StateInv u) (a0 : _) :
    StateInv (readRecord a0 u) := by
  unfold readRecord
  try dsimp only
  repeat' (first
    | with_reducible exact h
    | with_reducible assumption
    | with_reducible refine runCmd_inv ?_ ?_ _ _ _ _ _
    | with_reducible refine checked_inv ?_ ?_ _ _ _
    | with_reducible refine respond_inv ?_ _ _ _ _
    | with_reducible refine StateInv.ite ?_ ?_
    | split
    | intro)

theorem withTally_inv {u : State} (h : StateInv u) {go : State → State}
    (hg : ∀ v, StateInv v → StateInv (go v)) (a0 : _) (a1 : _) : StateInv (withTally a0 a1 go u) := by
  unfold withTally
  split
  · exact respond_inv h _ _ _ _
  · exact withPart_inv h hg _ _

theorem readTally_inv {u : State} (h : StateInv u) (a0 : _) :
    StateInv (readTally a0 u) := by
  unfold readTally
  try dsimp only
  repeat' (first
    | with_reducible exact h
    | with_reducible assumption
    | with_reducible refine withTally_inv ?_ ?_ _ _
    | with_reducible refine runCmd_inv ?_ ?_ _ _ _ _ _
    | with_reducible refine respond_inv ?_ _ _ _ _
    | with_reducible refine StateInv.ite ?_ ?_
    | split
    | intro)

theorem receiverAbort_inv {u : State} (h : StateInv u) (a0 : _) (a1 : _) :
    StateInv (receiverAbort a0 a1 u) := by
  unfold receiverAbort
  try dsimp only
  repeat' (first
    | with_reducible exact h
    | with_reducible assumption
    | refine ringTake_inv ?_ _ (_, _) (by assumption)
    | refine ringTake_inv ?_ _ _ (by assumption)
    | with_reducible refine abortOrDrain_inv ?_ _ _
    | with_reducible refine StateInv.ite ?_ ?_
    | split)

theorem refclkLoss_inv {u : State} (h : StateInv u) : StateInv (refclkLoss u) := by
  unfold refclkLoss
  extract_lets gone m
  have h1 : StateInv m := moduleReset_inv h
  clear_value m
  exact StateInv.ite ⟨h.1, h.pwr, h.boot⟩ ⟨h1.1, h1.pwr, h1.boot⟩

theorem refclkReturn_inv {u : State} (h : StateInv u) :
    StateInv (refclkReturn u) := by
  unfold refclkReturn
  try dsimp only
  repeat' (first
    | with_reducible exact h
    | with_reducible assumption
    | fail_if_no_progress with_reducible refine StateInv.set_board ?_
    | with_reducible refine askModuleReset_inv ?_ 
    | with_reducible refine StateInv.ite ?_ ?_)

theorem resetEnd_inv {u : State} (h : StateInv u) (a0 : _) :
    StateInv (resetEnd a0 u) := by
  unfold resetEnd
  try dsimp only
  repeat' (first
    | with_reducible exact h
    | with_reducible assumption
    | fail_if_no_progress with_reducible refine StateInv.set_resets ?_
    | with_reducible refine forAll_inv ?_ ?_
    | with_reducible refine clockOff_inv ?_ _
    | with_reducible refine clearScope_inv ?_ _
    | with_reducible refine freshProgs_inv ?_ _
    | with_reducible refine applyRepairs_inv ?_ _
    | with_reducible refine respond_inv ?_ _ _ _ _
    | with_reducible refine forAll_inv ?_ _ _
    | with_reducible refine State_updPart_inv ?_ _ _
    | with_reducible refine StateInv.ite ?_ ?_
    | split
    | intro)

theorem peerReset_inv {u : State} (h : StateInv u) (a0 : _) (a1 : _) (a2 : _) :
    StateInv (peerReset a0 a1 a2 u) := by
  unfold peerReset
  try dsimp only
  repeat' (first
    | with_reducible exact h
    | with_reducible assumption
    | with_reducible refine releasePaths_inv ?_ _ _
    | with_reducible refine endSends_inv ?_ _ _ _
    | with_reducible refine State_updChanOf_inv ?_ _ _ _
    | with_reducible refine StateInv.ite ?_ ?_)

theorem pointCore_inv {u : State} (h : StateInv u) (a0 : _) :
    StateInv (pointCore a0 u) := by
  unfold pointCore
  try dsimp only
  repeat' (first
    | with_reducible exact h
    | with_reducible assumption
    | with_reducible refine forAll_inv ?_ ?_
    | with_reducible refine dropWait_inv ?_ _
    | with_reducible refine abortOrDrain_inv ?_ _ _
    | with_reducible refine forAll_inv ?_ _ _
    | with_reducible refine abortDesc_inv ?_ _ _
    | with_reducible refine StateInv.ite ?_ ?_
    | split
    | intro)

theorem pointStreams_inv {u : State} (h : StateInv u) (a0 : _) :
    StateInv (pointStreams a0 u) := by
  unfold pointStreams
  try dsimp only
  repeat' (first
    | with_reducible exact h
    | with_reducible assumption
    | with_reducible refine forAll_inv ?_ ?_
    | with_reducible refine closeEntry_inv ?_ _
    | with_reducible refine forAll_inv ?_ _ _
    | with_reducible refine State_updSlotOf_inv ?_ _ _ _
    | with_reducible refine StateInv.ite ?_ ?_
    | split
    | intro)

theorem resetPoint_inv {u : State} (h : StateInv u) (a0 : _) :
    StateInv (resetPoint a0 u) := by
  unfold resetPoint
  try dsimp only
  repeat' (first
    | with_reducible exact h
    | with_reducible assumption
    | fail_if_no_progress with_reducible refine StateInv.set_resets ?_
    | with_reducible refine forAll_inv ?_ ?_
    | with_reducible refine pointStreams_inv ?_ _
    | with_reducible refine pointCore_inv ?_ _
    | with_reducible refine peerReset_inv ?_ _ _ _
    | with_reducible refine drainAgain_inv ?_ _
    | with_reducible refine moduleReset_inv ?_ 
    | with_reducible refine forAll_inv ?_ _ _
    | with_reducible refine State_updBench_inv ?_ _ _
    | with_reducible refine StateInv.ite ?_ ?_
    | split
    | intro)

theorem resetScope_inv {u : State} (h : StateInv u) (a0 : _) :
    StateInv (resetScope a0 u) := by
  unfold resetScope
  try dsimp only
  repeat' (first
    | with_reducible exact h
    | with_reducible assumption
    | with_reducible refine joinReset_inv ?_ _ _
    | with_reducible refine withPart_inv ?_ ?_ _ _
    | with_reducible refine runCmd_inv ?_ ?_ _ _ _ _ _
    | with_reducible refine checked_inv ?_ ?_ _ _ _
    | with_reducible refine beginReset_inv ?_ _ _
    | with_reducible refine respond_inv ?_ _ _ _ _
    | with_reducible refine StateInv.ite ?_ ?_
    | split
    | intro)

theorem messageTimeout_inv {u : State} (h : StateInv u) (a0 : _) (a1 : _) :
    StateInv (messageTimeout a0 a1 u) :=
  inv_of (messageTimeout_within (fun _ m => m) (Within.refl _ _) _ _) rfl h

theorem sendPacket_inv {u : State} (h : StateInv u) (a0 : _) (a1 : _) (a2 : _) :
    StateInv (sendPacket a0 a1 a2 u) :=
  inv_of (sendPacket_within (fun _ m => m) (Within.refl _ _) _ _ _) rfl h

theorem packetTimeout_inv {u : State} (h : StateInv u) (a0 : _) (a1 : _) :
    StateInv (packetTimeout a0 a1 u) := by
  unfold packetTimeout
  try dsimp only
  repeat' (first
    | with_reducible exact h
    | with_reducible assumption
    | with_reducible refine sendPacket_inv ?_ _ _ _
    | with_reducible refine updTx_inv ?_ _ _ _ _
    | with_reducible refine failStream_inv ?_ _ _
    | with_reducible refine State_updStream_inv ?_ _ _
    | with_reducible refine StateInv.ite ?_ ?_
    | split)

theorem retransmission_inv {u : State} (h : StateInv u) (a0 : _) (a1 : _) :
    StateInv (retransmission a0 a1 u) := by
  unfold retransmission
  try dsimp only
  repeat' (first
    | with_reducible exact h
    | with_reducible assumption
    | with_reducible refine packetTimeout_inv ?_ _ _
    | with_reducible refine messageTimeout_inv ?_ _ _
    | with_reducible refine StateInv.ite ?_ ?_
    | split)

theorem retx_inv {u : State} (h : StateInv u) (a0 : _) :
    StateInv (retx a0 u) := by
  unfold retx
  try dsimp only
  repeat' (first
    | with_reducible exact h
    | with_reducible assumption
    | with_reducible refine doRetx_inv ?_ _
    | with_reducible refine issue_inv ?_ ?_ _ _ _ _ _ _
    | with_reducible refine StateInv.out_ok ?_
    | with_reducible refine StateInv.out_held ?_
    | with_reducible refine StateInv.out_exc ?_
    | with_reducible refine StateInv.out_done ?_
    | with_reducible refine StateInv.ite ?_ ?_
    | split
    | intro)

theorem ringArrival_inv {u : State} (h : StateInv u) (a0 : _) :
    StateInv (ringArrival a0 u) := by
  unfold ringArrival
  try dsimp only
  repeat' (first
    | with_reducible exact h
    | with_reducible assumption
    | with_reducible refine deliverPacket_inv ?_ _
    | refine ringTake_inv ?_ _ (_, _) (by assumption)
    | refine ringTake_inv ?_ _ _ (by assumption)
    | with_reducible refine StateInv.ite ?_ ?_
    | split)

theorem ringSideAccess_inv {u : State} (h : StateInv u) (a0 : _) :
    StateInv (ringSideAccess a0 u) :=
  inv_of (ringSideAccess_within (fun _ m => m) (Within.refl _ _) _) rfl h

theorem rxUncorrectable_inv {u : State} (h : StateInv u) (a0 : _) (a1 : _) :
    StateInv (rxUncorrectable a0 a1 u) :=
  inv_of (rxUncorrectable_within (fun _ m => m) (Within.refl _ _) _ _) rfl h

theorem servicePathRequest_inv {u : State} (h : StateInv u) (a0 : _) (a1 : _) :
    StateInv (servicePathRequest a0 a1 u) :=
  inv_of (servicePathRequest_within (fun _ m => m) (Within.refl _ _) _ _) rfl h

theorem setAperture_inv {u : State} (h : StateInv u) (a0 : _) :
    StateInv (setAperture a0 u) := by
  unfold setAperture
  try dsimp only
  repeat' (first
    | with_reducible exact h
    | with_reducible assumption
    | fail_if_no_progress with_reducible refine StateInv.set_fmn ?_
    | with_reducible refine runCmd_inv ?_ ?_ _ _ _ _ _
    | with_reducible refine respond_inv ?_ _ _ _ _
    | with_reducible refine StateInv.ite ?_ ?_
    | split
    | intro)

theorem putCap_inv {u : State} (h : StateInv u) (a0 : _) : StateInv (putCap a0 u) := ⟨h.1, h.pwr, h.boot⟩

theorem setCap_inv {u : State} (h : StateInv u) (a0 : _) :
    StateInv (setCap a0 u) := by
  unfold setCap
  try dsimp only
  repeat' (first
    | with_reducible exact h
    | with_reducible assumption
    | with_reducible refine forAll_inv ?_ ?_
    | with_reducible refine putCap_inv ?_ _
    | with_reducible refine runCmd_inv ?_ ?_ _ _ _ _ _
    | with_reducible refine checked_inv ?_ ?_ _ _ _
    | with_reducible refine capStop_inv ?_ _
    | with_reducible refine logEvent_inv ?_ _ _ _ _
    | with_reducible refine respond_inv ?_ _ _ _ _
    | with_reducible refine forAll_inv ?_ _ _
    | with_reducible refine StateInv.ite ?_ ?_
    | split
    | intro)

theorem badField_none {l : List Byte} {fs : List (Nat × Nat × (Nat → Bool))} (h : badField l fs = none)
    {f : Nat × Nat × (Nat → Bool)} (m : f ∈ fs) : f.2.2 (fieldOf l f.1 f.2.1) = true := by
  unfold badField at h
  rw [Option.map_eq_none_iff, List.find?_eq_none] at h
  simpa using h f m

theorem setFixedPoint_inv {u : State} (h : StateInv u) (a0 : _) : StateInv (setFixedPoint a0 u) := by
  unfold setFixedPoint
  refine runCmd_inv h (fun l v hv => ?_) _ _ _ _ _
  unfold checked
  split
  · exact respond_inv hv _ _ _ _
  · rename_i e
    have hf := badField_none e (List.mem_singleton.mpr rfl)
    dsimp only at hf ⊢
    refine ite_inv (fun _ => ?_) (fun ne => ?_)
    · refine respond_inv ?_ _ _ _ _
      exact ⟨hv.mem, ⟨hv.pwr.1, hv.pwr.2.1, nofun, hv.pwr.2.2.2⟩, hv.boot⟩
    · split
      · exact respond_inv hv _ _ _ _
      · refine respond_inv (toward_inv ?_) _ _ _ _
        refine ⟨hv.mem, ⟨hv.pwr.1, hv.pwr.2.1, ?_, hv.pwr.2.2.2⟩, hv.boot⟩
        intro k e
        cases e
        simp only [Bool.or_eq_true, decide_eq_true_eq] at hf
        omega

theorem writeTally_inv {u : State} (h : StateInv u) (a0 : _) (a1 : _) :
    StateInv (writeTally a0 a1 u) :=
  inv_of (writeTally_within (fun _ m => m) (Within.refl _ _) _ _) rfl h

theorem setTallyCmd_inv {u : State} (h : StateInv u) (a0 : _) :
    StateInv (setTallyCmd a0 u) := by
  unfold setTallyCmd
  try dsimp only
  repeat' (first
    | with_reducible exact h
    | with_reducible assumption
    | with_reducible refine writeTally_inv ?_ _ _
    | with_reducible refine withTally_inv ?_ ?_ _ _
    | with_reducible refine runCmd_inv ?_ ?_ _ _ _ _ _
    | with_reducible refine checked_inv ?_ ?_ _ _ _
    | with_reducible refine traceTally_inv ?_ _ _ _ _ _ _
    | with_reducible refine logEvent_inv ?_ _ _ _ _
    | with_reducible refine respond_inv ?_ _ _ _ _
    | with_reducible refine StateInv.ite ?_ ?_
    | split
    | intro)

theorem setTransport_inv {u : State} (h : StateInv u) (a0 : _) : StateInv (setTransport a0 u) := by
  unfold setTransport
  refine runCmd_inv h (fun l v hv => checked_inv hv (fun w hw => respond_inv ?_ _ _ _ _) _ _ _) _ _ _ _ _
  exact ⟨hw.1, hw.pwr, hw.boot⟩

theorem startJob_inv {u : State} (h : StateInv u) (a0 : _) :
    StateInv (startJob a0 u) := by
  unfold startJob
  try dsimp only
  repeat' (first
    | with_reducible exact h
    | with_reducible assumption
    | with_reducible refine moveDown_inv ?_ 
    | with_reducible refine withPart_inv ?_ ?_ _ _
    | with_reducible refine runCmd_inv ?_ ?_ _ _ _ _ _
    | with_reducible refine checked_inv ?_ ?_ _ _ _
    | with_reducible refine respond_inv ?_ _ _ _ _
    | with_reducible refine State_updPart_inv ?_ _ _
    | with_reducible refine StateInv.ite ?_ ?_
    | split
    | intro)

theorem loadImage_inv {u : State} (h : StateInv u) : StateInv (loadImage u) := by
  unfold loadImage
  split
  · rename_i k _
    have h1 : StateInv { u with boot := { u.boot with running := k } } := ⟨h.1, h.pwr, h.boot⟩
    exact toStep_inv h1 _ (by decide) (by decide)
  · exact startFail_inv h _

theorem noteRetrain_inv {u : State} (h : StateInv u) (a0 : _) : StateInv (noteRetrain a0 u) := ⟨h.1, h.pwr, h.boot⟩

theorem loadSettings_inv {u : State} (h : StateInv u) : StateInv (loadSettings u) := ⟨h.1, h.pwr, h.boot⟩

theorem readRecords_inv {u : State} (h : StateInv u) (a0 : _) : StateInv (readRecords a0 u) := by
  unfold readRecords
  refine StateInv.ite (startFail_inv h _) ?_
  extract_lets s1 b s2
  have h1 : StateInv s1 := StateInv.ite h (loadSettings_inv h)
  have h2 : StateInv s2 := ⟨h1.mem, h1.pwr, h1.boot⟩
  clear_value s2
  exact toStep_inv (StateInv.ite h2 (logEvent_inv h2 _ _ _ _)) _ (by decide) (by decide)

theorem startupStep_inv {u : State} (h : StateInv u) (a0 : _) : StateInv (startupStep a0 u) := by
  have hw : StateInv { u with board := { u.board with wetarOn := true } } := ⟨h.1, h.pwr, h.boot⟩
  unfold startupStep
  refine StateInv.ite h ?_
  split
  · exact StateInv.ite (toStep_inv h _ (by decide) (by decide)) h
  · exact toStep_inv h _ (by decide) (by decide)
  · exact loadImage_inv h
  · exact readRecords_inv h _
  · exact toStep_inv hw _ (by decide) (by decide)
  · exact toStep_inv (noteRetrain_inv h _) _ (by decide) (by decide)
  · exact StateInv.ite (toStep_inv (noteRetrain_inv h _) _ (by decide) (by decide)) h
  · exact bist_inv h _
  · exact buildMap_inv h
  · exact checkLinks_inv (noteRetrain_inv h _) _
  · exact h

theorem uncachedStore_inv {u : State} (h : StateInv u) (a0 : _) (a1 : _) (a2 : _) :
    StateInv (uncachedStore a0 a1 a2 u) :=
  inv_of (uncachedStore_within (fun _ m => m) (Within.refl _ _) _ _ _) rfl h

theorem storeBody_inv {u : State} (h : StateInv u) (a0 : _) (a1 : _) (a2 : _) (a3 : _) :
    StateInv (outState (storeBody a0 a1 a2 a3 u)) := by
  unfold storeBody
  try dsimp only
  repeat' (first
    | with_reducible exact h
    | with_reducible assumption
    | with_reducible refine uncachedStore_inv ?_ _ _ _
    | refine cachedStore_inv ?_ _ _ _ _ (by assumption)
    | with_reducible refine blkStore_inv ?_ _ _ _
    | with_reducible refine pushes_inv ?_ _
    | refine StateInv.of_ok (by assumption) (pushes_inv ?_ _)
    | refine StateInv.of_held (by assumption) (pushes_inv ?_ _)
    | refine StateInv.of_exc (by assumption) (pushes_inv ?_ _)
    | refine StateInv.of_done (by assumption) (pushes_inv ?_ _)
    | with_reducible refine write_inv ?_ _ _
    | with_reducible refine StateInv.out_ok ?_
    | with_reducible refine StateInv.out_held ?_
    | with_reducible refine StateInv.out_exc ?_
    | with_reducible refine StateInv.out_done ?_
    | with_reducible refine StateInv.ite ?_ ?_
    | split)

theorem storeInstr_inv {u : State} (h : StateInv u) (a0 : _) (a1 : _) (a2 : _) :
    StateInv (storeInstr a0 a1 a2 u) := by
  unfold storeInstr
  try dsimp only
  repeat' (first
    | with_reducible exact h
    | with_reducible assumption
    | with_reducible refine storeBody_inv ?_ _ _ _ _
    | refine StateInv.of_ok (by assumption) (storeBody_inv ?_ _ _ _ _)
    | refine StateInv.of_held (by assumption) (storeBody_inv ?_ _ _ _ _)
    | refine StateInv.of_exc (by assumption) (storeBody_inv ?_ _ _ _ _)
    | refine StateInv.of_done (by assumption) (storeBody_inv ?_ _ _ _ _)
    | with_reducible refine issue_inv ?_ ?_ _ _ _ _ _ _
    | with_reducible refine StateInv.out_ok ?_
    | with_reducible refine StateInv.out_held ?_
    | with_reducible refine StateInv.out_exc ?_
    | with_reducible refine StateInv.out_done ?_
    | with_reducible refine StateInv.ite ?_ ?_
    | split
    | intro)

theorem stc_inv {u : State} (h : StateInv u) (a0 : _) :
    StateInv (stc a0 u) := by
  unfold stc
  try dsimp only
  repeat' (first
    | with_reducible exact h
    | with_reducible assumption
    | with_reducible refine pushes_inv ?_ _
    | refine StateInv.of_ok (by assumption) (pushes_inv ?_ _)
    | refine StateInv.of_held (by assumption) (pushes_inv ?_ _)
    | refine StateInv.of_exc (by assumption) (pushes_inv ?_ _)
    | refine StateInv.of_done (by assumption) (pushes_inv ?_ _)
    | with_reducible refine issue_inv ?_ ?_ _ _ _ _ _ _
    | with_reducible refine write_inv ?_ _ _
    | with_reducible refine State_updCtx_inv ?_ _ _
    | with_reducible refine StateInv.out_ok ?_
    | with_reducible refine StateInv.out_held ?_
    | with_reducible refine StateInv.out_exc ?_
    | with_reducible refine StateInv.out_done ?_
    | with_reducible refine StateInv.ite ?_ ?_
    | split
    | intro)

theorem stopJob_inv {u : State} (h : StateInv u) (a0 : _) :
    StateInv (stopJob a0 u) := by
  unfold stopJob
  try dsimp only
  repeat' (first
    | with_reducible exact h
    | with_reducible assumption
    | with_reducible refine withPart_inv ?_ ?_ _ _
    | with_reducible refine runCmd_inv ?_ ?_ _ _ _ _ _
    | with_reducible refine checked_inv ?_ ?_ _ _ _
    | with_reducible refine discardFrame_inv ?_ _ _
    | with_reducible refine jobEnd_inv ?_ _ _ _
    | with_reducible refine respond_inv ?_ _ _ _ _
    | with_reducible refine State_updPart_inv ?_ _ _
    | with_reducible refine StateInv.ite ?_ ?_
    | split
    | intro)

theorem sysc_inv {u : State} (h : StateInv u) (a0 : _) (a1 : _) :
    StateInv (sysc a0 a1 u) := by
  unfold sysc
  try dsimp only
  repeat' (first
    | with_reducible exact h
    | with_reducible assumption
    | with_reducible refine issue_inv ?_ ?_ _ _ _ _ _ _
    | with_reducible refine enter_inv ?_ _ _ _ _ _ _ _
    | with_reducible refine StateInv.out_ok ?_
    | with_reducible refine StateInv.out_held ?_
    | with_reducible refine StateInv.out_exc ?_
    | with_reducible refine StateInv.out_done ?_
    | with_reducible refine StateInv.ite ?_ ?_
    | split
    | intro)

theorem tallyInstr_inv {u : State} (h : StateInv u) (a0 : _) (a1 : _) (a2 : _) (a3 : _) (a4 : _) :
    StateInv (tallyInstr a0 a1 a2 a3 a4 u) := by
  unfold tallyInstr
  try dsimp only
  repeat' (first
    | with_reducible exact h
    | with_reducible assumption
    | with_reducible refine beginTally_inv ?_ _ _ _
    | refine StateInv.of_ok (by assumption) (beginTally_inv ?_ _ _ _)
    | refine StateInv.of_held (by assumption) (beginTally_inv ?_ _ _ _)
    | refine StateInv.of_exc (by assumption) (beginTally_inv ?_ _ _ _)
    | refine StateInv.of_done (by assumption) (beginTally_inv ?_ _ _ _)
    | with_reducible refine freshSerial_inv ?_ 
    | refine StateInv.snd (by assumption) (freshSerial_inv ?_ )
    | with_reducible refine issue_inv ?_ ?_ _ _ _ _ _ _
    | with_reducible refine StateInv.out_ok ?_
    | with_reducible refine StateInv.out_held ?_
    | with_reducible refine StateInv.out_exc ?_
    | with_reducible refine StateInv.out_done ?_
    | with_reducible refine StateInv.ite ?_ ?_
    | split
    | intro)

theorem sliceOp_inv {u : State} (h : StateInv u) (a0 : _) :
    StateInv (sliceOp a0 u) :=
  inv_of (sliceOp_within (fun _ m => m) (Within.refl _ _) _) rfl h

theorem takeTally_inv {u : State} (h : StateInv u) (a0 : _) (a1 : _) :
    StateInv (takeTally a0 a1 u) :=
  inv_of (takeTally_within (fun _ m => m) (Within.refl _ _) _ _) rfl h

theorem tas_inv {u : State} (h : StateInv u) (a0 : _) :
    StateInv (tas a0 u) := by
  unfold tas
  try dsimp only
  repeat' (first
    | with_reducible exact h
    | with_reducible assumption
    | with_reducible refine nearLoad_inv ?_ _ _ _ _ _
    | refine StateInv.of_ok (by assumption) (nearLoad_inv ?_ _ _ _ _ _)
    | refine StateInv.of_held (by assumption) (nearLoad_inv ?_ _ _ _ _ _)
    | refine StateInv.of_exc (by assumption) (nearLoad_inv ?_ _ _ _ _ _)
    | refine StateInv.of_done (by assumption) (nearLoad_inv ?_ _ _ _ _ _)
    | with_reducible refine issue_inv ?_ ?_ _ _ _ _ _ _
    | with_reducible refine write_inv ?_ _ _
    | with_reducible refine StateInv.out_ok ?_
    | with_reducible refine StateInv.out_held ?_
    | with_reducible refine StateInv.out_exc ?_
    | with_reducible refine StateInv.out_done ?_
    | with_reducible refine StateInv.ite ?_ ?_
    | split
    | intro)

theorem thermalTrip_inv {u : State} (h : StateInv u) (a0 : _) : StateInv (thermalTrip a0 u) := by
  unfold thermalTrip
  refine StateInv.ite h ?_
  extract_lets s1
  have h1 : StateInv s1 := wetarOff_inv h
  clear_value s1
  exact ⟨h1.1, h1.pwr, h1.boot⟩

theorem threadEnd_inv {u : State} (h : StateInv u) (a0 : _) :
    StateInv (threadEnd a0 u) := by
  unfold threadEnd
  try dsimp only
  repeat' (first
    | with_reducible exact h
    | with_reducible assumption
    | with_reducible refine endSteps_inv ?_ _ _
    | with_reducible refine StateInv.ite ?_ ?_
    | split)

theorem thresm_inv {u : State} (h : StateInv u) (a0 : _) :
    StateInv (thresm a0 u) := by
  unfold thresm
  try dsimp only
  repeat' (first
    | with_reducible exact h
    | with_reducible assumption
    | with_reducible refine pushes_inv ?_ _
    | refine StateInv.of_ok (by assumption) (pushes_inv ?_ _)
    | refine StateInv.of_held (by assumption) (pushes_inv ?_ _)
    | refine StateInv.of_exc (by assumption) (pushes_inv ?_ _)
    | refine StateInv.of_done (by assumption) (pushes_inv ?_ _)
    | with_reducible refine issue_inv ?_ ?_ _ _ _ _ _ _
    | with_reducible refine State_updCtx_inv ?_ _ _
    | with_reducible refine StateInv.out_ok ?_
    | with_reducible refine StateInv.out_held ?_
    | with_reducible refine StateInv.out_exc ?_
    | with_reducible refine StateInv.out_done ?_
    | with_reducible refine StateInv.ite ?_ ?_
    | split
    | intro)

theorem thsusp_inv {u : State} (h : StateInv u) (a0 : _) :
    StateInv (thsusp a0 u) := by
  unfold thsusp
  try dsimp only
  repeat' (first
    | with_reducible exact h
    | with_reducible assumption
    | with_reducible refine pushes_inv ?_ _
    | refine StateInv.of_ok (by assumption) (pushes_inv ?_ _)
    | refine StateInv.of_held (by assumption) (pushes_inv ?_ _)
    | refine StateInv.of_exc (by assumption) (pushes_inv ?_ _)
    | refine StateInv.of_done (by assumption) (pushes_inv ?_ _)
    | with_reducible refine issue_inv ?_ ?_ _ _ _ _ _ _
    | with_reducible refine askStop_inv ?_ _
    | with_reducible refine stopCheck_inv ?_ _ _
    | with_reducible refine State_updCtx_inv ?_ _ _
    | with_reducible refine StateInv.out_ok ?_
    | with_reducible refine StateInv.out_held ?_
    | with_reducible refine StateInv.out_exc ?_
    | with_reducible refine StateInv.out_done ?_
    | with_reducible refine StateInv.ite ?_ ?_
    | split
    | intro)

theorem setTileOp_inv {u : State} (h : StateInv u) (a0 : _) (a1 : _) :
    StateInv (setTileOp a0 a1 u) :=
  inv_of (setTileOp_within (fun _ m => m) (Within.refl _ _) _ _) rfl h

theorem tileFault_inv {u : State} (h : StateInv u) (a0 : _) (a1 : _) (a2 : _) (a3 : _) :
    StateInv (tileFault a0 a1 a2 a3 u) := by
  unfold tileFault
  try dsimp only
  repeat' (first
    | with_reducible exact h
    | with_reducible assumption
    | with_reducible refine setTileOp_inv ?_ _ _
    | with_reducible refine fault_inv ?_ _ _ _ _ _
    | with_reducible refine discardTile_inv ?_ _
    | with_reducible refine stopCheck_inv ?_ _ _)

theorem tileBeat_inv {u : State} (h : StateInv u) (a0 : _) :
    StateInv (tileBeat a0 u) := by
  unfold tileBeat
  try dsimp only
  repeat' (first
    | with_reducible exact h
    | with_reducible assumption
    | with_reducible refine tileFault_inv ?_ _ _ _ _
    | with_reducible refine setTileOp_inv ?_ _ _
    | with_reducible refine beatOf_inv ?_ _ _
    | refine StateInv.of_beat_ok (by assumption) (beatOf_inv ?_ _ _)
    | refine StateInv.of_beat_fault (by assumption) (beatOf_inv ?_ _ _)
    | with_reducible refine act_inv ?_ _ _ _
    | with_reducible refine State_updCore_inv ?_ _ _
    | with_reducible refine StateInv.ite ?_ ?_
    | split)

theorem sideRead_inv {u : State} (h : StateInv u) (a0 : _) (a1 : _) :
    StateInv (sideRead a0 a1 u).2 :=
  inv_of (sideRead_within (fun _ m => m) (Within.refl _ _) _ _) rfl h

theorem tfree_inv {u : State} (h : StateInv u) (a0 : _) (a1 : _) :
    StateInv (tfree a0 a1 u) :=
  inv_of (tfree_within (fun _ m => m) (Within.refl _ _) _ _) rfl h

theorem tileStart_inv {u : State} (h : StateInv u) (a0 : _) :
    StateInv (tileStart a0 u) := by
  unfold tileStart
  try dsimp only
  repeat' (first
    | with_reducible exact h
    | with_reducible assumption
    | with_reducible refine tfree_inv ?_ _ _
    | with_reducible refine sideRead_inv ?_ _ _
    | refine StateInv.snd (by assumption) (sideRead_inv ?_ _ _)
    | with_reducible refine tileFault_inv ?_ _ _ _ _
    | with_reducible refine setTileOp_inv ?_ _ _
    | with_reducible refine accz_inv ?_ _ _
    | with_reducible refine tileRelease_inv ?_ _
    | with_reducible refine act_inv ?_ _ _ _
    | with_reducible refine State_updCore_inv ?_ _ _
    | with_reducible refine StateInv.ite ?_ ?_
    | split)

theorem saveProg_inv {u : State} (h : StateInv u) (a0 : _) (a1 : _) :
    StateInv (saveProg a0 a1 u) := by
  unfold saveProg
  try dsimp only
  repeat' (first
    | with_reducible exact h
    | with_reducible assumption
    | fail_if_no_progress with_reducible refine StateInv.set_clicker ?_
    | with_reducible refine saveWrite_inv ?_ _ _ _ _
    | with_reducible refine State_updPart_inv ?_ _ _)

theorem timeSliceSwitch_inv {u : State} (h : StateInv u) (a0 : _) :
    StateInv (timeSliceSwitch a0 u) := by
  unfold timeSliceSwitch
  try dsimp only
  repeat' (first
    | with_reducible exact h
    | with_reducible assumption
    | with_reducible refine saveProg_inv ?_ _ _
    | with_reducible refine dropRequests_inv ?_ _
    | with_reducible refine bringIn_inv ?_ _ _
    | with_reducible refine State_updPart_inv ?_ _ _
    | with_reducible refine StateInv.ite ?_ ?_
    | split)

theorem toBuffer_inv {u : State} (h : StateInv u) (a0 : _) :
    StateInv (toBuffer a0 u) :=
  inv_of (toBuffer_within (fun _ m => m) (Within.refl _ _) _) rfl h

theorem sendRecord_inv {u : State} (h : StateInv u) :
    StateInv (sendRecord u) :=
  inv_of (sendRecord_within (fun _ m => m) (Within.refl _ _) ) rfl h

theorem traceOut_inv {u : State} (h : StateInv u) :
    StateInv (traceOut u) :=
  inv_of (traceOut_within (fun _ m => m) (Within.refl _ _) ) rfl h

theorem uc_inv {u : State} (h : StateInv u) (a0 : _) (a1 : _) :
    StateInv (uc a0 a1 u) := by
  unfold uc
  try dsimp only
  repeat' (first
    | with_reducible exact h
    | with_reducible assumption
    | with_reducible refine issue_inv ?_ ?_ _ _ _ _ _ _
    | with_reducible refine State_updCore_inv ?_ _ _
    | with_reducible refine StateInv.out_ok ?_
    | with_reducible refine StateInv.out_held ?_
    | with_reducible refine StateInv.out_exc ?_
    | with_reducible refine StateInv.out_done ?_
    | with_reducible refine StateInv.ite ?_ ?_
    | split
    | intro)

theorem undervoltage_inv {u : State} (h : StateInv u) (a0 : _) :
    StateInv (undervoltage a0 u) := by
  unfold undervoltage
  try dsimp only
  repeat' (first
    | with_reducible exact h
    | with_reducible assumption
    | with_reducible refine assertSource_inv ?_ _
    | with_reducible refine StateInv.ite ?_ ?_)

theorem unhold_inv {u : State} (h : StateInv u) (a0 : _) :
    StateInv (unhold a0 u) := by
  unfold unhold
  try dsimp only
  repeat' (first
    | with_reducible exact h
    | with_reducible assumption
    | with_reducible refine pushes_inv ?_ _
    | refine StateInv.of_ok (by assumption) (pushes_inv ?_ _)
    | refine StateInv.of_held (by assumption) (pushes_inv ?_ _)
    | refine StateInv.of_exc (by assumption) (pushes_inv ?_ _)
    | refine StateInv.of_done (by assumption) (pushes_inv ?_ _)
    | with_reducible refine issue_inv ?_ ?_ _ _ _ _ _ _
    | with_reducible refine State_updCtx_inv ?_ _ _
    | with_reducible refine StateInv.out_ok ?_
    | with_reducible refine StateInv.out_held ?_
    | with_reducible refine StateInv.out_exc ?_
    | with_reducible refine StateInv.out_done ?_
    | with_reducible refine StateInv.ite ?_ ?_
    | split
    | intro)

theorem unloadProgram_inv {u : State} (h : StateInv u) (a0 : _) :
    StateInv (unloadProgram a0 u) := by
  unfold unloadProgram
  try dsimp only
  repeat' (first
    | with_reducible exact h
    | with_reducible assumption
    | with_reducible refine unload_inv ?_ _ _
    | with_reducible refine withPart_inv ?_ ?_ _ _
    | with_reducible refine runCmd_inv ?_ ?_ _ _ _ _ _
    | with_reducible refine checked_inv ?_ ?_ _ _ _
    | with_reducible refine respond_inv ?_ _ _ _ _
    | with_reducible refine StateInv.ite ?_ ?_
    | split
    | intro)

theorem rxAnswer_inv {u : State} (h : StateInv u) (a0 : _) (a1 : _) :
    StateInv (rxAnswer a0 a1 u) := by
  unfold rxAnswer
  try dsimp only
  repeat' (first
    | with_reducible exact h
    | with_reducible assumption
    | with_reducible refine applySessionAck_inv ?_ _ _ _
    | with_reducible refine applyNak_inv ?_ _ _ _
    | with_reducible refine applyAck_inv ?_ _ _ _
    | with_reducible refine StateInv.ite ?_ ?_)

theorem sendNak_inv {u : State} (h : StateInv u) (a0 : _) (a1 : _) (a2 : _) (a3 : _) (a4 : _) (a5 : _) :
    StateInv (sendNak a0 a1 a2 a3 a4 a5 u) :=
  inv_of (sendNak_within (fun _ m => m) (Within.refl _ _) _ _ _ _ _ _) rfl h

theorem rxData_inv {u : State} (h : StateInv u) (a0 : _) (a1 : _) :
    StateInv (rxData a0 a1 u) :=
  inv_of (rxData_within (fun _ m => m) (Within.refl _ _) _ _) rfl h

theorem rxMgmt_inv {u : State} (h : StateInv u) (a0 : _) (a1 : _) :
    StateInv (rxMgmt a0 a1 u) :=
  inv_of (rxMgmt_within (fun _ m => m) (Within.refl _ _) _ _) rfl h

theorem frameReceive_inv {u : State} (h : StateInv u) (a0 : _) (a1 : _) :
    StateInv (frameReceive a0 a1 u) := by
  unfold frameReceive
  try dsimp only
  repeat' (first
    | with_reducible exact h
    | with_reducible assumption
    | with_reducible refine rxMgmt_inv ?_ _ _
    | with_reducible refine rxData_inv ?_ _ _
    | with_reducible refine rxAnswer_inv ?_ _ _
    | with_reducible refine weltCount_inv ?_ _ _ _
    | with_reducible refine wake_inv ?_ 
    | with_reducible refine StateInv.ite ?_ ?_)

theorem stationFlit_inv {u : State} (h : StateInv u) (a0 : _) (a1 : _) :
    StateInv (stationFlit a0 a1 u).2 := by
  unfold stationFlit
  try dsimp only
  repeat' (first
    | with_reducible exact h
    | with_reducible assumption
    | with_reducible refine sendPacket_inv ?_ _ _ _
    | with_reducible refine dropTx_inv ?_ _ _ _
    | with_reducible refine descFault_inv ?_ _ _ _ _ _ _
    | with_reducible refine count_inv ?_ _ _ _
    | with_reducible refine StateInv.ite ?_ ?_
    | split)

theorem takeFlits_inv {u : State} (h : StateInv u) (a0 : _) (a1 : _) :
    StateInv (takeFlits a0 a1 u) := by
  induction a1 generalizing u with
  | zero => exact h
  | succ n ih =>
    unfold takeFlits
    split
    · exact h
    rename_i e1
    have h1 := takeArrival_inv h _ (_, _) e1
    split
    · exact StateInv.snd (by assumption) (stationFlit_inv h1 _ _)
    · exact ih (StateInv.snd (by assumption) (stationFlit_inv h1 _ _))

theorem packetSend_inv {u : State} (h : StateInv u) (a0 : _) :
    StateInv (packetSend a0 u) := by
  unfold packetSend
  try dsimp only
  repeat' (first
    | with_reducible exact h
    | with_reducible assumption
    | with_reducible refine takeFlits_inv ?_ _ _)

theorem writeRecord_inv {u : State} (h : StateInv u) (a0 : _) :
    StateInv (writeRecord a0 u) := by
  unfold writeRecord
  try dsimp only
  repeat' (first
    | with_reducible exact h
    | with_reducible assumption
    | with_reducible refine runCmd_inv ?_ ?_ _ _ _ _ _
    | with_reducible refine checked_inv ?_ ?_ _ _ _
    | with_reducible refine changeRec_inv ?_ _ _ _
    | with_reducible refine respond_inv ?_ _ _ _ _
    | with_reducible refine StateInv.ite ?_ ?_
    | split
    | intro)

theorem wrOut_inv {u : State} (h : StateInv u) (a0 : _) {w : Wr}
    (hw : ∀ v, w = .ok v → StateInv v) : StateInv (outState (wrOut a0 u w)) := by
  cases w with
  | ok v => exact hw v rfl
  | refused => exact h
  | wait x => exact h

theorem wrsr_inv {u : State} (h : StateInv u) (a0 : _) :
    StateInv (wrsr a0 u) := by
  unfold wrsr
  try dsimp only
  repeat' (first
    | with_reducible exact h
    | with_reducible assumption
    | with_reducible refine wrOut_inv ?_ _ ?_
    | refine StateInv.of_ok (by assumption) (wrOut_inv ?_ _ ?_)
    | refine StateInv.of_held (by assumption) (wrOut_inv ?_ _ ?_)
    | refine StateInv.of_exc (by assumption) (wrOut_inv ?_ _ ?_)
    | refine StateInv.of_done (by assumption) (wrOut_inv ?_ _ ?_)
    | refine srWrite_inv ?_ _ _ _ _ (by assumption)
    | with_reducible refine issue_inv ?_ ?_ _ _ _ _ _ _
    | with_reducible refine StateInv.out_ok ?_
    | with_reducible refine StateInv.out_held ?_
    | with_reducible refine StateInv.out_exc ?_
    | with_reducible refine StateInv.out_done ?_
    | with_reducible refine StateInv.ite ?_ ?_
    | split
    | intro)

theorem wrtsr_inv {u : State} (h : StateInv u) (a0 : _) :
    StateInv (wrtsr a0 u) := by
  unfold wrtsr
  try dsimp only
  repeat' (first
    | with_reducible exact h
    | with_reducible assumption
    | with_reducible refine wrOut_inv ?_ _ ?_
    | refine StateInv.of_ok (by assumption) (wrOut_inv ?_ _ ?_)
    | refine StateInv.of_held (by assumption) (wrOut_inv ?_ _ ?_)
    | refine StateInv.of_exc (by assumption) (wrOut_inv ?_ _ ?_)
    | refine StateInv.of_done (by assumption) (wrOut_inv ?_ _ ?_)
    | refine srWrite_inv ?_ _ _ _ _ (by assumption)
    | with_reducible refine issue_inv ?_ ?_ _ _ _ _ _ _
    | with_reducible refine StateInv.out_ok ?_
    | with_reducible refine StateInv.out_held ?_
    | with_reducible refine StateInv.out_exc ?_
    | with_reducible refine StateInv.out_done ?_
    | with_reducible refine StateInv.ite ?_ ?_
    | split
    | intro)

theorem idleTick_inv {u : State} (h : StateInv u) :
    StateInv (idleTick u) :=
  inv_of (idleTick_within (fun _ m => m) (Within.refl _ _) ) rfl h

theorem trial_inv {u : State} (h : StateInv u) (a0 : _) (a1 : _) :
    StateInv (trial a0 a1 u) :=
  inv_of (trial_within (fun _ m => m) (Within.refl _ _) _ _) rfl h

end Sys2Proof.Laws
end

