-- ==== Sys2Proof/Laws/State.lean ====
section
/-! SUPPORT. What each update leaves alone, field by field, and what it puts in: the lemmas that keep a record update from being
unfolded. -/

namespace Sys2Proof.Laws
open Sys2Proof Sys2Proof.Machine

@[simp] theorem updCore_now (s : State) (c : Nat) (f : Core → Core) : (s.updCore c f).now = s.now := rfl
@[simp] theorem updCore_tb (s : State) (c : Nat) (f : Core → Core) : (s.updCore c f).tb = s.tb := rfl
@[simp] theorem updCore_mem (s : State) (c : Nat) (f : Core → Core) : (s.updCore c f).mem = s.mem := rfl
@[simp] theorem updCore_bad (s : State) (c : Nat) (f : Core → Core) : (s.updCore c f).bad = s.bad := rfl
@[simp] theorem updCore_benches (s : State) (c : Nat) (f : Core → Core) : (s.updCore c f).benches = s.benches := rfl
@[simp] theorem updCore_flits (s : State) (c : Nat) (f : Core → Core) : (s.updCore c f).flits = s.flits := rfl
@[simp] theorem updCore_arrivals (s : State) (c : Nat) (f : Core → Core) : (s.updCore c f).arrivals = s.arrivals := rfl
@[simp] theorem updCore_ports (s : State) (c : Nat) (f : Core → Core) : (s.updCore c f).ports = s.ports := rfl
@[simp] theorem updCore_welts (s : State) (c : Nat) (f : Core → Core) : (s.updCore c f).welts = s.welts := rfl
@[simp] theorem updCore_streams (s : State) (c : Nat) (f : Core → Core) : (s.updCore c f).streams = s.streams := rfl
@[simp] theorem updCore_parts (s : State) (c : Nat) (f : Core → Core) : (s.updCore c f).parts = s.parts := rfl
@[simp] theorem updCore_clicker (s : State) (c : Nat) (f : Core → Core) : (s.updCore c f).clicker = s.clicker := rfl
@[simp] theorem updCore_ring (s : State) (c : Nat) (f : Core → Core) : (s.updCore c f).ring = s.ring := rfl
@[simp] theorem updCore_ringTurn (s : State) (c : Nat) (f : Core → Core) : (s.updCore c f).ringTurn = s.ringTurn := rfl
@[simp] theorem updCore_ringSide (s : State) (c : Nat) (f : Core → Core) : (s.updCore c f).ringSide = s.ringSide := rfl
@[simp] theorem updCore_fmn (s : State) (c : Nat) (f : Core → Core) : (s.updCore c f).fmn = s.fmn := rfl
@[simp] theorem updCore_pwr (s : State) (c : Nat) (f : Core → Core) : (s.updCore c f).pwr = s.pwr := rfl
@[simp] theorem updCore_boot (s : State) (c : Nat) (f : Core → Core) : (s.updCore c f).boot = s.boot := rfl
@[simp] theorem updCore_trc (s : State) (c : Nat) (f : Core → Core) : (s.updCore c f).trc = s.trc := rfl
@[simp] theorem updCore_board (s : State) (c : Nat) (f : Core → Core) : (s.updCore c f).board = s.board := rfl
@[simp] theorem updCore_faults (s : State) (c : Nat) (f : Core → Core) : (s.updCore c f).faults = s.faults := rfl
@[simp] theorem updCore_resets (s : State) (c : Nat) (f : Core → Core) : (s.updCore c f).resets = s.resets := rfl
@[simp] theorem updCore_free (s : State) (c : Nat) (f : Core → Core) : (s.updCore c f).free = s.free := rfl
@[simp] theorem updCore_pending (s : State) (c : Nat) (f : Core → Core) : (s.updCore c f).pending = s.pending := rfl
@[simp] theorem updCore_bench (s : State) (c j : Nat) (f : Core → Core) : (s.updCore c f).bench j = s.bench j := rfl
@[simp] theorem updCore_port (s : State) (c j : Nat) (f : Core → Core) : (s.updCore c f).port j = s.port j := rfl
@[simp] theorem updCore_welt (s : State) (c j : Nat) (f : Core → Core) : (s.updCore c f).welt j = s.welt j := rfl
@[simp] theorem updCore_stream (s : State) (c j : Nat) (f : Core → Core) : (s.updCore c f).stream j = s.stream j := rfl
@[simp] theorem updCore_part (s : State) (c j : Nat) (f : Core → Core) : (s.updCore c f).part j = s.part j := rfl
theorem updCore_get (s : State) (c j : Nat) (f : Core → Core) :
    (s.updCore c f).core j = if c = j then f (s.core c) else s.core j := tblGet_tblUpd ..
@[simp] theorem updCore_core (s : State) (c : Nat) (f : Core → Core) : (s.updCore c f).core c = f (s.core c) := tblGet_tblUpd_same ..
theorem updCore_ne (s : State) {c j : Nat} (f : Core → Core) (h : c ≠ j) : (s.updCore c f).core j = s.core j := by
  rw [updCore_get, if_neg h]

@[simp] theorem updBench_now (s : State) (b : Nat) (f : Bench → Bench) : (s.updBench b f).now = s.now := rfl
@[simp] theorem updBench_tb (s : State) (b : Nat) (f : Bench → Bench) : (s.updBench b f).tb = s.tb := rfl
@[simp] theorem updBench_mem (s : State) (b : Nat) (f : Bench → Bench) : (s.updBench b f).mem = s.mem := rfl
@[simp] theorem updBench_bad (s : State) (b : Nat) (f : Bench → Bench) : (s.updBench b f).bad = s.bad := rfl
@[simp] theorem updBench_cores (s : State) (b : Nat) (f : Bench → Bench) : (s.updBench b f).cores = s.cores := rfl
@[simp] theorem updBench_flits (s : State) (b : Nat) (f : Bench → Bench) : (s.updBench b f).flits = s.flits := rfl
@[simp] theorem updBench_arrivals (s : State) (b : Nat) (f : Bench → Bench) : (s.updBench b f).arrivals = s.arrivals := rfl
@[simp] theorem updBench_ports (s : State) (b : Nat) (f : Bench → Bench) : (s.updBench b f).ports = s.ports := rfl
@[simp] theorem updBench_welts (s : State) (b : Nat) (f : Bench → Bench) : (s.updBench b f).welts = s.welts := rfl
@[simp] theorem updBench_streams (s : State) (b : Nat) (f : Bench → Bench) : (s.updBench b f).streams = s.streams := rfl
@[simp] theorem updBench_parts (s : State) (b : Nat) (f : Bench → Bench) : (s.updBench b f).parts = s.parts := rfl
@[simp] theorem updBench_clicker (s : State) (b : Nat) (f : Bench → Bench) : (s.updBench b f).clicker = s.clicker := rfl
@[simp] theorem updBench_ring (s : State) (b : Nat) (f : Bench → Bench) : (s.updBench b f).ring = s.ring := rfl
@[simp] theorem updBench_ringTurn (s : State) (b : Nat) (f : Bench → Bench) : (s.updBench b f).ringTurn = s.ringTurn := rfl
@[simp] theorem updBench_ringSide (s : State) (b : Nat) (f : Bench → Bench) : (s.updBench b f).ringSide = s.ringSide := rfl
@[simp] theorem updBench_fmn (s : State) (b : Nat) (f : Bench → Bench) : (s.updBench b f).fmn = s.fmn := rfl
@[simp] theorem updBench_pwr (s : State) (b : Nat) (f : Bench → Bench) : (s.updBench b f).pwr = s.pwr := rfl
@[simp] theorem updBench_boot (s : State) (b : Nat) (f : Bench → Bench) : (s.updBench b f).boot = s.boot := rfl
@[simp] theorem updBench_trc (s : State) (b : Nat) (f : Bench → Bench) : (s.updBench b f).trc = s.trc := rfl
@[simp] theorem updBench_board (s : State) (b : Nat) (f : Bench → Bench) : (s.updBench b f).board = s.board := rfl
@[simp] theorem updBench_faults (s : State) (b : Nat) (f : Bench → Bench) : (s.updBench b f).faults = s.faults := rfl
@[simp] theorem updBench_resets (s : State) (b : Nat) (f : Bench → Bench) : (s.updBench b f).resets = s.resets := rfl
@[simp] theorem updBench_free (s : State) (b : Nat) (f : Bench → Bench) : (s.updBench b f).free = s.free := rfl
@[simp] theorem updBench_pending (s : State) (b : Nat) (f : Bench → Bench) : (s.updBench b f).pending = s.pending := rfl
@[simp] theorem updBench_core (s : State) (b j : Nat) (f : Bench → Bench) : (s.updBench b f).core j = s.core j := rfl
@[simp] theorem updBench_port (s : State) (b j : Nat) (f : Bench → Bench) : (s.updBench b f).port j = s.port j := rfl
@[simp] theorem updBench_welt (s : State) (b j : Nat) (f : Bench → Bench) : (s.updBench b f).welt j = s.welt j := rfl
@[simp] theorem updBench_stream (s : State) (b j : Nat) (f : Bench → Bench) : (s.updBench b f).stream j = s.stream j := rfl
@[simp] theorem updBench_part (s : State) (b j : Nat) (f : Bench → Bench) : (s.updBench b f).part j = s.part j := rfl
theorem updBench_get (s : State) (b j : Nat) (f : Bench → Bench) :
    (s.updBench b f).bench j = if b = j then f (s.bench b) else s.bench j := tblGet_tblUpd ..
@[simp] theorem updBench_bench (s : State) (b : Nat) (f : Bench → Bench) : (s.updBench b f).bench b = f (s.bench b) := tblGet_tblUpd_same ..
theorem updBench_ne (s : State) {b j : Nat} (f : Bench → Bench) (h : b ≠ j) : (s.updBench b f).bench j = s.bench j := by
  rw [updBench_get, if_neg h]

@[simp] theorem updPort_now (s : State) (d : Nat) (f : Port → Port) : (s.updPort d f).now = s.now := rfl
@[simp] theorem updPort_tb (s : State) (d : Nat) (f : Port → Port) : (s.updPort d f).tb = s.tb := rfl
@[simp] theorem updPort_mem (s : State) (d : Nat) (f : Port → Port) : (s.updPort d f).mem = s.mem := rfl
@[simp] theorem updPort_bad (s : State) (d : Nat) (f : Port → Port) : (s.updPort d f).bad = s.bad := rfl
@[simp] theorem updPort_cores (s : State) (d : Nat) (f : Port → Port) : (s.updPort d f).cores = s.cores := rfl
@[simp] theorem updPort_benches (s : State) (d : Nat) (f : Port → Port) : (s.updPort d f).benches = s.benches := rfl
@[simp] theorem updPort_flits (s : State) (d : Nat) (f : Port → Port) : (s.updPort d f).flits = s.flits := rfl
@[simp] theorem updPort_arrivals (s : State) (d : Nat) (f : Port → Port) : (s.updPort d f).arrivals = s.arrivals := rfl
@[simp] theorem updPort_welts (s : State) (d : Nat) (f : Port → Port) : (s.updPort d f).welts = s.welts := rfl
@[simp] theorem updPort_streams (s : State) (d : Nat) (f : Port → Port) : (s.updPort d f).streams = s.streams := rfl
@[simp] theorem updPort_parts (s : State) (d : Nat) (f : Port → Port) : (s.updPort d f).parts = s.parts := rfl
@[simp] theorem updPort_clicker (s : State) (d : Nat) (f : Port → Port) : (s.updPort d f).clicker = s.clicker := rfl
@[simp] theorem updPort_ring (s : State) (d : Nat) (f : Port → Port) : (s.updPort d f).ring = s.ring := rfl
@[simp] theorem updPort_ringTurn (s : State) (d : Nat) (f : Port → Port) : (s.updPort d f).ringTurn = s.ringTurn := rfl
@[simp] theorem updPort_ringSide (s : State) (d : Nat) (f : Port → Port) : (s.updPort d f).ringSide = s.ringSide := rfl
@[simp] theorem updPort_fmn (s : State) (d : Nat) (f : Port → Port) : (s.updPort d f).fmn = s.fmn := rfl
@[simp] theorem updPort_pwr (s : State) (d : Nat) (f : Port → Port) : (s.updPort d f).pwr = s.pwr := rfl
@[simp] theorem updPort_boot (s : State) (d : Nat) (f : Port → Port) : (s.updPort d f).boot = s.boot := rfl
@[simp] theorem updPort_trc (s : State) (d : Nat) (f : Port → Port) : (s.updPort d f).trc = s.trc := rfl
@[simp] theorem updPort_board (s : State) (d : Nat) (f : Port → Port) : (s.updPort d f).board = s.board := rfl
@[simp] theorem updPort_faults (s : State) (d : Nat) (f : Port → Port) : (s.updPort d f).faults = s.faults := rfl
@[simp] theorem updPort_resets (s : State) (d : Nat) (f : Port → Port) : (s.updPort d f).resets = s.resets := rfl
@[simp] theorem updPort_free (s : State) (d : Nat) (f : Port → Port) : (s.updPort d f).free = s.free := rfl
@[simp] theorem updPort_pending (s : State) (d : Nat) (f : Port → Port) : (s.updPort d f).pending = s.pending := rfl
@[simp] theorem updPort_core (s : State) (d j : Nat) (f : Port → Port) : (s.updPort d f).core j = s.core j := rfl
@[simp] theorem updPort_bench (s : State) (d j : Nat) (f : Port → Port) : (s.updPort d f).bench j = s.bench j := rfl
@[simp] theorem updPort_welt (s : State) (d j : Nat) (f : Port → Port) : (s.updPort d f).welt j = s.welt j := rfl
@[simp] theorem updPort_stream (s : State) (d j : Nat) (f : Port → Port) : (s.updPort d f).stream j = s.stream j := rfl
@[simp] theorem updPort_part (s : State) (d j : Nat) (f : Port → Port) : (s.updPort d f).part j = s.part j := rfl
theorem updPort_get (s : State) (d j : Nat) (f : Port → Port) :
    (s.updPort d f).port j = if d = j then f (s.port d) else s.port j := tblGet_tblUpd ..
@[simp] theorem updPort_port (s : State) (d : Nat) (f : Port → Port) : (s.updPort d f).port d = f (s.port d) := tblGet_tblUpd_same ..
theorem updPort_ne (s : State) {d j : Nat} (f : Port → Port) (h : d ≠ j) : (s.updPort d f).port j = s.port j := by
  rw [updPort_get, if_neg h]

@[simp] theorem updWelt_now (s : State) (w : Nat) (f : Welt → Welt) : (s.updWelt w f).now = s.now := rfl
@[simp] theorem updWelt_tb (s : State) (w : Nat) (f : Welt → Welt) : (s.updWelt w f).tb = s.tb := rfl
@[simp] theorem updWelt_mem (s : State) (w : Nat) (f : Welt → Welt) : (s.updWelt w f).mem = s.mem := rfl
@[simp] theorem updWelt_bad (s : State) (w : Nat) (f : Welt → Welt) : (s.updWelt w f).bad = s.bad := rfl
@[simp] theorem updWelt_cores (s : State) (w : Nat) (f : Welt → Welt) : (s.updWelt w f).cores = s.cores := rfl
@[simp] theorem updWelt_benches (s : State) (w : Nat) (f : Welt → Welt) : (s.updWelt w f).benches = s.benches := rfl
@[simp] theorem updWelt_flits (s : State) (w : Nat) (f : Welt → Welt) : (s.updWelt w f).flits = s.flits := rfl
@[simp] theorem updWelt_arrivals (s : State) (w : Nat) (f : Welt → Welt) : (s.updWelt w f).arrivals = s.arrivals := rfl
@[simp] theorem updWelt_ports (s : State) (w : Nat) (f : Welt → Welt) : (s.updWelt w f).ports = s.ports := rfl
@[simp] theorem updWelt_streams (s : State) (w : Nat) (f : Welt → Welt) : (s.updWelt w f).streams = s.streams := rfl
@[simp] theorem updWelt_parts (s : State) (w : Nat) (f : Welt → Welt) : (s.updWelt w f).parts = s.parts := rfl
@[simp] theorem updWelt_clicker (s : State) (w : Nat) (f : Welt → Welt) : (s.updWelt w f).clicker = s.clicker := rfl
@[simp] theorem updWelt_ring (s : State) (w : Nat) (f : Welt → Welt) : (s.updWelt w f).ring = s.ring := rfl
@[simp] theorem updWelt_ringTurn (s : State) (w : Nat) (f : Welt → Welt) : (s.updWelt w f).ringTurn = s.ringTurn := rfl
@[simp] theorem updWelt_ringSide (s : State) (w : Nat) (f : Welt → Welt) : (s.updWelt w f).ringSide = s.ringSide := rfl
@[simp] theorem updWelt_fmn (s : State) (w : Nat) (f : Welt → Welt) : (s.updWelt w f).fmn = s.fmn := rfl
@[simp] theorem updWelt_pwr (s : State) (w : Nat) (f : Welt → Welt) : (s.updWelt w f).pwr = s.pwr := rfl
@[simp] theorem updWelt_boot (s : State) (w : Nat) (f : Welt → Welt) : (s.updWelt w f).boot = s.boot := rfl
@[simp] theorem updWelt_trc (s : State) (w : Nat) (f : Welt → Welt) : (s.updWelt w f).trc = s.trc := rfl
@[simp] theorem updWelt_board (s : State) (w : Nat) (f : Welt → Welt) : (s.updWelt w f).board = s.board := rfl
@[simp] theorem updWelt_faults (s : State) (w : Nat) (f : Welt → Welt) : (s.updWelt w f).faults = s.faults := rfl
@[simp] theorem updWelt_resets (s : State) (w : Nat) (f : Welt → Welt) : (s.updWelt w f).resets = s.resets := rfl
@[simp] theorem updWelt_free (s : State) (w : Nat) (f : Welt → Welt) : (s.updWelt w f).free = s.free := rfl
@[simp] theorem updWelt_pending (s : State) (w : Nat) (f : Welt → Welt) : (s.updWelt w f).pending = s.pending := rfl
@[simp] theorem updWelt_core (s : State) (w j : Nat) (f : Welt → Welt) : (s.updWelt w f).core j = s.core j := rfl
@[simp] theorem updWelt_bench (s : State) (w j : Nat) (f : Welt → Welt) : (s.updWelt w f).bench j = s.bench j := rfl
@[simp] theorem updWelt_port (s : State) (w j : Nat) (f : Welt → Welt) : (s.updWelt w f).port j = s.port j := rfl
@[simp] theorem updWelt_stream (s : State) (w j : Nat) (f : Welt → Welt) : (s.updWelt w f).stream j = s.stream j := rfl
@[simp] theorem updWelt_part (s : State) (w j : Nat) (f : Welt → Welt) : (s.updWelt w f).part j = s.part j := rfl
theorem updWelt_get (s : State) (w j : Nat) (f : Welt → Welt) :
    (s.updWelt w f).welt j = if w = j then f (s.welt w) else s.welt j := tblGet_tblUpd ..
@[simp] theorem updWelt_welt (s : State) (w : Nat) (f : Welt → Welt) : (s.updWelt w f).welt w = f (s.welt w) := tblGet_tblUpd_same ..
theorem updWelt_ne (s : State) {w j : Nat} (f : Welt → Welt) (h : w ≠ j) : (s.updWelt w f).welt j = s.welt j := by
  rw [updWelt_get, if_neg h]

@[simp] theorem updStream_now (s : State) (i : Nat) (f : Stream → Stream) : (s.updStream i f).now = s.now := rfl
@[simp] theorem updStream_tb (s : State) (i : Nat) (f : Stream → Stream) : (s.updStream i f).tb = s.tb := rfl
@[simp] theorem updStream_mem (s : State) (i : Nat) (f : Stream → Stream) : (s.updStream i f).mem = s.mem := rfl
@[simp] theorem updStream_bad (s : State) (i : Nat) (f : Stream → Stream) : (s.updStream i f).bad = s.bad := rfl
@[simp] theorem updStream_cores (s : State) (i : Nat) (f : Stream → Stream) : (s.updStream i f).cores = s.cores := rfl
@[simp] theorem updStream_benches (s : State) (i : Nat) (f : Stream → Stream) : (s.updStream i f).benches = s.benches := rfl
@[simp] theorem updStream_flits (s : State) (i : Nat) (f : Stream → Stream) : (s.updStream i f).flits = s.flits := rfl
@[simp] theorem updStream_arrivals (s : State) (i : Nat) (f : Stream → Stream) : (s.updStream i f).arrivals = s.arrivals := rfl
@[simp] theorem updStream_ports (s : State) (i : Nat) (f : Stream → Stream) : (s.updStream i f).ports = s.ports := rfl
@[simp] theorem updStream_welts (s : State) (i : Nat) (f : Stream → Stream) : (s.updStream i f).welts = s.welts := rfl
@[simp] theorem updStream_parts (s : State) (i : Nat) (f : Stream → Stream) : (s.updStream i f).parts = s.parts := rfl
@[simp] theorem updStream_clicker (s : State) (i : Nat) (f : Stream → Stream) : (s.updStream i f).clicker = s.clicker := rfl
@[simp] theorem updStream_ring (s : State) (i : Nat) (f : Stream → Stream) : (s.updStream i f).ring = s.ring := rfl
@[simp] theorem updStream_ringTurn (s : State) (i : Nat) (f : Stream → Stream) : (s.updStream i f).ringTurn = s.ringTurn := rfl
@[simp] theorem updStream_ringSide (s : State) (i : Nat) (f : Stream → Stream) : (s.updStream i f).ringSide = s.ringSide := rfl
@[simp] theorem updStream_fmn (s : State) (i : Nat) (f : Stream → Stream) : (s.updStream i f).fmn = s.fmn := rfl
@[simp] theorem updStream_pwr (s : State) (i : Nat) (f : Stream → Stream) : (s.updStream i f).pwr = s.pwr := rfl
@[simp] theorem updStream_boot (s : State) (i : Nat) (f : Stream → Stream) : (s.updStream i f).boot = s.boot := rfl
@[simp] theorem updStream_trc (s : State) (i : Nat) (f : Stream → Stream) : (s.updStream i f).trc = s.trc := rfl
@[simp] theorem updStream_board (s : State) (i : Nat) (f : Stream → Stream) : (s.updStream i f).board = s.board := rfl
@[simp] theorem updStream_faults (s : State) (i : Nat) (f : Stream → Stream) : (s.updStream i f).faults = s.faults := rfl
@[simp] theorem updStream_resets (s : State) (i : Nat) (f : Stream → Stream) : (s.updStream i f).resets = s.resets := rfl
@[simp] theorem updStream_free (s : State) (i : Nat) (f : Stream → Stream) : (s.updStream i f).free = s.free := rfl
@[simp] theorem updStream_pending (s : State) (i : Nat) (f : Stream → Stream) : (s.updStream i f).pending = s.pending := rfl
@[simp] theorem updStream_core (s : State) (i j : Nat) (f : Stream → Stream) : (s.updStream i f).core j = s.core j := rfl
@[simp] theorem updStream_bench (s : State) (i j : Nat) (f : Stream → Stream) : (s.updStream i f).bench j = s.bench j := rfl
@[simp] theorem updStream_port (s : State) (i j : Nat) (f : Stream → Stream) : (s.updStream i f).port j = s.port j := rfl
@[simp] theorem updStream_welt (s : State) (i j : Nat) (f : Stream → Stream) : (s.updStream i f).welt j = s.welt j := rfl
@[simp] theorem updStream_part (s : State) (i j : Nat) (f : Stream → Stream) : (s.updStream i f).part j = s.part j := rfl
theorem updStream_get (s : State) (i j : Nat) (f : Stream → Stream) :
    (s.updStream i f).stream j = if i = j then f (s.stream i) else s.stream j := tblGet_tblUpd ..
@[simp] theorem updStream_stream (s : State) (i : Nat) (f : Stream → Stream) : (s.updStream i f).stream i = f (s.stream i) := tblGet_tblUpd_same ..
theorem updStream_ne (s : State) {i j : Nat} (f : Stream → Stream) (h : i ≠ j) : (s.updStream i f).stream j = s.stream j := by
  rw [updStream_get, if_neg h]

@[simp] theorem updPart_now (s : State) (p : Nat) (f : Part → Part) : (s.updPart p f).now = s.now := rfl
@[simp] theorem updPart_tb (s : State) (p : Nat) (f : Part → Part) : (s.updPart p f).tb = s.tb := rfl
@[simp] theorem updPart_mem (s : State) (p : Nat) (f : Part → Part) : (s.updPart p f).mem = s.mem := rfl
@[simp] theorem updPart_bad (s : State) (p : Nat) (f : Part → Part) : (s.updPart p f).bad = s.bad := rfl
@[simp] theorem updPart_cores (s : State) (p : Nat) (f : Part → Part) : (s.updPart p f).cores = s.cores := rfl
@[simp] theorem updPart_benches (s : State) (p : Nat) (f : Part → Part) : (s.updPart p f).benches = s.benches := rfl
@[simp] theorem updPart_flits (s : State) (p : Nat) (f : Part → Part) : (s.updPart p f).flits = s.flits := rfl
@[simp] theorem updPart_arrivals (s : State) (p : Nat) (f : Part → Part) : (s.updPart p f).arrivals = s.arrivals := rfl
@[simp] theorem updPart_ports (s : State) (p : Nat) (f : Part → Part) : (s.updPart p f).ports = s.ports := rfl
@[simp] theorem updPart_welts (s : State) (p : Nat) (f : Part → Part) : (s.updPart p f).welts = s.welts := rfl
@[simp] theorem updPart_streams (s : State) (p : Nat) (f : Part → Part) : (s.updPart p f).streams = s.streams := rfl
@[simp] theorem updPart_clicker (s : State) (p : Nat) (f : Part → Part) : (s.updPart p f).clicker = s.clicker := rfl
@[simp] theorem updPart_ring (s : State) (p : Nat) (f : Part → Part) : (s.updPart p f).ring = s.ring := rfl
@[simp] theorem updPart_ringTurn (s : State) (p : Nat) (f : Part → Part) : (s.updPart p f).ringTurn = s.ringTurn := rfl
@[simp] theorem updPart_ringSide (s : State) (p : Nat) (f : Part → Part) : (s.updPart p f).ringSide = s.ringSide := rfl
@[simp] theorem updPart_fmn (s : State) (p : Nat) (f : Part → Part) : (s.updPart p f).fmn = s.fmn := rfl
@[simp] theorem updPart_pwr (s : State) (p : Nat) (f : Part → Part) : (s.updPart p f).pwr = s.pwr := rfl
@[simp] theorem updPart_boot (s : State) (p : Nat) (f : Part → Part) : (s.updPart p f).boot = s.boot := rfl
@[simp] theorem updPart_trc (s : State) (p : Nat) (f : Part → Part) : (s.updPart p f).trc = s.trc := rfl
@[simp] theorem updPart_board (s : State) (p : Nat) (f : Part → Part) : (s.updPart p f).board = s.board := rfl
@[simp] theorem updPart_faults (s : State) (p : Nat) (f : Part → Part) : (s.updPart p f).faults = s.faults := rfl
@[simp] theorem updPart_resets (s : State) (p : Nat) (f : Part → Part) : (s.updPart p f).resets = s.resets := rfl
@[simp] theorem updPart_free (s : State) (p : Nat) (f : Part → Part) : (s.updPart p f).free = s.free := rfl
@[simp] theorem updPart_pending (s : State) (p : Nat) (f : Part → Part) : (s.updPart p f).pending = s.pending := rfl
@[simp] theorem updPart_core (s : State) (p j : Nat) (f : Part → Part) : (s.updPart p f).core j = s.core j := rfl
@[simp] theorem updPart_bench (s : State) (p j : Nat) (f : Part → Part) : (s.updPart p f).bench j = s.bench j := rfl
@[simp] theorem updPart_port (s : State) (p j : Nat) (f : Part → Part) : (s.updPart p f).port j = s.port j := rfl
@[simp] theorem updPart_welt (s : State) (p j : Nat) (f : Part → Part) : (s.updPart p f).welt j = s.welt j := rfl
@[simp] theorem updPart_stream (s : State) (p j : Nat) (f : Part → Part) : (s.updPart p f).stream j = s.stream j := rfl
theorem updPart_get (s : State) (p j : Nat) (f : Part → Part) :
    (s.updPart p f).part j = if p = j then f (s.part p) else s.part j := tblGet_tblUpd ..
@[simp] theorem updPart_part (s : State) (p : Nat) (f : Part → Part) : (s.updPart p f).part p = f (s.part p) := tblGet_tblUpd_same ..
theorem updPart_ne (s : State) {p j : Nat} (f : Part → Part) (h : p ≠ j) : (s.updPart p f).part j = s.part j := by
  rw [updPart_get, if_neg h]

@[simp] theorem updMbox_now (s : State) (m : Nat) (f : MBox → MBox) : (s.updMbox m f).now = s.now := rfl
@[simp] theorem updCtx_now (s : State) (t : Thread) (f : Ctx → Ctx) : (s.updCtx t f).now = s.now := rfl
@[simp] theorem updMbox_tb (s : State) (m : Nat) (f : MBox → MBox) : (s.updMbox m f).tb = s.tb := rfl
@[simp] theorem updCtx_tb (s : State) (t : Thread) (f : Ctx → Ctx) : (s.updCtx t f).tb = s.tb := rfl
@[simp] theorem updMbox_mem (s : State) (m : Nat) (f : MBox → MBox) : (s.updMbox m f).mem = s.mem := rfl
@[simp] theorem updCtx_mem (s : State) (t : Thread) (f : Ctx → Ctx) : (s.updCtx t f).mem = s.mem := rfl
@[simp] theorem updMbox_bad (s : State) (m : Nat) (f : MBox → MBox) : (s.updMbox m f).bad = s.bad := rfl
@[simp] theorem updCtx_bad (s : State) (t : Thread) (f : Ctx → Ctx) : (s.updCtx t f).bad = s.bad := rfl
@[simp] theorem updMbox_cores (s : State) (m : Nat) (f : MBox → MBox) : (s.updMbox m f).cores = s.cores := rfl
@[simp] theorem updMbox_benches (s : State) (m : Nat) (f : MBox → MBox) : (s.updMbox m f).benches = s.benches := rfl
@[simp] theorem updCtx_benches (s : State) (t : Thread) (f : Ctx → Ctx) : (s.updCtx t f).benches = s.benches := rfl
@[simp] theorem updMbox_flits (s : State) (m : Nat) (f : MBox → MBox) : (s.updMbox m f).flits = s.flits := rfl
@[simp] theorem updCtx_flits (s : State) (t : Thread) (f : Ctx → Ctx) : (s.updCtx t f).flits = s.flits := rfl
@[simp] theorem updMbox_arrivals (s : State) (m : Nat) (f : MBox → MBox) : (s.updMbox m f).arrivals = s.arrivals := rfl
@[simp] theorem updCtx_arrivals (s : State) (t : Thread) (f : Ctx → Ctx) : (s.updCtx t f).arrivals = s.arrivals := rfl
@[simp] theorem updMbox_ports (s : State) (m : Nat) (f : MBox → MBox) : (s.updMbox m f).ports = s.ports := rfl
@[simp] theorem updCtx_ports (s : State) (t : Thread) (f : Ctx → Ctx) : (s.updCtx t f).ports = s.ports := rfl
@[simp] theorem updMbox_welts (s : State) (m : Nat) (f : MBox → MBox) : (s.updMbox m f).welts = s.welts := rfl
@[simp] theorem updCtx_welts (s : State) (t : Thread) (f : Ctx → Ctx) : (s.updCtx t f).welts = s.welts := rfl
@[simp] theorem updMbox_streams (s : State) (m : Nat) (f : MBox → MBox) : (s.updMbox m f).streams = s.streams := rfl
@[simp] theorem updCtx_streams (s : State) (t : Thread) (f : Ctx → Ctx) : (s.updCtx t f).streams = s.streams := rfl
@[simp] theorem updMbox_parts (s : State) (m : Nat) (f : MBox → MBox) : (s.updMbox m f).parts = s.parts := rfl
@[simp] theorem updCtx_parts (s : State) (t : Thread) (f : Ctx → Ctx) : (s.updCtx t f).parts = s.parts := rfl
@[simp] theorem updMbox_clicker (s : State) (m : Nat) (f : MBox → MBox) : (s.updMbox m f).clicker = s.clicker := rfl
@[simp] theorem updCtx_clicker (s : State) (t : Thread) (f : Ctx → Ctx) : (s.updCtx t f).clicker = s.clicker := rfl
@[simp] theorem updMbox_ring (s : State) (m : Nat) (f : MBox → MBox) : (s.updMbox m f).ring = s.ring := rfl
@[simp] theorem updCtx_ring (s : State) (t : Thread) (f : Ctx → Ctx) : (s.updCtx t f).ring = s.ring := rfl
@[simp] theorem updMbox_ringTurn (s : State) (m : Nat) (f : MBox → MBox) : (s.updMbox m f).ringTurn = s.ringTurn := rfl
@[simp] theorem updCtx_ringTurn (s : State) (t : Thread) (f : Ctx → Ctx) : (s.updCtx t f).ringTurn = s.ringTurn := rfl
@[simp] theorem updMbox_ringSide (s : State) (m : Nat) (f : MBox → MBox) : (s.updMbox m f).ringSide = s.ringSide := rfl
@[simp] theorem updCtx_ringSide (s : State) (t : Thread) (f : Ctx → Ctx) : (s.updCtx t f).ringSide = s.ringSide := rfl
@[simp] theorem updCtx_fmn (s : State) (t : Thread) (f : Ctx → Ctx) : (s.updCtx t f).fmn = s.fmn := rfl
@[simp] theorem updMbox_pwr (s : State) (m : Nat) (f : MBox → MBox) : (s.updMbox m f).pwr = s.pwr := rfl
@[simp] theorem updCtx_pwr (s : State) (t : Thread) (f : Ctx → Ctx) : (s.updCtx t f).pwr = s.pwr := rfl
@[simp] theorem updMbox_boot (s : State) (m : Nat) (f : MBox → MBox) : (s.updMbox m f).boot = s.boot := rfl
@[simp] theorem updCtx_boot (s : State) (t : Thread) (f : Ctx → Ctx) : (s.updCtx t f).boot = s.boot := rfl
@[simp] theorem updMbox_trc (s : State) (m : Nat) (f : MBox → MBox) : (s.updMbox m f).trc = s.trc := rfl
@[simp] theorem updCtx_trc (s : State) (t : Thread) (f : Ctx → Ctx) : (s.updCtx t f).trc = s.trc := rfl
@[simp] theorem updMbox_board (s : State) (m : Nat) (f : MBox → MBox) : (s.updMbox m f).board = s.board := rfl
@[simp] theorem updCtx_board (s : State) (t : Thread) (f : Ctx → Ctx) : (s.updCtx t f).board = s.board := rfl
@[simp] theorem updMbox_faults (s : State) (m : Nat) (f : MBox → MBox) : (s.updMbox m f).faults = s.faults := rfl
@[simp] theorem updCtx_faults (s : State) (t : Thread) (f : Ctx → Ctx) : (s.updCtx t f).faults = s.faults := rfl
@[simp] theorem updMbox_resets (s : State) (m : Nat) (f : MBox → MBox) : (s.updMbox m f).resets = s.resets := rfl
@[simp] theorem updCtx_resets (s : State) (t : Thread) (f : Ctx → Ctx) : (s.updCtx t f).resets = s.resets := rfl
@[simp] theorem updMbox_free (s : State) (m : Nat) (f : MBox → MBox) : (s.updMbox m f).free = s.free := rfl
@[simp] theorem updCtx_free (s : State) (t : Thread) (f : Ctx → Ctx) : (s.updCtx t f).free = s.free := rfl
@[simp] theorem updMbox_pending (s : State) (m : Nat) (f : MBox → MBox) : (s.updMbox m f).pending = s.pending := rfl
@[simp] theorem updCtx_pending (s : State) (t : Thread) (f : Ctx → Ctx) : (s.updCtx t f).pending = s.pending := rfl
@[simp] theorem updMbox_core (s : State) (m j : Nat) (f : MBox → MBox) : (s.updMbox m f).core j = s.core j := rfl
@[simp] theorem updMbox_bench (s : State) (m j : Nat) (f : MBox → MBox) : (s.updMbox m f).bench j = s.bench j := rfl
@[simp] theorem updCtx_bench (s : State) (t : Thread) (j : Nat) (f : Ctx → Ctx) : (s.updCtx t f).bench j = s.bench j := rfl
@[simp] theorem updBench_ctx (s : State) (t : Thread) (j : Nat) (f : Bench → Bench) : (s.updBench j f).ctx t = s.ctx t := rfl
@[simp] theorem updMbox_port (s : State) (m j : Nat) (f : MBox → MBox) : (s.updMbox m f).port j = s.port j := rfl
@[simp] theorem updCtx_port (s : State) (t : Thread) (j : Nat) (f : Ctx → Ctx) : (s.updCtx t f).port j = s.port j := rfl
@[simp] theorem updPort_ctx (s : State) (t : Thread) (j : Nat) (f : Port → Port) : (s.updPort j f).ctx t = s.ctx t := rfl
@[simp] theorem updMbox_welt (s : State) (m j : Nat) (f : MBox → MBox) : (s.updMbox m f).welt j = s.welt j := rfl
@[simp] theorem updCtx_welt (s : State) (t : Thread) (j : Nat) (f : Ctx → Ctx) : (s.updCtx t f).welt j = s.welt j := rfl
@[simp] theorem updWelt_ctx (s : State) (t : Thread) (j : Nat) (f : Welt → Welt) : (s.updWelt j f).ctx t = s.ctx t := rfl
@[simp] theorem updMbox_stream (s : State) (m j : Nat) (f : MBox → MBox) : (s.updMbox m f).stream j = s.stream j := rfl
@[simp] theorem updCtx_stream (s : State) (t : Thread) (j : Nat) (f : Ctx → Ctx) : (s.updCtx t f).stream j = s.stream j := rfl
@[simp] theorem updStream_ctx (s : State) (t : Thread) (j : Nat) (f : Stream → Stream) : (s.updStream j f).ctx t = s.ctx t := rfl
@[simp] theorem updMbox_part (s : State) (m j : Nat) (f : MBox → MBox) : (s.updMbox m f).part j = s.part j := rfl
@[simp] theorem updCtx_part (s : State) (t : Thread) (j : Nat) (f : Ctx → Ctx) : (s.updCtx t f).part j = s.part j := rfl
@[simp] theorem updPart_ctx (s : State) (t : Thread) (j : Nat) (f : Part → Part) : (s.updPart j f).ctx t = s.ctx t := rfl
@[simp] theorem updMbox_mbox (s : State) (m : Nat) (f : MBox → MBox) : (s.updMbox m f).mbox m = f (s.mbox m) := tblGet_tblUpd_same ..
@[simp] theorem updMbox_ctx (s : State) (t : Thread) (m : Nat) (f : MBox → MBox) : (s.updMbox m f).ctx t = s.ctx t := rfl
theorem updMbox_get (s : State) (m j : Nat) (f : MBox → MBox) :
    (s.updMbox m f).mbox j = if m = j then f (s.mbox m) else s.mbox j := tblGet_tblUpd ..

/-! ## Contexts -/

theorem Core.updCtx_get (k : Core) (i j : Nat) (f : Ctx → Ctx) :
    (k.updCtx i f).ctx j = if i = j then f (k.ctx i) else k.ctx j := tblGet_tblUpd ..
@[simp] theorem Core.updCtx_ctx (k : Core) (i : Nat) (f : Ctx → Ctx) : (k.updCtx i f).ctx i = f (k.ctx i) := tblGet_tblUpd_same ..
@[simp] theorem updCtx_ctx (s : State) (t : Thread) (f : Ctx → Ctx) : (s.updCtx t f).ctx t = f (s.ctx t) := by
  simp [State.updCtx, State.ctx]
theorem updCtx_get (s : State) (t u : Thread) (f : Ctx → Ctx) :
    (s.updCtx t f).ctx u = if t = u then f (s.ctx t) else s.ctx u := by
  by_cases h : t = u
  · subst h; simp
  · rw [if_neg h]
    unfold State.updCtx State.ctx
    rw [updCore_get]
    split
    · rename_i e
      rw [Core.updCtx_get, if_neg, e]
      intro e2
      exact h (by cases t; cases u; simp_all)
    · rfl
theorem updCtx_core_ne (s : State) (t : Thread) {c : Nat} (f : Ctx → Ctx) (h : t.core ≠ c) : (s.updCtx t f).core c = s.core c :=
  updCore_ne s _ h
@[simp] theorem updCtx_core (s : State) (t : Thread) (f : Ctx → Ctx) : (s.updCtx t f).core t.core = (s.core t.core).updCtx t.ctx f :=
  updCore_core ..

@[simp] theorem Core.updCtx_sr (x : Core) (i : Nat) (f : Ctx → Ctx) : (x.updCtx i f).sr = x.sr := rfl
@[simp] theorem Core.updCtx_tiles (x : Core) (i : Nat) (f : Ctx → Ctx) : (x.updCtx i f).tiles = x.tiles := rfl
@[simp] theorem Core.updCtx_accs (x : Core) (i : Nat) (f : Ctx → Ctx) : (x.updCtx i f).accs = x.accs := rfl
@[simp] theorem Core.updCtx_act (x : Core) (i : Nat) (f : Ctx → Ctx) : (x.updCtx i f).act = x.act := rfl
@[simp] theorem Core.updCtx_tops (x : Core) (i : Nat) (f : Ctx → Ctx) : (x.updCtx i f).tops = x.tops := rfl
@[simp] theorem Core.updCtx_mmaFree (x : Core) (i : Nat) (f : Ctx → Ctx) : (x.updCtx i f).mmaFree = x.mmaFree := rfl
@[simp] theorem Core.updCtx_lsFree (x : Core) (i : Nat) (f : Ctx → Ctx) : (x.updCtx i f).lsFree = x.lsFree := rfl
@[simp] theorem Core.updCtx_vecFree (x : Core) (i : Nat) (f : Ctx → Ctx) : (x.updCtx i f).vecFree = x.vecFree := rfl
@[simp] theorem Core.updCtx_rd0Free (x : Core) (i : Nat) (f : Ctx → Ctx) : (x.updCtx i f).rd0Free = x.rd0Free := rfl
@[simp] theorem Core.updCtx_rd1Free (x : Core) (i : Nat) (f : Ctx → Ctx) : (x.updCtx i f).rd1Free = x.rd1Free := rfl
@[simp] theorem Core.updCtx_wrFree (x : Core) (i : Nat) (f : Ctx → Ctx) : (x.updCtx i f).wrFree = x.wrFree := rfl
@[simp] theorem Core.updCtx_fetched (x : Core) (i : Nat) (f : Ctx → Ctx) : (x.updCtx i f).fetched = x.fetched := rfl
@[simp] theorem Core.updCtx_ustore (x : Core) (i : Nat) (f : Ctx → Ctx) : (x.updCtx i f).ustore = x.ustore := rfl
@[simp] theorem Core.updCtx_micro (x : Core) (i : Nat) (f : Ctx → Ctx) : (x.updCtx i f).micro = x.micro := rfl
@[simp] theorem Core.updCtx_cycAcc (x : Core) (i : Nat) (f : Ctx → Ctx) : (x.updCtx i f).cycAcc = x.cycAcc := rfl
@[simp] theorem Core.updCtx_cycFrom (x : Core) (i : Nat) (f : Ctx → Ctx) : (x.updCtx i f).cycFrom = x.cycFrom := rfl
@[simp] theorem Core.updCtx_tileOwn (x : Core) (i : Nat) (f : Ctx → Ctx) : (x.updCtx i f).tileOwn = x.tileOwn := rfl
@[simp] theorem Core.updCtx_queueOwn (x : Core) (i : Nat) (f : Ctx → Ctx) : (x.updCtx i f).queueOwn = x.queueOwn := rfl
@[simp] theorem Core.updCtx_slotOwn (x : Core) (i : Nat) (f : Ctx → Ctx) : (x.updCtx i f).slotOwn = x.slotOwn := rfl
@[simp] theorem Core.updCtx_samplesQ (x : Core) (i : Nat) (f : Ctx → Ctx) : (x.updCtx i f).samplesQ = x.samplesQ := rfl
@[simp] theorem Core.setReg_ctxs (x : Core) (n : Nat) (v : Word) : (x.setReg n v).ctxs = x.ctxs := rfl
@[simp] theorem Core.setReg_tiles (x : Core) (n : Nat) (v : Word) : (x.setReg n v).tiles = x.tiles := rfl
@[simp] theorem Core.setReg_accs (x : Core) (n : Nat) (v : Word) : (x.setReg n v).accs = x.accs := rfl
@[simp] theorem Core.setReg_act (x : Core) (n : Nat) (v : Word) : (x.setReg n v).act = x.act := rfl
@[simp] theorem Core.setReg_tops (x : Core) (n : Nat) (v : Word) : (x.setReg n v).tops = x.tops := rfl
@[simp] theorem Core.setReg_mmaFree (x : Core) (n : Nat) (v : Word) : (x.setReg n v).mmaFree = x.mmaFree := rfl
@[simp] theorem Core.setReg_lsFree (x : Core) (n : Nat) (v : Word) : (x.setReg n v).lsFree = x.lsFree := rfl
@[simp] theorem Core.setReg_vecFree (x : Core) (n : Nat) (v : Word) : (x.setReg n v).vecFree = x.vecFree := rfl
@[simp] theorem Core.setReg_rd0Free (x : Core) (n : Nat) (v : Word) : (x.setReg n v).rd0Free = x.rd0Free := rfl
@[simp] theorem Core.setReg_rd1Free (x : Core) (n : Nat) (v : Word) : (x.setReg n v).rd1Free = x.rd1Free := rfl
@[simp] theorem Core.setReg_wrFree (x : Core) (n : Nat) (v : Word) : (x.setReg n v).wrFree = x.wrFree := rfl
@[simp] theorem Core.setReg_fetched (x : Core) (n : Nat) (v : Word) : (x.setReg n v).fetched = x.fetched := rfl
@[simp] theorem Core.setReg_ustore (x : Core) (n : Nat) (v : Word) : (x.setReg n v).ustore = x.ustore := rfl
@[simp] theorem Core.setReg_micro (x : Core) (n : Nat) (v : Word) : (x.setReg n v).micro = x.micro := rfl
@[simp] theorem Core.setReg_cycAcc (x : Core) (n : Nat) (v : Word) : (x.setReg n v).cycAcc = x.cycAcc := rfl
@[simp] theorem Core.setReg_cycFrom (x : Core) (n : Nat) (v : Word) : (x.setReg n v).cycFrom = x.cycFrom := rfl
@[simp] theorem Core.setReg_tileOwn (x : Core) (n : Nat) (v : Word) : (x.setReg n v).tileOwn = x.tileOwn := rfl
@[simp] theorem Core.setReg_queueOwn (x : Core) (n : Nat) (v : Word) : (x.setReg n v).queueOwn = x.queueOwn := rfl
@[simp] theorem Core.setReg_slotOwn (x : Core) (n : Nat) (v : Word) : (x.setReg n v).slotOwn = x.slotOwn := rfl
@[simp] theorem Core.setReg_samplesQ (x : Core) (n : Nat) (v : Word) : (x.setReg n v).samplesQ = x.samplesQ := rfl
@[simp] theorem Core.updTile_ctxs (x : Core) (i : Nat) (f : Tile → Tile) : (x.updTile i f).ctxs = x.ctxs := rfl
@[simp] theorem Core.updTile_sr (x : Core) (i : Nat) (f : Tile → Tile) : (x.updTile i f).sr = x.sr := rfl
@[simp] theorem Core.updTile_accs (x : Core) (i : Nat) (f : Tile → Tile) : (x.updTile i f).accs = x.accs := rfl
@[simp] theorem Core.updTile_act (x : Core) (i : Nat) (f : Tile → Tile) : (x.updTile i f).act = x.act := rfl
@[simp] theorem Core.updTile_tops (x : Core) (i : Nat) (f : Tile → Tile) : (x.updTile i f).tops = x.tops := rfl
@[simp] theorem Core.updTile_mmaFree (x : Core) (i : Nat) (f : Tile → Tile) : (x.updTile i f).mmaFree = x.mmaFree := rfl
@[simp] theorem Core.updTile_lsFree (x : Core) (i : Nat) (f : Tile → Tile) : (x.updTile i f).lsFree = x.lsFree := rfl
@[simp] theorem Core.updTile_vecFree (x : Core) (i : Nat) (f : Tile → Tile) : (x.updTile i f).vecFree = x.vecFree := rfl
@[simp] theorem Core.updTile_rd0Free (x : Core) (i : Nat) (f : Tile → Tile) : (x.updTile i f).rd0Free = x.rd0Free := rfl
@[simp] theorem Core.updTile_rd1Free (x : Core) (i : Nat) (f : Tile → Tile) : (x.updTile i f).rd1Free = x.rd1Free := rfl
@[simp] theorem Core.updTile_wrFree (x : Core) (i : Nat) (f : Tile → Tile) : (x.updTile i f).wrFree = x.wrFree := rfl
@[simp] theorem Core.updTile_fetched (x : Core) (i : Nat) (f : Tile → Tile) : (x.updTile i f).fetched = x.fetched := rfl
@[simp] theorem Core.updTile_ustore (x : Core) (i : Nat) (f : Tile → Tile) : (x.updTile i f).ustore = x.ustore := rfl
@[simp] theorem Core.updTile_micro (x : Core) (i : Nat) (f : Tile → Tile) : (x.updTile i f).micro = x.micro := rfl
@[simp] theorem Core.updTile_cycAcc (x : Core) (i : Nat) (f : Tile → Tile) : (x.updTile i f).cycAcc = x.cycAcc := rfl
@[simp] theorem Core.updTile_cycFrom (x : Core) (i : Nat) (f : Tile → Tile) : (x.updTile i f).cycFrom = x.cycFrom := rfl
@[simp] theorem Core.updTile_tileOwn (x : Core) (i : Nat) (f : Tile → Tile) : (x.updTile i f).tileOwn = x.tileOwn := rfl
@[simp] theorem Core.updTile_queueOwn (x : Core) (i : Nat) (f : Tile → Tile) : (x.updTile i f).queueOwn = x.queueOwn := rfl
@[simp] theorem Core.updTile_slotOwn (x : Core) (i : Nat) (f : Tile → Tile) : (x.updTile i f).slotOwn = x.slotOwn := rfl
@[simp] theorem Core.updTile_samplesQ (x : Core) (i : Nat) (f : Tile → Tile) : (x.updTile i f).samplesQ = x.samplesQ := rfl
@[simp] theorem Core.updAcc_ctxs (x : Core) (i : Nat) (f : Acc → Acc) : (x.updAcc i f).ctxs = x.ctxs := rfl
@[simp] theorem Core.updAcc_sr (x : Core) (i : Nat) (f : Acc → Acc) : (x.updAcc i f).sr = x.sr := rfl
@[simp] theorem Core.updAcc_tiles (x : Core) (i : Nat) (f : Acc → Acc) : (x.updAcc i f).tiles = x.tiles := rfl
@[simp] theorem Core.updAcc_act (x : Core) (i : Nat) (f : Acc → Acc) : (x.updAcc i f).act = x.act := rfl
@[simp] theorem Core.updAcc_tops (x : Core) (i : Nat) (f : Acc → Acc) : (x.updAcc i f).tops = x.tops := rfl
@[simp] theorem Core.updAcc_mmaFree (x : Core) (i : Nat) (f : Acc → Acc) : (x.updAcc i f).mmaFree = x.mmaFree := rfl
@[simp] theorem Core.updAcc_lsFree (x : Core) (i : Nat) (f : Acc → Acc) : (x.updAcc i f).lsFree = x.lsFree := rfl
@[simp] theorem Core.updAcc_vecFree (x : Core) (i : Nat) (f : Acc → Acc) : (x.updAcc i f).vecFree = x.vecFree := rfl
@[simp] theorem Core.updAcc_rd0Free (x : Core) (i : Nat) (f : Acc → Acc) : (x.updAcc i f).rd0Free = x.rd0Free := rfl
@[simp] theorem Core.updAcc_rd1Free (x : Core) (i : Nat) (f : Acc → Acc) : (x.updAcc i f).rd1Free = x.rd1Free := rfl
@[simp] theorem Core.updAcc_wrFree (x : Core) (i : Nat) (f : Acc → Acc) : (x.updAcc i f).wrFree = x.wrFree := rfl
@[simp] theorem Core.updAcc_fetched (x : Core) (i : Nat) (f : Acc → Acc) : (x.updAcc i f).fetched = x.fetched := rfl
@[simp] theorem Core.updAcc_ustore (x : Core) (i : Nat) (f : Acc → Acc) : (x.updAcc i f).ustore = x.ustore := rfl
@[simp] theorem Core.updAcc_micro (x : Core) (i : Nat) (f : Acc → Acc) : (x.updAcc i f).micro = x.micro := rfl
@[simp] theorem Core.updAcc_cycAcc (x : Core) (i : Nat) (f : Acc → Acc) : (x.updAcc i f).cycAcc = x.cycAcc := rfl
@[simp] theorem Core.updAcc_cycFrom (x : Core) (i : Nat) (f : Acc → Acc) : (x.updAcc i f).cycFrom = x.cycFrom := rfl
@[simp] theorem Core.updAcc_tileOwn (x : Core) (i : Nat) (f : Acc → Acc) : (x.updAcc i f).tileOwn = x.tileOwn := rfl
@[simp] theorem Core.updAcc_queueOwn (x : Core) (i : Nat) (f : Acc → Acc) : (x.updAcc i f).queueOwn = x.queueOwn := rfl
@[simp] theorem Core.updAcc_slotOwn (x : Core) (i : Nat) (f : Acc → Acc) : (x.updAcc i f).slotOwn = x.slotOwn := rfl
@[simp] theorem Core.updAcc_samplesQ (x : Core) (i : Nat) (f : Acc → Acc) : (x.updAcc i f).samplesQ = x.samplesQ := rfl
@[simp] theorem Ctx.setReg_pc (x : Ctx) (n : Nat) (v : Word) : (x.setReg n v).pc = x.pc := rfl
@[simp] theorem Ctx.setReg_st (x : Ctx) (n : Nat) (v : Word) : (x.setReg n v).st = x.st := rfl
@[simp] theorem Ctx.setReg_lvl (x : Ctx) (n : Nat) (v : Word) : (x.setReg n v).lvl = x.lvl := rfl
@[simp] theorem Ctx.setReg_ops (x : Ctx) (n : Nat) (v : Word) : (x.setReg n v).ops = x.ops := rfl
@[simp] theorem Ctx.setReg_rets (x : Ctx) (n : Nat) (v : Word) : (x.setReg n v).rets = x.rets := rfl
@[simp] theorem Ctx.setReg_ldepth (x : Ctx) (n : Nat) (v : Word) : (x.setReg n v).ldepth = x.ldepth := rfl
@[simp] theorem Ctx.setReg_lastEnd (x : Ctx) (n : Nat) (v : Word) : (x.setReg n v).lastEnd = x.lastEnd := rfl
@[simp] theorem Ctx.setReg_muls (x : Ctx) (n : Nat) (v : Word) : (x.setReg n v).muls = x.muls := rfl
@[simp] theorem Ctx.setReg_resv (x : Ctx) (n : Nat) (v : Word) : (x.setReg n v).resv = x.resv := rfl
@[simp] theorem Ctx.setReg_hold (x : Ctx) (n : Nat) (v : Word) : (x.setReg n v).hold = x.hold := rfl
@[simp] theorem Ctx.setReg_holdLen (x : Ctx) (n : Nat) (v : Word) : (x.setReg n v).holdLen = x.holdLen := rfl
@[simp] theorem Ctx.setReg_spinFrom (x : Ctx) (n : Nat) (v : Word) : (x.setReg n v).spinFrom = x.spinFrom := rfl
@[simp] theorem Ctx.setReg_inject (x : Ctx) (n : Nat) (v : Word) : (x.setReg n v).inject = x.inject := rfl
@[simp] theorem Ctx.setReg_suspReq (x : Ctx) (n : Nat) (v : Word) : (x.setReg n v).suspReq = x.suspReq := rfl
@[simp] theorem Ctx.setReg_wait (x : Ctx) (n : Nat) (v : Word) : (x.setReg n v).wait = x.wait := rfl
@[simp] theorem Ctx.setReg_heldPops (x : Ctx) (n : Nat) (v : Word) : (x.setReg n v).heldPops = x.heldPops := rfl
@[simp] theorem Ctx.setReg_heldLen (x : Ctx) (n : Nat) (v : Word) : (x.setReg n v).heldLen = x.heldLen := rfl
@[simp] theorem Ctx.setReg_cycHi (x : Ctx) (n : Nat) (v : Word) : (x.setReg n v).cycHi = x.cycHi := rfl
@[simp] theorem Ctx.setReg_stage0 (x : Ctx) (n : Nat) (v : Word) : (x.setReg n v).stage0 = x.stage0 := rfl
@[simp] theorem Ctx.setReg_stage1 (x : Ctx) (n : Nat) (v : Word) : (x.setReg n v).stage1 = x.stage1 := rfl
@[simp] theorem Ctx.setReg_samples (x : Ctx) (n : Nat) (v : Word) : (x.setReg n v).samples = x.samples := rfl
@[simp] theorem Bench.setR_act (x : Bench) (o : Nat) (v : Dword) : (x.setR o v).act = x.act := rfl
@[simp] theorem Bench.setR_pattern (x : Bench) (o : Nat) (v : Dword) : (x.setR o v).pattern = x.pattern := rfl
@[simp] theorem Bench.setR_conns (x : Bench) (o : Nat) (v : Dword) : (x.setR o v).conns = x.conns := rfl
@[simp] theorem Bench.setR_connOwn (x : Bench) (o : Nat) (v : Dword) : (x.setR o v).connOwn = x.connOwn := rfl
@[simp] theorem Bench.setR_oq (x : Bench) (o : Nat) (v : Dword) : (x.setR o v).oq = x.oq := rfl
@[simp] theorem Bench.setR_tallies (x : Bench) (o : Nat) (v : Dword) : (x.setR o v).tallies = x.tallies := rfl
@[simp] theorem Bench.setR_watches (x : Bench) (o : Nat) (v : Dword) : (x.setR o v).watches = x.watches := rfl
@[simp] theorem Bench.setR_tallyIn (x : Bench) (o : Nat) (v : Dword) : (x.setR o v).tallyIn = x.tallyIn := rfl
@[simp] theorem Bench.setR_deferred (x : Bench) (o : Nat) (v : Dword) : (x.setR o v).deferred = x.deferred := rfl
@[simp] theorem Bench.setR_inbox (x : Bench) (o : Nat) (v : Dword) : (x.setR o v).inbox = x.inbox := rfl
@[simp] theorem Bench.setR_queues (x : Bench) (o : Nat) (v : Dword) : (x.setR o v).queues = x.queues := rfl
@[simp] theorem Bench.setR_chans (x : Bench) (o : Nat) (v : Dword) : (x.setR o v).chans = x.chans := rfl
@[simp] theorem Bench.setR_slots (x : Bench) (o : Nat) (v : Dword) : (x.setR o v).slots = x.slots := rfl
@[simp] theorem Bench.setR_sync (x : Bench) (o : Nat) (v : Dword) : (x.setR o v).sync = x.sync := rfl
@[simp] theorem Bench.setR_lines (x : Bench) (o : Nat) (v : Dword) : (x.setR o v).lines = x.lines := rfl
@[simp] theorem Bench.setR_rr (x : Bench) (o : Nat) (v : Dword) : (x.setR o v).rr = x.rr := rfl
@[simp] theorem Bench.setR_fills (x : Bench) (o : Nat) (v : Dword) : (x.setR o v).fills = x.fills := rfl
@[simp] theorem Bench.setR_mb (x : Bench) (o : Nat) (v : Dword) : (x.setR o v).mb = x.mb := rfl
@[simp] theorem Bench.setR_uitems (x : Bench) (o : Nat) (v : Dword) : (x.setR o v).uitems = x.uitems := rfl
@[simp] theorem Bench.setR_rng (x : Bench) (o : Nat) (v : Dword) : (x.setR o v).rng = x.rng := rfl
@[simp] theorem Bench.setR_rngDone (x : Bench) (o : Nat) (v : Dword) : (x.setR o v).rngDone = x.rngDone := rfl
@[simp] theorem Bench.setR_awins (x : Bench) (o : Nat) (v : Dword) : (x.setR o v).awins = x.awins := rfl
@[simp] theorem Bench.setR_pathAsk (x : Bench) (o : Nat) (v : Dword) : (x.setR o v).pathAsk = x.pathAsk := rfl
@[simp] theorem Bench.setR_trace (x : Bench) (o : Nat) (v : Dword) : (x.setR o v).trace = x.trace := rfl
@[simp] theorem Bench.setR_traceLost (x : Bench) (o : Nat) (v : Dword) : (x.setR o v).traceLost = x.traceLost := rfl
@[simp] theorem Bench.updTally_reg (x : Bench) (i : Nat) (f : Tally → Tally) : (x.updTally i f).reg = x.reg := rfl
@[simp] theorem Bench.updTally_act (x : Bench) (i : Nat) (f : Tally → Tally) : (x.updTally i f).act = x.act := rfl
@[simp] theorem Bench.updTally_pattern (x : Bench) (i : Nat) (f : Tally → Tally) : (x.updTally i f).pattern = x.pattern := rfl
@[simp] theorem Bench.updTally_conns (x : Bench) (i : Nat) (f : Tally → Tally) : (x.updTally i f).conns = x.conns := rfl
@[simp] theorem Bench.updTally_connOwn (x : Bench) (i : Nat) (f : Tally → Tally) : (x.updTally i f).connOwn = x.connOwn := rfl
@[simp] theorem Bench.updTally_oq (x : Bench) (i : Nat) (f : Tally → Tally) : (x.updTally i f).oq = x.oq := rfl
@[simp] theorem Bench.updTally_watches (x : Bench) (i : Nat) (f : Tally → Tally) : (x.updTally i f).watches = x.watches := rfl
@[simp] theorem Bench.updTally_tallyIn (x : Bench) (i : Nat) (f : Tally → Tally) : (x.updTally i f).tallyIn = x.tallyIn := rfl
@[simp] theorem Bench.updTally_deferred (x : Bench) (i : Nat) (f : Tally → Tally) : (x.updTally i f).deferred = x.deferred := rfl
@[simp] theorem Bench.updTally_inbox (x : Bench) (i : Nat) (f : Tally → Tally) : (x.updTally i f).inbox = x.inbox := rfl
@[simp] theorem Bench.updTally_queues (x : Bench) (i : Nat) (f : Tally → Tally) : (x.updTally i f).queues = x.queues := rfl
@[simp] theorem Bench.updTally_chans (x : Bench) (i : Nat) (f : Tally → Tally) : (x.updTally i f).chans = x.chans := rfl
@[simp] theorem Bench.updTally_slots (x : Bench) (i : Nat) (f : Tally → Tally) : (x.updTally i f).slots = x.slots := rfl
@[simp] theorem Bench.updTally_sync (x : Bench) (i : Nat) (f : Tally → Tally) : (x.updTally i f).sync = x.sync := rfl
@[simp] theorem Bench.updTally_lines (x : Bench) (i : Nat) (f : Tally → Tally) : (x.updTally i f).lines = x.lines := rfl
@[simp] theorem Bench.updTally_rr (x : Bench) (i : Nat) (f : Tally → Tally) : (x.updTally i f).rr = x.rr := rfl
@[simp] theorem Bench.updTally_fills (x : Bench) (i : Nat) (f : Tally → Tally) : (x.updTally i f).fills = x.fills := rfl
@[simp] theorem Bench.updTally_mb (x : Bench) (i : Nat) (f : Tally → Tally) : (x.updTally i f).mb = x.mb := rfl
@[simp] theorem Bench.updTally_uitems (x : Bench) (i : Nat) (f : Tally → Tally) : (x.updTally i f).uitems = x.uitems := rfl
@[simp] theorem Bench.updTally_rng (x : Bench) (i : Nat) (f : Tally → Tally) : (x.updTally i f).rng = x.rng := rfl
@[simp] theorem Bench.updTally_rngDone (x : Bench) (i : Nat) (f : Tally → Tally) : (x.updTally i f).rngDone = x.rngDone := rfl
@[simp] theorem Bench.updTally_awins (x : Bench) (i : Nat) (f : Tally → Tally) : (x.updTally i f).awins = x.awins := rfl
@[simp] theorem Bench.updTally_pathAsk (x : Bench) (i : Nat) (f : Tally → Tally) : (x.updTally i f).pathAsk = x.pathAsk := rfl
@[simp] theorem Bench.updTally_trace (x : Bench) (i : Nat) (f : Tally → Tally) : (x.updTally i f).trace = x.trace := rfl
@[simp] theorem Bench.updTally_traceLost (x : Bench) (i : Nat) (f : Tally → Tally) : (x.updTally i f).traceLost = x.traceLost := rfl
@[simp] theorem Bench.updQueue_reg (x : Bench) (i : Nat) (f : Queue → Queue) : (x.updQueue i f).reg = x.reg := rfl
@[simp] theorem Bench.updQueue_act (x : Bench) (i : Nat) (f : Queue → Queue) : (x.updQueue i f).act = x.act := rfl
@[simp] theorem Bench.updQueue_pattern (x : Bench) (i : Nat) (f : Queue → Queue) : (x.updQueue i f).pattern = x.pattern := rfl
@[simp] theorem Bench.updQueue_conns (x : Bench) (i : Nat) (f : Queue → Queue) : (x.updQueue i f).conns = x.conns := rfl
@[simp] theorem Bench.updQueue_connOwn (x : Bench) (i : Nat) (f : Queue → Queue) : (x.updQueue i f).connOwn = x.connOwn := rfl
@[simp] theorem Bench.updQueue_oq (x : Bench) (i : Nat) (f : Queue → Queue) : (x.updQueue i f).oq = x.oq := rfl
@[simp] theorem Bench.updQueue_tallies (x : Bench) (i : Nat) (f : Queue → Queue) : (x.updQueue i f).tallies = x.tallies := rfl
@[simp] theorem Bench.updQueue_watches (x : Bench) (i : Nat) (f : Queue → Queue) : (x.updQueue i f).watches = x.watches := rfl
@[simp] theorem Bench.updQueue_tallyIn (x : Bench) (i : Nat) (f : Queue → Queue) : (x.updQueue i f).tallyIn = x.tallyIn := rfl
@[simp] theorem Bench.updQueue_deferred (x : Bench) (i : Nat) (f : Queue → Queue) : (x.updQueue i f).deferred = x.deferred := rfl
@[simp] theorem Bench.updQueue_inbox (x : Bench) (i : Nat) (f : Queue → Queue) : (x.updQueue i f).inbox = x.inbox := rfl
@[simp] theorem Bench.updQueue_chans (x : Bench) (i : Nat) (f : Queue → Queue) : (x.updQueue i f).chans = x.chans := rfl
@[simp] theorem Bench.updQueue_slots (x : Bench) (i : Nat) (f : Queue → Queue) : (x.updQueue i f).slots = x.slots := rfl
@[simp] theorem Bench.updQueue_sync (x : Bench) (i : Nat) (f : Queue → Queue) : (x.updQueue i f).sync = x.sync := rfl
@[simp] theorem Bench.updQueue_lines (x : Bench) (i : Nat) (f : Queue → Queue) : (x.updQueue i f).lines = x.lines := rfl
@[simp] theorem Bench.updQueue_rr (x : Bench) (i : Nat) (f : Queue → Queue) : (x.updQueue i f).rr = x.rr := rfl
@[simp] theorem Bench.updQueue_fills (x : Bench) (i : Nat) (f : Queue → Queue) : (x.updQueue i f).fills = x.fills := rfl
@[simp] theorem Bench.updQueue_mb (x : Bench) (i : Nat) (f : Queue → Queue) : (x.updQueue i f).mb = x.mb := rfl
@[simp] theorem Bench.updQueue_uitems (x : Bench) (i : Nat) (f : Queue → Queue) : (x.updQueue i f).uitems = x.uitems := rfl
@[simp] theorem Bench.updQueue_rng (x : Bench) (i : Nat) (f : Queue → Queue) : (x.updQueue i f).rng = x.rng := rfl
@[simp] theorem Bench.updQueue_rngDone (x : Bench) (i : Nat) (f : Queue → Queue) : (x.updQueue i f).rngDone = x.rngDone := rfl
@[simp] theorem Bench.updQueue_awins (x : Bench) (i : Nat) (f : Queue → Queue) : (x.updQueue i f).awins = x.awins := rfl
@[simp] theorem Bench.updQueue_pathAsk (x : Bench) (i : Nat) (f : Queue → Queue) : (x.updQueue i f).pathAsk = x.pathAsk := rfl
@[simp] theorem Bench.updQueue_trace (x : Bench) (i : Nat) (f : Queue → Queue) : (x.updQueue i f).trace = x.trace := rfl
@[simp] theorem Bench.updQueue_traceLost (x : Bench) (i : Nat) (f : Queue → Queue) : (x.updQueue i f).traceLost = x.traceLost := rfl
@[simp] theorem Bench.updChan_reg (x : Bench) (i : Nat) (f : Chan → Chan) : (x.updChan i f).reg = x.reg := rfl
@[simp] theorem Bench.updChan_act (x : Bench) (i : Nat) (f : Chan → Chan) : (x.updChan i f).act = x.act := rfl
@[simp] theorem Bench.updChan_pattern (x : Bench) (i : Nat) (f : Chan → Chan) : (x.updChan i f).pattern = x.pattern := rfl
@[simp] theorem Bench.updChan_conns (x : Bench) (i : Nat) (f : Chan → Chan) : (x.updChan i f).conns = x.conns := rfl
@[simp] theorem Bench.updChan_connOwn (x : Bench) (i : Nat) (f : Chan → Chan) : (x.updChan i f).connOwn = x.connOwn := rfl
@[simp] theorem Bench.updChan_oq (x : Bench) (i : Nat) (f : Chan → Chan) : (x.updChan i f).oq = x.oq := rfl
@[simp] theorem Bench.updChan_tallies (x : Bench) (i : Nat) (f : Chan → Chan) : (x.updChan i f).tallies = x.tallies := rfl
@[simp] theorem Bench.updChan_watches (x : Bench) (i : Nat) (f : Chan → Chan) : (x.updChan i f).watches = x.watches := rfl
@[simp] theorem Bench.updChan_tallyIn (x : Bench) (i : Nat) (f : Chan → Chan) : (x.updChan i f).tallyIn = x.tallyIn := rfl
@[simp] theorem Bench.updChan_deferred (x : Bench) (i : Nat) (f : Chan → Chan) : (x.updChan i f).deferred = x.deferred := rfl
@[simp] theorem Bench.updChan_inbox (x : Bench) (i : Nat) (f : Chan → Chan) : (x.updChan i f).inbox = x.inbox := rfl
@[simp] theorem Bench.updChan_queues (x : Bench) (i : Nat) (f : Chan → Chan) : (x.updChan i f).queues = x.queues := rfl
@[simp] theorem Bench.updChan_slots (x : Bench) (i : Nat) (f : Chan → Chan) : (x.updChan i f).slots = x.slots := rfl
@[simp] theorem Bench.updChan_sync (x : Bench) (i : Nat) (f : Chan → Chan) : (x.updChan i f).sync = x.sync := rfl
@[simp] theorem Bench.updChan_lines (x : Bench) (i : Nat) (f : Chan → Chan) : (x.updChan i f).lines = x.lines := rfl
@[simp] theorem Bench.updChan_rr (x : Bench) (i : Nat) (f : Chan → Chan) : (x.updChan i f).rr = x.rr := rfl
@[simp] theorem Bench.updChan_fills (x : Bench) (i : Nat) (f : Chan → Chan) : (x.updChan i f).fills = x.fills := rfl
@[simp] theorem Bench.updChan_mb (x : Bench) (i : Nat) (f : Chan → Chan) : (x.updChan i f).mb = x.mb := rfl
@[simp] theorem Bench.updChan_uitems (x : Bench) (i : Nat) (f : Chan → Chan) : (x.updChan i f).uitems = x.uitems := rfl
@[simp] theorem Bench.updChan_rng (x : Bench) (i : Nat) (f : Chan → Chan) : (x.updChan i f).rng = x.rng := rfl
@[simp] theorem Bench.updChan_rngDone (x : Bench) (i : Nat) (f : Chan → Chan) : (x.updChan i f).rngDone = x.rngDone := rfl
@[simp] theorem Bench.updChan_awins (x : Bench) (i : Nat) (f : Chan → Chan) : (x.updChan i f).awins = x.awins := rfl
@[simp] theorem Bench.updChan_pathAsk (x : Bench) (i : Nat) (f : Chan → Chan) : (x.updChan i f).pathAsk = x.pathAsk := rfl
@[simp] theorem Bench.updChan_trace (x : Bench) (i : Nat) (f : Chan → Chan) : (x.updChan i f).trace = x.trace := rfl
@[simp] theorem Bench.updChan_traceLost (x : Bench) (i : Nat) (f : Chan → Chan) : (x.updChan i f).traceLost = x.traceLost := rfl
@[simp] theorem Bench.updSlot_reg (x : Bench) (i : Nat) (f : Slot → Slot) : (x.updSlot i f).reg = x.reg := rfl
@[simp] theorem Bench.updSlot_act (x : Bench) (i : Nat) (f : Slot → Slot) : (x.updSlot i f).act = x.act := rfl
@[simp] theorem Bench.updSlot_pattern (x : Bench) (i : Nat) (f : Slot → Slot) : (x.updSlot i f).pattern = x.pattern := rfl
@[simp] theorem Bench.updSlot_conns (x : Bench) (i : Nat) (f : Slot → Slot) : (x.updSlot i f).conns = x.conns := rfl
@[simp] theorem Bench.updSlot_connOwn (x : Bench) (i : Nat) (f : Slot → Slot) : (x.updSlot i f).connOwn = x.connOwn := rfl
@[simp] theorem Bench.updSlot_oq (x : Bench) (i : Nat) (f : Slot → Slot) : (x.updSlot i f).oq = x.oq := rfl
@[simp] theorem Bench.updSlot_tallies (x : Bench) (i : Nat) (f : Slot → Slot) : (x.updSlot i f).tallies = x.tallies := rfl
@[simp] theorem Bench.updSlot_watches (x : Bench) (i : Nat) (f : Slot → Slot) : (x.updSlot i f).watches = x.watches := rfl
@[simp] theorem Bench.updSlot_tallyIn (x : Bench) (i : Nat) (f : Slot → Slot) : (x.updSlot i f).tallyIn = x.tallyIn := rfl
@[simp] theorem Bench.updSlot_deferred (x : Bench) (i : Nat) (f : Slot → Slot) : (x.updSlot i f).deferred = x.deferred := rfl
@[simp] theorem Bench.updSlot_inbox (x : Bench) (i : Nat) (f : Slot → Slot) : (x.updSlot i f).inbox = x.inbox := rfl
@[simp] theorem Bench.updSlot_queues (x : Bench) (i : Nat) (f : Slot → Slot) : (x.updSlot i f).queues = x.queues := rfl
@[simp] theorem Bench.updSlot_chans (x : Bench) (i : Nat) (f : Slot → Slot) : (x.updSlot i f).chans = x.chans := rfl
@[simp] theorem Bench.updSlot_sync (x : Bench) (i : Nat) (f : Slot → Slot) : (x.updSlot i f).sync = x.sync := rfl
@[simp] theorem Bench.updSlot_lines (x : Bench) (i : Nat) (f : Slot → Slot) : (x.updSlot i f).lines = x.lines := rfl
@[simp] theorem Bench.updSlot_rr (x : Bench) (i : Nat) (f : Slot → Slot) : (x.updSlot i f).rr = x.rr := rfl
@[simp] theorem Bench.updSlot_fills (x : Bench) (i : Nat) (f : Slot → Slot) : (x.updSlot i f).fills = x.fills := rfl
@[simp] theorem Bench.updSlot_mb (x : Bench) (i : Nat) (f : Slot → Slot) : (x.updSlot i f).mb = x.mb := rfl
@[simp] theorem Bench.updSlot_uitems (x : Bench) (i : Nat) (f : Slot → Slot) : (x.updSlot i f).uitems = x.uitems := rfl
@[simp] theorem Bench.updSlot_rng (x : Bench) (i : Nat) (f : Slot → Slot) : (x.updSlot i f).rng = x.rng := rfl
@[simp] theorem Bench.updSlot_rngDone (x : Bench) (i : Nat) (f : Slot → Slot) : (x.updSlot i f).rngDone = x.rngDone := rfl
@[simp] theorem Bench.updSlot_awins (x : Bench) (i : Nat) (f : Slot → Slot) : (x.updSlot i f).awins = x.awins := rfl
@[simp] theorem Bench.updSlot_pathAsk (x : Bench) (i : Nat) (f : Slot → Slot) : (x.updSlot i f).pathAsk = x.pathAsk := rfl
@[simp] theorem Bench.updSlot_trace (x : Bench) (i : Nat) (f : Slot → Slot) : (x.updSlot i f).trace = x.trace := rfl
@[simp] theorem Bench.updSlot_traceLost (x : Bench) (i : Nat) (f : Slot → Slot) : (x.updSlot i f).traceLost = x.traceLost := rfl
@[simp] theorem Bench.updRing_reg (x : Bench) (i : Nat) (f : SyncRing → SyncRing) : (x.updRing i f).reg = x.reg := rfl
@[simp] theorem Bench.updRing_act (x : Bench) (i : Nat) (f : SyncRing → SyncRing) : (x.updRing i f).act = x.act := rfl
@[simp] theorem Bench.updRing_pattern (x : Bench) (i : Nat) (f : SyncRing → SyncRing) : (x.updRing i f).pattern = x.pattern := rfl
@[simp] theorem Bench.updRing_conns (x : Bench) (i : Nat) (f : SyncRing → SyncRing) : (x.updRing i f).conns = x.conns := rfl
@[simp] theorem Bench.updRing_connOwn (x : Bench) (i : Nat) (f : SyncRing → SyncRing) : (x.updRing i f).connOwn = x.connOwn := rfl
@[simp] theorem Bench.updRing_oq (x : Bench) (i : Nat) (f : SyncRing → SyncRing) : (x.updRing i f).oq = x.oq := rfl
@[simp] theorem Bench.updRing_tallies (x : Bench) (i : Nat) (f : SyncRing → SyncRing) : (x.updRing i f).tallies = x.tallies := rfl
@[simp] theorem Bench.updRing_watches (x : Bench) (i : Nat) (f : SyncRing → SyncRing) : (x.updRing i f).watches = x.watches := rfl
@[simp] theorem Bench.updRing_tallyIn (x : Bench) (i : Nat) (f : SyncRing → SyncRing) : (x.updRing i f).tallyIn = x.tallyIn := rfl
@[simp] theorem Bench.updRing_deferred (x : Bench) (i : Nat) (f : SyncRing → SyncRing) : (x.updRing i f).deferred = x.deferred := rfl
@[simp] theorem Bench.updRing_inbox (x : Bench) (i : Nat) (f : SyncRing → SyncRing) : (x.updRing i f).inbox = x.inbox := rfl
@[simp] theorem Bench.updRing_queues (x : Bench) (i : Nat) (f : SyncRing → SyncRing) : (x.updRing i f).queues = x.queues := rfl
@[simp] theorem Bench.updRing_chans (x : Bench) (i : Nat) (f : SyncRing → SyncRing) : (x.updRing i f).chans = x.chans := rfl
@[simp] theorem Bench.updRing_slots (x : Bench) (i : Nat) (f : SyncRing → SyncRing) : (x.updRing i f).slots = x.slots := rfl
@[simp] theorem Bench.updRing_lines (x : Bench) (i : Nat) (f : SyncRing → SyncRing) : (x.updRing i f).lines = x.lines := rfl
@[simp] theorem Bench.updRing_rr (x : Bench) (i : Nat) (f : SyncRing → SyncRing) : (x.updRing i f).rr = x.rr := rfl
@[simp] theorem Bench.updRing_fills (x : Bench) (i : Nat) (f : SyncRing → SyncRing) : (x.updRing i f).fills = x.fills := rfl
@[simp] theorem Bench.updRing_mb (x : Bench) (i : Nat) (f : SyncRing → SyncRing) : (x.updRing i f).mb = x.mb := rfl
@[simp] theorem Bench.updRing_uitems (x : Bench) (i : Nat) (f : SyncRing → SyncRing) : (x.updRing i f).uitems = x.uitems := rfl
@[simp] theorem Bench.updRing_rng (x : Bench) (i : Nat) (f : SyncRing → SyncRing) : (x.updRing i f).rng = x.rng := rfl
@[simp] theorem Bench.updRing_rngDone (x : Bench) (i : Nat) (f : SyncRing → SyncRing) : (x.updRing i f).rngDone = x.rngDone := rfl
@[simp] theorem Bench.updRing_awins (x : Bench) (i : Nat) (f : SyncRing → SyncRing) : (x.updRing i f).awins = x.awins := rfl
@[simp] theorem Bench.updRing_pathAsk (x : Bench) (i : Nat) (f : SyncRing → SyncRing) : (x.updRing i f).pathAsk = x.pathAsk := rfl
@[simp] theorem Bench.updRing_trace (x : Bench) (i : Nat) (f : SyncRing → SyncRing) : (x.updRing i f).trace = x.trace := rfl
@[simp] theorem Bench.updRing_traceLost (x : Bench) (i : Nat) (f : SyncRing → SyncRing) : (x.updRing i f).traceLost = x.traceLost := rfl
@[simp] theorem Port.setR_actBytes (x : Port) (o : Nat) (v : Dword) : (x.setR o v).actBytes = x.actBytes := rfl
@[simp] theorem Port.setR_accs (x : Port) (o : Nat) (v : Dword) : (x.setR o v).accs = x.accs := rfl
@[simp] theorem Port.setR_wins (x : Port) (o : Nat) (v : Dword) : (x.setR o v).wins = x.wins := rfl
@[simp] theorem Port.setR_replies (x : Port) (o : Nat) (v : Dword) : (x.setR o v).replies = x.replies := rfl
@[simp] theorem Port.setR_recent (x : Port) (o : Nat) (v : Dword) : (x.setR o v).recent = x.recent := rfl
@[simp] theorem Port.setR_nextAcc (x : Port) (o : Nat) (v : Dword) : (x.setR o v).nextAcc = x.nextAcc := rfl
@[simp] theorem Welt.setR_tx (x : Welt) (o : Nat) (v : Dword) : (x.setR o v).tx = x.tx := rfl
@[simp] theorem Welt.setR_asks (x : Welt) (o : Nat) (v : Dword) : (x.setR o v).asks = x.asks := rfl
@[simp] theorem Welt.setR_rx (x : Welt) (o : Nat) (v : Dword) : (x.setR o v).rx = x.rx := rfl
@[simp] theorem Welt.setR_rxUsed (x : Welt) (o : Nat) (v : Dword) : (x.setR o v).rxUsed = x.rxUsed := rfl
@[simp] theorem Welt.setR_out (x : Welt) (o : Nat) (v : Dword) : (x.setR o v).out = x.out := rfl
@[simp] theorem Part.updProg_live (x : Part) (i : Nat) (f : Program → Program) : (x.updProg i f).live = x.live := rfl
@[simp] theorem Part.updProg_x0 (x : Part) (i : Nat) (f : Program → Program) : (x.updProg i f).x0 = x.x0 := rfl
@[simp] theorem Part.updProg_y0 (x : Part) (i : Nat) (f : Program → Program) : (x.updProg i f).y0 = x.y0 := rfl
@[simp] theorem Part.updProg_w (x : Part) (i : Nat) (f : Program → Program) : (x.updProg i f).w = x.w := rfl
@[simp] theorem Part.updProg_h (x : Part) (i : Nat) (f : Program → Program) : (x.updProg i f).h = x.h := rfl
@[simp] theorem Part.updProg_lockSig (x : Part) (i : Nat) (f : Program → Program) : (x.updProg i f).lockSig = x.lockSig := rfl
@[simp] theorem Part.updProg_sigReq (x : Part) (i : Nat) (f : Program → Program) : (x.updProg i f).sigReq = x.sigReq := rfl
@[simp] theorem Part.updProg_vf (x : Part) (i : Nat) (f : Program → Program) : (x.updProg i f).vf = x.vf := rfl
@[simp] theorem Part.updProg_cxlWr (x : Part) (i : Nat) (f : Program → Program) : (x.updProg i f).cxlWr = x.cxlWr := rfl
@[simp] theorem Part.updProg_cxlBase (x : Part) (i : Nat) (f : Program → Program) : (x.updProg i f).cxlBase = x.cxlBase := rfl
@[simp] theorem Part.updProg_cxlSize (x : Part) (i : Nat) (f : Program → Program) : (x.updProg i f).cxlSize = x.cxlSize := rfl
@[simp] theorem Part.updProg_plog (x : Part) (i : Nat) (f : Program → Program) : (x.updProg i f).plog = x.plog := rfl
@[simp] theorem Part.updProg_idx (x : Part) (i : Nat) (f : Program → Program) : (x.updProg i f).idx = x.idx := rfl
@[simp] theorem Part.updProg_frame (x : Part) (i : Nat) (f : Program → Program) : (x.updProg i f).frame = x.frame := rfl
@[simp] theorem Part.updProg_cur (x : Part) (i : Nat) (f : Program → Program) : (x.updProg i f).cur = x.cur := rfl
@[simp] theorem Part.updProg_turn (x : Part) (i : Nat) (f : Program → Program) : (x.updProg i f).turn = x.turn := rfl
@[simp] theorem Part.updProg_discard (x : Part) (i : Nat) (f : Program → Program) : (x.updProg i f).discard = x.discard := rfl
@[simp] theorem Part.updProg_first (x : Part) (i : Nat) (f : Program → Program) : (x.updProg i f).first = x.first := rfl
@[simp] theorem Part.updProg_begun (x : Part) (i : Nat) (f : Program → Program) : (x.updProg i f).begun = x.begun := rfl
@[simp] theorem Part.updProg_fn (x : Part) (i : Nat) (f : Program → Program) : (x.updProg i f).fn = x.fn := rfl
@[simp] theorem Part.updProg_epoch (x : Part) (i : Nat) (f : Program → Program) : (x.updProg i f).epoch = x.epoch := rfl
@[simp] theorem Part.updProg_started (x : Part) (i : Nat) (f : Program → Program) : (x.updProg i f).started = x.started := rfl
@[simp] theorem Part.updProg_ramp (x : Part) (i : Nat) (f : Program → Program) : (x.updProg i f).ramp = x.ramp := rfl
@[simp] theorem Part.updProg_rampEnd (x : Part) (i : Nat) (f : Program → Program) : (x.updProg i f).rampEnd = x.rampEnd := rfl
@[simp] theorem Part.updProg_rampRate (x : Part) (i : Nat) (f : Program → Program) : (x.updProg i f).rampRate = x.rampRate := rfl
@[simp] theorem Part.updProg_syncWait (x : Part) (i : Nat) (f : Program → Program) : (x.updProg i f).syncWait = x.syncWait := rfl
@[simp] theorem Part.updProg_synced (x : Part) (i : Nat) (f : Program → Program) : (x.updProg i f).synced = x.synced := rfl
@[simp] theorem Part.updProg_marked (x : Part) (i : Nat) (f : Program → Program) : (x.updProg i f).marked = x.marked := rfl
@[simp] theorem Part.updProg_faultReset (x : Part) (i : Nat) (f : Program → Program) : (x.updProg i f).faultReset = x.faultReset := rfl
@[simp] theorem Part.updProg_resetting (x : Part) (i : Nat) (f : Program → Program) : (x.updProg i f).resetting = x.resetting := rfl
@[simp] theorem Part.updProg_energy (x : Part) (i : Nat) (f : Program → Program) : (x.updProg i f).energy = x.energy := rfl
@[simp] theorem Part.updProg_frameAt (x : Part) (i : Nat) (f : Program → Program) : (x.updProg i f).frameAt = x.frameAt := rfl

@[simp] theorem Core.updCtx_reg (k : Core) (i n : Nat) (f : Ctx → Ctx) : (k.updCtx i f).reg n = k.reg n := rfl
@[simp] theorem Core.setReg_ctx (k : Core) (i n : Nat) (v : Word) : (k.setReg n v).ctx i = k.ctx i := rfl
@[simp] theorem Core.setReg_reg (k : Core) (n : Nat) (v : Word) : (k.setReg n v).reg n = v := tblGet_tblSet_same ..
theorem Core.setReg_get (k : Core) (n j : Nat) (v : Word) : (k.setReg n v).reg j = if n = j then v else k.reg j := tblGet_tblSet ..
@[simp] theorem Ctx.setReg_reg (x : Ctx) (n : Nat) (v : Word) : (x.setReg n v).reg n = v := tblGet_tblSet_same ..
theorem Ctx.setReg_get (x : Ctx) (n j : Nat) (v : Word) : (x.setReg n v).reg j = if n = j then v else x.reg j := tblGet_tblSet ..
@[simp] theorem Bench.setR_r (x : Bench) (o : Nat) (v : Dword) : (x.setR o v).r o = v := tblGet_tblSet_same ..
theorem Bench.setR_get (x : Bench) (o j : Nat) (v : Dword) : (x.setR o v).r j = if o = j then v else x.r j := tblGet_tblSet ..
@[simp] theorem Welt.setR_r (x : Welt) (o : Nat) (v : Dword) : (x.setR o v).r o = v := tblGet_tblSet_same ..
@[simp] theorem Port.setR_r (x : Port) (o : Nat) (v : Dword) : (x.setR o v).r o = v := tblGet_tblSet_same ..
@[simp] theorem Core.updTile_tile (k : Core) (i : Nat) (f : Tile → Tile) : (k.updTile i f).tile i = f (k.tile i) := tblGet_tblUpd_same ..
@[simp] theorem Core.updAcc_acc (k : Core) (i : Nat) (f : Acc → Acc) : (k.updAcc i f).acc i = f (k.acc i) := tblGet_tblUpd_same ..
@[simp] theorem Bench.updTally_tally (x : Bench) (i : Nat) (f : Tally → Tally) : (x.updTally i f).tally i = f (x.tally i) := tblGet_tblUpd_same ..
@[simp] theorem Bench.updQueue_queue (x : Bench) (i : Nat) (f : Queue → Queue) : (x.updQueue i f).queue i = f (x.queue i) := tblGet_tblUpd_same ..
@[simp] theorem Bench.updChan_chan (x : Bench) (i : Nat) (f : Chan → Chan) : (x.updChan i f).chan i = f (x.chan i) := tblGet_tblUpd_same ..
@[simp] theorem Bench.updSlot_slot (x : Bench) (i : Nat) (f : Slot → Slot) : (x.updSlot i f).slot i = f (x.slot i) := tblGet_tblUpd_same ..
@[simp] theorem Part.updProg_prog (x : Part) (i : Nat) (f : Program → Program) : (x.updProg i f).prog i = f (x.prog i) := tblGet_tblUpd_same ..

end Sys2Proof.Laws
end

