-- ==== Sys2Proof/Laws/Issue.lean ====
section
/-! SUPPORT. What issuing an instruction does, once: an instruction that meets no fault of issue is its body on the operands
(`issue_runs`), and what its first issue leaves alone. -/

namespace Sys2Proof.Laws
open Sys2Proof Sys2Proof.Machine

/-- An instruction that meets none of the faults of issue runs its body on its operands and completes, is held, or faults as the
body says. -/
theorem issue_runs {t : Thread} {op len : Nat} {second : Option Byte} {sh : Shape} {guard : State → Option (Nat × Word)}
    {body : State → List Word → List Word → Out} {s : State} (h : Runs t len sh s) (hg : guard (firstIssue t s) = none) :
    issue t op second len sh guard body s =
      match body (firstIssue t s) (operands (firstIssue t s) t sh.pops) (returns (firstIssue t s) t sh.rpops) with
      | .ok e => complete t len sh.pops e.push sh.rpops e.rpush e.tgt e.s
      | .held s1 w => s1.updCtx t (fun x => { x with wait := w, heldPops := sh.pops, heldLen := len })
      | .exc s1 cause info => fault t cause info ((firstIssue t s).ctx t).pc false s1
      | .done s1 => s1 := by
  obtain ⟨h0, h1, h5, h2, h3, h4⟩ := h
  cases hb : body (firstIssue t s) (operands (firstIssue t s) t sh.pops) (returns (firstIssue t s) t sh.rpops) <;>
    simp [issue, h0, h1, h2, h3, h4, h5, hg, hb]

@[simp] theorem firstIssue_pc (t : Thread) (s : State) : ((firstIssue t s).ctx t).pc = (s.ctx t).pc := by
  unfold firstIssue; dsimp only; split
  · simp; split <;> simp
  · rfl
@[simp] theorem firstIssue_ops (t : Thread) (s : State) : ((firstIssue t s).ctx t).ops = (s.ctx t).ops := by
  unfold firstIssue; dsimp only; split
  · simp; split <;> simp
  · rfl
@[simp] theorem firstIssue_reg (t : Thread) (s : State) (n : Nat) (hn : n ≠ 0x4D): ((firstIssue t s).ctx t).reg n = (s.ctx t).reg n := by
  unfold firstIssue; dsimp only; split
  · simp; split <;> simp [Ctx.reg, Ctx.setReg, Laws.tblGet_tblSet, Ne.symm hn]
  · rfl
@[simp] theorem firstIssue_ldepth (t : Thread) (s : State) : ((firstIssue t s).ctx t).ldepth = (s.ctx t).ldepth := by
  unfold firstIssue; dsimp only; split
  · simp; split <;> simp
  · rfl
@[simp] theorem firstIssue_muls (t : Thread) (s : State) : ((firstIssue t s).ctx t).muls = (s.ctx t).muls := by
  unfold firstIssue; dsimp only; split
  · simp; split <;> simp
  · rfl
@[simp] theorem firstIssue_now (t : Thread) (s : State) : (firstIssue t s).now = s.now := by
  unfold firstIssue; dsimp only; split <;> simp

end Sys2Proof.Laws
end

