-- ==== Sys2Proof/WellFormed.lean ====
section
/-! DEFINITION. Which commands are well formed: a command whose operands name a core, a bench, a context, a port or a unit
that the module has, and whose fields fit the encoding. The machine itself is total: a command that is not well formed
names nothing and has no effect, or is turned away as its rule says. -/

namespace Sys2Proof

/-- A context of a core (R7, R256). -/
def Thread.wf (t : Thread) : Bool := decide (t.core < 512) && decide (t.ctx < 8)

def Writer.wf : Writer → Bool
  | .thread t => t.wf
  | .foreman => true

/-- A register of a context, by its 12-bit number, or an address of the register range (R29). -/
def RegAddr.wf : RegAddr → Bool
  | .sys t n => t.wf && decide (n < 0x1000)
  | .blk a => decide (0xF00000000000 ≤ a) && decide (a < 2 ^ 48)

def coreOk (c : Nat) : Bool := decide (c < 512)
def benchOk (b : Nat) : Bool := decide (b < 128)
def partOk (p : Nat) : Bool := decide (p < 8)
def devOk (d : Nat) : Bool := decide (d < 16)
def weltOk (w : Nat) : Bool := decide (w < 8)
/-- A mailbox of a function, or one of those from 256 up that hold commands relayed to this module (R535). -/
def mboxOk (m : Nat) : Bool := decide (m < 512)
def unit16 (n : Nat) : Bool := decide (n < 16)

/-- A 128-byte pair fits one flit, a frame's header is 32 bytes and its payload a whole number of lines up to 4,096. -/
def Frame.wf (f : Frame) : Bool :=
  decide (f.header.length = 32) && decide (f.etype < 2 ^ 16) && decide (f.fec ≤ 2) && decide (f.payload.length ≤ 4096)

def HostAccess.wf (a : HostAccess) : Bool := decide (a.bytes.length ≤ a.len) && decide (a.len ≤ 4096)

def Scope.wf : Scope → Bool
  | .core c => coreOk c
  | .bench b => benchOk b
  | .part p => partOk p
  | .die => true
  | .module => true

/-- An upset names a whole word: of a memory, or of one of a merging buffer's entries. -/
def upsetOk : Upset → Bool
  | .word a _ => decide (a % 8 = 0)
  | .entry b _ w _ => benchOk b && decide (w < 8)

def MeshEnv.wf (e : MeshEnv) : Bool :=
  e.links.all (fun l => benchOk l.station && decide (l.input < 7)) && e.upsets.all upsetOk

/-- A command is well formed. -/
def Instr.wf : Instr → Bool
  | .nop t => t.wf
  | .dup t => t.wf
  | .drop t => t.wf
  | .swap t => t.wf
  | .over t => t.wf
  | .rot t => t.wf
  | .nip t => t.wf
  | .tuck t => t.wf
  | .pick t => t.wf
  | .depth t => t.wf
  | .tor t => t.wf
  | .fromr t => t.wf
  | .rcopy t => t.wf
  | .add t => t.wf
  | .sub t => t.wf
  | .neg t => t.wf
  | .and t => t.wf
  | .or t => t.wf
  | .xor t => t.wf
  | .not t => t.wf
  | .shl t => t.wf
  | .shr t => t.wf
  | .sar t => t.wf
  | .rol t => t.wf
  | .eq t => t.wf
  | .lt t => t.wf
  | .ltu t => t.wf
  | .zeq t => t.wf
  | .sel t => t.wf
  | .mul t => t.wf
  | .mulu t => t.wf
  | .macc t => t.wf
  | .multiplyResult t => t.wf
  | .rdmlo t => t.wf
  | .rdmhi t => t.wf
  | .clz t => t.wf
  | .popc t => t.wf
  | .par t => t.wf
  | .brev t => t.wf
  | .crcb t => t.wf
  | .crcw t => t.wf
  | .ldw t => t.wf
  | .stw t => t.wf
  | .ldh t => t.wf
  | .ldhu t => t.wf
  | .sth t => t.wf
  | .ldb t => t.wf
  | .ldbu t => t.wf
  | .stb t => t.wf
  | .tas t => t.wf
  | .br t => t.wf
  | .bz t => t.wf
  | .bnz t => t.wf
  | .call t => t.wf
  | .callx t => t.wf
  | .ret t => t.wf
  | .jmp t => t.wf
  | .loop t => t.wf
  | .leave t => t.wf
  | .rdsr t => t.wf
  | .wrsr t => t.wf
  | .literalRun t ds => t.wf && !ds.isEmpty && ds.all (fun d => decide (d < 64))
  | .mma t _ => t.wf
  | .accz t _ => t.wf
  | .accrd t _ => t.wf
  | .tfree t _ => t.wf
  | .tld t _ => t.wf
  | .tldt t _ => t.wf
  | .tldc t _ => t.wf
  | .tlds t _ => t.wf
  | .tldp t _ => t.wf
  | .tst t _ => t.wf
  | .tstt t _ => t.wf
  | .tstc t _ => t.wf
  | .tsts t _ => t.wf
  | .tstp t _ => t.wf
  | .tcvt t _ => t.wf
  | .qnt t _ => t.wf
  | .vadd t _ => t.wf
  | .vmul t _ => t.wf
  | .vmax t _ => t.wf
  | .vmin t _ => t.wf
  | .vfma t _ => t.wf
  | .vrsum t _ => t.wf
  | .vrmax t _ => t.wf
  | .vrmin t _ => t.wf
  | .vact t _ => t.wf
  | .vactld t _ => t.wf
  | .tileOpStart core => coreOk core
  | .tileBeat t => t.wf
  | .tileOpComplete t => t.wf
  | .mmaComplete t => t.wf
  | .asyw t => t.wf
  | .assayWindowStart bench => benchOk bench
  | .assayWindowEnd bench => benchOk bench
  | .assaySampleDone bench => benchOk bench
  | .copen t => t.wf
  | .copenAnswer t => t.wf
  | .csend t => t.wf
  | .csendCommit t => t.wf
  | .csendTimeout t => t.wf
  | .cput t => t.wf
  | .crecv t => t.wf
  | .cclose t => t.wf
  | .cabort t => t.wf
  | .cstat t => t.wf
  | .creditArrival bench => benchOk bench
  | .channelDrain core h => coreOk core && unit16 h
  | .channelAbortDone core h => coreOk core && unit16 h
  | .receiverAbortNotice core h => coreOk core && unit16 h
  | .closeNotice core q => coreOk core && unit16 q
  | .queueArm w core q _ => w.wf && coreOk core && unit16 q
  | .queueDisarm w core q _ => w.wf && coreOk core && unit16 q
  | .clickerRequest => true
  | .clickerServe => true
  | .pathRelease src conn => benchOk src && decide (conn < 64)
  | .pathRoutersFreed src conn => benchOk src && decide (conn < 64)
  | .servicePathRequest src dst => benchOk src && benchOk dst
  | .meshCycle env => env.wf
  | .flitArrival bench => benchOk bench
  | .memoryRequest dev => devOk dev
  | .gddr7AccessDone dev _ _ => devOk dev
  | .replySlot dev => devOk dev
  | .reserveSlotDelivery dev => devOk dev
  | .memoryReplyArrival bench => benchOk bench
  | .ringSideAccess _ => true
  | .ringPacketArrival _ => true
  | .cxlAccessComplete _ => true
  | .fillComplete bench => benchOk bench
  | .globalLoadReturn t => t.wf
  | .fence t _ => t.wf
  | .fenceDone t => t.wf
  | .invalidate w bench _ => w.wf && benchOk bench
  | .flush w bench _ => w.wf && benchOk bench
  | .convert w bench _ => w.wf && benchOk bench
  | .restore w bench _ => w.wf && benchOk bench
  | .rangeAbort w bench => w.wf && benchOk bench
  | .rangeComplete bench => benchOk bench
  | .ppost t => t.wf
  | .pstat t => t.wf
  | .pabort t => t.wf
  | .descriptorStart core slot => coreOk core && unit16 slot
  | .descriptorAborted core slot => coreOk core && unit16 slot
  | .tadd t _ => t.wf
  | .tsub t _ => t.wf
  | .tread t _ => t.wf
  | .tarrive t _ => t.wf
  | .twatch t _ => t.wf
  | .tallyOpArrival bench => benchOk bench
  | .wakeArrival t => t.wf
  | .watchTimeout t => t.wf
  | .watchCancelArrival bench => benchOk bench
  | .tallyResultArrival t => t.wf
  | .tallyResultLost t => t.wf
  | .generationDeferEnd tally => decide (tally < 2 ^ 16)
  | .fork t => t.wf
  | .join t => t.wf
  | .joinWake t => t.wf
  | .joinTimeout t => t.wf
  | .quit t => t.wf
  | .threadEnd t => t.wf
  | .thsusp t => t.wf
  | .thresm t => t.wf
  | .rdtsr t => t.wf
  | .wrtsr t => t.wf
  | .coreTctlEndWrite w t _ => w.wf && t.wf
  | .coreTpcWrite w t _ => w.wf && t.wf
  | .coreImodeWrite w core _ => w.wf && coreOk core
  | .coreShmodeWrite w core _ => w.wf && coreOk core
  | .shareClassWrite w core n _ => w.wf && coreOk core && decide (n < 0x1000)
  | .stackAreaWrite w t n _ => w.wf && t.wf && decide (n < 0x1000)
  | .saveAreaWrite w t n _ => w.wf && t.wf && decide (n < 0x1000)
  | .faultRingWrite w core n _ => w.wf && coreOk core && decide (n < 0x1000)
  | .coreTfmtWrite w t n _ => w.wf && t.wf && decide (n < 0x1000)
  | .coreGwinWrite w core n _ => w.wf && coreOk core && decide (n < 0x1000)
  | .coreCycLoRead t => t.wf
  | .counterClear w a => w.wf && a.wf
  | .registerWrite w a _ => w.wf && a.wf
  | .benchPvselWrite w bench _ => w.wf && benchOk bench
  | .assayClear w bench => w.wf && benchOk bench
  | .sysc t _ => t.wf
  | .retx t => t.wf
  | .unhold t => t.wf
  | .holdExpiry t => t.wf
  | .isync t => t.wf
  | .ldr t => t.wf
  | .stc t => t.wf
  | .ucnn t nn => t.wf && decide (nn < 32)
  | .microcodeStart core => coreOk core
  | .microcodeEnd core => coreOk core
  | .interruptEntry core => coreOk core
  | .injection t _ => t.wf
  | .frameStart part => partOk part
  | .frameEnd part => partOk part
  | .quietPeriodEnd part => partOk part
  | .timeSliceSwitch part => partOk part
  | .preamble part => partOk part
  | .rampDown part => partOk part
  | .frameSyncEdge => true
  | .frameSyncMiss part => partOk part
  | .weltPacketSend port => weltOk port
  | .weltFrameReceive port f => weltOk port && f.wf
  | .packetCounted stream _ => decide (stream < 16384)
  | .rxBufferUncorrectable stream _ => decide (stream < 16384)
  | .ackTimer stream => decide (stream < 32768)
  | .retransmissionTimeout stream _ => decide (stream < 32768)
  | .portDown port => weltOk port
  | .portUp port => weltOk port
  | .mgmtJoin => true
  | .joinAck => true
  | .heartbeat => true
  | .heartbeatTimer => true
  | .crewLostTimer _ => true
  | .mgmtCommand => true
  | .mgmtResponse => true
  | .mgmtLeave => true
  | .mailboxHandover m seq cmd payload => mboxOk m && decide (seq < 2 ^ 16) && decide (cmd < 2 ^ 16) && decide (payload.length ≤ 4080)
  | .mailboxHostWrite m off _ => mboxOk m && decide (off < 0x1000)
  | .getInfo m => mboxOk m
  | .getEvents m => mboxOk m
  | .loadProgram m _ => mboxOk m
  | .unloadProgram m => mboxOk m
  | .startJob m => mboxOk m
  | .stopJob m => mboxOk m
  | .queryJob m => mboxOk m
  | .createPartition m => mboxOk m
  | .destroyPartition m => mboxOk m
  | .resetScope m => mboxOk m
  | .resetPoint sc => sc.wf
  | .resetEnd sc => sc.wf
  | .setCap m => mboxOk m
  | .setFixedPoint m => mboxOk m
  | .getEnergy m => mboxOk m
  | .setTally m => mboxOk m
  | .readTally m => mboxOk m
  | .configTrace m => mboxOk m
  | .readCounters m => mboxOk m
  | .writeRecord m => mboxOk m
  | .readRecord m => mboxOk m
  | .getAttestation m => mboxOk m
  | .attestationSigned fn => decide (fn < 9)
  | .crewJoin m => mboxOk m
  | .crewStatus m => mboxOk m
  | .crewRelay m => mboxOk m
  | .openStreamRx m => mboxOk m
  | .openStreamTx m => mboxOk m
  | .closeStream m => mboxOk m
  | .setTransport m => mboxOk m
  | .setAperture m => mboxOk m
  | .hostMove m _ => mboxOk m
  | .fwStage m => mboxOk m
  | .fwActivate m => mboxOk m
  | .bar2Access fn _ acc => decide (fn < 9) && acc.wf
  | .bar4Access _ acc => acc.wf
  | .functionLevelReset fn => decide (fn < 9)
  | .errorReport cls _ _ => decide (cls < 8)
  | .faultPartitionReset part => partOk part
  | .capTick vin iin pin tj => decide (vin < 2 ^ 16) && decide (iin < 2 ^ 16) && decide (pin < 2 ^ 16) && decide (tj < 2 ^ 8)
  | .ledgerSnapshot _ _ tmean => decide (tmean < 2 ^ 8)
  | .opStepDone => true
  | .fastLimitTrip src => decide (src < 5)
  | .fastLimitStep => true
  | .pwrBrake _ _ => true
  | .thermalTrip tj => decide (tj < 2 ^ 8)
  | .undervoltage _ => true
  | .inputOpen => true
  | .powerOn slot => unit16 slot
  | .startupStepDone _ => true
  | .idleW1Entry => true
  | .idleW2Entry => true
  | .idleExit cause => decide (cause < 3)
  | .enterW3 => true
  | .enterW4 => true
  | .idleWake => true
  | .perstNAssert _ => true
  | .perstNDeassert => true
  | .refclkLoss => true
  | .refclkReturn => true
  | .i3cWrite off _ => decide (off < 2 ^ 16)
  | .i3cRead _ => true
  | .dynamicAddressAssign addr => decide (addr < 2 ^ 7)
  | .fmnTbRead _ => true
  | .issueSample core => coreOk core
  | .traceRecordOut => true
  | .crewRelayTimeout m => mboxOk m
  | .bar2ReadTimeout fn _ => decide (fn < 9)
  | .fastLimitSourceRelease src => decide (src < 5)
  | .heldModuleResetStart tmax => decide (tmax < 2 ^ 8)
  | .coreSvbaseWrite w core n _ => w.wf && coreOk core && decide (n < 0x1000)
  | .coreJtoWrite w t _ => w.wf && t.wf

end Sys2Proof
end

