-- ==== Sys2Proof/Tests/Slice0.lean ====
section
/-! SUPPORT. Tests of the model on small states (their expected values come from the spec), and for every statement one named
theorem that shows a state and operands that meet its hypotheses, clause by clause. An obligation that joins claims has one such
theorem for each of its claims, under the name of the claim. -/

namespace Sys2Proof.Tests

-- Each test is evaluated by the kernel; one after another they need one thread.
set_option Elab.async false

open Sys2Proof Sys2Proof.Machine

/-- Context 0 of core 0, the thread of most tests. -/
abbrev t0 : Thread := ⟨0, 0⟩
/-- Context 1 of core 0, a pool thread. -/
abbrev t1 : Thread := ⟨0, 1⟩

/-- A context that runs at S level from 0x100 with these stacks; both areas are 4 KiB. -/
def thr (ops rets : List Word) : Ctx :=
  { Ctx.reset 0 with
    st := .run
    pc := 0x100
    ops := ops
    rets := rets
    sr := [(1, 0x1000), (4, 0x1000)] }

/-- The machine after reset with context 0 of core 0 as given. -/
def st (x : Ctx) : State := { State.reset with cores := [(0, { Core.reset with ctxs := [(0, x)] })] }

/-- The machine after reset with core 0 as given. -/
def stCore (k : Core) : State := { State.reset with cores := [(0, k)] }

/-- The machine with bench 0 as given. -/
def onBench (b : Bench) (s : State) : State := { s with benches := [(0, b)] }

/-- A packet of the ring at its destination stop. -/
def pkt (stop : Nat) (m : RingMsg) : RingPkt := ⟨stop, stop, m, stop, true, false⟩

/-- Thread `t` issues and meets no fault of issue; its operands are `l`, top first. -/
abbrev issuesAt (t : Thread) (s : State) (len : Nat) (sh : Shape) (l : List Word) : Prop :=
  (canIssue s t = true ∧ fetchFault ((firstIssue t s).ctx t) len = none ∧ reservedCode (firstIssue t s) t = false ∧
    straddles ((firstIssue t s).ctx t) len = false ∧
    stackFault ((firstIssue t s).ctx t) sh.pops sh.pushes sh.rpops sh.rpushes = none ∧
    fillBad (firstIssue t s) t sh.pops sh.rpops = none) ∧ operands (firstIssue t s) t l.length = l

/-- Thread 0 does. -/
abbrev issues (s : State) (len : Nat) (sh : Shape) (l : List Word) : Prop := issuesAt t0 s len sh l

/-- `issuesAt` says what `Runs` and the operands of a statement say. -/
theorem issues_iff (t : Thread) (s : State) (len : Nat) (sh : Shape) (l : List Word) :
    issuesAt t s len sh l ↔ Runs t len sh s ∧ operands (firstIssue t s) t l.length = l := Iff.rfl

theorem tblGet_cases {α : Type} (d : Nat → α) (l : Tbl α) (i : Nat) : tblGet d l i = d i ∨ ∃ e, e ∈ l ∧ tblGet d l i = e.2 := by
  induction l with
  | nil => exact .inl rfl
  | cons a r ih =>
    by_cases h : a.1 = i
    · exact .inr ⟨a, List.mem_cons_self .., by simp [tblGet, h]⟩
    · rcases ih with h2 | ⟨e, h2, h3⟩
      · left; rw [← h2]; simp [tblGet, h]
      · exact .inr ⟨e, List.mem_cons_of_mem _ h2, by rw [← h3]; simp [tblGet, h]⟩

/-- What every context of a state and every context after reset has, each thread has. -/
theorem ctx_all (s : State) (P : Ctx → Prop) (h0 : ∀ i, P (Ctx.reset i)) (h : ∀ e, e ∈ s.cores → ∀ y, y ∈ e.2.ctxs → P y.2)
    (t : Thread) : P (s.ctx t) := by
  unfold State.ctx State.core
  rcases tblGet_cases coreD s.cores t.core with hc | ⟨e, he, hc⟩ <;> rw [hc] <;> unfold Core.ctx
  · exact h0 _
  · rcases tblGet_cases Ctx.reset e.2.ctxs t.ctx with hx | ⟨y, hy, hx⟩ <;> rw [hx]
    · exact h0 _
    · exact h e he y hy

/-- In this state no thread is held. -/
theorem none_held (s : State) (h : s.cores.all (fun e => e.2.ctxs.all (fun y => decide (y.2.wait = .none))) = true) (t : Thread) :
    (s.ctx t).wait = .none := by
  refine ctx_all s (fun x => x.wait = .none) (fun _ => rfl) (fun e he y hy => ?_) t
  simpa using List.all_eq_true.1 (List.all_eq_true.1 h e he) y hy

/-! ## Arithmetic, stacks, literals, branches, loops (R171 to R200, R214 to R219) -/

/-- `n` entries of an operand or return stack. -/
def many (n : Nat) : List Word := List.replicate n 9

/-- A thread with `d` loops open, the innermost ending at its program counter with `lc` iterations left. -/
def looping (d : Nat) (lc : Word) (ops : List Word) : Ctx :=
  { thr ops [] with
    ldepth := d
    sr := [(1, 0x1000), (4, 0x1000)] ++ (List.range d).map (fun i => (0x010 + i, 0xF0)) ++
      (List.range d).map (fun i => (0x014 + i, 0x100)) ++ (List.range d).map (fun i => (0x018 + i, lc)) }

theorem witness_ArithmeticAndLogicResults :
    issues (st (thr [3, 5] [])) 1 ⟨2, 1, 0, 0⟩ [3, 5] ∧ issues (st (thr [7] [])) 1 ⟨1, 1, 0, 0⟩ [7] := by decide +kernel

theorem witness_BitCountsAndReversal : issues (st (thr [0x00F0] [])) 1 ⟨1, 1, 0, 0⟩ [0x00F0] := by decide +kernel

theorem witness_ShiftCountIsFiveBits :
    issues (st (thr [33, 0x80000001] [])) 1 ⟨2, 1, 0, 0⟩ [33, 0x80000001] := by decide +kernel

theorem witness_ComparisonsAndWordTests :
    issues (st (thr [1, 0xFFFFFFFF] [])) 1 ⟨2, 1, 0, 0⟩ [1, 0xFFFFFFFF] ∧ issues (st (thr [0] [])) 1 ⟨1, 1, 0, 0⟩ [0] ∧
    issues (st (thr [0, 2, 3] [])) 1 ⟨3, 1, 0, 0⟩ [0, 2, 3] ∧ issues (st (thr [0xFFFFFFF0, 0] [])) 1 ⟨2, 0, 0, 0⟩ [0xFFFFFFF0, 0] := by
  decide +kernel

theorem witness_CrcStepsUseThePolynomial :
    issues (st (thr [0x31, 0xFFFFFFFF] [])) 1 ⟨2, 1, 0, 0⟩ [0x31, 0xFFFFFFFF] := by decide +kernel

theorem witness_BranchTargets :
    issues (st (thr [0xFFFFFFF0] [])) 1 ⟨1, 0, 0, 0⟩ [0xFFFFFFF0] ∧ issues (st (thr [4, 0] [])) 1 ⟨2, 0, 0, 0⟩ [4, 0] ∧
    issues (st (thr [4, 1] [])) 1 ⟨2, 0, 0, 0⟩ [4, 1] ∧ issues (st (thr [8] [])) 1 ⟨1, 0, 0, 1⟩ [8] ∧
    issues (st (thr [] [0x40])) 1 ⟨0, 0, 1, 0⟩ [] ∧ returns (firstIssue t0 (st (thr [] [0x40]))) t0 1 = [0x40] := by
  decide +kernel

theorem witness_StackOperationEffects :
    issues (st (thr [] [])) 1 ⟨0, 0, 0, 0⟩ [] ∧ issues (st (thr [1] [])) 1 ⟨1, 2, 0, 0⟩ [1] ∧
    issues (st (thr [1] [])) 1 ⟨1, 0, 0, 0⟩ [1] ∧ issues (st (thr [2, 1] [])) 1 ⟨2, 2, 0, 0⟩ [2, 1] ∧
    issues (st (thr [2, 1] [])) 1 ⟨2, 3, 0, 0⟩ [2, 1] ∧ issues (st (thr [3, 2, 1] [])) 1 ⟨3, 3, 0, 0⟩ [3, 2, 1] ∧
    issues (st (thr [2, 1] [])) 1 ⟨2, 1, 0, 0⟩ [2, 1] := by decide +kernel

/-- PICK with n = 0 and with n = 14, the ends of its range (R178). -/
theorem witness_DeepStackOperations :
    issues (st (thr [0, 5] [])) 1 ⟨2, 2, 0, 0⟩ [0, 5] ∧ issues (st (thr (14 :: many 15) [])) 1 ⟨16, 16, 0, 0⟩ (14 :: many 15) ∧
    operands (st (thr (14 :: many 15) [])) t0 1 = [14] ∧ issues (st (thr [] [])) 1 ⟨0, 1, 0, 0⟩ [] ∧
    issues (st (thr [1] [])) 1 ⟨1, 0, 0, 1⟩ [1] ∧ issues (st (thr [] [6])) 1 ⟨0, 1, 1, 0⟩ [] ∧
    issues (st (thr [] [6])) 1 ⟨0, 1, 1, 1⟩ [] ∧ returns (firstIssue t0 (st (thr [] [6]))) t0 1 = [6] := by decide +kernel

/-- A run of one prefix and one of six. -/
theorem witness_LiteralRunPushesItsValue :
    runOf (st (thr [] [])) t0 [63] = [63] ∧ issues (st (thr [] [])) 1 ⟨0, 1, 0, 0⟩ [] ∧
    runOf (st (thr [] [])) t0 [1, 0, 0, 0, 0, 5] = [1, 0, 0, 0, 0, 5] ∧ issues (st (thr [] [])) 6 ⟨0, 1, 0, 0⟩ [] := by
  decide +kernel

theorem witness_LoopAndLeave :
    issues (st (thr [8, 0] [])) 1 ⟨2, 0, 0, 0⟩ [8, 0] ∧ issues (st (looping 3 2 [8, 5])) 1 ⟨2, 0, 0, 0⟩ [8, 5] ∧
    issues (st (looping 4 2 [8, 5])) 1 ⟨2, 0, 0, 0⟩ [8, 5] ∧ issues (st (looping 1 2 [])) 1 ⟨0, 0, 0, 0⟩ [] ∧
    issues (st (thr [] [])) 1 ⟨0, 0, 0, 0⟩ [] := by decide +kernel

/-- At the end of a loop with two iterations left, with one left, and outside a loop. -/
theorem witness_LoopStepAtTheLoopEnd :
    (looping 1 2 []).ldepth = 1 ∧ (looping 1 2 []).reg 0x014 = (looping 1 2 []).pc + BitVec.ofNat 32 (1 - 1) ∧
    (looping 1 2 []).reg 0x018 = 2 ∧ (looping 4 1 []).reg 0x017 = 0x100 ∧ (looping 4 1 []).reg 0x01B = 1 ∧
    (thr [] []).ldepth = 0 := by decide +kernel

/-- Sixteen entries in hardware, and two that a pop of eighteen fills. -/
theorem witness_SpillsAndFillsKeepTheStacks :
    let x := { thr (many 16) (many 16) with sr := [(1, 0x1000), (2, 8), (4, 0x1000), (5, 8)] }
    (st x).bad = [] ∧ (x.reg 0x002).toNat + 4 * (x.ops.length + 3) < 2 ^ 32 ∧
      4 * (2 + 16) ≤ (x.reg 0x002).toNat + 4 * x.ops.length ∧ 4 * (2 + 16) ≤ (x.reg 0x005).toNat + 4 * x.rets.length := by
  decide +kernel

/-- The reserved syllable 0x0D at the program counter (R192). -/
def reservedAt : State := { st (thr [1] []) with mem := [(0x800000000100, 0x0D)] }

/-- A reserved syllable; DUP with an operand area of no bytes, DROP on an empty stack, TOR with a return area of no bytes, RET on an empty one. -/
theorem witness_StackFaultsComeFirst :
    let full := { thr (many 16) (many 16) with sr := [] }
    let none_ := st (thr [] [])
    stackOnly (st full) (.dup t0) = some (t0, 1, ⟨1, 2, 0, 0⟩) ∧ canIssue (st full) t0 = true ∧
    stackFault ((firstIssue t0 (st full)).ctx t0) 1 2 0 0 = some 0 ∧ stackFault ((firstIssue t0 none_).ctx t0) 1 0 0 0 = some 1 ∧
    stackFault ((firstIssue t0 (st full)).ctx t0) 1 0 0 1 = some 2 ∧ stackFault ((firstIssue t0 none_).ctx t0) 0 0 1 0 = some 3 ∧
    fetchFault ((firstIssue t0 (st full)).ctx t0) 1 = none ∧ reservedCode (firstIssue t0 (st full)) t0 = false ∧
    canIssue none_ t0 = true ∧ canIssue reservedAt t0 = true ∧ fetchFault ((firstIssue t0 reservedAt).ctx t0) 1 = none ∧
    reservedCode (firstIssue t0 reservedAt) t0 = true := by decide +kernel

theorem witness_StackInstructionsFrame :
    stackOnly (st (thr [3, 5] [])) (.add t0) = some (t0, 1, ⟨2, 1, 0, 0⟩) ∧ issues (st (thr [3, 5] [])) 1 ⟨2, 1, 0, 0⟩ [3, 5] := by
  decide +kernel

/-- Two multiplies in flight at core cycle 10, one of them due, and none of its core held in RDTSR. -/
def multiplying (ops : List Word) : State :=
  { st { thr ops [] with muls := [⟨false, 6, 5⟩, ⟨true, 7, 9⟩] } with now := 20 }


theorem witness_MultiplierPipeline :
    (issues (multiplying [3, 5]) 1 ⟨2, 0, 0, 0⟩ [3, 5] ∧ issues (multiplying []) 1 ⟨0, 1, 0, 0⟩ [] ∧
      exists_ (multiplying []) t0 = true ∧
      (∃ m, m ∈ ((multiplying []).ctx t0).muls ∧ m.issued + 3 ≤ (multiplying []).now / 2)) ∧
    ∀ i, ∀ u n, ((multiplying []).ctx ⟨0, i⟩).wait ≠ .rdtsr u n :=
  ⟨by decide +kernel, fun i u n => by rw [none_held (multiplying []) (by decide +kernel)]; nofun⟩

/-- The remainder of one byte by the polynomial of CORE_CRCPOLY's reset value: the entry 1 of the table of CRC-32C (R200). -/
theorem test_crcb_polynomial : (match exec (.crcb t0) (st (thr [1, 0] [])) with
    | .next u => (u.ctx t0).ops
    | _ => []) = [0xF26B8303] := by decide +kernel

theorem test_sub_wraps : (match exec (.sub t0) (st (thr [5, 3] [])) with
    | .next u => (u.ctx t0).ops
    | _ => []) = [0xFFFFFFFE] := by decide +kernel
/-! ## Memory and the address view (R192, R197, R198, R224, R227 to R233) -/

/-- Core 0 with context 0 as given and these registers of the core. -/
def coreWith (sr : Tbl Word) (x : Ctx) : Core := { Core.reset with ctxs := [(0, x)], sr := sr }

/-- Memory with the word 0x8001FF80 at local address 0x40 of core 0, and bench 0 with `n` ways converted. -/
def stMem (n : Nat) (ops : List Word) : State :=
  onBench { Bench.reset with reg := if n = 0 then [] else [(0x6500, BitVec.ofNat 64 n)] }
    { st (thr ops []) with
      mem := [(0x800000000040, 0x80), (0x800000000041, 0xFF), (0x800000000042, 0x01), (0x800000000043, 0x80)] }

/-- Core 0 with window 0 onto module address 0 (`g` gives its enable and uncached bits), which bench 0 relocates by 2 MiB. -/
def stWindow (g : Word) (ops : List Word) (lines : List SLine) : State :=
  onBench { Bench.reset with reg := [(0x6000, BitVec.ofNat 64 (2 ^ 19 + 2 ^ 38 + 7 * 2 ^ 54))], lines := lines }
    (stCore (coreWith [(0x101, 1), (0x104, g)] (thr ops [])))

def aLine : SLine := { set := 0x8000 % 4096, way := 0, line := 0x8000, data := (List.range 64).map (BitVec.ofNat 8), bad := [], born := 0 }

/-- A thread at U level whose first region grants everything. -/
def thrU (ops : List Word) : Ctx :=
  { thr ops [] with
    lvl := .u
    sr := [(1, 0x1000), (4, 0x1000), (0x30, 7), (0x31, 0xFFFFFFFF)] }

theorem witness_NearLoadsExtend :
    issues (stMem 0 [0x40]) 1 ⟨1, 1, 0, 0⟩ [0x40] ∧
    resolve (firstIssue t0 (stMem 0 [0x40])) t0 0x40 4 false true = some (.near 0x800000000040 false) ∧
    uncorrectable (firstIssue t0 (stMem 0 [0x40])) 0x800000000040 4 = none ∧
    resolve (firstIssue t0 (stMem 0 [0x40])) t0 0x40 2 false false = some (.near 0x800000000040 false) ∧
    resolve (firstIssue t0 (stMem 0 [0x40])) t0 0x40 1 false false = some (.near 0x800000000040 false) ∧
    issues (stMem 1 [0x100000]) 1 ⟨1, 1, 0, 0⟩ [0x100000] ∧
    resolve (firstIssue t0 (stMem 1 [0x100000])) t0 0x100000 4 false true = some (.near 0x810000000000 true) := by decide +kernel

theorem witness_NearStoresAndTheirFrame :
    issues (stMem 0 [0x40, 0x12345678]) 1 ⟨2, 0, 0, 0⟩ [0x40, 0x12345678] ∧ (0x40 : Word).toNat % 4 = 0 ∧
    resolve (firstIssue t0 (stMem 0 [0x40, 0x12345678])) t0 0x40 4 true true = some (.near 0x800000000040 false) ∧
    resolve (firstIssue t0 (stMem 0 [0x40, 0x12345678])) t0 0x40 2 true false = some (.near 0x800000000040 false) ∧
    resolve (firstIssue t0 (stMem 0 [0x40, 0x12345678])) t0 0x40 1 true false = some (.near 0x800000000040 false) ∧
    (stMem 0 []).bad = [] ∧ ((stMem 0 [0x40, 0x12345678]).ctx t0).ops.length ≤ 16 := by decide +kernel

theorem witness_MisalignedAddressesFault :
    issues (st (thr [0x41] [])) 1 ⟨1, 1, 0, 0⟩ [0x41] ∧ (0x41 : Word).toNat % 4 ≠ 0 ∧ (0x41 : Word).toNat % 2 ≠ 0 ∧
    issues (st (thr [0x41, 7] [])) 1 ⟨2, 0, 0, 0⟩ [0x41, 7] := by decide +kernel

theorem witness_TestAndSetLoadReserveStoreConditional :
    let s := stWindow 0 [0x40] []
    let w := stCore (coreWith [(0x101, 1)] { thr [0x40, 7] [] with resv := some 1 })
    (s.ctx t0).lvl ≠ .u ∧ issues s 1 ⟨1, 1, 0, 0⟩ [0x40] ∧ uncorrectable s (localBase 0 + 0x40) 4 = none ∧ svc s 0 = true ∧
    issues w 1 ⟨2, 1, 0, 0⟩ [0x40, 7] ∧ svc w 0 = true ∧ (w.ctx t0).resv = some (0x40 / 64) ∧
    issues (stWindow 0 [0x40, 7] []) 1 ⟨2, 1, 0, 0⟩ [0x40, 7] ∧ ((stWindow 0 [0x40, 7] []).ctx t0).resv ≠ some (0x40 / 64) := by
  decide +kernel

/-- The merging buffer with its 32 entries taken, and a store to a line that is in none of them. -/
def mbFull : State :=
  (stWindow 0x10000000 [0x80000004, 7] []).updBench 0 (fun x =>
    { x with mb := (List.range 32).map (fun k => ⟨k + 1, 0x9000 + k, List.replicate 64 0, List.replicate 64 false, [], [], [], 0⟩) })

/-- A hit, a miss, an uncached load, an uncached store and a cached store through window 0. -/
theorem witness_WindowAccesses :
    let hit := stWindow 0x10000000 [0x80000004] [aLine]
    let miss := stWindow 0x10000000 [0x80000004] []
    let unc := stWindow 0x18000000 [0x80000004] []
    let store := stWindow 0x10000000 [0x80000004, 7] []
    issues hit 1 ⟨1, 1, 0, 0⟩ [0x80000004] ∧ resolve hit t0 0x80000004 4 false true = some (.far 0x200004 false) ∧
    findLine hit 0 (0x200004 / 64) = some aLine ∧ issues miss 1 ⟨1, 1, 0, 0⟩ [0x80000004] ∧
    resolve miss t0 0x80000004 4 false true = some (.far 0x200004 false) ∧ findLine miss 0 (0x200004 / 64) = none ∧
    issues unc 1 ⟨1, 1, 0, 0⟩ [0x80000004] ∧ resolve unc t0 0x80000004 4 false true = some (.far 0x200004 true) ∧
    issues (stWindow 0x18000000 [0x80000004, 7] []) 1 ⟨2, 0, 0, 0⟩ [0x80000004, 7] ∧
    resolve (stWindow 0x18000000 [0x80000004, 7] []) t0 0x80000004 4 true true = some (.far 0x200004 true) ∧
    issues store 1 ⟨2, 0, 0, 0⟩ [0x80000004, 7] ∧ resolve store t0 0x80000004 4 true true = some (.far 0x200004 false) ∧
    tblGet (fun _ => 0) aLine.bad (0x200004 % 64 / 8) = 0 ∧ (store.bench 0).mb = [] ∧
    resolve mbFull t0 0x80000004 4 true true = some (.far 0x200004 false) ∧
    issues mbFull 1 ⟨2, 0, 0, 0⟩ [0x80000004, 7] ∧ (∀ e, e ∈ (mbFull.bench 0).mb → e.line ≠ 0x200004 / 64) ∧
    32 ≤ ((mbFull.bench 0).mb.filter (fun e => decide (e.stage = 0))).length := by decide +kernel

/-- The ends of each range of the view; a window off, onto local memory, and onto a relocated region. -/
theorem witness_CoreAddressView :
    (((stMem 8 []).ctx t0).lvl ≠ .u ∧ waysOf (stMem 8 []) 0 = 8 ∧ 0x2FFFFF - 0x100000 < 8 * 0x40000 ∧ waysOf (stMem 1 []) 0 = 1 ∧
      1 * 0x40000 ≤ 0x140000 - 0x100000) ∧
    ((stWindow 0 [] []).core 0).reg 0x104 = 0 ∧
    (let g : Word := BitVec.ofNat 32 (0x800000000000 / 2 ^ 21 + 0x10000000)
     (g.toNat % 2 ^ 27) * 2 ^ 21 + 0 = 0x800000000000) ∧
    ((0x10000000 : Word).getLsbD 28 = true ∧ relocate (stWindow 0x10000000 [] []) 0 0 false = some 0x200000) := by decide +kernel

theorem test_ldh_sign_extends : (match exec (.ldh t0) (stMem 0 [0x40]) with
    | .next u => (u.ctx t0).ops
    | _ => []) = [0xFFFFFF80] := by decide +kernel

theorem test_sth_is_little_endian : (match exec (.sth t0) (stMem 0 [0x42, 0x1234]) with
    | .next u => memBytes u.mem 0x800000000040 4
    | _ => []) = [0x80, 0xFF, 0x34, 0x12] := by decide +kernel

/-! ## System registers (R177, R231, R239 to R243, R258, R272, R277, R281, R288, R289, R304) -/

/-- Operands for RDSR and WRSR. -/
theorem witness_SystemRegisterReads :
    issues (st (thr [0x009] [])) 1 ⟨1, 1, 0, 0⟩ [0x009] ∧ srAccess 0x009 = none ∧
    issues (st (thrU [0x043])) 1 ⟨1, 1, 0, 0⟩ [0x043] ∧
    issues (st (thr [0x02D] [])) 1 ⟨1, 1, 0, 0⟩ [0x02D] ∧ issues (st (thr [0x008] [])) 1 ⟨1, 1, 0, 0⟩ [0x008] ∧
    issues (st (thr [0x100] [])) 1 ⟨1, 1, 0, 0⟩ [0x100] ∧
    issues (st (thr [0x045, 1] [])) 1 ⟨2, 1, 0, 0⟩ [0x045, 1] ∧ (tsrOk (st (thr [0x045, 1] [])) t0 1 0x045).isSome = true := by
  decide +kernel

theorem witness_LatchingReads : exists_ (st (thr [] [])) t0 = true := by decide +kernel

/-- A number absent from the map, a status register, a write that is taken, one that is refused, and one of context 1's. -/
theorem witness_SystemRegisterWrites :
    issues (st (thr [0x009, 5] [])) 1 ⟨2, 0, 0, 0⟩ [0x009, 5] ∧ srAccess 0x009 = none ∧
    issues (st (thr [0x006, 5] [])) 1 ⟨2, 0, 0, 0⟩ [0x006, 5] ∧ srAccess 0x006 = some ⟨true, 1, 1, 1⟩ ∧
    issues (st (thr [0x02D, 5] [])) 1 ⟨2, 0, 0, 0⟩ [0x02D, 5] ∧ srAccess 0x02D = some ⟨true, 2, 2, 2⟩ ∧
    srWrite t0 0x02D 5 (st (thr [0x02D, 5] [])) = .ok ((st (thr [0x02D, 5] [])).updCtx t0 (fun x => x.setReg 0x02D 5)) ∧
    issues (st (thr [0x000, 5] [])) 1 ⟨2, 0, 0, 0⟩ [0x000, 5] ∧ srWrite t0 0x000 5 (st (thr [0x000, 5] [])) = .refused ∧
    issues (st (thr [0x02D, 1, 5] [])) 1 ⟨3, 0, 0, 0⟩ [0x02D, 1, 5] ∧
    (tsrOk (st (thr [0x02D, 1, 5] [])) t0 1 0x02D).isSome = true ∧
    srWrite t1 0x02D 5 (st (thr [0x02D, 1, 5] [])) = .ok ((st (thr [0x02D, 1, 5] [])).updCtx t1 (fun x => x.setReg 0x02D 5)) :=
  ⟨by decide +kernel, rfl, by decide +kernel, rfl, by decide +kernel, rfl, rfl, by decide +kernel, rfl, by decide +kernel,
    by decide +kernel, rfl⟩

/-- A thread at S level may write its own registers and its core's, one at F level also the F save area and F vector base. -/
theorem may_write (n : Nat) (lvl : Level) (h : ∃ p, srAccess n = some p ∧ 2 ≤ p.at_ lvl) :
    MayWriteSr (.thread t0) t0 n (st { thr [] [] with lvl := lvl }) :=
  ⟨rfl, by cases lvl <;> decide +kernel, fun _ h => absurd rfl h, h⟩

theorem witness_RegisterValueRules :
    (∀ n, n ≤ 5 → MayWriteSr (.thread t0) t0 n (st (thr [] []))) ∧
    (∀ n, 0x044 ≤ n → n ≤ 0x049 → MayWriteSr (.thread t0) t0 n (st { thr [] [] with lvl := .f })) ∧
    MayWriteSr (.thread t0) t0 0x04C (st (thr [] [])) ∧ MayWriteSr (.thread t0) t0 0x122 (st (thr [] [])) ∧
    MayWriteSr (.thread t0) t0 0x123 (st { thr [] [] with lvl := .f }) ∧ MayWriteSr .foreman t0 0x04C (st (thr [] [])) :=
  ⟨fun n h => may_write n .s ⟨⟨true, 1, 2, 2⟩, by simp [srAccess, h], by decide⟩,
   fun n h h' => may_write n .f (by
     have : n = 0x044 ∨ n = 0x045 ∨ n = 0x046 ∨ n = 0x047 ∨ n = 0x048 ∨ n = 0x049 := by omega
     rcases this with rfl | rfl | rfl | rfl | rfl | rfl <;> exact ⟨_, rfl, by decide⟩),
   may_write _ .s ⟨_, rfl, by decide⟩, may_write _ .s ⟨_, rfl, by decide⟩, may_write _ .f ⟨_, rfl, by decide⟩, trivial⟩

/-- Context 1 in state `c`. -/
def poolIn (c : CtxState) : State :=
  stCore { Core.reset with ctxs := [(0, thr [] []), (1, { Ctx.reset 1 with st := c })] }

theorem witness_ResumeAddressAndThreadEndWrites :
    (MayWriteSr .foreman t1 0x043 (poolIn .susp) ∧ ((poolIn .susp).ctx t1).st = .susp ∧ ((poolIn .halt).ctx t1).st = .halt) ∧
    (MayWriteSr .foreman t1 0x04A (poolIn .susp) ∧ (1 : Word).getLsbD 0 = true ∧ t1.ctx ≠ 0) ∧
    ((poolIn .run).ctx t1).st = .run ∧ ((poolIn .free).ctx t1).st = .free ∧
    MayWriteSr (.thread t0) t1 0x04A (poolIn .susp) :=
  ⟨⟨trivial, by decide +kernel⟩, ⟨trivial, by decide +kernel⟩, by decide +kernel, by decide +kernel,
    ⟨rfl, by decide +kernel, fun _ _ => by decide +kernel, ⟨_, rfl, by decide⟩⟩⟩

/-- A class that no context holds and one that context 1 holds, with MIN below and above MAX. -/
theorem witness_CoreModeAndShareWrites :
    (poolFree (poolIn .free) 0 = true ∧ poolFree (poolIn .run) 0 = false ∧ live (poolIn .run) 0 1 = true ∧
      live (poolIn .free) 0 1 = false ∧ bits 0x06100000 24 20 = 1 ∧ bits 0x06100000 29 25 = 3 ∧ bits 0x02300000 24 20 = 3 ∧
      bits 0x02300000 29 25 = 1 ∧ ((poolIn .free).core 0).reg 0x128 = 2) ∧
    MayWriteSr .foreman ⟨0, 0⟩ 0x120 (poolIn .free) ∧ MayWriteSr (.thread t0) ⟨0, 0⟩ 0x12C (poolIn .free) ∧
    MayWriteSr (.thread t0) ⟨0, 0⟩ 0x128 (poolIn .free) ∧ (∀ i, i < 8 → 1 ≤ i → live (poolIn .free) 0 i = false) :=
  ⟨by decide +kernel, trivial, ⟨rfl, by decide +kernel, fun h => absurd h (by decide), ⟨_, rfl, by decide⟩⟩,
    ⟨rfl, by decide +kernel, fun h => absurd h (by decide), ⟨_, rfl, by decide⟩⟩, by decide +kernel⟩
/-- Partition 0: the four benches at (0, 0), program 0 of two variants in place. -/
def partA : Part :=
  { Part.reset with
    live := true
    w := 2
    h := 2
    cur := 1
    progs := [(0, { Program.reset with js := 2, nvar := 2 })] }

/-- The machine with partition 0 as given. -/
def onPart (q : Part) (s : State) : State := { s with parts := [(0, q)] }

/-- An operation of context 0 in the load unit, which names format register 1. -/
def aTileOp : TileOp where
  ctx := 0
  op := .tld
  last := 0x10
  pc := 0x100
  args := [0, 0x1000, 32]
  tfmt := 0
  phase := .issued
  at_ := 0
  beat := 0
  rows := 0
  srg := 0
  sclUf := 0
  patchOvf := 0
  held := []
  view := []
  srcA := Tile.reset
  srcB := Tile.reset

/-- Core 0 with `o` issued by context 0, which waits for it. -/
def stTile (o : TileOp) : State :=
  stCore { Core.reset with ctxs := [(0, { thr [0, 0x1000, 32] [] with wait := .tile, heldPops := 3, heldLen := 2 })], tops := [o] }

theorem witness_FormatAndWindowWritesWait :
    (∀ n, MayWriteSr .foreman t0 (0x024 + n) (st (thr [] []))) ∧ (∀ a, Writer.foreman = .thread a → (st (thr [] [])).ctx a = (st (thr [] [])).ctx a) ∧
    (tfmtBusy (st (thr [] [])) t0 3 = false ∧ windowBusy (st (thr [] [])) 0 3 = false ∧
      tfmtBusy (stTile { aTileOp with last := 0x02 }) t0 2 = true ∧
      ((st { thr [5, 0x024] [] with wait := .tfmt 0 0x024 5, heldPops := 2, heldLen := 1 }).ctx t0).wait = .tfmt t0.ctx (0x024 + 0) 5 ∧
      tfmtBusy (st { thr [5, 0x024] [] with wait := .tfmt 0 0x024 5, heldPops := 2, heldLen := 1 }) t0 0 = false) :=
  ⟨fun _ => trivial, fun _ _ => rfl, by decide +kernel⟩

/-- The first and the last bench of the range of `mayWrite`, a counter, a carried variant and one that is not, a queue. -/
theorem witness_BlockRegisterWrites :
    let s := onPart partA State.reset
    benchCounter 0x4000 = true ∧ 0x4000 % 8 = 0 ∧ mayWriteBlk s .foreman (0xF00001000000 + 127 * 0x10000 + 0x4000) = true ∧
    mayWriteBlk s .foreman (0xF00001000000 + 0x6400) = true ∧ mayWrite s .foreman 0 = true ∧ partOf s 0 = some 0 ∧
    leadOf (s.part 0) = 0 ∧ (s.part 0).cur ≠ 0 ∧ (1 : Dword).toNat % 8 < ((s.part 0).prog 0).nvar ∧
    ((s.part 0).prog 0).nvar ≤ (5 : Dword).toNat % 8 ∧ (s.queueOf 3 15).state = 0 ∧
    ringOk (bits (0x80000 : Dword).toNat 19 3 * 8) (bits (0x80000 : Dword).toNat 22 20) = true := by decide +kernel

/-! ## Exceptions, interrupts, customer instructions (R244 to R253, R285 to R310) -/

/-- Core 0 at S level with a save area of 4 KiB at 0x2000, one frame in it, and a vector table of S at 0x4000 whose entry for
each vector gives a handler at 0x5000. -/
def stVectors (x : Ctx) : State :=
  { stCore { Core.reset with
      ctxs := [(0, { x with sr := [(1, 0x1000), (4, 0x1000), (0x44, 0x2000), (0x45, 0x2100), (0x46, 0x3000)] })]
      sr := [(0x122, 0x4000)] } with
    mem := (List.range 20).flatMap (fun v => [(0x800000004001 + 8 * v, 0x50), (0x800000004007 + 8 * v, 0x80)]) }

/-- The same with a sound frame at 0x2000: level S, address 0x1234, one operand, one return entry, one loop level. -/
def stFrame : State :=
  { stVectors (thr [] []) with
    mem := [(0x800000002000, 1), (0x800000002004, 0x34), (0x800000002005, 0x12), (0x800000002010, 1), (0x800000002011, 1),
      (0x800000002014, 8), (0x80000000202C, 1)] }

theorem witness_SystemCallAndHoldWindow :
    issues (stVectors (thr [] [])) 2 ⟨0, 0, 0, 0⟩ [] ∧ issues (st (thr [] [])) 1 ⟨0, 0, 0, 0⟩ [] ∧
    ((st (thr [] [])).ctx t0).lvl ≠ .u ∧ issues (st (thrU [])) 1 ⟨0, 0, 0, 0⟩ [] ∧ ((st (thrU [])).ctx t0).lvl = .u ∧
    ((st { thr [] [] with hold := some 0 }).ctx t0).hold = some 0 ∧ 0 ≤ (st (thr [] [])).now / 2 ∧
    ((st { thr [] [] with hold := some 1 }).ctx t0).hold = some 1 ∧ (st (thr [] [])).now / 2 < 1 := by decide +kernel

theorem witness_ReturnFromException :
    issues stFrame 1 ⟨0, 0, 0, 0⟩ [] ∧ (stFrame.ctx t0).lvl ≠ .u ∧ retxCheck stFrame t0 = none ∧
    issues (st (thr [] [])) 1 ⟨0, 0, 0, 0⟩ [] ∧ (((st (thr [] [])).ctx t0).reg 0x045).toNat < (((st (thr [] [])).ctx t0).reg 0x044).toNat + 256 ∧
    issues (st (thrU [])) 1 ⟨0, 0, 0, 0⟩ [] ∧ ((st (thrU [])).ctx t0).lvl = .u := by decide +kernel

theorem witness_ExceptionEntry :
    let s := stVectors (thr [7] [])
    let va := ((s.core 0).reg 0x122).toNat + 8 * 0x13
    let w1 := (memWord s.mem (localBase 0 + va + 4)).toNat
    va + 8 ≤ 0x100000 ∧ bit w1 31 = true ∧ bits w1 30 10 = 0 ∧ (memWord s.mem (localBase 0 + va)).toNat < 0x100000 ∧
      ((s.ctx t0).reg 0x045).toNat + 256 ≤ ((s.ctx t0).reg 0x046).toNat ∧ (s.ctx t0).muls = [] ∧
      ((s.ctx t0).reg 0x046).toNat ≤ 0x100000 ∧ s.bad = [] := by decide +kernel

/-- Context 1 at U level, context 0 at S level, and a thread at F level. -/
theorem witness_FaultsHaltPoolThreads :
    ((poolIn .run).ctx t1).lvl ≠ .f ∧ t1.ctx ≠ 0 ∧
    (((poolIn .run).core 0).reg 0x127).toNat + 32 * 2 ^ (((poolIn .run).core 0).reg 0x128).toNat % 16 ≤ 0x100000 ∧
    ((poolIn .run).ctx t0).lvl ≠ .f ∧ t0.ctx = 0 ∧ ((st { thr [] [] with lvl := .f }).ctx t0).lvl = .f := by decide +kernel

/-- A vector beyond local memory, an invalid entry, and no room for the frame. -/
theorem witness_FailedEntryLocksTheCore :
    let far := stCore { Core.reset with sr := [(0x122, 0x100000)] }
    let bad := State.reset
    let full := stVectors (thr [] [])
    0x100000 < ((far.core 0).reg 0x122).toNat + 8 * 3 + 8 ∧ ((bad.core 0).reg 0x122).toNat + 8 * 3 + 8 ≤ 0x100000 ∧
    bit (memWord bad.mem (localBase 0 + 8 * 3 + 4)).toNat 31 = false ∧
    bit (memWord full.mem (localBase 0 + 0x4000 + 8 * 3 + 4)).toNat 31 = true ∧
    bits (memWord full.mem (localBase 0 + 0x4000 + 8 * 3 + 4)).toNat 30 10 = 0 ∧
    (memWord full.mem (localBase 0 + 0x4000 + 8 * 3)).toNat < 0x100000 ∧
    (((full.updCtx t0 (fun x => x.setReg 0x045 0x2F01)).ctx t0).reg 0x046).toNat <
      (((full.updCtx t0 (fun x => x.setReg 0x045 0x2F01)).ctx t0).reg 0x045).toNat + 256 := by decide +kernel

theorem witness_InterruptsAndInjections :
    let s := stCore { Core.reset with ctxs := [(0, thr [] [])], sr := [(0x125, 1), (0x126, 1)] }
    deliverable s 0 = true ∧ ((s.core 0).ctx 0).inject = none ∧ ((s.core 0).ctx 0).wait = .none ∧
    (((st (thr [] [])).core 0).reg 0x125 &&& ((st (thr [] [])).core 0).reg 0x126) = 0 ∧
    exists_ s t1 = true ∧ (s.ctx t1).st ≠ .lock ∧ (s.ctx t1).inject = none ∧ (s.ctx t1).wait = .none ∧
    ((poolIn .lock).ctx t1).st = .lock := by decide +kernel

/-- Core 0 whose entry 3 is a sequence of one micro-operation that pushes 5, with `runs` issued. -/
def stMicro (runs : List MicroRun) (x : Ctx) : State :=
  stCore { Core.reset with ctxs := [(0, x)], sr := [(0x143, 0x44000)], ustore := [(0, 0x800005F0)], micro := runs }

/-- A sequence that has run its time: the literal of entry 3, or with operands the ADD of entry 5. -/
def adding (args : List Word) : State :=
  let k : MicroRun := ⟨0, if args = [] then 3 else 5, args, some 0, []⟩
  { stMicro [k] { thr args [] with wait := .micro, heldPops := args.length, heldLen := 1 } with
    now := 20
    cores := (stMicro [k] { thr args [] with wait := .micro, heldPops := args.length, heldLen := 1 }).cores.map (fun e =>
      (e.1, { e.2 with ustore := [(0, 0x800005F0), (1, 0x80000010)], sr := e.2.sr ++ [(0x145, 0x45001)] })) }

/-- Entry 3 as it stands and entry 5 with ADD alone, as they run and are due; and what a finished sequence leaves for the fault clause:
entry 4 begins at a word of zeros. -/
theorem witness_CustomerInstructions :
    let s := stMicro [] (thr [] [])
    let d := ucdec s 0 3
    let r : MicroRun := ⟨0, 3, [], none, []⟩
    let held := { thr [] [] with wait := .micro, heldPops := 0, heldLen := 1 }
    issues s 1 ⟨ucIn d, ucOut d, 0, 0⟩ [] ∧ bit d 18 = true ∧ ucIn d ≤ 4 ∧ ucOut d ≤ 4 ∧ bit d 17 = false ∧
    issues s 1 ⟨ucIn (ucdec s 0 4), ucOut (ucdec s 0 4), 0, 0⟩ [] ∧ bit (ucdec s 0 4) 18 = false ∧
    ((stMicro [r] held).core 0).micro = [r] ∧ r.started = none ∧ 0 + 3 ≤ (adding []).now / 2 ∧
    ((adding []).core 0).micro = [⟨0, 3, [], some 0, []⟩] ∧ ucOut (ucdec (adding []) 0 3) = 1 ∧
    microWord (adding []) 0 (bits (ucdec (adding []) 0 3) 10 0) = 2 ^ 31 + 5 * 256 + 0xF0 ∧
    ((adding [7, 4]).core 0).micro = [⟨0, 5, [7, 4], some 0, []⟩] ∧ ucOut (ucdec (adding [7, 4]) 0 5) = 1 ∧
    bits (ucdec (adding [7, 4]) 0 5) 10 0 < 2048 ∧
    microWord (adding [7, 4]) 0 (bits (ucdec (adding [7, 4]) 0 5) 10 0) = 2 ^ 31 + 0x10 ∧
    (match microResult 0 { r with started := some 0 } { stMicro [{ r with started := some 0 }] held with now := 1000 } with
      | .done m => decide (0 + 2 + m.cyc ≤ 1000 / 2)
      | _ => false) = true ∧
    (match microResult 0 { r with entry := 4, started := some 0 }
        { stMicro [{ r with entry := 4, started := some 0 }] held with now := 1000, cores := (stMicro [] held).cores.map (fun e => (e.1, { e.2 with ustore := [] })) } with
      | .fault m cause _ => decide (cause ≠ 0x0D ∧ 0 + 2 + m.cyc ≤ 1000 / 2)
      | _ => false) = true := by decide +kernel

theorem test_fault_of_c0_locks_up_without_vectors : (match exec (.leave t0) (st (thr [] [])) with
    | .next u => (u.ctx t0).st
    | _ => .run) = .lock := by decide +kernel

theorem test_microcode_adds : (match exec (.microcodeEnd 0) (adding [7, 4]) with
    | .next u => (u.ctx t0).ops
    | _ => []) = [11] := by decide +kernel
/-! ## Threads (R257 to R273) -/

/-- Class 0 of core 0 holds every tile, accumulator, queue and descriptor slot. -/
def allUnits : Tbl Word := [(0x12C, 0xFFFFF), (0x12D, 0xFFFFFFFF)]

/-- Core 0 at `now` with these contexts and core registers. -/
def stThreads (sr : Tbl Word) (now : Nat) (l : Tbl Ctx) : State :=
  { stCore { Core.reset with ctxs := l, sr := sr } with now := now }

/-- FORK with a class above 3, with no FREE context, with the units taken, and one that is granted. -/
theorem witness_ForkStartsTheLowestFreeContext :
    let full := stThreads [(0x120, 0)] 0 [(0, thr [0, 5, 0x200] []), (1, thr [] [])]
    let taken := stThreads allUnits 0 [(0, thr [0, 5, 0x200] [])]
    issues (st (thr [4, 5, 0x200] [])) 1 ⟨3, 1, 0, 0⟩ [4, 5, 0x200] ∧ 3 < (4 : Word).toNat ∧
    issues full 1 ⟨3, 1, 0, 0⟩ [0, 5, 0x200] ∧ (∀ k, k < nCtx full 0 → 1 ≤ k → (full.ctx ⟨0, k⟩).st ≠ .free) ∧
    issues taken 1 ⟨3, 1, 0, 0⟩ [0, 5, 0x200] ∧ (taken.ctx ⟨0, 1⟩).st = .free ∧ grantable taken 0 0 = false ∧
    issues (st (thr [1, 5, 0x200] [])) 1 ⟨3, 1, 0, 0⟩ [1, 5, 0x200] ∧ ((st (thr [1, 5, 0x200] [])).ctx ⟨0, 1⟩).st = .free ∧
    1 < nCtx (st (thr [1, 5, 0x200] [])) 0 ∧ grantable (st (thr [1, 5, 0x200] [])) 0 1 = true := by decide +kernel

/-- Bench 0 with the completion tally of context 1 of core 0 (tally 481) as given. -/
def doneOf1 (y : Tally) : Bench := { Bench.reset with tallies := [(481, y)] }

/-- JOIN of itself, of an ended thread, of a running one; a wake, and a timeout. -/
theorem witness_JoinStatuses :
    let busy := onBench (doneOf1 { Tally.reset with count := 1 }) (st (thr [1] []))
    let waits := { thr [1] [] with wait := .join 1 4 9, heldPops := 1, heldLen := 1 }
    let woken := onBench (doneOf1 { Tally.reset with lastAdv := some 5 }) (stThreads [] 14 [(0, waits)])
    let late := stThreads [] 18 [(0, waits)]
    issues (st (thr [0] [])) 1 ⟨1, 1, 0, 0⟩ [0] ∧ issues (st (thr [1] [])) 1 ⟨1, 1, 0, 0⟩ [1] ∧ 1 < nCtx (st (thr [1] [])) 0 ∧
    ((st (thr [1] [])).bench 0).tally 481 = Tally.reset ∧ issues busy 1 ⟨1, 1, 0, 0⟩ [1] ∧ ((busy.bench 0).tally 481).count = 1 ∧
    (woken.ctx t0).wait = .join 1 4 9 ∧ ((woken.bench 0).tally 481).lastAdv = some 5 ∧ 4 ≤ 5 ∧ 5 + 2 ≤ woken.now / 2 ∧
    (late.ctx t0).wait = .join 1 4 9 ∧ ((late.bench 0).tally 481).lastAdv = none ∧ 9 ≤ late.now / 2 := by decide +kernel

theorem witness_ThreadEnds :
    let ends := stThreads allUnits 0 [(1, { thr [] [] with wait := .ending true })]
    issues (st (thr [] [])) 1 ⟨0, 0, 0, 0⟩ [] ∧ issuesAt t1 (stThreads [] 0 [(1, thr [] [])]) 1 ⟨0, 0, 0, 0⟩ [] ∧ t1.ctx ≠ 0 ∧
    (ends.ctx t1).wait = .ending true ∧ (∀ i, i < 16 → (ends.slotOf 0 i).state = 0) ∧
    (let busy := (onBench { Bench.reset with slots := [(0, { Slot.reset with state := 2, ctx := 1 })] } ends).slotOf 0 0
     busy.ctx = t1.ctx ∧ busy.state = 2) := by
  decide +kernel

/-- Thread 0 names context 0, which is illegal, itself as a pool thread, a running context and a suspended one. -/
theorem witness_SuspendAndResume :
    let two := fun (c : CtxState) => stThreads [] 0 [(0, thr [1] []), (1, { thr [] [] with st := c })]
    let self := stThreads [] 0 [(1, thr [1] [])]
    issues (st (thr [0] [])) 1 ⟨1, 0, 0, 0⟩ [0] ∧ ((st (thr [0] [])).ctx t0).lvl ≠ .u ∧ ((st (thr [0] [])).ctx t0).suspReq = false ∧
    issuesAt t1 self 1 ⟨1, 0, 0, 0⟩ [1] ∧ (self.ctx t1).lvl ≠ .u ∧ 1 < nCtx self 0 ∧
    issues (two .run) 1 ⟨1, 0, 0, 0⟩ [1] ∧ ((two .run).ctx t1).st = .run ∧ ((two .run).ctx t1).wait = .none ∧
    issues (two .susp) 1 ⟨1, 0, 0, 0⟩ [1] ∧ ((two .susp).ctx t1).st = .susp ∧ ((two .halt).ctx t1).st = .halt := by decide +kernel

theorem witness_HeldInstructionsComplete : ((stTile aTileOp).ctx t0).suspReq = false := by decide +kernel

/-! ## Tile machine (R74 to R169) -/

/-- Context 0 with these operands, formats 0, and every unit. -/
def stUnits (ops : List Word) : State := stCore (coreWith allUnits (thr ops []))

/-- TLD and MMA accepted, an illegal shape code, and a class without units. -/
theorem witness_TileOperationsIssue :
    issues (stUnits [0, 0x1000, 32]) 2 ⟨3, 0, 0, 0⟩ [0, 0x1000, 32] ∧
    formatFault .tld 0x24 (fmtAt (stUnits [0, 0x1000, 32]) t0 0x24) 32 = none ∧
    nameAll t0 [0, 0x1000, 32] TOp.tld.names (stUnits [0, 0x1000, 32]) = .inr (stUnits [0, 0x1000, 32]) ∧
    formatFault .mma 0x24 (fmtAt (stUnits [0, 1, 2]) t0 0x24) 2 = none ∧
    nameAll t0 [0, 1, 2] TOp.mma.names (stUnits [0, 1, 2]) = .inr (stUnits [0, 1, 2]) ∧
    formatFault .tld 0xE4 (fmtAt (stUnits [0, 0x1000, 32]) t0 0xE4) 32 = some 9 ∧
    issues (st (thr [3, 0x1000, 32] [])) 2 ⟨3, 0, 0, 0⟩ [3, 0x1000, 32] ∧
    nameAll t0 [3, 0x1000, 32] TOp.tld.names (st (thr [3, 0x1000, 32] [])) = .inl (shareInfo 0 3) := by decide +kernel

/-- An operation in another phase. -/
def opAs (op : TOp) (phase : TPhase) (at_ : Nat) : TileOp :=
  { aTileOp with
    op := op
    last := 0x24
    phase := phase
    at_ := at_
    args := if op = .mma then [0, 1, 2] else [0, 0x1000, 32] }

/-- ACCZ and TFREE of accumulator and tile 0, issued in an earlier cycle. -/
theorem witness_AccumulatorZeroAndTileFree :
    let s := fun (op : TOp) => { stTile (opAs op .issued 0) with now := 20 }
    ((s .accz).core 0).tops = [] ++ opAs .accz .issued 0 :: [] ∧ (opAs .accz .issued 0).phase = .issued ∧
    mayStart (s .accz) 0 [] (opAs .accz .issued 0) = true ∧ (opAs .accz .issued 0).op = .accz ∧
    ((s .tfree).core 0).tops = [] ++ opAs .tfree .issued 0 :: [] ∧ mayStart (s .tfree) 0 [] (opAs .tfree .issued 0) = true ∧
    (opAs .tfree .issued 0).op = .tfree := by decide +kernel

theorem witness_TileOperationStarts :
    let s := { stTile (opAs .tld .issued 0) with now := 20 }
    let m := { stTile (opAs .mma .issued 0) with now := 20 }
    (s.core 0).tops = [] ++ opAs .tld .issued 0 :: [] ∧ (opAs .tld .issued 0).phase = .issued ∧
    mayStart s 0 [] (opAs .tld .issued 0) = true ∧ mayStart m 0 [] (opAs .mma .issued 0) = true ∧
    mmaFault m 0 (opAs .mma .issued 0) = none ∧ mayStart (stTile (opAs .tld .issued 0)) 0 [] (opAs .tld .issued 0) = false := by
  decide +kernel

/-- A beat of TLD and of TST, and one of TST in a cycle in which an MMA of context 1 fetches. -/
theorem witness_TileBeatsMoveRows :
    let s := fun (op : TOp) => { stTile (opAs op .running 0) with now := 8 }
    let f := { s .tst with cores := (s .tst).cores.map (fun e => (e.1, { e.2 with
      tops := [opAs .tst .running 0, { opAs .mma .running 0 with ctx := 1 }], fetched := some 4 })) }
    tileOpOf (s .tld) t0 = some (opAs .tld .running 0) ∧ (s .tld).bad = [] ∧ (opAs .tld .running 0).m = 2 ∧
    (∀ k, k < 2 → rowOk (s .tld) t0 (opAs .tld .running 0) 0 (rowAddr 0x1000 32 k) 4 = true) ∧
    tileOpOf (s .tst) t0 = some (opAs .tst .running 0) ∧ fetchNow (s .tst) 0 = false ∧
    (∀ k, k < 2 → rowOk (s .tst) t0 (opAs .tst .running 0) 1 (rowAddr 0x1000 32 k) 4 = true) ∧
    tileOpOf f t0 = some (opAs .tst .running 0) ∧ fetchNow f 0 = true := by decide +kernel

theorem witness_TileOperationCompletes :
    let s := { stTile (opAs .tldc .tail 0) with now := 16 }
    tileOpOf s t0 = some (opAs .tldc .tail 0) ∧ 0 + TOp.tldc.tail ≤ s.now / 2 ∧ (s.ctx t0).suspReq = false ∧ (s.ctx t0).ldepth = 0 ∧
    (stTile (opAs .tldc .tail 0)).now / 2 < 0 + TOp.tldc.tail := by decide +kernel

theorem witness_MatrixMultiplyCompletes :
    let o := opAs .mma .running 0
    let s := { stTile o with now := 400 }
    tileOpOf s t0 = some o ∧ o.at_ + mmaC o.cls + 8 ≤ s.now / 2 ∧ (stTile o).now / 2 < o.at_ + mmaC o.cls + 8 ∧ o.m = 2 ∧ o.n = 2 := by
  decide +kernel

/-! ## Assay unit (R96 to R104) -/

def aSample : Sample :=
  { row := 1, n := 2, k := 4, aref := 0x1000, bref := 0x2000, stride := 0x00100010, layer := 15, incs := [0, 0], at_ := 0 }

/-- Bench 0 serves `w` for core 0, whose queue holds one sample. -/
def stAssay (w : AWin) (x : Sample) (now : Nat) : State :=
  onBench { Bench.reset with awins := [w] } { stCore { Core.reset with samplesQ := [x] } with now := now }

theorem witness_AssayWindows :
    issues (st (thr [0x10000] [])) 1 ⟨1, 0, 0, 0⟩ [0x10000] ∧ (0x10000 : Word).toNat % 65536 = 0 ∧
    issues (st (thr [100] [])) 1 ⟨1, 0, 0, 0⟩ [100] ∧ (100 : Word).toNat % 65536 ≠ 0 ∧
    ((stAssay ⟨0, 100, none, 0⟩ aSample 0).bench 0).awins = [⟨0, 100, none, 0⟩] ∧
    ((stAssay ⟨0, 100, none, 0⟩ aSample 0).core 0).tops = [] ∧
    ((stAssay ⟨0, 100, some 100, 0⟩ aSample 200).bench 0).awins = [⟨0, 100, some 100, 0⟩] ∧ 100 ≤ 200 / 2 ∧ 198 / 2 < 100 := by
  decide +kernel

/-- A reference inside local memory, one that ends at its end, and one beyond it. -/
theorem witness_AssaySamplesAreCompared :
    let w : AWin := ⟨0, 100, some 100, 0⟩
    let far := { aSample with aref := 0xFFFF0, row := 0 }
    let s := stAssay w aSample 100
    (s.bench 0).awins = [w] ∧ (s.core 0).samplesQ = [aSample] ∧ sampleDue w aSample = some 9 ∧ 9 ≤ s.now / 2 ∧ aSample.layer < 16 ∧
    counterCount ((s.bench 0).r (0x4510 + 15 * 0x40)) + aSample.n < 2 ^ 48 ∧
    (let y : Sample := { aSample with n := 1, k := 32, incs := [0x40000000] }
     (stAssay w y 100).bad = [] ∧ refAddrs y = [0x1010, 0x2000] ∧ sampleDue w y = some 9 ∧
     (match (codeValue 0x11 (y.incs.getD 0 0).toNat).add (codeValue 0x11 (accFp32 false 0 (refRow (stAssay w y 100) 0 0x1010 y.k)
         (refRow (stAssay w y 100) 0 0x2000 y.k) (y.k / 32)).1).neg with
       | .fin _ _ _ => true
       | _ => false) = true) ∧
    (∀ a, a ∈ refAddrs aSample → a + 2 * aSample.k ≤ 0x100000) ∧ (∀ a, a ∈ refAddrs { far with k := 8 } → a + 16 ≤ 0x100000) ∧
    (∃ a, a ∈ refAddrs { far with k := 9 } ∧ 0x100000 < a + 2 * 9) := by decide +kernel
/-! ## Channels (R443 to R469) -/

/-- Core 0 running partition 0, with these operands and staging bytes, handle 0 and queue 0 of it as given. -/
def stChan (ops : List Word) (stage : List Byte) (h : Chan) (q : Queue) : State :=
  onPart partA (onBench { Bench.reset with chans := [(0, h)], queues := [(0, q)] }
    (stCore (coreWith allUnits { thr ops [] with stage0 := stage })))

/-- An OPEN handle of context 0 to queue 0 of core `dst`, a ring of 1 KiB. -/
def aChan (state dst : Nat) : Chan :=
  { Chan.reset with
    state := state
    dst := dst
    nslot := 1
    maxu := 32
    toexp := 20 }

/-- A queue attached to handle 0 of core 0, its ring of 1 KiB at 0x8000. -/
def aQueue (state head tail : Nat) : Queue :=
  { Queue.reset with
    base := 0x8000
    armed := true
    state := state
    head := BitVec.ofNat 32 head
    tail := BitVec.ofNat 32 tail }

/-- The first sixteen handles of a bench in state `n`. -/
def allHandles (n : Nat) : State :=
  onBench { Bench.reset with chans := (List.range 16).map (fun i => (i, { Chan.reset with state := n })) } (st (thr [5, 0, 1, 8, 20] []))

/-- No FREE handle, a bad length (0, 4, 264), a bad share, another partition, this bench, another bench; the answers 0 and 4. -/
theorem witness_ChannelOpening :
    let go := fun (ops : List Word) => stChan ops [] Chan.reset Queue.reset
    let waits := { thr [5, 0, 1, 8, 20] [] with wait := .copen 0, heldPops := 5, heldLen := 2 }
    let answered := fun (k : Nat) => { st waits with ring := [pkt 0 (.answer 0 0 k)] }
    issues (allHandles 2) 2 ⟨5, 2, 0, 0⟩ [5, 0, 1, 8, 20] ∧ (∀ k, k < 16 → ((allHandles 2).chanOf 0 k).state ≠ 0) ∧
    issues (go [5, 0, 1, 0, 20]) 2 ⟨5, 2, 0, 0⟩ [5, 0, 1, 0, 20] ∧ ((go []).chanOf 0 0).state = 0 ∧
    (4 : Word).toNat % 8 ≠ 0 ∧ 256 < (264 : Word).toNat ∧ (256 : Word).toNat % 8 = 0 ∧
    issues (go [5, 0, 65, 8, 20]) 2 ⟨5, 2, 0, 0⟩ [5, 0, 65, 8, 20] ∧ 64 < (65 : Word).toNat ∧
    issues (go [100, 0, 64, 8, 20]) 2 ⟨5, 2, 0, 0⟩ [100, 0, 64, 8, 20] ∧
    samePart (go []) 0 (benchOf ((100 : Word).toNat % 512)) = false ∧
    samePart (go []) 0 (benchOf ((1 : Word).toNat % 512)) = true ∧ benchOf ((1 : Word).toNat % 512) = 0 ∧
    issues (go [5, 0, 1, 256, 20]) 2 ⟨5, 2, 0, 0⟩ [5, 0, 1, 256, 20] ∧
    samePart (go []) 0 (benchOf ((5 : Word).toNat % 512)) = true ∧ benchOf ((5 : Word).toNat % 512) ≠ 0 ∧
    ((answered 0).ctx t0).wait = .copen 0 ∧ (∀ p, p ∈ (answered 4).ring → p.msg = .answer 0 0 4) := by decide +kernel

/-- CPUT of nothing, of 3 bytes, of more than fits, of 8; CSEND on another's handle, while CLOSING, ABORTING, with an empty
buffer, with room, without room; a wait that commits and one that times out. -/
theorem witness_ChannelSending :
    let one := List.replicate 8 (1 : Byte)
    let put := fun (ops : List Word) (n : Nat) => stChan ops (List.replicate n 1) Chan.reset Queue.reset
    let send := fun (k : Nat) (l : List Byte) => stChan [0, 0] l (aChan k 4) Queue.reset
    let full := stChan [0, 0] one { aChan 2 4 with tail := 1020 } Queue.reset
    let waits := fun (h : Chan) => { (stChan [] [] h Queue.reset) with
      cores := [(0, coreWith allUnits { thr [0, 0] [] with stage0 := one, wait := .csend 0 0 9, heldPops := 2, heldLen := 2 })] }
    issues (put [0, 0, 0x40] 8) 2 ⟨3, 1, 0, 0⟩ [0, 0, 0x40] ∧ issues (put [0, 3, 0x40] 8) 2 ⟨3, 1, 0, 0⟩ [0, 3, 0x40] ∧
    issues (put [0, 8, 0x40] 256) 2 ⟨3, 1, 0, 0⟩ [0, 8, 0x40] ∧ issues (put [0, 8, 0x40] 248) 2 ⟨3, 1, 0, 0⟩ [0, 8, 0x40] ∧
    permitted ((put [0, 8, 0x40] 248).ctx t0) 0 0x40 8 = true ∧ uncorrectable (put [0, 8, 0x40] 248) (localBase 0 + 0x40) 8 = none ∧
    issues (send 2 one) 2 ⟨2, 1, 0, 0⟩ [0, 0] ∧ ownHandle (send 0 one) t0 0 = false ∧ ownHandle (send 3 one) t0 0 = true ∧
    ((send 7 one).chanOf 0 0).state = 7 ∧ ownHandle (send 2 one) t0 0 = true ∧ canCommit (send 2 one) t0 0 0 = true ∧
    issues full 2 ⟨2, 1, 0, 0⟩ [0, 0] ∧ ownHandle full t0 0 = true ∧ canCommit full t0 0 0 = false ∧
    ((waits (aChan 2 4)).ctx t0).wait = .csend 0 0 9 ∧ canCommit (waits (aChan 2 4)) t0 0 0 = true ∧
    (waits (aChan 2 4)).now / 2 < 9 ∧ 9 ≤ { waits (aChan 2 4) with now := 18 }.now / 2 ∧
    (({ waits (aChan 2 4) with now := 18 }).ctx t0).suspReq = false := by decide +kernel

/-- A handle to another bench and one to the same bench. -/
theorem witness_CommittedMessages :
    benchOf ((stChan [] [] (aChan 2 4) Queue.reset).chanOf 0 0).dst ≠ 0 ∧
    benchOf ((stChan [] [] (aChan 2 1) Queue.reset).chanOf 0 0).dst = 0 := by decide +kernel

/-- A flit of handle 0 of core 0 for queue 0 of the same core. -/
def aPart : ChanPart :=
  { core := 0, ctx := 0, h := 0, dst := 0, dq := 0, seq := 5, first := true, last := true, payload := List.replicate 16 7 }

/-- Room before the ring's end, and one byte too little of it. -/
theorem witness_MessagePlacement :
    let s := fun (tail : Nat) => stChan [] [] (aChan 2 0) (aQueue 1 tail tail)
    (s 0).bad = [] ∧ takes ((s 0).queueOf 0 0) aPart = true ∧ 8 + aPart.payload.length ≤ 2 ^ 10 - 1000 % 2 ^ 10 ∧
    takes ((s 1001).queueOf 0 0) aPart = true ∧ 2 ^ 10 - 1001 % 2 ^ 10 < 8 + aPart.payload.length := by decide +kernel

/-- CRECV on a queue that nothing is attached to, an empty one, an empty one whose end is known, a closed one, and one that
holds a message of 16 bytes. -/
theorem witness_ChannelReceiving :
    let s := fun (q : Queue) => { stChan [0, 0x200] [] (aChan 2 0) q with mem := [(0x800000008000, 16), (0x800000008002, 1)] }
    issues (s (aQueue 0 0 0)) 2 ⟨2, 2, 0, 0⟩ [0, 0x200] ∧ nameUnit t0 2 0 true (s (aQueue 0 0 0)) = some (s (aQueue 0 0 0)) ∧
    ((s (aQueue 0 0 0)).queueOf 0 0).state = 0 ∧ nameUnit t0 2 0 true (s (aQueue 1 0 0)) = some (s (aQueue 1 0 0)) ∧
    ((s (aQueue 1 0 0)).queueOf 0 0).final ≠ 4 ∧
    nameUnit t0 2 0 true (s { aQueue 1 0 0 with final := 4 }) = some (s { aQueue 1 0 0 with final := 4 }) ∧
    nameUnit t0 2 0 true (s (aQueue 4 0 0)) = some (s (aQueue 4 0 0)) ∧
    nameUnit t0 2 0 true (s (aQueue 1 0 24)) = some (s (aQueue 1 0 24)) ∧
    ((s (aQueue 1 0 24)).queueOf 0 0).head ≠ ((s (aQueue 1 0 24)).queueOf 0 0).tail ∧ (s (aQueue 1 0 24)).bad = [] ∧
    (let x := { aQueue 1 0 24 with score := 4 }
     nameUnit t0 2 0 true (s x) = some (s x) ∧ benchOf ((s x).queueOf 0 0).score ≠ 0) ∧
    (let d := stCore { coreWith ((0x12B, 1) :: allUnits) (thr [0, 0x200] []) with queueOwn := [(0, 1)] }
     issues d 2 ⟨2, 2, 0, 0⟩ [0, 0x200] ∧ dynamic d 0 = true ∧ ownerOf (d.core 0) 2 0 = t0.ctx + 1) ∧
    dynamic (s (aQueue 1 0 0)) 0 = false ∧ bit (maskOf (s (aQueue 1 0 0)) 0 (classOf (s (aQueue 1 0 0)) t0) 2) 0 = true ∧
    nameUnit t0 2 0 true (st (thr [0, 0x200] [])) = none ∧ issues (st (thr [0, 0x200] [])) 2 ⟨2, 2, 0, 0⟩ [0, 0x200] ∧
    memNat (s (aQueue 1 0 24)).mem (localBase 0 + 0x8000) 2 = 16 ∧ permitted ((s (aQueue 1 0 24)).ctx t0) 1 0x200 16 = true ∧
    issues (s (aQueue 1 0 24)) 2 ⟨2, 2, 0, 0⟩ [0, 0x200] := by decide +kernel

theorem witness_ChannelCloseAbortStatus :
    let s := fun (h : Chan) => stChan [0] [] h Queue.reset
    issues (s (aChan 2 4)) 2 ⟨1, 1, 0, 0⟩ [0] ∧ ownHandle (s (aChan 2 4)) t0 0 = true ∧ ownHandle (s (aChan 0 4)) t0 0 = false ∧
    issues (s (aChan 2 4)) 2 ⟨1, 2, 0, 0⟩ [0] ∧ issues (st (thr [16] [])) 2 ⟨1, 1, 0, 0⟩ [16] ∧ 16 ≤ (16 : Word).toNat ∧
    ((s (aChan 2 4)).chanOf 0 0).ctx = t0.ctx ∧ ((s (aChan 1 4)).chanOf 0 0).state < 2 ∧ ((s (aChan 5 4)).chanOf 0 0).state = 5 ∧
    ((s (aChan 7 4)).chanOf 0 0).state = 7 ∧ issues (s (aChan 3 4)) 2 ⟨1, 2, 0, 0⟩ [0] ∧ ownHandle (s (aChan 3 4)) t0 0 = true ∧
    ((s (aChan 3 4)).chanOf 0 0).written = ((s (aChan 3 4)).chanOf 0 0).sent ∧
    ownHandle (s { aChan 3 4 with sent := 1 }) t0 0 = true ∧
    ((s { aChan 3 4 with sent := 1 }).chanOf 0 0).written ≠ ((s { aChan 3 4 with sent := 1 }).chanOf 0 0).sent := by decide +kernel

theorem witness_ChannelEndsAndCredits :
    let s := fun (h : Chan) (m : RingMsg) => { stChan [] [] h { aQueue 1 0 0 with base := 0 } with ring := [pkt 0 m] }
    let c := { stChan [] [] (aChan 2 4) Queue.reset with
      benches := [(0, { Bench.reset with chans := [(0, aChan 2 4)], inbox := [⟨0, .credit 0 0 64 8⟩] })] }
    ((s (aChan 3 4) (.rabort 0 0 0)).chanOf 0 0).written = ((s (aChan 3 4) (.rabort 0 0 0)).chanOf 0 0).sent ∧
    ((s { aChan 3 4 with sent := 1 } (.rabort 0 0 0)).chanOf 0 0).written ≠ ((s { aChan 3 4 with sent := 1 } (.rabort 0 0 0)).chanOf 0 0).sent ∧
    ((s (aChan 5 4) (.rabort 0 0 0)).chanOf 0 0).placed = ((s (aChan 5 4) (.rabort 0 0 0)).chanOf 0 0).left ∧
    (s (aChan 2 4) (.rabort 0 0 64)).ring = [pkt 0 (.rabort 0 0 (4 * 16 + 0))] ∧
    (s (aChan 2 4) (.closed 0 0 2 0 0)).ring = [pkt 0 (.closed 0 0 2 0 0)] ∧
    ((s (aChan 2 4) (.closed 0 0 2 0 0)).queueOf 0 0).state = 1 ∧ ((s (aChan 2 4) (.closed 0 0 2 0 0)).queueOf 0 0).final = 0 ∧
    ((s (aChan 2 4) (.closed 0 0 2 0 0)).queueOf 0 0).score = 0 ∧ ((s (aChan 2 4) (.closed 0 0 2 0 0)).queueOf 0 0).shand = 0 ∧
    c.arrivals = [] ∧ (c.bench 0).inbox = [⟨0, .credit 0 0 (4 * 16 + 0) 8⟩] ∧ 2 ≤ (c.chanOf 0 0).state := by decide +kernel

/-! ## Tallies and fences (R203 to R207, R426 to R428, R470 to R484) -/

theorem witness_TallyInstructions :
    (3 : Word).toNat % 65536 / 512 = benchOf t0.core ∧ issues (st (thr [3, 7] [])) 2 ⟨2, 0, 0, 0⟩ [3, 7] ∧
    issues (st (thr [3] [])) 2 ⟨1, 2, 0, 0⟩ [3] ∧ tallySyllableOk 2 0 = true ∧ issues (st (thr [3, 7] [])) 2 ⟨2, 1, 0, 0⟩ [3, 7] ∧
    issues (st (thr [3, 7, 20] [])) 2 ⟨3, 2, 0, 0⟩ [3, 7, 20] ∧ tallySyllableOk 4 0 = true ∧ tallySyllableOk 0 0xFF = false := by
  decide +kernel

/-- An operation of kind `op` on tally 3 of bench 0. -/
def tOp (op : Nat) (v : Word) : TallyOp :=
  { op := op, tally := 3, val := v, cond := 0, form := 0, scope := 0, core := 0, ctx := 0, agent := 0, serial := 0 }

/-- Bench 0 with these operations at its slice and tally 3 as given. -/
def stTally (l : List TallyIn) (y : Tally) : State := onBench { Bench.reset with tallyIn := l, tallies := [(3, y)] } State.reset

theorem witness_TallySliceOperations :
    let s := fun (op : Nat) (v : Word) (y : Tally) => stTally [⟨0, 0, tOp op v⟩] y
    let y := { Tally.reset with count := 5 }
    (s 0 7 y).bench 0 = { Bench.reset with tallyIn := [⟨0, 0, tOp 0 7⟩], tallies := [(3, y)] } ∧ absorbsBench (s 0 7 y) 0 = false ∧
    misuse (s 0 7 y) (tOp 0 7) = false ∧ ((s 0 7 y).bench 0).deferred = [] ∧ (tOp 0 7).tally / 512 = 0 ∧
    2 ^ 32 ≤ y.count.toNat + (0xFFFFFFFB : Word).toNat ∧ misuse (s 1 7 y) (tOp 1 7) = false ∧ y.count.toNat < (7 : Word).toNat ∧
    misuse (s 2 0 y) (tOp 2 0) = false ∧ benchOf (tOp 2 0).core = 0 ∧
    misuse (s 3 7 y) (tOp 3 7) = false ∧ tooSoon (s 3 7 y) 3 = false ∧
    advances (s 3 7 { y with count := 1, lastAdv := some 0 }) (tOp 3 7) = true ∧
    tooSoon (s 3 7 { y with count := 1, lastAdv := some 0 }) 3 = true ∧ misuse (s 3 7 { y with count := 1, lastAdv := some 0 }) (tOp 3 7) = false := by
  decide +kernel

theorem witness_WatchesAndDeferral :
    let w := stTally [⟨0, 0, tOp 4 9⟩] { Tally.reset with count := 5 }
    let met := stTally [⟨0, 0, tOp 4 5⟩] { Tally.reset with count := 5 }
    let c := stTally [⟨0, 0, tOp 7 0⟩] Tally.reset
    let d := fun (now : Nat) => { onBench { Bench.reset with deferred := [tOp 0 7], tallies := [(3, { Tally.reset with lastAdv := some 0 })] }
      State.reset with now := now }
    (c.bench 0).tallyIn = [⟨0, 0, tOp 7 0⟩] ∧ absorbsBench c 0 = false ∧ (w.bench 0).tallyIn = [⟨0, 0, tOp 4 9⟩] ∧ misuse w (tOp 4 9) = false ∧
    (w.bench 0).deferred = [] ∧ formRel (tOp 4 9).form = false ∧ holds ((w.bench 0).tally 3) (tOp 4 9).cond 9 = false ∧
    (w.bench 0).watches.length < 128 ∧ misuse met (tOp 4 5) = false ∧ (met.bench 0).tallyIn = [⟨0, 0, tOp 4 5⟩] ∧
    benchOf (tOp 4 5).core = 0 ∧ (5 : Word).toNat ≤ ((met.bench 0).tally 3).count.toNat ∧ ((d 128).bench 0).deferred = [tOp 0 7] ∧ tooSoon (d 128) 3 = false ∧
    misuse (d 128) (tOp 0 7) = false ∧ (((d 128).bench 0).tally 3).count.toNat + (7 : Word).toNat < 2 ^ 32 ∧ tooSoon (d 127) 3 = true := by
  decide +kernel

theorem witness_TallyAnswersReleaseThreads :
    let s := fun (w : Wait) (l : List Inbox) (now : Nat) =>
      { onBench { Bench.reset with inbox := l } (st { thr [3] [] with wait := w, heldPops := 1, heldLen := 2 }) with now := now }
    let r : Inbox := ⟨0, .result 0 0 4 3 true 1 2⟩
    let k : Inbox := ⟨0, .wake 0 0 4 3 0 9⟩
    ((s (.tally 4 2 3 9) [r] 0).bench 0).inbox = [r] ∧ ((s (.tally 4 2 3 9) [r] 0).ctx t0).wait = .tally 4 2 3 9 ∧
    ((s .none [r] 0).ctx t0).wait = .none ∧ ((s (.watch 4 3 0 7 9) [k] 0).bench 0).inbox = [k] ∧
    ((s (.watch 4 3 0 7 9) [k] 0).ctx t0).wait = .watch 4 3 0 7 9 ∧ k.due ≤ 9 ∧
    ((s (.watch 4 3 0 7 9) [] 18).ctx t0).wait = .watch 4 3 0 7 9 ∧ 9 ≤ (s (.watch 4 3 0 7 9) [] 18).now / 2 ∧
    ((s (.watch 4 3 0 7 9) [] 18).bench 0).inbox = [] ∧ ((s (.watch 4 3 0 7 9) [] 18).ctx t0).suspReq = false ∧
    ((s (.tally 4 3 3 9) [] 18).ctx t0).wait = .tally 4 3 3 9 := by decide +kernel

/-- A store of context 0 to module address 0x200000 that is not performed, an uncached one beside it, and one to the CXL range. -/
def aStore : MBEntry := ⟨0, 0x8000, List.replicate 64 0, List.replicate 64 true, [(0, 0)], [], [], 0⟩
def anUncached : UItem := ⟨1, 0x8001, true, List.replicate 64 0, List.replicate 64 true, 0, 0, 0, 0⟩
def cxlStore : MBEntry := { aStore with line := 0x400000000, stage := 3 }

def unsent (x : Ctx) : State := onBench { Bench.reset with mb := [aStore], uitems := [anUncached] } (st x)

/-- A fence with nothing to wait for; one of a scope above SYSTEM; one that a store keeps, an uncached one, and at SYSTEM scope one to
the CXL range that its controller has accepted; a held fence and a held release form in both cases. -/
theorem witness_FencesWaitForEarlierAccesses :
    let held := { thr [] [] with wait := .fence 5, heldPops := 0, heldLen := 2 }
    let r := { tOp 0 1 with scope := 3, form := 2 }
    let rel := { held with wait := .release r 9 }
    issues (st (thr [] [])) 2 ⟨0, 0, 0, 0⟩ [] ∧ 5 < (6 : Byte).toNat ∧ (2 : Byte).toNat ≤ 2 ∧ (5 : Byte).toNat ≤ 5 ∧
    ((st (thr [] [])).bench 0).mb = [] ∧ ((st (thr [] [])).bench 0).uitems = [] ∧
    issues (unsent (thr [] [])) 2 ⟨0, 0, 0, 0⟩ [] ∧ aStore ∈ ((unsent held).bench 0).mb ∧ (0, 0) ∈ aStore.writers ∧
    aStore.line * 64 < 0x010000000000 ∧ aStore.stage ≠ 3 ∧ 0x010000000000 ≤ cxlStore.line * 64 ∧ (0, 0) ∈ cxlStore.writers ∧
    anUncached ∈ ((unsent held).bench 0).uitems ∧ anUncached.write = true ∧ anUncached.line * 64 < 0x010000000000 ∧ anUncached.stage ≠ 3 ∧
    ((st held).ctx t0).wait = .fence 5 ∧ ((st held).bench 0).mb = [] ∧ ((unsent held).ctx t0).wait = .fence 5 ∧
    ((st rel).ctx t0).wait = .release r 9 ∧ r.op < 2 ∧ r.form = 2 ∧ r.tally / 512 = benchOf t0.core ∧
    ((unsent rel).ctx t0).wait = .release r 9 := by decide +kernel

theorem test_tarrive_reloads : (match exec (.tallyOpArrival 0) (stTally [⟨0, 0, tOp 3 4⟩] Tally.reset) with
    | .next u => ((u.bench 0).tally 3).count
    | _ => 0) = 3 := by decide +kernel
/-! ## Stockroom, porters, clicker (R337 to R346, R392 to R424) -/

/-- Bench 0 with its range registers over one line of module address 0, which it relocates, and operation `r` running. -/
def stRange (ways : Nat) (r : Option RngOp) (now : Nat) : State :=
  { onBench { Bench.reset with
      reg := [(0x6000, BitVec.ofNat 64 (2 ^ 19 + 2 ^ 38 + 7 * 2 ^ 54)), (0x6408, 64)] ++ (if ways = 0 then [] else [(0x6500, BitVec.ofNat 64 ways)])
      rng := r } State.reset with now := now }

def anInvalidate : RngOp where
  op := 1
  tways := 0
  chunks := [(0x8000, 1)]
  items := []
  started := 0
  startMesh := 0
  due := 5
  ways := 0
  aborting := false
  ten := false
  tidx := 0

/-- Bench 0 maps its line; a range that no region maps; the targets 0, 8 and 9; an idle engine whose last result is collected or not; an
INVALIDATE before and after its end, a FLUSH of an entry that is not accepted, a CONVERT and a RESTORE, and one that aborts. -/
theorem witness_RangeOperations :
    let go := stRange 0 none 0
    let none_ := onBench { Bench.reset with reg := [(0x6408, 64)] } State.reset
    let flush : RngOp := { anInvalidate with op := 2, items := [0] }
    let dirty := (stRange 0 (some flush) 0).updBench 0 (fun x => { x with mb := [aStore] })
    let conv : RngOp := { anInvalidate with op := 3, tways := 8 }
    let rest : RngOp := { anInvalidate with op := 4, ways := 8 }
    mayWrite go .foreman 0 = true ∧ (go.bench 0).rng = none ∧ bits ((go.bench 0).r 0x6400).toNat 47 6 = 0 ∧
    bits ((go.bench 0).r 0x6408).toNat 39 6 = 1 ∧
    (∀ a, a < 64 → (match translate go 0 a with
      | some p => mapped go p.1
      | none => false) = true) ∧
    mayWrite none_ .foreman 0 = true ∧ (none_.bench 0).rng = none ∧ bits ((none_.bench 0).r 0x6408).toNat 39 6 = 1 ∧ translate none_ 0 0 = none ∧
    bits (0x40 : Dword).toNat 6 3 = 8 ∧ 8 < bits (0x48 : Dword).toNat 6 3 ∧ (go.bench 0).rngDone = false ∧
    ((go.updBench 0 (fun x => { x with rngDone := true })).bench 0).rngDone = true ∧
    ((stRange 0 (some anInvalidate) 0).bench 0).rng = some anInvalidate ∧ ctlNow (stRange 0 (some anInvalidate) 0) < 5 ∧
    5 ≤ ctlNow (stRange 0 (some anInvalidate) 20) ∧ (dirty.bench 0).rng = some flush ∧
    (∀ e ∈ (dirty.bench 0).mb, e.stage ≠ 3) ∧ (∀ i ∈ flush.items, ∃ e ∈ (dirty.bench 0).mb, e.serial = i) ∧
    ((stRange 0 (some conv) 20).bench 0).rng = some conv ∧ conv.ways ≤ conv.tways ∧ conv.tways ≤ 8 ∧
    ((stRange 8 (some rest) 20).bench 0).rng = some rest ∧ rest.tways ≤ rest.ways ∧ rest.ways ≤ 8 ∧
    ((stRange 0 (some { conv with aborting := true }) 20).bench 0).rng = some { conv with aborting := true } := by decide +kernel

/-- A fill of line 0x8000 whose data is here. -/
def aFill : Fill :=
  { serial := 3, line := 0x8000, way := 0, victim := none, sent := true, sentAt := 0, drop := false, laid := [], laidMask := []
    data := some (List.replicate 64 1), err := false, link := false }

/-- Bench 0 with the fill; thread 0 waits for its line, or not. -/
def stFill (f : Fill) (w : Wait) : State :=
  onBench { Bench.reset with fills := [f] } (st { thr [0x80000004] [] with wait := w, heldPops := 1, heldLen := 1 })

def anItem : UItem := ⟨3, 0x8000, false, List.replicate 64 1, [], 0, 0, 0, 4⟩

/-- Bench 0 with an uncached load's data, for which thread 0 waits. -/
def stItem (i : UItem) : State :=
  onBench { Bench.reset with uitems := [i] } (st { thr [0x80000004] [] with wait := .load 0x200004 4 false none, heldPops := 1, heldLen := 1 })

theorem only_thread0_waits (f : Fill) :
    ∀ t, t ∈ threadsOf 0 → t ≠ t0 → ((stFill f (.load 0x200004 4 false (some 3))).ctx t).wait = .none := by
  have h : ∀ t, t ∈ threadsOf 0 → t ≠ t0 → ((stFill aFill (.load 0x200004 4 false (some 3))).ctx t).wait = .none := by decide +kernel
  exact h

/-- A fill that no thread waits for, one that thread 0 waits for, and one with an error; an uncached load's data and its error. -/
theorem witness_WaitingLoadsReturn :
    let w : Wait := .load 0x200004 4 false (some 3)
    ((stFill aFill w).bench 0).fills = [aFill] ∧ aFill.data = some (List.replicate 64 1) ∧ aFill.err = false ∧ aFill.drop = false ∧
    ((stFill aFill w).bench 0).rng = none ∧ aFill.way + waysOf (stFill aFill w) 0 < 8 ∧ t0 ∈ threadsOf 0 ∧
    ((stFill aFill w).ctx t0).wait = w ∧ ((stFill { aFill with err := true } w).bench 0).fills = [{ aFill with err := true }] ∧
    (∀ t, t ∈ threadsOf 0 → ((stFill aFill .none).ctx t).wait = .none) ∧
    (∀ f t, t ∈ threadsOf 0 → t ≠ t0 → ((stFill f w).ctx t).wait = .none) ∧
    ((stItem anItem).bench 0).uitems = [anItem] ∧ ((stItem anItem).ctx t0).wait = .load 0x200004 4 false none ∧ anItem.stage = 4 ∧
    ((stItem { anItem with stage := 5 }).bench 0).uitems = [{ anItem with stage := 5 }] ∧ ((stFill aFill w).bench 0).uitems = [] ∧
    ((stItem anItem).bench 0).fills = [] :=
  ⟨by decide +kernel, rfl, rfl, rfl, by decide +kernel, by decide +kernel, by decide +kernel, by decide +kernel, by decide +kernel,
    fun t _ => none_held _ (by decide +kernel) t, only_thread0_waits, by decide +kernel⟩

/-- Core 0 of partition 0 with slot 0 as given, and a ring-class descriptor of 64 bytes from 0x200 to 0x400 at 0x40. -/
def stPorter (ops : List Word) (x : Slot) : State :=
  { stChan ops [] Chan.reset Queue.reset with
    benches := [(0, { Bench.reset with slots := [(0, x)], pattern := [(0, BitVec.ofNat 64 (2 ^ 32))] })]
    mem := [(0x800000000041, 2), (0x800000000045, 0x80), (0x800000000049, 4), (0x80000000004D, 0x80), (0x800000000050, 64), (0x800000000054, 1)] }

theorem witness_PorterInstructions :
    let s := fun (n : Nat) => stPorter [0, 0x40] { Slot.reset with state := n }
    let p := fun (n : Nat) => stPorter [0] { Slot.reset with state := n }
    issues (st (thr [0, 0x40] [])) 2 ⟨2, 1, 0, 0⟩ [0, 0x40] ∧ nameUnit t0 3 0 true (st (thr [0, 0x40] [])) = none ∧
    issues (s 0) 2 ⟨2, 1, 0, 0⟩ [0, 0x40] ∧ nameUnit t0 3 0 true (s 0) = some (s 0) ∧ permitted ((s 0).ctx t0) 0 0x40 32 = true ∧
    uncorrectable (s 0) (localBase 0 + 0x40) 32 = none ∧ nameUnit t0 3 0 true (s 2) = some (s 2) ∧ ((s 2).slotOf 0 0).state ≠ 0 ∧
    issues (p 4) 2 ⟨1, 2, 0, 0⟩ [0] ∧ issues (p 4) 2 ⟨1, 1, 0, 0⟩ [0] ∧
    dynamic (p 0) 0 = false ∧ bit (maskOf (p 0) 0 (classOf (p 0) t0) 3) 0 = true ∧
    (let d := stCore { coreWith ((0x12B, 1) :: allUnits) (thr [0] []) with slotOwn := [(0, 1)] }
     dynamic d 0 = true ∧ ownerOf (d.core 0) 3 0 = t0.ctx + 1) ∧
    (∀ n, n < 8 → nameUnit t0 3 0 false (p n) = some (p n) ∧ ((p n).slotOf 0 0).state = n) := by decide +kernel

/-- Partition 0 in a frame that began at 0. -/
def framed (s : State) : State := onPart { partA with frame := .running } s

/-- A descriptor of connection 0 at and before its first cycle, a ring-class one, aborting ones, and one whose last flit lands. -/
theorem witness_DescriptorsRun :
    let x := { Slot.reset with state := 1, len := 128, posted := 0 }
    let s := fun (now : Nat) => { framed (stPorter [] x) with now := now }
    let y := { x with cls := 1, src := 0x1000, dst := 0x810000000000 }
    let r := framed { stPorter [] y with benches := [(0, { Bench.reset with slots := [(0, y)], reg := [(0x6000, BitVec.ofNat 64 (2 ^ 19 + 2 ^ 38 + 7 * 2 ^ 54)), (0x6500, 1)] })] }
    let done := { x with state := 2, sent := 128, counted := 64, out := 1 }
    let z := { x with cls := 2, remote := 0 }
    let m := { (framed (stPorter [] z)).updBench 0 (fun x => { x with conns := [(0, BitVec.ofNat 64 (mkConn 2 (weltStation 0) 1 false))] }) with
      now := 256
      streams := [(0, { Stream.reset with state := 1, planes := 1 })] }
    injects (s 256) 0 = some 0 ∧ ((s 256).slotOf 0 0) = x ∧ x.conn = 0 ∧ x.posted + 16 ≤ (s 256).now ∧
    (∀ c, c < 4 → ∀ i, i < 16 → (c, i) ≠ (0, 0) → ((s 256).slotOf c i).state = 0) ∧
    injects (s 0) 0 = some 0 ∧ (s 0).now < x.posted + 16 ∧ (m.slotOf 0 0) = z ∧ injects m 0 = some 0 ∧
    streamOn m 0 0 = some (0, 0) ∧ remoteSend z.remote = 0 ∧ z.posted + 16 ≤ m.now ∧ z.sent < z.len ∧
    (r.slotOf 0 0) = y ∧ inFrame r 0 = true ∧ y.sent < y.len ∧ y.fault = 0 ∧ y.out = 0 ∧ tier y.src ≠ some 2 ∧
    (portMap r 0 (y.src + y.sent) false).isSome ∧
    (portMap r 0 (y.dst + y.sent) true).isSome ∧ ((stPorter [] { x with state := 3 }).slotOf 0 0).out = 0 ∧
    ((stPorter [] { x with state := 3, out := 1 }).slotOf 0 0).out ≠ 0 ∧ ((stPorter [] done).slotOf 0 0) = done ∧ done.fault = 0 ∧
    done.ten = false ∧ done.counted + 64 = done.len ∧ done.sent = done.len := by decide +kernel

/-- Partition 0 with room of one slot from bench 0 to bench 1 (offset 5), the queue of the clicker as given, handle 0 of core 0
claiming queue 0 of core 4, and `back` connections in bench 1. -/
def stClicker (l : List CReq) (back : Tbl Dword) : State :=
  { onPart partA (onBench Bench.reset State.reset) with
    benches := [(0, { Bench.reset with pattern := [(5, 0x100)], chans := [(0, aChan 1 4)] }),
      (1, { Bench.reset with pattern := [(7, 0x10000000)], conns := back, queues := [(0, { aQueue 5 0 0 with score := 0, shand := 0, claim := some (0, 0) })] })]
    clicker := { queue := l, paths := [] } }

theorem witness_ClickerServesRequests :
    let p := pkt 0 (.request (.copen 0 0))
    let s := { stClicker [] [] with ring := [p] }
    let q := pkt 0 (.request (.service 0 1))
    (nextPacket s (fun p => ∃ r, p.msg = .request r) p { s with ring := [] } ∧
      nextPacket { s with ring := [q] } (fun p => ∃ r, p.msg = .request r) q { s with ring := [] }) ∧
    reqMarked s (.copen 0 0) = false ∧ s.clicker.queue.length < 256 ∧
    256 ≤ (stClicker (List.replicate 256 (.copen 0 0)) []).clicker.queue.length ∧
    reqMarked (onPart { partA with marked := true } s) (.service 0 1) = true ∧
    (let v := stClicker [.service 0 1] []
     reqMarked v (.service 0 1) = false ∧ servicePath v 0 1 = none ∧ samePart v 0 1 = true ∧ freeConn v 0 = some 0 ∧
      findOffsets v (period v 0) (pathHops 0 1) 1 = some [5]) ∧
    (let v := stClicker [.copen 0 0] [(0, 1029)]
     reqMarked v (.copen 0 0) = false ∧ (v.chanOf 0 0).state = 1 ∧ claimed v 0 0 = true ∧ (v.chanOf 0 0).nslot = 1 ∧
      samePart v (benchOf 0) (benchOf (v.chanOf 0 0).dst) = true ∧ servicePath v 1 0 = some 0 ∧ freeConn v 0 = some 0 ∧
      findOffsets v (period v 0) (pathHops 0 1) 1 = some [5] ∧
      (match cutBoth 0 1 1 (stClicker [] [(0, 1029)]) with
        | .ok r => r.1
        | .error _ => 99) = 0 ∧
      (match cutBoth 0 1 1 (stClicker [] []) with
        | .ok _ => 99
        | .error e => e) = 1) :=
  ⟨⟨⟨[], [], rfl, (by simp), rfl, ⟨_, rfl⟩, rfl⟩, ⟨[], [], rfl, (by simp), rfl, ⟨_, rfl⟩, rfl⟩⟩, by decide +kernel⟩

def aPath (release : Bool) (freeAt : Option Nat) : CPath :=
  { src := 0, dst := 1, conn := 0, part := 0, offs := [5], hops := pathHops 0 1, kind := 0, users := 0, release := release, freeAt := freeAt }

theorem witness_PathsAreAskedForAndReleased :
    let q : OQItem := { dst := 1, conn := none, msg := .credit 0 0 0 0, dead := false, due := 0, holder := none }
    let s := fun (ask : List Nat) => { stClicker [] [] with benches := [(0, { Bench.reset with oq := [q], pathAsk := ask })] }
    let v := fun (p : CPath) => { stClicker [] [] with clicker := { queue := [], paths := [p] } }
    q ∈ ((s []).bench 0).oq ∧ q.due ≤ (s []).now ∧ servicePath (s []) 0 1 = none ∧ samePart (s []) 0 1 = true ∧
    1 ∉ ((s []).bench 0).pathAsk ∧ 1 ∈ ((s [1]).bench 0).pathAsk ∧ (v (aPath true none)).clicker.paths = [] ++ aPath true none :: [] ∧
    ((v (aPath true none)).bench 0).oq = [] ∧ (v (aPath false none)).clicker.paths = [] ++ aPath false none :: [] ∧
    (aPath true (some 0)).freeAt = some 0 ∧ 0 ≤ (v (aPath true (some 0))).now ∧ (v (aPath true (some 1))).now < 1 := by decide +kernel
/-! ## Mesh, memory ports, I/O ring (R315 to R327, R350 to R366, R377 to R390) -/

/-- A flit of 64 bytes for module address `a`. -/
def aFlit (kind : Nat) (a : Nat) (err : Bool) (use : Use) : Flit where
  kind := kind
  late := false
  err := err
  lmask := 1
  srcb := 0
  conn := 0
  rsv := false
  addr := a
  data := List.replicate 64 7
  mask := []
  use := use
  msg := none

/-- A frame of partition 0 runs; the pattern of bench 0 holds `e`, and flit `f` is at its input 6. -/
def stMesh (e : Nat) : State :=
  { framed (onBench { Bench.reset with pattern := [(0, BitVec.ofNat 64 e)] } State.reset) with board := { Board.reset with wetarOn := true } }

def atInput : InFlight := ⟨0, 6, 0, aFlit 0 0 false .none⟩

/-- Output E from input 6, output B from input 6, and no output from it; a flit that is at its crossbar and one that is not yet. -/
theorem witness_MeshCyclePasses :
    let e := 6 * 2 ^ 5
    let b := 6 * 2 ^ 25
    let s := fun (e : Nat) => { stMesh e with flits := [atInput] }
    let late := { stMesh e with flits := [{ atInput with at_ := 2 }] }
    (s e).board.wetarOn = true ∧ (s e).pwr.wstate = 0 ∧ State.reset.board.wetarOn = false ∧ atInput ∈ (s e).flits ∧ atInput.at_ ≤ (s e).now ∧
    { atInput with at_ := 2 } ∈ late.flits ∧ late.now < 2 ∧
    liveEntry (s e) 0 = some e ∧ outputsOf e 6 = [2] ∧ neighbour 0 2 = some 1 ∧
    liveEntry (s b) 0 = some b ∧ outputsOf b 6 = [6] ∧ outputsOf 0 6 = [] ∧ liveEntry (s 0) 0 = some 0 := by decide +kernel

/-- Flit `f` has arrived at port `port` of station `n`. -/
def arrived (n port : Nat) (f : Flit) (s : State) : State := { s with arrivals := [⟨n, port, 0, f⟩] }

theorem next_arrived (n port : Nat) (f : Flit) (s : State) (p : Arrival → Prop) (h : p ⟨n, port, 0, f⟩) :
    nextArrival (arrived n port f s) p ⟨n, port, 0, f⟩ { arrived n port f s with arrivals := [] } :=
  ⟨[], [], rfl, fun _ h => absurd h List.not_mem_nil, Nat.zero_le _, h, rfl⟩

/-- A plain write, a porter's, a damaged one, one for another bench; a channel flit; a tally operation for this bench and one for the
next. -/
theorem witness_FlitsArriveAtBenches :
    (∀ f, otherFlit f = false → nextArrival (arrived 0 6 f State.reset) (fun x => x.station = 0 ∧ x.port = 6 ∧ otherFlit x.flit = false)
      ⟨0, 6, 0, f⟩ { arrived 0 6 f State.reset with arrivals := [] }) ∧
    (let f := aFlit 0 0x800000000080 false .none
     otherFlit f = false ∧ homeBench (flitAddr f) = some 0 ∧ absorbsAddr (arrived 0 6 f State.reset) (flitAddr f) = false) ∧
    homeBench (flitAddr (aFlit 0 0x800000000080 true .none)) = some 0 ∧ homeBench (flitAddr (aFlit 0 0x800001000080 true .none)) ≠ some 0 ∧
    otherFlit { aFlit 5 0 false .none with msg := some (.chan aPart) } = false ∧ benchOf aPart.dst = 0 ∧
    otherFlit { aFlit 5 0 false .none with msg := some (.tally (tOp 0 7)) } = false ∧ (tOp 0 7).tally / 512 = 0 ∧
    { tOp 0 7 with tally := 515 }.tally / 512 = 1 :=
  ⟨fun f h => next_arrived 0 6 f _ _ ⟨rfl, rfl, h⟩, by decide +kernel⟩

theorem witness_MemoryPortServesRequests :
    (∀ f, nextArrival (arrived (memStation 0) 5 f State.reset) (fun x => x.station = memStation 0 ∧ x.port = 5)
      ⟨memStation 0, 5, 0, f⟩ { arrived (memStation 0) 5 f State.reset with arrivals := [] }) ∧
    memMappedOut State.reset 0 = false ∧ (State.reset.port 0).wins = [] ∧ flitLines (aFlit 1 0x80 false .none) ≠ [] :=
  ⟨fun f => next_arrived _ 5 f _ _ ⟨rfl, rfl⟩, by decide +kernel⟩

/-- A reply owed for request slot 0 to bench 14, made of access 1; `late` and `slot` as given. -/
def aReply (late slot : Bool) : PReply :=
  { r := 0, accs := [1], bench := 14, flit := aFlit 4 0x80 false .none, late := late, slot := slot }

/-- Memory port 0 at mesh cycle `now` with the reply; its access is ready, or not. The reserve slot is for bench 14. -/
def stPort (q : PReply) (ready : Option Nat) (err : Bool) (now : Nat) : State :=
  { onPart { partA with x0 := 14, frame := .running } State.reset with
    ports := [(0, { Port.reset with replies := [q], accs := [⟨1, 0, false, ready, err⟩] })]
    benches := [(30, { Bench.reset with pattern := [(0, BitVec.ofNat 64 (2 ^ 39 + 14 * 2 ^ 40))] })]
    now := now }

theorem witness_RepliesAndScheduleSlips :
    let q := aReply false false
    let s := fun (ready : Option Nat) (err : Bool) => stPort q ready err 1024
    let l := fun (slot : Bool) => stPort (aReply true slot) (some 0) false 1024
    accOf ((s none false).port 0) 1 = some ⟨1, 0, false, none, false⟩ ∧
    ((s none false).port 0).replies.find? (fun q => !q.late && decide (q.r + 1024 ≤ (s none false).now)) = some q ∧
    xTaken (s none false) (memStation 0) = false ∧ replyReady ((s (some 0) false).port 0) q = true ∧ replyErr ((s (some 0) false).port 0) q = false ∧
    replyErr ((s (some 0) true).port 0) q = true ∧ replyReady ((s none false).port 0) q = false ∧
    (∀ x ∈ ((stPort q none false 1023).port 0).replies, x.late = true ∨ (stPort q none false 1023).now < x.r + 1024) ∧
    liveEntry (l true) (memStation 0) = some (2 ^ 39 + 14 * 2 ^ 40) ∧ bit (2 ^ 39 + 14 * 2 ^ 40) 39 = true ∧
    ((l true).port 0).replies.find? (fun q => q.late && q.slot && decide (q.bench = bits (2 ^ 39 + 14 * 2 ^ 40) 46 40)) =
      some (aReply true true) ∧
    (∀ x ∈ ((l false).port 0).replies, x.late = false ∨ x.slot = false ∨ x.bench ≠ bits (2 ^ 39 + 14 * 2 ^ 40) 46 40) ∧
    q ∈ ((s none false).port 0).replies ∧ 1 ∈ q.accs := by
  decide +kernel

/-- Thread 0 waits for the data of the fill. -/
def stLate : State := stFill { aFill with data := none } (.load 0x200004 4 false (some 3))

/-- A porter's reply, a fill's and an uncached load's; a late marker of a porter, and of a fill for which a thread waits. -/
theorem witness_MemoryRepliesArrive :
    (∀ s f, f.kind = 4 → nextArrival (arrived 0 6 f s) (fun x => x.station = 0 ∧ x.port = 6 ∧ x.flit.kind = 4) ⟨0, 6, 0, f⟩
      { arrived 0 6 f s with arrivals := [] }) ∧
    (let s := stPorter [] { Slot.reset with dst := 0x800000000400 }
     (aFlit 4 0 false (.porter 0 0 64)).late = false ∧ absorbsCore s 0 = false ∧
      portMap s (benchOf 0) ((s.slotOf 0 0).dst + 64) true = some 0x800000000440 ∧ absorbsBench s 0 = false) ∧
    (let f := { aFill with data := none }
     (stLate.bench 0).fills = [f] ∧ f.sent = true ∧ f.serial = 3 ∧ absorbsBench stLate 0 = false ∧ t0 ∈ threadsOf 0 ∧
      (stLate.ctx t0).wait = .load 0x200004 4 false (some 3)) ∧
    (aFlit 4 0 false (.uload 0 0)).err = false :=
  ⟨fun _ f h => next_arrived 0 6 f _ _ ⟨rfl, rfl, h⟩, by decide +kernel⟩

/-- An access to line 0x8000 at a GDDR7 controller (`dev` above 0) or at the CXL controller (0), at stop 9. -/
def anAccess (dev : Nat) (wr : Bool) : RingPkt :=
  pkt 9 (.access 0 dev wr 0x8000 (List.replicate 64 1) (List.replicate 64 true) false .none)

/-- Packets of every kind at their stop, then accesses that wait at either controller. -/
theorem witness_RingAccesses :
    (∀ m, plainPacket m = true → nextPacket { State.reset with ring := [pkt 9 m] } (fun p => p.dst = 9 ∧ plainPacket p.msg = true)
      (pkt 9 m) State.reset) ∧
    plainPacket (.msg (.credit 0 0 0 0)) = true ∧ plainPacket (.record 0 1 5) = true ∧ plainPacket (anAccess 1 true).msg = true ∧
    plainPacket (.response 0 0x8000 [] false (.item 3)) = true ∧ memMappedOut State.reset (1 - 1) = false ∧
    (let s := fun (dev : Nat) (wr : Bool) => { State.reset with ringSide := [anAccess dev wr] }
     (s 1 false).ringSide = [anAccess 1 false] ∧ memMappedOut (s 1 false) (1 - 1) = false ∧ (s 1 true).ringSide = [anAccess 1 true] ∧
      (s 0 false).ringSide = [anAccess 0 false] ∧ (s 0 true).ringSide = [anAccess 0 true]) ∧ State.reset.ringSide = [] :=
  ⟨fun m h => ⟨[], [], rfl, fun _ h => absurd h List.not_mem_nil, rfl, ⟨rfl, h⟩, rfl⟩, by decide +kernel⟩

/-! ## Frames and switches (R36 to R39, R274, R275, R322, R323, R579, R588 to R590, R694 to R696) -/

/-- Partition 0 warm and idle, its program 0 active and in place, the die powered. -/
def stFrames (q : Part) (ctl : Nat) : State :=
  { onPart q State.reset with board := { Board.reset with wetarOn := true, island := true }, trc := { Trace.reset with ctl := BitVec.ofNat 64 ctl } }

/-- An unsynchronised frame, and the first of a synchronised round; nothing due for each reason; an edge that is the first, one in time
and one too early; the wait for an edge before and at its end. -/
theorem witness_FramesStart :
    let q := { partA with ramp := 1 }
    let s := stFrames q 0
    let y := stFrames q (2 ^ 32)
    let w := stFrames { q with syncWait := some 0 } 0
    nextProg q = some 0 ∧ partReady q = true ∧ s.board.wetarOn = true ∧ q.frame = .idle ∧ q.ramp = 1 ∧ q.cur = 0 + 1 ∧ q.marked = false ∧
    synchronised s 0 = false ∧ synchronised y 0 = true ∧ newRound q 0 = true ∧ q.synced = false ∧ q.syncWait = none ∧
    0 < 4 * q.w * q.h ∧ ((s.core (coreAt q 0)).ctx 0).st = .park ∧ nextProg { q with progs := [] } = none ∧ partA.ramp ≠ 1 ∧
    partReady { q with marked := true } = partReady q ∧ FrameSt.running ≠ .idle ∧
    s.board.island = true ∧ s.board.lastEdge = none ∧ s.tb < 0 + 10000 ∧
    (w.part 0).syncWait = some 0 ∧ 0 + 2 ^ 30 ≤ { w with now := 2 ^ 31 }.now / 2 ∧ w.now / 2 < 0 + 2 ^ 30 := by
  decide +kernel

/-- A frame that is done and one of which a context still runs; one to be discarded whose threads have stopped; the quiet period before
and at its end. -/
theorem witness_FramesEnd :
    let r := stFrames { partA with ramp := 1, frame := .running } 0
    let busy := { r with cores := [(0, { Core.reset with ctxs := [(0, thr [] [])] })] }
    let x := stFrames { partA with ramp := 1, frame := .running, discard := 3 } 0
    let q := stFrames { partA with ramp := 1, frame := .quiet 0 } 0
    (r.part 0).frame = .running ∧ (r.part 0).discard = 0 ∧
    (∀ c, c ∈ coresOf r 0 → ∀ i, i < 8 → ((r.core c).ctx i).st = .park ∨ ((r.core c).ctx i).st = .free) ∧
    (∀ c, c ∈ coresOf r 0 → (∀ i, i < 8 → ((r.core c).ctx i).inject = none) ∧ (r.core c).reg 0x125 &&& (r.core c).reg 0x126 = 0) ∧
    0 ∈ coresOf busy 0 ∧ ((busy.core 0).ctx 0).st = .run ∧
    (x.part 0).frame = .running ∧ (x.part 0).discard = 3 ∧ (∀ c, c ∈ coresOf x 0 → ∀ i, i < 8 → ((x.core c).ctx i).st ≠ .run) ∧
    (q.part 0).frame = .quiet 0 ∧ settled q 0 = true ∧ (∀ c, c ∈ coresOf q 0 → coreStill q c = true) ∧
    (∀ b, b ∈ benchesOf q 0 → queueDrains q b = false) ∧ 0 + 64 ≤ { q with now := 64 }.now ∧
    settled { q with now := 64 } 0 = true ∧ q.now < 0 + 64 := by decide +kernel

theorem witness_SwitchesAndRamps :
    let q := { partA with cur := 2 }
    let s := stFrames q 0
    nextProg q = some 0 ∧ partReady q = true ∧ q.frame = .idle ∧ q.cur ≠ 0 + 1 ∧ (∀ b, b ∈ benchesOf s 0 → benchStill (s.bench b) = true) ∧
    q.marked = false ∧ q.ramp = 0 ∧ rampRoom s (min (envNow s (q.prog 0)) 1000) = true ∧
    { q with ramp := 3, rampEnd := 0 }.rampEnd ≤ s.tb ∧ s.tb < { q with ramp := 3, rampEnd := 1 }.rampEnd ∧
    rampRoom (stFrames { partA with ramp := 4 } 0) 1000 = true ∧
    benchesOf s 0 = [0, 1, 16, 17] := by decide +kernel
/-! ## Welt (R498 to R535) -/

/-- Port 0 trained, with these packets held and received; stream 9 as given. -/
def stWelt (tx : List TxPkt) (rx : List RxPkt) (x : Stream) : State :=
  { stFrames partA 0 with
    welts := [(0, { Welt.reset with reg := [(0, 1)], tx := tx, rx := rx })]
    streams := [(9, x)] }

def aPacket (sentAt : Option Nat) (retries : Nat) : TxPkt :=
  { stream := 9, psn := 0, lastp := true, len := 64, daddr := 0, data := List.replicate 64 7, loaded := 64, full := false, sentAt := sentAt,
    rto := 32, limit := 16, retries := retries, parked := false, core := 0, slot := 0 }

/-- A last flit at port 0's station, sound or damaged, and one of another bench; a timer that runs, that fails the stream, and
that sends again. -/
theorem witness_WeltPacketsAreSent :
    let s := stWelt [aPacket none 0] [] { Stream.reset with state := 1 }
    let t := fun (n tb : Nat) => { stWelt [aPacket (some 0) n] [] { Stream.reset with state := 1 } with tb := tb }
    ((∀ f, nextArrival (arrived (weltStation 0) 5 f s) (fun x => x.station = weltStation 0 ∧ x.port = 5) ⟨weltStation 0, 5, 0, f⟩
        { arrived (weltStation 0) 5 f s with arrivals := [] })) ∧
    (aFlit 0 0 false (.welt 9 0 true)).use = .welt 9 0 true ∧ heldTx s 0 9 0 = some (aPacket none 0) ∧ portUp s 0 = true ∧
    portUp { s with welts := [(0, { Welt.reset with tx := [aPacket none 0] })] } 0 = false ∧
    heldTx { s with welts := [(0, { Welt.reset with tx := [aPacket none 0] })] } 0 9 0 = some (aPacket none 0) ∧
    heldTx (t 0 0) 0 9 0 = some (aPacket (some 0) 0) ∧ (t 0 32000).tb ≤ 0 + (aPacket (some 0) 0).rto * 1000 ∧
    0 + (aPacket (some 0) 0).rto * 1000 < (t 0 32001).tb ∧ 0 < (aPacket (some 0) 0).limit ∧ heldTx (t 0 32001) 0 9 0 = some (aPacket (some 0) 0) ∧
    heldTx (t 16 32001) 0 9 0 = some (aPacket (some 0) 16) ∧ (aPacket (some 0) 16).limit ≤ 16 :=
  ⟨fun f => next_arrived _ 5 f _ _ ⟨rfl, rfl⟩, by decide +kernel⟩

theorem witness_PortsGoDownAndUp :
    let s := stWelt [] [] Stream.reset
    let d := { s with welts := [], boot := { Boot.reset with step := 11 } }
    let out := { d with boot := { d.boot with recs := [(2, { gen := 0, left := 1, body := List.replicate 152 255 })] } }
    portUp s 0 = true ∧ portUp d 0 = false ∧ d.board.wetarOn = true ∧ d.boot.step = 11 ∧
    bit (leNat (((d.recd 2).body.drop 0x92).take 1)) 0 = false ∧ bit (leNat (((out.recd 2).body.drop 0x92).take 1)) 0 = true := by
  decide +kernel

/-- A frame for module 0 from stream 3 of module 5 to stream 9, of transport type `ty`, with PSN and address as given. -/
def aFrame (ty psn a : Nat) : Frame :=
  let h := [BitVec.ofNat 8 (1 + 16 * ty), 0] ++ leBytes 64 2 ++ leBytes (5 + 3 * 2 ^ 14) 4 ++ leBytes (9 * 2 ^ 14) 4 ++ leBytes psn 4 ++
    leBytes a 6 ++ List.replicate 10 0
  let p := List.replicate 64 (7 : Byte)
  { dst := 0, src := 0, tag := none, etype := 0, header := h, payload := p, icrc := icrcOf (h ++ p), fec := 0 }

/-- A receive stream from stream 3 of module 5 with a window of 4 KiB at 0x810000000000 of bench 0, in which `got` have come. -/
def rxStream (got : List Nat) : Stream :=
  { Stream.reset with
    state := 2
    peer := 5
    pstr := 3
    wbase := 0x810000000000
    wlen := 4096
    got := got }

theorem witness_WeltFramesAreChecked :
    let s := fun (x : Stream) => stWelt [] [] x
    let f := fun (psn : Nat) => aFrame 0 psn 0x810000000FC0
    (f 0).icrc = icrcOf ((f 0).header ++ (f 0).payload) ∧ portUp (s (rxStream [])) 0 = true ∧ { f 0 with fec := 2 }.fec = 2 ∧ { f 0 with etype := 1 }.etype ≠ (s (rxStream [])).boot.etype ∧
    (f 0).etype = (s (rxStream [])).boot.etype ∧ (f 0).header.length = 32 ∧ hdrField (f 0) 0 1 = 1 + 16 * 0 ∧
    hdrField (f 0) 2 2 = (f 0).payload.length ∧
    hdrField (f 0) 8 4 % 2 ^ 14 = moduleNo (s (rxStream [])) ∧ hdrField (f 0) 8 4 / 2 ^ 14 % 2 ^ 14 = 9 ∧
    hdrField (f 0) 4 4 % 2 ^ 14 = 5 ∧ hdrField (f 0) 4 4 / 2 ^ 14 % 2 ^ 14 = 3 ∧ ((s Stream.reset).stream 9).state ≠ 2 ∧
    hdrField (f 4096) 0xC 4 = 4096 ∧ 4096 ≤ psnFrom 0 4096 ∧ 2 ^ 31 ≤ psnFrom 0 0xFFFFFFFF ∧ hdrField (f 4095) 0xC 4 = 4095 ∧
    psnFrom 0 4095 < 4096 ∧ hdrField (f 0) 0x10 6 = 0x810000000FC0 ∧ 0x810000000FC0 + 64 ≤ 0x810000000000 + 4096 ∧
    4154 < frameBytes { f 0 with payload := List.replicate 4101 0 } ∧
    (frameBytes { f 0 with payload := List.replicate 4100 0 } ≤ 4154 ∧ 4096 < (List.replicate 4100 (0 : Byte)).length) ∧ frameBytes (f 0) ≤ 4154 ∧
    weltAbsorbed (s (rxStream [])) (rxStream []) 0x810000000FC0 = false ∧ streamRuns (s (rxStream [])) (rxStream []) = true ∧
    ((s (rxStream [])).welt 0).rxUsed + 64 ≤ 2 ^ 23 :=
  ⟨rfl, by decide +kernel⟩

theorem witness_PacketsAreCounted :
    let p := fun (wrote : Nat) => (⟨9, 0, 0x810000000000, List.replicate 64 7, 64, wrote⟩ : RxPkt)
    let s := fun (wrote : Nat) => stWelt [] [p wrote] (rxStream [0])
    let a := fun (tb : Nat) => { stWelt [] [] { rxStream [] with unacked := 1, firstAt := 0 } with tb := tb }
    ((s 64).welt 0).rx = [] ++ p 64 :: [] ∧ (∀ v, v < 8 → v ≠ 0 → ((s 64).welt v).rx = []) ∧ (p 64).wrote = (p 64).data.length ∧ { p 0 with sent := 0 }.sent = 0 ∧
    ((s 64).stream 9).state = 2 ∧ ((s 64).stream 9).prog = 0 ∧ (p 63).wrote < (p 63).data.length ∧ ((s 63).welt 0).rx = [] ++ p 63 :: [] ∧
    0 < ((a 2000).stream 9).unacked ∧ ((a 2000).stream 9).firstAt + 2000 ≤ (a 2000).tb ∧ (a 1999).tb < ((a 1999).stream 9).firstAt + 2000 := by
  decide +kernel

/-- The Foreman of a module whose manager is module 5 and that manages module 7, with message `m` received. -/
def stCrew (m : MgmtMsg) : State :=
  { stWelt [] [] Stream.reset with fmn := { Fmn.reset with
      manager := some (5, [])
      managed := [⟨7, [], 1, 0, 0⟩]
      mgmtIn := [m] } }

def aMessage (src ty code : Nat) (body : List Byte) : MgmtMsg := ⟨0, src, 0, ty, false, 3, code, body⟩

theorem next_message (ty : Nat) (m : MgmtMsg) (s : State) (h : s.fmn.mgmtIn = [m]) (h1 : m.mtype = ty)
    (h2 : m.psn = (sessionOf s m.src).ackbase) (h3 : m.more = false) (h4 : (sessionOf s m.src).first = none) : nextMessage s ty m :=
  ⟨[], [], h, fun _ h => absurd h List.not_mem_nil, ⟨h1, h2⟩, h3, h4⟩

theorem witness_CrewMessages :
    (∀ src ty code body, nextMessage (stCrew (aMessage src ty code body)) ty (aMessage src ty code body)) ∧
    (let s := stCrew (aMessage 7 5 0 [])
     let r := { s with fmn := { s.fmn with mboxes := [(0, { MBox.reset with order := 1, relay := some (7, 3, 9) })] } }
     let j := fun (tb : Nat) => { s with fmn := { s.fmn with joined := true }, tb := tb }
     (∃ g, g ∈ s.fmn.managed ∧ g.mod = 7) ∧ s.fmn.manager = some (5, []) ∧ notRelayed 0x0001 = false ∧ 0x0001 ∈ commandCodes ∧
      (s.mbox 256).order = 0 ∧ s.fmn.manager.map (·.1) ≠ some 7 ∧ (r.mbox 0).relay = some (7, 3, 9) ∧ (r.mbox 0).order ≠ 0 ∧
      (j 100000000).fmn.lastBeat + 100000000 ≤ (j 100000000).tb ∧ (j 0).fmn.joined = true ∧ (j 0).tb < (j 0).fmn.lastBeat + 100000000 ∧
      ⟨7, [], 1, 0, 0⟩ ∈ s.fmn.managed ∧ 0 + 300000000 ≤ (j 300000000).tb) :=
  ⟨fun src ty code body => next_message ty _ _ rfl rfl rfl rfl rfl, by decide +kernel⟩

/-- The check value of CRC-32C over "123456789" (R500). -/
theorem test_icrc_check_value : icrcOf [0x31, 0x32, 0x33, 0x34, 0x35, 0x36, 0x37, 0x38, 0x39] = 0xE3069283 := by decide +kernel
/-! ## Mailboxes and commands (R540 to R584) -/

/-- Command `cmd` with payload `l` handed over in mailbox `m`. -/
def aMailbox (cmd : Nat) (l : List Byte) : MBox :=
  { MBox.reset with
    owner := 1
    cmd := cmd
    len := l.length
    payload := l
    order := 1 }

/-- A module in Ready with 750 W, partition 0 as given and these mailboxes. -/
def stReady (q : Part) (l : Tbl MBox) : State :=
  { onPart q State.reset with
    boot := { Boot.reset with state := 1, step := 11 }
    board := { Board.reset with island := true, wetarOn := true, perst := true }
    pwr := { Power.reset with hostCap := 750 }
    fmn := { Fmn.reset with mboxes := l, nextOrder := 2 } }

def stCmd (cmd : Nat) (l : List Byte) : State := stReady partA [(0, aMailbox cmd l)]

theorem witness_MailboxesAreHandedOver :
    let s := fun (l : Option LastCmd) => stReady partA [(0, { MBox.reset with last := l, cmd := 1 })]
    pcieUp (s none) = true ∧ ((stCmd 1 []).mbox 0).owner = 1 ∧ pcieUp (stCmd 1 []) = true ∧ ((s none).mbox 0).owner = 0 ∧
    ((s none).mbox 0).last = none ∧ 0x0001 ∈ commandCodes ∧ 0x0003 ∉ commandCodes ∧ (s none).fmn.nextOrder ≠ 0 ∧
    ((s (some ⟨3, 1, 0, 0, []⟩)).mbox 0).last = some ⟨3, 1, 0, 0, []⟩ ∧ ((s none).mbox 0).cmd ∈ commandCodes := by decide +kernel

/-- What `MayRun` asks of mailbox 0. -/
abbrev mayRun0 (s : State) (code : Nat) (l : List Byte) : Prop :=
  0 < 128 ∧ (s.mbox 0).cmd = code ∧ canRun s 0 = true ∧ ready s = true ∧ request (s.mbox 0) = l ∧ l.length ≤ 4080

theorem mayRun0_iff (s : State) (code : Nat) (l : List Byte) : mayRun0 s code l ↔ MayRun s 0 code l := Iff.rfl

/-- START_JOB and SET_CAP before their turn, from a VF with and without a partition, before Ready, with a wrong length and with
fields out of range. -/
theorem witness_CommandsAreCheckedFirst :
    let vf := fun (c n : Nat) => stReady { partA with vf := n } [(128, { aMailbox c [] with func := 1 })]
    let cold := { stCmd 0x0301 [0, 0, 0] with boot := Boot.reset }
    canRun (stReady partA []) 0 = false ∧ ((stCmd 0x0103 []).mbox 0).cmd ≠ 0x0301 ∧ canRun (vf 0x0103 0) 128 = true ∧
    ((vf 0x0103 0).mbox 128).cmd = 0x0103 ∧ boundPart (vf 0x0103 0) (funcOf (vf 0x0103 0) 128) = none ∧
    canRun (vf 0x0301 1) 128 = true ∧ (boundPart (vf 0x0301 1) (funcOf (vf 0x0301 1) 128)).isSome ∧ canRun cold 0 = true ∧
    ready cold = false ∧ canRun (stCmd 0x0301 []) 0 = true ∧ ready (stCmd 0x0301 []) = true ∧ ((stCmd 0x0301 []).mbox 0).len ≠ 3 ∧
    (∀ p, p < 9 → ∀ i, i < 17 → let l : List Byte := [BitVec.ofNat 8 p, BitVec.ofNat 8 i] ++ List.replicate 14 0
      mayRun0 (stCmd 0x0103 l) 0x0103 l ∧ l.length = 16 ∧ fieldOf l 0 1 = p ∧ fieldOf l 1 1 = i ∧ fieldOf l 2 2 = 0) ∧
    ((stCmd 0x0103 []).part 1).live = false := by decide +kernel

theorem witness_ReportsOfTheModule :
    (mayRun0 (stCmd 0x0001 []) 0x0001 [] ∧ mayRun0 (stCmd 0x0303 []) 0x0303 []) ∧
    (mayRun0 (stCmd 0x0105 [0, 15]) 0x0105 [0, 15] ∧ fieldOf [0, 15] 1 1 = 15 ∧ ((stCmd 0x0105 [0, 15]).part 0).live = true) ∧
    (mayRun0 (stCmd 0x0402 [3, 0]) 0x0402 [3, 0] ∧ partOf (stCmd 0x0402 [3, 0]) (fieldOf [3, 0] 0 2 / 512) = some 0) ∧
    (let l : List Byte := [0, 0, 127, 0, 0, 0x40, 2, 0]
     mayRun0 (stCmd 0x0404 l) 0x0404 l ∧ fieldOf l 2 2 = 127 ∧ fieldOf l 4 2 = 0x4000 ∧ fieldOf l 6 2 = 2 ∧ l.length = 8) ∧
    mayRun0 (stCmd 0x0602 [0, 0]) 0x0602 [0, 0] := by decide +kernel

/-- Its clauses about every mask of GET_ENERGY and every record of READ_RECORD. -/
theorem witness_ReportsOfTheModule_all :
    (∀ n, n < 127 → let l : List Byte := [BitVec.ofNat 8 (n + 1)]
      mayRun0 (stCmd 0x0002 l) 0x0002 l ∧ fieldOf l 0 1 = n + 1) ∧
    (∀ n, n < 7 → let l : List Byte := [BitVec.ofNat 8 (n + 1)]
      mayRun0 (stCmd 0x0502 l) 0x0502 l ∧ fieldOf l 0 1 = n + 1) := by decide +kernel

/-- A package of one variant for two by two benches, without signature: the sections PATTERN and CODE empty, one variant record. -/
def aPackage : List Byte :=
  leBytes 0x57504B31 4 ++ leBytes 1 4 ++ leBytes 0x140 8 ++ leBytes 0x08020202 4 ++ leBytes 0x0001FF00 4 ++ leBytes 0 8 ++
    [1, 5, 2].flatMap (fun t => leBytes t 8 ++ leBytes 0x100 8 ++ leBytes (if t = 5 then 64 else 0) 8) ++
    List.replicate 152 0 ++ leBytes 0x200 4 ++ List.replicate 60 0

/-- Its place in GDDR7: module address 0. -/
def packageMem : Mem := ((List.range 320).zip aPackage).filter (fun e => decide (e.2 ≠ 0))

/-- LOAD_PROGRAM of the package. -/
def loadPayload : List Byte := List.replicate 16 0 ++ leBytes 0x140 8

def stLoad (q : Part) (cap : Nat) (m : Mem) : State :=
  { stReady q [(0, aMailbox 0x0101 loadPayload)] with
    mem := m
    pwr := { Power.reset with hostCap := cap } }

/-- A bad package, one that lacks its signature, one that is not admitted, one that is, and one whose save region finds no place since
a trace buffer takes the one device of its partition; a slot that is empty, busy or loaded. -/
theorem witness_ProgramsAndJobs_load :
    let e := Sections.empty
    let go := stLoad partA 750 packageMem
    let why := fun (s : State) => packageWhy s 0 0 0x140 (programAt s 0 e)
    let adm := fun (s : State) => (admission s 0 (programAt s 0 e) (admitted s)).1
    mayRun0 go 0x0101 loadPayload ∧ loadPayload.length = 24 ∧ fieldOf loadPayload 1 7 = 0 ∧ gddrRange go 0 0x140 = true ∧
    ((go.part 0).prog 1).js = 0 ∧ ((go.part 0).prog 0).js ≠ 0 ∧ why (stLoad partA 750 []) = some 1 ∧
    why (stLoad { partA with sigReq := true } 750 packageMem) = none ∧ why go = some 0 ∧ adm go = 0 ∧
    why (stLoad partA 349 packageMem) = some 0 ∧ adm (stLoad partA 349 packageMem) = 3 ∧
    (placeSave 0 (programAt go 0 e) (wake go)).isSome ∧
    (let far := { stLoad { partA with
         x0 := 14
         y0 := 2 } 750 (((List.range 320).zip (aPackage.set 0x1C 1)).filter (fun e => decide (e.2 ≠ 0))) with
       trc := { Trace.reset with
         ctl := 2
         base := 2 ^ 36
         slog := 36 } }
     why far = some 0 ∧ adm far = 0 ∧ (placeSave 0 (programAt far 0 e) (wake far)).isNone) := by decide +kernel

/-- STOP_JOB of MODE 1 while the frame of program 0 runs; context 0 of core 0 as given. -/
def stStop (w : Wait) (ctxSt : CtxState) : State :=
  { stReady { partA with
      progs := [(0, { Program.reset with js := 2, nvar := 2 })]
      frame := .running } [(0, aMailbox 0x0104 [0, 0, 1])] with
    cores := [(0, { Core.reset with ctxs := [(0, { thr [] [] with st := ctxSt, wait := w })] })] }

/-- Its frame ends at once when no thread runs; a customer sequence that runs is waited for, a thread between instructions is not. -/
theorem witness_ProgramsAndJobs_stop :
    let s := stStop .micro .run
    mayRun0 s 0x0104 [0, 0, 1] ∧ activeJob ((s.part 0).prog 0) = true ∧ fieldOf [0, 0, 1] 2 1 = 1 ∧ (s.part 0).cur = 0 + 1 ∧
    (s.part 0).frame = .running ∧ 0 ∈ coresOf s 0 ∧ 0 < nCtx s 0 ∧ ((s.core 0).ctx 0).st = .run ∧ ((s.core 0).ctx 0).wait = .micro ∧
    (((stStop .none .run).core 0).ctx 0).wait = .none ∧ ((stStop .none .susp).part 0).discard ≤ 3 ∧
    (∀ c ∈ coresOf (stStop .none .susp) 0, ∀ n, n < 8 → (((stStop .none .susp).core c).ctx n).st ≠ .run) := by decide +kernel

theorem witness_ProgramsAndJobs :
    let js := fun (n : Nat) => { partA with progs := [(0, { Program.reset with js := n, nvar := 2 })] }
    let go := fun (n c : Nat) (l : List Byte) => stReady (js n) [(0, aMailbox c l)]
    mayRun0 (go 0 0x0102 [0, 0]) 0x0102 [0, 0] ∧ (((go 0 0x0102 [0, 0]).part 0).prog 0).js = 0 ∧
    mayRun0 (go 2 0x0102 [0, 0]) 0x0102 [0, 0] ∧ activeJob (((go 2 0x0102 [0, 0]).part 0).prog 0) = true ∧
    mayRun0 (go 1 0x0102 [0, 0]) 0x0102 [0, 0] ∧ activeJob (((go 1 0x0102 [0, 0]).part 0).prog 0) = false ∧
    (let l : List Byte := List.replicate 16 0
     let s := go 1 0x0103 l
     mayRun0 s 0x0103 l ∧ fieldOf l 2 2 = 0 ∧ fencedPart s 0 = false ∧ partReady (s.part 0) = true ∧
      (admission s 0 ((s.part 0).prog 0) ((admitted s).filter (fun e => !(decide (e.1 = 0) && decide (e.2.1 = 0))))).1 = 0) ∧
    mayRun0 (go 1 0x0104 [0, 0, 1]) 0x0104 [0, 0, 1] ∧ fieldOf [0, 0, 1] 2 1 = 1 ∧ mayRun0 (go 2 0x0104 [0, 0, 0]) 0x0104 [0, 0, 0] ∧
    mayRun0 (go 2 0x0104 [0, 0, 1]) 0x0104 [0, 0, 1] := by decide +kernel

/-- Core 511 with context 0 as after reset, and a reset of scope `sc` that has passed its point. -/
def stReset (sc : Scope) (point : Bool) (m : List Nat) : State := { stReady partA [] with resets := [⟨sc, point, 0, m⟩] }

/-- CREATE_PARTITION of partition 1: benches (14, 0) to (15, 1). -/
def createPayload : List Byte := [1, 14, 0, 2, 2, 7, 8, 0, 0, 0, 0, 0]

theorem witness_PartitionsAndResets :
    (let l := createPayload
     let new : Part := { Part.reset with
       live := true, x0 := 14, y0 := 0, w := 2, h := 2, lockSig := true, sigReq := true, cxlWr := true, vf := 8 }
     mayRun0 (stCmd 0x0201 l) 0x0201 l ∧ l.length = 12 ∧ fieldOf l 0 1 = 1 ∧ fieldOf l 5 1 < 8 ∧ fieldOf l 6 1 < 9 ∧
      ((stCmd 0x0201 l).part 1).live = false ∧ rectWhy (stCmd 0x0201 l) new = 0 ∧ rectWhy (stCmd 0x0201 l) { new with x0 := 0 } = 1) ∧
    (let s := fun (n c : Nat) (l : List Byte) => stReady { partA with progs := [(0, { Program.reset with js := n, nvar := 2 })] } [(0, aMailbox c l)]
     mayRun0 (s 2 0x0202 [0]) 0x0202 [0] ∧ anyActive ((s 2 0x0202 [0]).part 0) = true ∧ anyActive ((s 1 0x0202 [0]).part 0) = false ∧
      mayRun0 (s 1 0x0202 [0]) 0x0202 [0] ∧ mayRun0 (s 2 0x0203 [0, 0, 3, 0]) 0x0203 [0, 0, 3, 0] ∧
      mayRun0 (s 1 0x0203 [0, 0, 3, 0]) 0x0203 [0, 0, 3, 0] ∧ fieldOf [0, 0, 3, 0] 2 2 = 3 ∧ partOf (s 1 0x0203 [0, 0, 3, 0]) (3 / 4) = some 0) ∧
    (let s := stReady { partA with faultReset := true, progs := [] } []
     (s.part 0).live = true ∧ (s.part 0).faultReset = true ∧ (s.part 0).resetting = false ∧ anyActive (s.part 0) = false) ∧
    ((stReset (.part 0) false []).resets = [⟨.part 0, false, 0, []⟩] ∧ (Scope.part 0 ≠ .module)) ∧
    ((stReset (.core 3) true []).resets = [⟨.core 3, true, 0, []⟩] ∧ drained (stReset (.core 3) true []) (.core 3) = true ∧
      (∀ h, h < 16 → ((stReset (.core 3) true []).chanOf 3 h).state ≠ 5)) ∧
    (let s := { stReset (.part 0) true [] with parts := [(0, { partA with frame := .running })] }
     s.resets = [⟨.part 0, true, 0, []⟩] ∧ drained s (.part 0) = false) := by decide +kernel

/-- A powered module with the trip state, the pins and the sensors as given. -/
def stBoard (b : Board) (p : Power) : State := { stReady partA [] with board := { b with island := true, wetarOn := true }, pwr := p }

theorem witness_ModuleResets :
    let up := { Board.reset with perst := true }
    let s := stBoard up Power.reset
    let hot := stBoard { up with thermTrip := true } { Power.reset with tmax := 90 }
    s.board.island = true ∧ s.board.perstLowAt = none ∧ ¬ (s.board.thermTrip = true ∧ 90 ≤ s.pwr.tmax) ∧ 100000 ≤ 100000 ∧
    hot.board.island = true ∧ hot.board.perstLowAt = none ∧ hot.board.thermTrip = true ∧ 90 ≤ hot.pwr.tmax ∧ 999 < 1000 ∧
    (stBoard { up with held := true } Power.reset).board.held = true ∧ 89 < 90 ∧
    (stBoard { up with refclk := false } Power.reset).board.refclk = false ∧ s.board.refclk = true ∧
    (stBoard Board.reset Power.reset).board.perst = false ∧ (stBoard Board.reset Power.reset).pwr.wstate = 0 := by decide +kernel

/-- SET_CAP with no cap and with 400 W, the least; a program whose envelope does not fit 400 W, idle and active. -/
theorem witness_CapAndFixedPoint :
    let big := fun (n : Nat) => { partA with progs := [(0, { Program.reset with
      js := n, nvar := 1, reqfix := 0xFF, variants := [⟨0, 0, List.replicate 8 100⟩] })] }
    let cap := fun (q : Part) (l : List Byte) => stReady q [(0, aMailbox 0x0301 l)]
    let l0 : List Byte := [0, 0, 0]
    let l4 : List Byte := [0x90, 0x01, 0]
    let l4f : List Byte := [0x90, 0x01, 1]
    mayRun0 (cap { partA with progs := [] } l0) 0x0301 l0 ∧
    unfits (cap { partA with progs := [] } l0) (fixedNow (cap { partA with progs := [] } l0)) 750 128 (admitted (cap { partA with progs := [] } l0)) = [] ∧
    fieldOf l4 0 2 = 400 ∧ mayRun0 (cap (big 1) l4) 0x0301 l4 ∧
    (unfits (cap (big 1) l4) (fixedNow (cap (big 1) l4)) 400 128 (admitted (cap (big 1) l4))).length = 1 ∧
    mayRun0 (cap (big 1) l4f) 0x0301 l4f ∧ fieldOf l4f 2 1 = 1 ∧
    (∀ x, x ∈ unfits (cap (big 1) l4f) (fixedNow (cap (big 1) l4f)) 400 128 (admitted (cap (big 1) l4f)) → activeJob x.2.2 = false) ∧
    mayRun0 (stCmd 0x0302 [0xFF]) 0x0302 [0xFF] ∧ fieldOf [0xFF] 0 1 = 0xFF ∧
    (let s := stReady { partA with progs := [] } [(0, aMailbox 0x0302 [7])]
     mayRun0 s 0x0302 [7] ∧ unfits s (some 7) (capNow s) 128 (admitted s) = [] ∧ s.pwr.stepTo = none ∧ ¬ s.pwr.op < 7 ∧ s.pwr.op < 8) := by
  decide +kernel
/-! ## Records, streams, host memory, attestation, windows and errors (R503 to R567, R634 to R706) -/

/-- WRITE_RECORD of record `r` with generation `g` and this body, unsigned. -/
def recordBytes (r g : Nat) (body : List Byte) : List Byte :=
  leBytes r 4 ++ leBytes (12 + body.length) 4 ++ leBytes g 2 ++ [0, 0] ++ leBytes 0 8 ++ body

/-- Record 6 with owner key 1 and nothing else. -/
def ownerBody : List Byte := 1 :: List.replicate 319 0

theorem witness_HostWritesRecords :
    (let l := leBytes 3 8 ++ leBytes (3 * 2 ^ 59 + 5) 8
     let s := stCmd 0x0401 l
     mayRun0 s 0x0401 l ∧ l.length = 16 ∧ fieldOf l 2 6 = 0 ∧ bits (fieldOf l 8 8) 61 59 = 3 ∧ bit (fieldOf l 8 8) 62 = false ∧
      partOf s (fieldOf l 0 2 / 512) = some 0 ∧ (s.part 0).live = true) ∧
    (∀ e, e < 2 → let l := leBytes (if e = 0 then 0xA0 else 0x180) 8 ++ leBytes 0x100000 8 ++ leBytes 20 8
     let s := stCmd 0x0403 l
     mayRun0 s 0x0403 l ∧ l.length = 24 ∧ bits (fieldOf l 0 8) 8 4 = (if e = 0 then 10 else 24) ∧ bits (fieldOf l 0 8) 15 9 = 0 ∧
      bits (fieldOf l 0 8) 23 21 = 0 ∧ bits (fieldOf l 0 8) 63 40 = 0 ∧ fieldOf l 8 8 = 2 ^ 20 ∧ fieldOf l 16 1 = 20 ∧ fieldOf l 17 7 = 0 ∧
      gddrRange s (fieldOf l 8 8) (2 ^ 20) = true ∧ meetsRegions s (fieldOf l 8 8) (2 ^ 20) = false ∧ s.trc.base ≠ fieldOf l 8 8) := by
  decide +kernel

/-- WRITE_RECORD: a record the host may not write, one without changes left, a wrong generation, and the first owner key. -/
theorem witness_HostWritesRecords_records :
    (let l := recordBytes 5 1 []
     mayRun0 (stCmd 0x0501 l) 0x0501 l ∧ 20 ≤ l.length ∧ l.length = 8 + fieldOf l 4 4 ∧ fieldOf l 0 1 = 5 ∧ fieldOf l 1 3 = 0) ∧
    (let l := recordBytes 7 1 (List.replicate 8 0)
     let s := { stCmd 0x0501 l with boot := { Boot.reset with state := 1, step := 11, recs := [(7, { gen := 0, left := 0, body := [] })] } }
     mayRun0 s 0x0501 l ∧ fieldOf l 0 1 = 7 ∧ (s.recd 7).left = 0) ∧
    (let l := recordBytes 6 2 ownerBody
     let s := stCmd 0x0501 l
     mayRun0 s 0x0501 l ∧ fieldOf l 0 1 = 6 ∧ (s.recd 6).left ≠ 0 ∧ fieldOf l 12 8 = 0 ∧ fieldOf l 8 2 ≠ (s.recd 6).gen + 1) ∧
    (let l := recordBytes 6 1 ownerBody
     let s := stCmd 0x0501 l
     mayRun0 s 0x0501 l ∧ 20 ≤ l.length ∧ l.length = 8 + fieldOf l 4 4 ∧ fieldOf l 1 3 = 0 ∧ (s.recd 6).left ≠ 0 ∧ fieldOf l 12 8 = 0 ∧
      fieldOf l 8 2 = (s.recd 6).gen + 1 ∧ fieldOf l 10 2 = 0 ∧ layoutOk 6 (l.drop 20) = true ∧
      recSigned (wake s) 6 ((s.recd 6).gen + 1) (fieldOf l 12 8) (l.drop 20) = true ∧ l.drop 20 ≠ (s.recd 6).body) := by decide +kernel

/-- Rewriting record 3 with an equal body. The verdict of the signature is a free value: it is the one hypothesis here. -/
theorem witness_HostWritesRecords_equal (h : ∀ k m g, Config.sigValid k m g = true) :
    let l := leBytes 3 4 ++ leBytes 20 4 ++ leBytes 1 2 ++ [0, 0] ++ leBytes 64 8 ++ List.replicate 8 0
    let s := { stCmd 0x0501 l with boot := { Boot.reset with state := 1, step := 11, recs := [(6, { gen := 1, left := 63, body := ownerBody })] } }
    (mayRun0 s 0x0501 l ∧ (s.recd 3).left ≠ 0 ∧ gddrRange s (fieldOf l 12 8) 7856 = true ∧ fieldOf l 8 2 = (s.recd 3).gen + 1 ∧
      fieldOf l 10 2 = 0 ∧ layoutOk 3 (l.drop 20) = true ∧ l.drop 20 = (s.recd 3).body) ∧
    recSigned (wake s) 3 ((s.recd 3).gen + 1) (fieldOf l 12 8) (l.drop 20) = true := by
  intro l s
  refine ⟨by decide +kernel, ?_⟩
  have h1 : ownerKey (wake s) = some (ownerBody.take 32) := by decide +kernel
  simp only [recSigned, h1, h, Bool.and_true]
  decide +kernel

/-- Partition 0 on benches (2, 0) to (3, 1), which holds Welt port 4. -/
def partW : Part := { partA with x0 := 2 }

/-- OPEN_STREAM_RX of stream 9 from stream 3 of module 5, on these planes, with tally 3 of bench 2 and a window of 4 KiB at 0x1000, which
region 0 of the partition covers. -/
def openRx (planes : Nat) : List Byte :=
  leBytes 9 2 ++ [0, BitVec.ofNat 8 planes] ++ leBytes 5 2 ++ leBytes 3 2 ++ leBytes (2 * 512 + 3) 2 ++ List.replicate 6 0 ++
    leBytes 0x1000 8 ++ leBytes 4096 8

/-- OPEN_STREAM_TX of stream 9 on plane 4 from bench 2 with its connection 1, whose slot 0 leads to port 4's station, 3. -/
def openTx : List Byte := leBytes 9 2 ++ [0, 16] ++ leBytes 5 2 ++ leBytes 3 2 ++ [2] ++ List.replicate 7 0 ++ leBytes (2 ^ 32) 8

def stStream (c : Nat) (l : List Byte) (x : Stream) (d : Slot) : State :=
  { stReady partW [(0, aMailbox c l)] with
    streams := [(9, x)]
    benches := [(3, { Bench.reset with pattern := [(2, BitVec.ofNat 64 (4 * 2 ^ 20))] }), (2, { Bench.reset with
      reg := [(0x6000, BitVec.ofNat 64 (2 ^ 56 + 2 ^ 38))]
      pattern := [(0, BitVec.ofNat 64 (6 * 2 ^ 5 + 3 * 2 ^ 32))]
      tallies := [(3, { Tally.reset with scope := 5 })]
      conns := [(1, BitVec.ofNat 64 (1 + 8 * 3))]
      slots := [(0, d)] })] }

/-- The receive declaration without planes, and with plane 4 while the stream is free and while it is not. -/
theorem witness_StreamsOpenAndClose_rx :
    (∀ e, e < 2 → mayRun0 (stStream 0x0701 (openRx (16 * e)) Stream.reset Slot.reset) 0x0701 (openRx (16 * e)) ∧
      rxCheck (wake (stStream 0x0701 (openRx (16 * e)) Stream.reset Slot.reset)) 0 (16 * e) (fieldOf (openRx (16 * e)) 8 2)
        (fieldOf (openRx (16 * e)) 16 8) (fieldOf (openRx (16 * e)) 24 8) = 1 - e) ∧
    (let l := openRx 16
     let s := stStream 0x0701 l { Stream.reset with state := 1 } Slot.reset
     mayRun0 s 0x0701 l ∧ rxCheck (wake s) 0 16 (fieldOf l 8 2) (fieldOf l 16 8) (fieldOf l 24 8) = 0 ∧ (s.stream 9).state ≠ 0 ∧
      (s.part 0).live = true ∧ l.length = 32 ∧ fieldOf l 0 2 = 9 ∧ fieldOf l 2 1 = 0 ∧ fieldOf l 3 1 = 16 ∧ fieldOf l 10 6 = 0 ∧
      fieldOf l 4 2 = 5 ∧ fieldOf l 6 2 = 3 ∧ fieldOf l 16 8 < 2 ^ 48 ∧ fieldOf l 24 8 < 2 ^ 40) := by decide +kernel

theorem witness_StreamsOpenAndClose_tx :
    let l := openTx
    let s := stStream 0x0702 l Stream.reset Slot.reset
    mayRun0 s 0x0702 l ∧ l.length = 24 ∧ fieldOf l 8 1 < 128 ∧ fieldOf l 9 7 = 0 ∧
      (∀ w, w < 8 → bit 16 w = true → bits (fieldOf l 16 8) (8 * w + 7) (8 * w) < 64) ∧
      txCheck (wake s) 0 16 (fieldOf l 8 1) (packConns (fieldOf l 16 8) 16) = 0 ∧ (s.stream 9).state = 0 := by decide +kernel

/-- Closing while a descriptor posts, after the last, and of a free stream; the transport's greatest settings. -/
theorem witness_StreamsOpenAndClose :
    let l := leBytes 9 2
    let d := { Slot.reset with cls := 2, remote := 9 * 2 ^ 28, state := 1 }
    let x := { Stream.reset with state := 1, sbench := 2 }
    let t := leBytes 1000 2 ++ [31, 0]
    (mayRun0 (stStream 0x0703 l x d) 0x0703 l ∧ openDescs (stStream 0x0703 l x d) 9 ≠ [] ∧
      ((stStream 0x0703 l x d).part x.part).live = true) ∧
    (mayRun0 (stStream 0x0703 l x Slot.reset) 0x0703 l ∧ openDescs (stStream 0x0703 l x Slot.reset) 9 = []) ∧
    ((stStream 0x0703 l Stream.reset d).stream 9).state = 0 ∧
    (mayRun0 (stCmd 0x0704 t) 0x0704 t ∧ t.length = 4 ∧ fieldOf t 0 2 = 1000 ∧ fieldOf t 2 1 = 31 ∧ fieldOf t 3 1 = 0) := by
  decide +kernel

theorem witness_HostMovesAndImages :
    (let l := leBytes 0 8
     let l2 := leBytes 0x050000000000 8
     mayRun0 (stCmd 0x0801 l) 0x0801 l ∧ mapped (stCmd 0x0801 l) 0 = true ∧ mayRun0 (stCmd 0x0801 l2) 0x0801 l2 ∧
      mapped (stCmd 0x0801 l2) 0x050000000000 = false) ∧
    (let l := leBytes 0 8 ++ leBytes 0x2000 8
     mayRun0 (stCmd 0x0A01 l) 0x0A01 l ∧ l.length = 16 ∧ gddrRange (stCmd 0x0A01 l) 0 (fieldOf l 8 8) = true ∧
      imageOk (wake (stCmd 0x0A01 l)) 0 (fieldOf l 8 8) = false) := by decide +kernel

/-- A move of nothing, and the response of a move's last piece, to the host and from it. -/
theorem witness_HostMovesAndImages_moves :
    (let l := leBytes 0 16 ++ leBytes 0 8
     mayRun0 (stCmd 0x0802 l) 0x0802 l ∧ l.length = 24 ∧ fieldOf l 4 4 = 0 ∧ gddrRange (stCmd 0x0802 l) (fieldOf l 16 8) 0 = true) ∧
    (∀ up : Bool, let v : HostMove := ⟨5, 0, 0, up, 0x10000, 0x40, 64, [], true⟩
     let s := { stCmd 0x0802 [] with fmn := { (stCmd 0x0802 []).fmn with moves := [v] } }
     s.fmn.moves.find? (fun y => decide (y.serial = 5)) = some v ∧ v.left ≤ hostPiece v.addr v.left ∧ (s.mbox v.mbox).order ≠ 0 ∧
      plainPacket (.hostBack v.serial [1] false) = true) ∧
    (∀ (s : State) p, plainPacket p = true → nextPacket { s with ring := [pkt hostStop p] } (fun p => p.dst = hostStop ∧ plainPacket p.msg = true)
      (pkt hostStop p) { s with ring := [] }) :=
  ⟨by decide +kernel, by decide +kernel, fun _ p h => ⟨[], [], rfl, fun _ h => absurd h List.not_mem_nil, rfl, ⟨rfl, h⟩, rfl⟩⟩

theorem witness_HostMovesAndImages_more :
    (∀ e, e < 2 → ∀ a, a ∈ [0, 0x00FFFFFFFFC1] →
      (fun (l : List Byte) => mayRun0 (stCmd 0x0802 l) 0x0802 l ∧ l.length = 24 ∧ fieldOf l 1 3 = 0 ∧ fieldOf l 4 4 % 64 = 0 ∧
        fieldOf l 0 1 = e ∧ gddrRange (stCmd 0x0802 l) (fieldOf l 16 8) (fieldOf l 4 4) = decide (a = 0))
      (leBytes e 4 ++ leBytes 64 4 ++ leBytes 0x10000 8 ++ leBytes a 8)) ∧
    (∀ k, k < 2 → mayRun0 (stCmd 0x0A02 (leBytes k 1)) 0x0A02 (leBytes k 1) ∧ fieldOf (leBytes k 1) 0 1 = k ∧
      slotOk (stCmd 0x0A02 (leBytes k 1)) k = decide (k = 0)) := by decide +kernel

/-- An image of one byte at module address 0. -/
def anImage : Mem := [(0, 0x31), (1, 0x4D), (2, 0x46), (3, 0x57), (8, 1)]

/-- A sound image. The verdict of the signature is a free value: it is the one hypothesis here. -/
theorem witness_HostMovesAndImages_sound (h : ∀ k m g, Config.sigValid k m g = true) :
    let l := leBytes 0 8 ++ leBytes 0x2000 8
    let s := { stCmd 0x0A01 l with mem := anImage }
    (mayRun0 s 0x0A01 l ∧ gddrRange s 0 (fieldOf l 8 8) = true) ∧ imageOk (wake s) 0 (fieldOf l 8 8) = true := by
  intro l s
  refine ⟨by decide +kernel, ?_⟩
  simp only [imageOk, h, Bool.and_true]
  decide +kernel

/-- A module whose record 0 holds this identity key. -/
def stIdentity (l : List Byte) (key : Nat) (x : Attest) : State :=
  { stCmd 0x0503 l with
    boot := { Boot.reset with
      state := 1
      step := 11
      recs := [(0, { gen := 0, left := 0, body := List.replicate 16 0 ++ leBytes key 32 })] }
    fmn := { (stCmd 0x0503 l).fmn with attest := [(0, x)] } }

theorem identity_iff (l : List Byte) (key : Nat) (x : Attest) (h : key < 256 ^ 32) :
    identityOk (stIdentity l key x) = decide ((Config.pufKey 0).toNat = key) := by
  have h1 : ((stIdentity l key x).recd 0).body = List.replicate 16 0 ++ leBytes key 32 := rfl
  have h2 : (stIdentity l key x).boot.keyNo = 0 := rfl
  have h3 : (leBytes key 32).length = 32 := by simp [leBytes]
  rw [identityOk, h1, h2, List.drop_append_of_le_length (by simp)]
  have h4 : List.drop 16 (List.replicate 16 (0 : Byte)) = [] := by decide
  rw [h4, List.nil_append, List.take_of_length_le (by omega), Laws.leNat_leBytes, Nat.mod_eq_of_lt h]

/-- The derived key is the recorded one, or another. -/
theorem witness_AttestationAndCrewCommands_identity :
    let l : List Byte := 1 :: List.replicate 31 0
    (∃ k, identityOk (stIdentity l k Attest.reset) = false) ∧
    (∃ k, identityOk (stIdentity l k Attest.reset) = true ∧ (attestOf (stIdentity l k Attest.reset) 0).nonce ≠ l) ∧
    (∃ k, let x := { Attest.reset with nonce := l, signed_ := true }
      identityOk (stIdentity l k x) = true ∧ (attestOf (stIdentity l k x) 0).nonce = l ∧ (attestOf (stIdentity l k x) 0).signed_ = true) := by
  intro l
  have hp : (Config.pufKey 0).toNat < 256 ^ 32 := by have := (Config.pufKey 0).isLt; omega
  refine ⟨?_, ⟨(Config.pufKey 0).toNat, ?_, ?_⟩, ⟨(Config.pufKey 0).toNat, ?_, rfl, rfl⟩⟩
  · by_cases h : (Config.pufKey 0).toNat = 0
    · refine ⟨1, ?_⟩
      rw [identity_iff _ _ _ (by decide), h]
      rfl
    · refine ⟨0, ?_⟩
      rw [identity_iff _ _ _ (by decide)]
      simp [h]
  · rw [identity_iff _ _ _ hp]; simp
  · show [] ≠ l
    simp [l]
  · rw [identity_iff _ _ _ hp]; simp

/-- CREW_JOIN of module 16383 as manager or managed, and CREW_RELAY of a code to module 5. -/
def joinBytes (k : Nat) : List Byte := leBytes k 2 ++ leBytes 16383 2 ++ List.replicate 32 7

def stRelay (c : Nat) : State :=
  { stCmd 0x0603 (leBytes 5 2 ++ leBytes c 2) with fmn := { (stCmd 0x0603 (leBytes 5 2 ++ leBytes c 2)).fmn with managed := [⟨5, [], 0, 0, 0⟩] } }

/-- Mailbox 0 waits for module 5 until 2 s. -/
def stRelayed (tb : Nat) : State :=
  { stReady partA [(0, { aMailbox 0x0603 [5, 0, 1, 3] with relay := some (5, 0, 2000000000) })] with tb := tb }

theorem witness_AttestationAndCrewCommands :
    (∀ k, k < 2 → mayRun0 (stIdentity (1 :: List.replicate 31 0) k Attest.reset) 0x0503 (1 :: List.replicate 31 0)) ∧
    (attestOf (stIdentity [] 0 { Attest.reset with nonce := [1] }) 0).signed_ = false ∧
    (attestOf (stIdentity [] 0 { Attest.reset with nonce := [1] }) 0).nonce ≠ [] ∧
    (∀ k, k < 2 → mayRun0 (stCmd 0x0601 (joinBytes k)) 0x0601 (joinBytes k) ∧ (joinBytes k).length = 36 ∧ fieldOf (joinBytes k) 1 1 = 0 ∧
      fieldOf (joinBytes k) 2 2 = 16383 ∧ fieldOf (joinBytes k) 0 1 = k) := by decide +kernel

theorem witness_AttestationAndCrewCommands_relay :
    (∀ c, c ∈ [0x0301, 0x0501] → mayRun0 (stRelay c) 0x0603 (leBytes 5 2 ++ leBytes c 2) ∧ fieldOf (leBytes 5 2 ++ leBytes c 2) 2 2 = c ∧
      notRelayed c = decide (c = 0x0501)) ∧ (⟨5, [], 0, 0, 0⟩ : Managed) ∈ (stRelay 0x0301).fmn.managed ∧
    (∀ k, k < 2 → ((stRelayed (1999999999 + k)).mbox 0).relay = some (5, 0, 2000000000) ∧ ((stRelayed (1999999999 + k)).mbox 0).order ≠ 0) := by
  decide +kernel

/-- A read of two bytes by PF0, begun at timebase 0. -/
def aHostRead : HostRead := ⟨5, 0, 64, 64, 2, 0, []⟩

/-- The module with the read waiting at timebase `tb`. -/
def stHostRead (tb : Nat) : State :=
  { stReady partA [] with
    tb := tb
    fmn := { (stReady partA []).fmn with hostReads := [aHostRead] } }

/-- A write of the host for device 0. -/
def aHostWrite : HostReq := ⟨5, 0, true, 64, 2, [1, 2], false, false⟩

/-- A write that reaches its controller, a read's data and its error, and a read that has waited 900 us and one that has not. -/
theorem witness_HostWindows_ring :
    let s := stHostRead 900000
    (∀ (d : Nat) m, plainPacket m = true → nextPacket { s with ring := [pkt d m] } (fun p => p.dst = d ∧ plainPacket p.msg = true) (pkt d m)
      { s with ring := [] }) ∧
    plainPacket (.host aHostWrite) = true ∧ memMappedOut s (aHostWrite.addr / 2 ^ 36) = false ∧ s.bad = [] ∧
    (∀ e : Bool, plainPacket (.hostBack 5 [1, 2] e) = true) ∧ s.fmn.moves.find? (fun y => decide (y.serial = aHostRead.serial)) = none ∧
    s.fmn.hostReads.find? (fun y => decide (y.serial = aHostRead.serial)) = some aHostRead ∧
    aHostRead.len ≤ aHostRead.got.length + [(1 : Byte), 2].length ∧ s.fmn.hostReads = [] ++ aHostRead :: [] ∧
    aHostRead.since + 900000 ≤ s.tb ∧
    (∀ y ∈ (stHostRead 899999).fmn.hostReads, ¬(y.fn = 0 ∧ y.off = 64 ∧ y.since + 900000 ≤ (stHostRead 899999).tb)) :=
  ⟨fun _ m h => ⟨[], [], rfl, fun _ h => absurd h List.not_mem_nil, rfl, ⟨rfl, h⟩, rfl⟩, by decide +kernel⟩

theorem witness_HostWindows :
    let s := stReady partA []
    let w := fun (b : Bool) => ({ write := b, len := 2, bytes := [1, 2], poisoned := false, unc := false } : HostAccess)
    pcieUp s = true ∧ bar2Why s 0 (apertureAddr s 0 64) (w true) = 0 ∧ bar2Why s 0 (apertureAddr s 0 64) (w false) = 0 ∧ dieReset s = false ∧
    dieReset { s with resets := [⟨.die, true, 0, []⟩] } = true ∧
    bar2Why s 8 (apertureAddr s 8 64) (w true) ≠ 0 ∧ bar2Why s 0 (apertureAddr s 0 0x010000000000) (w false) ≠ 0 ∧
    0x0FFFFE + (w false).len ≤ 2 ^ s.trc.slog ∧ s.trc.slog ≤ 27 ∧ funcOf s 0 = 0 := by decide +kernel

/-- Core 3 of partition 0 and I/O unit 0: sound, fenced, and with one report before; the tally slice of bench 1 of the partition. -/
theorem witness_ErrorsAreCounted :
    let s := fun (l : List (Nat × Bool)) (f : Bool) => { stReady partA [] with tb := 86400000000000, faults := [⟨0, 3, l, f, b2n f⟩, ⟨6, 16, l, f, b2n f⟩] }
    (s [] false).board.island = true ∧ (s [] false).pwr.wstate < 3 ∧ 3 < [512, 128, 128, 512, 16, 8, 17].getD 0 0 ∧
    16 < [512, 128, 128, 512, 16, 8, 17].getD 6 0 ∧
    (unitAt (s [] true) 0 3).fenced = true ∧ (unitAt (s [] false) 0 3).fenced = false ∧
    lasting (s [] false) ((86400000000000, true) :: (unitAt (s [] false) 0 3).events) true = false ∧
    lasting (s [(0, true)] false) ((86400000000000, true) :: (unitAt (s [(0, true)] false) 0 3).events) true = false ∧
    lasting (s [(1, true)] false) ((86400000000000, true) :: (unitAt (s [(1, true)] false) 6 16).events) true = true ∧
    unitPart (s [(1, true)] false) 6 16 = none ∧
    unitPart (s [] false) 2 1 = some 0 ∧ unitPart (s [] false) 1 1 = some 0 ∧ ((s [] false).part 0).live = true := by decide +kernel
/-! ## Power, start-up, the board and the trace (R586 to R728), and the step -/

/-- A powered module in Ready at timebase 3 ms with these power settings, partition 0 as given. -/
def stPower (q : Part) (p : Power) : State := { stReady q [] with tb := 3000000, pwr := { p with hostCap := 750 } }

/-- No program of partition 0 is loaded. -/
def partE : Part := { partA with progs := [] }

theorem witness_CapLoopSteps :
    let s := stPower partE { Power.reset with op := 6 }
    atMs s.pwr.lastTick s = true ∧ atMs { s with tb := 3000001 }.pwr.lastTick { s with tb := 3000001 } = false ∧ s.board.wetarOn = true ∧
    s.pwr.fixed = false ∧ 10 * capNow s < 7501 ∧ ¬ 10 * capNow s < 7500 ∧ s.pwr.op < 7 ∧ 5000 ≤ 10 * capNow s ∧ ceilNow s < s.pwr.op ∧
    s.pwr.src = 0 ∧ s.pwr.lastDown = none ∧ fitsUp 5000 s.pwr.op (capNow s) = true ∧ s.pwr.goal = none ∧ bit s.pwr.src 3 = false ∧ s.pwr.stepTo = none ∧
    (stPower partE { Power.reset with stepTo := some 6 }).pwr.stepTo = some 6 := by decide +kernel

theorem witness_FastLimitSlowsTheDie :
    let s := stPower partE { Power.reset with op := 6 }
    let t := stPower partE { Power.reset with op := 6, src := 1, lastFast := some 2990000 }
    s.board.island = true ∧ s.board.wetarOn = true ∧ s.pwr.src = 0 ∧ s.pwr.fixed = false ∧ s.pwr.stepTo = none ∧ s.pwr.op < 7 ∧
    t.pwr.lastFast = some 2990000 ∧ t.board.wetarOn = true ∧ t.pwr.src &&& 0x17 ≠ 0 ∧ t.pwr.stepTo = none ∧ t.pwr.op < 7 ∧
    2990000 + 10000 ≤ t.tb ∧ ¬ 2990000 + 10000 ≤ { t with tb := 2999999 }.tb := by decide +kernel

theorem witness_PowerIsLost :
    let s := { stPower partE Power.reset with mem := [(0, 7), (0x010000000000, 9)] }
    s.board.wetarOn = true ∧ s.mem ≠ [] := by decide +kernel

/-- A millisecond at which one bench has counted activity, and one after a sleep. -/
theorem witness_LedgerCharges :
    let s := { stPower partE Power.reset with benches := [(3, { Bench.reset with act := [(0x6800, 5)] })] }
    let w := stPower partE { Power.reset with slept := true }
    atMs s.pwr.lastSnap s = true ∧ s.pwr.slept = false ∧ s.cores = [] ∧ (s.benches.map (·.1)).Nodup ∧ 3 ∈ s.benches.map (·.1) ∧
    0x6800 ∈ actOffsets ∧ 0x6858 ∈ actOffsets ∧ atMs { s with tb := 3000001 }.pwr.lastSnap { s with tb := 3000001 } = false ∧
    atMs w.pwr.lastSnap w = true ∧ w.pwr.slept = true := by decide +kernel

/-- A module at start-up step `n`, with PERST_N and these boot settings. -/
def stBoot (n : Nat) (perst : Bool) (b : Boot) : State :=
  { State.reset with board := { Board.reset with island := true, perst := perst }, boot := { b with step := n } }

def aReport : StepReport :=
  { recordBad := false, retrain := false, badCores := [], badStations := [], badMem := [], badWelt := [], moduleBad := false, ucieBad := false,
    gddrFail := [], ethFail := [], pcieLow := false, cxlAttached := false, cxlFail := false, cxlGiB := 0 }

theorem witness_StartUpSteps :
    State.reset.board.island = false ∧
    (∀ n, n < 10 → (stBoot (n + 1) true Boot.reset).board.island = true ∧ (stBoot (n + 1) true Boot.reset).board.refclk = true ∧
      (stBoot (n + 1) true Boot.reset).pwr.wstate < 3 ∧ (stBoot (n + 1) true Boot.reset).boot.state = 0 ∧
      (stBoot (n + 1) true Boot.reset).board.thermTrip = false ∧ (stBoot (n + 1) true Boot.reset).boot.step = n + 1) ∧
    (stBoot 7 false Boot.reset).board.perst = false ∧ slotOk (stBoot 3 true Boot.reset) 0 = true ∧ slotOk (stBoot 3 true Boot.reset) 1 = false ∧
    (let one := stBoot 3 true { Boot.reset with selector := 1 }
     slotOk one one.boot.selector = false ∧ slotOk one (1 - one.boot.selector) = true) ∧
    (let none := stBoot 3 true { Boot.reset with recs := [(5, { gen := 1, left := 0, body := [] })] }
     slotOk none 0 = false ∧ slotOk none 1 = false) := by decide +kernel

/-- Steps 4, 8, 9 and 10 as they end well and badly: two bad columns in a row cannot be hidden; all 16 devices fail. -/
theorem witness_StartUpSteps_reports :
    let all := List.range 16
    { aReport with recordBad := true }.recordBad = true ∧ { aReport with moduleBad := true }.moduleBad = true ∧
    (cobble (stBoot 9 true Boot.reset)).1 = true ∧ (cobble (stBoot 9 true { Boot.reset with badStations := [(2, 0), (3, 0)] })).1 = false ∧
    { aReport with ucieBad := true }.ucieBad = true ∧
    ((stBoot 10 true Boot.reset).boot.memOut ||| portBits aReport.gddrFail) % 2 ^ 16 ≠ 2 ^ 16 - 1 ∧
    ((stBoot 10 true Boot.reset).boot.memOut ||| portBits { aReport with gddrFail := all }.gddrFail) % 2 ^ 16 = 2 ^ 16 - 1 := by decide +kernel

/-- The idle ladder without a partition, and with one. -/
def stIdle (w tb : Nat) : State :=
  { stReady Part.reset [] with
    tb := tb
    pwr := { Power.reset with wstate := w } }

theorem witness_IdleLadder :
    (∀ e, e < 2 → ready (stIdle 0 (999999 + e)) = true ∧ (stIdle 0 (999999 + e)).board.wetarOn = true ∧ quietNow (stIdle 0 (999999 + e)) = true ∧
      ((stIdle 0 (999999 + e)).pwr.idleSince + 1000000 ≤ (stIdle 0 (999999 + e)).tb ↔ e = 1) ∧
      ((stIdle 1 (99999999 + e)).pwr.idleSince + 100000000 ≤ (stIdle 1 (99999999 + e)).tb ↔ e = 1)) ∧
    (stIdle 1 0).pwr.wstate = 1 ∧ mayDoze (stIdle 0 0) = true ∧ mayDoze (stReady partE []) = false ∧
    (∀ w, w < 2 → let s := { stIdle (w + 3) 0 with board := { Board.reset with island := true } }
      s.pwr.wstate = w + 3 ∧ s.board.island = true ∧ s.board.perst = false) := by decide +kernel

theorem witness_I3cTarget :
    (stIdle 0 0).board.island = true ∧ mayDoze (stIdle 0 0) = true ∧ 0x41 ≤ 0x41 ∧ (6 : Byte).toNat % 8 = 6 ∧ (0xFF : Byte).toNat % 8 = 7 := by
  decide +kernel

/-- The collector holds a record for both destinations, the buffer half a line, and at its end it stops or wraps; core 3 counts cycles,
its context 0 runs, or in shared issue mode only context 1. -/
theorem witness_TraceLeavesTheCollector :
    let r : List Byte := List.replicate 32 5
    let s := { stReady partA [] with trc := { Trace.reset with queue := [(3, r), (2, r)], line := List.replicate 32 6 } }
    let w := fun (ctl : Nat) => { s with trc := { s.trc with
      ctl := BitVec.ofNat 64 ctl
      slog := 6 } }
    let k := fun (c : CtxState) => { stReady partA [] with cores := [(3, { Core.reset with
      cycFrom := some 0, ctxs := [(0, { Ctx.reset 0 with st := c, pc := 0xFFFFF })] })] }
    let next := { stReady partA [] with cores := [(3, { Core.reset with
      cycFrom := some 0
      sr := [(0x120, 1)]
      ctxs := [(0, { Ctx.reset 0 with st := .park }), (1, { Ctx.reset 1 with
        st := .run
        pc := 0xFFFFF })] })] }
    s.board.wetarOn = true ∧ s.trc.queue = (3, r) :: [(2, r)] ∧ s.trc.stopped = false ∧ bit 3 0 = true ∧ bit 3 1 = true ∧
    bit 2 0 = false ∧ s.trc.line.length = 32 ∧ r.length = 32 ∧ ¬ 2 ^ s.trc.slog ≤ s.trc.off + 64 ∧
    2 ^ (w 0).trc.slog ≤ (w 0).trc.off + 64 ∧ (w 0).trc.ctl.getLsbD 3 = false ∧ (w 8).trc.ctl.getLsbD 3 = true ∧
    { w 0 with trc := { (w 0).trc with stopped := true } }.trc.stopped = true ∧ State.reset.board.wetarOn = false ∧
    ((s.core 3).cycFrom = none) ∧ ((k .run).core 3).cycFrom.isSome ∧ cyc (k .run) 3 % 2 ^ bits (k .run).trc.ctl.toNat 8 4 = 0 ∧
    canIssue (k .run) ⟨3, slotOwner (k .run) 3⟩ = true ∧ canIssue (k .park) ⟨3, slotOwner (k .park) 3⟩ = false ∧
    ((k .run).ctx ⟨3, slotOwner (k .run) 3⟩).pc.toNat < 0x100000 ∧
    nCtx (k .park) 3 = 8 ∧ slotOwner next 3 = 0 ∧ canIssue next ⟨3, 0⟩ = false ∧ nCtx next 3 ≠ 8 ∧ (next.ctx ⟨3, 0⟩).spinFrom = none ∧
    1 < nCtx next 3 ∧ canIssue next ⟨3, (0 + 1) % nCtx next 3⟩ = true ∧ (next.ctx ⟨3, 1⟩).pc.toNat < 0x100000 := by decide +kernel

theorem witness_StepRunsTheFrontCommand :
    ∃ s : State, s.pending = .nop t0 :: [.refclkLoss] := ⟨{ State.reset with pending := [.nop t0, .refclkLoss] }, rfl⟩

theorem witness_AnEmptyQueueTicks :
    State.reset.pending = [] ∧ State.reset.board.island = false ∧ (stIdle 0 0).pending = [] ∧ (stIdle 0 0).board.island = true ∧
    (stIdle 0 0).board.refclk = true := by decide +kernel

/-- A state with the invariant, which the powering of the module leaves by a step. -/
theorem witness_StepKeepsStateInv :
    let s := { State.reset with mem := [(5, 1)], pending := [.powerOn 3] }
    StateInv s ∧ ∃ t, step s = .next t :=
  ⟨⟨by decide +kernel, ⟨by decide, nofun, nofun, by decide⟩, ⟨by decide, by decide, by decide⟩⟩, _, rfl⟩

theorem witness_ResetColumns : 0 < 7 := by decide

/-! ## Well-formedness: an ill-formed command for each check -/

/-- Every check refuses a command that breaks it alone. -/
theorem test_wf_refuses :
    [Instr.nop ⟨512, 0⟩, .nop ⟨0, 8⟩, .literalRun t0 [], .literalRun t0 [64], .tileOpStart 512, .assayWindowStart 128, .channelDrain 0 16,
      .channelDrain 512 0, .queueArm (.thread ⟨512, 0⟩) 0 0 0, .pathRelease 0 64, .memoryRequest 16, .generationDeferEnd 65536,
      .meshCycle ⟨[⟨128, 0, true⟩], []⟩, .meshCycle ⟨[⟨0, 7, true⟩], []⟩].map Instr.wf = List.replicate 14 false := by decide +kernel

theorem test_wf_refuses_operands :
    [Instr.shareClassWrite .foreman 0 0x1000 0, .counterClear .foreman (.sys t0 0x1000), .counterClear .foreman (.sys ⟨0, 8⟩ 0),
      .counterClear .foreman (.blk 0xEFFFFFFFFFFF), .registerWrite .foreman (.blk (2 ^ 48)) 0, .ucnn t0 32, .frameStart 8, .weltPacketSend 8,
      .weltFrameReceive 0 { aFrame 0 0 0 with header := [] }, .weltFrameReceive 0 { aFrame 0 0 0 with fec := 3 }, .ackTimer 32768,
      .getInfo 512, .mailboxHandover 0 65536 1 [], .resetPoint (.core 512), .resetPoint (.part 8), .resetEnd (.bench 128)].map Instr.wf =
      List.replicate 16 false := by decide +kernel

theorem test_wf_refuses_board :
    [Instr.attestationSigned 9, .bar2Access 0 0 ⟨true, 1, [1, 2], false, false⟩, .bar2Access 9 0 ⟨true, 2, [1, 2], false, false⟩,
      .errorReport 8 0 true, .capTick 65536 0 0 0, .ledgerSnapshot 0 0 256, .fastLimitTrip 5, .thermalTrip 256, .powerOn 16, .idleExit 3,
      .i3cWrite 65536 [], .dynamicAddressAssign 128, .crewRelayTimeout 512].map Instr.wf = List.replicate 13 false := by decide +kernel

theorem test_wf_admits :
    [Instr.nop ⟨511, 7⟩, .literalRun t0 [63], .ucnn t0 31, .registerWrite .foreman (.blk (2 ^ 48 - 1)) 0, .weltFrameReceive 7 (aFrame 0 0 0),
      .capTick 65535 65535 65535 255, .bar2Access 8 0 ⟨true, 2, [1, 2], false, false⟩].all Instr.wf = true := by decide +kernel

theorem witness_CommandsKeepWhatTheyDoNotTouch :
    Field.boot ∉ touches (.add t0) ∧ Field.boot ∉ touches .clickerServe ∧ Field.pending ∉ touches (.resetEnd .die) := by decide +kernel

end Sys2Proof.Tests
end

section
/-! PROOFS. O44: the switch between programs, the preamble and the ramp-down. -/

namespace Sys2Proof.ModuleProofs
open Sys2Proof Sys2Proof.Machine Sys2Proof.Laws

/-! ## The parts that an operation leaves alone, read through `Within` -/

theorem part_of_within {F : List Field} {s u : State} (h : Within F s u) (hp : Field.parts ∉ F) (p : Nat) :
    u.part p = s.part p := congrArg (tblGet partD · p) (h.out .parts hp)

theorem core_of_within {F : List Field} {s u : State} (h : Within F s u) (hc : Field.cores ∉ F) (c : Nat) :
    u.core c = s.core c := congrArg (tblGet coreD · c) (h.out .cores hc)

/-! ## A program is brought in (R39, R579) -/

/-- The parts that putting a program's state into its benches may change besides its entry in the partition. -/
def placed : List Field := [.mem, .bad, .cores, .benches, .clicker, .ring]

theorem putPackage_cur (p k : Nat) (s : State) : ((putPackage p k s).part p).cur = k + 1 := by
  simp [putPackage]

theorem installFresh_cur (p k : Nat) (s : State) : ((installFresh p k s).part p).cur = k + 1 := by
  simp only [installFresh, updPart_part, Part.updProg_cur]
  rw [part_of_within (s := putPackage p k s) (F := placed) ?_ (by decide), putPackage_cur]
  refine forAll_within (Within.set_clicker (by decide) ?_) fun e v hv => ?_
  · refine forAll_within (forAll_within (forAll_within (forAll_within (forAll_within (forAll_within (forAll_within
      (Within.refl _ _) ?_) ?_) ?_) ?_) ?_) ?_) ?_
    · exact fun _ _ hv => State_updBench_within (by decide) hv _ _
    · exact fun _ _ hv => State_updCore_within (by decide) hv _ _
    · exact fun _ _ hv => setEntry_within (by decide) hv _ _ _
    · exact fun _ _ hv => setConn_within (by decide) hv _ _ _
    · exact fun _ _ hv => State_updBench_within (by decide) hv _ _
    · exact fun _ _ hv => write_within (by decide) hv _ _
    · exact fun _ _ hv => queueWrite_within (by decide) hv _ _ _ _
  · split
    · exact cutPath_within (by decide) hv _ _ _ _ _ (_, _) ‹_›
    · exact hv

theorem restoreProg_cur (p k : Nat) (sv : Saved) (s : State) : ((restoreProg p k sv s).part p).cur = k + 1 := by
  simp only [restoreProg, updPart_part, Part.updProg_cur]
  rw [part_of_within (s := putPackage p k s) (F := placed) ?_ (by decide), putPackage_cur]
  refine forAll_within (Within.set_clicker (by decide) ?_) fun e v hv => forAll_within hv fun _ _ hv =>
    ringPut_within (by decide) hv _ _ _
  refine forAll_within (forAll_within (forAll_within (restoreImages_within (by decide) (Within.refl _ _) _ _) ?_) ?_) ?_
  · exact fun _ _ hv => State_updCtx_within (by decide) hv _ _
  · exact fun _ _ hv => State_updBench_within (by decide) hv _ _
  · exact fun _ _ hv => write_within (by decide) hv _ _

/-- The program brought in is the one in place, fresh or restored. -/
theorem bringIn_cur (p k : Nat) (s : State) : ((bringIn p k s).part p).cur = k + 1 := by
  unfold bringIn
  split
  · split
    · exact installFresh_cur p k s
    · exact restoreProg_cur p k _ s
  · exact installFresh_cur p k s

/-! ## TIME_SLICE_SWITCH (R38, R579) -/

/-- A partition at its frame boundary whose next program is not in place, and whose benches are still. -/
structure SwitchDue (s : State) (p k : Nat) : Prop where
  next : nextProg (s.part p) = some k
  ready : partReady (s.part p) = true
  idle : (s.part p).frame = .idle
  away : (s.part p).cur ≠ k + 1
  still : ∀ b, b ∈ benchesOf s p → benchStill (s.bench b) = true

theorem timeSliceSwitch_marks {s : State} {p k : Nat} (h : SwitchDue s p k) (hm : (s.part p).marked = false) :
    timeSliceSwitch p s = s.updPart p (fun q => { q with marked := true }) := by
  have hall : (benchesOf s p).all (fun b => benchStill (s.bench b)) = true := List.all_eq_true.mpr h.still
  simp [timeSliceSwitch, h.next, h.ready, h.idle, h.away, hall, hm]

theorem timeSliceSwitch_switches {s : State} {p k : Nat} (h : SwitchDue s p k) (hm : (s.part p).marked = true) :
    ((timeSliceSwitch p s).part p).marked = false ∧ ((timeSliceSwitch p s).part p).cur = k + 1 := by
  have hall : (benchesOf s p).all (fun b => benchStill (s.bench b)) = true := List.all_eq_true.mpr h.still
  simp [timeSliceSwitch, h.next, h.ready, h.idle, h.away, hall, hm, bringIn_cur]

/-! ## Ramps (R588 to R590) -/

theorem foldl_add_le_foldl_add {α : Type} (g : α → Nat) (l : List α) {a b : Nat} (h : a ≤ b) :
    l.foldl (fun n x => n + g x) a ≤ l.foldl (fun n x => n + g x) b := by
  induction l generalizing a b with
  | nil => exact h
  | cons x r ih => exact ih (Nat.add_le_add_right h _)

/-- Where a faster ramp has room, a slower one has. -/
theorem rampRoom_mono {s : State} {r r' : Nat} (hr : r ≤ r') (h : rampRoom s r' = true) : rampRoom s r = true :=
  decide_eq_true ((foldl_add_le_foldl_add _ _ hr).trans (of_decide_eq_true h))

theorem beginRamp_ramp (p dir e : Nat) (s : State) : ((beginRamp p dir e s).part p).ramp = dir := by simp [beginRamp]

theorem beginRamp_rampEnd (p dir e : Nat) (s : State) :
    ((beginRamp p dir e s).part p).rampEnd = s.tb + max 2000000 (2000 * e) := by simp [beginRamp]

theorem forAll_clockOn_part (l : List Nat) (s : State) (p : Nat) : (forAll l clockOn s).part p = s.part p :=
  part_of_within (F := [.cores]) (forAll_within (Within.refl _ _) fun _ _ hv => clockOn_within (List.Subset.refl _) hv _) (by decide) p

theorem clockOff_cycFrom (c j : Nat) (s : State) :
    ((clockOff c s).core j).cycFrom = if c = j then none else (s.core j).cycFrom := by
  have hc : ∀ i, (countActive c s).core i = s.core i :=
    core_of_within (F := [.benches]) (countActive_within (List.Subset.refl _) (Within.refl _ _) _) (by decide)
  unfold clockOff
  rw [updCore_get, hc, hc]
  split
  · cases h : (s.core c).cycFrom <;> simp [h]
  · rfl

/-- Clocks turned off one after the other are off, and every other core's is as it was. -/
theorem forAll_clockOff_cycFrom (l : List Nat) (j : Nat) (s : State) :
    ((forAll l clockOff s).core j).cycFrom = if j ∈ l then none else (s.core j).cycFrom := by
  induction l generalizing s with
  | nil => simp [forAll]
  | cons c r ih =>
    have hstep : forAll (c :: r) clockOff s = forAll r clockOff (clockOff c s) := rfl
    rw [hstep, ih, clockOff_cycFrom]
    by_cases hr : j ∈ r
    · simp [hr]
    · simp [hr, eq_comm]

theorem preamble_begins {s : State} {p k : Nat} (hn : nextProg (s.part p) = some k) (hl : (s.part p).live = true)
    (hw : s.board.wetarOn = true) (h0 : (s.part p).ramp = 0)
    (hr : rampRoom s (min (envNow s ((s.part p).prog k)) 1000) = true) :
    (preamble p s).part p = (beginRamp p 3 (envNow s ((s.part p).prog k)) s).part p := by
  calc (preamble p s).part p
      = (forAll (coresOf s p) clockOn (beginRamp p 3 (envNow s ((s.part p).prog k)) s)).part p := by
        simp only [preamble, hn, hl, hw, h0, hr]
        rfl
    _ = _ := forAll_clockOn_part ..

theorem preamble_ramping {s : State} {p k : Nat} (hn : nextProg (s.part p) = some k) (hl : (s.part p).live = true)
    (hw : s.board.wetarOn = true) (h3 : (s.part p).ramp = 3) :
    preamble p s = if (s.part p).rampEnd ≤ s.tb then s.updPart p (fun q => { q with ramp := 1 }) else s := by
  simp [preamble, hn, hl, hw, h3]

theorem rampDown_begins {s : State} {p : Nat} (hl : (s.part p).live = true) (h4 : (s.part p).ramp = 4)
    (hi : (s.part p).frame = .idle) (hr : rampRoom s 1000 = true) :
    ∃ e, rampDown p s = beginRamp p 2 e s := by
  have hroom := fun e => rampRoom_mono (Nat.min_le_right e 1000) hr
  exact ⟨_, by simp only [rampDown, hl, h4, hi, hroom]; rfl⟩

theorem rampDown_ramping {s : State} {p : Nat} (h2 : (s.part p).ramp = 2) :
    rampDown p s = if (s.part p).rampEnd ≤ s.tb then
      (forAll (coresOf s p) clockOff (touch s)).updPart p (fun q => { q with ramp := 0 }) else s := by
  simp [rampDown, h2]

/-- Settles O44: the switch's two halves and the ramps' beginning and end are the branches of the three commands; that the program
is in place after the switch is `bringIn_cur`. -/
theorem switchesAndRamps : Obligations.SwitchesAndRamps := by
  intro s p k hp q
  have hswitch : exec (.timeSliceSwitch p) s = .next (timeSliceSwitch p s) := congrArg Host.Outcome.next (if_pos hp)
  have hpre : exec (.preamble p) s = .next (preamble p s) := congrArg Host.Outcome.next (if_pos hp)
  have hdown : exec (.rampDown p) s = .next (rampDown p s) := congrArg Host.Outcome.next (if_pos hp)
  rw [hswitch, hpre, hdown]
  refine ⟨fun hn hr hi hc hb => ?_, fun hn hl hw => ⟨fun h0 hroom => ?_, fun h3 he => ?_, fun h3 he => ?_⟩, fun hl h4 hi hroom => ?_,
    fun h2 he => ?_, fun h2 he => ?_⟩
  · have hdue : SwitchDue s p k := ⟨hn, hr, hi, hc, hb⟩
    exact ⟨fun hm => by rw [timeSliceSwitch_marks hdue hm], fun hm => ⟨_, rfl, timeSliceSwitch_switches hdue hm⟩⟩
  · refine ⟨_, rfl, ?_⟩
    rw [preamble_begins hn hl hw h0 hroom]
    exact ⟨beginRamp_ramp .., beginRamp_rampEnd ..⟩
  · rw [preamble_ramping hn hl hw h3, if_pos he]
  · rw [preamble_ramping hn hl hw h3, if_neg (Nat.not_le.mpr he)]
  · obtain ⟨e, hd⟩ := rampDown_begins hl h4 hi hroom
    refine ⟨_, rfl, ?_⟩
    rw [hd, beginRamp_rampEnd]
    exact ⟨beginRamp_ramp .., by omega⟩
  · refine ⟨_, rfl, ?_⟩
    rw [rampDown_ramping h2, if_pos he]
    exact ⟨by simp, fun c hc => by rw [updPart_core, forAll_clockOff_cycFrom, if_pos hc]⟩
  · rw [rampDown_ramping h2, if_neg (Nat.not_le.mpr he)]

end Sys2Proof.ModuleProofs
end

section
/-! PROOFS. O42: packets of the I/O ring at their stop, and the accesses that the controllers serve. -/

namespace Sys2Proof.ModuleProofs
open Sys2Proof Sys2Proof.Machine Sys2Proof.Laws

theorem bench_of_within {F : List Field} {s u : State} (h : Within F s u) (hb : Field.benches ∉ F) (b : Nat) :
    u.bench b = s.bench b := congrArg (tblGet benchD · b) (h.out .benches hb)

/-! ## Taking a packet off the I/O ring (R379) -/

/-- The packet that is next at its stop is the one that is taken. -/
theorem ringTake_nextPacket {s u : State} {P : RingPkt → Prop} {k : RingPkt} {sel : RingPkt → Bool} (h : nextPacket s P k u)
    (hsel : ∀ x, sel x = true ↔ P x) : ringTake sel s = some (k, u) := by
  obtain ⟨l, r, hring, hl, hpos, hk, rfl⟩ := h
  have hnone : l.find? (fun x => decide (x.pos = x.dst) && sel x) = none := by
    simpa [hsel, not_and] using hl
  have hfind : s.ring.find? (fun x => decide (x.pos = x.dst) && sel x) = some k := by
    simp [hring, List.find?_append, hnone, hpos, (hsel k).mpr hk]
  have hnot : k ∉ l := fun hmem => hl k hmem ⟨hpos, hk⟩
  have herase : s.ring.erase k = l ++ r := by
    rw [hring, List.erase_append_right _ hnot, List.erase_cons_head]
  simp only [ringTake, hfind, herase]

theorem ringArrival_delivers {s s1 : State} {stop : Nat} {p : RingPkt}
    (h : nextPacket s (fun p => p.dst = stop ∧ plainPacket p.msg = true) p s1) :
    exec (.ringPacketArrival stop) s = .next (deliverPacket p s1) := by
  have htake : ringTake (fun p => decide (p.dst = stop) && plainPacket p.msg) s = some (p, s1) :=
    ringTake_nextPacket h (by simp)
  have harr : ringArrival stop s = deliverPacket p s1 := by simp only [ringArrival, htake]
  exact congrArg Host.Outcome.next harr

/-- Taking a packet changes nothing but the ring. -/
theorem nextPacket_within {s u : State} {P : RingPkt → Prop} {k : RingPkt} (h : nextPacket s P k u) : Within [.ring] s u := by
  obtain ⟨l, r, -, -, -, -, rfl⟩ := h
  exact Within.set_ring (List.Subset.refl _) (Within.refl _ _)

/-! ## What a masked write changes (R738) -/

/-- An update that keeps a bench's merging buffer keeps every bench's. -/
theorem updBench_mb {f : Bench → Bench} (hf : ∀ x, (f x).mb = x.mb) (s : State) (b j : Nat) :
    ((s.updBench b f).bench j).mb = (s.bench j).mb := by
  rw [updBench_get]
  split
  · next h => rw [hf, h]
  · rfl

theorem count_mb (b o n : Nat) (s : State) (j : Nat) : ((count b o n s).bench j).mb = (s.bench j).mb := by
  unfold count
  exact updBench_mb (fun _ => by rfl) ..

theorem act_mb (b o n : Nat) (s : State) (j : Nat) : ((act b o n s).bench j).mb = (s.bench j).mb := by
  unfold act
  exact updBench_mb (fun _ => by rfl) ..

theorem eccWrite_mb (s : State) (a : Nat) (l : List (Byte × Bool)) (j : Nat) :
    ((eccWrite s a l).bench j).mb = (s.bench j).mb := by
  unfold eccWrite
  dsimp only
  split
  · rw [count_mb, count_mb]; rfl
  · rfl

theorem actLines_mb (a n : Nat) (s : State) (j : Nat) : ((actLines a n s).bench j).mb = (s.bench j).mb := by
  unfold actLines
  split
  · exact act_mb ..
  · rfl

/-- The bytes after a masked write under SECDED depend on the bytes before and on the words in error alone. -/
theorem eccWrite_mem_congr {s u : State} (hm : u.mem = s.mem) (hb : u.bad = s.bad) (a : Nat) (l : List (Byte × Bool)) :
    (eccWrite u a l).mem = (eccWrite s a l).mem := by
  unfold eccWrite
  dsimp only
  rw [hm, hb]
  split <;> rfl

/-- A masked write stores its bytes; the reservations it clears and the line accesses it counts are beside that. -/
theorem writeMask_stores (a : Nat) (l : List (Byte × Bool)) (s : State) :
    Within [.cores, .benches] (if s.bad = [] then { s with mem := memPutMask s.mem a l } else eccWrite s a l) (writeMask a l s) := by
  unfold writeMask
  generalize (if s.bad = [] then { s with mem := memPutMask s.mem a l } else eccWrite s a l) = w
  refine actLines_within (by decide) ?_ _ _
  split
  · exact clearResv_within (by decide) (Within.refl _ _) _ _ _
  · exact Within.refl _ _

theorem writeMask_mem_congr {s u : State} (hm : u.mem = s.mem) (hb : u.bad = s.bad) (a : Nat) (l : List (Byte × Bool)) :
    (writeMask a l u).mem = (writeMask a l s).mem := by
  have hs : _ = _ := (writeMask_stores a l s).out .mem (by decide)
  have hu : _ = _ := (writeMask_stores a l u).out .mem (by decide)
  rw [hs, hu, hb]
  split
  · exact congrArg (memPutMask · a l) hm
  · exact eccWrite_mem_congr hm hb a l

theorem writeMask_mb (a : Nat) (l : List (Byte × Bool)) (s : State) (j : Nat) :
    ((writeMask a l s).bench j).mb = (s.bench j).mb := by
  unfold writeMask
  rw [actLines_mb]
  have hstored : ((if s.bad = [] then { s with mem := memPutMask s.mem a l } else eccWrite s a l).bench j).mb = (s.bench j).mb := by
    split
    · rfl
    · exact eccWrite_mb ..
  split
  · rw [bench_of_within (clearResv_within (F := [.cores]) (by decide) (Within.refl _ _) _ _ _) (by decide), hstored]
  · exact hstored

/-! ## A controller accepts a write (R422, R426) -/

theorem closeWins_within (a n : Nat) (s : State) : Within [.ports] s (closeWins a n s) := by
  unfold closeWins
  exact Within.ite (Within.refl _ _) (State_updPort_within (List.Subset.refl _) (Within.refl _ _) _ _)

theorem itemAccepted_stage {b serial : Nat} {s : State} {e : MBEntry} (he : e ∈ ((itemAccepted b serial s).bench b).mb)
    (hs : e.serial = serial) : e.stage = 3 := by
  simp only [itemAccepted, updBench_bench, List.mem_map] at he
  obtain ⟨x, -, rfl⟩ := he
  split at hs
  · next h => simp [h]
  · next h => exact absurd hs h

/-- A sound write to a device that is not mapped out is made, after its sender has counted it. -/
theorem acceptWrite_writes {s : State} {b dev line : Nat} {data : List Byte} {mask : List Bool} {u : Use}
    (hd : dev = 0 ∨ memMappedOut s (dev - 1) = false) :
    ∃ s1, acceptWrite b dev line data mask false u s = ringWriteMask (line * 64) (data.zip mask) s1 ∧
      Within [.benches, .parts] s s1 ∧ ∀ serial, u = .item serial → s1 = itemAccepted b serial s := by
  have hok : (false || (decide (dev ≠ 0) && memMappedOut s (dev - 1))) = false := by
    rcases hd with h | h <;> simp [h]
  refine ⟨_, by unfold acceptWrite; rw [hok]; rfl, ?_, fun serial hu => by rw [hu]⟩
  split
  · exact itemAccepted_within (by decide) (Within.refl _ _) _ _
  · exact ringLanded_within (by decide) (Within.refl _ _) _ _ _
  · exact Within.refl _ _

/-- What holds after a sound write has been accepted: memory as the write leaves it, no access added or served, and the item that
waits for it at stage 3. -/
theorem acceptWrite_effect {s : State} {b dev line : Nat} {data : List Byte} {mask : List Bool} {u : Use}
    (hd : dev = 0 ∨ memMappedOut s (dev - 1) = false) :
    let v := acceptWrite b dev line data mask false u s
    v.mem = (writeMask (line * 64) (data.zip mask) s).mem ∧ v.ringSide = s.ringSide ∧
      ∀ serial, u = .item serial → ∀ e ∈ (v.bench b).mb, e.serial = serial → e.stage = 3 := by
  obtain ⟨s1, hv, hw, hitem⟩ := acceptWrite_writes (b := b) (line := line) (data := data) (mask := mask) (u := u) hd
  have hclose := closeWins_within (line * 64) (data.zip mask).length (writeMask (line * 64) (data.zip mask) s1)
  have hwrite : Within [.mem, .bad, .cores, .benches] s1 (writeMask (line * 64) (data.zip mask) s1) :=
    writeMask_within (List.Subset.refl _) (Within.refl _ _) _ _
  dsimp only
  rw [hv]
  refine ⟨?_, ?_, fun serial hu e he hs => ?_⟩
  · have hmem : (ringWriteMask (line * 64) (data.zip mask) s1).mem = _ := hclose.out .mem (by decide)
    rw [hmem]
    exact writeMask_mem_congr (hw.out .mem (by decide)) (hw.out .bad (by decide)) _ _
  · exact ((hclose.out .ringSide (by decide)).trans (hwrite.out .ringSide (by decide))).trans (hw.out .ringSide (by decide))
  · have hmb : ((ringWriteMask (line * 64) (data.zip mask) s1).bench b).mb = (s1.bench b).mb := by
      rw [← writeMask_mb (line * 64) (data.zip mask) s1 b]
      exact congrArg Bench.mb (bench_of_within hclose (by decide) b)
    rw [hmb, hitem serial hu] at he
    exact itemAccepted_stage he hs

/-! ## Accesses that wait at a controller (R23, R390) -/

theorem waitingAccess_head {s : State} {p : RingPkt} {rest : List RingPkt} {cxl : Bool} (hq : s.ringSide = p :: rest)
    (hc : atCxl p = cxl) : waitingAccess s cxl = some p := by
  simp [waitingAccess, hq, hc]

theorem ringPut_sentPacket (src dst : Nat) (m : RingMsg) (s : State) : sentPacket s (ringPut src dst m s) src dst m :=
  ⟨_, rfl, rfl, rfl, rfl, rfl, rfl⟩

/-- From `s` to `v` the access `p`, the first that waited, has been served: its response with these bytes is on the ring. -/
def ServedFirst (s v : State) (p : RingPkt) (rest : List RingPkt) (b line : Nat) (u : Use) (l : List Byte) (e : Bool) : Prop :=
  v.ringSide = rest ∧ v.mem = s.mem ∧ sentPacket s v p.dst (rowStop b) (.response b line l e u)

section Serve
variable {s : State} {p : RingPkt} {rest : List RingPkt} {b dev line : Nat} {wr bad : Bool} {data : List Byte} {mask : List Bool} {u : Use}

theorem servedFirst_ringPut (hq : s.ringSide = p :: rest) (l : List Byte) (e : Bool) :
    ServedFirst s (ringPut p.dst (rowStop b) (.response b line l e u) { s with ringSide := s.ringSide.erase p }) p rest b line u l e :=
  ⟨by simp [ringPut, hq], rfl, ringPut_sentPacket ..⟩

/-- A read that meets no error takes the line. -/
theorem serveAccess_read (hq : s.ringSide = p :: rest) (hm : p.msg = .access b dev false line data mask bad u)
    (hd : dev = 0 ∨ memMappedOut s (dev - 1) = false) :
    ServedFirst s (serveAccess p false s) p rest b line u (memBytes s.mem (line * 64) 64) false := by
  have hok : (false || (decide (dev ≠ 0) && memMappedOut s (dev - 1))) = false := by
    rcases hd with h | h <;> simp [h]
  unfold serveAccess
  simp only [hm, hok]
  exact servedFirst_ringPut hq _ _

theorem serveAccess_readError (hq : s.ringSide = p :: rest) (hm : p.msg = .access b dev false line data mask bad u) :
    ServedFirst s (serveAccess p true s) p rest b line u [] true := by
  unfold serveAccess
  simp only [hm]
  exact servedFirst_ringPut hq _ _

/-- A write was made when it was accepted: only its response is left to send. -/
theorem serveAccess_write (hq : s.ringSide = p :: rest) (hm : p.msg = .access b dev true line data mask bad u) (hb : b < 128) (err : Bool) :
    ServedFirst s (serveAccess p err s) p rest b line u [] false := by
  unfold serveAccess
  simp only [hm, hb]
  exact servedFirst_ringPut hq _ _

theorem exec_ringSideAccess_head (hq : s.ringSide = p :: rest) (hm : p.msg = .access b dev wr line data mask bad u) (hd : dev ≠ 0)
    (err : Bool) : exec (.ringSideAccess err) s = .next (serveAccess p err s) := by
  have hw := waitingAccess_head hq (cxl := false) (by simp [atCxl, hm, hd])
  have hserve : ringSideAccess err s = serveAccess p err s := by simp only [ringSideAccess, hw]
  exact congrArg Host.Outcome.next hserve

theorem exec_cxlAccessComplete_head (hq : s.ringSide = p :: rest) (hm : p.msg = .access b dev wr line data mask bad u) (hd : dev = 0)
    (err : Bool) : exec (.cxlAccessComplete err) s = .next (serveAccess p err s) := by
  have hw := waitingAccess_head hq (cxl := true) (by simp [atCxl, hm, hd])
  have hserve : cxlComplete err s = serveAccess p err s := by simp only [cxlComplete, hw]
  exact congrArg Host.Outcome.next hserve

/-- A command that serves the first waiting access: a read takes its line or its error, a write is acknowledged. -/
theorem serves_first {run : Bool → Host.Outcome State Fault Refusal} (hrun : ∀ err, run err = .next (serveAccess p err s))
    (hq : s.ringSide = p :: rest) (hm : p.msg = .access b dev wr line data mask bad u) (hb : b < 128)
    (hd : dev = 0 ∨ memMappedOut s (dev - 1) = false) :
    (wr = false → ∃ v, run false = .next v ∧ ServedFirst s v p rest b line u (memBytes s.mem (line * 64) 64) false) ∧
    (wr = true → ∃ v, run false = .next v ∧ ServedFirst s v p rest b line u [] false) ∧
    (wr = false → ∃ v, run true = .next v ∧ ServedFirst s v p rest b line u [] true) := by
  refine ⟨fun h => ⟨_, hrun false, ?_⟩, fun h => ⟨_, hrun false, ?_⟩, fun h => ⟨_, hrun true, ?_⟩⟩ <;> subst h
  · exact serveAccess_read hq hm hd
  · exact serveAccess_write hq hm hb false
  · exact serveAccess_readError hq hm

end Serve

theorem exec_ringSideAccess_none {s : State} (hq : s.ringSide = []) (err : Bool) : exec (.ringSideAccess err) s = .next s := by
  have hserve : ringSideAccess err s = s := by simp [ringSideAccess, waitingAccess, hq]
  exact congrArg Host.Outcome.next hserve

theorem exec_cxlAccessComplete_none {s : State} (hq : s.ringSide = []) (err : Bool) : exec (.cxlAccessComplete err) s = .next s := by
  have hserve : cxlComplete err s = s := by simp [cxlComplete, waitingAccess, hq]
  exact congrArg Host.Outcome.next hserve

/-- Settles O42: each kind of packet is a branch of `deliverPacket`, whose write branch is `acceptWrite_effect`; both controllers serve
their first access by `serves_first`. -/
theorem ringAccesses : Obligations.RingAccesses := by
  intro s s1 p stop b dev line wr bad data mask u m rest serial c i r served
  refine ⟨fun hnext => ?_, fun hq hm hb => ⟨fun hd hmap => ?_, fun hd => ?_⟩, fun hq => ?_⟩
  · have hring := nextPacket_within hnext
    have hnow : s1.now = s.now := hring.out .now (by decide)
    have hside : s1.ringSide = s.ringSide := hring.out .ringSide (by decide)
    have hmap : ∀ d, memMappedOut s1 d = memMappedOut s d := fun d => congrArg (fun x : Boot => bit x.memOut d) (hring.out .boot (by decide))
    rw [ringArrival_delivers hnext]
    refine ⟨fun hm => ?_, fun hm => ?_, fun hm => ?_, fun hm hd => ⟨_, rfl, ?_⟩, fun hm => ?_⟩ <;> simp only [deliverPacket, hm]
    · rw [coreNow, hnow]
    · rw [hside]
    · obtain ⟨hmem, hkeep, hitem⟩ := acceptWrite_effect (b := b) (line := line) (data := data) (mask := mask) (u := u)
        (by rw [hmap]; exact hd)
      refine ⟨by rw [hkeep, hside], ?_, hitem serial⟩
      exact hmem.trans (writeMask_mem_congr (hring.out .mem (by decide)) (hring.out .bad (by decide)) _ _)
    · rfl
  · exact serves_first (exec_ringSideAccess_head hq hm hd) hq hm hb (.inr hmap)
  · exact serves_first (exec_cxlAccessComplete_head hq hm hd) hq hm hb (.inl hd)
  · exact ⟨exec_ringSideAccess_none hq wr, exec_cxlAccessComplete_none hq wr⟩

end Sys2Proof.ModuleProofs
end

section
/-! PROOFS. O54: the commands in PF0's mailboxes that open and close streams, move the host's memory and stage Foreman images. -/

namespace Sys2Proof.ModuleProofs
open Sys2Proof Sys2Proof.Machine Sys2Proof.Laws

/-- The mailboxes are part of the Foreman's state. -/
theorem mbox_of_mboxes {s u : State} (h : u.fmn.mboxes = s.fmn.mboxes) (m : Nat) : u.mbox m = s.mbox m :=
  congrArg (tblGet mboxD · m) h

/-! ## What a wake leaves alone (R613) -/

@[simp] theorem wake_fmn (s : State) : (wake s).fmn = s.fmn := by unfold wake; split <;> rfl
@[simp] theorem wake_boot (s : State) : (wake s).boot = s.boot := by unfold wake; split <;> rfl
@[simp] theorem wake_mem (s : State) : (wake s).mem = s.mem := by unfold wake; split <;> rfl
@[simp] theorem wake_ring (s : State) : (wake s).ring = s.ring := by unfold wake; split <;> rfl
theorem wake_mboxes (s : State) : (wake s).fmn.mboxes = s.fmn.mboxes := congrArg Fmn.mboxes (wake_fmn s)
@[simp] theorem wake_part (s : State) (p : Nat) : (wake s).part p = s.part p := by unfold wake; split <;> rfl
@[simp] theorem wake_stream (s : State) (i : Nat) : (wake s).stream i = s.stream i := by unfold wake; split <;> rfl
@[simp] theorem wake_ready (s : State) : ready (wake s) = ready s := by unfold wake; split <;> rfl
@[simp] theorem wake_mapped (s : State) (a : Nat) : mapped (wake s) a = mapped s a := by unfold wake; split <;> rfl
@[simp] theorem wake_gddrRange (s : State) (a n : Nat) : gddrRange (wake s) a n = gddrRange s a n := by unfold wake; split <;> rfl
@[simp] theorem wake_slotOk (s : State) (k : Nat) : slotOk (wake s) k = slotOk s k := by unfold wake; split <;> rfl
@[simp] theorem wake_openDescs (s : State) (id : Nat) : openDescs (wake s) id = openDescs s id := by unfold wake; split <;> rfl

/-! ## A command of PF0 that may run (R540, R550, R555, R556) -/

section Mailbox
variable {s : State} {m code : Nat} {l : List Byte}

/-- The mailboxes below 128 are PF0's. -/
theorem funcOf_pf0 (s : State) (hm : m < 128) : funcOf s m = 0 := if_pos hm

theorem order_of_mayRun (h : MayRun s m code l) : (s.mbox m).order ≠ 0 := by
  obtain ⟨-, -, hrun, -⟩ := h
  simp only [canRun, Bool.and_eq_true, decide_eq_true_eq] at hrun
  exact hrun.1.1.1

theorem len_of_mayRun (h : MayRun s m code l) : (s.mbox m).len = l.length := by
  obtain ⟨-, -, -, -, rfl, -⟩ := h
  simp [request, padTo]

/-- A command that may run reaches its own part with its payload, in the awakened module. -/
theorem runCmd_body {forVf early : Bool} {size : Option Nat} {body : List Byte → State → State} (h : MayRun s m code l)
    (hk : keepsIdle code = false) (hsize : size.getD l.length = l.length) :
    runCmd m code forVf early size body s = body l (wake s) := by
  have hlen := len_of_mayRun h
  obtain ⟨hm, hcmd, hrun, hready, hreq, hmax⟩ := h
  simp [runCmd, hcmd, hrun, hk, funcOf_pf0, hm, hready, hlen, hreq, hsize, Nat.not_lt.mpr hmax]

theorem checked_pass {fs : List (Nat × Nat × (Nat → Bool))} (go : State → State) (s : State) (h : badField l fs = none) :
    checked m l fs go s = go s := by rw [checked, h]

theorem checked_refuse {fs : List (Nat × Nat × (Nat → Bool))} {o : Nat} (go : State → State) (s : State)
    (h : badField l fs = some o) : checked m l fs go s = respond m 3 o [] s := by rw [checked, h]

/-- PF0 may name every partition that exists. -/
theorem withPart_pf0 {p : Nat} (go : State → State) (hm : m < 128) (hp : (s.part p).live = true) : withPart m p go s = go s := by
  simp [withPart, mayName, funcOf_pf0, hm, hp]

theorem devicesOk_pf0 (hm : m < 128) (a n : Nat) : devicesOk s (funcOf s m) a n = true := by
  simp [devicesOk, funcOf_pf0, hm]

/-! ## The answer in a mailbox of PF0 (R547) -/

/-- The mailbox holds the answer and its vector is raised: nothing else changes. -/
theorem respond_pf0 (hm : m < 128) (ho : (s.mbox m).order ≠ 0) (status detail : Nat) (payload : List Byte) :
    respond m status detail payload s = raise 0 m (s.updMbox m (fun x =>
      answered x { seq := x.seq, cmd := x.cmd, status := status, detail := detail, payload := payload })) := by
  simp [respond, ho, Nat.not_le.mpr (Nat.lt_trans hm (by decide : 128 < 256)), funcOf_pf0, vectorOf, hm]

theorem respond_answered (hm : m < 128) (ho : (s.mbox m).order ≠ 0) (status detail : Nat) (payload : List Byte) :
    Answered (respond m status detail payload s) m status detail payload := by
  have hbox : (respond m status detail payload s).mbox m =
      answered (s.mbox m) { seq := (s.mbox m).seq, cmd := (s.mbox m).cmd, status := status, detail := detail, payload := payload } := by
    rw [respond_pf0 hm ho]
    exact updMbox_mbox s m fun x =>
      answered x { seq := x.seq, cmd := x.cmd, status := status, detail := detail, payload := payload }
  simp [Answered, hbox, answered]

/-- The answer of a command that may run. -/
theorem answered_of_respond {u v : State} {status detail : Nat} {payload : List Byte} (h : MayRun s m code l)
    (hu : u = respond m status detail payload v) (hv : v.fmn.mboxes = s.fmn.mboxes) : Answered u m status detail payload := by
  rw [hu]
  exact respond_answered h.1 (by rw [mbox_of_mboxes hv]; exact order_of_mayRun h) ..

/-- Of the Foreman's state an answer changes the mailbox and the vectors raised. -/
theorem respond_pf0_fmn (hm : m < 128) (status detail : Nat) (payload : List Byte) (s : State) :
    ∃ t v, (respond m status detail payload s).fmn = { s.fmn with mboxes := t, msix := v } := by
  by_cases ho : (s.mbox m).order = 0
  · exact ⟨s.fmn.mboxes, s.fmn.msix, by simp [respond, ho]⟩
  · rw [respond_pf0 hm ho]
    exact ⟨_, _, rfl⟩

theorem respond_stream (status detail : Nat) (payload : List Byte) (i : Nat) :
    (respond m status detail payload s).stream i = s.stream i :=
  congrArg (tblGet streamD · i) ((respond_within (List.Subset.refl _) (Within.refl _ s) m status detail payload).out .streams (by decide))

theorem respond_boot (status detail : Nat) (payload : List Byte) : (respond m status detail payload s).boot = s.boot :=
  (respond_within (List.Subset.refl _) (Within.refl _ s) m status detail payload).out .boot (by decide)

theorem respond_mem (status detail : Nat) (payload : List Byte) : (respond m status detail payload s).mem = s.mem :=
  (respond_within (List.Subset.refl _) (Within.refl _ s) m status detail payload).out .mem (by decide)

theorem respond_image (status detail : Nat) (payload : List Byte) (k : Nat) :
    (respond m status detail payload s).image k = s.image k :=
  congrArg (fun x : Boot => tblGet imageDefault x.images k) (respond_boot status detail payload)

end Mailbox

/-! ## Streams (R503, R504, R559, R560) -/

section Streams
variable {s : State} {m : Nat} {l : List Byte}

/-- The declaration of a receive end in OPEN_STREAM_RX's payload. -/
def rxDecl (l : List Byte) : StreamDecl :=
  { id := fieldOf l 0 2, send := false, planes := fieldOf l 3 1, peer := fieldOf l 4 2, pstr := fieldOf l 6 2, tally := fieldOf l 8 2
    wbase := fieldOf l 16 8, wlen := fieldOf l 24 8, sbench := 0, conn := 0 }

/-- The declaration of a send end in OPEN_STREAM_TX's payload. -/
def txDecl (l : List Byte) : StreamDecl :=
  { id := fieldOf l 0 2, send := true, planes := fieldOf l 3 1, peer := fieldOf l 4 2, pstr := fieldOf l 6 2, tally := 0, wbase := 0
    wlen := 0, sbench := fieldOf l 8 1, conn := packConns (fieldOf l 16 8) (fieldOf l 3 1) }

/-- The fields that both commands that open a stream have are in range, and the partition exists. -/
structure OpenFields (s : State) (l : List Byte) : Prop where
  id : fieldOf l 0 2 < 16384
  part : fieldOf l 2 1 < 8
  live : (s.part (fieldOf l 2 1)).live = true
  peer : fieldOf l 4 2 < 16384
  pstr : fieldOf l 6 2 < 16384

/-- OPEN_STREAM_RX once its fields are in range: the checks of R503, then the stream's state, decide. -/
theorem openStreamRx_decides (h : MayRun s m 0x0701 l) (hlen : l.length = 32) (hf : OpenFields s l) (hres : fieldOf l 10 6 = 0)
    (hbase : fieldOf l 16 8 < 2 ^ 48) (hwlen : fieldOf l 24 8 < 2 ^ 40) {why : Nat}
    (hwhy : rxCheck (wake s) (fieldOf l 2 1) (fieldOf l 3 1) (fieldOf l 8 2) (fieldOf l 16 8) (fieldOf l 24 8) = why) :
    openStreamRx m s =
      if why ≠ 0 then respond m 3 (if why = 1 then 3 else if why = 2 then 8 else 16) [] (wake s)
      else if (s.stream (fieldOf l 0 2)).state ≠ 0 then respond m 9 2 [] (wake s)
      else respond m 0 0 [] ((wake s).updStream (fieldOf l 0 2) (fun _ =>
        streamEntry (fieldOf l 2 1) (s.part (fieldOf l 2 1)).cur (rxDecl l) 0)) := by
  obtain ⟨hid, hpart, hlive, hpeer, hpstr⟩ := hf
  rw [openStreamRx, runCmd_body h rfl (by rw [hlen]; rfl),
    checked_pass _ _ (by simp only [badField, below, zero, List.find?, hid, hpart, hpeer, hpstr, hres, hbase, hwlen, decide_true,
      Bool.not_true, Option.map_none]),
    withPart_pf0 _ h.1 (by rwa [wake_part])]
  simp only [wake_stream, wake_part, hwhy]
  rfl

/-- OPEN_STREAM_TX whose fields are in range and whose declaration passes the checks of R504 opens a FREE stream. -/
theorem openStreamTx_opens (h : MayRun s m 0x0702 l) (hlen : l.length = 24) (hf : OpenFields s l) (hbench : fieldOf l 8 1 < 128)
    (hres : fieldOf l 9 7 = 0)
    (hconns : ∀ w, w < 8 → bit (fieldOf l 3 1) w = true → bits (fieldOf l 16 8) (8 * w + 7) (8 * w) < 64)
    (hok : txCheck (wake s) (fieldOf l 2 1) (fieldOf l 3 1) (fieldOf l 8 1) (packConns (fieldOf l 16 8) (fieldOf l 3 1)) = 0)
    (hfree : (s.stream (fieldOf l 0 2)).state = 0) :
    openStreamTx m s = respond m 0 0 [] ((wake s).updStream (fieldOf l 0 2) (fun _ =>
      streamEntry (fieldOf l 2 1) (s.part (fieldOf l 2 1)).cur (txDecl l) (fieldOf l 8 1))) := by
  obtain ⟨hid, hpart, hlive, hpeer, hpstr⟩ := hf
  have hall : (List.range 8).all (fun w => !bit (fieldOf l 3 1) w || decide (bits (fieldOf l 16 8) (8 * w + 7) (8 * w) < 64)) = true := by
    refine List.all_eq_true.mpr fun w hw => ?_
    cases hb : bit (fieldOf l 3 1) w
    · rfl
    · exact decide_eq_true (hconns w (List.mem_range.mp hw) hb)
  rw [openStreamTx, runCmd_body h rfl (by rw [hlen]; rfl)]
  dsimp only
  rw [checked_pass _ _ (by simp only [badField, below, zero, List.find?, hid, hpart, hpeer, hpstr, hbench, hres, hall, decide_true,
    Bool.not_true, Option.map_none]),
    withPart_pf0 _ h.1 (by rwa [wake_part])]
  simp only [wake_stream, wake_part, hok, hfree]
  rfl

/-- CLOSE_STREAM of a stream that is open. -/
theorem closeStream_decides (h : MayRun s m 0x0703 l) (hlen : l.length = 2) (hid : fieldOf l 0 2 < 16384)
    (hopen : (s.stream (fieldOf l 0 2)).state ≠ 0) (hlive : (s.part (s.stream (fieldOf l 0 2)).part).live = true) :
    closeStream m s =
      if (s.stream (fieldOf l 0 2)).state = 1 ∧ openDescs s (fieldOf l 0 2) ≠ [] then respond m 0x13 0 [] (wake s)
      else respond m 0 0 (satBytes (s.stream (fieldOf l 0 2)).bytes 8 ++ satBytes (s.stream (fieldOf l 0 2)).retx 4)
        (closeEntry (fieldOf l 0 2) (wake s)) := by
  rw [closeStream, runCmd_body h rfl (by rw [hlen]; rfl)]
  dsimp only
  rw [checked_pass _ _ (by simp [badField, hid, hopen]), withPart_pf0 _ h.1 (by simpa using hlive)]
  simp only [wake_stream, wake_openDescs]

theorem closeStream_free (h : MayRun s m 0x0703 l) (hlen : l.length = 2) (hfree : (s.stream (fieldOf l 0 2)).state = 0) :
    closeStream m s = respond m 3 0 [] (wake s) := by
  rw [closeStream, runCmd_body h rfl (by rw [hlen]; rfl)]
  exact checked_refuse _ _ (by simp [badField, hfree])

theorem closeEntry_stream (id : Nat) (s : State) : (closeEntry id s).stream id = Stream.reset := updStream_stream ..

theorem closeEntry_fmn (id : Nat) (s : State) : (closeEntry id s).fmn = s.fmn :=
  (closeEntry_within (List.Subset.refl _) (Within.refl _ s) id).out .fmn (by decide)

theorem setTransport_sets (h : MayRun s m 0x0704 l) (hlen : l.length = 4) (hlo : 8 ≤ fieldOf l 0 2) (hhi : fieldOf l 0 2 ≤ 1000)
    (hrlo : 1 ≤ fieldOf l 2 1) (hrhi : fieldOf l 2 1 ≤ 31) (hres : fieldOf l 3 1 = 0) :
    setTransport m s = respond m 0 0 [] { wake s with boot := { s.boot with rto := fieldOf l 0 2, retryMax := fieldOf l 2 1 } } := by
  rw [setTransport, runCmd_body h rfl (by rw [hlen]; rfl),
    checked_pass _ _ (by simp [badField, zero, hlo, hhi, hrlo, hrhi, hres]), wake_boot]

end Streams

/-- Each stream command, once it may run and its fields are in range, is its `_decides`, `_opens`, `_free` or `_sets` lemma. -/
theorem streamsOpenAndClose : Claims.StreamsOpenAndClose := by
  intro s m l id p planes st conn
  refine ⟨fun hp hlive hid hpeer hpstr => ⟨fun h hlen hres hbase hwlen => ?_, fun h hlen hbench hres hconns hok hfree => ?_⟩,
    fun h hlen hid => ⟨fun hfree => ?_, fun hopen hlive => ?_⟩, fun h hlen hlo hhi hrlo hrhi hres => ?_⟩
  · have hrun := openStreamRx_decides h hlen ⟨hid, hp, hlive, hpeer, hpstr⟩ hres hbase hwlen rfl
    refine ⟨fun hok => ⟨fun hfree => ?_, fun hused => ?_⟩, fun hbad => ?_⟩
    · rw [hok, if_neg (by decide), if_neg (not_not.mpr hfree)] at hrun
      refine ⟨_, rfl, answered_of_respond h hrun (wake_mboxes s), ?_⟩
      rw [hrun, respond_stream, updStream_stream]
      exact ⟨rfl, rfl, rfl, rfl, rfl, rfl, rfl⟩
    · rw [hok, if_neg (by decide), if_pos hused] at hrun
      exact ⟨_, rfl, answered_of_respond h hrun (wake_mboxes s)⟩
    · rw [hbad, if_pos (by decide)] at hrun
      exact ⟨_, rfl, answered_of_respond h hrun (wake_mboxes s)⟩
  · have hrun := openStreamTx_opens h hlen ⟨hid, hp, hlive, hpeer, hpstr⟩ hbench hres hconns hok hfree
    refine ⟨_, rfl, answered_of_respond h hrun (wake_mboxes s), ?_⟩
    rw [hrun, respond_stream, updStream_stream]
    exact ⟨rfl, rfl, rfl, rfl, rfl⟩
  · exact ⟨_, rfl, answered_of_respond h (closeStream_free h hlen hfree) (wake_mboxes s)⟩
  · have hrun := closeStream_decides h hlen hid hopen hlive
    refine ⟨fun hsend hposts => ?_, fun hdone => ?_⟩
    · rw [if_pos ⟨hsend, hposts⟩] at hrun
      exact ⟨_, rfl, answered_of_respond h hrun (wake_mboxes s)⟩
    · rw [if_neg fun hposts => hdone.elim (absurd hposts.1) hposts.2] at hrun
      refine ⟨_, rfl, answered_of_respond h hrun ((congrArg Fmn.mboxes (closeEntry_fmn ..)).trans (wake_mboxes s)), ?_⟩
      rw [hrun, respond_stream, closeEntry_stream]
      rfl
  · have hrun := setTransport_sets h hlen hlo hhi hrlo hrhi hres
    refine ⟨_, rfl, answered_of_respond h hrun (wake_mboxes s), ?_⟩
    rw [hrun, respond_boot]
    exact ⟨rfl, rfl⟩

/-! ## The host's moves (R541, R545, R562) -/

theorem answered_of_mbox {u v : State} {m status detail : Nat} {payload : List Byte} (h : Answered v m status detail payload)
    (e : u.mbox m = v.mbox m) : Answered u m status detail payload := by
  unfold Answered
  rw [e]
  exact h

section Moves
variable {s : State} {m : Nat} {l : List Byte}

theorem setAperture_decides (h : MayRun s m 0x0801 l) (hlen : l.length = 8) :
    setAperture m s = if mapped s (fieldOf l 0 8) = false then respond m 0x14 0 [] (wake s)
      else respond m 0 0 [] { wake s with fmn := { s.fmn with apertures := tblSet nats s.fmn.apertures 0 (fieldOf l 0 8) } } := by
  rw [setAperture, runCmd_body h rfl (by rw [hlen]; rfl)]
  simp only [wake_mapped, funcOf_pf0 _ h.1, wake_fmn, ne_eq, not_true_eq_false, false_and, if_false]

/-- The move that HOST_MOVE's payload asks for. -/
def askedMove (s : State) (m : Nat) (host l : List Byte) : HostMove :=
  { serial := s.fmn.nextSerial, mbox := m, fn := 0, toHost := decide (fieldOf l 0 1 = 1), haddr := fieldOf l 8 8, addr := fieldOf l 16 8
    left := fieldOf l 4 4, data := if fieldOf l 0 1 = 0 then padTo (fieldOf l 4 4) host else [], busy := false }

/-- The module with a move more. -/
def withMove (v : HostMove) (s : State) : State :=
  { touch (wake s) with fmn := { s.fmn with nextSerial := s.fmn.nextSerial + 1, moves := s.fmn.moves ++ [v] } }

/-- HOST_MOVE once its fields are in range: the range, then the length, decide. -/
theorem hostMove_decides (host : List Byte) (h : MayRun s m 0x0802 l) (hlen : l.length = 24) (hdir : fieldOf l 0 1 < 2)
    (hres : fieldOf l 1 3 = 0) (hn : fieldOf l 4 4 % 64 = 0) :
    hostMove m host s = if gddrRange s (fieldOf l 16 8) (fieldOf l 4 4) = false then respond m 0x14 0 [] (wake s)
      else if fieldOf l 4 4 = 0 then respond m 0 0 [] (wake s)
      else movesGo (withMove (askedMove s m host l) s) := by
  rw [hostMove, runCmd_body h rfl (by rw [hlen]; rfl), checked_pass _ _ (by simp [badField, below, zero, hdir, hres, hn])]
  simp only [wake_gddrRange, devicesOk_pf0 h.1, Bool.true_eq_false, if_false]
  split
  · rfl
  · split
    · rfl
    · simp only [freshSerial, touch, withMove, askedMove, funcOf_pf0 _ h.1, wake_fmn]

/-- A move whose next piece is on its way, or that waits for a porter. -/
def atPorter (i : Nat) (v : HostMove) : HostMove := if i < 16 then { v with busy := true } else v

theorem movesGo_fmn (s : State) : (movesGo s).fmn = { s.fmn with moves := s.fmn.moves.mapIdx atPorter } :=
  (forAll_within (F := [.ring]) (Within.refl _ _) fun _ _ hv => hostAccess_within (List.Subset.refl _) hv _).out .fmn (by decide)

theorem movesGo_mbox (s : State) (m : Nat) : (movesGo s).mbox m = s.mbox m := by
  unfold State.mbox
  rw [movesGo_fmn]

theorem movesGo_mem (s : State) : (movesGo s).mem = s.mem :=
  (movesGo_within (List.Subset.refl _) (Within.refl _ s)).out .mem (by decide)

theorem atPorter_busy (i : Nat) (v : HostMove) : atPorter i v = { v with busy := (atPorter i v).busy } := by
  unfold atPorter
  split <;> rfl

/-- A move that comes when every other has its porter, and one is left, sends its first piece. -/
theorem movesGo_sends {s : State} {old : List HostMove} {v : HostMove} (hmoves : s.fmn.moves = old ++ [v])
    (hbusy : ∀ y ∈ old, y.busy = true) (hroom : old.length < 16) (hv : v.busy = false) :
    sentPacket s (movesGo s) hostStop (devStop (v.addr / 2 ^ 36)) (.host (moveReq v)) := by
  have hall : (old ++ [v]).take 16 = old ++ [v] := List.take_of_length_le (by simp; omega)
  have hnone : old.filter (fun y => !y.busy) = [] := List.filter_eq_nil_iff.mpr (by simpa using hbusy)
  have hstart : (s.fmn.moves.take 16).filter (fun y => !y.busy) = [v] := by
    rw [hmoves, hall, List.filter_append, hnone]
    simp [hv]
  unfold movesGo
  simp only [hstart]
  exact ringPut_sentPacket ..

/-- The move of HOST_MOVE stands among the moves, at a porter or waiting for one. -/
theorem mem_movesGo_withMove (v : HostMove) (s : State) :
    atPorter s.fmn.moves.length v ∈ (movesGo (withMove v s)).fmn.moves := by
  rw [movesGo_fmn]
  exact List.mem_mapIdx.mpr ⟨s.fmn.moves.length, by simp [withMove], by simp [withMove]⟩

/-- A HOST_MOVE that has begun: its mailbox waits, no byte has moved, and its first piece goes out where a porter is free. -/
theorem hostMove_begun (s : State) (m : Nat) (host l : List Byte) :
    let u := movesGo (withMove (askedMove s m host l) s)
    let w := atPorter s.fmn.moves.length (askedMove s m host l)
    u.mbox m = s.mbox m ∧ u.mem = s.mem ∧ w ∈ u.fmn.moves ∧ w.serial = s.fmn.nextSerial ∧ w.mbox = m ∧
      w.toHost = decide (fieldOf l 0 1 = 1) ∧ w.haddr = fieldOf l 8 8 ∧ w.addr = fieldOf l 16 8 ∧ w.left = fieldOf l 4 4 ∧
      (fieldOf l 0 1 = 0 → w.data = (host ++ List.replicate (fieldOf l 4 4) 0).take (fieldOf l 4 4)) ∧
      ((∀ y ∈ s.fmn.moves, y.busy = true) → s.fmn.moves.length < 16 →
        sentPacket s u hostStop (devStop (fieldOf l 16 8 / 2 ^ 36)) (.host (moveReq w))) := by
  intro u w
  have hmbox : u.mbox m = s.mbox m := movesGo_mbox ..
  have hmem : u.mem = s.mem := (movesGo_mem _).trans (wake_mem s)
  have hfields : w = { askedMove s m host l with busy := w.busy } := atPorter_busy ..
  refine ⟨hmbox, hmem, mem_movesGo_withMove .., ?_⟩
  rw [hfields]
  refine ⟨rfl, rfl, rfl, rfl, rfl, rfl, fun hto => if_pos hto, fun hbusy hroom => ?_⟩
  obtain ⟨k, hk, hrest⟩ := movesGo_sends (s := withMove (askedMove s m host l) s) rfl hbusy hroom rfl
  exact ⟨k, hk.trans (congrArg (· ++ [k]) (wake_ring s)), hrest⟩

/-- A move behind the piece that has come back. -/
def behindPiece (v : HostMove) (data : List Byte) : HostMove :=
  { v with
    addr := v.addr + hostPiece v.addr v.left
    left := v.left - hostPiece v.addr v.left
    data := if v.toHost then v.data ++ data else v.data.drop (hostPiece v.addr v.left)
    busy := false }

theorem moveBack_last {v : HostMove} (hlast : v.left ≤ hostPiece v.addr v.left) (data : List Byte) (s : State) :
    moveBack v data false s = moveEnds (behindPiece v data) 0 s := by
  have hleft : (behindPiece v data).left = 0 := Nat.sub_eq_zero_of_le hlast
  exact if_pos hleft

/-- The end of a move answers its mailbox in a state that differs in the moves and in what host memory holds. -/
theorem moveEnds_responds (v : HostMove) (s : State) :
    ∃ x, moveEnds v 0 s = movesGo (respond v.mbox 0 0 [] x) ∧ x.mem = s.mem ∧ x.mbox v.mbox = s.mbox v.mbox ∧
      (v.toHost = true → x.fmn.hostMem = (v.haddr, v.data) :: s.fmn.hostMem) := by
  refine ⟨_, rfl, ?_⟩
  split
  · exact ⟨rfl, rfl, fun _ => rfl⟩
  · next h => exact ⟨rfl, rfl, fun hto => absurd ⟨hto, rfl⟩ h⟩

theorem moveEnds_answers {v : HostMove} (hm : v.mbox < 128) (ho : (s.mbox v.mbox).order ≠ 0) :
    Answered (moveEnds v 0 s) v.mbox 0 0 [] ∧ (moveEnds v 0 s).mem = s.mem ∧
      (v.toHost = true → (moveEnds v 0 s).fmn.hostMem = (v.haddr, v.data) :: s.fmn.hostMem) := by
  obtain ⟨x, hx, hmem, hbox, hhost⟩ := moveEnds_responds v s
  have hord : (x.mbox v.mbox).order ≠ 0 := by rwa [hbox]
  rw [hx]
  refine ⟨answered_of_mbox (respond_answered hm hord 0 0 []) (movesGo_mbox ..), ?_, fun hto => ?_⟩
  · rw [movesGo_mem, respond_mem, hmem]
  · obtain ⟨t, y, hfmn⟩ := respond_pf0_fmn hm 0 0 [] x
    rw [movesGo_fmn, hfmn]
    exact hhost hto

end Moves

/-! ## Foreman images (R633 to R635) -/

section Images
variable {s : State} {m : Nat} {l : List Byte}

/-- The image that FW_STAGE finds at `a`. -/
def foundImage (s : State) (a : Nat) : Image :=
  { present := true, svn := memNat s.mem (a + 4) 1, ok := true, bytes := memBytes s.mem a (0x1ED0 + memNat s.mem (a + 8) 8) }

theorem fwStage_decides (h : MayRun s m 0x0A01 l) (hlen : l.length = 16) (hr : gddrRange s (fieldOf l 0 8) (fieldOf l 8 8) = true) :
    fwStage m s = if imageOk (wake s) (fieldOf l 0 8) (fieldOf l 8 8) = false then respond m 0xB 0 [] (wake s)
      else respond m 0 0 (leBytes (1 - s.boot.running) 1) { wake s with boot := { s.boot with
        images := tblSet imageDefault s.boot.images (1 - s.boot.running) (foundImage s (fieldOf l 0 8)) } } := by
  rw [fwStage, runCmd_body h rfl (by rw [hlen]; rfl)]
  simp only [wake_gddrRange, hr, wake_boot, wake_mem]
  rfl

theorem fwActivate_selects (h : MayRun s m 0x0A02 l) (hlen : l.length = 1) (hk : fieldOf l 0 1 < 2) (hok : slotOk s (fieldOf l 0 1) = true) :
    fwActivate m s = respond m 0 0 [] { wake s with boot := { s.boot with selector := fieldOf l 0 1 } } := by
  rw [fwActivate, runCmd_body h rfl (by rw [hlen]; rfl), checked_pass _ _ (by simp [badField, Nat.le_of_lt_succ hk, hok]), wake_boot]

theorem fwActivate_refuses (h : MayRun s m 0x0A02 l) (hlen : l.length = 1) (hok : slotOk s (fieldOf l 0 1) = false) :
    fwActivate m s = respond m 3 0 [] (wake s) := by
  rw [fwActivate, runCmd_body h rfl (by rw [hlen]; rfl)]
  exact checked_refuse _ _ (by simp [badField, hok])

end Images


/-- The commands end in `answered_of_respond` but for a move that begins (`hostMove_begun`), which `moveEnds_answers` ends. -/
theorem hostMovesAndImages : Claims.HostMovesAndImages := by
  intro s s1 m host data l k v a n d
  refine ⟨fun h hlen => ?_, fun h hlen hdir hres hn => ?_, fun hnext hmsg hfind hlast hm ho => ?_, fun h hlen hrange => ?_,
    fun h hlen hk => ⟨fun hok => ?_, fun hbad => ?_⟩⟩
  · have hrun := setAperture_decides h hlen
    refine ⟨fun hmap => ?_, fun hmap => ?_⟩
    · rw [if_neg (by rw [hmap]; decide)] at hrun
      refine ⟨_, rfl, answered_of_respond h hrun rfl, ?_⟩
      obtain ⟨_, _, hfmn⟩ := respond_pf0_fmn h.1 0 0 []
        { wake s with fmn := { s.fmn with apertures := tblSet nats s.fmn.apertures 0 (fieldOf l 0 8) } }
      rw [hrun, hfmn]
      exact tblGet_tblSet_same ..
    · rw [if_pos hmap] at hrun
      exact ⟨_, rfl, answered_of_respond h hrun (wake_mboxes s)⟩
  · have hrun := hostMove_decides host h hlen hdir hres hn
    refine ⟨fun hr h0 => ?_, fun hr h0 => ?_, fun hr => ?_⟩
    · rw [if_neg (by rw [hr]; decide), if_pos h0] at hrun
      exact ⟨_, rfl, answered_of_respond h hrun (wake_mboxes s)⟩
    · rw [if_neg (by rw [hr]; decide), if_neg (Nat.ne_of_gt h0)] at hrun
      exact ⟨_, _, congrArg Host.Outcome.next hrun, hostMove_begun s m host l⟩
    · rw [if_pos hr] at hrun
      exact ⟨_, rfl, answered_of_respond h hrun (wake_mboxes s)⟩
  · have hring := nextPacket_within hnext
    have hfmn : s1.fmn = s.fmn := hring.out .fmn (by decide)
    have hfind1 : s1.fmn.moves.find? (fun y => decide (y.serial = v.serial)) = some v := by rw [hfmn]; exact hfind
    have hback : deliverPacket k s1 = moveEnds (behindPiece v data) 0 s1 := by
      rw [← moveBack_last hlast]
      simp only [deliverPacket, hmsg, hostResponse, hfind1]
    have hord : (s1.mbox v.mbox).order ≠ 0 := by
      rw [mbox_of_mboxes (congrArg Fmn.mboxes hfmn)]
      exact ho
    obtain ⟨hans, hmem, hhost⟩ := moveEnds_answers (v := behindPiece v data) hm hord
    rw [ringArrival_delivers hnext, hback]
    refine ⟨_, rfl, hans, hmem.trans (hring.out .mem (by decide)), fun hto => ?_⟩
    rw [hhost hto, hfmn, behindPiece, if_pos hto]
  · have hrun := fwStage_decides h hlen hrange
    refine ⟨fun hok => ?_, fun hbad => ?_⟩
    · rw [if_neg (by rw [hok]; decide)] at hrun
      refine ⟨_, rfl, answered_of_respond h hrun (wake_mboxes s), ?_, ?_⟩ <;> rw [hrun, respond_image]
      · exact congrArg Image.present (tblGet_tblSet_same ..)
      · exact tblGet_tblSet_ne _ (by omega)
    · rw [if_pos hbad] at hrun
      refine ⟨_, rfl, answered_of_respond h hrun (wake_mboxes s), ?_⟩
      rw [hrun, respond_boot, wake_boot]
  · have hrun := fwActivate_selects h hlen hk hok
    refine ⟨_, rfl, answered_of_respond h hrun (wake_mboxes s), ?_⟩
    rw [hrun, respond_boot]
  · have hrun := fwActivate_refuses h hlen hbad
    refine ⟨_, rfl, answered_of_respond h hrun (wake_mboxes s), ?_⟩
    rw [hrun, respond_boot, wake_boot]

/-- Settles O54: the streams and their transport, and the host's moves and the Foreman's images. -/
theorem streamsAndHostMoves : Obligations.StreamsAndHostMoves := ⟨streamsOpenAndClose, hostMovesAndImages⟩

end Sys2Proof.ModuleProofs
end

section
/-! PROOFS. What a write and a read of memory leave of the cores, for O27, O28 and O29. -/

namespace Sys2Proof.TileProofs
open Sys2Proof Sys2Proof.Machine Sys2Proof.Laws Sys2Proof.ModuleProofs

/-- `u` has the cores of `s`, but for reservations. -/
structure ResvOnly (s u : State) : Prop where
  cores : ∀ c, u.core c = { s.core c with ctxs := (u.core c).ctxs }
  ctxs : ∀ t, u.ctx t = { s.ctx t with resv := (u.ctx t).resv }

theorem ResvOnly.of_core {s u : State} (h : ∀ c, u.core c = s.core c) : ResvOnly s u :=
  ⟨fun c => by rw [h c], fun t => by rw [State.ctx, h t.core, State.ctx]⟩

theorem ResvOnly.of_within {F : List Field} {s u : State} (h : Within F s u) (hc : Field.cores ∉ F) : ResvOnly s u :=
  .of_core (core_of_within h hc)

theorem ResvOnly.trans {s u v : State} (h : ResvOnly s u) (k : ResvOnly u v) : ResvOnly s v :=
  ⟨fun c => by rw [k.cores c, h.cores c], fun t => by rw [k.ctxs t, h.ctxs t]⟩

theorem updCtx_cores (s : State) (t : Thread) (f : Ctx → Ctx) (c : Nat) :
    (s.updCtx t f).core c = { s.core c with ctxs := ((s.updCtx t f).core c).ctxs } := by
  by_cases h : t.core = c
  · subst h; rw [updCtx_core]; rfl
  · rw [updCtx_core_ne s t f h]

theorem ResvOnly.updCtx (s : State) (t : Thread) (r : Option Nat) : ResvOnly s (s.updCtx t (fun x => { x with resv := r })) := by
  refine ⟨updCtx_cores s t _, fun v => ?_⟩
  rw [updCtx_get]
  split
  · next h => subst h; rfl
  · rfl

theorem clearResv_resvOnly (c l0 l1 : Nat) (s : State) : ResvOnly s (clearResv c l0 l1 s) := by
  unfold clearResv
  dsimp only
  split
  · refine List.foldlRecOn (motive := ResvOnly s) _ _ (.of_core fun _ => rfl) fun u hu i _ => ?_
    dsimp only
    split
    · exact hu.trans (.updCtx ..)
    · exact hu
  · exact .of_core fun _ => rfl

theorem writeMask_resvOnly (a : Nat) (l : List (Byte × Bool)) (s : State) : ResvOnly s (writeMask a l s) := by
  have hbytes : ResvOnly s (if s.bad = [] then { s with mem := memPutMask s.mem a l } else eccWrite s a l) := by
    split
    · exact .of_core fun _ => rfl
    · exact .of_within (eccWrite_within (List.Subset.refl _) (.refl ..) a l) (by decide)
  unfold writeMask
  dsimp only
  refine .trans ?_ (.of_within (actLines_within (List.Subset.refl _) (.refl ..) _ _) (by decide))
  split
  · exact hbytes.trans (clearResv_resvOnly ..)
  · exact hbytes

theorem write_resvOnly (a : Nat) (l : List Byte) (s : State) : ResvOnly s (write a l s) :=
  writeMask_resvOnly a (l.map fun b => (b, true)) s

theorem spillWords_resvOnly (c ptr : Nat) (l : List Word) (s : State) : ResvOnly s (spillWords c ptr l s) := by
  induction l generalizing ptr s with
  | nil => exact .of_core fun _ => rfl
  | cons w r ih =>
    unfold spillWords
    exact (write_resvOnly ..).trans (ih ..)

/-! ## Memory in which no word is in error -/

theorem uncorrectable_clean {s : State} (h : s.bad = []) (a n : Nat) : uncorrectable s a n = none := by
  simp [uncorrectable, badWords, h]

theorem noteRead_clean {s : State} (h : s.bad = []) (a n : Nat) : noteRead a n s = actLines a n s := by
  simp [noteRead, badWords, h]

theorem actLines_mem (a n : Nat) (s : State) : (actLines a n s).mem = s.mem :=
  (actLines_within (List.Subset.refl _) (.refl ..) a n).out .mem (by decide)

theorem actLines_bad (a n : Nat) (s : State) : (actLines a n s).bad = s.bad :=
  (actLines_within (List.Subset.refl _) (.refl ..) a n).out .bad (by decide)

theorem write_clean {s : State} (h : s.bad = []) (a : Nat) (l : List Byte) :
    (write a l s).mem = memPut s.mem a l ∧ (write a l s).bad = [] := by
  have hclear : ∀ c l0 l1 (u : State), (clearResv c l0 l1 u).mem = u.mem ∧ (clearResv c l0 l1 u).bad = u.bad := fun c l0 l1 u =>
    have hw := clearResv_within (List.Subset.refl _) (.refl _ u) c l0 l1
    ⟨hw.out .mem (by decide), hw.out .bad (by decide)⟩
  unfold write writeMask
  rw [actLines_mem, actLines_bad, if_pos h, memPutMask_all]
  split
  · exact ⟨(hclear ..).1, (hclear ..).2.trans h⟩
  · exact ⟨rfl, h⟩

end Sys2Proof.TileProofs
end

section
/-! PROOFS. O28: the completion of tile operations and of MMA. An MMA completes as the statement says; a tile operation does while
its thread has at most four loop levels open, and the statement, which does not ask for that, is refuted at depth 11. -/

namespace Sys2Proof.TileProofs
open Sys2Proof Sys2Proof.Machine Sys2Proof.Laws Sys2Proof.ModuleProofs

/-! ## The completion of a held instruction (R131, R250, R270) -/

/-- From `s` to `u` cores change in their contexts alone, and a thread that waits for nothing still does. -/
structure Continues (s u : State) : Prop where
  cores : ∀ c, u.core c = { s.core c with ctxs := (u.core c).ctxs }
  idle : ∀ t, (s.ctx t).wait = .none → (u.ctx t).wait = .none

theorem Continues.refl (s : State) : Continues s s := ⟨fun _ => rfl, fun _ h => h⟩

theorem Continues.trans {s u v : State} (h : Continues s u) (k : Continues u v) : Continues s v :=
  ⟨fun c => by rw [k.cores c, h.cores c], fun t ht => k.idle t (h.idle t ht)⟩

theorem ResvOnly.continues {s u : State} (h : ResvOnly s u) : Continues s u :=
  ⟨h.cores, fun t ht => by rw [h.ctxs t]; exact ht⟩

theorem updCtx_continues (s : State) (t : Thread) {f : Ctx → Ctx} (hf : (s.ctx t).wait = .none → (f (s.ctx t)).wait = .none) :
    Continues s (s.updCtx t f) := by
  refine ⟨updCtx_cores s t f, fun v hv => ?_⟩
  rw [updCtx_get]
  split
  · next h => subst h; exact hf hv
  · exact hv

theorem pushOps_continues (t : Thread) (pops : Nat) (push : List Word) (s : State) : Continues s (pushOps t pops push s) := by
  unfold pushOps
  dsimp only
  split
  · exact updCtx_continues s t fun h => by dsimp only; split <;> exact h
  · refine .trans (updCtx_continues s t fun h => ?_) (spillWords_resvOnly ..).continues
    dsimp only [Ctx.setReg_wait]; split <;> exact h

theorem pushRets_continues (t : Thread) (pops : Nat) (push : List Word) (s : State) : Continues s (pushRets t pops push s) := by
  unfold pushRets
  dsimp only
  split
  · exact .refl s
  split
  · exact updCtx_continues s t fun h => by dsimp only; split <;> exact h
  · refine .trans (updCtx_continues s t fun h => ?_) (spillWords_resvOnly ..).continues
    dsimp only [Ctx.setReg_wait]; split <;> exact h

theorem Continues.of_free {s u : State} (h : Continues s u) (n : Nat) : Continues s { u with free := n } := ⟨h.cores, h.idle⟩

theorem advance_continues (t : Thread) (len : Nat) (s : State) : Continues s (advance t len s) := by
  have hset : ∀ f : Ctx → Ctx, (f (s.ctx t)).wait = (s.ctx t).wait → Continues s (s.updCtx t f) := fun f hf =>
    updCtx_continues s t fun h => hf.trans h
  unfold advance
  dsimp only
  split
  · split
    · exact hset _ rfl
    · split
      · exact hset _ rfl
      · split
        · exact (hset _ rfl).of_free _
        · exact (hset _ rfl).of_free _
  · exact hset _ rfl

/-- The thread waits no longer, its held instruction still to be popped. -/
def resumed (t : Thread) (s : State) : State := s.updCtx t (fun x => { x with wait := .none, heldPops := 0, heldLen := 0 })

theorem popHeld_eq (t : Thread) (push : List Word) (s : State) :
    popHeld t push s = complete t (s.ctx t).heldLen (s.ctx t).heldPops push 0 [] none (resumed t s) := rfl

theorem resumed_ctx (t : Thread) (s : State) :
    (resumed t s).ctx t = { s.ctx t with wait := .none, heldPops := 0, heldLen := 0 } := updCtx_ctx ..

theorem popHeld_continues (t : Thread) (push : List Word) (s : State) : Continues (resumed t s) (popHeld t push s) :=
  ((pushOps_continues ..).trans (pushRets_continues ..)).trans (advance_continues ..)

theorem stopCheck_continues (n : Nat) (t : Thread) (s : State) : Continues s (stopCheck n t s) := by
  induction n generalizing t s with
  | zero => exact .refl s
  | succ n ih =>
    unfold stopCheck
    dsimp only
    split
    · refine List.foldlRecOn (motive := Continues s) _ _ ?_ fun u hu i _ => ?_
      · split
        · exact updCtx_continues s t fun h => h
        · exact updCtx_continues s t fun h => h
      · dsimp only
        split
        · exact ((hu.trans (updCtx_continues u ⟨t.core, i⟩ fun _ => rfl)).trans (popHeld_continues ..)).trans (ih ..)
        · exact hu
    · exact .refl s

/-- The completion of a held instruction changes the cores in their contexts alone, and its thread waits for nothing. -/
theorem completeHeld_releases (t : Thread) (push : List Word) (s : State) :
    ((completeHeld t push s).ctx t).wait = .none ∧
      ∀ c, (completeHeld t push s).core c = { s.core c with ctxs := ((completeHeld t push s).core c).ctxs } := by
  have hpop := popHeld_continues t push s
  have hstop := stopCheck_continues 8 t (popHeld t push s)
  refine ⟨hstop.idle t (hpop.idle t (by rw [resumed_ctx])), ?_⟩
  exact ((updCtx_continues s t fun _ => rfl).trans (hpop.trans hstop)).cores

/-! ## The release of a tile operation's thread (R131, R162) -/

theorem find?_filter_ne_none (l : List TileOp) (i : Nat) :
    (l.filter (fun p => decide (p.ctx ≠ i))).find? (fun p => decide (p.ctx = i)) = none := by
  simp

/-- The thread's operation has left the machine. -/
def withoutOp (t : Thread) (s : State) : State :=
  s.updCore t.core (fun k => { k with tops := k.tops.filter (fun p => decide (p.ctx ≠ t.ctx)) })

theorem tileRelease_eq (t : Thread) (s : State) : tileRelease t s = completeHeld t [] (withoutOp t s) := rfl

theorem withoutOp_core (t : Thread) (s : State) :
    (withoutOp t s).core t.core =
      { s.core t.core with tops := (s.core t.core).tops.filter (fun p => decide (p.ctx ≠ t.ctx)) } := updCore_core ..

theorem withoutOp_ctx (t : Thread) (s : State) : (withoutOp t s).ctx t = s.ctx t := by
  rw [State.ctx, withoutOp_core]
  rfl

theorem tileRelease_releases (t : Thread) (s : State) :
    ((tileRelease t s).ctx t).wait = .none ∧ tileOpOf (tileRelease t s) t = none ∧
      ((tileRelease t s).core t.core).accs = (s.core t.core).accs := by
  obtain ⟨hwait, hcore⟩ := completeHeld_releases t [] (withoutOp t s)
  have hcore := hcore t.core
  rw [tileRelease_eq]
  refine ⟨hwait, ?_, ?_⟩
  · rw [tileOpOf, hcore, withoutOp_core]
    exact find?_filter_ne_none ..
  · rw [hcore, withoutOp_core]

/-! ## The banks of an accumulator (R121, R135) -/

/-- The words of a bank with results written into its rows from 0. -/
def bankWith (w : Tbl Word) (rows : List (List (Word × Bool))) : Tbl Word :=
  rows.zipIdx.foldl (fun a p => p.1.zipIdx.foldl (fun a q => tblSet (zeros 32) a (32 * p.2 + q.2) q.1.1) a) w

/-- The words of a bank with results written from index `i` upward. -/
def rowWith (i : Nat) (w : Tbl Word) (l : List (Word × Bool)) : Tbl Word :=
  l.zipIdx.foldl (fun a q => tblSet (zeros 32) a (i + q.2) q.1.1) w

theorem rowWith_concat (i : Nat) (w : Tbl Word) (l : List (Word × Bool)) (x : Word × Bool) :
    rowWith i w (l ++ [x]) = tblSet (zeros 32) (rowWith i w l) (i + l.length) x.1 := by
  simp [rowWith, List.zipIdx_append]

theorem bankWith_concat (w : Tbl Word) (rows : List (List (Word × Bool))) (l : List (Word × Bool)) :
    bankWith w (rows ++ [l]) = rowWith (32 * rows.length) (bankWith w rows) l := by
  simp [bankWith, rowWith, List.zipIdx_append]

/-- A row of results is where it was written, and nothing else is changed. -/
theorem tblGet_rowWith (i : Nat) (w : Tbl Word) (l : List (Word × Bool)) (j : Nat) :
    tblGet (zeros 32) (rowWith i w l) j = ((if i ≤ j then l[j - i]? else none).map (·.1)).getD (tblGet (zeros 32) w j) := by
  induction l using List.reverseRecOn with
  | nil => simp [rowWith]
  | append_singleton l x ih =>
    rw [rowWith_concat, tblGet_tblSet, ih]
    by_cases hij : i ≤ j
    · rw [if_pos hij, if_pos hij, List.getElem?_append]
      by_cases hlt : j - i < l.length
      · rw [if_pos hlt, if_neg (by omega)]
      · rw [if_neg hlt, List.getElem?_eq_none (Nat.not_lt.mp hlt)]
        by_cases he : i + l.length = j
        · simp [← he]
        · rw [if_neg he, List.getElem?_eq_none (by simp; omega)]
    · rw [if_neg hij, if_neg hij, if_neg (by omega)]

/-- The word at row `r` and column `j` after rows of at most 32 results were written. -/
theorem tblGet_bankWith (w : Tbl Word) (rows : List (List (Word × Bool))) (hlen : ∀ l, l ∈ rows → l.length ≤ 32) (r j : Nat)
    (hj : j < 32) : tblGet (zeros 32) (bankWith w rows) (32 * r + j) =
      ((rows[r]?.bind (·[j]?)).map (·.1)).getD (tblGet (zeros 32) w (32 * r + j)) := by
  induction rows using List.reverseRecOn with
  | nil => simp [bankWith]
  | append_singleton rows l ih =>
    have hl := hlen l (by simp)
    rw [bankWith_concat, tblGet_rowWith, ih fun x hx => hlen x (by simp [hx]), List.getElem?_append]
    rcases Nat.lt_trichotomy r rows.length with hlt | heq | hgt
    · rw [if_neg (by omega), if_pos hlt]; simp
    · subst heq
      simp
    · rw [if_pos (by omega), if_neg (by omega), List.getElem?_eq_none (by omega), List.getElem?_eq_none (by omega),
        List.getElem?_eq_none (by simp; omega)]
      simp

/-! ## MMA_COMPLETE (R135 to R137) -/

theorem shapeCode_le {k n : Nat} (h : shapeCode k = some n) : n ≤ 32 := by
  unfold shapeCode at h
  split at h <;> simp at h <;> omega

theorem tileOp_n_le (o : TileOp) : o.n ≤ 32 := by
  unfold TileOp.n lastN
  cases h : shapeCode (bits o.last.toNat 4 2) with
  | none => simp
  | some n => simpa using shapeCode_le h

/-- Row `r` of an operand of an MMA as values. -/
def operandRow (f : Nat) (x : Tile) (r : Nat) (p : Bool) : List Machine.Num :=
  (List.range (fmtK f)).map (rowValue f (readRowOf x r) p)

/-- The result of an MMA at row `r` and column `j`, with `w` the working bank. -/
def mmaResult (o : TileOp) (w : Tbl Word) (r j : Nat) : Word × Bool :=
  mmaElem o (operandRow (fmtA o.tfmt) o.srcA r true) (operandRow (fmtB o.tfmt) o.srcB j false) (tblGet (zeros 32) w (32 * r + j))

theorem mmaRows_eq (s : State) (c : Nat) (o : TileOp) :
    mmaRows s c o = (List.range o.m).map fun r =>
      (List.range o.n).map (mmaResult o ((s.core c).acc ((o.args.getD 0 0).toNat % 4)).working r) := by
  have hzip : ∀ {α : Type} (f : Nat → α), ((List.range o.n).map f).zipIdx = (List.range o.n).map fun j => (f j, j) := by
    intro α f
    apply List.ext_getElem <;> simp
  simp only [mmaRows, hzip, List.map_map]
  rfl

/-- Sampling leaves the accumulators alone (R97). -/
theorem sampleMma_accs (t : Thread) (o : TileOp) (old : Tbl Word) (rows : List (List (Word × Bool))) (s : State) (c : Nat) :
    ((sampleMma t o old rows s).core c).accs = (s.core c).accs := by
  have hupd : ∀ (u : State) (f : Core → Core), (∀ k, (f k).accs = k.accs) →
      ((u.updCore t.core f).core c).accs = (u.core c).accs := by
    intro u f hf
    rw [updCore_get]
    split
    · next h => rw [hf, h]
    · rfl
  unfold sampleMma
  dsimp only
  split
  · rfl
  · refine (congrArg Core.accs (updCtx_cores ..)).trans ?_
    refine List.foldlRecOn (motive := fun u : State => (u.core c).accs = (s.core c).accs) _ _ rfl fun u hu p _ => ?_
    split_ifs
    · exact hu
    · exact hu
    · exact (hupd u _ fun _ => by rfl).trans hu

theorem coreCount_core (c o n : Nat) (s : State) (j : Nat) : (coreCount c o n s).core j = s.core j :=
  core_of_within (coreCount_within (List.Subset.refl _) (.refl ..) c o n) (by decide) j

/-- The results are committed and the banks exchange (R121). -/
theorem mmaCommit_acc (t : Thread) (o : TileOp) (s : State) :
    let ac := (o.args.getD 0 0).toNat % 4
    ((mmaCommit t o s).core t.core).acc ac =
      { committed := bankWith ((s.core t.core).acc ac).working (mmaRows s t.core o)
        working := ((s.core t.core).acc ac).committed } := by
  intro ac
  unfold mmaCommit Core.acc
  dsimp only
  rw [sampleMma_accs]
  split
  · rw [updCore_core, Core.setReg_accs]; exact Core.updAcc_acc ..
  · rw [coreCount_core, updCore_core, Core.setReg_accs]; exact Core.updAcc_acc ..

/-- Element (r, j) of the new committed bank. -/
theorem tblGet_bankWith_mmaRows (s : State) (c : Nat) (o : TileOp) (w : Tbl Word) (r j : Nat) (hj : j < 32) :
    tblGet (zeros 32) (bankWith w (mmaRows s c o)) (32 * r + j) =
      if r < o.m ∧ j < o.n then (mmaResult o ((s.core c).acc ((o.args.getD 0 0).toNat % 4)).working r j).1
      else tblGet (zeros 32) w (32 * r + j) := by
  rw [mmaRows_eq, tblGet_bankWith _ _ _ _ _ hj]
  · by_cases hr : r < o.m
    · by_cases hn : j < o.n
      · simp [hr, hn]
      · simp [hr, hn]
    · simp [hr]
  · intro l hl
    obtain ⟨r, -, rfl⟩ := List.mem_map.mp hl
    simpa using tileOp_n_le o

/-! ## The fetches of an MMA (R136) -/

/-- What stores of four bytes into `k` rows of 64 bytes leave at those bytes. -/
theorem memGet_slices (f : Nat → List Byte) (hf : ∀ r, (f r).length = 4) (m : Mem) (n r i k : Nat) (_ : n < 16) (hr : r < k)
    (hi : i < 4) :
    memGet ((List.range k).foldl (fun m r => memPut m (64 * r + 4 * n) (f r)) m) (64 * r + 4 * n + i) = (f r).getD i 0 := by
  induction k with
  | zero => omega
  | succ k ih =>
    rw [List.range_succ, List.foldl_append, List.foldl_cons, List.foldl_nil, memGet_memPut, hf]
    by_cases hk : r = k
    · subst hk
      rw [if_pos (by omega), Nat.add_sub_cancel_left]
    · rw [if_neg (by omega), ih (by omega)]

/-- The byte at `a` of a tile's data side as it reads (R116). -/
def dataByte (y : Tile) (a : Nat) : Byte := if y.inUse then memGet y.data a else 0

theorem sliceBytes_length (y : Tile) (a : Nat) : (if y.inUse then memBytes y.data a 4 else List.replicate 4 0).length = 4 := by
  split
  · exact memBytes_length ..
  · rfl

theorem sliceBytes_getD (y : Tile) (a i : Nat) (hi : i < 4) :
    (if y.inUse then memBytes y.data a 4 else List.replicate 4 0).getD i 0 = dataByte y (a + i) := by
  unfold dataByte
  split
  · rw [List.getD_eq_getElem?_getD, memBytes_getElem? _ _ _ _ hi]; rfl
  · rw [List.getD_replicate _ hi]

theorem fetchSlice_reads (k : Core) (o : TileOp) (n r i : Nat) (hn : n < 16) (hr : r < 32) (hi : i < 4) :
    memGet (fetchSlice k n o).srcA.data (64 * r + 4 * n + i) = dataByte (k.tile (o.low 1)) (64 * r + 4 * n + i) ∧
      memGet (fetchSlice k n o).srcB.data (64 * r + 4 * n + i) = dataByte (k.tile (o.low 2)) (64 * r + 4 * n + i) := by
  unfold fetchSlice
  dsimp only
  constructor <;>
    exact (memGet_slices _ (fun _ => sliceBytes_length ..) _ n r i 32 hn hr hi).trans (sliceBytes_getD _ _ i hi)

theorem mmaDue_iff {s : State} {o : TileOp} :
    mmaDue s o = true ↔ o.op = .mma ∧ o.phase = .running ∧ o.at_ + mmaC o.cls + 8 ≤ s.now / 2 := by
  simp only [mmaDue, Bool.and_eq_true, decide_eq_true_eq, and_assoc]
  rfl

/-- The second half of O28 holds: an MMA completes as it says. -/
theorem matrixMultiplyCompletes : Claims.MatrixMultiplyCompletes := by
  intro s t o ho hop hph ac old w value
  have hrun : exec (.mmaComplete t) s = .next (if mmaDue s o then tileRelease t (mmaCommit t o s) else s) := by
    show Host.Outcome.next (mmaDone t s) = _
    simp only [mmaDone, ho]
  refine ⟨fun hdue => ?_, fun hearly => ?_, fun n r i hn hr hi => fetchSlice_reads _ o n r i hn hr hi⟩
  · rw [if_pos (mmaDue_iff.mpr ⟨hop, hph, hdue⟩)] at hrun
    obtain ⟨hwait, hops, haccs⟩ := tileRelease_releases t (mmaCommit t o s)
    have hacc := mmaCommit_acc t o s
    have hacc : ((tileRelease t (mmaCommit t o s)).core t.core).acc ac = _ :=
      (congrArg (fun l => tblGet accD l ac) haccs).trans hacc
    refine ⟨_, hrun, fun r j hr hj => ?_, fun r j hj hout => ?_, ?_, hwait, hops⟩
    · rw [hacc, tblGet_bankWith_mmaRows _ _ _ _ _ _ (Nat.lt_of_lt_of_le hj (tileOp_n_le o)), if_pos ⟨hr, hj⟩]
      rfl
    · rw [hacc, tblGet_bankWith_mmaRows _ _ _ _ _ _ hj, if_neg (by omega)]
    · rw [hacc]
  · rw [hrun, if_neg fun h => Nat.not_le.mpr hearly (mmaDue_iff.mp h).2.2]

/-! ## TILE_OP_COMPLETE (R74, R162) -/

/-- `y` is the context `x` but for its operand stack, the pointer of that stack's area, and its reservation. -/
structure StackOnly (x y : Ctx) : Prop where
  pc : y.pc = x.pc
  ldepth : y.ldepth = x.ldepth
  suspReq : y.suspReq = x.suspReq
  regs : ∀ n, n ≠ 2 → y.reg n = x.reg n

theorem ctx_setReg_ne (x : Ctx) {k n : Nat} (v : Word) (h : n ≠ k) : (x.setReg k v).reg n = x.reg n :=
  (Ctx.setReg_get x k n v).trans (if_neg (Ne.symm h))

theorem StackOnly.withPointer (x : Ctx) (p : Word) (l : List Word) (r : Option Nat) :
    StackOnly x { x.setReg 2 p with ops := l, resv := r } :=
  ⟨rfl, rfl, rfl, fun _ hn => ctx_setReg_ne x p hn⟩

theorem pushOps_own (t : Thread) (pops : Nat) (push : List Word) (s : State) :
    StackOnly (s.ctx t) ((pushOps t pops push s).ctx t) := by
  unfold pushOps
  dsimp only
  split
  · rw [updCtx_ctx]
    split
    · exact ⟨rfl, rfl, rfl, fun _ _ => rfl⟩
    · exact StackOnly.withPointer ..
  · rw [(spillWords_resvOnly ..).ctxs t, updCtx_ctx]
    split
    · exact StackOnly.withPointer ..
    · exact ⟨rfl, rfl, rfl, fun _ hn => (ctx_setReg_ne _ _ hn).trans (ctx_setReg_ne _ _ hn)⟩

theorem pushRets_nothing (t : Thread) (s : State) : pushRets t 0 [] s = s := if_pos ⟨rfl, rfl⟩

/-- `y` has the registers of `x` but for number `k`, and the same request to suspend. -/
structure RegOnly (k : Nat) (x y : Ctx) : Prop where
  suspReq : y.suspReq = x.suspReq
  regs : ∀ n, n ≠ k → y.reg n = x.reg n

theorem RegOnly.setReg (k : Nat) (x : Ctx) (v a : Word) : RegOnly k x { x.setReg k v with pc := a } :=
  ⟨rfl, fun _ hn => ctx_setReg_ne x v hn⟩

theorem RegOnly.leave (k : Nat) (x : Ctx) (d : Nat) (a : Word) : RegOnly k x { x with ldepth := d, pc := a } :=
  ⟨rfl, fun _ _ => rfl⟩

/-- Of a thread's registers the step after an instruction changes the innermost LC alone (R217). -/
theorem advance_own (t : Thread) (len : Nat) (s : State) :
    RegOnly (0x018 + ((s.ctx t).ldepth - 1)) (s.ctx t) ((advance t len s).ctx t) := by
  have hset : ∀ {u : State} {y : Ctx}, u.ctx t = y → RegOnly (0x018 + ((s.ctx t).ldepth - 1)) (s.ctx t) y →
      RegOnly (0x018 + ((s.ctx t).ldepth - 1)) (s.ctx t) (u.ctx t) := fun h hy => h ▸ hy
  unfold advance
  dsimp only
  split_ifs
  · exact hset (updCtx_ctx s t _) (.setReg ..)
  · exact hset (updCtx_ctx s t _) (.leave ..)
  · exact hset (updCtx_ctx s t _) (.leave ..)
  · exact hset (updCtx_ctx s t _) (.setReg ..)
  · exact hset (updCtx_ctx s t _) (.leave ..)

theorem advance_pc_of_no_loop {t : Thread} {s : State} (h : (s.ctx t).ldepth = 0) (len : Nat) :
    ((advance t len s).ctx t).pc = (s.ctx t).pc + word len := by
  unfold advance
  dsimp only
  rw [if_neg fun hd => hd.1 h, updCtx_ctx]

theorem stopCheck_of_no_request {t : Thread} {s : State} (h : (s.ctx t).suspReq = false) (n : Nat) : stopCheck n t s = s := by
  cases n with
  | zero => rfl
  | succ n => simp [stopCheck, h]

/-- A thread that nobody asked to stop goes on after its held instruction; of its registers that changes the operand stack's
pointer and the innermost LC alone. -/
theorem completeHeld_own {t : Thread} {s : State} (h : (s.ctx t).suspReq = false) :
    (∀ n, n ≠ 2 → n ≠ 0x018 + ((s.ctx t).ldepth - 1) → ((completeHeld t [] s).ctx t).reg n = (s.ctx t).reg n) ∧
      ((s.ctx t).ldepth = 0 → ((completeHeld t [] s).ctx t).pc = (s.ctx t).pc + word (s.ctx t).heldLen) := by
  have hpop := pushOps_own t (s.ctx t).heldPops [] (resumed t s)
  rw [resumed_ctx] at hpop
  have hstep := advance_own t (s.ctx t).heldLen (pushOps t (s.ctx t).heldPops [] (resumed t s))
  have hpc := advance_pc_of_no_loop (t := t) (s := pushOps t (s.ctx t).heldPops [] (resumed t s))
  rw [hpop.ldepth] at hstep hpc
  have hrun : popHeld t [] s = advance t (s.ctx t).heldLen (pushOps t (s.ctx t).heldPops [] (resumed t s)) := by
    simp only [popHeld_eq, complete, pushRets_nothing]
  rw [completeHeld, hrun, stopCheck_of_no_request (hstep.suspReq.trans (hpop.suspReq.trans h))]
  exact ⟨fun n h2 hn => (hstep.regs n hn).trans (hpop.regs n h2), fun h0 => (hpc h0 _).trans (congrArg (· + _) hpop.pc)⟩

/-- The operations that draw from the generator (R74). -/
def Converts (o : TileOp) : Prop := o.op = .tldc ∨ o.op = .tstc ∨ o.op = .tcvt ∨ o.op = .qnt ∨ o.op = .accrd

/-- Of its thread's context the commit of an operation changes CORE_SRG alone. -/
theorem tileCommit_own (t : Thread) (o : TileOp) (s : State) :
    ∃ l, (tileCommit t o s).ctx t = { s.ctx t with sr := l } ∧ (Converts o → fmtRND o.tfmt = 2 →
      l = (((s.ctx t).setReg 0x022 (o.srg.extractLsb' 0 32)).setReg 0x023 (o.srg.extractLsb' 32 32)).sr) := by
  have hcount : ∀ n a u, ((if n = 0 then u else coreCount t.core a n u).ctx t) = u.ctx t := by
    intro n a u
    split
    · rfl
    · exact congrArg (Core.ctx · t.ctx) (coreCount_core ..)
  unfold tileCommit
  dsimp only
  rw [hcount, hcount]
  split
  case h_6 =>
    refine ⟨_, rfl, fun hc => ?_⟩
    rcases hc with h | h | h | h | h <;> simp_all
  all_goals
    split
    · rw [updCtx_ctx]; exact ⟨_, rfl, fun _ _ => rfl⟩
    · next h => exact ⟨_, rfl, fun _ h2 => absurd h2 h⟩

theorem tailDue_iff {s : State} {o : TileOp} : tailDue s o = true ↔ o.phase = .tail ∧ o.at_ + o.op.tail ≤ s.now / 2 := by
  simp only [tailDue, Bool.and_eq_true, decide_eq_true_eq]
  rfl

/-- The first half of O28 for a thread whose loop depth is one that R222 allows: a tile operation completes as it says. -/
theorem tileOperationCompletes_of_ldepth_le (s : State) (t : Thread) (o : TileOp) (hl : (s.ctx t).ldepth ≤ 4)
    (ho : tileOpOf s t = some o) (hph : o.phase = .tail) :
    (o.at_ + o.op.tail ≤ s.now / 2 → (s.ctx t).suspReq = false → ∃ u, exec (.tileOpComplete t) s = .next u ∧
      (u.ctx t).wait = .none ∧ tileOpOf u t = none ∧
      (Converts o → fmtRND o.tfmt = 2 →
        (u.ctx t).reg 0x022 = o.srg.extractLsb' 0 32 ∧ (u.ctx t).reg 0x023 = o.srg.extractLsb' 32 32) ∧
      ((s.ctx t).ldepth = 0 → (u.ctx t).pc = (s.ctx t).pc + BitVec.ofNat 32 (s.ctx t).heldLen)) ∧
    (s.now / 2 < o.at_ + o.op.tail → exec (.tileOpComplete t) s = .next s) := by
  have hrun : exec (.tileOpComplete t) s = .next (if tailDue s o then tileRelease t (tileCommit t o s) else s) := by
    show Host.Outcome.next (tileDone t s) = _
    simp only [tileDone, ho]
  refine ⟨fun hdue hsusp => ?_, fun hearly => ?_⟩
  · rw [if_pos (tailDue_iff.mpr ⟨hph, hdue⟩)] at hrun
    obtain ⟨hwait, hops, -⟩ := tileRelease_releases t (tileCommit t o s)
    obtain ⟨l, hctx, hsrg⟩ := tileCommit_own t o s
    have hheld : (withoutOp t (tileCommit t o s)).ctx t = { s.ctx t with sr := l } := (withoutOp_ctx ..).trans hctx
    have hown := completeHeld_own (t := t) (s := withoutOp t (tileCommit t o s)) (by rw [hheld]; exact hsusp)
    rw [hheld] at hown
    obtain ⟨hregs, hpc⟩ := hown
    refine ⟨_, hrun, hwait, hops, fun hconv hmode => ?_, hpc⟩
    have hl := hsrg hconv hmode
    refine ⟨(hregs 0x022 (by decide) (by dsimp only; omega)).trans ?_, (hregs 0x023 (by decide) (by dsimp only; omega)).trans ?_⟩
    · rw [hl]
      exact (ctx_setReg_ne _ _ (by decide)).trans (Ctx.setReg_reg ..)
    · rw [hl]
      exact Ctx.setReg_reg ..
  · rw [hrun, if_neg fun h => Nat.not_le.mpr hearly (tailDue_iff.mp h).2]

/-! ## A loop depth that no thread has -/

/-- A converting operation of context 0 in SR mode, in its tail from cycle 0, with 5 in its generator. -/
def srTail : TileOp where
  ctx := 0
  op := .tldc
  last := 0
  pc := 0
  args := []
  tfmt := 2 * 2 ^ 11
  phase := .tail
  at_ := 0
  beat := 0
  rows := 0
  srg := 5
  sclUf := 0
  patchOvf := 0
  held := []
  view := []
  srcA := Tile.reset
  srcB := Tile.reset

/-- Core 0 in cycle 8 with that operation, and its thread at loop depth 11: the LE of the eleventh level is register 0x01E, which
holds the address of the operation's last syllable, and its LC is CORE_SRG_LO. -/
def deepLoops : State :=
  { State.reset with
    now := 16
    cores := [(0, { Core.reset with
      ctxs := [(0, { Ctx.reset 0 with ldepth := 11, wait := .tile, heldLen := 2, sr := [(0x01E, 1)] })]
      tops := [srTail] })] }

theorem deepLoops_srg : ((tileDone ⟨0, 0⟩ deepLoops).ctx ⟨0, 0⟩).reg 0x022 = 4 := by decide +kernel

/-- The first half of O28 fails: the completion leaves 4 in CORE_SRG_LO, and the operation's generator holds 5. -/
theorem not_tileOperationCompletes : ¬ Claims.TileOperationCompletes := by
  intro h
  obtain ⟨u, hu, -, -, hsrg, -⟩ := (h deepLoops ⟨0, 0⟩ srTail (by decide) rfl).1 (by decide) (by decide)
  have hdone : tileDone ⟨0, 0⟩ deepLoops = u := Host.Outcome.next.inj hu
  have h5 : (u.ctx ⟨0, 0⟩).reg 0x022 = 5 := (hsrg (.inl rfl) (by decide)).1
  rw [← hdone, deepLoops_srg] at h5
  exact absurd h5 (by decide)

/-- Refutes O28: it does not ask for a loop depth that R222 allows, and at depth 11 the loop step of the completion counts
CORE_SRG_LO down as if it were an LC (`deepLoops`). The rest of it holds: `tileOperationCompletes_of_ldepth_le` and
`matrixMultiplyCompletes`. -/
theorem not_tileOperationsComplete : ¬ Obligations.TileOperationsComplete := fun h => not_tileOperationCompletes h.1

end Sys2Proof.TileProofs
end

section
/-! PROOFS. O27: tile operations start in their order, and their beats move rows. -/

namespace Sys2Proof.TileProofs
open Sys2Proof Sys2Proof.Machine Sys2Proof.Laws Sys2Proof.ModuleProofs

/-! ## Tile operations in their core -/

theorem find?_replace {l : List TileOp} {o p : TileOp} {i : Nat} (h : l.find? (fun q => decide (q.ctx = i)) = some o)
    (hp : p.ctx = i) :
    (l.map (fun q => if q.ctx = i then p else q)).find? (fun q => decide (q.ctx = i)) = some p := by
  induction l with
  | nil => simp at h
  | cons q r ih =>
    by_cases hq : q.ctx = i
    · simp [hq, hp]
    · simp only [List.find?_cons, hq, decide_false] at h
      simp only [List.map_cons, List.find?_cons, hq, if_false, decide_false]
      exact ih h

theorem tileOpOf_ctx {s : State} {t : Thread} {o : TileOp} (h : tileOpOf s t = some o) : o.ctx = t.ctx :=
  of_decide_eq_true (List.find?_some (p := fun p : TileOp => decide (p.ctx = t.ctx)) h)

/-- The operation of a context after it was put back changed. -/
theorem tileOpOf_setTileOp {s : State} {t : Thread} {o p : TileOp} (h : tileOpOf s t = some o) (hp : p.ctx = t.ctx) :
    tileOpOf (setTileOp t.core p s) t = some p := by
  rw [tileOpOf, setTileOp, updCore_core, hp]
  exact find?_replace h hp

/-! ## TILE_OP_START (R159, R160) -/

/-- `o` is the oldest operation of core `c` that is not started, with `before` issued before it and `rest` after it. -/
structure NextOp (s : State) (c : Nat) (before : List TileOp) (o : TileOp) (rest : List TileOp) : Prop where
  tops : (s.core c).tops = before ++ o :: rest
  started : ∀ p, p ∈ before → p.phase ≠ .issued
  issued : o.phase = .issued

theorem NextOp.takeWhile {s : State} {c : Nat} {before rest : List TileOp} {o : TileOp} (h : NextOp s c before o rest) :
    (s.core c).tops.takeWhile (fun p => decide (p.phase ≠ .issued)) = before := by
  rw [h.tops, List.takeWhile_append_of_pos fun p hp => decide_eq_true (h.started p hp)]
  simp [h.issued]

theorem NextOp.getElem? {s : State} {c : Nat} {before rest : List TileOp} {o : TileOp} (h : NextOp s c before o rest) :
    (s.core c).tops[before.length]? = some o := by
  rw [h.tops]; simp

/-- An operation as it starts: from this cycle, with the generator and the regions as its thread has them (R74, R238). -/
def startOf (s : State) (c : Nat) (o : TileOp) : TileOp :=
  { o with
    phase := .running, at_ := s.now / 2, srg := (s.ctx ⟨c, o.ctx⟩).reg 0x023 ++ (s.ctx ⟨c, o.ctx⟩).reg 0x022,
    view := (s.ctx ⟨c, o.ctx⟩).sr }

theorem tileStart_waits {s : State} {c : Nat} {before rest : List TileOp} {o : TileOp} (h : NextOp s c before o rest)
    (hmay : mayStart s c before o = false) : tileStart c s = s := by
  simp only [tileStart, h.takeWhile, h.getElem?, hmay, if_true]

theorem tileStart_runs {s : State} {c : Nat} {before rest : List TileOp} {o : TileOp} (h : NextOp s c before o rest)
    (hmay : mayStart s c before o = true) (hmma : o.op ≠ .mma) (haccz : o.op ≠ .accz) (htfree : o.op ≠ .tfree) :
    tileStart c s = setTileOp c (startOf s c o) s := by
  simp only [tileStart, h.takeWhile, h.getElem?, hmay, hmma, haccz, htfree, if_false, if_true, ne_eq, not_false_eq_true,
    Bool.true_eq_false]
  rfl

/-- What a row of a tile reads as depends on its core's tiles alone. -/
theorem tileRow_congr {s u : State} {c : Nat} (h : (u.core c).tiles = (s.core c).tiles) : tileRow u c = tileRow s c := by
  funext i r
  have hi : (u.core c).tile i = (s.core c).tile i := congrArg (tblGet tileD · i) h
  unfold tileRow
  rw [hi]

theorem mmaFault_congr {s u : State} {c : Nat} {o p : TileOp} (h : (u.core c).tiles = (s.core c).tiles) (ht : p.tfmt = o.tfmt)
    (hl : p.last = o.last) (ha : p.args = o.args) : mmaFault u c p = mmaFault s c o := by
  unfold mmaFault TileOp.m TileOp.n TileOp.low
  rw [tileRow_congr h, ht, hl, ha]

/-- An MMA begins its side read: the committed bank is copied to the working one and the matrix unit taken (R121, R137). -/
theorem tileStart_mma {s : State} {c : Nat} {before rest : List TileOp} {o : TileOp} (h : NextOp s c before o rest)
    (hmay : mayStart s c before o = true) (hmma : o.op = .mma) (hfault : mmaFault s c o = none) :
    (tileStart c s).core c =
      { (setTileOp c (sideRead c (startOf s c o) s).1 (sideRead c (startOf s c o) s).2).core c with
        mmaFree := s.now / 2 + mmaC o.cls } := by
  have haccz : o.op ≠ .accz := by rw [hmma]; decide
  have htfree : o.op ≠ .tfree := by rw [hmma]; decide
  simp only [tileStart, h.takeWhile, h.getElem?]
  rw [if_neg (by rw [hmay]; decide), if_neg haccz, if_neg htfree, if_neg (not_not.mpr hmma),
    mmaFault_congr (s := s) (o := o) ?_ ?_ ?_ ?_, hfault]
  · exact updCore_core ..
  · rw [updCore_core]
    simp [act, setTileOp, sideRead]
  · rfl
  · rfl
  · rfl

theorem mayStart_alone {s : State} {c : Nat} {o : TileOp} (hw : (s.bench (benchOf c)).awins = []) (hat : o.at_ < s.now / 2)
    (hmma : (s.core c).mmaFree ≤ s.now / 2) (hls : (s.core c).lsFree ≤ s.now / 2) (hvec : (s.core c).vecFree ≤ s.now / 2)
    (h0 : (s.core c).rd0Free ≤ s.now / 2) (h1 : (s.core c).rd1Free ≤ s.now / 2) (hwr : (s.core c).wrFree ≤ s.now / 2) :
    mayStart s c [] o = true := by
  have hwin : inWindow s c = false := by simp [inWindow, hw]
  have hunit : ∀ u, (if u = 1 then (s.core c).vecFree else (s.core c).lsFree) ≤ s.now / 2 := fun u => by split <;> assumption
  have hnow : coreNow s = s.now / 2 := rfl
  simp only [mayStart, hnow, hwin, hat, hunit, hmma, h0, h1, hwr]
  split <;> simp

theorem setTileOp_core (c : Nat) (o : TileOp) (s : State) :
    (setTileOp c o s).core c = { s.core c with tops := (s.core c).tops.map (fun p => if p.ctx = o.ctx then o else p) } :=
  updCore_core ..

theorem sideRead_core (c : Nat) (o : TileOp) (s : State) :
    (sideRead c o s).2.core c =
      (s.core c).updAcc ((o.args.getD 0 0).toNat % 4) (fun x => { x with working := x.committed }) :=
  updCore_core ..

theorem tileOperationStarts : Claims.TileOperationStarts := by
  intro s c before o rest htops hstarted hissued
  have hnext : NextOp s c before o rest := ⟨htops, hstarted, hissued⟩
  have hrun : exec (.tileOpStart c) s = .next (tileStart c s) := rfl
  rw [hrun]
  refine ⟨fun hmay hmma haccz htfree => ?_, fun hmay hmma hfault _ => ⟨_, rfl, ?_⟩, fun hb hw hat hmma hls hvec h0 h1 hwr => ?_,
    fun hmay => ?_⟩
  · rw [tileStart_runs hnext hmay hmma haccz htfree]
    rfl
  · rw [tileStart_mma hnext hmay hmma hfault]
    refine ⟨rfl, ?_, (sideRead c (startOf s c o) s).1, ?_, rfl, rfl, rfl⟩
    · rw [setTileOp_core, sideRead_core]
      exact Core.updAcc_acc (s.core c) ((o.args.getD 0 0).toNat % 4) fun x => { x with working := x.committed }
    · rw [setTileOp_core, sideRead_core]
      exact List.mem_map.mpr ⟨o, by simp [htops], if_pos rfl⟩
  · subst hb
    exact mayStart_alone hw hat hmma hls hvec h0 h1 hwr
  · rw [tileStart_waits hnext hmay]

/-! ## Rows of tiles (R114 to R116) -/

theorem memBytes_nil (a n : Nat) : memBytes [] a n = List.replicate n 0 := by
  induction n generalizing a with
  | zero => rfl
  | succ n ih => rw [memBytes, ih]; rfl

theorem touchTile_inUse (x : Tile) : (touchTile x).inUse = true := by
  unfold touchTile
  split
  · assumption
  · rfl

/-- The data side of a tile that was touched and then written is what was written. -/
theorem touchTile_written (x : Tile) (d c p : Mem) :
    (touchTile { touchTile x with data := d, scale := c, patch := p }).data = d :=
  congrArg Tile.data (if_pos (touchTile_inUse x))

/-- Row `r` of a tile's data side as it reads: the side of a tile that is not in use reads 0. -/
theorem tileRow_data (s : State) (c i r : Nat) :
    (tileRow s c i r).data = memBytes (touchTile ((s.core c).tile i)).data (64 * r) 64 := by
  unfold tileRow touchTile
  dsimp only
  split
  · rfl
  · exact (memBytes_nil ..).symm

/-- A tile row written is the row read, and the tile's other rows read as before. -/
theorem putRow_data {x : Row} (hx : x.data.length = 64) (s : State) (c i r k : Nat) :
    (tileRow (putRow c i r x s) c i k).data = if k = r then x.data else (tileRow s c i k).data := by
  rw [tileRow_data, tileRow_data, putRow, updCore_core, Core.updTile_tile]
  dsimp only
  rw [touchTile_written]
  split
  · next h => subst h; rw [← hx]; exact memBytes_memPut_same ..
  · next h => exact memBytes_memPut_apart _ _ _ _ _ (by omega)

theorem tileRow_data_length (s : State) (c i r : Nat) : (tileRow s c i r).data.length = 64 := by
  rw [tileRow_data, memBytes_length]

/-! ## Rows between memory and a tile (R140) -/

/-- The address in local memory of row `r` of a load or store. -/
def rowAt (o : TileOp) (r : Nat) : Nat := rowAddr (o.args.getD 1 0) (o.args.getD 2 0) r

/-- Row `r` of the tile that a TLD writes, once it has its bytes from memory. -/
def loadedRow (s : State) (t : Thread) (o : TileOp) (r : Nat) : List Byte :=
  memBytes s.mem (localBase t.core + rowAt o r) (2 * o.n) ++ (tileRow s t.core (o.low 0) r).data.drop (2 * o.n)

theorem loadedRow_length (s : State) (t : Thread) (o : TileOp) (r : Nat) : (loadedRow s t o r).length = 64 := by
  have hn := tileOp_n_le o
  rw [loadedRow, List.length_append, memBytes_length, List.length_drop, tileRow_data_length]
  omega

/-- The checks of a row depend on the thread's level and the operation's regions, so no beat changes them (R139, R238). -/
theorem rowOk_congr {s u : State} {t : Thread} {o p : TileOp} (r : Option Nat) (h : u.ctx t = { s.ctx t with resv := r })
    (hv : p.view = o.view) : rowOk u t p = rowOk s t o := by
  funext kind a n
  unfold rowOk
  rw [h, hv]
  rfl

theorem actLines_core (a n : Nat) (s : State) (c : Nat) : (actLines a n s).core c = s.core c :=
  core_of_within (actLines_within (List.Subset.refl _) (.refl ..) a n) (by decide) c

theorem forAll_singleton {α : Type} (x : α) (f : α → State → State) (s : State) : forAll [x] f s = f x s := rfl

theorem readRow_clean {s : State} {t : Thread} {o : TileOp} {a n : Nat} (hbad : s.bad = []) (hok : rowOk s t o 0 a n = true)
    (row : Nat) (k : List Byte → State → TileOp → Beat) :
    readRow t row [(a, n)] s o k = k (memBytes s.mem (localBase t.core + a) n) (actLines (localBase t.core + a) n s) o := by
  have hall : ([(a, n)].all fun p => rowOk s t o 0 p.1 p.2) = true := by simp [hok]
  have hclean : [(a, n)].findSome? (fun p => uncorrectable s (localBase t.core + p.1) p.2) = none := by
    simp [uncorrectable_clean hbad]
  have hbytes : [(a, n)].flatMap (fun p => memBytes s.mem (localBase t.core + p.1) p.2) =
      memBytes s.mem (localBase t.core + a) n := by simp
  unfold readRow
  dsimp only
  rw [if_neg (by rw [hall]; decide), hclean, hbytes, forAll_singleton, noteRead_clean hbad]

/-- Row `i` of the tile of `o` has its bytes from memory in `u`; the tile's other rows, the rest of the core and memory are as in
`s`. -/
structure RowLoaded (s : State) (t : Thread) (o : TileOp) (i : Nat) (u : State) : Prop where
  core : ∃ l, u.core t.core = { s.core t.core with tiles := l }
  mem : u.mem = s.mem
  bad : u.bad = s.bad
  data : ∀ k, (tileRow u t.core (o.low 0) k).data =
    if k = i then loadedRow s t o i else (tileRow s t.core (o.low 0) k).data

theorem loadRow_clean {s : State} {t : Thread} {o : TileOp} {i : Nat} (hbad : s.bad = [])
    (hok : rowOk s t o 0 (rowAt o i) (2 * o.n) = true) :
    ∃ u, loadRow t 0 i s o = .ok u { o with rows := i + 1 } ∧ RowLoaded s t o i u := by
  have hrow : tileRow (actLines (localBase t.core + rowAt o i) (2 * o.n) s) t.core = tileRow s t.core :=
    tileRow_congr (congrArg Core.tiles (actLines_core ..))
  refine ⟨putRow t.core (o.low 0) i { tileRow s t.core (o.low 0) i with data := loadedRow s t o i }
    (actLines (localBase t.core + rowAt o i) (2 * o.n) s), ?_, ?_, ?_, ?_, fun k => ?_⟩
  · unfold rowAt at hok hrow
    simp only [loadRow, if_true, readRow_clean hbad hok, hrow]
    rfl
  · rw [putRow, updCore_core, actLines_core]
    exact ⟨_, rfl⟩
  · rw [putRow, updCore_mem, actLines_mem]
  · rw [putRow, updCore_bad, actLines_bad]
  · rw [putRow_data (loadedRow_length ..), hrow]

/-- Another row reads from memory the same after it. -/
theorem RowLoaded.loadedRow_ne {s u : State} {t : Thread} {o : TileOp} {i r : Nat} (h : RowLoaded s t o i u) (hr : r ≠ i) :
    loadedRow u t o r = loadedRow s t o r := by
  rw [loadedRow, loadedRow, h.mem, h.data, if_neg hr]

/-- The rows of a beat of TLD: each has its bytes from memory, the tile's others are as before. -/
theorem beatAll_loadRow {t : Thread} {l : List Nat} (hl : l.Nodup) {s : State} {o : TileOp} (hbad : s.bad = [])
    (hok : ∀ r, r ∈ l → rowOk s t o 0 (rowAt o r) (2 * o.n) = true) :
    ∃ u k, beatAll (loadRow t 0) l s o = .ok u { o with rows := k } ∧ tileOpOf u t = tileOpOf s t ∧
      ∀ r, (tileRow u t.core (o.low 0) r).data = if r ∈ l then loadedRow s t o r else (tileRow s t.core (o.low 0) r).data := by
  induction l generalizing s o with
  | nil => exact ⟨s, o.rows, rfl, rfl, fun r => by simp⟩
  | cons i l ih =>
    obtain ⟨hi, hl⟩ := List.nodup_cons.mp hl
    obtain ⟨s1, hfirst, hload⟩ := loadRow_clean hbad (hok i List.mem_cons_self)
    obtain ⟨tl, hcore⟩ := hload.core
    have hrow : rowOk s1 t { o with rows := i + 1 } = rowOk s t o :=
      rowOk_congr (s.ctx t).resv (by rw [State.ctx, hcore]; rfl) rfl
    obtain ⟨u, k, hrun, htop, hrows⟩ := ih hl (s := s1) (o := { o with rows := i + 1 }) (hload.bad.trans hbad) fun r hr => by
      rw [hrow]; exact hok r (List.mem_cons_of_mem i hr)
    refine ⟨u, k, ?_, ?_, fun r => (hrows r).trans ?_⟩
    · rw [beatAll, hfirst]; exact hrun
    · rw [htop, tileOpOf, hcore]; rfl
    · by_cases hr : r ∈ l
      · rw [if_pos hr, if_pos (List.mem_cons_of_mem i hr)]
        exact hload.loadedRow_ne fun h => hi (h ▸ hr)
      · rw [if_neg hr]
        refine (hload.data r).trans ?_
        by_cases hri : r = i
        · subst hri; simp
        · rw [if_neg hri, if_neg (by simp [hri, hr])]

theorem storeRow_ok {s : State} {t : Thread} {o : TileOp} {r : Nat} (hok : rowOk s t o 1 (rowAt o r) (2 * o.n) = true) :
    storeRow t 0 r s o = .ok (write (localBase t.core + rowAt o r) ((tileRow s t.core (o.low 0) r).data.take (2 * o.n)) s)
      { o with rows := r + 1 } := by
  unfold rowAt at hok
  simp only [storeRow, if_true, hok, Bool.true_eq_false, if_false]
  rfl

/-- The rows of a beat of TST: the last is in memory. -/
theorem beatAll_storeRow {t : Thread} (l : List Nat) (r : Nat) {s : State} {o : TileOp} (hbad : s.bad = [])
    (hok : ∀ k, k ∈ l ++ [r] → rowOk s t o 1 (rowAt o k) (2 * o.n) = true) :
    ∃ u k, beatAll (storeRow t 0) (l ++ [r]) s o = .ok u { o with rows := k } ∧ tileOpOf u t = tileOpOf s t ∧
      memBytes u.mem (localBase t.core + rowAt o r) (2 * o.n) = (tileRow s t.core (o.low 0) r).data.take (2 * o.n) := by
  induction l generalizing s o with
  | nil =>
    have hlast := storeRow_ok (hok r (by simp))
    refine ⟨write (localBase t.core + rowAt o r) ((tileRow s t.core (o.low 0) r).data.take (2 * o.n)) s, r + 1, ?_, ?_, ?_⟩
    · rw [List.nil_append, beatAll, hlast]; rfl
    · rw [tileOpOf, (write_resvOnly ..).cores t.core]; rfl
    · have hlen : ((tileRow s t.core (o.low 0) r).data.take (2 * o.n)).length = 2 * o.n := by
        have hn := tileOp_n_le o
        rw [List.length_take, tileRow_data_length]
        omega
      have hput := memBytes_memPut_same s.mem (localBase t.core + rowAt o r) ((tileRow s t.core (o.low 0) r).data.take (2 * o.n))
      rw [hlen] at hput
      rw [(write_clean hbad ..).1, hput]
  | cons i l ih =>
    have hfirst := storeRow_ok (hok i (by simp))
    generalize hs1 : write (localBase t.core + rowAt o i) ((tileRow s t.core (o.low 0) i).data.take (2 * o.n)) s = s1 at hfirst
    have hresv : ResvOnly s s1 := hs1 ▸ write_resvOnly ..
    have hrow : rowOk s1 t { o with rows := i + 1 } = rowOk s t o := rowOk_congr _ (hresv.ctxs t) rfl
    have htile : tileRow s1 t.core = tileRow s t.core := tileRow_congr (by rw [hresv.cores t.core])
    obtain ⟨u, k, hrun, htop, hmem⟩ := ih (s := s1) (o := { o with rows := i + 1 }) (hs1 ▸ (write_clean hbad ..).2) fun j hj => by
      rw [hrow]; exact hok j (List.mem_cons_of_mem i hj)
    refine ⟨u, k, ?_, ?_, ?_⟩
    · rw [List.cons_append, beatAll, hfirst]; exact hrun
    · rw [htop, tileOpOf, hresv.cores t.core]; rfl
    · exact hmem.trans (congrArg (fun f : Nat → Nat → Row => (f _ r).data.take _) htile)

/-! ## TILE_BEAT (R140, R161) -/

theorem endBeats_tiles (op : TOp) (n : Nat) (k : Core) : (endBeats op n k).tiles = k.tiles := by
  unfold endBeats; dsimp only; split <;> rfl

theorem endBeats_tops (op : TOp) (n : Nat) (k : Core) : (endBeats op n k).tops = k.tops := by
  unfold endBeats; dsimp only; split <;> rfl

/-- A beat that meets no fault: what its rows leave of the tiles and of memory stays, and the operation counts it. -/
theorem tileBeat_ok {s u : State} {t : Thread} {o : TileOp} {k : Nat} (ho : tileOpOf s t = some o) (hph : o.phase = .running)
    (hop : o.op ≠ .mma) (hat : o.at_ ≤ s.now / 2) (hports : ((o.op.ports.1 || o.op.ports.2.1) && fetchNow s t.core) = false)
    (hbeat : beatOf t s o = .ok u { o with rows := k }) (hu : tileOpOf u t = tileOpOf s t) :
    ((tileBeat t s).core t.core).tiles = (u.core t.core).tiles ∧ (tileBeat t s).mem = u.mem ∧
      ∃ p, tileOpOf (tileBeat t s) t = some p ∧ p.beat = o.beat + 1 ∧
        p.phase = if o.beat + 1 < o.beats then .running else .tail := by
  have hgo : ¬ (o.phase ≠ .running ∨ o.op = .mma ∨ coreNow s < o.at_ ∨
      ((o.op.ports.1 || o.op.ports.2.1) && fetchNow s t.core) = true) := by
    rintro (h | h | h | h)
    · exact h hph
    · exact hop h
    · exact Nat.not_le.mpr h hat
    · rw [hports] at h; exact Bool.false_ne_true h
  have hact : ∀ n, tileOpOf (act (benchOf t.core) 0x6828 n u) t = some o := fun n => hu.trans ho
  have hctx : o.ctx = t.ctx := tileOpOf_ctx ho
  simp only [tileBeat, ho]
  rw [if_neg hgo, hbeat]
  dsimp only
  split
  · refine ⟨?_, rfl, _, tileOpOf_setTileOp (hact _) hctx, rfl, hph⟩
    rw [setTileOp_core]
    rfl
  · refine ⟨?_, rfl, { o with rows := k, beat := o.beat + 1, phase := .tail, at_ := coreNow s }, ?_, rfl, rfl⟩
    · rw [updCore_core, endBeats_tiles, setTileOp_core]
      rfl
    · rw [tileOpOf, updCore_core, endBeats_tops]
      exact tileOpOf_setTileOp (hact _) hctx

/-- The rows of a beat of two rows. -/
def beatRows (o : TileOp) : List Nat := ((List.range 2).map (fun i => 2 * o.beat + i)).filter (fun r => decide (r < o.m))

theorem beatOf_tld {o : TileOp} (h : o.op = .tld) {t : Thread} {s : State} :
    beatOf t s o = beatAll (loadRow t 0) (beatRows o) s o := by
  simp only [beatOf, h]
  rfl

theorem beatOf_tst {o : TileOp} (h : o.op = .tst) {t : Thread} {s : State} :
    beatOf t s o = beatAll (storeRow t 0) (beatRows o) s o := by
  simp only [beatOf, h]
  rfl

theorem mem_beatRows {o : TileOp} {r : Nat} : r ∈ beatRows o ↔ (2 * o.beat ≤ r ∧ r < 2 * o.beat + 2) ∧ r < o.m := by
  simp only [beatRows, List.mem_filter, List.mem_map, List.mem_range, decide_eq_true_eq]
  refine and_congr_left fun _ => ⟨fun ⟨i, hi, hr⟩ => by omega, fun h => ⟨r - 2 * o.beat, by omega, by omega⟩⟩

theorem beatRows_nodup (o : TileOp) : (beatRows o).Nodup :=
  (List.nodup_range.map fun a b h => by simpa using h).filter _

/-- The rows of a beat end in its second row, or in the last of M. -/
theorem beatRows_last {o : TileOp} {r : Nat} (hr : 2 * o.beat ≤ r) (hr2 : r < 2 * o.beat + 2) (hm : r < o.m)
    (hlast : r + 1 = o.m ∨ r = 2 * o.beat + 1) : ∃ l, beatRows o = l ++ [r] := by
  have hrows : beatRows o = [2 * o.beat, 2 * o.beat + 1].filter (fun r => decide (r < o.m)) := rfl
  by_cases h : r = 2 * o.beat + 1
  · refine ⟨[2 * o.beat], ?_⟩
    rw [hrows, List.filter_cons_of_pos (by simp; omega), List.filter_cons_of_pos (by simp; omega), h]
    rfl
  · refine ⟨[], ?_⟩
    rw [hrows, List.filter_cons_of_pos (by simp; omega), List.filter_cons_of_neg (by simp; omega)]
    simp; omega

theorem rowOk_beatRows {s : State} {t : Thread} {o : TileOp} {kind : Nat}
    (h : ∀ k, k < 2 → rowOk s t o kind (rowAddr (o.args.getD 1 0) (o.args.getD 2 0) (2 * o.beat + k)) (2 * o.n) = true) (r : Nat)
    (hr : r ∈ beatRows o) : rowOk s t o kind (rowAt o r) (2 * o.n) = true := by
  obtain ⟨⟨h0, h2⟩, -⟩ := mem_beatRows.mp hr
  have hk := h (r - 2 * o.beat) (by omega)
  rwa [Nat.add_sub_cancel' h0] at hk

theorem tileBeatsMoveRows : Claims.TileBeatsMoveRows := by
  intro s t o r ho hph hat a base hbad h0 h2 hm
  have hrun : exec (.tileBeat t) s = .next (tileBeat t s) := rfl
  rw [hrun]
  refine ⟨fun hop hok => ?_, fun hop hok hfetch hlast => ?_, fun hop hfetch => ?_⟩
  · obtain ⟨u, k, hbeat, htop, hrows⟩ := beatAll_loadRow (beatRows_nodup o) hbad (rowOk_beatRows hok)
    rw [← beatOf_tld hop] at hbeat
    obtain ⟨htiles, -, hnext⟩ := tileBeat_ok ho hph (by rw [hop]; decide) hat (by rw [hop]; rfl) hbeat htop
    refine ⟨_, rfl, ?_, hnext⟩
    rw [tileRow_congr htiles, hrows, if_pos (mem_beatRows.mpr ⟨⟨h0, h2⟩, hm⟩)]
    rfl
  · obtain ⟨l, hl⟩ := beatRows_last h0 h2 hm hlast
    obtain ⟨u, k, hbeat, htop, hmem⟩ := beatAll_storeRow l r hbad (hl ▸ rowOk_beatRows hok)
    rw [← hl, ← beatOf_tst hop] at hbeat
    obtain ⟨-, hmem', p, hp, hcount, -⟩ := tileBeat_ok ho hph (by rw [hop]; decide) hat (by rw [hop, hfetch]; rfl) hbeat htop
    refine ⟨_, rfl, ?_, p, hp, hcount⟩
    rw [hmem']
    exact hmem
  · have hclaimed : ((o.op.ports.1 || o.op.ports.2.1) && fetchNow s t.core) = true := by rw [hop, hfetch]; rfl
    simp only [tileBeat, ho]
    rw [if_pos (.inr (.inr (.inr hclaimed)))]

/-- Settles O27: a start is the branch of TILE_OP_START that the oldest operation takes; that the rows of a beat are moved is an
induction over them. -/
theorem tileOperationsRun : Obligations.TileOperationsRun := ⟨tileOperationStarts, tileBeatsMoveRows⟩

end Sys2Proof.TileProofs
end

section
/-! PROOFS. O29: the assay unit's windows and the comparison of samples. -/

namespace Sys2Proof.TileProofs
open Sys2Proof Sys2Proof.Machine Sys2Proof.Laws Sys2Proof.ModuleProofs

/-! ## Windows (R99, R100) -/

theorem asyw_runs {s : State} {t : Thread} {a : Word} (h : Runs t 1 ⟨1, 0, 0, 0⟩ s) (ha : operands (firstIssue t s) t 1 = [a]) :
    asyw t s = complete t 1 1 [] 0 [] none (if a.toNat % 65536 = 0 then firstIssue t s else
      (firstIssue t s).updBench (benchOf t.core) (fun x =>
        { x with awins := x.awins ++ [{ core := t.core, len := a.toNat % 65536, endAt := none, free := 0 }] })) := by
  unfold asyw
  rw [issue_runs h rfl]
  dsimp only
  rw [ha]
  rfl

theorem windowStart_starts {s : State} {b : Nat} {w : AWin} {r : List AWin} (hw : (s.bench b).awins = w :: r)
    (hend : w.endAt = none) (hls : lsRunning s w.core = false) :
    windowStart b s = s.updBench b (fun x =>
      { x with awins := { w with endAt := some (s.now / 2 + w.len), free := s.now / 2 } :: r }) := by
  simp only [windowStart, hw]
  rw [if_pos ⟨hend, hls⟩]
  rfl

/-- A sample fits in no window that ends before its comparison would (R101). -/
theorem sampleDue_isNone {w : AWin} {x : Sample} {e : Nat} (hend : w.endAt = some e) (h : e < max w.free x.at_ + sampleTime x) :
    (sampleDue w x).isNone = true := by
  simp only [sampleDue, hend]
  rw [if_neg (Nat.not_le.mpr h)]
  rfl

theorem windowEnd_ends {s : State} {b e : Nat} {w : AWin} {r : List AWin} (hw : (s.bench b).awins = w :: r)
    (hend : w.endAt = some e) (he : e ≤ s.now / 2)
    (hq : ∀ x, x ∈ (s.core w.core).samplesQ → e < max w.free x.at_ + sampleTime x) :
    windowEnd b s = s.updBench b (fun x => { x with awins := r }) := by
  have hall : (s.core w.core).samplesQ.all (fun x => (sampleDue w x).isNone) = true :=
    List.all_eq_true.mpr fun x hx => sampleDue_isNone hend (hq x hx)
  simp only [windowEnd, hw, hend]
  exact if_pos ⟨he, hall⟩

theorem windowEnd_waits {s : State} {b e : Nat} {w : AWin} {r : List AWin} (hw : (s.bench b).awins = w :: r)
    (hend : w.endAt = some e) (he : s.now / 2 < e) : windowEnd b s = s := by
  simp only [windowEnd, hw, hend]
  exact if_neg fun h => Nat.not_le.mpr he h.1

theorem assayWindows : Claims.AssayWindows := by
  intro s t a b w r s1 bt
  have hrun : exec (.asyw t) s = .next (asyw t s) := rfl
  refine ⟨fun hruns ha => ⟨fun h0 => ?_, fun h0 => ?_⟩,
    fun hw => ⟨fun hend hls => ?_, fun e hend he hq => ?_, fun e hend he => ?_⟩⟩
  · rw [hrun, asyw_runs hruns ha, if_pos h0]
    rfl
  · rw [hrun, asyw_runs hruns ha, if_neg h0]
  · have hnone : lsRunning s w.core = false := by simpa [lsRunning] using hls
    exact congrArg Host.Outcome.next (windowStart_starts hw hend hnone)
  · exact congrArg Host.Outcome.next (windowEnd_ends hw hend he hq)
  · exact congrArg Host.Outcome.next (windowEnd_waits hw hend he)

/-! ## Counters of a bench (R93) -/

/-- A counter that does not reach its end counts. -/
theorem counterCount_counterAdd {v : Dword} {n : Nat} (h : counterCount v + n < 2 ^ 48) :
    counterCount (counterAdd v n) = counterCount v + n := by
  have hmod : ∀ k : Nat, k % 2 ^ 64 % 2 ^ 48 = k % 2 ^ 48 := fun k => Nat.mod_mod_of_dvd k (by decide)
  unfold counterCount at *
  unfold counterAdd
  dsimp only
  split
  · rw [BitVec.toNat_ofNat, hmod]; omega
  · split
    · next h0 => rw [h0]; rfl
    · rw [BitVec.toNat_ofNat, hmod]; omega

theorem count_r (b o n : Nat) (s : State) (k : Nat) :
    ((count b o n s).bench b).r k = if o = k then counterAdd ((s.bench b).r o) n else (s.bench b).r k := by
  rw [count, updBench_bench, Bench.setR_get]

theorem act_r (b' o n : Nat) (s : State) (b k : Nat) : ((act b' o n s).bench b).r k = (s.bench b).r k := by
  rw [act, updBench_get]
  split
  · next h => subst h; rfl
  · rfl

theorem actLines_r (a n : Nat) (s : State) (b k : Nat) : ((actLines a n s).bench b).r k = (s.bench b).r k := by
  unfold actLines
  split
  · exact act_r ..
  · rfl

/-- Reading memory counts corrected errors, and changes no other register of a bench (R437). -/
theorem noteRead_r (a n : Nat) (s : State) (b : Nat) {k : Nat} (hk : k ≠ 0x6A00) :
    ((noteRead a n s).bench b).r k = (s.bench b).r k := by
  have hcount : ∀ (b' m : Nat) (u : State), ((count b' 0x6A00 m u).bench b).r k = (u.bench b).r k := by
    intro b' m u
    by_cases h : b' = b
    · subst h; rw [count_r, if_neg (Ne.symm hk)]
    · rw [count, updBench_ne _ _ h]
  unfold noteRead
  dsimp only
  rw [actLines_r]
  split
  · rfl
  · split
    · exact hcount ..
    · rfl

/-! ## The reference of a sample (R102) -/

/-- The reference rows of a sample of core `c` are read. -/
def readRefs (c : Nat) (x : Sample) (s : State) : State :=
  forAll (refAddrs x) (fun a s => noteRead (localBase c + a) (2 * x.k) s) s

theorem readRefs_within (c : Nat) (x : Sample) (s : State) : Within [.bad, .benches] s (readRefs c x s) :=
  forAll_within (.refl ..) fun _ _ hv => noteRead_within (List.Subset.refl _) hv _ _

theorem readRefs_r (c : Nat) (x : Sample) (s : State) (b : Nat) {k : Nat} (hk : k ≠ 0x6A00) :
    ((readRefs c x s).bench b).r k = (s.bench b).r k :=
  List.foldlRecOn (motive := fun u : State => (u.bench b).r k = (s.bench b).r k) _ _ rfl fun u hu _ _ =>
    (noteRead_r _ _ u b hk).trans hu

theorem forAll_noteRead_bad {s : State} (h : s.bad = []) (f : Nat → Nat) (n : Nat) (l : List Nat) :
    (forAll l (fun a s => noteRead (f a) n s) s).bad = [] := by
  induction l generalizing s with
  | nil => exact h
  | cons a l ih => exact ih (by dsimp only; rw [noteRead_clean h, actLines_bad, h])

theorem readRefs_bad {s : State} (h : s.bad = []) (c : Nat) (x : Sample) : (readRefs c x s).bad = [] := by
  rw [readRefs, forAll_noteRead_bad h (fun a => localBase c + a)]

/-! ## The comparison of a column (R102 to R104) -/

theorem errorUnits_bench (e : Machine.Num) (esc : Int) (s : State) : (errorUnits e esc s).2.bench = s.bench := by
  unfold errorUnits
  split <;> rfl

/-- CNT of the slot counts the column. -/
theorem compareColumn_cnt (b c : Nat) (x : Sample) (a : List Machine.Num) (s : State) (j : Nat) :
    ((compareColumn b c x a s j).bench b).r (0x4510 + x.layer * 0x40) =
      counterAdd ((s.bench b).r (0x4510 + x.layer * 0x40)) 1 := by
  have hslot : 0x4510 + x.layer * 0x40 = 0x4500 + x.layer * 0x40 + 0x10 := by omega
  unfold compareColumn
  dsimp only
  rw [hslot, count_r, if_pos rfl, count_r, if_neg (by omega), updBench_bench, Bench.setR_get, if_neg (by omega), errorUnits_bench]

/-- The columns of a sample, one after the other. -/
theorem foldl_compareColumn_cnt (b c : Nat) (x : Sample) (a : List Machine.Num) (l : List Nat) (s : State)
    (h : counterCount ((s.bench b).r (0x4510 + x.layer * 0x40)) + l.length < 2 ^ 48) :
    counterCount (((l.foldl (compareColumn b c x a) s).bench b).r (0x4510 + x.layer * 0x40)) =
      counterCount ((s.bench b).r (0x4510 + x.layer * 0x40)) + l.length := by
  induction l generalizing s with
  | nil => rfl
  | cons j l ih =>
    rw [List.length_cons] at h
    have hone := counterCount_counterAdd (v := (s.bench b).r (0x4510 + x.layer * 0x40)) (n := 1) (by omega)
    rw [← compareColumn_cnt b c x a s j] at hone
    rw [List.foldl_cons, ih _ (by omega), hone, List.length_cons]
    omega

theorem foldl_compareColumn_core (b c : Nat) (x : Sample) (a : List Machine.Num) (l : List Nat) (s : State) (k : Nat) :
    (l.foldl (compareColumn b c x a) s).core k = s.core k :=
  core_of_within (F := [.benches, .free])
    (Within.foldl (.refl ..) fun _ hv _ => compareColumn_within (List.Subset.refl _) hv ..) (by decide) k

theorem refRow_congr {s u : State} (h : u.mem = s.mem) : refRow u = refRow s := by
  funext c a k
  unfold refRow
  rw [h]

/-- The error of column `j` before it is cut to units. -/
def columnError (s : State) (c : Nat) (x : Sample) (a : List Machine.Num) (j : Nat) : Machine.Num :=
  (codeValue 0x11 (x.incs.getD j 0).toNat).add
    (codeValue 0x11 (accFp32 false 0 a (refRow s c ((refAddrs x).getD (j + 1) 0) x.k) (x.k / 32)).1).neg

/-- MAX of the slot takes in a finite error (R103). -/
theorem compareColumn_max {s : State} (hbad : s.bad = []) {b c : Nat} {x : Sample} {a : List Machine.Num} {j m : Nat}
    {sg : Bool} {ex : Int} (he : columnError s c x a j = .fin sg m ex) :
    ((compareColumn b c x a s j).bench b).r (0x4500 + x.layer * 0x40) =
      BitVec.ofNat 64 (max ((s.bench b).r (0x4500 + x.layer * 0x40)).toNat
        (min (roundMag 1 0 m ex (signed 8 ((s.bench b).r (0x4520 + x.layer * 0x40)).toNat)) 0xFFFFFFFF)) := by
  have hclean : ∀ p k, refBad s c p k = false := fun p k => by rw [refBad, uncorrectable_clean hbad]; rfl
  have hesc : 0x4500 + x.layer * 0x40 + 0x20 = 0x4520 + x.layer * 0x40 := by omega
  unfold columnError at he
  unfold compareColumn
  simp only [hclean, Bool.or_self, Bool.false_eq_true, if_false, he, hesc, errorUnits]
  rw [count_r, if_neg (by omega), count_r, if_neg (by omega), updBench_bench, Bench.setR_r]

/-! ## ASSAY_SAMPLE_DONE (R101 to R106) -/

/-- The first sample of core `w.core` has left its queue, and the unit is free again in window `w` from cycle `d`. -/
def takeSample (b : Nat) (w : AWin) (r : List AWin) (d : Nat) (s : State) : State :=
  (s.updCore w.core (fun k => { k with samplesQ := k.samplesQ.eraseIdx 0 })).updBench b (fun y =>
    { y with awins := { w with free := d } :: r })

theorem takeSample_r (b : Nat) (w : AWin) (r : List AWin) (d : Nat) (s : State) (k : Nat) :
    ((takeSample b w r d s).bench b).r k = (s.bench b).r k := by
  rw [takeSample, updBench_bench]
  rfl

theorem takeSample_samplesQ (b d : Nat) {w : AWin} (r : List AWin) {s : State} {x : Sample} {q : List Sample}
    (hq : (s.core w.core).samplesQ = x :: q) : ((takeSample b w r d s).core w.core).samplesQ = q := by
  rw [takeSample, updBench_core, updCore_core]
  dsimp only
  rw [hq]
  rfl

/-- A sample compared: its reference is read, then its columns are compared in turn. -/
def compareSample (b c : Nat) (x : Sample) (s : State) : State :=
  (List.range x.n).foldl (compareColumn b c x (refRow s c ((refAddrs x).getD 0 0) x.k)) (readRefs c x s)

theorem compareSample_core (b c : Nat) (x : Sample) (s : State) (k : Nat) : (compareSample b c x s).core k = s.core k :=
  (foldl_compareColumn_core ..).trans (core_of_within (readRefs_within ..) (by decide) k)

/-- CNT of the slot counts every column of the sample. -/
theorem compareSample_cnt {b c : Nat} {x : Sample} {s : State} (hl : x.layer < 16)
    (h : counterCount ((s.bench b).r (0x4510 + x.layer * 0x40)) + x.n < 2 ^ 48) :
    counterCount (((compareSample b c x s).bench b).r (0x4510 + x.layer * 0x40)) =
      counterCount ((s.bench b).r (0x4510 + x.layer * 0x40)) + x.n := by
  have hread := readRefs_r c x s b (k := 0x4510 + x.layer * 0x40) (by omega)
  have hfold := foldl_compareColumn_cnt b c x (refRow s c ((refAddrs x).getD 0 0) x.k) (List.range x.n) (readRefs c x s)
  rw [hread, List.length_range] at hfold
  exact hfold h

/-- MAX of the slot takes in the error of the only column of a sample. -/
theorem compareSample_max {b c : Nat} {x : Sample} {s : State} (hl : x.layer < 16) (hn : x.n = 1) (hbad : s.bad = []) {m : Nat}
    {sg : Bool} {ex : Int} (he : columnError s c x (refRow s c ((refAddrs x).getD 0 0) x.k) 0 = .fin sg m ex) :
    ((compareSample b c x s).bench b).r (0x4500 + x.layer * 0x40) =
      BitVec.ofNat 64 (max ((s.bench b).r (0x4500 + x.layer * 0x40)).toNat
        (min (roundMag 1 0 m ex (signed 8 ((s.bench b).r (0x4520 + x.layer * 0x40)).toNat)) 0xFFFFFFFF)) := by
  have hmem : (readRefs c x s).mem = s.mem := (readRefs_within c x s).out .mem (by decide)
  have hsame : columnError (readRefs c x s) = columnError s := by
    funext c' x' a j
    unfold columnError
    rw [refRow_congr hmem]
  rw [← hsame] at he
  have hmax := compareColumn_max (b := b) (readRefs_bad hbad c x) he
  rw [readRefs_r c x s b (by omega), readRefs_r c x s b (by omega)] at hmax
  rw [compareSample, hn]
  exact hmax

/-- The sample at the head of the queue, when it fits and its time has come, is taken, and dropped or compared. -/
theorem sampleDone_takes {s : State} {b d : Nat} {w : AWin} {r : List AWin} {x : Sample} {q : List Sample}
    (hw : (s.bench b).awins = w :: r) (hq : (s.core w.core).samplesQ = x :: q) (hdue : sampleDue w x = some d)
    (hd : d ≤ s.now / 2) :
    sampleDone b s = if (refAddrs x).any (fun a => decide (0x100000 < a + 2 * x.k)) then count b 0x4410 1 (takeSample b w r d s)
      else compareSample b w.core x (takeSample b w r d s) := by
  have hfind : (s.core w.core).samplesQ.findIdx? (fun x => (sampleDue w x).isSome) = some 0 := by
    rw [hq, List.findIdx?_cons, hdue]
    rfl
  have hhead : (s.core w.core).samplesQ[0]? = some x := by rw [hq]; rfl
  have hnow : ¬ coreNow s < d := Nat.not_lt.mpr hd
  simp only [sampleDone, hw, hfind, hhead, hdue, Option.getD_some, hnow, if_false]
  rfl

theorem assaySamplesAreCompared : Claims.AssaySamplesAreCompared := by
  intro s b w r x q d hw hq hdue hd hlayer hcnt
  have hrun : exec (.assaySampleDone b) s = .next (sampleDone b s) := rfl
  rw [hrun, sampleDone_takes hw hq hdue hd]
  by_cases hout : ∃ a, a ∈ refAddrs x ∧ 0x100000 < a + 2 * x.k
  · have hany : (refAddrs x).any (fun a => decide (0x100000 < a + 2 * x.k)) = true := by simpa using hout
    rw [if_pos hany]
    refine ⟨_, rfl, takeSample_samplesQ b d r hq, fun _ => ⟨?_, ?_⟩, fun hin => ?_⟩
    · rw [count_r, if_pos rfl, takeSample_r]
    · rw [count_r, if_neg (by omega), takeSample_r]
    · obtain ⟨a, ha, hlt⟩ := hout
      exact absurd (hin a ha) (Nat.not_le.mpr hlt)
  · have hany : ¬ (refAddrs x).any (fun a => decide (0x100000 < a + 2 * x.k)) = true := by simpa using hout
    rw [if_neg hany]
    refine ⟨_, rfl, ?_, fun h => absurd h hout, fun _ => ⟨?_, fun ra rb sg m ex hrefs hn hbad he => ?_⟩⟩
    · rw [compareSample_core]
      exact takeSample_samplesQ b d r hq
    · rw [compareSample_cnt hlayer (by rw [takeSample_r]; exact hcnt), takeSample_r]
    · have herr : columnError (takeSample b w r d s) w.core x
          (refRow (takeSample b w r d s) w.core ((refAddrs x).getD 0 0) x.k) 0 = .fin sg m ex := by
        rw [columnError, refRow_congr (s := s) (by rfl), hrefs]
        exact he
      rw [compareSample_max hlayer hn (by exact hbad) herr, takeSample_r, takeSample_r]

/-- Settles O29: the windows are the branches of their commands; that a comparison counts every column is an induction over the
columns. -/
theorem assayUnit : Obligations.AssayUnit := ⟨assayWindows, assaySamplesAreCompared⟩

end Sys2Proof.TileProofs
end

section
/-! PROOFS. O26: tile operations issue and hold their thread, ACCZ and TFREE run in their one cycle, and a held instruction
completes. -/

namespace Sys2Proof.TileProofs
open Sys2Proof Sys2Proof.Machine Sys2Proof.Laws Sys2Proof.ModuleProofs

/-! ## The completion of a held instruction (R131, R250) -/

/-- The pops and pushes of a held instruction and the step after it ask no thread to stop. -/
theorem popHeld_suspReq (t : Thread) (push : List Word) (s : State) :
    ((popHeld t push s).ctx t).suspReq = (s.ctx t).suspReq := by
  rw [popHeld_eq]
  calc ((complete t (s.ctx t).heldLen (s.ctx t).heldPops push 0 [] none (resumed t s)).ctx t).suspReq
      = ((pushOps t (s.ctx t).heldPops push (resumed t s)).ctx t).suspReq := by
        simp only [complete, pushRets_nothing]
        exact (advance_own ..).suspReq
    _ = ((resumed t s).ctx t).suspReq := (pushOps_own ..).suspReq
    _ = (s.ctx t).suspReq := by rw [resumed_ctx]

theorem heldInstructionsComplete : Claims.HeldInstructionsComplete := by
  intro s t push hsusp
  rw [completeHeld, stopCheck_of_no_request ((popHeld_suspReq t push s).trans hsusp)]
  rfl

/-! ## Issue of the tile operations (R131, R201, R740) -/

/-- The tile operations of R201 and R133 with the operands each pops. -/
def tileInstrs (t : Thread) (last : Byte) : List (Instr × TOp × Nat) :=
  [(.mma t last, .mma, 3), (.accz t last, .accz, 1), (.tfree t last, .tfree, 1), (.accrd t last, .accrd, 4),
    (.tld t last, .tld, 3), (.tldt t last, .tldt, 3), (.tldc t last, .tldc, 4), (.tlds t last, .tlds, 3), (.tldp t last, .tldp, 3),
    (.tst t last, .tst, 3), (.tstt t last, .tstt, 3), (.tstc t last, .tstc, 4), (.tsts t last, .tsts, 3), (.tstp t last, .tstp, 3),
    (.tcvt t last, .tcvt, 4), (.qnt t last, .qnt, 3), (.vadd t last, .vadd, 3), (.vmul t last, .vmul, 3),
    (.vmax t last, .vmax, 3), (.vmin t last, .vmin, 3), (.vfma t last, .vfma, 4), (.vrsum t last, .vrsum, 2),
    (.vrmax t last, .vrmax, 2), (.vrmin t last, .vrmin, 2), (.vact t last, .vact, 2), (.vactld t last, .vactld, 1)]

/-- Each of them is the common issue of its operation. -/
theorem exec_tileInstr {t : Thread} {last : Byte} {i : Instr} {op : TOp} {n : Nat} (h : (i, op, n) ∈ tileInstrs t last) (s : State) :
    exec i s = .next (tileIssue t op last s) ∧ op.pops = n := by
  have hall : ∀ e ∈ tileInstrs t last, exec e.1 s = .next (tileIssue t e.2.1 last s) ∧ e.2.1.pops = e.2.2 := by
    simp only [tileInstrs, List.forall_mem_cons, List.not_mem_nil, false_imp_iff, implies_true, and_true]
    and_intros <;> rfl
  exact hall _ h

/-- A tile operation as it enters the machine from state `s`, to start in a later cycle. -/
def issuedOp (s : State) (t : Thread) (op : TOp) (last : Byte) (args : List Word) (fmt : Nat) : TileOp :=
  { ctx := t.ctx, op := op, last := last, pc := (s.ctx t).pc, args := args, tfmt := fmt, phase := .issued, at_ := s.now / 2, beat := 0,
    rows := 0, srg := 0, sclUf := 0, patchOvf := 0, held := [], view := [], srcA := Tile.reset, srcB := Tile.reset }

/-- The operation joins its core's others, and its thread waits with its operands on the stack. -/
def holdTile (t : Thread) (o : TileOp) (s : State) : State :=
  (s.updCore t.core (fun k => { k with tops := k.tops ++ [o] })).updCtx t (fun x =>
    { x with wait := .tile, heldPops := o.op.pops, heldLen := 2 })

theorem holdTile_ctx (t : Thread) (o : TileOp) (s : State) :
    (holdTile t o s).ctx t = { s.ctx t with wait := .tile, heldPops := o.op.pops, heldLen := 2 } := by
  rw [holdTile, updCtx_ctx, State.ctx, updCore_core]
  rfl

theorem holdTile_tops (t : Thread) (o : TileOp) (s : State) :
    ((holdTile t o s).core t.core).tops = (s.core t.core).tops ++ [o] := by
  rw [holdTile, updCtx_core, updCore_core]
  rfl

section Checks

variable {t : Thread} {op : TOp} {last : Byte} {s : State}

/-- What an issue of `op` that meets none of the faults of issue finds among its formats (R740). -/
def formatFound (t : Thread) (op : TOp) (last : Byte) (s : State) : Option Nat :=
  formatFault op last (fmtAt s t last) ((operands (firstIssue t s) t op.pops).getD 2 0).toNat

/-- What it finds among the units it names, with those it acquires (R740). -/
def unitsFound (t : Thread) (op : TOp) (s : State) : Word ⊕ State :=
  nameAll t (operands (firstIssue t s) t op.pops) op.names (firstIssue t s)

/-- A format fault comes first. -/
theorem tileIssue_formatFault (h : Runs t 2 ⟨op.pops, 0, 0, 0⟩ s) {f : Nat} (hf : formatFound t op last s = some f) :
    tileIssue t op last s = fault t 0x0A (word f) (s.ctx t).pc false (firstIssue t s) := by
  unfold formatFound at hf
  simp only [tileIssue, issue_runs h, tileChecks, hf, firstIssue_pc]

/-- A share fault comes where the formats are accepted. -/
theorem tileIssue_shareFault (h : Runs t 2 ⟨op.pops, 0, 0, 0⟩ s) (hf : formatFound t op last s = none) {w : Word}
    (hu : unitsFound t op s = .inl w) :
    tileIssue t op last s = fault t 0x0B w (s.ctx t).pc false (firstIssue t s) := by
  unfold formatFound at hf
  unfold unitsFound at hu
  simp only [tileIssue, issue_runs h, tileChecks, hf, hu, firstIssue_pc]

/-- An operation whose formats and units are accepted enters the machine and holds its thread (R131). -/
theorem tileIssue_holds (h : Runs t 2 ⟨op.pops, 0, 0, 0⟩ s) (hf : formatFound t op last s = none) {s2 : State}
    (hu : unitsFound t op s = .inr s2) :
    tileIssue t op last s =
      holdTile t (issuedOp s2 t op last (operands (firstIssue t s) t op.pops) (fmtAt s t last)) s2 := by
  unfold formatFound at hf
  unfold unitsFound at hu
  simp only [tileIssue, issue_runs h, tileChecks, hf, hu]
  rfl

end Checks

theorem tileOperationsIssue : Claims.TileOperationsIssue := by
  intro s s2 t last i op n f w hi hruns s1 args fmt bad
  obtain ⟨hexec, rfl⟩ := exec_tileInstr (show (i, op, n) ∈ tileInstrs t last from hi) s
  rw [hexec]
  refine ⟨fun hf hu => ⟨_, congrArg _ (tileIssue_holds hruns hf hu), ?_, ?_, ?_, holdTile_tops ..⟩,
    fun hf => congrArg _ (tileIssue_formatFault hruns hf), fun hf hu => congrArg _ (tileIssue_shareFault hruns hf hu)⟩
  all_goals rw [holdTile_ctx]

/-! ## The release of a thread whose operation ran in one cycle (R133, R162) -/

/-- A released operation has left its core, whose contexts alone change besides. -/
theorem tileRelease_core (t : Thread) (s : State) :
    ∃ l, (tileRelease t s).core t.core =
      { s.core t.core with tops := (s.core t.core).tops.filter (fun p => decide (p.ctx ≠ t.ctx)), ctxs := l } := by
  have hcore := (completeHeld_releases t [] (withoutOp t s)).2 t.core
  rw [withoutOp_core] at hcore
  exact ⟨_, hcore⟩

theorem NextOp.filter_tops {s : State} {c : Nat} {before rest : List TileOp} {o : TileOp} (h : NextOp s c before o rest) :
    (s.core c).tops.filter (fun p => decide (p.ctx ≠ o.ctx)) = (before ++ rest).filter (fun p => decide (p.ctx ≠ o.ctx)) := by
  rw [h.tops]
  simp

theorem tileStart_accz {s : State} {c : Nat} {before rest : List TileOp} {o : TileOp} (h : NextOp s c before o rest)
    (hmay : mayStart s c before o = true) (hop : o.op = .accz) : tileStart c s = tileRelease ⟨c, o.ctx⟩ (accz c o s) := by
  simp only [tileStart, h.takeWhile, h.getElem?, hmay, hop, if_true, Bool.true_eq_false, if_false]

theorem tileStart_tfree {s : State} {c : Nat} {before rest : List TileOp} {o : TileOp} (h : NextOp s c before o rest)
    (hmay : mayStart s c before o = true) (hop : o.op = .tfree) : tileStart c s = tileRelease ⟨c, o.ctx⟩ (tfree c o s) := by
  simp only [tileStart, h.takeWhile, h.getElem?, hmay, hop, if_true, Bool.true_eq_false, if_false, reduceCtorEq]

/-! ## ACCZ (R123) -/

/-- A table without the entries whose index fails `q` reads its default there, and elsewhere as before. -/
theorem tblGet_filter_index {α : Type} (d : Nat → α) (l : Tbl α) (q : Nat → Bool) (j : Nat) :
    tblGet d (l.filter (fun p => q p.1)) j = if q j = true then tblGet d l j else d j := by
  induction l with
  | nil => simp [tblGet]
  | cons x r ih =>
    obtain ⟨k, v⟩ := x
    rw [List.filter_cons]
    by_cases hkj : k = j
    · subst hkj
      by_cases hq : q k = true <;> simp [hq, tblGet, ih]
    · by_cases hq : q k = true <;> simp [hq, tblGet, hkj, ih]

/-- The accumulator that an operation on one names. -/
def namedAcc (o : TileOp) : Nat := (o.args.getD 0 0).toNat % 4

/-- The index of a bank lies outside the M by N elements of an operation. -/
def outside (o : TileOp) (i : Nat) : Bool := !(decide (i / 32 < o.m) && decide (i % 32 < o.n))

theorem outside_iff (o : TileOp) (r : Nat) {j : Nat} (hj : j < 32) : outside o (32 * r + j) = true ↔ ¬ (r < o.m ∧ j < o.n) := by
  have hrow : (32 * r + j) / 32 = r := by omega
  have hcol : (32 * r + j) % 32 = j := by omega
  simp [outside, hrow, hcol, Decidable.imp_iff_not_or]

theorem updAcc_get (k : Core) (i j : Nat) (f : Acc → Acc) :
    (k.updAcc i f).acc j = if i = j then f (k.acc i) else k.acc j := tblGet_tblUpd ..

theorem accz_core (c : Nat) (o : TileOp) (s : State) :
    (accz c o s).core c =
      ((s.core c).updAcc (namedAcc o) (fun x => { x with committed := x.committed.filter (fun p => outside o p.1) })).setReg
        (0x109 + namedAcc o) ((s.core c).reg (0x109 + namedAcc o) &&& ~~~(word (2 ^ o.m - 1))) := updCore_core ..

theorem accz_acc (c : Nat) (o : TileOp) (s : State) :
    ((accz c o s).core c).acc (namedAcc o) =
      { (s.core c).acc (namedAcc o) with
        committed := ((s.core c).acc (namedAcc o)).committed.filter (fun p => outside o p.1) } := by
  rw [accz_core, Core.acc, Core.setReg_accs]
  exact Core.updAcc_acc ..

/-- Element (r, j) of the committed bank after ACCZ. -/
theorem accz_committed (c : Nat) (o : TileOp) (s : State) {r j : Nat} (hj : j < 32) :
    tblGet (zeros 32) (((accz c o s).core c).acc (namedAcc o)).committed (32 * r + j) =
      if r < o.m ∧ j < o.n then 0 else tblGet (zeros 32) ((s.core c).acc (namedAcc o)).committed (32 * r + j) := by
  rw [accz_acc]
  dsimp only
  rw [tblGet_filter_index (zeros 32) _ (outside o)]
  by_cases h : r < o.m ∧ j < o.n
  · rw [if_pos h, if_neg (not_not.mpr h ∘ (outside_iff o r hj).mp)]
    rfl
  · rw [if_neg h, if_pos ((outside_iff o r hj).mpr h)]

theorem accz_acc_ne (c : Nat) (o : TileOp) (s : State) {k : Nat} (hk : k ≠ namedAcc o) :
    ((accz c o s).core c).acc k = (s.core c).acc k := by
  rw [accz_core, Core.acc, Core.setReg_accs]
  exact (updAcc_get ..).trans (if_neg (Ne.symm hk))

/-- ACCZ clears the ROWSAT bits of its rows. -/
theorem accz_rowsat (c : Nat) (o : TileOp) (s : State) {r : Nat} (hr : r < 32) :
    (((accz c o s).core c).reg (0x109 + namedAcc o)).getLsbD r =
      (decide (o.m ≤ r) && ((s.core c).reg (0x109 + namedAcc o)).getLsbD r) := by
  have hmask : (word (2 ^ o.m - 1)).getLsbD r = decide (r < o.m) := by
    rw [word, BitVec.getLsbD_ofNat, Nat.testBit_two_pow_sub_one, decide_eq_true hr, Bool.true_and]
  rw [accz_core, Core.setReg_reg, BitVec.getLsbD_and, BitVec.getLsbD_not, hmask, decide_eq_true hr, Bool.true_and, Bool.and_comm]
  congr 1
  by_cases h : r < o.m
  · simp [h]
  · simp [h, Nat.not_lt.mp h]

theorem accz_tops (c : Nat) (o : TileOp) (s : State) : ((accz c o s).core c).tops = (s.core c).tops := by
  rw [accz_core, Core.setReg_tops, Core.updAcc_tops]

/-! ## TFREE (R115, R276) -/

theorem updTile_get (k : Core) (i j : Nat) (f : Tile → Tile) :
    (k.updTile i f).tile j = if i = j then f (k.tile i) else k.tile j := tblGet_tblUpd ..

theorem tfree_core (c : Nat) (o : TileOp) (s : State) :
    (tfree c o s).core c =
      { (s.core c).updTile (o.low 0) (fun x => { x with inUse := false }) with
        tileOwn := if dynamic s c = true then tblSet nats (s.core c).tileOwn (o.low 0) 0 else (s.core c).tileOwn } := by
  unfold tfree
  dsimp only
  rw [updCore_core]
  split <;> rfl

theorem tfree_tile (c : Nat) (o : TileOp) (s : State) (k : Nat) :
    ((tfree c o s).core c).tile k =
      if o.low 0 = k then { (s.core c).tile (o.low 0) with inUse := false } else (s.core c).tile k := by
  rw [tfree_core]
  exact updTile_get (s.core c) (o.low 0) k fun x => { x with inUse := false }

theorem tfree_tops (c : Nat) (o : TileOp) (s : State) : ((tfree c o s).core c).tops = (s.core c).tops := by
  rw [tfree_core]
  rfl

theorem tfree_ownerOf {s : State} {c : Nat} (h : dynamic s c = true) (o : TileOp) :
    ownerOf ((tfree c o s).core c) 0 (o.low 0) = 0 := by
  rw [tfree_core, if_pos h]
  exact tblGet_tblSet_same ..

theorem accumulatorZeroAndTileFree : Claims.AccumulatorZeroAndTileFree := by
  intro s c before o rest htops hstarted hissued hmay t done
  have hnext : NextOp s c before o rest := ⟨htops, hstarted, hissued⟩
  have hrun : exec (.tileOpStart c) s = .next (tileStart c s) := rfl
  have hdone : ∀ u : State, (u.core c).tops = (s.core c).tops → done (tileRelease t u) := by
    intro u hu
    obtain ⟨l, hcore⟩ := tileRelease_core t u
    refine ⟨(tileRelease_releases t u).1, ?_⟩
    rw [hcore]
    exact (congrArg _ hu).trans hnext.filter_tops
  refine ⟨fun hop => ?_, fun hop => ?_⟩
  · obtain ⟨l, hcore⟩ := tileRelease_core t (accz c o s)
    refine ⟨_, hrun.trans (congrArg _ (tileStart_accz hnext hmay hop)), hdone _ (accz_tops ..), ?_⟩
    rw [hcore]
    exact ⟨fun r j _ hj => accz_committed c o s hj, fun r hr => accz_rowsat c o s hr, fun k hk => accz_acc_ne c o s hk⟩
  · obtain ⟨l, hcore⟩ := tileRelease_core t (tfree c o s)
    refine ⟨_, hrun.trans (congrArg _ (tileStart_tfree hnext hmay hop)), hdone _ (tfree_tops ..), ?_⟩
    rw [hcore]
    refine ⟨?_, fun k hk => (tfree_tile c o s k).trans (if_neg (Ne.symm hk)), fun hdyn => tfree_ownerOf hdyn o⟩
    exact congrArg Tile.inUse ((tfree_tile c o s (o.low 0)).trans (if_pos rfl))

/-- Settles O26: every tile operation is one issue (`exec_tileInstr`) whose checks are made in order, and a released operation's
core changes in its operations and contexts alone (`tileRelease_core`), so what ACCZ and TFREE wrote stands. -/
theorem tileInstructionsIssue : Obligations.TileInstructionsIssue :=
  ⟨heldInstructionsComplete, tileOperationsIssue, accumulatorZeroAndTileFree⟩

end Sys2Proof.TileProofs
end

section
/-! PROOFS. O7 to O11: arithmetic, logic, shifts, comparisons and CRC steps, which compute on their operand entries alone, and
branches. -/

namespace Sys2Proof.CoreProofs
open Sys2Proof Sys2Proof.Machine Sys2Proof.Laws

/-! ## The three ways in which an instruction that meets no fault of issue ends -/

section Issue

variable {t : Thread} {op len : Nat} {second : Option Byte} {sh : Shape} {guard : State → Option (Nat × Word)}
  {body : State → List Word → List Word → Out} {s : State} (h : Runs t len sh s) (hg : guard (firstIssue t s) = none)

include h hg

theorem issue_completes {e : Eff}
    (hb : body (firstIssue t s) (operands (firstIssue t s) t sh.pops) (returns (firstIssue t s) t sh.rpops) = .ok e) :
    issue t op second len sh guard body s = complete t len sh.pops e.push sh.rpops e.rpush e.tgt e.s := by
  rw [issue_runs h hg, hb]

theorem issue_holds {s1 : State} {w : Wait}
    (hb : body (firstIssue t s) (operands (firstIssue t s) t sh.pops) (returns (firstIssue t s) t sh.rpops) = .held s1 w) :
    issue t op second len sh guard body s = s1.updCtx t (fun x => { x with wait := w, heldPops := sh.pops, heldLen := len }) := by
  rw [issue_runs h hg, hb]

theorem issue_faults {s1 : State} {cause : Nat} {info : Word}
    (hb : body (firstIssue t s) (operands (firstIssue t s) t sh.pops) (returns (firstIssue t s) t sh.rpops) = .exc s1 cause info) :
    issue t op second len sh guard body s = fault t cause info (s.ctx t).pc false s1 := by
  rw [issue_runs h hg, hb, firstIssue_pc]

end Issue

/-- An instruction whose body pushes `l` and leaves `u`. -/
theorem issue_pushes {t : Thread} {op len : Nat} {second : Option Byte} {sh : Shape} {guard : State → Option (Nat × Word)}
    {body : State → List Word → List Word → Out} {s u : State} {ops l : List Word} (h : Runs t len sh s)
    (hg : guard (firstIssue t s) = none) (ho : operands (firstIssue t s) t sh.pops = ops)
    (hb : body (firstIssue t s) ops (returns (firstIssue t s) t sh.rpops) = pushes u l) :
    issue t op second len sh guard body s = complete t len sh.pops l sh.rpops [] none u := by
  subst ho
  exact issue_completes (e := { s := u, push := l, rpush := [], tgt := none }) h hg hb

/-- An instruction whose body holds its thread. -/
theorem issue_waits {t : Thread} {op len : Nat} {second : Option Byte} {sh : Shape} {guard : State → Option (Nat × Word)}
    {body : State → List Word → List Word → Out} {s u : State} {ops : List Word} {w : Wait} (h : Runs t len sh s)
    (hg : guard (firstIssue t s) = none) (ho : operands (firstIssue t s) t sh.pops = ops)
    (hb : body (firstIssue t s) ops (returns (firstIssue t s) t sh.rpops) = .held u w) :
    issue t op second len sh guard body s = u.updCtx t (fun x => { x with wait := w, heldPops := sh.pops, heldLen := len }) := by
  subst ho
  exact issue_holds h hg hb

/-- An instruction of one syllable that leaves the state to its pops, its pushes and where it goes. -/
theorem issue_goesOn {t : Thread} {op : Nat} {sh : Shape} {body : State → List Word → List Word → Out} {s : State}
    (h : Runs t 1 sh s) {l r push rpush : List Word} {tgt : Option Word} (hl : operands (firstIssue t s) t sh.pops = l)
    (hr : returns (firstIssue t s) t sh.rpops = r)
    (hb : body (firstIssue t s) l r = .ok { s := firstIssue t s, push := push, rpush := rpush, tgt := tgt }) :
    Host.Outcome.next (issue t op none 1 sh (fun _ => none) body s) = goesOn t sh.pops push sh.rpops rpush tgt s := by
  subst hl hr
  rw [issue_completes h rfl hb, goesOn]

/-! ## Instructions that compute on their operand entries (R192) -/

/-- Such an instruction, where it meets no fault of issue, pushes what its function gives for its operands. -/
theorem scalar_pushes {t : Thread} {op pops npush : Nat} {f : List Word → List Word} {s : State} {l push : List Word}
    (h : Runs t 1 ⟨pops, npush, 0, 0⟩ s) (hl : operands (firstIssue t s) t pops = l) (hf : f l = push) :
    Host.Outcome.next (scalar t op pops npush f s) = pushed t pops push s :=
  issue_goesOn h hl rfl (congrArg (pushes (firstIssue t s)) hf)

/-! ## Arithmetic and logic (R192, R193) -/

theorem add_eq_ofNat (a b : Word) : a + b = BitVec.ofNat 32 (a.toNat + b.toNat) := BitVec.eq_of_toNat_eq (by simp)

theorem sub_eq_ofInt (a b : Word) : a - b = BitVec.ofInt 32 ((a.toNat : Int) - (b.toNat : Int)) := by
  bv_omega

theorem neg_eq_ofInt (a : Word) : -a = BitVec.ofInt 32 (-(a.toNat : Int)) := by
  rw [BitVec.ofInt_neg, BitVec.ofInt_natCast, BitVec.ofNat_toNat, BitVec.setWidth_eq]

theorem arithmeticAndLogicResults : Claims.ArithmeticAndLogicResults := by
  intro s t a b
  refine ⟨fun hr hl => ⟨?_, ?_, ?_, ?_, ?_⟩, fun hr hl => ⟨?_, ?_⟩⟩
  · exact scalar_pushes hr hl (congrArg (fun v => [v]) (add_eq_ofNat a b))
  · exact scalar_pushes hr hl (congrArg (fun v => [v]) (sub_eq_ofInt a b))
  · exact scalar_pushes hr hl rfl
  · exact scalar_pushes hr hl rfl
  · exact scalar_pushes hr hl rfl
  · exact scalar_pushes hr hl (congrArg (fun v => [v]) (neg_eq_ofInt a))
  · exact scalar_pushes hr hl rfl

/-! ## Bit counts and reversal (R192) -/

theorem clz_le (a : Word) : clz a ≤ 32 := by
  unfold clz
  split <;> omega

/-- The bits above the leading one are 0. -/
theorem getLsbD_of_clz {a : Word} {i : Nat} (h : 32 - clz a ≤ i) : a.getLsbD i = false := by
  by_cases ha : a = 0
  · simp [ha]
  · rw [clz, if_neg ha] at h
    have hlog : Nat.log2 a.toNat < i ∨ 32 ≤ i := by omega
    rcases hlog with hlog | hi
    · exact Nat.testBit_lt_two_pow ((Nat.log2_lt fun e => ha (BitVec.eq_of_toNat_eq e)).mp hlog)
    · exact BitVec.getLsbD_of_ge a i hi

/-- Below the leading zeros stands a one. -/
theorem getLsbD_clz {a : Word} (h : clz a < 32) : a.getLsbD (31 - clz a) = true := by
  have ha : a ≠ 0 := fun e => by simp [clz, e] at h
  have hn : a.toNat ≠ 0 := fun e => ha (BitVec.eq_of_toNat_eq e)
  have hlog : Nat.log2 a.toNat < 32 := (Nat.log2_lt hn).mpr a.isLt
  rw [clz, if_neg ha, show 31 - (31 - Nat.log2 a.toNat) = Nat.log2 a.toNat by omega]
  exact Nat.testBit_log2 hn

/-- The parity of the bits counted is their exclusive or. -/
theorem foldl_xor_eq (f : Nat → Bool) (l : List Nat) (p : Bool) :
    (if l.foldl (fun p i => p ^^ f i) p then (1 : Word) else 0) = word (((l.filter f).length + p.toNat) % 2) := by
  induction l generalizing p with
  | nil => cases p <;> rfl
  | cons i l ih =>
    rw [List.foldl_cons, ih, List.filter_cons]
    cases f i <;> cases p <;> simp [Nat.add_assoc]

theorem bitCountsAndReversal : Claims.BitCountsAndReversal := by
  intro s t a hr hl
  refine ⟨⟨clz a, scalar_pushes hr hl rfl, clz_le a, fun i h _ => getLsbD_of_clz h, getLsbD_clz⟩, ?_, ?_,
    a.reverse, scalar_pushes hr hl rfl, fun i hi => ?_⟩
  · exact scalar_pushes hr hl (congrArg (fun n => [word n]) List.countP_eq_length_filter.symm)
  · exact scalar_pushes hr hl (congrArg (fun v => [v]) (foldl_xor_eq a.getLsbD (List.range 32) false).symm)
  · rw [BitVec.getLsbD_reverse, BitVec.getMsbD_eq_getLsbD]
    simp [hi]

/-- Settles O7: each instruction pushes its function of its operands (`scalar_pushes`), and the functions are what the rules give. -/
theorem arithmeticAndLogic : Obligations.ArithmeticAndLogic := ⟨arithmeticAndLogicResults, bitCountsAndReversal⟩

/-! ## Shifts (R194) -/

/-- Settles O8: each shift pushes its function of its operands (`scalar_pushes`), whose bits Lean's bit vector shifts give. -/
theorem shiftCountIsFiveBits : Obligations.ShiftCountIsFiveBits := by
  intro s t a n hr hl
  have hn : n.toNat % 32 < 32 := Nat.mod_lt _ (by decide)
  refine ⟨⟨a <<< shiftCount n, scalar_pushes hr hl rfl, fun i hi => ?_⟩, ⟨a >>> shiftCount n, scalar_pushes hr hl rfl, fun i hi => ?_⟩,
    ⟨a.sshiftRight (shiftCount n), scalar_pushes hr hl rfl, fun i hi => ?_⟩,
    ⟨a.rotateLeft (shiftCount n), scalar_pushes hr hl rfl, fun i hi => ?_⟩⟩
  · rw [BitVec.getLsbD_shiftLeft]
    by_cases h : i < n.toNat % 32
    · simp [hi, shiftCount, h, Nat.not_le.mpr h]
    · simp [hi, shiftCount, h, Nat.not_lt.mp h]
  · rw [BitVec.getLsbD_ushiftRight, shiftCount, Nat.add_comm]
    by_cases h : i + n.toNat % 32 < 32
    · simp [h]
    · simp [h, BitVec.getLsbD_of_ge a _ (Nat.not_lt.mp h)]
  · rw [BitVec.getLsbD_sshiftRight, shiftCount, Nat.add_comm]
    by_cases h : i + n.toNat % 32 < 32
    · simp [h, show min (i + n.toNat % 32) 31 = i + n.toNat % 32 by omega, Nat.not_le.mpr hi]
    · simp [h, show min (i + n.toNat % 32) 31 = 31 by omega, Nat.not_le.mpr hi, BitVec.msb_eq_getLsbD_last]
  · rw [shiftCount, BitVec.getLsbD_rotateLeft, Nat.mod_mod]
    by_cases h : i + n.toNat % 32 < 32
    · rw [Nat.mod_eq_of_lt h]
      simp [h]
    · rw [show (i + n.toNat % 32) % 32 = i + n.toNat % 32 - 32 by omega,
        show 32 - n.toNat % 32 + (i + n.toNat % 32 - 32) = i by omega]
      simp [show i + n.toNat % 32 - 32 < n.toNat % 32 by omega]

/-! ## Branches (R196) -/

/-- The address of the syllable after a branch at `p`, plus `off` read as a signed value. -/
theorem branch_target (p off : Word) : p + 1 + off = BitVec.ofInt 32 ((p.toNat : Int) + 1 + off.toInt) := by
  rw [BitVec.ofInt_add, BitVec.ofInt_add, BitVec.ofInt_natCast, BitVec.ofInt_toInt]
  simp

theorem after_firstIssue (s : State) (t : Thread) : after (firstIssue t s) t = (s.ctx t).pc + 1 := by
  rw [after, firstIssue_pc]

section Conditional

variable {s : State} {t : Thread} {f off : Word} (hr : Runs t 1 ⟨2, 0, 0, 0⟩ s) (hl : operands (firstIssue t s) t 2 = [off, f])

include hr hl

theorem exec_bz : exec (.bz t) s = goesOn t 2 [] 0 [] (if f = 0 then some ((s.ctx t).pc + 1 + off) else none) s := by
  refine issue_goesOn hr hl rfl ?_
  rw [after_firstIssue]
  by_cases h : f = 0
  · rw [if_pos h]; exact if_pos h
  · rw [if_neg h]; exact if_neg h

theorem exec_bnz : exec (.bnz t) s = goesOn t 2 [] 0 [] (if f = 0 then none else some ((s.ctx t).pc + 1 + off)) s := by
  refine issue_goesOn hr hl rfl ?_
  rw [after_firstIssue]
  by_cases h : f = 0
  · rw [if_pos h]; exact if_neg (not_not.mpr h)
  · rw [if_neg h]; exact if_pos h

end Conditional

/-- Settles O11: each branch is one transfer of control (`issue_goesOn`), to the target that `branch_target` computes. -/
theorem branchTargets : Obligations.BranchTargets := by
  intro s t f off
  simp only [← branch_target]
  refine ⟨fun hr hl => ⟨?_, ?_⟩, fun hr hl => ⟨fun hf => ?_, fun hf => ?_⟩, fun hr hl => ⟨?_, ?_⟩, fun hr hl => ?_⟩
  · exact issue_goesOn hr hl rfl (by rw [after_firstIssue]; rfl)
  · exact issue_goesOn hr hl rfl rfl
  · rw [exec_bz hr hl, if_pos hf]
  · rw [exec_bnz hr hl, if_neg hf]
  · exact issue_goesOn hr hl rfl (by rw [after_firstIssue]; rfl)
  · exact issue_goesOn hr hl rfl (by rw [after_firstIssue]; rfl)
  · exact issue_goesOn hr rfl hl rfl

/-! ## Comparisons and tests of the whole word (R195) -/

theorem truth_eq_ite {b : Bool} {p : Prop} [Decidable p] (h : b = true ↔ p) : truth b = if p then 1 else 0 := by
  unfold truth
  exact if_congr h rfl rfl

/-- Settles O9: the comparisons and SEL push their function of their operands (`scalar_pushes`), and BZ and BNZ go where their
test of the whole word says. -/
theorem comparisonsAndWordTests : Obligations.ComparisonsAndWordTests := by
  intro s t a b f off
  refine ⟨fun hr hl => ⟨?_, ?_, ?_⟩, fun hr hl => ?_, fun hr hl => ?_, fun hr hl => ?_⟩
  · exact scalar_pushes hr hl (congrArg (fun v => [v]) (truth_eq_ite beq_iff_eq))
  · exact scalar_pushes hr hl (congrArg (fun v => [v]) (truth_eq_ite BitVec.slt_iff_toInt_lt))
  · exact scalar_pushes hr hl (congrArg (fun v => [v]) (truth_eq_ite BitVec.ult_iff_lt))
  · exact scalar_pushes hr hl (congrArg (fun v => [v]) (truth_eq_ite beq_iff_eq))
  · exact scalar_pushes hr hl (congrArg (fun v => [v]) (ite_not ..).symm)
  · exact ⟨exec_bz hr hl, exec_bnz hr hl⟩

/-! ## CRC steps (R200) -/

theorem crcBit_xor (poly c : Word) {y : Word} (hy : y.getLsbD 0 = false) : crcBit poly (c ^^^ y) = crcBit poly c ^^^ (y >>> 1) := by
  have h : (c ^^^ y).getLsbD 0 = c.getLsbD 0 := by rw [BitVec.getLsbD_xor, hy, Bool.xor_false]
  unfold crcBit
  rw [h, BitVec.ushiftRight_xor_distrib]
  split
  · rw [BitVec.xor_assoc, BitVec.xor_comm _ poly, ← BitVec.xor_assoc]
  · rfl

theorem crcBits_succ (poly : Word) (n : Nat) (c : Word) : crcBits poly (n + 1) c = crcBits poly n (crcBit poly c) := rfl

theorem crcBits_add (poly : Word) (m n : Nat) (c : Word) : crcBits poly (m + n) c = crcBits poly n (crcBits poly m c) := by
  induction m generalizing c with
  | zero => rw [Nat.zero_add]; rfl
  | succ m ih => rw [Nat.succ_add_eq_add_succ, Nat.add_succ, crcBits_succ, ih, crcBits_succ]

/-- Bits that the register only shifts down, because none of them reaches bit 0, may as well be added afterwards. -/
theorem crcBits_xor (poly : Word) (n : Nat) (c : Word) {y : Word} (hy : ∀ i, i < n → y.getLsbD i = false) :
    crcBits poly n (c ^^^ y) = crcBits poly n c ^^^ (y >>> n) := by
  induction n generalizing c y with
  | zero => rw [BitVec.ushiftRight_zero]; rfl
  | succ n ih =>
    rw [crcBits_succ, crcBit_xor poly c (hy 0 (Nat.succ_pos n)), ih _ fun i hi => ?_, crcBits_succ, ← BitVec.shiftRight_add,
      Nat.add_comm]
    rw [BitVec.getLsbD_ushiftRight]
    exact hy _ (by omega)

theorem and_xor_and_not (w m : Word) : (w &&& m) ^^^ (w &&& ~~~m) = w := by
  apply BitVec.eq_of_getLsbD_eq
  intro i hi
  simp only [BitVec.getLsbD_xor, BitVec.getLsbD_and, BitVec.getLsbD_not, hi, decide_true, Bool.true_and]
  cases m.getLsbD i <;> simp

/-- Eight steps over a word: they use up its low byte, and the other bytes move down. -/
theorem crcBits_eight_xor (poly c w : Word) : crcBits poly 8 (c ^^^ w) = crcBits poly 8 (c ^^^ (w &&& 0xFF)) ^^^ (w >>> 8) := by
  have hlow : ∀ i, i < 8 → (~~~0xFF : Word).getLsbD i = false := by decide
  have hhigh : (w &&& ~~~0xFF) >>> 8 = w >>> 8 := by
    have hones : ∀ i, i < 32 → 8 + i < 32 → (~~~0xFF : Word).getLsbD (8 + i) = true := by decide
    apply BitVec.eq_of_getLsbD_eq
    intro i hi
    rw [BitVec.getLsbD_ushiftRight, BitVec.getLsbD_and, BitVec.getLsbD_ushiftRight]
    by_cases h : 8 + i < 32
    · rw [hones i hi h, Bool.and_true]
    · rw [BitVec.getLsbD_of_ge w _ (Nat.not_lt.mp h), Bool.false_and]
  calc crcBits poly 8 (c ^^^ w) = crcBits poly 8 ((c ^^^ (w &&& 0xFF)) ^^^ (w &&& ~~~0xFF)) := by
        rw [BitVec.xor_assoc, and_xor_and_not]
    _ = crcBits poly 8 (c ^^^ (w &&& 0xFF)) ^^^ (w >>> 8) := by
        rw [crcBits_xor poly 8 _ fun i hi => ?_, hhigh]
        rw [BitVec.getLsbD_and, hlow i hi, Bool.and_false]

theorem repeat_crcBit (poly : Word) (n : Nat) (c : Word) : Nat.repeat (crcBit poly) n c = crcBits poly n c := by
  induction n generalizing c with
  | zero => rfl
  | succ n ih => rw [Nat.repeat, ih, crcBits_add poly n 1]; rfl

/-- The steps of CRCB over byte `k` of a word. -/
def crcByte (poly w c : Word) (k : Nat) : Word := crcBits poly 8 (c ^^^ ((w >>> (8 * k)) &&& 0xFF))

theorem crcByte_xor (poly w c : Word) (k : Nat) :
    crcBits poly 8 (c ^^^ (w >>> (8 * k))) = crcByte poly w c k ^^^ (w >>> (8 * (k + 1))) := by
  rw [crcBits_eight_xor, Nat.mul_succ, BitVec.shiftRight_add]
  rfl

theorem crcStep_byte (poly c w : Word) : crcStep c w 8 poly = crcByte poly w c 0 := by
  have hmod : word (w.toNat % 2 ^ 8) = w >>> (8 * 0) &&& 0xFF := by
    apply BitVec.eq_of_toNat_eq
    simp [word, Nat.and_two_pow_sub_one_eq_mod w.toNat 8]
    omega
  rw [crcStep, hmod, crcByte]

/-- CRCW equals four CRCB steps over the word's bytes, low byte first. -/
theorem crcStep_word (poly c w : Word) :
    crcStep c w 32 poly = crcByte poly w (crcByte poly w (crcByte poly w (crcByte poly w c 0) 1) 2) 3 := by
  have hw : word (w.toNat % 2 ^ 32) = w >>> (8 * 0) := by
    rw [Nat.mod_eq_of_lt w.isLt, word, BitVec.ofNat_toNat, BitVec.setWidth_eq, Nat.mul_zero, BitVec.ushiftRight_zero]
  have hend : w >>> (8 * (3 + 1)) = 0 := BitVec.ushiftRight_eq_zero (Nat.le_refl _)
  rw [crcStep, hw, crcBits_add poly 8 24, crcByte_xor, crcBits_add poly 8 16, crcByte_xor, crcBits_add poly 8 8, crcByte_xor,
    crcByte_xor, hend]
  exact BitVec.xor_zero

/-- Settles O10: CRCB and CRCW push their step of the CRC (`scalar_pushes`), and the 32 bits of CRCW go by four bytes because a byte's
eight steps only move the others down (`crcBits_eight_xor`). -/
theorem crcStepsUseThePolynomial : Obligations.CrcStepsUseThePolynomial := by
  intro s t c w hr hl
  simp only [repeat_crcBit]
  exact ⟨scalar_pushes hr hl (congrArg (fun v => [v]) (crcStep_byte _ c w)),
    scalar_pushes hr hl (congrArg (fun v => [v]) (crcStep_word _ c w))⟩

end Sys2Proof.CoreProofs
end

section
/-! PROOFS. O12: the stack operations and literal runs. -/

namespace Sys2Proof.CoreProofs
open Sys2Proof Sys2Proof.Machine Sys2Proof.Laws

theorem stackOperationEffects : Claims.StackOperationEffects := by
  intro s t a b c
  refine ⟨fun hr => ⟨scalar_pushes hr rfl rfl, scalar_pushes hr rfl rfl⟩, fun hr hl => scalar_pushes hr hl rfl,
    fun hr => scalar_pushes hr rfl rfl, fun hr hl => scalar_pushes hr hl rfl,
    fun hr hl => ⟨scalar_pushes hr hl rfl, scalar_pushes hr hl rfl⟩, fun hr hl => scalar_pushes hr hl rfl,
    fun hr hl => scalar_pushes hr hl rfl⟩

theorem fullDepth_firstIssue (s : State) (t : Thread) : fullDepth ((firstIssue t s).ctx t) = fullDepth (s.ctx t) := by
  simp [fullDepth]

/-- PICK reads its count before it is issued, and with it copies entry `n` below the count. -/
theorem exec_pick {s : State} {t : Thread} {n : Word} {l : List Word} (hr : Runs t 1 ⟨n.toNat + 2, n.toNat + 2, 0, 0⟩ s)
    (hn : n.toNat ≤ 14) (htop : operands s t 1 = [n]) (hl : operands (firstIssue t s) t (n.toNat + 2) = n :: l) :
    exec (.pick t) s = pushed t (n.toNat + 2) (l.getD n.toNat 0 :: l) s := by
  have hcount : arg (operands s t 1) 0 = n := by rw [htop]; rfl
  show Host.Outcome.next (pick t s) = _
  simp only [pick, hcount, if_pos hn]
  exact issue_goesOn hr hl rfl (if_neg (Nat.not_lt.mpr hn))

theorem deepStackOperations : Claims.DeepStackOperations := by
  intro s t a n l
  refine ⟨fun hr hn htop hl _ => exec_pick hr hn htop hl, fun hr => ?_, fun hr hl => issue_goesOn hr hl rfl rfl,
    fun hr hl => issue_goesOn hr rfl hl rfl, fun hr hl => issue_goesOn hr rfl hl rfl⟩
  exact issue_goesOn hr rfl rfl (congrArg (fun v => pushes (firstIssue t s) [v]) (fullDepth_firstIssue s t))

/-! ## Literal runs (R183) -/

theorem signExtend_firstPrefix {d : Nat} (h : d < 64) :
    (BitVec.ofNat 6 d).signExtend 32 = BitVec.ofInt 32 (if d < 32 then (d : Int) else d - 64) := by
  have hall : ∀ d, d < 64 → (BitVec.ofNat 6 d).signExtend 32 = BitVec.ofInt 32 (if d < 32 then (d : Int) else d - 64) := by
    decide
  exact hall d h

theorem shiftIn_prefix (v : Word) {e : Nat} (h : e < 64) : (v <<< 6) ||| word (e % 64) = BitVec.ofNat 32 (v.toNat * 64 + e) := by
  apply BitVec.eq_of_toNat_eq
  have hor : (v.toNat * 64 + e) = v.toNat <<< 6 ||| e := by
    rw [← Nat.shiftLeft_add_eq_or_of_lt (by simpa using h), Nat.shiftLeft_eq]
  rw [BitVec.toNat_or, BitVec.toNat_shiftLeft, word, BitVec.toNat_ofNat, BitVec.toNat_ofNat, hor, Nat.or_mod_two_pow,
    Nat.mod_eq_of_lt h]

theorem literalValue_eq {d : Nat} {r : List Nat} (hd : d < 64) (hr : ∀ e, e ∈ r → e < 64) :
    literalValue (d :: r) = r.foldl (fun v e => BitVec.ofNat 32 (v.toNat * 64 + e))
      (BitVec.ofInt 32 (if d < 32 then (d : Int) else d - 64)) := by
  rw [literalValue, signExtend_firstPrefix hd]
  exact List.foldl_ext _ _ _ fun v e he => shiftIn_prefix v (hr e he)

theorem literalRunPushesItsValue : Claims.LiteralRunPushesItsValue := by
  intro s t ds d r hrun hd hr hlen hruns
  have hguard : ¬ 6 < (d :: r).length := by rw [List.length_cons]; omega
  show Host.Outcome.next (literalRun t ds s) = _
  simp only [literalRun, hrun, if_neg (List.cons_ne_nil d r)]
  rw [← literalValue_eq hd hr]
  congr 1
  exact issue_completes (len := (d :: r).length) (e := { s := firstIssue t s, push := [literalValue (d :: r)], rpush := [], tgt := none })
    hruns (if_neg hguard) rfl

/-- Settles O12: the stack operations push their function of their entries (`scalar_pushes`), PICK's count is the one it pops
(`exec_pick`), and a run's value is built as R183 says (`literalValue_eq`). -/
theorem stackOperations : Obligations.StackOperations :=
  ⟨stackOperationEffects, deepStackOperations, literalRunPushesItsValue⟩

end Sys2Proof.CoreProofs
end

section
/-! PROOFS. O13: hardware loops. The loop step is as the statement says; LOOP and LEAVE are while at most four levels are open, and the
statement, which does not ask for that, is refuted at depth 58. -/

namespace Sys2Proof.CoreProofs
open Sys2Proof Sys2Proof.Machine Sys2Proof.Laws

/-! ## What pops and pushes leave of their thread's context (R171, R174) -/

/-- `y` is the context `x` but for its stacks, the pointers of their areas, and its reservation. -/
structure StacksOnly (x y : Ctx) : Prop where
  rest : { y with ops := x.ops, rets := x.rets, sr := x.sr, resv := x.resv } = x
  regs : ∀ n, n ≠ 2 → n ≠ 5 → y.reg n = x.reg n

theorem StacksOnly.refl (x : Ctx) : StacksOnly x x := ⟨rfl, fun _ _ _ => rfl⟩

theorem StacksOnly.trans {x y z : Ctx} (h : StacksOnly x y) (k : StacksOnly y z) : StacksOnly x z := by
  refine ⟨?_, fun n h2 h5 => (k.regs n h2 h5).trans (h.regs n h2 h5)⟩
  exact (congrArg (fun w : Ctx => { w with ops := x.ops, rets := x.rets, sr := x.sr, resv := x.resv }) k.rest).trans h.rest

theorem StacksOnly.pc {x y : Ctx} (h : StacksOnly x y) : y.pc = x.pc := (congrArg Ctx.pc h.rest :)

theorem StacksOnly.ldepth {x y : Ctx} (h : StacksOnly x y) : y.ldepth = x.ldepth := (congrArg Ctx.ldepth h.rest :)

theorem StacksOnly.setReg {x : Ctx} {k : Nat} (hk : k = 2 ∨ k = 5) (v : Word) : StacksOnly x (x.setReg k v) := by
  refine ⟨rfl, fun n h2 h5 => (Ctx.setReg_get ..).trans (if_neg ?_)⟩
  rintro rfl
  exact hk.elim h2 h5

theorem StacksOnly.withStacks {x y : Ctx} (h : StacksOnly x y) (l r : List Word) (v : Option Nat) :
    StacksOnly x { y with ops := l, rets := r, resv := v } := ⟨h.rest, h.regs⟩

theorem spillWords_stacksOnly (t : Thread) (c ptr : Nat) (l : List Word) (s : State) :
    StacksOnly (s.ctx t) ((spillWords c ptr l s).ctx t) := by
  rw [(TileProofs.spillWords_resvOnly c ptr l s).ctxs t]
  exact (StacksOnly.refl _).withStacks ..

/-- A pointer of a stack's area before and after a fill and a spill. -/
theorem StacksOnly.pointer {x : Ctx} {k : Nat} (hk : k = 2 ∨ k = 5) (p : Prop) [Decidable p] (v : Word) :
    StacksOnly x (if p then x else x.setReg k v) := by
  split
  · exact .refl x
  · exact .setReg hk v

theorem pushOps_stacksOnly (t : Thread) (pops : Nat) (push : List Word) (s : State) :
    StacksOnly (s.ctx t) ((pushOps t pops push s).ctx t) := by
  unfold pushOps
  dsimp only
  split
  · rw [updCtx_ctx]
    exact (StacksOnly.pointer (.inl rfl) ..).withStacks ..
  · refine .trans ?_ (spillWords_stacksOnly ..)
    rw [updCtx_ctx]
    exact ((StacksOnly.pointer (.inl rfl) ..).trans (.setReg (.inl rfl) _)).withStacks ..

theorem pushRets_stacksOnly (t : Thread) (pops : Nat) (push : List Word) (s : State) :
    StacksOnly (s.ctx t) ((pushRets t pops push s).ctx t) := by
  unfold pushRets
  split
  · exact .refl _
  dsimp only
  split
  · rw [updCtx_ctx]
    exact (StacksOnly.pointer (.inr rfl) ..).withStacks ..
  · refine .trans ?_ (spillWords_stacksOnly ..)
    rw [updCtx_ctx]
    exact ((StacksOnly.pointer (.inr rfl) ..).trans (.setReg (.inr rfl) _)).withStacks ..

theorem pushBoth_stacksOnly (t : Thread) (pops : Nat) (push : List Word) (rpops : Nat) (rpush : List Word) (s : State) :
    StacksOnly (s.ctx t) ((pushRets t rpops rpush (pushOps t pops push s)).ctx t) :=
  (pushOps_stacksOnly ..).trans (pushRets_stacksOnly ..)

/-! ## The step after an instruction (R217, R218) -/

/-- The innermost open level of a thread ends at the last syllable of its instruction of `len` syllables. -/
def AtLoopEnd (x : Ctx) (len : Nat) : Prop := x.ldepth ≠ 0 ∧ x.reg (0x014 + (x.ldepth - 1)) = x.pc + word (len - 1)

section Step

variable {s : State} {t : Thread} {len : Nat}

/-- The number of the innermost level. -/
def innermost (x : Ctx) : Nat := x.ldepth - 1

theorem advance_repeats (h : AtLoopEnd (s.ctx t) len) (hlc : 1 < ((s.ctx t).reg (0x018 + innermost (s.ctx t))).toNat) :
    (advance t len s).ctx t = { (s.ctx t).setReg (0x018 + innermost (s.ctx t))
      (word (((s.ctx t).reg (0x018 + innermost (s.ctx t))).toNat - 1)) with pc := (s.ctx t).reg (0x010 + innermost (s.ctx t)) } := by
  rw [show advance t len s = s.updCtx t _ from (if_pos h).trans (if_pos hlc), updCtx_ctx]
  rfl

theorem advance_closes (h : AtLoopEnd (s.ctx t) len) (hlc : ((s.ctx t).reg (0x018 + innermost (s.ctx t))).toNat = 1) :
    (advance t len s).ctx t = { s.ctx t with ldepth := innermost (s.ctx t), pc := (s.ctx t).pc + word (len - 1) + 1 } := by
  have hnot : ¬ 1 < ((s.ctx t).reg (0x018 + innermost (s.ctx t))).toNat := by omega
  rw [show advance t len s = s.updCtx t _ from (if_pos h).trans ((if_neg hnot).trans (if_pos hlc)), updCtx_ctx]
  rfl

theorem advance_goes_on (h : ¬ AtLoopEnd (s.ctx t) len) :
    (advance t len s).ctx t = { s.ctx t with pc := (s.ctx t).pc + word len } := by
  rw [show advance t len s = s.updCtx t _ from if_neg h, updCtx_ctx]

end Step

theorem loopStepAtTheLoopEnd : Claims.LoopStepAtTheLoopEnd := by
  intro s t len pops push rpops rpush a x d u w
  have hstacks := pushBoth_stacksOnly t pops push rpops rpush s
  have hu : u = (advance t len (pushRets t rpops rpush (pushOps t pops push s))).ctx t := rfl
  have hw : w = { (pushRets t rpops rpush (pushOps t pops push s)).ctx t with pc := a } := updCtx_ctx ..
  generalize pushRets t rpops rpush (pushOps t pops push s) = v at hstacks hu hw
  have hd : innermost (v.ctx t) = d := congrArg (· - 1) hstacks.ldepth
  have hreg : ∀ n, n ≠ 2 → n ≠ 5 → (v.ctx t).reg n = x.reg n := hstacks.regs
  have hend : AtLoopEnd (v.ctx t) len ↔ x.ldepth ≠ 0 ∧ x.reg (0x014 + d) = x.pc + word (len - 1) := by
    rw [AtLoopEnd, hstacks.ldepth, hstacks.pc, hreg _ (by omega) (by omega)]
  have hlc : (v.ctx t).reg (0x018 + d) = x.reg (0x018 + d) := hreg _ (by omega) (by omega)
  refine ⟨fun h0 hle => ⟨fun h1 => ?_, fun h1 => ?_⟩, fun h => ?_, ?_⟩
  · rw [hu, advance_repeats (hend.mpr ⟨h0, hle⟩) (by rw [hd, hlc]; exact h1), hd, hlc]
    refine ⟨hreg _ (by omega) (by omega), hstacks.ldepth, ?_⟩
    show (((v.ctx t).setReg (0x018 + d) _).reg (0x018 + d)).toNat = _
    rw [Ctx.setReg_reg, word, BitVec.toNat_ofNat]
    omega
  · rw [hu, advance_closes (hend.mpr ⟨h0, hle⟩) (by rw [hd, hlc]; exact h1), hd]
    exact ⟨by rw [hle, hstacks.pc]; rfl, rfl⟩
  · have hnot : ¬ AtLoopEnd (v.ctx t) len := fun he => h.elim (hend.mp he).1 (fun hne => hne (hend.mp he).2)
    rw [hu, advance_goes_on hnot]
    exact ⟨congrArg (· + word len) hstacks.pc, hstacks.ldepth, hlc⟩
  · rw [hw]
    exact ⟨rfl, hstacks.ldepth, hlc⟩

theorem updCtx_congr {s : State} {t : Thread} {f g : Ctx → Ctx} (h : f (s.ctx t) = g (s.ctx t)) :
    s.updCtx t f = s.updCtx t g := by
  simp only [State.updCtx, State.updCore, Core.updCtx, tblUpd]
  exact congrArg (fun y => { s with cores := tblSet coreD s.cores t.core { s.core t.core with
    ctxs := tblSet Ctx.reset (s.core t.core).ctxs t.ctx y } }) h

/-! ## LOOP and LEAVE (R214 to R216, R219) -/

section LoopLeave

variable {s : State} {t : Thread}

theorem exec_loop_skips {n e : Word} (hr : Runs t 1 ⟨2, 0, 0, 0⟩ s) (hl : operands (firstIssue t s) t 2 = [e, n]) (hn : n = 0) :
    exec (.loop t) s = goesOn t 2 [] 0 [] (some ((s.ctx t).pc + 1 + e + 1)) s := by
  refine issue_goesOn hr hl rfl ((if_pos hn).trans ?_)
  rw [firstIssue_pc]
  rfl

/-- A level is opened: its LS, LE and LC are written, and the depth rises. -/
def openLoop (x : Ctx) (ls le n : Word) (y : Ctx) : Ctx :=
  { ((y.setReg (0x010 + x.ldepth) ls).setReg (0x014 + x.ldepth) le).setReg (0x018 + x.ldepth) n with ldepth := x.ldepth + 1 }

theorem exec_loop_opens {n e : Word} (hr : Runs t 1 ⟨2, 0, 0, 0⟩ s) (hl : operands (firstIssue t s) t 2 = [e, n]) (hn : n ≠ 0)
    (hd : (s.ctx t).ldepth < 4) :
    exec (.loop t) s = .next (complete t 1 2 [] 0 [] none ((firstIssue t s).updCtx t
      (openLoop (s.ctx t) ((s.ctx t).pc + 1) ((s.ctx t).pc + 1 + e) n))) := by
  have hd4 : ¬ 4 ≤ ((firstIssue t s).ctx t).ldepth := by rw [firstIssue_ldepth]; omega
  refine congrArg _ (issue_completes (e := { s := _, push := [], rpush := [], tgt := none }) hr rfl ?_)
  rw [hl]
  refine ((if_neg hn).trans (if_neg hd4)).trans (congrArg (pushes · []) (updCtx_congr ?_))
  rw [openLoop, ← firstIssue_ldepth t s, ← firstIssue_pc t s]
  rfl

theorem exec_loop_faults {n e : Word} (hr : Runs t 1 ⟨2, 0, 0, 0⟩ s) (hl : operands (firstIssue t s) t 2 = [e, n]) (hn : n ≠ 0)
    (hd : 4 ≤ (s.ctx t).ldepth) :
    exec (.loop t) s = .next (fault t 0x02 0 (s.ctx t).pc false (firstIssue t s)) := by
  refine congrArg _ (issue_faults hr rfl ?_)
  rw [hl]
  exact (if_neg hn).trans (if_pos (by rw [firstIssue_ldepth]; exact hd))

theorem exec_leave_closes (hr : Runs t 1 ⟨0, 0, 0, 0⟩ s) (hd : (s.ctx t).ldepth ≠ 0) :
    exec (.leave t) s = .next (complete t 1 0 [] 0 []
      (some (((firstIssue t s).ctx t).reg (0x014 + ((s.ctx t).ldepth - 1)) + 1))
      ((firstIssue t s).updCtx t (fun y => { y with ldepth := (s.ctx t).ldepth - 1 }))) := by
  rw [← firstIssue_ldepth t s] at hd ⊢
  refine congrArg _ (issue_completes (e := { s := _, push := [], rpush := [], tgt := some _ }) hr rfl ((if_neg hd).trans ?_))
  exact congrArg (goes · [] _) (updCtx_congr rfl)

theorem exec_leave_faults (hr : Runs t 1 ⟨0, 0, 0, 0⟩ s) (hd : (s.ctx t).ldepth = 0) :
    exec (.leave t) s = .next (fault t 0x02 1 (s.ctx t).pc false (firstIssue t s)) :=
  congrArg _ (issue_faults hr rfl (if_pos (by rw [firstIssue_ldepth]; exact hd)))

end LoopLeave

/-- The first half of O13 for a thread whose loop depth is one that R222 allows. -/
theorem loopAndLeave_of_ldepth_le (s : State) (t : Thread) (n e : Word) (h4 : (s.ctx t).ldepth ≤ 4) :
    let x := s.ctx t
    let ls := x.pc + 1
    (Runs t 1 ⟨2, 0, 0, 0⟩ s → operands (firstIssue t s) t 2 = [e, n] →
      (n = 0 → exec (.loop t) s = goesOn t 2 [] 0 [] (some (ls + e + 1)) s) ∧
      (n ≠ 0 → x.ldepth < 4 → exec (.loop t) s =
        .next (complete t 1 2 [] 0 [] none ((firstIssue t s).updCtx t (openLoop x ls (ls + e) n)))) ∧
      (n ≠ 0 → 4 ≤ x.ldepth → exec (.loop t) s = .next (fault t 0x02 0 x.pc false (firstIssue t s)))) ∧
    (Runs t 1 ⟨0, 0, 0, 0⟩ s →
      (x.ldepth ≠ 0 → exec (.leave t) s = .next (complete t 1 0 [] 0 [] (some (x.reg (0x014 + (x.ldepth - 1)) + 1))
        ((firstIssue t s).updCtx t (fun y => { y with ldepth := x.ldepth - 1 })))) ∧
      (x.ldepth = 0 → exec (.leave t) s = .next (fault t 0x02 1 x.pc false (firstIssue t s)))) := by
  refine ⟨fun hr hl => ⟨exec_loop_skips hr hl, exec_loop_opens hr hl, exec_loop_faults hr hl⟩, fun hr => ⟨fun hd => ?_, exec_leave_faults hr⟩⟩
  rw [exec_leave_closes hr hd, firstIssue_reg t s _ (by omega)]

/-! ## A loop depth that no thread has -/

/-- The state in which context 0 of core 0 is at loop depth 58, so that the LE of its innermost level is CORE_TXFMT, whose ARM its
first issue clears (R742). -/
def armedDeepLoops : State :=
  { State.reset with
    cores := [(0, { Core.reset with ctxs := [(0, { Ctx.reset 0 with st := .run, ldepth := 58, sr := [(0x04D, 0x200000)] })] })] }

theorem armedDeepLoops_runs : Runs ⟨0, 0⟩ 1 ⟨0, 0, 0, 0⟩ armedDeepLoops := by
  refine ⟨?_, ?_, ?_, ?_, ?_, ?_⟩ <;> decide +kernel

/-- LEAVE goes to the syllable after the LE that its first issue has left: address 1. -/
theorem armedDeepLoops_leaves_to_one : ∃ u, exec (.leave ⟨0, 0⟩) armedDeepLoops = .next u ∧ (u.ctx ⟨0, 0⟩).pc = 1 :=
  ⟨_, rfl, by decide +kernel⟩

theorem not_loopAndLeave : ¬ Claims.LoopAndLeave := by
  intro h
  obtain ⟨u, hu, hpc⟩ := armedDeepLoops_leaves_to_one
  have hclaim := ((h armedDeepLoops ⟨0, 0⟩ 0 0).2 armedDeepLoops_runs).1 (by decide +kernel)
  rw [hu] at hclaim
  rw [Host.Outcome.next.inj hclaim] at hpc
  exact absurd hpc (by decide +kernel)

/-- Refutes O13: it does not ask for a loop depth that R222 allows, and at depth 58 the LE of the innermost level is CORE_TXFMT, which
the first issue of LEAVE changes before LEAVE reads it (`armedDeepLoops`). The rest of it holds: `loopAndLeave_of_ldepth_le` and
`loopStepAtTheLoopEnd`. -/
theorem not_hardwareLoops : ¬ Obligations.HardwareLoops := fun h => not_loopAndLeave h.1

end Sys2Proof.CoreProofs
end

section
/-! PROOFS. O14: both stacks keep their entries across spills and fills, and a stack fault comes before any effect. -/

namespace Sys2Proof.CoreProofs
open Sys2Proof Sys2Proof.Machine Sys2Proof.Laws

/-! ## Fills and spills (R172) -/

theorem fillWords_congr {s u : State} (h : u.mem = s.mem) (c ptr n : Nat) : fillWords u c ptr n = fillWords s c ptr n := by
  induction n generalizing ptr with
  | zero => rfl
  | succ n ih => rw [fillWords, fillWords, ih, h]

theorem fillWords_length (s : State) (c ptr n : Nat) : (fillWords s c ptr n).length = n := by
  induction n generalizing ptr with
  | zero => rfl
  | succ n ih => rw [fillWords, List.length_cons, ih]

/-- A fill of `m + n` words is one of `m` words and then one of `n` from below them. -/
theorem fillWords_add (s : State) (c ptr m n : Nat) :
    fillWords s c ptr (m + n) = fillWords s c ptr m ++ fillWords s c (ptr - 4 * m) n := by
  induction m generalizing ptr with
  | zero => rw [Nat.zero_add]; rfl
  | succ m ih =>
    rw [Nat.succ_add, fillWords, ih, fillWords, List.cons_append, Nat.mul_succ, Nat.sub_sub, Nat.add_comm 4]

/-- Words stored at and above `p` change no fill from `p` down. -/
theorem fillWords_congr_below {s u : State} {c p : Nat} (h : ∀ b, b + 4 ≤ localBase c + p → memWord u.mem b = memWord s.mem b)
    {n : Nat} (hn : 4 * n ≤ p) : fillWords u c p n = fillWords s c p n := by
  induction n generalizing p with
  | zero => rfl
  | succ n ih =>
    rw [fillWords, fillWords, h _ (by omega), ih (fun b hb => h b (by omega)) (by omega)]

theorem spillWords_cons (c p : Nat) (w : Word) (r : List Word) (s : State) :
    spillWords c p (w :: r) s = spillWords c (p + 4) r (write (localBase c + p) (leBytes w.toNat 4) s) := by
  rw [spillWords.eq_def]

theorem spillWords_clean {s : State} (h : s.bad = []) (c p : Nat) (l : List Word) :
    (spillWords c p l s).bad = [] ∧ ∀ b, b + 4 ≤ localBase c + p → memWord (spillWords c p l s).mem b = memWord s.mem b := by
  induction l generalizing p s with
  | nil => exact ⟨h, fun _ _ => rfl⟩
  | cons w r ih =>
    obtain ⟨hmem, hbad⟩ := TileProofs.write_clean h (localBase c + p) (leBytes w.toNat 4)
    obtain ⟨hbad', hbelow⟩ := ih hbad (p + 4)
    rw [spillWords_cons]
    refine ⟨hbad', fun b hb => (hbelow b (by omega)).trans ?_⟩
    rw [hmem, memWord_memPut_apart _ _ _ _ (.inl hb)]

/-- A fill brings back what a spill has put away. -/
theorem fillWords_spillWords {s : State} (h : s.bad = []) (c p : Nat) (l : List Word) :
    fillWords (spillWords c p l s) c (p + 4 * l.length) l.length = l.reverse := by
  induction l generalizing p s with
  | nil => rfl
  | cons w r ih =>
    obtain ⟨hmem, hbad⟩ := TileProofs.write_clean h (localBase c + p) (leBytes w.toNat 4)
    have hw : memWord (spillWords c (p + 4) r (write (localBase c + p) (leBytes w.toNat 4) s)).mem (localBase c + p) = w := by
      rw [(spillWords_clean hbad c (p + 4) r).2 _ (by omega), hmem, memWord_memPut]
    rw [List.length_cons, fillWords_add, show p + 4 * (r.length + 1) = p + 4 + 4 * r.length by omega, spillWords_cons, ih hbad,
      List.reverse_cons, fillWords, show localBase c + (p + 4 + 4 * r.length - 4 * r.length) - 4 = localBase c + p by omega, hw]
    rfl

/-! ## The entries of a stack (R171, R174) -/

/-- The top `n` entries of a stack that holds `hw` in hardware and spills at `ptr`. -/
def stackTop (s : State) (c : Nat) (hw : List Word) (ptr n : Nat) : List Word := (hw ++ fillWords s c ptr (n - hw.length)).take n

theorem operands_eq (s : State) (t : Thread) (n : Nat) :
    operands s t n = stackTop s t.core (s.ctx t).ops ((s.ctx t).reg 2).toNat n := rfl

theorem returns_eq (s : State) (t : Thread) (n : Nat) :
    returns s t n = stackTop s t.core (s.ctx t).rets ((s.ctx t).reg 5).toNat n := rfl

theorem stackTop_congr {s u : State} (h : u.mem = s.mem) (c : Nat) (hw : List Word) (ptr n : Nat) :
    stackTop u c hw ptr n = stackTop s c hw ptr n := by
  rw [stackTop, stackTop, fillWords_congr h]

/-- A longer fill than needed makes no difference. -/
theorem stackTop_of_le (s : State) (c : Nat) (hw : List Word) (ptr : Nat) {n m : Nat} (h : n - hw.length ≤ m) :
    (hw ++ fillWords s c ptr m).take n = stackTop s c hw ptr n := by
  obtain ⟨j, rfl⟩ := Nat.exists_eq_add_of_le h
  rw [stackTop, fillWords_add, ← List.append_assoc, List.take_append_of_le_length]
  rw [List.length_append, fillWords_length]
  omega

/-- The entries below `pops` of the stack, under those pushed, are the entries of the stack popped and pushed. -/
theorem stackTop_pop_push (s : State) (c : Nat) (hw push : List Word) (ptr pops n : Nat) :
    stackTop s c (push ++ hw.drop pops) (ptr - 4 * (pops - hw.length)) n =
      (push ++ (stackTop s c hw ptr (pops + n)).drop pops).take n := by
  have hfill : fillWords s c ptr (pops + n - hw.length) =
      fillWords s c ptr (pops - hw.length) ++ fillWords s c (ptr - 4 * (pops - hw.length)) (n - (hw.drop pops).length) := by
    rw [← fillWords_add, List.length_drop]
    congr 1
    omega
  have hdrop : (hw ++ fillWords s c ptr (pops + n - hw.length)).drop pops =
      hw.drop pops ++ fillWords s c (ptr - 4 * (pops - hw.length)) (n - (hw.drop pops).length) := by
    rw [hfill, List.drop_append, List.drop_left' (fillWords_length ..)]
  rw [stackTop.eq_def s c hw, List.drop_take, Nat.add_sub_cancel_left, hdrop, ← stackTop_of_le (m := n - (hw.drop pops).length)]
  · rw [List.append_assoc, List.take_append, List.take_append (l₁ := push), List.take_take, Nat.min_eq_left (Nat.sub_le ..)]
  · rw [List.length_append]
    omega

/-- Entries beyond the sixteen in hardware are as well in the spill area. -/
theorem stackTop_spill {s : State} (h : s.bad = []) (c p : Nat) {all : List Word} (h16 : 16 < all.length) {n : Nat}
    (hn : 4 * (n - all.length) ≤ p) :
    stackTop (spillWords c p (all.reverse.take (all.length - 16)) s) c (all.take 16) (p + 4 * (all.length - 16)) n =
      stackTop s c all p n := by
  have hlen : (all.reverse.take (all.length - 16)).length = all.length - 16 := by rw [List.length_take, List.length_reverse]; omega
  have hback := fillWords_spillWords h c p (all.reverse.take (all.length - 16))
  have hbelow := fillWords_congr_below (spillWords_clean h c p (all.reverse.take (all.length - 16))).2 hn
  have hrest : (all.reverse.take (all.length - 16)).reverse = all.drop 16 := by
    rw [List.take_reverse, List.reverse_reverse, Nat.sub_sub_self (Nat.le_of_lt h16)]
  rw [hlen, hrest] at hback
  rw [← stackTop_of_le (m := all.length - 16 + (n - all.length)), fillWords_add, hback, Nat.add_sub_cancel, hbelow,
    ← List.append_assoc, List.take_append_drop]
  · rfl
  · rw [List.length_take]
    omega

/-! ## Pops and pushes (R171 to R174) -/

/-- The pointer `r` of a stack's area after a fill of `k` words. -/
theorem filled_pointer (x : Ctx) (r k : Nat) :
    ((if k = 0 then x else x.setReg r (word ((x.reg r).toNat - 4 * k))).reg r).toNat = (x.reg r).toNat - 4 * k := by
  have hlt := (x.reg r).isLt
  split
  · next h => rw [h]; rfl
  · rw [Ctx.setReg_reg, word, BitVec.toNat_ofNat, Nat.mod_eq_of_lt (by omega)]

/-- The same after a spill that leaves the pointer at `p`. -/
theorem spilled_pointer (y : Ctx) (r : Nat) {p : Nat} (h : p < 2 ^ 32) : ((y.setReg r (word p)).reg r).toNat = p := by
  rw [Ctx.setReg_reg, word, BitVec.toNat_ofNat, Nat.mod_eq_of_lt h]

/-- The bounds under which a spill after the pop of `pops` of `hw` entries and the push of `push` keeps what `n` entries need. -/
theorem spill_bounds {ptr pops n : Nat} {hw push : List Word} (htop : ptr + 4 * (hw.length + push.length) < 2 ^ 32)
    (hn : 4 * (pops + n) ≤ ptr + 4 * hw.length) :
    ptr - 4 * (pops - hw.length) + 4 * ((push ++ hw.drop pops).length - 16) < 2 ^ 32 ∧
      4 * (n - (push ++ hw.drop pops).length) ≤ ptr - 4 * (pops - hw.length) := by
  rw [List.length_append, List.length_drop]
  omega

theorem operands_pushOps {s : State} (hbad : s.bad = []) {t : Thread} {pops n : Nat} {push : List Word}
    (htop : ((s.ctx t).reg 2).toNat + 4 * ((s.ctx t).ops.length + push.length) < 2 ^ 32)
    (hn : 4 * (pops + n) ≤ ((s.ctx t).reg 2).toNat + 4 * (s.ctx t).ops.length) :
    operands (pushOps t pops push s) t n = (push ++ (operands s t (pops + n)).drop pops).take n := by
  obtain ⟨hptr, hfill⟩ := spill_bounds htop hn
  rw [operands_eq, operands_eq, ← stackTop_pop_push]
  unfold pushOps
  dsimp only
  split
  · rw [updCtx_ctx, stackTop_congr (updCtx_mem ..)]
    exact congrArg (stackTop s _ _ · n) (filled_pointer (s.ctx t) 2 _)
  · next h16 =>
    rw [(TileProofs.spillWords_resvOnly ..).ctxs t, updCtx_ctx]
    refine (congrArg (stackTop _ _ _ · n) (spilled_pointer _ 2 hptr)).trans ?_
    exact (stackTop_spill (s := s.updCtx t _) hbad _ _ (Nat.not_le.mp h16) hfill).trans (stackTop_congr (updCtx_mem ..) ..)

theorem returns_pushRets {s : State} (hbad : s.bad = []) {t : Thread} {pops n : Nat} {push : List Word}
    (htop : ((s.ctx t).reg 5).toNat + 4 * ((s.ctx t).rets.length + push.length) < 2 ^ 32)
    (hn : 4 * (pops + n) ≤ ((s.ctx t).reg 5).toNat + 4 * (s.ctx t).rets.length) :
    returns (pushRets t pops push s) t n = (push ++ (returns s t (pops + n)).drop pops).take n := by
  obtain ⟨hptr, hfill⟩ := spill_bounds htop hn
  rw [returns_eq, returns_eq, ← stackTop_pop_push]
  unfold pushRets
  split
  · next h =>
    obtain ⟨rfl, rfl⟩ := h
    rw [Nat.zero_sub]
    rfl
  dsimp only
  split
  · rw [updCtx_ctx, stackTop_congr (updCtx_mem ..)]
    exact congrArg (stackTop s _ _ · n) (filled_pointer (s.ctx t) 5 _)
  · next h16 =>
    rw [(TileProofs.spillWords_resvOnly ..).ctxs t, updCtx_ctx]
    refine (congrArg (stackTop _ _ _ · n) (spilled_pointer _ 5 hptr)).trans ?_
    exact (stackTop_spill (s := s.updCtx t _) hbad _ _ (Nat.not_le.mp h16) hfill).trans (stackTop_congr (updCtx_mem ..) ..)

theorem spillsAndFillsKeepTheStacks : Claims.SpillsAndFillsKeepTheStacks :=
  fun _ _ _ _ _ hbad => ⟨operands_pushOps hbad, returns_pushRets hbad⟩

/-! ## The instructions that only compute on the stacks -/

/-- What such an instruction is: one issue without a check of its own, whose body leaves the state to the pops and pushes of the
instruction's stack effect and to where it goes. -/
structure ComputesOnly (t : Thread) (len : Nat) (sh : Shape) (guard : State → Option (Nat × Word))
    (body : State → List Word → List Word → Out) : Prop where
  guard : ∀ u, guard u = none
  body : ∀ u l r, ∃ push rpush tgt, body u l r = .ok { s := u, push := push, rpush := rpush, tgt := tgt } ∧
    push.length = sh.pushes ∧ rpush.length = sh.rpushes

/-- A run of one to six prefixes is one instruction. -/
theorem exec_literalRun {s : State} {t : Thread} {ds : List Nat} (h0 : (runOf s t ds).length ≠ 0) (h6 : ¬ 6 < (runOf s t ds).length) :
    ∃ op second guard body, exec (.literalRun t ds) s = .next (issue t op second (runOf s t ds).length ⟨0, 1, 0, 0⟩ guard body s) ∧
      ComputesOnly t (runOf s t ds).length ⟨0, 1, 0, 0⟩ guard body := by
  have hne : runOf s t ds ≠ [] := fun e => h0 (congrArg List.length e)
  refine ⟨_, _, _, _, congrArg Host.Outcome.next (if_neg hne), fun u => if_neg h6, fun u l r => ⟨_, _, _, rfl, rfl, rfl⟩⟩

theorem ite_computes {c : Prop} [Decidable c] (u : State) (tgt : Word) :
    ∃ push rpush dst, (if c then goes u [] tgt else pushes u []) = .ok { s := u, push := push, rpush := rpush, tgt := dst } ∧
      push.length = 0 ∧ rpush.length = 0 := by
  split <;> exact ⟨_, _, _, rfl, rfl, rfl⟩

theorem exec_stackOnly {s : State} {i : Instr} {t : Thread} {len : Nat} {sh : Shape} (h : stackOnly s i = some (t, len, sh)) :
    ∃ op second guard body, exec i s = .next (issue t op second len sh guard body s) ∧ ComputesOnly t len sh guard body := by
  unfold stackOnly at h
  split at h
  case h_37 => cases h; exact ⟨_, _, _, _, rfl, fun _ => rfl, fun u _ _ => ite_computes u _⟩
  case h_38 => cases h; exact ⟨_, _, _, _, rfl, fun _ => rfl, fun u _ _ => ite_computes u _⟩
  case h_43 t ds =>
    split at h
    · cases h
    · next hlen => cases h; exact exec_literalRun (fun e => hlen (.inl e)) fun e => hlen (.inr e)
  case h_44 => cases h
  all_goals cases h; exact ⟨_, _, _, _, rfl, fun _ => rfl, fun _ _ _ => ⟨_, _, _, rfl, rfl, rfl⟩⟩

/-! ## Faults of issue (R173, R175, R204, R206) -/

section Faults

variable {t : Thread} {op len : Nat} {second : Option Byte} {sh : Shape} {guard : State → Option (Nat × Word)}
  {body : State → List Word → List Word → Out} {s : State} (hi : canIssue s t = true)
  (hf : fetchFault ((firstIssue t s).ctx t) len = none)

include hi hf

theorem issue_reserved (hc : reservedCode (firstIssue t s) t = true) :
    issue t op second len sh guard body s =
      fault t 0x03 (syllables (firstIssue t s) t (syllableAt (firstIssue t s) t 0) none) (s.ctx t).pc false (firstIssue t s) := by
  simp [issue, hi, hf, hc]

theorem issue_stackFault (hc : reservedCode (firstIssue t s) t = false) (hl : straddles ((firstIssue t s).ctx t) len = false)
    (hg : guard (firstIssue t s) = none) {f : Nat}
    (hs : stackFault ((firstIssue t s).ctx t) sh.pops sh.pushes sh.rpops sh.rpushes = some f) :
    issue t op second len sh guard body s = fault t 0x01 (word f) (s.ctx t).pc false (firstIssue t s) := by
  simp [issue, hi, hf, hc, hl, hg, hs]

end Faults

theorem stackFaultsComeFirst : Claims.StackFaultsComeFirst := by
  intro s i t len f sh h hi hf
  obtain ⟨op, second, guard, body, hexec, hcomp⟩ := exec_stackOnly h
  rw [hexec]
  exact ⟨fun hc => congrArg _ (issue_reserved hi hf hc),
    fun hc hl hs => congrArg _ (issue_stackFault hi hf hc hl (hcomp.guard _) hs)⟩

/-- Settles O14: a fill after a spill brings back what was put away (`fillWords_spillWords`), so that both stacks are the entries of
hardware over those of the area whatever is where (`stackTop_spill`, `stackTop_pop_push`); and the checks of issue come before the
body. -/
theorem stacksAcrossSpills : Obligations.StacksAcrossSpills := ⟨spillsAndFillsKeepTheStacks, stackFaultsComeFirst⟩

end Sys2Proof.CoreProofs
end

section
/-! PROOFS. What pops, pushes and the step after an instruction leave unchanged, while the spills stay in the core's local memory:
for O15 and O17. -/

namespace Sys2Proof.CoreProofs
open Sys2Proof Sys2Proof.Machine Sys2Proof.Laws

/-! ## The cores (R171 to R174, R217, R225) -/

/-- `y` is the context `x` but for what an instruction of the stacks may change: `LC` of the level numbered `d` among the registers. -/
structure OwnKept (d : Nat) (x y : Ctx) : Prop where
  rest : { y with
    pc := x.pc, ops := x.ops, rets := x.rets, ldepth := x.ldepth, sr := x.sr, resv := x.resv, hold := x.hold,
    holdLen := x.holdLen } = x
  regs : ∀ n, n ≠ 0x002 → n ≠ 0x005 → n ≠ 0x04D → n ≠ 0x018 + d → y.reg n = x.reg n

theorem OwnKept.refl (d : Nat) (x : Ctx) : OwnKept d x x := ⟨rfl, fun _ _ _ _ _ => rfl⟩

theorem OwnKept.trans {d : Nat} {x y z : Ctx} (h : OwnKept d x y) (k : OwnKept d y z) : OwnKept d x z := by
  refine ⟨?_, fun n h2 h5 h4D hlc => (k.regs n h2 h5 h4D hlc).trans (h.regs n h2 h5 h4D hlc)⟩
  refine Eq.trans ?_ h.rest
  exact (congrArg (fun w : Ctx => { w with
    pc := x.pc, ops := x.ops, rets := x.rets, ldepth := x.ldepth, sr := x.sr, resv := x.resv, hold := x.hold,
    holdLen := x.holdLen }) k.rest :)

theorem StacksOnly.ownKept {x y : Ctx} (h : StacksOnly x y) (d : Nat) : OwnKept d x y := by
  refine ⟨?_, fun n h2 h5 _ _ => h.regs n h2 h5⟩
  exact (congrArg (fun w : Ctx => { w with
    pc := x.pc, ops := x.ops, rets := x.rets, ldepth := x.ldepth, sr := x.sr, resv := x.resv, hold := x.hold,
    holdLen := x.holdLen }) h.rest :)

/-- The registers of the step after an instruction. -/
theorem OwnKept.moves {d : Nat} {x y : Ctx} (h : OwnKept d x y) (a : Word) (n : Nat) : OwnKept d x { y with pc := a, ldepth := n } :=
  ⟨h.rest, h.regs⟩

theorem OwnKept.setLC (d : Nat) (x : Ctx) (v : Word) : OwnKept d x (x.setReg (0x018 + d) v) :=
  ⟨rfl, fun _ _ _ _ hn => (Ctx.setReg_get ..).trans (if_neg (Ne.symm hn))⟩

/-- From `s` to `u` the cores change in the contexts of the core of `t` alone: in `t` as `OwnKept`, in the others in reservations. -/
structure Keeps (d : Nat) (t : Thread) (s u : State) : Prop where
  cores : ∀ c, c ≠ t.core → u.core c = s.core c
  core : u.core t.core = { s.core t.core with ctxs := (u.core t.core).ctxs }
  ctxs : ∀ i, i ≠ t.ctx → { u.ctx ⟨t.core, i⟩ with resv := (s.ctx ⟨t.core, i⟩).resv } = s.ctx ⟨t.core, i⟩
  own : OwnKept d (s.ctx t) (u.ctx t)

theorem Keeps.refl (d : Nat) (t : Thread) (s : State) : Keeps d t s s := ⟨fun _ _ => rfl, rfl, fun _ _ => rfl, .refl ..⟩

theorem Keeps.trans {d : Nat} {t : Thread} {s u v : State} (h : Keeps d t s u) (k : Keeps d t u v) : Keeps d t s v := by
  refine ⟨fun c hc => (k.cores c hc).trans (h.cores c hc), by rw [k.core, h.core], fun i hi => ?_, h.own.trans k.own⟩
  exact (congrArg (fun x : Ctx => { x with resv := (s.ctx ⟨t.core, i⟩).resv }) (k.ctxs i hi) :).trans (h.ctxs i hi)

theorem Keeps.coresKept {t : Thread} {s u : State} (h : Keeps ((s.ctx t).ldepth - 1) t s u) : CoresKept t s u :=
  ⟨h.cores, h.core, h.ctxs, h.own.rest, h.own.regs⟩

theorem Keeps.of_cores {d : Nat} {t : Thread} {s u : State} (h : u.cores = s.cores) : Keeps d t s u := by
  have hcore : ∀ c, u.core c = s.core c := fun c => by rw [State.core, h]; rfl
  have hctx : ∀ v, u.ctx v = s.ctx v := fun v => by rw [State.ctx, hcore]; rfl
  refine ⟨fun c _ => hcore c, by rw [hcore], fun i _ => by rw [hctx], by rw [hctx]; exact .refl ..⟩

theorem Keeps.updCtx {d : Nat} {t : Thread} {s : State} {f : Ctx → Ctx} (h : OwnKept d (s.ctx t) (f (s.ctx t))) :
    Keeps d t s (s.updCtx t f) := by
  refine ⟨fun c hc => updCtx_core_ne s t f (Ne.symm hc), TileProofs.updCtx_cores s t f t.core, fun i hi => ?_, by rw [updCtx_ctx]; exact h⟩
  rw [updCtx_get, if_neg fun e => hi (congrArg Thread.ctx e).symm]

/-- A change of reservations in the core of `t` alone. -/
theorem Keeps.of_resvOnly {d : Nat} {t : Thread} {s u : State} (h : TileProofs.ResvOnly s u)
    (hc : ∀ c, c ≠ t.core → u.core c = s.core c) : Keeps d t s u := by
  refine ⟨hc, h.cores t.core, fun i _ => by rw [h.ctxs ⟨t.core, i⟩], ?_⟩
  rw [h.ctxs t]
  exact ((StacksOnly.refl (s.ctx t)).withStacks _ _ _).ownKept d

/-! ## Writes in the core's local memory -/

theorem clearResv_core_ne (c l0 l1 : Nat) (s : State) {d : Nat} (h : d ≠ c) : (clearResv c l0 l1 s).core d = s.core d := by
  unfold clearResv
  dsimp only
  split
  · refine List.foldlRecOn (motive := fun u : State => u.core d = s.core d) _ _ rfl fun u hu i _ => ?_
    dsimp only
    split
    · exact (updCtx_core_ne u ⟨c, i⟩ _ (Ne.symm h)).trans hu
    · exact hu
  · rfl

/-- A write ends no reservation but of the core whose local memory it goes to. -/
theorem write_core_ne {a d : Nat} (h : ∀ c, coreOfAddr a = some c → d ≠ c) (l : List Byte) (s : State) :
    (write a l s).core d = s.core d := by
  have hbytes : ∀ m : List (Byte × Bool), (if s.bad = [] then { s with mem := memPutMask s.mem a m } else eccWrite s a m).core d = s.core d := by
    intro m
    split
    · rfl
    · exact ModuleProofs.core_of_within (eccWrite_within (List.Subset.refl _) (.refl ..) a m) (by decide) d
  unfold write writeMask
  dsimp only
  refine (ModuleProofs.core_of_within (actLines_within (List.Subset.refl _) (.refl ..) _ _) (by decide) d).trans ?_
  split
  next c hc => exact (clearResv_core_ne c _ _ _ (h c hc)).trans (hbytes _)
  next => exact hbytes _

theorem coreOfAddr_local {c p d : Nat} (hp : p < 0x100000) (h : coreOfAddr (localBase c + p) = some d) : d = c := by
  unfold coreOfAddr at h
  split at h
  · have := Option.some.inj h
    unfold localBase at this
    omega
  · cases h

theorem spillWords_core_ne {c d : Nat} (hd : d ≠ c) {ptr : Nat} {l : List Word} (h : l ≠ [] → ptr + 4 * l.length ≤ 0x100000) (s : State) :
    (spillWords c ptr l s).core d = s.core d := by
  induction l generalizing ptr s with
  | nil => rfl
  | cons w r ih =>
    have hb := h (List.cons_ne_nil w r)
    rw [List.length_cons] at hb
    rw [spillWords_cons, ih (fun _ => by omega)]
    exact write_core_ne (fun e he => coreOfAddr_local (by omega) he ▸ hd) _ _

/-! ## Pops, pushes, and the step after an instruction -/

/-- The words that a stack with `hw` entries in hardware, its area at `ptr`, spills after `pops` and `pushes` lie in local memory. -/
def SpillFits (hw pops pushes ptr : Nat) : Prop := 16 < hw + pushes - pops → ptr + 4 * (hw + pushes - pops - 16) ≤ 0x100000

section Pushes

variable {s : State} {t : Thread} {d : Nat}

/-- A spill after a change of the thread's own stacks. -/
theorem Keeps.spill {f : Ctx → Ctx} {ptr : Nat} {l : List Word} (hf : OwnKept d (s.ctx t) (f (s.ctx t)))
    (h : l ≠ [] → ptr + 4 * l.length ≤ 0x100000) : Keeps d t s (spillWords t.core ptr l (s.updCtx t f)) :=
  .trans (.updCtx hf) (.of_resvOnly (TileProofs.spillWords_resvOnly ..) fun _ hc => spillWords_core_ne hc h _)

/-- The spill of the entries `push` over those of `hw` below the `pops` popped is the one that `SpillFits` speaks of. -/
theorem spill_length {hw push : List Word} {pops ptr : Nat} (hpush : push.length ≤ 16) (hfit : SpillFits hw.length pops push.length ptr)
    (h16 : ¬ (push ++ hw.drop pops).length ≤ 16) :
    ptr - 4 * (pops - hw.length) + 4 * ((push ++ hw.drop pops).reverse.take ((push ++ hw.drop pops).length - 16)).length ≤ 0x100000 := by
  unfold SpillFits at hfit
  simp only [List.length_take, List.length_reverse, List.length_append, List.length_drop] at h16 ⊢
  omega

theorem pushOps_keeps {pops : Nat} {push : List Word} (hpush : push.length ≤ 16)
    (hfit : SpillFits (s.ctx t).ops.length pops push.length ((s.ctx t).reg 2).toNat) : Keeps d t s (pushOps t pops push s) := by
  unfold pushOps
  dsimp only
  split
  · exact .updCtx (((StacksOnly.pointer (.inl rfl) ..).withStacks ..).ownKept d)
  · next h16 =>
    exact .spill ((((StacksOnly.pointer (.inl rfl) ..).trans (.setReg (.inl rfl) _)).withStacks ..).ownKept d)
      fun _ => spill_length hpush hfit h16

theorem pushRets_keeps {pops : Nat} {push : List Word} (hpush : push.length ≤ 16)
    (hfit : SpillFits (s.ctx t).rets.length pops push.length ((s.ctx t).reg 5).toNat) : Keeps d t s (pushRets t pops push s) := by
  unfold pushRets
  dsimp only
  split
  · exact .refl ..
  split
  · exact .updCtx (((StacksOnly.pointer (.inr rfl) ..).withStacks ..).ownKept d)
  · next h16 =>
    exact .spill ((((StacksOnly.pointer (.inr rfl) ..).trans (.setReg (.inr rfl) _)).withStacks ..).ownKept d)
      fun _ => spill_length hpush hfit h16

theorem advance_keeps (len : Nat) (hd : (s.ctx t).ldepth - 1 = d) : Keeps d t s (advance t len s) := by
  subst hd
  have hlc : ∀ (v a : Word), OwnKept ((s.ctx t).ldepth - 1) (s.ctx t)
      { (s.ctx t).setReg (0x018 + ((s.ctx t).ldepth - 1)) v with pc := a } := fun v a => (OwnKept.setLC ..).moves a _
  unfold advance
  dsimp only
  split
  · split
    · exact .updCtx (hlc ..)
    split
    · exact .updCtx ((OwnKept.refl ..).moves ..)
    split
    · exact .trans (.updCtx ((OwnKept.refl ..).moves _ _)) (.of_cores rfl)
    · exact .trans (.updCtx (hlc _ _)) (.of_cores rfl)
  · exact .updCtx ((OwnKept.refl ..).moves _ (s.ctx t).ldepth)

theorem firstIssue_keeps : Keeps d t s (firstIssue t s) := by
  unfold firstIssue
  dsimp only
  split
  · refine .updCtx ⟨?_, fun n _ _ h4D _ => ?_⟩
    · split <;> rfl
    · split
      · exact (Ctx.setReg_get ..).trans (if_neg (Ne.symm h4D))
      · rfl
  · exact .refl ..

end Pushes

section Complete

variable {s : State} {t : Thread}

theorem pushOps_rets (t : Thread) (pops : Nat) (push : List Word) (s : State) :
    ((pushOps t pops push s).ctx t).rets = (s.ctx t).rets ∧ ((pushOps t pops push s).ctx t).reg 5 = (s.ctx t).reg 5 := by
  have hreg : ∀ (x : Ctx) (v : Word), (x.setReg 2 v).reg 5 = x.reg 5 := fun x v => (Ctx.setReg_get ..).trans (if_neg (by decide))
  have hif : ∀ (p : Prop) [Decidable p] (x : Ctx) (v : Word),
      (if p then x else x.setReg 2 v).rets = x.rets ∧ (if p then x else x.setReg 2 v).reg 5 = x.reg 5 := fun p _ x v => by
    split
    · exact ⟨rfl, rfl⟩
    · exact ⟨rfl, hreg x v⟩
  unfold pushOps
  dsimp only
  split
  · rw [updCtx_ctx]
    exact hif ..
  · rw [(TileProofs.spillWords_resvOnly ..).ctxs t, updCtx_ctx]
    exact ⟨(hif ..).1, (hreg ..).trans (hif ..).2⟩

/-- The spills of an instruction with the stack effect `sh` lie in its core's local memory. -/
def SpillsFit (t : Thread) (sh : Shape) (s : State) : Prop :=
  SpillFits (s.ctx t).ops.length sh.pops sh.pushes ((s.ctx t).reg 2).toNat ∧
  SpillFits (s.ctx t).rets.length sh.rpops sh.rpushes ((s.ctx t).reg 5).toNat

theorem complete_keeps {len : Nat} {sh : Shape} {push rpush : List Word} {tgt : Option Word} (hp : push.length = sh.pushes)
    (hr : rpush.length = sh.rpushes) (hp16 : sh.pushes ≤ 16) (hr16 : sh.rpushes ≤ 16) (h : SpillsFit t sh s) :
    Keeps ((s.ctx t).ldepth - 1) t s (complete t len sh.pops push sh.rpops rpush tgt s) := by
  obtain ⟨hops, hrets⟩ := h
  rw [← hp] at hops hp16
  rw [← hr] at hrets hr16
  obtain ⟨hsame, hreg⟩ := pushOps_rets t sh.pops push s
  rw [← hsame, ← hreg] at hrets
  have hpush : Keeps ((s.ctx t).ldepth - 1) t s _ := (pushOps_keeps hp16 hops).trans (pushRets_keeps hr16 hrets)
  unfold complete
  dsimp only
  split
  · exact hpush.trans (.updCtx ((OwnKept.refl ..).moves _ _))
  · refine hpush.trans (advance_keeps len ?_)
    rw [(pushBoth_stacksOnly ..).ldepth]

end Complete

/-! ## Memory (R172, R174) -/

theorem memGet_memPutMask_apart {a b : Nat} {l : List (Byte × Bool)} (h : b < a ∨ a + l.length ≤ b) (m : Mem) :
    memGet (memPutMask m a l) b = memGet m b := by
  have hnone : (if a ≤ b then l[b - a]? else none) = none := by
    split
    · exact List.getElem?_eq_none (by omega)
    · rfl
  rw [memGet_memPutMask, hnone]

theorem eccWrite_memGet {a b : Nat} {l : List (Byte × Bool)} (h : b < a ∨ a + l.length ≤ b) (s : State) :
    memGet (eccWrite s a l).mem b = memGet s.mem b := by
  unfold eccWrite
  dsimp only
  split <;> exact memGet_memPutMask_apart (by rw [List.length_mapIdx]; exact h) _

theorem write_memGet {a b : Nat} {l : List Byte} (h : b < a ∨ a + l.length ≤ b) (s : State) :
    memGet (write a l s).mem b = memGet s.mem b := by
  have hmask : b < a ∨ a + (l.map fun x => (x, true)).length ≤ b := by rwa [List.length_map]
  unfold write writeMask
  dsimp only
  rw [TileProofs.actLines_mem]
  have hbytes : memGet (if s.bad = [] then { s with mem := memPutMask s.mem a (l.map fun x => (x, true)) }
      else eccWrite s a (l.map fun x => (x, true))).mem b = memGet s.mem b := by
    split
    · exact memGet_memPutMask_apart hmask _
    · exact eccWrite_memGet hmask s
  split
  · exact (congrArg (memGet · b) ((clearResv_within (List.Subset.refl _) (.refl ..) _ _ _).out .mem (by decide))).trans hbytes
  · exact hbytes

theorem spillWords_memGet {c ptr b : Nat} {l : List Word} (h : b < localBase c + ptr ∨ localBase c + ptr + 4 * l.length ≤ b) (s : State) :
    memGet (spillWords c ptr l s).mem b = memGet s.mem b := by
  induction l generalizing ptr s with
  | nil => rfl
  | cons w r ih =>
    rw [List.length_cons] at h
    rw [spillWords_cons, ih (by omega)]
    exact write_memGet (by rw [leBytes_length]; omega) s

section Bytes

variable {s : State} {t : Thread} {b : Nat}

/-- The bytes at `b` are none of those that the spill of a stack with `hw` entries in hardware, its area at `ptr`, may write. -/
def Clear (c hw pops pushes ptr b : Nat) : Prop :=
  b < localBase c + ptr ∨ localBase c + ptr + 4 * (hw + pushes - pops - 16) ≤ b

theorem spill_clear {c : Nat} {hw push : List Word} {pops ptr : Nat} (hpush : push.length ≤ 16)
    (h : Clear c hw.length pops push.length ptr b) (h16 : ¬ (push ++ hw.drop pops).length ≤ 16) :
    b < localBase c + (ptr - 4 * (pops - hw.length)) ∨
      localBase c + (ptr - 4 * (pops - hw.length)) +
        4 * ((push ++ hw.drop pops).reverse.take ((push ++ hw.drop pops).length - 16)).length ≤ b := by
  unfold Clear at h
  simp only [List.length_take, List.length_reverse, List.length_append, List.length_drop] at h16 ⊢
  omega

theorem pushOps_memGet {pops : Nat} {push : List Word} (hpush : push.length ≤ 16)
    (h : Clear t.core (s.ctx t).ops.length pops push.length ((s.ctx t).reg 2).toNat b) :
    memGet (pushOps t pops push s).mem b = memGet s.mem b := by
  unfold pushOps
  dsimp only
  split
  · rfl
  · next h16 => exact spillWords_memGet (spill_clear hpush h h16) _

theorem pushRets_memGet {pops : Nat} {push : List Word} (hpush : push.length ≤ 16)
    (h : Clear t.core (s.ctx t).rets.length pops push.length ((s.ctx t).reg 5).toNat b) :
    memGet (pushRets t pops push s).mem b = memGet s.mem b := by
  unfold pushRets
  dsimp only
  split
  · rfl
  split
  · rfl
  · next h16 => exact spillWords_memGet (spill_clear hpush h h16) _

theorem advance_mem (t : Thread) (len : Nat) (s : State) : (advance t len s).mem = s.mem :=
  (advance_within (List.Subset.refl _) (.refl ..) t len).out .mem (by decide)

theorem complete_memGet {len : Nat} {sh : Shape} {push rpush : List Word} {tgt : Option Word} (hp : push.length = sh.pushes)
    (hr : rpush.length = sh.rpushes) (hp16 : sh.pushes ≤ 16) (hr16 : sh.rpushes ≤ 16) (h : ¬ spillByte s t sh b) :
    memGet (complete t len sh.pops push sh.rpops rpush tgt s).mem b = memGet s.mem b := by
  have hclear : Clear t.core (s.ctx t).ops.length sh.pops push.length ((s.ctx t).reg 2).toNat b ∧
      Clear t.core (s.ctx t).rets.length sh.rpops rpush.length ((s.ctx t).reg 5).toNat b := by
    simp only [spillByte, Clear, hp, hr] at h ⊢
    omega
  obtain ⟨hops, hrets⟩ := hclear
  obtain ⟨hsame, hreg⟩ := pushOps_rets t sh.pops push s
  rw [← hsame, ← hreg] at hrets
  have hpush := (pushRets_memGet (hr ▸ hr16) hrets).trans (pushOps_memGet (hp ▸ hp16) hops)
  unfold complete
  dsimp only
  split
  · exact hpush
  · rw [advance_mem]
    exact hpush

end Bytes

/-! ## From the issue of an instruction to its completion -/

/-- The stacks of `y`, with the pointers of their areas, and its loop depth are those of `x`. -/
structure SameStacks (x y : Ctx) : Prop where
  ops : y.ops = x.ops
  rets : y.rets = x.rets
  osp : y.reg 2 = x.reg 2
  rsp : y.reg 5 = x.reg 5
  ldepth : y.ldepth = x.ldepth

theorem firstIssue_rets (t : Thread) (s : State) : ((firstIssue t s).ctx t).rets = (s.ctx t).rets := by
  unfold firstIssue
  dsimp only
  split
  · rw [updCtx_ctx]
    split <;> rfl
  · rfl

theorem firstIssue_sameStacks (t : Thread) (s : State) : SameStacks (s.ctx t) ((firstIssue t s).ctx t) :=
  ⟨firstIssue_ops .., firstIssue_rets .., firstIssue_reg _ _ _ (by decide), firstIssue_reg _ _ _ (by decide), firstIssue_ldepth ..⟩

section Frame

variable {s v : State} {t : Thread} {len : Nat} {sh : Shape} {push rpush : List Word} {tgt : Option Word} (hp : push.length = sh.pushes)
  (hr : rpush.length = sh.rpushes) (hp16 : sh.pushes ≤ 16) (hr16 : sh.rpushes ≤ 16) (hsame : SameStacks (s.ctx t) (v.ctx t))

include hp hr hp16 hr16 hsame

/-- An instruction that has come to `v` before its pops and pushes keeps what it has kept. -/
theorem complete_coresKept (hkeeps : Keeps ((s.ctx t).ldepth - 1) t s v) (hfit : SpillsFit t sh s) :
    CoresKept t s (complete t len sh.pops push sh.rpops rpush tgt v) := by
  have hfit' : SpillsFit t sh v := by
    rw [SpillsFit, hsame.ops, hsame.rets, hsame.osp, hsame.rsp]
    exact hfit
  have hdone := complete_keeps (len := len) (tgt := tgt) hp hr hp16 hr16 hfit'
  rw [hsame.ldepth] at hdone
  exact (hkeeps.trans hdone).coresKept

theorem complete_bytes {b : Nat} (h : ¬ spillByte s t sh b) :
    memGet (complete t len sh.pops push sh.rpops rpush tgt v).mem b = memGet v.mem b := by
  refine complete_memGet hp hr hp16 hr16 fun hv => h ?_
  simpa only [spillByte, hsame.ops, hsame.rets, hsame.osp, hsame.rsp] using hv

end Frame

/-- Pops and pushes after which both stacks fit in hardware change the cores alone, but for a free value. -/
theorem complete_within_of_fits {s : State} {t : Thread} {len pops rpops : Nat} {push rpush : List Word} {tgt : Option Word}
    (hops : (s.ctx t).ops.length + push.length ≤ 16) (hrets : (s.ctx t).rets.length + rpush.length ≤ 16) :
    Within [.cores, .free] s (complete t len pops push rpops rpush tgt s) := by
  have hall : ∀ {hw p : List Word} {n : Nat}, hw.length + p.length ≤ 16 → (p ++ hw.drop n).length ≤ 16 := fun h => by
    rw [List.length_append, List.length_drop]
    omega
  have hcores : ∀ (u : State) (f : Ctx → Ctx), Within [.cores, .free] u (u.updCtx t f) := fun u f =>
    State_updCtx_within (by decide) (.refl ..) t f
  have h1 : Within [.cores, .free] s (pushOps t pops push s) := by
    unfold pushOps
    dsimp only
    rw [if_pos (hall hops)]
    exact hcores ..
  have h2 : Within [.cores, .free] s (pushRets t rpops rpush (pushOps t pops push s)) := by
    unfold pushRets
    dsimp only
    split
    · exact h1
    · rw [if_pos (hall (by rw [(pushOps_rets ..).1]; exact hrets))]
      exact h1.trans (hcores ..)
  unfold complete
  dsimp only
  split
  · exact h2.trans (hcores ..)
  · exact advance_within (by decide) h2 ..

theorem stackOnly_pushes {s : State} {i : Instr} {t : Thread} {len : Nat} {sh : Shape} (h : stackOnly s i = some (t, len, sh)) :
    sh.pushes ≤ 16 ∧ sh.rpushes ≤ 16 := by
  unfold stackOnly at h
  split at h
  case h_43 =>
    split at h
    · cases h
    · cases h; decide
  case h_44 => cases h
  all_goals cases h; decide

/-- The statement of O15 for an instruction whose spills lie in its core's local memory. -/
theorem stackInstructionsFrame_of_spillsFit (s : State) (i : Instr) (t : Thread) (len : Nat) (sh : Shape)
    (h : stackOnly s i = some (t, len, sh)) (hruns : Runs t len sh s) (hfit : SpillsFit t sh s) :
    ∃ u, exec i s = .next u ∧ CoresKept t s u ∧
      (∀ a, ¬ spillByte s t sh a → memGet u.mem a = memGet s.mem a) ∧
      (∀ f, f ∉ [Field.mem, .bad, .cores, .benches, .free] → same f s u) ∧
      ((s.ctx t).ops.length + sh.pushes ≤ 16 → (s.ctx t).rets.length + sh.rpushes ≤ 16 →
        u.mem = s.mem ∧ u.bad = s.bad ∧ u.benches = s.benches) := by
  obtain ⟨op, second, guard, body, hexec, hcomp⟩ := exec_stackOnly h
  obtain ⟨push, rpush, tgt, hbody, hp, hr⟩ := hcomp.body (firstIssue t s) (operands (firstIssue t s) t sh.pops)
    (returns (firstIssue t s) t sh.rpops)
  obtain ⟨hp16, hr16⟩ := stackOnly_pushes h
  have hsame := firstIssue_sameStacks t s
  have hfirst : Within [.cores] s (firstIssue t s) := firstIssue_within (List.Subset.refl _) (.refl ..) t
  refine ⟨_, hexec.trans (congrArg Host.Outcome.next (issue_completes hruns (hcomp.guard _) hbody)),
    complete_coresKept hp hr hp16 hr16 hsame firstIssue_keeps hfit, fun a ha => ?_, fun f hf => ?_, fun hops hrets => ?_⟩
  · rw [complete_bytes hp hr hp16 hr16 hsame ha, hfirst.out .mem (by decide)]
  · exact (complete_within (List.Subset.refl _) (firstIssue_within (by decide) (.refl ..) t) ..).out f hf
  · have hdone := complete_within_of_fits (s := firstIssue t s) (len := len) (pops := sh.pops) (rpops := sh.rpops) (tgt := tgt)
      (by rw [hsame.ops, hp]; exact hops) (by rw [hsame.rets, hr]; exact hrets)
    exact ⟨(hdone.out .mem (by decide)).trans (hfirst.out .mem (by decide)), (hdone.out .bad (by decide)).trans (hfirst.out .bad (by decide)),
      (hdone.out .benches (by decide)).trans (hfirst.out .benches (by decide))⟩

end Sys2Proof.CoreProofs
end

section
/-! PROOFS. O15 and O17: the frames of the stack instructions and of near stores. A spill area whose pointer lies above the core's
local memory spills into the local memory of the next core, where it ends a reservation (R225): both frames are refuted there. -/

namespace Sys2Proof.CoreProofs
open Sys2Proof Sys2Proof.Machine Sys2Proof.Laws

/-- Core 0 runs with these operands, the spill area of its operand stack at the local memory of core 1, whose context 0 holds a
reservation on its line 0. -/
def spillsIntoCoreOne (ops : List Word) : State :=
  { State.reset with
    cores := [(0, { Core.reset with ctxs := [(0, { Ctx.reset 0 with st := .run, ops := ops, sr := [(1, 0x200000), (2, 0x100000)] })] }),
              (1, { Core.reset with ctxs := [(0, { Ctx.reset 0 with resv := some 0 })] })] }

/-- What the frames say of core 1, when core 0 has gone from `spillsIntoCoreOne` to `u`. -/
theorem resv_of_core_one {ops : List Word} {u : State} (h : CoresKept ⟨0, 0⟩ (spillsIntoCoreOne ops) u) :
    (u.ctx ⟨1, 0⟩).resv = some 0 :=
  (congrArg (fun c => (c.ctx 0).resv) (h.cores 1 Nat.one_ne_zero)).trans rfl

/-! ## O15: DUP with a full stack -/

def fullStack : State := spillsIntoCoreOne (List.replicate 16 0)

theorem fullStack_runs : Runs ⟨0, 0⟩ 1 ⟨1, 2, 0, 0⟩ fullStack := by
  refine ⟨?_, ?_, ?_, ?_, ?_, ?_⟩ <;> decide +kernel

theorem dup_ends_reservation : ∃ u, exec (.dup ⟨0, 0⟩) fullStack = .next u ∧ (u.ctx ⟨1, 0⟩).resv = none :=
  ⟨_, rfl, by decide +kernel⟩

/-- Refutes O15: it does not ask that the spill area lie in the core's local memory, and the spill of DUP at `fullStack` ends a
reservation of another core. Where the spills stay in the core's local memory it holds: `stackInstructionsFrame_of_spillsFit`. -/
theorem not_stackInstructionsFrame : ¬ Obligations.StackInstructionsFrame := by
  intro h
  obtain ⟨u, hu, hkept, _⟩ := h fullStack (.dup ⟨0, 0⟩) ⟨0, 0⟩ 1 ⟨1, 2, 0, 0⟩ rfl fullStack_runs
  obtain ⟨v, hv, hresv⟩ := dup_ends_reservation
  cases Host.Outcome.next.inj (hu.symm.trans hv)
  exact absurd ((resv_of_core_one hkept).symm.trans hresv) nofun

/-! ## What the body of a load or store does (R192, R197) -/

section Bodies

variable {s : State} {t : Thread} {n a m : Nat}

theorem loadBody_misaligned {sgn : Bool} (h : a % n ≠ 0) : loadBody t n sgn a s = .exc s 0x05 (word a) :=
  if_pos (decide_eq_true h)

theorem storeBody_misaligned {v : Word} (h : a % n ≠ 0) : storeBody t n v a s = .exc s 0x05 (word a) :=
  if_pos (decide_eq_true h)

variable (h : a % n = 0)

include h

theorem loadBody_near {sgn win : Bool} (hres : resolve s t a n false (decide (n = 4)) = some (.near m win))
    (hu : uncorrectable s m n = none) :
    loadBody t n sgn a s = pushes (noteRead m n s) [extend n sgn (memBytes s.mem m n)] := by
  simp only [loadBody, misaligned, h, hres, nearLoad, hu, ne_eq, not_true_eq_false, decide_false, Bool.false_eq_true, if_false]

theorem storeBody_near {v : Word} {win : Bool} (hres : resolve s t a n true (decide (n = 4)) = some (.near m win)) :
    storeBody t n v a s = pushes (write m (leBytes v.toNat n) s) [] := by
  simp only [storeBody, misaligned, h, hres, ne_eq, not_true_eq_false, decide_false, Bool.false_eq_true, if_false]

end Bodies

/-- A value below 2^n read as a signed integer is the integer of its bit vector. -/
theorem signed_eq_toInt {n : Nat} (h : 0 < n) (v : Nat) : signed n v = (BitVec.ofNat n v).toInt := by
  have hpow : 2 ^ n = 2 * 2 ^ (n - 1) := (mul_pow_sub_one h.ne' 2).symm
  simp only [signed, BitVec.toInt_eq_toNat_cond, BitVec.toNat_ofNat]
  exact if_congr (by omega) rfl rfl

/-- Bytes sign-extended are the value of their bits, sign-extended. -/
theorem extend_signed {n : Nat} (h : 0 < n) (l : List Byte) :
    extend n true l = (BitVec.ofNat (8 * n) (leNat l)).signExtend 32 := by
  rw [extend, if_pos rfl, signed_eq_toInt (by omega), BitVec.signExtend]

theorem extend_unsigned {n : Nat} {l : List Byte} (h : leNat l < 2 ^ (8 * n)) :
    extend n false l = (BitVec.ofNat (8 * n) (leNat l)).setWidth 32 := by
  refine BitVec.eq_of_toNat_eq ?_
  simp [extend, word, BitVec.toNat_setWidth, Nat.mod_eq_of_lt h]

theorem leNat_memBytes_lt (m : Mem) (a n : Nat) : leNat (memBytes m a n) < 2 ^ (8 * n) := by
  induction n generalizing a with
  | zero => exact Nat.one_pos
  | succ n ih =>
    have hb := (memGet m a).isLt
    have hr := ih (a + 1)
    rw [memBytes, leNat, show 2 ^ (8 * (n + 1)) = 256 * 2 ^ (8 * n) by rw [Nat.mul_add, Nat.pow_add, Nat.mul_comm]]
    omega

/-! ## Loads and stores of near memory, and misaligned addresses (R192, R197) -/

section NearInstructions

variable {s : State} {t : Thread} {a : Word} {m : Nat} {win : Bool}

/-- A load of near memory pushes the bytes at the address the view gives, extended. -/
theorem loadInstr_near {op n : Nat} {sgn : Bool} (hr : Runs t 1 ⟨1, 1, 0, 0⟩ s) (hl : operands (firstIssue t s) t 1 = [a])
    (ha : a.toNat % n = 0) (hres : resolve (firstIssue t s) t a.toNat n false (decide (n = 4)) = some (.near m win))
    (hu : uncorrectable (firstIssue t s) m n = none) :
    loadInstr t op n sgn s = complete t 1 1 [extend n sgn (memBytes (firstIssue t s).mem m n)] 0 [] none (noteRead m n (firstIssue t s)) := by
  refine issue_completes (e := { s := _, push := _, rpush := [], tgt := none }) hr rfl ?_
  rw [hl]
  exact loadBody_near ha hres hu

theorem loadInstr_misaligned {op n : Nat} {sgn : Bool} (hr : Runs t 1 ⟨1, 1, 0, 0⟩ s)
    (hl : operands (firstIssue t s) t 1 = [a]) (ha : a.toNat % n ≠ 0) :
    loadInstr t op n sgn s = fault t 0x05 (word a.toNat) (s.ctx t).pc false (firstIssue t s) := by
  refine issue_faults hr rfl ?_
  rw [hl]
  exact loadBody_misaligned ha

theorem storeInstr_misaligned {v : Word} {op n : Nat} (hr : Runs t 1 ⟨2, 0, 0, 0⟩ s)
    (hl : operands (firstIssue t s) t 2 = [a, v]) (ha : a.toNat % n ≠ 0) :
    storeInstr t op n s = fault t 0x05 (word a.toNat) (s.ctx t).pc false (firstIssue t s) := by
  refine issue_faults hr rfl ?_
  rw [hl]
  exact storeBody_misaligned ha

theorem storeInstr_near {v : Word} {op n : Nat} (hr : Runs t 1 ⟨2, 0, 0, 0⟩ s)
    (hl : operands (firstIssue t s) t 2 = [a, v]) (ha : a.toNat % n = 0)
    (hres : resolve (firstIssue t s) t a.toNat n true (decide (n = 4)) = some (.near m win)) :
    storeInstr t op n s = complete t 1 2 [] 0 [] none (write m (leBytes v.toNat n) (firstIssue t s)) := by
  refine issue_completes (e := { s := _, push := _, rpush := [], tgt := none }) hr rfl ?_
  rw [hl]
  exact storeBody_near ha hres

end NearInstructions

theorem memBytes_one (m : Mem) (a : Nat) : leNat (memBytes m a 1) = (memGet m a).toNat := Nat.add_zero _

theorem nearLoadsExtend : Claims.NearLoadsExtend := by
  intro s t a m win hr hl
  refine ⟨fun ha hres hu => ?_, fun ha hres hu => ⟨?_, ?_⟩, fun hres hu => ⟨?_, ?_⟩⟩
  · exact congrArg _ (loadInstr_near hr hl ha hres hu)
  · refine congrArg _ ((loadInstr_near hr hl ha hres hu).trans ?_)
    rw [extend_signed Nat.two_pos]
    rfl
  · refine congrArg _ ((loadInstr_near hr hl ha hres hu).trans ?_)
    rw [extend_unsigned (leNat_memBytes_lt ..)]
    rfl
  · refine congrArg _ ((loadInstr_near hr hl (Nat.mod_one _) hres hu).trans ?_)
    rw [extend_signed Nat.one_pos, memBytes_one, BitVec.ofNat_toNat, BitVec.setWidth_eq]
  · refine congrArg _ ((loadInstr_near hr hl (Nat.mod_one _) hres hu).trans ?_)
    rw [extend_unsigned (leNat_memBytes_lt ..), memBytes_one, BitVec.ofNat_toNat, BitVec.setWidth_eq]

theorem tas_misaligned {s : State} {t : Thread} {a : Word} (hr : Runs t 1 ⟨1, 1, 0, 0⟩ s)
    (hl : operands (firstIssue t s) t 1 = [a]) (ha : a.toNat % 4 ≠ 0) :
    tas t s = fault t 0x05 (word a.toNat) (s.ctx t).pc false (firstIssue t s) := by
  refine issue_faults hr rfl ?_
  rw [hl]
  simp [localWord, misaligned, arg, ha]

theorem misalignedAddressesFault : Claims.MisalignedAddressesFault := by
  intro s t a v faults
  have hf : faults = .next (fault t 0x05 (word a.toNat) (s.ctx t).pc false (firstIssue t s)) := by
    rw [word, BitVec.ofNat_toNat, BitVec.setWidth_eq]
  rw [hf]
  refine ⟨fun hr hl => ⟨fun ha => ⟨?_, ?_⟩, fun ha => ⟨?_, ?_⟩⟩, fun hr hl => ⟨fun ha => ?_, fun ha => ?_⟩⟩
  · exact congrArg _ (loadInstr_misaligned hr hl ha)
  · exact congrArg _ (tas_misaligned hr hl ha)
  · exact congrArg _ (loadInstr_misaligned hr hl ha)
  · exact congrArg _ (loadInstr_misaligned hr hl ha)
  · exact congrArg _ (storeInstr_misaligned hr hl ha)
  · exact congrArg _ (storeInstr_misaligned hr hl ha)

/-! ## Stores of near memory while both stacks fit in hardware (R197, R227) -/

/-- A place in near memory lies in no other core's local memory. -/
theorem near_coreOfAddr {s : State} {t : Thread} {a n m c : Nat} {wr wa win : Bool} (h : resolve s t a n wr wa = some (.near m win))
    (hc : coreOfAddr m = some c) : c = t.core := by
  unfold resolve at h
  dsimp only at h
  by_cases hperm : permitted (s.ctx t) (if wr then 1 else 0) a n = false
  · rw [if_pos hperm] at h
    cases h
  rw [if_neg hperm] at h
  by_cases hloc : a < 0x100000
  · rw [if_pos hloc] at h
    cases h
    exact coreOfAddr_local hloc hc
  rw [if_neg hloc] at h
  by_cases hwin : a < 0x300000
  · rw [if_pos hwin] at h
    split at h
    · have hm := (Place.near.inj (Option.some.inj h)).1
      rw [← hm, coreOfAddr, winBase, if_neg (by omega)] at hc
      cases hc
    · cases h
  · rw [if_neg hwin] at h
    repeat' split at h
    all_goals cases h

theorem leBytes_getD (v n k : Nat) (h : k < n) : (leBytes v n).getD k 0 = BitVec.ofNat 8 (v / 256 ^ k) := by
  induction n generalizing v k with
  | zero => omega
  | succ n ih =>
    cases k with
    | zero => simp [leBytes]
    | succ k =>
      rw [leBytes, List.getD_cons_succ, ih _ _ (by omega), Nat.div_div_eq_div_mul, Nat.pow_succ, Nat.mul_comm]

theorem SameStacks.of_resvOnly {s u : State} (h : TileProofs.ResvOnly s u) (t : Thread) : SameStacks (s.ctx t) (u.ctx t) := by
  rw [h.ctxs t]
  exact ⟨rfl, rfl, rfl, rfl, rfl⟩

theorem SameStacks.trans {x y z : Ctx} (h : SameStacks x y) (k : SameStacks y z) : SameStacks x z :=
  ⟨k.ops.trans h.ops, k.rets.trans h.rets, k.osp.trans h.osp, k.rsp.trans h.rsp, k.ldepth.trans h.ldepth⟩

/-- The machine in which a thread has stored bytes at `m` and not yet popped its operands. -/
def stored (t : Thread) (m : Nat) (l : List Byte) (s : State) : State := write m l (firstIssue t s)

section Stored

variable {s : State} {t : Thread} {m : Nat} {l : List Byte}

theorem stored_sameStacks : SameStacks (s.ctx t) ((stored t m l s).ctx t) :=
  (firstIssue_sameStacks t s).trans (.of_resvOnly (TileProofs.write_resvOnly ..) t)

theorem stored_keeps {d : Nat} (h : ∀ c, coreOfAddr m = some c → c = t.core) : Keeps d t s (stored t m l s) :=
  firstIssue_keeps.trans (.of_resvOnly (TileProofs.write_resvOnly ..) fun _ hd => write_core_ne (fun c hc => by rw [h c hc]; exact hd) ..)

theorem firstIssue_within_cores (t : Thread) (s : State) : Within [.cores] s (firstIssue t s) :=
  firstIssue_within (List.Subset.refl _) (.refl ..) t

theorem stored_memGet_apart {b : Nat} (h : b < m ∨ m + l.length ≤ b) : memGet (stored t m l s).mem b = memGet s.mem b := by
  rw [stored, write_memGet h, (firstIssue_within_cores t s).out .mem (by decide)]

theorem stored_memGet {k : Nat} (h : s.bad = []) (hk : k < l.length) : memGet (stored t m l s).mem (m + k) = l.getD k 0 := by
  have hbad : (firstIssue t s).bad = [] := ((firstIssue_within_cores t s).out .bad (by decide)).trans h
  rw [stored, (TileProofs.write_clean hbad m l).1, memGet_memPut, if_pos (by omega), Nat.add_sub_cancel_left]

end Stored

/-- A store instruction and its width are those of a `storeInstr`. -/
theorem exec_store {i : Instr} {t : Thread} {n : Nat} (h : (i, n) ∈ [(Instr.stw t, 4), (Instr.sth t, 2), (Instr.stb t, 1)]) (s : State) :
    ∃ op, exec i s = .next (storeInstr t op n s) := by
  simp only [List.mem_cons, Prod.mk.injEq, List.not_mem_nil, or_false] at h
  obtain ⟨rfl, rfl⟩ | ⟨rfl, rfl⟩ | ⟨rfl, rfl⟩ := h <;> exact ⟨_, rfl⟩

/-- The statement of the stores for a thread with at most sixteen entries of each stack in hardware (R171, R174). -/
theorem nearStores_of_fits (s : State) (t : Thread) (a v : Word) (m n : Nat) (win : Bool) (i : Instr)
    (hi : (i, n) ∈ [(Instr.stw t, 4), (Instr.sth t, 2), (Instr.stb t, 1)]) (hr : Runs t 1 ⟨2, 0, 0, 0⟩ s)
    (hl : operands (firstIssue t s) t 2 = [a, v]) (ha : a.toNat % n = 0)
    (hres : resolve (firstIssue t s) t a.toNat n true (decide (n = 4)) = some (.near m win))
    (hops : (s.ctx t).ops.length ≤ 16) (hrets : (s.ctx t).rets.length ≤ 16) :
    ∃ u, exec i s = .next u ∧ u = complete t 1 2 [] 0 [] none (write m (leBytes v.toNat n) (firstIssue t s)) ∧
      CoresKept t s u ∧
      (s.bad = [] → ∀ k, k < n → memGet u.mem (m + k) = BitVec.ofNat 8 (v.toNat / 256 ^ k)) ∧
      (∀ b, b < m ∨ m + n ≤ b → memGet u.mem b = memGet s.mem b) ∧
      (∀ f, f ∉ [Field.mem, .bad, .cores, .benches, .free] → same f s u) := by
  obtain ⟨op, hexec⟩ := exec_store hi s
  have hlen : (leBytes v.toNat n).length = n := leBytes_length ..
  have hsame : SameStacks (s.ctx t) ((stored t m (leBytes v.toNat n) s).ctx t) := stored_sameStacks
  have hfit : SpillsFit t ⟨2, 0, 0, 0⟩ s := ⟨fun h => by dsimp only at h; omega, fun h => by dsimp only at h; omega⟩
  have hmem : (complete t 1 2 [] 0 [] none (stored t m (leBytes v.toNat n) s)).mem = (stored t m (leBytes v.toNat n) s).mem :=
    (complete_within_of_fits (by rw [hsame.ops]; exact hops) (by rw [hsame.rets]; exact hrets)).out .mem (by decide)
  refine ⟨_, hexec.trans (congrArg Host.Outcome.next (storeInstr_near hr hl ha hres)), rfl,
    complete_coresKept (sh := ⟨2, 0, 0, 0⟩) rfl rfl (by decide) (by decide) hsame (stored_keeps fun c hc => near_coreOfAddr hres hc) hfit,
    fun hbad k hk => ?_, fun b hb => ?_, fun f hf => ?_⟩
  · exact (congrArg (memGet · (m + k)) hmem).trans ((stored_memGet hbad (by rw [hlen]; exact hk)).trans (leBytes_getD _ _ _ hk))
  · exact (congrArg (memGet · b) hmem).trans (stored_memGet_apart (by rw [hlen]; exact hb))
  · exact (complete_within (List.Subset.refl _) (write_within (by decide) (firstIssue_within (by decide) (.refl ..) t) ..) ..).out f hf

/-! ## O17: STW with 19 entries in hardware -/

def overfullStack : State := spillsIntoCoreOne (0x40 :: List.replicate 18 0)

theorem overfullStack_runs : Runs ⟨0, 0⟩ 1 ⟨2, 0, 0, 0⟩ overfullStack := by
  refine ⟨?_, ?_, ?_, ?_, ?_, ?_⟩ <;> decide +kernel

theorem stw_ends_reservation : ∃ u, exec (.stw ⟨0, 0⟩) overfullStack = .next u ∧ (u.ctx ⟨1, 0⟩).resv = none :=
  ⟨_, rfl, by decide +kernel⟩

theorem not_nearStoresAndTheirFrame : ¬ Claims.NearStoresAndTheirFrame := by
  intro h
  obtain ⟨u, hu, _, hkept, _⟩ := h overfullStack ⟨0, 0⟩ 0x40 0 0x800000000040 4 false (.stw ⟨0, 0⟩) List.mem_cons_self overfullStack_runs
    (by decide +kernel) rfl (by decide +kernel)
  obtain ⟨v, hv, hresv⟩ := stw_ends_reservation
  cases Host.Outcome.next.inj (hu.symm.trans hv)
  exact absurd ((resv_of_core_one hkept).symm.trans hresv) nofun

/-- Refutes O17: its frame does not ask that a spill stay in the core's local memory, nor that at most 16 entries be in hardware, and
STW at `overfullStack` ends a reservation of another core. The rest of it holds: `nearLoadsExtend`, `misalignedAddressesFault`, and
the stores where both stacks fit in hardware (`nearStores_of_fits`). -/
theorem not_nearAccesses : ¬ Obligations.NearAccesses := fun h => not_nearStoresAndTheirFrame h.2.1

end Sys2Proof.CoreProofs
end

section
/-! PROOFS. O18: TAS, LDR and STC, accesses through global windows, and the address view of a core at S and F levels. -/

namespace Sys2Proof.CoreProofs
open Sys2Proof Sys2Proof.Machine Sys2Proof.Laws

/-! ## TAS, LDR and STC (R198, R224) -/

theorem permitted_of_ne_u {x : Ctx} (h : x.lvl ≠ .u) (kind a n : Nat) : permitted x kind a n = true := by
  simp [permitted, h]

theorem nearLoad_word {s : State} {m : Nat} (hu : uncorrectable s m 4 = none) (t : Thread) (a : Nat) :
    nearLoad t a m 4 false s = pushes (noteRead m 4 s) [memWord s.mem m] := by
  simp only [nearLoad, hu]
  rfl

section LocalWords

variable {s : State} {t : Thread} {a v : Word} (ha : a.toNat % 4 = 0) (hloc : a.toNat < 0x100000)
  (hlvl : ((firstIssue t s).ctx t).lvl ≠ .u)

include ha hloc hlvl

theorem localWord_of_local (kinds : List Nat) : localWord (firstIssue t s) t a.toNat kinds = none := by
  simp [localWord, misaligned, ha, Nat.not_le.mpr hloc, permitted_of_ne_u hlvl]

theorem tas_completes (hr : Runs t 1 ⟨1, 1, 0, 0⟩ s) (hl : operands (firstIssue t s) t 1 = [a])
    (hu : uncorrectable (firstIssue t s) (localBase t.core + a.toNat) 4 = none) :
    tas t s = complete t 1 1 [memWord (firstIssue t s).mem (localBase t.core + a.toNat)] 0 [] none
      (write (localBase t.core + a.toNat) [1, 0, 0, 0] (noteRead (localBase t.core + a.toNat) 4 (firstIssue t s))) := by
  refine issue_pushes hr rfl hl ?_
  simp only [arg, List.getD_cons_zero, localWord_of_local ha hloc hlvl]
  rw [nearLoad_word hu]
  rfl

variable (hsvc : svc (firstIssue t s) t.core = true)

include hsvc

theorem ldr_completes (hr : Runs t 1 ⟨1, 1, 0, 0⟩ s) (hl : operands (firstIssue t s) t 1 = [a])
    (hu : uncorrectable (firstIssue t s) (localBase t.core + a.toNat) 4 = none) :
    ldr t s = complete t 1 1 [memWord (firstIssue t s).mem (localBase t.core + a.toNat)] 0 [] none
      ((noteRead (localBase t.core + a.toNat) 4 (firstIssue t s)).updCtx t (fun x => { x with resv := some (a.toNat / 64) })) := by
  refine issue_pushes hr (if_pos hsvc) hl ?_
  simp only [arg, List.getD_cons_zero, localWord_of_local ha hloc hlvl]
  rw [nearLoad_word hu]
  rfl

/-- The state in which STC has cleared its thread's reservation. -/
def unreserved (t : Thread) (s : State) : State := s.updCtx t (fun x => { x with resv := none })

theorem stc_stores (hr : Runs t 1 ⟨2, 1, 0, 0⟩ s) (hl : operands (firstIssue t s) t 2 = [a, v])
    (hv : ((firstIssue t s).ctx t).resv = some (a.toNat / 64)) :
    stc t s = complete t 1 2 [1] 0 [] none (write (localBase t.core + a.toNat) (leBytes v.toNat 4) (unreserved t (firstIssue t s))) := by
  refine issue_pushes hr (if_pos hsvc) hl ?_
  simp only [arg, List.getD_cons_zero, localWord_of_local ha hloc hlvl, hv, decide_true, if_true]
  rfl

theorem stc_fails (hr : Runs t 1 ⟨2, 1, 0, 0⟩ s) (hl : operands (firstIssue t s) t 2 = [a, v])
    (hv : ((firstIssue t s).ctx t).resv ≠ some (a.toNat / 64)) :
    stc t s = complete t 1 2 [0] 0 [] none (unreserved t (firstIssue t s)) := by
  refine issue_pushes hr (if_pos hsvc) hl ?_
  simp only [arg, List.getD_cons_zero, localWord_of_local ha hloc hlvl, hv, decide_false, if_false, Bool.false_eq_true]
  rfl

end LocalWords

theorem testAndSetLoadReserveStoreConditional : Claims.TestAndSetLoadReserveStoreConditional := by
  intro s t a v ha hloc s1 m hlvl
  refine ⟨fun hr hl hu => ⟨?_, fun hsvc => ?_⟩, fun hr hl hsvc => ⟨fun hv => ?_, fun hv => ?_⟩⟩
  · exact congrArg Host.Outcome.next (tas_completes ha hloc hlvl hr hl hu)
  · exact congrArg Host.Outcome.next (ldr_completes ha hloc hlvl hsvc hr hl hu)
  · exact congrArg Host.Outcome.next (stc_stores ha hloc hlvl hsvc hr hl hv)
  · exact congrArg Host.Outcome.next (stc_fails ha hloc hlvl hsvc hr hl hv)

/-! ## Accesses through a global window (R229 to R231, R363, R392 to R398) -/

section Window

variable {s : State} {t : Thread} {n a m : Nat} {sgn : Bool} (h : a % n = 0)

include h

theorem loadBody_uncached (hres : resolve s t a n false (decide (n = 4)) = some (.far m true)) :
    loadBody t n sgn a s = .held (uncachedLoad t m s) (.load m n sgn none) := by
  simp only [loadBody, misaligned, h, hres, ne_eq, not_true_eq_false, decide_false, Bool.false_eq_true, if_false]

section Cached

variable (hres : resolve s t a n false (decide (n = 4)) = some (.far m false))

include hres

theorem loadBody_hit {l : List Byte} {u : State} (hc : cachedLoad (benchOf t.core) m n s = (some l, u)) :
    loadBody t n sgn a s = pushes u [extend n sgn l] := by
  simp only [loadBody, misaligned, h, hres, hc, ne_eq, not_true_eq_false, decide_false, Bool.false_eq_true, if_false]

theorem loadBody_miss {u : State} (hc : cachedLoad (benchOf t.core) m n s = (none, u)) :
    loadBody t n sgn a s = .held u (.load m n sgn (fillOf u (benchOf t.core) (m / 64))) := by
  simp only [loadBody, misaligned, h, hres, hc, ne_eq, not_true_eq_false, decide_false, Bool.false_eq_true, if_false]

end Cached

theorem storeBody_uncached {v : Word} (hres : resolve s t a n true (decide (n = 4)) = some (.far m true)) :
    storeBody t n v a s = pushes (uncachedStore t m (leBytes v.toNat n) s) [] := by
  simp only [storeBody, misaligned, h, hres, ne_eq, not_true_eq_false, decide_false, Bool.false_eq_true, if_false]

theorem storeBody_cached {v : Word} {u : State} (hres : resolve s t a n true (decide (n = 4)) = some (.far m false))
    (hc : cachedStore t m (leBytes v.toNat n) s = some u) : storeBody t n v a s = pushes u [] := by
  simp only [storeBody, misaligned, h, hres, hc, ne_eq, not_true_eq_false, decide_false, Bool.false_eq_true, if_false]

theorem storeBody_waits {v : Word} (hres : resolve s t a n true (decide (n = 4)) = some (.far m false))
    (hc : cachedStore t m (leBytes v.toNat n) s = none) :
    storeBody t n v a s = .held s (.store m (leBytes v.toNat n) (coreNow s)) := by
  simp only [storeBody, misaligned, h, hres, hc, ne_eq, not_true_eq_false, decide_false, Bool.false_eq_true, if_false]

end Window

theorem cachedLoad_hit {s : State} {b m n : Nat} {y : SLine} (hy : findLine s b (m / 64) = some y)
    (hbad : tblGet nats y.bad (m % 64 / 8) = 0) :
    cachedLoad b m n s = (some (slice y.data (m % 64) n), actSr b (count b 0x6300 1 s)) := by
  simp [cachedLoad, hy, hbad]

theorem cachedLoad_miss {s : State} {b m n : Nat} (hy : findLine s b (m / 64) = none) :
    cachedLoad b m n s = (none, startFill b (m / 64) s) := by
  simp only [cachedLoad, hy]

/-- After a fill of a line was started one is under way that no INVALIDATE has overtaken. -/
theorem startFill_under_way (s : State) (b l : Nat) : ∃ f, f ∈ ((startFill b l s).bench b).fills ∧ f.line = l ∧ f.drop = false := by
  by_cases h : ((s.bench b).fills.any fun f => decide (f.line = l) && !f.drop) = true
  · rw [startFill, if_pos h]
    obtain ⟨f, hf, hp⟩ := List.any_eq_true.mp h
    simp only [Bool.and_eq_true, decide_eq_true_eq, Bool.not_eq_true'] at hp
    exact ⟨f, hf, hp⟩
  · rw [startFill, if_neg h]
    simp only [count, updBench_bench, Bench.setR]
    exact ⟨_, List.mem_append_right _ (List.mem_singleton_self _), rfl, rfl⟩

/-- A miss leaves the context of the thread alone. -/
theorem startFill_cores (s : State) (b l : Nat) : (startFill b l s).cores = s.cores := by
  by_cases h : ((s.bench b).fills.any fun f => decide (f.line = l) && !f.drop) = true
  · rw [startFill, if_pos h]
  · rw [startFill, if_neg h]
    rfl

/-- The image of the bytes of a store that stays in its line shows them at their place. -/
theorem slice_imageOfBytes {o : Nat} {l : List Byte} (h : o + l.length ≤ 64) : slice (imageOfBytes o l) o l.length = l := by
  refine List.ext_getElem (by simp [slice, imageOfBytes]; omega) fun i hi hl => ?_
  simp [slice, imageOfBytes, hl]

/-- The entry of the merging buffer that a store of the bytes `l` at `m` opens. -/
def newEntry (s : State) (t : Thread) (m : Nat) (l : List Byte) : MBEntry :=
  { serial := s.fmn.nextSerial, line := m / 64, data := imageOfBytes (m % 64) l, mask := maskOfBytes (m % 64) l.length,
    writers := [(t.core, t.ctx)], wins := [(t.core, viewWindow s t)], bad := [], stage := 0 }

/-- A cached store whose line is in no entry that waits takes a new one. -/
theorem cachedStore_new {s : State} {t : Thread} {m : Nat} {l : List Byte}
    (hmb : ∀ e, e ∈ (s.bench (benchOf t.core)).mb → e.line = m / 64 → e.stage ≠ 0) (hocc : mbOcc (s.bench (benchOf t.core)) < 32) :
    ∃ u, cachedStore t m l s = some u ∧ newEntry s t m l ∈ (u.bench (benchOf t.core)).mb := by
  have hfind : (s.bench (benchOf t.core)).mb.find? (fun e => decide (e.line = m / 64) && decide (e.stage = 0)) = none := by
    simpa using hmb
  refine ⟨_, by simp only [cachedStore, hfind, if_pos hocc]; rfl, ?_⟩
  rw [updBench_bench]
  exact List.mem_append_right _ (List.mem_singleton_self _)

theorem cachedStore_full {s : State} {t : Thread} {m : Nat} {l : List Byte}
    (hmb : ∀ e, e ∈ (s.bench (benchOf t.core)).mb → e.line = m / 64 → e.stage ≠ 0) (hocc : 32 ≤ mbOcc (s.bench (benchOf t.core))) :
    cachedStore t m l s = none := by
  have hfind : (s.bench (benchOf t.core)).mb.find? (fun e => decide (e.line = m / 64) && decide (e.stage = 0)) = none := by
    simpa using hmb
  simp only [cachedStore, hfind, if_neg (Nat.not_lt.mpr hocc)]

section WindowInstructions

variable {s : State} {t : Thread} {a v : Word} {m : Nat} (ha : a.toNat % 4 = 0)

include ha

section Loads

variable (hr : Runs t 1 ⟨1, 1, 0, 0⟩ s) (hl : operands (firstIssue t s) t 1 = [a])

include hr hl

theorem exec_ldw_hit {y : SLine} (hres : resolve (firstIssue t s) t a.toNat 4 false true = some (.far m false))
    (hy : findLine (firstIssue t s) (benchOf t.core) (m / 64) = some y) (hbad : tblGet nats y.bad (m % 64 / 8) = 0) :
    exec (.ldw t) s = .next (complete t 1 1 [word (leNat (slice y.data (m % 64) 4))] 0 [] none
      (actSr (benchOf t.core) (count (benchOf t.core) 0x6300 1 (firstIssue t s)))) :=
  congrArg Host.Outcome.next (issue_pushes hr rfl hl (loadBody_hit ha hres (cachedLoad_hit hy hbad)))

theorem exec_ldw_miss (hres : resolve (firstIssue t s) t a.toNat 4 false true = some (.far m false))
    (hy : findLine (firstIssue t s) (benchOf t.core) (m / 64) = none) :
    ∃ k, exec (.ldw t) s = .next ((startFill (benchOf t.core) (m / 64) (firstIssue t s)).updCtx t (fun x =>
      { x with wait := .load m 4 false k, heldPops := 1, heldLen := 1 })) :=
  ⟨_, congrArg Host.Outcome.next (issue_waits hr rfl hl (loadBody_miss ha hres (cachedLoad_miss hy)))⟩

theorem exec_ldw_uncached (hres : resolve (firstIssue t s) t a.toNat 4 false true = some (.far m true)) :
    exec (.ldw t) s = .next ((uncachedLoad t m (firstIssue t s)).updCtx t (fun x =>
      { x with wait := .load m 4 false none, heldPops := 1, heldLen := 1 })) :=
  congrArg Host.Outcome.next (issue_waits hr rfl hl (loadBody_uncached ha hres))

end Loads

section Stores

variable (hr : Runs t 1 ⟨2, 0, 0, 0⟩ s) (hl : operands (firstIssue t s) t 2 = [a, v])

include hr hl

theorem exec_stw_uncached (hres : resolve (firstIssue t s) t a.toNat 4 true true = some (.far m true)) :
    exec (.stw t) s = .next (complete t 1 2 [] 0 [] none (uncachedStore t m (leBytes v.toNat 4) (firstIssue t s))) :=
  congrArg Host.Outcome.next (issue_pushes hr rfl hl (storeBody_uncached ha hres))

theorem exec_stw_cached {u : State} (hres : resolve (firstIssue t s) t a.toNat 4 true true = some (.far m false))
    (hc : cachedStore t m (leBytes v.toNat 4) (firstIssue t s) = some u) :
    exec (.stw t) s = .next (complete t 1 2 [] 0 [] none u) :=
  congrArg Host.Outcome.next (issue_pushes hr rfl hl (storeBody_cached ha hres hc))

theorem exec_stw_waits (hres : resolve (firstIssue t s) t a.toNat 4 true true = some (.far m false))
    (hc : cachedStore t m (leBytes v.toNat 4) (firstIssue t s) = none) :
    exec (.stw t) s = .next ((firstIssue t s).updCtx t (fun x =>
      { x with wait := .store m (leBytes v.toNat 4) (coreNow (firstIssue t s)), heldPops := 2, heldLen := 1 })) :=
  congrArg Host.Outcome.next (issue_waits hr rfl hl (storeBody_waits ha hres hc))

end Stores

end WindowInstructions

/-- An uncached load waits as an item of the bench. -/
theorem uncachedLoad_item (t : Thread) (m : Nat) (s : State) :
    ∃ y, y ∈ ((uncachedLoad t m s).bench (benchOf t.core)).uitems ∧ y.line = m / 64 ∧ y.write = false ∧ y.core = t.core ∧ y.ctx = t.ctx := by
  simp only [uncachedLoad, updBench_bench]
  exact ⟨_, List.mem_append_right _ (List.mem_singleton_self _), rfl, rfl, rfl, rfl⟩

/-- An uncached store goes as an item of the bench. -/
theorem uncachedStore_item (t : Thread) (m : Nat) (l : List Byte) (s : State) :
    ∃ y, y ∈ ((uncachedStore t m l s).bench (benchOf t.core)).uitems ∧ y.line = m / 64 ∧ y.write = true ∧
      y.data = imageOfBytes (m % 64) l := by
  simp only [uncachedStore, updBench_bench]
  exact ⟨_, List.mem_append_right _ (List.mem_singleton_self _), rfl, rfl, rfl⟩

theorem windowAccesses : Claims.WindowAccesses := by
  intro s t a v m ha hm s1 b
  have himg : slice (imageOfBytes (m % 64) (leBytes v.toNat 4)) (m % 64) 4 = leBytes v.toNat 4 :=
    slice_imageOfBytes (by rw [leBytes_length]; omega)
  refine ⟨fun hr hl => ⟨fun hres y hy hbad => ?_, fun hres hy => ?_, fun hres => ?_⟩,
    fun hr hl => ⟨fun hres => ⟨?_, ?_⟩, fun hres hmb => ⟨fun hocc => ?_, fun hocc => ?_⟩⟩⟩
  · exact exec_ldw_hit ha hr hl hres hy hbad
  · obtain ⟨k, hk⟩ := exec_ldw_miss ha hr hl hres hy
    refine ⟨_, k, hk, ?_⟩
    rw [updCtx_ctx, State.ctx, State.core, startFill_cores]
    exact ⟨rfl, firstIssue_pc .., firstIssue_ops .., startFill_under_way ..⟩
  · refine ⟨_, exec_ldw_uncached ha hr hl hres, ?_, uncachedLoad_item t m s1⟩
    rw [updCtx_ctx]
  · exact exec_stw_uncached ha hr hl hres
  · obtain ⟨y, hy, hline, hwrite, hdata⟩ := uncachedStore_item t m (leBytes v.toNat 4) s1
    exact ⟨y, hy, hline, hwrite, hdata ▸ himg⟩
  · obtain ⟨u, hu, he⟩ := cachedStore_new (l := leBytes v.toNat 4) hmb hocc
    exact ⟨u, _, exec_stw_cached ha hr hl hres hu, he, rfl, rfl, himg⟩
  · have hnow : coreNow s1 = s.now / 2 := by rw [coreNow, firstIssue_now]
    rw [exec_stw_waits ha hr hl hres (cachedStore_full hmb hocc), hnow]

/-! ## The address view at S and F levels (R227 to R229, R233) -/

theorem bit_toNat {n : Nat} (x : BitVec n) (i : Nat) : bit x.toNat i = x.getLsbD i :=
  Nat.testBit_eq_decide_div_mod_eq.symm

/-- The module address that the global window `w` gives for the address `a` of core `c` (R229). -/
def windowAddress (s : State) (c w a : Nat) : Nat :=
  ((s.core c).reg (0x104 + w)).toNat % 2 ^ 27 * 2 ^ 21 + (a - 0x80000000 - w * 0x20000000)

theorem windowAddress_eq (s : State) (c w a : Nat) :
    bits ((s.core c).reg (0x104 + w)).toNat 26 0 * 2 ^ 21 + (a - 0x80000000 - w * 0x20000000) = windowAddress s c w a := by
  simp [bits, windowAddress]

section View

variable {s : State} {t : Thread} {a n w : Nat} {wr wa : Bool} (hlvl : (s.ctx t).lvl ≠ .u)
  (h1 : 0x80000000 + w * 0x20000000 ≤ a) (h2 : a < 0x80000000 + (w + 1) * 0x20000000)

include hlvl h1 h2

theorem resolve_window_disabled (hg : ((s.core t.core).reg (0x104 + w)).getLsbD 28 = false) : resolve s t a n wr wa = none := by
  have hw : (a - 0x80000000) / 0x20000000 = w := by omega
  simp only [resolve, permitted_of_ne_u hlvl, hw, bit_toNat, hg]
  simp [show ¬ a < 0x100000 by omega, show ¬ a < 0x300000 by omega, show ¬ a < 0x80000000 by omega]

theorem resolve_window_onto_near (hm : 0x800000000000 ≤ windowAddress s t.core w a) (hm' : windowAddress s t.core w a < 0x810010000000) :
    resolve s t a n wr wa = none := by
  have hw : (a - 0x80000000) / 0x20000000 = w := by omega
  simp only [resolve, permitted_of_ne_u hlvl, hw, windowAddress_eq]
  generalize windowAddress s t.core w a = m at hm hm'
  simp [show ¬ a < 0x100000 by omega, show ¬ a < 0x300000 by omega, show ¬ a < 0x80000000 by omega,
    show ¬ m < 0x050000000000 by omega, show ¬ 0xF00000000000 ≤ m by omega]

theorem resolve_window_far (hg : ((s.core t.core).reg (0x104 + w)).getLsbD 28 = true)
    (hm : windowAddress s t.core w a < 0x50000000000) {p : Nat}
    (hp : relocate s (benchOf t.core) (windowAddress s t.core w a) wr = some p) :
    resolve s t a n wr wa = some (.far p (((s.core t.core).reg (0x104 + w)).getLsbD 27)) := by
  have hw : (a - 0x80000000) / 0x20000000 = w := by omega
  simp only [resolve, permitted_of_ne_u hlvl, hw, windowAddress_eq, hp, bit_toNat, hg]
  simp [hm, show ¬ a < 0x100000 by omega, show ¬ a < 0x300000 by omega, show ¬ a < 0x80000000 by omega]

end View

theorem coreAddressView : Claims.CoreAddressView := by
  intro s t a n wr wa hlvl
  have hp : ∀ kind, permitted (s.ctx t) kind a n = true := fun kind => permitted_of_ne_u hlvl kind a n
  refine ⟨fun h => ?_, fun h1 h2 h3 => ?_, fun h1 h2 h3 => ?_, fun h1 h2 => ?_, fun w _ h1 h2 => ⟨?_, ?_, fun hg hm _ => ?_⟩⟩
  · simp [resolve, hp, h, localBase]
  · simp [resolve, hp, h2, h3, winBase, Nat.not_lt.mpr h1]
  · simp [resolve, hp, h2, Nat.not_lt.mpr h3, Nat.not_lt.mpr h1]
  · simp [resolve, hp, h2, Nat.not_lt.mpr h1, show ¬ a < 0x100000 by omega]
  · exact resolve_window_disabled hlvl h1 h2
  · exact resolve_window_onto_near hlvl h1 h2
  · exact resolve_window_far hlvl h1 h2 hg hm

/-- Settles O18: each instruction is its body (`issue_pushes`, `issue_waits`), and the body goes by where the view leads: `loadBody_…`,
`storeBody_…` for the windows, `resolve_window_…` for the view. -/
theorem atomicAndWindowAccesses : Obligations.AtomicAndWindowAccesses :=
  ⟨testAndSetLoadReserveStoreConditional, windowAccesses, coreAddressView⟩

end Sys2Proof.CoreProofs
end

section
/-! PROOFS. O16: multiplies in flight. -/

namespace Sys2Proof.CoreProofs
open Sys2Proof Sys2Proof.Machine Sys2Proof.Laws

/-! ## Products (R208) -/

theorem mulSigned_eq (a b : Word) : mulSigned [b, a] = BitVec.ofInt 64 (a.toInt * b.toInt) := by
  rw [BitVec.ofInt_mul]
  rfl

theorem mulUnsigned_eq (a b : Word) : mulUnsigned [b, a] = BitVec.ofNat 64 (a.toNat * b.toNat) := by
  refine BitVec.eq_of_toNat_eq ?_
  simp [mulUnsigned, arg]

/-- MUL, MULU and MACC put the value of their function in flight. -/
theorem multiply_flies {s : State} {t : Thread} {op : Nat} {add : Bool} {f : List Word → Dword} {l : List Word} {v : Dword}
    (h : Runs t 1 ⟨2, 0, 0, 0⟩ s) (hl : operands (firstIssue t s) t 2 = l) (hf : f l = v) :
    multiply t op add f s = complete t 1 2 [] 0 [] none ((firstIssue t s).updCtx t (fun x =>
      { x with muls := x.muls ++ [{ add := add, value := v, issued := s.now / 2 }] })) := by
  subst hf
  refine (issue_pushes h rfl hl rfl).trans ?_
  rw [coreNow, firstIssue_now]

/-! ## Reads of the pair (R209, R210) -/

/-- The value of the pair once the results that `p` selects are written, oldest first. -/
def settled (p : MulOp → Bool) (x : Ctx) : Dword := (x.muls.filter p).foldl mulStep (pair x)

theorem extract_lo_append (a b : Word) : (a ++ b).extractLsb' 0 32 = b := by
  refine BitVec.eq_of_getLsbD_eq fun i hi => ?_
  rw [BitVec.getLsbD_extractLsb', BitVec.getLsbD_append]
  simp [hi]

theorem extract_hi_append (a b : Word) : (a ++ b).extractLsb' 32 32 = a := by
  refine BitVec.eq_of_getLsbD_eq fun i hi => ?_
  rw [BitVec.getLsbD_extractLsb', BitVec.getLsbD_append]
  simp [hi]

theorem append_extract (v : BitVec (32 + 32)) : v.extractLsb' 32 32 ++ v.extractLsb' 0 32 = v := by
  refine BitVec.eq_of_getLsbD_eq fun i hi => ?_
  rw [BitVec.getLsbD_append, BitVec.getLsbD_extractLsb', BitVec.getLsbD_extractLsb']
  by_cases h : i < 32
  · simp [h]
  · simp [h, show 32 + (i - 32) = i by omega, show i - 32 < 32 by omega]

theorem pair_setPair (x : Ctx) (v : Dword) : pair (setPair x v) = v := by
  rw [pair, setPair, Ctx.setReg_reg, Ctx.setReg_get, if_neg (by decide), Ctx.setReg_reg]
  exact append_extract v

theorem pair_settle (p : MulOp → Bool) (x : Ctx) : pair (settle p x) = settled p x := by
  unfold settle settled
  split
  next h => rw [h]; rfl
  next => exact pair_setPair ..

theorem pair_firstIssue (t : Thread) (s : State) : pair ((firstIssue t s).ctx t) = pair (s.ctx t) := by
  rw [pair, pair, firstIssue_reg t s _ (by decide), firstIssue_reg t s _ (by decide)]

theorem settled_firstIssue (p : MulOp → Bool) (t : Thread) (s : State) : settled p ((firstIssue t s).ctx t) = settled p (s.ctx t) := by
  rw [settled, settled, firstIssue_muls, pair_firstIssue]

theorem settle_muls_eq_nil (p : MulOp → Bool) (x : Ctx) : (settle p x).muls = [] ↔ x.muls.all p = true := by
  unfold settle
  split
  next h => simp [h]
  next => simp

theorem settle_wait (p : MulOp → Bool) (x : Ctx) : (settle p x).wait = x.wait := by
  unfold settle
  split <;> rfl

/-- What a read of MLO or MHI leaves: the results due are written, and the read counts as early when others are in flight. -/
def afterRead (p : MulOp → Bool) (t : Thread) (s : State) : State :=
  if (s.ctx t).muls.all p then (firstIssue t s).updCtx t (settle p)
  else coreCount t.core 0x18 1 ((firstIssue t s).updCtx t (settle p))

theorem readPair_eq (t : Thread) (n : Nat) (s : State) :
    readPair t n (firstIssue t s) =
      (afterRead (mulDone (coreNow s)) t s, (settle (mulDone (coreNow s)) ((firstIssue t s).ctx t)).reg n) := by
  rw [readPair, afterRead, coreNow, firstIssue_now, updCtx_ctx, ← firstIssue_muls t s]
  exact congrArg (·, _) (if_congr (settle_muls_eq_nil ..) rfl rfl)

section Reads

variable {s : State} {t : Thread} (h : Runs t 1 ⟨0, 1, 0, 0⟩ s)

include h

theorem exec_rdmlo : exec (.rdmlo t) s = .next (complete t 1 0 [(settled (mulDone (coreNow s)) (s.ctx t)).extractLsb' 0 32] 0 [] none
    (afterRead (mulDone (coreNow s)) t s)) := by
  refine congrArg Host.Outcome.next (issue_pushes h rfl rfl ?_)
  rw [readPair_eq, ← settled_firstIssue, ← pair_settle, pair, extract_lo_append]

theorem exec_rdmhi : exec (.rdmhi t) s = .next (complete t 1 0 [(settled (mulDone (coreNow s)) (s.ctx t)).extractLsb' 32 32] 0 [] none
    (afterRead (mulDone (coreNow s)) t s)) := by
  refine congrArg Host.Outcome.next (issue_pushes h rfl rfl ?_)
  rw [readPair_eq, ← settled_firstIssue, ← pair_settle, pair, extract_hi_append]

end Reads

/-! ## MULTIPLY_RESULT (R209, R241) -/

theorem forAll_of_unchanged {α : Type} {l : List α} {f : α → State → State} {s : State} (h : ∀ a, a ∈ l → f a s = s) :
    forAll l f s = s := by
  induction l with
  | nil => rfl
  | cons a l ih =>
    rw [forAll, List.foldl_cons, h a List.mem_cons_self]
    exact ih fun b hb => h b (List.mem_cons_of_mem a hb)

/-- With no RDTSR of the core waiting, the results that are in wake no thread. -/
theorem wakeRdtsr_of_none_waits {s : State} {t : Thread} (h : ∀ i u n, (s.ctx ⟨t.core, i⟩).wait ≠ .rdtsr u n) : wakeRdtsr t s = s := by
  unfold wakeRdtsr
  split
  · refine forAll_of_unchanged fun i _ => ?_
    split
    next hw => exact absurd hw (h i _ _)
    next => rfl
  · rfl

theorem exec_multiplyResult {s : State} {t : Thread} (he : exists_ s t = true) (h : ∀ i u n, (s.ctx ⟨t.core, i⟩).wait ≠ .rdtsr u n) :
    exec (.multiplyResult t) s = .next (s.updCtx t (settle (mulDone (coreNow s)))) := by
  refine congrArg Host.Outcome.next ((if_pos he).trans (wakeRdtsr_of_none_waits fun i u n => ?_))
  rw [updCtx_get]
  split
  next e => rw [settle_wait, e]; exact h i u n
  next => exact h i u n

/-- Settles O16: a multiply puts its product in flight (`multiply_flies`), and a read and MULTIPLY_RESULT settle the results due
(`pair_settle`). -/
theorem multiplierPipeline : Obligations.MultiplierPipeline := by
  intro s t a b s1 fly
  refine ⟨fun hr hl => ⟨?_, ?_, ?_⟩, fun hr => ⟨exec_rdmlo hr, exec_rdmhi hr⟩, fun he hm h => ?_⟩
  · exact congrArg Host.Outcome.next (multiply_flies hr hl (mulSigned_eq a b))
  · exact congrArg Host.Outcome.next (multiply_flies hr hl (mulUnsigned_eq a b))
  · exact congrArg Host.Outcome.next (multiply_flies hr hl (mulSigned_eq a b))
  · obtain ⟨m, hmem, _⟩ := hm
    rw [exec_multiplyResult he h]
    exact congrArg _ (updCtx_congr (if_neg (List.ne_nil_of_mem hmem)))

end Sys2Proof.CoreProofs
end

section
/-! PROOFS. O35: FENCE, and the release forms, wait for the earlier accesses of their thread. -/

namespace Sys2Proof.CoreProofs
open Sys2Proof Sys2Proof.Machine Sys2Proof.Laws

/-- An instruction that its guard turns away, whatever its stacks hold. -/
theorem issue_guardFault {t : Thread} {op len : Nat} {second : Option Byte} {sh : Shape} {guard : State → Option (Nat × Word)}
    {body : State → List Word → List Word → Out} {s : State} {cause : Nat} {info : Word} (h : Runs t len sh s)
    (hg : guard (firstIssue t s) = some (cause, info)) :
    issue t op second len sh guard body s = fault t cause info (s.ctx t).pc false (firstIssue t s) := by
  obtain ⟨hissue, hfetch, hcode, hloop, _, _⟩ := h
  simp [issue, hissue, hfetch, hcode, hloop, hg]

theorem firstIssue_benches (t : Thread) (s : State) : (firstIssue t s).benches = s.benches := by
  unfold firstIssue
  dsimp only
  split <;> rfl

theorem firstIssue_bench (t : Thread) (s : State) (b : Nat) : (firstIssue t s).bench b = s.bench b := by
  rw [State.bench, firstIssue_benches]
  rfl

/-! ## What a fence waits for (R426) -/

/-- A store to the line `l` at this stage is not performed at the scope `sc`. -/
def Outstanding (sc l stage : Nat) : Prop :=
  (3 ≤ sc ∧ l * 64 < 0x010000000000 ∧ stage ≠ 3) ∨ (4 ≤ sc ∧ stage ≠ 3) ∨ (5 ≤ sc ∧ 0x010000000000 ≤ l * 64)

/-- The entry of the merging buffer holds a store of the thread. -/
def HasStoreOf (t : Thread) (m : MBEntry) : Prop := (t.core, t.ctx) ∈ m.writers

/-- The item is an uncached store of the thread. -/
def IsStoreOf (t : Thread) (u : UItem) : Prop := u.write = true ∧ u.core = t.core ∧ u.ctx = t.ctx

theorem outstanding_iff (sc l stage : Nat) :
    (if sc ≤ 2 then false
      else if sc = 3 then !decide (0x010000000000 ≤ l * 64) && decide (stage ≠ 3)
      else if sc = 4 then decide (stage ≠ 3)
      else decide (0x010000000000 ≤ l * 64) || decide (stage ≠ 3)) = true ↔ Outstanding sc l stage := by
  unfold Outstanding
  split
  · refine iff_of_false Bool.false_ne_true ?_
    omega
  split
  · simp only [Bool.and_eq_true, Bool.not_eq_true', decide_eq_true_eq, decide_eq_false_iff_not]
    omega
  split
  · rw [decide_eq_true_iff]
    omega
  · simp only [Bool.or_eq_true, decide_eq_true_eq]
    omega

theorem fenceReady_iff (s : State) (t : Thread) (sc : Nat) :
    fenceReady s t sc = true ↔
      (∀ m ∈ (s.bench (benchOf t.core)).mb, HasStoreOf t m → ¬ Outstanding sc m.line m.stage) ∧
      (∀ u ∈ (s.bench (benchOf t.core)).uitems, IsStoreOf t u → ¬ Outstanding sc u.line u.stage) := by
  simp only [fenceReady, Bool.and_eq_true, Bool.not_eq_true', List.any_eq_false, outstanding_iff, decide_eq_true_eq,
    List.contains_iff_mem, HasStoreOf, IsStoreOf, not_and, and_imp]

/-- No access of the thread is under way at its bench. -/
def NothingUnderWay (s : State) (t : Thread) : Prop :=
  (∀ m ∈ (s.bench (benchOf t.core)).mb, ¬ HasStoreOf t m) ∧ ∀ u ∈ (s.bench (benchOf t.core)).uitems, ¬ IsStoreOf t u

theorem fenceReady_of_narrow {sc : Nat} (h : sc ≤ 2) (s : State) (t : Thread) : fenceReady s t sc = true := by
  have hnone : ∀ l stage, ¬ Outstanding sc l stage := fun l stage => by
    unfold Outstanding
    omega
  exact (fenceReady_iff s t sc).mpr ⟨fun m _ _ => hnone _ _, fun u _ _ => hnone _ _⟩

theorem fenceReady_of_nothing {s : State} {t : Thread} (h : NothingUnderWay s t) (sc : Nat) : fenceReady s t sc = true :=
  (fenceReady_iff s t sc).mpr ⟨fun m hm hw => absurd hw (h.1 m hm), fun u hu hw => absurd hw (h.2 u hu)⟩

/-- A store of the thread that the fence waits for. -/
def WaitsFor (s : State) (t : Thread) (m : MBEntry) (u : UItem) (sc : Nat) : Prop :=
  (m ∈ (s.bench (benchOf t.core)).mb ∧ HasStoreOf t m ∧ Outstanding sc m.line m.stage) ∨
  (u ∈ (s.bench (benchOf t.core)).uitems ∧ IsStoreOf t u ∧ Outstanding sc u.line u.stage)

theorem not_fenceReady {s : State} {t : Thread} {m : MBEntry} {u : UItem} {sc : Nat} (h : WaitsFor s t m u sc) :
    fenceReady s t sc = false := by
  refine Bool.eq_false_iff.mpr fun hready => ?_
  obtain ⟨hmb, hu⟩ := (fenceReady_iff s t sc).mp hready
  obtain ⟨hmem, hmine, hout⟩ | ⟨hmem, hmine, hout⟩ := h
  · exact hmb m hmem hmine hout
  · exact hu u hmem hmine hout

theorem fenceReady_firstIssue (s : State) (t : Thread) (sc : Nat) : fenceReady (firstIssue t s) t sc = fenceReady s t sc := by
  rw [fenceReady, firstIssue_bench]
  rfl

/-! ## FENCE (R207, R426) -/

section Fence

variable {s : State} {t : Thread} {syl : Byte} (h : Runs t 2 ⟨0, 0, 0, 0⟩ s)

include h

theorem exec_fence_illegal (hs : 5 < syl.toNat) :
    exec (.fence t syl) s = .next (fault t 0x03 (syllables (firstIssue t s) t 0xE6 (some syl)) (s.ctx t).pc false (firstIssue t s)) :=
  congrArg Host.Outcome.next (issue_guardFault h (if_pos hs))

variable (hs : syl.toNat ≤ 5)

include hs

theorem exec_fence_completes (hready : fenceReady s t syl.toNat = true) :
    exec (.fence t syl) s = .next (complete t 2 0 [] 0 [] none (firstIssue t s)) :=
  congrArg Host.Outcome.next (issue_pushes h (if_neg (Nat.not_lt.mpr hs)) rfl
    (if_pos ((fenceReady_firstIssue ..).trans hready)))

theorem exec_fence_waits (hready : fenceReady s t syl.toNat = false) :
    exec (.fence t syl) s = .next ((firstIssue t s).updCtx t (fun x =>
      { x with wait := .fence syl.toNat, heldPops := 0, heldLen := 2 })) :=
  congrArg Host.Outcome.next (issue_waits h (if_neg (Nat.not_lt.mpr hs)) rfl
    (if_neg (Bool.eq_false_iff.mp ((fenceReady_firstIssue ..).trans hready))))

end Fence

/-! ## FENCE_DONE (R426, R428) -/

section FenceDone

variable {s : State} {t : Thread} {sc e : Nat} {op : TallyOp}

theorem exec_fenceDone_fence (h : (s.ctx t).wait = .fence sc) :
    exec (.fenceDone t) s = .next (if fenceReady s t sc then completeHeld t [] s else s) := by
  simp only [exec, execFenceDone, h]

theorem exec_fenceDone_release (h : (s.ctx t).wait = .release op e) :
    exec (.fenceDone t) s = .next (if fenceReady s t op.scope then settleOut t (beginTally t op e s) else s) := by
  simp only [exec, execFenceDone, h]

end FenceDone

/-- A bench lies in its own partition, or outside all of them in itself. -/
theorem samePart_self (s : State) (b : Nat) : samePart s b b = true := by
  unfold samePart
  split
  next p hp => exact (List.find?_some hp :)
  next => exact decide_eq_true rfl

/-- An operation for the bench's own slice gets there two core cycles later (R472). -/
theorem sendTally_own {b : Nat} {op : TallyOp} (h : op.tally / 512 = b) (u : Nat) (s : State) :
    sendTally b u op s = toSlice b (u + 2) (prioOf op) op s := by
  rw [sendTally, h, if_neg (by rw [samePart_self]; exact Bool.noConfusion), if_pos rfl]

/-- An addition or subtraction that asks for no acquire goes to the slice of its own bench, and its thread goes on. -/
theorem beginTally_plain {t : Thread} {op : TallyOp} (hop : op.op < 2) (hacq : formAcq op.form = false)
    (h : op.tally / 512 = benchOf t.core) (e : Nat) (s : State) :
    beginTally t op e s = pushes (toSlice (benchOf t.core) (coreNow s + 2) (prioOf op) op s) [] := by
  have h4 : op.op ≠ 4 := by omega
  have hans : answers op = false := by simp [answers, hacq, show op.op ≠ 2 by omega, show op.op ≠ 3 by omega]
  simp only [beginTally, sendTally_own h, if_neg h4, hans, h, ne_eq, not_true_eq_false, decide_false, Bool.and_false, Bool.false_and,
    Bool.false_eq_true, if_false]

/-- Settles O35: a fence completes as `fenceReady` says, which is that no store of the thread is outstanding at its scope
(`fenceReady_iff`). -/
theorem fencesWaitForEarlierAccesses : Obligations.FencesWaitForEarlierAccesses := by
  intro s t syl sc op e m u s1 b mine held done waits
  refine ⟨fun hr => ⟨exec_fence_illegal hr, fun hs => ?_, fun hs hdone => ?_, fun hs hw => ?_⟩,
    fun hwait => ⟨fun h => ?_, fun hw => ?_⟩, fun hwait => ⟨fun hop hform hhome h => ?_, fun hw => ?_⟩⟩
  · exact exec_fence_completes hr (by omega) (fenceReady_of_narrow hs s t)
  · exact exec_fence_completes hr hs (fenceReady_of_nothing hdone _)
  · exact exec_fence_waits hr hs (not_fenceReady hw)
  · rw [exec_fenceDone_fence hwait, if_pos (h.elim (fenceReady_of_narrow · s t) (fenceReady_of_nothing · sc))]
  · rw [exec_fenceDone_fence hwait, not_fenceReady hw]
    rfl
  · rw [exec_fenceDone_release hwait, if_pos (h.elim (fenceReady_of_narrow · s t) (fenceReady_of_nothing · op.scope)),
      beginTally_plain hop (by rw [hform]; rfl) hhome]
    rfl
  · rw [exec_fenceDone_release hwait, not_fenceReady hw]
    rfl

end Sys2Proof.CoreProofs
end

section
/-! PROOFS. O33, its first half: the tally instructions go to the slice of their bench. -/

namespace Sys2Proof.CoreProofs
open Sys2Proof Sys2Proof.Machine Sys2Proof.Laws

theorem firstIssue_fmn (t : Thread) (s : State) : (firstIssue t s).fmn = s.fmn := by
  unfold firstIssue
  dsimp only
  split <;> rfl

/-- The operation that a tally instruction of thread `t` sends, by its syllable, its tally and its value. -/
def tallyOpOf (t : Thread) (op : Nat) (syl : Byte) (n v : Word) (serial : Nat) : TallyOp :=
  { op := op, tally := n.toNat % 65536, val := v, cond := tsCond syl, form := tsForm syl, scope := tsScope syl, core := t.core, ctx := t.ctx,
    agent := 0, serial := serial }

/-- The machine once a thread's wait has taken its serial. -/
def numbered (t : Thread) (s : State) : State := { firstIssue t s with fmn := { s.fmn with nextSerial := s.fmn.nextSerial + 1 } }

/-- The machine with the operation on its way to the slice of the thread's bench (R472). -/
def sentToSlice (t : Thread) (o : TallyOp) (s : State) : State :=
  toSlice (benchOf t.core) (s.now / 2 + 2) (1 + t.core % 4) o (numbered t s)

theorem freshSerial_firstIssue (t : Thread) (s : State) : freshSerial (firstIssue t s) = (s.fmn.nextSerial, numbered t s) := by
  rw [freshSerial, numbered, firstIssue_fmn]

theorem numbered_now (t : Thread) (s : State) : (numbered t s).now = s.now := firstIssue_now t s

/-! ## What an operation that is sent to the own bench's slice does with its thread (R429, R475, R482) -/

theorem answers_of_read_or_arrive {op : TallyOp} (h : op.op = 2 ∨ op.op = 3) : answers op = true := by
  simp only [answers, Bool.or_eq_true, decide_eq_true_eq]
  exact .inl h

section Begin

variable {t : Thread} {op : TallyOp} (h : op.tally / 512 = benchOf t.core)

include h

theorem beginTally_answered (hop : op.op ≠ 4) (hans : answers op = true) (e : Nat) (s : State) :
    beginTally t op e s = .held (toSlice (benchOf t.core) (coreNow s + 2) (prioOf op) op s)
      (.tally op.serial op.op op.tally (coreNow s + 2 ^ 30)) := by
  rw [beginTally, sendTally_own h, if_neg hop, if_pos hans]

theorem beginTally_watch (hop : op.op = 4) (e : Nat) (s : State) :
    beginTally t op e s = .held ((toSlice (benchOf t.core) (coreNow s + 2) (prioOf op) op s).updCtx t
      (fun x => { x with spinFrom := some (coreNow s) })) (.watch op.serial op.tally op.cond op.val (coreNow s + 2 ^ e)) := by
  rw [beginTally, sendTally_own h, if_pos hop]

end Begin

/-! ## The instructions -/

section Instructions

variable {s : State} {t : Thread} {op code : Nat} {syl : Byte} {sh : Shape} {l : List Word} {n v : Word}

/-- A tally instruction that needs no fence before it begins its operation at once. -/
theorem tallyInstr_pushes {u : State} (h : Runs t 2 sh s) (hok : tallySyllableOk op syl = true)
    (hl : operands (firstIssue t s) t sh.pops = l) (hrel : formRel (tsForm syl) = false)
    (hb : beginTally t (tallyOpOf t op syl (arg l 0) (if op = 2 then 0 else arg l 1) s.fmn.nextSerial) (timeoutExp (arg l 2)) (numbered t s) =
      pushes u []) :
    tallyInstr t op code syl sh s = complete t 2 sh.pops [] sh.rpops [] none u := by
  refine issue_pushes h (if_pos hok) hl ?_
  simp only [freshSerial_firstIssue, hrel, Bool.false_and, Bool.false_eq_true, if_false]
  exact hb

theorem tallyInstr_waits {u : State} {w : Wait} (h : Runs t 2 sh s) (hok : tallySyllableOk op syl = true)
    (hl : operands (firstIssue t s) t sh.pops = l) (hrel : formRel (tsForm syl) = false)
    (hb : beginTally t (tallyOpOf t op syl (arg l 0) (if op = 2 then 0 else arg l 1) s.fmn.nextSerial) (timeoutExp (arg l 2)) (numbered t s) =
      .held u w) :
    tallyInstr t op code syl sh s = u.updCtx t (fun x => { x with wait := w, heldPops := sh.pops, heldLen := 2 }) := by
  refine issue_waits h (if_pos hok) hl ?_
  simp only [freshSerial_firstIssue, hrel, Bool.false_and, Bool.false_eq_true, if_false]
  exact hb

variable (hhome : n.toNat % 65536 / 512 = benchOf t.core)

include hhome

/-- An addition or subtraction in the plain form goes to the slice, and the thread goes on. -/
theorem tallyInstr_plain (hop : op < 2) (h : Runs t 2 ⟨2, 0, 0, 0⟩ s) (hl : operands (firstIssue t s) t 2 = [n, v])
    (hok : tallySyllableOk op 0 = true) :
    tallyInstr t op code 0 ⟨2, 0, 0, 0⟩ s = complete t 2 2 [] 0 [] none (sentToSlice t (tallyOpOf t op 0 n v s.fmn.nextSerial) s) := by
  refine tallyInstr_pushes h hok hl rfl ?_
  rw [if_neg (by omega), beginTally_plain hop rfl hhome]
  rw [sentToSlice, coreNow, numbered_now]
  rfl

/-- An operation that is answered goes to the slice, and the thread waits for the answer. -/
theorem tallyInstr_answered (hop : op = 2 ∨ op = 3) (h : Runs t 2 sh s) (hl : operands (firstIssue t s) t sh.pops = l)
    (hn : arg l 0 = n) (hv : (if op = 2 then 0 else arg l 1) = v) (hok : tallySyllableOk op syl = true) (hrel : formRel (tsForm syl) = false) :
    tallyInstr t op code syl sh s = (sentToSlice t (tallyOpOf t op syl n v s.fmn.nextSerial) s).updCtx t (fun x =>
      { x with wait := .tally s.fmn.nextSerial op (n.toNat % 65536) (s.now / 2 + 2 ^ 30), heldPops := sh.pops, heldLen := 2 }) := by
  refine tallyInstr_waits h hok hl hrel ?_
  rw [hn, hv, beginTally_answered hhome (by simp only [tallyOpOf]; omega) (answers_of_read_or_arrive hop)]
  rw [coreNow, numbered_now]
  rfl

/-- A watch goes to the slice, and the thread waits for its wake. -/
theorem tallyInstr_watch {e : Word} (h : Runs t 2 ⟨3, 2, 0, 0⟩ s) (hl : operands (firstIssue t s) t 3 = [n, v, e])
    (hok : tallySyllableOk 4 syl = true) (hrel : formRel (tsForm syl) = false) :
    tallyInstr t 4 code syl ⟨3, 2, 0, 0⟩ s = ((sentToSlice t (tallyOpOf t 4 syl n v s.fmn.nextSerial) s).updCtx t
        (fun x => { x with spinFrom := some (s.now / 2) })).updCtx t (fun x =>
      { x with wait := .watch s.fmn.nextSerial (n.toNat % 65536) (tsCond syl) v (s.now / 2 + 2 ^ timeoutExp e), heldPops := 3, heldLen := 2 }) := by
  refine tallyInstr_waits h hok hl hrel ?_
  rw [beginTally_watch hhome rfl]
  rw [coreNow, numbered_now]
  rfl

end Instructions

theorem tallyInstr_illegal {s : State} {t : Thread} {op code : Nat} {syl : Byte} {sh : Shape} (h : Runs t 2 sh s)
    (hok : tallySyllableOk op syl = false) :
    tallyInstr t op code syl sh s = fault t 0x03 (syllables (firstIssue t s) t code (some syl)) (s.ctx t).pc false (firstIssue t s) :=
  issue_guardFault h (if_neg (Bool.eq_false_iff.mp hok))

/-- TREAD and TWATCH have no release form (R203). -/
theorem formRel_of_tallySyllableOk {op : Nat} {syl : Byte} (hop : op = 2 ∨ op = 4) (h : tallySyllableOk op syl = true) :
    formRel (tsForm syl) = false := by
  simp only [tallySyllableOk, if_pos hop, Bool.and_eq_true, decide_eq_true_eq] at h
  exact decide_eq_false (by omega)

theorem tallyInstructions : Claims.TallyInstructions := by
  intro s t v n e syl s1 b mk sent
  refine ⟨fun hhome => ⟨fun h hl hsyl => ?_, fun h hl hok => ?_, fun h hl hsyl => ?_, fun h hl hok => ?_⟩, fun h hok => ?_⟩
  · subst hsyl
    exact ⟨congrArg Host.Outcome.next (tallyInstr_plain hhome (by decide) h hl (by decide)),
      congrArg Host.Outcome.next (tallyInstr_plain hhome (by decide) h hl (by decide))⟩
  · refine ⟨_, congrArg Host.Outcome.next (tallyInstr_answered hhome (.inl rfl) h hl rfl rfl hok
      (formRel_of_tallySyllableOk (.inl rfl) hok)), rfl, ?_⟩
    rw [updCtx_ctx]
  · subst hsyl
    refine ⟨_, congrArg Host.Outcome.next (tallyInstr_answered hhome (.inr rfl) h hl rfl rfl (by decide) rfl), rfl, ?_⟩
    rw [updCtx_ctx]
  · refine ⟨_, congrArg Host.Outcome.next (tallyInstr_watch hhome h hl hok (formRel_of_tallySyllableOk (.inr rfl) hok)), rfl, ?_⟩
    rw [updCtx_ctx]
    rfl
  · exact congrArg Host.Outcome.next (tallyInstr_illegal h hok)

end Sys2Proof.CoreProofs
end

section
/-! PROOFS. O33, its second half: the slice performs the operation at its head. -/

namespace Sys2Proof.CoreProofs
open Sys2Proof Sys2Proof.Machine Sys2Proof.Laws

/-! ## What records of an event leave of the benches (R487, R491, R698) -/

/-- The benches of `u` are those of `s` but for registers, sync rings and trace queues. -/
structure RecordsOnly (s u : State) : Prop where
  bench : ∀ d, u.bench d =
    { s.bench d with reg := (u.bench d).reg, sync := (u.bench d).sync, trace := (u.bench d).trace, traceLost := (u.bench d).traceLost }
  now : u.now = s.now

theorem RecordsOnly.refl (s : State) : RecordsOnly s s := ⟨fun _ => rfl, rfl⟩

theorem RecordsOnly.trans {s u v : State} (h : RecordsOnly s u) (k : RecordsOnly u v) : RecordsOnly s v :=
  ⟨fun d => by rw [k.bench d, h.bench d], k.now.trans h.now⟩

theorem RecordsOnly.updBench (s : State) (b : Nat) (f : Bench → Bench)
    (hf : ∀ x, f x = { x with reg := (f x).reg, sync := (f x).sync, trace := (f x).trace, traceLost := (f x).traceLost }) :
    RecordsOnly s (s.updBench b f) := by
  refine ⟨fun d => ?_, rfl⟩
  rw [updBench_get]
  split
  next h => rw [← h]; exact hf _
  next => rfl

/-- A state with the benches and the time of `s`. -/
theorem RecordsOnly.of_benches {s u : State} (hb : u.benches = s.benches) (hn : u.now = s.now) : RecordsOnly s u :=
  ⟨fun d => by rw [State.bench, hb]; rfl, hn⟩

theorem count_records (b o n : Nat) (s : State) : RecordsOnly s (count b o n s) := .updBench _ _ _ fun _ => rfl

theorem pushRecord_records (b : Nat) (r lost : List Byte) (s : State) : RecordsOnly s (pushRecord b r lost s) := by
  unfold pushRecord
  dsimp only
  split
  · exact .updBench _ _ _ fun _ => rfl
  split
  · exact .updBench _ _ _ fun _ => rfl
  · exact .trans (.updBench s b (fun x => { x with traceLost := (s.bench b).traceLost + 1 }) fun _ => rfl) (.of_benches rfl rfl)

theorem trace_records (b core ctx type sub : Nat) (payload : List Byte) (s : State) : RecordsOnly s (trace b core ctx type sub payload s) := by
  unfold trace
  dsimp only
  split
  · exact .refl s
  split
  · exact pushRecord_records ..
  · exact .refl s

theorem traceTally_records (sub n core ctx cond : Nat) (v : Word) (s : State) : RecordsOnly s (traceTally sub n core ctx cond v s) :=
  trace_records ..

theorem setPend_records (c i : Nat) (s : State) : RecordsOnly s (setPend c i s) := .of_benches rfl rfl

theorem syncWrite_records (c bitNo rcd : Nat) (s : State) : RecordsOnly s (syncWrite c bitNo rcd s) := by
  refine .trans ?_ (setPend_records c bitNo _)
  split <;> exact .updBench _ _ _ fun _ => rfl

theorem syncErr_records (b c bitNo rcd : Nat) (s : State) : RecordsOnly s (syncErr b c bitNo rcd s) := by
  unfold syncErr
  split
  · exact syncWrite_records ..
  · exact .of_benches rfl rfl

theorem anomaly_records (kind off : Nat) (op : TallyOp) (value : Nat) (s : State) : RecordsOnly s (anomaly kind off op value s) :=
  (count_records ..).trans (syncErr_records ..)

/-! ## What wakes and answers leave of the benches (R473, R480) -/

/-- The benches of `u` are those of `s` but for records, watches, the open-class queue and the inbox. -/
structure AnswersOnly (s u : State) : Prop where
  bench : ∀ d, u.bench d =
    { s.bench d with
      reg := (u.bench d).reg, sync := (u.bench d).sync, trace := (u.bench d).trace, traceLost := (u.bench d).traceLost,
      watches := (u.bench d).watches, oq := (u.bench d).oq, inbox := (u.bench d).inbox }

theorem RecordsOnly.answersOnly {s u : State} (h : RecordsOnly s u) : AnswersOnly s u := ⟨fun d => by rw [h.bench d]⟩

theorem AnswersOnly.refl (s : State) : AnswersOnly s s := ⟨fun _ => rfl⟩

theorem AnswersOnly.trans {s u v : State} (h : AnswersOnly s u) (k : AnswersOnly u v) : AnswersOnly s v :=
  ⟨fun d => by rw [k.bench d, h.bench d]⟩

theorem AnswersOnly.updBench (s : State) (b : Nat) (f : Bench → Bench)
    (hf : ∀ x, f x =
      { x with
        reg := (f x).reg, sync := (f x).sync, trace := (f x).trace, traceLost := (f x).traceLost, watches := (f x).watches,
        oq := (f x).oq, inbox := (f x).inbox }) :
    AnswersOnly s (s.updBench b f) := by
  refine ⟨fun d => ?_⟩
  rw [updBench_get]
  split
  next h => rw [← h]; exact hf _
  next => rfl

theorem AnswersOnly.forAll {α : Type} {l : List α} {f : α → State → State} (h : ∀ a s, AnswersOnly s (f a s)) (s : State) :
    AnswersOnly s (forAll l f s) :=
  List.foldlRecOn (motive := AnswersOnly s) l _ (.refl s) fun _ hu a _ => hu.trans (h a _)

theorem answer_answersOnly (home : Nat) (op : TallyOp) (m : OpenMsg) (s : State) : AnswersOnly s (answer home op m s) := by
  unfold answer
  split <;> exact .updBench _ _ _ fun _ => rfl

theorem sendWakes_answersOnly (home : Nat) (s : State) : AnswersOnly s (sendWakes home s) := by
  refine .forAll (fun w u => ?_) s
  split
  · exact .trans (.updBench u home _ fun _ => rfl) (answer_answersOnly ..)
  · exact .refl u

theorem checkWatches_answersOnly (n : Nat) (s : State) : AnswersOnly s (checkWatches n s) := by
  unfold checkWatches
  dsimp only
  split
  · exact .refl s
  · refine .trans ?_ (sendWakes_answersOnly ..)
    refine .trans ?_ (.forAll (fun w u => (traceTally_records ..).answersOnly) _)
    exact .updBench _ _ _ fun _ => rfl

/-! ## What the slice reads (R471, R478) -/

section Reads

variable {s u : State}

theorem RecordsOnly.tally (h : RecordsOnly s u) (d k : Nat) : (u.bench d).tally k = (s.bench d).tally k := by
  rw [h.bench d]
  rfl

theorem AnswersOnly.tally (h : AnswersOnly s u) (d k : Nat) : (u.bench d).tally k = (s.bench d).tally k := by
  rw [h.bench d]
  rfl

theorem AnswersOnly.tallyIn (h : AnswersOnly s u) (d : Nat) : (u.bench d).tallyIn = (s.bench d).tallyIn := by
  rw [h.bench d]

theorem setTally_tally (n : Nat) (f : Tally → Tally) (s : State) :
    ((setTally n f s).bench (n / 512)).tally (n % 512) = f ((s.bench (n / 512)).tally (n % 512)) := by
  rw [setTally, updBench_bench, Bench.updTally_tally]

theorem setTally_tallyIn (n : Nat) (f : Tally → Tally) (s : State) (d : Nat) :
    ((setTally n f s).bench d).tallyIn = (s.bench d).tallyIn := by
  rw [setTally, updBench_get]
  split
  next h => rw [← h]; rfl
  next => rfl

theorem setTally_congr {n : Nat} {f : Tally → Tally} {y : Tally} (h : f ((s.bench (n / 512)).tally (n % 512)) = y) :
    setTally n f s = setTally n (fun _ => y) s := by
  subst h
  rfl

end Reads

/-- The machine whose slice of bench `b` has taken the operation at its head. -/
def taken (b : Nat) (r : List TallyIn) (s : State) : State := s.updBench b (fun x => { x with tallyIn := r })

section Taken

variable (b : Nat) (r : List TallyIn) (s : State)

theorem taken_tally (d k : Nat) : ((taken b r s).bench d).tally k = (s.bench d).tally k := by
  rw [taken, updBench_get]
  split
  next h => rw [← h]; rfl
  next => rfl

theorem misuse_taken (op : TallyOp) : misuse (taken b r s) op = misuse s op := by
  rw [misuse, misuse, taken_tally]
  rfl

theorem advances_taken (op : TallyOp) : advances (taken b r s) op = advances s op := by
  rw [advances, advances, misuse_taken, taken_tally]

theorem tooSoon_taken (n : Nat) : tooSoon (taken b r s) n = tooSoon s n := by
  rw [tooSoon, tooSoon, taken_tally]
  rfl

end Taken

/-! ## The effects (R475, R476) -/

/-- A tally after TADD of `v`. -/
def added (v : Nat) (r : Tally) : Tally :=
  if 2 ^ 32 ≤ r.count.toNat + v then { r with count := word (2 ^ 32 - 1), ovf := true } else { r with count := word (r.count.toNat + v) }

/-- A tally after TSUB of `v`. -/
def subtracted (v : Nat) (r : Tally) : Tally :=
  if r.count.toNat < v then { r with count := 0, unf := true } else { r with count := word (r.count.toNat - v) }

/-- A tally after TARRIVE of `k` parties in core cycle `now`. -/
def arrived (now k : Nat) (r : Tally) : Tally :=
  { r with
    count := word (arriveCount r.count.toNat k)
    gen := if arriveCount r.count.toNat k = 0 then r.gen + 1 else r.gen
    lastAdv := if arriveCount r.count.toNat k = 0 then some now else r.lastAdv
    mis := r.mis || decide (k - 1 < r.count.toNat) }

section Effects

variable {op : TallyOp} {s : State}

/-- What is left to do after an effect: the watches, and the answer where the sender waits for one. -/
theorem watches_and_answer_answersOnly (p : Prop) [Decidable p] (n : Nat) (m : OpenMsg) {w u : State} (h : AnswersOnly w u) :
    AnswersOnly w (if p then answer (n / 512) op m (checkWatches n u) else checkWatches n u) := by
  split
  · exact h.trans ((checkWatches_answersOnly ..).trans (answer_answersOnly ..))
  · exact h.trans (checkWatches_answersOnly ..)

/-- An effect that reports an anomaly does so with records alone. -/
theorem reported_records (sub kind off value n core ctx cond : Nat) (v : Word) (op : TallyOp) (s : State) :
    RecordsOnly s (traceTally sub n core ctx cond v (anomaly kind off op value s)) :=
  (anomaly_records ..).trans (traceTally_records ..)

theorem applyTally_adds (h : op.op = 0) : AnswersOnly (setTally op.tally (added op.val.toNat) s) (applyTally op s) := by
  simp only [applyTally, h]
  refine watches_and_answer_answersOnly _ _ _ ?_
  split
  next hov =>
    rw [setTally_congr (f := added op.val.toNat) (if_pos hov)]
    exact (reported_records ..).answersOnly
  next hov =>
    rw [setTally_congr (f := added op.val.toNat) (if_neg hov)]
    exact .refl _

theorem applyTally_subtracts (h : op.op = 1) : AnswersOnly (setTally op.tally (subtracted op.val.toNat) s) (applyTally op s) := by
  simp only [applyTally, h]
  refine watches_and_answer_answersOnly _ _ _ ?_
  split
  next hun =>
    rw [setTally_congr (f := subtracted op.val.toNat) (if_pos hun)]
    exact (reported_records ..).answersOnly
  next hun =>
    rw [setTally_congr (f := subtracted op.val.toNat) (if_neg hun)]
    exact .refl _

theorem applyTally_arrives (h : op.op = 3) :
    AnswersOnly (setTally op.tally (arrived (coreNow s) op.val.toNat) s) (applyTally op s) := by
  simp only [applyTally, h]
  refine watches_and_answer_answersOnly _ _ _ ?_
  split
  · refine .trans ?_ (reported_records ..).answersOnly
    rw [setTally_congr (f := arrived (coreNow s) op.val.toNat) rfl]
    exact .refl _
  · rw [setTally_congr (f := arrived (coreNow s) op.val.toNat) rfl]
    exact .refl _

theorem applyTally_reads (h : op.op = 2) (hcore : benchOf op.core = op.tally / 512) :
    applyTally op s = toInbox (op.tally / 512) (coreNow s + 2) (.result op.core op.ctx op.serial op.tally true
      ((s.bench (op.tally / 512)).tally (op.tally % 512)).count
      (((s.bench (op.tally / 512)).tally (op.tally % 512)).gen.setWidth 32)) s := by
  simp only [applyTally, h, answers_of_read_or_arrive (.inl h), answer, hcore, if_true]

end Effects

/-! ## The operation at the head of the slice (R472, R478) -/

section Slice

variable {s : State} {op : TallyOp}

theorem sliceOp_performs (hdef : (s.bench (op.tally / 512)).deferred = [])
    (h : ¬ (advances s op = true ∧ tooSoon s op.tally = true)) : sliceOp op s = performTally op s := by
  simp only [sliceOp, hdef, List.any_nil, Bool.false_eq_true, false_or]
  exact if_neg fun hd => h hd.2

theorem sliceOp_defers (hadv : advances s op = true) (hsoon : tooSoon s op.tally = true) :
    sliceOp op s = count (op.tally / 512) 0x7530 1
      (s.updBench (op.tally / 512) (fun x => { x with deferred := x.deferred ++ [op] })) := by
  have hop : op.op ≠ 7 := fun h7 => by simp [advances, h7] at hadv
  simp only [sliceOp, hadv, hsoon]
  exact if_pos ⟨hop, .inr ⟨trivial, trivial⟩⟩

/-- An operation that is no misuse is applied, after the records of a scope mismatch (R432). -/
theorem performTally_applies (hmis : misuse s op = false) : ∃ w, RecordsOnly s w ∧ performTally op s = applyTally op w := by
  refine ⟨_, ?_, by rw [performTally, hmis]; exact if_neg Bool.false_ne_true⟩
  split
  · exact reported_records ..
  · exact .refl s

/-- Only TARRIVE and the end of a thread advance a generation. -/
theorem not_advances (h6 : op.op ≠ 6) (h3 : op.op ≠ 3) : ¬ advances s op = true := by
  simp [advances, h6, h3]

end Slice

section Head

variable {s : State} {b : Nat} {i : TallyIn} {r : List TallyIn} (hin : (s.bench b).tallyIn = i :: r) (hdue : i.due ≤ s.now / 2)
  (hhome : i.op.tally / 512 = b) (habs : absorbsBench s b = false)

include hin hdue habs

theorem exec_tallyOpArrival : exec (.tallyOpArrival b) s = .next (sliceOp i.op (taken b r s)) := by
  simp only [exec, execTallyOpArrival, takeTally, hin, habs, Bool.false_eq_true, if_false, and_true]
  exact congrArg _ (if_pos hdue)

include hhome

theorem arrival_defers (hdef : (s.bench b).deferred = []) (hadv : advances s i.op = true) (hsoon : tooSoon s i.op.tally = true) :
    ∃ u, exec (.tallyOpArrival b) s = .next u ∧ (u.bench b).deferred = [i.op] ∧
      (u.bench b).tally (i.op.tally % 512) = (s.bench b).tally (i.op.tally % 512) := by
  subst hhome
  refine ⟨_, exec_tallyOpArrival hin hdue habs, ?_⟩
  rw [sliceOp_defers (by rw [advances_taken]; exact hadv) (by rw [tooSoon_taken]; exact hsoon), count, updBench_bench, updBench_bench, taken,
    updBench_bench]
  exact ⟨congrArg (· ++ [i.op]) hdef, rfl⟩

variable (hmis : misuse s i.op = false) (hdef : (s.bench b).deferred = [])
  (hgo : ¬ (advances s i.op = true ∧ tooSoon s i.op.tally = true))

include hmis hdef hgo

theorem arrival_applies : ∃ w, RecordsOnly (taken b r s) w ∧ exec (.tallyOpArrival b) s = .next (applyTally i.op w) := by
  subst hhome
  obtain ⟨w, hw, happly⟩ := performTally_applies (s := taken (i.op.tally / 512) r s) (op := i.op) (by rw [misuse_taken]; exact hmis)
  refine ⟨w, hw, ?_⟩
  rw [exec_tallyOpArrival hin hdue habs, sliceOp_performs ?_ ?_, happly]
  · rw [taken, updBench_bench]
    exact hdef
  · rw [advances_taken, tooSoon_taken]
    exact hgo

/-- An operation whose effect on its tally is `g`, at the head of the slice. -/
theorem arrival_effect {g : Tally → Tally} (hg : ∀ w, coreNow w = coreNow s → AnswersOnly (setTally i.op.tally g w) (applyTally i.op w)) :
    ∃ u, exec (.tallyOpArrival b) s = .next u ∧ (u.bench b).tallyIn = r ∧
      (u.bench b).tally (i.op.tally % 512) = g ((s.bench b).tally (i.op.tally % 512)) := by
  obtain ⟨w, hw, hexec⟩ := arrival_applies hin hdue hhome habs hmis hdef hgo
  subst hhome
  have hu := hg w (congrArg (· / 2) hw.now)
  refine ⟨_, hexec, ?_, ?_⟩
  · rw [hu.tallyIn, setTally_tallyIn, hw.answersOnly.tallyIn, taken, updBench_bench]
  · rw [hu.tally, setTally_tally, hw.tally, taken_tally]

end Head

theorem arriveCount_lt {c k : Nat} (hc : c < 2 ^ 32) (hk : k < 2 ^ 32) : arriveCount c k < 2 ^ 32 := by
  unfold arriveCount
  split <;> omega

theorem tallySliceOperations : Claims.TallySliceOperations := by
  intro s b i r hin hdue hhome habs k y v hmis hdef
  have hy : y.count.toNat < 2 ^ 32 := y.count.isLt
  have hv : v < 2 ^ 32 := i.op.val.isLt
  refine ⟨fun hop => ?_, fun hop => ?_, fun hop hsoon => ?_, fun hadv hsoon => ?_, fun hop hcore => ?_⟩
  · obtain ⟨u, hu, hrest, htally⟩ := arrival_effect hin hdue hhome habs hmis hdef
      (fun h => not_advances (by omega) (by omega) h.1) fun w _ => applyTally_adds hop
    refine ⟨u, hu, hrest, fun hlt => ?_, fun hge => ?_⟩
    · rw [htally, added, if_neg (Nat.not_le.mpr hlt)]
      exact ⟨(BitVec.toNat_ofNat ..).trans (Nat.mod_eq_of_lt hlt), rfl⟩
    · rw [htally, added, if_pos hge]
      exact ⟨rfl, rfl⟩
  · obtain ⟨u, hu, hrest, htally⟩ := arrival_effect hin hdue hhome habs hmis hdef
      (fun h => not_advances (by omega) (by omega) h.1) fun w _ => applyTally_subtracts hop
    refine ⟨u, hu, hrest, fun hle => ?_, fun hlt => ?_⟩
    · rw [htally, subtracted, if_neg (Nat.not_lt.mpr hle)]
      exact (BitVec.toNat_ofNat ..).trans (Nat.mod_eq_of_lt (by omega))
    · rw [htally, subtracted, if_pos hlt]
      exact ⟨rfl, rfl⟩
  · obtain ⟨u, hu, hrest, htally⟩ := arrival_effect (g := arrived (coreNow s) v) hin hdue hhome habs hmis hdef
      (fun h => Bool.false_ne_true (hsoon.symm.trans h.2)) fun w hw => hw ▸ applyTally_arrives hop
    refine ⟨u, hu, hrest, ?_, ?_⟩
    · rw [htally]
      exact (BitVec.toNat_ofNat ..).trans (Nat.mod_eq_of_lt (arriveCount_lt hy hv))
    · rw [htally]
      rfl
  · exact arrival_defers hin hdue hhome habs hdef hadv hsoon
  · obtain ⟨w, hw, hexec⟩ := arrival_applies hin hdue hhome habs hmis hdef fun h => not_advances (by omega) (by omega) h.1
    subst hhome
    rw [applyTally_reads hop hcore] at hexec
    have hbench := hw.bench (i.op.tally / 512)
    rw [taken, updBench_bench] at hbench
    refine ⟨_, hexec, ?_⟩
    rw [toInbox, updBench_bench, coreNow, hw.now, hw.tally, taken_tally]
    refine ⟨?_, ?_, ?_⟩
    · rw [hbench]
    · exact (hw.tally ..).trans (taken_tally ..)
    · rw [hbench]
      rfl

/-- Settles O33: an instruction sends its operation to the slice of its bench (`tallyInstr_…`), and the slice applies the one at its head
(`arrival_effect`), whose anomalies, wakes and answers leave the tallies alone (`AnswersOnly`). -/
theorem tallyOperations : Obligations.TallyOperations := ⟨tallyInstructions, tallySliceOperations⟩

end Sys2Proof.CoreProofs
end

section
/-! PROOFS. O24: interrupts and injections, and customer instructions. -/

namespace Sys2Proof.CoreProofs
open Sys2Proof Sys2Proof.Machine Sys2Proof.Laws

/-! ## Interrupts and injections (R297, R301, R306) -/

theorem yieldHeld_of_free {s : State} {t : Thread} (h : (s.ctx t).wait = .none) : yieldHeld t s = some (s, false) := by
  simp only [yieldHeld, h]

theorem isEnding_of_free {x : Ctx} (h : x.wait = .none) : isEnding x = false := by
  simp only [isEnding, h]

theorem interruptEntry_enters {s : State} {c : Nat} (hd : deliverable s c = true) (hi : (s.ctx ⟨c, 0⟩).inject = none)
    (hw : (s.ctx ⟨c, 0⟩).wait = .none) :
    interruptEntry c s =
      enter ⟨c, 0⟩ 1 0x11 ((s.core c).reg 0x125 &&& (s.core c).reg 0x126) (s.ctx ⟨c, 0⟩).pc false 0 s := by
  simp only [interruptEntry, hd, hi, and_self, if_true, yieldHeld_of_free hw]

theorem not_deliverable {s : State} {c : Nat}
    (h : (s.ctx ⟨c, 0⟩).hold.isSome = true ∨ ((s.core c).reg 0x125 &&& (s.core c).reg 0x126) = 0 ∨ (s.ctx ⟨c, 0⟩).lvl ≠ .s) :
    deliverable s c = false := by
  obtain hhold | hpend | hlvl := h
  · simp [deliverable, holdOpen, show ((s.core c).ctx 0).hold.isSome = true from hhold]
  · simp [deliverable, hpend]
  · simp [deliverable, show ((s.core c).ctx 0).lvl ≠ .s from hlvl]

theorem interruptEntry_waits {s : State} {c : Nat} (hd : deliverable s c = false) : interruptEntry c s = s := by
  simp only [interruptEntry, hd, Bool.false_eq_true, false_and, if_false]

theorem injection_enters {s : State} {t : Thread} (w : Word) (he : exists_ s t = true) (hst : (s.ctx t).st ≠ .lock)
    (hi : (s.ctx t).inject = none) (hw : (s.ctx t).wait = .none) :
    injection t w s = enter t 2 0x13 w
      (if (s.ctx t).st = .susp ∨ (s.ctx t).st = .halt then (s.ctx t).reg 0x043 else (s.ctx t).pc) false (stN (s.ctx t).st)
      (s.updCtx t (fun x => { x with inject := none })) := by
  simp only [injection, he, hst, hi, isEnding_of_free hw, yieldHeld_of_free hw, Bool.true_eq_false, or_self, if_false,
    Bool.false_eq_true, Option.getD_none]

theorem injection_of_lock {s : State} {t : Thread} (w : Word) (h : (s.ctx t).st = .lock) : injection t w s = s := if_pos (.inr h)

theorem interruptsAndInjections : Claims.InterruptsAndInjections := by
  intro s c t w x
  refine ⟨fun hd hi hw => ?_, fun h => ?_, fun he hst hi hw => ?_, fun h => ?_⟩
  · exact congrArg Host.Outcome.next (interruptEntry_enters hd hi hw)
  · exact congrArg Host.Outcome.next (interruptEntry_waits (not_deliverable h))
  · exact congrArg Host.Outcome.next (injection_enters w he hst hi hw)
  · exact congrArg Host.Outcome.next (injection_of_lock w h)

/-! ## The issue of a customer instruction (R244, R248) -/

section Issue

variable {s : State} {t : Thread} {nn : Nat} (hnn : nn < 32)
  (h : Runs t 1 ⟨ucIn (ucdec s t.core nn), ucOut (ucdec s t.core nn), 0, 0⟩ s)

include hnn h

/-- The machine whose micro-sequencer has a sequence of the thread in its queue. -/
def queued (t : Thread) (nn : Nat) (args : List Word) (s : State) : State :=
  s.updCore t.core (fun k => { k with micro := k.micro ++ [{ ctx := t.ctx, entry := nn, args := args, started := none, view := [] }] })

theorem exec_ucnn_queues (hvalid : bit (ucdec s t.core nn) 18 = true) (hin : ucIn (ucdec s t.core nn) ≤ 4)
    (hout : ucOut (ucdec s t.core nn) ≤ 4) (hlvl : bit (ucdec s t.core nn) 17 = false ∨ ((firstIssue t s).ctx t).lvl ≠ .u) :
    exec (.ucnn t nn) s =
      .next ((queued t nn (operands (firstIssue t s) t (ucIn (ucdec s t.core nn))) (firstIssue t s)).updCtx t
        (fun x => { x with wait := .micro, heldPops := ucIn (ucdec s t.core nn), heldLen := 1 })) := by
  have hmod : nn % 32 = nn := Nat.mod_eq_of_lt hnn
  simp only [exec, execUcnn, hmod, uc]
  refine congrArg Host.Outcome.next (issue_waits h ?_ rfl rfl)
  have hu : (bit (ucdec s t.core nn) 17 && decide (((firstIssue t s).ctx t).lvl = .u)) = false := by
    rwa [Bool.and_eq_false_iff, decide_eq_false_iff_not]
  simp only [hvalid, Nat.not_lt.mpr hin, Nat.not_lt.mpr hout, hu, Bool.not_true, decide_false, Bool.or_false, Bool.false_eq_true, if_false]

theorem exec_ucnn_illegal (hvalid : bit (ucdec s t.core nn) 18 = false) :
    exec (.ucnn t nn) s = .next (fault t 0x03 (syllables (firstIssue t s) t (0xC0 + nn) none) (s.ctx t).pc false (firstIssue t s)) := by
  have hmod : nn % 32 = nn := Nat.mod_eq_of_lt hnn
  simp only [exec, execUcnn, hmod, uc]
  refine congrArg Host.Outcome.next (issue_guardFault h ?_)
  simp only [hvalid, Bool.not_false, Bool.true_or, if_true]

end Issue

/-! ## Runs of one micro-op (R246 to R250) -/

/-- The micro-sequencer before the first micro-op of a sequence. -/
def beforeRun (s : State) (c : Nat) (r : MicroRun) : MicroState :=
  { s := s, stk := r.args, i := bits (ucdec s c r.entry) 10 0, cyc := 0, acc := 0, muls := [] }

section Run

variable {s : State} {c : Nat} {r : MicroRun} (hi : bits (ucdec s c r.entry) 10 0 < 2048) (hout : ucOut (ucdec s c r.entry) = 1)

include hi hout

/-- A sequence whose only micro-op, no branch, is `op` with the immediate `v` and leaves `y` on the micro-stack (R246). -/
theorem microResult_one {v op : Nat} {y : Word} (hv : v < 2 ^ 16) (hop : op < 256) (h1 : op ≠ 0xF1) (h2 : op ≠ 0xF2)
    (hw : microWord s c (bits (ucdec s c r.entry) 10 0) = 2 ^ 31 + v * 256 + op)
    (hm : microOp ⟨c, r.ctx⟩ r.view op (BitVec.ofInt 32 (signed 16 v)) (beforeRun s c r) = some (.inl { beforeRun s c r with stk := [y] })) :
    ∃ m, microResult c r s = .done m ∧ m.s = s ∧ m.cyc = 1 ∧ m.stk = [y] := by
  have hbit : bit (2 ^ 31 + v * 256 + op) 31 = true := decide_eq_true (by omega)
  have hcode : bits (2 ^ 31 + v * 256 + op) 7 0 = op := by simp only [bits]; omega
  have himm : bits (2 ^ 31 + v * 256 + op) 23 8 = v := by simp only [bits]; omega
  have hzero : bits (2 ^ 31 + v * 256 + op) 30 24 = 0 := by simp only [bits]; omega
  refine ⟨{ beforeRun s c r with stk := [y], cyc := 1, i := bits (ucdec s c r.entry) 10 0 + 1 }, ?_, rfl, rfl, rfl⟩
  show microRun ⟨c, r.ctx⟩ r.view (bits (ucdec s c r.entry) 10 0) (ucOut (ucdec s c r.entry)) (63 + 1) (beforeRun s c r) = _
  rw [microRun]
  simp only [beforeRun] at hm ⊢
  simp only [hw, hbit, hcode, himm, hzero, hm, hout, h1, h2, or_self, if_false]
  simp [Nat.not_le.mpr hi]

theorem microResult_literal {v : Nat} (hv : v < 2 ^ 16) (hargs : r.args = [])
    (hw : microWord s c (bits (ucdec s c r.entry) 10 0) = 2 ^ 31 + v * 256 + 0xF0) :
    ∃ m, microResult c r s = .done m ∧ m.s = s ∧ m.cyc = 1 ∧ m.stk = [BitVec.signExtend 32 (BitVec.ofNat 16 v)] := by
  refine microResult_one hi hout hv (by decide) (by decide) (by decide) hw ?_
  rw [BitVec.signExtend, ← signed_eq_toInt (by decide)]
  simp [microOp, beforeRun, hargs]

theorem microResult_add {a b : Word} (hargs : r.args = [b, a])
    (hw : microWord s c (bits (ucdec s c r.entry) 10 0) = 2 ^ 31 + 0x10) :
    ∃ m, microResult c r s = .done m ∧ m.s = s ∧ m.cyc = 1 ∧ m.stk = [a + b] := by
  refine microResult_one hi hout (v := 0) (by decide) (op := 0x10) (by decide) (by decide) (by decide) hw ?_
  simp [microOp, beforeRun, hargs, basePure, fAdd, arg]

end Run

/-! ## The sequencer (R250, R251, R253) -/

section Sequencer

variable {s : State} {c : Nat} {r : MicroRun} {rest : List MicroRun} (hq : (s.core c).micro = r :: rest)

include hq

theorem microStart_starts (h : r.started = none) :
    microStart c s = s.updCore c (fun k => { k with micro := { r with started := some (coreNow s), view := (k.ctx r.ctx).sr } :: rest }) := by
  simp only [microStart, hq, h, if_true]

variable {st : Nat} {m : MicroState} (hst : r.started = some st) (hlate : st + 2 + m.cyc ≤ s.now / 2)

include hst hlate

theorem microEnd_completes (hm : microResult c r s = .done m) :
    microEnd c s = completeHeld ⟨c, r.ctx⟩ (m.stk.take (ucOut (ucdec s c r.entry))) (m.s.updCore c (fun k => { k with micro := rest })) := by
  simp only [microEnd, hq, hst, hm, coreNow]
  exact if_neg (Nat.not_lt.mpr hlate)

theorem microEnd_faults {cause : Nat} {info : Word} (hm : microResult c r s = .fault m cause info) (hcause : cause ≠ 0x0D) :
    microEnd c s = faultHeld ⟨c, r.ctx⟩ cause info (m.s.updCore c (fun k => { k with micro := rest })) := by
  simp only [microEnd, hq, hst, hm, coreNow, if_neg hcause]
  exact if_neg (Nat.not_lt.mpr hlate)

end Sequencer

theorem customerInstructions : Claims.CustomerInstructions := by
  intro s t nn c r rest hnn s1 d
  refine ⟨fun h => ⟨fun hvalid hin hout hlvl => ?_, fun hvalid => ?_⟩,
    fun hq => ⟨fun h => ?_, fun st v hst hlate hi hout hv hargs hw => ?_, fun st a b hst hlate hi hout hargs hw => ?_,
      fun st m hst hm hlate => ?_, fun st m cause info hst hm hcause hlate => ?_⟩⟩
  · refine ⟨_, exec_ucnn_queues hnn h hvalid hin hout hlvl, ?_⟩
    have hctx : (queued t nn (operands s1 t (ucIn d)) s1).ctx t = s1.ctx t := by
      rw [queued, State.ctx, updCore_core]
      rfl
    rw [updCtx_ctx, updCtx_core, hctx, queued, updCore_core]
    exact ⟨rfl, firstIssue_ops .., rfl⟩
  · exact exec_ucnn_illegal hnn h hvalid
  · exact congrArg Host.Outcome.next (microStart_starts hq h)
  · obtain ⟨m, hm, hs, hcyc, hstk⟩ := microResult_literal hi hout hv hargs hw
    refine congrArg Host.Outcome.next ((microEnd_completes hq hst (by omega) hm).trans ?_)
    rw [hs, hstk, hout]
    rfl
  · obtain ⟨m, hm, hs, hcyc, hstk⟩ := microResult_add hi hout hargs hw
    refine congrArg Host.Outcome.next ((microEnd_completes hq hst (by omega) hm).trans ?_)
    rw [hs, hstk, hout]
    rfl
  · exact congrArg Host.Outcome.next (microEnd_completes hq hst hlate hm)
  · exact congrArg Host.Outcome.next (microEnd_faults hq hst hlate hm hcause)

/-- Settles O24: entries at a boundary (`interruptEntry_enters`, `injection_enters`), and a customer instruction from its issue
(`exec_ucnn_queues`) to the end of its sequence (`microEnd_completes`, `microEnd_faults`). -/
theorem interruptsAndCustomerInstructions : Obligations.InterruptsAndCustomerInstructions :=
  ⟨interruptsAndInjections, customerInstructions⟩

end Sys2Proof.CoreProofs
end

section
/-! PROOFS. O43: frames begin. -/

namespace Sys2Proof.ModuleProofs
open Sys2Proof Sys2Proof.Machine Sys2Proof.Laws

/-! ## Changes made at places one after the other -/

section Places

variable {α : Type} {f : α → State → State} {l : List α}

/-- What no place ends stays. -/
theorem forAll_keeps {Q : State → Prop} (hQ : ∀ a s, Q s → Q (f a s)) {s : State} (h : Q s) : Q (forAll l f s) :=
  List.foldlRecOn (motive := Q) l _ h fun u hu a _ => hQ a u hu

/-- What one of the places brings about, from what the others keep or bring about too, and what none ends, holds after all of them. -/
theorem forAll_reaches {P Q : State → Prop} (hP : ∀ b s, P s → P (f b s) ∨ Q (f b s)) (hQ : ∀ b s, Q s → Q (f b s)) {a : α}
    (ha : ∀ s, P s → Q (f a s)) (hl : a ∈ l) {s : State} (h : P s) : Q (forAll l f s) := by
  induction l generalizing s with
  | nil => cases hl
  | cons b r ih =>
    have hstep : forAll (b :: r) f s = forAll r f (f b s) := rfl
    rw [hstep]
    obtain rfl | hr := List.mem_cons.mp hl
    · exact forAll_keeps hQ (ha s h)
    · exact (hP b s h).elim (ih hr) (forAll_keeps hQ)

end Places

/-- The contexts of a core changed one after the other. -/
theorem forAll_updCtx {c : Nat} {g : Nat → Ctx → Ctx} {l : List Nat} (hl : l.Nodup) (s : State) (t : Thread) :
    (forAll l (fun i s => s.updCtx ⟨c, i⟩ (g i)) s).ctx t = if t.core = c ∧ t.ctx ∈ l then g t.ctx (s.ctx t) else s.ctx t := by
  induction l generalizing s with
  | nil => simp [forAll]
  | cons i r ih =>
    have hstep : forAll (i :: r) (fun i s => s.updCtx ⟨c, i⟩ (g i)) s =
        forAll r (fun i s => s.updCtx ⟨c, i⟩ (g i)) (s.updCtx ⟨c, i⟩ (g i)) := rfl
    obtain ⟨hi, hr⟩ := List.nodup_cons.mp hl
    rw [hstep, ih hr, updCtx_get]
    obtain ⟨d, j⟩ := t
    by_cases hd : d = c
    · subst hd
      by_cases hj : j = i
      · subst hj; simp [hi]
      · simp [hj, Ne.symm hj]
    · simp [hd, Ne.symm hd]

/-! ## C0 of a core at the start of a frame (R274) -/

/-- C0 of core `c` runs at `entry` with an empty operand stack. -/
def RunsAt (c : Nat) (entry : Word) (s : State) : Prop :=
  (s.ctx ⟨c, 0⟩).st = .run ∧ (s.ctx ⟨c, 0⟩).ops = [] ∧ (s.ctx ⟨c, 0⟩).pc = entry

/-- The entry point of a variant of a program. -/
def entryOf (g : Program) (v : Nat) : Word := word ((g.variants[v]?.map (·.entry)).getD 0)

/-- A context at the start of a frame but for C0's leaving PARK: the TFMT values of its position (R108). -/
def withTfmt (g : Program) (v pos i : Nat) (x : Ctx) : Ctx :=
  (List.range 4).foldl (fun (x : Ctx) n => x.setReg (0x024 + n) (tfmtFor g v pos i n &&& 0x1FFFFF#32)) { x with samples := 0 }

/-- C0 at the start of a frame. -/
def startedC0 (g : Program) (v pos : Nat) (x : Ctx) : Ctx :=
  if x.st = .park then { withTfmt g v pos 0 x with st := .run, lvl := .s, pc := entryOf g v, ops := [], rets := [], ldepth := 0 }
  else withTfmt g v pos 0 x

theorem startCore_c0 (q : Part) (g : Program) (v pos : Nat) (s : State) (c : Nat) :
    (startCore q g v pos s).ctx ⟨c, 0⟩ = if c = coreAt q pos then startedC0 g v pos (s.ctx ⟨c, 0⟩) else s.ctx ⟨c, 0⟩ := by
  unfold startCore
  dsimp only
  rw [forAll_updCtx List.nodup_range]
  simp only [List.mem_range, Nat.zero_lt_succ, and_true, true_and]
  rfl

theorem startedC0_of_park {x : Ctx} (h : x.st = .park) (g : Program) (v pos : Nat) :
    (startedC0 g v pos x).st = .run ∧ (startedC0 g v pos x).ops = [] ∧ (startedC0 g v pos x).pc = entryOf g v := by
  rw [startedC0, if_pos h]
  exact ⟨rfl, rfl, rfl⟩

theorem startedC0_of_run {x : Ctx} (h : x.st = .run) (g : Program) (v pos : Nat) :
    (startedC0 g v pos x).st = .run ∧ (startedC0 g v pos x).ops = x.ops ∧ (startedC0 g v pos x).pc = x.pc := by
  rw [startedC0, if_neg (by rw [h]; decide)]
  exact ⟨h, rfl, rfl⟩

/-- Every parked core of the partition begins, whichever positions name it. -/
theorem startCores_runsAt {q : Part} {g : Program} {v n i : Nat} {s : State} (hi : i < n) (h : (s.ctx ⟨coreAt q i, 0⟩).st = .park) :
    RunsAt (coreAt q i) (entryOf g v) (forAll (List.range n) (fun pos s => startCore q g v pos s) s) := by
  refine forAll_reaches (P := fun s => (s.ctx ⟨coreAt q i, 0⟩).st = .park) (fun pos u hu => ?_) (fun pos u hu => ?_)
    (fun u hu => ?_) (List.mem_range.mpr hi) h
  · rw [RunsAt, startCore_c0]
    split
    · exact .inr (startedC0_of_park hu g v pos)
    · exact .inl hu
  · obtain ⟨hst, hops, hpc⟩ := hu
    rw [RunsAt, startCore_c0]
    split
    · obtain ⟨hst', hops', hpc'⟩ := startedC0_of_run hst g v pos
      exact ⟨hst', hops'.trans hops, hpc'.trans hpc⟩
    · exact ⟨hst, hops, hpc⟩
  · rw [RunsAt, startCore_c0, if_pos rfl]
    exact startedC0_of_park hu g v i

/-! ## FRAME_START (R274, R322, R694, R695) -/

theorem nextFn_fn (q : Part) : (nextFn q).fn = if q.started then (q.fn + 1) % 2 ^ 32 else 0 := by
  unfold nextFn
  cases q.started <;> rfl

theorem nextFn_started (q : Part) : (nextFn q).started = true := by
  unfold nextFn
  cases q.started <;> rfl

section StartFrame

variable (p k : Nat) (s : State)

/-- The machine in which the variant has been chosen (R111) and the cores of the partition have been started. -/
def coresStarted : State :=
  forAll (List.range (4 * (s.part p).w * (s.part p).h)) (startCore (s.part p) ((s.part p).prog k) (chosen s p k))
    (s.updBench (leadOf (s.part p)) fun x => x.setR 0x4A00 (BitVec.ofNat 64 (setBits (x.r 0x4A00).toNat 10 8 (chosen s p k))))

theorem coresStarted_within : Within [.cores, .benches] s (coresStarted p k s) :=
  forAll_within (State_updBench_within (by decide) (.refl ..) _ _) fun _ _ hv => startCore_within (by decide) hv _ _ _ _

/-- A frame starts in the cores, in its partition and in the trace. -/
theorem startFrame_eq : ∃ f : Part → Part, startFrame p k s = traceFrame p k (chosen s p k) ((coresStarted p k s).updPart p f) ∧
    ∀ q, (f q).frame = .running ∧ (f q).begun = s.now ∧ (f q).fn = (nextFn q).fn ∧ (f q).started = true ∧ (f q).syncWait = none :=
  ⟨_, rfl, fun q => ⟨rfl, rfl, rfl, nextFn_started q, rfl⟩⟩

theorem traceFrame_part (v p' : Nat) (u : State) : (traceFrame p k v u).part p' = u.part p' :=
  part_of_within (traceFrame_within (List.Subset.refl _) (.refl ..) _ _ _) (by decide) p'

theorem startFrame_part :
    let u := (startFrame p k s).part p
    u.frame = .running ∧ u.begun = s.now ∧ u.fn = (nextFn (s.part p)).fn ∧ u.started = true ∧ u.syncWait = none := by
  obtain ⟨f, hf, hpart⟩ := startFrame_eq p k s
  rw [hf, traceFrame_part, updPart_part, part_of_within (coresStarted_within p k s) (by decide)]
  exact hpart _

theorem startFrame_part_ne {p' : Nat} (h : p ≠ p') : (startFrame p k s).part p' = s.part p' := by
  obtain ⟨f, hf, -⟩ := startFrame_eq p k s
  rw [hf, traceFrame_part, updPart_ne _ _ h, part_of_within (coresStarted_within p k s) (by decide)]

theorem startFrame_runsAt {i : Nat} (hi : i < 4 * (s.part p).w * (s.part p).h)
    (h : ((s.core (coreAt (s.part p) i)).ctx 0).st = .park) :
    RunsAt (coreAt (s.part p) i) (entryOf ((s.part p).prog k) (chosen s p k)) (startFrame p k s) := by
  obtain ⟨f, hf, -⟩ := startFrame_eq p k s
  have hcore : ∀ c, (startFrame p k s).ctx ⟨c, 0⟩ = (coresStarted p k s).ctx ⟨c, 0⟩ := fun c => by
    rw [hf]
    exact congrArg (Core.ctx · 0) (core_of_within (traceFrame_within (List.Subset.refl _) (.refl ..) _ _ _) (by decide) c)
  rw [RunsAt, hcore]
  exact startCores_runsAt hi h

/-- The count of missed edges (0x040) is none of the trace block's registers that a record changes. -/
theorem pushRecord_missed (b : Nat) (r lost : List Byte) (u : State) :
    tblGet (zeros 64) (pushRecord b r lost u).trc.reg 0x040 = tblGet (zeros 64) u.trc.reg 0x040 := by
  unfold pushRecord
  dsimp only
  split
  · rfl
  split
  · rfl
  · exact (tblGet_tblUpd (l := u.trc.reg) 0x038 0x040 fun v => counterAdd v 1).trans (if_neg (by decide))

theorem trace_missed (b core ctx type sub : Nat) (l : List Byte) (u : State) :
    tblGet (zeros 64) (trace b core ctx type sub l u).trc.reg 0x040 = tblGet (zeros 64) u.trc.reg 0x040 := by
  unfold trace
  dsimp only
  split
  · rfl
  split
  · exact pushRecord_missed ..
  · rfl

theorem startFrame_missed : tblGet (zeros 64) (startFrame p k s).trc.reg 0x040 = tblGet (zeros 64) s.trc.reg 0x040 := by
  obtain ⟨f, hf, -⟩ := startFrame_eq p k s
  rw [hf, traceFrame, trace_missed, updPart_trc, (coresStarted_within p k s).out .trc (by decide)]

end StartFrame

section FrameStart

variable {s : State} {p k : Nat}

/-- The first frame of a round of a synchronised partition is to wait for FRAME_SYNC (R695). -/
def WaitsForSync (s : State) (p k : Nat) : Prop :=
  synchronised s p = true ∧ newRound (s.part p) k = true ∧ (s.part p).synced = false

theorem frameDue_iff : frameDue s p = some k ↔ nextProg (s.part p) = some k ∧ partReady (s.part p) = true ∧ s.board.wetarOn = true ∧
    (s.part p).frame = .idle ∧ (s.part p).ramp = 1 ∧ (s.part p).cur = k + 1 ∧ (s.part p).marked = false := by
  unfold frameDue
  dsimp only
  split
  · next h => simp [h]
  · next j h =>
    rw [h]
    split
    · next hall =>
      simp only [Bool.and_eq_true, decide_eq_true_eq, Bool.not_eq_true'] at hall
      constructor
      · rintro ⟨⟩
        tauto
      · rintro ⟨h1, -⟩
        exact h1
    · next hall =>
      simp only [Bool.and_eq_true, decide_eq_true_eq, Bool.not_eq_true'] at hall
      constructor
      · nofun
      · rintro ⟨⟨⟩, hrest⟩
        exact absurd (by tauto) hall

theorem frameStart_none (h : frameDue s p = none) : frameStart p s = s := by rw [frameStart, h]

theorem frameStart_starts (h : frameDue s p = some k) (hw : ¬ WaitsForSync s p k) : frameStart p s = startFrame p k s := by
  have hif : ¬ (synchronised s p && newRound (s.part p) k && !(s.part p).synced) = true := by
    simpa [WaitsForSync, and_assoc] using hw
  simp only [frameStart, h, if_neg hif]

theorem frameStart_waits (h : frameDue s p = some k) (hw : WaitsForSync s p k) (hn : (s.part p).syncWait = none) :
    frameStart p s = s.updPart p (fun q => { q with syncWait := some (s.now / 2) }) := by
  obtain ⟨hsync, hround, hsynced⟩ := hw
  simp only [frameStart, h, hsync, hround, hsynced, hn]
  rfl

end FrameStart

/-! ## FRAME_SYNC_EDGE and FRAME_SYNC_MISS (R695, R696, R720) -/

/-- What the release of a wait does: the frame starts, or the wait is over and the partition is as it was. -/
theorem syncRelease_cases (p : Nat) (s : State) :
    syncRelease p s = s ∧ (s.part p).syncWait = none ∨
    ∃ u, u = s.updPart p (fun q => { q with synced := true, syncWait := none }) ∧
      (syncRelease p s = u ∨ ∃ k, syncRelease p s = startFrame p k u) := by
  unfold syncRelease
  split
  · refine .inr ⟨_, rfl, ?_⟩
    cases h : frameDue (s.updPart p fun q => { q with synced := true, syncWait := none }) p with
    | none => exact .inl (frameStart_none h)
    | some k => exact .inr ⟨k, frameStart_starts h fun hw => by
        have hsynced := hw.2.2
        rw [updPart_part] at hsynced
        cases hsynced⟩
  · next h => exact .inl ⟨rfl, Option.not_isSome_iff_eq_none.mp h⟩

theorem syncRelease_syncWait (p : Nat) (s : State) : ((syncRelease p s).part p).syncWait = none := by
  obtain ⟨h, hn⟩ | ⟨u, rfl, h | ⟨k, h⟩⟩ := syncRelease_cases p s
  · rw [h, hn]
  · rw [h, updPart_part]
  · rw [h]
    exact (startFrame_part ..).2.2.2.2

theorem syncRelease_part_ne {p p' : Nat} (hp : p ≠ p') (s : State) : (syncRelease p s).part p' = s.part p' := by
  obtain ⟨h, -⟩ | ⟨u, rfl, h | ⟨k, h⟩⟩ := syncRelease_cases p s
  · rw [h]
  · rw [h, updPart_ne _ _ hp]
  · rw [h, startFrame_part_ne _ _ _ hp, updPart_ne _ _ hp]

theorem syncRelease_missed (p : Nat) (s : State) :
    tblGet (zeros 64) (syncRelease p s).trc.reg 0x040 = tblGet (zeros 64) s.trc.reg 0x040 := by
  obtain ⟨h, -⟩ | ⟨u, rfl, h | ⟨k, h⟩⟩ := syncRelease_cases p s
  · rw [h]
  · rw [h, updPart_trc]
  · rw [h, startFrame_missed, updPart_trc]

/-- An edge that is not too soon after the last latches the timebase and ends every wait. -/
theorem frameSyncEdge_latches {s : State} (h : ∀ e, s.board.lastEdge = some e → e + 10000 ≤ s.tb) {p : Nat} (hp : p < 8) :
    (frameSyncEdge s).board.syncTb = s.tb ∧ (frameSyncEdge s).board.lastEdge = some s.tb ∧ ((frameSyncEdge s).part p).syncWait = none := by
  have hlatch : frameSyncEdge s = frameSyncEdge.latch s := by
    unfold frameSyncEdge
    split
    · next e he => exact if_neg (Nat.not_lt.mpr (h e he))
    · rfl
  have hboard : (frameSyncEdge.latch s).board = { s.board with syncTb := s.tb, lastEdge := some s.tb } :=
    (forAll_within (F := [.cores, .benches, .parts, .trc]) (.refl ..) fun _ _ hv => syncRelease_within (by decide) hv _).out .board (by decide)
  rw [hlatch, hboard]
  refine ⟨rfl, rfl, forAll_reaches (P := fun _ => True) (Q := fun u => (u.part p).syncWait = none) (fun _ _ _ => .inl trivial) (fun p' u hu => ?_)
    (fun u _ => syncRelease_syncWait p u) (List.mem_range.mpr hp) trivial⟩
  by_cases e : p' = p
  · subst e
    exact syncRelease_syncWait p' u
  · rw [syncRelease_part_ne e]
    exact hu

theorem frameSyncEdge_ignored {s : State} {e : Nat} (h : s.board.lastEdge = some e) (he : s.tb < e + 10000) : frameSyncEdge s = s := by
  simp only [frameSyncEdge, h, if_pos he]

theorem frameSyncMiss_counts {s : State} {p n : Nat} (h : (s.part p).syncWait = some n) (hn : n + 2 ^ 30 ≤ s.now / 2) :
    ((frameSyncMiss p s).part p).syncWait = none ∧
      tblGet (zeros 64) (frameSyncMiss p s).trc.reg 0x040 = counterAdd (tblGet (zeros 64) s.trc.reg 0x040) 1 := by
  have hmiss : frameSyncMiss p s =
      syncRelease p { s with trc := { s.trc with reg := tblUpd (zeros 64) s.trc.reg 0x040 (fun v => counterAdd v 1) } } := by
    unfold frameSyncMiss
    rw [h]
    exact if_pos hn
  rw [hmiss, syncRelease_missed]
  exact ⟨syncRelease_syncWait .., tblGet_tblUpd_same 0x040 fun v => counterAdd v 1⟩

theorem frameSyncMiss_waits {s : State} {p n : Nat} (h : (s.part p).syncWait = some n) (hn : s.now / 2 < n + 2 ^ 30) :
    frameSyncMiss p s = s := by
  unfold frameSyncMiss
  rw [h]
  exact if_neg (Nat.not_le.mpr hn)

theorem framesStart : Claims.FramesStart := by
  intro s p k n hp q waits
  have hstart : exec (.frameStart p) s = .next (frameStart p s) := congrArg Host.Outcome.next (if_pos hp)
  have hmiss : exec (.frameSyncMiss p) s = .next (frameSyncMiss p s) := congrArg Host.Outcome.next (if_pos hp)
  have hedge : exec .frameSyncEdge s = .next (if s.board.island then frameSyncEdge s else s) := rfl
  rw [hstart, hmiss, hedge]
  refine ⟨fun hn hr hw hi h1 hc hm => ?_, fun h => congrArg _ (frameStart_none ?_), fun hisl he => ?_, fun e he hsoon => ?_, fun hn =>
    ⟨fun hlate => ⟨_, rfl, frameSyncMiss_counts hn hlate⟩, fun hearly => congrArg _ (frameSyncMiss_waits hn hearly)⟩⟩
  · have hdue : frameDue s p = some k := frameDue_iff.mpr ⟨hn, hr, hw, hi, h1, hc, hm⟩
    refine ⟨fun hwait => ⟨_, rfl, ?_⟩, fun hwait hnone => congrArg _ (frameStart_waits hdue hwait hnone)⟩
    rw [frameStart_starts hdue hwait]
    obtain ⟨hframe, hbegun, hfn, hstarted, -⟩ := startFrame_part p k s
    exact ⟨hframe, hbegun, hfn.trans (nextFn_fn q), hstarted, fun i hi hpark => startFrame_runsAt p k s hi hpark⟩
  · refine Option.eq_none_iff_forall_ne_some.mpr fun j hj => ?_
    obtain ⟨hn, hr, -, hi, h1, -⟩ := frameDue_iff.mp hj
    obtain h | h | h | h := h
    · exact absurd (h.symm.trans hn) nofun
    · exact absurd (h.symm.trans hr) nofun
    · exact h hi
    · exact h h1
  · exact ⟨_, congrArg Host.Outcome.next (if_pos hisl), frameSyncEdge_latches he hp⟩
  · rw [frameSyncEdge_ignored he hsoon, ite_self]

end Sys2Proof.ModuleProofs
end

section
/-! PROOFS. O43: frames end, are discarded, and fall quiet. -/

namespace Sys2Proof.ModuleProofs
open Sys2Proof Sys2Proof.Machine Sys2Proof.Laws

/-! ## What the end of a job leaves of its partition's frame (R580, R581) -/

/-- `r` is the partition `q` with the same frame, turn and stop under way, its jobs having counted the same frames. -/
structure FrameKept (q r : Part) : Prop where
  frame : r.frame = q.frame
  turn : r.turn = q.turn
  discard : r.discard = q.discard
  frames : ∀ j, (r.prog j).job.frames = (q.prog j).job.frames

theorem prog_of_progs {q r : Part} (h : r.progs = q.progs) (j : Nat) : r.prog j = q.prog j := congrArg (tblGet progD · j) h

theorem FrameKept.of_fields {q r : Part} (hf : r.frame = q.frame) (ht : r.turn = q.turn) (hd : r.discard = q.discard)
    (hp : r.progs = q.progs) : FrameKept q r := ⟨hf, ht, hd, fun j => by rw [prog_of_progs hp j]⟩

theorem FrameKept.refl (q : Part) : FrameKept q q := ⟨rfl, rfl, rfl, fun _ => rfl⟩

theorem FrameKept.trans {q r w : Part} (h : FrameKept q r) (k : FrameKept r w) : FrameKept q w :=
  ⟨k.frame.trans h.frame, k.turn.trans h.turn, k.discard.trans h.discard, fun j => (k.frames j).trans (h.frames j)⟩

theorem updProg_get (q : Part) (k j : Nat) (f : Program → Program) : (q.updProg k f).prog j = if k = j then f (q.prog k) else q.prog j :=
  tblGet_tblUpd ..

theorem FrameKept.updProg {q : Part} {k : Nat} {f : Program → Program} (h : (f (q.prog k)).job.frames = (q.prog k).job.frames) :
    FrameKept q (q.updProg k f) := by
  refine ⟨rfl, rfl, rfl, fun j => ?_⟩
  rw [updProg_get]
  split
  · next e => rw [h, e]
  · rfl

theorem FrameKept.of_part {p : Nat} {s u : State} (h : u.part p = s.part p) : FrameKept (s.part p) (u.part p) := by
  rw [h]
  exact .refl _

theorem FrameKept.of_within {F : List Field} {p : Nat} {s u : State} (h : Within F s u) (hp : Field.parts ∉ F) :
    FrameKept (s.part p) (u.part p) := .of_part (part_of_within h hp p)

theorem updPart_kept {p : Nat} {f : Part → Part} (h : ∀ q, FrameKept q (f q)) (s : State) :
    FrameKept (s.part p) ((s.updPart p f).part p) := by
  rw [updPart_part]
  exact h _

theorem spinDown_kept (p : Nat) (s : State) : FrameKept (s.part p) ((spinDown p s).part p) ∧
    ∀ j, ((spinDown p s).part p).prog j = (s.part p).prog j := by
  unfold spinDown
  rw [updPart_part]
  split
  · exact ⟨.of_fields rfl rfl rfl rfl, prog_of_progs rfl⟩
  · exact ⟨.refl _, fun _ => rfl⟩

/-- The job of program `k` is over with a reason, and its partition's frame goes on. -/
structure JobOver (p k reason : Nat) (s u : State) : Prop where
  kept : FrameKept (s.part p) (u.part p)
  ended : ((u.part p).prog k).js = 4
  reason : ((u.part p).prog k).job.reason = reason

section JobEnd

variable {p k reason : Nat} {s u v : State}

theorem JobOver.of_within {F : List Field} (h : Within F u v) (hp : Field.parts ∉ F) (hu : JobOver p k reason s u) :
    JobOver p k reason s v := by
  have hpart := part_of_within h hp p
  exact ⟨hpart ▸ hu.kept, hpart ▸ hu.ended, hpart ▸ hu.reason⟩

theorem JobOver.spinDown (h : JobOver p k reason s u) : JobOver p k reason s (spinDown p u) := by
  obtain ⟨hkept, hprog⟩ := spinDown_kept p u
  refine ⟨h.kept.trans hkept, ?_, ?_⟩
  · rw [hprog]; exact h.ended
  · rw [hprog]; exact h.reason

theorem JobOver.of_updProg {f : Program → Program} (h : FrameKept (s.part p) (u.part p)) (hover : ∀ g, (f g).js = 4)
    (hreason : ∀ g, (f g).job.reason = reason) (hframes : ∀ g, (f g).job.frames = ((s.part p).prog k).job.frames) :
    JobOver p k reason s (u.updPart p fun q => q.updProg k f) := by
  refine ⟨h.trans ?_, ?_, ?_⟩
  · rw [updPart_part]
    exact .updProg ((hframes _).trans (h.frames k).symm)
  · rw [updPart_part, Part.updProg_prog]
    exact hover _
  · rw [updPart_part, Part.updProg_prog]
    exact hreason _

end JobEnd

theorem jobEnd_over (p k reason : Nat) (s : State) : JobOver p k reason s (jobEnd p k reason s) := by
  have htail : ∀ {u v : State}, Within [.welts, .fmn, .pwr] u v → JobOver p k reason s u → JobOver p k reason s v := fun h hu =>
    hu.of_within h (by decide)
  unfold jobEnd
  dsimp only
  refine htail (Within.ite (.refl ..) (respond_within (by decide) (.refl ..) _ _ _ _)) ?_
  refine htail (logEvent_within (by decide) (touch_within (by decide)
    (Within.ite (.refl ..) (logEvent_within (by decide) (.refl ..) _ _ _ _))) _ _ _ _) ?_
  refine .spinDown (.of_updProg ?_ (fun _ => rfl) (fun _ => rfl) fun _ => rfl)
  split
  · exact .of_within (F := [.benches]) (forAll_within (.refl ..) fun _ _ hv => State_updBench_within (by decide) hv _ _) (by decide)
  · rw [updPart_part]
    exact .updProg rfl

theorem endAll_kept (p reason : Nat) (s : State) : FrameKept (s.part p) ((endAll p reason s).part p) := by
  refine forAll_keeps (Q := fun u => FrameKept (s.part p) (u.part p)) (fun k u hu => ?_) (.refl _)
  split
  · exact hu.trans (jobEnd_over ..).kept
  · exact hu

theorem addFrameTime_kept (p : Nat) (s : State) :
    FrameKept (s.part p) ((addFrameTime p s).part p) ∧ ((addFrameTime p s).part p).cur = (s.part p).cur := by
  unfold addFrameTime
  rw [updPart_part]
  split
  · exact ⟨(FrameKept.updProg (k := (s.part p).cur - 1) (f := fun g => { g with ranNs := g.ranNs + (s.tb - (s.part p).frameAt) }) rfl).trans
      (.of_fields rfl rfl rfl rfl), rfl⟩
  · exact ⟨.refl _, rfl⟩

/-! ## FRAME_END (R275, R576) -/

theorem coreDone_iff {s : State} {c : Nat} : coreDone s c = true ↔
    (∀ i, i < 8 → (((s.core c).ctx i).st = .free ∨ ((s.core c).ctx i).st = .park ∨ ((s.core c).ctx i).st = .halt) ∧
      ((s.core c).ctx i).inject = none) ∧ (s.core c).reg 0x125 &&& (s.core c).reg 0x126 = 0 := by
  simp only [coreDone, Bool.and_eq_true, List.all_eq_true, List.mem_range, Bool.or_eq_true, decide_eq_true_eq, Option.isNone_iff_eq_none,
    or_assoc]

/-- After a frame is counted its job may be over, or every job of the partition (R576, R675). -/
def closeFrame (p k : Nat) (s : State) : State :=
  let fault := (List.range 16).any (fun i => decide (((s.part p).prog i).stopWhy = 4))
  let why := endReason ((s.part p).prog k)
  let s1 := if why ≠ 0 then jobEnd p k why s else s
  if fault then (endAll p 4 s1).updPart p (fun q => { q with faultReset := true }) else s1

theorem faultOwed_kept (q : Part) : FrameKept q { q with faultReset := true } := .of_fields rfl rfl rfl rfl

theorem closeFrame_kept (p k : Nat) (s : State) : FrameKept (s.part p) ((closeFrame p k s).part p) := by
  unfold closeFrame
  extract_lets fault why s1
  have hjob : FrameKept (s.part p) (s1.part p) := by
    unfold s1
    split
    · exact (jobEnd_over ..).kept
    · exact .refl _
  split
  · exact (hjob.trans (endAll_kept p 4 s1)).trans (updPart_kept faultOwed_kept (endAll p 4 s1))
  · exact hjob

/-- The running frame is over and counts in its job. -/
structure FrameCounted (now : Nat) (q r : Part) : Prop where
  frame : r.frame = .quiet now
  turn : r.turn = (q.cur - 1 + 1) % 16
  frames : (r.prog (q.cur - 1)).job.frames = (q.prog (q.cur - 1)).job.frames + 1

/-- A partition whose running frame is over and has been counted in program `k`. -/
def countFrame (now k : Nat) (f : Program → Program) (q : Part) : Part := { q.updProg k f with frame := .quiet now, turn := (k + 1) % 16 }

theorem countFrame_prog (now k : Nat) (f : Program → Program) (q : Part) : (countFrame now k f q).prog k = f (q.prog k) :=
  Part.updProg_prog ..

theorem frameEnd_counts {s : State} {p : Nat} (hf : (s.part p).frame = .running) (hd : (s.part p).discard = 0)
    (hall : ∀ c, c ∈ coresOf s p → coreDone s c = true) :
    ∃ u, frameEnd p s = closeFrame p ((s.part p).cur - 1) u ∧ FrameCounted s.now (s.part p) (u.part p) := by
  have hdone : ¬ ((s.part p).frame ≠ .running ∨ (coresOf s p).all (coreDone s) = false) := by
    rw [List.all_eq_true.mpr hall]
    simp [hf]
  have hafter : ∀ {u v : State}, Within [.fmn, .benches] u v → FrameCounted s.now (s.part p) (u.part p) →
      FrameCounted s.now (s.part p) (v.part p) := fun h hu => part_of_within h (by decide) p ▸ hu
  unfold frameEnd
  dsimp only
  rw [if_neg (not_not.mpr hd), if_neg hdone]
  refine ⟨_, rfl, hafter (forAll_within (Within.ite (logMerged_within (by decide) (.refl ..) _ _ _ _) (.refl ..)) fun _ _ hv =>
    abortAll_within (by decide) hv _) ?_⟩
  rw [updPart_part]
  refine ⟨rfl, rfl, (congrArg (·.job.frames) (countFrame_prog s.now ((s.part p).cur - 1) _ ((addFrameTime p s).part p))).trans ?_⟩
  exact congrArg (· + 1) ((addFrameTime_kept p s).1.frames _)

theorem frameEnd_ends {s : State} {p : Nat} (hf : (s.part p).frame = .running) (hd : (s.part p).discard = 0)
    (hall : ∀ c, c ∈ coresOf s p → coreDone s c = true) : FrameCounted s.now (s.part p) ((frameEnd p s).part p) := by
  obtain ⟨u, hend, hframe, hturn, hframes⟩ := frameEnd_counts hf hd hall
  have hkept := closeFrame_kept p ((s.part p).cur - 1) u
  rw [hend]
  exact ⟨hkept.frame.trans hframe, hkept.turn.trans hturn, (hkept.frames _).trans hframes⟩

theorem frameEnd_waits {s : State} {p c : Nat} (hd : (s.part p).discard = 0) (hc : c ∈ coresOf s p) (h : coreDone s c ≠ true) :
    frameEnd p s = s := by
  have hall : (coresOf s p).all (coreDone s) = false :=
    Bool.eq_false_iff.mpr fun ht => h (List.all_eq_true.mp ht c hc)
  unfold frameEnd
  dsimp only
  rw [if_neg (not_not.mpr hd), if_pos (.inr hall)]

/-! ## The discard of a frame (R577, R739) -/

/-- The contexts of a stopped frame are left as R739 gives, and the quiet period begins. -/
def stoppedFrame (p : Nat) (s : State) : State :=
  (forCtxs p discardCtx (addFrameTime p s)).updPart p (fun q => { q with frame := .quiet s.now, turn := q.cur % 16, discard := 0 })

theorem frameEnd_discards {s : State} {p : Nat} (hf : (s.part p).frame = .running) (hd : (s.part p).discard = 3)
    (hstop : ∀ c, c ∈ coresOf s p → ∀ i, i < 8 → ((s.core c).ctx i).st ≠ .run) :
    frameEnd p s = jobEnd p ((s.part p).cur - 1) 3 (stoppedFrame p s) := by
  have hstopped : threadsStopped s p = true := List.all_eq_true.mpr fun c hc => List.all_eq_true.mpr fun i hi =>
    decide_eq_true (hstop c hc i (List.mem_range.mp hi))
  simp [frameEnd, finishDiscard, hf, hd, hstopped, stoppedFrame]

/-! ## QUIET_PERIOD_END (R323) -/

theorem quietEnd_settled {s : State} {p n : Nat} (hf : (s.part p).frame = .quiet n) (hs : settled s p = true)
    (hc : ∀ c, c ∈ coresOf s p → coreStill s c = true) (hb : ∀ b, b ∈ benchesOf s p → queueDrains s b = false) :
    quietEnd p s = if n + 64 ≤ s.now then s.updPart p (fun q => { q with frame := .idle, idx := (s.now - q.begun) % 2 ^ q.plog }) else s := by
  have hcores : (coresOf s p).all (coreStill s) = true := List.all_eq_true.mpr hc
  have hbenches : (benchesOf s p).all (fun b => !queueDrains s b) = true := List.all_eq_true.mpr fun b h => by rw [hb b h]; rfl
  simp only [quietEnd, hf, hs, hcores, hbenches, Bool.and_true, decide_eq_true_eq]

theorem framesEnd : Claims.FramesEnd := by
  intro s p n hp q done
  have hend : exec (.frameEnd p) s = .next (frameEnd p s) := congrArg Host.Outcome.next (if_pos hp)
  have hquiet : exec (.quietPeriodEnd p) s = .next (quietEnd p s) := congrArg Host.Outcome.next (if_pos hp)
  rw [hend, hquiet]
  refine ⟨fun hf hd hall => ?_, fun hd c hc h => congrArg _ (frameEnd_waits hd hc fun ht => h (coreDone_iff.mp ht)),
    fun hf hd hstop => ?_, fun hf hs hc hb => ?_⟩
  · obtain ⟨hframe, hturn, hframes⟩ := frameEnd_ends hf hd fun c hc => coreDone_iff.mpr (hall c hc)
    exact ⟨_, rfl, hframe, hturn, hframes⟩
  · obtain ⟨hkept, hended, hreason⟩ := jobEnd_over p (q.cur - 1) 3 (stoppedFrame p s)
    rw [frameEnd_discards hf hd hstop]
    have hpart : ((stoppedFrame p s).part p).frame = .quiet s.now ∧ ((stoppedFrame p s).part p).discard = 0 := by
      rw [stoppedFrame, updPart_part]
      exact ⟨rfl, rfl⟩
    exact ⟨_, rfl, hkept.frame.trans hpart.1, hkept.discard.trans hpart.2, hended, hreason⟩
  · rw [quietEnd_settled hf hs hc hb]
    exact ⟨fun h => by rw [if_pos h], fun h => by rw [if_neg (Nat.not_le.mpr h)]⟩

/-- Settles O43: a start is `startFrame_part` and `startFrame_runsAt`, which every release of a wait comes to (`syncRelease_cases`); an
end counts the frame (`frameEnd_counts`), and the end of a job keeps what the frame has become (`jobEnd_over`). -/
theorem framesStartAndEnd : Obligations.FramesStartAndEnd := ⟨framesStart, framesEnd⟩

end Sys2Proof.ModuleProofs
end

section
/-! PROOFS. O38: PPOST, PSTAT and PABORT. -/

namespace Sys2Proof.PorterProofs
open Sys2Proof Sys2Proof.Machine Sys2Proof.Laws Sys2Proof.CoreProofs

/-! ## Descriptor slots (R413) -/

@[simp] theorem updSlotOf_slotOf (s : State) (c i : Nat) (f : Slot → Slot) : (s.updSlotOf c i f).slotOf c i = f (s.slotOf c i) := by
  rw [State.updSlotOf, State.slotOf, updBench_bench, Bench.updSlot_slot]
  rfl

/-! ## Naming a slot (R279, R280) -/

/-- A named unit is the thread's already, or the thread takes it. -/
theorem nameUnit_cases {t : Thread} {res u : Nat} {dest : Bool} {s s1 : State} (h : nameUnit t res u dest s = some s1) :
    s1 = s ∨ ∃ f : Core → Core, s1 = s.updCore t.core f ∧ ∀ k, (f k).ctxs = k.ctxs := by
  unfold nameUnit at h
  dsimp only at h
  split at h
  · split at h
    · exact .inl (Option.some.inj h).symm
    · cases h
  split at h
  · exact .inl (Option.some.inj h).symm
  split at h
  · cases h
  split at h
  · exact .inl (Option.some.inj h).symm
  split at h
  · cases h
  · refine .inr ⟨_, (Option.some.inj h).symm, fun k => ?_⟩
    split <;> rfl

theorem nameUnit_ctx {t v : Thread} {res u : Nat} {dest : Bool} {s s1 : State} (h : nameUnit t res u dest s = some s1) :
    s1.ctx v = s.ctx v := by
  obtain rfl | ⟨f, rfl, hf⟩ := nameUnit_cases h
  · rfl
  · rw [State.ctx, updCore_get]
    split
    · next hc => rw [Core.ctx, hf, hc]; rfl
    · rfl

theorem nameUnit_slotOf {t : Thread} {res u : Nat} {dest : Bool} {s s1 : State} (h : nameUnit t res u dest s = some s1) (c i : Nat) :
    s1.slotOf c i = s.slotOf c i := by
  obtain rfl | ⟨f, rfl, -⟩ := nameUnit_cases h <;> rfl

theorem nameUnit_of_mask {t : Thread} {k : Nat} {s : State} (dest : Bool) (hd : dynamic s t.core = false)
    (hm : bit (maskOf s t.core (classOf s t) 3) k = true) : nameUnit t 3 k dest s = some s := by
  simp [nameUnit, hd, inMask, hm]

theorem nameUnit_of_owner {t : Thread} {k : Nat} {s : State} (dest : Bool) (hd : dynamic s t.core = true)
    (ho : ownerOf (s.core t.core) 3 k = t.ctx + 1) : nameUnit t 3 k dest s = some s := by
  simp [nameUnit, hd, ho]

theorem withSlot_named {t : Thread} {i : Nat} {dest : Bool} {s s1 : State} (h : nameUnit t 3 i dest s = some s1) (k : State → Out) :
    withSlot t i dest s k = k s1 := by rw [withSlot, h]

/-! ## PPOST (R417, R508) -/

theorem localRead_correct {t : Thread} {a n : Nat} {s : State} (h : uncorrectable s (localBase t.core + a) n = none)
    (k : List Byte → State → Out) :
    localRead t a n s k = k (memBytes s.mem (localBase t.core + a) n) (noteRead (localBase t.core + a) n s) := by rw [localRead, h]

section Ppost

variable {s : State} {t : Thread} {i daddr : Word} (hr : Runs t 2 ⟨2, 1, 0, 0⟩ s) (hl : operands (firstIssue t s) t 2 = [i, daddr])

include hr hl

theorem ppost_shareFault (hn : nameUnit t 3 (i.toNat % 16) true (firstIssue t s) = none) :
    ppost t s = fault t 0x0B (shareInfo 3 (i.toNat % 16)) (s.ctx t).pc false (firstIssue t s) := by
  refine issue_faults hr rfl ?_
  rw [hl]
  simp [withSlot, arg, hn]

variable {s2 : State} (hn : nameUnit t 3 (i.toNat % 16) true (firstIssue t s) = some s2)
  (ha : daddr.toNat / 32 * 32 + 32 ≤ 0x100000) (hp : permitted (s2.ctx t) 0 (daddr.toNat / 32 * 32) 32 = true)

include hn ha hp

theorem ppost_leaves (hst : (s2.slotOf t.core (i.toNat % 16)).state ≠ 0) :
    ppost t s = complete t 2 2 [1] 0 [] none (firstIssue t s) := by
  rw [nameUnit_ctx hn] at hp
  rw [nameUnit_slotOf hn] at hst
  refine issue_pushes hr rfl hl ?_
  simp [withSlot, arg, hn, Nat.not_lt.mpr ha, hp, hst]

/-- The descriptor of 32 bytes at `a` of the local memory, and whether its reserved fields are 0. -/
def descAt (s : State) (t : Thread) (a : Nat) : Slot × Bool := parseDesc (memBytes s.mem (localBase t.core + a) 32) t.ctx

/-- What a posted descriptor leaves in its slot, by the WHY of its checks. -/
def postedSlot (x : Slot) (why order now : Nat) : Slot :=
  if why = 0 then { x with order := order, posted := now } else { x with order := order, posted := now, state := 6, why := why }

theorem ppost_posts (hst : (s2.slotOf t.core (i.toNat % 16)).state = 0)
    (hu : uncorrectable s2 (localBase t.core + daddr.toNat / 32 * 32) 32 = none) :
    let s3 := noteRead (localBase t.core + daddr.toNat / 32 * 32) 32 s2
    let d := descAt s2 t (daddr.toNat / 32 * 32)
    ppost t s = complete t 2 2 [0] 0 [] none ((freshSerial s3).2.updSlotOf t.core (i.toNat % 16) fun _ =>
      postedSlot d.1 (descWhy s3 t.core d.1 d.2) (freshSerial s3).1 s.now) := by
  rw [nameUnit_ctx hn] at hp
  rw [nameUnit_slotOf hn] at hst
  refine issue_pushes hr rfl hl ?_
  have hargs : arg [i, daddr] 0 = i ∧ arg [i, daddr] 1 = daddr := ⟨rfl, rfl⟩
  dsimp only
  rw [hargs.1, hargs.2, withSlot_named hn, if_neg (fun h => h.elim (Nat.not_lt.mpr ha) (by simp [hp])), if_neg (not_not.mpr hst),
    localRead_correct hu, firstIssue_now]
  rfl

end Ppost

/-! ## PSTAT and PABORT (R418, R419, R423) -/

section Status

variable {s : State} {t : Thread} {i : Word} (hl : operands (firstIssue t s) t 1 = [i])
  (hn : nameUnit t 3 (i.toNat % 16) false (firstIssue t s) = some (firstIssue t s))

include hl hn

theorem pstat_answers (hr : Runs t 2 ⟨1, 2, 0, 0⟩ s) :
    let x := (firstIssue t s).slotOf t.core (i.toNat % 16)
    pstat t s = complete t 2 1 [porterStatus x, word x.counted] 0 [] none
      (if 4 ≤ x.state then emptySlot t.core (i.toNat % 16) (firstIssue t s) else firstIssue t s) := by
  refine issue_pushes hr rfl hl ?_
  simp [withSlot, arg, hn]

theorem pabort_answers (hr : Runs t 2 ⟨1, 1, 0, 0⟩ s) :
    let st := ((firstIssue t s).slotOf t.core (i.toNat % 16)).state
    pabort t s = complete t 2 1 [if st = 4 then 1 else if 1 ≤ st ∧ st ≤ 3 ∨ st = 5 then 2 else 0] 0 [] none
      (abortDesc t.core (i.toNat % 16) (firstIssue t s)) := by
  refine issue_pushes hr rfl hl ?_
  simp [withSlot, arg, hn]

end Status

end Sys2Proof.PorterProofs
end

section
/-! PROOFS. O38: descriptors from their start to their end. -/

namespace Sys2Proof.PorterProofs
open Sys2Proof Sys2Proof.Machine Sys2Proof.Laws Sys2Proof.CoreProofs

/-! ## Which descriptor a slot of a connection or of a stream serves (R420, R509) -/

/-- The 64 descriptor slots of a bench. -/
def benchSlots (b : Nat) : List (Nat × Nat) := (List.range 64).map (fun k => (4 * b + k / 16, k % 16))

theorem mem_benchSlots {b : Nat} {q : Nat × Nat} : q ∈ benchSlots b ↔ benchOf q.1 = b ∧ q.2 < 16 := by
  obtain ⟨c, i⟩ := q
  simp only [benchSlots, List.mem_map, List.mem_range, Prod.mk.injEq, benchOf]
  constructor
  · rintro ⟨k, hk, rfl, rfl⟩
    omega
  · rintro ⟨rfl, hi⟩
    exact ⟨c % 4 * 16 + i, by omega, by omega, by omega⟩

theorem benchSlots_nodup (b : Nat) : (benchSlots b).Nodup := by
  refine List.nodup_range.map_on fun k _ k' _ h => ?_
  simp only [Prod.mk.injEq] at h
  omega

/-- Of the slots of a bench, the one that passes. -/
theorem filter_benchSlots {b : Nat} {q : Nat × Nat} {p : Nat × Nat → Bool} (hq : q ∈ benchSlots b) (hp : p q = true)
    (h : ∀ r, r ∈ benchSlots b → r ≠ q → p r = false) : (benchSlots b).filter p = [q] := by
  have hone : (benchSlots b).filter p = (benchSlots b).filter (fun r => decide (r = q)) := List.filter_congr fun r hr => by
    by_cases e : r = q
    · rw [e, hp, decide_eq_true rfl]
    · rw [h r hr e, decide_eq_false e]
  rw [hone, List.filter_eq, List.count_eq_one_of_mem (benchSlots_nodup b) hq]
  rfl

theorem oldest_of_filter {s : State} {p : Slot → Bool} {l : List (Nat × Nat)} {q : Nat × Nat}
    (h : l.filter (fun q => p (s.slotOf q.1 q.2)) = [q]) : oldest s p l = some q := by
  rw [oldest, h]
  rfl

theorem oldest_none {s : State} {p : Slot → Bool} {l : List (Nat × Nat)} (h : ∀ q, q ∈ l → p (s.slotOf q.1 q.2) = false) :
    oldest s p l = none := by
  rw [oldest, List.filter_eq_nil_iff.mpr fun q hq => by rw [h q hq]; exact Bool.false_ne_true]
  rfl

theorem oldest_mem {s : State} {p : Slot → Bool} {l : List (Nat × Nat)} {q : Nat × Nat} (h : oldest s p l = some q) : q ∈ l := by
  have hall : ∀ r, oldest s p l = some r → r ∈ l := by
    unfold oldest
    refine List.foldlRecOn (motive := fun best => ∀ r, best = some r → r ∈ l) _ _ nofun fun best hbest r hr => ?_
    have hmem : r ∈ l := List.mem_of_mem_filter hr
    split
    · rintro _ ⟨⟩; exact hmem
    · split
      · rintro _ ⟨⟩; exact hmem
      · exact hbest
  exact hall q h

section Start

variable {s : State} {c i n : Nat}

/-- No other descriptor of the bench is queued or running. -/
def Alone (s : State) (c i : Nat) : Prop :=
  ∀ c' i', benchOf c' = benchOf c → i' < 16 → (c', i') ≠ (c, i) → (s.slotOf c' i').state ≠ 1 ∧ (s.slotOf c' i').state ≠ 2

/-- The oldest of the bench's active descriptors is the only one. -/
theorem oldest_alone {p : Slot → Bool} {m : Nat × Nat → Bool} (hi : i < 16) (h : Alone s c i)
    (hp : ∀ x : Slot, p x = true → x.state = 1 ∨ x.state = 2) (hown : p (s.slotOf c i) = true) (hm : m (c, i) = true) :
    oldest s p ((benchSlots (benchOf c)).filter m) = some (c, i) := by
  refine oldest_of_filter ?_
  rw [List.filter_filter]
  refine filter_benchSlots (mem_benchSlots.mpr ⟨rfl, hi⟩) (by rw [hown, hm]; rfl) fun r hr hne => ?_
  obtain ⟨hb, h16⟩ := mem_benchSlots.mp hr
  obtain ⟨h1, h2⟩ := h r.1 r.2 hb h16 hne
  have hpr : p (s.slotOf r.1 r.2) = false := Bool.eq_false_iff.mpr fun ht => (hp _ ht).elim h1 h2
  rw [hpr]
  rfl

theorem slotDesc_alone (hi : i < 16) (h1 : (s.slotOf c i).state = 1) (hcls : (s.slotOf c i).cls = 0 ∨ (s.slotOf c i).cls = 3)
    (hconn : (s.slotOf c i).conn = n) (hposted : (s.slotOf c i).posted + 16 ≤ s.now) (h : Alone s c i) :
    slotDesc s (benchOf c) n = some ((c, i), true) := by
  have hrunning : oldest s (fun x => decide (x.state = 2) && decide (x.sent < x.len)) (onConn s (benchOf c) n) = none := by
    refine oldest_none fun q hq => ?_
    obtain ⟨hb, h16⟩ := mem_benchSlots.mp (List.mem_of_mem_filter hq)
    have h2 : (s.slotOf q.1 q.2).state ≠ 2 := by
      by_cases e : q = (c, i)
      · rw [e, h1]; decide
      · exact (h q.1 q.2 hb h16 e).2
    rw [decide_eq_false h2]
    rfl
  have hqueued : oldest s (fun x => decide (x.state = 1)) (onConn s (benchOf c) n) = some (c, i) :=
    oldest_alone hi h (fun x hx => .inl (of_decide_eq_true hx)) (decide_eq_true h1) (by simp [hcls, hconn])
  simp only [slotDesc, hrunning, hqueued, if_pos hposted]

/-- A descriptor that a slot starts is on the slot's connection, and its 16 mesh cycles have passed. -/
theorem slotDesc_starts {b : Nat} {q : Nat × Nat} (h : slotDesc s b n = some (q, true)) :
    (s.slotOf q.1 q.2).conn = n ∧ (s.slotOf q.1 q.2).posted + 16 ≤ s.now := by
  unfold slotDesc at h
  dsimp only at h
  split at h
  · split at h <;> cases h
  split at h
  · next hq =>
    split at h
    · next hposted =>
      cases h
      have hmem := (List.mem_filter.mp (oldest_mem hq)).2
      simp only [Bool.and_eq_true, decide_eq_true_eq] at hmem
      exact ⟨hmem.2, hposted⟩
    · cases h
  · cases h

/-! ## DESCRIPTOR_START and DESCRIPTOR_ABORTED (R420, R424) -/

/-- The descriptor runs. -/
def running (c i : Nat) (s : State) : State := s.updSlotOf c i (fun x => { x with state := 2 })

variable (hc : c < 512) (hi : i < 16)

include hc hi

theorem exec_descriptorStart : exec (.descriptorStart c i) s = .next (descriptorStart c i s) :=
  congrArg Host.Outcome.next (if_pos ⟨hc, hi⟩)

theorem exec_descriptorAborted : exec (.descriptorAborted c i) s = .next (descriptorAborted c i s) :=
  congrArg Host.Outcome.next (if_pos ⟨hc, hi⟩)

end Start

theorem descriptorStart_connected {s : State} {c i n : Nat} (h1 : (s.slotOf c i).state = 1)
    (hcls : (s.slotOf c i).cls = 0 ∨ (s.slotOf c i).cls = 3) (hn : injects s (benchOf c) = some n) :
    descriptorStart c i s = if slotDesc s (benchOf c) n = some ((c, i), true) then running c i s else s := by
  have hc1 : (s.slotOf c i).cls ≠ 1 := by omega
  have hc2 : (s.slotOf c i).cls ≠ 2 := by omega
  simp [descriptorStart, running, h1, hn, hc1, hc2]

theorem descriptorStart_stream {s : State} {c i n id w : Nat} (h1 : (s.slotOf c i).state = 1) (h2 : (s.slotOf c i).cls = 2)
    (hn : injects s (benchOf c) = some n) (hs : streamOn s (benchOf c) n = some (id, w)) (hid : remoteSend (s.slotOf c i).remote = id)
    (hposted : (s.slotOf c i).posted + 16 ≤ s.now) (hleft : (s.slotOf c i).sent < (s.slotOf c i).len) (hi : i < 16) (h : Alone s c i) :
    descriptorStart c i s = running c i s := by
  have hfirst : oldest s (fun y => (decide (y.state = 1) || decide (y.state = 2)) && decide (y.sent < y.len)) (onStream s (benchOf c) id) =
      some (c, i) :=
    oldest_alone hi h (fun x hx => by simp only [Bool.and_eq_true, Bool.or_eq_true, decide_eq_true_eq] at hx; exact hx.1)
      (by simp [h1, hleft]) (by simp [h2, hid])
  simp [descriptorStart, running, h1, h2, hn, hs, hid, hfirst, hposted]

theorem descriptorStart_ring {s : State} {c i : Nat} (h1 : (s.slotOf c i).state = 1) (h2 : (s.slotOf c i).cls = 1)
    (hf : inFrame s (benchOf c) = true) : descriptorStart c i s = ringNext c i (running c i s) := by
  simp [descriptorStart, running, h1, h2, hf]

/-! ## Ring-class moves (R414) -/

/-- Where an address of a descriptor leads does not depend on the descriptors. -/
theorem portMap_running (s : State) (c i b a : Nat) (wr : Bool) : portMap (running c i s) b a wr = portMap s b a wr := by
  have hr : ∀ d o, ((running c i s).bench d).r o = (s.bench d).r o := fun d o => by
    rw [running, State.updSlotOf, updBench_get]
    split
    · next h => rw [h]; rfl
    · rfl
  have hmapped : ∀ m, mapped (running c i s) m = mapped s m := fun m => by
    unfold mapped waysOf
    simp only [hr]
    rfl
  have htranslate : Machine.translate (running c i s) b a = Machine.translate s b a := by
    unfold Machine.translate
    simp only [hr]
  unfold portMap relocate
  simp only [hmapped, htranslate]
  rfl

/-- A ring-class move whose source is no memory of the module sends a read. -/
theorem ringNext_reads {s : State} {c i a d : Nat} (hsend : sending (s.slotOf c i) = true) (hcls : (s.slotOf c i).cls = 1)
    (hout : (s.slotOf c i).out = 0) (ht : tier (s.slotOf c i).src ≠ some 2)
    (hsrc : portMap s (benchOf c) ((s.slotOf c i).src + (s.slotOf c i).sent) false = some a)
    (hdst : portMap s (benchOf c) ((s.slotOf c i).dst + (s.slotOf c i).sent) true = some d) :
    ringNext c i s = ringAccess (benchOf c) a false [] (.porter c i (s.slotOf c i).sent)
      (s.updSlotOf c i fun x => { x with sent := x.sent + ringPiece (s.slotOf c i) (s.slotOf c i).sent, out := 1 }) := by
  simp [ringNext, hsend, hcls, hout, ht, hsrc, hdst]

theorem ringAccess_packet (b a : Nat) (wr : Bool) (l : List Byte) (u : Use) (s : State) :
    ∃ k, (ringAccess b a wr l u s).ring = s.ring ++ [k] ∧ k.src = rowStop b := ⟨_, rfl, rfl⟩

theorem descriptorStart_sends {s : State} {c i : Nat} (h1 : (s.slotOf c i).state = 1) (h2 : (s.slotOf c i).cls = 1)
    (hf : inFrame s (benchOf c) = true) (hleft : (s.slotOf c i).sent < (s.slotOf c i).len) (hfault : (s.slotOf c i).fault = 0)
    (hout : (s.slotOf c i).out = 0) (ht : tier (s.slotOf c i).src ≠ some 2)
    (hsrc : (portMap s (benchOf c) ((s.slotOf c i).src + (s.slotOf c i).sent) false).isSome)
    (hdst : (portMap s (benchOf c) ((s.slotOf c i).dst + (s.slotOf c i).sent) true).isSome) :
    ∃ k, ((descriptorStart c i s).slotOf c i).state = 2 ∧ ((descriptorStart c i s).slotOf c i).out = 1 ∧
      (descriptorStart c i s).ring = s.ring ++ [k] ∧ k.src = rowStop (benchOf c) := by
  obtain ⟨a, ha⟩ := Option.isSome_iff_exists.mp hsrc
  obtain ⟨d, hd⟩ := Option.isSome_iff_exists.mp hdst
  have hslot : (running c i s).slotOf c i = { s.slotOf c i with state := 2 } := updSlotOf_slotOf ..
  have hsend : sending ((running c i s).slotOf c i) = true := by rw [hslot]; simp [sending, hleft, hfault]
  have hreads := ringNext_reads (s := running c i s) (a := a) (d := d) hsend (by rw [hslot]; exact h2) (by rw [hslot]; exact hout)
    (by rw [hslot]; exact ht) (by rw [hslot, portMap_running]; exact ha) (by rw [hslot, portMap_running]; exact hd)
  rw [descriptorStart_ring h1 h2 hf, hreads]
  obtain ⟨k, hk, hstop⟩ := ringAccess_packet (benchOf c) a false [] (.porter c i ((running c i s).slotOf c i).sent)
    ((running c i s).updSlotOf c i fun x =>
      { x with sent := x.sent + ringPiece ((running c i s).slotOf c i) ((running c i s).slotOf c i).sent, out := 1 })
  have hafter : ∀ v l u, (ringAccess (benchOf c) a false l u v).slotOf c i = v.slotOf c i := fun _ _ _ => rfl
  refine ⟨k, ?_, ?_, hk, hstop⟩
  · rw [hafter, updSlotOf_slotOf, hslot]
  · rw [hafter, updSlotOf_slotOf]

/-! ## The count of what has landed (R363, R422) -/

theorem act_slotOf (b o n : Nat) (s : State) (c i : Nat) : (act b o n s).slotOf c i = s.slotOf c i := by
  rw [State.slotOf, act, updBench_get]
  split
  · next h => rw [h]; rfl
  · rfl

theorem settleDesc_complete {s : State} {c i : Nat} (h2 : (s.slotOf c i).state = 2) (hout : (s.slotOf c i).out = 0)
    (hfault : (s.slotOf c i).fault = 0) (hsent : (s.slotOf c i).sent = (s.slotOf c i).len) :
    settleDesc c i s = s.updSlotOf c i (fun x => { x with state := 4 }) := by
  simp [settleDesc, h2, hout, hfault, hsent]

theorem landed_last {s : State} {c i n : Nat} (h2 : (s.slotOf c i).state = 2) (hfault : (s.slotOf c i).fault = 0)
    (hten : (s.slotOf c i).ten = false) (hout : (s.slotOf c i).out = 1) (hsent : (s.slotOf c i).sent = (s.slotOf c i).len) :
    ((landed c i n s).slotOf c i).counted = (s.slotOf c i).counted + n ∧ ((landed c i n s).slotOf c i).state = 4 := by
  have hslot : (act (benchOf c) 0x6848 n (s.updSlotOf c i fun x => { x with counted := x.counted + n, out := x.out - 1 })).slotOf c i =
      { s.slotOf c i with counted := (s.slotOf c i).counted + n, out := 0 } := by
    rw [act_slotOf, updSlotOf_slotOf, hout]
  have hlanded : landed c i n s = (act (benchOf c) 0x6848 n (s.updSlotOf c i fun x =>
      { x with counted := x.counted + n, out := x.out - 1 })).updSlotOf c i (fun x => { x with state := 4 }) := by
    simp only [landed, hten, Bool.false_eq_true, if_false]
    exact settleDesc_complete (by rw [hslot]; exact h2) (by rw [hslot]) (by rw [hslot]; exact hfault) (by rw [hslot]; exact hsent)
  rw [hlanded, updSlotOf_slotOf, hslot]
  exact ⟨rfl, rfl⟩

theorem descriptorsRun : Claims.DescriptorsRun := by
  intro s c i n id w hc hi x alone run
  rw [exec_descriptorStart hc hi, exec_descriptorAborted hc hi]
  refine ⟨fun h1 hcls hn => ?_, fun h1 h2 hn hs hid hposted hleft h => ?_, fun h1 h2 hf hleft hfault hout ht hsrc hdst => ?_,
    fun h3 hout => congrArg _ (if_pos ⟨h3, hout⟩), fun h => congrArg _ (if_neg (by tauto)), fun h2 hfault hten hout hlen hsent => ?_⟩
  · rw [descriptorStart_connected h1 hcls hn]
    refine ⟨fun hconn hposted h => ?_, fun h => ?_⟩
    · rw [if_pos (slotDesc_alone hi h1 hcls hconn hposted h)]
      rfl
    · rw [if_neg fun hstart => ?_]
      obtain ⟨hconn, hposted⟩ := slotDesc_starts hstart
      exact h.elim (· hconn) (Nat.not_lt.mpr hposted)
  · exact congrArg _ (descriptorStart_stream h1 h2 hn hs hid hposted hleft hi h)
  · obtain ⟨k, hk⟩ := descriptorStart_sends h1 h2 hf hleft hfault hout ht hsrc hdst
    exact ⟨_, k, rfl, hk⟩
  · obtain ⟨hcounted, hstate⟩ := landed_last (n := n) h2 hfault hten hout hsent
    exact ⟨hcounted.trans hlen, hstate⟩

/-! ## O38: PPOST names a slot that nobody holds and that is not EMPTY -/

/-- C0 of core 0 runs in dynamic share mode, may hold one slot and holds none; slot 0 of its core, which nobody holds, is not EMPTY. -/
def unheldSlotQueued : State :=
  { State.reset with
    cores := [(0, { Core.reset with sr := [(0x12B, 1), (0x12E, 0x8000)], ctxs := [(0, { Ctx.reset 0 with st := .run, ops := [0, 0] })] })]
    benches := [(0, { Bench.reset with slots := [(0, { Slot.reset with state := 1 })] })] }

/-- The same with slot 0 acquired. -/
def unheldSlotTaken : State := unheldSlotQueued.updCore 0 (fun k => { k with slotOwn := [(0, 1)] })

theorem unheldSlotQueued_runs : Runs ⟨0, 0⟩ 2 ⟨2, 1, 0, 0⟩ unheldSlotQueued := by
  refine ⟨?_, ?_, ?_, ?_, ?_, ?_⟩ <;> decide +kernel

theorem ppost_acquires_nothing : ∃ u, exec (.ppost ⟨0, 0⟩) unheldSlotQueued = .next u ∧ (u.core 0).slotOwn = [] :=
  ⟨_, rfl, by decide +kernel⟩

theorem not_porterInstructions : ¬ Claims.PorterInstructions := by
  intro h
  obtain ⟨_, _, hpost, _⟩ := h unheldSlotQueued unheldSlotTaken ⟨0, 0⟩ 0 0
  obtain ⟨_, hnamed⟩ := hpost unheldSlotQueued_runs (by decide +kernel)
  obtain ⟨hleaves, _⟩ := hnamed (by decide +kernel) (by decide +kernel) (by decide +kernel)
  obtain ⟨u, hu, hown⟩ := ppost_acquires_nothing
  rw [← Host.Outcome.next.inj ((hleaves (by decide +kernel)).symm.trans hu)] at hown
  exact absurd hown (by decide +kernel)

/-- Refutes O38: for a slot that is not EMPTY it has PPOST go on from the machine in which the named slot is acquired, where R417 says
that nothing changes and PPOST acquires no slot (`unheldSlotQueued`). The rest of it holds: `nameUnit_of_mask`, `nameUnit_of_owner`,
`ppost_shareFault`, `ppost_posts`, `pstat_answers` and `pabort_answers` of the instructions, `ppost_leaves` of the slot that is not
EMPTY, and `descriptorsRun`. -/
theorem not_portersAndDescriptors : ¬ Obligations.PortersAndDescriptors := fun h => not_porterInstructions h.1

end Sys2Proof.PorterProofs
end

section
/-! PROOFS. O23: exception entries and lockups. -/

namespace Sys2Proof.CoreProofs
open Sys2Proof Sys2Proof.Machine Sys2Proof.Laws Sys2Proof.ModuleProofs

/-! ## What a trace record leaves of a bench (R698) -/

theorem pushRecord_bench_reg (b d : Nat) (r lost : List Byte) (s : State) : ((pushRecord b r lost s).bench d).reg = (s.bench d).reg := by
  have hupd : ∀ f : Bench → Bench, (∀ x, (f x).reg = x.reg) → ((s.updBench b f).bench d).reg = (s.bench d).reg := fun f hf => by
    rw [updBench_get]
    split
    · next h => rw [hf, h]
    · rfl
  unfold pushRecord
  dsimp only
  split
  · exact hupd _ fun _ => rfl
  split
  · exact hupd _ fun _ => rfl
  · exact hupd (fun x => { x with traceLost := (s.bench b).traceLost + 1 }) fun _ => rfl

theorem trace_bench_reg (b d core ctx type sub : Nat) (l : List Byte) (s : State) :
    ((trace b core ctx type sub l s).bench d).reg = (s.bench d).reg := by
  unfold trace
  dsimp only
  split
  · rfl
  split
  · exact pushRecord_bench_reg ..
  · rfl

/-! ## Lockup (R307, R309) -/

/-- The count of a thread's spin cycles changes nothing of a context but where the count stands. -/
theorem countSpin_ctx (t v : Thread) (stop : Bool) (s : State) :
    (countSpin t stop s).ctx v = { s.ctx v with spinFrom := ((countSpin t stop s).ctx v).spinFrom } := by
  unfold countSpin
  split
  · rfl
  · dsimp only
    rw [updCtx_get]
    split
    · next h => subst h; rfl
    · rfl

/-- A context of a core that locks up. -/
def lockCtx (c i : Nat) (s : State) : State :=
  (countSpin ⟨c, i⟩ true s).updCtx ⟨c, i⟩ (fun x => { x with st := .lock, wait := .none, heldPops := 0, heldLen := 0, muls := [] })

/-- The context is in LOCK with the operand stack `l`. -/
def LockedWith (v : Thread) (l : List Word) (s : State) : Prop := (s.ctx v).st = .lock ∧ (s.ctx v).ops = l

theorem lockCtx_ops (c i : Nat) (v : Thread) (s : State) : ((lockCtx c i s).ctx v).ops = (s.ctx v).ops := by
  rw [lockCtx, updCtx_get]
  split
  · next h => rw [h, countSpin_ctx]
  · rw [countSpin_ctx]

theorem lockCtx_same (c i : Nat) (s : State) : ((lockCtx c i s).ctx ⟨c, i⟩).st = .lock := by rw [lockCtx, updCtx_ctx]

theorem lockCtx_keeps {c i : Nat} {v : Thread} {l : List Word} {s : State} (h : LockedWith v l s) : LockedWith v l (lockCtx c i s) := by
  obtain ⟨hst, hops⟩ := h
  refine ⟨?_, (lockCtx_ops ..).trans hops⟩
  rw [lockCtx, updCtx_get]
  split
  · rfl
  · rw [countSpin_ctx]
    exact hst

/-- The contexts of a core after a lockup. -/
theorem lockCtxs_locked (c : Nat) {i : Nat} (hi : i < 8) (s : State) :
    LockedWith ⟨c, i⟩ (s.ctx ⟨c, i⟩).ops (forAll (List.range 8) (lockCtx c) s) := by
  refine forAll_reaches (P := fun u => (u.ctx ⟨c, i⟩).ops = (s.ctx ⟨c, i⟩).ops) (Q := LockedWith ⟨c, i⟩ (s.ctx ⟨c, i⟩).ops)
    (a := i) (fun j u hu => .inl ((lockCtx_ops c j ..).trans hu)) (fun j u => lockCtx_keeps) (fun u hu => ?_) (List.mem_range.mpr hi) rfl
  exact ⟨lockCtx_same .., (lockCtx_ops ..).trans hu⟩

/-- What BENCH_LOCK of a core holds after a failed entry. -/
def lockWord (t : Thread) (lvl why vec : Nat) (pc : Word) : Dword :=
  BitVec.ofNat 64 (1 + t.ctx * 2 + lvl * 2 ^ 4 + why * 2 ^ 6 + vec * 2 ^ 8 + pc.toNat * 2 ^ 32)

/-- The contexts of the core are locked, and BENCH_LOCK is written. -/
def lockedCore (t : Thread) (lvl why vec : Nat) (pc : Word) (s : State) : State :=
  (forAll (List.range 8) (lockCtx t.core) (s.updCore t.core fun k => { k with tops := [], micro := [] })).updBench (benchOf t.core)
    fun x => x.setR (0x4C00 + t.core % 4 * 8) (lockWord t lvl why vec pc)

/-- The lockup counts in its job and is traced. -/
def lockTraced (t : Thread) (lvl why vec : Nat) (info pc : Word) (s : State) : State :=
  trace (benchOf t.core) t.core t.ctx 5 4 (faultPayload vec lvl pc info)
    (jobOfCore t.core (fun j => { j with lockups := j.lockups + 1 }) (lockedCore t lvl why vec pc s))

theorem lockup_eq (t : Thread) (lvl why vec : Nat) (info pc : Word) (s : State) :
    ∃ p l, lockup t lvl why vec info pc s = lockWire (logEvent 6 p 2 l (lockTraced t lvl why vec info pc s)) := by
  unfold lockup
  dsimp only
  exact ⟨_, _, rfl⟩

theorem lockLogged_within {F : List Field} {s u : State} (hF : [Field.fmn, Field.board] ⊆ F) (h : Within F s u) (p : Nat) (l : List Byte) :
    Within F s (lockWire (logEvent 6 p 2 l u)) :=
  have hboard : [Field.board] ⊆ F := fun _ m => hF (List.mem_cons_of_mem _ m)
  have hfmn : [Field.fmn] ⊆ F := List.cons_subset.mpr ⟨hF List.mem_cons_self, List.nil_subset F⟩
  lockWire_within hboard (logEvent_within hfmn h ..)

section Lockup

variable (t : Thread) (lvl why vec : Nat) (info pc : Word) (s : State)

theorem lockedCore_locked {i : Nat} (hi : i < 8) :
    LockedWith ⟨t.core, i⟩ (s.ctx ⟨t.core, i⟩).ops (lockedCore t lvl why vec pc s) := by
  have hstart : (s.updCore t.core fun k => { k with tops := [], micro := [] }).ctx ⟨t.core, i⟩ = s.ctx ⟨t.core, i⟩ := by
    rw [State.ctx, updCore_core]
    rfl
  have hlock := lockCtxs_locked t.core hi (s.updCore t.core fun k => { k with tops := [], micro := [] })
  rw [hstart] at hlock
  rw [LockedWith, lockedCore, updBench_ctx]
  exact hlock

theorem lockup_locked {i : Nat} (hi : i < 8) :
    LockedWith ⟨t.core, i⟩ (s.ctx ⟨t.core, i⟩).ops (lockup t lvl why vec info pc s) := by
  obtain ⟨p, l, heq⟩ := lockup_eq t lvl why vec info pc s
  have hwithin : Within [.benches, .parts, .fmn, .trc, .board] (lockedCore t lvl why vec pc s) (lockup t lvl why vec info pc s) := by
    rw [heq]
    exact lockLogged_within (by decide) (trace_within (by decide) (jobOfCore_within (by decide) (.refl ..) ..) ..) ..
  have hcore := core_of_within hwithin (by decide) t.core
  have hctx : (lockup t lvl why vec info pc s).ctx ⟨t.core, i⟩ = (lockedCore t lvl why vec pc s).ctx ⟨t.core, i⟩ := by
    rw [State.ctx, hcore]
    rfl
  rw [LockedWith, hctx]
  exact lockedCore_locked t lvl why vec pc s hi

theorem lockup_mem : (lockup t lvl why vec info pc s).mem = s.mem :=
  (lockup_within (List.Subset.refl _) (.refl ..) ..).out .mem (by decide)

theorem lockup_register :
    ((lockup t lvl why vec info pc s).bench (benchOf t.core)).r (0x4C00 + t.core % 4 * 8) = lockWord t lvl why vec pc := by
  obtain ⟨p, l, heq⟩ := lockup_eq t lvl why vec info pc s
  have hreg : ((lockup t lvl why vec info pc s).bench (benchOf t.core)).reg = ((lockedCore t lvl why vec pc s).bench (benchOf t.core)).reg := by
    rw [heq, bench_of_within (lockLogged_within (List.Subset.refl _) (.refl ..) p l) (by decide), lockTraced, trace_bench_reg,
      bench_of_within (jobOfCore_within (List.Subset.refl _) (.refl ..) _ _) (by decide)]
  rw [Bench.r, hreg, ← Bench.r, lockedCore, updBench_bench, Bench.setR_r]

end Lockup

/-! ## The checks of an entry (R287, R289, R291) -/

/-- The address of a vector of a level in local memory. -/
def vecAddr (c lvl vec : Nat) (s : State) : Nat := ((s.core c).reg (areaRegs lvl).2.2.2).toNat + 8 * vec

/-- The two words of a vector. -/
def vecHandler (c lvl vec : Nat) (s : State) : Word := memWord s.mem (localBase c + vecAddr c lvl vec s)
def vecFlags (c lvl vec : Nat) (s : State) : Nat := (memWord s.mem (localBase c + vecAddr c lvl vec s + 4)).toNat

/-- The machine at the start of an entry: the thread's multiplies have completed and its reservation is given up. -/
def entryStart (t : Thread) (s : State) : State := s.updCtx t (fun x => { settleAll x with resv := none })

/-- The machine once the frame is in the save area. -/
def frameWritten (t : Thread) (lvl vec : Nat) (info pc : Word) (d : Bool) (prev : Nat) (s : State) : State :=
  write (localBase t.core + (((entryStart t s).ctx t).reg (areaRegs lvl).2.1).toNat)
    (wordsBytes (frameWords (entryStart t s) t pc vec info d true prev)) (entryStart t s)

/-- The machine once a fault of a vector below 0x10 is traced too. -/
def frameSaved (t : Thread) (lvl vec : Nat) (info pc : Word) (d : Bool) (prev : Nat) (s : State) : State :=
  let s1 := frameWritten t lvl vec info pc d prev s
  if vec < 0x10 then trace (benchOf t.core) t.core t.ctx 5 2 (faultPayload vec (lvlN ((entryStart t s).ctx t).lvl) pc info) s1 else s1

/-- A context at the first instruction of a handler. -/
def handlerCtx (lvl vec : Nat) (info : Word) (d : Bool) (handler : Word) (hold : Nat) (x : Ctx) : Ctx :=
  { (((((x.setReg (areaRegs lvl).2.1 (x.reg (areaRegs lvl).2.1 + 256)).setReg 0x041 (word (vec + b2n d * 2 ^ 8))).setReg 0x042 info).setReg
      0x04D (x.reg 0x04D &&& ~~~(0x200000#32))).setReg 0 (x.reg 2)).setReg 3 (x.reg 5) with
    lvl := lvlOf lvl, pc := handler, ops := [], rets := [], ldepth := 0, st := .run, hold := none,
    holdLen := if hold = 0 then none else some hold, wait := .none, heldPops := 0, heldLen := 0, spinFrom := none }

theorem settleAll_get {n : Nat} (h0 : n ≠ 0x020) (h1 : n ≠ 0x021) (x : Ctx) : (settleAll x).reg n = x.reg n := by
  unfold settleAll settle
  split
  · rfl
  · exact (Ctx.setReg_get ..).trans ((if_neg (Ne.symm h1)).trans ((Ctx.setReg_get ..).trans (if_neg (Ne.symm h0))))

theorem entryStart_coreReg (t : Thread) (c n : Nat) (s : State) : ((entryStart t s).core c).reg n = (s.core c).reg n := by
  rw [entryStart, TileProofs.updCtx_cores, Core.reg, Core.reg]

theorem entryStart_reg {n : Nat} (h0 : n ≠ 0x020) (h1 : n ≠ 0x021) (t : Thread) (s : State) :
    ((entryStart t s).ctx t).reg n = (s.ctx t).reg n := by
  rw [entryStart, updCtx_ctx]
  exact settleAll_get h0 h1 _

/-- Core cycles of the hold window that an entry opens (R293). -/
def entryHold (c lvl vec : Nat) (s : State) : Nat := min (bits (vecFlags c lvl vec s) 9 0) (((s.core c).reg 0x124).toNat % 1024)

theorem enter_eq (t : Thread) (lvl vec : Nat) (info pc : Word) (d : Bool) (prev : Nat) (s : State) :
    enter t lvl vec info pc d prev s =
      if 0x100000 < vecAddr t.core lvl vec (entryStart t s) + 8 then lockup t lvl 2 vec info pc s
      else if bit (vecFlags t.core lvl vec (entryStart t s)) 31 = false ∨ bits (vecFlags t.core lvl vec (entryStart t s)) 30 10 ≠ 0 ∨
          0x100000 ≤ (vecHandler t.core lvl vec (entryStart t s)).toNat then lockup t lvl 3 vec info pc s
      else if (((entryStart t s).ctx t).reg (areaRegs lvl).2.2.1).toNat < (((entryStart t s).ctx t).reg (areaRegs lvl).2.1).toNat + 256 then
        lockup t lvl 1 vec info pc s
      else
        (frameSaved t lvl vec info pc d prev s).updCtx t
          (handlerCtx lvl vec info d (vecHandler t.core lvl vec (entryStart t s)) (entryHold t.core lvl vec (entryStart t s))) := by
  unfold enter
  rfl

section Entry

variable {t : Thread} {lvl vec : Nat} {s : State}

theorem vecAddr_entryStart (t : Thread) (c lvl vec : Nat) (s : State) : vecAddr c lvl vec (entryStart t s) = vecAddr c lvl vec s := by
  rw [vecAddr, entryStart_coreReg, vecAddr]

theorem vecHandler_entryStart (t : Thread) (c lvl vec : Nat) (s : State) : vecHandler c lvl vec (entryStart t s) = vecHandler c lvl vec s := by
  rw [vecHandler, vecAddr_entryStart, vecHandler]
  rfl

theorem vecFlags_entryStart (t : Thread) (c lvl vec : Nat) (s : State) : vecFlags c lvl vec (entryStart t s) = vecFlags c lvl vec s := by
  rw [vecFlags, vecAddr_entryStart, vecFlags]
  rfl

/-- The vector is valid: its entry is in local memory, and its handler too. -/
structure ValidVector (c lvl vec : Nat) (s : State) : Prop where
  valid : bit (vecFlags c lvl vec s) 31 = true
  reserved : bits (vecFlags c lvl vec s) 30 10 = 0
  handler : (vecHandler c lvl vec s).toNat < 0x100000

theorem areaRegs_ne (lvl : Nat) : ∀ n, n = (areaRegs lvl).2.1 ∨ n = (areaRegs lvl).2.2.1 → n ≠ 0x020 ∧ n ≠ 0x021 := by
  unfold areaRegs
  split <;> simp

theorem entryStart_ptr (t : Thread) (lvl : Nat) (s : State) :
    ((entryStart t s).ctx t).reg (areaRegs lvl).2.1 = (s.ctx t).reg (areaRegs lvl).2.1 :=
  have ⟨h0, h1⟩ := areaRegs_ne lvl _ (.inl rfl)
  entryStart_reg h0 h1 t s

theorem entryStart_lim (t : Thread) (lvl : Nat) (s : State) :
    ((entryStart t s).ctx t).reg (areaRegs lvl).2.2.1 = (s.ctx t).reg (areaRegs lvl).2.2.1 :=
  have ⟨h0, h1⟩ := areaRegs_ne lvl _ (.inr rfl)
  entryStart_reg h0 h1 t s

variable (info pc : Word) (d : Bool) (prev : Nat)

theorem enter_outOfRange (h : 0x100000 < vecAddr t.core lvl vec s + 8) :
    enter t lvl vec info pc d prev s = lockup t lvl 2 vec info pc s := by
  rw [enter_eq, vecAddr_entryStart, if_pos h]

theorem enter_invalid (h : vecAddr t.core lvl vec s + 8 ≤ 0x100000) (hv : ¬ ValidVector t.core lvl vec s) :
    enter t lvl vec info pc d prev s = lockup t lvl 3 vec info pc s := by
  rw [enter_eq, vecAddr_entryStart, vecFlags_entryStart, vecHandler_entryStart, if_neg (Nat.not_lt.mpr h), if_pos]
  by_contra hn
  push Not at hn
  obtain ⟨hvalid, hreserved, hhandler⟩ := hn
  exact hv ⟨by simpa using hvalid, hreserved, hhandler⟩

section Valid

variable (h : vecAddr t.core lvl vec s + 8 ≤ 0x100000) (hv : ValidVector t.core lvl vec s)

include h hv

theorem enter_valid : enter t lvl vec info pc d prev s =
    if ((s.ctx t).reg (areaRegs lvl).2.2.1).toNat < ((s.ctx t).reg (areaRegs lvl).2.1).toNat + 256 then lockup t lvl 1 vec info pc s
    else (frameSaved t lvl vec info pc d prev s).updCtx t
      (handlerCtx lvl vec info d (vecHandler t.core lvl vec s) (entryHold t.core lvl vec (entryStart t s))) := by
  obtain ⟨hvalid, hreserved, hhandler⟩ := hv
  rw [enter_eq, vecAddr_entryStart, vecFlags_entryStart, vecHandler_entryStart, if_neg (Nat.not_lt.mpr h), if_neg, entryStart_ptr, entryStart_lim]
  simp [hvalid, hreserved, hhandler]

end Valid

end Entry

/-! ## Failed entries (R291) -/

theorem failedEntryLocksTheCore : Claims.FailedEntryLocksTheCore := by
  intro s t lvl vec info pc d prev hlvl hvec hctx ptr lim va w1 h locked u
  have hlocked : ∀ why, u = lockup t lvl why vec info pc s → locked why u := fun why hu => hu ▸
    ⟨fun i hi => lockup_locked t lvl why vec info pc s hi, lockup_mem .., lockup_register ..⟩
  have hva : va = vecAddr t.core lvl vec s := by obtain rfl | rfl := hlvl <;> rfl
  have hw1 : w1 = vecFlags t.core lvl vec s := by unfold w1; rw [hva]; rfl
  have hh : h = (vecHandler t.core lvl vec s).toNat := by unfold h; rw [hva]; rfl
  have hptr : ptr = (areaRegs lvl).2.1 ∧ lim = (areaRegs lvl).2.2.1 := by obtain rfl | rfl := hlvl <;> exact ⟨rfl, rfl⟩
  obtain ⟨hptr, hlim⟩ := hptr
  rw [hva, hw1, hh, hptr, hlim]
  refine ⟨fun hout => hlocked 2 (enter_outOfRange info pc d prev hout), fun hin hbad => hlocked 3 (enter_invalid info pc d prev hin ?_),
    fun hin hvalid hres hhan hfull => hlocked 1 ?_⟩
  · rintro ⟨hvalid, hres, hhan⟩
    rw [hvalid] at hbad
    exact hbad.elim nofun fun h => h.elim (· hres) (Nat.not_le.mpr hhan)
  · exact (enter_valid info pc d prev hin ⟨hvalid, hres, hhan⟩).trans (if_pos hfull)

/-! ## Words in memory -/

theorem wordsBytes_length (l : List Word) : (wordsBytes l).length = 4 * l.length := by
  rw [wordsBytes, List.length_flatMap, List.map_congr_left (g := fun _ => 4) fun w _ => leBytes_length ..]
  simp [Nat.mul_comm]

theorem memPut_append (m : Mem) (a : Nat) (l r : List Byte) : memPut m a (l ++ r) = memPut (memPut m a l) (a + l.length) r := by
  induction l generalizing m a with
  | nil => rfl
  | cons b l ih => rw [List.cons_append, memPut, ih, memPut, List.length_cons, Nat.add_right_comm, Nat.add_assoc]

theorem memWord_wordsBytes {l : List Word} {i : Nat} {w : Word} (h : l[i]? = some w) (m : Mem) (a : Nat) :
    memWord (memPut m a (wordsBytes l)) (a + 4 * i) = w := by
  induction l generalizing m a i with
  | nil => cases h
  | cons v r ih =>
    have hcons : wordsBytes (v :: r) = leBytes v.toNat 4 ++ wordsBytes r := rfl
    rw [hcons, memPut_append, leBytes_length]
    cases i with
    | zero =>
      obtain rfl := Option.some.inj h
      exact (memWord_memPut_apart _ _ _ _ (.inl (Nat.le_refl _))).trans (memWord_memPut ..)
    | succ j =>
      rw [show a + 4 * (j + 1) = a + 4 + 4 * j by omega]
      exact ih h ..

/-! ## The entry (R286, R287, R290, R293) -/

/-- CORE_XCAUSE of a cause (R290). -/
theorem causeWord (cause : Nat) (d : Bool) : word (cause + b2n d * 2 ^ 8) = BitVec.ofNat 32 (cause + if d then 256 else 0) := by
  cases d <;> rfl

theorem clearResv_none {c l0 l1 : Nat} {t : Thread} {s : State} (h : (s.ctx t).resv = none) : ((clearResv c l0 l1 s).ctx t).resv = none := by
  unfold clearResv
  dsimp only
  split
  · refine List.foldlRecOn (motive := fun u : State => (u.ctx t).resv = none) _ _ h fun u hu i _ => ?_
    dsimp only
    split
    · rw [updCtx_get]
      split
      · rfl
      · exact hu
    · exact hu
  · exact h

/-- A write makes no reservation. -/
theorem write_resv_none {a : Nat} {l : List Byte} {t : Thread} {s : State} (h : (s.ctx t).resv = none) : ((write a l s).ctx t).resv = none := by
  have hcore : ∀ {F : List Field} {u v : State}, Within F u v → Field.cores ∉ F → (u.ctx t).resv = none → (v.ctx t).resv = none :=
    fun hw hF hu => by
      rw [State.ctx, core_of_within hw hF]
      exact hu
  have hbytes : ∀ m : List (Byte × Bool), (((if s.bad = [] then { s with mem := memPutMask s.mem a m } else eccWrite s a m) : State).ctx t).resv =
      none := fun m => by
    split
    · exact h
    · exact hcore (eccWrite_within (List.Subset.refl _) (.refl ..) a m) (by decide) h
  unfold write writeMask
  dsimp only
  refine hcore (actLines_within (List.Subset.refl _) (.refl ..) _ _) (by decide) ?_
  split
  · exact clearResv_none (hbytes _)
  · exact hbytes _

theorem frameWords_length {s : State} {t : Thread} (hops : (s.ctx t).ops.length ≤ 16) (hrets : (s.ctx t).rets.length ≤ 16)
    (pc : Word) (cause : Nat) (info : Word) (d m : Bool) (prev : Nat) : (frameWords s t pc cause info d m prev).length = 64 := by
  simp [frameWords, hwWords]
  omega

theorem handlerCtx_reg (lvl vec n : Nat) (info : Word) (d : Bool) (handler : Word) (hold : Nat) (x : Ctx) :
    (handlerCtx lvl vec info d handler hold x).reg n =
      if n = 3 then x.reg 5 else if n = 0 then x.reg 2 else if n = 0x04D then x.reg 0x04D &&& ~~~(0x200000#32)
      else if n = 0x042 then info else if n = 0x041 then word (vec + b2n d * 2 ^ 8)
      else if n = (areaRegs lvl).2.1 then x.reg (areaRegs lvl).2.1 + 256 else x.reg n := by
  have hsr : (handlerCtx lvl vec info d handler hold x).reg n =
      ((((((x.setReg (areaRegs lvl).2.1 (x.reg (areaRegs lvl).2.1 + 256)).setReg 0x041 (word (vec + b2n d * 2 ^ 8))).setReg 0x042 info).setReg
        0x04D (x.reg 0x04D &&& ~~~(0x200000#32))).setReg 0 (x.reg 2)).setReg 3 (x.reg 5)).reg n := rfl
  rw [hsr, Ctx.setReg_get, Ctx.setReg_get, Ctx.setReg_get, Ctx.setReg_get, Ctx.setReg_get, Ctx.setReg_get]
  simp only [eq_comm]

section Saved

variable {t : Thread} {lvl vec : Nat} {s : State} (info pc : Word) (d : Bool) (prev : Nat)

theorem frameSaved_within : Within [.benches, .trc] (frameWritten t lvl vec info pc d prev s) (frameSaved t lvl vec info pc d prev s) :=
  Within.ite (trace_within (List.Subset.refl _) (.refl ..) ..) (.refl ..)

theorem entryStart_ctx (hm : (s.ctx t).muls = []) : (entryStart t s).ctx t = { s.ctx t with resv := none } := by
  rw [entryStart, updCtx_ctx, settleAll, settle, if_pos hm]

theorem frameSaved_ctx (hm : (s.ctx t).muls = []) :
    (frameSaved t lvl vec info pc d prev s).ctx t = { s.ctx t with resv := none } := by
  have hwrite := (TileProofs.write_resvOnly (localBase t.core + (((entryStart t s).ctx t).reg (areaRegs lvl).2.1).toNat)
    (wordsBytes (frameWords (entryStart t s) t pc vec info d true prev)) (entryStart t s)).ctxs t
  rw [write_resv_none (by rw [entryStart_ctx hm]), entryStart_ctx hm] at hwrite
  rw [State.ctx, core_of_within (frameSaved_within ..) (by decide), ← State.ctx, frameWritten, entryStart_ctx hm]
  exact hwrite

theorem frameSaved_core_ne (hp : ((s.ctx t).reg (areaRegs lvl).2.1).toNat < 0x100000) {c : Nat} (h : c ≠ t.core) :
    (frameSaved t lvl vec info pc d prev s).core c = s.core c := by
  rw [core_of_within (frameSaved_within ..) (by decide), frameWritten, entryStart_ptr,
    write_core_ne (fun e he => by rw [coreOfAddr_local hp he]; exact h), entryStart, updCtx_core_ne _ _ _ (Ne.symm h)]

theorem frameSaved_mem (hbad : s.bad = []) : (frameSaved t lvl vec info pc d prev s).mem =
    memPut s.mem (localBase t.core + ((s.ctx t).reg (areaRegs lvl).2.1).toNat)
      (wordsBytes (frameWords (entryStart t s) t pc vec info d true prev)) := by
  rw [(frameSaved_within ..).out .mem (by decide), frameWritten, (TileProofs.write_clean (s := entryStart t s) hbad ..).1, entryStart_ptr]
  rfl

end Saved

section Entered

variable {t : Thread} {lvl vec : Nat} {s : State} (h : vecAddr t.core lvl vec s + 8 ≤ 0x100000) (hv : ValidVector t.core lvl vec s)
  (hroom : ((s.ctx t).reg (areaRegs lvl).2.1).toNat + 256 ≤ ((s.ctx t).reg (areaRegs lvl).2.2.1).toNat)
  (hm : (s.ctx t).muls = []) (info pc : Word) (d : Bool) (prev : Nat)

include h hv hroom

theorem enter_enters : enter t lvl vec info pc d prev s = (frameSaved t lvl vec info pc d prev s).updCtx t
    (handlerCtx lvl vec info d (vecHandler t.core lvl vec s) (entryHold t.core lvl vec (entryStart t s))) := by
  rw [enter_valid _ _ _ _ h hv, if_neg (Nat.not_lt.mpr hroom)]

/-- The other cores are as they were, for a save area in local memory. -/
theorem enter_core_ne (hlim : ((s.ctx t).reg (areaRegs lvl).2.2.1).toNat ≤ 0x100000) {c : Nat} (hc : c ≠ t.core) :
    (enter t lvl vec info pc d prev s).core c = s.core c := by
  rw [enter_enters h hv hroom, updCtx_core_ne _ _ _ (Ne.symm hc)]
  exact frameSaved_core_ne _ _ _ _ (by omega) hc

include hm

/-- The thread at the handler: its stacks are empty and begin at their pointers, and the pointer of the save area is raised. -/
theorem enter_ctx (hlvl : lvl = 1 ∨ lvl = 2) :
    let y := (enter t lvl vec info pc d prev s).ctx t
    y.pc = vecHandler t.core lvl vec s ∧ y.lvl = lvlOf lvl ∧ y.st = .run ∧ y.ops = [] ∧ y.rets = [] ∧ y.ldepth = 0 ∧ y.wait = .none ∧
    y.resv = none ∧ y.reg 0x041 = BitVec.ofNat 32 (vec + if d then 256 else 0) ∧ y.reg 0x042 = info ∧
    y.reg (areaRegs lvl).2.1 = (s.ctx t).reg (areaRegs lvl).2.1 + 256 ∧ y.reg 0 = (s.ctx t).reg 2 ∧ y.reg 3 = (s.ctx t).reg 5 := by
  have hptr : (areaRegs lvl).2.1 = 0x045 ∨ (areaRegs lvl).2.1 = 0x048 := by obtain rfl | rfl := hlvl <;> decide
  dsimp only
  rw [enter_enters h hv hroom, updCtx_ctx, frameSaved_ctx _ _ _ _ hm]
  refine ⟨rfl, rfl, rfl, rfl, rfl, rfl, rfl, rfl, ?_, ?_, ?_, ?_, ?_⟩ <;> rw [handlerCtx_reg]
  · exact causeWord vec d
  · rfl
  · obtain e | e := hptr <;> rw [e] <;> rfl
  · rfl
  · rfl

/-- The frame of a thread with at most 16 entries of each stack in hardware. -/
theorem enter_mem (hbad : s.bad = []) (hops : (s.ctx t).ops.length ≤ 16) (hrets : (s.ctx t).rets.length ≤ 16) :
    let x := s.ctx t
    let a := localBase t.core + (x.reg (areaRegs lvl).2.1).toNat
    let m := (enter t lvl vec info pc d prev s).mem
    memWord m (a + 4) = pc ∧ memWord m (a + 12) = info ∧ memWord m (a + 0x14) = x.reg 0 ∧ memWord m (a + 0x18) = x.reg 2 ∧
    memWord m (a + 0x24) = x.reg 0x020 ∧ memWord m (a + 0x28) = x.reg 0x021 ∧
    ∀ b, b < a ∨ a + 256 ≤ b → memGet m b = memGet s.mem b := by
  dsimp only
  have hreg : ∀ n, ((entryStart t s).ctx t).reg n = (s.ctx t).reg n := fun n => by rw [entryStart_ctx hm]; rfl
  have hlen : (frameWords (entryStart t s) t pc vec info d true prev).length = 64 :=
    frameWords_length (by rw [entryStart_ctx hm]; exact hops) (by rw [entryStart_ctx hm]; exact hrets) ..
  have hmem : (enter t lvl vec info pc d prev s).mem = memPut s.mem (localBase t.core + ((s.ctx t).reg (areaRegs lvl).2.1).toNat)
      (wordsBytes (frameWords (entryStart t s) t pc vec info d true prev)) := by
    rw [enter_enters h hv hroom, updCtx_mem, frameSaved_mem _ _ _ _ hbad]
  rw [hmem]
  refine ⟨memWord_wordsBytes (i := 1) rfl .., memWord_wordsBytes (i := 3) rfl .., memWord_wordsBytes (i := 5) (congrArg some (hreg 0)) ..,
    memWord_wordsBytes (i := 6) (congrArg some (hreg 2)) .., memWord_wordsBytes (i := 9) (congrArg some (hreg 0x020)) ..,
    memWord_wordsBytes (i := 10) (congrArg some (hreg 0x021)) .., fun b hb => ?_⟩
  rw [memGet_memPut, if_neg]
  rw [wordsBytes_length, hlen]
  omega

end Entered

end Sys2Proof.CoreProofs
end

section
/-! PROOFS. O23: the halt of a pool thread; the statement is refuted by an entry with 17 operand entries in hardware. -/

namespace Sys2Proof.CoreProofs
open Sys2Proof Sys2Proof.Machine Sys2Proof.Laws Sys2Proof.ModuleProofs

/-! ## The halt of a pool thread (R302, R303, R305) -/

/-- A context halted by a fault. -/
def haltedCtx (cause : Nat) (info pc : Word) (d : Bool) (x : Ctx) : Ctx :=
  { ((x.setReg 0x043 pc).setReg 0x041 (word (cause + b2n d * 2 ^ 8))).setReg 0x042 info with
    st := .halt, wait := .none, heldPops := 0, heldLen := 0, spinFrom := none }

theorem haltedCtx_reg (cause n : Nat) (info pc : Word) (d : Bool) (x : Ctx) : (haltedCtx cause info pc d x).reg n =
    if n = 0x042 then info else if n = 0x041 then word (cause + b2n d * 2 ^ 8) else if n = 0x043 then pc else x.reg n := by
  have hsr : (haltedCtx cause info pc d x).reg n =
      (((x.setReg 0x043 pc).setReg 0x041 (word (cause + b2n d * 2 ^ 8))).setReg 0x042 info).reg n := rfl
  rw [hsr, Ctx.setReg_get, Ctx.setReg_get, Ctx.setReg_get]
  simp only [eq_comm]

/-- The machine with the thread halted, before the fault record. -/
def haltTraced (t : Thread) (cause : Nat) (info pc : Word) (d : Bool) (s : State) : State :=
  trace (benchOf t.core) t.core t.ctx 5 1 (faultPayload cause (lvlN (s.ctx t).lvl) pc info)
    (jobOfCore t.core (fun j => { j with halts := j.halts + 1 }) (s.updCtx t (haltedCtx cause info pc d)))

section Halt

variable (t : Thread) (cause : Nat) (info pc : Word) (d : Bool) (s : State)

/-- The fault queue of the core has the record, or has lost it. -/
theorem haltOn_cases :
    (∃ v : Core → Word, haltOn t cause info pc d s =
      setPend t.core 0 ((haltTraced t cause info pc d s).updCore t.core fun k => k.setReg 0x128 (v k))) ∨
    ∃ n l, ∃ v : Core → Word, n < 2 ^ (((s.core t.core).reg 0x128).toNat % 16) ∧ l.length = 32 ∧ haltOn t cause info pc d s =
      setPend t.core 0 ((write (localBase t.core + ((s.core t.core).reg 0x127).toNat + 32 * n) l (haltTraced t cause info pc d s)).updCore t.core
        fun k => k.setReg 0x129 (v k)) := by
  unfold haltOn
  extract_lets x k s1 s2 ctl head tail size fn rcd s3
  by_cases hfull : bit ctl 4 = false ∨ (head + 2 ^ 16 - tail) % 2 ^ 16 = 2 ^ size
  · exact .inl ⟨fun k => k.reg 0x128 ||| 0x20#32, congrArg (setPend t.core 0) (if_pos hfull)⟩
  · refine .inr ⟨head % 2 ^ size, rcd, fun _ => _, ?_, wordsBytes_length _, congrArg (setPend t.core 0) (if_neg hfull)⟩
    have hsize : size = ctl % 16 := by simp [size, bits]
    rw [hsize]
    exact Nat.mod_lt _ (Nat.two_pow_pos _)

theorem haltTraced_ctx : (haltTraced t cause info pc d s).ctx t = haltedCtx cause info pc d (s.ctx t) := by
  have hwithin : Within [.parts, .benches, .trc] (s.updCtx t (haltedCtx cause info pc d)) (haltTraced t cause info pc d s) :=
    trace_within (by decide) (jobOfCore_within (by decide) (.refl ..) ..) ..
  rw [State.ctx, core_of_within hwithin (by decide), ← State.ctx, updCtx_ctx]

theorem haltTraced_core_ne {c : Nat} (h : c ≠ t.core) : (haltTraced t cause info pc d s).core c = s.core c := by
  have hwithin : Within [.parts, .benches, .trc] (s.updCtx t (haltedCtx cause info pc d)) (haltTraced t cause info pc d s) :=
    trace_within (by decide) (jobOfCore_within (by decide) (.refl ..) ..) ..
  rw [core_of_within hwithin (by decide), updCtx_core_ne _ _ _ (Ne.symm h)]

end Halt

/-- A register of the core is written, and FAULT is set in CORE_IPEND. -/
theorem setPend_setReg (c n : Nat) (v : Core → Word) (s : State) :
    let u := setPend c 0 (s.updCore c fun k => k.setReg n (v k))
    (∀ t, u.ctx t = s.ctx t) ∧ ((u.core c).reg 0x125).getLsbD 0 = true ∧ ∀ d, d ≠ c → u.core d = s.core d := by
  have hctx : ∀ (t : Thread) (u : State) (m : Nat) (w : Core → Word), (u.updCore c fun k => k.setReg m (w k)).ctx t = u.ctx t := fun t u m w => by
    rw [State.ctx, updCore_get]
    split
    · next h => rw [Core.setReg_ctx, h, State.ctx]
    · rfl
  refine ⟨fun t => ?_, ?_, fun d hd => ?_⟩
  · exact (hctx t _ 0x125 fun k => k.reg 0x125 ||| BitVec.ofNat 32 (2 ^ 0)).trans (hctx t s n v)
  · rw [setPend, updCore_core, Core.setReg_reg, BitVec.getLsbD_or]
    simp
  · rw [setPend, updCore_ne _ _ (Ne.symm hd), updCore_ne _ _ (Ne.symm hd)]

/-- What a halt makes of its thread, of its core and of the others. -/
theorem haltOn_halts (t : Thread) (cause : Nat) (info pc : Word) (d : Bool) (s : State) :
    let u := haltOn t cause info pc d s
    (∃ r, u.ctx t = { haltedCtx cause info pc d (s.ctx t) with resv := r }) ∧ ((u.core t.core).reg 0x125).getLsbD 0 = true ∧
      (((s.core t.core).reg 0x127).toNat + 32 * 2 ^ (((s.core t.core).reg 0x128).toNat % 16) ≤ 0x100000 →
        ∀ c, c ≠ t.core → u.core c = s.core c) := by
  dsimp only
  obtain ⟨v, h⟩ | ⟨n, l, v, hn, hl, h⟩ := haltOn_cases t cause info pc d s
  · obtain ⟨hctx, hpend, hcore⟩ := setPend_setReg t.core 0x128 v (haltTraced t cause info pc d s)
    rw [h]
    refine ⟨⟨_, (hctx t).trans (haltTraced_ctx ..)⟩, hpend, fun _ c hc => (hcore c hc).trans (haltTraced_core_ne t cause info pc d s hc)⟩
  · obtain ⟨hctx, hpend, hcore⟩ := setPend_setReg t.core 0x129 v
      (write (localBase t.core + ((s.core t.core).reg 0x127).toNat + 32 * n) l (haltTraced t cause info pc d s))
    rw [h]
    have hwrite := (TileProofs.write_resvOnly (localBase t.core + ((s.core t.core).reg 0x127).toNat + 32 * n) l
      (haltTraced t cause info pc d s)).ctxs t
    rw [haltTraced_ctx] at hwrite
    refine ⟨⟨_, (hctx t).trans hwrite⟩, hpend, fun hroom c hc =>
      (hcore c hc).trans ((write_core_ne (fun e he => ?_) l _).trans (haltTraced_core_ne t cause info pc d s hc))⟩
    rw [Nat.add_assoc] at he
    rw [coreOfAddr_local (by omega) he]
    exact hc

theorem faultsHaltPoolThreads : Claims.FaultsHaltPoolThreads := by
  intro s t cause info pc d
  refine ⟨fun hlvl hpool => ?_, fun hlvl hc0 => ?_, fun hlvl => ?_⟩
  · obtain ⟨s0, hhalt, hcores⟩ : ∃ s0, fault t cause info pc d s = haltOn t cause info pc d s0 ∧ s0.cores = s.cores :=
      ⟨_, (if_neg hlvl).trans (if_neg hpool),
        (Within.ite (jobOfCore_within (List.Subset.refl _) (.refl ..) _ _) (.refl ..)).out .cores (by decide)⟩
    have hcore : ∀ c, s0.core c = s.core c := fun c => congrArg (tblGet coreD · c) hcores
    have hctx : s0.ctx t = s.ctx t := congrArg (Core.ctx · t.ctx) (hcore t.core)
    obtain ⟨⟨r, hthread⟩, hpend, hothers⟩ := haltOn_halts t cause info pc d s0
    simp only [hhalt, hthread, hctx]
    rw [hcore] at hothers
    exact ⟨rfl, haltedCtx_reg cause 0x043 .., haltedCtx_reg cause 0x042 .., (haltedCtx_reg cause 0x041 ..).trans (causeWord cause d),
      hpend, rfl, rfl, fun hroom c hc => (hothers hroom c hc).trans (hcore c)⟩
  · exact (if_neg hlvl).trans (if_pos hc0)
  · exact if_pos hlvl

/-! ## O23: an entry with 17 operand entries in hardware -/

/-- C0 of core 0 runs with 17 operand entries, a valid S vector 0 and room for one frame at 0x100; the byte above that room is 1. -/
def wideFrame : State :=
  { State.reset with
    mem := [(localBase 0 + 7, 0x80), (localBase 0 + 0x200, 1)]
    cores := [(0, { Core.reset with
      ctxs := [(0, { Ctx.reset 0 with st := .run, ops := List.replicate 17 0, sr := [(0x045, 0x100), (0x046, 0x200)] })] })] }

theorem entry_writes_above_frame : memGet (enter ⟨0, 0⟩ 1 0 0 0 false 0 wideFrame).mem (localBase 0 + 0x200) = 0 := by decide +kernel

theorem not_exceptionEntry : ¬ Claims.ExceptionEntry := by
  intro h
  obtain ⟨_, _, _, _, _, _, _, _, _, _, _, _, _, _, hmem⟩ := h wideFrame ⟨0, 0⟩ 1 0 0 0 false 0 (.inl rfl) (by decide) (by decide +kernel)
    (by decide +kernel) (by decide +kernel) (by decide +kernel) (by decide +kernel) rfl
  obtain ⟨_, _, _, _, _, _, habove⟩ := hmem rfl
  have hkept := habove (localBase 0 + 0x200) (.inr (by decide +kernel))
  rw [entry_writes_above_frame] at hkept
  exact absurd hkept (by decide +kernel)

/-- Refutes O23: it does not ask that at most 16 entries of a stack be in hardware, and with 17 the frame that an entry writes is longer
than its 256 bytes (`wideFrame`). The rest of it holds: `enter_ctx`, `enter_core_ne`, and `enter_mem` for 16 entries and fewer;
`failedEntryLocksTheCore`; `faultsHaltPoolThreads`. -/
theorem not_exceptionEntries : ¬ Obligations.ExceptionEntries := fun h => not_exceptionEntry h.1

end Sys2Proof.CoreProofs
end

section
/-! PROOFS. O60: the I3C target, the ISSUE samples, and records that leave the trace collector. -/

namespace Sys2Proof.ModuleProofs
open Sys2Proof Sys2Proof.Machine Sys2Proof.Laws

/-! ## The I3C target (R615, R726 to R728) -/

theorem i3cMap_ends (s : State) : ∀ e, e ∈ i3cMap s → e.1 + e.2.length ≤ 0x41 := by
  have huid : (uidBytes s).length ≤ 16 := by
    unfold uidBytes
    split
    · exact List.length_take_le ..
    · exact Nat.zero_le _
  simp only [i3cMap, List.forall_mem_cons, leBytes_length, List.not_mem_nil, false_implies, implies_true, and_true]
  omega

theorem i3cByte_unmapped (s : State) {n : Nat} (h : 0x41 ≤ n) : i3cByte s n = 0 := by
  have hnone : (i3cMap s).find? (fun e => decide (e.1 ≤ n) && decide (n < e.1 + e.2.length)) = none := by
    refine List.find?_eq_none.mpr fun e he => ?_
    have hend := i3cMap_ends s e he
    simp only [Bool.and_eq_true, decide_eq_true_eq]
    omega
  rw [i3cByte, hnone]

section Transfers
variable {s : State} (h : s.board.island = true)
include h

theorem exec_i3cRead (n : Nat) : exec (.i3cRead n) s = .next { s with board := { s.board with
    i3cOut := (List.range n).map (fun i => i3cByte s ((s.board.i3cOff + i) % 2 ^ 16)), i3cOff := (s.board.i3cOff + n) % 2 ^ 16 } } :=
  congrArg Host.Outcome.next (if_neg (by simp [h]))

theorem exec_i3cWrite_nil (off : Nat) : exec (.i3cWrite off []) s = .next { s with board := { s.board with i3cOff := off % 2 ^ 16 } } :=
  congrArg Host.Outcome.next (if_neg (by simp [h]))

theorem exec_i3cWrite_byte (off : Nat) (v : Byte) : exec (.i3cWrite off [v]) s =
    .next (i3cPut (off % 2 ^ 16) v { s with board := { s.board with i3cOff := off % 2 ^ 16 } }) :=
  congrArg Host.Outcome.next (if_neg (by simp [h]))

theorem exec_dynamicAddressAssign (a : Nat) :
    exec (.dynamicAddressAssign a) s = .next { s with board := { s.board with i3cAddr := some a } } :=
  congrArg Host.Outcome.next (if_pos h)

end Transfers

theorem doze_wstate {s : State} (h : mayDoze s = true) (k : Nat) : (doze k s).pwr.wstate = k := by
  unfold doze
  rw [if_neg (by simp [h])]

theorem idleReq_doze {s : State} (h : mayDoze s = true) : (idleReq 3 s).pwr.wstate = 3 := doze_wstate (k := 3) h

/-- REQ values that ask for no idle state are refused. -/
theorem idleReq_refuses {v : Byte} (h : v.toNat % 8 = 1 ∨ v.toNat % 8 = 2 ∨ v.toNat % 8 = 6 ∨ v.toNat % 8 = 7) (s : State) :
    (idleReq v s).pwr.idleRefused = true := by
  unfold idleReq
  dsimp only
  rcases h with h | h | h | h <;> rw [h] <;> rfl

theorem i3cTarget : Claims.I3cTarget := by
  intro s off n v h
  refine ⟨⟨_, exec_i3cRead h n, rfl, ?_, fun i hi => ?_⟩, i3cByte_unmapped s, ⟨_, exec_i3cWrite_nil h off, rfl⟩,
    fun hm => ⟨_, exec_i3cWrite_byte h 0x0008 3, ?_⟩, fun hv => ⟨_, exec_i3cWrite_byte h 0x0008 v, ?_⟩,
    exec_i3cWrite_byte h 0x0040 0x10, exec_dynamicAddressAssign h n⟩
  · simp
  · simp [hi]
  · exact idleReq_doze hm
  · exact idleReq_refuses hv _

/-! ## Records that leave the collector (R700 to R704) -/

section Collector
variable {s : State} {d : Nat} {r : List Byte} {rest : List (Nat × List Byte)}

/-- The machine after a record has left for its lanes, before the buffer has it. -/
def recordSent (d : Nat) (r : List Byte) (rest : List (Nat × List Byte)) (s : State) : State :=
  { s with trc := { s.trc with
    queue := rest, reg := tblUpd (zeros 64) s.trc.reg 0x030 (fun v => counterAdd v 1),
    lanes := if bit d 1 then r :: s.trc.lanes else s.trc.lanes } }

theorem exec_traceRecordOut (hw : s.board.wetarOn = true) : exec .traceRecordOut s = .next (sendRecord s) :=
  congrArg Host.Outcome.next (if_neg (by simp [hw]))

theorem sendRecord_leaves (hq : s.trc.queue = (d, r) :: rest) (h : s.trc.stopped = false ∨ bit d 0 = false) :
    sendRecord s = if bit d 0 then toBuffer r (recordSent d r rest s) else recordSent d r rest s := by
  have hgo : ¬ (s.trc.stopped = true ∧ bit d 0 = true) := by
    rintro ⟨hs, hd⟩
    rcases h with h | h
    · rw [h] at hs; cases hs
    · rw [h] at hd; cases hd
  unfold sendRecord recordSent
  rw [hq]
  dsimp only
  rw [if_neg hgo]
  cases bit d 1 <;> rfl

theorem sendRecord_dropped (hq : s.trc.queue = (d, r) :: rest) (hs : s.trc.stopped = true) (hd : bit d 0 = true) :
    sendRecord s = { s with trc := { s.trc with
      queue := rest, lost := s.trc.lost + 1, reg := tblUpd (zeros 64) s.trc.reg 0x038 (fun v => counterAdd v 1) } } := by
  unfold sendRecord
  rw [hq]
  exact if_pos ⟨hs, hd⟩

theorem toBuffer_gathers (h : s.trc.line.length + r.length < 64) :
    toBuffer r s = { s with trc := { s.trc with line := s.trc.line ++ r } } :=
  if_pos (by rw [List.length_append]; exact h)

/-- A line put at the buffer's offset reaches its end (R704). -/
def bufferFull (s : State) : Bool := decide (2 ^ s.trc.slog ≤ s.trc.off + 64)

/-- The trace block after a full line has gone to the buffer. -/
def afterLine (s : State) : Trace :=
  let wraps := bufferFull s && s.trc.ctl.getLsbD 3
  { s.trc with
    line := [], off := if wraps then 0 else s.trc.off + 64, wraps := if wraps then (s.trc.wraps + 1) % 2 ^ 32 else s.trc.wraps
    stopped := s.trc.stopped || (bufferFull s && !s.trc.ctl.getLsbD 3) }

theorem toBuffer_line (h : 64 ≤ (s.trc.line ++ r).length) :
    toBuffer r s = { bufferLine (s.trc.base + s.trc.off) ((s.trc.line ++ r).take 64) s with trc := afterLine s } :=
  if_neg (Nat.not_lt.mpr h)

/-- The buffer takes a record without touching the queue, the lanes, the counters and memory. -/
theorem toBuffer_keeps (r : List Byte) (s : State) :
    (toBuffer r s).trc.queue = s.trc.queue ∧ (toBuffer r s).mem = s.mem ∧ (toBuffer r s).trc.reg = s.trc.reg ∧
      (toBuffer r s).trc.lanes = s.trc.lanes := by
  by_cases h : s.trc.line.length + r.length < 64
  · rw [toBuffer_gathers h]
    exact ⟨rfl, rfl, rfl, rfl⟩
  · rw [toBuffer_line (by rw [List.length_append]; omega)]
    exact ⟨rfl, rfl, rfl, rfl⟩

/-- Two records of 32 bytes make a line, which goes over the ring to the controller of the buffer's device. -/
theorem toBuffer_sends (hl : s.trc.line.length = 32) (hr : r.length = 32) :
    (toBuffer r s).trc = afterLine s ∧
      sentPacket s (toBuffer r s) traceStop (devStop ((s.trc.base + s.trc.off) / 2 ^ 36))
        (.access 128 ((s.trc.base + s.trc.off) / 2 ^ 36 + 1) true ((s.trc.base + s.trc.off) / 64) (s.trc.line ++ r)
          (List.replicate 64 true) false .none) := by
  have hlen : (s.trc.line ++ r).length = 64 := by rw [List.length_append, hl, hr]
  rw [toBuffer_line hlen.ge, List.take_of_length_le hlen.le]
  exact ⟨rfl, _, rfl, rfl, rfl, rfl, rfl, rfl⟩

theorem afterLine_of_room (h : bufferFull s = false) :
    (afterLine s).off = s.trc.off + 64 ∧ (afterLine s).stopped = s.trc.stopped := by
  simp [afterLine, h]

theorem afterLine_wraps (h : bufferFull s = true) (hw : s.trc.ctl.getLsbD 3 = true) :
    (afterLine s).off = 0 ∧ (afterLine s).wraps = (s.trc.wraps + 1) % 2 ^ 32 := by
  simp [afterLine, h, hw]

theorem afterLine_stops (h : bufferFull s = true) (hw : s.trc.ctl.getLsbD 3 = false) : (afterLine s).stopped = true := by
  simp only [afterLine, h, hw, Bool.not_false, Bool.and_self, Bool.or_true]

end Collector

/-! ## ISSUE samples (R260 to R262, R698) -/

section Samples
variable {s : State} {c : Nat}

theorem nCtx_pos (s : State) (c : Nat) : 0 < nCtx s c := by
  unfold nCtx
  dsimp only
  split_ifs <;> decide

theorem slotOwner_lt (s : State) (c : Nat) : slotOwner s c < nCtx s c := Nat.mod_lt _ (nCtx_pos s c)

theorem issuer_owner (h : canIssue s ⟨c, slotOwner s c⟩ = true) : issuer s c = some (slotOwner s c) := if_pos h

/-- With eight contexts that issue, and while the owner spins, the owner's cycle goes to no other context. -/
theorem issuer_keeps (h : canIssue s ⟨c, slotOwner s c⟩ = false)
    (hk : nCtx s c = 8 ∨ (s.ctx ⟨c, slotOwner s c⟩).spinFrom.isSome) : issuer s c = none :=
  (if_neg (by simp [h])).trans (if_pos hk)

theorem issuer_passes (h : canIssue s ⟨c, slotOwner s c⟩ = false)
    (hk : ¬ (nCtx s c = 8 ∨ (s.ctx ⟨c, slotOwner s c⟩).spinFrom.isSome)) :
    issuer s c = ((List.range (nCtx s c)).map fun i => (slotOwner s c + i) % nCtx s c).find? fun i => canIssue s ⟨c, i⟩ :=
  (if_neg (by simp [h])).trans (if_neg hk)

theorem issuer_none (h : ∀ k, k < nCtx s c → canIssue s ⟨c, k⟩ = false) : issuer s c = none := by
  have howner := h _ (slotOwner_lt s c)
  by_cases hk : nCtx s c = 8 ∨ (s.ctx ⟨c, slotOwner s c⟩).spinFrom.isSome
  · exact issuer_keeps howner hk
  · rw [issuer_passes howner hk]
    simp [h _ (Nat.mod_lt _ (nCtx_pos s c))]

/-- The first entry that passes a test is found by its place. -/
theorem find?_map_range {n j : Nat} {f : Nat → Nat} {p : Nat → Bool} (hj : j < n) (hp : p (f j) = true)
    (hbefore : ∀ k, k < j → p (f k) = false) : ((List.range n).map f).find? p = some (f j) := by
  have hfind : (List.range n).find? (p ∘ f) = some j :=
    List.find?_range_eq_some.mpr ⟨hp, List.mem_range.mpr hj, fun k hk => by simp [hbefore k hk]⟩
  rw [List.find?_map, hfind]
  rfl

theorem exec_issueSample (hc : c < 512) : exec (.issueSample c) s = .next (issueSample c s) := congrArg Host.Outcome.next (if_pos hc)

theorem issueSample_skips (h : (s.core c).cycFrom = none ∨ cyc s c % 2 ^ bits s.trc.ctl.toNat 8 4 ≠ 0) : issueSample c s = s :=
  if_pos (h.imp_left (by simp_all))

/-- A sample is due: the core's clock runs, and its cycle is a multiple of 2^IEXP. -/
def IssueSampleDue (s : State) (c : Nat) : Prop := (s.core c).cycFrom.isSome ∧ cyc s c % 2 ^ bits s.trc.ctl.toNat 8 4 = 0

theorem IssueSampleDue.not_skipped (h : IssueSampleDue s c) :
    ¬ ((s.core c).cycFrom.isNone ∨ cyc s c % 2 ^ bits s.trc.ctl.toNat 8 4 ≠ 0) := by
  obtain ⟨hrun, hcyc⟩ := h
  simp [Option.isNone_iff_eq_none, Option.isSome_iff_ne_none.mp hrun, hcyc]

theorem issueSample_none (h : IssueSampleDue s c) (hi : issuer s c = none) : issueSample c s =
    trace (benchOf c) c (slotOwner s c) 1 1 (leBytes 0 4 ++ [0] ++ leBytes (stateBits s c) 3) s := by
  simp only [issueSample, if_neg h.not_skipped, hi]

theorem issueSample_some {i : Nat} (h : IssueSampleDue s c) (hi : issuer s c = some i) (hpc : (s.ctx ⟨c, i⟩).pc.toNat < 0x100000) :
    issueSample c s = trace (benchOf c) c i 1 0 (leBytes (s.ctx ⟨c, i⟩).pc.toNat 4 ++
      [memGet s.mem (localBase c + (s.ctx ⟨c, i⟩).pc.toNat)] ++ leBytes (stateBits s c) 3) s := by
  have hpc : (((s.core c).ctx i).pc).toNat < 0x100000 := hpc
  simp only [issueSample, if_neg h.not_skipped, hi, if_pos hpc]
  rfl

end Samples

theorem traceLeavesTheCollector : Claims.TraceLeavesTheCollector := by
  intro s c d j r rest a o full ready none_ sample
  refine ⟨fun hw hq => ⟨fun hgo => ?_, fun hs hd => ?_⟩, fun hw => congrArg Host.Outcome.next (if_pos hw), fun hc => ?_⟩
  · have hsend := sendRecord_leaves hq hgo
    rw [exec_traceRecordOut hw]
    refine ⟨_, rfl, ?_⟩
    cases hd : bit d 0 with
    | false =>
      rw [hd] at hsend
      rw [hsend]
      simp [recordSent]
    | true =>
      have hs : s.trc.stopped = false := hgo.resolve_right (by simp [hd])
      rw [hd] at hsend
      rw [hsend, if_pos rfl]
      obtain ⟨hqueue, hmem, hreg, hlanes⟩ := toBuffer_keeps r (recordSent d r rest s)
      have hcount := (congrArg (tblGet (zeros 64) · 0x030) hreg).trans (tblGet_tblUpd_same 0x030 fun v => counterAdd v 1)
      refine ⟨hqueue, hmem, hcount, hlanes, fun h => absurd h (by decide), fun _ hlt => ?_, fun _ hl hr => ?_⟩
      · rw [toBuffer_gathers (s := recordSent d r rest s) hlt]
        exact ⟨rfl, rfl⟩
      · obtain ⟨htrc, hsent⟩ := toBuffer_sends (s := recordSent d r rest s) hl hr
        rw [htrc]
        refine ⟨rfl, hsent, fun hroom => ?_, fun hfull hwrap => ?_, fun hfull hwrap => ?_⟩
        · obtain ⟨hoff, hstop⟩ := afterLine_of_room (s := recordSent d r rest s) (decide_eq_false hroom)
          exact ⟨hoff, hstop.trans hs⟩
        · exact afterLine_wraps (s := recordSent d r rest s) (decide_eq_true hfull) hwrap
        · exact afterLine_stops (s := recordSent d r rest s) (decide_eq_true hfull) hwrap
  · rw [exec_traceRecordOut hw, sendRecord_dropped hq hs hd]
    exact ⟨_, rfl, rfl, rfl, rfl, rfl⟩
  · rw [exec_issueSample hc]
    refine ⟨fun h => congrArg _ (issueSample_skips (.inl h)), fun _ h => congrArg _ (issueSample_skips (.inr h)), fun hrun hcyc => ?_⟩
    have hdue : IssueSampleDue s c := ⟨hrun, hcyc⟩
    refine ⟨fun hr hpc => ?_, fun hr hk => ?_, fun hr => ?_, fun hr h8 hspin hj hrj hbefore hpc => ?_⟩ <;> refine congrArg Host.Outcome.next ?_
    · exact issueSample_some hdue (issuer_owner hr) hpc
    · exact issueSample_none hdue (issuer_keeps hr hk)
    · exact issueSample_none hdue (issuer_none hr)
    · have hpass : ¬ (nCtx s c = 8 ∨ (s.ctx ⟨c, slotOwner s c⟩).spinFrom.isSome) := by
        rintro (h | h)
        · exact h8 h
        · rw [show (s.ctx ⟨c, slotOwner s c⟩).spinFrom = none from hspin] at h; cases h
      exact issueSample_some hdue ((issuer_passes hr hpass).trans (find?_map_range hj hrj hbefore)) hpc

/-- Settles O60: the I3C target's transfers are the branches of `i3cPut` and `idleReq`; a record leaves by `sendRecord_leaves` and fills
lines by `toBuffer_gathers` and `toBuffer_line`, and the context sampled is `issuer`'s. -/
theorem boardAndTrace : Obligations.BoardAndTrace := ⟨i3cTarget, traceLeavesTheCollector⟩

end Sys2Proof.ModuleProofs
end

section
/-! PROOFS. O41: the memory ports' requests. -/

namespace Sys2Proof.ModuleProofs
open Sys2Proof Sys2Proof.Machine Sys2Proof.Laws

/-! ## Taking what has arrived (R326) -/

/-- The arrival that is next is the one that is taken. -/
theorem takeArrival_nextArrival {s u : State} {P : Arrival → Prop} {a : Arrival} {sel : Arrival → Bool} (h : nextArrival s P a u)
    (hsel : ∀ x, sel x = true ↔ P x) : takeArrival sel s = some (a, u) := by
  obtain ⟨l, r, harr, hl, hdue, ha, rfl⟩ := h
  have hnone : l.find? (fun x => decide (x.due ≤ s.now) && sel x) = none := by
    simpa [hsel, not_and] using hl
  have hfind : s.arrivals.find? (fun x => decide (x.due ≤ s.now) && sel x) = some a := by
    simp [harr, List.find?_append, hnone, hdue, (hsel a).mpr ha]
  have hnot : a ∉ l := fun hmem => hl a hmem ⟨hdue, ha⟩
  have herase : s.arrivals.erase a = l ++ r := by
    rw [harr, List.erase_append_right _ hnot, List.erase_cons_head]
  simp only [takeArrival, hfind, herase]

/-- Taking an arrival changes nothing but the list of them. -/
theorem nextArrival_within {s u : State} {P : Arrival → Prop} {a : Arrival} (h : nextArrival s P a u) : Within [.arrivals] s u := by
  obtain ⟨l, r, -, -, -, -, rfl⟩ := h
  exact Within.set_arrivals (List.Subset.refl _) (Within.refl _ _)

theorem port_of_within {F : List Field} {s u : State} (h : Within F s u) (hp : Field.ports ∉ F) (d : Nat) : u.port d = s.port d :=
  congrArg (tblGet portD · d) (h.out .ports hp)

/-! ## Reads at a port (R351, R353) -/

section Requests
variable {s : State} {d r : Nat} {f : Flit}

theorem portCount_port (d o n : Nat) (s : State) :
    (portCount d o n s).port d = (s.port d).setR o (counterAdd ((s.port d).r o) n) := updPort_port ..

/-- The counts of an access leave a port's replies and merge windows. -/
theorem countAccess_port (d r n : Nat) (s : State) :
    ((countAccess d r n s).port d).replies = (s.port d).replies ∧ ((countAccess d r n s).port d).wins = (s.port d).wins := by
  rw [countAccess, portCount_port, Port.setR_replies, Port.setR_wins, updPort_port]
  exact ⟨rfl, rfl⟩

theorem oweReply_port (d r : Nat) (f : Flit) (accs : List Nat) (data : List Byte) (err : Bool) (s : State) :
    ((oweReply d r f accs data err s).port d).replies = (s.port d).replies ++
        [⟨r, accs, consumer s f, { f with kind := 4, err := err, data := data }, false, false⟩] ∧
      ((oweReply d r f accs data err s).port d).wins = (s.port d).wins := by
  rw [oweReply, updPort_port]
  exact ⟨rfl, rfl⟩

/-- A read of lines none of which has a merge window opens one for each, and owes its reply. -/
theorem portRead_opens (herr : f.err = false) (hmap : memMappedOut s d = false) (hwins : (s.port d).wins = [])
    (hlines : flitLines f ≠ []) :
    ∃ q, ((portRead d r f s).port d).replies = (s.port d).replies ++ [q] ∧ q.r = r ∧ q.late = false ∧
      q.flit = { f with kind := 4, err := false, data := (flitLines f).flatMap fun l => memBytes s.mem (l * 64) 64 } ∧
      ((portRead d r f s).port d).wins.length = (flitLines f).length := by
  obtain ⟨l, hl⟩ := List.exists_mem_of_ne_nil _ hlines
  unfold portRead
  dsimp only
  rw [if_neg (by simp [herr, hmap]), if_neg (by simpa [hwins] using ⟨l, hl⟩)]
  rw [(countAccess_port ..).1, (countAccess_port ..).2, (oweReply_port ..).1, (oweReply_port ..).2, updPort_port, updPort_port]
  exact ⟨_, rfl, rfl, rfl, rfl, by simp [hwins]⟩

/-! ## Writes at a port (R355, R422) -/

/-- A sound write to a device in place is made, closes its lines' windows, and is counted for its sender. -/
theorem portWrite_writes (hk : f.kind = 2) (herr : f.err = false) (hmap : memMappedOut s d = false) :
    ∃ v, portWrite d r f s = writeCounted f (write (flitAddr f) f.data v) ∧ Within [.ports] s v ∧
      (v.port d).wins = (s.port d).wins.filter fun w => !(flitLines f).contains w.line := by
  unfold portWrite
  dsimp only
  rw [if_neg (by simp [herr, hmap]), if_neg (by simp [hk])]
  refine ⟨_, rfl, countAccess_within (List.Subset.refl _) (State_updPort_within (List.Subset.refl _) (.refl ..) _ _) .., ?_⟩
  rw [(countAccess_port ..).2, updPort_port]

end Requests

theorem exec_memoryRequest {s s1 : State} {a : Arrival} {k : Nat} (hk : k < 16)
    (h : nextArrival s (fun x => x.station = memStation k ∧ x.port = 5) a s1) :
    exec (.memoryRequest k) s = .next (if a.flit.kind = 1 then portRead k a.due a.flit s1
      else if a.flit.kind = 2 ∨ a.flit.kind = 3 then portWrite k a.due a.flit s1 else count (memStation k) 0x5028 1 s1) := by
  have htake : takeArrival (fun a => decide (a.station = memStation k) && decide (a.port = 5)) s = some (a, s1) :=
    takeArrival_nextArrival h (by simp)
  refine congrArg Host.Outcome.next ((if_pos hk).trans ?_)
  simp only [memoryRequest, htake]

theorem memoryPortServesRequests : Claims.MemoryPortServesRequests := by
  intro s s1 a k c i o hk hnext hmap m lines
  have hw := nextArrival_within hnext
  have hmem : s1.mem = s.mem := hw.out .mem (by decide)
  have hport : s1.port k = s.port k := port_of_within hw (by decide) k
  have hmap1 : memMappedOut s1 k = false := (congrArg (fun x : Boot => bit x.memOut k) (hw.out .boot (by decide))).trans hmap
  rw [exec_memoryRequest hk hnext]
  refine ⟨fun h1 herr hwins hlines => ?_, fun h2 herr huse => ?_, fun h => ?_⟩
  · obtain ⟨q, hreplies, hr, hlate, hflit, hlen⟩ := portRead_opens (r := a.due) herr hmap1 (hport ▸ hwins) hlines
    have hmemv : (portRead k a.due a.flit s1).mem = s1.mem :=
      (portRead_within (List.Subset.refl _) (.refl ..) ..).out .mem (by decide)
    rw [if_pos h1]
    rw [hport] at hreplies
    rw [hmem] at hflit
    exact ⟨_, q, rfl, hmemv.trans hmem, hreplies, hr, hlate, by rw [hflit], by rw [hflit], hlen⟩
  · obtain ⟨v, hwrite, hv, hwins⟩ := portWrite_writes (r := a.due) h2 herr hmap1
    rw [if_neg (by omega), if_pos (.inl h2), hwrite]
    refine ⟨write m a.flit.data v, ?_, ?_, ?_⟩
    · rw [writeCounted, huse]
    · exact writeMask_mem_congr ((hv.out .mem (by decide)).trans hmem) ((hv.out .bad (by decide)).trans (hw.out .bad (by decide))) _ _
    · rw [port_of_within (write_within (List.Subset.refl _) (.refl ..) _ _) (by decide), hwins, hport]
  · rw [if_neg (by omega), if_neg (by omega)]

end Sys2Proof.ModuleProofs
end

section
/-! PROOFS. O41: replies in their slots, schedule slips and reserve slots. -/

namespace Sys2Proof.ModuleProofs
open Sys2Proof Sys2Proof.Machine Sys2Proof.Laws

theorem find?_filter_of_find? {α : Type} {l : List α} {p q : α → Bool} {a : α} (h : l.find? q = some a) (hp : p a = true) :
    (l.filter p).find? q = some a := by
  obtain ⟨hq, pre, post, rfl, hpre⟩ := List.find?_eq_some_iff_append.mp h
  have hnone : (pre.filter p).find? q = none :=
    List.find?_eq_none.mpr fun x hx => by simpa using hpre x (List.mem_filter.mp hx).1
  rw [List.filter_append, List.filter_cons_of_pos hp, List.find?_append, hnone]
  exact List.find?_cons_of_pos hq

/-! ## The slip buffer is filled (R362) -/

theorem fillSlips_accs (n : Nat) (x : Port) : (fillSlips n x).accs = x.accs := by
  induction n generalizing x with
  | zero => rfl
  | succ n ih =>
    unfold fillSlips
    dsimp only
    split
    · rfl
    split
    · rfl
    · rw [ih]; rfl

theorem Port.setR_get (x : Port) (o j : Nat) (v : Dword) : (x.setR o v).r j = if o = j then v else x.r j := tblGet_tblSet ..

/-- Of a port's registers only BENCH_STAT changes. -/
theorem fillSlips_r {k : Nat} (hk : k ≠ 0) (n : Nat) (x : Port) : (fillSlips n x).r k = x.r k := by
  induction n generalizing x with
  | zero => rfl
  | succ n ih =>
    unfold fillSlips
    dsimp only
    split
    · rfl
    split
    · rfl
    · rw [ih, Port.setR_get, if_neg (Ne.symm hk)]; rfl

/-- A reply keeps its accesses. -/
theorem fillSlips_names {i : Nat} (n : Nat) {x : Port} (h : ∃ q ∈ x.replies, i ∈ q.accs) :
    ∃ q ∈ (fillSlips n x).replies, i ∈ q.accs := by
  induction n generalizing x with
  | zero => exact h
  | succ n ih =>
    unfold fillSlips
    dsimp only
    split
    · exact h
    split
    · exact h
    · obtain ⟨q, hq, hi⟩ := h
      refine ih ⟨_, List.mem_map_of_mem hq, ?_⟩
      split <;> exact hi

theorem accOf_pruneAccs {x : Port} {i : Nat} {a : PAcc} (ha : accOf x i = some a) (hq : ∃ q ∈ x.replies, i ∈ q.accs) :
    accOf (pruneAccs x) i = some a := by
  have hid : a.id = i := by simpa using List.find?_some ha
  obtain ⟨q, hq, hi⟩ := hq
  refine find?_filter_of_find? ha ?_
  rw [hid]
  have hnamed : x.replies.any (fun q => q.accs.contains i) = true := List.any_eq_true.mpr ⟨q, hq, List.contains_iff_mem.mpr hi⟩
  rw [hnamed, Bool.or_true, Bool.true_or]

/-- A change of the accesses that leaves their numbers. -/
theorem find?_map_id {l : List PAcc} {i : Nat} {a : PAcc} {f : PAcc → PAcc} (hf : ∀ a, (f a).id = a.id)
    (h : l.find? (fun a => decide (a.id = i)) = some a) : (l.map f).find? (fun a => decide (a.id = i)) = some (f a) := by
  have hcomp : (fun a : PAcc => decide (a.id = i)) ∘ f = fun a => decide (a.id = i) := funext fun a => by simp [hf]
  rw [List.find?_map, hcomp, h]
  rfl

/-- An access that a reply names is still kept when the slip buffer has been settled. -/
theorem settleSlips_accOf {s : State} {d i : Nat} {a : PAcc} (ha : accOf (s.port d) i = some a)
    (hq : ∃ q ∈ (s.port d).replies, i ∈ q.accs) :
    ∃ y, accOf ((settleSlips d s).port d) i = some y ∧ y.ready = a.ready ∧ y.err = a.err := by
  have hkept : accOf (pruneAccs (fillSlips 64 (s.port d))) i = some a :=
    accOf_pruneAccs ((congrArg (List.find? _) (fillSlips_accs 64 (s.port d))).trans ha) (fillSlips_names 64 hq)
  rw [settleSlips, updPort_port]
  dsimp only
  split
  · exact ⟨a, hkept, rfl, rfl⟩
  · exact ⟨_, find?_map_id (fun _ => rfl) hkept, rfl, rfl⟩

theorem settleSlips_r {k : Nat} (hk : k ≠ 0) (d : Nat) (s : State) : ((settleSlips d s).port d).r k = (s.port d).r k := by
  rw [settleSlips, updPort_port, ← fillSlips_r hk 64 (s.port d)]
  dsimp only
  split <;> rfl

theorem settleSlips_flits (d : Nat) (s : State) : (settleSlips d s).flits = s.flits := rfl

/-! ## An access is done (R353) -/

theorem accessDone_readies {s : State} {d i : Nat} {x : PAcc} (er : Bool) (hx : accOf (s.port d) i = some x) (hr : x.ready = none)
    (hh : x.held = false) (hq : ∃ q ∈ (s.port d).replies, i ∈ q.accs) :
    ∃ y, accOf ((accessDone d i er s).port d) i = some y ∧ y.ready = some s.now ∧ y.err = er := by
  have hid : x.id = i := by simpa using List.find?_some hx
  unfold accessDone
  simp only [hx, hr, hh, Option.isNone_none, Bool.not_false, Bool.and_self, if_true]
  have hready := find?_map_id (f := fun a => if a.id = i then { a with ready := some s.now, err := er } else a)
    (fun a => by split <;> rfl) hx
  rw [if_pos hid] at hready
  refine settleSlips_accOf (a := { x with ready := some s.now, err := er }) ?_ ?_
  · rw [updPort_port]; exact hready
  · rw [updPort_port]; exact hq

/-! ## Slots (R350, R359 to R366) -/

section Slots
variable {s : State} {d : Nat} {q : PReply}

theorem sendReply_flits (rsv : Bool) : (sendReply d q rsv s).flits = s.flits ++ [⟨memStation d, 5, s.now,
    { q.flit with err := replyErr (s.port d) q, data := if replyErr (s.port d) q then [] else q.flit.data, rsv := rsv }⟩] := by
  unfold sendReply
  dsimp only
  rw [settleSlips_flits]
  split <;> rfl

theorem sendReply_flits_data (h : replyErr (s.port d) q = false) (rsv : Bool) :
    (sendReply d q rsv s).flits = s.flits ++ [⟨memStation d, 5, s.now, { q.flit with err := false, rsv := rsv }⟩] := by
  rw [sendReply_flits, h]
  rfl

/-- The late marker leaves in the reply's slot, and the slip is counted. -/
theorem slip_marks : (slip d q s).flits = s.flits ++
      [⟨memStation d, 5, s.now, { q.flit with late := true, data := leBytes (indexOf s (memStation d)) 2, err := false }⟩] ∧
    ((slip d q s).port d).r 0x018 = counterAdd ((s.port d).r 0x018) 1 := by
  unfold slip
  dsimp only
  rw [settleSlips_flits, settleSlips_r (by decide)]
  have hcount : ((portCount d 0x018 1 (s.updPort d fun x =>
      { x with replies := x.replies.map fun p => if p = q then { p with late := true } else p })).port d).r 0x018 =
      counterAdd ((s.port d).r 0x018) 1 := by
    rw [portCount, updPort_port, updPort_port]
    exact Port.setR_r ..
  split
  · exact ⟨rfl, hcount⟩
  · exact ⟨rfl, hcount⟩

theorem replySlot_due (hq : (s.port d).replies.find? (fun q => !q.late && decide (q.r + 1024 ≤ s.now)) = some q)
    (hx : xTaken s (memStation d) = false) :
    replySlot d s = if replyReady (s.port d) q then sendReply d q false s else slip d q s := by
  unfold replySlot
  simp only [hq]
  rw [if_neg (by simp [hx])]

theorem replySlot_none (h : ∀ q, q ∈ (s.port d).replies → q.late = true ∨ s.now < q.r + 1024) : replySlot d s = s := by
  have hnone : (s.port d).replies.find? (fun q => !q.late && decide (q.r + 1024 ≤ s.now)) = none :=
    List.find?_eq_none.mpr fun q hq => by rcases h q hq with h | h <;> simp [h]
  simp only [replySlot, hnone]

theorem reserveSlot_some {e : Nat} (he : liveEntry s (memStation d) = some e) (hb : bit e 39 = true)
    (hx : xTaken s (memStation d) = false)
    (hq : (s.port d).replies.find? (fun q => q.late && q.slot && decide (q.bench = bits e 46 40)) = some q) :
    reserveSlot d s = sendReply d q true s := by
  simp [reserveSlot, he, hb, hx, hq]

theorem reserveSlot_none {e : Nat} (he : liveEntry s (memStation d) = some e) (hb : bit e 39 = true)
    (h : ∀ q ∈ (s.port d).replies, q.late = false ∨ q.slot = false ∨ q.bench ≠ bits e 46 40) : reserveSlot d s = s := by
  have hnone : (s.port d).replies.find? (fun q => q.late && q.slot && decide (q.bench = bits e 46 40)) = none :=
    List.find?_eq_none.mpr fun q hq => by rcases h q hq with h | h | h <;> simp [h]
  simp [reserveSlot, he, hb, hnone]

end Slots

theorem repliesAndScheduleSlips : Claims.RepliesAndScheduleSlips := by
  intro s k e id q x er hk b
  have hdone : exec (.gddr7AccessDone k id er) s = .next (accessDone k id er s) := congrArg Host.Outcome.next (if_pos hk)
  have hslot : exec (.replySlot k) s = .next (replySlot k s) := congrArg Host.Outcome.next (if_pos hk)
  have hreserve : exec (.reserveSlotDelivery k) s = .next (reserveSlot k s) := congrArg Host.Outcome.next (if_pos hk)
  rw [hdone, hslot, hreserve]
  refine ⟨fun hx hr hh hq hid => ?_, fun hq hx => ?_, fun h => by rw [replySlot_none h], fun he hb hx => ⟨fun hq herr => ?_, fun h => ?_⟩⟩
  · obtain ⟨y, hy⟩ := accessDone_readies er hx hr hh ⟨q, hq, hid⟩
    exact ⟨_, y, rfl, hy⟩
  · rw [replySlot_due hq hx]
    refine ⟨fun hr herr => ⟨_, rfl, ?_⟩, fun hr herr => ⟨_, rfl, ?_⟩, fun hr => ⟨_, rfl, ?_⟩⟩
    · rw [if_pos hr, sendReply_flits_data herr]
    · rw [if_pos hr, sendReply_flits, herr]
      rfl
    · rw [if_neg (by simp [hr])]
      exact slip_marks
  · rw [reserveSlot_some he hb hx hq]
    exact ⟨_, rfl, sendReply_flits_data herr true⟩
  · rw [reserveSlot_none he hb h]
end Sys2Proof.ModuleProofs
end

section
/-! PROOFS. O41: memory's replies at their bench. -/

namespace Sys2Proof.ModuleProofs
open Sys2Proof Sys2Proof.Machine Sys2Proof.Laws

/-! ## Bits of CORE_IPEND (R301) -/

theorem setPend_reg (c i : Nat) (s : State) :
    ((setPend c i s).core c).reg 0x125 = (s.core c).reg 0x125 ||| BitVec.ofNat 32 (2 ^ i) := by
  rw [setPend, updCore_core, Core.setReg_reg]

theorem setPend_sets {i : Nat} (hi : i < 32) (c : Nat) (s : State) : (((setPend c i s).core c).reg 0x125).getLsbD i = true := by
  rw [setPend_reg, BitVec.getLsbD_or, BitVec.getLsbD_ofNat, Nat.testBit_two_pow_self]
  simp [hi]

theorem setPend_keeps {c i : Nat} {s : State} (h : ((s.core c).reg 0x125).getLsbD i = true) (d j : Nat) :
    (((setPend d j s).core c).reg 0x125).getLsbD i = true := by
  by_cases hd : d = c
  · rw [hd, setPend_reg, BitVec.getLsbD_or, h, Bool.true_or]
  · rw [setPend, updCore_ne _ _ hd, h]

/-! ## A reply at its consumer (R363, R365) -/

section Reply
variable {s s1 : State} {a : Arrival} {b : Nat} (hb : b < 128) (h : nextArrival s (fun x => x.station = b ∧ x.port = 6 ∧ x.flit.kind = 4) a s1)
include h

theorem takeArrival_reply :
    takeArrival (fun a => decide (a.station = b) && decide (a.port = 6) && decide (a.flit.kind = 4)) s = some (a, s1) :=
  takeArrival_nextArrival h (by simp [and_assoc])

include hb

theorem exec_reply_late (hl : a.flit.late = true) : exec (.memoryReplyArrival b) s = .next (lateMarker b a.flit s1) :=
  congrArg Host.Outcome.next <| (if_pos hb).trans <| by simp only [replyArrival, takeArrival_reply h, hl, if_pos]

theorem exec_reply_porter {c i o : Nat} (hl : a.flit.late = false) (hu : a.flit.use = .porter c i o) :
    exec (.memoryReplyArrival b) s = .next (porterReply a.flit c i o s1) :=
  congrArg Host.Outcome.next <| (if_pos hb).trans <| by simp [replyArrival, takeArrival_reply h, hl, hu]

theorem exec_reply_fill {l n : Nat} (hl : a.flit.late = false) (hu : a.flit.use = .fill l n) (habs : absorbsBench s1 b = false) :
    exec (.memoryReplyArrival b) s = .next (fillData b n a.flit.data a.flit.err s1) :=
  congrArg Host.Outcome.next <| (if_pos hb).trans <| by simp [replyArrival, takeArrival_reply h, hl, hu, habs]

theorem exec_reply_uload {c i : Nat} (hl : a.flit.late = false) (hu : a.flit.use = .uload c i) (habs : absorbsCore s1 c = false) :
    exec (.memoryReplyArrival b) s = .next (uloadData c i a.flit.data a.flit.err s1) :=
  congrArg Host.Outcome.next <| (if_pos hb).trans <| by simp [replyArrival, takeArrival_reply h, hl, hu, habs]

end Reply

/-- A fill that waits for its data takes it. -/
theorem fillData_taken {s : State} {b : Nat} {f : Fill} (hf : (s.bench b).fills = [f]) (hsent : f.sent = true) (hdata : f.data = none)
    (data : List Byte) :
    ((fillData b f.serial data false s).bench b).fills = [{ f with data := some data, err := false, link := false }] := by
  rw [fillData, updBench_bench]
  simp [hf, hsent, hdata]

/-- A reply for a porter whose destination still maps is written there and counted. -/
theorem porterReply_lands {s : State} {f : Flit} {c i o d : Nat} (herr : f.err = false) (habs : absorbsCore s c = false)
    (hmap : portMap s (benchOf c) ((s.slotOf c i).dst + o) true = some d) :
    porterReply f c i o s = landed c i f.data.length (write d f.data s) := by
  simp [porterReply, herr, habs, hmap]

section Late
variable {s : State} {b : Nat} {f : Flit}

theorem lateMarker_core {c : Nat} (h : (∃ i, f.use = .uload c i) ∨ ∃ i o, f.use = .porter c i o) :
    lateMarker b f s = setPend c 5 (traceSlip b f (count b 0x5010 1 s)) := by
  unfold lateMarker
  obtain ⟨i, h⟩ | ⟨i, o, h⟩ := h <;> rw [h]

/-- The marker counts once in its bench, whose other registers a trace record leaves alone. -/
theorem traceSlip_counted :
    ((traceSlip b f (count b 0x5010 1 s)).bench b).r 0x5010 = counterAdd ((s.bench b).r 0x5010) 1 := by
  rw [Bench.r, traceSlip, CoreProofs.trace_bench_reg]
  exact (TileProofs.count_r ..).trans (if_pos rfl)

theorem mem_threadsOf {t : Thread} : t ∈ threadsOf b ↔ t.core / 4 = b ∧ t.ctx < 8 := by
  simp only [threadsOf, List.mem_flatMap, List.mem_map, List.mem_range]
  refine ⟨?_, fun ⟨hc, hk⟩ => ⟨t.core % 4, Nat.mod_lt _ (by decide), t.ctx, hk, ?_⟩⟩
  · rintro ⟨i, hi, j, hj, rfl⟩
    exact ⟨by dsimp only; omega, hj⟩
  · rw [← hc, Nat.div_add_mod]

theorem mem_lineWaiters {t : Thread} {n : Nat} (ht : t ∈ threadsOf b) (hw : (s.ctx t).wait.fillOf = some n) :
    t.core ∈ lineWaiters s b n := by
  obtain ⟨hc, hk⟩ := mem_threadsOf.mp ht
  refine List.mem_filter.mpr ⟨List.mem_map.mpr ⟨t.core % 4, List.mem_range.mpr (Nat.mod_lt _ (by decide)), ?_⟩,
    List.any_eq_true.mpr ⟨t.ctx, List.mem_range.mpr hk, decide_eq_true hw⟩⟩
  rw [← hc, Nat.div_add_mod]

theorem forAll_setPend_sets {c i : Nat} (hi : i < 32) {l : List Nat} (hc : c ∈ l) (s : State) :
    (((forAll l (fun c s => setPend c i s) s).core c).reg 0x125).getLsbD i = true := by
  refine forAll_reaches (P := fun _ => True) (Q := fun u => ((u.core c).reg 0x125).getLsbD i = true) (a := c)
    (fun _ _ _ => .inl trivial) (fun d u h => setPend_keeps h d i) (fun u _ => setPend_sets hi c u) hc trivial

theorem lateMarker_fill {t : Thread} {l n : Nat} (hu : f.use = .fill l n) (ht : t ∈ threadsOf b)
    (hw : (s.ctx t).wait.fillOf = some n) : (((lateMarker b f s).core t.core).reg 0x125).getLsbD 5 = true := by
  have hctx : (traceSlip b f (count b 0x5010 1 s)).ctx t = s.ctx t :=
    congrArg (Core.ctx · t.ctx) (core_of_within (traceSlip_within (List.Subset.refl _) (.refl ..) b f) (by decide) t.core)
  unfold lateMarker
  rw [hu]
  exact forAll_setPend_sets (by decide) (mem_lineWaiters ht (by rw [hctx, hw])) _

end Late

theorem memoryRepliesArrive : Claims.MemoryRepliesArrive := by
  intro s s1 a b c i o l d m n sgn t f hb hnext
  obtain ⟨pre, post, -, -, -, -, hs1⟩ := id hnext
  have hbench (x : Nat) : s1.bench x = s.bench x := by rw [hs1]; rfl
  have habsB : absorbsBench s1 b = absorbsBench s b := by rw [hs1]; rfl
  have habsC : absorbsCore s1 c = absorbsCore s c := by rw [hs1]; rfl
  refine ⟨fun hlate herr => ⟨fun huse habs hmap => ?_, fun huse habs hf hser hsent hdata => ?_, fun huse habs => ?_⟩, fun hlate huse => ?_,
    fun hlate huse ht hw => ?_⟩
  · have hmap1 : portMap s1 (benchOf c) ((s1.slotOf c i).dst + o) true = some d := by rw [hs1]; exact hmap
    rw [exec_reply_porter hb hnext hlate huse, porterReply_lands herr (habsC.trans habs) hmap1]
  · rw [exec_reply_fill hb hnext hlate huse (habsB.trans habs), herr, ← hser]
    exact ⟨_, rfl, fillData_taken ((congrArg _ (hbench b)).trans hf) hsent hdata _⟩
  · rw [exec_reply_uload hb hnext hlate huse (habsC.trans habs), herr]
  · rw [exec_reply_late hb hnext hlate, lateMarker_core (huse.imp (fun h => ⟨_, h⟩) fun h => ⟨_, _, h⟩), ← hbench b]
    exact ⟨_, rfl, setPend_sets (by decide) .., traceSlip_counted⟩
  · have hfill : (s1.ctx t).wait.fillOf = some n := by rw [show s1.ctx t = s.ctx t by rw [hs1]; rfl, hw]; rfl
    rw [exec_reply_late hb hnext hlate]
    exact ⟨_, rfl, lateMarker_fill huse ht hfill⟩

/-- Settles O41: requests are `portRead_opens` and `portWrite_writes`; a reply's slot is `replySlot_due`, whose two ends are `sendReply_flits`
and `slip_marks`; replies and late markers at their bench are the branches of `replyArrival`. -/
theorem memoryPorts : Obligations.MemoryPorts := ⟨memoryPortServesRequests, repliesAndScheduleSlips, memoryRepliesArrive⟩

end Sys2Proof.ModuleProofs
end

section
/-! PROOFS. O37: fills and uncached loads return to the threads that wait. A completion and a containment fault may end waits of other
threads (R270, R307), but give no thread a new one, so that only the loads which wait at the start return. -/

namespace Sys2Proof.ModuleProofs
open Sys2Proof Sys2Proof.Machine Sys2Proof.Laws Sys2Proof.TileProofs Sys2Proof.CoreProofs

/-! ## Waits that end, and none that begins -/

/-- From `s` to `u` each thread waits as before, or no longer. -/
structure WaitsEnd (s u : State) : Prop where
  wait : ∀ v, (u.ctx v).wait = (s.ctx v).wait ∨ (u.ctx v).wait = .none

theorem WaitsEnd.refl (s : State) : WaitsEnd s s := ⟨fun _ => .inl rfl⟩

theorem WaitsEnd.trans {s u w : State} (h : WaitsEnd s u) (k : WaitsEnd u w) : WaitsEnd s w :=
  ⟨fun v => (k.wait v).elim (fun hk => (h.wait v).imp hk.trans hk.trans) .inr⟩

theorem WaitsEnd.of_resvOnly {s u : State} (h : ResvOnly s u) : WaitsEnd s u := ⟨fun v => .inl (by rw [h.ctxs v])⟩

theorem WaitsEnd.of_within {F : List Field} {s u : State} (h : Within F s u) (hc : Field.cores ∉ F) : WaitsEnd s u :=
  .of_resvOnly (.of_within h hc)

theorem WaitsEnd.updCtx (s : State) (t : Thread) {f : Ctx → Ctx} (hf : (f (s.ctx t)).wait = (s.ctx t).wait ∨ (f (s.ctx t)).wait = .none) :
    WaitsEnd s (s.updCtx t f) := by
  refine ⟨fun v => ?_⟩
  rw [updCtx_get]
  split
  · next h => subst h; exact hf
  · exact .inl rfl

theorem updCore_waitsEnd (s : State) (c : Nat) {f : Core → Core} (hf : ∀ k i, (f k).ctx i = k.ctx i) : WaitsEnd s (s.updCore c f) := by
  refine ⟨fun v => .inl (congrArg Ctx.wait ?_)⟩
  rw [State.ctx, updCore_get]
  split
  · next h => rw [hf, h, State.ctx]
  · rfl

theorem forAll_waitsEnd {α : Type} (l : List α) {f : α → State → State} (hf : ∀ a s, WaitsEnd s (f a s)) (s : State) :
    WaitsEnd s (forAll l f s) :=
  forAll_keeps (Q := WaitsEnd s) (fun a u hu => hu.trans (hf a u)) (.refl s)

/-! ## The completion of a held instruction -/

theorem pushOps_waitsEnd (t : Thread) (pops : Nat) (push : List Word) (s : State) : WaitsEnd s (pushOps t pops push s) := by
  unfold pushOps
  dsimp only
  split
  · exact .updCtx s t (.inl (by dsimp only; split <;> rfl))
  · refine .trans (.updCtx s t (.inl ?_)) (.of_resvOnly (spillWords_resvOnly ..))
    dsimp only [Ctx.setReg_wait]; split <;> rfl

theorem WaitsEnd.set_free {s u : State} (h : WaitsEnd s u) (n : Nat) : WaitsEnd s { u with free := n } := ⟨h.wait⟩

theorem advance_waitsEnd (t : Thread) (len : Nat) (s : State) : WaitsEnd s (advance t len s) := by
  have hset : ∀ f : Ctx → Ctx, (f (s.ctx t)).wait = (s.ctx t).wait → WaitsEnd s (s.updCtx t f) := fun f hf => .updCtx s t (.inl hf)
  unfold advance
  dsimp only
  split
  · split
    · exact hset _ rfl
    · split
      · exact hset _ rfl
      · split
        · exact (hset _ rfl).set_free _
        · exact (hset _ rfl).set_free _
  · exact hset _ rfl

theorem popHeld_waitsEnd (t : Thread) (push : List Word) (s : State) : WaitsEnd s (popHeld t push s) :=
  (WaitsEnd.updCtx s t (.inr rfl)).trans ((pushOps_waitsEnd ..).trans (advance_waitsEnd ..))

theorem stopCheck_waitsEnd (n : Nat) (t : Thread) (s : State) : WaitsEnd s (stopCheck n t s) := by
  induction n generalizing t s with
  | zero => exact .refl s
  | succ n ih =>
    unfold stopCheck
    dsimp only
    split
    · refine .trans ?_ (forAll_waitsEnd _ (fun i u => ?_) _)
      · split
        · exact .updCtx s t (.inl rfl)
        · exact .updCtx s t (.inl rfl)
      · split
        · exact (popHeld_waitsEnd ..).trans (ih ..)
        · exact .refl u
    · exact .refl s

theorem completeHeld_waitsEnd (t : Thread) (push : List Word) (s : State) : WaitsEnd s (completeHeld t push s) :=
  (popHeld_waitsEnd ..).trans (stopCheck_waitsEnd ..)

/-! ## A containment fault (R438) -/

theorem lockCtx_waitsEnd (c i : Nat) (s : State) : WaitsEnd s (lockCtx c i s) :=
  WaitsEnd.trans ⟨fun v => .inl (by rw [countSpin_ctx])⟩ (.updCtx _ _ (.inr rfl))

theorem lockedCore_waitsEnd (t : Thread) (lvl why vec : Nat) (pc : Word) (s : State) : WaitsEnd s (lockedCore t lvl why vec pc s) := by
  have hclear : WaitsEnd s (s.updCore t.core fun k => { k with tops := [], micro := [] }) := updCore_waitsEnd s t.core fun _ _ => rfl
  have hlock := hclear.trans (forAll_waitsEnd (List.range 8) (lockCtx_waitsEnd t.core) _)
  refine hlock.trans ⟨fun v => .inl ?_⟩
  rw [CoreProofs.lockedCore, updBench_ctx]

theorem lockup_waitsEnd (t : Thread) (lvl why vec : Nat) (info pc : Word) (s : State) : WaitsEnd s (lockup t lvl why vec info pc s) := by
  obtain ⟨p, l, heq⟩ := lockup_eq t lvl why vec info pc s
  have hwithin : Within [.benches, .parts, .fmn, .trc, .board] (lockedCore t lvl why vec pc s) (lockup t lvl why vec info pc s) := by
    rw [heq]
    exact lockLogged_within (by decide) (trace_within (by decide) (jobOfCore_within (by decide) (.refl ..) ..) ..) ..
  exact (lockedCore_waitsEnd ..).trans (.of_within hwithin (by decide))

theorem settleAll_wait (x : Ctx) : (settleAll x).wait = x.wait := by
  unfold settleAll settle
  split <;> rfl

theorem frameSaved_waitsEnd (t : Thread) (lvl vec : Nat) (info pc : Word) (d : Bool) (prev : Nat) (s : State) :
    WaitsEnd s (frameSaved t lvl vec info pc d prev s) := by
  have hwritten : WaitsEnd s (frameWritten t lvl vec info pc d prev s) :=
    have hstart : WaitsEnd s (entryStart t s) := .updCtx s t (.inl (settleAll_wait _))
    hstart.trans (.of_resvOnly (write_resvOnly ..))
  unfold frameSaved
  dsimp only
  split
  · exact hwritten.trans (.of_within (F := [.benches, .trc]) (trace_within (by decide) (.refl ..) ..) (by decide))
  · exact hwritten

theorem enter_waitsEnd (t : Thread) (lvl vec : Nat) (info pc : Word) (d : Bool) (prev : Nat) (s : State) :
    WaitsEnd s (enter t lvl vec info pc d prev s) := by
  rw [enter_eq]
  split
  · exact lockup_waitsEnd ..
  split
  · exact lockup_waitsEnd ..
  split
  · exact lockup_waitsEnd ..
  · exact (frameSaved_waitsEnd ..).trans (.updCtx _ t (.inr rfl))

theorem setPend_setReg_waitsEnd (c n : Nat) (v : Core → Word) (s : State) :
    WaitsEnd s (setPend c 0 (s.updCore c fun k => k.setReg n (v k))) := 
  ⟨fun t => .inl (congrArg Ctx.wait ((setPend_setReg c n v s).1 t))⟩

theorem haltOn_waitsEnd (t : Thread) (cause : Nat) (info pc : Word) (d : Bool) (s : State) : WaitsEnd s (haltOn t cause info pc d s) := by
  have htraced : WaitsEnd s (haltTraced t cause info pc d s) :=
    (WaitsEnd.updCtx s t (.inr rfl)).trans
      (.of_within (F := [.parts, .benches, .trc]) (trace_within (by decide) (jobOfCore_within (by decide) (.refl ..) ..) ..) (by decide))
  obtain ⟨v, h⟩ | ⟨n, l, v, -, -, h⟩ := haltOn_cases t cause info pc d s
  · rw [h]
    exact htraced.trans (setPend_setReg_waitsEnd ..)
  · rw [h]
    exact (htraced.trans (.of_resvOnly (write_resvOnly ..))).trans (setPend_setReg_waitsEnd ..)

theorem fault_waitsEnd (t : Thread) (cause : Nat) (info pc : Word) (d : Bool) (s : State) : WaitsEnd s (fault t cause info pc d s) := by
  have hjob : WaitsEnd s (if cause = 0x0D then jobOfCore t.core (fun j => { j with conts := j.conts + 1 }) s else s) := by
    split
    · exact .of_within (F := [.parts]) (jobOfCore_within (by decide) (.refl ..) ..) (by decide)
    · exact .refl s
  refine hjob.trans ?_
  unfold fault
  generalize (if cause = 0x0D then jobOfCore t.core (fun j => { j with conts := j.conts + 1 }) s else s) = u
  dsimp only
  split
  · exact enter_waitsEnd ..
  split
  · exact enter_waitsEnd ..
  · exact haltOn_waitsEnd ..

theorem faultHeld_waitsEnd (t : Thread) (cause : Nat) (info : Word) (s : State) : WaitsEnd s (faultHeld t cause info s) :=
  ((WaitsEnd.updCtx s t (.inr rfl)).trans (fault_waitsEnd ..)).trans (stopCheck_waitsEnd ..)

theorem loadFault_waitsEnd (t : Thread) (line : Nat) (link : Bool) (s : State) : WaitsEnd s (loadFault t line link s) :=
  WaitsEnd.trans (.of_within (F := [.benches, .fmn, .trc]) (recordCont_within (by decide) (.refl ..) ..) (by decide)) (faultHeld_waitsEnd ..)

/-! ## The loads that wait for a fill (R393, R399) -/

/-- The thread waits for the fill with this serial. -/
def WaitsFill (s : State) (k : Nat) (t : Thread) : Prop := ∃ m n sgn, (s.ctx t).wait = .load m n sgn (some k)

theorem WaitsEnd.not_waitsFill {s u : State} (h : WaitsEnd s u) {k : Nat} {t : Thread} (hw : ¬ WaitsFill s k t) : ¬ WaitsFill u k t := by
  rintro ⟨m, n, sgn, hu⟩
  obtain hk | hk := h.wait t
  · exact hw ⟨m, n, sgn, hk.symm.trans hu⟩
  · rw [hk] at hu
    cases hu

theorem threadsOf_nodup (b : Nat) : (threadsOf b).Nodup := by
  refine List.nodup_flatMap.mpr ⟨fun i _ => List.nodup_range.map fun j k h => congrArg Thread.ctx h, ?_⟩
  refine List.nodup_range.imp fun {i j} hij v hi hj => ?_
  obtain ⟨p, -, rfl⟩ := List.mem_map.mp hi
  obtain ⟨q, -, hq⟩ := List.mem_map.mp hj
  have hcore : 4 * b + j = 4 * b + i := congrArg Thread.core hq
  exact hij (by omega)

/-- What a fill does to a thread of its bench. -/
def wakeLoad (f : Fill) (data : List Byte) (t : Thread) (s : State) : State :=
  match (s.ctx t).wait with
  | .load m n sgn (some k) =>
    if k = f.serial then
      if f.err then loadFault t f.line f.link s else completeHeld t [extend n sgn (slice data (m % 64) n)] s
    else s
  | _ => s

theorem wakeLoads_eq (b : Nat) (f : Fill) (data : List Byte) (s : State) :
    wakeLoads b f data s = forAll (threadsOf b) (wakeLoad f data) s := rfl

section Wake
variable {f : Fill} {data : List Byte} {t : Thread} {s : State}

theorem wakeLoad_of_not_waits (h : ¬ WaitsFill s f.serial t) : wakeLoad f data t s = s := by
  unfold wakeLoad
  split
  · next m n sgn k hw => exact if_neg fun (hk : k = f.serial) => h ⟨m, n, sgn, hk ▸ hw⟩
  · rfl

theorem wakeLoad_of_waits {m n : Nat} {sgn : Bool} (h : (s.ctx t).wait = .load m n sgn (some f.serial)) :
    wakeLoad f data t s = if f.err then loadFault t f.line f.link s else completeHeld t [extend n sgn (slice data (m % 64) n)] s := by
  simp only [wakeLoad, h, if_pos]

theorem wakeLoad_waitsEnd : WaitsEnd s (wakeLoad f data t s) := by
  by_cases h : WaitsFill s f.serial t
  · obtain ⟨m, n, sgn, h⟩ := h
    rw [wakeLoad_of_waits h]
    split
    · exact loadFault_waitsEnd ..
    · exact completeHeld_waitsEnd ..
  · rw [wakeLoad_of_not_waits h]
    exact .refl s

variable {b : Nat}

theorem wakeLoads_none (h : ∀ v ∈ threadsOf b, ¬ WaitsFill s f.serial v) : wakeLoads b f data s = s :=
  forAll_of_unchanged fun v hv => wakeLoad_of_not_waits (h v hv)

/-- With one thread of the bench waiting, the fill does to it alone what it does. -/
theorem wakeLoads_one (ht : t ∈ threadsOf b) (h : ∀ v ∈ threadsOf b, v ≠ t → ¬ WaitsFill s f.serial v) :
    wakeLoads b f data s = wakeLoad f data t s := by
  obtain ⟨l, r, hlr⟩ := List.append_of_mem ht
  have hnodup := hlr ▸ threadsOf_nodup b
  have hmem : ∀ v, v ∈ l ∨ v ∈ r → v ∈ threadsOf b := fun v hv => by
    rw [hlr]
    exact List.mem_append.mpr (hv.imp_right (List.mem_cons_of_mem t))
  have hl : forAll l (wakeLoad f data) s = s := forAll_of_unchanged fun v hv => wakeLoad_of_not_waits <|
    h v (hmem v (.inl hv)) fun hvt => (List.nodup_append.mp hnodup).2.2 v hv t List.mem_cons_self hvt
  have hr : forAll r (wakeLoad f data) (wakeLoad f data t s) = wakeLoad f data t s := forAll_of_unchanged fun v hv => wakeLoad_of_not_waits <|
    wakeLoad_waitsEnd.not_waitsFill <| h v (hmem v (.inr hv)) fun hvt =>
      (List.nodup_cons.mp (List.nodup_append.mp hnodup).2.1).1 (hvt ▸ hv)
  rw [wakeLoads_eq, hlr]
  calc forAll (l ++ t :: r) (wakeLoad f data) s
      = forAll r (wakeLoad f data) (wakeLoad f data t (forAll l (wakeLoad f data) s)) := by simp [forAll, List.foldl_append]
    _ = wakeLoad f data t s := by rw [hl, hr]

end Wake

/-! ## FILL_COMPLETE and GLOBAL_LOAD_RETURN -/

/-- The fill is over. -/
def fillOver (b : Nat) (f : Fill) (s : State) : State :=
  s.updBench b (fun x => { x with fills := x.fills.filter (fun g => decide (g.serial ≠ f.serial)) })

/-- The bytes that a fill brings, under those stored to its line since. -/
def fillBytes (f : Fill) (d : List Byte) : List Byte := overlay d f.laid f.laidMask

/-- The fill's line is in its way. -/
def filled (b : Nat) (f : Fill) (d : List Byte) (s : State) : State :=
  actSr b ((fillOver b f s).updBench b (fun x =>
    { x with lines := { set := setOf f.line, way := f.way, line := f.line, data := fillBytes f d, bad := [], born := f.sentAt } ::
        x.lines.filter (fun l => !(decide (l.set = setOf f.line) && decide (l.way = f.way)) && decide (l.line ≠ f.line)) }))

section Fill
variable {s : State} {b : Nat} {f : Fill} {fs : List Fill} {d : List Byte} (hf : (s.bench b).fills = f :: fs) (hd : f.data = some d)
include hf hd

theorem fillComplete_err (he : f.err = true) : exec (.fillComplete b) s = .next (wakeLoads b f [] (fillOver b f s)) := by
  refine congrArg Host.Outcome.next ?_
  simp [fillComplete, hf, hd, he, fillOver]

theorem fillComplete_put (he : f.err = false) (hdrop : f.drop = false) (hrng : (s.bench b).rng = none) (hway : f.way + waysOf s b < 8) :
    exec (.fillComplete b) s = .next (wakeLoads b f (fillBytes f d) (filled b f d s)) := by
  have hput : (!f.drop && decide (f.way < fillWays s b)) = true := by
    simp only [fillWays, hrng, hdrop]
    simpa using Nat.lt_sub_of_add_lt hway
  refine congrArg Host.Outcome.next ?_
  have hfind : (s.bench b).fills.find? (fun f => f.data.isSome) = some f := by rw [hf, List.find?_cons, hd]; rfl
  have hne : ¬ f.err = true := by rw [he]; decide
  simp only [fillComplete, hfind, if_neg hne, if_pos hput, hd, Option.getD_some]
  rfl

end Fill

/-- The uncached item is over. -/
def loadOver (b : Nat) (i : UItem) (s : State) : State :=
  s.updBench b (fun x => { x with uitems := x.uitems.filter (fun v => decide (v.serial ≠ i.serial)) })

theorem globalLoadReturn_eq {s : State} {t : Thread} {i : UItem} {is : List UItem} {m n : Nat} {sgn : Bool}
    (hi : (s.bench (benchOf t.core)).uitems = i :: is) (hwr : i.write = false) (hc : i.core = t.core) (hk : i.ctx = t.ctx)
    (hst : 4 ≤ i.stage) (hw : (s.ctx t).wait = .load m n sgn none) :
    globalLoadReturn t s =
      if i.stage = 4 then completeHeld t [extend n sgn (slice i.data (m % 64) n)] (loadOver (benchOf t.core) i s)
      else loadFault t i.line (decide (i.stage = 6)) (loadOver (benchOf t.core) i s) := by
  have hreply : uncachedReply s t = some i := by simp [uncachedReply, hi, hwr, hc, hk, hst]
  simp only [globalLoadReturn, hreply, hw]
  rfl

/-- Settles O37: the way a fill takes is `filled`; who it wakes, `wakeLoads_one`; an uncached load's return is `globalLoadReturn_eq`. -/
theorem waitingLoadsReturn : Obligations.WaitingLoadsReturn := by
  unfold Obligations.WaitingLoadsReturn
  intro s b m n sgn t f fs d i is x data s1 y kept s2 waits c
  refine ⟨fun hf hd => ⟨fun he hdrop hrng hway => ⟨fun hnone => ?_, fun ht hw hone => ?_⟩, fun he ht hw hone => ?_⟩, fun hf => ?_,
    fun hi hwr hc hk hw => ⟨fun hst => ?_, fun hst => ?_⟩, fun hi => ?_⟩
  · rw [fillComplete_put hf hd he hdrop hrng hway, wakeLoads_none (s := filled b f d s) hnone]
    rfl
  · rw [fillComplete_put hf hd he hdrop hrng hway, wakeLoads_one (s := filled b f d s) ht hone,
      wakeLoad_of_waits (s := filled b f d s) hw, he]
    exact congrArg Host.Outcome.next (if_neg Bool.false_ne_true)
  · obtain ⟨m', n', sgn', hw⟩ := hw
    rw [fillComplete_err hf hd he, wakeLoads_one (s := fillOver b f s) ht hone, wakeLoad_of_waits (s := fillOver b f s) hw, he]
    exact congrArg Host.Outcome.next (if_pos rfl)
  · refine congrArg Host.Outcome.next ?_
    rw [fillComplete, hf, List.find?_nil]
  · refine congrArg Host.Outcome.next ((globalLoadReturn_eq hi hwr hc hk (by omega) hw).trans ?_)
    exact if_pos hst
  · refine congrArg Host.Outcome.next ((globalLoadReturn_eq hi hwr hc hk (by omega) hw).trans ?_)
    simp only [hst]
    rfl
  · refine congrArg Host.Outcome.next ?_
    rw [globalLoadReturn, uncachedReply, hi, List.find?_nil]

end Sys2Proof.ModuleProofs
end

section
/-! PROOFS. O39: the clicker's queue, the paths that it cuts for service requests and for COPEN, and the release of paths. -/

namespace Sys2Proof.ModuleProofs
open Sys2Proof Sys2Proof.Machine Sys2Proof.Laws

/-! ## What a change of a bench leaves alone -/

/-- A field that an update of a bench keeps is kept at every bench. -/
theorem updBench_field {α : Type} (g : Bench → α) {f : Bench → Bench} (hf : ∀ x, g (f x) = g x) (s : State) (b j : Nat) :
    g ((s.updBench b f).bench j) = g (s.bench j) := by
  rw [updBench_get]
  split
  · next h => rw [hf, h]
  · rfl

/-- What a service path, a free connection and a partition are read from: `u` has it as `s` has it, but for the router entries. -/
structure PathsAlike (s u : State) : Prop where
  conns : ∀ b, (u.bench b).conns = (s.bench b).conns
  parts : u.parts = s.parts
  paths : u.clicker.paths = s.clicker.paths

section Alike
variable {s u : State} (h : PathsAlike s u)
include h

theorem PathsAlike.connWord (b n : Nat) : connWord u b n = connWord s b n := by
  rw [Machine.connWord, h.conns, Machine.connWord]

theorem PathsAlike.servicePath (b d : Nat) : servicePath u b d = servicePath s b d := by
  simp only [Machine.servicePath, h.connWord]

theorem PathsAlike.freeConn (b : Nat) : freeConn u b = freeConn s b := by
  simp only [Machine.freeConn, h.connWord, h.paths]

theorem PathsAlike.partOf (b : Nat) : partOf u b = partOf s b := by
  simp only [Machine.partOf, State.part, h.parts]

theorem PathsAlike.period (b : Nat) : period u b = period s b := by
  simp only [Machine.period, h.partOf, State.part, h.parts]

theorem PathsAlike.samePart (a b : Nat) : samePart u a b = samePart s a b := by
  simp only [Machine.samePart, h.partOf, State.part, h.parts]

end Alike

/-! ## Router entries (R320, R338) -/

/-- The routers of `u` have the entries of those of `s`. -/
def EntriesAlike (s u : State) : Prop := ∀ b i, entry u b i = entry s b i

theorem EntriesAlike.of_pattern {s u : State} (h : ∀ b, (u.bench b).pattern = (s.bench b).pattern) : EntriesAlike s u := fun b i => by
  rw [entry, h, entry]

theorem setEntry_entry (b i v : Nat) (s : State) (c j : Nat) :
    entry (setEntry b i v s) c j = if b = c ∧ i = j then v % 2 ^ 64 else entry s c j := by
  rw [entry, setEntry, updBench_get]
  by_cases hb : b = c
  · subst hb
    rw [if_pos rfl]
    dsimp only
    rw [tblGet_tblSet]
    by_cases hi : i = j
    · rw [if_pos hi, if_pos ⟨rfl, hi⟩, BitVec.toNat_ofNat]
    · rw [if_neg hi, if_neg fun hn => hi hn.2, entry]
  · rw [if_neg hb, if_neg fun hn => hb hn.1, entry]

theorem EntriesAlike.setEntry {s u : State} (h : EntriesAlike s u) (b i : Nat) (f : Nat → Nat) :
    EntriesAlike (setEntry b i (f (entry s b i)) s) (setEntry b i (f (entry u b i)) u) := fun c j => by
  rw [setEntry_entry, setEntry_entry, h b i, h c j]

theorem forAll_alike {α : Type} (l : List α) {f : α → State → State} (hf : ∀ a s u, EntriesAlike s u → EntriesAlike (f a s) (f a u))
    {s u : State} (h : EntriesAlike s u) : EntriesAlike (forAll l f s) (forAll l f u) := by
  induction l generalizing s u with
  | nil => exact h
  | cons a l ih => exact ih (hf a s u h)

/-- A path's entries at one hop, cut or returned. -/
def hopWritten (P : Nat) (offs : List Nat) (cut : Bool) (p : Nat × Nat × Nat × Nat) (s : State) : State :=
  forAll offs (fun o s => setEntry p.2.1 ((o + 2 * p.1) % P)
    (entrySet (entry s p.2.1 ((o + 2 * p.1) % P)) p.2.2.2 (if cut then p.2.2.1 else 0) (if cut then 2 else 1)) s) s

/-- The injection of a path at its source, written or cleared. -/
def sourceWritten (conn : Nat) (offs : List Nat) (cut : Bool) (h : Nat × Nat × Nat) (s : State) : State :=
  forAll offs (fun o s => setEntry h.1 o (setBits (setBits (entry s h.1 o) 32 32 (b2n cut)) 38 33 (if cut then conn else 0)) s) s

theorem writePath_cons (P conn : Nat) (k : Nat × Nat × Nat) (r : List (Nat × Nat × Nat)) (offs : List Nat) (cut : Bool) (s : State) :
    writePath P conn (k :: r) offs cut s =
      sourceWritten conn offs cut k (forAll ((k :: r).mapIdx (fun j h => (j, h))).reverse (hopWritten P offs cut) s) := rfl

theorem hopWritten_alike (P : Nat) (offs : List Nat) (cut : Bool) (p : Nat × Nat × Nat × Nat) {s u : State} (h : EntriesAlike s u) :
    EntriesAlike (hopWritten P offs cut p s) (hopWritten P offs cut p u) :=
  forAll_alike offs (fun o _ _ h => h.setEntry p.2.1 ((o + 2 * p.1) % P) fun e =>
    entrySet e p.2.2.2 (if cut then p.2.2.1 else 0) (if cut then 2 else 1)) h

theorem sourceWritten_alike (conn : Nat) (offs : List Nat) (cut : Bool) (k : Nat × Nat × Nat) {s u : State} (h : EntriesAlike s u) :
    EntriesAlike (sourceWritten conn offs cut k s) (sourceWritten conn offs cut k u) :=
  forAll_alike offs (fun o _ _ h => h.setEntry k.1 o fun e =>
    setBits (setBits e 32 32 (b2n cut)) 38 33 (if cut then conn else 0)) h

/-- What a path's cut or return makes of the entries depends on the entries alone. -/
theorem EntriesAlike.writePath {s u : State} (h : EntriesAlike s u) (P conn : Nat) (hs : List (Nat × Nat × Nat)) (offs : List Nat) (cut : Bool) :
    EntriesAlike (writePath P conn hs offs cut s) (writePath P conn hs offs cut u) := by
  cases hs with
  | nil => exact h
  | cons k r =>
    rw [writePath_cons, writePath_cons]
    exact sourceWritten_alike _ _ _ _ (forAll_alike _ (fun p _ _ => hopWritten_alike P offs cut p) h)

theorem EntriesAlike.findOffsets {s u : State} (h : EntriesAlike s u) (P : Nat) (hs : List (Nat × Nat × Nat)) (n : Nat) :
    findOffsets u P hs n = findOffsets s P hs n := by
  have hfree : offsetFree u P hs = offsetFree s P hs := funext fun o => by simp only [offsetFree, h _ _]
  rw [Machine.findOffsets, hfree, Machine.findOffsets]

/-- The offsets that are found are free at every hop. -/
theorem findOffsets_free {s : State} {P n : Nat} {hs : List (Nat × Nat × Nat)} {offs : List Nat} (h : findOffsets s P hs n = some offs) :
    ∀ o, o ∈ offs → offsetFree s P hs o = true := fun o ho => by
  simp only [findOffsets, Option.ite_none_right_eq_some, Option.some.injEq] at h
  obtain ⟨-, rfl⟩ := h
  exact (List.mem_filter.mp (List.mem_of_mem_take ho)).2

/-- From `s` to `u` router entries alone have changed. -/
structure EntriesOnly (s u : State) : Prop where
  within : Within [.benches] s u
  bench : ∀ b, u.bench b = { s.bench b with pattern := (u.bench b).pattern }

theorem EntriesOnly.refl (s : State) : EntriesOnly s s := ⟨.refl .., fun _ => rfl⟩

theorem EntriesOnly.trans {s u v : State} (h : EntriesOnly s u) (k : EntriesOnly u v) : EntriesOnly s v :=
  ⟨h.within.trans k.within, fun b => by rw [k.bench b, h.bench b]⟩

theorem setEntry_only (b i v : Nat) (s : State) : EntriesOnly s (setEntry b i v s) := by
  refine ⟨setEntry_within (List.Subset.refl _) (.refl ..) .., fun j => ?_⟩
  rw [setEntry, updBench_get]
  split
  · next h => rw [h]
  · rfl

theorem forAll_only {α : Type} (l : List α) {f : α → State → State} (hf : ∀ a s, EntriesOnly s (f a s)) (s : State) :
    EntriesOnly s (forAll l f s) :=
  forAll_keeps (Q := EntriesOnly s) (fun a u hu => hu.trans (hf a u)) (.refl s)

theorem writePath_only (P conn : Nat) (hs : List (Nat × Nat × Nat)) (offs : List Nat) (cut : Bool) (s : State) :
    EntriesOnly s (writePath P conn hs offs cut s) := by
  cases hs with
  | nil => exact .refl s
  | cons k r =>
    rw [writePath_cons]
    exact (forAll_only _ (fun p s => forAll_only offs (fun o s => setEntry_only ..) s) s).trans (forAll_only offs (fun o s => setEntry_only ..) _)

/-! ## Connections (R330) -/

theorem setConn_connWord (b n w : Nat) (s : State) : connWord (setConn b n w s) b n = w % 2 ^ 64 := by
  rw [connWord, setConn, updBench_bench, tblGet_tblSet_same, BitVec.toNat_ofNat]

theorem setConn_pattern (b n w : Nat) (s : State) (j : Nat) : ((setConn b n w s).bench j).pattern = (s.bench j).pattern := by
  unfold setConn
  exact updBench_field Bench.pattern (fun _ => by rfl) ..

/-! ## A path that can be cut (R337) -/

/-- The path of `n` slots from bench `a` to bench `d` on connection `c`. -/
def newPath (a d kind c : Nat) (offs : List Nat) (s : State) : CPath :=
  { src := a, dst := d, conn := c, part := (partOf s a).getD 0, offs := offs, hops := pathHops a d, kind := kind,
    users := if kind = 1 then 1 else 0, release := false, freeAt := none }

/-- The machine once that path is cut. -/
def pathCut (a d n type kind c : Nat) (offs : List Nat) (s : State) : State :=
  let s1 := setConn a c (mkConn type d n false) (writePath (period s a) c (pathHops a d) offs true s)
  { s1 with clicker := { s1.clicker with paths := s1.clicker.paths ++ [newPath a d kind c offs s] } }

section Cut
variable {s : State} {a d n type kind c : Nat} {offs : List Nat}

theorem cutPath_cut (hc : freeConn s a = some c) (ho : findOffsets s (period s a) (pathHops a d) n = some offs) :
    cutPath a d n type kind s = .ok (c, pathCut a d n type kind c offs s) := by
  simp only [cutPath, hc, ho]
  rfl

theorem freeConn_notValid (hc : freeConn s a = some c) : connValid (connWord s a c) = false := by
  have hfound := List.find?_some hc
  simp only [Bool.and_eq_true, Bool.not_eq_true'] at hfound
  exact hfound.1

theorem pathCut_connWord : connWord (pathCut a d n type kind c offs s) a c = (mkConn type d n false) % 2 ^ 64 :=
  setConn_connWord ..

theorem pathCut_entry (b i : Nat) :
    entry (pathCut a d n type kind c offs s) b i = entry (writePath (period s a) c (pathHops a d) offs true s) b i :=
  EntriesAlike.of_pattern (fun j => setConn_pattern a c _ _ j) b i

theorem pathCut_clicker : (pathCut a d n type kind c offs s).clicker =
    { s.clicker with paths := s.clicker.paths ++ [newPath a d kind c offs s] } := by
  have hkeep : (setConn a c (mkConn type d n false) (writePath (period s a) c (pathHops a d) offs true s)).clicker = s.clicker :=
    (writePath_only (period s a) c (pathHops a d) offs true s).within.out .clicker (by decide)
  rw [pathCut, hkeep]

/-- A cut changes of the benches the entries and the connections alone. -/
theorem pathCut_field {α : Type} (g : Bench → α) (hg : ∀ x p, g { x with pattern := p } = g x) (hc : ∀ x p, g { x with conns := p } = g x)
    (j : Nat) : g ((pathCut a d n type kind c offs s).bench j) = g (s.bench j) := by
  refine (updBench_field g (f := fun x => { x with conns := _ }) (fun _ => hc ..) _ a j).trans ?_
  rw [(writePath_only (period s a) c (pathHops a d) offs true s).bench j, hg]

theorem pathCut_within : Within [.benches, .clicker] s (pathCut a d n type kind c offs s) :=
  have hwrite := writePath_within (F := [.benches, .clicker]) (by decide) (.refl _ s) (period s a) c (pathHops a d) offs true
  .set_clicker (by decide) (setConn_within (by decide) hwrite ..)

end Cut

/-! ## The request reaches the queue (R339) -/

/-- What the clicker does with a request that its queue has no place for. -/
def queueFull (r : CReq) (s : State) : State :=
  match r with
  | .copen c h => answerOpen clickerStop c h 4 (unclaim c h s)
  | .service a d => refuseService a d (s.updBench a (fun x => { x with pathAsk := x.pathAsk.erase d }))

section Request
variable {s s1 : State} {p : RingPkt} (h : nextPacket s (fun p => ∃ r, p.msg = .request r) p s1)
include h

theorem nextPacket_clicker : s1.clicker = s.clicker := by
  obtain ⟨l, r, -, -, -, -, rfl⟩ := h
  rfl

theorem nextPacket_marked (r : CReq) : reqMarked s1 r = reqMarked s r := by
  obtain ⟨l, r, -, -, -, -, rfl⟩ := h
  rfl

theorem exec_clickerRequest {r : CReq} (hr : p.msg = .request r) : exec .clickerRequest s = .next (
    if reqMarked s r then dropReq r s1 else if 256 ≤ s.clicker.queue.length then queueFull r s1
    else { s1 with clicker := { s.clicker with queue := s.clicker.queue ++ [r] } }) := by
  refine congrArg Host.Outcome.next ?_
  unfold clickerRequest
  dsimp only
  rw [ringTake_nextPacket h ?_]
  · simp only [hr, nextPacket_marked h, nextPacket_clicker h]
    cases r <;> rfl
  · intro x
    split <;> simp_all

end Request

/-! ## Serving a request for a service path (R344) -/

/-- The clicker has taken the first request, and the rest are `rest`. -/
def served (rest : List CReq) (s : State) : State := { s with clicker := { s.clicker with queue := rest } }

/-- The bench has asked for the path no longer. -/
def asked (a d : Nat) (s : State) : State := s.updBench a (fun x => { x with pathAsk := x.pathAsk.erase d })

theorem asked_field {α : Type} (g : Bench → α) (hg : ∀ x l, g { x with pathAsk := l } = g x) (a d : Nat) (s : State) (b : Nat) :
    g ((asked a d s).bench b) = g (s.bench b) :=
  updBench_field g (f := fun x => { x with pathAsk := x.pathAsk.erase d }) (fun _ => hg ..) s a b

theorem asked_served_alike (a d : Nat) (rest : List CReq) (s : State) : PathsAlike s (asked a d (served rest s)) :=
  ⟨asked_field Bench.conns (fun _ _ => rfl) a d (served rest s), rfl, rfl⟩

theorem served_alike (rest : List CReq) (s : State) : PathsAlike s (served rest s) := ⟨fun _ => rfl, rfl, rfl⟩

theorem asked_served_entries (a d : Nat) (rest : List CReq) (s : State) : EntriesAlike s (asked a d (served rest s)) :=
  .of_pattern (asked_field Bench.pattern (fun _ _ => rfl) a d (served rest s))

section Service
variable {s : State} {a d c : Nat} {rest : List CReq} {offs : List Nat}

theorem clickerServe_service (hq : s.clicker.queue = .service a d :: rest) (hm : reqMarked s (.service a d) = false)
    (hp : servicePath s a d = none) (hpart : samePart s a d = true) (hc : freeConn s a = some c)
    (ho : findOffsets s (period s a) (pathHops a d) 1 = some offs) :
    exec .clickerServe s = .next (pathCut a d 1 2 2 c offs (asked a d (served rest s))) := by
  have hcut : cutPath a d 1 2 2 (asked a d (served rest s)) = .ok (c, pathCut a d 1 2 2 c offs (asked a d (served rest s))) := by
    have halike := asked_served_alike a d rest s
    refine cutPath_cut ((halike.freeConn a).trans hc) ?_
    rw [(asked_served_entries a d rest s).findOffsets, halike.period, ho]
  have hserve : serveService a d (served rest s) = pathCut a d 1 2 2 c offs (asked a d (served rest s)) := by
    have hnone : ¬ (servicePath (asked a d (served rest s)) a d).isSome = true := by
      rw [(asked_served_alike a d rest s).servicePath, hp]; decide
    have hsame : samePart (served rest s) a d = true := ((served_alike rest s).samePart a d).trans hpart
    rw [asked] at hcut hnone
    simp only [serveService, if_neg hnone, if_pos hsame, hcut]
    rfl
  have hmark : ¬ reqMarked (served rest s) (.service a d) = true := by
    rw [show reqMarked (served rest s) (.service a d) = reqMarked s (.service a d) from rfl, hm]; decide
  refine congrArg Host.Outcome.next ?_
  rw [served] at hmark hserve
  simp only [clickerServe, hq, if_neg hmark, hserve]
  rfl

end Service

/-! ## Serving a COPEN (R341, R449, R450) -/

theorem updChanOf_chanOf (s : State) (c h : Nat) (f : Chan → Chan) : (s.updChanOf c h f).chanOf c h = f (s.chanOf c h) := by
  rw [State.chanOf, State.updChanOf, updBench_bench]
  exact tblGet_tblUpd_same ..

theorem updChanOf_field {α : Type} (g : Bench → α) (hg : ∀ x l, g { x with chans := l } = g x) (s : State) (c h : Nat) (f : Chan → Chan)
    (b : Nat) : g ((s.updChanOf c h f).bench b) = g (s.bench b) :=
  updBench_field g (f := fun x => x.updChan (chanIx c h) f) (fun _ => hg ..) s (benchOf c) b

theorem updQueueOf_queueOf (s : State) (c q : Nat) (f : Queue → Queue) : (s.updQueueOf c q f).queueOf c q = f (s.queueOf c q) := by
  rw [State.queueOf, State.updQueueOf, updBench_bench]
  exact tblGet_tblUpd_same ..

theorem updQueueOf_field {α : Type} (g : Bench → α) (hg : ∀ x l, g { x with queues := l } = g x) (s : State) (c q : Nat) (f : Queue → Queue)
    (b : Nat) : g ((s.updQueueOf c q f).bench b) = g (s.bench b) :=
  updBench_field g (f := fun x => x.updQueue (chanIx c q) f) (fun _ => hg ..) s (benchOf c) b

/-- The channel is open on connection `n`, and its queue attached. -/
def opened (c h n : Nat) (s : State) : State := openChan c h n (attach c h s)

section Opened
variable (c h n : Nat) (s : State)

theorem opened_chan : ((opened c h n s).chanOf c h).state = 2 ∧ ((opened c h n s).chanOf c h).conn = n := by
  rw [opened, openChan, updChanOf_chanOf]
  exact ⟨rfl, rfl⟩

theorem opened_queue : ((opened c h n s).queueOf (s.chanOf c h).dst (s.chanOf c h).dq).state = 1 := by
  have hkeep := updChanOf_field Bench.queues (fun _ _ => rfl) (attach c h s) c h
  rw [State.queueOf, Bench.queue, opened, openChan, hkeep, ← Bench.queue, ← State.queueOf, attach, updQueueOf_queueOf]

theorem opened_connWord (b m : Nat) : connWord (opened c h n s) b m = connWord s b m := by
  rw [connWord, opened, openChan, updChanOf_field Bench.conns (fun _ _ => rfl), attach, updQueueOf_field Bench.conns (fun _ _ => rfl), connWord]

end Opened

theorem clickerServe_copen {s : State} {c h : Nat} {rest : List CReq} (hq : s.clicker.queue = .copen c h :: rest)
    (hm : reqMarked s (.copen c h) = false) : exec .clickerServe s = .next (serveCopen c h (served rest s)) := by
  have hmark : ¬ reqMarked (served rest s) (.copen c h) = true := by
    rw [show reqMarked (served rest s) (.copen c h) = reqMarked s (.copen c h) from rfl, hm]; decide
  refine congrArg Host.Outcome.next ?_
  rw [served] at *
  simp only [clickerServe, hq, if_neg hmark]

section Copen
variable {s : State} {c h : Nat} (hst : (s.chanOf c h).state = 1) (hclaim : claimed s c h = true) (hn0 : (s.chanOf c h).nslot ≠ 0)
  (hn : (s.chanOf c h).nslot ≤ 64) (hdst : (s.chanOf c h).dst < 512)
  (hpart : samePart s (benchOf c) (benchOf (s.chanOf c h).dst) = true)
include hst hclaim hn0 hn hdst hpart

/-- A COPEN whose claim stands opens its channel when its paths can be cut. -/
theorem serveCopen_ok {n : Nat} {s2 : State} (hcut : cutBoth (benchOf c) (benchOf (s.chanOf c h).dst) (s.chanOf c h).nslot s = .ok (n, s2)) :
    serveCopen c h s = answerOpen clickerStop c h 0 (opened c h n s2) := by
  have hlen : ¬ ((s.chanOf c h).nslot = 0 ∨ 64 < (s.chanOf c h).nslot ∨ 512 ≤ (s.chanOf c h).dst) := by omega
  simp [serveCopen, hst, hclaim, if_neg hlen, hpart, hcut, opened]

theorem serveCopen_error {e : Nat} (hcut : cutBoth (benchOf c) (benchOf (s.chanOf c h).dst) (s.chanOf c h).nslot s = .error e) :
    serveCopen c h s = answerOpen clickerStop c h e (unclaim c h s) := by
  have hlen : ¬ ((s.chanOf c h).nslot = 0 ∨ 64 < (s.chanOf c h).nslot ∨ 512 ≤ (s.chanOf c h).dst) := by omega
  simp [serveCopen, hst, hclaim, if_neg hlen, hpart, hcut]

end Copen

/-- With a service path back, the forward path alone is cut. -/
theorem cutBoth_back {s : State} {m n : Nat} {offs : List Nat} {a d k : Nat} (hback : servicePath s d a = some m) (hc : freeConn s a = some n)
    (ho : findOffsets s (period s a) (pathHops a d) k = some offs) :
    cutBoth a d k s = .ok (n, holdBack d a (pathCut a d k 1 0 n offs s)) := by
  simp [cutBoth, hback, hc, cutPath_cut hc ho]

/-- What the benches and the ring are once the forward path is cut and the service path back held. -/
theorem heldCut_kept (a d k n : Nat) (offs : List Nat) (s : State) :
    let u := holdBack d a (pathCut a d k 1 0 n offs s)
    (∀ c h, u.chanOf c h = s.chanOf c h) ∧ connWord u a n = (mkConn 1 d k false) % 2 ^ 64 ∧ u.ring = s.ring := by
  refine ⟨fun c h => ?_, pathCut_connWord (kind := 0), (pathCut_within (n := k) (type := 1) (kind := 0)).out .ring (by decide)⟩
  exact congrArg (tblGet chanD · (chanIx c h)) (pathCut_field (kind := 0) Bench.chans (fun _ _ => rfl) (fun _ _ => rfl) (benchOf c))

/-- The answer to a COPEN whose paths are cut. -/
theorem answered_opens {s s2 : State} {c h n w : Nat} (hchan : s2.chanOf c h = s.chanOf c h) (hconn : connWord s2 (benchOf c) n = w)
    (hring : s2.ring = s.ring) :
    let u := answerOpen clickerStop c h 0 (opened c h n s2)
    (u.chanOf c h).state = 2 ∧ (u.chanOf c h).conn = n ∧ (u.queueOf (s.chanOf c h).dst (s.chanOf c h).dq).state = 1 ∧
      connWord u (benchOf c) n = w ∧ sentPacket s u clickerStop (rowStop (benchOf c)) (.answer c h 0) := by
  obtain ⟨hopen, hon⟩ := opened_chan c h n s2
  have hqueue := opened_queue c h n s2
  rw [hchan] at hqueue
  exact ⟨hopen, hon, hqueue, (opened_connWord ..).trans hconn, _, congrArg (· ++ _) hring, rfl, rfl, rfl, rfl, rfl⟩

theorem benchOf_lt {c : Nat} (h : c < 512) : benchOf c < 128 := by
  unfold benchOf
  omega

theorem mkConn_mod {type d n : Nat} (ht : type < 4) (hd : d < 128) (hn : n ≤ 64) : mkConn type d n false % 2 ^ 64 = mkConn type d n false := by
  have hassay : b2n false = 0 := rfl
  rw [mkConn]
  omega

theorem clickerServesRequests : Claims.ClickerServesRequests := by
  intro s s1 s2 p r rest a d c h n m e offs x got
  refine ⟨fun hnext hr => ?_, fun hq hm hp hd hpart hc ho => ⟨findOffsets_free ho, freeConn_notValid hc, _,
    clickerServe_service hq hm hp hpart hc ho, ?_⟩, fun hq hm hst hclaim hn0 hn hdst hpart => ?_, fun hq => ?_⟩
  · have hexec := exec_clickerRequest hnext hr
    refine ⟨fun hm hq => ?_, fun hm hq hrc => ?_, fun hm hrc => ?_⟩
    · rw [hexec, if_neg (by rw [hm]; decide), if_neg (by omega)]
    · rw [hexec, if_neg (by rw [hm]; decide), if_pos hq, hrc, queueFull]
    · rw [hexec, if_pos hm, hrc, dropReq]
  · refine ⟨?_, pathCut_connWord.trans (mkConn_mod (by decide) hd (by decide)), fun b i => ?_, ?_, ?_⟩
    · rw [pathCut_clicker]; rfl
    · rw [pathCut_entry, (asked_served_alike a d rest s).period, (asked_served_entries a d rest s).writePath]
    · rw [pathCut_field Bench.pathAsk (fun _ _ => rfl) (fun _ _ => rfl), asked, updBench_bench]
      rfl
    · rw [pathCut_clicker, newPath, (asked_served_alike a d rest s).partOf]
      rfl
  · have hexec := clickerServe_copen hq hm
    refine ⟨fun hback hc ho => ?_, fun hcut => ?_, fun hcut => ?_⟩
    · have hcut := cutBoth_back (s := served rest s) hback hc ho
      obtain ⟨hchan, hconn, hring⟩ := heldCut_kept (benchOf c) (benchOf x.dst) x.nslot n offs (served rest s)
      exact ⟨_, hexec.trans (congrArg Host.Outcome.next (serveCopen_ok (s := served rest s) hst hclaim hn0 hn hdst hpart hcut)),
        answered_opens (hchan c h) (hconn.trans (mkConn_mod (by decide) (benchOf_lt hdst) hn)) hring⟩
    · exact hexec.trans (congrArg Host.Outcome.next (serveCopen_ok (s := served rest s) hst hclaim hn0 hn hdst hpart hcut))
    · exact hexec.trans (congrArg Host.Outcome.next (serveCopen_error (s := served rest s) hst hclaim hn0 hn hdst hpart hcut))
  · refine congrArg Host.Outcome.next ?_
    rw [clickerServe, hq]

end Sys2Proof.ModuleProofs
end

section
/-! PROOFS. O39: service paths asked for, and paths released. -/

namespace Sys2Proof.ModuleProofs
open Sys2Proof Sys2Proof.Machine Sys2Proof.Laws

/-! ## A service path is asked for (R344) -/

section Ask
variable {s : State} {a d : Nat} (ha : a < 128) (hd : d < 128)
include ha hd

theorem exec_servicePathRequest : exec (.servicePathRequest a d) s = .next (servicePathRequest a d s) :=
  congrArg Host.Outcome.next (if_pos ⟨ha, hd⟩)

theorem servicePathRequest_asks {q : OQItem} (hq : q ∈ (s.bench a).oq) (hc : q.conn = none) (hqd : q.dst = d) (hdue : q.due ≤ s.now)
    (hp : servicePath s a d = none) (hpart : samePart s a d = true) (hask : d ∉ (s.bench a).pathAsk) :
    exec (.servicePathRequest a d) s = .next (ringPut (rowStop a) clickerStop (.request (.service a d))
      (s.updBench a (fun x => { x with pathAsk := d :: x.pathAsk }))) := by
  have hany : (s.bench a).oq.any (fun i => needsPath d i && decide (i.due ≤ s.now)) = true :=
    List.any_eq_true.mpr ⟨q, hq, by simp [needsPath, hc, hqd, hdue]⟩
  rw [exec_servicePathRequest ha hd, servicePathRequest]
  refine congrArg Host.Outcome.next (if_pos ?_)
  simp [hany, hp, hpart, hask]

theorem servicePathRequest_asked (hask : d ∈ (s.bench a).pathAsk) : exec (.servicePathRequest a d) s = .next s := by
  rw [exec_servicePathRequest ha hd, servicePathRequest]
  refine congrArg Host.Outcome.next (if_neg ?_)
  simp [hask]

end Ask

/-! ## The one path of a connection (R342) -/

section One
variable {l r : List CPath} {p : CPath} {mine : CPath → Bool}

theorem find?_middle (hl : ∀ x, x ∈ l → mine x = false) (hp : mine p = true) : (l ++ p :: r).find? mine = some p := by
  rw [List.find?_append, List.find?_eq_none.mpr (fun x hx => by rw [hl x hx]; decide), Option.none_or, List.find?_cons_of_pos hp]

theorem find?_outside (hl : ∀ x, x ∈ l → mine x = false) (hp : mine p = false) (hr : ∀ x, x ∈ r → mine x = false) :
    (l ++ p :: r).find? mine = none := by
  refine List.find?_eq_none.mpr fun x hx => ?_
  rw [List.mem_append, List.mem_cons] at hx
  obtain hx | rfl | hx := hx
  · rw [hl x hx]; decide
  · rw [hp]; decide
  · rw [hr x hx]; decide

theorem map_middle (f : CPath → CPath) (hl : ∀ x, x ∈ l → mine x = false) (hp : mine p = true) (hr : ∀ x, x ∈ r → mine x = false) :
    (l ++ p :: r).map (fun x => if mine x then f x else x) = l ++ f p :: r := by
  have hkeep : ∀ m : List CPath, (∀ x, x ∈ m → mine x = false) → m.map (fun x => if mine x then f x else x) = m := fun m hm => by
    refine (List.map_congr_left fun x hx => ?_).trans (List.map_id m)
    rw [hm x hx]
    rfl
  rw [List.map_append, List.map_cons, hkeep l hl, hkeep r hr, if_pos hp]

theorem filter_middle (hl : ∀ x, x ∈ l → mine x = false) (hp : mine p = true) (hr : ∀ x, x ∈ r → mine x = false) :
    (l ++ p :: r).filter (fun x => !mine x) = l ++ r := by
  have hkeep : ∀ m : List CPath, (∀ x, x ∈ m → mine x = false) → m.filter (fun x => !mine x) = m := fun m hm =>
    List.filter_eq_self.mpr fun x hx => by rw [hm x hx]; rfl
  rw [List.filter_append, List.filter_cons_of_neg (by rw [hp]; decide), hkeep l hl, hkeep r hr]

end One

/-- A path that the clicker is to take back. -/
def toRelease (a n : Nat) (x : CPath) : Bool := decide (x.src = a) && decide (x.conn = n) && x.release && decide (x.freeAt = none)

/-- A path whose routers may be returned at `now`. -/
def toFree (now a n : Nat) (x : CPath) : Bool :=
  decide (x.src = a) && decide (x.conn = n) && (match x.freeAt with
    | some u => decide (u ≤ now)
    | none => false)

theorem toFree_eq {now a n i : Nat} {x : CPath} (ha : x.src = a) (hn : x.conn = n) (hi : x.freeAt = some i) :
    toFree now a n x = decide (i ≤ now) := by
  simp [toFree, ha, hn, hi]

/-- PATH_ROUTERS_FREED with a path whose routers may be returned. -/
theorem pathRoutersFreed_some {s : State} {a n : Nat} {p : CPath} (h : s.clicker.paths.find? (toFree s.now a n) = some p) :
    pathRoutersFreed a n s =
      let s1 := writePath (period s a) n p.hops p.offs false s
      { s1 with clicker := { s1.clicker with paths := s1.clicker.paths.filter (fun q => !toFree s.now a n q) } } := by
  unfold pathRoutersFreed
  dsimp only
  split
  · next hnone => exact absurd (h.symm.trans hnone) (by simp)
  · next q hq =>
    obtain rfl : p = q := Option.some.inj (h.symm.trans hq)
    rfl

theorem pathRoutersFreed_none {s : State} {a n : Nat} (h : s.clicker.paths.find? (toFree s.now a n) = none) :
    pathRoutersFreed a n s = s := by
  unfold pathRoutersFreed
  dsimp only
  split
  · rfl
  · next q hq => exact absurd (h.symm.trans hq) (by simp)

section Release
variable {s : State} {a n : Nat} {p : CPath} {l r : List CPath} (hpaths : s.clicker.paths = l ++ p :: r)
  (hothers : ∀ x, x ∈ l ++ r → ¬ (x.src = a ∧ x.conn = n)) (ha : p.src = a) (hn : p.conn = n)

theorem toRelease_other {x : CPath} (h : ¬ (x.src = a ∧ x.conn = n)) : toRelease a n x = false := by
  simp only [toRelease, ← Bool.decide_and, decide_eq_false h, Bool.false_and]

theorem toFree_other {now : Nat} {x : CPath} (h : ¬ (x.src = a ∧ x.conn = n)) : toFree now a n x = false := by
  simp only [toFree, ← Bool.decide_and, decide_eq_false h, Bool.false_and]

include hpaths hothers ha hn

theorem pathRelease_releases (hrel : p.release = true) (hfree : p.freeAt = none) (hkind : p.kind = 0)
    (hoq : ∀ q, q ∈ (s.bench a).oq → q.conn ≠ some n) :
    exec (.pathRelease a n) s = .next { setConn a n 0 s with clicker := { s.clicker with
      paths := l ++ { p with freeAt := some (s.now + period s a + 2 * (p.hops.length - 1) + 2) } :: r } } := by
  have hl : ∀ x, x ∈ l → toRelease a n x = false := fun x hx => toRelease_other (hothers x (List.mem_append_left _ hx))
  have hr : ∀ x, x ∈ r → toRelease a n x = false := fun x hx => toRelease_other (hothers x (List.mem_append_right _ hx))
  have hmine : toRelease a n p = true := by simp [toRelease, ha, hn, hrel, hfree]
  have hleft : ¬ (s.bench a).oq.any (fun i => decide (i.conn = some n) || (decide (p.kind = 1) && needsPath p.dst i)) = true := by
    simpa [hkind] using hoq
  have hfind : s.clicker.paths.find? (toRelease a n) = some p := by rw [hpaths, find?_middle hl hmine]
  have hmap := map_middle (fun q => { q with freeAt := some (s.now + period s a + 2 * (q.hops.length - 1) + 2) }) hl hmine hr
  rw [← hpaths] at hmap
  unfold toRelease at hfind hmap
  refine congrArg Host.Outcome.next ?_
  simp only [pathRelease, hfind, if_neg hleft]
  exact congrArg (fun m => { setConn a n 0 s with clicker := { s.clicker with paths := m } }) hmap

omit ha hn in
theorem pathRelease_waits (hrel : p.release = false) : exec (.pathRelease a n) s = .next s := by
  have hfind : s.clicker.paths.find? (toRelease a n) = none := by
    rw [hpaths, find?_outside (fun x hx => toRelease_other (hothers x (List.mem_append_left _ hx))) (by simp [toRelease, hrel])
      (fun x hx => toRelease_other (hothers x (List.mem_append_right _ hx)))]
  unfold toRelease at hfind
  refine congrArg Host.Outcome.next ?_
  simp only [pathRelease, hfind]

variable {i : Nat} (hi : p.freeAt = some i)
include hi

theorem pathRoutersFreed_frees (hdue : i ≤ s.now) :
    exec (.pathRoutersFreed a n) s =
      .next { writePath (period s a) n p.hops p.offs false s with clicker := { s.clicker with paths := l ++ r } } := by
  have hl : ∀ x, x ∈ l → toFree s.now a n x = false := fun x hx => toFree_other (hothers x (List.mem_append_left _ hx))
  have hr : ∀ x, x ∈ r → toFree s.now a n x = false := fun x hx => toFree_other (hothers x (List.mem_append_right _ hx))
  have hmine : toFree s.now a n p = true := (toFree_eq ha hn hi).trans (decide_eq_true hdue)
  have hfind : s.clicker.paths.find? (toFree s.now a n) = some p := by rw [hpaths, find?_middle hl hmine]
  have hclicker : (writePath (period s a) n p.hops p.offs false s).clicker = s.clicker :=
    (writePath_only ..).within.out .clicker (by decide)
  have hfilter := filter_middle hl hmine hr
  rw [← hpaths] at hfilter
  refine congrArg Host.Outcome.next ((pathRoutersFreed_some hfind).trans ?_)
  dsimp only
  rw [hclicker, hfilter]

theorem pathRoutersFreed_waits (hdue : s.now < i) : exec (.pathRoutersFreed a n) s = .next s := by
  have hmine : toFree s.now a n p = false := (toFree_eq ha hn hi).trans (decide_eq_false (Nat.not_le.mpr hdue))
  have hfind : s.clicker.paths.find? (toFree s.now a n) = none := by
    rw [hpaths, find?_outside (fun x hx => toFree_other (hothers x (List.mem_append_left _ hx))) hmine
      (fun x hx => toFree_other (hothers x (List.mem_append_right _ hx)))]
  exact congrArg Host.Outcome.next (pathRoutersFreed_none hfind)

end Release

theorem pathsAreAskedForAndReleased : Claims.PathsAreAskedForAndReleased := by
  intro s a d n p q i l r
  refine ⟨fun ha hd hq hc hqd hdue hp hpart => ⟨fun hask => ?_, servicePathRequest_asked ha hd⟩,
    fun hpaths hothers ha hn => ⟨fun hrel hfree hkind hoq => ?_, pathRelease_waits hpaths hothers, fun hi =>
      ⟨pathRoutersFreed_frees hpaths hothers ha hn hi, pathRoutersFreed_waits hpaths hothers ha hn hi⟩⟩⟩
  · exact ⟨_, servicePathRequest_asks ha hd hq hc hqd hdue hp hpart hask,
      congrArg Bench.pathAsk (updBench_bench s a (fun x => { x with pathAsk := d :: x.pathAsk })), ringPut_sentPacket ..⟩
  · exact ⟨_, pathRelease_releases hpaths hothers ha hn hrel hfree hkind hoq, setConn_connWord .., rfl⟩

/-- Settles O39: a request's way into the queue is `exec_clickerRequest`, the path of a service request `clickerServe_service`, that of a
COPEN `serveCopen_ok` and `serveCopen_error`; a path is taken back by `pathRelease_releases` and `pathRoutersFreed_frees`. -/
theorem clickerAndPaths : Obligations.ClickerAndPaths := ⟨clickerServesRequests, pathsAreAskedForAndReleased⟩

end Sys2Proof.ModuleProofs
end

section
/-! PROOFS. O40: what an injection leaves of the pattern and of the partitions, which every router of the mesh cycle then reads. -/

namespace Sys2Proof.ModuleProofs
open Sys2Proof Sys2Proof.Machine Sys2Proof.Laws Sys2Proof.CoreProofs

/-! ## The pattern and the partitions kept (R320, R326) -/

/-- From `s` to `u` no router entry has changed, and the partitions only in their programs. -/
structure MeshKept (s u : State) : Prop where
  pattern : ∀ b, (u.bench b).pattern = (s.bench b).pattern
  part : ∀ p, { u.part p with progs := [] } = { s.part p with progs := [] }

theorem MeshKept.refl (s : State) : MeshKept s s := ⟨fun _ => rfl, fun _ => rfl⟩

theorem MeshKept.trans {s u v : State} (h : MeshKept s u) (k : MeshKept u v) : MeshKept s v :=
  ⟨fun b => (k.pattern b).trans (h.pattern b), fun p => (k.part p).trans (h.part p)⟩

/-- The same, from the last change to the first. -/
theorem MeshKept.after {s u v : State} (k : MeshKept u v) (h : MeshKept s u) : MeshKept s v := h.trans k

theorem MeshKept.of_within {F : List Field} {s u : State} (h : Within F s u) (hb : Field.benches ∉ F) (hp : Field.parts ∉ F) :
    MeshKept s u :=
  ⟨fun b => by rw [bench_of_within h hb], fun p => by rw [part_of_within h hp]⟩

theorem MeshKept.updBench (s : State) (b : Nat) {f : Bench → Bench} (hf : ∀ x, (f x).pattern = x.pattern) : MeshKept s (s.updBench b f) :=
  ⟨updBench_field Bench.pattern hf s b, fun _ => rfl⟩

theorem MeshKept.of_records {s u : State} (h : RecordsOnly s u) (hp : u.parts = s.parts) : MeshKept s u :=
  ⟨fun b => by rw [h.bench b], fun p => by rw [State.part, hp]; rfl⟩

theorem MeshKept.of_answers {s u : State} (h : AnswersOnly s u) (hp : u.parts = s.parts) : MeshKept s u :=
  ⟨fun b => by rw [h.bench b], fun p => by rw [State.part, hp]; rfl⟩

theorem forAll_kept {α : Type} (l : List α) {f : α → State → State} (hf : ∀ a s, MeshKept s (f a s)) (s : State) :
    MeshKept s (forAll l f s) :=
  forAll_keeps (Q := MeshKept s) (fun a u hu => hu.trans (hf a u)) (.refl s)

/-- A job stands in its program, which no router reads. -/
theorem MeshKept.updJob (s : State) (p : Nat) (f : Job → Job) : MeshKept s (updJob p f s) := by
  refine ⟨fun _ => rfl, fun j => ?_⟩
  rw [Machine.updJob, updPart_get]
  split
  · next h => subst h; dsimp only; split <;> rfl
  · rfl

theorem jobOfCore_kept (c : Nat) (f : Job → Job) (s : State) : MeshKept s (jobOfCore c f s) := by
  unfold jobOfCore
  split
  · exact .updJob ..
  · exact .refl s

/-! ## Counters, records and memory -/

theorem count_kept (b o n : Nat) (s : State) : MeshKept s (count b o n s) := .updBench s b fun _ => rfl

theorem act_kept (b o n : Nat) (s : State) : MeshKept s (act b o n s) := .updBench s b fun _ => rfl

theorem trace_kept (b core ctx type sub : Nat) (l : List Byte) (s : State) : MeshKept s (trace b core ctx type sub l s) :=
  .of_records (trace_records ..) ((trace_within (F := [.benches, .trc]) (by decide) (.refl ..) ..).out .parts (by decide))

theorem logEvent_kept (a b c : Nat) (l : List Byte) (s : State) : MeshKept s (logEvent a b c l s) :=
  .of_within (F := [.fmn]) (logEvent_within (by decide) (.refl ..) ..) (by decide) (by decide)

theorem recordCont_kept (c src addr : Nat) (s : State) : MeshKept s (recordCont c src addr none s) := by
  unfold recordCont
  extract_lets b old new s1 p s2
  have hs1 : MeshKept s s1 := .updBench s b fun _ => rfl
  have hs2 : MeshKept s1 s2 := trace_kept ..
  exact (hs1.trans hs2).trans (logEvent_kept ..)

theorem setPend_kept (c i : Nat) (s : State) : MeshKept s (setPend c i s) :=
  .of_within (F := [.cores]) (setPend_within (by decide) (.refl ..) ..) (by decide) (by decide)

theorem actLines_kept (a n : Nat) (s : State) : MeshKept s (actLines a n s) := by
  unfold actLines
  split
  · exact act_kept ..
  · exact .refl s

theorem set_bad_kept (s : State) (l : Tbl Nat) : MeshKept s { s with bad := l } := ⟨fun _ => rfl, fun _ => rfl⟩

theorem noteRead_kept (a n : Nat) (s : State) : MeshKept s (noteRead a n s) := by
  unfold noteRead
  dsimp only
  refine .trans ?_ (actLines_kept ..)
  split
  · exact .refl s
  split
  · exact (set_bad_kept ..).trans (count_kept ..)
  · exact set_bad_kept ..

theorem eccWrite_kept (a : Nat) (l : List (Byte × Bool)) (s : State) : MeshKept s (eccWrite s a l) := by
  unfold eccWrite
  extract_lets _ _ _ _ _ _ _ s1
  have hs1 : MeshKept s s1 := ⟨fun _ => rfl, fun _ => rfl⟩
  split
  · exact hs1.trans ((count_kept ..).trans (count_kept ..))
  · exact hs1

theorem clearResv_kept (c l0 l1 : Nat) (s : State) : MeshKept s (clearResv c l0 l1 s) :=
  .of_within (F := [.cores]) (clearResv_within (by decide) (.refl ..) ..) (by decide) (by decide)

theorem writeMask_kept (a : Nat) (l : List (Byte × Bool)) (s : State) : MeshKept s (writeMask a l s) := by
  have hbytes : MeshKept s (if s.bad = [] then { s with mem := memPutMask s.mem a l } else eccWrite s a l) := by
    split
    · exact ⟨fun _ => rfl, fun _ => rfl⟩
    · exact eccWrite_kept ..
  unfold writeMask
  dsimp only
  refine .trans ?_ (actLines_kept ..)
  split
  · exact hbytes.trans (clearResv_kept ..)
  · exact hbytes

theorem spillWords_kept (c ptr : Nat) (l : List Word) (s : State) : MeshKept s (spillWords c ptr l s) := by
  induction l generalizing ptr s with
  | nil => exact .refl s
  | cons w r ih =>
    unfold spillWords
    exact (writeMask_kept ..).trans (ih ..)

/-! ## The completion of a held instruction -/

theorem updCtx_kept (t : Thread) (f : Ctx → Ctx) (s : State) : MeshKept s (s.updCtx t f) := ⟨fun _ => rfl, fun _ => rfl⟩

theorem pushOps_kept (t : Thread) (pops : Nat) (push : List Word) (s : State) : MeshKept s (pushOps t pops push s) := by
  unfold pushOps
  dsimp only
  split
  · exact updCtx_kept ..
  · exact (updCtx_kept ..).trans (spillWords_kept ..)

theorem advance_kept (t : Thread) (len : Nat) (s : State) : MeshKept s (advance t len s) :=
  .of_within (F := [.cores, .free]) (advance_within (by decide) (.refl ..) ..) (by decide) (by decide)

theorem popHeld_kept (t : Thread) (push : List Word) (s : State) : MeshKept s (popHeld t push s) :=
  (updCtx_kept t (fun x => { x with wait := .none, heldPops := 0, heldLen := 0 }) s).trans ((pushOps_kept ..).trans (advance_kept ..))

theorem stopCheck_kept (n : Nat) (t : Thread) (s : State) : MeshKept s (stopCheck n t s) := by
  induction n generalizing t s with
  | zero => exact .refl s
  | succ n ih =>
    unfold stopCheck
    dsimp only
    split
    · refine .trans ?_ (forAll_kept _ (fun i u => ?_) _)
      · split
        · exact updCtx_kept ..
        · exact updCtx_kept ..
      · split
        · exact (popHeld_kept ..).trans (ih ..)
        · exact .refl u
    · exact .refl s

theorem completeHeld_kept (t : Thread) (push : List Word) (s : State) : MeshKept s (completeHeld t push s) :=
  (popHeld_kept ..).trans (stopCheck_kept ..)

end Sys2Proof.ModuleProofs
end

section
/-! PROOFS. O40: what the stations put at their routers' inputs, and what else an injection changes. -/

namespace Sys2Proof.ModuleProofs
open Sys2Proof Sys2Proof.Machine Sys2Proof.Laws Sys2Proof.CoreProofs

/-! ## Porters and streams (R420, R510) -/

theorem updSlotOf_kept (c i : Nat) (f : Slot → Slot) (s : State) : MeshKept s (s.updSlotOf c i f) := .updBench s _ fun _ => rfl

theorem updWelt_kept (w : Nat) (f : Welt → Welt) (s : State) : MeshKept s (s.updWelt w f) := ⟨fun _ => rfl, fun _ => rfl⟩

theorem updStream_kept (i : Nat) (f : Machine.Stream → Machine.Stream) (s : State) : MeshKept s (s.updStream i f) := ⟨fun _ => rfl, fun _ => rfl⟩

theorem settleDesc_kept (c i : Nat) (s : State) : MeshKept s (settleDesc c i s) := by
  unfold settleDesc
  dsimp only
  split
  · split
    · exact updSlotOf_kept ..
    split
    · exact (updSlotOf_kept ..).trans (jobOfCore_kept ..)
    split
    · exact updSlotOf_kept ..
    · exact .refl s
  · exact .refl s

theorem descFault_kept (c i why src addr : Nat) (arrived : Bool) (s : State) : MeshKept s (descFault c i why src addr arrived s) :=
  (((updSlotOf_kept ..).trans (recordCont_kept ..)).trans (setPend_kept ..)).trans (settleDesc_kept ..)

theorem sendFlit_kept (b n c i : Nat) (s : State) : MeshKept s (sendFlit b n c i s).2 := by
  unfold sendFlit
  dsimp only
  split
  · split
    · exact updSlotOf_kept ..
    · split
      · exact descFault_kept ..
      · exact (noteRead_kept ..).trans (updSlotOf_kept ..)
  · exact (updSlotOf_kept ..).trans (settleDesc_kept ..)

theorem askPlace_kept (w id : Nat) (s : State) : MeshKept s (askPlace w id s) := updWelt_kept ..

theorem assignPacket_kept {b id : Nat} {s : State} {v : Nat × State} (h : assignPacket b id s = some v) : MeshKept s v.2 := by
  unfold assignPacket at h
  dsimp only at h
  split at h
  · next w c i _ _ =>
    split at h
    · cases h
    split at h
    · cases h; exact askPlace_kept ..
    split at h
    · cases h; exact (updSlotOf_kept ..).trans (settleDesc_kept ..)
    split at h
    · cases h; exact (updSlotOf_kept ..).trans (descFault_kept ..)
    · cases h
      refine .trans (.trans (.trans ?_ (updSlotOf_kept ..)) (updStream_kept ..)) (updWelt_kept ..)
      exact forAll_kept _ (fun a s => noteRead_kept a 64 s) s
  · cases h

theorem beginPacket_kept (b id w : Nat) (s : State) : MeshKept s (beginPacket b id w s) := by
  unfold beginPacket
  split
  · exact .refl s
  split
  · exact .refl s
  · next v h => exact assignPacket_kept h

theorem weltFlit_kept (b n id w : Nat) (s : State) : MeshKept s (weltFlit b n id w s).2 := by
  unfold weltFlit
  dsimp only
  split
  · exact beginPacket_kept ..
  · exact (beginPacket_kept ..).trans (updWelt_kept ..)

theorem porterFlit_kept (b n : Nat) (s : State) : MeshKept s (porterFlit b n s).2 := by
  unfold porterFlit
  split
  · exact weltFlit_kept ..
  split
  · exact .refl s
  split
  · exact .refl s
  · refine .trans ?_ (sendFlit_kept ..)
    split
    · exact updSlotOf_kept ..
    · exact .refl s

/-! ## The stockroom (R395, R403) -/

theorem countMerge_kept (b : Nat) (bad : Tbl Nat) (m : List Bool) (s : State) : MeshKept s (countMerge b bad m s) :=
  (count_kept ..).trans (count_kept ..)

theorem overFills_kept (b a : Nat) (l : List Byte) (s : State) : MeshKept s (overFills b a l s) := .updBench s b fun _ => rfl

theorem storeLine_kept (b a : Nat) (l : List Byte) (s : State) : MeshKept s (storeLine b a l s) := by
  unfold storeLine
  dsimp only
  split
  · exact .refl s
  split
  · exact .after (.updBench _ b fun _ => rfl) (countMerge_kept ..)
  · exact (act_kept ..).after ((count_kept ..).after (.after (.updBench _ b fun _ => rfl) (countMerge_kept ..)))

theorem cachedStore_kept {t : Thread} {a : Nat} {l : List Byte} {s u : State} (h : cachedStore t a l s = some u) : MeshKept s u := by
  unfold cachedStore at h
  dsimp only at h
  split at h
  · cases h
    exact .after (.updBench _ _ fun _ => rfl) ((countMerge_kept ..).after ((overFills_kept ..).after (storeLine_kept ..)))
  split at h
  · cases h
    exact .after (.updBench _ _ fun _ => rfl) ((overFills_kept ..).after ((storeLine_kept ..).after ⟨fun _ => rfl, fun _ => rfl⟩))
  · cases h

theorem retryStores_kept (b : Nat) (s : State) : MeshKept s (retryStores b s) := by
  refine forAll_kept _ (fun t u => ?_) s
  split
  · split
    · next h => exact (cachedStore_kept h).trans ((count_kept ..).trans (completeHeld_kept ..))
    · exact .refl u
  · exact .refl u

theorem markSent_kept (b stage : Nat) (i : Item) (s : State) : MeshKept s (markSent b stage i s) := by
  have hnote : ∀ e, MeshKept s (noteEntry b e s) := fun e => (count_kept ..).trans (count_kept ..)
  cases i with
  | fill f => exact .updBench s b fun _ => rfl
  | entry e => exact (hnote e).trans (.updBench _ b fun _ => rfl)
  | uncached v => exact .updBench s b fun _ => rfl

/-! ## The open-class queue (R347, R348) -/

theorem sendWakes_kept (b : Nat) (s : State) : MeshKept s (sendWakes b s) :=
  .of_answers (sendWakes_answersOnly ..) ((sendWakes_within (F := [.benches]) (by decide) (.refl ..) b).out .parts (by decide))

theorem oqPromote_kept (b : Nat) (s : State) : MeshKept s (oqPromote b s) :=
  (sendWakes_kept ..).after ((forAll_kept _ (fun t s => completeHeld_kept t [] s) _).after (.updBench s b fun _ => rfl))

theorem oqFlit_kept (b n : Nat) (s : State) : MeshKept s (oqFlit b n s).2 := by
  unfold oqFlit
  split
  · exact .refl s
  next i rest _ =>
    extract_lets own s1 s2
    have hs1 : MeshKept s s1 := (oqPromote_kept ..).after (.updBench s b fun _ => rfl)
    have hs2 : MeshKept s s2 := by
      refine hs1.trans ?_
      simp only [s2]
      split
      · split
        · exact .updBench _ _ fun _ => rfl
        · exact .refl _
      · exact .refl _
    split
    · split
      · exact hs1
      · exact hs2
    · exact .refl s

/-! ## A station's B input (R324, R330) -/

theorem connFlit_kept (b n : Nat) (s : State) : MeshKept s (connFlit b n s).2 := by
  unfold connFlit
  dsimp only
  split
  · exact .refl s
  split
  · split
    · next i _ =>
      dsimp only
      exact (retryStores_kept ..).after (markSent_kept ..)
    · exact porterFlit_kept ..
  split
  · exact .refl s
  · exact oqFlit_kept ..

end Sys2Proof.ModuleProofs
end

section
/-! PROOFS. O40: the mesh cycle, from the injections to the routers' outputs. -/

namespace Sys2Proof.ModuleProofs
open Sys2Proof Sys2Proof.Machine Sys2Proof.Laws Sys2Proof.CoreProofs

/-! ## What the stations put in (R324, R350, R361, R368) -/

/-- From `s` to `u` flits have come at the routers' inputs; the pattern, the partitions' frames and the time are the same. -/
structure Injected (s u : State) : Prop where
  kept : MeshKept s u
  now : u.now = s.now
  flits : s.flits ⊆ u.flits

theorem Injected.refl (s : State) : Injected s s := ⟨.refl s, rfl, List.Subset.refl _⟩

theorem Injected.trans {s u v : State} (h : Injected s u) (k : Injected u v) : Injected s v :=
  ⟨h.kept.trans k.kept, k.now.trans h.now, List.Subset.trans h.flits k.flits⟩

/-- The same, from the last change to the first. -/
theorem Injected.after {s u v : State} (k : Injected u v) (h : Injected s u) : Injected s v := h.trans k

theorem Injected.of_within {F : List Field} {s u : State} (h : Within F s u) (hk : MeshKept s u) (hn : Field.now ∉ F) (hf : Field.flits ∉ F) :
    Injected s u :=
  ⟨hk, h.out .now hn, by rw [show u.flits = s.flits from h.out .flits hf]; exact List.Subset.refl _⟩

theorem forAll_injected {α : Type} (l : List α) {f : α → State → State} (hf : ∀ a s, Injected s (f a s)) (s : State) :
    Injected s (forAll l f s) :=
  forAll_keeps (Q := Injected s) (fun a u hu => hu.trans (hf a u)) (.refl s)

/-- A flit comes at an input. -/
theorem Injected.add_flit (s : State) (f : InFlight) : Injected s { s with flits := s.flits ++ [f] } :=
  ⟨⟨fun _ => rfl, fun _ => rfl⟩, rfl, List.subset_append_left ..⟩

theorem upset_injected (v : Upset) (s : State) : Injected s (upset v s) := by
  refine .of_within (F := [.bad, .benches]) (upset_within (by decide) (.refl ..) v) ?_ (by decide) (by decide)
  have hput : ∀ l, MeshKept s { s with bad := l } := fun l => set_bad_kept s l
  unfold upset
  split
  · exact .updBench s _ fun _ => rfl
  · dsimp only
    split
    · split
      · exact hput _
      · exact .updBench s _ fun _ => rfl
    · split
      · exact hput _
      · exact .refl s

theorem ports_injected {s u : State} (h : Within [.ports] s u) : Injected s u :=
  .of_within h (.of_within h (by decide) (by decide)) (by decide) (by decide)

theorem settleSlips_injected (d : Nat) (s : State) : Injected s (settleSlips d s) :=
  ports_injected (settleSlips_within (by decide) (.refl ..) d)

theorem portCount_injected (d o n : Nat) (s : State) : Injected s (portCount d o n s) :=
  ports_injected (portCount_within (by decide) (.refl ..) ..)

theorem updPort_injected (d : Nat) (f : Machine.Port → Machine.Port) (s : State) : Injected s (s.updPort d f) :=
  ports_injected (State_updPort_within (by decide) (.refl ..) ..)

theorem atX_injected (b : Nat) (f : Flit) (s : State) : Injected s (atX b f s) := .add_flit ..

theorem sendReply_injected (d : Nat) (q : PReply) (rsv : Bool) (s : State) : Injected s (sendReply d q rsv s) := by
  unfold sendReply
  dsimp only
  refine (settleSlips_injected ..).after ((atX_injected ..).after ?_)
  split
  · exact (portCount_injected ..).after (updPort_injected ..)
  · exact updPort_injected ..

theorem ringPut_kept (a b : Nat) (m : RingMsg) (s : State) : MeshKept s (ringPut a b m s) := ⟨fun _ => rfl, fun _ => rfl⟩

theorem slip_injected (d : Nat) (q : PReply) (s : State) : Injected s (slip d q s) := by
  unfold slip
  extract_lets s1 f s2 s3
  have hs2 : Injected s s2 := (atX_injected ..).after ((portCount_injected ..).after (updPort_injected ..))
  refine (settleSlips_injected ..).after (hs2.trans ?_)
  simp only [s3]
  split
  · exact .refl _
  · exact ⟨(ringPut_kept ..).after (.updJob ..), rfl, List.Subset.refl _⟩

theorem replySlot_injected (d : Nat) (s : State) : Injected s (replySlot d s) := by
  unfold replySlot
  dsimp only
  split
  · exact .refl s
  split
  · exact .refl s
  split
  · exact sendReply_injected ..
  · exact slip_injected ..

theorem reserveSlot_injected (d : Nat) (s : State) : Injected s (reserveSlot d s) := by
  unfold reserveSlot
  split
  · exact .refl s
  split
  · split
    · exact sendReply_injected ..
    · exact .refl s
  · exact .refl s

theorem putConn_injected (b n : Nat) (s : State) : Injected s (putConn b n s) := by
  have hconn : Injected s (connFlit b n s).2 :=
    .of_within (F := [.mem, .bad, .cores, .benches, .welts, .streams, .parts, .fmn, .trc, .free])
      (connFlit_within (by decide) (.refl ..) b n) (connFlit_kept b n s) (by decide) (by decide)
  unfold putConn
  refine hconn.trans ?_
  dsimp only
  unfold putB
  split
  · exact .add_flit ..
  · exact .refl _

theorem injectB_injected (b : Nat) (s : State) : Injected s (injectB b s) := by
  unfold injectB
  split
  · exact putConn_injected ..
  split
  · split
    · exact .refl s
    · exact putConn_injected ..
  · exact .refl s

theorem injectWelt_injected (w : Nat) (s : State) : Injected s (injectWelt w s) := by
  unfold injectWelt
  dsimp only
  split
  · exact .refl s
  split
  · exact .refl s
  split
  · exact .refl s
  · exact .trans ⟨updWelt_kept .., rfl, List.Subset.refl _⟩ (.add_flit ..)

/-- The machine once every station has put in what it has. -/
def allInjected (env : MeshEnv) (s : State) : State :=
  let s1 := forAll env.upsets upset s
  let s2 := forAll (List.range 16) (fun d s => reserveSlot d (replySlot d s)) s1
  let s3 := forAll (liveBenches s) injectB s2
  forAll (List.range 8) injectWelt s3

theorem allInjected_injected (env : MeshEnv) (s : State) : Injected s (allInjected env s) :=
  (((forAll_injected _ upset_injected s).trans
    (forAll_injected _ (fun d u => (replySlot_injected d u).trans (reserveSlot_injected d _)) _)).trans
      (forAll_injected _ injectB_injected _)).trans (forAll_injected _ injectWelt_injected _)

/-! ## What an error on a link leaves (R317) -/

/-- Errors on links change no flit that is not at its router in this cycle. -/
structure LinksOnly (s u : State) : Prop where
  kept : MeshKept s u
  now : u.now = s.now
  flits : ∀ f ∈ s.flits, f.at_ ≠ s.now → f ∈ u.flits

theorem linkError_only (e : LinkErr) (s : State) : LinksOnly s (linkError e s) := by
  unfold linkError
  split
  · exact ⟨.refl s, rfl, fun _ hf _ => hf⟩
  split
  · exact ⟨count_kept .., rfl, fun _ hf _ => hf⟩
  · refine ⟨(count_kept ..).after ⟨fun _ => rfl, fun _ => rfl⟩, rfl, fun f hf hat => List.mem_map.mpr ⟨f, hf, if_neg ?_⟩⟩
    exact fun h => hat h.2.2

theorem links_only (l : List LinkErr) (s : State) : LinksOnly s (forAll l linkError s) := by
  refine forAll_keeps (Q := LinksOnly s) (fun e u hu => ?_) ⟨.refl s, rfl, fun _ hf _ => hf⟩
  obtain ⟨hkept, hnow, hflits⟩ := linkError_only e u
  exact ⟨hu.kept.trans hkept, hnow.trans hu.now, fun f hf hat => hflits f (hu.flits f hf hat) (by rw [hu.now]; exact hat)⟩

/-! ## The routers (R315, R326, R327) -/

/-- What a partition has besides its programs is kept. -/
theorem MeshKept.field {s u : State} (h : MeshKept s u) {α : Type} (g : Machine.Part → α) (hg : ∀ q, g { q with progs := [] } = g q) (p : Nat) :
    g (u.part p) = g (s.part p) := by
  rw [← hg, h.part, hg]

/-- Routers with the pattern of `s` read the entries that those of `s` do. -/
theorem liveEntry_kept {s u : State} (h : MeshKept s u) (hn : u.now = s.now) (b : Nat) : liveEntry u b = liveEntry s b := by
  have hholds : ∀ p, (u.part p).holds b = (s.part p).holds b := h.field (·.holds b) fun _ => rfl
  have hframe : ∀ p, (u.part p).frame = (s.part p).frame := h.field (·.frame) fun _ => rfl
  have hbegun : ∀ p, (u.part p).begun = (s.part p).begun := h.field (·.begun) fun _ => rfl
  have hplog : ∀ p, (u.part p).plog = (s.part p).plog := h.field (·.plog) fun _ => rfl
  have hof : partOf u b = partOf s b := by simp only [partOf, hholds]
  have hentry : ∀ i, entry u b i = entry s b i := EntriesAlike.of_pattern h.pattern b
  simp only [liveEntry, indexOf, period, hof, hentry, hframe, hbegun, hplog, hn]

/-- From `s` to `u` flits have left for the next routers and the stations' ports, where they are two mesh cycles later. -/
structure Sent (s u : State) : Prop where
  kept : MeshKept s u
  now : u.now = s.now
  flits : s.flits ⊆ u.flits
  arrivals : s.arrivals ⊆ u.arrivals
  later : ∀ g ∈ u.flits, g ∈ s.flits ∨ g.at_ = s.now + 2

theorem Sent.refl (s : State) : Sent s s := ⟨.refl s, rfl, List.Subset.refl _, List.Subset.refl _, fun _ => .inl⟩

theorem Sent.trans {s u v : State} (h : Sent s u) (k : Sent u v) : Sent s v :=
  ⟨h.kept.trans k.kept, k.now.trans h.now, List.Subset.trans h.flits k.flits, List.Subset.trans h.arrivals k.arrivals,
    fun g hg => (k.later g hg).elim (h.later g) fun hat => .inr (by rw [hat, h.now])⟩

theorem forAll_sent {α : Type} (l : List α) {f : α → State → State} (hf : ∀ a s, Sent s (f a s)) (s : State) : Sent s (forAll l f s) :=
  forAll_keeps (Q := Sent s) (fun a u hu => hu.trans (hf a u)) (.refl s)

/-- Where a flit that leaves router `b` by output `o` is two mesh cycles later: at the next router, or with the station. -/
def onLink (o d now : Nat) (f : Flit) : InFlight := ⟨d, oppositeIn o, now + 2, f⟩
def atStation (b o now : Nat) (f : Flit) : Arrival := ⟨b, o, now + 2, f⟩

section Output
variable (b o : Nat) (f : Flit) (s : State)

theorem sendOut_port (h : o = 5 ∨ o = 6) :
    (sendOut b o f s).flits = s.flits ∧ (sendOut b o f s).arrivals = s.arrivals ++ [atStation b o s.now f] := by
  rw [sendOut, if_pos h]
  exact ⟨rfl, rfl⟩

theorem neighbour_port {d : Nat} (h : neighbour b o = some d) : ¬ (o = 5 ∨ o = 6) := by
  rintro (rfl | rfl) <;> cases h

theorem sendOut_link {d : Nat} (h : neighbour b o = some d) :
    (sendOut b o f s).flits = s.flits ++ [onLink o d s.now f] ∧ (sendOut b o f s).arrivals = s.arrivals := by
  simp only [sendOut, if_neg (neighbour_port b o h), h]
  exact ⟨rfl, rfl⟩

theorem sendOut_sent : Sent s (sendOut b o f s) := by
  have hkept : MeshKept s (sendOut b o f s) := by
    unfold sendOut
    dsimp only
    split
    · exact (act_kept ..).trans ⟨fun _ => rfl, fun _ => rfl⟩
    split
    · exact act_kept ..
    · exact (act_kept ..).trans ⟨fun _ => rfl, fun _ => rfl⟩
  have hnow : (sendOut b o f s).now = s.now := (sendOut_within (List.Subset.refl _) (.refl ..) b o f).out .now (by decide)
  by_cases hport : o = 5 ∨ o = 6
  · obtain ⟨hflits, harr⟩ := sendOut_port b o f s hport
    exact ⟨hkept, hnow, by rw [hflits]; exact List.Subset.refl _, by rw [harr]; exact List.subset_append_left .., fun g hg => .inl (hflits ▸ hg)⟩
  · cases hd : neighbour b o with
    | none =>
      have hout : sendOut b o f s = act b 0x6840 1 s := by simp only [sendOut, if_neg hport, hd]
      rw [hout]
      exact ⟨act_kept .., rfl, List.Subset.refl _, List.Subset.refl _, fun _ => .inl⟩
    | some d =>
      obtain ⟨hflits, harr⟩ := sendOut_link b o f s hd
      refine ⟨hkept, hnow, by rw [hflits]; exact List.subset_append_left .., by rw [harr]; exact List.Subset.refl _, fun g hg => ?_⟩
      rw [hflits, List.mem_append, List.mem_singleton] at hg
      exact hg.imp_right fun h => by rw [h]; rfl

end Output

end Sys2Proof.ModuleProofs
end

section
/-! PROOFS. O40: the routing of every flit at a crossbar, and the mesh cycle as a whole. -/

namespace Sys2Proof.ModuleProofs
open Sys2Proof Sys2Proof.Machine Sys2Proof.Laws Sys2Proof.CoreProofs

/-! ## One flit at a crossbar (R326, R327) -/

section Route
variable {s : State} {f : InFlight} {e o d : Nat} (he : liveEntry s f.station = some e)

section Selected
include he

theorem route_discards (h : outputsOf e f.input = []) : route f s = count f.station 0x5028 1 s := by
  simp only [route, he, h]

theorem route_outputs (h : o ∈ outputsOf e f.input) :
    route f s = forAll (outputsOf e f.input) (fun o s => sendOut f.station o f.flit s) s := by
  obtain ⟨x, l, hl⟩ := List.exists_cons_of_ne_nil (List.ne_nil_of_mem h)
  simp only [route, he, hl]

theorem route_only (h : outputsOf e f.input = [o]) : route f s = sendOut f.station o f.flit s := by
  rw [route_outputs he (o := o) (by rw [h]; exact List.mem_singleton_self o), h]
  rfl

/-- A flit leaves by each output that selects its input. -/
theorem route_reaches_link (h : o ∈ outputsOf e f.input) (hd : neighbour f.station o = some d) :
    onLink o d s.now f.flit ∈ (route f s).flits := by
  rw [route_outputs he h]
  refine forAll_reaches (P := fun u => u.now = s.now) (Q := fun u => onLink o d s.now f.flit ∈ u.flits) (a := o)
    (fun x u hu => .inl ((sendOut_sent ..).now.trans hu)) (fun x u hu => (sendOut_sent ..).flits hu) (fun u hu => ?_) h rfl
  rw [(sendOut_link f.station o f.flit u hd).1, hu]
  exact List.mem_append_right _ (List.mem_singleton_self _)

theorem route_reaches_port (h : o ∈ outputsOf e f.input) (ho : o = 5 ∨ o = 6) :
    atStation f.station o s.now f.flit ∈ (route f s).arrivals := by
  rw [route_outputs he h]
  refine forAll_reaches (P := fun u => u.now = s.now) (Q := fun u => atStation f.station o s.now f.flit ∈ u.arrivals) (a := o)
    (fun x u hu => .inl ((sendOut_sent ..).now.trans hu)) (fun x u hu => (sendOut_sent ..).arrivals hu) (fun u hu => ?_) h rfl
  rw [(sendOut_port f.station o f.flit u ho).2, hu]
  exact List.mem_append_right _ (List.mem_singleton_self _)

end Selected

theorem count_sent (b o n : Nat) (s : State) : Sent s (count b o n s) :=
  ⟨count_kept .., rfl, List.Subset.refl _, List.Subset.refl _, fun _ => .inl⟩

theorem route_sent (f : InFlight) (s : State) : Sent s (route f s) := by
  unfold route
  dsimp only
  split
  · exact count_sent ..
  · exact forAll_sent _ (fun o u => sendOut_sent ..) s

end Route

/-! ## Every router (R315) -/

/-- The flits that are at their routers have been taken off the inputs. -/
def inputsTaken (s : State) : State := { s with flits := s.flits.filter (fun f => decide (s.now < f.at_)) }

theorem inputsTaken_kept (s : State) : MeshKept s (inputsTaken s) := ⟨fun _ => rfl, fun _ => rfl⟩

theorem routeAll_sent (s : State) : Sent (inputsTaken s) (routeAll s) := forAll_sent _ route_sent _

theorem routeAll_later (s : State) : ∀ g ∈ (routeAll s).flits, s.now < g.at_ := fun g hg => by
  obtain hin | hat := (routeAll_sent s).later g hg
  · exact of_decide_eq_true (List.mem_filter.mp hin).2
  · rw [hat]
    exact Nat.lt_add_of_pos_right (by decide)

theorem routeAll_stays {s : State} {f : InFlight} (hf : f ∈ s.flits) (hat : s.now < f.at_) : f ∈ (routeAll s).flits :=
  (routeAll_sent s).flits (List.mem_filter.mpr ⟨hf, decide_eq_true hat⟩)

/-- What routing brings about for one flit at its crossbar, it brings about with all of them. -/
theorem routeAll_reaches {s : State} {f : InFlight} {Q : State → Prop} (hQ : ∀ {u v : State}, Sent u v → Q u → Q v)
    (hroute : ∀ u, MeshKept s u → u.now = s.now → Q (route f u)) (hf : f ∈ s.flits) (hat : f.at_ ≤ s.now) : Q (routeAll s) :=
  forAll_reaches (P := fun u => MeshKept s u ∧ u.now = s.now) (a := f)
    (fun g u hu => .inl ⟨hu.1.trans (route_sent g u).kept, (route_sent g u).now.trans hu.2⟩) (fun g u => hQ (route_sent g u))
    (fun u hu => hroute u hu.1 hu.2) (List.mem_filter.mpr ⟨hf, decide_eq_true hat⟩) ⟨inputsTaken_kept s, rfl⟩

section Due
variable {s : State} {f : InFlight} {e o : Nat} (he : liveEntry s f.station = some e) (ho : o ∈ outputsOf e f.input) (hf : f ∈ s.flits)
  (hat : f.at_ ≤ s.now)
include he ho hf hat

theorem routeAll_link {d : Nat} (hd : neighbour f.station o = some d) : onLink o d s.now f.flit ∈ (routeAll s).flits :=
  routeAll_reaches (Q := fun u => onLink o d s.now f.flit ∈ u.flits) (fun h hu => h.flits hu)
    (fun _ hk hn => hn ▸ route_reaches_link ((liveEntry_kept hk hn _).trans he) ho hd) hf hat

theorem routeAll_port (hp : o = 5 ∨ o = 6) : atStation f.station o s.now f.flit ∈ (routeAll s).arrivals :=
  routeAll_reaches (Q := fun u => atStation f.station o s.now f.flit ∈ u.arrivals) (fun h hu => h.arrivals hu)
    (fun _ hk hn => hn ▸ route_reaches_port ((liveEntry_kept hk hn _).trans he) ho hp) hf hat

end Due

/-! ## The mesh cycle (R326, R612) -/

theorem meshTick_kept (s : State) : (meshTick s).now = s.now + 1 ∧ (meshTick s).flits = s.flits ∧ (meshTick s).arrivals = s.arrivals := by
  have hwithin := meshTick_within (List.Subset.refl _) (.refl _ s)
  refine ⟨?_, hwithin.out .flits (by decide), hwithin.out .arrivals (by decide)⟩
  unfold meshTick
  dsimp only
  split
  · have hcores : Within [.cores, .ring, .ringTurn] { s with now := s.now + 1 } (ringCycle (forAll (s.cores.map (·.1))
        (fun c u => u.updCore c (fetchCycle (coreNow u))) { s with now := s.now + 1 })) :=
      ringCycle_within (by decide) (forAll_within (.refl ..) fun c v hv => State_updCore_within (by decide) hv ..)
    exact hcores.out .now (by decide)
  · rfl

/-- The rest of the cycle, once the flits are routed. -/
theorem cycleEnd_kept (s : State) :
    (meshTick (controlCycle s)).now = s.now + 1 ∧ (meshTick (controlCycle s)).flits = s.flits ∧
      (meshTick (controlCycle s)).arrivals = s.arrivals := by
  have hwithin := controlCycle_within (List.Subset.refl _) (.refl _ s)
  obtain ⟨hnow, hflits, harr⟩ := meshTick_kept (controlCycle s)
  exact ⟨hnow.trans (congrArg (· + 1) (hwithin.out .now (by decide))), hflits.trans (hwithin.out .flits (by decide)),
    harr.trans (hwithin.out .arrivals (by decide))⟩

section Cycle
variable {s : State} {env : MeshEnv}

theorem meshCycle_stops (h : s.board.wetarOn = false ∨ s.pwr.wstate ≠ 0) : exec (.meshCycle env) s = .next s :=
  congrArg Host.Outcome.next (if_pos h)

theorem meshCycle_passes (hon : s.board.wetarOn = true) (hw : s.pwr.wstate = 0) :
    exec (.meshCycle env) s = .next (meshTick (controlCycle (routeAll (forAll env.links linkError (allInjected env s))))) := by
  refine congrArg Host.Outcome.next (if_neg ?_)
  simp [hon, hw]

end Cycle

/-- What a cycle of a powered mesh makes of the flits and the time. -/
theorem meshCycle_routes {s : State} {env : MeshEnv} (hon : s.board.wetarOn = true) (hw : s.pwr.wstate = 0) :
    ∃ v w u, Injected s v ∧ LinksOnly v w ∧ (env.links = [] → w = v) ∧ exec (.meshCycle env) s = .next u ∧ u.now = w.now + 1 ∧
      u.flits = (routeAll w).flits ∧ u.arrivals = (routeAll w).arrivals := by
  have hnone : env.links = [] → forAll env.links linkError (allInjected env s) = allInjected env s := fun h => by
    rw [h, forAll, List.foldl_nil]
  obtain ⟨hend, hflits, harr⟩ := cycleEnd_kept (routeAll (forAll env.links linkError (allInjected env s)))
  exact ⟨allInjected env s, forAll env.links linkError (allInjected env s), _, allInjected_injected env s, links_only .., hnone,
    meshCycle_passes hon hw, hend.trans (congrArg (· + 1) (routeAll_sent _).now), hflits, harr⟩

theorem meshCyclePasses : Claims.MeshCyclePasses := by
  intro s env f e o d at_ out
  refine ⟨fun hon hw => ?_, meshCycle_stops, fun he => ⟨fun ho hd => ?_, fun ho hp => ?_, route_discards he⟩⟩
  · obtain ⟨v, w, u, hin, hlinks, hnone, hexec, hend, hflits, harr⟩ := meshCycle_routes (env := env) hon hw
    have hnow : w.now = s.now := hlinks.now.trans hin.now
    refine ⟨u, hexec, hend.trans (congrArg (· + 1) hnow), fun g hg => ?_, fun hf hat => ?_, fun hno _ hf hat he ho => ?_⟩
    · rw [hflits] at hg
      rw [← hnow]
      exact routeAll_later w g hg
    · rw [hflits]
      rw [← hnow] at hat
      exact routeAll_stays (hlinks.flits f (hin.flits hf) (by rw [← hlinks.now]; exact Nat.ne_of_gt hat)) hat
    · obtain rfl := hnone hno
      have hentry : liveEntry w f.station = some e := (liveEntry_kept hin.kept hin.now _).trans he
      have hdue : f.at_ ≤ w.now := hat.trans_eq hnow.symm
      refine ⟨fun hd => ?_, fun hp => ?_⟩
      · have hlink := routeAll_link hentry ho (hin.flits hf) hdue hd
        rw [hnow] at hlink
        rw [hflits]
        exact hlink
      · have hport := routeAll_port hentry ho (hin.flits hf) hdue hp
        rw [hnow] at hport
        rw [harr]
        exact hport
  · rw [route_only he ho]
    exact sendOut_link _ _ _ _ hd
  · rw [route_only he ho]
    exact (sendOut_port _ _ _ _ hp).symm

end Sys2Proof.ModuleProofs
end

section
/-! PROOFS. O40: flits at their bench. -/

namespace Sys2Proof.ModuleProofs
open Sys2Proof Sys2Proof.Machine Sys2Proof.Laws

/-! ## The flit is taken at its kind's place (R334, R748) -/

section Take
variable {b : Nat} {f : Flit} {s : State}

theorem takeFlit_data (hk : f.kind = 0) (hb : homeBench (flitAddr f) = some b) : takeFlit b f s = dataFlit f s := by
  rw [takeFlit, if_pos hk, if_pos hb]

theorem takeFlit_elsewhere (hk : f.kind = 0) (hb : homeBench (flitAddr f) ≠ some b) : takeFlit b f s = count b 0x5028 1 s := by
  rw [takeFlit, if_pos hk, if_neg hb]

theorem takeFlit_message {m : OpenMsg} (hk : f.kind = 5) (hm : f.msg = some m) (hb : benchOf (msgCore m) = b) :
    takeFlit b f s = openFlit b m f.err s := by
  simp only [takeFlit, hk, hm, hb, if_pos]
  rfl

theorem takeFlit_stray {m : OpenMsg} (hk : f.kind = 5) (hm : f.msg = some m) (hb : benchOf (msgCore m) ≠ b) :
    takeFlit b f s = count b 0x5028 1 s := by
  simp only [takeFlit, hk, hm, if_neg hb, if_pos]
  rfl

variable (habs : absorbsAddr s (flitAddr f) = false)
include habs

theorem dataFlit_written (he : f.err = false) (hu : f.use = .none) : dataFlit f s = write (flitAddr f) f.data s := by
  simp [dataFlit, habs, he, hu]

theorem dataFlit_landed {c i o : Nat} (he : f.err = false) (hu : f.use = .porter c i o) :
    dataFlit f s = landed c i f.data.length (write (flitAddr f) f.data s) := by
  simp [dataFlit, habs, he, hu]

theorem dataFlit_damaged (he : f.err = true) (hu : f.use = .none) :
    dataFlit f s = setPend (dataCore (flitAddr f)) 6 (recordCont (dataCore (flitAddr f)) 1 (flitAddr f) none s) := by
  simp [dataFlit, habs, he, dataErr, hu]

end Take

/-- The bench of the tally that an operation is for. -/
theorem benchOf_tally (op : TallyOp) : benchOf (msgCore (.tally op)) = op.tally / 512 := by
  rw [msgCore, benchOf]
  exact Nat.mul_div_cancel_left _ (by decide)

/-- A damaged data write writes nothing. -/
theorem damaged_mem (c addr : Nat) (s : State) : (setPend c 6 (recordCont c 1 addr none s)).mem = s.mem :=
  (recordCont_within (F := [.benches, .fmn, .trc]) (by decide) (.refl ..) c 1 addr none).out .mem (by decide)

section Arrive
variable {s s1 : State} {a : Arrival} {b : Nat} (hb : b < 128)
  (h : nextArrival s (fun x => x.station = b ∧ x.port = 6 ∧ otherFlit x.flit = false) a s1)
include hb h

theorem exec_flitArrival : exec (.flitArrival b) s = .next (takeFlit b a.flit s1) := by
  have htake : takeArrival (fun a => decide (a.station = b) && decide (a.port = 6) && !otherFlit a.flit) s = some (a, s1) :=
    takeArrival_nextArrival h (by simp [and_assoc])
  refine congrArg Host.Outcome.next ((if_pos hb).trans ?_)
  simp only [flitArrival, htake]

end Arrive

theorem flitsArriveAtBenches : Claims.FlitsArriveAtBenches := by
  intro s s1 a b c i o op p hb hnext m
  have hexec := exec_flitArrival hb hnext
  obtain ⟨pre, post, -, -, -, -, hs1⟩ := id hnext
  have hnow : s1.now = s.now := by rw [hs1]
  have hmem : s1.mem = s.mem := by rw [hs1]
  refine ⟨fun hk hhome habs => ?_, fun hk hhome => ?_, fun hk he hm hhome => ?_, fun hk hm hhome => ?_, fun hk hm hhome => ?_⟩
  · have habs1 : absorbsAddr s1 (flitAddr a.flit) = false := by rw [hs1]; exact habs
    rw [hexec, takeFlit_data hk hhome]
    refine ⟨fun he hu => by rw [dataFlit_written habs1 he hu], fun he hu => by rw [dataFlit_landed habs1 he hu], fun he hu => ?_⟩
    rw [dataFlit_damaged habs1 he hu]
    exact ⟨_, rfl, (damaged_mem ..).trans hmem, setPend_sets (by decide) ..⟩
  · rw [hexec, takeFlit_elsewhere hk hhome]
  · rw [hexec, takeFlit_message hk hm ((benchOf_tally op).trans hhome), openFlit, he, coreNow, hnow]
    rfl
  · rw [hexec, takeFlit_message hk hm hhome, openFlit]
  · rw [hexec, takeFlit_stray hk hm (by rw [benchOf_tally]; exact hhome)]

/-- Settles O40: a powered cycle is `meshCycle_routes`, in which the injections leave the pattern and the frames (`Injected`), so that
`route_reaches_link` and `route_reaches_port` hold for every flit at its crossbar; what reaches a bench is taken by `exec_flitArrival`. -/
theorem meshCyclesAndFlits : Obligations.MeshCyclesAndFlits := ⟨meshCyclePasses, flitsArriveAtBenches⟩

end Sys2Proof.ModuleProofs
end

section
/-! PROOFS. O36: the operations of the range engine. A command writes the plain fields of BENCH_RNG_CMD (`commanded`) and then GO acts,
which begins an operation (`begins`) or ends at once; what ends one leaves its RESULT and COUNT (`Ended`). -/

namespace Sys2Proof.ModuleProofs
open Sys2Proof Sys2Proof.Machine Sys2Proof.Laws

/-! ## Fields of a number, bit by bit (R10) -/

theorem bit_eq_testBit (v i : Nat) : bit v i = v.testBit i := Nat.testBit_eq_decide_div_mod_eq.symm

theorem testBit_bits (v hi lo i : Nat) : (bits v hi lo).testBit i = (decide (i < hi + 1 - lo) && v.testBit (lo + i)) := by
  rw [bits, Nat.testBit_mod_two_pow, Nat.testBit_div_two_pow, Nat.add_comm i]

theorem bits_ofNat (n v lo : Nat) {hi : Nat} (h : hi < n) : bits (BitVec.ofNat n v).toNat hi lo = bits v hi lo := by
  refine Nat.eq_of_testBit_eq fun i => ?_
  rw [BitVec.toNat_ofNat, testBit_bits, testBit_bits, Nat.testBit_mod_two_pow]
  by_cases hi' : i < hi + 1 - lo
  · rw [decide_eq_true (show lo + i < n by omega), Bool.true_and]
  · rw [decide_eq_false hi', Bool.false_and, Bool.false_and]

theorem bits_bits (v lo' : Nat) {hi lo hi' : Nat} (h : lo + hi' ≤ hi) : bits (bits v hi lo) hi' lo' = bits v (lo + hi') (lo + lo') := by
  refine Nat.eq_of_testBit_eq fun i => ?_
  simp only [testBit_bits, Nat.add_assoc, show lo + (hi' + 1) - (lo + lo') = hi' + 1 - lo' by omega]
  by_cases hi1 : i < hi' + 1 - lo'
  · rw [decide_eq_true (show lo' + i < hi + 1 - lo by omega), Bool.true_and]
  · rw [decide_eq_false hi1, Bool.false_and, Bool.false_and]

section SetBits
variable {hi lo : Nat} (h : lo ≤ hi) (v x : Nat)
include h

/-- A field's replacement keeps what is above it and below it. -/
theorem setBits_eq : setBits v hi lo x = 2 ^ lo * (2 ^ (hi + 1 - lo) * (v / 2 ^ (hi + 1)) + x % 2 ^ (hi + 1 - lo)) + v % 2 ^ lo := by
  have hlow := Nat.div_add_mod v (2 ^ lo)
  have hmid := Nat.div_add_mod (v / 2 ^ lo) (2 ^ (hi + 1 - lo))
  rw [Nat.div_div_eq_div_mul, ← Nat.pow_add, show lo + (hi + 1 - lo) = hi + 1 by omega] at hmid
  have hv : v = 2 ^ lo * (2 ^ (hi + 1 - lo) * (v / 2 ^ (hi + 1))) + bits v hi lo * 2 ^ lo + v % 2 ^ lo := by
    rw [bits, Nat.mul_comm (_ % _), ← Nat.mul_add, hmid, hlow]
  rw [setBits, Nat.mul_add, Nat.mul_comm (x % _)]
  omega

theorem testBit_setBits (i : Nat) :
    (setBits v hi lo x).testBit i = if i < lo then v.testBit i else if i ≤ hi then x.testBit (i - lo) else v.testBit i := by
  rw [setBits_eq h, Nat.testBit_two_pow_mul_add _ (Nat.mod_lt _ (Nat.two_pow_pos _)), Nat.testBit_mod_two_pow]
  split
  · next hlo => rw [decide_eq_true hlo, Bool.true_and]
  · rw [Nat.testBit_two_pow_mul_add _ (Nat.mod_lt _ (Nat.two_pow_pos _)), Nat.testBit_mod_two_pow, Nat.testBit_div_two_pow]
    by_cases hhi : i ≤ hi
    · rw [if_pos (show i - lo < hi + 1 - lo by omega), if_pos hhi, decide_eq_true (show i - lo < hi + 1 - lo by omega), Bool.true_and]
    · rw [if_neg (show ¬ i - lo < hi + 1 - lo by omega), if_neg hhi]
      congr 1
      omega

theorem bits_setBits_same : bits (setBits v hi lo x) hi lo = x % 2 ^ (hi + 1 - lo) := by
  refine Nat.eq_of_testBit_eq fun i => ?_
  rw [testBit_bits, testBit_setBits h, Nat.testBit_mod_two_pow, if_neg (by omega), Nat.add_sub_cancel_left]
  by_cases hi' : i < hi + 1 - lo
  · rw [if_pos (by omega)]
  · rw [decide_eq_false hi', Bool.false_and, Bool.false_and]

theorem bits_setBits_inside {hi' lo' : Nat} (hl : lo ≤ lo' ∧ lo ≤ hi') (hh : hi' ≤ hi) :
    bits (setBits v hi lo x) hi' lo' = bits x (hi' - lo) (lo' - lo) := by
  refine Nat.eq_of_testBit_eq fun i => ?_
  rw [testBit_bits, testBit_setBits h, testBit_bits, if_neg (by omega)]
  by_cases hi1 : i < hi' + 1 - lo'
  · rw [if_pos (by omega), decide_eq_true hi1, decide_eq_true (by omega), show lo' + i - lo = lo' - lo + i by omega]
  · rw [decide_eq_false hi1, decide_eq_false (by omega), Bool.false_and, Bool.false_and]

theorem bits_setBits_apart {hi' lo' : Nat} (ha : hi' < lo ∨ hi < lo') : bits (setBits v hi lo x) hi' lo' = bits v hi' lo' := by
  refine Nat.eq_of_testBit_eq fun i => ?_
  rw [testBit_bits, testBit_setBits h, testBit_bits]
  by_cases hi1 : i < hi' + 1 - lo'
  · obtain ha | ha := ha
    · rw [if_pos (show lo' + i < lo by omega)]
    · rw [if_neg (show ¬ lo' + i < lo by omega), if_neg (show ¬ lo' + i ≤ hi by omega)]
  · rw [decide_eq_false hi1, Bool.false_and, Bool.false_and]

end SetBits

/-! ## Translation and chunks of a range (R409) -/

/-- An address lies in a region (R383). -/
def regionHit (a : Nat) (r : Dword) : Bool :=
  bit r.toNat 56 && decide (bits r.toNat 18 0 * 2 ^ 21 ≤ a) && decide (a < (bits r.toNat 18 0 + bits r.toNat 53 38) * 2 ^ 21)

/-- The physical address and the permissions that a region gives. -/
def regionGives (a : Nat) (r : Dword) : Nat × Bool × Bool :=
  (bits r.toNat 37 19 * 2 ^ 21 + (a - bits r.toNat 18 0 * 2 ^ 21), bit r.toNat 54, bit r.toNat 55)

theorem translate_region {s : State} {b a : Nat} (h : a < 0x010000000000) :
    Machine.translate s b a = (findBelow 16 fun n => regionHit a ((s.bench b).r (0x6000 + n * 0x10))).map
      fun n => regionGives a ((s.bench b).r (0x6000 + n * 0x10)) := by
  rw [Machine.translate, if_pos h]
  change (match findBelow 16 fun n => regionHit a ((s.bench b).r (0x6000 + n * 0x10)) with
    | none => none
    | some n => some (regionGives a ((s.bench b).r (0x6000 + n * 0x10)))) = _
  cases findBelow 16 fun n => regionHit a ((s.bench b).r (0x6000 + n * 0x10)) <;> rfl

/-- The translation of a bench reads its region registers and its CXL window only. -/
theorem translate_of_regs {s u : State} {b : Nat} (h : ∀ o, o ≠ 0x6410 → (u.bench b).r o = (s.bench b).r o) (a : Nat) :
    Machine.translate u b a = Machine.translate s b a := by
  by_cases ha : a < 0x010000000000
  · have hregion : ∀ n, n < 16 → (u.bench b).r (0x6000 + n * 0x10) = (s.bench b).r (0x6000 + n * 0x10) := fun n hn => h _ (by omega)
    have hfind : (findBelow 16 fun n => regionHit a ((u.bench b).r (0x6000 + n * 0x10))) =
        findBelow 16 fun n => regionHit a ((s.bench b).r (0x6000 + n * 0x10)) :=
      List.find?_congr fun n hn => by rw [hregion n (List.mem_range.mp hn)]
    rw [translate_region ha, translate_region ha, hfind]
    exact Option.map_congr fun n hn => by rw [hregion n (List.mem_range.mp (List.mem_of_find?_eq_some hn))]
  · rw [Machine.translate, Machine.translate, if_neg ha, if_neg ha, h 0x6100 (by decide)]

theorem mapped_of_ways {s u : State} (hb : u.boot = s.boot) (hw : ∀ b, waysOf u b = waysOf s b) (a : Nat) : mapped u a = mapped s a := by
  simp only [mapped, memMappedOut, hb, hw]

theorem rngChunks_congr {s u : State} {b : Nat} (ht : ∀ a, translate u b a = translate s b a) (hm : ∀ a, mapped u a = mapped s a)
    (fuel a n : Nat) : rngChunks u b fuel a n = rngChunks s b fuel a n := by
  induction fuel generalizing a n with
  | zero => rfl
  | succ fuel ih => simp only [rngChunks, ht, hm, ih]

/-- A region maps the address, to memory that is there. -/
def Maps (s : State) (b a : Nat) : Prop := ∃ p, translate s b a = some p ∧ mapped s p.1 = true

theorem filter_mapped_of_maps {s : State} {b a : Nat} (h : Maps s b a) :
    ∃ p, (translate s b a).filter (fun p => mapped s p.1) = some p := by
  obtain ⟨p, hp, hm⟩ := h
  exact ⟨p, by rw [hp, Option.filter_some, if_pos hm]⟩

theorem filter_mapped_of_not_maps {s : State} {b a : Nat} (h : ¬ Maps s b a) :
    (translate s b a).filter (fun p => mapped s p.1) = none :=
  Option.filter_eq_none_iff.mpr fun p hp hm => h ⟨p, hp, hm⟩

/-- A range that regions map has its chunks. -/
theorem rngChunks_of_maps {s : State} {b : Nat} (fuel a n : Nat) (h : ∀ i, a ≤ i → i < a + n → Maps s b i) :
    ∃ ch, rngChunks s b fuel a n = some ch := by
  induction fuel generalizing a n with
  | zero => exact ⟨[], rfl⟩
  | succ fuel ih =>
    by_cases hn : n = 0
    · exact ⟨[], by rw [rngChunks, if_pos hn]⟩
    · obtain ⟨p, hp⟩ := filter_mapped_of_maps (h a (by omega) (by omega))
      obtain ⟨r, hr⟩ := ih (a + min n (2 ^ 21 - a % 2 ^ 21)) (n - min n (2 ^ 21 - a % 2 ^ 21))
        fun i hi hin => h i (by omega) (by omega)
      simp only [rngChunks, if_neg hn, hp, hr]
      exact ⟨_, rfl⟩

theorem rngChunks_of_not_maps {s : State} {b n : Nat} (fuel : Nat) {a : Nat} (hn : 0 < n) (h : ¬ Maps s b a) :
    rngChunks s b (fuel + 1) a n = none := by
  simp only [rngChunks, if_neg hn.ne', filter_mapped_of_not_maps h]

/-! ## The command register is written (R405) -/

/-- The value a range command writes: its operation, with GO and without ABORT. -/
def goValue (op : Nat) (v : Dword) : Nat := setBits (setBits v.toNat 2 0 op) 8 7 1

/-- BENCH_RNG_CMD's value with the plain fields of `w` in it. -/
def plainFields (c : Dword) (w : Nat) : Dword := BitVec.ofNat 64 (setBits (setBits c.toNat 6 0 (bits w 6 0)) 22 13 (bits w 22 13))

/-- The state in which a command's GO acts. -/
def commanded (b op : Nat) (v : Dword) (s : State) : State :=
  s.updBench b (fun x => x.setR 0x6410 (plainFields (x.r 0x6410) (goValue op v)))

section Commanded
variable {w : Writer} {b op : Nat} {v : Dword} {s : State}

theorem rngCommand_go (hw : mayWrite s w b = true) (hb : b < 128) : rngCommand w b op v s = rngGo b (commanded b op v s) := by
  have hgo : bit (goValue op v) 7 = true := by
    rw [goValue, bit_eq_testBit, testBit_setBits (by decide)]
    rfl
  have habort : bit (goValue op v) 8 = false := by
    rw [goValue, bit_eq_testBit, testBit_setBits (by decide)]
    rfl
  rw [goValue] at hgo habort
  rw [rngCommand, if_pos (by rw [hw, decide_eq_true hb]; rfl), rngWrite]
  simp only [hgo, habort, if_pos]
  rfl

@[simp] theorem commanded_bench :
    (commanded b op v s).bench b = (s.bench b).setR 0x6410 (plainFields ((s.bench b).r 0x6410) (goValue op v)) :=
  updBench_bench ..

theorem commanded_r {j o : Nat} (ho : o ≠ 0x6410) : ((commanded b op v s).bench j).r o = (s.bench j).r o := by
  rw [commanded, updBench_get]
  split
  · next h => rw [Bench.setR_get, if_neg ho.symm, h]
  · rfl

@[simp] theorem commanded_waysOf (j : Nat) : waysOf (commanded b op v s) j = waysOf s j := by
  rw [waysOf, commanded_r (by decide), waysOf]

@[simp] theorem commanded_rngChunks (fuel a n : Nat) : rngChunks (commanded b op v s) b fuel a n = rngChunks s b fuel a n :=
  rngChunks_congr (translate_of_regs fun _ ho => commanded_r ho) (mapped_of_ways rfl commanded_waysOf) ..

theorem commanded_op (hop : op < 8) : bits (((commanded b op v s).bench b).r 0x6410).toNat 2 0 = op := by
  rw [commanded_bench, Bench.setR_r, plainFields, goValue, bits_ofNat _ _ _ (by decide), bits_setBits_apart (by decide) _ _ (by decide),
    bits_setBits_inside (by decide) _ _ (by decide) (by decide), bits_bits _ _ (by decide), bits_setBits_apart (by decide) _ _ (by decide),
    bits_setBits_same (by decide)]
  exact Nat.mod_eq_of_lt hop

theorem commanded_tways : bits (((commanded b op v s).bench b).r 0x6410).toNat 6 3 = bits v.toNat 6 3 := by
  rw [commanded_bench, Bench.setR_r, plainFields, goValue, bits_ofNat _ _ _ (by decide), bits_setBits_apart (by decide) _ _ (by decide),
    bits_setBits_inside (by decide) _ _ (by decide) (by decide), bits_bits _ _ (by decide), bits_setBits_apart (by decide) _ _ (by decide),
    bits_setBits_apart (by decide) _ _ (by decide)]

end Commanded

/-! ## An operation ends (R410, R411) -/

/-- The engine of bench `b` is idle and shows this RESULT and COUNT. -/
structure Ended (b res cnt : Nat) (u : State) : Prop where
  rng : (u.bench b).rng = none
  result : bits ((u.bench b).r 0x6410).toNat 12 10 = res
  count : bits ((u.bench b).r 0x6410).toNat 63 32 = cnt

/-- BENCH_RNG_CMD when an operation ends: not BUSY, with its RESULT and COUNT. -/
def endWord (c : Dword) (res cnt : Nat) : Dword := BitVec.ofNat 64 (setBits (setBits (setBits c.toNat 9 9 0) 12 10 res) 63 32 cnt)

section Ends
variable {b res cnt : Nat} {r : RngOp} {s : State}

theorem rngResult_bench (s : State) : (rngResult b res cnt s).bench b =
    { (s.bench b).setR 0x6410 (endWord ((s.bench b).r 0x6410) res cnt) with rng := none, rngDone := true } := updBench_bench ..

theorem rngResult_ended (hres : res < 8) (cnt : Nat) (s : State) : Ended b res (cnt % 2 ^ 32) (rngResult b res cnt s) := by
  have hr : ((rngResult b res cnt s).bench b).r 0x6410 = endWord ((s.bench b).r 0x6410) res cnt := by
    rw [rngResult_bench]
    exact Bench.setR_r ..
  refine ⟨by rw [rngResult_bench], ?_, ?_⟩
  · rw [hr, endWord, bits_ofNat _ _ _ (by decide), bits_setBits_apart (by decide) _ _ (by decide), bits_setBits_same (by decide)]
    exact Nat.mod_eq_of_lt hres
  · rw [hr, endWord, bits_ofNat _ _ _ (by decide), bits_setBits_same (by decide)]

theorem rngResult_ended_zero (hres : res < 8) : Ended b res 0 (rngResult b res 0 s) := rngResult_ended hres 0 s

theorem rngResult_waysOf : waysOf (rngResult b res cnt s) b = waysOf s b := by
  rw [waysOf, rngResult_bench]
  exact congrArg (fun w : Dword => bits w.toNat 3 0) ((Bench.setR_get ..).trans (if_neg (by decide)))

/-- The tally operation of TEN goes to the slice, and changes nothing else of the bench. -/
theorem rngAdd_bench (j : Nat) : ∃ l, (rngAdd b r s).bench j = { s.bench j with tallyIn := l } := by
  unfold rngAdd toSlice
  split
  · rw [updBench_get]
    split
    · next h => subst h; exact ⟨_, rfl⟩
    · exact ⟨_, rfl⟩
  · exact ⟨_, rfl⟩

theorem rngAdd_ended (h : Ended b res cnt s) : Ended b res cnt (rngAdd b r s) := by
  obtain ⟨l, hl⟩ := rngAdd_bench (b := b) (r := r) (s := s) b
  exact ⟨by rw [hl]; exact h.rng, by rw [hl]; exact h.result, by rw [hl]; exact h.count⟩

theorem rngAdd_waysOf (j : Nat) : waysOf (rngAdd b r s) j = waysOf s j := by
  obtain ⟨l, hl⟩ := rngAdd_bench (b := b) (r := r) (s := s) j
  rw [waysOf, hl]
  rfl

theorem rngAdd_mem : (rngAdd b r s).mem = s.mem := (rngAdd_within (F := [.benches]) (by decide) (.refl ..) b r).out .mem (by decide)

theorem setWays_waysOf {k : Nat} (hk : k ≤ 8) : waysOf (s.updBench b (fun x => x.setR 0x6500 (BitVec.ofNat 64 k))) b = k := by
  rw [waysOf, updBench_bench, Bench.setR_r, bits_ofNat _ _ _ (by decide), bits]
  omega

end Ends

/-! ## GO (R405, R406, R409) -/

/-- The operation that the fields of BENCH_RNG_CMD give. -/
def newOp (s : State) (b : Nat) (chunks : List (Nat × Nat)) (items : List Nat) (dur : Nat) : RngOp :=
  let v := ((s.bench b).r 0x6410).toNat
  { op := bits v 2 0, tways := bits v 6 3, chunks := chunks, items := items, started := ctlNow s, startMesh := s.now,
    due := ctlNow s + dur, ways := waysOf s b, aborting := false, ten := bit v 13, tidx := bits v 22 14 }

/-- BENCH_RNG_CMD while an operation runs: BUSY, with no RESULT and no COUNT. -/
def busyWord (c : Dword) : Dword := BitVec.ofNat 64 (setBits (setBits (setBits c.toNat 9 9 1) 12 10 0) 63 32 0)

/-- The operation begins. -/
def begins (b : Nat) (q : RngOp) (s : State) : State :=
  s.updBench b (fun x => { x.setR 0x6410 (busyWord (x.r 0x6410)) with rngDone := false, rng := some q })

section Begins
variable {b : Nat} {q : RngOp} {s : State}

theorem begins_bench : (begins b q s).bench b =
    { (s.bench b).setR 0x6410 (busyWord ((s.bench b).r 0x6410)) with rngDone := false, rng := some q } := updBench_bench ..

theorem begins_rng : ((begins b q s).bench b).rng = some q := by rw [begins_bench]

theorem begins_lines : ((begins b q s).bench b).lines = (s.bench b).lines := by
  rw [begins_bench]
  rfl

theorem begins_busy : bits (((begins b q s).bench b).r 0x6410).toNat 9 9 = 1 := by
  have hr : ((begins b q s).bench b).r 0x6410 = busyWord ((s.bench b).r 0x6410) := by
    rw [begins_bench]
    exact Bench.setR_r ..
  rw [hr, busyWord, bits_ofNat _ _ _ (by decide), bits_setBits_apart (by decide) _ _ (by decide),
    bits_setBits_apart (by decide) _ _ (by decide)]
  exact bits_setBits_same (by decide) ..

theorem begins_waysOf : waysOf (begins b q s) b = waysOf s b := by
  rw [waysOf, begins_bench]
  exact congrArg (fun w : Dword => bits w.toNat 3 0) ((Bench.setR_get ..).trans (if_neg (by decide)))

end Begins

/-- The range of the engine's registers, in chunks. -/
def rangeChunks (s : State) (b : Nat) : Option (List (Nat × Nat)) :=
  let len := bits ((s.bench b).r 0x6408).toNat 39 6 * 64
  rngChunks s b (len / 2 ^ 21 + 2) (bits ((s.bench b).r 0x6400).toNat 47 6 * 64) len

/-- A line lies in one of the chunks. -/
def inChunks (ch : List (Nat × Nat)) (l : Nat) : Bool := ch.any (fun c => decide (c.1 ≤ l) && decide (l < c.1 + c.2))

/-- The fills that `p` picks enter no way when they arrive (R407). -/
def dropFills (b : Nat) (p : Fill → Bool) (s : State) : State :=
  s.updBench b (fun x => { x with fills := x.fills.map (fun f => if p f then { f with drop := true } else f) })

/-- Entries of the range that have not passed (R406). -/
def waitedEntries (x : Bench) (ch : List (Nat × Nat)) : List Nat :=
  (x.mb.filter (fun e => inChunks ch e.line && decide (e.stage ≠ 3))).map (·.serial)

/-- CONVERT clears the ways from `n` upward of lines, and of fills on their way. -/
def clearWays (b n : Nat) (s : State) : State :=
  s.updBench b (fun x =>
    { x with lines := x.lines.filter (fun l => decide (l.way < n)),
             fills := x.fills.map (fun f => if n ≤ f.way then { f with drop := true } else f) })

theorem clearWays_lines {b n : Nat} {s : State} :
    ((clearWays b n s).bench b).lines = (s.bench b).lines.filter (fun l => decide (l.way < n)) := by rw [clearWays, updBench_bench]

theorem clearWays_waysOf {b n : Nat} {s : State} : waysOf (clearWays b n s) b = waysOf s b := by
  rw [waysOf, clearWays, updBench_bench]
  rfl

section Go
variable {b : Nat} {s : State} {ch : List (Nat × Nat)}

theorem rngGo_busy {r : RngOp} (h : (s.bench b).rng = some r) :
    rngGo b s = s.updBench b (fun x => x.setR 0x6410 (BitVec.ofNat 64 (setBits (x.r 0x6410).toNat 12 10 5))) := by
  simp only [rngGo, h]

variable (h : (s.bench b).rng = none)
include h

theorem rngGo_invalidate (hop : bits ((s.bench b).r 0x6410).toNat 2 0 = 1) (hc : rangeChunks s b = some ch) :
    rngGo b s = begins b (newOp s b ch [] (min (ch.foldl (fun n c => n + c.2) 0) (4096 * (8 - waysOf s b)) + 4))
      (dropFills b (fun f => f.sent && inChunks ch f.line) s) := by
  rw [rangeChunks] at hc
  simp only [rngGo, h, hop, hc, true_or, if_true]
  rw [newOp, hop]
  rfl

theorem rngGo_flush (hop : bits ((s.bench b).r 0x6410).toNat 2 0 = 2) (hc : rangeChunks s b = some ch) :
    rngGo b s = begins b (newOp s b ch (waitedEntries (s.bench b) ch) 4) s := by
  rw [rangeChunks] at hc
  simp only [rngGo, h, hop, hc, or_true, if_true, if_neg (show ¬ 2 = 1 by decide)]
  rw [newOp, hop]
  rfl

theorem rngGo_unmapped (hop : bits ((s.bench b).r 0x6410).toNat 2 0 = 1 ∨ bits ((s.bench b).r 0x6410).toNat 2 0 = 2)
    (hc : rangeChunks s b = none) : rngGo b s = rngResult b 4 0 s := by
  rw [rangeChunks] at hc
  simp only [rngGo, h, if_pos hop, hc]

theorem rngGo_convert (hop : bits ((s.bench b).r 0x6410).toNat 2 0 = 3) (htw : bits ((s.bench b).r 0x6410).toNat 6 3 ≤ 8) :
    rngGo b s = begins b (newOp s b [] [] (8192 * (bits ((s.bench b).r 0x6410).toNat 6 3 - waysOf s b) + 4))
      (clearWays b (8 - max (waysOf s b) (bits ((s.bench b).r 0x6410).toNat 6 3)) s) := by
  simp only [rngGo, h, hop, if_neg (Nat.not_lt.mpr htw), if_true, if_neg (show ¬ (3 = 1 ∨ 3 = 2) by decide)]
  rw [newOp, hop]
  rfl

theorem rngGo_convert_invalid (hop : bits ((s.bench b).r 0x6410).toNat 2 0 = 3) (htw : 8 < bits ((s.bench b).r 0x6410).toNat 6 3) :
    rngGo b s = rngResult b 4 0 s := by
  simp only [rngGo, h, hop, if_pos htw, if_true, if_neg (show ¬ (3 = 1 ∨ 3 = 2) by decide)]

theorem rngGo_restore (hop : bits ((s.bench b).r 0x6410).toNat 2 0 = 4) (htw : bits ((s.bench b).r 0x6410).toNat 6 3 ≤ 8) :
    rngGo b s = begins b (newOp s b [] [] (4096 * (waysOf s b - bits ((s.bench b).r 0x6410).toNat 6 3) + 4))
      (s.updBench b (fun x =>
        x.setR 0x6500 (BitVec.ofNat 64 (min (waysOf s b) (bits ((s.bench b).r 0x6410).toNat 6 3))))) := by
  simp only [rngGo, h, hop, if_neg (Nat.not_lt.mpr htw), if_true, if_neg (show ¬ (4 = 1 ∨ 4 = 2) by decide),
    if_neg (show ¬ 4 = 3 by decide)]
  rw [newOp, hop]
  rfl

end Go

/-! ## Abort and completion, case by case (R408, R410, R411, R423) -/

theorem rngFinished_before {b : Nat} {r : RngOp} {s : State} (h : ctlNow s < r.due) : rngFinished s b r = false := by
  rw [rngFinished, decide_eq_false (Nat.not_le.mpr h), Bool.false_and]

theorem rngFinished_after {b : Nat} {r : RngOp} {s : State} (h : r.due ≤ ctlNow s)
    (hmb : ∀ e ∈ (s.bench b).mb, e.serial ∈ r.items → e.stage = 3) : rngFinished s b r = true := by
  have hnone : ((s.bench b).mb.any fun e => r.items.contains e.serial && decide (e.stage ≠ 3)) = false := by simpa using hmb
  rw [rngFinished, decide_eq_true h, hnone]
  rfl

theorem waysEnd_convert {b k : Nat} {r : RngOp} {s : State} (h : r.op = 3) : waysEnd b k r s =
    (zeroWays b r.ways (r.ways + k) s).updBench b (fun x => x.setR 0x6500 (BitVec.ofNat 64 (r.ways + k))) := by rw [waysEnd, if_pos h]

theorem waysEnd_restore {b k : Nat} {r : RngOp} {s : State} (h : r.op ≠ 3) : waysEnd b k r s =
    zeroWays b (r.ways - k) r.ways (s.updBench b (fun x => x.setR 0x6500 (BitVec.ofNat 64 (r.ways - k)))) := by rw [waysEnd, if_neg h]

/-- The entries of a FLUSH that have passed. -/
def passedItems (x : Bench) (r : RngOp) : List Nat :=
  r.items.filter (fun i => !(x.mb.any (fun m => decide (m.serial = i) && decide (m.stage ≠ 3))))

/-- CONVERT or RESTORE with an abort that waits for the way being worked on. -/
def aborting (s : State) (r : RngOp) : RngOp :=
  let per := if r.op = 3 then 8192 else 4096
  { r with aborting := true, due := min r.due (r.started + per * ((ctlNow s - r.started) / per + 1)) }

section Idle
variable {b : Nat} {s : State} (h : (s.bench b).rng = none)
include h

theorem rngComplete_idle : rngComplete b s = s := by simp only [rngComplete, h]

theorem rngAbort_idle (hd : (s.bench b).rngDone = false) :
    rngAbort b s = s.updBench b (fun x => x.setR 0x6410 (BitVec.ofNat 64 (setBits (x.r 0x6410).toNat 12 10 3))) := by
  simp only [rngAbort, h, hd, if_false, Bool.false_eq_true]

theorem rngAbort_final (hd : (s.bench b).rngDone = true) : rngAbort b s = s := by simp only [rngAbort, h, hd, if_true]

end Idle

section Runs
variable {b : Nat} {s : State} {r : RngOp} (h : (s.bench b).rng = some r)
include h

section Unfinished
variable (hf : rngFinished s b r = false)
include hf

theorem rngComplete_waits : rngComplete b s = s := by simp only [rngComplete, h, hf, if_true]

theorem rngAbort_invalidate (hop : r.op = 1) : rngAbort b s =
    rngResult b 2 (min (ctlNow s - r.started) (rngTotal r)) (rngSweep b (ctlNow s - r.started) r s) := by
  simp only [rngAbort, h, hf, if_false, Bool.false_eq_true, if_pos hop]

theorem rngAbort_flush (hop : r.op = 2) : rngAbort b s = rngResult b 2 (passedItems (s.bench b) r).length s := by
  simp only [rngAbort, h, hf, if_false, Bool.false_eq_true, if_pos hop, if_neg (show r.op ≠ 1 by omega), passedItems]

theorem rngAbort_ways (h1 : r.op ≠ 1) (h2 : r.op ≠ 2) :
    rngAbort b s = s.updBench b (fun x => { x with rng := some (aborting s r) }) := by
  simp only [rngAbort, h, hf, if_false, Bool.false_eq_true, if_neg h1, if_neg h2, aborting]

end Unfinished

section Finished
variable (hf : rngFinished s b r = true)
include hf

theorem rngComplete_aborted (ha : r.aborting = true) : rngComplete b s =
    rngResult b 2 (waysDone r (r.due - r.started)) (waysEnd b (waysDone r (r.due - r.started)) r s) := by
  simp only [rngComplete, h, hf, ha, if_true, if_false, Bool.true_eq_false]

variable (ha : r.aborting = false)
include ha

theorem rngComplete_invalidate (hop : r.op = 1) :
    rngComplete b s = rngAdd b r (rngResult b 1 (rngTotal r) (rngSweep b (rngTotal r) r s)) := by
  simp only [rngComplete, h, hf, ha, if_false, Bool.true_eq_false, Bool.false_eq_true, if_pos hop]

theorem rngComplete_flush (hop : r.op = 2) : rngComplete b s = rngAdd b r (rngResult b 1 (rngTotal r) s) := by
  simp only [rngComplete, h, hf, ha, if_false, Bool.true_eq_false, Bool.false_eq_true, if_pos hop, if_neg (show r.op ≠ 1 by omega)]

theorem rngComplete_ways (h1 : r.op ≠ 1) (h2 : r.op ≠ 2) {k : Nat}
    (hk : (if r.op = 3 then r.tways - r.ways else r.ways - r.tways) = k) :
    rngComplete b s = rngAdd b r (rngResult b 1 k (waysEnd b k r s)) := by
  simp only [rngComplete, h, hf, ha, if_false, Bool.true_eq_false, Bool.false_eq_true, if_neg h1, if_neg h2, hk]

end Finished

end Runs

end Sys2Proof.ModuleProofs
end

section
/-! PROOFS. O36: what commands, aborts and completion do to the range engine. -/

namespace Sys2Proof.ModuleProofs
open Sys2Proof Sys2Proof.Machine Sys2Proof.Laws

/-! ## Commands at an idle engine (R405, R406, R408, R409) -/

/-- Operation `q` has begun in `u`, at the time of `s`. -/
def Begun (b op : Nat) (s u : State) (q : RngOp) : Prop :=
  (u.bench b).rng = some q ∧ q.op = op ∧ q.started = ctlNow s ∧ q.aborting = false ∧ bits ((u.bench b).r 0x6410).toNat 9 9 = 1

theorem begins_begun {b op : Nat} {q : RngOp} {s z : State} (hop : q.op = op) (hs : q.started = ctlNow s) (ha : q.aborting = false) :
    Begun b op s (begins b q z) q := ⟨begins_rng, hop, hs, ha, begins_busy⟩

theorem commanded_rng {b op : Nat} {v : Dword} {s : State} : ((commanded b op v s).bench b).rng = (s.bench b).rng := by
  rw [commanded_bench, Bench.setR_rng]

theorem commanded_rangeChunks {b op : Nat} {v : Dword} {s : State} : rangeChunks (commanded b op v s) b = rangeChunks s b := by
  rw [rangeChunks, commanded_r (by decide), commanded_r (by decide), commanded_rngChunks, rangeChunks]

theorem mem_waitedEntries {x : Bench} {ch : List (Nat × Nat)} {e : MBEntry} (he : e ∈ x.mb) (hs : e.stage ≠ 3)
    (hc : ∃ c ∈ ch, c.1 ≤ e.line ∧ e.line < c.1 + c.2) : e.serial ∈ waitedEntries x ch := by
  have hin : inChunks ch e.line = true := by simpa [inChunks] using hc
  exact List.mem_map_of_mem (List.mem_filter.mpr ⟨he, by rw [hin, decide_eq_true hs]; rfl⟩)

section Command
variable {w : Writer} {b : Nat} {v : Dword} {s : State} (hw : mayWrite s w b = true) (hb : b < 128)
include hw hb

theorem exec_invalidate : exec (.invalidate w b v) s = .next (rngGo b (commanded b 1 v s)) :=
  congrArg Host.Outcome.next (rngCommand_go hw hb)

theorem exec_flush : exec (.flush w b v) s = .next (rngGo b (commanded b 2 v s)) :=
  congrArg Host.Outcome.next (rngCommand_go hw hb)

theorem exec_convert : exec (.convert w b v) s = .next (rngGo b (commanded b 3 v s)) :=
  congrArg Host.Outcome.next (rngCommand_go hw hb)

theorem exec_restore : exec (.restore w b v) s = .next (rngGo b (commanded b 4 v s)) :=
  congrArg Host.Outcome.next (rngCommand_go hw hb)

theorem exec_rangeAbort : exec (.rangeAbort w b) s = .next (rngAbort b s) :=
  congrArg Host.Outcome.next (if_pos (by rw [hw, decide_eq_true hb]; rfl))

theorem flush_refused {r : RngOp} (h : (s.bench b).rng = some r) : ∃ u, exec (.flush w b v) s = .next u ∧ (u.bench b).rng = some r ∧
    bits ((u.bench b).r 0x6410).toNat 12 10 = 5 := by
  refine ⟨_, by rw [exec_flush hw hb, rngGo_busy (commanded_rng.trans h)], ?_, ?_⟩
  · rw [updBench_bench, Bench.setR_rng, commanded_rng, h]
  · rw [updBench_bench, Bench.setR_r, bits_ofNat _ _ _ (by decide)]
    exact bits_setBits_same (by decide) ..

variable (h : (s.bench b).rng = none)
include h

theorem invalidate_begins {ch : List (Nat × Nat)} (hc : rangeChunks s b = some ch) :
    ∃ u q, exec (.invalidate w b v) s = .next u ∧ Begun b 1 s u q ∧ rangeChunks s b = some q.chunks := by
  have hop : bits (((commanded b 1 v s).bench b).r 0x6410).toNat 2 0 = 1 := commanded_op (by decide)
  exact ⟨_, _, by rw [exec_invalidate hw hb, rngGo_invalidate (commanded_rng.trans h) hop (commanded_rangeChunks.trans hc)],
    begins_begun hop rfl rfl, hc⟩

theorem flush_begins {ch : List (Nat × Nat)} (hc : rangeChunks s b = some ch) :
    ∃ u q, exec (.flush w b v) s = .next u ∧ Begun b 2 s u q ∧ rangeChunks s b = some q.chunks ∧
      ∀ e ∈ (s.bench b).mb, e.stage ≠ 3 → (∃ c ∈ q.chunks, c.1 ≤ e.line ∧ e.line < c.1 + c.2) → e.serial ∈ q.items := by
  have hop : bits (((commanded b 2 v s).bench b).r 0x6410).toNat 2 0 = 2 := commanded_op (by decide)
  have hmb : ((commanded b 2 v s).bench b).mb = (s.bench b).mb := by rw [commanded_bench, Bench.setR_mb]
  exact ⟨_, _, by rw [exec_flush hw hb, rngGo_flush (commanded_rng.trans h) hop (commanded_rangeChunks.trans hc)],
    begins_begun hop rfl rfl, hc, fun e he => mem_waitedEntries (hmb ▸ he)⟩

theorem invalidate_invalid (hc : rangeChunks s b = none) : ∃ u, exec (.invalidate w b v) s = .next u ∧ Ended b 4 0 u :=
  ⟨_, by rw [exec_invalidate hw hb, rngGo_unmapped (commanded_rng.trans h) (.inl (commanded_op (by decide)))
    (commanded_rangeChunks.trans hc)], rngResult_ended_zero (by decide)⟩

theorem flush_invalid (hc : rangeChunks s b = none) : ∃ u, exec (.flush w b v) s = .next u ∧ Ended b 4 0 u :=
  ⟨_, by rw [exec_flush hw hb, rngGo_unmapped (commanded_rng.trans h) (.inr (commanded_op (by decide)))
    (commanded_rangeChunks.trans hc)], rngResult_ended_zero (by decide)⟩

theorem convert_begins (htw : bits v.toNat 6 3 ≤ 8) : ∃ u q, exec (.convert w b v) s = .next u ∧ Begun b 3 s u q ∧
    q.tways = bits v.toNat 6 3 ∧ q.ways = waysOf s b ∧ q.due = ctlNow s + (8192 * (bits v.toNat 6 3 - waysOf s b) + 4) ∧
    waysOf u b = waysOf s b ∧
    ∀ l, l ∈ (u.bench b).lines ↔ l ∈ (s.bench b).lines ∧ l.way < 8 - max (waysOf s b) (bits v.toNat 6 3) := by
  have hop : bits (((commanded b 3 v s).bench b).r 0x6410).toNat 2 0 = 3 := commanded_op (by decide)
  refine ⟨_, _, by rw [exec_convert hw hb, rngGo_convert (commanded_rng.trans h) hop (commanded_tways.trans_le htw)],
    begins_begun hop rfl rfl, commanded_tways, commanded_waysOf b, ?_, ?_, fun l => ?_⟩
  · rw [newOp, commanded_tways, commanded_waysOf]
    rfl
  · rw [begins_waysOf, clearWays_waysOf, commanded_waysOf]
  · rw [begins_lines, clearWays_lines, commanded_tways, commanded_waysOf, commanded_bench, Bench.setR_lines, List.mem_filter,
      decide_eq_true_eq]

/-- That a TWAYS above 8 is INVALID is the model's choice; no rule gives the answer. -/
theorem convert_invalid (htw : 8 < bits v.toNat 6 3) : ∃ u, exec (.convert w b v) s = .next u ∧ Ended b 4 0 u :=
  ⟨_, by rw [exec_convert hw hb, rngGo_convert_invalid (commanded_rng.trans h) (commanded_op (by decide))
    (htw.trans_eq commanded_tways.symm)], rngResult_ended_zero (by decide)⟩

theorem restore_begins (htw : bits v.toNat 6 3 ≤ 8) : ∃ u q, exec (.restore w b v) s = .next u ∧ Begun b 4 s u q ∧
    q.tways = bits v.toNat 6 3 ∧ q.ways = waysOf s b ∧ q.due = ctlNow s + (4096 * (waysOf s b - bits v.toNat 6 3) + 4) ∧
    waysOf u b = min (waysOf s b) (bits v.toNat 6 3) := by
  have hop : bits (((commanded b 4 v s).bench b).r 0x6410).toNat 2 0 = 4 := commanded_op (by decide)
  refine ⟨_, _, by rw [exec_restore hw hb, rngGo_restore (commanded_rng.trans h) hop (commanded_tways.trans_le htw)],
    begins_begun hop rfl rfl, commanded_tways, commanded_waysOf b, ?_, ?_⟩
  · rw [newOp, commanded_tways, commanded_waysOf]
    rfl
  · rw [begins_waysOf, commanded_tways, commanded_waysOf, setWays_waysOf ((Nat.min_le_right ..).trans htw)]

theorem abort_not_pending (hd : (s.bench b).rngDone = false) : ∃ u, exec (.rangeAbort w b) s = .next u ∧ (u.bench b).rng = none ∧
    bits ((u.bench b).r 0x6410).toNat 12 10 = 3 := by
  refine ⟨_, by rw [exec_rangeAbort hw hb, rngAbort_idle h hd], ?_, ?_⟩
  · rw [updBench_bench, Bench.setR_rng, h]
  · rw [updBench_bench, Bench.setR_r, bits_ofNat _ _ _ (by decide)]
    exact bits_setBits_same (by decide) ..

theorem abort_of_final (hd : (s.bench b).rngDone = true) : exec (.rangeAbort w b) s = .next s := by
  rw [exec_rangeAbort hw hb, rngAbort_final h hd]

end Command

/-! ## Aborts of a running operation (R411, R423) -/

section Abort
variable {w : Writer} {b : Nat} {s : State} {r : RngOp} (hw : mayWrite s w b = true) (hb : b < 128) (h : (s.bench b).rng = some r)
  (hf : rngFinished s b r = false)
include hw hb h hf

/-- One line a control cycle is the model's reading of the duration in R406; COUNT follows it. -/
theorem abort_invalidate (hop : r.op = 1) : ∃ u, exec (.rangeAbort w b) s = .next u ∧
    Ended b 2 (min (ctlNow s - r.started) (rngTotal r) % 2 ^ 32) u :=
  ⟨_, by rw [exec_rangeAbort hw hb, rngAbort_invalidate h hf hop], rngResult_ended (by decide) ..⟩

theorem abort_flush (hop : r.op = 2) (hst : ∀ e ∈ (s.bench b).mb, e.serial ∈ r.items → e.stage ≠ 3)
    (hin : ∀ i ∈ r.items, ∃ e ∈ (s.bench b).mb, e.serial = i) : ∃ u, exec (.rangeAbort w b) s = .next u ∧ Ended b 2 0 u := by
  have hnone : passedItems (s.bench b) r = [] := List.filter_eq_nil_iff.mpr fun i hi => by
    obtain ⟨e, he, hei⟩ := hin i hi
    simpa using ⟨e, he, hei, hst e he (hei ▸ hi)⟩
  refine ⟨_, by rw [exec_rangeAbort hw hb, rngAbort_flush h hf hop, hnone, List.length_nil], rngResult_ended_zero (by decide)⟩

theorem abort_ways (hop : r.op = 3 ∨ r.op = 4) : ∃ u q, exec (.rangeAbort w b) s = .next u ∧ (u.bench b).rng = some q ∧
    q.aborting = true ∧ q.due ≤ r.due ∧ q.tways = r.tways ∧ q.ways = r.ways :=
  ⟨_, aborting s r, by rw [exec_rangeAbort hw hb, rngAbort_ways h hf (by omega) (by omega)], by rw [updBench_bench], rfl,
    Nat.min_le_left .., rfl, rfl⟩

end Abort

/-! ## Completion (R408, R410, R411) -/

section Complete
variable {b : Nat} {s : State} {r : RngOp} (h : (s.bench b).rng = some r)
include h

theorem complete_waits (hf : rngFinished s b r = false) : exec (.rangeComplete b) s = .next s :=
  congrArg Host.Outcome.next (rngComplete_waits h hf)

variable (hf : rngFinished s b r = true)
include hf

theorem complete_aborted (ha : r.aborting = true) : ∃ u cnt, exec (.rangeComplete b) s = .next u ∧ Ended b 2 cnt u :=
  ⟨_, _, congrArg Host.Outcome.next (rngComplete_aborted h hf ha), rngResult_ended (by decide) ..⟩

variable (ha : r.aborting = false)
include ha

theorem complete_range (hop : r.op = 1 ∨ r.op = 2) : ∃ u, exec (.rangeComplete b) s = .next u ∧ Ended b 1 (rngTotal r % 2 ^ 32) u := by
  obtain hop | hop := hop
  · exact ⟨_, congrArg Host.Outcome.next (rngComplete_invalidate h hf ha hop), rngAdd_ended (rngResult_ended (by decide) ..)⟩
  · exact ⟨_, congrArg Host.Outcome.next (rngComplete_flush h hf ha hop), rngAdd_ended (rngResult_ended (by decide) ..)⟩

/-- CONVERT and RESTORE end with `k` ways done. -/
theorem complete_ways (hop : r.op = 3 ∨ r.op = 4) {k : Nat} (hk : (if r.op = 3 then r.tways - r.ways else r.ways - r.tways) = k)
    (hk8 : k ≤ 8) : ∃ u, exec (.rangeComplete b) s = .next u ∧ Ended b 1 k u ∧ waysOf u b = waysOf (waysEnd b k r s) b ∧
      u.mem = (waysEnd b k r s).mem := by
  refine ⟨_, congrArg Host.Outcome.next (rngComplete_ways h hf ha (by omega) (by omega) hk), ?_, ?_, ?_⟩
  · have hend := rngResult_ended (b := b) (show 1 < 8 by decide) k (waysEnd b k r s)
    rw [Nat.mod_eq_of_lt (show k < 2 ^ 32 by omega)] at hend
    exact rngAdd_ended hend
  · rw [rngAdd_waysOf, rngResult_waysOf]
  · rw [rngAdd_mem, rngResult, updBench_mem]

theorem complete_convert (hop : r.op = 3) (hle : r.ways ≤ r.tways) (h8 : r.tways ≤ 8) :
    ∃ u, exec (.rangeComplete b) s = .next u ∧ Ended b 1 (r.tways - r.ways) u ∧ waysOf u b = r.tways ∧
      u.mem = memZero s.mem (winBase b + r.ways * 0x40000) ((r.tways - r.ways) * 0x40000) := by
  obtain ⟨u, hexec, hend, hways, hmem⟩ := complete_ways h hf ha (.inl hop) (if_pos hop) (by omega)
  rw [waysEnd_convert hop, Nat.add_sub_cancel' hle] at hways hmem
  refine ⟨u, hexec, hend, ?_, ?_⟩
  · rw [hways, setWays_waysOf h8]
  · rw [hmem, updBench_mem, zeroWays]

theorem complete_restore (hop : r.op = 4) (hle : r.tways ≤ r.ways) (h8 : r.ways ≤ 8) :
    ∃ u, exec (.rangeComplete b) s = .next u ∧ Ended b 1 (r.ways - r.tways) u ∧ waysOf u b = r.tways := by
  obtain ⟨u, hexec, hend, hways, -⟩ := complete_ways h hf ha (.inr hop) (if_neg (by omega)) (by omega)
  rw [waysEnd_restore (by omega), Nat.sub_sub_self hle] at hways
  refine ⟨u, hexec, hend, ?_⟩
  rw [hways]
  exact setWays_waysOf (hle.trans h8)

end Complete

/-- Settles O36: a command is `rngGo` on its fields (`rngCommand_go`), which begins the operation or ends it INVALID; aborts and completion
end it by `rngResult`, whose fields are `rngResult_ended`. -/
theorem rangeOperations : Obligations.RangeOperations := by
  intro s w b v r x tw base len maps result amount runs hw hb
  refine ⟨fun h => ⟨fun hmap => ?_, fun hlen hmap => ?_, fun htw => ?_, fun htw => ?_, abort_not_pending hw hb h, abort_of_final hw hb h,
    congrArg Host.Outcome.next (rngComplete_idle h)⟩, fun h => ⟨flush_refused hw hb h, fun hdue => ?_, fun hdue hmb => ?_⟩⟩
  · obtain ⟨ch, hch⟩ := rngChunks_of_maps (len / 2 ^ 21 + 2) base len hmap
    exact ⟨invalidate_begins hw hb h hch, flush_begins hw hb h hch⟩
  · have hch : rangeChunks s b = none := rngChunks_of_not_maps (len / 2 ^ 21 + 1) hlen hmap
    obtain ⟨u, hu, hend⟩ := invalidate_invalid hw hb h hch (v := v)
    obtain ⟨u', hu', hend'⟩ := flush_invalid hw hb h hch (v := v)
    exact ⟨⟨u, hu, hend.rng, hend.result⟩, u', hu', hend'.rng, hend'.result⟩
  · exact ⟨convert_begins hw hb h htw, restore_begins hw hb h htw⟩
  · obtain ⟨u, hu, hend⟩ := convert_invalid hw hb h htw
    exact ⟨u, hu, hend.rng, hend.result⟩
  · have hf := rngFinished_before (b := b) hdue
    refine ⟨complete_waits h hf, fun hop => ?_, fun hop hst hin => ?_, abort_ways hw hb h hf⟩
    · obtain ⟨u, hu, hend⟩ := abort_invalidate hw hb h hf hop
      exact ⟨u, hu, hend.rng, hend.result, hend.count⟩
    · obtain ⟨u, hu, hend⟩ := abort_flush hw hb h hf hop hst hin
      exact ⟨u, hu, hend.rng, hend.result, hend.count⟩
  · have hf := rngFinished_after hdue hmb
    refine ⟨fun ha hop => ?_, fun ha hop hle h8 => ?_, fun ha hop hle h8 => ?_, fun ha => ?_⟩
    · obtain ⟨u, hu, hend⟩ := complete_range h hf ha hop
      exact ⟨u, hu, hend.rng, hend.result, hend.count⟩
    · obtain ⟨u, hu, hend, hways, hmem⟩ := complete_convert h hf ha hop hle h8
      exact ⟨u, hu, hend.rng, hend.result, hend.count, hways, hmem⟩
    · obtain ⟨u, hu, hend, hways⟩ := complete_restore h hf ha hop hle h8
      exact ⟨u, hu, hend.rng, hend.result, hend.count, hways⟩
    · obtain ⟨u, _, hu, hend⟩ := complete_aborted h hf ha
      exact ⟨u, hu, hend.rng, hend.result⟩

end Sys2Proof.ModuleProofs
end

section
/-! PROOFS. What counts, records, memory accesses and completions leave of the benches, for O30, O31, O32 and O34. -/

namespace Sys2Proof.ChannelProofs
open Sys2Proof Sys2Proof.Machine Sys2Proof.Laws Sys2Proof.ModuleProofs Sys2Proof.CoreProofs

/-! ## Counts and records alone (R93, R491, R618, R698) -/

/-- The benches of `u` are those of `s` but for registers, activity counts, sync rings and trace queues. -/
structure CountsOnly (s u : State) : Prop where
  bench : ∀ d, u.bench d =
    { s.bench d with
      reg := (u.bench d).reg, act := (u.bench d).act, sync := (u.bench d).sync, trace := (u.bench d).trace,
      traceLost := (u.bench d).traceLost }

theorem CountsOnly.refl (s : State) : CountsOnly s s := ⟨fun _ => rfl⟩

theorem CountsOnly.trans {s u v : State} (h : CountsOnly s u) (k : CountsOnly u v) : CountsOnly s v :=
  ⟨fun d => by rw [k.bench d, h.bench d]⟩

theorem CountsOnly.of_records {s u : State} (h : RecordsOnly s u) : CountsOnly s u := ⟨fun d => by rw [h.bench d]⟩

theorem CountsOnly.of_within {F : List Field} {s u : State} (h : Within F s u) (hb : Field.benches ∉ F) : CountsOnly s u :=
  ⟨fun d => by rw [bench_of_within h hb]⟩

theorem CountsOnly.updBench (s : State) (b : Nat) (f : Bench → Bench)
    (hf : ∀ x, f x =
      { x with reg := (f x).reg, act := (f x).act, sync := (f x).sync, trace := (f x).trace, traceLost := (f x).traceLost }) :
    CountsOnly s (s.updBench b f) := by
  refine ⟨fun d => ?_⟩
  rw [updBench_get]
  split
  next h => rw [← h]; exact hf _
  next => rfl

theorem CountsOnly.forAll {α : Type} {l : List α} {f : α → State → State} (h : ∀ a s, CountsOnly s (f a s)) (s : State) :
    CountsOnly s (forAll l f s) :=
  forAll_keeps (Q := CountsOnly s) (fun a u hu => hu.trans (h a u)) (.refl s)

section Reads
variable {s u : State} (h : CountsOnly s u)
include h

/-- Whatever a bench holds besides counts and records is as it was. -/
theorem CountsOnly.field {α : Type} (g : Bench → α)
    (hg : ∀ x r a y t n, g { x with reg := r, act := a, sync := y, trace := t, traceLost := n } = g x) (d : Nat) :
    g (u.bench d) = g (s.bench d) := by
  rw [h.bench d, hg]

theorem CountsOnly.chanOf (c i : Nat) : u.chanOf c i = s.chanOf c i :=
  h.field (fun x => x.chan (chanIx c i)) (fun _ _ _ _ _ _ => rfl) (benchOf c)

theorem CountsOnly.queueOf (c i : Nat) : u.queueOf c i = s.queueOf c i :=
  h.field (fun x => x.queue (chanIx c i)) (fun _ _ _ _ _ _ => rfl) (benchOf c)

theorem CountsOnly.oq (d : Nat) : (u.bench d).oq = (s.bench d).oq := h.field Bench.oq (fun _ _ _ _ _ _ => rfl) d

theorem CountsOnly.inbox (d : Nat) : (u.bench d).inbox = (s.bench d).inbox := h.field Bench.inbox (fun _ _ _ _ _ _ => rfl) d

end Reads

/-! ## Memory accesses (R437, R618, R738) -/

theorem actLines_counts (a n : Nat) (s : State) : CountsOnly s (actLines a n s) := by
  unfold actLines
  split
  · exact .updBench _ _ _ fun _ => rfl
  · exact .refl s

theorem noteRead_counts (a n : Nat) (s : State) : CountsOnly s (noteRead a n s) := by
  have hbad : ∀ l, CountsOnly s { s with bad := l } := fun _ => ⟨fun _ => rfl⟩
  unfold noteRead
  dsimp only
  refine .trans ?_ (actLines_counts ..)
  split
  · exact .refl s
  split
  · exact (hbad _).trans (.of_records (count_records ..))
  · exact hbad _

theorem eccWrite_counts (a : Nat) (l : List (Byte × Bool)) (s : State) : CountsOnly s (eccWrite s a l) := by
  unfold eccWrite
  extract_lets _ _ _ _ _ _ _ s1
  have hs1 : CountsOnly s s1 := ⟨fun _ => rfl⟩
  split
  · exact hs1.trans (.of_records ((count_records ..).trans (count_records ..)))
  · exact hs1

theorem write_counts (a : Nat) (l : List Byte) (s : State) : CountsOnly s (write a l s) := by
  unfold write writeMask
  generalize l.map (fun b => (b, true)) = m
  have hbytes : CountsOnly s (if s.bad = [] then { s with mem := memPutMask s.mem a m } else eccWrite s a m) := by
    split
    · exact ⟨fun _ => rfl⟩
    · exact eccWrite_counts ..
  dsimp only
  refine .trans ?_ (actLines_counts ..)
  split
  · exact hbytes.trans (.of_within (F := [.cores]) (clearResv_within (by decide) (.refl ..) ..) (by decide))
  · exact hbytes

theorem spillWords_counts (c ptr : Nat) (l : List Word) (s : State) : CountsOnly s (spillWords c ptr l s) := by
  induction l generalizing ptr s with
  | nil => exact .refl s
  | cons w r ih =>
    unfold spillWords
    exact (write_counts ..).trans (ih ..)

/-! ## The completion of a held instruction (R131, R270) -/

theorem updCtx_counts (t : Thread) (f : Ctx → Ctx) (s : State) : CountsOnly s (s.updCtx t f) := ⟨fun _ => rfl⟩

theorem popHeld_counts (t : Thread) (push : List Word) (s : State) : CountsOnly s (popHeld t push s) := by
  have hpush : ∀ pops u, CountsOnly u (pushOps t pops push u) := fun pops u => by
    unfold pushOps
    dsimp only
    split
    · exact updCtx_counts ..
    · exact (updCtx_counts ..).trans (spillWords_counts ..)
  have hstep : ∀ len u, CountsOnly u (advance t len u) := fun len u =>
    .of_within (F := [.cores, .free]) (advance_within (by decide) (.refl ..) ..) (by decide)
  exact (updCtx_counts t (fun x => { x with wait := .none, heldPops := 0, heldLen := 0 }) s).trans ((hpush ..).trans (hstep ..))

theorem stopCheck_counts (n : Nat) (t : Thread) (s : State) : CountsOnly s (stopCheck n t s) := by
  induction n generalizing t s with
  | zero => exact .refl s
  | succ n ih =>
    unfold stopCheck
    dsimp only
    split
    · refine .trans ?_ (.forAll (fun i u => ?_) _)
      · split <;> exact updCtx_counts ..
      · split
        · exact (popHeld_counts ..).trans (ih ..)
        · exact .refl u
    · exact .refl s

theorem completeHeld_counts (t : Thread) (push : List Word) (s : State) : CountsOnly s (completeHeld t push s) :=
  (popHeld_counts ..).trans (stopCheck_counts ..)

theorem traceSend_counts (t : Thread) (h st len seq : Nat) (s : State) : CountsOnly s (traceSend t h st len seq s) :=
  .of_records (trace_records ..)

/-! ## Channels, queues and what waits at a bench, after a change elsewhere -/

section Frames
variable (s : State) (b c i : Nat) {f : Bench → Bench}

theorem updBench_chanOf (hf : ∀ x, (f x).chans = x.chans) : (s.updBench b f).chanOf c i = s.chanOf c i :=
  updBench_field (fun x => x.chan (chanIx c i)) (fun x => congrArg (tblGet chanD · (chanIx c i)) (hf x)) s b (benchOf c)

theorem updBench_queueOf (hf : ∀ x, (f x).queues = x.queues) : (s.updBench b f).queueOf c i = s.queueOf c i :=
  updBench_field (fun x => x.queue (chanIx c i)) (fun x => congrArg (tblGet queueD · (chanIx c i)) (hf x)) s b (benchOf c)

theorem updChanOf_queueOf (d k : Nat) (g : Chan → Chan) : (s.updChanOf d k g).queueOf c i = s.queueOf c i :=
  updBench_queueOf s _ c i fun _ => rfl

theorem updQueueOf_chanOf (d k : Nat) (g : Queue → Queue) : (s.updQueueOf d k g).chanOf c i = s.chanOf c i :=
  updBench_chanOf s _ c i fun _ => rfl

theorem toSlice_chanOf (due prio : Nat) (op : TallyOp) : (toSlice b due prio op s).chanOf c i = s.chanOf c i :=
  updBench_chanOf s _ c i fun _ => rfl

theorem toSlice_queueOf (due prio : Nat) (op : TallyOp) : (toSlice b due prio op s).queueOf c i = s.queueOf c i :=
  updBench_queueOf s _ c i fun _ => rfl

end Frames

end Sys2Proof.ChannelProofs
end

section
/-! PROOFS. O31: a message is committed, written into its ring, and received. -/

namespace Sys2Proof.ChannelProofs
open Sys2Proof Sys2Proof.Machine Sys2Proof.Laws Sys2Proof.ModuleProofs Sys2Proof.CoreProofs Sys2Proof.TileProofs

theorem answers_chanOf {s u : State} (h : AnswersOnly s u) (c i : Nat) : u.chanOf c i = s.chanOf c i := by
  rw [State.chanOf, h.bench]
  rfl

theorem answers_queueOf {s u : State} (h : AnswersOnly s u) (c i : Nat) : u.queueOf c i = s.queueOf c i := by
  rw [State.queueOf, h.bench]
  rfl

/-! ## The open-class queue (R346, R348, R459) -/

theorem mem_insertItem (i j : OQItem) (l : List OQItem) : j ∈ insertItem i l ↔ j = i ∨ j ∈ l := by
  induction l with
  | nil => simp [insertItem]
  | cons k r ih =>
    unfold insertItem
    split
    · simp
    · rw [List.mem_cons, ih, List.mem_cons]
      exact or_left_comm

theorem insertItem_length (i : OQItem) (l : List OQItem) : (insertItem i l).length = l.length + 1 := by
  induction l with
  | nil => rfl
  | cons k r ih =>
    unfold insertItem
    split
    · rfl
    · rw [List.length_cons, ih, List.length_cons]

theorem oqPut_oq (b : Nat) (i : OQItem) (s : State) : ((oqPut b i s).bench b).oq = insertItem i (s.bench b).oq := by
  rw [oqPut, updBench_bench]

theorem oqPut_answers (b : Nat) (i : OQItem) (s : State) : AnswersOnly s (oqPut b i s) := .updBench _ _ _ fun _ => rfl

theorem forAll_oqPut_length {α : Type} (b : Nat) (g : α → State → OQItem) (l : List α) (s : State) :
    ((forAll l (fun a s => oqPut b (g a s) s) s).bench b).oq.length = (s.bench b).oq.length + l.length := by
  induction l generalizing s with
  | nil => rfl
  | cons a r ih =>
    have hstep : forAll (a :: r) (fun a s => oqPut b (g a s) s) s = forAll r (fun a s => oqPut b (g a s) s) (oqPut b (g a s) s) := rfl
    rw [hstep, ih, oqPut_oq, insertItem_length, List.length_cons]
    omega

/-- A credit waits in the queue with the HEAD it was last given. -/
theorem sendCredit_queued (b d c h rx : Nat) (head : Word) (s : State) :
    ∃ i, i ∈ ((sendCredit b d c h rx head s).bench b).oq ∧ i.msg = .credit c h rx head ∧ i.dead = false := by
  unfold sendCredit
  extract_lets same
  split
  next hany =>
    obtain ⟨i, hi, hsame⟩ := List.any_eq_true.mp hany
    refine ⟨{ i with msg := .credit c h rx head }, ?_, rfl, ?_⟩
    · rw [updBench_bench]
      exact List.mem_map.mpr ⟨i, hi, if_pos hsame⟩
    · dsimp only [same] at hsame
      split at hsame
      · simp only [Bool.and_eq_true, Bool.not_eq_true'] at hsame
        exact hsame.2
      · cases hsame
  next =>
    refine ⟨{ dst := d, conn := none, msg := .credit c h rx head, dead := false, due := s.now, holder := none }, ?_, rfl, rfl⟩
    rw [sendService, oqPut_oq, mem_insertItem]
    exact .inl rfl

/-! ## The commitment (R455) -/

section Commit
variable (t : Thread) (b : Word) (h : Nat) (s : State)

/-- TAIL has moved on by the message's space, and the staging buffer is empty. -/
def tailMoved : State :=
  let x := s.chanOf t.core h
  (s.updChanOf t.core h (fun x' =>
    { x' with tail := x'.tail + word (spaceOf x'.size x'.tail.toNat (stageOf (s.ctx t) b).length), sent := x'.sent + 1,
              left := if decide (benchOf x.dst = benchOf t.core) then x'.left + 1 else x'.left })).updCtx t (fun x => setStage x b [])

theorem commit_inside (hin : benchOf (s.chanOf t.core h).dst = benchOf t.core) : ∃ m seq, commit t b h s =
    traceSend t h 0 (stageOf (s.ctx t) b).length seq (toInbox (benchOf t.core) (coreNow s + 2) m (tailMoved t b h s)) :=
  ⟨_, _, by rw [commit]; simp only [hin, decide_true, if_true, tailMoved]; rfl⟩

theorem commit_outside (hout : benchOf (s.chanOf t.core h).dst ≠ benchOf t.core) : ∃ (item : Nat → State → OQItem) (seq : Nat),
    commit t b h s = traceSend t h 0 (stageOf (s.ctx t) b).length seq
      (forAll (List.range (flitsOf (stageOf (s.ctx t) b).length)) (fun i s => oqPut (benchOf t.core) (item i s) s) (tailMoved t b h s)) :=
  ⟨_, _, by rw [commit]; simp only [hout, decide_false, Bool.false_eq_true, if_false, tailMoved]; rfl⟩

/-- Beside the move of TAIL a commitment only sends and records. -/
theorem commit_sends : AnswersOnly (tailMoved t b h s) (commit t b h s) := by
  by_cases hin : benchOf (s.chanOf t.core h).dst = benchOf t.core
  · obtain ⟨m, seq, hc⟩ := commit_inside t b h s hin
    rw [hc]
    exact .trans (.updBench _ _ _ fun _ => rfl) (trace_records ..).answersOnly
  · obtain ⟨item, seq, hc⟩ := commit_outside t b h s hin
    rw [hc]
    exact .trans (.forAll (fun i u => oqPut_answers _ (item i u) u) _) (trace_records ..).answersOnly

theorem commit_ctx : (commit t b h s).ctx t = setStage (s.ctx t) b [] := by
  have hsent : Within [.benches, .trc] (tailMoved t b h s) (commit t b h s) := by
    by_cases hin : benchOf (s.chanOf t.core h).dst = benchOf t.core
    · obtain ⟨m, seq, hc⟩ := commit_inside t b h s hin
      rw [hc]
      exact traceSend_within (by decide) (toInbox_within (by decide) (.refl ..) ..) ..
    · obtain ⟨item, seq, hc⟩ := commit_outside t b h s hin
      rw [hc]
      exact traceSend_within (by decide) (forAll_within (.refl ..) fun i u hu => oqPut_within (by decide) hu _ (item i u)) ..
  rw [State.ctx, core_of_within hsent (by decide), ← State.ctx, tailMoved, updCtx_ctx]
  rfl

theorem commit_chanOf : (commit t b h s).chanOf t.core h =
    { s.chanOf t.core h with
      tail := (s.chanOf t.core h).tail + word (spaceOf (s.chanOf t.core h).size (s.chanOf t.core h).tail.toNat (stageOf (s.ctx t) b).length)
      sent := (s.chanOf t.core h).sent + 1
      left := if decide (benchOf (s.chanOf t.core h).dst = benchOf t.core) then (s.chanOf t.core h).left + 1 else (s.chanOf t.core h).left } :=
  (answers_chanOf (commit_sends t b h s) ..).trans (updChanOf_chanOf ..)

/-- What waits at the benches is as it was when TAIL has moved. -/
theorem tailMoved_waiting (d : Nat) :
    ((tailMoved t b h s).bench d).oq = (s.bench d).oq ∧ ((tailMoved t b h s).bench d).inbox = (s.bench d).inbox :=
  ⟨updChanOf_field Bench.oq (fun _ _ => rfl) .., updChanOf_field Bench.inbox (fun _ _ => rfl) ..⟩

theorem commit_oq (hout : benchOf (s.chanOf t.core h).dst ≠ benchOf t.core) : ((commit t b h s).bench (benchOf t.core)).oq.length =
    (s.bench (benchOf t.core)).oq.length + flitsOf (stageOf (s.ctx t) b).length := by
  obtain ⟨item, seq, hc⟩ := commit_outside t b h s hout
  rw [hc, (traceSend_counts ..).oq, forAll_oqPut_length, (tailMoved_waiting ..).1, List.length_range]

theorem commit_inbox (hin : benchOf (s.chanOf t.core h).dst = benchOf t.core) : ∃ m, ((commit t b h s).bench (benchOf t.core)).inbox =
    (s.bench (benchOf t.core)).inbox ++ [{ due := coreNow s + 2, msg := m }] := by
  obtain ⟨m, seq, hc⟩ := commit_inside t b h s hin
  refine ⟨m, ?_⟩
  rw [hc, (traceSend_counts ..).inbox, toInbox, updBench_bench, (tailMoved_waiting ..).2]

end Commit

theorem stageOf_setStage (x : Ctx) (b : Word) (l : List Byte) : stageOf (setStage x b l) b = l := by
  unfold stageOf setStage
  split <;> rfl

theorem committedMessages : Claims.CommittedMessages := by
  intro s t b h x msg room u
  have hchan : u.chanOf t.core h = _ := commit_chanOf t b h s
  refine ⟨?_, ?_, ?_, commit_oq t b h s, fun hin => ?_⟩
  · rw [hchan]
    rfl
  · rw [hchan]
  · exact (congrArg (stageOf · b) (commit_ctx t b h s)).trans (stageOf_setStage ..)
  · obtain ⟨m, hm⟩ := commit_inbox t b h s hin
    exact ⟨_, hm, rfl⟩

/-! ## A message is written into its ring (R444, R445, R458) -/

theorem ringHeader_eq (len kind seq : Nat) : ringHeader len kind seq = leBytes len 2 ++ [BitVec.ofNat 8 kind, 0] ++ leBytes seq 4 := by
  simp [ringHeader, leBytes]

theorem ringHeader_length (len kind seq : Nat) : (ringHeader len kind seq).length = 8 := by
  simp [ringHeader, leBytes_length]

/-- The bytes of a message `l` stand in the ring of queue `q` at `ring`: at TAIL, or behind a skip header at its start. -/
def messageStored (q : Queue) (ring : Nat) (l : List Byte) (s : State) : State :=
  if 8 + l.length ≤ ringBytes q.size - q.tail.toNat % ringBytes q.size then
    write (ring + q.tail.toNat % ringBytes q.size) (ringHeader l.length 1 q.seq ++ l) s
  else write ring (ringHeader l.length 1 q.seq ++ l) (write (ring + q.tail.toNat % ringBytes q.size) (ringHeader 0 2 q.seq) s)

section Stored
variable (q : Queue) (ring : Nat) (l : List Byte) (s : State)

theorem messageStored_counts : CountsOnly s (messageStored q ring l s) := by
  unfold messageStored
  split
  · exact write_counts ..
  · exact (write_counts ..).trans (write_counts ..)

variable {q ring l s} (hbad : s.bad = [])
include hbad

theorem messageStored_fits (hfit : 8 + l.length ≤ ringBytes q.size - q.tail.toNat % ringBytes q.size) :
    memBytes (messageStored q ring l s).mem (ring + q.tail.toNat % ringBytes q.size) (8 + l.length) = ringHeader l.length 1 q.seq ++ l := by
  have hlen : (ringHeader l.length 1 q.seq ++ l).length = 8 + l.length := by rw [List.length_append, ringHeader_length]
  rw [messageStored, if_pos hfit, (write_clean hbad ..).1, ← hlen, memBytes_memPut_same]

/-- A message that goes to the ring's start does not reach up to the skip header, as it takes at most a quarter of the ring. -/
theorem messageStored_skips (hl : l.length ≤ 256) (hskip : ringBytes q.size - q.tail.toNat % ringBytes q.size < 8 + l.length) :
    memBytes (messageStored q ring l s).mem ring (8 + l.length) = ringHeader l.length 1 q.seq ++ l ∧
      memBytes (messageStored q ring l s).mem (ring + q.tail.toNat % ringBytes q.size) 8 = ringHeader 0 2 q.seq := by
  have hlen : (ringHeader l.length 1 q.seq ++ l).length = 8 + l.length := by rw [List.length_append, ringHeader_length]
  have hskipLen := ringHeader_length 0 2 q.seq
  have hring : 1024 ≤ ringBytes q.size := Nat.pow_le_pow_right (n := 2) (by decide) (Nat.le_add_left 10 q.size)
  obtain ⟨hmem, hclean⟩ := write_clean hbad (ring + q.tail.toNat % ringBytes q.size) (ringHeader 0 2 q.seq)
  rw [messageStored, if_neg (Nat.not_le.mpr hskip), (write_clean hclean ..).1, hmem]
  refine ⟨?_, ?_⟩
  · rw [← hlen, memBytes_memPut_same]
  · rw [memBytes_memPut_apart _ _ _ _ _ (.inr (by omega))]
    exact hskipLen ▸ memBytes_memPut_same ..

end Stored

section Place
variable {s : State} {p : ChanPart} {l : List Byte}

/-- The sender sees the message placed. -/
def seenPlaced (p : ChanPart) (s : State) : State := s.updChanOf p.core p.h (fun x => { x with placed := x.placed + 1 })

/-- The sender sees the message placed and written. -/
def seenWritten (p : ChanPart) (s : State) : State := (seenPlaced p s).updChanOf p.core p.h (fun x => { x with written := x.written + 1 })

/-- TAIL has passed the message, which BENCH_CNT_CHMSG counts. -/
def tailPassed (p : ChanPart) (n : Nat) (s : State) : State :=
  count (benchOf p.dst) 0x7538 1 (s.updQueueOf p.dst p.dq (fun q =>
    { q with tail := q.tail + word (spaceOf q.size q.tail.toNat n), seq := (q.seq + 1) % 2 ^ 32, part := [] }))

theorem placeMsg_unattached (h : takes (s.queueOf p.dst p.dq) p = false) : placeMsg p l s = seenPlaced p s := if_pos h

/-- A message of the attached channel is stored, and TAIL passes it; the queue's tally may be added to. -/
theorem placeMsg_writes (h : takes (s.queueOf p.dst p.dq) p = true) :
    let q := s.queueOf p.dst p.dq
    let u := tailPassed p l.length (messageStored q (localBase p.dst + q.base) l (seenWritten p s))
    placeMsg p l s = u ∨ ∃ due prio op, placeMsg p l s = toSlice (benchOf p.dst) due prio op u := by
  have hnot : ¬ takes (s.queueOf p.dst p.dq) p = false := by rw [h]; decide
  cases hten : (s.queueOf p.dst p.dq).ten
  · left
    simp only [placeMsg, if_neg hnot, hten, Bool.false_eq_true, if_false]
    rfl
  · right
    refine ⟨coreNow s + 2, 0, engineAdd (benchOf p.dst * 512 + (s.queueOf p.dst p.dq).tidx) 1 p.dst 4 2 2, ?_⟩
    simp only [placeMsg, if_neg hnot, hten, if_true]
    rfl

section Written
variable (h : takes (s.queueOf p.dst p.dq) p = true)
include h

theorem placeMsg_mem : (placeMsg p l s).mem =
    (messageStored (s.queueOf p.dst p.dq) (localBase p.dst + (s.queueOf p.dst p.dq).base) l (seenWritten p s)).mem := by
  obtain hu | ⟨due, prio, op, hu⟩ := placeMsg_writes (l := l) h <;> rw [hu] <;> rfl

theorem placeMsg_queueOf : (placeMsg p l s).queueOf p.dst p.dq =
    let q := s.queueOf p.dst p.dq
    { q with tail := q.tail + word (spaceOf q.size q.tail.toNat l.length), seq := (q.seq + 1) % 2 ^ 32, part := [] } := by
  have hcount : ∀ v, (tailPassed p l.length v).queueOf p.dst p.dq = (v.updQueueOf p.dst p.dq _).queueOf p.dst p.dq :=
    fun v => updBench_queueOf _ _ _ _ fun _ => rfl
  have hseen : (seenWritten p s).queueOf p.dst p.dq = s.queueOf p.dst p.dq :=
    (updChanOf_queueOf ..).trans (updChanOf_queueOf ..)
  obtain hu | ⟨due, prio, op, hu⟩ := placeMsg_writes (l := l) h <;> rw [hu]
  · rw [hcount, updQueueOf_queueOf, (messageStored_counts ..).queueOf, hseen]
  · rw [toSlice_queueOf, hcount, updQueueOf_queueOf, (messageStored_counts ..).queueOf, hseen]

theorem placeMsg_chanOf : (placeMsg p l s).chanOf p.core p.h =
    { s.chanOf p.core p.h with placed := (s.chanOf p.core p.h).placed + 1, written := (s.chanOf p.core p.h).written + 1 } := by
  have hpassed : ∀ v, (tailPassed p l.length v).chanOf p.core p.h = v.chanOf p.core p.h :=
    fun v => (updBench_chanOf _ _ _ _ fun _ => by rfl).trans (updQueueOf_chanOf ..)
  have hseen : (seenWritten p s).chanOf p.core p.h =
      { s.chanOf p.core p.h with placed := (s.chanOf p.core p.h).placed + 1, written := (s.chanOf p.core p.h).written + 1 } := by
    rw [seenWritten, updChanOf_chanOf, seenPlaced, updChanOf_chanOf]
  obtain hu | ⟨due, prio, op, hu⟩ := placeMsg_writes (l := l) h <;> rw [hu]
  · rw [hpassed, (messageStored_counts ..).chanOf, hseen]
  · rw [toSlice_chanOf, hpassed, (messageStored_counts ..).chanOf, hseen]

end Written
end Place

theorem messagePlacement : Claims.MessagePlacement := by
  intro s p l hbad hl q size at0 ring n u head
  have hhead : ∀ len kind, head len kind = ringHeader len kind q.seq := fun len kind => (ringHeader_eq len kind q.seq).symm
  have hclean : (seenWritten p s).bad = [] := hbad
  refine ⟨fun h => ⟨fun hfit => ⟨?_, ?_⟩, fun hskip => ⟨?_, ?_, ?_⟩, ?_, ?_⟩, fun h => ?_, ?_⟩
  · rw [hhead, placeMsg_mem h]
    exact messageStored_fits hclean hfit
  · rw [placeMsg_queueOf h]
    exact congrArg (q.tail + word ·) (if_pos hfit)
  · rw [hhead, placeMsg_mem h]
    exact (messageStored_skips hclean hl hskip).1
  · rw [hhead, placeMsg_mem h]
    exact (messageStored_skips hclean hl hskip).2
  · rw [placeMsg_queueOf h]
    exact congrArg (q.tail + word ·) (if_neg (Nat.not_le.mpr hskip))
  · rw [placeMsg_queueOf h]
  · rw [placeMsg_chanOf h]
  · dsimp only [u]
    rw [placeMsg_unattached h]
    exact ⟨rfl, updChanOf_queueOf ..⟩
  · cases h : takes q p
    · dsimp only [u]
      rw [placeMsg_unattached h, seenPlaced, updChanOf_chanOf]
    · rw [placeMsg_chanOf h]

/-! ## CRECV (R443, R459, R461) -/

theorem nameUnit_static {t : Thread} {res k : Nat} {s : State} (dest : Bool) (hd : dynamic s t.core = false)
    (hm : bit (maskOf s t.core (classOf s t) res) k = true) : nameUnit t res k dest s = some s := by
  rw [nameUnit, if_pos (.inl hd)]
  exact if_pos hm

theorem nameUnit_held {t : Thread} {k : Nat} {s : State} (dest : Bool) (hd : dynamic s t.core = true)
    (ho : ownerOf (s.core t.core) 2 k = t.ctx + 1) : nameUnit t 2 k dest s = some s := by
  simp [nameUnit, hd, ho]

theorem updQueueOf_mem (c k : Nat) (f : Queue → Queue) (s : State) : (s.updQueueOf c k f).mem = s.mem := rfl

/-- HEAD of queue `k` of core `c`, past the skip header when it stands at one. -/
def oldestHead (s : State) (c k : Nat) : Word :=
  let x := s.queueOf c k
  let at0 := x.head.toNat % ringBytes x.size
  if decide (memNat s.mem (localBase c + x.base + at0 + 2) 1 = 2) then x.head + word (ringBytes x.size - at0) else x.head

/-- The address of the oldest message's header, and the length it holds. -/
def oldestAt (s : State) (c k : Nat) : Nat :=
  localBase c + (s.queueOf c k).base + (oldestHead s c k).toNat % ringBytes (s.queueOf c k).size
def oldestLen (s : State) (c k : Nat) : Nat := memNat s.mem (oldestAt s c k) 2

/-- HEAD behind the oldest message. -/
def headPast (s : State) (c k : Nat) : Word := oldestHead s c k + word (8 + oldestLen s c k)

/-- The payload of the oldest message stands at `d` of the core's local memory. -/
def payloadCopied (c k d : Nat) (s : State) : State :=
  write (localBase c + d) (memBytes s.mem (oldestAt s c k + 8) (oldestLen s c k)) (noteRead (oldestAt s c k) (8 + oldestLen s c k) s)

/-- The oldest message has left queue `k`. -/
def messageTaken (c k d : Nat) (s : State) : State :=
  (payloadCopied c k d s).updQueueOf c k (fun x =>
    { x with head := headPast s c k, state := if headPast s c k = x.tail ∧ x.final = 4 then 4 else x.state,
             final := if headPast s c k = x.tail then 0 else x.final })

/-- The credit for queue `k` is on its way to the sender in core `score`, inside the bench until core cycle `due`. -/
def credited (due c k score shand : Nat) (head : Word) (s : State) : State :=
  if benchOf score = benchOf c then toInbox (benchOf c) due (.credit score shand (c * 16 + k) head) s
  else sendCredit (benchOf c) (benchOf score) score shand (c * 16 + k) head s

section Receive
variable {s : State} {t : Thread} {k d : Nat}

theorem receive_unattached (h : (s.queueOf t.core k).state = 0 ∨ (s.queueOf t.core k).state = 5 ∨ (s.queueOf t.core k).armed = false) :
    receive t k d s = pushes s [5, 0] := if_pos h

section Attached
variable (h0 : (s.queueOf t.core k).state ≠ 0) (h5 : (s.queueOf t.core k).state ≠ 5) (ha : (s.queueOf t.core k).armed = true)
include h0 h5 ha

theorem attached_not : ¬ ((s.queueOf t.core k).state = 0 ∨ (s.queueOf t.core k).state = 5 ∨ (s.queueOf t.core k).armed = false) := by
  simp [h0, h5, ha]

theorem receive_empty (he : (s.queueOf t.core k).head = (s.queueOf t.core k).tail) : receive t k d s =
    if (s.queueOf t.core k).state = 1 then
      if (s.queueOf t.core k).final = 4 then pushes (s.updQueueOf t.core k (fun x => { x with state := 0 })) [word 4, 0]
      else pushes s [1, 0]
    else pushes (s.updQueueOf t.core k (fun x => { x with state := 0 })) [word (s.queueOf t.core k).state, 0] := by
  rw [receive, if_neg (attached_not h0 h5 ha)]
  exact if_pos (decide_eq_true he)

theorem receive_takes (hne : (s.queueOf t.core k).head ≠ (s.queueOf t.core k).tail) (hbad : s.bad = [])
    (hp : permitted (s.ctx t) 1 d (oldestLen s t.core k) = true) (hd : d + oldestLen s t.core k ≤ 0x100000) :
    receive t k d s = pushes (credited (coreNow s + 2) t.core k (s.queueOf t.core k).score (s.queueOf t.core k).shand (headPast s t.core k)
      (messageTaken t.core k d s)) [0, word (oldestLen s t.core k)] := by
  have hmem : ¬ (0x100000 < d + oldestLen s t.core k ∨ permitted (s.ctx t) 1 d (oldestLen s t.core k) = false) := by
    rintro (hlong | hdenied)
    · omega
    · exact absurd (hdenied.symm.trans hp) (by decide)
  have hfull : ¬ emptyQueue (s.queueOf t.core k) = true := by simpa [emptyQueue] using hne
  rw [receive, if_neg (attached_not h0 h5 ha), if_neg hfull]
  extract_lets at0
  rw [uncorrectable_clean hbad]
  refine (if_neg hmem).trans ?_
  rw [uncorrectable_clean hbad]
  rfl

end Attached

theorem payloadCopied_counts : CountsOnly s (payloadCopied t.core k d s) := by
  unfold payloadCopied
  exact (noteRead_counts ..).trans (write_counts ..)

theorem payloadCopied_mem (hbad : s.bad = []) : (payloadCopied t.core k d s).mem =
    memPut s.mem (localBase t.core + d) (memBytes s.mem (oldestAt s t.core k + 8) (oldestLen s t.core k)) := by
  rw [payloadCopied, noteRead_clean hbad, (write_clean ((actLines_bad ..).trans hbad) ..).1, actLines_mem]

theorem messageTaken_mem : (messageTaken t.core k d s).mem = (payloadCopied t.core k d s).mem := by
  unfold messageTaken
  exact updQueueOf_mem ..

theorem messageTaken_inbox (b : Nat) : ((messageTaken t.core k d s).bench b).inbox = (s.bench b).inbox := by
  rw [messageTaken, updQueueOf_field Bench.inbox (fun _ _ => rfl), payloadCopied_counts.inbox]

theorem credited_answers (due score shand : Nat) (head : Word) : AnswersOnly s (credited due t.core k score shand head s) := by
  unfold credited
  split
  · exact .updBench _ _ _ fun _ => rfl
  · unfold sendCredit
    dsimp only
    split
    · exact .updBench _ _ _ fun _ => rfl
    · exact oqPut_answers ..

theorem credited_mem (due score shand : Nat) (head : Word) : (credited due t.core k score shand head s).mem = s.mem := by
  unfold credited sendCredit
  split
  · rfl
  · dsimp only
    split <;> rfl

variable (s t k d) in
/-- The oldest message has left queue `k`, and its credit is on its way. -/
def received : State :=
  credited (coreNow s + 2) t.core k (s.queueOf t.core k).score (s.queueOf t.core k).shand (headPast s t.core k) (messageTaken t.core k d s)

theorem received_mem (hbad : s.bad = []) : memBytes (received s t k d).mem (localBase t.core + d) (oldestLen s t.core k) =
    memBytes s.mem (oldestAt s t.core k + 8) (oldestLen s t.core k) := by
  have hlen := memBytes_length s.mem (oldestAt s t.core k + 8) (oldestLen s t.core k)
  have hcopy := memBytes_memPut_same s.mem (localBase t.core + d) (memBytes s.mem (oldestAt s t.core k + 8) (oldestLen s t.core k))
  rw [hlen] at hcopy
  rw [received, credited_mem, messageTaken_mem, payloadCopied_mem hbad, hcopy]

theorem received_ends : ((received s t k d).queueOf t.core k).head = headPast s t.core k ∧
    ((received s t k d).queueOf t.core k).tail = (s.queueOf t.core k).tail := by
  rw [received, answers_queueOf (credited_answers ..), messageTaken, updQueueOf_queueOf, payloadCopied_counts.queueOf]
  exact ⟨rfl, rfl⟩

theorem received_credit_inside (hin : benchOf (s.queueOf t.core k).score = benchOf t.core) :
    ((received s t k d).bench (benchOf t.core)).inbox = (s.bench (benchOf t.core)).inbox ++
      [⟨coreNow s + 2, .credit (s.queueOf t.core k).score (s.queueOf t.core k).shand (t.core * 16 + k) (headPast s t.core k)⟩] := by
  rw [received, credited, if_pos hin, toInbox, updBench_bench, messageTaken_inbox]

theorem received_credit_outside (hout : benchOf (s.queueOf t.core k).score ≠ benchOf t.core) :
    ∃ i, i ∈ ((received s t k d).bench (benchOf t.core)).oq ∧
      i.msg = .credit (s.queueOf t.core k).score (s.queueOf t.core k).shand (t.core * 16 + k) (headPast s t.core k) ∧ i.dead = false := by
  rw [received, credited, if_neg hout]
  exact sendCredit_queued ..

end Receive

section Crecv
variable {s s2 : State} {t : Thread} {dst q : Word} (hr : Runs t 2 ⟨2, 2, 0, 0⟩ s) (hl : operands (firstIssue t s) t 2 = [q, dst])
include hr hl

theorem exec_crecv_shareFault (hn : nameUnit t 2 (q.toNat % 16) true (firstIssue t s) = none) :
    exec (.crecv t) s = .next (fault t 0x0B (shareInfo 2 (q.toNat % 16)) (s.ctx t).pc false (firstIssue t s)) := by
  refine congrArg Host.Outcome.next (issue_faults hr rfl ?_)
  rw [hl]
  simp only [arg, List.getD_cons_zero, hn]

theorem exec_crecv_pushes (hn : nameUnit t 2 (q.toNat % 16) true (firstIssue t s) = some s2) {u : State} {l : List Word}
    (hb : receive t (q.toNat % 16) (dst.toNat / 8 * 8) s2 = pushes u l) :
    exec (.crecv t) s = .next (complete t 2 2 l 0 [] none u) := by
  refine congrArg Host.Outcome.next (issue_pushes hr rfl hl ?_)
  simp only [arg, List.getD_cons_zero, List.getD_cons_succ, hn]
  exact hb

end Crecv

theorem channelReceiving : Claims.ChannelReceiving := by
  intro s s2 t dst q hr hl s1 k b
  refine ⟨nameUnit_static true, nameUnit_held true, exec_crecv_shareFault hr hl, ?_⟩
  intro hn x d size ring at0 skip head a len new
  have hpush {u : State} {l : List Word} := exec_crecv_pushes hr hl hn (u := u) (l := l)
  have hcores : Within [.cores] s s2 := nameUnit_within (by decide) (firstIssue_within_cores t s) _ _ _ _ s2 hn
  refine ⟨fun h => hpush (receive_unattached h), fun ha he => ⟨fun h1 h4 => ?_, fun h1 h4 => ?_, fun hst => ?_⟩,
    fun h0 h5 ha hne hbad hp hd => ?_⟩
  · refine hpush ((receive_empty (h1.trans_ne (by decide)) (h1.trans_ne (by decide)) ha he).trans ?_)
    rw [if_pos h1, if_neg h4]
  · refine hpush ((receive_empty (h1.trans_ne (by decide)) (h1.trans_ne (by decide)) ha he).trans ?_)
    rw [if_pos h1, if_pos h4]
    rfl
  · have hstate : ∀ n, n < 2 ∨ n = 5 → x.state ≠ n := by omega
    refine hpush ((receive_empty (hstate 0 (by decide)) (hstate 5 (by decide)) ha he).trans ?_)
    rw [if_neg (hstate 1 (by decide))]
    rfl
  · have hclean : s2.bad = [] := (hcores.out .bad (by decide)).trans hbad
    refine ⟨received s2 t k d, hpush (receive_takes h0 h5 ha hne hclean hp hd), received_mem hclean, received_ends.1,
      received_ends.2, fun hin => ?_, received_credit_outside⟩
    rw [received_credit_inside hin, bench_of_within hcores (by decide), coreNow, show s2.now = s.now from hcores.out .now (by decide)]
    rfl

/-- Settles O31: a commitment is the move of TAIL and what it sends (`commit_sends`), a message at its ring is stored (`messageStored_fits`,
`messageStored_skips`) and passed by TAIL, and CRECV's outcomes are those of `receive`. -/
theorem messagesPassThroughChannels : Obligations.MessagesPassThroughChannels := ⟨committedMessages, messagePlacement, channelReceiving⟩

end Sys2Proof.ChannelProofs
end

section
/-! PROOFS. O30: channels open and send. -/

namespace Sys2Proof.ChannelProofs
open Sys2Proof Sys2Proof.Machine Sys2Proof.Laws Sys2Proof.ModuleProofs Sys2Proof.CoreProofs Sys2Proof.TileProofs Sys2Proof.PorterProofs

/-! ## COPEN (R448, R449, R451) -/

theorem findBelow_none {n : Nat} {p : Nat → Bool} (h : ∀ k, k < n → p k = false) : findBelow n p = none :=
  List.find?_eq_none.mpr fun k hk => by rw [h k (List.mem_range.mp hk)]; decide

theorem findBelow_first {n k : Nat} {p : Nat → Bool} (hk : k < n) (hp : p k = true) (hbelow : ∀ j, j < k → p j = false) :
    findBelow n p = some k :=
  List.find?_range_eq_some.mpr ⟨hp, List.mem_range.mpr hk, fun j hj => by rw [hbelow j hj]; rfl⟩

/-- A queue that is not armed refuses the channel. -/
theorem openInside_disarmed {c h : Nat} {s : State} (hq : (s.queueOf (s.chanOf c h).dst (s.chanOf c h).dq).armed = false) :
    openInside c h s = answerOpen (rowStop (benchOf c)) c h 7 s := by
  have hcheck : ∀ m, checkQueue (s.queueOf (s.chanOf c h).dst (s.chanOf c h).dq) m = 7 := fun m => if_pos hq
  simp [openInside, hcheck]

theorem setConn_chanOf (b n w c h : Nat) (s : State) : (setConn b n w s).chanOf c h = s.chanOf c h := by
  unfold setConn
  exact updBench_chanOf _ _ _ _ fun _ => rfl

theorem openChan_nslot (c h n : Nat) (s : State) : ((openChan c h n s).chanOf c h).nslot = (s.chanOf c h).nslot := by
  rw [openChan, updChanOf_chanOf]

/-- An open inside the bench keeps what its channel asks for. -/
theorem openInside_nslot (c h : Nat) (s : State) : ((openInside c h s).chanOf c h).nslot = (s.chanOf c h).nslot := by
  unfold openInside
  extract_lets b x st
  split
  · rfl
  · split
    · rfl
    · refine (openChan_nslot ..).trans (congrArg Chan.nslot ?_)
      rw [setConn_chanOf, attach, updQueueOf_chanOf]

/-- The channel that a COPEN of thread `t` asks for. -/
def askedChan (t : Thread) (dst q nslot maxlen e : Word) : Chan :=
  { Chan.reset with
    state := 1, ctx := t.ctx, dst := dst.toNat % 512, dq := q.toNat % 16,
    nslot := if benchOf (dst.toNat % 512) = benchOf t.core then 0 else nslot.toNat, maxu := maxlen.toNat / 8, toexp := timeoutExp e }

/-- Handle `h` holds what its COPEN asks for. -/
def asked (t : Thread) (h : Nat) (dst q nslot maxlen e : Word) (s : State) : State :=
  s.updChanOf t.core h (fun _ => askedChan t dst q nslot maxlen e)

/-- What is asked is on its way: to the queue of the bench, or to the destination's controller. -/
def request (t : Thread) (h : Nat) (dst q nslot maxlen e : Word) (s : State) : State :=
  if benchOf (dst.toNat % 512) = benchOf t.core then openInside t.core h (asked t h dst q nslot maxlen e s)
  else ringPut (rowStop (benchOf t.core)) (rowStop (benchOf (dst.toNat % 512))) (.check t.core h) (asked t h dst q nslot maxlen e s)

section Copen
variable {s : State} {t : Thread} {e maxlen nslot q dst : Word} (hr : Runs t 2 ⟨5, 2, 0, 0⟩ s)
  (hl : operands (firstIssue t s) t 5 = [dst, q, nslot, maxlen, e])
include hr hl

theorem exec_copen_full (hfind : findBelow 16 (fun h => decide (((firstIssue t s).chanOf t.core h).state = 0)) = none) :
    exec (.copen t) s = .next (complete t 2 5 [6, 0xFFFFFFFF] 0 [] none (firstIssue t s)) := by
  refine congrArg Host.Outcome.next (issue_pushes hr rfl hl ?_)
  simp only [hfind]
  rfl

variable {h : Nat} (hfind : findBelow 16 (fun h => decide (((firstIssue t s).chanOf t.core h).state = 0)) = some h)
include hfind

theorem exec_copen_length (hm : maxlen.toNat = 0 ∨ maxlen.toNat % 8 ≠ 0 ∨ 256 < maxlen.toNat) :
    exec (.copen t) s = .next (complete t 2 5 [9, 0xFFFFFFFF] 0 [] none (firstIssue t s)) := by
  refine congrArg Host.Outcome.next (issue_pushes hr rfl hl ?_)
  simp only [hfind]
  exact if_pos hm

variable (hm : ¬ (maxlen.toNat = 0 ∨ maxlen.toNat % 8 ≠ 0 ∨ 256 < maxlen.toNat))
include hm

theorem exec_copen_slots (hn : nslot.toNat = 0 ∨ 64 < nslot.toNat) :
    exec (.copen t) s = .next (complete t 2 5 [5, 0xFFFFFFFF] 0 [] none (firstIssue t s)) := by
  refine congrArg Host.Outcome.next (issue_pushes hr rfl hl ?_)
  simp only [hfind]
  exact (if_neg hm).trans (if_pos hn)

variable (hn : ¬ (nslot.toNat = 0 ∨ 64 < nslot.toNat))
include hn

theorem exec_copen_apart (hp : samePart (firstIssue t s) (benchOf t.core) (benchOf (dst.toNat % 512)) = false) :
    exec (.copen t) s = .next (complete t 2 5 [3, 0xFFFFFFFF] 0 [] none (firstIssue t s)) := by
  refine congrArg Host.Outcome.next (issue_pushes hr rfl hl ?_)
  simp only [hfind]
  exact (if_neg hm).trans ((if_neg hn).trans (if_pos hp))

/-- A sound request waits for its answer. -/
theorem exec_copen_asks (hp : samePart (firstIssue t s) (benchOf t.core) (benchOf (dst.toNat % 512)) = true) :
    exec (.copen t) s = .next ((request t h dst q nslot maxlen e (firstIssue t s)).updCtx t
      (fun x => { x with wait := .copen h, heldPops := 5, heldLen := 2 })) := by
  have hpart : ¬ samePart (firstIssue t s) (benchOf t.core) (benchOf (dst.toNat % 512)) = false := by rw [hp]; decide
  refine congrArg Host.Outcome.next (issue_waits hr rfl hl ?_)
  simp only [hfind]
  exact (if_neg hm).trans ((if_neg hn).trans (if_neg hpart))

end Copen

section Request
variable (t : Thread) (h : Nat) (dst q nslot maxlen e : Word) (s : State)

theorem asked_chanOf : (asked t h dst q nslot maxlen e s).chanOf t.core h = askedChan t dst q nslot maxlen e := updChanOf_chanOf ..

theorem request_inside_nslot (hin : benchOf (dst.toNat % 512) = benchOf t.core) :
    ((request t h dst q nslot maxlen e s).chanOf t.core h).nslot = 0 := by
  rw [request, if_pos hin, openInside_nslot, asked_chanOf]
  exact if_pos hin

theorem request_inside_disarmed (hin : benchOf (dst.toNat % 512) = benchOf t.core)
    (hq : (s.queueOf (dst.toNat % 512) (q.toNat % 16)).armed = false) :
    request t h dst q nslot maxlen e s = answerOpen (rowStop (benchOf t.core)) t.core h 7 (asked t h dst q nslot maxlen e s) := by
  rw [request, if_pos hin, openInside_disarmed]
  rw [asked_chanOf]
  exact (congrArg Queue.armed (updChanOf_queueOf ..)).trans hq

theorem request_outside (hout : benchOf (dst.toNat % 512) ≠ benchOf t.core) : request t h dst q nslot maxlen e s =
    ringPut (rowStop (benchOf t.core)) (rowStop (benchOf (dst.toNat % 512))) (.check t.core h) (asked t h dst q nslot maxlen e s) :=
  if_neg hout

end Request

/-- A packet at its stop that alone is asked for is the one that is taken. -/
theorem ringTake_only {s : State} {p : RingPkt} {sel : RingPkt → Bool} (hmem : p ∈ s.ring) (hpos : p.pos = p.dst) (hsel : sel p = true)
    (honly : ∀ r, r ∈ s.ring → sel r = true → r = p) : ringTake sel s = some (p, { s with ring := s.ring.erase p }) := by
  have hfind : s.ring.find? (fun r => decide (r.pos = r.dst) && sel r) = some p := by
    cases hf : s.ring.find? (fun r => decide (r.pos = r.dst) && sel r) with
    | none => simpa [hpos, hsel] using List.find?_eq_none.mp hf p hmem
    | some r =>
      have hr := List.find?_some hf
      rw [Bool.and_eq_true] at hr
      rw [honly r (List.mem_of_find?_eq_some hf) hr.2]
  rw [ringTake, hfind]

section Answer
variable {s : State} {t : Thread} {h st : Nat} {p : RingPkt} (hw : (s.ctx t).wait = .copen h) (hmem : p ∈ s.ring) (hpos : p.pos = p.dst)
  (hmsg : p.msg = .answer t.core h st) (honly : ∀ r, r ∈ s.ring → (∃ k, r.msg = .answer t.core h k) → r = p)
include hw hmem hpos hmsg honly

theorem exec_copenAnswer : exec (.copenAnswer t) s = .next
    (if st = 0 then completeHeld t [0, word h] { s with ring := s.ring.erase p }
     else completeHeld t [word st, 0xFFFFFFFF#32] ({ s with ring := s.ring.erase p }.updChanOf t.core h (fun _ => Chan.reset))) := by
  refine congrArg Host.Outcome.next ?_
  rw [copenAnswer, hw]
  dsimp only
  rw [ringTake_only hmem hpos]
  · dsimp only
    rw [hmsg]
  · simp [hmsg]
  · intro r hr hsel
    refine honly r hr ?_
    split at hsel
    next c g k hk =>
      rw [Bool.and_eq_true, decide_eq_true_eq, decide_eq_true_eq] at hsel
      exact ⟨k, by rw [hk, hsel.1, hsel.2]⟩
    · cases hsel

end Answer

theorem channelOpening : Claims.ChannelOpening := by
  intro s t e maxlen nslot q dst h st p s1 b
  refine ⟨fun hr hl => ⟨fun hbusy => exec_copen_full hr hl (findBelow_none fun k hk => decide_eq_false (hbusy k hk)),
      fun hh hfree hbelow => ?_⟩, fun hw hmem hpos hmsg honly => ?_⟩
  · have hfind : findBelow 16 (fun h => decide ((s1.chanOf t.core h).state = 0)) = some h :=
      findBelow_first hh (decide_eq_true hfree) fun k hk => decide_eq_false (hbelow k hk)
    refine ⟨exec_copen_length hr hl hfind, fun hm0 hm8 hm => ?_⟩
    have hlen : ¬ (maxlen.toNat = 0 ∨ maxlen.toNat % 8 ≠ 0 ∨ 256 < maxlen.toNat) := by omega
    refine ⟨exec_copen_slots hr hl hfind hlen, fun hn0 hn => ?_⟩
    have hslots : ¬ (nslot.toNat = 0 ∨ 64 < nslot.toNat) := by omega
    refine ⟨exec_copen_apart hr hl hfind hlen hslots, fun hp hin => ⟨_, exec_copen_asks hr hl hfind hlen hslots hp, ?_, ?_, fun hq => ?_⟩,
      fun hp hout => ⟨_, exec_copen_asks hr hl hfind hlen hslots hp, ?_⟩⟩
    · rw [updCtx_ctx]
    · exact request_inside_nslot t h dst q nslot maxlen e s1 hin
    · rw [request_inside_disarmed t h dst q nslot maxlen e s1 hin]
      · exact ringPut_sentPacket ..
      · exact (congrArg Queue.armed (congrArg (tblGet queueD · _) (congrArg Bench.queues (firstIssue_bench t s _)))).trans hq
    · rw [request_outside t h dst q nslot maxlen e s1 hout]
      have hchan := asked_chanOf t h dst q nslot maxlen e s1
      refine ⟨?_, congrArg Chan.state hchan, congrArg Chan.ctx hchan, congrArg Chan.dst hchan, congrArg Chan.dq hchan, congrArg Chan.maxu hchan,
        congrArg Chan.toexp hchan, ringPut_sentPacket ..⟩
      rw [updCtx_ctx]
  · have hexec := exec_copenAnswer hw hmem hpos hmsg honly
    exact ⟨fun h0 => hexec.trans (congrArg Host.Outcome.next (if_pos h0)), fun h0 => hexec.trans (congrArg Host.Outcome.next (if_neg h0))⟩

/-! ## CPUT (R453) -/

section Cput
variable {s : State} {t : Thread} {b len addr : Word} (hr : Runs t 2 ⟨3, 1, 0, 0⟩ s) (hl : operands (firstIssue t s) t 3 = [b, len, addr])
include hr hl

theorem exec_cput_clears (h0 : len.toNat = 0) : exec (.cput t) s = .next (complete t 2 3 [0] 0 [] none
    ((firstIssue t s).updCtx t (fun x => setStage x b []))) :=
  congrArg Host.Outcome.next (issue_pushes hr rfl hl (if_pos h0))

variable (h0 : len.toNat ≠ 0)
include h0

theorem exec_cput_ragged (h8 : len.toNat % 8 ≠ 0) : exec (.cput t) s = .next (complete t 2 3 [2] 0 [] none (firstIssue t s)) :=
  congrArg Host.Outcome.next (issue_pushes hr rfl hl ((if_neg h0).trans (if_pos h8)))

variable (h8 : len.toNat % 8 = 0)
include h8

theorem exec_cput_long (hlong : 256 < (stageOf ((firstIssue t s).ctx t) b).length + len.toNat) :
    exec (.cput t) s = .next (complete t 2 3 [1] 0 [] none (firstIssue t s)) :=
  congrArg Host.Outcome.next (issue_pushes hr rfl hl ((if_neg h0).trans ((if_neg (not_not.mpr h8)).trans (if_pos hlong))))

theorem exec_cput_appends (hfit : ¬ 256 < (stageOf ((firstIssue t s).ctx t) b).length + len.toNat)
    (hmem : ¬ (0x100000 < addr.toNat / 8 * 8 + len.toNat ∨ permitted ((firstIssue t s).ctx t) 0 (addr.toNat / 8 * 8) len.toNat = false))
    (hu : uncorrectable (firstIssue t s) (localBase t.core + addr.toNat / 8 * 8) len.toNat = none) :
    exec (.cput t) s = .next (complete t 2 3 [0] 0 [] none
      ((noteRead (localBase t.core + addr.toNat / 8 * 8) len.toNat (firstIssue t s)).updCtx t (fun x => setStage x b
        (stageOf ((firstIssue t s).ctx t) b ++ memBytes (firstIssue t s).mem (localBase t.core + addr.toNat / 8 * 8) len.toNat)))) := by
  refine congrArg Host.Outcome.next (issue_pushes hr rfl hl ?_)
  exact (if_neg h0).trans ((if_neg (not_not.mpr h8)).trans ((if_neg hfit).trans ((if_neg hmem).trans (localRead_correct hu _))))

end Cput

/-! ## CSEND (R454 to R457) -/

/-- CSEND answers `st`, and the trace holds it. -/
def csendAnswers (t : Thread) (h b : Word) (st : Nat) (s : State) : State :=
  complete t 2 2 [word st] 0 [] none (traceSend t h.toNat st (stageOf (s.ctx t) b).length 0 s)

/-- An open handle of its thread passes CSEND's checks of the handle. -/
theorem open_passes {s : State} {t : Thread} {h : Nat} (ho : ownHandle s t h = true) (hs : (s.chanOf t.core h).state = 2) :
    ¬ ownHandle s t h = false ∧ ¬ ((s.chanOf t.core h).state ≠ 2 ∧ (s.chanOf t.core h).state ≠ 7) ∧ (s.chanOf t.core h).state ≠ 7 :=
  ⟨ne_false_of_eq_true ho, fun hn => hn.1 hs, hs.trans_ne (by decide)⟩

section Csend
variable {s : State} {t : Thread} {h b : Word} (hr : Runs t 2 ⟨2, 1, 0, 0⟩ s) (hl : operands (firstIssue t s) t 2 = [h, b])
include hr hl

theorem exec_csend_foreign (ho : ownHandle (firstIssue t s) t h.toNat = false) :
    exec (.csend t) s = .next (csendAnswers t h b 2 (firstIssue t s)) :=
  congrArg Host.Outcome.next (issue_pushes hr rfl hl (if_pos ho))

variable (ho : ownHandle (firstIssue t s) t h.toNat = true)
include ho

theorem exec_csend_notOpen (hs : ((firstIssue t s).chanOf t.core h.toNat).state ≠ 2 ∧ ((firstIssue t s).chanOf t.core h.toNat).state ≠ 7) :
    exec (.csend t) s = .next (csendAnswers t h b 4 (firstIssue t s)) :=
  congrArg Host.Outcome.next (issue_pushes hr rfl hl ((if_neg (ne_false_of_eq_true ho)).trans (if_pos hs)))

theorem exec_csend_reset (hs : ((firstIssue t s).chanOf t.core h.toNat).state = 7) :
    exec (.csend t) s = .next (csendAnswers t h b 5 (firstIssue t s)) :=
  congrArg Host.Outcome.next
    (issue_pushes hr rfl hl ((if_neg (ne_false_of_eq_true ho)).trans ((if_neg fun hn => hn.2 hs).trans (if_pos hs))))

variable (hs : ((firstIssue t s).chanOf t.core h.toNat).state = 2)
include hs

theorem exec_csend_length (hlen : (stageOf ((firstIssue t s).ctx t) b).length = 0 ∨
    8 * ((firstIssue t s).chanOf t.core h.toNat).maxu < (stageOf ((firstIssue t s).ctx t) b).length) :
    exec (.csend t) s = .next (csendAnswers t h b 3 (firstIssue t s)) := by
  obtain ⟨hown, hopen, hreset⟩ := open_passes ho hs
  exact congrArg Host.Outcome.next
    (issue_pushes hr rfl hl ((if_neg hown).trans ((if_neg hopen).trans ((if_neg hreset).trans (if_pos hlen)))))

variable (hlen : ¬ ((stageOf ((firstIssue t s).ctx t) b).length = 0 ∨
    8 * ((firstIssue t s).chanOf t.core h.toNat).maxu < (stageOf ((firstIssue t s).ctx t) b).length))
include hlen

theorem exec_csend_commits (hc : canCommit (firstIssue t s) t b h.toNat = true) :
    exec (.csend t) s = .next (complete t 2 2 [0] 0 [] none (commit t b h.toNat (firstIssue t s))) := by
  obtain ⟨hown, hopen, hreset⟩ := open_passes ho hs
  exact congrArg Host.Outcome.next
    (issue_pushes hr rfl hl ((if_neg hown).trans ((if_neg hopen).trans ((if_neg hreset).trans ((if_neg hlen).trans (if_pos hc))))))

theorem exec_csend_waits (hc : ¬ canCommit (firstIssue t s) t b h.toNat = true) :
    exec (.csend t) s = .next ((firstIssue t s).updCtx t (fun x => { x with
      wait := .csend b.toNat h.toNat (coreNow (firstIssue t s) + 2 ^ ((firstIssue t s).chanOf t.core h.toNat).toexp),
      heldPops := 2, heldLen := 2 })) := by
  obtain ⟨hown, hopen, hreset⟩ := open_passes ho hs
  exact congrArg Host.Outcome.next
    (issue_waits hr rfl hl ((if_neg hown).trans ((if_neg hopen).trans ((if_neg hreset).trans ((if_neg hlen).trans (if_neg hc))))))

end Csend

/-! ## The end of a CSEND that waits (R455 to R457) -/

theorem syncWrite_pends {i : Nat} (hi : i < 32) (c rcd : Nat) (s : State) : (((syncWrite c i rcd s).core c).reg 0x125).getLsbD i = true :=
  setPend_sets hi ..

/-- A sync record clears no pending bit. -/
theorem syncWrite_keepsPend {c i : Nat} {s : State} (h : ((s.core c).reg 0x125).getLsbD i = true) (d j rcd : Nat) :
    (((syncWrite d j rcd s).core c).reg 0x125).getLsbD i = true := by
  unfold syncWrite
  extract_lets b q s1
  refine setPend_keeps ?_ d j
  dsimp only [s1]
  split <;> exact h

theorem syncErr_keepsPend {c i : Nat} {s : State} (h : ((s.core c).reg 0x125).getLsbD i = true) (b d j rcd : Nat) :
    (((syncErr b d j rcd s).core c).reg 0x125).getLsbD i = true := by
  unfold syncErr
  split
  · exact syncWrite_keepsPend h ..
  · exact h

theorem completeHeld_reg (t : Thread) (push : List Word) (s : State) (c n : Nat) :
    ((completeHeld t push s).core c).reg n = (s.core c).reg n := by
  rw [(completeHeld_releases t push s).2 c]
  rfl

/-- A CSEND that timed out on channel `h` is counted, traced and recorded at its core and at the receiver's. -/
def sendTimedOut (t : Thread) (b : Word) (h : Nat) (s : State) : State :=
  let x := s.chanOf t.core h
  syncErr (benchOf t.core) x.dst 2 (syncRec 2 0 x.dq 0 0 t.core t.ctx h 0)
    (syncWrite t.core 2 (syncRec 1 t.ctx h 0 0 x.dst 0 x.dq 0)
      (count (benchOf t.core) 0x7518 1 (traceSend t h 1 (stageOf (s.ctx t) b).length 0 s)))

theorem sendTimedOut_pends (t : Thread) (b : Word) (h : Nat) (s : State) :
    (((sendTimedOut t b h s).core t.core).reg 0x125).getLsbD 2 = true :=
  syncErr_keepsPend (syncWrite_pends (by decide) ..) ..

section Waits
variable {s : State} {t : Thread} {b h : Word} {due : Nat} (hw : (s.ctx t).wait = .csend b.toNat h.toNat due)
include hw

theorem exec_csendCommit (hs : (s.chanOf t.core h.toNat).state = 2) (hc : canCommit s t b h.toNat = true) :
    exec (.csendCommit t) s = .next (completeHeld t [0] (commit t b h.toNat s)) := by
  have hword : word b.toNat = b := (BitVec.ofNat_toNat ..).trans (BitVec.setWidth_eq b)
  refine congrArg Host.Outcome.next ?_
  simp [csendCommit, hw, hword, hs, hc]

theorem exec_csendTimeout_early (hd : ¬ due ≤ coreNow s) : exec (.csendTimeout t) s = .next s := by
  refine congrArg Host.Outcome.next ?_
  rw [csendTimeout, hw]
  exact if_neg hd

theorem exec_csendTimeout_due (hd : due ≤ coreNow s) :
    exec (.csendTimeout t) s = .next (completeHeld t [1] (sendTimedOut t (word b.toNat) h.toNat s)) := by
  refine congrArg Host.Outcome.next ?_
  rw [csendTimeout, hw]
  exact if_pos hd

end Waits

theorem channelSending : Claims.ChannelSending := by
  intro s t addr len b h due s1 buf a x l
  refine ⟨fun hr hl => ?_, fun hr hl => ⟨exec_csend_foreign hr hl, fun ho h2 h7 => exec_csend_notOpen hr hl ho ⟨h2, h7⟩,
    fun ho h7 => exec_csend_reset hr hl ho h7, fun ho hs => ⟨exec_csend_length hr hl ho hs, fun h0 hmax hc => ?_, fun h0 hmax hc => ?_⟩⟩,
    fun hw => ⟨exec_csendCommit hw, fun hd => exec_csendTimeout_early hw (Nat.not_le.mpr hd), fun hd _ => ?_⟩⟩
  · have hlen : len ≠ 0 → len.toNat ≠ 0 := fun h0 hn => h0 (BitVec.eq_of_toNat_eq hn)
    refine ⟨fun h0 => exec_cput_clears hr hl (congrArg BitVec.toNat h0), fun h0 => exec_cput_ragged hr hl (hlen h0),
      fun h0 h8 => exec_cput_long hr hl (hlen h0) h8, fun h0 h8 hfit hend hp hu => ?_⟩
    have hmem : ¬ (0x100000 < a + len.toNat ∨ permitted (s1.ctx t) 0 a len.toNat = false) := by
      rintro (hfar | hdenied)
      · omega
      · exact absurd (hdenied.symm.trans hp) (by decide)
    refine ⟨_, exec_cput_appends hr hl (hlen h0) h8 (Nat.not_lt.mpr hfit) hmem hu, ?_⟩
    rw [updCtx_ctx]
    exact stageOf_setStage ..
  · exact exec_csend_commits hr hl ho hs (not_or.mpr ⟨h0, Nat.not_lt.mpr hmax⟩) hc
  · refine ⟨_, exec_csend_waits hr hl ho hs (not_or.mpr ⟨h0, Nat.not_lt.mpr hmax⟩) (ne_true_of_eq_false hc), ?_⟩
    rw [updCtx_ctx, coreNow, firstIssue_now]
  · refine ⟨_, _, exec_csendTimeout_due hw hd, rfl, ?_, (completeHeld_releases ..).1⟩
    rw [completeHeld_reg]
    exact sendTimedOut_pends ..

/-- Settles O30: the branches of COPEN, CPUT and CSEND in their order, and what their answers and time-outs do. -/
theorem channelsOpenAndSend : Obligations.ChannelsOpenAndSend := ⟨channelOpening, channelSending⟩

end Sys2Proof.ChannelProofs
end

section
/-! PROOFS. O32: channels end, and credits return. -/

namespace Sys2Proof.ChannelProofs
open Sys2Proof Sys2Proof.Machine Sys2Proof.Laws Sys2Proof.ModuleProofs Sys2Proof.CoreProofs Sys2Proof.TileProofs

/-! ## The ends of a channel (R459, R464, R466) -/

theorem endSends_counts (c h st : Nat) (s : State) : CountsOnly s (endSends c h st s) := by
  refine .forAll (fun i u => ?_) s
  split
  · split
    · exact (traceSend_counts ..).trans (completeHeld_counts ..)
    · exact .refl u
  · exact .refl u

/-- An abort marks the channel ABORTING. -/
theorem abortChan_state {c h : Nat} {s : State} (hs : (s.chanOf c h).state = 2 ∨ (s.chanOf c h).state = 3) :
    ((abortChan c h s).chanOf c h).state = 5 := by
  rw [abortChan, if_pos hs, (endSends_counts ..).chanOf]
  exact congrArg Chan.state ((updBench_chanOf _ _ _ _ fun _ => by rfl).trans (updChanOf_chanOf ..))

theorem releasePaths_chanOf (c h : Nat) (s : State) : (releasePaths c h s).chanOf c h = s.chanOf c h := by
  unfold releasePaths
  extract_lets x b d
  split
  · unfold setConn
    exact updBench_chanOf _ _ _ _ fun _ => rfl
  · rfl

section Finish
variable (c h st : Nat) (s : State)

theorem finishChan_chanOf : (finishChan c h st s).chanOf c h = { s.chanOf c h with state := st } := by
  refine (releasePaths_chanOf ..).trans ?_
  rw [updChanOf_chanOf]

/-- The receiver's queue is told of the end. -/
theorem finishChan_tells : sentPacket s (finishChan c h st s) (rowStop (benchOf c)) (rowStop (benchOf (s.chanOf c h).dst))
    (.closed (s.chanOf c h).dst (s.chanOf c h).dq (if st = 4 then 2 else 3) c h) := by
  have hring : (releasePaths c h (s.updChanOf c h (fun x => { x with state := st }))).ring = s.ring :=
    (releasePaths_within (F := [.benches, .clicker]) (by decide) (.refl ..) c h).out .ring (by decide)
  exact ⟨_, congrArg (· ++ _) hring, rfl, rfl, rfl, rfl, rfl⟩

end Finish

theorem channelDrain_open {c h : Nat} {s : State} (hs : ¬ ((s.chanOf c h).state = 3 ∧ (s.chanOf c h).written = (s.chanOf c h).sent)) :
    channelDrain c h s = s := if_neg hs

theorem channelDrain_drained {c h : Nat} {s : State} (hs : (s.chanOf c h).state = 3) (hw : (s.chanOf c h).written = (s.chanOf c h).sent) :
    channelDrain c h s = finishChan c h 4 s := if_pos ⟨hs, hw⟩

/-! ## CCLOSE, CSTAT and CABORT (R464, R465, R467) -/

section Close
variable {s : State} {t : Thread} {h : Word} (hr : Runs t 2 ⟨1, 1, 0, 0⟩ s) (hl : operands (firstIssue t s) t 1 = [h])
include hr hl

theorem exec_cclose_open (ho : ownHandle (firstIssue t s) t h.toNat = true) (hs : ((firstIssue t s).chanOf t.core h.toNat).state = 2) :
    exec (.cclose t) s = .next (complete t 2 1 [0] 0 [] none
      ((firstIssue t s).updChanOf t.core h.toNat (fun x => { x with state := 3 }))) :=
  congrArg Host.Outcome.next (issue_pushes hr rfl hl (if_pos (Bool.and_eq_true_iff.mpr ⟨ho, decide_eq_true hs⟩)))

theorem exec_cclose_none (hn : ownHandle (firstIssue t s) t h.toNat = false ∨ ((firstIssue t s).chanOf t.core h.toNat).state ≠ 2) :
    exec (.cclose t) s = .next (complete t 2 1 [1] 0 [] none (firstIssue t s)) := by
  have hnot : ¬ (ownHandle (firstIssue t s) t h.toNat && decide (((firstIssue t s).chanOf t.core h.toNat).state = 2)) = true := by
    simpa [or_iff_not_imp_left] using hn
  exact congrArg Host.Outcome.next (issue_pushes hr rfl hl (if_neg hnot))

theorem exec_cstat_foreign (hn : 16 ≤ h.toNat ∨ ((firstIssue t s).chanOf t.core h.toNat).ctx ≠ t.ctx) :
    exec (.cstat t) s = .next (complete t 2 1 [0] 0 [] none (firstIssue t s)) :=
  congrArg Host.Outcome.next (issue_pushes hr rfl hl (if_pos hn))

variable (hown : ¬ (16 ≤ h.toNat ∨ ((firstIssue t s).chanOf t.core h.toNat).ctx ≠ t.ctx))
include hown

theorem exec_cstat_lasts (hs : ¬ (((firstIssue t s).chanOf t.core h.toNat).state = 4 ∨
      ((firstIssue t s).chanOf t.core h.toNat).state = 6 ∨ ((firstIssue t s).chanOf t.core h.toNat).state = 7)) :
    exec (.cstat t) s =
      .next (complete t 2 1 [chanStatus ((firstIssue t s).chanOf t.core h.toNat)] 0 [] none (firstIssue t s)) := by
  refine congrArg Host.Outcome.next (issue_pushes hr rfl hl ((if_neg hown).trans ?_))
  exact congrArg (pushes · _) (if_neg hs)

/-- The read of a final state frees the handle. -/
theorem exec_cstat_final (hs : ((firstIssue t s).chanOf t.core h.toNat).state = 4 ∨
      ((firstIssue t s).chanOf t.core h.toNat).state = 6 ∨ ((firstIssue t s).chanOf t.core h.toNat).state = 7) :
    exec (.cstat t) s = .next (complete t 2 1 [chanStatus ((firstIssue t s).chanOf t.core h.toNat)] 0 [] none
      ((firstIssue t s).updChanOf t.core h.toNat (fun _ => Chan.reset))) := by
  refine congrArg Host.Outcome.next (issue_pushes hr rfl hl ((if_neg hown).trans ?_))
  exact congrArg (pushes · _) (if_pos hs)

end Close

/-- The status word holds the state in its low 4 bits. -/
theorem chanStatus_state {x : Chan} (h2 : ¬ x.state < 2) (h16 : x.state < 16) : (chanStatus x).toNat % 16 = x.state := by
  rw [chanStatus, if_neg h2, word, BitVec.toNat_ofNat]
  omega

/-- An open or closing handle of its thread passes CABORT's check. -/
theorem unended_passes {s : State} {t : Thread} {h : Nat} (ho : ownHandle s t h = true)
    (hs : (s.chanOf t.core h).state = 2 ∨ (s.chanOf t.core h).state = 3) : ¬ (ownHandle s t h = false ∨ (s.chanOf t.core h).state = 7) :=
  not_or.mpr ⟨ne_false_of_eq_true ho, by omega⟩

section Abort
variable {s : State} {t : Thread} {h : Word} (hr : Runs t 2 ⟨1, 2, 0, 0⟩ s) (hl : operands (firstIssue t s) t 1 = [h])
include hr hl

theorem exec_cabort_none (hn : ownHandle (firstIssue t s) t h.toNat = false ∨ ((firstIssue t s).chanOf t.core h.toNat).state = 7) :
    exec (.cabort t) s = .next (complete t 2 1 [0, 0] 0 [] none (firstIssue t s)) :=
  congrArg Host.Outcome.next (issue_pushes hr rfl hl (if_pos hn))

variable (ho : ownHandle (firstIssue t s) t h.toNat = true)
include ho

theorem exec_cabort_aborts (hs : ((firstIssue t s).chanOf t.core h.toNat).state = 2 ∨ ((firstIssue t s).chanOf t.core h.toNat).state = 3)
    (hd : ¬ (((firstIssue t s).chanOf t.core h.toNat).state = 3 ∧
      ((firstIssue t s).chanOf t.core h.toNat).written = ((firstIssue t s).chanOf t.core h.toNat).sent)) :
    exec (.cabort t) s = .next (complete t 2 1 [2, word ((firstIssue t s).chanOf t.core h.toNat).left] 0 [] none
      (abortChan t.core h.toNat (firstIssue t s))) := by
  have hown := unended_passes ho hs
  have h4 : ¬ ((firstIssue t s).chanOf t.core h.toNat).state = 4 := by omega
  refine congrArg Host.Outcome.next (issue_pushes hr rfl hl ((if_neg hown).trans ?_))
  rw [show (arg [h] 0) = h from rfl, channelDrain_open hd]
  exact if_neg h4

theorem exec_cabort_drained (hs : ((firstIssue t s).chanOf t.core h.toNat).state = 3)
    (hd : ((firstIssue t s).chanOf t.core h.toNat).written = ((firstIssue t s).chanOf t.core h.toNat).sent) :
    exec (.cabort t) s = .next (complete t 2 1 [1, word ((firstIssue t s).chanOf t.core h.toNat).written] 0 [] none
      ((channelDrain t.core h.toNat (firstIssue t s)).updChanOf t.core h.toNat (fun _ => Chan.reset))) := by
  have hown := unended_passes ho (.inr hs)
  have hchan := finishChan_chanOf t.core h.toNat 4 (firstIssue t s)
  refine congrArg Host.Outcome.next (issue_pushes hr rfl hl ((if_neg hown).trans ?_))
  rw [show (arg [h] 0) = h from rfl, channelDrain_drained hs hd]
  refine (if_pos (congrArg Chan.state hchan)).trans ?_
  rw [hchan]

end Abort

theorem channelCloseAbortStatus : Claims.ChannelCloseAbortStatus := by
  intro s t h s1 x aborts
  have habort : ∀ hr hl ho, x.state = 2 ∨ x.state = 3 → ¬ (x.state = 3 ∧ x.written = x.sent) → aborts := fun hr hl ho hs hd =>
    ⟨exec_cabort_aborts hr hl ho hs hd, abortChan_state hs⟩
  refine ⟨fun hr hl => ⟨exec_cclose_open hr hl, exec_cclose_none hr hl, exec_cstat_foreign hr hl, fun hh hctx => ?_⟩,
    fun hr hl => ⟨exec_cabort_none hr hl, fun ho hs => habort hr hl ho (.inl hs) fun hd => by omega,
      fun ho hs hd => habort hr hl ho (.inr hs) fun hw => hd hw.2, exec_cabort_drained hr hl⟩⟩
  have hown : ¬ (16 ≤ h.toNat ∨ x.ctx ≠ t.ctx) := not_or.mpr ⟨Nat.not_le.mpr hh, not_not.mpr hctx⟩
  refine ⟨fun hs => ?_, fun hs => ?_, fun hs => ⟨_, exec_cstat_final hr hl hown hs, ?_⟩⟩
  · have hlasts := exec_cstat_lasts hr hl hown (show ¬ (x.state = 4 ∨ x.state = 6 ∨ x.state = 7) by omega)
    rwa [chanStatus, if_pos hs] at hlasts
  · have hlasts := exec_cstat_lasts hr hl hown (show ¬ (x.state = 4 ∨ x.state = 6 ∨ x.state = 7) by omega)
    rwa [chanStatus, if_neg (show ¬ x.state < 2 by omega)] at hlasts
  · exact chanStatus_state (show ¬ x.state < 2 by omega) (show x.state < 16 by omega)

/-! ## Notices and credits (R459, R466, R468, R469) -/

section Notice
variable {s : State} {p : RingPkt} (hring : s.ring = [p]) (hpos : p.pos = p.dst)
include hring hpos

/-- The one packet of the ring, at its stop, is taken. -/
theorem ringTake_single {sel : RingPkt → Bool} (hsel : sel p = true) : ringTake sel s = some (p, { s with ring := [] }) := by
  have hmem : p ∈ s.ring := by rw [hring]; exact List.mem_singleton_self p
  have honly : ∀ r, r ∈ s.ring → sel r = true → r = p := fun r hr _ => List.mem_singleton.mp (hring ▸ hr)
  have herase : s.ring.erase p = [] := by simp [hring]
  rw [ringTake_only hmem hpos hsel honly, herase]

theorem exec_receiverAbortNotice {c h : Nat} (hmsg : p.msg = .rabort c h ((s.chanOf c h).dst * 16 + (s.chanOf c h).dq))
    (hs : (s.chanOf c h).state = 2) : exec (.receiverAbortNotice c h) s = .next (abortChan c h { s with ring := [] }) := by
  have hopen : channelDrain c h { s with ring := [] } = { s with ring := [] } :=
    channelDrain_open fun hd => absurd (hs.symm.trans hd.1) (by decide)
  refine congrArg Host.Outcome.next ?_
  rw [receiverAbort, ringTake_single hring hpos (by simp [hmsg])]
  dsimp only
  rw [hmsg]
  refine (if_pos rfl).trans ?_
  rw [abortOrDrain, hopen]

theorem exec_closeNotice {c h st sc sh : Nat} (hmsg : p.msg = .closed c h st sc sh) : exec (.closeNotice c h) s =
    .next (State.updQueueOf { s with ring := [] } c h
      (fun x => if x.state = 1 ∧ x.final = 0 ∧ x.score = sc ∧ x.shand = sh then { x with state := st } else x)) := by
  refine congrArg Host.Outcome.next ?_
  rw [closeNotice, ringTake_single hring hpos (by simp [hmsg])]
  dsimp only
  rw [hmsg]

end Notice

section Inbox
variable {s : State} {b : Nat} {i : Inbox} {sel : OpenMsg → Bool} (hin : (s.bench b).inbox = [i])
include hin

/-- The one message that waits for the bench's threads is found when it is due and asked for. -/
theorem inboxFind_single (hdue : i.due ≤ s.now / 2) (hsel : sel i.msg = true) : inboxFind s b sel = some i := by
  have hnow : i.due ≤ coreNow s := hdue
  simp [inboxFind, hin, hnow, hsel]

theorem inboxDrop_single : inboxDrop b i s = s.updBench b (fun x => { x with inbox := [] }) := by
  have herase : (s.bench b).inbox.erase i = [] := by simp [hin]
  exact congrArg (fun l => { s with benches := tblSet benchD s.benches b { s.bench b with inbox := l } }) herase

end Inbox

/-- A credit of the channel's own queue moves the HEAD that its sender knows. -/
theorem creditIn_own {s : State} {c h : Nat} (head : Word) (hs : 2 ≤ (s.chanOf c h).state) :
    creditIn c h ((s.chanOf c h).dst * 16 + (s.chanOf c h).dq) head false s = s.updChanOf c h (fun x => { x with khead := head }) := by
  simp [creditIn, hs]

theorem exec_creditArrival {s : State} {c h : Nat} {i : Inbox} {head : Word} (hb : benchOf c < 128) (harr : s.arrivals = [])
    (hin : (s.bench (benchOf c)).inbox = [i]) (hdue : i.due ≤ s.now / 2)
    (hmsg : i.msg = .credit c h ((s.chanOf c h).dst * 16 + (s.chanOf c h).dq) head) (hs : 2 ≤ (s.chanOf c h).state) :
    exec (.creditArrival (benchOf c)) s = .next
      ((s.updBench (benchOf c) (fun x => { x with inbox := [] })).updChanOf c h (fun x => { x with khead := head })) := by
  have hchan : (s.updBench (benchOf c) (fun x => { x with inbox := [] })).chanOf c h = s.chanOf c h :=
    updBench_chanOf _ _ _ _ fun _ => by rfl
  have hinside : creditInside (benchOf c) s =
      some ((s.updBench (benchOf c) (fun x => { x with inbox := [] })).updChanOf c h (fun x => { x with khead := head })) := by
    rw [creditInside, inboxFind_single hin hdue (by simp [hmsg])]
    dsimp only
    rw [hmsg]
    refine congrArg some ?_
    rw [inboxDrop_single hin, ← hchan]
    exact creditIn_own head (hchan ▸ hs)
  refine congrArg Host.Outcome.next ((if_pos hb).trans ?_)
  rw [creditArrival, takeArrival, harr]
  exact congrArg (Option.getD · s) hinside

theorem channelEndsAndCredits : Claims.ChannelEndsAndCredits := by
  intro s c h hc hh x tells
  refine ⟨fun hs hw => ⟨_, congrArg Host.Outcome.next (channelDrain_drained hs hw), congrArg Chan.state (finishChan_chanOf ..), finishChan_tells ..⟩,
    fun hs hw => congrArg Host.Outcome.next (channelDrain_open fun hd => hw hd.2),
    fun hs hp => ⟨_, congrArg Host.Outcome.next (if_pos ⟨hs, hp⟩), congrArg Chan.state (finishChan_chanOf ..), finishChan_tells ..⟩,
    fun p hring hpos hmsg hs => ⟨_, exec_receiverAbortNotice hring hpos hmsg hs, abortChan_state (.inl hs), ?_⟩,
    fun p st sc sh hring hpos hmsg h1 h0 hsc hsh => ⟨_, exec_closeNotice hring hpos hmsg, ?_, rfl⟩, fun i head harr hin hdue hmsg hs => ?_⟩
  · exact (abortChan_within (F := [.mem, .bad, .cores, .benches, .trc, .free]) (by decide) (.refl ..) c h).out .ring (by decide)
  · rw [updQueueOf_queueOf]
    exact congrArg Queue.state (if_pos ⟨h1, h0, hsc, hsh⟩)
  · refine ⟨_, exec_creditArrival (benchOf_lt hc) harr hin hdue hmsg hs, congrArg Chan.khead (updChanOf_chanOf ..), ?_⟩
    rw [updChanOf_field Bench.inbox (fun _ _ => rfl), updBench_bench]

/-- Settles O32: CCLOSE, CSTAT and CABORT by their branches, the ends of a channel by `finishChan_chanOf`, `finishChan_tells` and
`abortChan_state`, and the notices and credits by the one message that their events take. -/
theorem channelsEnd : Obligations.ChannelsEnd := ⟨channelCloseAbortStatus, channelEndsAndCredits⟩

end Sys2Proof.ChannelProofs
end

section
/-! PROOFS. O34: watches, deferred operations, and the answers that release threads. -/

namespace Sys2Proof.ChannelProofs
open Sys2Proof Sys2Proof.Machine Sys2Proof.Laws Sys2Proof.ModuleProofs Sys2Proof.CoreProofs Sys2Proof.TileProofs

/-! ## Watches (R479, R480, R483) -/

/-- A cancel at its slice removes the watch, and the deferred operation that would register it. -/
theorem sliceOp_cancels {op : TallyOp} (h : op.op = 7) (s : State) : sliceOp op s = s.updBench (op.tally / 512) (fun x =>
    { x with
      watches := x.watches.filter (fun w => !(decide (w.core = op.core) && decide (w.ctx = op.ctx) && decide (w.serial = op.serial)))
      deferred := x.deferred.filter (fun d =>
        !(decide (d.op = 4) && decide (d.core = op.core) && decide (d.ctx = op.ctx) && decide (d.serial = op.serial))) }) := by
  have hmismatch : mismatch s op = false := by simp [mismatch, h]
  have hmisuse : misuse s op = false := by simp [misuse, h]
  have hnow : sliceOp op s = performTally op s := if_neg fun hd => hd.1 h
  rw [hnow, performTally, hmismatch, hmisuse]
  simp only [Bool.false_eq_true, if_false, applyTally, h]

theorem exec_watchCancelArrival {s : State} {b : Nat} {i : TallyIn} {r : List TallyIn} (hin : (s.bench b).tallyIn = i :: r)
    (hdue : i.due ≤ s.now / 2) (habs : absorbsBench s b = false) (h : i.op.op = 7) :
    exec (.watchCancelArrival b) s = .next (sliceOp i.op (taken b r s)) := by
  simp only [exec, execWatchCancelArrival, takeTally, hin, habs, Bool.false_eq_true, if_false, h, decide_true, and_true]
  exact congrArg _ (if_pos hdue)

/-- The watch that TWATCH `op` registers. -/
def watchOf (op : TallyOp) : Watch :=
  { tally := op.tally, cond := op.cond, val := op.val, core := op.core, ctx := op.ctx, serial := op.serial, wake := none }

section Watch
variable {op : TallyOp} {s : State} (h : op.op = 4)
include h

theorem applyTally_registers (hn : holds ((s.bench (op.tally / 512)).tally (op.tally % 512)) op.cond op.val = false)
    (hroom : (s.bench (op.tally / 512)).watches.length < 128) :
    ((applyTally op s).bench (op.tally / 512)).watches = (s.bench (op.tally / 512)).watches ++ [watchOf op] := by
  have hfull : ¬ 128 ≤ (s.bench (op.tally / 512)).watches.length := Nat.not_le.mpr hroom
  simp only [applyTally, h, hn, if_neg hfull, Bool.false_eq_true, if_false]
  rw [(traceTally_records ..).bench, updBench_bench]
  rfl

theorem applyTally_wakes (hn : holds ((s.bench (op.tally / 512)).tally (op.tally % 512)) op.cond op.val = true)
    (hcore : benchOf op.core = op.tally / 512) : ∃ w, RecordsOnly s w ∧ applyTally op s = toInbox (op.tally / 512) (coreNow w + 2)
      (.wake op.core op.ctx op.serial op.tally 0 (wakeValue ((s.bench (op.tally / 512)).tally (op.tally % 512)) op.cond)) w := by
  refine ⟨_, traceTally_records 2 op.tally op.core op.ctx op.cond op.val s, ?_⟩
  simp only [applyTally, h, hn, if_true, answer, hcore]

end Watch

/-! ## Operations behind a generation (R478) -/

section Deferred
variable {s : State} {op : TallyOp} {n : Nat}

/-- The one operation deferred on tally `n`, an addition, is performed. -/
theorem exec_generationDeferEnd (hdef : (s.bench (n / 512)).deferred = [op]) (hn : op.tally = n) (hsoon : tooSoon s n = false) :
    exec (.generationDeferEnd n) s = .next (performTally op (s.updBench (n / 512) (fun x => { x with deferred := [] }))) := by
  have herase : (s.bench (n / 512)).deferred.erase op = [] := by simp [hdef]
  have hnone : s.updBench (n / 512) (fun x => { x with deferred := x.deferred.erase op }) =
      s.updBench (n / 512) (fun x => { x with deferred := [] }) :=
    congrArg (fun l => { s with benches := tblSet benchD s.benches (n / 512) { s.bench (n / 512) with deferred := l } }) herase
  simp only [exec, execGenerationDeferEnd, hsoon, hdef, List.length_singleton, runDeferred, List.find?_cons, hn, decide_true,
    Bool.false_eq_true, and_false, if_false, hnone]

theorem emptied_tally (b d k : Nat) (s : State) : ((s.updBench b (fun x => { x with deferred := [] })).bench d).tally k = (s.bench d).tally k :=
  updBench_field (fun x => x.tally k) (fun _ => by rfl) s b d

theorem misuse_emptied (b : Nat) (s : State) (op : TallyOp) : misuse (s.updBench b (fun x => { x with deferred := [] })) op = misuse s op := by
  rw [misuse, misuse, emptied_tally]
  rfl

theorem setTally_deferred (n : Nat) (f : Tally → Tally) (s : State) (d : Nat) : ((setTally n f s).bench d).deferred = (s.bench d).deferred :=
  updBench_field Bench.deferred (fun _ => by rfl) s (n / 512) d

end Deferred

theorem watchesAndDeferral : Claims.WatchesAndDeferral := by
  intro s b n i op
  refine ⟨fun hin hdue habs h7 hb => ⟨_, exec_watchCancelArrival hin hdue habs h7, ?_⟩,
    fun hin hdue habs h4 hb hmis hdef _ hn hroom => ?_, fun hin hdue habs h4 hb hmis hdef _ hcore hc hle => ?_,
    fun hdef hn hsoon h0 hmis hlt => ⟨_, exec_generationDeferEnd hdef hn hsoon, ?_⟩, fun hsoon => congrArg Host.Outcome.next (if_pos hsoon)⟩
  · subst hb
    rw [sliceOp_cancels h7, updBench_bench, taken, updBench_bench]
    refine ⟨rfl, fun w => ?_⟩
    simp [List.mem_filter, imp_iff_not_or, or_assoc]
  · obtain ⟨w, hw, hexec⟩ := arrival_applies hin hdue hb habs hmis hdef fun hgo => not_advances (by omega) (by omega) hgo.1
    subst hb
    have hbench := hw.bench (i.op.tally / 512)
    rw [taken, updBench_bench] at hbench
    have hwatches : (w.bench (i.op.tally / 512)).watches = (s.bench (i.op.tally / 512)).watches := by rw [hbench]
    refine ⟨_, hexec, ?_⟩
    rw [applyTally_registers h4, hwatches]
    · rfl
    · rw [hw.tally, taken_tally, hn]
    · rw [hwatches]
      exact hroom
  · obtain ⟨w, hw, hexec⟩ := arrival_applies hin hdue hb habs hmis hdef fun hgo => not_advances (by omega) (by omega) hgo.1
    subst hb
    have htally := (hw.tally (i.op.tally / 512) (i.op.tally % 512)).trans (taken_tally ..)
    obtain ⟨v, hv, happly⟩ := applyTally_wakes (s := w) h4 (by rw [htally, hc]; exact decide_eq_true hle) hcore
    have hbench := (hw.trans hv).bench (i.op.tally / 512)
    rw [taken, updBench_bench] at hbench
    refine ⟨_, hexec, ?_⟩
    rw [happly, toInbox, updBench_bench, coreNow, (hw.trans hv).now, htally, hbench, hc]
    exact ⟨rfl, rfl⟩
  · subst hn
    obtain ⟨w, hw, happly⟩ := performTally_applies (op := op) ((misuse_emptied (op.tally / 512) s op).trans hmis)
    have hadds := applyTally_adds (s := w) h0
    rw [happly]
    constructor
    · rw [hadds.bench]
      refine (setTally_deferred ..).trans ?_
      rw [hw.bench, updBench_bench]
    · rw [hadds.tally, setTally_tally, hw.tally, emptied_tally, added, if_neg (Nat.not_le.mpr hlt)]
      exact (BitVec.toNat_ofNat ..).trans (Nat.mod_eq_of_lt hlt)

/-! ## Answers that release a thread (R473, R475, R482, R484, R748) -/

/-- What an operation pushes that is not performed. -/
theorem resultPush_lost (op : Nat) : resultPush op (if op = 2 then 0 else 0xFFFFFFFF#32) 0xFFFFFFFF#32 =
    if op = 2 then [0xFFFFFFFF, 0] else if op = 3 then [0xFFFFFFFF] else [] := by
  unfold resultPush
  split
  · rfl
  · rfl

/-- What a result pushes. -/
theorem resultPush_answered (op : Nat) (ok : Bool) (a g : Word) :
    (if ok then resultPush op a g else resultPush op (if op = 2 then 0 else 0xFFFFFFFF#32) 0xFFFFFFFF#32) =
      if op = 2 then (if ok then [g, a] else [0xFFFFFFFF, 0]) else if op = 3 then (if ok then [a] else [0xFFFFFFFF]) else [] := by
  cases ok
  · rw [resultPush_lost]
    rfl
  · rfl

/-- The bench's inbox holds nothing. -/
def inboxEmptied (b : Nat) (s : State) : State := s.updBench b (fun x => { x with inbox := [] })

section Answers
variable {s : State} {t : Thread} {i : Inbox} {serial m : Nat} (hin : (s.bench (benchOf t.core)).inbox = [i]) (hdue : i.due ≤ s.now / 2)
include hin hdue

section Result
variable {ok : Bool} {a g : Word} (hmsg : i.msg = .result t.core t.ctx serial m ok a g)
include hmsg

theorem inboxFind_result : inboxFind s (benchOf t.core) (isResult t) = some i :=
  inboxFind_single hin hdue (by simp [hmsg, isResult])

theorem exec_result_releases {op n due : Nat} (hw : (s.ctx t).wait = .tally serial op n due) (hlate : i.due ≤ due) :
    exec (.tallyResultArrival t) s = .next (completeHeld t
      (if ok then resultPush op a g else resultPush op (if op = 2 then 0 else 0xFFFFFFFF#32) 0xFFFFFFFF#32) (inboxEmptied (benchOf t.core) s)) := by
  simp only [exec, execTallyResultArrival, inboxFind_result hin hdue hmsg, hmsg, hw, inboxDrop_single hin]
  exact congrArg Host.Outcome.next (if_pos ⟨trivial, hlate⟩)

theorem exec_result_discarded (hw : (s.ctx t).wait = .none) :
    exec (.tallyResultArrival t) s = .next (count (benchOf t.core) 0x7520 1 (inboxEmptied (benchOf t.core) s)) := by
  simp only [exec, execTallyResultArrival, inboxFind_result hin hdue hmsg, hmsg, hw, inboxDrop_single hin]
  rfl

end Result

section Wake
variable {st : Nat} {c : Word} (hmsg : i.msg = .wake t.core t.ctx serial m st c)
include hmsg

theorem inboxFind_wake : inboxFind s (benchOf t.core) (isWake t) = some i :=
  inboxFind_single hin hdue (by simp [hmsg, isWake])

theorem exec_wake_releases {n cond due : Nat} {v : Word} (hw : (s.ctx t).wait = .watch serial n cond v due) (hlate : i.due ≤ due) :
    exec (.wakeArrival t) s = .next (completeHeld t [word st, c] (countSpin t true (inboxEmptied (benchOf t.core) s))) := by
  simp only [exec, execWakeArrival, inboxFind_wake hin hdue hmsg, hmsg, hw, inboxDrop_single hin]
  exact congrArg Host.Outcome.next (if_pos ⟨trivial, hlate⟩)

theorem exec_wake_discarded (hw : (s.ctx t).wait = .none) :
    exec (.wakeArrival t) s = .next (count (benchOf t.core) 0x7520 1 (inboxEmptied (benchOf t.core) s)) := by
  simp only [exec, execWakeArrival, inboxFind_wake hin hdue hmsg, hmsg, hw, inboxDrop_single hin]
  rfl

end Wake
end Answers

/-! ## Time limits (R482, R484, R748) -/

/-- Sending a cancel leaves the cores alone. -/
theorem sendTally_cancel_cores {op : TallyOp} (h : op.op = 7) (b u : Nat) (s : State) : (sendTally b u op s).cores = s.cores := by
  rw [sendTally]
  simp only [if_pos h]
  split
  · rfl
  · split <;> rfl

theorem trace_core (b k x ty sub : Nat) (l : List Byte) (s : State) (c : Nat) : (trace b k x ty sub l s).core c = s.core c :=
  core_of_within (F := [.benches, .trc]) (trace_within (by decide) (.refl ..) ..) (by decide) c

theorem setPend_ctx (c i : Nat) (s : State) (t : Thread) : (setPend c i s).ctx t = s.ctx t := by
  rw [State.ctx, setPend, updCore_get]
  split
  next h => rw [Core.setReg_ctx, h, State.ctx]
  next => rfl

theorem syncWrite_ctx (c i rcd : Nat) (s : State) (t : Thread) : (syncWrite c i rcd s).ctx t = s.ctx t := by
  refine (setPend_ctx ..).trans ?_
  split <;> rfl

/-- After a TWATCH of thread `t` has timed out its cancel is sent, and the time-out counted, recorded and traced. -/
def watchTimedOut (t : Thread) (serial n cond : Nat) (v : Word) (s : State) : State :=
  trace (benchOf t.core) t.core t.ctx 3 3 (leBytes n 2 ++ leBytes cond 1 ++ [0] ++ leBytes v.toNat 4 ++ leBytes 0 8)
    (syncWrite t.core 3 (syncRec 3 t.ctx 0 cond n 0 0 0 v.toNat) (count (benchOf t.core) 0x7510 1
      (sendTally (benchOf t.core) (coreNow s)
        { op := 7, tally := n, val := v, cond := cond, form := 0, scope := 0, core := t.core, ctx := t.ctx, agent := 0, serial := serial } s)))

section TimedOut
variable (t : Thread) (serial n cond : Nat) (v : Word) (s : State)

theorem watchTimedOut_ctx : (watchTimedOut t serial n cond v s).ctx t = s.ctx t := by
  rw [watchTimedOut, State.ctx, trace_core, ← State.ctx, syncWrite_ctx, State.ctx, State.core, count, updBench_cores,
    sendTally_cancel_cores rfl, ← State.core, ← State.ctx]

theorem watchTimedOut_pends : (((watchTimedOut t serial n cond v s).core t.core).reg 0x125).getLsbD 3 = true := by
  rw [watchTimedOut, trace_core]
  exact syncWrite_pends (by decide) ..

end TimedOut

section Limits
variable {s : State} {t : Thread} {serial n due : Nat} (hdue : due ≤ s.now / 2) (hin : (s.bench (benchOf t.core)).inbox = [])
include hdue hin

theorem exec_tallyResultLost {op : Nat} (hw : (s.ctx t).wait = .tally serial op n due) : exec (.tallyResultLost t) s =
    .next (completeHeld t (resultPush op (if op = 2 then 0 else 0xFFFFFFFF#32) 0xFFFFFFFF#32)
      (syncWrite t.core 4 (syncRec 9 t.ctx 0 0 n 0 0 0 0) s)) := by
  simp only [exec, execTallyResultLost, hw, hin, List.any_nil, and_true]
  exact congrArg Host.Outcome.next (if_pos hdue)

theorem exec_watchTimeout {cond : Nat} {v : Word} (hw : (s.ctx t).wait = .watch serial n cond v due) : exec (.watchTimeout t) s =
    .next (watchTimedOut t serial n cond v (completeHeld t [1, 0] (countSpin t true s))) := by
  have hnow : coreNow (completeHeld t [1, 0] (countSpin t true s)) = coreNow s :=
    congrArg (· / 2) ((completeHeld_within (F := [.mem, .bad, .cores, .benches, .free]) (by decide)
      (countSpin_within (by decide) (.refl ..) t true) t [1, 0]).out .now (by decide))
  simp only [exec, execWatchTimeout, hw, hin, List.any_nil, and_true, watchTimedOut, hnow]
  exact congrArg Host.Outcome.next (if_pos hdue)

end Limits

theorem tallyAnswersReleaseThreads : Claims.TallyAnswersReleaseThreads := by
  intro s t i serial op n m due cond st a g v c ok b s1
  refine ⟨fun hin hdue hmsg => ⟨fun hw hlate => ?_, exec_result_discarded hin hdue hmsg⟩,
    fun hin hdue hmsg => ⟨exec_wake_releases hin hdue hmsg, exec_wake_discarded hin hdue hmsg⟩,
    fun hw hdue hin _ => ⟨_, exec_watchTimeout hdue hin hw, watchTimedOut_ctx .., ?_, watchTimedOut_pends ..⟩, fun hw hdue hin => ?_⟩
  · rw [exec_result_releases hin hdue hmsg hw hlate, resultPush_answered]
    rfl
  · rw [watchTimedOut_ctx]
    exact (completeHeld_releases ..).1
  · rw [exec_tallyResultLost hdue hin hw, resultPush_lost]

/-- Settles O34: what a watch, a cancel and a deferred addition do at their slice, and the branch of each answer by the one message that
waits, or by a time limit that has come. -/
theorem watchesAndAnswers : Obligations.WatchesAndAnswers := ⟨watchesAndDeferral, tallyAnswersReleaseThreads⟩

end Sys2Proof.ChannelProofs
end

section
/-! PROOFS. What the welt stations' operations leave of their ports, for O45, O46 and O47. -/

namespace Sys2Proof.LinkProofs
open Sys2Proof Sys2Proof.Machine Sys2Proof.Laws

theorem welt_of_within {F : List Field} {s u : State} (h : Within F s u) (hw : Field.welts ∉ F) (w : Nat) : u.welt w = s.welt w :=
  congrArg (tblGet weltD · w) (h.out .welts hw)

theorem stream_of_within {F : List Field} {s u : State} (h : Within F s u) (hs : Field.streams ∉ F) (i : Nat) :
    u.stream i = s.stream i := congrArg (tblGet streamD · i) (h.out .streams hs)

/-- A port is up by its register block alone. -/
theorem portUp_of_reg {s u : State} {w : Nat} (h : (u.welt w).reg = (s.welt w).reg) : portUp u w = portUp s w :=
  congrArg (fun t => decide ((tblGet (zeros 64) t 0).toNat % 2 = 1)) h

theorem portUp_of_within {F : List Field} {s u : State} (h : Within F s u) (hw : Field.welts ∉ F) (w : Nat) :
    portUp u w = portUp s w := portUp_of_reg (congrArg Welt.reg (welt_of_within h hw w))

/-- An event goes to the logs alone. -/
theorem logEvent_fmnOnly (code p sev : Nat) (detail : List Byte) (s : State) : Within [.fmn] s (logEvent code p sev detail s) :=
  logEvent_within (List.Subset.refl _) (.refl ..) code p sev detail

/-! ## Frames and counters (R93, R525) -/

section Ports
variable {s : State} {w : Nat}

theorem transmit_up (h : portUp s w = true) (hdr payload : List Byte) :
    ∃ f, transmit w hdr payload s = s.updWelt w (fun y => { y with out := f :: y.out }) := ⟨_, if_pos h⟩

theorem transmit_down (h : portUp s w = false) (hdr payload : List Byte) : transmit w hdr payload s = s := by
  simp [transmit, h]

/-- Of the ports, a frame that is sent changes the frames sent. -/
theorem transmit_welt (hdr payload : List Byte) (j : Nat) : ∃ l, (transmit w hdr payload s).welt j = { s.welt j with out := l } := by
  cases h : portUp s w with
  | false => exact ⟨(s.welt j).out, by rw [transmit_down h]⟩
  | true =>
    obtain ⟨f, hf⟩ := transmit_up h hdr payload
    rw [hf, updWelt_get]
    split
    · next e => exact ⟨f :: (s.welt w).out, by rw [e]⟩
    · exact ⟨(s.welt j).out, rfl⟩

theorem weltCount_welt (o n : Nat) (s : State) :
    (weltCount w o n s).welt w = (s.welt w).setR o (counterAdd ((s.welt w).r o) n) := updWelt_welt ..

end Ports

end Sys2Proof.LinkProofs
end

section
/-! PROOFS. O45: packets leave on the welt and are sent again; ports go down and up. -/

namespace Sys2Proof.LinkProofs
open Sys2Proof Sys2Proof.Machine Sys2Proof.Laws Sys2Proof.ModuleProofs Sys2Proof.ChannelProofs

/-! ## Held packets (R519) -/

section Held
variable {s u : State} {w id psn : Nat} {p : TxPkt}

theorem heldTx_of_tx (h : (u.welt w).tx = (s.welt w).tx) : heldTx u w id psn = heldTx s w id psn := by
  rw [heldTx, heldTx, h]

theorem heldTx_names (h : heldTx s w id psn = some p) : p.stream = id ∧ p.psn = psn := by
  simpa using List.find?_some h

theorem heldTx_dropTx : heldTx (dropTx w id psn s) w id psn = none := by
  rw [heldTx, dropTx, updWelt_welt, List.find?_eq_none]
  intro q hq
  simpa [not_and_or.symm] using (List.mem_filter.mp hq).2

/-- A change that leaves a held packet its name changes the packet that is found by it. -/
theorem heldTx_updTx {f : TxPkt → TxPkt} (hf : ∀ q, (f q).stream = q.stream ∧ (f q).psn = q.psn) (h : heldTx s w id psn = some p) :
    heldTx (updTx w id psn f s) w id psn = some (f p) := by
  obtain ⟨hid, hpsn⟩ := heldTx_names h
  have hname : ((fun q : TxPkt => decide (q.stream = id) && decide (q.psn = psn)) ∘
      fun q => if q.stream = id ∧ q.psn = psn then f q else q) = fun q => decide (q.stream = id) && decide (q.psn = psn) := by
    funext q
    by_cases hq : q.stream = id ∧ q.psn = psn <;> simp [hq, hf]
  rw [heldTx, updTx, updWelt_welt, List.find?_map, hname]
  change (heldTx s w id psn).map _ = _
  rw [h]
  simp [hid, hpsn]

theorem updTx_portUp {f : TxPkt → TxPkt} (v : Nat) : portUp (updTx w id psn f s) v = portUp s v := by
  refine portUp_of_reg ?_
  rw [updTx, updWelt_get]
  split
  · next e => rw [e]
  · rfl

end Held

/-! ## A packet is sent (R510, R519, R525) -/

/-- A held packet whose timer has just started. -/
def timed (s : State) (p : TxPkt) : TxPkt := { p with full := true, sentAt := some s.tb, rto := s.boot.rto, limit := s.boot.retryMax }

section Send
variable {s : State} {w id psn : Nat} {p q : TxPkt} {retx : Bool}

/-- On a port that is down a packet is only marked as sent. -/
theorem sendPacket_down (h : portUp s w = false) : sendPacket w p retx s = updTx w p.stream p.psn (timed s) s := by
  have hdown : portUp (updTx w p.stream p.psn (timed s) s) w = false := (updTx_portUp w).trans h
  simp only [sendPacket, h]
  exact transmit_down hdown ..

/-- On a port that is up it leaves in one frame, and the port counts it. -/
theorem sendPacket_up (h : portUp s w = true) :
    ∃ f, (sendPacket w p retx s).welt w = ({ (updTx w p.stream p.psn (timed s) s).welt w with out := f :: (s.welt w).out }).setR
      (if retx then 0x010 else 0x008) (counterAdd ((s.welt w).r (if retx then 0x010 else 0x008)) 1) := by
  have hup : portUp (updTx w p.stream p.psn (timed s) s) w = true := (updTx_portUp w).trans h
  obtain ⟨f, hf⟩ := transmit_up hup (dataHeader s w p retx) p.data
  refine ⟨f, ?_⟩
  have hsend : sendPacket w p retx s = weltCount w (if retx then 0x010 else 0x008) 1
      (transmit w (dataHeader s w p retx) p.data (updTx w p.stream p.psn (timed s) s)) := if_pos h
  rw [hsend, weltCount_welt, hf, updWelt_welt, updTx, updWelt_welt]
  rfl

/-- Whether it leaves or not, the packet that is held under its name is timed. -/
theorem sendPacket_held (h : heldTx s w id psn = some q) (hid : p.stream = id) (hpsn : p.psn = psn) :
    heldTx (sendPacket w p retx s) w id psn = some (timed s q) := by
  refine Eq.trans (heldTx_of_tx ?_) (heldTx_updTx (f := timed s) (fun _ => ⟨rfl, rfl⟩) h)
  cases hup : portUp s w with
  | false => rw [sendPacket_down hup, hid, hpsn]
  | true =>
    obtain ⟨f, hf⟩ := sendPacket_up (p := p) (retx := retx) hup
    rw [hf, hid, hpsn, Welt.setR_tx]

theorem sendPacket_up_out (h : portUp s w = true) :
    ((sendPacket w p retx s).welt w).out.length = (s.welt w).out.length + 1 := by
  obtain ⟨f, hf⟩ := sendPacket_up (p := p) (retx := retx) h
  rw [hf]
  rfl

theorem sendPacket_up_counted (h : portUp s w = true) :
    ((sendPacket w p false s).welt w).r 0x008 = counterAdd ((s.welt w).r 0x008) 1 := by
  obtain ⟨f, hf⟩ := sendPacket_up (p := p) (retx := false) h
  rw [hf]
  exact Welt.setR_r ..

theorem sendPacket_down_out (h : portUp s w = false) : ((sendPacket w p retx s).welt w).out = (s.welt w).out := by
  rw [sendPacket_down h, updTx, updWelt_welt]

end Send

/-! ## WELT_PACKET_SEND (R510, R438, R746) -/

section Station
variable {s s1 : State} {w : Nat} {a : Arrival} (hw : w < 8) (h : nextArrival s (fun x => x.station = weltStation w ∧ x.port = 5) a s1)
include hw h

/-- The station takes the flit that is next, and goes on while no packet is framed. -/
theorem exec_weltPacketSend : exec (.weltPacketSend w) s = .next (match stationFlit w a.flit s1 with
    | (true, u) => u
    | (false, u) => takeFlits w (s.arrivals.length - 1) u) := by
  have htake : takeArrival (fun a => decide (a.station = weltStation w) && decide (a.port = 5)) s = some (a, s1) :=
    takeArrival_nextArrival h (by simp)
  obtain ⟨l, r, harr, -⟩ := h
  have hlen : s.arrivals.length = s.arrivals.length - 1 + 1 := by
    rw [harr, List.length_append, List.length_cons]
    omega
  have hsend : packetSend w s = (match stationFlit w a.flit s1 with
      | (true, u) => u
      | (false, u) => takeFlits w (s.arrivals.length - 1) u) := by
    rw [packetSend, hlen, takeFlits, htake]
    rfl
  exact congrArg Host.Outcome.next ((if_pos hw).trans hsend)

/-- A last flit frames its packet, which is sent. -/
theorem exec_weltPacketSend_last {id psn : Nat} {p : TxPkt} (huse : a.flit.use = .welt id psn true) (herr : a.flit.err = false)
    (hp : heldTx s w id psn = some p) : exec (.weltPacketSend w) s = .next (sendPacket w p false s1) := by
  have hp1 : heldTx s1 w id psn = some p :=
    (heldTx_of_tx (congrArg Welt.tx (welt_of_within (nextArrival_within h) (by decide) w))).trans hp
  have hflit : stationFlit w a.flit s1 = (true, sendPacket w p false s1) := by
    simp [stationFlit, huse, hp1, herr]
  rw [exec_weltPacketSend hw h, hflit]

/-- A flit that frames nothing, with no other behind it. -/
theorem exec_weltPacketSend_only {u : State} (hall : s.arrivals = [a]) (hflit : stationFlit w a.flit s1 = (false, u)) :
    exec (.weltPacketSend w) s = .next u := by
  rw [exec_weltPacketSend hw h, hflit, hall]
  rfl

end Station

/-- A damaged flit ends the descriptor of its packet, which leaves the transmit buffer. -/
theorem stationFlit_damaged {s : State} {w id psn : Nat} {last : Bool} {f : Flit} {p : TxPkt} (huse : f.use = .welt id psn last)
    (herr : f.err = true) (hp : heldTx s w id psn = some p) :
    ∃ u, stationFlit w f s = (false, u) ∧ heldTx u w id psn = none ∧ (u.welt w).out = (s.welt w).out := by
  have hwelt : (descFault p.core p.slot 1 1 (flitAddr f) true (dropTx w id psn s)).welt w = (dropTx w id psn s).welt w :=
    welt_of_within (descFault_within (List.Subset.refl _) (.refl ..) ..) (by decide) w
  refine ⟨descFault p.core p.slot 1 1 (flitAddr f) true (dropTx w id psn s), by simp [stationFlit, huse, hp, herr], ?_, ?_⟩
  · exact (heldTx_of_tx (congrArg Welt.tx hwelt)).trans heldTx_dropTx
  · rw [hwelt, dropTx, updWelt_welt]
    rfl

theorem stationFlit_foreign {s : State} {w id psn : Nat} {last : Bool} {f : Flit}
    (h : f.use = .none ∨ (f.use = .welt id psn last ∧ heldTx s w id psn = none)) :
    stationFlit w f s = (false, count (weltStation w) 0x5028 1 s) := by
  obtain huse | ⟨huse, hp⟩ := h
  · simp [stationFlit, huse]
  · simp [stationFlit, huse, hp]

/-! ## RETRANSMISSION_TIMEOUT (R519, R520, R522) -/

section Timeout
variable {s : State} {w id psn d : Nat} {p : TxPkt}

/-- The packet is looked for on the planes in turn. -/
theorem exec_retransmissionTimeout (hw : w < 8) (hid : id < 16384) (hp : heldTx s w id psn = some p)
    (hfirst : ∀ v, v < w → heldTx s v id psn = none) : exec (.retransmissionTimeout id psn) s = .next (packetTimeout w p s) := by
  have hfind : (List.range 8).find? (fun w => (heldTx s w id psn).isSome) = some w :=
    findBelow_first hw (by rw [hp]; rfl) fun v hv => by rw [hfirst v hv]; rfl
  have hrun : retransmission id psn s = packetTimeout w p s := by
    rw [retransmission, if_pos hid]
    simp only [hfind, hp]
  exact congrArg Host.Outcome.next hrun

theorem packetTimeout_early (hd : p.sentAt = some d) (h : s.tb ≤ d + p.rto * 1000) : packetTimeout w p s = s := by
  simp [packetTimeout, hd, h]

theorem packetTimeout_fails (hd : p.sentAt = some d) (h : d + p.rto * 1000 < s.tb) (hpark : p.parked = false)
    (hmax : p.limit ≤ p.retries) : packetTimeout w p s = failStream p.stream 4 s := by
  simp [packetTimeout, hd, Nat.not_le.mpr h, hpark, hmax]

/-- A packet whose attempt has been counted, unless PARKED answered it. -/
def triedAgain (q : TxPkt) : TxPkt := { q with retries := if q.parked then q.retries else q.retries + 1, parked := false }

theorem packetTimeout_sends (hd : p.sentAt = some d) (h : d + p.rto * 1000 < s.tb) (hmay : p.parked = true ∨ p.retries < p.limit) :
    packetTimeout w p s = (sendPacket w p true (updTx w p.stream p.psn triedAgain s)).updStream p.stream
      (fun t => { t with retx := t.retx + 1 }) := by
  have hlimit : ¬ (p.parked = false ∧ p.limit ≤ p.retries) := by
    rintro ⟨hpark, hmax⟩
    obtain hp | hlt := hmay
    · exact absurd (hp.symm.trans hpark) (by decide)
    · omega
  simp only [packetTimeout, hd]
  rw [if_neg (Nat.not_le.mpr h), if_neg hlimit]
  rfl

end Timeout

theorem failStream_stream (id why : Nat) (s : State) :
    ((failStream id why s).stream id).state = 4 ∧ ((failStream id why s).stream id).fwhy = why := by
  rw [failStream, stream_of_within (logEvent_fmnOnly ..) (by decide), updStream_stream]
  exact ⟨rfl, rfl⟩

/-- Each kind of flit is its lemma on `stationFlit`, and each expiry of a timer one on `packetTimeout`. -/
theorem weltPacketsAreSent : Claims.WeltPacketsAreSent := by
  intro s s1 w id psn d last a p hw
  refine ⟨fun hnext => ?_, fun hid hp hfirst hd => ?_⟩
  · have hin := nextArrival_within hnext
    have hwelt : s1.welt w = s.welt w := welt_of_within hin (by decide) w
    have htb : s1.tb = s.tb := hin.out .tb (by decide)
    have hboot : s1.boot = s.boot := hin.out .boot (by decide)
    have hheld : heldTx s1 w id psn = heldTx s w id psn := heldTx_of_tx (congrArg Welt.tx hwelt)
    have hport : portUp s1 w = portUp s w := portUp_of_within hin (by decide) w
    refine ⟨fun huse herr hp => ?_, fun huse herr hp hall => ?_, fun huse hall => ?_⟩
    · obtain ⟨hpid, hppsn⟩ := heldTx_names hp
      rw [exec_weltPacketSend_last hw hnext huse herr hp]
      refine ⟨fun hup => ⟨_, rfl, ?_, ?_, ?_⟩, fun hdown => ⟨_, rfl, ?_⟩⟩
      · rw [sendPacket_up_out (hport.trans hup), hwelt]
      · rw [sendPacket_up_counted (hport.trans hup), hwelt]
      · rw [sendPacket_held (hheld.trans hp) hpid hppsn, timed, htb, hboot]
      · rw [sendPacket_down_out (hport.trans hdown), hwelt]
    · obtain ⟨u, hflit, hgone, hout⟩ := stationFlit_damaged huse herr (hheld.trans hp)
      exact ⟨u, exec_weltPacketSend_only hw hnext hall hflit, hgone, by rw [hout, hwelt]⟩
    · exact exec_weltPacketSend_only hw hnext hall (stationFlit_foreign (by rwa [hheld]))
  · obtain ⟨hpid, hppsn⟩ := heldTx_names hp
    rw [exec_retransmissionTimeout hw hid hp hfirst]
    refine ⟨fun hearly => ?_, fun hlate hpark hmax => ⟨_, rfl, ?_⟩, fun hlate hmay => ⟨_, rfl, ?_, ?_, ?_⟩⟩
    · rw [packetTimeout_early hd hearly]
    · rw [packetTimeout_fails hd hlate hpark hmax, hpid]
      exact failStream_stream id 4 s
    · rw [packetTimeout_sends hd hlate hmay, hpid, updStream_stream,
        stream_of_within (sendPacket_within (List.Subset.refl _) (updTx_within (List.Subset.refl _) (.refl _ s) ..) ..) (by decide)]
    · intro hup
      rw [packetTimeout_sends hd hlate hmay, updStream_welt, sendPacket_up_out ((updTx_portUp w).trans hup), updTx, updWelt_welt]
    · rw [packetTimeout_sends hd hlate hmay]
      refine Eq.trans (heldTx_of_tx rfl) ((sendPacket_held (q := triedAgain p) ?_ hpid hppsn).trans rfl)
      rw [hpid, hppsn]
      exact heldTx_updTx (fun _ => ⟨rfl, rfl⟩) hp

/-! ## PORT_DOWN and PORT_UP (R525, R659, R660) -/

section Ports
variable {s : State} {w : Nat}

theorem portUp_updWelt_ne {v : Nat} (h : v ≠ w) (f : Welt → Welt) : portUp (s.updWelt w f) v = portUp s v :=
  portUp_of_reg (congrArg Welt.reg (updWelt_ne s f h.symm))

theorem portDown_up (h : portUp s w = true) :
    portUp (portDown w s) w = false ∧ ∀ v, v ≠ w → portUp (portDown w s) v = portUp s v := by
  have hlog : ∀ v, portUp (portDown w s) v = portUp (s.updWelt w (fun y => y.setR 0 (BitVec.ofNat 64 ((y.r 0).toNat / 2 * 2)))) v := by
    rw [portDown, if_pos h]
    exact portUp_of_within (logEvent_fmnOnly ..) (by decide)
  refine ⟨?_, fun v hv => ?_⟩
  · rw [hlog, portUp, updWelt_welt, Welt.setR_r, decide_eq_false_iff_not, BitVec.toNat_ofNat]
    omega
  · rw [hlog, portUp_updWelt_ne hv]

theorem portDown_down (h : portUp s w = false) : portDown w s = s := by simp [portDown, h]

/-- A port that has trained is up, and no longer mapped out. -/
theorem portTrained_up (hon : s.board.wetarOn = true) (hstep : s.boot.step = 11) (hdown : portUp s w = false)
    (hmap : bit (leNat (((s.recd 2).body.drop 0x92).take 1)) w = false) :
    portUp (portTrained w s) w = true ∧ bit (portTrained w s).boot.weltOut w = false := by
  rw [portTrained, if_pos (by simp [hon, hstep, hdown, hmap])]
  constructor
  · rw [portUp_of_within (logEvent_fmnOnly ..) (by decide),
      portUp_of_within (recheck_within (List.Subset.refl _) (Within.set_boot (List.Subset.refl _) (.refl ..))) (by decide),
      portUp, updWelt_welt, Welt.setR_r, decide_eq_true_eq, BitVec.toNat_ofNat]
    omega
  · rw [(logEvent_fmnOnly ..).out .boot (by decide)]
    change bit (setBits s.boot.weltOut w w 0) w = false
    rw [bit_eq_testBit, testBit_setBits (Nat.le_refl w), if_neg (Nat.lt_irrefl w), if_pos (Nat.le_refl w), Nat.zero_testBit]

theorem portTrained_out (hmap : bit (leNat (((s.recd 2).body.drop 0x92).take 1)) w = true) : portTrained w s = s := by
  simp [portTrained, hmap]

end Ports

theorem portsGoDownAndUp : Claims.PortsGoDownAndUp := by
  intro s w hw
  have hexecDown : exec (.portDown w) s = .next (portDown w s) := congrArg Host.Outcome.next (if_pos hw)
  have hexecUp : exec (.portUp w) s = .next (portTrained w s) := congrArg Host.Outcome.next (if_pos hw)
  exact ⟨fun hup => ⟨_, hexecDown, portDown_up hup⟩, fun hdown => by rw [hexecDown, portDown_down hdown], fun hon hstep hdown =>
    ⟨fun hmap => ⟨_, hexecUp, portTrained_up hon hstep hdown hmap⟩, fun hmap => by rw [hexecUp, portTrained_out hmap]⟩⟩

/-- Settles O45: a packet that is sent is `sendPacket_held` with `sendPacket_up` or `sendPacket_down`; a port is bit 0 of its first
register. -/
theorem weltSendsAndPorts : Obligations.WeltSendsAndPorts := ⟨weltPacketsAreSent, portsGoDownAndUp⟩

end Sys2Proof.LinkProofs
end

section
/-! PROOFS. O46: frames are checked, and data packets enter the receive buffer. -/

namespace Sys2Proof.LinkProofs
open Sys2Proof Sys2Proof.Machine Sys2Proof.Laws Sys2Proof.ModuleProofs Sys2Proof.ChannelProofs

/-! ## Acknowledging (R501, R517) -/

section Ack
variable {s : State} {id v : Nat}

/-- Of the streams, an ACK resets the acknowledging one's count. -/
theorem sendAck_stream (j : Nat) : (sendAck id v s).stream j = (s.updStream id (fun t => { t with unacked := 0 })).stream j :=
  stream_of_within (transmit_within (List.Subset.refl _) (.refl ..) ..) (by decide) j

theorem sendAck_unacked : ((sendAck id v s).stream id).unacked = 0 := by
  rw [sendAck_stream, updStream_stream]

theorem sendAck_bytes : ((sendAck id v s).stream id).bytes = (s.stream id).bytes := by
  rw [sendAck_stream, updStream_stream]

/-- Of the ports, an ACK changes the frames sent. -/
theorem sendAck_welt (j : Nat) : ∃ l, (sendAck id v s).welt j = { s.welt j with out := l } := transmit_welt (s := s.updStream id _) ..

end Ack

/-! ## The checks of the frame (R493, R513) -/

section Checks
variable {s : State} {w : Nat} {f : Frame} (hup : portUp s w = true)
include hup

theorem frameReceive_lost (hfec : f.fec = 2) : frameReceive w f s = weltCount w 0x058 1 s := by
  simp [frameReceive, hup, hfec]

theorem frameReceive_long (hfec : f.fec = 0) (hlen : 4154 < frameBytes f) : frameReceive w f s = s := by
  simp [frameReceive, hup, hfec, hlen]

/-- The checks of a frame with no damaged codeword that the MAC takes. -/
theorem frameReceive_checks (hfec : f.fec = 0) (hlen : frameBytes f ≤ 4154) : frameReceive w f s =
    if f.etype ≠ s.boot.etype ∨ f.header.length ≠ 32 ∨ hdrField f 0 1 % 16 ≠ 1 ∨ 3 < hdrField f 0 1 / 16 ∨
        f.icrc ≠ icrcOf (f.header ++ f.payload) ∨ hdrField f 2 2 ≠ f.payload.length ∨ 4096 < f.payload.length then
      weltCount w 0x040 1 s
    else if hdrField f 8 4 % 2 ^ 14 ≠ moduleNo s then weltCount w 0x040 1 s
    else if hdrField f 0 1 / 16 = 3 then rxMgmt w f (weltCount w 0x048 1 s)
    else if hdrField f 0 1 / 16 = 0 then rxData w f (wake s)
    else rxAnswer (decide (hdrField f 0 1 / 16 = 1)) f s := by
  have hone : (if f.fec = 1 then weltCount w 0x050 1 s else s) = s := if_neg (by rw [hfec]; decide)
  rw [frameReceive, if_neg (by rw [hup]; decide), if_neg (by rw [hfec]; decide)]
  dsimp only
  rw [hone, if_neg (Nat.not_lt.mpr hlen)]

/-- A damaged frame and a frame for another module are counted alike. -/
theorem frameReceive_dropped (hfec : f.fec = 0) (hlen : frameBytes f ≤ 4154)
    (h : f.etype ≠ s.boot.etype ∨ f.icrc ≠ icrcOf (f.header ++ f.payload) ∨ hdrField f 2 2 ≠ f.payload.length ∨
      4096 < f.payload.length ∨ hdrField f 8 4 % 2 ^ 14 ≠ moduleNo s) : frameReceive w f s = weltCount w 0x040 1 s := by
  rw [frameReceive_checks hup hfec hlen]
  split
  · rfl
  · next hsound => exact if_pos (by tauto)

/-- A sound frame of type DATA wakes the module and goes on to the checks of its stream. -/
theorem frameReceive_data (h : soundFrame s f 0) : frameReceive w f s = rxData w f (wake s) := by
  obtain ⟨hfec, hetype, hheader, htype, -, hicrc, hlen, hmod, hmax, hbytes⟩ := h
  rw [frameReceive_checks hup hfec hbytes, if_neg (by simp [hetype, hheader, htype, ← hicrc, hlen, hmax]),
    if_neg (not_not.mpr hmod), if_neg (by rw [htype]; decide), if_pos (by rw [htype])]

end Checks

/-! ## The checks of the stream (R513, R514, R521) -/

/-- The stream that a frame is for. -/
def destStream (f : Frame) : Nat := hdrField f 8 4 / 2 ^ 14 % 2 ^ 14

/-- A DATA frame comes from the peer of the receive stream that it is for, whose partition is not being reset. -/
structure FromPeer (s : State) (f : Frame) : Prop where
  receives : (s.stream (destStream f)).state = 2
  peer : (s.stream (destStream f)).peer = hdrField f 4 4 % 2 ^ 14
  pstr : (s.stream (destStream f)).pstr = hdrField f 4 4 / 2 ^ 14 % 2 ^ 14
  steady : (s.part (s.stream (destStream f)).part).resetting = false

/-- Port w's counter `o` has counted one, and its receive buffer is as it was. -/
def Counted (w o : Nat) (s u : State) : Prop := (u.welt w).rx = (s.welt w).rx ∧ (u.welt w).r o = counterAdd ((s.welt w).r o) 1

section Counted
variable {s u : State} {w o : Nat}

theorem weltCount_counted (h : u.welt w = s.welt w) : Counted w o s (weltCount w o 1 u) := by
  rw [Counted, weltCount_welt, h]
  exact ⟨rfl, Welt.setR_r ..⟩

theorem Counted.sendAck (h : Counted w o s u) (id v : Nat) : Counted w o s (sendAck id v u) := by
  obtain ⟨l, hl⟩ := sendAck_welt (s := u) (id := id) (v := v) w
  rw [Counted, hl]
  exact h

theorem sendNak_counted (h : u.welt w = s.welt w) (id mod str psn reason : Nat) :
    Counted w 0x038 s (sendNak w id mod str psn reason u) := by
  obtain ⟨l, hl⟩ := transmit_welt (s := u) (w := w) (header 2 false false w 0 (moduleNo u) id mod str psn reason) [] w
  rw [sendNak, Counted, weltCount_welt, hl, h]
  exact ⟨rfl, Welt.setR_r ..⟩

end Counted

section Stream
variable {s : State} {w : Nat} {f : Frame}

theorem rxData_noStream (h : (s.stream (destStream f)).state ≠ 2) : Counted w 0x038 s (rxData w f s) := by
  have hnak : rxData w f s = sendNak w (destStream f) (hdrField f 4 4 % 2 ^ 14) (hdrField f 4 4 / 2 ^ 14 % 2 ^ 14) (hdrField f 0xC 4) 1 s :=
    if_pos (.inl h)
  rw [hnak]
  exact sendNak_counted rfl ..

variable (h : FromPeer s f)
include h

/-- The checks after those of the sender. -/
theorem rxData_fromPeer : rxData w f s =
    (let st := s.stream (destStream f)
     let d := psnFrom st.next (hdrField f 0xC 4)
     let a := hdrField f 0x10 6
     let nak := fun (r : Nat) => sendNak w (destStream f) (hdrField f 4 4 % 2 ^ 14) (hdrField f 4 4 / 2 ^ 14 % 2 ^ 14) (hdrField f 0xC 4) r s
     if 2 ^ 31 ≤ d ∨ st.got.contains (hdrField f 0xC 4) then
       sendAck (destStream f) w (weltCount w 0x020 1 (s.updStream (destStream f) (fun t => { t with retx := t.retx + 1 })))
     else if 4096 ≤ d then weltCount w 0x028 1 s
     else if a < st.wbase ∨ st.wbase + st.wlen < a + f.payload.length then nak 2
     else if weltAbsorbed s st a then (match portMap s (leadOf (s.part st.part)) a true with
       | some m => absorb ((homeBench m).getD 0) s
       | none => s)
     else if streamRuns s st = false then nak 4
     else if 2 ^ 23 < (s.welt w).rxUsed + f.payload.length then weltCount w 0x030 1 s
     else weltCount w 0x018 1 ((s.updStream (destStream f) (fun t => { t with got := hdrField f 0xC 4 :: t.got })).updWelt w (fun y =>
       { y with
         rx := y.rx ++ [{ stream := destStream f, psn := hdrField f 0xC 4, daddr := a, data := f.payload, sent := 0, wrote := 0 }]
         rxUsed := y.rxUsed + f.payload.length }))) := by
  obtain ⟨hstate, hpeer, hpstr, hsteady⟩ := h
  refine (if_neg ?_).trans ((if_neg ?_).trans rfl)
  · exact not_or.mpr ⟨not_not.mpr hstate, not_or.mpr ⟨not_not.mpr hpeer, not_not.mpr hpstr⟩⟩
  · exact Bool.eq_false_iff.mp hsteady

theorem rxData_repeated (hd : 2 ^ 31 ≤ psnFrom (s.stream (destStream f)).next (hdrField f 0xC 4) ∨
    hdrField f 0xC 4 ∈ (s.stream (destStream f)).got) : Counted w 0x020 s (rxData w f s) := by
  rw [rxData_fromPeer h]
  dsimp only
  rw [if_pos (by simpa using hd)]
  exact Counted.sendAck (weltCount_counted (updStream_welt ..)) ..

variable (hlow : psnFrom (s.stream (destStream f)).next (hdrField f 0xC 4) < 2 ^ 31)
  (hnew : hdrField f 0xC 4 ∉ (s.stream (destStream f)).got)
include hlow hnew

theorem rxData_beyond (hd : 4096 ≤ psnFrom (s.stream (destStream f)).next (hdrField f 0xC 4)) : Counted w 0x028 s (rxData w f s) := by
  rw [rxData_fromPeer h]
  dsimp only
  rw [if_neg (by simpa [hnew] using hlow), if_pos hd]
  exact weltCount_counted rfl

/-- What an accepted packet leaves. -/
structure Accepted (s : State) (w : Nat) (f : Frame) (u : State) : Prop where
  rx : (u.welt w).rx = (s.welt w).rx ++ [⟨destStream f, hdrField f 0xC 4, hdrField f 0x10 6, f.payload, 0, 0⟩]
  got : (u.stream (destStream f)).got = hdrField f 0xC 4 :: (s.stream (destStream f)).got
  counted : (u.welt w).r 0x018 = counterAdd ((s.welt w).r 0x018) 1

omit hlow in
theorem rxData_accepted (hd : psnFrom (s.stream (destStream f)).next (hdrField f 0xC 4) < 4096)
    (hbase : (s.stream (destStream f)).wbase ≤ hdrField f 0x10 6)
    (hend : hdrField f 0x10 6 + f.payload.length ≤ (s.stream (destStream f)).wbase + (s.stream (destStream f)).wlen)
    (habs : weltAbsorbed s (s.stream (destStream f)) (hdrField f 0x10 6) = false) (hruns : streamRuns s (s.stream (destStream f)) = true)
    (hroom : (s.welt w).rxUsed + f.payload.length ≤ 2 ^ 23) : Accepted s w f (rxData w f s) := by
  rw [rxData_fromPeer h]
  dsimp only
  rw [if_neg (by simpa [hnew] using hd.trans (by decide : 4096 < 2 ^ 31)), if_neg (Nat.not_le.mpr hd), if_neg (by omega),
    if_neg (by rw [habs]; decide), if_neg (by rw [hruns]; decide), if_neg (Nat.not_lt.mpr hroom)]
  refine ⟨?_, ?_, ?_⟩
  · rw [weltCount_welt, updWelt_welt]
    rfl
  · exact congrArg Machine.Stream.got (updStream_stream s (destStream f) fun t => { t with got := hdrField f 0xC 4 :: t.got })
  · rw [weltCount_welt, Welt.setR_r, updWelt_welt]
    rfl

end Stream

/-! ## What a wake leaves of the checks (R613) -/

theorem wake_welt (s : State) (w : Nat) : (wake s).welt w = s.welt w :=
  welt_of_within (wake_within (List.Subset.refl _) (.refl _ s)) (by decide) w

theorem wake_weltAbsorbed (s : State) (st : Stream) (a : Nat) : weltAbsorbed (wake s) st a = weltAbsorbed s st a := by
  unfold wake
  split <;> rfl

theorem wake_streamRuns (s : State) (st : Stream) : streamRuns (wake s) st = streamRuns s st := by
  simp only [streamRuns, wake_part]

theorem FromPeer.wake {s : State} {f : Frame} (h : FromPeer s f) : FromPeer (wake s) f := by
  obtain ⟨hstate, hpeer, hpstr, hsteady⟩ := h
  constructor <;> simpa only [wake_stream, wake_part]

/-- Each frame meets its lemma on `frameReceive`; a sound one of type DATA then meets one on `rxData`, in the awakened module. -/
theorem weltFramesAreChecked : Claims.WeltFramesAreChecked := by
  intro s w f hw hup id psn a st
  have hexec : exec (.weltFrameReceive w f) s = .next (frameReceive w f s) := congrArg Host.Outcome.next (if_pos hw)
  have hst : (wake s).stream (destStream f) = st := wake_stream ..
  have hwelt := wake_welt s w
  refine ⟨fun hfec => ?_, fun hfec hlen => ?_, fun hfec hlen h => ?_, fun hsound => ?_⟩
  · rw [hexec, frameReceive_lost hup hfec]
  · rw [hexec, frameReceive_long hup hfec hlen]
  · rw [hexec, frameReceive_dropped hup hfec hlen h]
  · rw [hexec, frameReceive_data hup hsound, ← hwelt]
    refine ⟨fun hstate => ⟨_, rfl, rxData_noStream (by rwa [hst])⟩, fun hstate hpeer hpstr hsteady => ?_⟩
    have hfrom : FromPeer (wake s) f := FromPeer.wake ⟨hstate, hpeer, hpstr, hsteady⟩
    refine ⟨fun hd => ⟨_, rfl, rxData_repeated hfrom (by rwa [hst])⟩, fun hnew hfar hlow =>
      ⟨_, rfl, rxData_beyond hfrom (by rwa [hst]) (by rwa [hst]) (by rwa [hst])⟩, fun hnew hd hbase hend habs hruns hroom => ?_⟩
    obtain ⟨hrx, hgot, hcount⟩ := rxData_accepted (w := w) hfrom (by rwa [hst])
      (by rwa [hst]) (by rwa [hst]) (by rwa [hst]) (by rwa [wake_weltAbsorbed, hst]) (by rwa [wake_streamRuns, hst]) hroom
    exact ⟨_, rfl, hrx, hgot.trans (congrArg (psn :: ·.got) hst), hcount⟩

end Sys2Proof.LinkProofs
end

section
/-! PROOFS. O46: the packets of the receive buffers are counted and acknowledged. -/

namespace Sys2Proof.LinkProofs
open Sys2Proof Sys2Proof.Machine Sys2Proof.Laws Sys2Proof.ModuleProofs Sys2Proof.ChannelProofs

/-! ## The one packet of its name (R514) -/

/-- `p` stands between `l` and `r` in port w's receive buffer, and no other packet of any port has its stream and PSN. -/
structure OnlyPacket (s : State) (w : Nat) (p : RxPkt) (l r : List RxPkt) : Prop where
  plane : w < 8
  rx : (s.welt w).rx = l ++ p :: r
  alone : ∀ x, x ∈ l ++ r → ¬ (x.stream = p.stream ∧ x.psn = p.psn)
  others : ∀ v, v < 8 → v ≠ w → ∀ x, x ∈ (s.welt v).rx → ¬ (x.stream = p.stream ∧ x.psn = p.psn)

/-- The packets of a stream and PSN that `q` holds of. -/
def named (id psn : Nat) (q : RxPkt → Bool) (x : RxPkt) : Bool := decide (x.stream = id) && decide (x.psn = psn) && q x

section Only
variable {s : State} {w : Nat} {p : RxPkt} {l r : List RxPkt} {q : RxPkt → Bool}

theorem named_self (hq : q p = true) : named p.stream p.psn q p = true := by simp [named, hq]

theorem named_other {x : RxPkt} (h : ¬ (x.stream = p.stream ∧ x.psn = p.psn)) : named p.stream p.psn q x = false := by
  rw [named, ← Bool.decide_and, decide_eq_false h, Bool.false_and]

variable (h : OnlyPacket s w p l r)
include h

theorem OnlyPacket.plane_found (hq : q p = true) : (List.range 8).find? (fun v => (s.welt v).rx.any (named p.stream p.psn q)) = some w := by
  refine findBelow_first h.plane ?_ fun v hv => List.any_eq_false.mpr fun x hx => ?_
  · rw [h.rx]
    simp [named_self hq]
  · rw [named_other (h.others v (hv.trans h.plane) (Nat.ne_of_lt hv) x hx)]
    decide

theorem OnlyPacket.no_plane (hq : q p = false) : (List.range 8).find? (fun v => (s.welt v).rx.any (named p.stream p.psn q)) = none := by
  refine findBelow_none fun v hv => List.any_eq_false.mpr fun x hx => ?_
  by_cases hx' : x.stream = p.stream ∧ x.psn = p.psn
  · obtain rfl : v = w := by_contra fun hne => h.others v hv hne x hx hx'
    rw [h.rx] at hx
    obtain hl | hxp | hr := by simpa using hx
    · exact absurd hx' (h.alone x (List.mem_append_left r hl))
    · simp [hxp, named, hq]
    · exact absurd hx' (h.alone x (List.mem_append_right l hr))
  · rw [named_other hx']
    decide

theorem OnlyPacket.found (hq : q p = true) : (s.welt w).rx.find? (named p.stream p.psn q) = some p := by
  have hl : l.find? (named p.stream p.psn q) = none :=
    List.find?_eq_none.mpr fun x hx => by rw [named_other (h.alone x (List.mem_append_left r hx))]; decide
  rw [h.rx, List.find?_append, hl, Option.none_or, List.find?_cons_of_pos (named_self hq)]

theorem OnlyPacket.removed (hq : q p = true) : (s.welt w).rx.filter (fun x => !named p.stream p.psn q x) = l ++ r := by
  have hkeep : ∀ x ∈ l ++ r, (!named p.stream p.psn q x) = true := fun x hx => by rw [named_other (h.alone x hx)]; rfl
  rw [h.rx, List.filter_append, List.filter_cons_of_neg (by rw [named_self hq]; decide), ← List.filter_append]
  exact List.filter_eq_self.mpr hkeep

end Only

/-! ## PACKET_COUNTED and RX_BUFFER_UNCORRECTABLE (R515, R516) -/

/-- Its place in the receive buffer is free. -/
def freed (w : Nat) (q : RxPkt → Bool) (len : Nat) (s : State) : State :=
  s.updWelt w (fun y => { y with rx := y.rx.filter (fun x => !q x), rxUsed := y.rxUsed - len })

/-- A packet of `len` bytes is counted: ACKBASE advances, and the arrival tally is given its bytes (R516). -/
def tallied (w id psn len : Nat) (s u : State) : State :=
  let st := s.stream id
  let b := advanceBase 4096 st.next (psn :: st.done)
  toSlice (st.tally / 512) (coreNow s) 5 (engineAdd st.tally len (4 * (st.tally / 512)) 3 2 5) (u.updStream id (fun t =>
    { t with
      next := b.1, done := b.2, got := t.got.filter (fun p => decide (psnFrom b.1 p < 2 ^ 31)), bytes := t.bytes + len, lastPlane := w
      firstAt := if t.unacked = 0 then s.tb else t.firstAt, unacked := t.unacked + 1 }))

/-- All bytes of a packet are written. -/
def written (x : RxPkt) : Bool := decide (x.wrote = x.data.length)

/-- Nothing of a packet has been injected. -/
def unsent (x : RxPkt) : Bool := decide (x.sent = 0)

theorem insertTally_length (i : TallyIn) (l : List TallyIn) : (insertTally i l).length = l.length + 1 := by
  induction l with
  | nil => rfl
  | cons j r ih =>
    rw [insertTally]
    split
    · rfl
    · rw [List.length_cons, ih, List.length_cons]

section Count
variable {s : State} {w : Nat} {p : RxPkt} {l r : List RxPkt} (h : OnlyPacket s w p l r)
include h

theorem packetCounted_unwritten (hw : p.wrote < p.data.length) : packetCounted p.stream p.psn s = s := by
  have hfind : (List.range 8).find? (fun v => (s.welt v).rx.any fun x =>
      decide (x.stream = p.stream) && decide (x.psn = p.psn) && decide (x.wrote = x.data.length)) = none :=
    h.no_plane (q := written) (decide_eq_false (Nat.ne_of_lt hw))
  simp only [packetCounted, hfind]

theorem packetCounted_written (hw : p.wrote = p.data.length) (hst : (s.stream p.stream).state = 2)
    (hprog : (s.stream p.stream).prog = 0 ∨ (s.part (s.stream p.stream).part).cur = (s.stream p.stream).prog) :
    packetCounted p.stream p.psn s =
      (let u := tallied w p.stream p.psn p.data.length s (freed w (named p.stream p.psn written) p.data.length s)
       if 16 ≤ (s.stream p.stream).unacked + 1 then sendAck p.stream w u else u) := by
  have hq : written p = true := decide_eq_true hw
  have hfind : (List.range 8).find? (fun v => (s.welt v).rx.any fun x =>
      decide (x.stream = p.stream) && decide (x.psn = p.psn) && decide (x.wrote = x.data.length)) = some w := h.plane_found hq
  have hp : (s.welt w).rx.find? (fun x =>
      decide (x.stream = p.stream) && decide (x.psn = p.psn) && decide (x.wrote = x.data.length)) = some p := h.found hq
  have hgo : ¬ ((s.stream p.stream).state ≠ 2 ∨ ((s.stream p.stream).prog ≠ 0 ∧
      (s.part (s.stream p.stream).part).cur ≠ (s.stream p.stream).prog)) := by tauto
  simp only [packetCounted, hfind, hp]
  rw [if_neg hgo]
  rfl

/-- What the count of a packet leaves: its place is free, and its bytes are the stream's and on their way to the arrival tally. -/
structure PacketGone (s : State) (w : Nat) (p : RxPkt) (l r : List RxPkt) (u : State) : Prop where
  rx : (u.welt w).rx = l ++ r
  bytes : (u.stream p.stream).bytes = (s.stream p.stream).bytes + p.data.length
  tally : (u.bench ((s.stream p.stream).tally / 512)).tallyIn.length = (s.bench ((s.stream p.stream).tally / 512)).tallyIn.length + 1

theorem tallied_gone (hw : p.wrote = p.data.length) : PacketGone s w p l r
    (tallied w p.stream p.psn p.data.length s (freed w (named p.stream p.psn written) p.data.length s)) := by
  refine ⟨?_, ?_, ?_⟩
  · refine Eq.trans ?_ (h.removed (q := written) (decide_eq_true hw))
    rw [tallied, welt_of_within (toSlice_within (List.Subset.refl _) (.refl ..) ..) (by decide), updStream_welt, freed, updWelt_welt]
  · rw [tallied, stream_of_within (toSlice_within (List.Subset.refl _) (.refl ..) ..) (by decide), updStream_stream]
    rfl
  · rw [tallied, toSlice, updBench_bench]
    exact insertTally_length ..

omit h in
theorem PacketGone.sendAck {u : State} (hu : PacketGone s w p l r u) : PacketGone s w p l r (sendAck p.stream w u) := by
  obtain ⟨hrx, hbytes, htally⟩ := hu
  obtain ⟨k, hk⟩ := sendAck_welt (s := u) (id := p.stream) (v := w) w
  refine ⟨by rw [hk, hrx], by rw [sendAck_bytes, hbytes], ?_⟩
  rw [bench_of_within (sendAck_within (List.Subset.refl _) (.refl _ u) p.stream w) (by decide), htally]

theorem packetCounted_gone (hw : p.wrote = p.data.length) (hst : (s.stream p.stream).state = 2)
    (hprog : (s.stream p.stream).prog = 0 ∨ (s.part (s.stream p.stream).part).cur = (s.stream p.stream).prog) :
    PacketGone s w p l r (packetCounted p.stream p.psn s) := by
  rw [packetCounted_written h hw hst hprog]
  dsimp only
  split
  · exact (tallied_gone h hw).sendAck
  · exact tallied_gone h hw

theorem rxUncorrectable_unsent (hs : p.sent = 0) : rxUncorrectable p.stream p.psn s =
    (freed w (named p.stream p.psn unsent) p.data.length s).updStream p.stream
      (fun t => { t with got := t.got.filter (fun x => decide (x ≠ p.psn)) }) := by
  have hq : unsent p = true := decide_eq_true hs
  have hfind : (List.range 8).find? (fun v => (s.welt v).rx.any fun x =>
      decide (x.stream = p.stream) && decide (x.psn = p.psn) && decide (x.sent = 0)) = some w := h.plane_found hq
  have hp : (s.welt w).rx.find? (fun x =>
      decide (x.stream = p.stream) && decide (x.psn = p.psn) && decide (x.sent = 0)) = some p := h.found hq
  simp only [rxUncorrectable, hfind, hp]
  rfl

theorem rxUncorrectable_forgotten (hs : p.sent = 0) : ((rxUncorrectable p.stream p.psn s).welt w).rx = l ++ r ∧
    p.psn ∉ ((rxUncorrectable p.stream p.psn s).stream p.stream).got := by
  rw [rxUncorrectable_unsent h hs, updStream_stream, updStream_welt, freed, updWelt_welt]
  exact ⟨h.removed (q := unsent) (decide_eq_true hs), by simp⟩

end Count

/-! ## ACK_TIMER (R517) -/

theorem exec_ackTimer {s : State} {id : Nat} (hid : id < 16384) (hst : (s.stream id).state = 2) (hun : 0 < (s.stream id).unacked) :
    exec (.ackTimer id) s = .next (if (s.stream id).firstAt + 2000 ≤ s.tb then sendAck id (s.stream id).lastPlane s else s) := by
  have hrun : ackTimer id s = if (s.stream id).firstAt + 2000 ≤ s.tb then sendAck id (s.stream id).lastPlane s else s := by
    simp [ackTimer, hid, hst, hun]
  exact congrArg Host.Outcome.next hrun

theorem packetsAreCounted : Claims.PacketsAreCounted := by
  intro s w id psn p l r hw st
  refine ⟨?_, fun hid hst hun => ?_⟩
  · rintro hrx rfl rfl halone hothers
    have honly : OnlyPacket s w p l r := ⟨hw, hrx, halone, hothers⟩
    refine ⟨fun hwrote hst hprog => ?_, fun hwrote => ?_, fun hsent => ⟨_, rfl, rxUncorrectable_forgotten honly hsent⟩⟩
    · obtain ⟨hgone, hbytes, htally⟩ := packetCounted_gone honly hwrote hst hprog
      exact ⟨_, rfl, hgone, hbytes, htally⟩
    · exact congrArg Host.Outcome.next (packetCounted_unwritten honly hwrote)
  · rw [exec_ackTimer hid hst hun]
    exact ⟨fun hdue => ⟨by rw [if_pos hdue], sendAck_unacked⟩, fun hearly => by rw [if_neg (Nat.not_le.mpr hearly)]⟩

/-- Settles O46: the checks of a frame are `frameReceive_checks`, those of its stream `rxData_fromPeer`; a packet of the receive buffer is
found by its name alone (`OnlyPacket`). -/
theorem weltReceives : Obligations.WeltReceives := ⟨weltFramesAreChecked, packetsAreCounted⟩

end Sys2Proof.LinkProofs
end

section
/-! PROOFS. O47: the crew's messages. -/

namespace Sys2Proof.LinkProofs
open Sys2Proof Sys2Proof.Machine Sys2Proof.Laws Sys2Proof.ModuleProofs Sys2Proof.CoreProofs Sys2Proof.ChannelProofs

/-! ## What messages and events leave alone (R529, R582) -/

/-- From `s` to `u` the sessions, the logs and the frames sent may have changed, and none of these: the timebase, the ports' registers, the
crew, the mailboxes. -/
structure Talked (s u : State) : Prop where
  tb : u.tb = s.tb
  reg : ∀ j, (u.welt j).reg = (s.welt j).reg
  managed : u.fmn.managed = s.fmn.managed
  manager : u.fmn.manager = s.fmn.manager
  joined : u.fmn.joined = s.fmn.joined
  lastBeat : u.fmn.lastBeat = s.fmn.lastBeat
  mboxes : u.fmn.mboxes = s.fmn.mboxes
  nextOrder : u.fmn.nextOrder = s.fmn.nextOrder

theorem Talked.refl (s : State) : Talked s s := ⟨rfl, fun _ => rfl, rfl, rfl, rfl, rfl, rfl, rfl⟩

theorem Talked.trans {s u v : State} (h : Talked s u) (k : Talked u v) : Talked s v :=
  ⟨k.tb.trans h.tb, fun j => (k.reg j).trans (h.reg j), k.managed.trans h.managed, k.manager.trans h.manager, k.joined.trans h.joined,
    k.lastBeat.trans h.lastBeat, k.mboxes.trans h.mboxes, k.nextOrder.trans h.nextOrder⟩

section Talk
variable (s : State)

theorem transmit_talked (w : Nat) (hdr payload : List Byte) : Talked s (transmit w hdr payload s) := by
  have hk := transmit_within (List.Subset.refl _) (.refl _ s) w hdr payload
  have hfmn : (transmit w hdr payload s).fmn = s.fmn := hk.out .fmn (by decide)
  refine ⟨hk.out .tb (by decide), fun j => ?_, ?_, ?_, ?_, ?_, ?_, ?_⟩
  · obtain ⟨l, hl⟩ := transmit_welt (s := s) (w := w) hdr payload j
    rw [hl]
  all_goals rw [hfmn]

theorem updSession_talked (peer : Nat) (f : Session → Session) : Talked s (updSession peer f s) :=
  ⟨rfl, fun _ => rfl, rfl, rfl, rfl, rfl, rfl, rfl⟩

theorem sendMgmt_talked (peer psn w : Nat) (retx : Bool) (m : MgmtMsg) : Talked s (sendMgmt peer psn w retx m s) := by
  unfold sendMgmt
  split
  · exact .refl s
  · exact transmit_talked ..

theorem pumpSession_talked (peer n : Nat) : Talked s (pumpSession peer n s) := by
  induction n generalizing s with
  | zero => exact .refl s
  | succ n ih =>
    unfold pumpSession
    dsimp only
    split
    · exact .refl s
    · split
      · exact .refl s
      · exact ((updSession_talked ..).trans (sendMgmt_talked ..)).trans (ih _)

theorem sendMsg_talked (peer mtype seq code : Nat) (body : List Byte) : Talked s (sendMsg peer mtype seq code body s) :=
  (updSession_talked ..).trans (pumpSession_talked ..)

theorem sessionAck_talked (peer w : Nat) : Talked s (sessionAck peer w s) := (updSession_talked ..).trans (transmit_talked ..)

theorem logIn_talked (f : Nat) (e : Event) : Talked s (logIn f e s) := by
  unfold logIn
  dsimp only
  split
  · exact ⟨rfl, fun _ => rfl, rfl, rfl, rfl, rfl, rfl, rfl⟩
  · split <;> exact ⟨rfl, fun _ => rfl, rfl, rfl, rfl, rfl, rfl, rfl⟩

theorem logEvent_talked (code p sev : Nat) (detail : List Byte) : Talked s (logEvent code p sev detail s) :=
  forAll_keeps (Q := Talked s) (fun f u hu => hu.trans (logIn_talked u f _)) (.refl s)

end Talk

theorem Talked.updManaged {s u : State} (h : Talked s u) (k : Nat) (f : Managed → Managed) :
    Talked (updManaged k f s) (updManaged k f u) := by
  refine ⟨h.tb, h.reg, ?_, h.manager, h.joined, h.lastBeat, h.mboxes, h.nextOrder⟩
  exact congrArg (List.map fun m : Managed => if m.mod = k then f m else m) h.managed

theorem Talked.mbox {s u : State} (h : Talked s u) (m : Nat) : u.mbox m = s.mbox m := mbox_of_mboxes h.mboxes m

theorem setMgmtIn_talked (s : State) (l : List MgmtMsg) : Talked s { s with fmn := { s.fmn with mgmtIn := l } } :=
  ⟨rfl, fun _ => rfl, rfl, rfl, rfl, rfl, rfl, rfl⟩

/-! ## A message is taken (R531, R534) -/

/-- A managed module from which a message has been counted. -/
def heardFrom (s : State) (g : Managed) : Managed := { g with last := s.tb, state := if g.state = 2 then 1 else g.state }

theorem countMsg_talked (m : MgmtMsg) (s : State) : Talked (updManaged m.src (heardFrom s) s) (countMsg m s) := by
  have hack : ∀ u, Talked s u → Talked s (if 16 ≤ (sessionOf s m.src).unacked + 1 then sessionAck m.src m.port u else u) := by
    intro u hu
    split
    · exact hu.trans (sessionAck_talked ..)
    · exact hu
  have hheard := fun f => (hack _ (updSession_talked s m.src f)).updManaged m.src (heardFrom s)
  unfold countMsg
  dsimp only
  split
  · exact (hheard _).trans (logEvent_talked ..)
  · exact hheard _

/-- The next whole message is taken as it is. -/
theorem takeMsg_nextMessage {s : State} {ty : Nat} {m : MgmtMsg} (h : nextMessage s ty m) :
    ∃ u, takeMsg (fun t => decide (t = ty)) s = some (some m, u) ∧ Talked (updManaged m.src (heardFrom s) s) u := by
  obtain ⟨l, r, hin, hl, hm, hmore, hfirst⟩ := h
  have hnone : l.find? (fun x => decide (x.mtype = ty) && decide (x.psn = (sessionOf s x.src).ackbase)) = none := by
    simpa [not_and] using hl
  have hfind : s.fmn.mgmtIn.find? (fun x => decide (x.mtype = ty) && decide (x.psn = (sessionOf s x.src).ackbase)) = some m := by
    rw [hin, List.find?_append, hnone, Option.none_or, List.find?_cons_of_pos (by simpa using hm)]
  have htaken := (setMgmtIn_talked s (s.fmn.mgmtIn.erase m)).updManaged m.src (heardFrom s)
  refine ⟨countMsg m { s with fmn := { s.fmn with mgmtIn := s.fmn.mgmtIn.erase m } }, ?_, htaken.trans (countMsg_talked m _)⟩
  simp only [takeMsg, hfind, hfirst, hmore]
  rfl

/-! ## The managed modules (R533, R534) -/

/-- A managed module after a change is the same module changed. -/
theorem updManaged_mem {s : State} {k : Nat} {f : Managed → Managed} {g : Managed}
    (hg : g ∈ (updManaged k f s).fmn.managed) (hk : g.mod = k) : ∃ x, x ∈ s.fmn.managed ∧ x.mod = k ∧ g = f x := by
  obtain ⟨x, hx, rfl⟩ := List.mem_map.mp hg
  by_cases hxk : x.mod = k
  · exact ⟨x, hx, hxk, if_pos hxk⟩
  · rw [if_neg hxk] at hk
    exact absurd hk hxk

theorem updManaged_any {s : State} {k j : Nat} {f : Managed → Managed} (hf : ∀ x, (f x).mod = x.mod)
    (h : ∃ g, g ∈ s.fmn.managed ∧ g.mod = j) : (updManaged k f s).fmn.managed.any (fun g => decide (g.mod = j)) = true := by
  obtain ⟨g, hg, hgj⟩ := h
  refine List.any_eq_true.mpr ⟨_, List.mem_map_of_mem hg, decide_eq_true ?_⟩
  split
  · rw [hf, hgj]
  · exact hgj

section Messages
variable {s : State} {m : MgmtMsg}

/-- A registered module that joins is JOINED, and is answered. -/
theorem mgmtJoin_joins (h : nextMessage s 1 m) (hreg : ∃ g, g ∈ s.fmn.managed ∧ g.mod = m.src) :
    ∀ g, g ∈ (mgmtJoin s).fmn.managed → g.mod = m.src → g.state = 1 := by
  obtain ⟨v, htake, hv⟩ := takeMsg_nextMessage h
  have hany : v.fmn.managed.any (fun g => decide (g.mod = m.src)) = true := by
    rw [hv.managed]
    exact updManaged_any (fun _ => rfl) hreg
  have hrun : mgmtJoin s = logEvent 11 0xFF 0 (leBytes m.src 2)
      (sendMsg m.src 2 m.seq 0 [] (updManaged m.src (fun g => { g with state := 1 }) v)) := by
    simp only [mgmtJoin, htake]
    exact if_pos hany
  intro g hg hsrc
  rw [hrun, ((sendMsg_talked ..).trans (logEvent_talked ..)).managed] at hg
  obtain ⟨x, -, -, rfl⟩ := updManaged_mem hg hsrc
  rfl

theorem joinAck_joins {key : List Byte} (h : nextMessage s 2 m) (hmgr : s.fmn.manager = some (m.src, key)) :
    (joinAck s).fmn.joined = true := by
  obtain ⟨v, htake, hv⟩ := takeMsg_nextMessage h
  have hvm : v.fmn.manager = some (m.src, key) := hv.manager.trans hmgr
  simp only [joinAck, htake, hvm]
  rfl

/-- A heartbeat brings the module's state word, and its sender has been heard now. -/
theorem heartbeat_heard (h : nextMessage s 3 m) : ∀ g, g ∈ (heartbeat s).fmn.managed → g.mod = m.src →
    g.word = BitVec.ofNat 32 (leNat (m.body.take 4)) ∧ g.last = s.tb := by
  obtain ⟨v, htake, hv⟩ := takeMsg_nextMessage h
  have hrun : heartbeat s = updManaged m.src (fun g => { g with word := BitVec.ofNat 32 (leNat (m.body.take 4)) }) v := by
    simp only [heartbeat, htake]
  intro g hg hsrc
  rw [hrun] at hg
  obtain ⟨x, hx, hxk, rfl⟩ := updManaged_mem hg hsrc
  rw [hv.managed] at hx
  obtain ⟨y, -, -, rfl⟩ := updManaged_mem hx hxk
  exact ⟨rfl, rfl⟩

theorem mgmtLeave_leaves (h : nextMessage s 6 m) : ∀ g, g ∈ (mgmtLeave s).fmn.managed → g.mod = m.src → g.state = 0 := by
  obtain ⟨v, htake, -⟩ := takeMsg_nextMessage h
  have hrun : mgmtLeave s = updManaged m.src (fun g => { g with state := 0 }) v := by
    simp only [mgmtLeave, htake]
  intro g hg hsrc
  rw [hrun] at hg
  obtain ⟨x, -, -, rfl⟩ := updManaged_mem hg hsrc
  rfl

end Messages

/-! ## Relayed commands and their responses (R535, R563) -/

/-- An accepted command that is known stays in its mailbox, at its place in the order. -/
theorem accept_known {s : State} {k : Nat} (h : (s.mbox k).cmd ∈ commandCodes) :
    (accept k s).mbox k = { s.mbox k with order := s.fmn.nextOrder } := by
  have hcode : commandCodes.contains (s.mbox k).cmd = true := List.contains_iff_mem.mpr h
  rw [accept]
  dsimp only
  rw [if_pos hcode]
  have hbox := updMbox_mbox s k (fun x => { x with order := s.fmn.nextOrder })
  split
  · exact hbox
  · exact (mbox_of_mboxes (wake_mboxes _) k).trans hbox

section Relay
variable {s : State} {m : MgmtMsg} {key : List Byte} {i n : Nat}

/-- The mailbox of a command that a manager relays. -/
def relayedBox (m : MgmtMsg) : MBox :=
  { MBox.reset with owner := 1, seq := m.seq, cmd := m.code, len := m.body.length, payload := m.body, sender := some (m.src, m.seq) }

/-- The manager's command goes into the first free mailbox above the host's. -/
theorem mgmtCommand_accepted (h : nextMessage s 4 m) (hmgr : s.fmn.manager = some (m.src, key)) (hrel : notRelayed m.code = false)
    (hcode : m.code ∈ commandCodes) (hi : i < 256) (hfree : (s.mbox (256 + i)).order = 0)
    (hbelow : ∀ j, j < i → (s.mbox (256 + j)).order ≠ 0) :
    (mgmtCommand s).mbox (256 + i) = { relayedBox m with order := s.fmn.nextOrder } := by
  obtain ⟨v, htake, hv⟩ := takeMsg_nextMessage h
  have hbox : ∀ j, v.mbox j = s.mbox j := hv.mbox
  have hvm : ¬ v.fmn.manager.map (·.1) ≠ some m.src := by
    rw [hv.manager.trans hmgr]
    exact not_not.mpr rfl
  have hfind : findBelow 256 (fun j => decide ((v.mbox (256 + j)).order = 0)) = some i :=
    findBelow_first hi (by rw [hbox]; exact decide_eq_true hfree) fun j hj => by rw [hbox]; exact decide_eq_false (hbelow j hj)
  have hrun : mgmtCommand s = accept (256 + i) (v.updMbox (256 + i) fun _ => relayedBox m) := by
    simp only [mgmtCommand, htake]
    rw [if_neg hvm, if_neg (by rw [hrel]; decide), hfind]
    rfl
  have hcmd := updMbox_mbox v (256 + i) (fun _ => relayedBox m)
  rw [hrun, accept_known (by rw [hcmd]; exact hcode), hcmd]
  exact congrArg (fun o => { relayedBox m with order := o }) hv.nextOrder

theorem mgmtCommand_foreign (h : nextMessage s 4 m) (hmgr : s.fmn.manager.map (·.1) ≠ some m.src) :
    ((mgmtCommand s).welt m.port).r 0x060 = counterAdd ((s.welt m.port).r 0x060) 1 ∧ ∀ j, (mgmtCommand s).mbox j = s.mbox j := by
  obtain ⟨v, htake, hv⟩ := takeMsg_nextMessage h
  have hvm : v.fmn.manager.map (·.1) ≠ some m.src := by
    rw [hv.manager]
    exact hmgr
  have hrun : mgmtCommand s = weltCount m.port 0x060 1 v := by
    simp only [mgmtCommand, htake]
    exact if_pos hvm
  refine ⟨?_, fun j => by rw [hrun]; exact hv.mbox j⟩
  rw [hrun, weltCount_welt, Welt.setR_r]
  exact congrArg (fun t => counterAdd (tblGet (zeros 64) t 0x060) 1) (hv.reg m.port)

/-- A response completes the first mailbox that waits for it. -/
theorem mgmtResponse_answers (h : nextMessage s 5 m) (hi : i < 128) (hrelay : (s.mbox i).relay = some (m.src, m.seq, n))
    (hord : (s.mbox i).order ≠ 0) (hlen : m.body.length ≤ 4076) (hbelow : ∀ j, j < i → (s.mbox j).relay = none) :
    Answered (mgmtResponse s) i 0 0 (leBytes m.code 2 ++ leBytes 0 2 ++ leBytes (leNat (m.body.take 4)) 4 ++ m.body.drop 4) := by
  obtain ⟨v, htake, hv⟩ := takeMsg_nextMessage h
  have hrest : (m.body.drop 4).drop 4072 = [] := by
    rw [List.drop_drop]
    exact List.drop_eq_nil_of_le hlen
  have hall : (m.body.drop 4).take 4072 = m.body.drop 4 := List.take_of_length_le (by rw [List.length_drop]; omega)
  have hbox : ∀ j, v.mbox j = s.mbox j := hv.mbox
  have hrun : mgmtResponse s = respond i 0 0 (leBytes m.code 2 ++ leBytes 0 2 ++ leBytes (leNat (m.body.take 4)) 4 ++ m.body.drop 4)
      (v.updMbox i (fun x => { x with heldBack := none })) := by
    simp only [mgmtResponse, htake]
    rw [findBelow_first (k := i) (by omega) (by simp [hbox, hrelay, hord]) fun j hj => by simp [hbox, hbelow j hj]]
    simp only [hrest, hall, List.length_nil, if_true]
  rw [hrun]
  refine respond_answered hi ?_ ..
  rw [updMbox_mbox v i (fun x => { x with heldBack := none }), hbox]
  exact hord

end Relay

/-! ## Timers (R534) -/

section Timers
variable {s : State} {k : Nat}

theorem heartbeatTimer_due {key : List Byte} (hmgr : s.fmn.manager = some (k, key)) (hjoin : s.fmn.joined = true)
    (hdue : s.fmn.lastBeat + 100000000 ≤ s.tb) : (heartbeatTimer s).fmn.lastBeat = s.tb := by
  simp only [heartbeatTimer, hmgr, hjoin, hdue, decide_true, Bool.and_true]
  exact (sendMsg_talked ..).lastBeat

theorem heartbeatTimer_early {key : List Byte} (hmgr : s.fmn.manager = some (k, key)) (h : s.tb < s.fmn.lastBeat + 100000000) :
    heartbeatTimer s = s := by
  simp [heartbeatTimer, hmgr, Nat.not_le.mpr h]

/-- A joined module from which nothing has been heard in time is LOST. -/
theorem crewLost_lost {g : Managed} (hg : g ∈ s.fmn.managed) (hmod : g.mod = k) (hstate : g.state = 1)
    (hlast : g.last + 300000000 ≤ s.tb) : ∀ x, x ∈ (crewLost k s).fmn.managed → x.mod = k → x.state = 2 := by
  have hany : s.fmn.managed.any (fun g => decide (g.mod = k) && decide (g.state = 1) && decide (g.last + 300000000 ≤ s.tb)) = true :=
    List.any_eq_true.mpr ⟨g, hg, by simp [hmod, hstate, hlast]⟩
  intro x hx hxk
  rw [crewLost, if_pos hany, (logEvent_talked ..).managed] at hx
  obtain ⟨y, -, -, rfl⟩ := updManaged_mem hx hxk
  rfl

end Timers

/-- Settles O47: the message that is next is taken by `takeMsg_nextMessage`, and each kind of message is its lemma; what is sent or logged
in answer leaves the crew alone (`Talked`). -/
theorem crewMessages : Obligations.CrewMessages := by
  intro s m k i n key g
  refine ⟨fun h hreg => ⟨_, rfl, mgmtJoin_joins h hreg⟩, fun h hmgr => ⟨_, rfl, joinAck_joins h hmgr⟩,
    fun h => ⟨_, rfl, heartbeat_heard h⟩, fun h hmgr hrel hcode hi hfree hbelow => ⟨_, rfl, ?_⟩, fun h hmgr => ⟨_, rfl, ?_⟩,
    fun h hi hrelay hord hlen hbelow => ⟨_, rfl, mgmtResponse_answers h hi hrelay hord hlen hbelow⟩,
    fun h => ⟨_, rfl, mgmtLeave_leaves h⟩,
    fun hmgr hjoin => ⟨fun hdue => ⟨_, rfl, heartbeatTimer_due hmgr hjoin hdue⟩,
      fun h => congrArg Host.Outcome.next (heartbeatTimer_early hmgr h)⟩,
    fun hg hmod hstate hlast => ⟨_, rfl, crewLost_lost hg hmod hstate hlast⟩⟩
  · rw [mgmtCommand_accepted h hmgr hrel hcode hi hfree hbelow]
    exact ⟨rfl, rfl, rfl, rfl⟩
  · obtain ⟨hcount, hbox⟩ := mgmtCommand_foreign h hmgr
    exact ⟨hcount, fun j => congrArg MBox.order (hbox j)⟩

end Sys2Proof.LinkProofs
end

section
/-! PROOFS. The rules of the Foreman's commands that O48 to O53 share: a command of PF0 that may run, and what its answer leaves alone. -/

namespace Sys2Proof.ForemanProofs
open Sys2Proof Sys2Proof.Machine Sys2Proof.Laws Sys2Proof.ModuleProofs

/-! ## The start of a command (R540, R550, R555, R556) -/

section Start
variable {s : State} {m code : Nat} {forVf early : Bool} {size : Option Nat} {body : List Byte → State → State}

theorem runCmd_waits (h : canRun s m = false) : runCmd m code forVf early size body s = s := if_pos (.inr h)

theorem runCmd_other (h : (s.mbox m).cmd ≠ code) : runCmd m code forVf early size body s = s := if_pos (.inl h)

/-- A command whose turn has come goes through the checks that all commands have in common. -/
theorem runCmd_checks (hcmd : (s.mbox m).cmd = code) (hrun : canRun s m = true) (hk : keepsIdle code = false) :
    runCmd m code forVf early size body s =
      if funcOf s m ≠ 0 ∧ boundPart s (funcOf s m) = none then respond m 6 0 [] (wake s)
      else if funcOf s m ≠ 0 ∧ forVf = false then respond m 4 0 [] (wake s)
      else if early = false ∧ ready s = false then respond m 5 0 [] (wake s)
      else if size.getD (s.mbox m).len ≠ (s.mbox m).len ∨ 4080 < (s.mbox m).len then respond m 2 0 [] (wake s)
      else body (request (s.mbox m)) (wake s) := by
  have hbound : boundPart (wake s) (funcOf s m) = boundPart s (funcOf s m) := by simp only [boundPart, wake_part]
  unfold runCmd
  dsimp only
  rw [if_neg (by simp [hcmd, hrun]), hk]
  simp only [Bool.false_eq_true, if_false, hbound, wake_ready]

/-- A command that leaves the module idle (R613) reaches its own part in the module as it is. -/
theorem runCmd_body_idle {l : List Byte} (h : MayRun s m code l) (hk : keepsIdle code = true) (hsize : size.getD l.length = l.length) :
    runCmd m code forVf early size body s = body l s := by
  have hlen := len_of_mayRun h
  obtain ⟨hm, hcmd, hrun, hready, hreq, hmax⟩ := h
  simp [runCmd, hcmd, hrun, hk, funcOf_pf0, hm, hready, hlen, hreq, hsize, Nat.not_lt.mpr hmax]

end Start

/-! ## The answer (R547) -/

/-- A mailbox that holds a response has been answered. -/
theorem answered_of_response {u : State} {m : Nat} {x : MBox} {l : LastCmd} (h : u.mbox m = answered x l) :
    Answered u m l.status l.detail l.payload := by
  unfold Answered
  rw [h]
  exact ⟨rfl, rfl, rfl, rfl, rfl, List.take_left⟩

/-- A command in a mailbox of the host's functions is answered there. -/
theorem respond_host_answered {s : State} {m : Nat} (hm : m < 256) (ho : (s.mbox m).order ≠ 0) (status detail : Nat)
    (payload : List Byte) :
    Answered (respond m status detail payload s) m status detail payload := by
  unfold respond
  dsimp only
  rw [if_neg ho, if_neg (Nat.not_le.mpr hm)]
  exact answered_of_response (updMbox_mbox s m fun x =>
    answered x { seq := x.seq, cmd := x.cmd, status := status, detail := detail, payload := payload })

theorem order_of_canRun {s : State} {m : Nat} (h : canRun s m = true) : (s.mbox m).order ≠ 0 := by
  simp only [canRun, Bool.and_eq_true, decide_eq_true_eq] at h
  exact h.1.1.1

end Sys2Proof.ForemanProofs
end

section
/-! PROOFS. O48: mailboxes are handed over, and every command is checked first. -/

namespace Sys2Proof.ForemanProofs
open Sys2Proof Sys2Proof.Machine Sys2Proof.Laws Sys2Proof.ModuleProofs

/-! ## Handing a command over (R547 to R549) -/

section HandOver
variable {s : State} {m : Nat}

/-- A mailbox that the host has handed to the Foreman. -/
def handed (x : MBox) : MBox := { x with owner := 1, heldBack := if asksRest x then x.heldBack else none }

/-- A mailbox whose request area the host has filled. -/
def filled (seq cmd : Nat) (payload : List Byte) (x : MBox) : MBox :=
  { x with seq := seq % 2 ^ 16, cmd := cmd % 2 ^ 16, len := payload.length, payload := payload ++ x.payload.drop payload.length }

theorem handOver_new (h : (s.mbox m).last = none) : handOver m s = accept m (s.updMbox m handed) := by
  simp only [handOver, h]
  rfl

theorem handOver_again {l : LastCmd} (h : (s.mbox m).last = some l) (hseq : l.seq = (s.mbox m).seq) (hcmd : l.cmd = (s.mbox m).cmd) :
    handOver m s = raise (funcOf s m) (vectorOf m) (s.updMbox m fun x => answered x l) := by
  simp only [handOver, h]
  exact if_pos ⟨hseq, hcmd⟩

/-- The functions of the mailboxes below 256 are fixed. -/
theorem funcOf_host (hm : m < 256) (s u : State) : funcOf u m = funcOf s m := by
  unfold funcOf
  rw [if_pos hm, if_pos hm]

theorem unknownCmd_updMbox (hm : m < 256) (f : MBox → MBox) : unknownCmd (s.updMbox m f) m = unknownCmd s m := by
  unfold unknownCmd
  rw [funcOf_host hm s]
  rfl

/-- The mailbox has its place in the order of acceptance. -/
def ordered (m : Nat) (s : State) : State :=
  { s.updMbox m (fun x => { x with order := s.fmn.nextOrder }) with
    fmn := { (s.updMbox m (fun x => { x with order := s.fmn.nextOrder })).fmn with nextOrder := s.fmn.nextOrder + 1 } }

theorem ordered_mbox (m : Nat) (s : State) : (ordered m s).mbox m = { s.mbox m with order := s.fmn.nextOrder } :=
  updMbox_mbox s m fun x => { x with order := s.fmn.nextOrder }

/-- An accepted command takes its place, and the module wakes unless the command leaves it idle. -/
theorem accept_eq (m : Nat) (s : State) : ∃ u, u.fmn = (ordered m s).fmn ∧
    accept m s = if commandCodes.contains (s.mbox m).cmd then u else respond m (unknownCmd s m) 0 [] u := by
  refine ⟨_, ?_, rfl⟩
  split
  · rfl
  · exact wake_fmn _

theorem accept_known (h : (s.mbox m).cmd ∈ commandCodes) :
    (accept m s).mbox m = { s.mbox m with order := s.fmn.nextOrder } ∧ (accept m s).fmn.nextOrder = s.fmn.nextOrder + 1 := by
  obtain ⟨u, hfmn, heq⟩ := accept_eq m s
  rw [heq, if_pos (List.contains_iff_mem.mpr h)]
  exact ⟨(mbox_of_mboxes (congrArg Fmn.mboxes hfmn) m).trans (ordered_mbox m s), congrArg Fmn.nextOrder hfmn⟩

theorem accept_unknown (hm : m < 256) (h : (s.mbox m).cmd ∉ commandCodes) (hn : s.fmn.nextOrder ≠ 0) :
    Answered (accept m s) m (unknownCmd s m) 0 [] := by
  obtain ⟨u, hfmn, heq⟩ := accept_eq m s
  have hbox : u.mbox m = { s.mbox m with order := s.fmn.nextOrder } :=
    (mbox_of_mboxes (congrArg Fmn.mboxes hfmn) m).trans (ordered_mbox m s)
  rw [heq, if_neg (by simpa using h)]
  exact respond_host_answered hm (by rw [hbox]; exact hn) ..

/-- A mailbox that gives its last response again. -/
theorem answered_again (l : LastCmd) (f v : Nat) (s : State) :
    Answered (raise f v (s.updMbox m fun x => answered x l)) m l.status l.detail l.payload :=
  answered_of_response (updMbox_mbox s m fun x => answered x l)

end HandOver

section Host
variable {s : State} {m : Nat} (hup : pcieUp s = true) (hm : m < 256)
include hup hm

/-- The host reaches the mailbox. -/
theorem host_reaches : ¬ (pcieUp s = false ∨ 256 ≤ m) := by
  rw [hup]
  exact fun h => h.elim nofun (Nat.not_le.mpr hm)

theorem mailboxHandover_fills (howner : (s.mbox m).owner = 0) (seq cmd : Nat) (payload : List Byte) :
    mailboxHandover m seq cmd payload s = handOver m (s.updMbox m (filled seq cmd payload)) := by
  rw [mailboxHandover, if_neg (host_reaches hup hm), if_neg (by rw [howner]; decide)]
  rfl

theorem mailboxHandover_drops (howner : (s.mbox m).owner = 1) (seq cmd : Nat) (payload : List Byte) :
    mailboxHandover m seq cmd payload s = countDrops (payload.length + 7) s := by
  rw [mailboxHandover, if_neg (host_reaches hup hm), if_pos howner]

theorem mailboxHostWrite_drops (howner : (s.mbox m).owner = 1) (off : Nat) (b : Byte) : mailboxHostWrite m off b s = countDrops 1 s := by
  rw [mailboxHostWrite, if_neg (host_reaches hup hm), if_pos howner]

theorem mailboxHostWrite_byte (howner : (s.mbox m).owner = 0) {off : Nat} (hoff : off ≠ 0) (b : Byte) :
    mailboxHostWrite m off b s = s.updMbox m (fun x => hostByte x off b) := by
  rw [mailboxHostWrite, if_neg (host_reaches hup hm), if_neg (by rw [howner]; decide), if_neg hoff]

theorem mailboxHostWrite_owner (howner : (s.mbox m).owner = 0) : mailboxHostWrite m 0 1 s = handOver m s := by
  rw [mailboxHostWrite, if_neg (host_reaches hup hm), if_neg (by rw [howner]; decide), if_pos rfl, if_pos rfl]

end Host

theorem mailboxesAreHandedOver : Claims.MailboxesAreHandedOver := by
  intro s m seq cmd off payload b l hup hm x
  refine ⟨fun howner => ⟨congrArg _ (mailboxHandover_drops hup hm howner ..), congrArg _ (mailboxHostWrite_drops hup hm howner ..)⟩,
    fun howner hseq hcmd => ?_, fun howner hoff => ?_, fun howner hlast hknown => ?_⟩
  · have hrun := mailboxHandover_fills hup hm howner seq cmd payload
    have hbox : (s.updMbox m (filled seq cmd payload)).mbox m =
        { x with seq := seq, cmd := cmd, len := payload.length, payload := payload ++ x.payload.drop payload.length } := by
      rw [updMbox_mbox, filled, Nat.mod_eq_of_lt hseq, Nat.mod_eq_of_lt hcmd]
    have hunk : unknownCmd ((s.updMbox m (filled seq cmd payload)).updMbox m handed) m = unknownCmd s m := by
      rw [unknownCmd_updMbox hm, unknownCmd_updMbox hm]
    have hnext : (s.updMbox m (filled seq cmd payload)).fmn.nextOrder = s.fmn.nextOrder := rfl
    generalize s.updMbox m (filled seq cmd payload) = v at hrun hbox hnext hunk
    have hhanded : (v.updMbox m handed).mbox m = handed (v.mbox m) := updMbox_mbox ..
    refine ⟨fun hlast hknown => ⟨_, rfl, ?_⟩, fun hlast hunknown hn => ⟨_, rfl, ?_⟩,
      fun hlast hsame hsameCmd => ⟨_, rfl, ?_⟩⟩ <;> rw [hrun]
    · obtain ⟨hplace, hcount⟩ := accept_known (s := v.updMbox m handed) (m := m) (by rw [hhanded, hbox]; exact hknown)
      rw [handOver_new (by rw [hbox]; exact hlast), hplace, hcount, hhanded, hbox]
      exact ⟨rfl, rfl, rfl, rfl, List.take_left, hnext, congrArg (· + 1) hnext⟩
    · rw [handOver_new (by rw [hbox]; exact hlast), ← hunk]
      exact accept_unknown hm (by rw [hhanded, hbox]; exact hunknown) (by rw [← hnext] at hn; exact hn)
    · rw [handOver_again (l := l) (by rw [hbox]; exact hlast) (by rw [hbox]; exact hsame) (by rw [hbox]; exact hsameCmd)]
      exact ⟨answered_again .., hnext⟩
  · refine ⟨_, rfl, ?_⟩
    rw [mailboxHostWrite_byte hup hm howner (Nat.ne_of_gt (Nat.lt_of_lt_of_le Nat.two_pos hoff)), updMbox_mbox]
  · have hmbox : ((s.updMbox m handed).mbox m) = handed x := updMbox_mbox ..
    obtain ⟨hbox, -⟩ := accept_known (s := s.updMbox m handed) (m := m) (by rw [hmbox]; exact hknown)
    refine ⟨_, rfl, ?_⟩
    rw [mailboxHostWrite_owner hup hm howner, handOver_new hlast, hbox, hmbox]
    exact ⟨rfl, rfl⟩

/-! ## The checks common to all commands (R540, R550, R555, R556) -/

/-- No partition is there to be named. -/
theorem withPart_dead {s : State} {m p : Nat} {go : State → State} (hm : m < 128) (hp : (s.part p).live = false) :
    withPart m p go s = respond m 6 0 [] s := by
  simp [withPart, mayName, funcOf_pf0, hm, hp]

theorem commandsAreCheckedFirst : Claims.CommandsAreCheckedFirst := by
  intro s m l hm x
  have hvf : 128 ≤ m → funcOf s m ≠ 0 := fun h => by
    rw [funcOf, if_neg (Nat.not_lt.mpr h), if_pos hm]
    exact Nat.succ_ne_zero _
  refine ⟨fun hwait => ⟨congrArg _ (runCmd_waits hwait), congrArg _ (runCmd_waits hwait)⟩, fun hcmd => congrArg _ (runCmd_other hcmd),
    fun hrun => ?_, fun h hlen => ?_⟩
  · have hans : ∀ status u, u = respond m status 0 [] (wake s) → Answered u m status 0 [] := by
      rintro status _ rfl
      exact respond_host_answered hm (by rw [mbox_of_mboxes (wake_mboxes s)]; exact order_of_canRun hrun) ..
    refine ⟨fun hcmd hhi hnone => ⟨_, rfl, hans _ _ ?_⟩, fun hcmd hhi hsome => ⟨_, rfl, hans _ _ ?_⟩,
      fun hcmd hlo hready => ⟨_, rfl, hans _ _ ?_⟩, fun hcmd hlo hready hlen => ⟨_, rfl, hans _ _ ?_⟩⟩
    · rw [startJob, runCmd_checks hcmd hrun rfl, if_pos ⟨hvf hhi, hnone⟩]
    · rw [setCap, runCmd_checks hcmd hrun rfl, if_neg (fun h => by rw [h.2] at hsome; cases hsome), if_pos ⟨hvf hhi, rfl⟩]
    · have hpf : ¬ funcOf s m ≠ 0 := not_not.mpr (funcOf_pf0 s hlo)
      rw [setCap, runCmd_checks hcmd hrun rfl, if_neg fun h => hpf h.1, if_neg fun h => hpf h.1, if_pos ⟨rfl, hready⟩]
    · have hpf : ¬ funcOf s m ≠ 0 := not_not.mpr (funcOf_pf0 s hlo)
      rw [setCap, runCmd_checks hcmd hrun rfl, if_neg fun h => hpf h.1, if_neg fun h => hpf h.1,
        if_neg (by rw [hready]; decide), if_pos (.inl fun h => hlen h.symm)]
  · have hans : ∀ status detail u, u = respond m status detail [] (wake s) → Answered u m status detail [] := fun status detail u hu =>
      answered_of_respond h hu (wake_mboxes s)
    have hbody : startJob m s = _ := runCmd_body h rfl (by rw [hlen]; rfl)
    refine ⟨fun hp => ⟨_, rfl, hans _ _ _ (hbody.trans (checked_refuse _ _ ?_))⟩,
      fun hp hk => ⟨_, rfl, hans _ _ _ (hbody.trans (checked_refuse _ _ ?_))⟩, fun hp hk hres hdead => ⟨_, rfl, hans _ _ _ ?_⟩⟩
    · simp [badField, progFields, below, Nat.not_lt.mpr hp]
    · simp [badField, progFields, below, hp, Nat.not_lt.mpr hk]
    · rw [hbody, checked_pass _ _ (by simp [badField, progFields, below, zero, hp, hk, hres])]
      exact withPart_dead h.1 (by rwa [wake_part])

/-- Settles O48: a handover ends in `accept_known`, `accept_unknown` or `answered_again`, and the checks are `runCmd_checks`. -/
theorem mailboxes : Obligations.Mailboxes := ⟨mailboxesAreHandedOver, commandsAreCheckedFirst⟩

end Sys2Proof.ForemanProofs
end

section
/-! PROOFS. O49: the commands that report. -/

namespace Sys2Proof.ForemanProofs
open Sys2Proof Sys2Proof.Machine Sys2Proof.Laws Sys2Proof.ModuleProofs

section Reports
variable {s : State} {m : Nat} {l : List Byte}

theorem getInfo_answers (h : MayRun s m 0x0001 []) : getInfo m s = respond m 0 0 (infoBytes s) s := by
  rw [getInfo, runCmd_body_idle h rfl rfl]

/-- The log of PF0's function. -/
def pf0Log (s : State) : EvLog := tblGet logD s.fmn.logs 0

/-- The module whose first `n` events PF0 has taken. -/
def takenEvents (n : Nat) (s : State) : State :=
  { s with fmn := { s.fmn with logs := tblSet logD s.fmn.logs 0 { entries := (pf0Log s).entries.drop n, lost := 0 } } }

theorem getEvents_answers (h : MayRun s m 0x0002 l) (hlen : l.length = 1) (hlo : 1 ≤ fieldOf l 0 1) (hhi : fieldOf l 0 1 ≤ 127) :
    getEvents m s =
      let out := (pf0Log s).entries.take (fieldOf l 0 1)
      respond m 0 0 (leBytes out.length 1 ++ [0, 0, 0] ++ satBytes (pf0Log s).lost 4 ++ out.flatMap eventBytes)
        (takenEvents (fieldOf l 0 1) s) := by
  rw [getEvents, runCmd_body_idle h rfl (by rw [hlen]; rfl), checked_pass _ _ (by simp [badField, hlo, hhi])]
  simp only [funcOf_pf0 _ h.1]
  rfl

theorem takenEvents_log (n : Nat) (s : State) : pf0Log (takenEvents n s) = ⟨(pf0Log s).entries.drop n, 0⟩ := tblGet_tblSet_same ..

theorem respond_pf0Log (hm : m < 128) (status detail : Nat) (payload : List Byte) (s : State) :
    pf0Log (respond m status detail payload s) = pf0Log s := by
  obtain ⟨t, v, hfmn⟩ := respond_pf0_fmn hm status detail payload s
  rw [pf0Log, hfmn]
  rfl

/-- PART and PROG in range, of a partition that exists. -/
theorem progFields_pass (hp : fieldOf l 0 1 < 8) (hk : fieldOf l 1 1 < 16) : badField l progFields = none := by
  simp [badField, progFields, below, hp, hk]

theorem queryJob_answers (h : MayRun s m 0x0105 l) (hlen : l.length = 2) (hp : fieldOf l 0 1 < 8) (hk : fieldOf l 1 1 < 16)
    (hlive : (s.part (fieldOf l 0 1)).live = true) :
    queryJob m s =
      let g := (s.part (fieldOf l 0 1)).prog (fieldOf l 1 1)
      respond m 0 0 (leBytes g.js 1 ++ List.replicate 7 0 ++ jobBytes (fieldOf l 0 1) (fieldOf l 1 1) g.job) (wake s) := by
  rw [queryJob, runCmd_body h rfl (by rw [hlen]; rfl), checked_pass _ _ (progFields_pass hp hk)]
  dsimp only
  rw [withPart_pf0 _ h.1 (by rwa [wake_part]), wake_part]

theorem getEnergy_answers (h : MayRun s m 0x0303 []) :
    getEnergy m s = respond m 0 0 (leBytes s.tb 8 ++ satBytes (s.pwr.moduleNj / 10 ^ 6) 8 ++
      (List.range 8).flatMap (fun p => satBytes ((s.part p).energy / 10 ^ 6) 8) ++ satBytes (s.pwr.unattrNj / 10 ^ 6) 8) s := by
  rw [getEnergy, runCmd_body_idle h rfl rfl]
  simp only [mayName, funcOf_pf0 _ h.1, decide_true, Bool.true_or, if_true]

@[simp] theorem wake_partOf (s : State) (b : Nat) : partOf (wake s) b = partOf s b := by
  unfold wake
  split <;> rfl

theorem wake_tallyWord (s : State) (n : Nat) : tallyWord (wake s) n = tallyWord s n := by
  unfold wake
  split <;> rfl

/-- PF0 may name the tallies of every partition. -/
theorem withTally_pf0 {n q : Nat} (go : State → State) (hm : m < 128) (hq : partOf s (n / 512) = some q)
    (hlive : (s.part q).live = true) :
    withTally m n go s = go s := by
  simp only [withTally, hq]
  exact withPart_pf0 go hm hlive

theorem readTally_answers {q : Nat} (h : MayRun s m 0x0402 l) (hlen : l.length = 2) (hq : partOf s (fieldOf l 0 2 / 512) = some q)
    (hlive : (s.part q).live = true) :
    readTally m s = respond m 0 0 (leBytes (tallyWord s (fieldOf l 0 2)) 8) (wake s) := by
  rw [readTally, runCmd_body h rfl (by rw [hlen]; rfl), withTally_pf0 (q := q) _ h.1 (by rwa [wake_partOf]) (by rwa [wake_part]),
    wake_tallyWord]

theorem wake_tb (s : State) : (wake s).tb = s.tb := by
  unfold wake
  split <;> rfl

theorem readCounters_bench (h : MayRun s m 0x0404 l) (hlen : l.length = 8) (hkind : fieldOf l 0 1 = 0) (hres : fieldOf l 1 1 = 0)
    (hunit : fieldOf l 2 2 < 128) (halign : fieldOf l 4 2 % 8 = 0) (hfirst : 0x4000 ≤ fieldOf l 4 2) (hn : 1 ≤ fieldOf l 6 2)
    (hmax : fieldOf l 6 2 ≤ 500) (hend : fieldOf l 4 2 + 8 * fieldOf l 6 2 ≤ 0x8000) :
    readCounters m s = respond m 0 0 (leBytes s.tb 8 ++ (List.range (fieldOf l 6 2)).flatMap
      (fun i => leBytes (benchRead (wake s) (fieldOf l 2 2) (fieldOf l 4 2 + 8 * i)).toNat 8)) (wake s) := by
  have hlast : fieldOf l 4 2 < 0x8000 := by omega
  rw [readCounters, runCmd_body h rfl (by rw [hlen]; rfl)]
  dsimp only
  rw [checked_pass _ _ (by
    simp only [badField, below, zero, List.find?, hkind, hres, hunit, halign, hfirst, hn, hmax, hend, hlast, List.getD_cons_zero,
      decide_true, Bool.and_self, Bool.not_true, Option.map_none, if_true, if_neg (by decide : ¬ (0 : Nat) = 5), Nat.zero_lt_succ])]
  simp only [mayRead, funcOf_pf0 _ h.1, hkind, decide_true, Bool.true_or, Bool.true_eq_false, if_false, wake_tb, counterWord, if_true,
    if_neg (by decide : ¬ (0 : Nat) = 5)]

theorem readRecord_answers (h : MayRun s m 0x0502 l) (hlen : l.length = 1) (hr : fieldOf l 0 1 < 8) (h0 : fieldOf l 0 1 ≠ 0) :
    readRecord m s = respond m 0 0
      (leBytes (s.recd (fieldOf l 0 1)).left 2 ++ [0, 0] ++ (s.recd (fieldOf l 0 1)).body) s := by
  rw [readRecord, runCmd_body_idle h rfl (by rw [hlen]; rfl), checked_pass _ _ (by simp [badField, below, hr])]
  simp only [if_neg h0]

theorem crewStatus_answers (h : MayRun s m 0x0602 l) (hlen : l.length = 2) :
    crewStatus m s =
      let out := (s.fmn.managed.drop (fieldOf l 0 2)).take 254
      respond m 0 0 (leBytes out.length 2 ++ [0, 0] ++ out.flatMap (crewEntry s)) s := by
  rw [crewStatus, runCmd_body_idle h rfl (by rw [hlen]; rfl)]

end Reports

/-- Settles O49: each command, once it may run, is the answer of its `_answers` lemma. -/
theorem reportsOfTheModule : Obligations.ReportsOfTheModule := by
  intro s m l q
  refine ⟨fun h => ?_, fun h hlen hlo hhi => ?_, fun h hlen hp hk hlive => ?_, fun h => ?_, fun h hlen hq hlive => ?_,
    fun h hlen hkind hres hunit halign hfirst hn hmax hend => ?_, fun h hlen hr h0 => ?_, fun h hlen => ?_⟩
  · exact ⟨_, rfl, answered_of_respond h (getInfo_answers h) rfl⟩
  · have hrun := getEvents_answers h hlen hlo hhi
    refine ⟨_, rfl, answered_of_respond h hrun rfl, ?_⟩
    rw [hrun]
    exact (respond_pf0Log h.1 ..).trans (takenEvents_log ..)
  · exact ⟨_, rfl, answered_of_respond h (queryJob_answers h hlen hp hk hlive) (wake_mboxes s)⟩
  · exact ⟨_, rfl, answered_of_respond h (getEnergy_answers h) rfl⟩
  · exact ⟨_, rfl, answered_of_respond h (readTally_answers h hlen hq hlive) (wake_mboxes s)⟩
  · exact ⟨_, rfl, answered_of_respond h (readCounters_bench h hlen hkind hres hunit halign hfirst hn hmax hend) (wake_mboxes s)⟩
  · exact ⟨_, rfl, answered_of_respond h (readRecord_answers h hlen hr h0) rfl⟩
  · exact ⟨_, rfl, answered_of_respond h (crewStatus_answers h hlen) rfl⟩

end Sys2Proof.ForemanProofs
end

section
/-! PROOFS. O52: the cap and the fixed point. -/

namespace Sys2Proof.ForemanProofs
open Sys2Proof Sys2Proof.Machine Sys2Proof.Laws Sys2Proof.ModuleProofs

/-- A wake changes of the power manager its idle state and how long that has lasted. -/
theorem wake_pwr (s : State) : ∃ w t, (wake s).pwr = { s.pwr with wstate := w, idleSince := t } := by
  unfold wake
  split
  · exact ⟨_, _, rfl⟩
  · exact ⟨_, _, rfl⟩

/-! ## The programs that no longer fit (R572) -/

theorem mem_of_mem_unfits {s : State} {fixed : Option Nat} {cap n : Nat} {l : List (Nat × Nat × Program)} {e : Nat × Nat × Program}
    (h : e ∈ unfits s fixed cap n l) : e ∈ l := by
  induction n generalizing l with
  | zero => cases h
  | succ n ih =>
    unfold unfits at h
    split at h
    · cases h
    · next a ha =>
      obtain rfl | h := List.mem_cons.mp h
      · exact List.mem_of_find?_eq_some ha
      · exact (List.mem_filter.mp (ih h)).1

/-- An admitted program stands in its slot. -/
theorem prog_of_mem_admitted {s : State} {e : Nat × Nat × Program} (h : e ∈ admitted s) : e.2.2 = (s.part e.1).prog e.2.1 := by
  obtain ⟨_, -, rfl⟩ := List.mem_map.mp h
  rfl

/-- No job ends where none of the programs runs one. -/
theorem forAll_capStop_idle {l : List (Nat × Nat × Program)} {s : State}
    (h : ∀ e ∈ l, activeJob ((s.part e.1).prog e.2.1) = false) : forAll l capStop s = s := by
  refine List.foldlRecOn (motive := fun u => u = s) l _ rfl fun u hu e he => ?_
  rw [hu]
  exact if_pos (h e he)

/-! ## SET_CAP (R594, R595) -/

section Cap
variable {s : State} {m : Nat} {l : List Byte}

/-- The cap that SET_CAP asks for, below the profile's. -/
def askedCap (s : State) (l : List Byte) : Nat :=
  if fieldOf l 0 2 = 0 then profileCap s.pwr.profile else min (fieldOf l 0 2) (profileCap s.pwr.profile)

/-- The admitted programs that do not fit the cap that SET_CAP asks for. -/
def overCap (s : State) (l : List Byte) : List (Nat × Nat × Program) :=
  unfits s (fixedNow s) (askedCap s l) 128 (admitted s)

/-- The answer of SET_CAP when the programs `bad` do not fit the cap. -/
def capAnswer (m host force : Nat) (bad : List (Nat × Nat × Program)) (s : State) : State :=
  match bad with
  | [] => respond m 0 0 (leBytes host 2) (putCap host s)
  | e :: _ =>
    if force = 0 then respond m 0xE (conflictDetail e) [] s
    else respond m 0 0 (leBytes host 2) (logEvent 15 0xFF 1 (leBytes host 2 ++ satBytes (bad.filter (fun e => activeJob e.2.2)).length 1)
      (forAll bad capStop (putCap host s)))

theorem setCap_answers (h : MayRun s m 0x0301 l) (hlen : l.length = 3) (hcap : fieldOf l 0 2 = 0 ∨ 400 ≤ fieldOf l 0 2)
    (hforce : fieldOf l 2 1 < 2) :
    setCap m s = capAnswer m (askedCap (wake s) l) (fieldOf l 2 1) (overCap (wake s) l) (wake s) := by
  rw [setCap, runCmd_body h rfl (by rw [hlen]; rfl), checked_pass _ _ (by simp [badField, below, hcap, hforce])]
  rfl

theorem wake_askedCap (s : State) (l : List Byte) : askedCap (wake s) l = askedCap s l := by
  obtain ⟨_, _, hw⟩ := wake_pwr s
  simp only [askedCap, hw]

theorem putCap_pwr (host : Nat) (s : State) :
    (putCap host s).pwr.hostCap = host ∧ (putCap host s).pwr.ialarm = 96 * min (profileCap s.pwr.profile) host / 460 := ⟨rfl, rfl⟩

theorem respond_pwr (m status detail : Nat) (payload : List Byte) (s : State) : (respond m status detail payload s).pwr = s.pwr :=
  (respond_within (F := [.welts, .fmn]) (List.Subset.refl _) (.refl ..) ..).out .pwr (by decide)

end Cap

/-! ## SET_FIXED_POINT (R608) -/

section Fixed
variable {s : State} {m : Nat} {l : List Byte}

theorem setFixedPoint_clears (h : MayRun s m 0x0302 l) (hlen : l.length = 1) (hoff : fieldOf l 0 1 = 0xFF) :
    setFixedPoint m s = respond m 0 0 [] { wake s with pwr := { (wake s).pwr with fixed := false, fixOp := 0, goal := none } } := by
  rw [setFixedPoint, runCmd_body h rfl (by rw [hlen]; rfl), checked_pass _ _ (by simp [badField, hoff])]
  exact if_pos hoff

/-- The module whose commanded point is `op`. -/
def fixedAt (op : Nat) (s : State) : State := { s with pwr := { s.pwr with fixed := true, fixOp := op, goal := some op } }

theorem setFixedPoint_sets (h : MayRun s m 0x0302 l) (hlen : l.length = 1) (hop : fieldOf l 0 1 < 8)
    (hfits : unfits (wake s) (some (fieldOf l 0 1)) (capNow (wake s)) 128 (admitted (wake s)) = []) :
    setFixedPoint m s = respond m 0 0 [] (toward (fixedAt (fieldOf l 0 1) (wake s))) := by
  rw [setFixedPoint, runCmd_body h rfl (by rw [hlen]; rfl), checked_pass _ _ (by simp [badField, hop])]
  dsimp only
  rw [if_neg (by omega), hfits]
  rfl

/-- The die begins its next step toward the commanded point, whatever that is. -/
theorem toward_fixed (s : State) : (toward s).pwr.fixed = s.pwr.fixed ∧ (toward s).pwr.fixOp = s.pwr.fixOp := by
  unfold toward
  split
  · exact ⟨rfl, rfl⟩
  · split_ifs <;> exact ⟨rfl, rfl⟩

theorem toward_steps {g : Nat} {s : State} (hgoal : s.pwr.goal = some g) (hstep : s.pwr.stepTo = none) (hop : s.pwr.op < g) :
    (toward s).pwr.stepTo = some (s.pwr.op + 1) := by
  simp only [toward, hgoal, hstep, Option.isSome_none, Bool.false_eq_true, if_false, if_pos hop]

end Fixed

/-- Settles O52: the cap by `capAnswer` over the programs that do not fit it, and the point by `setFixedPoint_sets`. -/
theorem capAndFixedPoint : Obligations.CapAndFixedPoint := by
  intro s m l w top cap host
  obtain ⟨wst, since, hpwr⟩ := wake_pwr s
  have hmbox : ∀ {F : List Field} {v : State}, Within F (wake s) v → Field.fmn ∉ F → v.fmn.mboxes = s.fmn.mboxes := fun hv hF => by
    rw [hv.out .fmn hF]
    exact wake_mboxes s
  refine ⟨fun h hlen hcap hforce => ?_, fun h hlen => ⟨fun hoff => ?_, fun hop hfits => ?_⟩⟩
  · have hrun := setCap_answers h hlen hcap hforce
    have hhost : askedCap w l = host := wake_askedCap s l
    have hover : overCap w l = unfits w (fixedNow w) host 128 (admitted w) := by rw [← hhost]; rfl
    rw [hhost, hover] at hrun
    refine ⟨fun hfits => ?_, fun e r hconf h0 => ?_, fun e r hconf h1 hidle => ?_⟩
    · rw [hfits] at hrun
      refine ⟨_, rfl, answered_of_respond h hrun (hmbox (putCap_within (List.Subset.refl _) (.refl ..) _) (by decide)), ?_⟩
      rw [hrun, capAnswer, respond_pwr]
      refine ⟨rfl, (putCap_pwr ..).2.trans ?_⟩
      rw [hpwr]
    · rw [hconf] at hrun
      replace hrun := hrun.trans (if_pos h0)
      refine ⟨_, rfl, answered_of_respond h hrun (wake_mboxes s), ?_⟩
      rw [hrun, respond_pwr, hpwr]
    · have hstop : forAll (e :: r) capStop (putCap host w) = putCap host w := forAll_capStop_idle fun x hx => by
        have hidle := hidle x hx
        rw [prog_of_mem_admitted (mem_of_mem_unfits (hconf ▸ hx))] at hidle
        exact hidle
      rw [hconf] at hrun
      replace hrun := hrun.trans (if_neg (by omega))
      rw [hstop] at hrun
      refine ⟨_, rfl, answered_of_respond h hrun ?_, ?_⟩
      · exact (LinkProofs.logEvent_talked ..).mboxes.trans (wake_mboxes s)
      · rw [hrun, respond_pwr, (logEvent_within (F := [.fmn]) (List.Subset.refl _) (.refl ..) ..).out .pwr (by decide)]
        rfl
  · have hrun := setFixedPoint_clears h hlen hoff
    refine ⟨_, rfl, answered_of_respond h hrun (wake_mboxes s), ?_⟩
    rw [hrun, respond_pwr]
    exact ⟨rfl, rfl⟩
  · have hrun := setFixedPoint_sets h hlen hop hfits
    refine ⟨_, rfl, answered_of_respond h hrun ?_, ?_⟩
    · rw [(toward_within (F := [.pwr]) (List.Subset.refl _) (.refl ..)).out .fmn (by decide)]
      exact wake_mboxes s
    · rw [hrun, respond_pwr]
      obtain ⟨hfix, hfixOp⟩ := toward_fixed (fixedAt (fieldOf l 0 1) w)
      have hnow : (wake s).pwr.op = s.pwr.op ∧ (wake s).pwr.stepTo = s.pwr.stepTo := by
        rw [hpwr]
        exact ⟨rfl, rfl⟩
      refine ⟨hfix, hfixOp, fun hstep hlt => ?_⟩
      rw [← hnow.1] at hlt ⊢
      exact toward_steps (s := fixedAt (fieldOf l 0 1) w) rfl (hnow.2.trans hstep) hlt

end Sys2Proof.ForemanProofs
end

section
/-! PROOFS. O53: the host writes tally records, trace control and MRAM records. -/

namespace Sys2Proof.ForemanProofs
open Sys2Proof Sys2Proof.Machine Sys2Proof.Laws Sys2Proof.ModuleProofs Sys2Proof.CoreProofs

/-! ## SET_TALLY (R470, R478, R561) -/

section Tallies
variable {s : State} {m : Nat} {l : List Byte}

/-- The record that the host's word `v` makes of `r` in core cycle `now`. -/
def wordTally (now v : Nat) (r : Tally) : Tally :=
  { r with
    count := word (v % 2 ^ 32), gen := BitVec.ofNat 24 (bits v 55 32), ovf := bit v 56, unf := bit v 57, mis := bit v 58
    scope := bits v 61 59, lastAdv := if r.gen.toNat = bits v 55 32 then r.lastAdv else some now }

/-- A written record stands: the watches that then fire change no tally. -/
theorem writeTally_tally (n v : Nat) (s : State) :
    ((writeTally n v s).bench (n / 512)).tally (n % 512) = wordTally (coreNow s) v ((s.bench (n / 512)).tally (n % 512)) := by
  unfold writeTally
  rw [(checkWatches_answersOnly ..).tally, setTally_tally]
  rfl

/-- The module in which the host has written tally `n`, with its trace record. -/
def tallyWritten (n v : Nat) (s : State) : State := traceTally 7 n (4 * (n / 512)) 0 0 0 (writeTally n v s)

theorem tallyWritten_within (n v : Nat) (s : State) : Within [.benches, .trc] s (tallyWritten n v s) :=
  traceTally_within (List.Subset.refl _) (writeTally_within (by decide) (.refl ..) ..) ..

theorem setTally_answers {q : Nat} (h : MayRun s m 0x0401 l) (hlen : l.length = 16) (hres : fieldOf l 2 6 = 0)
    (hlo : 2 ≤ bits (fieldOf l 8 8) 61 59) (hhi : bits (fieldOf l 8 8) 61 59 ≤ 5) (hflag : bit (fieldOf l 8 8) 62 = false)
    (hq : partOf s (fieldOf l 0 2 / 512) = some q) (hlive : (s.part q).live = true) :
    ∃ part detail, setTallyCmd m s = respond m 0 0 (leBytes (tallyWord s (fieldOf l 0 2)) 8)
      (logEvent 12 part 0 detail (tallyWritten (fieldOf l 0 2) (fieldOf l 8 8) (wake s))) := by
  rw [setTallyCmd, runCmd_body h rfl (by rw [hlen]; rfl), checked_pass _ _ (by simp [badField, zero, hres, hlo, hhi, hflag])]
  dsimp only
  rw [withTally_pf0 (q := q) _ h.1 (by rwa [wake_partOf]) (by rwa [wake_part]), wake_tallyWord]
  exact ⟨_, _, rfl⟩

end Tallies

/-! ## CONFIG_TRACE (R703) -/

section Trace
variable {s : State} {m : Nat} {l : List Byte}

theorem wake_meetsRegions (s : State) (a n : Nat) : meetsRegions (wake s) a n = meetsRegions s a n := by
  unfold wake
  split <;> rfl

/-- The fields of CONFIG_TRACE are in range. -/
structure TraceFields (l : List Byte) : Prop where
  lo : 10 ≤ bits (fieldOf l 0 8) 8 4
  hi : bits (fieldOf l 0 8) 8 4 ≤ 24
  res : bits (fieldOf l 0 8) 15 9 = 0
  res2 : bits (fieldOf l 0 8) 23 21 = 0
  res3 : bits (fieldOf l 0 8) 63 40 = 0
  align : fieldOf l 8 8 % 2 ^ fieldOf l 16 1 = 0
  slo : 20 ≤ fieldOf l 16 1
  shi : fieldOf l 16 1 ≤ 27
  res4 : fieldOf l 17 7 = 0

/-- The trace block under a new control word and a new buffer: another buffer is empty. -/
def tracedTo (l : List Byte) (t : Trace) : Trace :=
  let new := decide (t.base ≠ fieldOf l 8 8) || decide (t.slog ≠ fieldOf l 16 1)
  { t with
    ctl := BitVec.ofNat 64 (fieldOf l 0 8), base := fieldOf l 8 8, slog := fieldOf l 16 1, off := if new then 0 else t.off
    wraps := if new then 0 else t.wraps, stopped := t.stopped && !new }

theorem wake_trc (s : State) : (wake s).trc = s.trc := by
  unfold wake
  split <;> rfl

theorem configTrace_answers (h : MayRun s m 0x0403 l) (hlen : l.length = 24) (hf : TraceFields l)
    (hrange : gddrRange s (fieldOf l 8 8) (2 ^ fieldOf l 16 1) = true)
    (hmeets : meetsRegions s (fieldOf l 8 8) (2 ^ fieldOf l 16 1) = false) :
    configTrace m s = respond m 0 0 (leBytes s.trc.ctl.toNat 8) { wake s with trc := tracedTo l s.trc } := by
  obtain ⟨hlo, hhi, hres, hres2, hres3, halign, hslo, hshi, hres4⟩ := hf
  rw [configTrace, runCmd_body h rfl (by rw [hlen]; rfl)]
  dsimp only
  rw [checked_pass _ _ (by simp only [badField, zero, List.find?, hlo, hhi, hres, hres2, hres3, halign, hslo, hshi, hres4, decide_true,
    Bool.and_self, Bool.not_true, Option.map_none])]
  simp only [wake_gddrRange, hrange, wake_meetsRegions, hmeets, Bool.true_eq_false, Bool.false_eq_true, or_self, if_false, wake_trc]
  rfl

end Trace

/-! ## WRITE_RECORD (R640 to R644) -/

section Records
variable {s : State} {m : Nat} {l : List Byte}

@[simp] theorem wake_recd (s : State) (r : Nat) : (wake s).recd r = s.recd r := by
  unfold wake
  split <;> rfl

theorem changeRec_recd (r n : Nat) (body : List Byte) (s : State) :
    (changeRec r n body s).recd r = ⟨(s.recd r).gen + n, (s.recd r).left - n, body⟩ := by
  have hboot : (changeRec r n body s).boot =
      (setRec r ⟨(s.recd r).gen + n, (s.recd r).left - n, body⟩ s).boot :=
    (logEvent_within (F := [.fmn]) (List.Subset.refl _) (.refl ..) ..).out .boot (by decide)
  rw [State.recd, hboot]
  exact tblGet_tblSet_same (l := s.boot.recs) ..

/-- WRITE_RECORD once its lengths and fields are in range: the record, its generations, the signature's place, then the signature. -/
theorem writeRecord_decides (h : MayRun s m 0x0501 l) (hmin : 20 ≤ l.length) (hlen : l.length = 8 + fieldOf l 4 4)
    (hr : fieldOf l 0 1 < 8) (hres : fieldOf l 1 3 = 0) :
    writeRecord m s =
      let r := fieldOf l 0 1
      let body := l.drop 20
      if r ≤ 2 ∨ r = 5 then respond m 0x10 0 [] (wake s)
      else if (s.recd r).left = 0 then respond m 0xF 0 [] (wake s)
      else if fieldOf l 12 8 ≠ 0 ∧ gddrRange s (fieldOf l 12 8) 7856 = false then respond m 0x14 0 [] (wake s)
      else if fieldOf l 8 2 ≠ (s.recd r).gen + 1 ∨ fieldOf l 10 2 ≠ 0 ∨ layoutOk r body = false ∨
          recSigned (wake s) r (fieldOf l 8 2) (fieldOf l 12 8) body = false then respond m 0x10 0 [] (wake s)
      else if body = (s.recd r).body then respond m 0 0 (leBytes (s.recd r).left 2) (wake s)
      else respond m 0 0 (leBytes ((s.recd r).left - 1) 2) (changeRec r 1 body (wake s)) := by
  rw [writeRecord, runCmd_body h rfl rfl]
  dsimp only
  rw [if_neg (by omega), checked_pass _ _ (by simp only [badField, below, zero, List.find?, hr, hres, decide_true, Bool.not_true,
    Option.map_none])]
  simp only [wake_recd, wake_gddrRange, changeRec_recd]

theorem respond_recd (status detail : Nat) (payload : List Byte) (s : State) (r : Nat) :
    (respond m status detail payload s).recd r = s.recd r :=
  congrArg (fun x : Boot => tblGet recDefault x.recs r) (respond_boot status detail payload)

end Records

/-- Settles O53: a tally is `writeTally_tally`, the trace block `tracedTo`, and a record what `writeRecord_decides` says. -/
theorem hostWritesRecords : Obligations.HostWritesRecords := by
  intro s m q l n v r x body
  refine ⟨fun h hlen hres hlo hhi hflag hq hlive => ?_, fun h hlen hlo hhi hres hres2 hres3 halign hslo hshi hres4 hrange hmeets => ?_,
    fun h hmin hlen hr hres => ?_⟩
  · obtain ⟨part, detail, hrun⟩ := setTally_answers h hlen hres hlo hhi hflag hq hlive
    have hwritten := tallyWritten_within n v (wake s)
    have htail : Within [.welts, .fmn] (tallyWritten n v (wake s)) (setTallyCmd m s) := by
      rw [hrun]
      exact respond_within (List.Subset.refl _) (logEvent_within (by decide) (.refl ..) ..) ..
    have htally : ((setTallyCmd m s).bench (n / 512)).tally (n % 512) =
        wordTally (coreNow (wake s)) v (((wake s).bench (n / 512)).tally (n % 512)) := by
      rw [bench_of_within htail (by decide), tallyWritten, (traceTally_records ..).tally, writeTally_tally]
    refine ⟨_, rfl, answered_of_respond h hrun ?_, ?_⟩
    · rw [(LinkProofs.logEvent_talked ..).mboxes, hwritten.out .fmn (by decide), wake_fmn]
    · rw [htally]
      exact ⟨by simp [wordTally, word], rfl, rfl⟩
  · have hrun := configTrace_answers h hlen ⟨hlo, hhi, hres, hres2, hres3, halign, hslo, hshi, hres4⟩ hrange hmeets
    have htrc : (configTrace m s).trc = tracedTo l s.trc := by
      rw [hrun]
      exact (respond_within (F := [.welts, .fmn]) (List.Subset.refl _) (.refl ..) ..).out .trc (by decide)
    refine ⟨_, rfl, answered_of_respond h hrun (wake_mboxes s), ?_⟩
    rw [htrc]
    refine ⟨rfl, rfl, rfl, fun hne => ?_⟩
    simp [tracedTo, hne]
  · have hrun := writeRecord_decides h hmin hlen hr hres
    have hwake : (wake s).fmn.mboxes = s.fmn.mboxes := wake_mboxes s
    have hkept : ∀ {u}, u = respond m 0x10 0 [] (wake s) → Answered u m 0x10 0 [] ∧ u.boot.recs = s.boot.recs := fun hu =>
      ⟨answered_of_respond h hu hwake, by rw [hu, respond_boot, wake_boot]⟩
    refine ⟨fun hclosed => ⟨_, rfl, hkept (hrun.trans (if_pos hclosed))⟩,
      fun hopen hleft => ⟨_, rfl, answered_of_respond h (hrun.trans ?_) hwake⟩,
      fun hopen hleft hsig => ?_⟩
    · rw [if_neg (by omega), if_pos hleft]
    · have hplace : ¬ (fieldOf l 12 8 ≠ 0 ∧ gddrRange s (fieldOf l 12 8) 7856 = false) := by
        rintro ⟨h0, hrange⟩
        exact hsig.elim h0 fun hok => by rw [hok] at hrange; cases hrange
      dsimp only at hrun
      rw [if_neg (by omega), if_neg hleft, if_neg hplace] at hrun
      refine ⟨fun hgen => ⟨_, rfl, hkept (hrun.trans (if_pos (.inl hgen)))⟩, fun hgen hres2 hlayout hsigned => ?_⟩
      have hsound : ¬ (fieldOf l 8 2 ≠ x.gen + 1 ∨ fieldOf l 10 2 ≠ 0 ∨ layoutOk r body = false ∨
          recSigned (wake s) r (fieldOf l 8 2) (fieldOf l 12 8) body = false) := by
        rw [hgen, hlayout, hsigned]
        simp [hres2]
      rw [if_neg hsound] at hrun
      refine ⟨fun hnew => ?_, fun hold => ?_⟩
      · rw [if_neg hnew] at hrun
        refine ⟨_, rfl, answered_of_respond h hrun ?_, ?_⟩
        · exact (LinkProofs.logEvent_talked ..).mboxes.trans hwake
        · rw [hrun, respond_recd, changeRec_recd, wake_recd]
      · rw [if_pos hold] at hrun
        refine ⟨_, rfl, answered_of_respond h hrun hwake, ?_⟩
        rw [hrun, respond_recd, wake_recd]

end Sys2Proof.ForemanProofs
end

section
/-! PROOFS. O51: partitions come and go, and resets of every scope begin, pass their point and end. -/

namespace Sys2Proof.ForemanProofs
open Sys2Proof Sys2Proof.Machine Sys2Proof.Laws Sys2Proof.ModuleProofs Sys2Proof.CoreProofs

/-! ## Module resets (R602, R680, R683, R720, R725) -/

/-- `u` is the module `s` after a module reset: the timebase, the records and the record of a thermal trip are kept. -/
structure ModuleCleared (s u : State) : Prop where
  tb : u.tb = s.tb
  recs : u.boot.recs = s.boot.recs
  wetarOn : u.board.wetarOn = false
  cores : u.cores = []
  benches : u.benches = []
  parts : u.parts = State.reset.parts
  thermTrip : u.board.thermTrip = false
  tripRec : u.board.tripRec = s.board.tripRec

theorem moduleReset_cleared (s : State) : ModuleCleared s (moduleReset s) := ⟨rfl, rfl, rfl, rfl, rfl, rfl, rfl, rfl⟩

/-- A module that differs in nothing that a module reset keeps. -/
theorem ModuleCleared.of_kept {s v u : State} (h : ModuleCleared v u) (htb : v.tb = s.tb) (hrecs : v.boot.recs = s.boot.recs)
    (htrip : v.board.tripRec = s.board.tripRec) : ModuleCleared s u :=
  ⟨h.tb.trans htb, h.recs.trans hrecs, h.wetarOn, h.cores, h.benches, h.parts, h.thermTrip, h.tripRec.trans htrip⟩

theorem askModuleReset_runs {s : State} (h : ¬ (s.board.thermTrip = true ∧ 90 ≤ s.pwr.tmax)) : askModuleReset s = moduleReset s :=
  if_neg h

theorem askModuleReset_held {s : State} (htrip : s.board.thermTrip = true) (hhot : 90 ≤ s.pwr.tmax) :
    askModuleReset s = { s with board := { s.board with held := true } } := if_pos ⟨htrip, hhot⟩

/-- PERST_N is low, since now. -/
def perstLow (s : State) : State := { s with board := { s.board with perst := false, perstLowAt := some s.tb } }

theorem perstAssert_short {s : State} {ns : Nat} (h : ns < 1000) : perstAssert ns s = s := if_pos h

theorem perstAssert_long {s : State} {ns : Nat} (hisl : s.board.island = true) (hlow : s.board.perstLowAt = none) (h : 100000 ≤ ns) :
    perstAssert ns s = askModuleReset (perstLow s) := by
  unfold perstAssert
  dsimp only
  rw [if_neg (by omega), if_neg (by omega), if_neg (by simp [hisl, hlow])]
  rfl

theorem refclkReturn_asks {s : State} (hisl : s.board.island = true) (hclk : s.board.refclk = false) :
    refclkReturn s = askModuleReset { s with board := { s.board with refclk := true } } := by
  unfold refclkReturn
  dsimp only
  rw [if_neg (by simp [hisl, hclk])]

theorem refclkLoss_clears {s : State} (hisl : s.board.island = true) (hclk : s.board.refclk = true) :
    (refclkLoss s).board.refclk = false ∧ (refclkLoss s).board.clkLoss = true ∧ (refclkLoss s).cores = [] ∧
      (refclkLoss s).tb = s.tb := by
  unfold refclkLoss
  dsimp only
  rw [if_neg (by simp [hisl, hclk])]
  exact ⟨rfl, rfl, rfl, rfl⟩

theorem perstDeassert_rises {s : State} (hlow : s.board.perst = false) (hw : s.pwr.wstate = 0) :
    perstDeassert s = { s with board := { s.board with perst := true, perstLowAt := none } } := by
  unfold perstDeassert
  dsimp only
  rw [if_neg (by simp [hlow]), if_neg (by simp [hw])]

theorem moduleResets : Claims.ModuleResets := by
  intro s ns t after
  have hafter : ∀ {u}, ModuleCleared s u → after u := fun h =>
    ⟨h.tb, h.recs, h.wetarOn, h.cores, h.benches, h.parts, h.thermTrip, h.tripRec⟩
  refine ⟨fun hisl hlow hcool hlong => ?_, fun hisl hlow htrip hhot hlong => ?_, fun hshort => congrArg _ (perstAssert_short hshort),
    fun hheld => ⟨fun hcool => ?_, fun hhot => congrArg _ (if_neg fun h => Nat.not_lt.mpr hhot h.2)⟩, fun hisl hclk htrip => ?_,
    fun hisl hclk => ⟨_, rfl, refclkLoss_clears hisl hclk⟩, fun hlow hw => congrArg _ (perstDeassert_rises hlow hw)⟩
  · have hrun : perstAssert ns s = moduleReset (perstLow s) := (perstAssert_long hisl hlow hlong).trans (askModuleReset_runs hcool)
    exact ⟨_, congrArg Host.Outcome.next hrun, hafter ((moduleReset_cleared (perstLow s)).of_kept rfl rfl rfl), rfl, rfl⟩
  · have hrun := (perstAssert_long hisl hlow hlong).trans (askModuleReset_held (s := perstLow s) htrip hhot)
    exact ⟨_, congrArg Host.Outcome.next hrun, rfl, rfl⟩
  · exact ⟨_, congrArg Host.Outcome.next (if_pos ⟨hheld, hcool⟩), hafter (moduleReset_cleared s), rfl⟩
  · have hrun := (refclkReturn_asks hisl hclk).trans (askModuleReset_runs (by simp [htrip]))
    exact ⟨_, congrArg Host.Outcome.next hrun, hafter ((moduleReset_cleared _).of_kept rfl rfl rfl), rfl⟩

/-! ## CREATE_PARTITION (R371, R557) -/

section Create
variable {s : State} {m : Nat} {l : List Byte}

/-- The partition that CREATE_PARTITION's payload describes. -/
def askedPart (s : State) (l : List Byte) : Part :=
  { Part.reset with
    live := true, x0 := fieldOf l 1 1, y0 := fieldOf l 2 1, w := fieldOf l 3 1, h := fieldOf l 4 1, lockSig := bit (fieldOf l 5 1) 0
    sigReq := bit (fieldOf l 5 1) 1, cxlWr := bit (fieldOf l 5 1) 2, vf := fieldOf l 6 1, cxlBase := fieldOf l 8 2
    cxlSize := fieldOf l 10 2, energy := (s.part (fieldOf l 0 1)).energy }

/-- The fields of CREATE_PARTITION are in range. -/
structure RectFields (l : List Byte) : Prop where
  part : fieldOf l 0 1 < 8
  x0 : fieldOf l 1 1 % 2 = 0
  y0 : fieldOf l 2 1 % 2 = 0
  w : fieldOf l 3 1 % 2 = 0
  h : fieldOf l 4 1 % 2 = 0
  wide : 2 ≤ fieldOf l 3 1
  high : 2 ≤ fieldOf l 4 1
  east : fieldOf l 1 1 + fieldOf l 3 1 ≤ 16
  north : fieldOf l 2 1 + fieldOf l 4 1 ≤ 8
  flags : fieldOf l 5 1 < 8
  vf : fieldOf l 6 1 < 9
  res : fieldOf l 7 1 = 0
  base : fieldOf l 8 2 < 4096
  size : fieldOf l 10 2 < 4097

theorem wake_rectWhy (s : State) (new : Part) : rectWhy (wake s) new = rectWhy s new := by
  unfold wake
  split <;> rfl

/-- The module with a new partition `p`, without relocation regions and with its CXL window. -/
def withNewPart (p : Nat) (new : Part) (s : State) : State := putWindow p new (putReloc p [] (s.updPart p fun _ => new))

theorem createPartition_decides (h : MayRun s m 0x0201 l) (hlen : l.length = 12) (hf : RectFields l)
    (hfree : (s.part (fieldOf l 0 1)).live = false) :
    createPartition m s = if rectWhy s (askedPart s l) ≠ 0 then respond m 8 (rectWhy s (askedPart s l)) [] (wake s)
      else respond m 0 0 [] (withNewPart (fieldOf l 0 1) (askedPart s l) (wake s)) := by
  obtain ⟨hp, hx, hy, hw, hh, hwide, hhigh, heast, hnorth, hflags, hvf, hres, hbase, hsize⟩ := hf
  have hx16 : fieldOf l 1 1 < 16 := by omega
  have hy8 : fieldOf l 2 1 < 8 := by omega
  have hroom : (List.range 8).all (fun p => (s.part p).live) = false := by
    rw [List.all_eq_false]
    exact ⟨_, List.mem_range.mpr hp, by rw [hfree]; decide⟩
  rw [createPartition, runCmd_body h rfl (by rw [hlen]; rfl)]
  dsimp only
  rw [checked_pass _ _ (by simp only [badField, below, zero, List.find?, hp, hx, hy, hw, hh, hwide, hhigh, heast, hnorth, hflags, hvf,
    hres, hbase, hsize, hx16, hy8, decide_true, Bool.and_self, Bool.not_true, Option.map_none])]
  simp only [wake_part, hroom, hfree, wake_rectWhy, Bool.false_eq_true, if_false]
  rfl

theorem withNewPart_part (p : Nat) (new : Part) (s : State) : (withNewPart p new s).part p = new :=
  (part_of_within (F := [.benches]) (putWindow_within (List.Subset.refl _) (putReloc_within (by decide) (.refl ..) ..) ..) (by decide) p).trans
    (updPart_part s p fun _ => new)

theorem withNewPart_fmn (p : Nat) (new : Part) (s : State) : (withNewPart p new s).fmn = s.fmn :=
  (putWindow_within (F := [.parts, .benches]) (by decide) (putReloc_within (by decide)
    (State_updPart_within (by decide) (.refl ..) ..) ..) ..).out .fmn (by decide)

end Create

/-! ## Resets begin (R558, R677, R679, R683 to R685) -/

theorem respond_part (m status detail : Nat) (payload : List Byte) (s : State) (p : Nat) :
    (respond m status detail payload s).part p = s.part p :=
  part_of_within (F := [.welts, .fmn]) (respond_within (List.Subset.refl _) (.refl ..) ..) (by decide) p

theorem beginReset_resets (sc : Scope) (l : List Nat) (s : State) : 
    (beginReset sc l s).resets = s.resets ++ [⟨sc, false, s.tb, l⟩] := by
  unfold beginReset
  cases sc <;> rfl

/-- A command that asks for a reset is answered at the end of one. -/
theorem joinReset_joins (sc : Scope) (m : Nat) (s : State) : ∃ r, r ∈ (joinReset sc m s).resets ∧ r.scope = sc ∧ m ∈ r.mbox := by
  unfold joinReset
  split
  · next h =>
    obtain ⟨r, hr, hsc⟩ := List.any_eq_true.mp h
    have hsc : r.scope = sc := of_decide_eq_true hsc
    exact ⟨{ r with mbox := m :: r.mbox }, List.mem_map.mpr ⟨r, hr, if_pos hsc⟩, hsc, List.mem_cons_self⟩
  · rw [beginReset_resets]
    exact ⟨_, List.mem_append_right _ List.mem_cons_self, rfl, List.mem_cons_self⟩

section Begin
variable {s : State} {m : Nat} {l : List Byte}

theorem destroyPartition_decides (h : MayRun s m 0x0202 l) (hlen : l.length = 1) (hp : fieldOf l 0 1 < 8)
    (hlive : (s.part (fieldOf l 0 1)).live = true) :
    destroyPartition m s = if anyActive (s.part (fieldOf l 0 1)) = true then respond m 7 0 [] (wake s)
      else joinReset (.part (fieldOf l 0 1)) m (forAll (List.range 16) (unload (fieldOf l 0 1)) (wake s)) := by
  rw [destroyPartition, runCmd_body h rfl (by rw [hlen]; rfl), checked_pass _ _ (by simp [badField, below, hp])]
  simp only [wake_part, hlive, Bool.true_eq_false, if_false]

theorem resetScope_core {p : Nat} (h : MayRun s m 0x0203 l) (hlen : l.length = 4) (hk : fieldOf l 0 1 = 0) (hres : fieldOf l 1 1 = 0)
    (ht : fieldOf l 2 2 < 512) (hq : partOf s (fieldOf l 2 2 / 4) = some p) (hlive : (s.part p).live = true) :
    resetScope m s = if anyActive (s.part p) = true then respond m 7 0 [] (wake s)
      else joinReset (.core (fieldOf l 2 2)) m (wake s) := by
  have hpart : scopePart (wake s) (.core (fieldOf l 2 2)) = some p := (wake_partOf s _).trans hq
  rw [resetScope, runCmd_body h rfl (by rw [hlen]; rfl)]
  dsimp only
  rw [checked_pass _ _ (by simp [badField, below, zero, hk, hres, ht])]
  simp only [hk, scopeNamed, if_true, hpart, Nat.reduceLeDiff, if_false]
  rw [withPart_pf0 _ h.1 (by rwa [wake_part])]
  simp only [busyScope, hpart, wake_part, reduceCtorEq, if_false]

theorem faultReset_begins {p : Nat} (hlive : (s.part p).live = true) (hfault : (s.part p).faultReset = true)
    (hreset : (s.part p).resetting = false) (hidle : anyActive (s.part p) = false) : faultReset p s = beginReset (.part p) [] s := by
  simp [faultReset, hlive, hfault, hreset, hidle]

end Begin

/-! ## RESET_POINT (R686) -/

/-- A bench without watches. -/
def unwatch (b : Nat) (s : State) : State := s.updBench b (fun x => { x with watches := [] })

theorem forAll_unwatch {l : List Nat} {b : Nat} (hb : b ∈ l) (s : State) : ((forAll l unwatch s).bench b).watches = [] := by
  refine forAll_reaches (P := fun _ => True) (Q := fun u => (u.bench b).watches = []) (fun _ _ _ => .inl trivial) (fun d u hu => ?_)
    (fun u _ => ?_) hb trivial
  · rw [unwatch, updBench_get]
    split
    · rfl
    · exact hu
  · rw [unwatch, updBench_bench]

/-- The parts that dividing the traffic of a scope changes: the resets are none of them. -/
def divided : List Field := [.mem, .bad, .cores, .benches, .welts, .streams, .clicker, .ring, .trc, .free, .pwr]

/-- The point of a reset is passed: the traffic is divided, the scope's watches are gone, and open-class queues go on draining. -/
theorem resetPoint_passes {s : State} {sc : Scope} (hm : sc ≠ .module)
    (hr : s.resets.any (fun r => decide (r.scope = sc) && !r.point) = true) :
    ∃ v, Within divided { s with resets := s.resets.map (fun r => if r.scope = sc then { r with point := true } else r) } v ∧
      resetPoint sc s = forAll (List.range 8) drainAgain (forAll (scopeBenches s sc) unwatch v) := by
  unfold resetPoint
  rw [if_neg (by rw [hr]; decide), if_neg hm]
  dsimp only
  refine ⟨_, ?_, rfl⟩
  refine forAll_within (forAll_within ?_ fun _ _ hv => pointCore_within (by decide) hv _) fun _ _ hv =>
    forAll_within hv fun _ _ hv => peerReset_within (by decide) hv _ _ _
  split
  · exact pointStreams_within (by decide) (.refl ..) _
  · exact forAll_within (.refl ..) fun _ _ hv => pointStreams_within (by decide) hv _
  · exact .refl ..

theorem forAll_drainAgain_within (l : List Nat) (s : State) : Within [.parts] s (forAll l drainAgain s) :=
  forAll_within (.refl ..) fun _ _ hv => drainAgain_within (List.Subset.refl _) hv _

theorem forAll_unwatch_within (l : List Nat) (s : State) : Within [.benches] s (forAll l unwatch s) :=
  forAll_within (.refl ..) fun _ _ hv => State_updBench_within (List.Subset.refl _) hv _ _

theorem resetPoint_one {s : State} {r : Reset} (hm : r.scope ≠ .module) (hr : s.resets = [r]) (hp : r.point = false) :
    (resetPoint r.scope s).resets = [{ r with point := true }] ∧
      ∀ b, b < 128 → scopeBench s r.scope b = true → ((resetPoint r.scope s).bench b).watches = [] := by
  obtain ⟨v, hv, heq⟩ := resetPoint_passes (s := s) hm (by simp [hr, hp])
  rw [heq]
  refine ⟨?_, fun b hb hin => ?_⟩
  · rw [(forAll_drainAgain_within ..).out .resets (by decide), (forAll_unwatch_within ..).out .resets (by decide), hv.out .resets (by decide)]
    simp [hr]
  · rw [bench_of_within (forAll_drainAgain_within ..) (by decide)]
    exact forAll_unwatch (List.mem_filter.mpr ⟨List.mem_range.mpr hb, hin⟩) v

/-! ## RESET_END (R680, R684) -/

theorem resetEnd_waits {s : State} {r : Reset} (hr : s.resets = [r]) (hp : r.point = true) (hd : drained s r.scope = false) :
    resetEnd r.scope s = s := by
  simp [resetEnd, hr, hp, hd]

/-- A core after its reset: the activation table and the samples at the assay unit stay. -/
theorem clearCore_core (c j : Nat) (s : State) : (clearCore c s).core j =
    if c = j then
      { Core.reset with
        act := (s.core c).act, samplesQ := (s.core c).samplesQ, cycFrom := (s.core c).cycFrom.map fun _ => coreNow s }
    else s.core j :=
  updCore_get s c j fun k =>
    { Core.reset with act := k.act, samplesQ := k.samplesQ, cycFrom := k.cycFrom.map (fun _ => coreNow s) }

/-- The end of a core's reset, with no command to answer: the core is cleared, and its partition's programs start anew. -/
theorem resetEnd_core {s : State} {r : Reset} {t : Nat} (hsc : r.scope = .core t) (hr : s.resets = [r]) (hp : r.point = true)
    (hm : r.mbox = []) (hd : drained s (.core t) = true) :
    (resetEnd (.core t) s).resets = [] ∧ ∀ j, (resetEnd (.core t) s).core j = (clearCore t (finishAborts [t] s)).core j := by
  have hfind : s.resets.find? (fun r => decide (r.scope = .core t) && r.point) = some r := by simp [hr, hsc, hp]
  have hresets : (clearScope (.core t) s).resets = [r] :=
    ((clearScope_within (List.Subset.refl _) (.refl ..) _).out .resets (by decide)).trans hr
  have hcores : ∀ j, (clearScope (.core t) s).core j = (clearCore t (finishAborts [t] s)).core j :=
    core_of_within (lockWire_within (F := [.board]) (List.Subset.refl _) (.refl ..)) (by decide)
  unfold resetEnd
  rw [hfind]
  dsimp only
  rw [if_neg (by simp [hd]), hm]
  generalize clearScope (.core t) s = v at hresets hcores
  have hdone : ∀ u, Within [.parts] { v with resets := v.resets.filter (fun x => decide (x ≠ r)) } u →
      u.resets = [] ∧ ∀ j, u.core j = (clearCore t (finishAborts [t] s)).core j := fun u hu =>
    ⟨(hu.out .resets (by decide)).trans (by simp [hresets]), fun j => (core_of_within hu (by decide) j).trans (hcores j)⟩
  refine hdone _ ?_
  split
  · exact freshProgs_within (List.Subset.refl _) (.refl ..) _
  · exact .refl ..

theorem finishAborts_core (l : List Nat) (s : State) (j : Nat) : (finishAborts l s).core j = s.core j :=
  core_of_within (finishAborts_within (List.Subset.refl _) (.refl ..) l) (by decide) j

theorem partitionsAndResets : Claims.PartitionsAndResets := by
  intro s m p t l sc r x0 y0 w h new
  refine ⟨fun hrun hlen he hp hx hy hw hh hwide hhigh heast hnorth hflags hvf hres hbase hsize hfree => ?_,
    fun hrun hlen he hp hlive => ?_, fun hrun hlen hk hres he ht hq hlive => ?_, fun hp hlive hfault hreset hidle => ?_,
    fun hm hr he hpoint => ?_, fun he ht hr hsc hpoint hm hd => ?_, fun hpoint he hr hd => ?_⟩
  · subst he
    have hrun' := createPartition_decides hrun hlen ⟨hp, hx, hy, hw, hh, hwide, hhigh, heast, hnorth, hflags, hvf, hres, hbase, hsize⟩ hfree
    refine ⟨fun hok => ?_, fun hwhy => ?_⟩
    · have hok : rectWhy s (askedPart s l) = 0 := hok
      rw [if_neg (not_not.mpr hok)] at hrun'
      refine ⟨_, rfl, answered_of_respond hrun hrun' (by rw [withNewPart_fmn]; exact wake_mboxes s), ?_⟩
      rw [hrun', respond_part, withNewPart_part]
      rfl
    · exact ⟨_, rfl, answered_of_respond hrun (hrun'.trans (if_pos hwhy)) (wake_mboxes s)⟩
  · subst he
    have hrun' := destroyPartition_decides hrun hlen hp hlive
    refine ⟨fun hbusy => ⟨_, rfl, answered_of_respond hrun (hrun'.trans (if_pos hbusy)) (wake_mboxes s)⟩,
      fun hidle => ⟨_, rfl, ?_⟩⟩
    rw [hrun', if_neg (by rw [hidle]; decide)]
    refine ⟨?_, joinReset_joins ..⟩
    have hmbox := (joinReset_within (F := [.parts, .resets, .benches, .clicker]) (by decide) (forAll_within (l := List.range 16)
      (.refl _ (wake s)) fun k v hv => unload_within (by decide) hv (fieldOf l 0 1) k) (.part (fieldOf l 0 1)) m).out .fmn (by decide)
    exact congrArg MBox.owner (mbox_of_mboxes ((congrArg Fmn.mboxes hmbox).trans (wake_mboxes s)) m)
  · subst he
    have hrun' := resetScope_core hrun hlen hk hres ht hq hlive
    refine ⟨fun hbusy => ⟨_, rfl, answered_of_respond hrun (hrun'.trans (if_pos hbusy)) (wake_mboxes s)⟩,
      fun hidle => ⟨_, rfl, ?_⟩⟩
    rw [hrun', if_neg (by rw [hidle]; decide)]
    exact joinReset_joins ..
  · have hexec : exec (.faultPartitionReset p) s = .next (faultReset p s) := congrArg Host.Outcome.next (if_pos hp)
    rw [hexec, faultReset_begins hlive hfault hreset hidle]
    exact ⟨_, rfl, beginReset_resets .., congrArg Part.resetting (updPart_part _ p fun q => { q with resetting := true })⟩
  · subst he
    exact ⟨_, rfl, resetPoint_one hm hr hpoint⟩
  · subst he
    obtain ⟨hresets, hcores⟩ := resetEnd_core hsc hr hpoint hm hd
    have hcore : ∀ j, (resetEnd (.core t) s).core j = (clearCore t (finishAborts [t] s)).core j := hcores
    simp only [clearCore_core, finishAborts_core] at hcore
    have hown := (hcore t).trans (if_pos rfl)
    exact ⟨_, rfl, hresets, fun i => by rw [hown]; rfl, by rw [hown], fun _ c hc => (hcore c).trans (if_neg (Ne.symm hc))⟩
  · subst he
    exact congrArg _ (resetEnd_waits hr hpoint hd)

/-- Settles O51: the commands on partitions and scopes are their `_decides` lemmas, the reset point is `resetPoint_one`, the end of a
core's reset `resetEnd_core`, and a module reset `moduleReset_cleared`. -/
theorem partitionsAndModuleResets : Obligations.PartitionsAndModuleResets := ⟨partitionsAndResets, moduleResets⟩

end Sys2Proof.ForemanProofs
end

section
/-! PROOFS. O50, the programs of a partition: a package is loaded, its job starts, and it gives its slot back. -/

namespace Sys2Proof.ForemanProofs
open Sys2Proof Sys2Proof.Machine Sys2Proof.Laws Sys2Proof.ModuleProofs

section Programs
variable {s : State} {m : Nat} {l : List Byte}

/-- What lies outside the Foreman's state leaves the mailboxes. -/
theorem mboxes_of_within {F : List Field} {s u : State} (h : Within F s u) (hF : Field.fmn ∉ F) : u.fmn.mboxes = s.fmn.mboxes :=
  congrArg Fmn.mboxes (h.out .fmn hF)

theorem moveDown_part (s : State) (p : Nat) : (moveDown s).part p = s.part p :=
  part_of_within (F := [.pwr]) (moveDown_within (by decide) (.refl ..)) (by decide) p

theorem moveDown_mboxes (s : State) : (moveDown s).fmn.mboxes = s.fmn.mboxes :=
  mboxes_of_within (F := [.pwr]) (moveDown_within (by decide) (.refl ..)) (by decide)

/-! ## A package comes into a slot (R568 to R574) -/

theorem putPackage_prog (p k j : Nat) (s : State) : ((putPackage p k s).part p).prog j = (s.part p).prog j := by
  have hput : Within [.cores, .benches] s
      (putSrconns p ((s.part p).prog k) (putCores p ((s.part p).prog k) (putReloc p ((s.part p).prog k).sect.reloc s))) :=
    putSrconns_within (by decide) (putCores_within (by decide) (putReloc_within (by decide) (.refl ..) _ _) _ _) _ _
  unfold putPackage
  dsimp only
  rw [updPart_part, part_of_within hput (by decide)]
  rfl

/-- A program that comes into the benches has nothing saved and is no longer fresh. -/
theorem installFresh_prog (p k : Nat) (s : State) :
    ((installFresh p k s).part p).prog k = { (s.part p).prog k with saved := none, fresh := false } := by
  simp only [installFresh, updPart_part, Part.updProg_prog]
  rw [part_of_within (s := putPackage p k s) (F := placed) ?_ (by decide), putPackage_prog]
  refine forAll_within (Within.set_clicker (by decide) ?_) fun e v hv => ?_
  · refine forAll_within (forAll_within (forAll_within (forAll_within (forAll_within (forAll_within (forAll_within
      (.refl ..) ?_) ?_) ?_) ?_) ?_) ?_) ?_
    · exact fun _ _ hv => State_updBench_within (by decide) hv _ _
    · exact fun _ _ hv => State_updCore_within (by decide) hv _ _
    · exact fun _ _ hv => setEntry_within (by decide) hv _ _ _
    · exact fun _ _ hv => setConn_within (by decide) hv _ _ _
    · exact fun _ _ hv => State_updBench_within (by decide) hv _ _
    · exact fun _ _ hv => write_within (by decide) hv _ _
    · exact fun _ _ hv => queueWrite_within (by decide) hv _ _ _ _
  · split
    · exact cutPath_within (by decide) hv _ _ _ _ _ (_, _) ‹_›
    · exact hv

/-- A program put into a slot stands in it with its state and its sections. -/
theorem place_prog (p k : Nat) (g : Program) (s : State) :
    (((place p k g s).part p).prog k).js = g.js ∧ (((place p k g s).part p).prog k).sect = g.sect := by
  have hput : ∀ v, Within [.streams] (s.updPart p fun q => q.updProg k fun _ => g) v → (v.part p).prog k = g := fun v hv => by
    rw [part_of_within hv (by decide), updPart_part, Part.updProg_prog]
  have hopen := hput _ (forAll_within (l := g.sect.streams) (.refl ..) fun d v hv => State_updStream_within (by decide) hv d.id
    fun _ => streamEntry p (k + 1) d (benchAt (s.part p) d.sbench))
  unfold place
  dsimp only
  split
  · rw [installFresh_prog, hopen]; exact ⟨rfl, rfl⟩
  · rw [hopen]; exact ⟨rfl, rfl⟩

theorem placeSave_program {p : Nat} {g : Program} {s : State} {r : Program × State} (h : placeSave p g s = some r) :
    r.1.js = g.js ∧ r.1.sect = g.sect := by
  unfold placeSave at h
  dsimp only at h
  split at h
  · cases h
  · obtain ⟨a, -, rfl⟩ := Option.map_eq_some_iff.mp h
    exact ⟨rfl, rfl⟩

/-- LOAD_PROGRAM of the sound program `g` into slot `k`, once its admission has given `r`. -/
def loadAdmitted (m p k : Nat) (g : Program) (r : Nat × Nat × Nat) (s : State) : State :=
  if r.1 ≠ 0 then respond m 0xC r.1 [] s
  else match placeSave p g s with
    | none => respond m 9 3 [] s
    | some (g1, s1) => respond m 0 0 (leBytes k 1 ++ leBytes g.nvar 1 ++ leBytes r.2.1 1 ++ [0] ++ satBytes r.2.2 4)
        (moveDown (place p k g1 s1))

/-- LOAD_PROGRAM of the program `g` of a package at `a` that finds slot `k` empty. -/
def loadAt (m p k a len : Nat) (g : Program) (s : State) : State :=
  match packageWhy s p a len g with
  | none => respond m 0xB 0 [] s
  | some 0 => loadAdmitted m p k g (admission s p g (admitted s)) s
  | some d => respond m 0xA d [] s

/-- LOAD_PROGRAM looks for the lowest empty slot. -/
theorem loadProgram_loads (h : MayRun s m 0x0101 l) (hlen : l.length = 24) (hp : fieldOf l 0 1 < 8) (hz : fieldOf l 1 7 = 0)
    (hlive : (s.part (fieldOf l 0 1)).live = true) (hrange : gddrRange s (fieldOf l 8 8) (fieldOf l 16 8) = true) {k : Nat} (hk : k < 16)
    (hfree : ((s.part (fieldOf l 0 1)).prog k).js = 0) (hfirst : ∀ n, n < k → ((s.part (fieldOf l 0 1)).prog n).js ≠ 0)
    (pkg : Sections) :
    loadProgram m pkg s =
      loadAt m (fieldOf l 0 1) k (fieldOf l 8 8) (fieldOf l 16 8) (programAt (wake s) (fieldOf l 8 8) pkg) (wake s) := by
  have hfields : badField l [(0, 1, below 8), (1, 7, zero)] = none := by simp [badField, below, zero, hp, hz]
  have hslot : findBelow 16 (fun n => decide (((s.part (fieldOf l 0 1)).prog n).js = 0)) = some k :=
    ChannelProofs.findBelow_first hk (decide_eq_true hfree) fun n hn => decide_eq_false (hfirst n hn)
  rw [loadProgram, runCmd_body h rfl (by rw [hlen]; rfl), checked_pass _ _ hfields]
  dsimp only
  rw [withPart_pf0 _ h.1 (by rwa [wake_part]), wake_gddrRange, hrange, wake_part, hslot]
  rfl

section LoadAt
variable {p k a len : Nat} {g : Program}

theorem loadAt_badPackage {d : Nat} (h : packageWhy s p a len g = some (d + 1)) : loadAt m p k a len g s = respond m 0xA (d + 1) [] s := by
  unfold loadAt
  rw [h]
  rfl

theorem loadAt_unsigned (h : packageWhy s p a len g = none) : loadAt m p k a len g s = respond m 0xB 0 [] s := by
  unfold loadAt
  rw [h]

theorem loadAt_sound (h : packageWhy s p a len g = some 0) :
    loadAt m p k a len g s = loadAdmitted m p k g (admission s p g (admitted s)) s := by
  unfold loadAt
  rw [h]
  rfl

variable {r : Nat × Nat × Nat}

theorem loadAdmitted_refused {n : Nat} (hadm : r.1 = n + 1) : loadAdmitted m p k g r s = respond m 0xC (n + 1) [] s := by
  unfold loadAdmitted
  rw [if_pos (by omega), hadm]

theorem loadAdmitted_noSave (hadm : r.1 = 0) (hsave : placeSave p g s = none) : loadAdmitted m p k g r s = respond m 9 3 [] s := by
  unfold loadAdmitted
  rw [if_neg (not_not_intro hadm), hsave]

theorem loadAdmitted_places (hadm : r.1 = 0) {x : Program × State} (hsave : placeSave p g s = some x) :
    loadAdmitted m p k g r s = respond m 0 0 (leBytes k 1 ++ leBytes g.nvar 1 ++ leBytes r.2.1 1 ++ [0] ++ satBytes r.2.2 4)
      (moveDown (place p k x.1 x.2)) := by
  unfold loadAdmitted
  rw [if_neg (not_not_intro hadm), hsave]

end LoadAt

/-- Finding room for a save region and taking the program in change no mailbox. -/
theorem placed_mboxes {p k : Nat} {g : Program} {r : Program × State} (h : placeSave p g s = some r) :
    (moveDown (place p k r.1 r.2)).fmn.mboxes = s.fmn.mboxes :=
  mboxes_of_within (F := [.mem, .bad, .cores, .benches, .streams, .ports, .parts, .clicker, .ring, .pwr])
    (moveDown_within (by decide) (place_within (by decide) (placeSave_within (by decide) (.refl ..) p g r h) ..)) (by decide)

/-! ## A slot is given back (R578) -/

theorem releaseProg_part (p j : Nat) (s : State) : (releaseProg p s).part j = s.part j :=
  part_of_within (F := [.benches, .clicker]) (releaseProg_within (by decide) (.refl ..) p) (by decide) j

theorem putReloc_part (p j : Nat) (l : List Dword) (s : State) : (putReloc p l s).part j = s.part j :=
  part_of_within (F := [.benches]) (putReloc_within (by decide) (.refl ..) p l) (by decide) j

theorem unload_part (p k : Nat) (s : State) : (unload p k s).part p =
    { (s.part p).updProg k (fun _ => Program.reset) with cur := if decide ((s.part p).cur = k + 1) then 0 else (s.part p).cur } := by
  unfold unload
  dsimp only
  split
  · rw [releaseProg_part, putReloc_part, updPart_part]
  · rw [updPart_part]

theorem unload_prog (p k : Nat) (s : State) : ((unload p k s).part p).prog k = Program.reset := by
  rw [unload_part]
  exact Part.updProg_prog (s.part p) k fun _ => Program.reset

/-- The program in place leaves none there. -/
theorem unload_cur {p k : Nat} (h : (s.part p).cur = k + 1) : ((unload p k s).part p).cur = 0 := by
  rw [unload_part]
  exact if_pos (decide_eq_true h)

theorem unload_mboxes (p k : Nat) (s : State) : (unload p k s).fmn.mboxes = s.fmn.mboxes :=
  mboxes_of_within (F := [.benches, .parts, .clicker]) (unload_within (by decide) (.refl ..) p k) (by decide)

theorem unloadProgram_eq (h : MayRun s m 0x0102 l) (hlen : l.length = 2) (hp : fieldOf l 0 1 < 8) (hk : fieldOf l 1 1 < 16)
    (hlive : (s.part (fieldOf l 0 1)).live = true) :
    unloadProgram m s =
      if ((s.part (fieldOf l 0 1)).prog (fieldOf l 1 1)).js = 0 then respond m 0xD 0 [] (wake s)
      else if activeJob ((s.part (fieldOf l 0 1)).prog (fieldOf l 1 1)) then respond m 7 0 [] (wake s)
      else respond m 0 0 [] (unload (fieldOf l 0 1) (fieldOf l 1 1) (wake s)) := by
  rw [unloadProgram, runCmd_body h rfl (by rw [hlen]; rfl), checked_pass _ _ (progFields_pass hp hk)]
  dsimp only
  rw [withPart_pf0 _ h.1 (by rwa [wake_part]), wake_part]

/-! ## A job starts (R575) -/

/-- The job of program `g` starts, with its id and the frames asked for. -/
def startedJob (jobid frames : Nat) (g : Program) : Program :=
  { g with js := 2, stopBy := 0, stopWhy := 0, job := { Job.reset with jobid := jobid, framesAsked := frames } }

theorem startJob_starts (h : MayRun s m 0x0103 l) (hlen : l.length = 16) (hp : fieldOf l 0 1 < 8) (hk : fieldOf l 1 1 < 16)
    (hz : fieldOf l 2 2 = 0) (hlive : (s.part (fieldOf l 0 1)).live = true)
    (hjs : ((s.part (fieldOf l 0 1)).prog (fieldOf l 1 1)).js ≠ 0)
    (hidle : activeJob ((s.part (fieldOf l 0 1)).prog (fieldOf l 1 1)) = false)
    (hfence : fencedPart (wake s) (fieldOf l 0 1) = false) (hready : partReady (s.part (fieldOf l 0 1)) = true)
    (hadm : (admission (wake s) (fieldOf l 0 1) ((s.part (fieldOf l 0 1)).prog (fieldOf l 1 1))
      ((admitted (wake s)).filter (fun e => !(decide (e.1 = fieldOf l 0 1) && decide (e.2.1 = fieldOf l 1 1))))).1 = 0) :
    startJob m s = respond m 0 0 [] (moveDown ((wake s).updPart (fieldOf l 0 1)
      fun q => q.updProg (fieldOf l 1 1) (startedJob (fieldOf l 4 4) (fieldOf l 8 8)))) := by
  have hfields : badField l (progFields ++ [(2, 2, zero)]) = none := by simp [badField, progFields, below, zero, hp, hk, hz]
  rw [startJob, runCmd_body h rfl (by rw [hlen]; rfl), checked_pass _ _ hfields]
  dsimp only
  rw [withPart_pf0 _ h.1 (by rwa [wake_part]), wake_part, if_neg hjs, if_neg (by simp [hidle, hfence, hready]), if_neg (not_not_intro hadm)]
  rfl

end Programs
end Sys2Proof.ForemanProofs
end

section
/-! PROOFS. O50, the stop of a frame: what asking one thread to stop (R270, R744) leaves of another, and of the partitions. -/

namespace Sys2Proof.ForemanProofs
open Sys2Proof Sys2Proof.Machine Sys2Proof.Laws Sys2Proof.ModuleProofs Sys2Proof.TileProofs

/-! ## Threads that a stop passes by -/

/-- From `s` to `u` thread `t` stands as it did, and every core has its configured contexts. -/
structure Aside (t : Thread) (s u : State) : Prop where
  st : (u.ctx t).st = (s.ctx t).st
  wait : (u.ctx t).wait = (s.ctx t).wait
  suspReq : (u.ctx t).suspReq = (s.ctx t).suspReq
  width : ∀ c, nCtx u c = nCtx s c

theorem nCtx_of_reg {s u : State} {c : Nat} (h : (u.core c).reg 0x120 = (s.core c).reg 0x120) : nCtx u c = nCtx s c := by
  simp only [nCtx, h]

section Rules
variable {t v : Thread} {s u w : State}

theorem Aside.refl (t : Thread) (s : State) : Aside t s s := ⟨rfl, rfl, rfl, fun _ => rfl⟩

theorem Aside.trans (h : Aside t s u) (k : Aside t u w) : Aside t s w :=
  ⟨k.st.trans h.st, k.wait.trans h.wait, k.suspReq.trans h.suspReq, fun c => (k.width c).trans (h.width c)⟩

theorem Aside.of_resvOnly (h : ResvOnly s u) : Aside t s u :=
  ⟨by rw [h.ctxs t], by rw [h.ctxs t], by rw [h.ctxs t], fun c => nCtx_of_reg (by rw [h.cores c]; rfl)⟩

theorem Aside.of_within {F : List Field} (h : Within F s u) (hc : Field.cores ∉ F) : Aside t s u := .of_resvOnly (.of_within h hc)

theorem Aside.updCore (s : State) (c : Nat) {f : Core → Core} (hctx : ∀ k i, (f k).ctx i = k.ctx i)
    (hreg : ∀ k, (f k).reg 0x120 = k.reg 0x120) : Aside t s (s.updCore c f) := by
  have hsame : (s.updCore c f).ctx t = s.ctx t := by
    rw [State.ctx, updCore_get]
    split
    · next h => rw [hctx, h, State.ctx]
    · rfl
  refine ⟨by rw [hsame], by rw [hsame], by rw [hsame], fun d => nCtx_of_reg ?_⟩
  rw [updCore_get]
  split
  · next h => rw [hreg, h]
  · rfl

theorem Aside.set_free (h : Aside t s u) (n : Nat) : Aside t s { u with free := n } := ⟨h.st, h.wait, h.suspReq, h.width⟩

theorem nCtx_updCtx (s : State) (v : Thread) (f : Ctx → Ctx) (c : Nat) : nCtx (s.updCtx v f) c = nCtx s c :=
  nCtx_of_reg (by rw [updCtx_cores]; rfl)

theorem Aside.of_forAll {α : Type} {l : List α} {f : α → State → State} (hf : ∀ a x, Aside t s x → Aside t s (f a x))
    (h : Aside t s u) :
    Aside t s (forAll l f u) := forAll_keeps (Q := Aside t s) hf h

theorem endBeats_ctx (op : TOp) (n : Nat) (k : Core) (i : Nat) : (endBeats op n k).ctx i = k.ctx i := by
  unfold endBeats; dsimp only; split <;> rfl

theorem endBeats_reg (op : TOp) (n : Nat) (k : Core) (r : Nat) : (endBeats op n k).reg r = k.reg r := by
  unfold endBeats; dsimp only; split <;> rfl

theorem withoutOp_aside (t v : Thread) (s : State) : Aside t s (withoutOp v s) := .updCore s v.core (fun _ _ => rfl) fun _ => rfl

theorem coreCount_aside (t : Thread) (c o n : Nat) (s : State) : Aside t s (coreCount c o n s) :=
  .of_within (F := [.benches, .parts]) (coreCount_within (by decide) (.refl ..) c o n) (by decide)

end Rules

section Others
variable {t v : Thread} (hv : v ≠ t) {s : State}
include hv

theorem Aside.updCtx (s : State) (f : Ctx → Ctx) : Aside t s (s.updCtx v f) := by
  have hsame : (s.updCtx v f).ctx t = s.ctx t := by rw [updCtx_get, if_neg hv]
  exact ⟨by rw [hsame], by rw [hsame], by rw [hsame], nCtx_updCtx s v f⟩

/-! ## The completion of another thread's instruction -/

theorem pushOps_aside (pops : Nat) (push : List Word) (s : State) : Aside t s (pushOps v pops push s) := by
  unfold pushOps
  dsimp only
  split
  · exact .updCtx hv s _
  · exact (Aside.updCtx hv s _).trans (.of_resvOnly (spillWords_resvOnly ..))

theorem advance_aside (len : Nat) (s : State) : Aside t s (advance v len s) := by
  unfold advance
  dsimp only
  split
  · split
    · exact .updCtx hv s _
    · split
      · exact .updCtx hv s _
      · split
        · exact (Aside.updCtx hv s _).set_free _
        · exact (Aside.updCtx hv s _).set_free _
  · exact .updCtx hv s _

theorem popHeld_aside (push : List Word) (s : State) : Aside t s (popHeld v push s) := by
  rw [popHeld_eq]
  simp only [complete, pushRets_nothing]
  exact ((Aside.updCtx hv s _).trans (pushOps_aside hv ..)).trans (advance_aside hv ..)

/-- A stop reaches only the thread that is asked, and those that wait for it in THSUSP. -/
theorem stopCheck_aside (n : Nat) (hw : ∀ i, (s.ctx t).wait ≠ .thsusp i) : Aside t s (stopCheck n v s) := by
  induction n generalizing v s with
  | zero => exact .refl ..
  | succ n ih =>
    have hstop : Aside t s (if (s.ctx v).st = .run then suspendNow v s else s.updCtx v (fun x => { x with suspReq := false })) := by
      split
      · exact .updCtx hv s _
      · exact .updCtx hv s _
    unfold stopCheck
    dsimp only
    split
    · refine .of_forAll (fun i u hu => ?_) hstop
      split
      · next h =>
        have hi : (⟨v.core, i⟩ : Thread) ≠ t := fun e => hw v.ctx (by rw [← hu.wait, ← e]; exact h)
        have hpop := hu.trans (popHeld_aside hi [] u)
        exact hpop.trans (ih hi fun j => by rw [hpop.wait]; exact hw j)
      · exact hu
    · exact .refl ..

theorem completeHeld_aside (push : List Word) (hw : ∀ i, (s.ctx t).wait ≠ .thsusp i) : Aside t s (completeHeld v push s) :=
  have hpop := popHeld_aside hv push s
  hpop.trans (stopCheck_aside hv 8 fun i => by rw [hpop.wait]; exact hw i)

/-! ## The end of another thread's tile operation -/

theorem tileRelease_aside (hw : ∀ i, (s.ctx t).wait ≠ .thsusp i) : Aside t s (tileRelease v s) :=
  have hop := withoutOp_aside t v s
  hop.trans (completeHeld_aside hv [] fun i => by rw [hop.wait]; exact hw i)

theorem tileCommit_aside (o : TileOp) (s : State) : Aside t s (tileCommit v o s) := by
  have hcount : ∀ u a n, Aside t s u → Aside t s (if n = 0 then u else coreCount v.core a n u) := fun u a n hu => by
    split
    · exact hu
    · exact hu.trans (coreCount_aside ..)
  have hseed : ∀ c : Prop, [Decidable c] → ∀ f : Ctx → Ctx, Aside t s (if c then s.updCtx v f else s) := fun c _ f => by
    split
    · exact .updCtx hv s f
    · exact .refl ..
  unfold tileCommit
  refine hcount _ _ _ (hcount _ _ _ ?_)
  split
  case h_6 => exact .refl ..
  all_goals exact hseed ..

theorem sampleMma_aside (o : TileOp) (old : Tbl Word) (rows : List (List (Word × Bool))) (s : State) :
    Aside t s (sampleMma v o old rows s) := by
  unfold sampleMma
  dsimp only
  split
  · exact .refl ..
  · refine .trans (u := List.foldl _ s _) ?_ (.updCtx hv _ _)
    refine List.foldlRecOn (motive := Aside t s) _ _ (.refl ..) fun u hu p _ => ?_
    split_ifs
    · exact hu
    · exact hu.trans (.of_within (F := [.benches]) (count_within (by decide) (.refl ..) ..) (by decide))
    · exact hu.trans (.updCore _ _ (fun _ _ => rfl) fun _ => rfl)

theorem mmaCommit_aside (o : TileOp) (s : State) : Aside t s (mmaCommit v o s) := by
  unfold mmaCommit
  extract_lets ac old rows new sat n s1
  have hs1 : Aside t s s1 := .updCore s v.core (fun _ _ => rfl) fun k => by
    have hac : ac < 4 := Nat.mod_lt _ (by decide)
    rw [Core.setReg_get, if_neg (by omega)]
    rfl
  refine .trans ?_ (sampleMma_aside hv ..)
  split
  · exact hs1
  · exact hs1.trans (coreCount_aside ..)

theorem settleTile_aside (hw : ∀ i, (s.ctx t).wait ≠ .thsusp i) : Aside t s (settleTile v s) := by
  have hend : ∀ {u}, Aside t s u → Aside t s (tileRelease v u) := fun {u} hu =>
    hu.trans (tileRelease_aside hv fun i => by rw [hu.wait]; exact hw i)
  have hdone : Aside t s (tileDone v s) := by
    unfold tileDone
    split
    · exact .refl ..
    · split
      · exact hend (tileCommit_aside hv ..)
      · exact .refl ..
  unfold settleTile mmaDone
  split
  · exact hdone
  · split
    · exact hend (hdone.trans (mmaCommit_aside hv ..))
    · exact hdone

theorem discardTile_aside (s : State) : Aside t s (discardTile v s) := by
  unfold discardTile
  split
  · exact .refl ..
  · extract_lets s1
    have hs1 : Aside t s s1 := by
      refine .updCore s v.core (fun k i => ?_) fun k => ?_
      · dsimp only
        split_ifs
        · rfl
        · rfl
        · exact endBeats_ctx ..
        · rfl
      · dsimp only
        split_ifs
        · rfl
        · rfl
        · exact endBeats_reg ..
        · rfl
    exact (hs1.trans (.of_within (F := [.free]) (txrow_within (by decide) (.refl ..) _) (by decide))).trans (.updCtx hv _ _)

/-! ## Waits that another thread gives up -/

theorem countSpin_aside (stop : Bool) (s : State) : Aside t s (countSpin v stop s) := by
  unfold countSpin
  split
  · exact .refl ..
  · exact .trans (.of_within (F := [.benches]) (act_within (by decide) (.refl ..) ..) (by decide)) (.updCtx hv _ _)

theorem abandon_aside (s : State) : Aside t s (abandon v s) := by
  have hspin := (countSpin_aside hv true s).trans (.updCtx hv _ fun x => { x with wait := .none, heldPops := 0, heldLen := 0 })
  unfold abandon
  dsimp only
  split
  · exact hspin
  · exact .updCtx hv s _
  · exact hspin.trans (.of_resvOnly (.of_core fun c => congrArg (tblGet coreD · c) (ChannelProofs.sendTally_cancel_cores rfl ..)))
  · exact .refl ..

theorem yieldHeld_aside (hw : ∀ i, (s.ctx t).wait ≠ .thsusp i) {r : State × Bool} (h : yieldHeld v s = some r) : Aside t s r.1 := by
  unfold yieldHeld at h
  split at h
  · cases h; exact .refl ..
  · split at h
    · split at h
      · cases h; exact settleTile_aside hv hw
      · split at h
        · cases h
        · cases h; exact discardTile_aside hv s
    · cases h; exact .refl ..
  · cases h; exact abandon_aside hv s
  · cases h; exact abandon_aside hv s
  · cases h; exact abandon_aside hv s
  · cases h

/-- Asking another thread to stop leaves a thread as it stands. -/
theorem askStop_aside (hw : ∀ i, (s.ctx t).wait ≠ .thsusp i) : Aside t s (askStop v s) := by
  unfold askStop
  dsimp only
  split
  · exact .refl ..
  · split
    · next h => exact (yieldHeld_aside hv hw h).trans (.updCtx hv _ _)
    · exact .updCtx hv s _

end Others

end Sys2Proof.ForemanProofs
end

section
/-! PROOFS. O50, the stop of a job: a frame to be discarded, the end of a job, and the answer to STOP_JOB. -/

namespace Sys2Proof.ForemanProofs
open Sys2Proof Sys2Proof.Machine Sys2Proof.Laws Sys2Proof.ModuleProofs Sys2Proof.TileProofs

/-! ## What a stop leaves of the partitions -/

/-- From `s` to `u` partitions change in their jobs' records alone. -/
structure JobsOnly (s u : State) : Prop where
  part : ∀ p, { u.part p with progs := [] } = { s.part p with progs := [] }
  js : ∀ p i, ((u.part p).prog i).js = ((s.part p).prog i).js

theorem JobsOnly.refl (s : State) : JobsOnly s s := ⟨fun _ => rfl, fun _ _ => rfl⟩

theorem JobsOnly.trans {s u v : State} (h : JobsOnly s u) (k : JobsOnly u v) : JobsOnly s v :=
  ⟨fun p => (k.part p).trans (h.part p), fun p i => (k.js p i).trans (h.js p i)⟩

theorem JobsOnly.of_within {F : List Field} {s u : State} (h : Within F s u) (hp : Field.parts ∉ F) : JobsOnly s u :=
  ⟨fun p => by rw [part_of_within h hp], fun p i => by rw [part_of_within h hp]⟩

/-- Whatever a partition holds besides its programs is as it was. -/
theorem JobsOnly.field {s u : State} (h : JobsOnly s u) {α : Type} (g : Part → α) (hg : ∀ q, g { q with progs := [] } = g q)
    (p : Nat) :
    g (u.part p) = g (s.part p) := by
  rw [← hg, h.part, hg]

theorem JobsOnly.coresOf {s u : State} (h : JobsOnly s u) (p : Nat) : coresOf u p = coresOf s p := by
  have hholds : ∀ b, (u.part p).holds b = (s.part p).holds b := fun b => h.field (·.holds b) (fun _ => rfl) p
  simp only [Machine.coresOf, benchesOf, hholds]

theorem updJob_jobs (p : Nat) (f : Job → Job) (s : State) : JobsOnly s (updJob p f s) := by
  refine ⟨(MeshKept.updJob s p f).part, fun j i => ?_⟩
  rw [updJob, updPart_get]
  split
  · next h =>
    subst h
    split
    · rfl
    · rw [updProg_get]
      split
      · next h => rw [← h]
      · rfl
  · rfl

theorem coreCount_jobs (c o n : Nat) (s : State) : JobsOnly s (coreCount c o n s) := by
  have hcount : JobsOnly s (count (benchOf c) (0x4000 + c % 4 * 0x40 + o) n s) :=
    .of_within (F := [.benches]) (count_within (by decide) (.refl ..) ..) (by decide)
  have hjob : ∀ f u, JobsOnly u (jobOfCore c f u) := fun f u => by
    unfold jobOfCore
    split
    · exact updJob_jobs ..
    · exact .refl u
  unfold coreCount
  dsimp only
  split
  · exact hcount.trans (hjob ..)
  · split
    · exact hcount.trans (hjob ..)
    · exact hcount

theorem tileCommit_jobs (t : Thread) (o : TileOp) (s : State) : JobsOnly s (tileCommit t o s) := by
  have hcount : ∀ u a n, JobsOnly s u → JobsOnly s (if n = 0 then u else coreCount t.core a n u) := fun u a n hu => by
    split
    · exact hu
    · exact hu.trans (coreCount_jobs ..)
  unfold tileCommit
  refine hcount _ _ _ (hcount _ _ _ (.of_within (F := [.cores]) ?_ (by decide)))
  split
  case h_6 => exact .refl ..
  all_goals exact .ite (State_updCtx_within (by decide) (.refl ..) _ _) (.refl ..)

theorem mmaCommit_jobs (t : Thread) (o : TileOp) (s : State) : JobsOnly s (mmaCommit t o s) := by
  unfold mmaCommit
  extract_lets ac old rows new sat n s1
  have hs1 : JobsOnly s s1 := .of_within (F := [.cores]) (State_updCore_within (by decide) (.refl ..) _ _) (by decide)
  refine .trans ?_ (.of_within (F := [.cores, .benches]) (sampleMma_within (by decide) (.refl ..) _ _ _ _) (by decide))
  split
  · exact hs1
  · exact hs1.trans (coreCount_jobs ..)

theorem settleTile_jobs (t : Thread) (s : State) : JobsOnly s (settleTile t s) := by
  have hend : ∀ u, JobsOnly u (tileRelease t u) := fun u =>
    .of_within (F := [.mem, .bad, .cores, .benches, .free]) (tileRelease_within (by decide) (.refl ..) t) (by decide)
  have hdone : JobsOnly s (tileDone t s) := by
    unfold tileDone
    split
    · exact .refl s
    · split
      · exact (tileCommit_jobs ..).trans (hend _)
      · exact .refl s
  unfold settleTile mmaDone
  split
  · exact hdone
  · split
    · exact hdone.trans ((mmaCommit_jobs ..).trans (hend _))
    · exact hdone

theorem yieldHeld_jobs {t : Thread} {s : State} {r : State × Bool} (h : yieldHeld t s = some r) : JobsOnly s r.1 := by
  have habandon : JobsOnly s (abandon t s) :=
    .of_within (F := [.cores, .benches, .ring]) (abandon_within (by decide) (.refl ..) t) (by decide)
  unfold yieldHeld at h
  split at h
  · cases h; exact .refl s
  · split at h
    · split at h
      · cases h; exact settleTile_jobs t s
      · split at h
        · cases h
        · cases h; exact .of_within (F := [.cores, .free]) (discardTile_within (by decide) (.refl ..) t) (by decide)
    · cases h; exact .refl s
  · cases h; exact habandon
  · cases h; exact habandon
  · cases h; exact habandon
  · cases h

theorem askStop_jobs (t : Thread) (s : State) : JobsOnly s (askStop t s) := by
  have hctx : ∀ u f, JobsOnly u (u.updCtx t f) := fun u f =>
    .of_within (F := [.cores]) (State_updCtx_within (by decide) (.refl ..) t f) (by decide)
  unfold askStop
  dsimp only
  split
  · exact .refl s
  · split
    · next h => exact (yieldHeld_jobs h).trans (hctx ..)
    · exact hctx ..

theorem forCtxs_jobs (p : Nat) (s : State) : JobsOnly s (forCtxs p askStop s) :=
  forAll_keeps (Q := JobsOnly s) (fun _ _ hu => forAll_keeps (Q := JobsOnly s) (fun _ _ hw => hw.trans (askStop_jobs ..)) hu) (.refl s)

/-! ## A running thread is asked to stop (R270, R744) -/

theorem ne_thsusp {w : Wait} (h : w = .none ∨ w = .micro) (i : Nat) : w ≠ .thsusp i := by
  obtain rfl | rfl := h <;> exact nofun

section Ask
variable {t : Thread} {s u : State}

theorem askStop_stopped (h : (s.ctx t).st ≠ .run) : askStop t s = s := if_pos (.inl h)

/-- At a boundary the thread is suspended at once. -/
theorem askStop_boundary (hst : (s.ctx t).st = .run) (hw : (s.ctx t).wait = .none) : askStop t s = suspendNow t s := by
  simp [askStop, hst, isEnding, hw, yieldHeld]

/-- In a microcode routine the thread is asked to stop at the next boundary. -/
theorem askStop_micro (hst : (s.ctx t).st = .run) (hw : (s.ctx t).wait = .micro) :
    askStop t s = s.updCtx t (fun x => { x with suspReq := true }) := by
  simp [askStop, hst, isEnding, hw, yieldHeld]

theorem Aside.both (h : Aside t s u) {f : Ctx → Ctx} (hst : (f (u.ctx t)).st = (f (s.ctx t)).st)
    (hw : (f (u.ctx t)).wait = (f (s.ctx t)).wait) (hreq : (f (u.ctx t)).suspReq = (f (s.ctx t)).suspReq) :
    Aside t (s.updCtx t f) (u.updCtx t f) := by
  refine ⟨?_, ?_, ?_, fun c => by rw [nCtx_updCtx, nCtx_updCtx, h.width]⟩
  · rw [updCtx_ctx, updCtx_ctx, hst]
  · rw [updCtx_ctx, updCtx_ctx, hw]
  · rw [updCtx_ctx, updCtx_ctx, hreq]

variable (hst : (s.ctx t).st = .run) (hw : (s.ctx t).wait = .none ∨ (s.ctx t).wait = .micro)
include hst hw

/-- What the asking does to the thread does not turn on what was asked of the others before. -/
theorem askStop_own (h : Aside t s u) : Aside t (askStop t s) (askStop t u) := by
  have hst' : (u.ctx t).st = .run := h.st.trans hst
  obtain hw | hw := hw
  · rw [askStop_boundary hst hw, askStop_boundary hst' (h.wait.trans hw)]
    exact h.both rfl h.wait rfl
  · rw [askStop_micro hst hw, askStop_micro hst' (h.wait.trans hw)]
    exact h.both h.st h.wait rfl

/-- Asking the thread again changes nothing more of it. -/
theorem askStop_again (h : Aside t (askStop t s) u) : Aside t (askStop t s) (askStop t u) := by
  obtain hw | hw := hw
  · have hsusp : (u.ctx t).st = .susp := by
      rw [h.st, askStop_boundary hst hw, suspendNow, updCtx_ctx]
    rw [askStop_stopped (s := u) (by rw [hsusp]; decide)]
    exact h
  · rw [askStop_micro hst hw] at h ⊢
    have hst' : (u.ctx t).st = .run := by rw [h.st, updCtx_ctx]; exact hst
    have hw' : (u.ctx t).wait = .micro := by rw [h.wait, updCtx_ctx]; exact hw
    rw [askStop_micro hst' hw']
    refine ⟨?_, ?_, ?_, fun c => (nCtx_updCtx ..).trans (h.width c)⟩
    · rw [updCtx_ctx, ← h.st]
    · rw [updCtx_ctx, ← h.wait]
    · rw [updCtx_ctx, updCtx_ctx]

/-- When every context of a partition is asked to stop, a thread that runs there is, whatever happens to the others. -/
theorem forCtxs_asks {p : Nat} (hc : t.core ∈ coresOf u p) (hk : t.ctx < nCtx s t.core) (h : Aside t s u) :
    Aside t (askStop t s) (forCtxs p askStop u) := by
  have hother : ∀ v x, Aside t s x → Aside t s (askStop v x) ∨ Aside t (askStop t s) (askStop v x) := fun v x hx => by
    by_cases hv : v = t
    · rw [hv]; exact .inr (askStop_own hst hw hx)
    · exact .inl (hx.trans (askStop_aside hv (ne_thsusp (by rwa [hx.wait]))))
  have hafter : ∀ v x, Aside t (askStop t s) x → Aside t (askStop t s) (askStop v x) := fun v x hx => by
    by_cases hv : v = t
    · rw [hv]; exact askStop_again hst hw hx
    · have hwait : ((askStop t s).ctx t).wait = (s.ctx t).wait := by
        obtain hw | hw := hw
        · rw [askStop_boundary hst hw, suspendNow, updCtx_ctx]; rfl
        · rw [askStop_micro hst hw, updCtx_ctx]
      exact hx.trans (askStop_aside hv (ne_thsusp (by rwa [hx.wait, hwait])))
  refine forAll_reaches (P := Aside t s) (fun c x hx => ?_) (fun c x hx => forAll_keeps (fun i => hafter ⟨c, i⟩) hx)
    (fun x hx => ?_) hc h
  · exact forAll_keeps (Q := fun x => Aside t s x ∨ Aside t (askStop t s) x)
      (fun i y hy => hy.elim (hother ⟨c, i⟩ y) fun h => .inr (hafter ⟨c, i⟩ y h)) (.inl hx)
  · exact forAll_reaches (P := Aside t s) (fun i => hother ⟨t.core, i⟩) (fun i => hafter ⟨t.core, i⟩)
      (fun y hy => askStop_own hst hw hy) (List.mem_range.mpr (by rw [hx.width]; exact hk)) hx

end Ask

end Sys2Proof.ForemanProofs
end

section
/-! PROOFS. O50: programs are loaded and unloaded, jobs start and stop. -/

namespace Sys2Proof.ForemanProofs
open Sys2Proof Sys2Proof.Machine Sys2Proof.Laws Sys2Proof.ModuleProofs Sys2Proof.TileProofs Sys2Proof.CoreProofs

/-! ## A frame to be discarded (R577, R739, R745) -/

/-- Every descriptor of a partition is aborted and every thread asked to stop, its frame to be discarded. -/
def stopAsked (p why : Nat) (s : State) : State :=
  (forCtxs p askStop (forAll (benchesOf s p) abortAll s)).updPart p (fun q => { q with discard := max q.discard why })

theorem discardFrame_asks {p why : Nat} {s : State} (h : (s.part p).frame = .running) :
    discardFrame p why s = finishDiscard p (stopAsked p why s) := if_neg (not_not_intro h)

theorem aborted_within (p : Nat) (s : State) : Within [.benches] s (forAll (benchesOf s p) abortAll s) :=
  forAll_within (.refl ..) fun b _ hv => abortAll_within (by decide) hv b

theorem stopAsked_within (p why : Nat) (s : State) :
    Within [.mem, .bad, .cores, .benches, .parts, .ring, .free] s (stopAsked p why s) :=
  State_updPart_within (by decide) (forCtxs_within (by decide) (forAll_within (.refl ..) fun b _ hv => abortAll_within (by decide) hv b)
    (fun t _ hv => askStop_within (by decide) hv t) p) _ _

theorem nCtx_le (s : State) (c : Nat) : nCtx s c ≤ 8 := by
  unfold nCtx
  dsimp only
  split_ifs <;> decide

/-- Nobody is left to ask where no thread of the partition runs. -/
theorem forCtxs_stopped {p : Nat} {s : State} (hstop : ∀ c ∈ coresOf s p, ∀ n, n < 8 → ((s.core c).ctx n).st ≠ .run) :
    forCtxs p askStop s = s :=
  forAll_of_unchanged fun c hc => forAll_of_unchanged fun n hn =>
    askStop_stopped (t := ⟨c, n⟩) (hstop c hc n (Nat.lt_of_lt_of_le (List.mem_range.mp hn) (nCtx_le s c)))

section Asked
variable {p why : Nat} {s : State}

/-- The partition's entry but for what its frame counts in its jobs. -/
theorem asked_jobs (p : Nat) (s : State) : JobsOnly s (forCtxs p askStop (forAll (benchesOf s p) abortAll s)) :=
  (JobsOnly.of_within (aborted_within p s) (by decide)).trans (forCtxs_jobs ..)

/-- Whatever a partition holds besides its programs and the stop under way is as it was. -/
theorem stopAsked_field {α : Type} (g : Part → α) (hg : ∀ q d, g { q with progs := [], discard := d } = g q) :
    g ((stopAsked p why s).part p) = g (s.part p) := by
  have hpart := (asked_jobs p s).part p
  rw [stopAsked, updPart_part, ← hg _ 0, ← hg (s.part p) 0]
  exact congrArg (fun q => g { q with discard := 0 }) hpart

theorem stopAsked_frame : ((stopAsked p why s).part p).frame = (s.part p).frame := stopAsked_field Part.frame fun _ _ => rfl

theorem stopAsked_cur : ((stopAsked p why s).part p).cur = (s.part p).cur := stopAsked_field Part.cur fun _ _ => rfl

theorem stopAsked_discard : ((stopAsked p why s).part p).discard = max (s.part p).discard why := by
  rw [stopAsked, updPart_part]
  exact congrArg (max · why) ((asked_jobs p s).field Part.discard (fun _ => rfl) p)

theorem stopAsked_js (i : Nat) : (((stopAsked p why s).part p).prog i).js = ((s.part p).prog i).js := by
  rw [stopAsked, updPart_part]
  exact (asked_jobs p s).js p i

theorem coresOf_stopAsked : coresOf (stopAsked p why s) p = coresOf s p := by
  have hholds : ∀ b, ((stopAsked p why s).part p).holds b = (s.part p).holds b := fun b => stopAsked_field (·.holds b) fun _ _ => rfl
  simp only [coresOf, benchesOf, hholds]

section Thread
variable {c k : Nat} (hc : c ∈ coresOf s p) (hk : k < nCtx s c) (hst : ((s.core c).ctx k).st = .run)
include hc hk hst

/-- A thread that runs in the partition has been asked to stop, whatever happened to the others. -/
theorem stopAsked_asks (hw : ((s.core c).ctx k).wait = .none ∨ ((s.core c).ctx k).wait = .micro) :
    Aside ⟨c, k⟩ (askStop ⟨c, k⟩ s) (stopAsked p why s) := by
  have haborted := aborted_within p s
  have hcores : coresOf (forAll (benchesOf s p) abortAll s) p = coresOf s p := (JobsOnly.of_within haborted (by decide)).coresOf p
  have hasked := forCtxs_asks (t := ⟨c, k⟩) (p := p) hst hw (hcores ▸ hc) hk (.of_within haborted (by decide))
  exact hasked.trans (.of_within (F := [.parts]) (State_updPart_within (by decide) (.refl ..) _ _) (by decide))

theorem stopAsked_micro (hw : ((s.core c).ctx k).wait = .micro) :
    (((stopAsked p why s).core c).ctx k).st = .run ∧ (((stopAsked p why s).core c).ctx k).suspReq = true := by
  have hasked := stopAsked_asks (why := why) hc hk hst (.inr hw)
  rw [askStop_micro (t := ⟨c, k⟩) hst hw] at hasked
  exact ⟨hasked.st.trans (by rw [updCtx_ctx]; exact hst), hasked.suspReq.trans (by rw [updCtx_ctx])⟩

theorem stopAsked_boundary (hw : ((s.core c).ctx k).wait = .none) : (((stopAsked p why s).core c).ctx k).st = .susp := by
  have hasked := stopAsked_asks (why := why) hc hk hst (.inl hw)
  rw [askStop_boundary (t := ⟨c, k⟩) hst hw] at hasked
  exact hasked.st.trans (by rw [suspendNow, updCtx_ctx])

end Thread

section Stopped
variable (hstop : ∀ c ∈ coresOf s p, ∀ n, n < 8 → ((s.core c).ctx n).st ≠ .run)
include hstop

theorem stopAsked_stopped : stopAsked p why s =
    (forAll (benchesOf s p) abortAll s).updPart p (fun q => { q with discard := max q.discard why }) := by
  have haborted := aborted_within p s
  rw [stopAsked, forCtxs_stopped fun c hc n hn => ?_]
  rw [core_of_within haborted (by decide)]
  exact hstop c ((JobsOnly.of_within haborted (by decide)).coresOf p ▸ hc) n hn

theorem stopAsked_core (c : Nat) : (stopAsked p why s).core c = s.core c := by
  rw [stopAsked_stopped hstop, updPart_core, core_of_within (aborted_within p s) (by decide)]

theorem stopAsked_prog (i : Nat) : ((stopAsked p why s).part p).prog i = (s.part p).prog i := by
  rw [stopAsked_stopped hstop, updPart_part, part_of_within (aborted_within p s) (by decide)]
  rfl

end Stopped

end Asked

section Finish
variable {p : Nat} {s : State}

/-- A frame goes on while one of its threads runs. -/
theorem finishDiscard_waits {c k : Nat} (hc : c ∈ coresOf s p) (hk : k < 8) (hrun : ((s.core c).ctx k).st = .run) :
    finishDiscard p s = s := by
  have hstopped : threadsStopped s p = false :=
    List.all_eq_false.mpr ⟨c, hc, by simpa using ⟨k, hk, hrun⟩⟩
  exact if_pos (.inr (.inr hstopped))

/-- A frame that does not go on is over. -/
theorem finishDiscard_frame (p : Nat) (s : State) : finishDiscard p s = s ∨ ((finishDiscard p s).part p).frame = .quiet s.now := by
  have hquiet : ((stoppedFrame p s).part p).frame = .quiet s.now := by rw [stoppedFrame, updPart_part]
  unfold finishDiscard
  dsimp only
  split
  · exact .inl rfl
  · refine .inr ?_
    split
    · exact (endAll_kept p 4 (stoppedFrame p s)).frame.trans hquiet
    · exact (jobEnd_over p _ _ (stoppedFrame p s)).kept.frame.trans hquiet

/-- The job ends with the frame whose threads have stopped. -/
theorem finishDiscard_ends (hf : (s.part p).frame = .running) (hd : (s.part p).discard = 3)
    (hstop : ∀ c ∈ coresOf s p, ∀ n, n < 8 → ((s.core c).ctx n).st ≠ .run) :
    finishDiscard p s = jobEnd p ((s.part p).cur - 1) 3 (stoppedFrame p s) := by
  have hstopped : threadsStopped s p = true := List.all_eq_true.mpr fun c hc => List.all_eq_true.mpr fun i hi =>
    decide_eq_true (hstop c hc i (List.mem_range.mp hi))
  simp [finishDiscard, hf, hd, hstopped, stoppedFrame]

theorem stoppedFrame_within (p : Nat) (s : State) : Within [.cores, .parts] s (stoppedFrame p s) :=
  State_updPart_within (by decide) (forCtxs_within (by decide) (addFrameTime_within (by decide) (.refl ..) p)
    (fun t _ hv => discardCtx_within (by decide) hv t) p) _ _

theorem updProg_stopBy (q : Part) (k i : Nat) {f : Program → Program} (hf : ∀ g, (f g).stopBy = g.stopBy) :
    ((q.updProg k f).prog i).stopBy = (q.prog i).stopBy := by
  rw [updProg_get]
  split
  · next h => rw [hf, h]
  · rfl

theorem addFrameTime_stopBy (p i : Nat) (s : State) : (((addFrameTime p s).part p).prog i).stopBy = ((s.part p).prog i).stopBy := by
  unfold addFrameTime
  rw [updPart_part]
  split
  · exact updProg_stopBy (s.part p) ((s.part p).cur - 1) i (f := fun g => { g with ranNs := g.ranNs + (s.tb - (s.part p).frameAt) })
      fun _ => rfl
  · rfl

theorem stoppedFrame_stopBy (p i : Nat) (s : State) : (((stoppedFrame p s).part p).prog i).stopBy = ((s.part p).prog i).stopBy := by
  have hctx : Within [.cores] (addFrameTime p s) (forCtxs p discardCtx (addFrameTime p s)) :=
    forCtxs_within (by decide) (.refl ..) (fun t _ hv => discardCtx_within (by decide) hv t) p
  rw [stoppedFrame, updPart_part, ← addFrameTime_stopBy, ← part_of_within hctx (by decide)]
  rfl

end Finish

/-! ## The end of a job answers the STOP_JOB that waits for it (R577) -/

theorem logEvent_mboxes (code p sev : Nat) (detail : List Byte) (s : State) : (logEvent code p sev detail s).fmn.mboxes = s.fmn.mboxes :=
  (LinkProofs.logEvent_talked s code p sev detail).mboxes

theorem jobEnd_answers {p k reason m : Nat} {s : State} (hm : m < 128) (ho : (s.mbox m).order ≠ 0)
    (hby : ((s.part p).prog k).stopBy = m + 1) : ∃ payload, Answered (jobEnd p k reason s) m 0 0 payload := by
  have htouch : ∀ u : State, (touch u).fmn.mboxes = u.fmn.mboxes := fun _ => rfl
  have hlog : ∀ (c : Prop) [Decidable c] a b d l (u : State), (if c then u else logEvent a b d l u).fmn.mboxes = u.fmn.mboxes :=
    fun c _ a b d l u => by
      split
      · rfl
      · exact logEvent_mboxes ..
  unfold jobEnd
  dsimp only
  rw [hby, if_neg (Nat.succ_ne_zero m)]
  refine ⟨_, respond_answered hm ?_ ..⟩
  rw [mbox_of_mboxes (s := s) ?_]
  · exact ho
  · rw [logEvent_mboxes, htouch, hlog]
    refine mboxes_of_within (F := [.benches, .parts]) (spinDown_within (by decide) (State_updPart_within (by decide) (.ite ?_ ?_) _ _) _)
      (by decide)
    · exact forAll_within (.refl ..) fun _ _ hv => State_updBench_within (by decide) hv _ _
    · exact State_updPart_within (by decide) (.refl ..) _ _

/-- The STOP_JOB in mailbox `m` is answered: the job of program `i` is over, stopped. -/
def JobStopped (m p i : Nat) (u : State) : Prop :=
  (u.mbox m).owner = 0 ∧ (u.mbox m).status = 0 ∧ ((u.part p).prog i).js = 4 ∧ ((u.part p).prog i).job.reason = 3

theorem jobEnd_stops {p i m : Nat} {s : State} (hm : m < 128) (ho : (s.mbox m).order ≠ 0) (hby : ((s.part p).prog i).stopBy = m + 1) :
    JobStopped m p i (jobEnd p i 3 s) := by
  obtain ⟨payload, howner, -, hstatus, -⟩ := jobEnd_answers (p := p) (k := i) (reason := 3) hm ho hby
  have hover := jobEnd_over p i 3 s
  exact ⟨howner, hstatus, hover.ended, hover.reason⟩

/-! ## STOP_JOB (R576, R577) -/

/-- The job of program `i` is to stop, for the command in mailbox `m`. -/
def stopping (m p i : Nat) (s : State) : State := s.updPart p fun q => q.updProg i fun g => { g with js := 3, stopBy := m + 1 }

section Stop
variable {s : State} {m p i : Nat}

theorem stopping_prog : ((stopping m p i s).part p).prog i = { (s.part p).prog i with js := 3, stopBy := m + 1 } := by
  rw [stopping, updPart_part, Part.updProg_prog]

/-- But for the programs the partition is as it was. -/
theorem stopping_part : { (stopping m p i s).part p with progs := [] } = { s.part p with progs := [] } := by
  rw [stopping, updPart_part]
  rfl

theorem stopping_field {α : Type} (g : Part → α) (hg : ∀ q, g { q with progs := [] } = g q) :
    g ((stopping m p i s).part p) = g (s.part p) := by
  rw [← hg, stopping_part, hg]

theorem coresOf_stopping : coresOf (stopping m p i s) p = coresOf s p := by
  have hholds : ∀ b, ((stopping m p i s).part p).holds b = (s.part p).holds b := fun b => stopping_field (·.holds b) fun _ => rfl
  simp only [coresOf, benchesOf, hholds]

theorem stopJob_eq {l : List Byte} (h : MayRun s m 0x0104 l) (hlen : l.length = 3) (hp : fieldOf l 0 1 < 8) (hk : fieldOf l 1 1 < 16)
    (hmode : fieldOf l 2 1 < 2) (hlive : (s.part (fieldOf l 0 1)).live = true) :
    stopJob m s =
      let p := fieldOf l 0 1
      let i := fieldOf l 1 1
      if activeJob ((s.part p).prog i) = false then respond m 0xD 0 (jobBytes p i ((s.part p).prog i).job) (wake s)
      else if fieldOf l 2 1 = 0 then stopping m p i (wake s)
      else if (s.part p).cur = i + 1 ∧ (s.part p).frame = .running then discardFrame p 3 (stopping m p i (wake s))
      else jobEnd p i 3 (stopping m p i (wake s)) := by
  have hfields : badField l (progFields ++ [(2, 1, below 2)]) = none := by simp [badField, progFields, below, hp, hk, hmode]
  rw [stopJob, runCmd_body h rfl (by rw [hlen]; rfl), checked_pass _ _ hfields]
  dsimp only
  rw [withPart_pf0 _ h.1 (by rwa [wake_part]), wake_part]
  rfl

/-- A job between frames, or in another frame than the one that runs, is over at once. -/
theorem stopping_ends (hm : m < 128) (ho : (s.mbox m).order ≠ 0) :
    JobStopped m p i (jobEnd p i 3 (stopping m p i s)) :=
  jobEnd_stops hm ho (by rw [stopping_prog])

section Running
variable (hcur : (s.part p).cur = i + 1) (hrun : (s.part p).frame = .running)
include hrun

theorem stopping_running : ((stopping m p i s).part p).frame = .running := (stopping_field Part.frame fun _ => rfl).trans hrun

theorem discard_stopping : discardFrame p 3 (stopping m p i s) = finishDiscard p (stopAsked p 3 (stopping m p i s)) :=
  discardFrame_asks (stopping_running hrun)

include hcur in
/-- A running frame whose threads have stopped ends at once, and its job with it. -/
theorem discard_ends (hm : m < 128) (ho : (s.mbox m).order ≠ 0) (hd : (s.part p).discard ≤ 3)
    (hstop : ∀ c ∈ coresOf s p, ∀ n, n < 8 → ((s.core c).ctx n).st ≠ .run) :
    JobStopped m p i (discardFrame p 3 (stopping m p i s)) ∧ ((discardFrame p 3 (stopping m p i s)).part p).frame = .quiet s.now := by
  have hstill : ∀ c ∈ coresOf (stopping m p i s) p, ∀ n, n < 8 → (((stopping m p i s).core c).ctx n).st ≠ .run := fun c hc =>
    hstop c (coresOf_stopping ▸ hc)
  have hidx : ((stopAsked p 3 (stopping m p i s)).part p).cur = i + 1 :=
    stopAsked_cur.trans ((stopping_field Part.cur fun _ => rfl).trans hcur)
  have hdisc : ((stopAsked p 3 (stopping m p i s)).part p).discard = 3 := by
    rw [stopAsked_discard, stopping_field Part.discard fun _ => rfl, Nat.max_eq_right hd]
  have hend : discardFrame p 3 (stopping m p i s) = jobEnd p i 3 (stoppedFrame p (stopAsked p 3 (stopping m p i s))) := by
    rw [discard_stopping hrun, finishDiscard_ends (stopAsked_frame.trans (stopping_running hrun)) hdisc fun c hc n hn => ?_, hidx]
    · rfl
    · rw [stopAsked_core hstill]
      exact hstill c (coresOf_stopAsked ▸ hc) n hn
  have hwithin : Within [.mem, .bad, .cores, .benches, .parts, .ring, .free] s (stopAsked p 3 (stopping m p i s)) :=
    .trans (State_updPart_within (by decide) (.refl ..) _ _) (stopAsked_within ..)
  have hbox := mboxes_of_within (hwithin.trans ((stoppedFrame_within p _).mono (by decide))) (by decide)
  rw [hend]
  refine ⟨jobEnd_stops hm ?_ ?_, (jobEnd_over ..).kept.frame.trans ?_⟩
  · rw [mbox_of_mboxes hbox]
    exact ho
  · rw [stoppedFrame_stopBy, stopAsked_prog hstill, stopping_prog]
  · rw [stoppedFrame, updPart_part]
    exact congrArg FrameSt.quiet (hwithin.out .now (by decide))

/-- A frame with a thread in a microcode routine goes on until that is over; the thread has been asked to stop. -/
theorem discard_asks {c k : Nat} (hc : c ∈ coresOf s p) (hk : k < nCtx s c) (hst : ((s.core c).ctx k).st = .run)
    (hw : ((s.core c).ctx k).wait = .micro) :
    let u := discardFrame p 3 (stopping m p i s)
    (u.part p).frame = .running ∧ 3 ≤ (u.part p).discard ∧ ((u.core c).ctx k).suspReq = true ∧ ((u.part p).prog i).js = 3 ∧
      u.mbox m = s.mbox m := by
  obtain ⟨hrunning, hreq⟩ := stopAsked_micro (why := 3) (s := stopping m p i s) (coresOf_stopping ▸ hc) hk hst hw
  have hwaits : discardFrame p 3 (stopping m p i s) = stopAsked p 3 (stopping m p i s) := by
    rw [discard_stopping hrun]
    exact finishDiscard_waits (by rwa [coresOf_stopAsked, coresOf_stopping]) (Nat.lt_of_lt_of_le hk (nCtx_le s c)) hrunning
  dsimp only
  rw [hwaits]
  refine ⟨stopAsked_frame.trans (stopping_running hrun), ?_, hreq, ?_, ?_⟩
  · rw [stopAsked_discard]
    exact Nat.le_max_right ..
  · rw [stopAsked_js, stopping_prog]
  · exact mbox_of_mboxes (mboxes_of_within (stopAsked_within ..) (by decide)) m

/-- A thread at a boundary has stopped, if the frame goes on. -/
theorem discard_suspends {c k : Nat} (hc : c ∈ coresOf s p) (hk : k < nCtx s c) (hst : ((s.core c).ctx k).st = .run)
    (hw : ((s.core c).ctx k).wait = .none) (hstill : ((discardFrame p 3 (stopping m p i s)).part p).frame = .running) :
    (((discardFrame p 3 (stopping m p i s)).core c).ctx k).st = .susp := by
  have hsusp := stopAsked_boundary (why := 3) (s := stopping m p i s) (coresOf_stopping ▸ hc) hk hst hw
  rw [discard_stopping hrun] at hstill ⊢
  obtain hsame | hquiet := finishDiscard_frame p (stopAsked p 3 (stopping m p i s))
  · rw [hsame]
    exact hsusp
  · rw [hquiet] at hstill
    cases hstill

end Running
end Stop

/-! ## Programs and jobs -/

section Settle
variable {s : State} {m : Nat} {l : List Byte}

/-- A sound package that is admitted, and whose save region finds a place, is loaded with its sections. -/
theorem loadAdmitted_loads {p k a : Nat} {pkg : Sections} {r : Nat × Nat × Nat} (h : MayRun s m 0x0101 l) (hadm : r.1 = 0)
    (hsave : (placeSave p (programAt (wake s) a pkg) (wake s)).isSome) :
    let g := programAt (wake s) a pkg
    let u := loadAdmitted m p k g r (wake s)
    Answered u m 0 0 (leBytes k 1 ++ leBytes g.nvar 1 ++ leBytes r.2.1 1 ++ [0] ++ satBytes r.2.2 4) ∧
      ((u.part p).prog k).js = 1 ∧ ((u.part p).prog k).sect = pkg := by
  obtain ⟨x, hx⟩ := Option.isSome_iff_exists.mp hsave
  have hrun := loadAdmitted_places (m := m) (k := k) hadm hx
  obtain ⟨hjs, hsect⟩ := placeSave_program hx
  obtain ⟨hjs', hsect'⟩ := place_prog p k x.1 x.2
  intro g u
  refine ⟨answered_of_respond h hrun ((placed_mboxes hx).trans (wake_mboxes s)), ?_⟩
  have hu : u = _ := hrun
  rw [hu, respond_part, moveDown_part, hjs', hsect']
  exact ⟨hjs, hsect⟩

theorem wake_core (s : State) (c : Nat) : (wake s).core c = s.core c :=
  core_of_within (wake_within (List.Subset.refl _) (.refl ..)) (by decide) c

theorem wake_now (s : State) : (wake s).now = s.now :=
  (wake_within (F := [.pwr]) (List.Subset.refl _) (.refl _ s)).out .now (by decide)

theorem wake_coresOf (s : State) (p : Nat) : coresOf (wake s) p = coresOf s p := by
  simp only [coresOf, benchesOf, wake_part]

theorem wake_nCtx (s : State) (c : Nat) : nCtx (wake s) c = nCtx s c := nCtx_of_reg (by rw [wake_core])

end Settle

/-- Settles O50: LOAD_PROGRAM is `loadProgram_loads` and what `loadAdmitted` answers, UNLOAD_PROGRAM `unloadProgram_eq`, START_JOB
`startJob_starts`; STOP_JOB is `stopJob_eq`, whose job ends at once (`stopping_ends`), with the frame (`discard_ends`), or once the
threads that were asked have stopped (`discard_asks`, `discard_suspends`). -/
theorem programsAndJobs : Obligations.ProgramsAndJobs := by
  intro s m k d c l pkg p i a len w g j ended hp hlive
  refine ⟨fun h hlen hz hrange hk hfree hfirst => ?_, fun h hlen hi => ?_, fun h hlen hi hz hjs hidle hfence hready hadm => ?_,
    fun h hlen hi => ?_⟩
  · have hload := loadProgram_loads h hlen hp hz hlive (wake_gddrRange .. ▸ hrange) hk hfree hfirst pkg
    refine ⟨fun hwhy => ⟨_, rfl, answered_of_respond h (hload.trans (loadAt_badPackage hwhy)) (wake_mboxes s)⟩,
      fun hwhy => ⟨_, rfl, answered_of_respond h (hload.trans (loadAt_unsigned hwhy)) (wake_mboxes s)⟩, fun hwhy => ?_⟩
    have hsound := hload.trans (loadAt_sound hwhy)
    refine ⟨fun n hn => ⟨_, rfl, answered_of_respond h (hsound.trans (loadAdmitted_refused hn)) (wake_mboxes s)⟩,
      fun hadm hsave => ⟨_, rfl, answered_of_respond h (hsound.trans (loadAdmitted_noSave hadm hsave)) (wake_mboxes s)⟩,
      fun hadm hsave => ?_⟩
    exact ⟨_, congrArg Host.Outcome.next hsound, loadAdmitted_loads h hadm hsave⟩
  · have hunload := unloadProgram_eq h hlen hp hi hlive
    refine ⟨fun h0 => ⟨_, rfl, answered_of_respond h (hunload.trans (if_pos h0)) (wake_mboxes s)⟩, fun hact => ?_,
      fun hjs hidle => ?_⟩
    · have hjs : j.js ≠ 0 := fun h0 => by simp [activeJob, h0] at hact
      exact ⟨_, rfl, answered_of_respond h (hunload.trans ((if_neg hjs).trans (if_pos hact))) (wake_mboxes s)⟩
    · have hrun : unloadProgram m s = respond m 0 0 [] (unload p i w) :=
        hunload.trans ((if_neg hjs).trans (if_neg (Bool.eq_false_iff.mp hidle)))
      refine ⟨_, congrArg Host.Outcome.next hrun, answered_of_respond h rfl ((unload_mboxes ..).trans (wake_mboxes s)), ?_,
        fun hcur => ?_⟩
      · rw [respond_part, unload_prog]
      · rw [respond_part]
        exact unload_cur (by rw [wake_part]; exact hcur)
  · have hrun := startJob_starts h hlen hp hi hz hlive hjs hidle hfence hready hadm
    refine ⟨_, congrArg Host.Outcome.next hrun, answered_of_respond h rfl ((moveDown_mboxes _).trans (wake_mboxes s)), ?_⟩
    rw [respond_part, moveDown_part, updPart_part, Part.updProg_prog]
    exact ⟨rfl, rfl, rfl⟩
  · have hm := h.1
    have ho : (w.mbox m).order ≠ 0 := by
      rw [mbox_of_mboxes (wake_mboxes s)]
      exact order_of_mayRun h
    have hbox : w.mbox m = s.mbox m := mbox_of_mboxes (wake_mboxes s) m
    have hstop := fun hmode => stopJob_eq h hlen hp hi hmode hlive
    refine ⟨fun hidle hmode => ⟨_, rfl, answered_of_respond h ((hstop hmode).trans (if_pos hidle)) (wake_mboxes s)⟩,
      fun hact hmode => ?_, fun hact hmode => ?_⟩
    · have hrun : stopJob m s = stopping m p i w := (hstop (by omega)).trans ((if_neg (ne_false_of_eq_true hact)).trans (if_pos hmode))
      refine ⟨_, congrArg Host.Outcome.next hrun, ?_, ?_, hbox⟩
      · rw [stopping_prog]
      · rw [stopping_prog]
    · have hnow := (hstop (by omega)).trans ((if_neg (ne_false_of_eq_true hact)).trans (if_neg (by omega)))
      refine ⟨fun hother => ?_, fun hcur hf => ?_⟩
      · have hrun : stopJob m s = jobEnd p i 3 (stopping m p i w) := hnow.trans (if_neg (by simpa [← not_and_or] using hother))
        exact ⟨_, congrArg Host.Outcome.next hrun, stopping_ends hm ho⟩
      · have hrun : stopJob m s = discardFrame p 3 (stopping m p i w) := hnow.trans (if_pos ⟨hcur, hf⟩)
        have hf' : (w.part p).frame = .running := by rw [wake_part]; exact hf
        refine ⟨fun hd hstopped => ?_, fun hc hk hst => ?_⟩
        · obtain ⟨hended, hquiet⟩ := discard_ends (s := w) (m := m) (by rw [wake_part]; exact hcur) hf' hm ho
            (by rw [wake_part]; exact hd) (by simpa only [w, wake_coresOf, wake_core] using hstopped)
          exact ⟨_, congrArg Host.Outcome.next hrun, hended, hquiet.trans (by rw [wake_now])⟩
        · have hc' : c ∈ coresOf w p := by rw [wake_coresOf]; exact hc
          have hk' : k < nCtx w c := by rw [wake_nCtx]; exact hk
          have hst' : ((w.core c).ctx k).st = .run := by rw [wake_core]; exact hst
          refine ⟨fun hwait => ?_, fun hwait => ?_⟩
          · have hwait' : ((w.core c).ctx k).wait = .micro := by rw [wake_core]; exact hwait
            obtain ⟨hframe, hdiscard, hreq, hjs, hmbox⟩ := discard_asks (m := m) (i := i) hf' hc' hk' hst' hwait'
            exact ⟨_, congrArg Host.Outcome.next hrun, hframe, hdiscard, hreq, hjs, hmbox.trans hbox⟩
          · exact ⟨_, congrArg Host.Outcome.next hrun, discard_suspends hf' hc' hk' hst' (by rw [wake_core]; exact hwait)⟩

end Sys2Proof.ForemanProofs
end
